-- ==== Sys2Proof/Word.lean ====
section
/-! DEFINITION. The word types of the T9 and nothing else: bytes, 32-bit and 64-bit words (R8, R54, R59, R440). -/

namespace Sys2Proof

/-- A byte of memory. -/
abbrev Byte := BitVec 8

/-- A 64-bit register, register-space word or instruction word (R8, R54). -/
abbrev Word := BitVec 64

/-- A 32-bit counter or immediate (R59, R62). -/
abbrev Half := BitVec 32

end Sys2Proof
end

