-- ==== Sys2Proof/Syntax.lean ====
section
/-! DEFINITION. The commands: one constructor of `Instr` per row of the spec's table of operations and events, with its operands. Deash instructions carry the thread that issues them and the fields of their word (R55, R57, R74); an event carries what the outside decides about it. -/

namespace Sys2Proof

/-- R19, R59: a hardware thread: an N-core's only thread, or one of the eight of an S-core. -/
inductive Tid where
  | n (core : Fin 128)
  | s (core : Fin 192) (thread : Fin 8)
  deriving DecidableEq, Repr

/-- R55, R57: the guard and the operand fields of an R-format or I-format word. `iform` says which format bits [43:0] take; `imm` is IMM32 of the I form, `b`, `c` and `md` (MOD) belong to the R form. -/
structure Opnds where
  ge : Bool
  gn : Bool
  pg : BitVec 4
  iform : Bool
  d : BitVec 6
  a : BitVec 6
  b : BitVec 6
  c : BitVec 6
  md : BitVec 20
  imm : BitVec 32
  deriving DecidableEq, Repr

/-- R74: the fields of a STREAM word. -/
structure StreamOps where
  ge : Bool
  gn : Bool
  pg : BitVec 4
  sd : BitVec 4
  fromSt : BitVec 4
  fromPort : BitVec 2
  toSt : BitVec 4
  toPort : BitVec 2
  dual : Bool
  to2St : BitVec 4
  to2Port : BitVec 2
  cnt : BitVec 5
  low : BitVec 16
  deriving DecidableEq, Repr

/-- R255: an atomic member record: its tag and its operand or value. -/
structure Member where
  src : Nat
  eng : Nat
  seq : Nat
  v : Nat
  deriving DecidableEq, Repr

/-- R254, R255: a Scauth packet: its header fields (MEMBERS is the length of the member list), member records, data bytes and the poison of its line. `dax` is the model's own: the axis of a detour under way, plus 1 (R272). -/
structure Pkt where
  ty : Nat
  vc : Nat
  det : Bool
  sgn : Bool
  src : Nat
  dst : Nat
  dom : Nat
  eng : Nat
  seq : Nat
  addr : Nat
  tries : Nat
  prior : Nat
  mask : Nat
  mem : List Member
  data : List Byte
  pois : Bool
  dax : Nat
  deriving DecidableEq, Repr

/-- R298: a collective flit or chunk: where it goes (up to the root, or down with the result), its group, sequence number and digests, whether it is uncombined (R303), its failure, its chunk number of `n` and carried values (high and low parts). MODEL'S OWN: `cnt` counts the members it carries, `root` is the root's coordinate, and `dax` the axis of a detour under way, plus 1. -/
structure Flit where
  down : Bool
  bulk : Bool
  group : Nat
  seq : Nat
  kind : Nat
  dig : Nat
  ddig : Nat
  unc : Bool
  part : Bool
  fail : Option (Nat × Nat)
  chunk : Nat
  n : Nat
  vals : List (Nat × Nat)
  cnt : Nat
  root : Nat
  dax : Nat
  deriving DecidableEq, Repr

/-- What reaches a router: a packet that a local engine has waiting, a packet from a port, or the link taking the next packet of a port's output queue. -/
inductive RouterIn where
  | own
  | port (k : Nat) (p : Pkt)
  | depart (k : Nat)
  deriving DecidableEq, Repr

/-- R401-R405: a drain module as it is inserted: its serial, its rated and written bytes, its Percentage Used, whether it reports itself read-only, whether a T9 has written it, whether its capsule verifies, whether it trains at x8, and its blocks (logical block and bytes). -/
structure ModuleIn where
  serial : Nat
  rated : Nat
  written : Nat
  pct : Nat
  ro : Bool
  touched : Bool
  genuine : Bool
  wide : Bool
  blocks : List (Nat × List Byte)
  deriving DecidableEq, Repr

/-- R124, R129, R132, R148: a station that reads its accumulators: the core, and a bit for each accumulator in which a parity error is found. -/
structure AccRead where
  core : Nat
  bad : Nat
  deriving DecidableEq, Repr

/-- R362: an image slot of the board flash: its 256-byte header, its body, and whether both could be read. -/
structure ImageSlot where
  header : List Byte
  body : List Byte
  ok : Bool
  deriving DecidableEq, Repr

/-- R435: the instructions of the test access port: BYPASS, IDCODE, SAMPLE/PRELOAD, EXTEST, and Felolma's debug instructions. -/
inductive TapIns where
  | bypass
  | idcode
  | sample
  | extest
  | debug
  deriving DecidableEq, Repr


/-- The commands of the package: one constructor per row of the table of operations and events. -/
inductive Instr where
  /-- ADD (R64): Scalar integer add modulo 2^64, in R or I form. -/
  | add (t : Tid) (o : Opnds)
  /-- SUB (R64): Scalar integer subtract modulo 2^64. -/
  | sub (t : Tid) (o : Opnds)
  /-- MUL (R64): Low 64 bits of the integer product. -/
  | mul (t : Tid) (o : Opnds)
  /-- MULHS (R64): High 64 bits of the signed product. -/
  | mulhs (t : Tid) (o : Opnds)
  /-- MULHU (R64): High 64 bits of the unsigned product. -/
  | mulhu (t : Tid) (o : Opnds)
  /-- DIVS (R66): Signed quotient truncated toward zero; never faults. -/
  | divs (t : Tid) (o : Opnds)
  /-- DIVU (R66): Unsigned quotient; divisor zero gives all ones. -/
  | divu (t : Tid) (o : Opnds)
  /-- REMS (R66): Signed remainder with the sign of xA. -/
  | rems (t : Tid) (o : Opnds)
  /-- REMU (R66): Unsigned remainder. -/
  | remu (t : Tid) (o : Opnds)
  /-- AND (R64): Bitwise and. -/
  | and (t : Tid) (o : Opnds)
  /-- OR (R64): Bitwise or. -/
  | or (t : Tid) (o : Opnds)
  /-- XOR (R64): Bitwise exclusive or. -/
  | xor (t : Tid) (o : Opnds)
  /-- SHL (R64): Shift left by xB[5:0]. -/
  | shl (t : Tid) (o : Opnds)
  /-- SHR (R64): Logical shift right. -/
  | shr (t : Tid) (o : Opnds)
  /-- SAR (R64): Arithmetic shift right. -/
  | sar (t : Tid) (o : Opnds)
  /-- MINS (R64): Signed minimum. -/
  | mins (t : Tid) (o : Opnds)
  /-- MAXS (R64): Signed maximum. -/
  | maxs (t : Tid) (o : Opnds)
  /-- MINU (R64): Unsigned minimum. -/
  | minu (t : Tid) (o : Opnds)
  /-- MAXU (R64): Unsigned maximum. -/
  | maxu (t : Tid) (o : Opnds)
  /-- CMPEQ (R60): Integer equality compare written to every bit of pD. -/
  | cmpeq (t : Tid) (o : Opnds)
  /-- CMPNE (R60): Integer inequality compare into pD. -/
  | cmpne (t : Tid) (o : Opnds)
  /-- CMPLTS (R60): Signed less-than compare into pD. -/
  | cmplts (t : Tid) (o : Opnds)
  /-- CMPLTU (R60): Unsigned less-than compare into pD. -/
  | cmpltu (t : Tid) (o : Opnds)
  /-- CMPLES (R60): Signed less-or-equal compare into pD. -/
  | cmples (t : Tid) (o : Opnds)
  /-- CMPLEU (R60): Unsigned less-or-equal compare into pD. -/
  | cmpleu (t : Tid) (o : Opnds)
  /-- MOV (R64): Register move, or MOVI of a sign-extended immediate. -/
  | mov (t : Tid) (o : Opnds)
  /-- MOVHI (R62): Write IMM32 to bits [63:32] of xD, keeping the low half. -/
  | movhi (t : Tid) (o : Opnds)
  /-- LD1 (R68): Load 1 byte zero-extended. -/
  | ld1 (t : Tid) (o : Opnds)
  /-- LD2 (R68): Load 2 aligned bytes zero-extended. -/
  | ld2 (t : Tid) (o : Opnds)
  /-- LD4 (R68): Load 4 aligned bytes zero-extended. -/
  | ld4 (t : Tid) (o : Opnds)
  /-- LD8 (R68): Load 8 aligned bytes. -/
  | ld8 (t : Tid) (o : Opnds)
  /-- ST1 (R68): Store the low byte of xD. -/
  | st1 (t : Tid) (o : Opnds)
  /-- ST2 (R68): Store the low 2 bytes of xD. -/
  | st2 (t : Tid) (o : Opnds)
  /-- ST4 (R68): Store the low 4 bytes of xD. -/
  | st4 (t : Tid) (o : Opnds)
  /-- ST8 (R68): Store 8 bytes of xD. -/
  | st8 (t : Tid) (o : Opnds)
  /-- FLD (R68): Load 8 bytes into fD. -/
  | fld (t : Tid) (o : Opnds)
  /-- FST (R68): Store fD. -/
  | fst (t : Tid) (o : Opnds)
  /-- FADD (R67): Binary64 add, round to nearest even, writing nstat. -/
  | fadd (t : Tid) (o : Opnds)
  /-- FSUB (R67): Binary64 subtract. -/
  | fsub (t : Tid) (o : Opnds)
  /-- FMUL (R67): Binary64 multiply. -/
  | fmul (t : Tid) (o : Opnds)
  /-- FDIV (R67): Binary64 divide; division by zero gives a signed infinity. -/
  | fdiv (t : Tid) (o : Opnds)
  /-- FSQRT (R67): Binary64 square root. -/
  | fsqrt (t : Tid) (o : Opnds)
  /-- FFMA (R67): Binary64 fused multiply-add rounded once. -/
  | ffma (t : Tid) (o : Opnds)
  /-- FMIN (R67): minimumNumber of two binary64 values. -/
  | fmin (t : Tid) (o : Opnds)
  /-- FMAX (R67): maximumNumber of two binary64 values. -/
  | fmax (t : Tid) (o : Opnds)
  /-- FCMPEQ (R64): Binary64 equality compare into pD, false on NaN. -/
  | fcmpeq (t : Tid) (o : Opnds)
  /-- FCMPLT (R64): Binary64 less-than compare into pD. -/
  | fcmplt (t : Tid) (o : Opnds)
  /-- FCMPLE (R64): Binary64 less-or-equal compare into pD. -/
  | fcmple (t : Tid) (o : Opnds)
  /-- FCVTI (R67): Convert fA to signed 64-bit integer, saturating and counting. -/
  | fcvti (t : Tid) (o : Opnds)
  /-- FCVTF (R64): Convert signed xA to binary64. -/
  | fcvtf (t : Tid) (o : Opnds)
  /-- FMOVX (R67): Move the bit pattern of fA to xD. -/
  | fmovx (t : Tid) (o : Opnds)
  /-- FMOVF (R67): Move the bit pattern of xA to fD. -/
  | fmovf (t : Tid) (o : Opnds)
  /-- PAND (R64): Predicate and. -/
  | pand (t : Tid) (o : Opnds)
  /-- POR (R64): Predicate or. -/
  | por (t : Tid) (o : Opnds)
  /-- PXOR (R64): Predicate exclusive or. -/
  | pxor (t : Tid) (o : Opnds)
  /-- PNOT (R64): Predicate not. -/
  | pnot (t : Tid) (o : Opnds)
  /-- PSET (R64): Set every bit of pD to IMM32[0]. -/
  | pset (t : Tid) (o : Opnds)
  /-- RDLTC (R30): Read the local time counter of the thread's own die. -/
  | rdltc (t : Tid) (o : Opnds)
  /-- RDNSTAT (R79): Read nstat into xD. -/
  | rdnstat (t : Tid) (o : Opnds)
  /-- NSTCLR (R79): Clear nstat including its sticky bits. -/
  | nstclr (t : Tid) (o : Opnds)
  /-- RDCTR (R82): Read a per-context numeric counter, including counts ordered before it. -/
  | rdctr (t : Tid) (o : Opnds)
  /-- RDID (R65): Write the thread's identity to xD. -/
  | rdid (t : Tid) (o : Opnds)
  /-- BR (R69): Branch relative by IMM32 words. -/
  | br (t : Tid) (o : Opnds)
  /-- JAL (R69): Jump and link relative. -/
  | jal (t : Tid) (o : Opnds)
  /-- JR (R69): Jump to xA + IMM32 and link. -/
  | jr (t : Tid) (o : Opnds)
  /-- END (R70): Stall until the thread's started work finishes, then stop the thread and report to the dispatcher. -/
  | endProg (t : Tid) (o : Opnds)
  /-- NOP (R69): Retire with no effect. -/
  | nop (t : Tid) (o : Opnds)
  /-- TRACE (R71): Emit a trace record if enabled, or count a drop. -/
  | trace (t : Tid) (o : Opnds)
  /-- SETC (R45): Set an arrival counter. -/
  | setc (t : Tid) (o : Opnds)
  /-- WAIT (R45): Stall until the counter reaches the immediate threshold. -/
  | wait (t : Tid) (o : Opnds)
  /-- WAITR (R72): Stall until the counter reaches the threshold in xB. -/
  | waitr (t : Tid) (o : Opnds)
  /-- WAITD (R72): Stall until the counter reaches xB or the LTC reaches the deadline in xC. -/
  | waitd (t : Tid) (o : Opnds)
  /-- WAIT_RELEASE (R45): A stalled WAIT, WAITR or WAITD retires when its counter condition becomes true. -/
  | waitRelease (t : Tid)
  /-- WAITD_DEADLINE (R72): The LTC reaches a WAITD deadline; pD is set to 0 and the wait ends. -/
  | waitdDeadline (t : Tid)
  /-- FENCE (R72): Stall until earlier scalar stores are visible package-wide. -/
  | fence (t : Tid) (o : Opnds)
  /-- FENCE_COMPLETE (R248): Every earlier store of the fencing thread has been acknowledged by its home, and the thread proceeds. -/
  | fenceComplete (t : Tid)
  /-- STREAM (R42): Bind a stream between ports, taking a queue after the binding and descriptor checks. -/
  | stream (t : Tid) (o : StreamOps)
  /-- SDLD_B (R39): Load descriptor words 0-2 with E fields computed. -/
  | sdldB (t : Tid) (o : Opnds)
  /-- SDLD_E (R39): Load all eight descriptor words. -/
  | sdldE (t : Tid) (o : Opnds)
  /-- SDADD (R73): Add xA to a descriptor's BASE. -/
  | sdadd (t : Tid) (o : Opnds)
  /-- COPY (R38): Submit a COPY request from one descriptor to another. -/
  | copy (t : Tid) (o : Opnds)
  /-- RGET (R76): Remote read of lines into local memory, counting landed lines. -/
  | rget (t : Tid) (o : Opnds)
  /-- RPUT (R76): Remote write of lines with a byte mask. -/
  | rput (t : Tid) (o : Opnds)
  /-- RPUTF (R76): Remote flag write held behind earlier writes. -/
  | rputf (t : Tid) (o : Opnds)
  /-- RADD (R77): Remote atomic add. -/
  | radd (t : Tid) (o : Opnds)
  /-- RMIN (R77): Remote atomic minimum. -/
  | rmin (t : Tid) (o : Opnds)
  /-- RMAX (R77): Remote atomic maximum. -/
  | rmax (t : Tid) (o : Opnds)
  /-- RAND (R77): Remote atomic and. -/
  | rand (t : Tid) (o : Opnds)
  /-- ROR (R77): Remote atomic or. -/
  | ror (t : Tid) (o : Opnds)
  /-- RXOR (R77): Remote atomic exclusive or. -/
  | rxor (t : Tid) (o : Opnds)
  /-- RSWAP (R77): Remote atomic swap. -/
  | rswap (t : Tid) (o : Opnds)
  /-- RCAS8 (R77): Remote 8-byte compare and swap. -/
  | rcas8 (t : Tid) (o : Opnds)
  /-- RCAS16 (R77): Remote 16-byte compare and swap. -/
  | rcas16 (t : Tid) (o : Opnds)
  /-- MXPASS_B (R123): Configure MATRIX passes in basic form. -/
  | mxpassB (t : Tid) (o : Opnds)
  /-- MXPASS_E (R123): Configure MATRIX passes in expert form. -/
  | mxpassE (t : Tid) (o : Opnds)
  /-- MXSWAP (R117): Request a stationary bank swap. -/
  | mxswap (t : Tid) (o : Opnds)
  /-- MXEND (R124): End the open MATRIX pass and read it out. -/
  | mxend (t : Tid) (o : Opnds)
  /-- TRSET_B (R128): Configure a trestle sweep in basic form. -/
  | trsetB (t : Tid) (o : Opnds)
  /-- TRSET_E (R128): Configure a trestle sweep in expert form. -/
  | trsetE (t : Tid) (o : Opnds)
  /-- TREND (R128): End the open sweep and read it out. -/
  | trend (t : Tid) (o : Opnds)
  /-- EWE_RUN_B (R144): Put a program slot in force with NUMCTL 0 and set k0. -/
  | eweRunB (t : Tid) (o : Opnds)
  /-- EWE_RUN_E (R144): Put a program slot in force with NUMCTL from A. -/
  | eweRunE (t : Tid) (o : Opnds)
  /-- EWE_IMM (R141): Write an immediate to k1-k3. -/
  | eweImm (t : Tid) (o : Opnds)
  /-- EWE_LDP (R445): Check and load an element program image into a slot. -/
  | eweLdp (t : Tid) (o : Opnds)
  /-- EWE_LDR (R445): Load 256 bytes into an element register. -/
  | eweLdr (t : Tid) (o : Opnds)
  /-- EWE_STR (R445): Store an element register. -/
  | eweStr (t : Tid) (o : Opnds)
  /-- EWE_REXEC (R146): Run an element program on registers. -/
  | eweRexec (t : Tid) (o : Opnds)
  /-- RDU_OP_B (R155): Open a reduce operation in basic form. -/
  | rduOpB (t : Tid) (o : Opnds)
  /-- RDU_OP_E (R155): Open a reduce operation in expert form. -/
  | rduOpE (t : Tid) (o : Opnds)
  /-- RDU_END (R155): End the open reduce operation and read out its incomplete group. -/
  | rduEnd (t : Tid) (o : Opnds)
  /-- RDU_RREG (R156): Reduce an element register into fD. -/
  | rduRreg (t : Tid) (o : Opnds)
  /-- CLASS_INSTRUCTION_AT_STATION (R35): A MATRIX, TRESTLE, ELEMENT or REDUCE class instruction reaches its station in arrival order with the tiles and takes effect. -/
  | classInstructionAtStation (core : Nat) (station : Nat)
  /-- SETVL (R162): Set vtype and vl from an immediate type. -/
  | setvl (t : Tid) (o : Opnds)
  /-- SETVLR (R162): Set vtype and vl from a register type. -/
  | setvlr (t : Tid) (o : Opnds)
  /-- VLD (R174): Unit-stride vector load with element-precise faults. -/
  | vld (t : Tid) (o : Opnds)
  /-- VLDFF (R175): First-fault unit-stride vector load. -/
  | vldff (t : Tid) (o : Opnds)
  /-- VLDS (R173): Strided vector load. -/
  | vlds (t : Tid) (o : Opnds)
  /-- VLDX (R173): Indexed gather load. -/
  | vldx (t : Tid) (o : Opnds)
  /-- VLDXFF (R175): First-fault gather load. -/
  | vldxff (t : Tid) (o : Opnds)
  /-- VLDSEG (R166): Structure load into NF+1 registers. -/
  | vldseg (t : Tid) (o : Opnds)
  /-- VRGATHER (R177): Remote gather issuing reads while switching threads. -/
  | vrgather (t : Tid) (o : Opnds)
  /-- VST (R173): Unit-stride vector store. -/
  | vst (t : Tid) (o : Opnds)
  /-- VSTS (R173): Strided vector store. -/
  | vsts (t : Tid) (o : Opnds)
  /-- VSTX (R173): Scatter store, higher index wins. -/
  | vstx (t : Tid) (o : Opnds)
  /-- VSTSEG (R166): Structure store. -/
  | vstseg (t : Tid) (o : Opnds)
  /-- VFADD (R168): Vector FP add. -/
  | vfadd (t : Tid) (o : Opnds)
  /-- VFSUB (R168): Vector FP subtract. -/
  | vfsub (t : Tid) (o : Opnds)
  /-- VFMUL (R168): Vector FP multiply. -/
  | vfmul (t : Tid) (o : Opnds)
  /-- VFDIV (R168): Vector FP divide. -/
  | vfdiv (t : Tid) (o : Opnds)
  /-- VFSQRT (R168): Vector FP square root. -/
  | vfsqrt (t : Tid) (o : Opnds)
  /-- VFMA (R168): Vector FP fused multiply-add. -/
  | vfma (t : Tid) (o : Opnds)
  /-- VFMIN (R166): Vector minimumNumber. -/
  | vfmin (t : Tid) (o : Opnds)
  /-- VFMAX (R166): Vector maximumNumber. -/
  | vfmax (t : Tid) (o : Opnds)
  /-- VFCMPEQ (R163): Vector FP equality compare into pD. -/
  | vfcmpeq (t : Tid) (o : Opnds)
  /-- VFCMPLT (R163): Vector FP less-than compare into pD. -/
  | vfcmplt (t : Tid) (o : Opnds)
  /-- VFCMPLE (R163): Vector FP less-or-equal compare into pD. -/
  | vfcmple (t : Tid) (o : Opnds)
  /-- VCVT (R168): Vector conversion to type TT, packed into one or more registers. -/
  | vcvt (t : Tid) (o : Opnds)
  /-- VADD (R166): Wrapping vector integer add. -/
  | vadd (t : Tid) (o : Opnds)
  /-- VSUB (R166): Wrapping vector integer subtract. -/
  | vsub (t : Tid) (o : Opnds)
  /-- VSADD (R172): Saturating vector add. -/
  | vsadd (t : Tid) (o : Opnds)
  /-- VSSUB (R172): Saturating vector subtract. -/
  | vssub (t : Tid) (o : Opnds)
  /-- VAADD (R172): Averaging add rounded by FXRM. -/
  | vaadd (t : Tid) (o : Opnds)
  /-- VMUL (R166): Low half of the vector product. -/
  | vmul (t : Tid) (o : Opnds)
  /-- VMULH (R172): High product rounded by FXRM. -/
  | vmulh (t : Tid) (o : Opnds)
  /-- VMULHQ (R172): Fractional product rounded and saturated. -/
  | vmulhq (t : Tid) (o : Opnds)
  /-- VMIN (R166): Signed vector minimum. -/
  | vmin (t : Tid) (o : Opnds)
  /-- VMAX (R166): Signed vector maximum. -/
  | vmax (t : Tid) (o : Opnds)
  /-- VAND (R166): Vector bitwise and. -/
  | vand (t : Tid) (o : Opnds)
  /-- VOR (R166): Vector bitwise or. -/
  | vor (t : Tid) (o : Opnds)
  /-- VXOR (R166): Vector bitwise exclusive or. -/
  | vxor (t : Tid) (o : Opnds)
  /-- VSHL (R165): Vector left shift, wrapping. -/
  | vshl (t : Tid) (o : Opnds)
  /-- VSRA (R172): Vector arithmetic right shift rounded by FXRM. -/
  | vsra (t : Tid) (o : Opnds)
  /-- VNSHR (R172): Narrowing shift rounded and saturated to TT. -/
  | vnshr (t : Tid) (o : Opnds)
  /-- VCMPEQ (R163): Vector integer equality compare into pD. -/
  | vcmpeq (t : Tid) (o : Opnds)
  /-- VCMPLT (R163): Vector signed less-than compare into pD. -/
  | vcmplt (t : Tid) (o : Opnds)
  /-- VDOT (R170): Accumulate exact products into a dot-product accumulator. -/
  | vdot (t : Tid) (o : Opnds)
  /-- VACCADD (R170): Add one accumulator into another. -/
  | vaccadd (t : Tid) (o : Opnds)
  /-- VDOTR (R171): Round an accumulator once to binary64 into fD. -/
  | vdotr (t : Tid) (o : Opnds)
  /-- VREDSUM (R171): Sum over active elements. -/
  | vredsum (t : Tid) (o : Opnds)
  /-- VREDMAX (R171): Maximum over active elements. -/
  | vredmax (t : Tid) (o : Opnds)
  /-- VREDMIN (R171): Minimum over active elements. -/
  | vredmin (t : Tid) (o : Opnds)
  /-- VPCNT (R166): Count set predicate bits below vl. -/
  | vpcnt (t : Tid) (o : Opnds)
  /-- VPFIRST (R166): Index of the lowest set predicate bit below vl. -/
  | vpfirst (t : Tid) (o : Opnds)
  /-- VMOV (R166): Vector move or scalar broadcast. -/
  | vmov (t : Tid) (o : Opnds)
  /-- VIOTA (R166): Write element indices. -/
  | viota (t : Tid) (o : Opnds)
  /-- SOLVE_B (R186): Issue a solve with a 64-byte basic descriptor. -/
  | solveB (t : Tid) (o : Opnds)
  /-- SOLVE_E (R186): Issue a solve with a 256-byte expert descriptor. -/
  | solveE (t : Tid) (o : Opnds)
  /-- LVU_WAKE_DONE (R180): The LVU wake ends and the stalled threads proceed. -/
  | lvuWakeDone (core : Nat)
  /-- LVU_POWER_DOWN (R180): The idle time expires and the LVU powers down, keeping its registers. -/
  | lvuPowerDown (core : Nat)
  /-- LOAD_TILE_READY (R42): A LOAD station's memory read for a tile completes and the tile enters its queue. -/
  | loadTileReady (core : Nat)
  /-- MATRIX_ACTIVATION_TILE (R124): MATRIX takes an activation tile into the array for its accumulator in the rotation. -/
  | matrixActivationTile (core : Nat)
  /-- MATRIX_STATIONARY_TILE (R117): MATRIX takes a MATRIX.s tile as a stationary block or initial partial. -/
  | matrixStationaryTile (core : Nat)
  /-- MATRIX_READOUT (R124): A pass ends and its accumulators are read out to MATRIX.p and cleared. -/
  | matrixReadout (who : AccRead)
  /-- TRESTLE_WEIGHT_TILE (R129): TRESTLE takes a weight tile into the open sweep. -/
  | trestleWeightTile (core : Nat)
  /-- TRESTLE_READOUT (R129): A sweep's results are written to TRESTLE.p or element registers after its latency. -/
  | trestleReadout (who : AccRead)
  /-- ELEMENT_TILE (R140): ELEMENT takes an x tile, pairs y, runs the program and produces z. -/
  | elementTile (core : Nat)
  /-- REDUCE_TILE (R148): REDUCE takes a tile into the open operation and its group. -/
  | reduceTile (who : AccRead)
  /-- STORE_TILE (R443): A STORE station takes a tile and writes it at its walk address. -/
  | storeTile (core : Nat)
  /-- STORE_TILE_VISIBLE (R44): A stored tile becomes visible package-wide and its arrival counter rises. -/
  | storeTileVisible (core : Nat)
  /-- FABRIC_PUT_TILE (R264): FABRIC.put takes a tile and sends its lines as WRITEs. -/
  | fabricPutTile (core : Nat)
  /-- FABRIC_GET_TILE_READY (R264): All lines of a FABRIC.get tile have returned and the tile enters its queue. -/
  | fabricGetTileReady (core : Nat)
  /-- COPY_REQUEST_SERVE (R38): The cluster copy engine takes the next request in round-robin and moves its lines. -/
  | copyRequestServe (cpe : Nat)
  /-- COPY_LINE_LANDED (R44): A copied or fetched line becomes visible and counts. -/
  | copyLineLanded (cpe : Nat)
  /-- NCO_PREEMPT_REQ (R49): Writing NCO_PREEMPT.REQ stops issue and starts the save of the N-core context. -/
  | ncoPreemptReq (core : Nat) (v : Word)
  /-- PREEMPT_SAVE_DONE (R49): The N-core save image has been written and DONE is set. -/
  | preemptSaveDone (core : Nat)
  /-- SOLVE_START (R194): The SVU takes the next queued solve, claims a timer, checks it and begins the method. -/
  | solveStart (svu : Nat)
  /-- BOUNDARY_REDUCTION_RESULT (R207): A solve's boundary reduction returns with its vote and the rank continues or stops. -/
  | boundaryReductionResult (svu : Nat)
  /-- SOLVE_DEADLINE_EXPIRY (R208): A rank's deadline passes, abandoning a partial factor during setup. -/
  | solveDeadlineExpiry (svu : Nat)
  /-- PATROL_SCRUB_READ (R217): The patrol scrub reads the next line on its schedule. -/
  | patrolScrubRead (line : Nat) (syms : Nat)
  /-- REMAP_COPY_DONE (R235): The remap copy finishes and held accesses are served from the spare. -/
  | remapCopyDone (h : Nat) (i : Nat)
  /-- HOT_CHANNEL_WINDOW_END (R225): A hot-channel window ends and the channel counts are compared. -/
  | hotChannelWindowEnd (h : Nat) (p : Nat) (counts : List Nat)
  /-- MEM_PART_CFG_VALID (R221): Writing VALID puts an owner in force with a new key, or is refused. -/
  | memPartCfgValid (h : Nat) (p : Nat) (v : Word)
  /-- LLM_PART_CFG_APPLY (R229): Writing APPLY starts a new way split, or is refused. -/
  | llmPartCfgApply (h : Nat) (p : Nat) (v : Word)
  /-- LLM_SPLIT_DONE (R229): The ways of a split are drained, cleared and joined, and PENDING clears. -/
  | llmSplitDone (h : Nat) (p : Nat)
  /-- RGL_PART_WRITE (R233): A regulator setting is applied, or ignored with OVERCOMMIT. -/
  | rglPartWrite (h : Nat) (p : Nat) (v : Word)
  /-- ARCH_LINK_CRC_FAIL (R249): An arch-link transfer fails its CRC and is resent; eight failures are fatal. -/
  | archLinkCrcFail (h : Nat) (resends : Nat)
  /-- PKT_READ (R259): A READ request arrives at the target and is checked and served. -/
  | pktRead (p : Pkt) (busy : Bool)
  /-- PKT_WRITE (R260): A WRITE request arrives, is applied at home and acknowledged. -/
  | pktWrite (p : Pkt) (busy : Bool)
  /-- PKT_WRITEF (R261): A WRITEF arrives and is held until PRIOR earlier writes are applied. -/
  | pktWritef (p : Pkt) (busy : Bool) (waits : List Nat)
  /-- PKT_ADD (R260): An ADD atomic or bundle arrives and is applied indivisibly. -/
  | pktAdd (p : Pkt) (busy : Bool)
  /-- PKT_MIN (R260): A MIN atomic arrives and is applied. -/
  | pktMin (p : Pkt) (busy : Bool)
  /-- PKT_MAX (R260): A MAX atomic arrives and is applied. -/
  | pktMax (p : Pkt) (busy : Bool)
  /-- PKT_AND (R260): An AND atomic arrives and is applied. -/
  | pktAnd (p : Pkt) (busy : Bool)
  /-- PKT_OR (R260): An OR atomic arrives and is applied. -/
  | pktOr (p : Pkt) (busy : Bool)
  /-- PKT_XOR (R260): An XOR atomic arrives and is applied. -/
  | pktXor (p : Pkt) (busy : Bool)
  /-- PKT_SWAP (R260): A SWAP atomic arrives and is applied. -/
  | pktSwap (p : Pkt) (busy : Bool)
  /-- PKT_CAS8 (R260): A CAS8 atomic arrives and is applied. -/
  | pktCas8 (p : Pkt) (busy : Bool)
  /-- PKT_CAS16 (R260): A CAS16 atomic arrives and is applied. -/
  | pktCas16 (p : Pkt) (busy : Bool)
  /-- PKT_DATA (R262): A DATA reply lands at the source and counts. -/
  | pktData (p : Pkt)
  /-- PKT_ACK (R262): An ACK reply reaches the source and counts the line. -/
  | pktAck (p : Pkt)
  /-- PKT_VALUE (R77): A VALUE reply writes the prior value and status of an atomic. -/
  | pktValue (p : Pkt)
  /-- PKT_NACK_BUSY (R273): A NACK_BUSY reply reaches the source, which waits the hint or fails after 8. -/
  | pktNackBusy (p : Pkt)
  /-- PKT_NACK_DOMAIN (R265): A NACK_DOMAIN reply ends the operation finally. -/
  | pktNackDomain (p : Pkt)
  /-- PKT_UNREACHABLE (R265): An UNREACHABLE reply ends the operation finally. -/
  | pktUnreachable (p : Pkt)
  /-- PKT_FAULT (R265): A FAULT reply ends the operation finally. -/
  | pktFault (p : Pkt)
  /-- RETRY_AFTER_EXPIRY (R273): The NACK hint elapses and the request is resent with the same tag. -/
  | retryAfterExpiry (eng : Nat) (seq : Nat)
  /-- RESEND_TIMEOUT (R275): No reply 20 us after a send: resend, or end REMOTE_UNREACHABLE or OUTCOME_UNKNOWN. -/
  | resendTimeout (eng : Nat) (seq : Nat)
  /-- RCACHE_ENTRY_EXPIRY (R274): A reply-cache entry's retention time ends and the entry frees. -/
  | rcacheEntryExpiry (src : Nat) (eng : Nat) (seq : Nat)
  /-- ROUTER_FORWARD (R271): A router forwards a packet in dimension order. -/
  | routerForward (i : RouterIn)
  /-- SCAUTH_LINK_REPLAY (R273): A flit failing its CRC or tag is resent from the replay buffer. -/
  | scauthLinkReplay (port : Nat) (fails : Nat)
  /-- KEEPALIVE_SEND (R276): A port sends a keep-alive control block every 200 ns. -/
  | keepaliveSend (port : Nat)
  /-- KEEPALIVE_RECEIVED (R276): A valid control block arrives and restarts the port's silence timer. -/
  | keepaliveReceived (port : Nat)
  /-- PORT_SILENCE_TIMEOUT (R276): No valid control block for 1 us declares the port down. -/
  | portSilenceTimeout (port : Nat)
  /-- LOSS_OF_LOCK (R276): A port loses lock and is declared down 500 ns later. -/
  | lossOfLock (port : Nat)
  /-- LEAVING_RECEIVED (R276): A LEAVING control block declares the port down at once. -/
  | leavingReceived (port : Nat)
  /-- PORT_TRAINED (R270): A port completes training and enters PARAPET, or ACTIVE if so set. -/
  | portTrained (port : Nat)
  /-- LOST_NOTICE (R277): A LOST notice arrives, enters SCF_LOST and ends requests to the coordinate. -/
  | lostNotice (port : Nat) (coord : Nat) (cause : Nat)
  /-- SCF_COORD_WRITE (R253): Writing the coordinate locks it and releases ports waiting for ACTIVE. -/
  | scfCoordWrite (v : Word)
  /-- SCF_PORT_CTL_WRITE (R270): Writing MODE holds a port DOWN, in PARAPET or ACTIVE. -/
  | scfPortCtlWrite (port : Nat) (v : Word)
  /-- SCF_DOMAIN_WRITE (R269): A domain ID write is applied or refused CONFLICT. -/
  | scfDomainWrite (p : Nat) (v : Word)
  /-- SCF_SLOT_SPLIT_WRITE (R268): Writing RED changes the reduction reserve for later claims. -/
  | scfSlotSplitWrite (v : Word)
  /-- WIN_ENTRY_WORD1_WRITE (R257): A write to window word 1 is held until word 0 is written. -/
  | winEntryWord1Write (i : Nat) (v : Word)
  /-- WIN_ENTRY_WORD0_WRITE (R257): A write to window word 0 makes both words take effect together. -/
  | winEntryWord0Write (i : Nat) (v : Word)
  /-- COL_GROUP_VALID (R285): Writing VALID checks a group descriptor and resets its SEQ. -/
  | colGroupValid (g : Nat) (v : Word)
  /-- COL_TRIG_VALID (R306): Writing VALID checks a trigger entry. -/
  | colTrigValid (t : Nat) (v : Word)
  /-- COL_TADD (R290): A store adds to a trigger counter owned by the context. -/
  | colTadd (ctx : Nat) (n : Nat) (v : Word)
  /-- COLLECTIVE_QUEUED_START (R293): A firing waiting for an engine or sequence window starts running. -/
  | collectiveQueuedStart (id : Nat)
  /-- COLLECTIVE_FLIT (R295): An express flit reaches a router or engine and is matched, combined or forwarded. -/
  | collectiveFlit (port : Nat) (f : Flit)
  /-- BULK_CHUNK (R297): A bulk 64-byte chunk reaches a router or engine and is combined. -/
  | bulkChunk (port : Nat) (f : Flit)
  /-- MATCH_RETRY (R299): A refused flit is resent after 1 us. -/
  | matchRetry (port : Nat) (f : Flit)
  /-- COLLECTIVE_COMPLETE (R292): The result reaches a member, DST and the status word are written and DONE_CTR rises. -/
  | collectiveComplete (id : Nat)
  /-- COLL_WATCHDOG (R301): A collective's watchdog expires with COLL_TIMEOUT. -/
  | collWatchdog (id : Nat)
  /-- CUT_VOTE_RESULT (R343): The cut vote returns and the outcome is taken. -/
  | cutVoteResult (p : Nat)
  /-- CUT_COPY_DONE (R344): The copy into the cofferdams ends and the copied vote is taken. -/
  | cutCopyDone (p : Nat)
  /-- COPIED_VOTE_RESULT (R344): The copied vote returns; the cut is released and drained, or abandoned. -/
  | copiedVoteResult (p : Nat)
  /-- DRAIN_SEAL (R346): Every drained byte is acknowledged, manifests are written and the cut is sealed. -/
  | drainSeal (p : Nat)
  /-- DRAIN_WRITE_FAIL (R347): A drain-module write fails and the drain stops without a manifest. -/
  | drainWriteFail (p : Nat)
  /-- RESTORE_LOCAL_DONE (R351): A package's restore part ends and the restore vote is taken. -/
  | restoreLocalDone (p : Nat)
  /-- RESTORE_VOTE_RESULT (R351): The restore vote returns with success, fallback or failure. -/
  | restoreVoteResult (p : Nat)
  /-- ERROR_WATCH_WINDOW (R341): An error-rate watch window ends and its comparisons may raise CKPT_WARN. -/
  | errorWatchWindow
  /-- CKP_CFG_VALID (R335): Writing VALID checks and enables checkpointing of a partition. -/
  | ckpCfgValid (p : Nat) (v : Word)
  /-- CKP_CMD_CUT (R340): Request a cut. -/
  | ckpCmdCut (p : Nat)
  /-- CKP_CMD_RESTORE_COFFERDAM (R349): Start a restore from the cofferdam. -/
  | ckpCmdRestoreCofferdam (p : Nat)
  /-- CKP_CMD_RESTORE_MODULES (R349): Start a restore from the drain modules. -/
  | ckpCmdRestoreModules (p : Nat)
  /-- CKP_CMD_RESTORE_MIRROR (R354): Start a restore from the buddies' mirrors. -/
  | ckpCmdRestoreMirror (p : Nat)
  /-- CKP_CMD_RESHARD (R358): Restore a cut to the staging range. -/
  | ckpCmdReshard (p : Nat) (source : Nat)
  /-- CKP_CMD_STOP (R347): Stop the drain. -/
  | ckpCmdStop (p : Nat)
  /-- CKP_CMD_RVOTE (R353): Take the restore vote. -/
  | ckpCmdRvote (p : Nat)
  /-- HOST_LINE_INVALIDATED (R318): The host index line is invalidated and the front-end re-reads it. -/
  | hostLineInvalidated (r : Nat)
  /-- HOST_INDEX_LINE_ARRIVAL (R319): The re-read index line arrives and descriptors are taken while completion room remains. -/
  | hostIndexLineArrival (r : Nat) (sqPi : Nat) (cqCi : Nat)
  /-- LAUNCH (R322): A LAUNCH descriptor starts threads on the core set. -/
  | launch (r : Nat) (bytes : List Byte)
  /-- TADD (R322): A TADD descriptor adds to a trigger counter. -/
  | tadd (r : Nat) (bytes : List Byte)
  /-- MARK (R322): A MARK descriptor completes after the earlier descriptors. -/
  | mark (r : Nat) (bytes : List Byte)
  /-- DEVICE_INDEX_LINE_WRITE (R315): After the host acknowledges records, CQ_PI and SQ_CI are written. -/
  | deviceIndexLineWrite (r : Nat)
  /-- FAULT_RECORD_WRITE (R327): A fault record is written to the fault ring when it has room. -/
  | faultRecordWrite
  /-- LAUNCH_WATCHDOG (R327): Timer 3 expires and the LAUNCH's running threads are stopped. -/
  | launchWatchdog (r : Nat) (ix : Nat)
  /-- DSP_TCTL_RESUME (R328): Restart a faulted thread at its faulting point. -/
  | dspTctlResume (t : Tid)
  /-- DSP_TCTL_ABANDON (R328): End a faulted thread and discard its state. -/
  | dspTctlAbandon (t : Tid)
  /-- DSP_TLBINV_GO (R325): Start a translation invalidation. -/
  | dspTlbinvGo (v : Word)
  /-- TLBINV_DONE (R325): The invalidation completes and DONE is set. -/
  | tlbinvDone
  /-- DSP_CTXDEF_VALID (R326): Create or destroy a context, or refuse. -/
  | dspCtxdefValid (c : Nat) (v : Word)
  /-- DSP_CSET_WRITE (R326): Change a core set, or refuse. -/
  | dspCsetWrite (c : Nat) (k : Nat) (w : Nat) (v : Word)
  /-- DSP_CFG_ENABLE (R331): Enable the front-end and deliver held records. -/
  | dspCfgEnable (v : Word)
  /-- DSP_RING_ENABLE (R318): Enable a ring, reading its host index line. -/
  | dspRingEnable (r : Nat) (v : Word)
  /-- DSP_LOGCLAIM (R329): A read claims a log slot and advances WPTR. -/
  | dspLogclaim (p : Nat)
  /-- HOST_READ (R314): A host read of device memory is answered. -/
  | hostRead (addr : Nat) (n : Nat) (hold : Nat)
  /-- HOST_WRITE (R316): A host write to device memory is applied. -/
  | hostWrite (addr : Nat) (bytes : List Byte) (hold : Nat)
  /-- PLK_PORT_DOWN (R313): A Palale Link port is declared down and traffic moves to the other. -/
  | plkPortDown (port : Nat)
  /-- PLK_PORT_UP (R313): A Palale Link port completes training and carries traffic. -/
  | plkPortUp (port : Nat)
  /-- PLK_FLIT_RESEND (R371): A Palale flit failing its CRC or tag is resent. -/
  | plkFlitResend (port : Nat) (fails : Nat)
  /-- KEYSWITCH (R371): After answering earlier requests, the device sends KEYSWITCH and sets ADMITTED. -/
  | keyswitch
  /-- SEC_CMD_REPORT (R368): Build and deliver an attestation report. -/
  | secCmdReport
  /-- SEC_CMD_ADMIT (R370): Derive session keys from the host key. -/
  | secCmdAdmit
  /-- SEC_CMD_ENDSESSION (R371): End the session and erase session keys. -/
  | secCmdEndsession
  /-- SEC_KSLOT_LOAD (R372): Unwrap a slot key. -/
  | secKslotLoad (k : Nat) (v : Word)
  /-- SEC_MEAS_GO (R365): Lock and start hashing a measured range. -/
  | secMeasGo (h : Nat) (i : Nat) (v : Word)
  /-- MEASUREMENT_DONE (R367): The range digest is written and the chain extended in GO order. -/
  | measurementDone (h : Nat) (i : Nat)
  /-- SEC_RELEASE_GO (R378): Release and scrub a partition, or refuse. -/
  | secReleaseGo (v : Word)
  /-- SCRUB_DONE (R379): The scrub finishes and SEC_SCRUB.DONE is set. -/
  | scrubDone (p : Nat)
  /-- CE_SUMMARY_PERIOD (R387): A summary period ends and a CE_SUMMARY record is written. -/
  | ceSummaryPeriod
  /-- REFCLK_LOSS (R28): The reference is absent for more than 1 us. -/
  | refclkLoss
  /-- REFCLK_RETURN (R30): The reference returns and the LTC goes back to it. -/
  | refclkReturn
  /-- RAIL_FAULT (R413): A rail is out of regulation for 20 us, a fatal error. -/
  | railFault (rail : Nat)
  /-- SEQUENCER_TIMEOUT (R386): A hardware sequencer fails to complete within its limit. -/
  | sequencerTimeout (die : Nat)
  /-- POWER_SAMPLE (R422): Input power is sampled every 10 us and DUTY is adjusted. -/
  | powerSample (w : Nat) (mv : Nat) (ca : Nat)
  /-- THERMAL_SAMPLE (R423): Junction temperature is sensed every 10 us and DUTY throttled. -/
  | thermalSample (temps : List Nat)
  /-- THERMAL_TRIP (R423): A die above 110 C for 1 ms trips fatally. -/
  | thermalTrip (die : Nat) (temp : Nat)
  /-- POWER_LOSS (R394): PWRGOOD falls or input falls below 39 V; records are finished and MRAM protected. -/
  | powerLoss (cause : Nat)
  /-- POWER_ON (R415): Input rises through 40 V and start-up begins with the always-on domain. -/
  | powerOn
  /-- ROOT_PLL_LOCK (R415): Stage 2: the root PLL locks and FAULT_N is released. -/
  | rootPllLock
  /-- RAILS_UP (R415): Stage 3: main rails come up in order. -/
  | railsUp
  /-- IMAGE_VERIFY (R363): Stage 4: the image slots are read and verified. -/
  | imageVerify (a : ImageSlot) (b : ImageSlot)
  /-- IMAGE_APPLY (R415): Stage 5: the image body is applied and compute dies released. -/
  | imageApply (power : Nat) (writes : List (Nat × Word))
  /-- HBM_TRAINING (R415): Stage 6: HBM trains with map-outs and repair, and PKG_LAYOUT is set. -/
  | hbmTraining (failed : List (Nat × Nat)) (repaired : List (Nat × Nat))
  /-- SERDES_TRAINING (R415): Stage 7: SerDes ports train. -/
  | serdesTraining (trained : List Nat) (failed : List Nat) (plk : List Nat)
  /-- HBM_ZERO (R415): Stage 8: all mapped HBM is zeroed. -/
  | hbmZero
  /-- MEMORY_CLEAR (R415): Stage 9: on-die memories cleared, keys drawn, BOOT record written. -/
  | memoryClear
  /-- FRONT_END_READY (R415): Stage 10: front-end ready and ALIVE starts toggling. -/
  | frontEndReady
  /-- START_UP_STAGE_TIMEOUT (R416): A stage exceeds its end time by 100 ms, a fatal error. -/
  | startUpStageTimeout
  /-- RESET_N_PULSE (R417): RESET_N low for 10 us and released starts a warm reset or leaves standby. -/
  | resetNPulse
  /-- PWR_CTL_RESET (R417): Graceful warm reset. -/
  | pwrCtlReset (v : Word)
  /-- PWR_CTL_STANDBY (R417): Graceful shutdown to the always-on domain. -/
  | pwrCtlStandby (v : Word)
  /-- PWR_REGIME_POWER_CHANGE (R425): A write of APPLY changes the power regime, setting the cap or starting a FRUGAL change. -/
  | pwrRegimePowerChange (v : Word)
  /-- PWR_REGIME_PRECISION_CHANGE (R424): A write of APPLY changes PRECISION, or is refused while contexts exist. -/
  | pwrRegimePrecisionChange (v : Word)
  /-- PWR_REGIME_LATENCY_CHANGE (R424): A write of APPLY changes LATENCY at the next SCLK cycle. -/
  | pwrRegimeLatencyChange (v : Word)
  /-- FRUGAL_CHANGE_PROCEEDS (R425): Once the power mean is below the cap, HBM is held, ROOT slews, PHYs relock and rails move. -/
  | frugalChangeProceeds
  /-- BBX_CTL_FREEZE (R393): Freeze the rolling ring. -/
  | bbxCtlFreeze
  /-- BBX_CTL_UNFREEZE (R393): End the freeze. -/
  | bbxCtlUnfreeze
  /-- BBX_DATA_H_READ (R395): Read 8 bytes of MRAM over Palale Link and advance the address. -/
  | bbxDataHRead
  /-- BBX_DATA_I_READ (R395): Read 8 bytes of MRAM over the I3C pair and advance the address. -/
  | bbxDataIRead
  /-- I3C_PRIVATE_WRITE (R395): An 8-byte I3C private write sets the block offset. -/
  | i3cPrivateWrite (bytes : List Byte)
  /-- I3C_PRIVATE_READ (R395): An I3C private read returns 8 bytes. -/
  | i3cPrivateRead
  /-- I3C_ARBITRATION_LOSS (R434): Another controller takes the bus during the image read; the read aborts. -/
  | i3cArbitrationLoss
  /-- I3C_RETRY (R434): 1 ms after an arbitration loss the image read is retried. -/
  | i3cRetry
  /-- EVT_CLAIM_TRIGGER_IN (R397): Claim an EVT pin as trigger-in. -/
  | evtClaimTriggerIn (n : Nat) (v : Word) (i3c : Bool)
  /-- EVT_CLAIM_FREEZE_OUT (R397): Claim an EVT pin as freeze-out. -/
  | evtClaimFreezeOut (n : Nat) (v : Word) (i3c : Bool)
  /-- EVT_RELEASE (R397): Release an EVT pin by writing FUNC 0. -/
  | evtRelease (n : Nat) (v : Word) (i3c : Bool)
  /-- EVT_TRIGGER_EDGE (R436): A rising edge on a trigger-in pin adds 1 to its counter. -/
  | evtTriggerEdge (n : Nat)
  /-- EVT_FREEZE_EDGE (R436): An external rising edge on a freeze-out pin freezes the ring. -/
  | evtFreezeEdge (n : Nat)
  /-- MODULE_INSERTED (R409): A drain module is inserted, trains and its capsule check starts. -/
  | moduleInserted (b : Nat) (m : ModuleIn)
  /-- CAPSULE_CHECK_DONE (R403): The capsule check ends and the module comes into use. -/
  | capsuleCheckDone (b : Nat)
  /-- DRN_BAY_EJECT (R409): Flush, reset and power down a bay, or refuse DRN_BUSY. -/
  | drnBayEject (b : Nat)
  /-- MODULE_REMOVED (R410): A module leaves without EJECT or stops answering for 1 s. -/
  | moduleRemoved (b : Nat)
  /-- LEDGER_POLL (R405): The ledger is read every 10 s and the life state updated. -/
  | ledgerPoll
  /-- DRN_AREA_WRITE (R402): Assign a partition's drain areas, or refuse overlap. -/
  | drnAreaWrite (p : Nat) (base : Bool) (v : Word)
  /-- DRN_XFER_LOAD (R407): Start a staged load from the cache area. -/
  | drnXferLoad (p : Nat) (v : Word)
  /-- DRN_XFER_FILL (R407): Start a cache fill to the module. -/
  | drnXferFill (p : Nat) (v : Word)
  /-- DRN_XFER_DONE (R407): A transfer finishes and writes DRN_XSTAT. -/
  | drnXferDone (p : Nat)
  /-- SCO_LVU_PWR_WRITE (R181): Writing IDLE or NOPD changes the LVU power-down behaviour. -/
  | scoLvuPwrWrite (core : Nat) (v : Word)
  /-- REGISTER_WRITE (R25): A store to a register with no behaviour of its own, checked for width and reach. -/
  | registerWrite (addr : Nat) (n : Nat) (v : Word)
  /-- RECEIVE_LOCK (R276): A declared-down or untrained Scauth port locks to its partner's training patterns, sets LOCK and begins retraining. -/
  | receiveLock (port : Nat)
  /-- ITERATION_BOUNDARY (R207): An SVU finishes its local work for an iteration or setup and issues the boundary reduction carrying its vote. -/
  | iterationBoundary (svu : Nat)
  /-- S_CORE_PREEMPTION (R51): The dispatcher preempts an S-core thread, which stops at an instruction boundary and saves its image. -/
  | sCorePreemption (t : Tid)
  /-- CONTEXT_RESTORE (R48): A core takes up a preempted context again, restoring its saved image and applying held arrival-counter increments. -/
  | contextRestore (t : Tid) (ctx : Nat)
  /-- PWRGOOD_ASSERTED (R415): PWRGOOD rises and stays high past its filter, letting start-up proceed from stage 1 to stage 2. -/
  | pwrgoodAsserted
  /-- ROOT_PLL_LOCK_TIMEOUT (R416): The root PLL fails to lock within 5 ms at stage 2, a fatal error with cause 0x01. -/
  | rootPllLockTimeout
  /-- BAD_DESC (R321): A submission descriptor with OP 0, an unlisted OP or nonzero reserved bytes completes with FAULT_PERMISSION, BAD_DESC. -/
  | badDesc (r : Nat) (bytes : List Byte)
  /-- DESCRIPTOR_READ_FAILURE (R320): A descriptor read fails at the host and the ring stops with a ring error. -/
  | descriptorReadFailure (r : Nat)
  /-- RECALL_RETURN (R316): A host-dirty device line recalled over Palale Link returns, and the waiting device access proceeds. -/
  | recallReturn (line : Nat) (bytes : List Byte)
  /-- SLEW_END (R425): ROOT finishes its slew, the HBM PHYs relock and HBM resumes, then rails settle and PENDING clears with a REGIME record. -/
  | slewEnd
  /-- SCLK_CYCLE (R232): Each SCLK cycle the regulator buckets refill and arbitrate, the arch links arbitrate, and wait counters rise. -/
  | sclkCycle (h : Nat) (capR : Nat) (capW : Nat) (regs : List (Nat × Bool × Nat)) (arch : List (Bool × Nat × Nat × Nat))
  /-- TEST_ACCESS_INSTRUCTION (R435): An IEEE 1149.1 instruction is shifted in over TCK and TMS, accepted or treated as BYPASS, and a debug instruction sets DEBUG and writes a SECURITY record. -/
  | testAccessInstruction (i : TapIns)
  /-- ILLEGAL_ENCODING (R56): A fetched word with a reserved class or OP, or a wrong format bit, faults precisely with FAULT_PERMISSION, ILLEGAL_ENCODING. -/
  | illegalEncoding (t : Tid) (cls : Nat)
  /-- FETCH_FAULT (R54): An instruction fetch from an untranslatable address or a page without execute permission faults with FETCH_ADDRESS or FETCH. -/
  | fetchFault (t : Tid)
  /-- SEQUENCER_HEARTBEAT_LOST (R419): A die's sequencer heartbeat is missing for 100 us, so ALIVE stops toggling while nothing else changes. -/
  | sequencerHeartbeatLost (die : Nat)
  deriving DecidableEq, Repr

end Sys2Proof
end

