-- ==== Sys2Proof/Decode.lean ====
section
/-! DEFINITION. The commands that a word spells. The opcode table gives no row any bits, so `decodeTableWord` reads none. The words that the spec itself lays out are read here: Deash instructions (R54-R57, R62, R74, R87) and Scauth packets (R254, R255). -/

namespace Sys2Proof

/-- The command that `w`, of `nbits` bits, spells by the bits of spec/opcode_table.json. No row of the table has bits, so no word spells a command. -/
def decodeTableWord (nbits w : Nat) : Option Instr :=
  match nbits, w with
  | _, _ => none

/-- R57: one operation of a class: its CLASS, its OP, the format of its words (none: OP bit 7 selects it, as in the SCALAR class) and its command. -/
structure OpRow where
  cls : Nat
  op : Nat
  iform : Option Bool
  make : Tid → Opnds → Instr

/-- R64: the integer operations of CLASS 0x01. -/
def scalarIntRows : List OpRow :=
  [⟨0x01, 0x00, none, Instr.add⟩, ⟨0x01, 0x01, none, Instr.sub⟩, ⟨0x01, 0x02, none, Instr.mul⟩, ⟨0x01, 0x03, none, Instr.mulhs⟩,
   ⟨0x01, 0x04, none, Instr.mulhu⟩, ⟨0x01, 0x05, none, Instr.divs⟩, ⟨0x01, 0x06, none, Instr.divu⟩, ⟨0x01, 0x07, none, Instr.rems⟩,
   ⟨0x01, 0x08, none, Instr.remu⟩, ⟨0x01, 0x09, none, Instr.and⟩, ⟨0x01, 0x0A, none, Instr.or⟩, ⟨0x01, 0x0B, none, Instr.xor⟩,
   ⟨0x01, 0x0C, none, Instr.shl⟩, ⟨0x01, 0x0D, none, Instr.shr⟩, ⟨0x01, 0x0E, none, Instr.sar⟩, ⟨0x01, 0x0F, none, Instr.mins⟩,
   ⟨0x01, 0x10, none, Instr.maxs⟩, ⟨0x01, 0x11, none, Instr.minu⟩, ⟨0x01, 0x12, none, Instr.maxu⟩]

/-- R64: the compares, moves, loads and stores of CLASS 0x01. -/
def scalarMemRows : List OpRow :=
  [⟨0x01, 0x18, none, Instr.cmpeq⟩, ⟨0x01, 0x19, none, Instr.cmpne⟩, ⟨0x01, 0x1A, none, Instr.cmplts⟩, ⟨0x01, 0x1B, none, Instr.cmpltu⟩,
   ⟨0x01, 0x1C, none, Instr.cmples⟩, ⟨0x01, 0x1D, none, Instr.cmpleu⟩, ⟨0x01, 0x20, none, Instr.mov⟩, ⟨0x01, 0x21, none, Instr.movhi⟩,
   ⟨0x01, 0x28, none, Instr.ld1⟩, ⟨0x01, 0x29, none, Instr.ld2⟩, ⟨0x01, 0x2A, none, Instr.ld4⟩, ⟨0x01, 0x2B, none, Instr.ld8⟩,
   ⟨0x01, 0x2C, none, Instr.st1⟩, ⟨0x01, 0x2D, none, Instr.st2⟩, ⟨0x01, 0x2E, none, Instr.st4⟩, ⟨0x01, 0x2F, none, Instr.st8⟩,
   ⟨0x01, 0x30, none, Instr.fld⟩, ⟨0x01, 0x31, none, Instr.fst⟩]

/-- R64: the FP64 operations of CLASS 0x01. -/
def scalarFpRows : List OpRow :=
  [⟨0x01, 0x40, none, Instr.fadd⟩, ⟨0x01, 0x41, none, Instr.fsub⟩, ⟨0x01, 0x42, none, Instr.fmul⟩, ⟨0x01, 0x43, none, Instr.fdiv⟩,
   ⟨0x01, 0x44, none, Instr.fsqrt⟩, ⟨0x01, 0x45, none, Instr.ffma⟩, ⟨0x01, 0x46, none, Instr.fmin⟩, ⟨0x01, 0x47, none, Instr.fmax⟩,
   ⟨0x01, 0x48, none, Instr.fcmpeq⟩, ⟨0x01, 0x49, none, Instr.fcmplt⟩, ⟨0x01, 0x4A, none, Instr.fcmple⟩, ⟨0x01, 0x4B, none, Instr.fcvti⟩,
   ⟨0x01, 0x4C, none, Instr.fcvtf⟩, ⟨0x01, 0x4D, none, Instr.fmovx⟩, ⟨0x01, 0x4E, none, Instr.fmovf⟩]

/-- R64: the predicate operations and the reads of CLASS 0x01. -/
def scalarMiscRows : List OpRow :=
  [⟨0x01, 0x60, none, Instr.pand⟩, ⟨0x01, 0x61, none, Instr.por⟩, ⟨0x01, 0x62, none, Instr.pxor⟩, ⟨0x01, 0x63, none, Instr.pnot⟩,
   ⟨0x01, 0x64, none, Instr.pset⟩, ⟨0x01, 0x70, none, Instr.rdltc⟩, ⟨0x01, 0x71, none, Instr.rdnstat⟩, ⟨0x01, 0x72, none, Instr.nstclr⟩,
   ⟨0x01, 0x73, none, Instr.rdctr⟩, ⟨0x01, 0x74, none, Instr.rdid⟩]

/-- R69: CLASS 0x02. -/
def controlRows : List OpRow :=
  [⟨0x02, 0x00, some true, Instr.br⟩, ⟨0x02, 0x01, some true, Instr.jal⟩, ⟨0x02, 0x02, some true, Instr.jr⟩, ⟨0x02, 0x03, some true, Instr.endProg⟩,
   ⟨0x02, 0x04, some true, Instr.nop⟩, ⟨0x02, 0x08, some true, Instr.trace⟩]

/-- R72: CLASS 0x03. -/
def syncRows : List OpRow :=
  [⟨0x03, 0x00, some true, Instr.setc⟩, ⟨0x03, 0x01, some true, Instr.wait⟩, ⟨0x03, 0x02, some false, Instr.waitr⟩, ⟨0x03, 0x03, some false, Instr.waitd⟩,
   ⟨0x03, 0x04, some false, Instr.fence⟩]

/-- R76: CLASS 0x04. -/
def fabricRows : List OpRow :=
  [⟨0x04, 0x00, some false, Instr.rget⟩, ⟨0x04, 0x01, some false, Instr.rput⟩, ⟨0x04, 0x02, some false, Instr.rputf⟩, ⟨0x04, 0x08, some false, Instr.radd⟩,
   ⟨0x04, 0x09, some false, Instr.rmin⟩, ⟨0x04, 0x0A, some false, Instr.rmax⟩, ⟨0x04, 0x0B, some false, Instr.rand⟩, ⟨0x04, 0x0C, some false, Instr.ror⟩,
   ⟨0x04, 0x0D, some false, Instr.rxor⟩, ⟨0x04, 0x0E, some false, Instr.rswap⟩, ⟨0x04, 0x0F, some false, Instr.rcas8⟩, ⟨0x04, 0x10, some false, Instr.rcas16⟩]

/-- R73: CLASS 0x08, but for STREAM. -/
def streamRows : List OpRow :=
  [⟨0x08, 0x02, some true, Instr.sdldB⟩, ⟨0x08, 0x03, some true, Instr.sdldE⟩, ⟨0x08, 0x04, some false, Instr.sdadd⟩, ⟨0x08, 0x06, some false, Instr.copy⟩]

/-- R122: CLASS 0x09. -/
def matrixRows : List OpRow :=
  [⟨0x09, 0x00, some true, Instr.mxpassB⟩, ⟨0x09, 0x01, some true, Instr.mxpassE⟩, ⟨0x09, 0x02, some false, Instr.mxswap⟩, ⟨0x09, 0x04, some false, Instr.mxend⟩]

/-- R128: CLASS 0x0A. -/
def trestleRows : List OpRow :=
  [⟨0x0A, 0x00, some true, Instr.trsetB⟩, ⟨0x0A, 0x01, some true, Instr.trsetE⟩, ⟨0x0A, 0x04, some false, Instr.trend⟩]

/-- R144: CLASS 0x0B. -/
def elementRows : List OpRow :=
  [⟨0x0B, 0x00, some true, Instr.eweRunB⟩, ⟨0x0B, 0x01, some true, Instr.eweRunE⟩, ⟨0x0B, 0x04, some true, Instr.eweImm⟩, ⟨0x0B, 0x08, some true, Instr.eweLdp⟩,
   ⟨0x0B, 0x0C, some true, Instr.eweLdr⟩, ⟨0x0B, 0x0D, some true, Instr.eweStr⟩, ⟨0x0B, 0x10, some false, Instr.eweRexec⟩]

/-- R155: CLASS 0x0C. -/
def reduceRows : List OpRow :=
  [⟨0x0C, 0x00, some true, Instr.rduOpB⟩, ⟨0x0C, 0x01, some true, Instr.rduOpE⟩, ⟨0x0C, 0x04, some false, Instr.rduEnd⟩, ⟨0x0C, 0x10, some false, Instr.rduRreg⟩]

/-- R166: the settings, loads and stores of CLASS 0x10. -/
def vectorMemRows : List OpRow :=
  [⟨0x10, 0x00, some true, Instr.setvl⟩, ⟨0x10, 0x01, some false, Instr.setvlr⟩, ⟨0x10, 0x08, some false, Instr.vld⟩, ⟨0x10, 0x09, some false, Instr.vldff⟩,
   ⟨0x10, 0x0A, some false, Instr.vlds⟩, ⟨0x10, 0x0B, some false, Instr.vldx⟩, ⟨0x10, 0x0C, some false, Instr.vldxff⟩, ⟨0x10, 0x0D, some false, Instr.vldseg⟩,
   ⟨0x10, 0x0E, some false, Instr.vrgather⟩, ⟨0x10, 0x10, some false, Instr.vst⟩, ⟨0x10, 0x11, some false, Instr.vsts⟩, ⟨0x10, 0x12, some false, Instr.vstx⟩,
   ⟨0x10, 0x13, some false, Instr.vstseg⟩]

/-- R166: the floating-point operations of CLASS 0x10. -/
def vectorFpRows : List OpRow :=
  [⟨0x10, 0x20, some false, Instr.vfadd⟩, ⟨0x10, 0x21, some false, Instr.vfsub⟩, ⟨0x10, 0x22, some false, Instr.vfmul⟩, ⟨0x10, 0x23, some false, Instr.vfdiv⟩,
   ⟨0x10, 0x24, some false, Instr.vfsqrt⟩, ⟨0x10, 0x25, some false, Instr.vfma⟩, ⟨0x10, 0x26, some false, Instr.vfmin⟩, ⟨0x10, 0x27, some false, Instr.vfmax⟩,
   ⟨0x10, 0x28, some false, Instr.vfcmpeq⟩, ⟨0x10, 0x29, some false, Instr.vfcmplt⟩, ⟨0x10, 0x2A, some false, Instr.vfcmple⟩, ⟨0x10, 0x2B, some false, Instr.vcvt⟩]

/-- R166: the integer operations of CLASS 0x10. -/
def vectorIntRows : List OpRow :=
  [⟨0x10, 0x40, some false, Instr.vadd⟩, ⟨0x10, 0x41, some false, Instr.vsub⟩, ⟨0x10, 0x42, some false, Instr.vsadd⟩, ⟨0x10, 0x43, some false, Instr.vssub⟩,
   ⟨0x10, 0x44, some false, Instr.vaadd⟩, ⟨0x10, 0x45, some false, Instr.vmul⟩, ⟨0x10, 0x46, some false, Instr.vmulh⟩, ⟨0x10, 0x47, some false, Instr.vmulhq⟩,
   ⟨0x10, 0x48, some false, Instr.vmin⟩, ⟨0x10, 0x49, some false, Instr.vmax⟩, ⟨0x10, 0x4A, some false, Instr.vand⟩, ⟨0x10, 0x4B, some false, Instr.vor⟩,
   ⟨0x10, 0x4C, some false, Instr.vxor⟩, ⟨0x10, 0x4D, some false, Instr.vshl⟩, ⟨0x10, 0x4E, some false, Instr.vsra⟩, ⟨0x10, 0x4F, some false, Instr.vnshr⟩,
   ⟨0x10, 0x50, some false, Instr.vcmpeq⟩, ⟨0x10, 0x51, some false, Instr.vcmplt⟩]

/-- R166: the reductions and moves of CLASS 0x10. -/
def vectorRedRows : List OpRow :=
  [⟨0x10, 0x60, some false, Instr.vdot⟩, ⟨0x10, 0x61, some false, Instr.vaccadd⟩, ⟨0x10, 0x62, some false, Instr.vdotr⟩, ⟨0x10, 0x63, some false, Instr.vredsum⟩,
   ⟨0x10, 0x64, some false, Instr.vredmax⟩, ⟨0x10, 0x65, some false, Instr.vredmin⟩, ⟨0x10, 0x68, some false, Instr.vpcnt⟩, ⟨0x10, 0x69, some false, Instr.vpfirst⟩,
   ⟨0x10, 0x70, some false, Instr.vmov⟩, ⟨0x10, 0x71, some false, Instr.viota⟩]

/-- R185: CLASS 0x11. -/
def solveRows : List OpRow :=
  [⟨0x11, 0x00, some true, Instr.solveB⟩, ⟨0x11, 0x01, some true, Instr.solveE⟩]

/-- R56, R64, R69, R72, R73, R76, R122, R128, R144, R155, R166, R185: every operation of a Deash word but STREAM. -/
def opRows : List OpRow :=
  scalarIntRows ++ scalarMemRows ++ scalarFpRows ++ scalarMiscRows ++ controlRows
  ++ syncRows ++ fabricRows ++ streamRows ++ matrixRows ++ trestleRows
  ++ elementRows ++ reduceRows ++ vectorMemRows ++ vectorFpRows ++ vectorIntRows
  ++ vectorRedRows ++ solveRows

/-- A field of a word: `n` bits from bit `lo`. -/
def wbits (w : Word) (lo n : Nat) : BitVec n := w.extractLsb' lo n

/-- R55, R57, R62: the guard and the operand fields of an R-format word, or of an I-format one. -/
def wordOpnds (iform : Bool) (w : Word) : Opnds :=
  let md : BitVec 20 := wbits w 0 20
  ⟨(wbits w 49 1) == 1, (wbits w 44 1) == 1, wbits w 45 4, iform, wbits w 38 6, wbits w 32 6,
   if iform then 0 else wbits w 26 6, if iform then 0 else wbits w 20 6, if iform then 0 else md, if iform then wbits w 0 32 else 0⟩

/-- R55, R74: the fields of a STREAM word. -/
def wordStream (w : Word) : StreamOps :=
  ⟨(wbits w 49 1) == 1, (wbits w 44 1) == 1, wbits w 45 4, wbits w 40 4, wbits w 36 4, wbits w 34 2, wbits w 30 4, wbits w 28 2,
   (wbits w 27 1) == 1, wbits w 23 4, wbits w 21 2, wbits w 16 5, wbits w 0 16⟩

/-- R55-R57, R74, R87: the command of a Deash word at a thread; none for a reserved CLASS or OP, which faults as ILLEGAL_ENCODING. A wrong format bit is found by the operation's own checks. -/
def decodeDeash (t : Tid) (w : Word) : Option Instr :=
  let cls := (wbits w 58 6).toNat
  let op := (wbits w 50 8).toNat
  if cls = 0x08 ∧ op = 0 then some (.stream t (wordStream w))
  else (opRows.find? (fun r => r.cls == cls && r.op == (if cls = 0x01 then op % 128 else op))).map
    (fun r => r.make t (wordOpnds (r.iform.getD (decide (128 ≤ op))) w))

/-- A field of a longer record: `n` bits from bit `lo`. -/
def hbits (h lo n : Nat) : Nat := h / 2 ^ lo % 2 ^ n

/-- R255: a 16-byte atomic member record. -/
def memberOf (m : Nat) : Member := ⟨hbits m 0 20, hbits m 20 12, hbits m 32 24, hbits m 64 64⟩

/-- R255: a packet from its 32-byte header, its member records and its data. -/
def packetOf (h : Nat) (mem : List Nat) (data : List Byte) (pois : Bool) : Pkt :=
  ⟨hbits h 0 6, hbits h 6 2, hbits h 8 1 == 1, hbits h 9 1 == 1, hbits h 16 20, hbits h 36 20, hbits h 56 16, hbits h 72 12, hbits h 84 24,
   hbits h 108 48, hbits h 156 4, hbits h 160 32, hbits h 192 64, (mem.take (hbits h 10 3 + 1)).map memberOf, data, pois, 0⟩

/-- R254, R255: the command by which a packet that has reached its package is taken, from its TYPE; `busy` and `waits` are what the target decides about a request (R261, R273). -/
def packetCmd (p : Pkt) (busy : Bool) (waits : List Nat) : Option Instr :=
  match p.ty with
  | 0x01 => some (.pktRead p busy)
  | 0x02 => some (.pktWrite p busy)
  | 0x03 => some (.pktWritef p busy waits)
  | 0x08 => some (.pktAdd p busy)
  | 0x09 => some (.pktMin p busy)
  | 0x0A => some (.pktMax p busy)
  | 0x0B => some (.pktAnd p busy)
  | 0x0C => some (.pktOr p busy)
  | 0x0D => some (.pktXor p busy)
  | 0x0E => some (.pktSwap p busy)
  | 0x0F => some (.pktCas8 p busy)
  | 0x10 => some (.pktCas16 p busy)
  | 0x20 => some (.pktData p)
  | 0x21 => some (.pktAck p)
  | 0x22 => some (.pktValue p)
  | 0x28 => some (.pktNackBusy p)
  | 0x29 => some (.pktNackDomain p)
  | 0x2A => some (.pktUnreachable p)
  | 0x2B => some (.pktFault p)
  | _ => none

end Sys2Proof
end

