-- ==== Sys2Proof/Config.lean ====
section
/-! DEFINITION. What the spec leaves open: every constant here is opaque, so no proof can see a value of it. Each is applied to what it depends on, and to the state's plain counter `free` where every use may differ. -/

namespace Sys2Proof.Config

/-- DESIGN CHOICE (log 5): the free value number `n`, of width `w`: nothing constrains it. -/
opaque freeBits (w : Nat) (n : Nat) : BitVec w

/-- DESIGN CHOICE (log 5): the free natural number `n`, for a choice the spec leaves open. -/
opaque freeNat (n : Nat) : Nat

/-- DESIGN CHOICE (log 5): the free byte at address `a` of fill number `n` (contents the spec calls undefined). -/
opaque freeByte (n a : Nat) : Byte

/-- DESIGN CHOICE (log 10), R102: Felolma's keyed mixing function F(KEY, COUNTER, i), a 16-bit draw; the spec does not publish it. -/
opaque drawF (key counter : Word) (i : Nat) : BitVec 16

/-- DESIGN CHOICE (log 10), R223: the unpublished keyed permutation of stripe `s` over `n` channels: the position of each of its chunks. -/
opaque interleave (key : Word) (s n : Nat) : Equiv.Perm (Fin n)

/-- DESIGN CHOICE (log 10), R215: which pseudo-channel, bank and row (one number below 2 x 16 x 98,304) each KiB of a channel is; the spec does not lay a channel out. -/
opaque rowOf : Equiv.Perm (Fin 3145728)

/-- DESIGN CHOICE (log 10), R220, R235: where a line that no owner's range holds lies: a channel and an offset. -/
opaque bareLine (line : Nat) : Nat × Nat

/-- DESIGN CHOICE (log 56), R226: the slice and set of a line of HBM in its half's LLM; the spec does not publish the hash. -/
opaque llmSet (line : Nat) : Nat

/-- DESIGN CHOICE (log 7), R143, R104: the binary32 result of function `fn` (a micro-operation code of R137) outside its special cases, use `n`. -/
opaque funcF (fn : Nat) (x : BitVec 32) (n : Nat) : BitVec 32

/-- DESIGN CHOICE (log 10), R312: the Palale Link port that the fixed hash of a line's address selects. -/
opaque plkPort (line : Nat) : Bool

/-- DESIGN CHOICE (log 10), R271: the hash of a packet's tag that spreads packets over the two ports of a neighbour; the spec does not give it. -/
opaque twinHash (src eng seq : Nat) : Bool

/-- DESIGN CHOICE (log 10), R286, R298: the 16-bit digests of a group descriptor and of a collective's data; the spec does not give their polynomial. -/
opaque crc16 (ws : List Nat) : BitVec 16

/-- DESIGN CHOICE (log 11), R362, R373: whether an Ed25519 check accepts a signature that only the equation with the cofactor accepts; RFC 8032 leaves it to the verifier. -/
opaque edCofactor (pub : BitVec 256) (msg : List Byte) (sig : BitVec 512) : Bool

/-- DESIGN CHOICE (log 11), R372: the authenticated data of a wrapped key, from its kind, partition and slot; the spec does not lay them out. -/
opaque wrapAad (kind part slot : Nat) : List Byte

/-- DESIGN CHOICE (log 12), R360: the fused identity seed. -/
opaque identitySeed : BitVec 256

/-- DESIGN CHOICE (log 12), R361: the certificates of the one-time store: identity, then device CA. -/
opaque certs : List Byte

/-- DESIGN CHOICE (log 12), R369: SHA-512 of the boot sequencer's ROM. -/
opaque romDigest : BitVec 512

/-- DESIGN CHOICE (log 12), R363: the fused digest of an image key slot: 0 Felolma's, 1 the owner's; none while slot 1 is not fused. -/
opaque imageKey (slot : Nat) : Option (BitVec 512)

/-- DESIGN CHOICE (log 12), R369, R435: the test-access lock is fused. -/
opaque lockFused : Bool

end Sys2Proof.Config
end

