-- ==== Sys2Proof/Machine/Sparse.lean ====
section
/-! DEFINITION. Sparse maps in one canonical form: keys strictly rising, no entry equal to the default. Register files, memory and the tables of the package are held so. -/

namespace Sys2Proof.Machine

/-- A sparse map from keys to values; what an unlisted key reads as is an argument of every operation. -/
abbrev Sparse (α : Type) := List (Nat × α)

/-- The value at a key; the default where the key is not listed. -/
def sget {α : Type} (d : α) : Sparse α → Nat → α
  | [], _ => d
  | (j, v) :: r, k => if k < j then d else if k = j then v else sget d r k

/-- Write one key, keeping the canonical form: writing the default removes the entry. -/
def sset {α : Type} [DecidableEq α] (d : α) : Sparse α → Nat → α → Sparse α
  | [], k, v => if v = d then [] else [(k, v)]
  | (j, w) :: r, k, v =>
    if k < j then (if v = d then (j, w) :: r else (k, v) :: (j, w) :: r)
    else if k = j then (if v = d then r else (k, v) :: r)
    else (j, w) :: sset d r k v

/-- Change the value at one key. -/
def smod {α : Type} [DecidableEq α] (d : α) (m : Sparse α) (k : Nat) (f : α → α) : Sparse α :=
  sset d m k (f (sget d m k))

/-- Every key of a map lies above a bound. -/
def sabove {α : Type} (b : Nat) (m : Sparse α) : Bool := m.all (fun p => b < p.1)

/-- The canonical form: keys strictly rising and no listed value equal to what its key reads as when unlisted. -/
def swf {α : Type} [DecidableEq α] (d : Nat → α) : Sparse α → Bool
  | [] => true
  | (k, v) :: r => decide (v ≠ d k) && sabove k r && swf d r

/-- Drop every key in [lo, hi), so that it reads as the default. -/
def sclear {α : Type} (m : Sparse α) (lo hi : Nat) : Sparse α :=
  m.filter (fun p => p.1 < lo || hi ≤ p.1)

/-- Write a list of values at rising keys from `k`. -/
def ssetAll {α : Type} [DecidableEq α] (d : α) (m : Sparse α) (k : Nat) : List α → Sparse α
  | [] => m
  | v :: vs => ssetAll d (sset d m k v) (k + 1) vs

/-- The values at `n` rising keys from `k`. -/
def sgetAll {α : Type} (d : α) (m : Sparse α) (k : Nat) (n : Nat) : List α :=
  (List.range n).map (fun i => sget d m (k + i))

/-- Insert a number into a strictly rising list. -/
def ninsert (x : Nat) : List Nat → List Nat
  | [] => [x]
  | y :: r => if x < y then x :: y :: r else if x = y then y :: r else y :: ninsert x r

/-- A list of numbers rises strictly. -/
def nrising : List Nat → Bool
  | [] => true
  | x :: r => r.all (fun y => x < y) && nrising r

end Sys2Proof.Machine
end

