-- ==== Sys2Proof/Machine/Bits.lean ====
section
/-! DEFINITION. Bit fields, byte order and counters shared by every unit: extracting and placing the fields of a 64-bit word, little-endian bytes (R440), saturating and wrapping counters (R7, R8). -/

namespace Sys2Proof.Machine

/-- Natural subtraction, zero when `b` is the greater: the same number as `a - b`. Written over the integers, so that the kernel, asked to evaluate it on an unknown `a`, stops at once and does not count `b` down. -/
def nsub (a b : Nat) : Nat := (Int.subNatNat a b).toNat

/-- The number held in `n` bits of a word from bit `lo`. -/
def fld (w : Word) (lo n : Nat) : Nat := (w.toNat >>> lo) % 2 ^ n

/-- The number held in `n` bits of a natural number from bit `lo`. -/
def nfld (w lo n : Nat) : Nat := (w >>> lo) % 2 ^ n

/-- The word with `n` bits from bit `lo` replaced by `v`, taken modulo 2^n. -/
def putf (w : Word) (lo n v : Nat) : Word :=
  BitVec.ofNat 64 (w.toNat - (fld w lo n) <<< lo + (v % 2 ^ n) <<< lo)

/-- One bit of a word. -/
def bitw (w : Word) (i : Nat) : Bool := w.toNat.testBit i

/-- A mask of `n` ones from bit `lo`. -/
def ones (lo n : Nat) : Nat := (2 ^ n - 1) <<< lo

/-- A signed reading of the low `n` bits of a number. -/
def sext (n v : Nat) : Int := if (v % 2 ^ n) < 2 ^ (n - 1) then (v % 2 ^ n : Nat) else ((v % 2 ^ n : Nat) : Int) - 2 ^ n

/-- The low `n` bits of an integer, as a number (two's complement). -/
def ofInt (n : Nat) (v : Int) : Nat := (v % (2 ^ n : Int)).toNat

/-- R62: a 32-bit immediate sign-extended to 64 bits. -/
def sx32 (i : Half) : Word := i.signExtend 64

/-- R62: a 32-bit immediate zero-extended to 64 bits. -/
def zx32 (i : Half) : Word := i.zeroExtend 64

/-- Add to a field that saturates (the RAS and status counters of R8's tables). -/
def satAdd (w : Word) (lo n k : Nat) : Word := putf w lo n (min (2 ^ n - 1) (fld w lo n + k))

/-- Add to a field that wraps. -/
def wrapAdd (w : Word) (lo n k : Nat) : Word := putf w lo n (fld w lo n + k)

/-- R440: the number that little-endian bytes spell. -/
def leNat : List Byte → Nat
  | [] => 0
  | b :: bs => b.toNat + 256 * leNat bs

/-- R440: the `n` little-endian bytes of a number. -/
def leBytes : Nat → Nat → List Byte
  | 0, _ => []
  | n + 1, v => BitVec.ofNat 8 v :: leBytes n (v / 256)

/-- Cut a number into `cnt` codes of `bits` bits, lowest first. -/
def cutCodes (bits cnt v : Nat) : List Nat :=
  (List.range cnt).map (fun i => nfld v (i * bits) bits)

/-- Join codes of `bits` bits, the first lowest. -/
def joinCodes (bits : Nat) (cs : List Nat) : Nat :=
  cs.foldr (fun c acc => c % 2 ^ bits + acc <<< bits) 0

/-- The element at a position of a list of numbers; 0 past its end. -/
def nth (l : List Nat) (i : Nat) : Nat := l.getD i 0

/-- Round up a quotient. -/
def cdiv (a b : Nat) : Nat := (a + b - 1) / b

end Sys2Proof.Machine
end

