-- ==== Sys2Proof/Machine/Fp.lean ====
section
/-! DEFINITION. Numbers and formats (chapter 4): exact dyadic values, the floating-point formats of R89 and R91, conversion and rounding (R94-R98, R100, R101), and the arithmetic that is correctly rounded (R67, R104). Operations give the exact value; rounding happens once, in `toFmt`. -/

namespace Sys2Proof.Machine

/-- A value of a floating-point format: (-1)^neg * m * 2^e when finite. -/
inductive Fp where
  | nan
  | inf (neg : Bool)
  | fin (neg : Bool) (m : Nat) (e : Int)
  deriving DecidableEq, Repr

/-- The three kinds of format of R89: with infinities, E4M3 (one NaN, no infinity), T4 (R91). -/
inductive FmtKind where
  | ieee | e4m3 | t4
  deriving DecidableEq, Repr

/-- A floating-point format of R89: its exponent and mantissa bits and its bias. -/
structure Fmt where
  eb : Nat
  mb : Nat
  bias : Nat
  kind : FmtKind
  deriving DecidableEq, Repr

/-- R89: T4. -/ def fmtT4 : Fmt := ⟨2, 1, 1, .t4⟩
/-- R89: E4M3. -/ def fmtE4M3 : Fmt := ⟨4, 3, 7, .e4m3⟩
/-- R89: E5M2. -/ def fmtE5M2 : Fmt := ⟨5, 2, 15, .ieee⟩
/-- R89: bfloat16. -/ def fmtBF16 : Fmt := ⟨8, 7, 127, .ieee⟩
/-- R89: binary16. -/ def fmtFP16 : Fmt := ⟨5, 10, 15, .ieee⟩
/-- R89: binary32. -/ def fmtFP32 : Fmt := ⟨8, 23, 127, .ieee⟩
/-- R89: binary64. -/ def fmtFP64 : Fmt := ⟨11, 52, 1023, .ieee⟩

/-- R34: the floating-point format of a tile format code. -/
def fmtOfCode : Nat → Option Fmt
  | 0 => some fmtT4 | 1 => some fmtE4M3 | 2 => some fmtE5M2 | 3 => some fmtBF16
  | 4 => some fmtFP16 | 5 => some fmtFP32 | 6 => some fmtFP64 | _ => none

/-- R34: bits per element of a tile format code; none for a reserved code. -/
def codeBits : Nat → Option Nat
  | 0 => some 4 | 1 => some 8 | 2 => some 8 | 3 => some 16 | 4 => some 16 | 5 => some 32
  | 6 => some 64 | 8 => some 8 | 9 => some 16 | 10 => some 32 | _ => none

/-- The bits of one element of a format. -/
def Fmt.bits (F : Fmt) : Nat := 1 + F.eb + F.mb

/-- The exponent of the smallest normal. -/
def Fmt.emin (F : Fmt) : Int := 1 - (F.bias : Int)

/-- R89: the largest finite magnitude, as (m, e). -/
def Fmt.maxMag (F : Fmt) : Nat × Int :=
  match F.kind with
  | .ieee => (2 ^ (F.mb + 1) - 1, (F.bias : Int) - F.mb)
  | .e4m3 => (14, 5)
  | .t4 => (3, 1)

/-- R96: the canonical NaN of a format. -/
def Fmt.cnan (F : Fmt) : Nat :=
  match F.kind with
  | .ieee => (2 ^ (F.eb + 1) - 1) * 2 ^ (F.mb - 1)
  | .e4m3 => 0x7F
  | .t4 => 8

/-- The sign bit set or clear. -/
def Fmt.sgn (F : Fmt) (neg : Bool) : Nat := if neg then 2 ^ (F.eb + F.mb) else 0

/-- R89, R91: the value of an element code. -/
def unpack (F : Fmt) (b : Nat) : Fp :=
  let neg := b.testBit (F.eb + F.mb)
  let ex := nfld b F.mb F.eb
  let man := b % 2 ^ F.mb
  if F.kind = .t4 ∧ b % 16 = 8 then .nan
  else if F.kind = .e4m3 ∧ b % 128 = 127 then .nan
  else if F.kind = .ieee ∧ ex = 2 ^ F.eb - 1 then (if man = 0 then .inf neg else .nan)
  else if ex = 0 then .fin neg man (F.emin - F.mb)
  else .fin neg (man + 2 ^ F.mb) ((ex : Int) - F.bias - F.mb)

/-- Shift a magnitude to exponent `q` (at most its own), exactly. -/
def alignTo (m : Nat) (e q : Int) : Nat := m * 2 ^ (e - q).toNat

/-- Compare two magnitudes m*2^e. -/
def magLt (m1 : Nat) (e1 : Int) (m2 : Nat) (e2 : Int) : Bool :=
  let q := min e1 e2
  alignTo m1 e1 q < alignTo m2 e2 q

/-- R100: the rounding of one element: to nearest even, or stochastic with its draw. -/
inductive RMode where
  | rne
  | stoch (r : Nat)
  deriving DecidableEq, Repr

/-- R101: round the magnitude m*2^e to a multiple of 2^q. The result counts units of 2^q. -/
def roundAt (md : RMode) (m : Nat) (e q : Int) : Nat :=
  if q ≤ e then m * 2 ^ (e - q).toNat
  else
    let k := (q - e).toNat
    let t := m >>> k
    let rem := m % 2 ^ k
    match md with
    | .rne =>
      if 2 * rem < 2 ^ k then t
      else if 2 * rem = 2 ^ k then (if t % 2 = 0 then t else t + 1)
      else t + 1
    | .stoch r => if 2 ^ 16 ≤ (rem * 2 ^ 16) >>> k + r then t + 1 else t

/-- Numeric counts of one operation: saturated, flushed, NaNs produced (R79). -/
structure Cnt where
  sat : Nat
  flush : Nat
  nan : Nat
  deriving DecidableEq, Repr

/-- No counts. -/
def cnt0 : Cnt := ⟨0, 0, 0⟩

/-- Counts of two operations together. -/
def Cnt.add (a b : Cnt) : Cnt := ⟨a.sat + b.sat, a.flush + b.flush, a.nan + b.nan⟩

/-- Element code of t units of 2^q, where q is the quantum that `toFmt` chose. -/
def packFin (F : Fmt) (neg : Bool) (t : Nat) (q : Int) : Nat :=
  if t = 0 then (if F.kind = .t4 then 0 else F.sgn neg)
  else if t < 2 ^ F.mb then F.sgn neg + t
  else
    let carry := if 2 ^ (F.mb + 1) ≤ t then 1 else 0
    let t' := if carry = 1 then t / 2 else t
    let ex := (q + F.mb + F.bias + carry).toNat
    F.sgn neg + ex * 2 ^ F.mb + nsub t' (2 ^ F.mb)

/-- R94-R97: an overflow or an infinity in the output format. -/
def overflowTo (F : Fmt) (nosat neg : Bool) : Nat × Cnt :=
  let infCode := F.sgn neg + (2 ^ F.eb - 1) * 2 ^ F.mb
  match F.kind with
  | .t4 => (F.sgn neg + 7, ⟨1, 0, 0⟩)
  | .e4m3 => if nosat then (F.sgn neg + 127, ⟨0, 0, 1⟩) else (F.sgn neg + 126, ⟨1, 0, 0⟩)
  | .ieee =>
    if F = fmtE5M2 && !nosat then (F.sgn neg + 0x7B, ⟨1, 0, 0⟩)
    else (infCode, cnt0)

/-- R94-R97, R100, R101: convert a value to a format, with what it counts. -/
def toFmt (F : Fmt) (md : RMode) (nosat : Bool) (x : Fp) : Nat × Cnt :=
  match x with
  | .nan => (F.cnan, cnt0)
  | .inf neg => overflowTo F nosat neg
  | .fin neg m e =>
    if m = 0 then (packFin F neg 0 0, cnt0)
    else
      let q := max ((m.log2 : Int) + e - F.mb) (F.emin - F.mb)
      let t := roundAt md m e q
      let mx := F.maxMag
      if magLt mx.1 mx.2 t q then overflowTo F nosat neg
      else (packFin F neg t q, cnt0)

/-- Rounding to nearest even without counts. -/
def rne (F : Fmt) (x : Fp) : Nat := (toFmt F .rne true x).1

/-- A signed exact value m*2^e. -/
structure Dy where
  m : Int
  e : Int
  deriving DecidableEq, Repr

/-- Exact zero. -/
def dy0 : Dy := ⟨0, 0⟩

/-- Exact sum. -/
def Dy.add (a b : Dy) : Dy :=
  if a.m = 0 then b else if b.m = 0 then a else
    let q := min a.e b.e
    ⟨a.m * 2 ^ (a.e - q).toNat + b.m * 2 ^ (b.e - q).toNat, q⟩

/-- Exact negation, magnitude and product. -/
def Dy.neg (a : Dy) : Dy := ⟨-a.m, a.e⟩
/-- Exact magnitude. -/ def Dy.abs (a : Dy) : Dy := ⟨a.m.natAbs, a.e⟩
/-- Exact product. -/ def Dy.mul (a b : Dy) : Dy := ⟨a.m * b.m, a.e + b.e⟩
/-- Multiply by a power of two. -/ def Dy.scale (a : Dy) (k : Int) : Dy := ⟨a.m, a.e + k⟩

/-- Exact order. -/
def Dy.le (a b : Dy) : Bool :=
  let q := min a.e b.e
  a.m * 2 ^ (a.e - q).toNat ≤ b.m * 2 ^ (b.e - q).toNat

/-- The finite value a dyadic number names; zero is +0. -/
def Dy.toFp (a : Dy) : Fp := .fin (decide (a.m < 0)) a.m.natAbs a.e

/-- The dyadic number of a finite value; 0 for a NaN or an infinity. -/
def Fp.dy : Fp → Dy
  | .fin neg m e => ⟨if neg then -(m : Int) else m, e⟩
  | _ => dy0

/-- A value is a NaN. -/ def Fp.isNan : Fp → Bool | .nan => true | _ => false
/-- A value is an infinity. -/ def Fp.isInf : Fp → Bool | .inf _ => true | _ => false
/-- A value is finite. -/ def Fp.isFin : Fp → Bool | .fin _ _ _ => true | _ => false
/-- A value is zero. -/ def Fp.isZero : Fp → Bool | .fin _ m _ => m == 0 | _ => false
/-- The sign of a value; a NaN counts as positive. -/
def Fp.sign : Fp → Bool | .nan => false | .inf n => n | .fin n _ _ => n
/-- Change of sign. -/ def Fp.neg : Fp → Fp | .nan => .nan | .inf n => .inf (!n) | .fin n m e => .fin (!n) m e
/-- Magnitude. -/ def Fp.abs : Fp → Fp | .nan => .nan | .inf _ => .inf false | .fin _ m e => .fin false m e

/-- Exact sum, with the IEEE 754 rules for infinities and the sign of a zero sum. -/
def fAdd (x y : Fp) : Fp :=
  match x, y with
  | .nan, _ => .nan
  | _, .nan => .nan
  | .inf a, .inf b => if a = b then .inf a else .nan
  | .inf a, _ => .inf a
  | _, .inf b => .inf b
  | .fin n1 m1 e1, .fin n2 m2 e2 =>
    let s := (Fp.fin n1 m1 e1).dy.add (Fp.fin n2 m2 e2).dy
    if s.m = 0 then .fin (n1 && n2) 0 0 else s.toFp

/-- Exact product. -/
def fMul (x y : Fp) : Fp :=
  match x, y with
  | .nan, _ => .nan
  | _, .nan => .nan
  | .inf a, y => if y.isZero then .nan else .inf (a != y.sign)
  | x, .inf b => if x.isZero then .nan else .inf (x.sign != b)
  | .fin n1 m1 e1, .fin n2 m2 e2 => .fin (n1 != n2) (m1 * m2) (e1 + e2)

/-- Quotient, exact but for a sticky bit far below every format's precision. -/
def fDiv (x y : Fp) : Fp :=
  match x, y with
  | .nan, _ => .nan
  | _, .nan => .nan
  | .inf _, .inf _ => .nan
  | .inf a, y => .inf (a != y.sign)
  | x, .inf b => .fin (x.sign != b) 0 0
  | .fin n1 m1 e1, .fin n2 m2 e2 =>
    if m2 = 0 then (if m1 = 0 then .nan else .inf (n1 != n2))
    else
      let k := 80 + m2.log2
      let a := m1 <<< k
      .fin (n1 != n2) (2 * (a / m2) + (if a % m2 = 0 then 0 else 1)) (e1 - e2 - k - 1)

/-- Integer square root, one bit at a time from bit `i - 1`. -/
def isqrtFrom (n : Nat) : Nat → Nat → Nat
  | 0, r => r
  | i + 1, r => let r' := r + 2 ^ i; isqrtFrom n i (if r' * r' ≤ n then r' else r)

/-- Integer square root. -/
def isqrt (n : Nat) : Nat := isqrtFrom n (n.log2 / 2 + 1) 0

/-- Square root, exact but for a sticky bit far below every format's precision. -/
def fSqrt (x : Fp) : Fp :=
  match x with
  | .nan => .nan
  | .inf neg => if neg then .nan else .inf false
  | .fin neg m e =>
    if m = 0 then .fin neg 0 0
    else if neg then .nan
    else
      let k : Nat := 160 + (if (e % 2) = 0 then 0 else 1)
      let a := m <<< k
      let r := isqrt a
      .fin false (2 * r + (if r * r = a then 0 else 1)) ((e - k) / 2 - 1)

/-- Order of two values that are not NaN; -0 equals +0. -/
def fLt (x y : Fp) : Bool :=
  match x, y with
  | .nan, _ => false
  | _, .nan => false
  | .inf a, .inf b => a && !b
  | .inf a, .fin _ _ _ => a
  | .fin _ _ _, .inf b => !b
  | x, y => !(y.dy.le x.dy)

/-- Equality of two values; false with a NaN, and -0 equals +0. -/
def fEq (x y : Fp) : Bool :=
  !x.isNan && !y.isNan && !fLt x y && !fLt y x

/-- R64: IEEE 754-2019 minimumNumber: a NaN gives way to a number, and -0 lies below +0. -/
def fMin (x y : Fp) : Fp :=
  if x.isNan then y else if y.isNan then x
  else if fLt x y then x else if fLt y x then y else if x.sign then x else y

/-- R64: IEEE 754-2019 maximumNumber. -/
def fMax (x y : Fp) : Fp :=
  if x.isNan then y else if y.isNan then x
  else if fLt x y then y else if fLt y x then x else if x.sign then y else x

/-- R79, R96: one NaN was produced: the result is a NaN and no operand was. -/
def newNan (r : Fp) (ops : List Fp) : Nat := if r.isNan && ops.all (fun x => !x.isNan) then 1 else 0

/-- The integer nearest a finite value, under a rounding. -/
def roundInt (md : RMode) (x : Fp) : Int :=
  match x with
  | .fin neg m e => let t := roundAt md m e 0; if neg then -(t : Int) else t
  | _ => 0

/-- R98, R67: conversion to a signed integer of `n` bits, with its one saturation. -/
def toIntSat (md : RMode) (n : Nat) (x : Fp) : Int × Nat :=
  let lo : Int := -(2 ^ (n - 1) : Int)
  let hi : Int := 2 ^ (n - 1) - 1
  match x with
  | .nan => (0, 1)
  | .inf neg => (if neg then lo else hi, 1)
  | x =>
    let v := roundInt md x
    if v < lo then (lo, 1) else if hi < v then (hi, 1) else (v, 0)

/-- A binary64 register as a value. -/ def f64 (w : Word) : Fp := unpack fmtFP64 w.toNat
/-- Round to binary64. -/ def to64 (x : Fp) : Word := BitVec.ofNat 64 (rne fmtFP64 x)
/-- A binary32 pattern as a value. -/ def f32 (n : Nat) : Fp := unpack fmtFP32 n
/-- Round to binary32. -/ def to32 (x : Fp) : Nat := rne fmtFP32 x

/-- ⌊log₂⌋ of a positive magnitude. -/
def Dy.ilog (a : Dy) : Int := (a.m.natAbs.log2 : Int) + a.e

/-- R104: one ulp of a value in a format, as an exponent of two; the smallest subnormal below the normal range. -/
def ulpExp (F : Fmt) (a : Dy) : Int :=
  if a.m = 0 then F.emin - F.mb else max (a.ilog - F.mb) (F.emin - F.mb)

end Sys2Proof.Machine
end

