-- ==== Sys2Proof/Machine/Func.lean ====
section
/-! DEFINITION. The five functions of an element program and the exponentials of SMAX (R104, R137, R143, R150): each as a dyadic number within 2^-160 of its value, relative to it, by series over integers that count units of 2^-256. What the device returns is free within the bound the spec promises (logs 7, 9). -/

namespace Sys2Proof.Machine

/-- One, in units of 2^-256. -/
abbrev fxOne : Int := 2 ^ 256

/-- A dyadic number in units of 2^-256, rounded down. -/
def Dy.fx (a : Dy) : Int :=
  let k := a.e + 256
  if 0 ≤ k then a.m * 2 ^ k.toNat else a.m / 2 ^ (-k).toNat

/-- A count of units of 2^-256 as a dyadic number. -/
def fxDy (v : Int) : Dy := ⟨v, -256⟩

/-- Product in units of 2^-256. -/
def fxMul (a b : Int) : Int := a * b / fxOne

/-- The sum z + z^3/3 + z^5/5 + …, with `sgn` -1 for alternating signs: atanh z, or atan z. -/
def fxOddSum (sgn z2 : Int) : Nat → Int → Nat → Int
  | 0, _, _ => 0
  | fuel + 1, p, k => p / (2 * k + 1) + fxOddSum sgn z2 fuel (sgn * fxMul p z2) (k + 1)

/-- atanh z. -/
def fxAtanh (z : Int) : Int := fxOddSum 1 (fxMul z z) 90 z 0

/-- ln 2. -/
def fxLn2 : Int := 2 * fxAtanh (fxOne / 3)

/-- Pi, by Machin's formula. -/
def fxPi : Int :=
  let at1 (n : Int) : Int := fxOddSum (-1) (fxOne / (n * n)) 60 (fxOne / n) 0
  4 * (4 * at1 5 - at1 239)

/-- The sum p + p*r/k + p*r^2/(k*(k+1)) + …. -/
def fxExpSum (r : Int) : Nat → Int → Nat → Int
  | 0, _, _ => 0
  | fuel + 1, p, k => p + fxExpSum r fuel (fxMul p r / k) (k + 1)

/-- e^x of a dyadic number. -/
def dyExp (x : Dy) : Dy :=
  let v := x.fx
  let k := v / fxLn2
  ⟨fxExpSum (v - k * fxLn2) 70 fxOne 1, k - 256⟩

/-- ln x of a positive dyadic number. -/
def dyLog (x : Dy) : Dy :=
  let m := x.m.natAbs
  let t : Int := 2 ^ m.log2
  fxDy (2 * fxAtanh ((m - t) * fxOne / (m + t)) + ((m.log2 : Int) + x.e) * fxLn2)

/-- tanh of a positive dyadic number. -/
def dyTanh (x : Dy) : Dy :=
  if x.le ⟨64, 0⟩ then
    (let e := (dyExp (x.scale 1)).fx
     fxDy ((e - fxOne) * fxOne / (e + fxOne)))
  else ⟨1, 0⟩

/-- The alternating series of erf, from its term `p` of number `n`. -/
def fxErfSum (x2 : Int) : Nat → Int → Nat → Int
  | 0, _, _ => 0
  | fuel + 1, p, n => p / (2 * n + 1) + fxErfSum x2 fuel (-(fxMul p x2) / (n + 1)) (n + 1)

/-- erf of a positive dyadic number. -/
def dyErf (x : Dy) : Dy :=
  if x.le ⟨6, 0⟩ then
    (let v := x.fx
     let root : Int := isqrt (fxPi.toNat * 2 ^ 256)
     fxDy (2 * fxErfSum (fxMul v v) 230 v 0 * fxOne / root))
  else ⟨1, 0⟩

/-- 1/sqrt x of a positive dyadic number. -/
def dyRsqrt (x : Dy) : Dy :=
  let k : Nat := 600 + x.m.natAbs.log2 + (if (x.e + 600 + x.m.natAbs.log2) % 2 = 0 then 0 else 1)
  ⟨isqrt (2 ^ k / x.m.natAbs), (-x.e - k) / 2⟩

/-- R137: the value of a function at a finite operand outside its special cases. -/
def funcAt (op : Nat) (x : Fp) : Dy :=
  let d := x.dy
  let odd (f : Dy → Dy) : Dy := if x.sign then (f d.abs).neg else f d
  match op with
  | 0x10 => dyExp d
  | 0x11 => dyLog d
  | 0x12 => odd dyTanh
  | 0x13 => dyRsqrt d
  | _ => odd dyErf

/-- R104: a binary32 candidate, if it is finite and lies within `k` halves of its own ulp of a value; else the binary32 value nearest. -/
def within32 (cand : Fp) (k : Nat) (v : Dy) : Fp :=
  let bound : Dy := ⟨k, ulpExp fmtFP32 cand.dy - 1⟩
  if cand.isFin && ((cand.dy.add v.neg).abs).le bound then cand else f32 (to32 v.toFp)

/-- R104, R143: a function's binary32 result, free within 2 ulp (log 7). -/
def freeFunc (op : Nat) (x : Fp) (ix : Nat) : Fp :=
  within32 (f32 (Config.funcF op (BitVec.ofNat 32 (to32 x)) ix).toNat) 4 (funcAt op x)

/-- R150: SMAX's sum, from its exact value and its rescales: a free binary32 value within (3 + 2.5q) * 2^-23 of it (log 9). -/
def freeSmax (sum : Dy) (q ix : Nat) : Fp :=
  let cand := f32 (Config.freeBits 32 ix).toNat
  if cand.isFin && ((cand.dy.add sum.neg).abs).le (sum.mul ⟨6 + 5 * q, -24⟩) then cand else f32 (to32 sum.toFp)

end Sys2Proof.Machine
end

