-- ==== Sys2Proof/Machine/RegMap.lean ====
section
/-! DEFINITION. The register map of the package (R24): the address of every register of the spec's register tables, and one row per register that says which of its bits are read-write, write-one-to-clear, write-only, write-once or read-only (R8), and what it holds at reset. -/

namespace Sys2Proof.Machine

/-- One register, or one word of a register group: its first address, the counts and strides of its instances (largest stride first), the masks of the access codes of R8, and its reset value. -/
structure RegRow where
  base : Nat
  dims : List (Nat × Nat)
  rw : Nat
  w1c : Nat
  wo : Nat
  rwl : Nat
  ro : Nat
  rst : Nat
  deriving DecidableEq, Repr

/-- R20: PKG_ID. -/ def R.PKG_ID : Nat := 0xf0000000000
/-- R20: PKG_LAYOUT. -/ def R.PKG_LAYOUT : Nat := 0xf0000000008
/-- R20: PKG_NCL_W. -/ def R.PKG_NCL_W : Nat := 0xf0000000010
/-- R20: PKG_NCL_E. -/ def R.PKG_NCL_E : Nat := 0xf0000000018
/-- R29: CLK_STATUS. -/ def R.CLK_STATUS : Nat := 0xf0000010000
/-- R29: CLK_LTC. -/ def R.CLK_LTC : Nat := 0xf0000010008
/-- R53: NCO_CTX. -/ def R.NCO_CTX (h k : Nat) : Nat := 0xf0140000000 + h * 0x40000000 + k * 0x10000
/-- R53: NCO_QSTAT. -/ def R.NCO_QSTAT (h k : Nat) : Nat := 0xf0140000008 + h * 0x40000000 + k * 0x10000
/-- R53: NCO_PREEMPT. -/ def R.NCO_PREEMPT (h k : Nat) : Nat := 0xf0140000010 + h * 0x40000000 + k * 0x10000
/-- R53: NCO_SAVE_BASE. -/ def R.NCO_SAVE_BASE (h k : Nat) : Nat := 0xf0140000018 + h * 0x40000000 + k * 0x10000
/-- R53: NCO_FAULT. -/ def R.NCO_FAULT (h k : Nat) : Nat := 0xf0140000020 + h * 0x40000000 + k * 0x10000
/-- R86: NCO_FAULT_PC. -/ def R.NCO_FAULT_PC (h k : Nat) : Nat := 0xf0140000028 + h * 0x40000000 + k * 0x10000
/-- R131: NCO_MXSTAT. -/ def R.NCO_MXSTAT (h k : Nat) : Nat := 0xf0140000030 + h * 0x40000000 + k * 0x10000
/-- R131: NCO_ENGINE_BUSY. -/ def R.NCO_ENGINE_BUSY (h k : Nat) : Nat := 0xf0140000038 + h * 0x40000000 + k * 0x10000
/-- R158: NCO_EWSTAT. -/ def R.NCO_EWSTAT (h k : Nat) : Nat := 0xf0140000040 + h * 0x40000000 + k * 0x10000
/-- R158: NCO_EWBUSY. -/ def R.NCO_EWBUSY (h k : Nat) : Nat := 0xf0140000048 + h * 0x40000000 + k * 0x10000
/-- R53: NCO_FAULT_TILE. -/ def R.NCO_FAULT_TILE (h k : Nat) : Nat := 0xf0140000050 + h * 0x40000000 + k * 0x10000
/-- R181: SCO_LVU_PWR. -/ def R.SCO_LVU_PWR (h k : Nat) : Nat := 0xf00c0000040 + h * 0x40000000 + k * 0x10000
/-- R181: SCO_LVU_BUSY. -/ def R.SCO_LVU_BUSY (h k : Nat) : Nat := 0xf00c0000048 + h * 0x40000000 + k * 0x10000
/-- R86: SCO_TFAULT. -/ def R.SCO_TFAULT (h k t : Nat) : Nat := 0xf00c0000100 + h * 0x40000000 + k * 0x10000 + t * 0x10
/-- R86: SCO_TFAULT_PC. -/ def R.SCO_TFAULT_PC (h k t : Nat) : Nat := 0xf00c0000108 + h * 0x40000000 + k * 0x10000 + t * 0x10
/-- R214: SOL_STAT. -/ def R.SOL_STAT (h j : Nat) : Nat := 0xf00c1000000 + h * 0x40000000 + j * 0x10000
/-- R214: SOL_BUSY. -/ def R.SOL_BUSY (h j : Nat) : Nat := 0xf00c1000008 + h * 0x40000000 + j * 0x10000
/-- R214: SOL_COUNT. -/ def R.SOL_COUNT (h j : Nat) : Nat := 0xf00c1000010 + h * 0x40000000 + j * 0x10000
/-- R240: MEM_PART_CFG. -/ def R.MEM_PART_CFG (h p : Nat) : Nat := 0xf0040000000 + h * 0x40000000 + p * 0x10
/-- R240: MEM_PART_KEY. -/ def R.MEM_PART_KEY (h p : Nat) : Nat := 0xf0040000008 + h * 0x40000000 + p * 0x10
/-- R240: MEM_HOT. -/ def R.MEM_HOT (h : Nat) : Nat := 0xf0040000100 + h * 0x40000000
/-- R240: MEM_HOT_CFG. -/ def R.MEM_HOT_CFG (h : Nat) : Nat := 0xf0040000108 + h * 0x40000000
/-- R240: MEM_RAS_CFG. -/ def R.MEM_RAS_CFG (h : Nat) : Nat := 0xf0040000110 + h * 0x40000000
/-- R240: MEM_RAS_STAT. -/ def R.MEM_RAS_STAT (h : Nat) : Nat := 0xf0040000118 + h * 0x40000000
/-- R240: MEM_RETIRE_STAT. -/ def R.MEM_RETIRE_STAT (h : Nat) : Nat := 0xf0040000120 + h * 0x40000000
/-- R240: MEM_CFG_ERR. -/ def R.MEM_CFG_ERR (h : Nat) : Nat := 0xf0040000128 + h * 0x40000000
/-- R240: MEM_UTIL_HBM. -/ def R.MEM_UTIL_HBM (h : Nat) : Nat := 0xf0040000200 + h * 0x40000000
/-- R250: MEM_ARCH_UTIL. -/ def R.MEM_ARCH_UTIL (h : Nat) : Nat := 0xf0040000400 + h * 0x40000000
/-- R250: MEM_ARCH_MIX. -/ def R.MEM_ARCH_MIX (h : Nat) : Nat := 0xf0040000408 + h * 0x40000000
/-- R250: MEM_ARCH_RAS. -/ def R.MEM_ARCH_RAS (h : Nat) : Nat := 0xf0040000490 + h * 0x40000000
/-- R250: MEM_ARCH_WAIT. -/ def R.MEM_ARCH_WAIT (h p : Nat) : Nat := 0xf0040000440 + h * 0x40000000 + p * 0x8
/-- R240: MEM_CH_STAT. -/ def R.MEM_CH_STAT (h c : Nat) : Nat := 0xf0040001000 + h * 0x40000000 + c * 0x8
/-- R240: MEM_RETIRE. -/ def R.MEM_RETIRE (h i : Nat) : Nat := 0xf0040020000 + h * 0x40000000 + i * 0x8
/-- R240: MEM_REMAP. -/ def R.MEM_REMAP (h i : Nat) : Nat := 0xf0040100000 + h * 0x40000000 + i * 0x8
/-- R241: LLM_PART_CFG. -/ def R.LLM_PART_CFG (h p : Nat) : Nat := 0xf0041000000 + h * 0x40000000 + p * 0x10
/-- R241: LLM_PART_STAT. -/ def R.LLM_PART_STAT (h p : Nat) : Nat := 0xf0041000008 + h * 0x40000000 + p * 0x10
/-- R241: LLM_WAYMAP. -/ def R.LLM_WAYMAP (h : Nat) : Nat := 0xf0041000100 + h * 0x40000000
/-- R241: LLM_WAYKIND. -/ def R.LLM_WAYKIND (h : Nat) : Nat := 0xf0041000108 + h * 0x40000000
/-- R241: LLM_UTIL. -/ def R.LLM_UTIL (h : Nat) : Nat := 0xf0041000110 + h * 0x40000000
/-- R241: LLM_CFG_ERR. -/ def R.LLM_CFG_ERR (h : Nat) : Nat := 0xf0041000118 + h * 0x40000000
/-- R242: RGL_PART. -/ def R.RGL_PART (h p : Nat) : Nat := 0xf0042000000 + h * 0x40000000 + p * 0x20
/-- R242: RGL_BURST. -/ def R.RGL_BURST (h p : Nat) : Nat := 0xf0042000008 + h * 0x40000000 + p * 0x20
/-- R242: RGL_DELAY. -/ def R.RGL_DELAY (h p : Nat) : Nat := 0xf0042000010 + h * 0x40000000 + p * 0x20
/-- R242: RGL_SERVED. -/ def R.RGL_SERVED (h p : Nat) : Nat := 0xf0042000018 + h * 0x40000000 + p * 0x20
/-- R242: RGL_STAT. -/ def R.RGL_STAT (h : Nat) : Nat := 0xf0042000100 + h * 0x40000000
/-- R257: WIN_ENTRY0. -/ def R.WIN_ENTRY0 (i : Nat) : Nat := 0xf0010000000 + i * 0x10
/-- R257: WIN_ENTRY1. -/ def R.WIN_ENTRY1 (i : Nat) : Nat := 0xf0010000008 + i * 0x10
/-- R281: SCF_COORD. -/ def R.SCF_COORD : Nat := 0xf0000100000
/-- R281: SCF_BLOCK. -/ def R.SCF_BLOCK : Nat := 0xf0000100008
/-- R281: SCF_CFG. -/ def R.SCF_CFG : Nat := 0xf0000100010
/-- R281: SCF_SLOT_SPLIT. -/ def R.SCF_SLOT_SPLIT : Nat := 0xf0000100018
/-- R281: SCF_CFG_ERR. -/ def R.SCF_CFG_ERR : Nat := 0xf0000100060
/-- R281: SCF_COMB. -/ def R.SCF_COMB : Nat := 0xf0000100500
/-- R281: SCF_RCACHE. -/ def R.SCF_RCACHE : Nat := 0xf0000100508
/-- R281: SCF_NACK. -/ def R.SCF_NACK : Nat := 0xf0000100510
/-- R281: SCF_UNKNOWN. -/ def R.SCF_UNKNOWN : Nat := 0xf0000100518
/-- R281: SCF_DOMAIN. -/ def R.SCF_DOMAIN (p : Nat) : Nat := 0xf0000100020 + p * 0x8
/-- R281: SCF_PORT_CTL. -/ def R.SCF_PORT_CTL (k : Nat) : Nat := 0xf0000100100 + k * 0x20
/-- R281: SCF_PORT_STAT. -/ def R.SCF_PORT_STAT (k : Nat) : Nat := 0xf0000100108 + k * 0x20
/-- R281: SCF_PORT_UTIL. -/ def R.SCF_PORT_UTIL (k : Nat) : Nat := 0xf0000100110 + k * 0x20
/-- R281: SCF_PORT_ERR. -/ def R.SCF_PORT_ERR (k : Nat) : Nat := 0xf0000100118 + k * 0x20
/-- R281: SCF_DETOUR. -/ def R.SCF_DETOUR (i : Nat) : Nat := 0xf0000100400 + i * 0x8
/-- R281: SCF_LOST. -/ def R.SCF_LOST (i : Nat) : Nat := 0xf0000100800 + i * 0x8
/-- R282: SCF_XFAULT. -/ def R.SCF_XFAULT (c : Nat) : Nat := 0xf0000101000 + c * 0x10
/-- R282: SCF_XADDR. -/ def R.SCF_XADDR (c : Nat) : Nat := 0xf0000101008 + c * 0x10
/-- R305: COL_CFG. -/ def R.COL_CFG : Nat := 0xf0000200000
/-- R305: COL_STAT. -/ def R.COL_STAT : Nat := 0xf0000200008
/-- R305: COL_MATCH. -/ def R.COL_MATCH : Nat := 0xf0000200010
/-- R305: COL_SLOTS. -/ def R.COL_SLOTS : Nat := 0xf0000200018
/-- R305: COL_LATE. -/ def R.COL_LATE : Nat := 0xf0000200020
/-- R305: COL_CFG_ERR. -/ def R.COL_CFG_ERR : Nat := 0xf0000200028
/-- R305: COL_ENG. -/ def R.COL_ENG (e : Nat) : Nat := 0xf0000200100 + e * 0x10
/-- R305: COL_GROUP. -/ def R.COL_GROUP (g : Nat) : Nat := 0xf0000204000 + g * 0x10
/-- R305: COL_GSEQ. -/ def R.COL_GSEQ (g : Nat) : Nat := 0xf0000204008 + g * 0x10
/-- R305: COL_TCTR. -/ def R.COL_TCTR (n : Nat) : Nat := 0xf0000208000 + n * 0x8
/-- R305: COL_TADD. -/ def R.COL_TADD (n : Nat) : Nat := 0xf000020c000 + n * 0x8
/-- R306: COL_TRIG. -/ def R.COL_TRIG (t w : Nat) : Nat := 0xf0000280000 + t * 0x40 + w * 0x8
/-- R333: PLK_STAT. -/ def R.PLK_STAT : Nat := 0xf0000050000
/-- R333: PLK_UTIL. -/ def R.PLK_UTIL : Nat := 0xf0000050008
/-- R333: PLK_ERR. -/ def R.PLK_ERR : Nat := 0xf0000050010
/-- R333: DSP_CFG. -/ def R.DSP_CFG : Nat := 0xf0000060000
/-- R333: DSP_TCTL. -/ def R.DSP_TCTL : Nat := 0xf0000060008
/-- R333: DSP_TLBINV. -/ def R.DSP_TLBINV : Nat := 0xf0000060010
/-- R333: DSP_CFG_ERR. -/ def R.DSP_CFG_ERR : Nat := 0xf0000060018
/-- R333: DSP_CTXDEF. -/ def R.DSP_CTXDEF (c : Nat) : Nat := 0xf0000060800 + c * 0x10
/-- R333: DSP_CTXROOT. -/ def R.DSP_CTXROOT (c : Nat) : Nat := 0xf0000060808 + c * 0x10
/-- R333: DSP_LOG. -/ def R.DSP_LOG (p : Nat) : Nat := 0xf0000060c00 + p * 0x20
/-- R333: DSP_LOGPTR. -/ def R.DSP_LOGPTR (p : Nat) : Nat := 0xf0000060c08 + p * 0x20
/-- R333: DSP_LOGCLAIM. -/ def R.DSP_LOGCLAIM (p : Nat) : Nat := 0xf0000060c10 + p * 0x20
/-- R333: DSP_RING_SQ. -/ def R.DSP_RING_SQ (r : Nat) : Nat := 0xf0000061000 + r * 0x20
/-- R333: DSP_RING_CQ. -/ def R.DSP_RING_CQ (r : Nat) : Nat := 0xf0000061008 + r * 0x20
/-- R333: DSP_RING_IDX. -/ def R.DSP_RING_IDX (r : Nat) : Nat := 0xf0000061010 + r * 0x20
/-- R333: DSP_RING_STAT. -/ def R.DSP_RING_STAT (r : Nat) : Nat := 0xf0000061018 + r * 0x20
/-- R333: DSP_CSET. -/ def R.DSP_CSET (c k w : Nat) : Nat := 0xf0000064000 + c * 0x100 + k * 0x40 + w * 0x8
/-- R83: DSP_CTX_NUM_SAT. -/ def R.DSP_CTX_NUM_SAT (c : Nat) : Nat := 0xf0000068000 + c * 0x40
/-- R83: DSP_CTX_NUM_FLUSH. -/ def R.DSP_CTX_NUM_FLUSH (c : Nat) : Nat := 0xf0000068008 + c * 0x40
/-- R83: DSP_CTX_NUM_NAN. -/ def R.DSP_CTX_NUM_NAN (c : Nat) : Nat := 0xf0000068010 + c * 0x40
/-- R83: DSP_CTX_TRACE_DROP. -/ def R.DSP_CTX_TRACE_DROP (c : Nat) : Nat := 0xf0000068018 + c * 0x40
/-- R83: DSP_CTX_TRACE_EN. -/ def R.DSP_CTX_TRACE_EN (c k : Nat) : Nat := 0xf0000068020 + c * 0x40 + k * 0x8
/-- R103: DSP_CTX_RNG_KEY. -/ def R.DSP_CTX_RNG_KEY (c k : Nat) : Nat := 0xf0000069000 + c * 0x80 + k * 0x10
/-- R103: DSP_CTX_RNG_CTR. -/ def R.DSP_CTX_RNG_CTR (c k : Nat) : Nat := 0xf0000069008 + c * 0x80 + k * 0x10
/-- R400: DSP_TIMER. -/ def R.DSP_TIMER (c : Nat) : Nat := 0xf000006b000 + c * 0x8
/-- R359: CKP_CFG. -/ def R.CKP_CFG (p : Nat) : Nat := 0xf0000070000 + p * 0x100
/-- R359: CKP_COFF_W. -/ def R.CKP_COFF_W (p : Nat) : Nat := 0xf0000070008 + p * 0x100
/-- R359: CKP_COFF_E. -/ def R.CKP_COFF_E (p : Nat) : Nat := 0xf0000070010 + p * 0x100
/-- R359: CKP_MIRCFG. -/ def R.CKP_MIRCFG (p : Nat) : Nat := 0xf0000070018 + p * 0x100
/-- R359: CKP_SCHED. -/ def R.CKP_SCHED (p : Nat) : Nat := 0xf0000070020 + p * 0x100
/-- R359: CKP_ADDR. -/ def R.CKP_ADDR (p : Nat) : Nat := 0xf0000070028 + p * 0x100
/-- R359: CKP_CURADDR. -/ def R.CKP_CURADDR (p : Nat) : Nat := 0xf0000070030 + p * 0x100
/-- R359: CKP_CMD. -/ def R.CKP_CMD (p : Nat) : Nat := 0xf0000070038 + p * 0x100
/-- R359: CKP_RCUT. -/ def R.CKP_RCUT (p : Nat) : Nat := 0xf0000070040 + p * 0x100
/-- R359: CKP_STEP. -/ def R.CKP_STEP (p : Nat) : Nat := 0xf0000070048 + p * 0x100
/-- R359: CKP_STAT. -/ def R.CKP_STAT (p : Nat) : Nat := 0xf0000070050 + p * 0x100
/-- R359: CKP_CUTS. -/ def R.CKP_CUTS (p : Nat) : Nat := 0xf0000070058 + p * 0x100
/-- R359: CKP_SEALED. -/ def R.CKP_SEALED (p : Nat) : Nat := 0xf0000070060 + p * 0x100
/-- R359: CKP_GSEALED. -/ def R.CKP_GSEALED (p : Nat) : Nat := 0xf0000070068 + p * 0x100
/-- R359: CKP_SLOT0. -/ def R.CKP_SLOT0 (p : Nat) : Nat := 0xf0000070070 + p * 0x100
/-- R359: CKP_SLOT1. -/ def R.CKP_SLOT1 (p : Nat) : Nat := 0xf0000070078 + p * 0x100
/-- R359: CKP_BUDDY. -/ def R.CKP_BUDDY (p k : Nat) : Nat := 0xf0000070080 + p * 0x100 + k * 0x8
/-- R359: CKP_CURSOR. -/ def R.CKP_CURSOR (p k : Nat) : Nat := 0xf00000700c0 + p * 0x100 + k * 0x8
/-- R359: CKP_REGION. -/ def R.CKP_REGION (p i w : Nat) : Nat := 0xf0000071000 + p * 0x800 + i * 0x20 + w * 0x8
/-- R359: CKP_STAGE. -/ def R.CKP_STAGE : Nat := 0xf0000075000
/-- R359: CKP_WATCH. -/ def R.CKP_WATCH : Nat := 0xf0000075008
/-- R359: CKP_WATCH_STAT. -/ def R.CKP_WATCH_STAT : Nat := 0xf0000075010
/-- R359: CKP_CFG_ERR. -/ def R.CKP_CFG_ERR : Nat := 0xf0000075018
/-- R359: CKP_STANDIN. -/ def R.CKP_STANDIN (j : Nat) : Nat := 0xf0000075100 + j * 0x8
/-- R381: SEC_STAT. -/ def R.SEC_STAT : Nat := 0xf0000030000
/-- R381: SEC_CMD. -/ def R.SEC_CMD : Nat := 0xf0000030008
/-- R381: SEC_CFG_ERR. -/ def R.SEC_CFG_ERR : Nat := 0xf0000030010
/-- R381: SEC_RADDR. -/ def R.SEC_RADDR : Nat := 0xf0000030018
/-- R381: SEC_BOOTCOUNT. -/ def R.SEC_BOOTCOUNT : Nat := 0xf0000030020
/-- R381: SEC_LINKAUTH. -/ def R.SEC_LINKAUTH : Nat := 0xf00000300c0
/-- R381: SEC_RELEASE. -/ def R.SEC_RELEASE : Nat := 0xf00000300d0
/-- R381: SEC_SCRUB. -/ def R.SEC_SCRUB : Nat := 0xf00000300d8
/-- R381: SEC_NONCE. -/ def R.SEC_NONCE (k : Nat) : Nat := 0xf0000030040 + k * 0x8
/-- R381: SEC_PEER. -/ def R.SEC_PEER (k : Nat) : Nat := 0xf0000030080 + k * 0x8
/-- R381: SEC_KSLOT. -/ def R.SEC_KSLOT (s w : Nat) : Nat := 0xf0000031000 + s * 0x80 + w * 0x8
/-- R381: SEC_PCHAIN. -/ def R.SEC_PCHAIN (c w : Nat) : Nat := 0xf0000032000 + c * 0x40 + w * 0x8
/-- R381: SEC_DCHAIN. -/ def R.SEC_DCHAIN (p w : Nat) : Nat := 0xf0000033000 + p * 0x40 + w * 0x8
/-- R382: SEC_MEAS. -/ def R.SEC_MEAS (h i w : Nat) : Nat := 0xf0043001000 + h * 0x40000000 + i * 0x80 + w * 0x8
/-- R399: BBX_STAT. -/ def R.BBX_STAT : Nat := 0xf0000040000
/-- R399: BBX_CTL. -/ def R.BBX_CTL : Nat := 0xf0000040008
/-- R399: BBX_RING. -/ def R.BBX_RING : Nat := 0xf0000040010
/-- R399: BBX_SEQ. -/ def R.BBX_SEQ : Nat := 0xf0000040018
/-- R399: BBX_CFG. -/ def R.BBX_CFG : Nat := 0xf0000040020
/-- R399: BBX_SRAM_CE. -/ def R.BBX_SRAM_CE : Nat := 0xf0000040028
/-- R399: BBX_CFG_ERR. -/ def R.BBX_CFG_ERR : Nat := 0xf0000040030
/-- R399: BBX_ADDR_H. -/ def R.BBX_ADDR_H : Nat := 0xf0000040080
/-- R399: BBX_DATA_H. -/ def R.BBX_DATA_H : Nat := 0xf0000040088
/-- R399: BBX_ADDR_I. -/ def R.BBX_ADDR_I : Nat := 0xf0000040090
/-- R399: BBX_DATA_I. -/ def R.BBX_DATA_I : Nat := 0xf0000040098
/-- R399: BBX_EVT. -/ def R.BBX_EVT (n : Nat) : Nat := 0xf0000040040 + n * 0x8
/-- R411: DRN_BAY. -/ def R.DRN_BAY (b : Nat) : Nat := 0xf0000080000 + b * 0x20
/-- R411: DRN_SERIAL. -/ def R.DRN_SERIAL (b : Nat) : Nat := 0xf0000080008 + b * 0x20
/-- R411: DRN_AREA. -/ def R.DRN_AREA (p : Nat) : Nat := 0xf0000080100 + p * 0x20
/-- R411: DRN_BASE. -/ def R.DRN_BASE (p : Nat) : Nat := 0xf0000080108 + p * 0x20
/-- R411: DRN_XFER. -/ def R.DRN_XFER (p : Nat) : Nat := 0xf0000080110 + p * 0x20
/-- R411: DRN_XLEN. -/ def R.DRN_XLEN (p : Nat) : Nat := 0xf0000080118 + p * 0x20
/-- R411: DRN_XSTAT. -/ def R.DRN_XSTAT (p : Nat) : Nat := 0xf0000080200 + p * 0x8
/-- R426: PWR_REGIME. -/ def R.PWR_REGIME : Nat := 0xf0000020000
/-- R426: PWR_CTL. -/ def R.PWR_CTL : Nat := 0xf0000020008
/-- R426: PWR_STAT. -/ def R.PWR_STAT : Nat := 0xf0000020010
/-- R426: PWR_POWER. -/ def R.PWR_POWER : Nat := 0xf0000020018
/-- R426: PWR_THROTTLE. -/ def R.PWR_THROTTLE : Nat := 0xf0000020020
/-- R426: PWR_THERM. -/ def R.PWR_THERM : Nat := 0xf0000020028
/-- R426: PWR_RAIL. -/ def R.PWR_RAIL : Nat := 0xf0000020030
/-- R426: PWR_CFG_ERR. -/ def R.PWR_CFG_ERR : Nat := 0xf0000020038

/-- The rows of the PKG registers. -/
def rowsPKG : List RegRow :=
  [⟨0xf0000000000, [], 0x0, 0x0, 0x0, 0x0, 0xffffffffffffffff, 0xfe10000901020100⟩,
   ⟨0xf0000000008, [], 0x0, 0x0, 0x0, 0x0, 0xffffffffffffffff, 0x90240c0c06040⟩,
   ⟨0xf0000000010, [], 0x0, 0x0, 0x0, 0x0, 0xffffffffffffffff, 0x877777777⟩,
   ⟨0xf0000000018, [], 0x0, 0x0, 0x0, 0x0, 0xffffffffffffffff, 0x877777777⟩]

/-- The rows of the CLK registers. -/
def rowsCLK : List RegRow :=
  [⟨0xf0000010000, [], 0x0, 0x4, 0x0, 0x0, 0xffffffffffffff1b, 0x5000⟩,
   ⟨0xf0000010008, [], 0x0, 0x0, 0x0, 0x0, 0xffffffffffffffff, 0x0⟩]

/-- The rows of the NCO registers. -/
def rowsNCO : List RegRow :=
  [⟨0xf0140000000, [(2, 0x40000000), (64, 0x10000)], 0x0, 0x0, 0x0, 0x0, 0xffffffffffff073f, 0x0⟩,
   ⟨0xf0140000008, [(2, 0x40000000), (64, 0x10000)], 0x0, 0x0, 0x0, 0x0, 0xffffffffffffffff, 0x0⟩,
   ⟨0xf0140000010, [(2, 0x40000000), (64, 0x10000)], 0x1, 0x2, 0x0, 0x0, 0xfffffffffffffffc, 0x0⟩,
   ⟨0xf0140000018, [(2, 0x40000000), (64, 0x10000)], 0xfffffffff000, 0x0, 0x0, 0x0, 0xffff000000000fff, 0x0⟩,
   ⟨0xf0140000020, [(2, 0x40000000), (64, 0x10000)], 0x0, 0x8000000000000000, 0x0, 0x0, 0x7fffffffffffffff, 0x0⟩,
   ⟨0xf0140000028, [(2, 0x40000000), (64, 0x10000)], 0x0, 0x0, 0x0, 0x0, 0xffffffffffffffff, 0x0⟩,
   ⟨0xf0140000030, [(2, 0x40000000), (64, 0x10000)], 0x0, 0x0, 0x0, 0x0, 0xffffffffffffff03, 0x0⟩,
   ⟨0xf0140000038, [(2, 0x40000000), (64, 0x10000)], 0x0, 0x0, 0x0, 0x0, 0xffffffffffffffff, 0x0⟩,
   ⟨0xf0140000040, [(2, 0x40000000), (64, 0x10000)], 0x0, 0x0, 0x0, 0x0, 0xffffffffffffffff, 0x0⟩,
   ⟨0xf0140000048, [(2, 0x40000000), (64, 0x10000)], 0x0, 0x0, 0x0, 0x0, 0xffffffffffffffff, 0x0⟩,
   ⟨0xf0140000050, [(2, 0x40000000), (64, 0x10000)], 0x0, 0x0, 0x0, 0x0, 0xffffffffffffffff, 0x0⟩]

/-- The rows of the SCO registers. -/
def rowsSCO : List RegRow :=
  [⟨0xf00c0000040, [(2, 0x40000000), (96, 0x10000)], 0x1ffff, 0x0, 0x0, 0x0, 0xfffffffffffe0000, 0x20⟩,
   ⟨0xf00c0000048, [(2, 0x40000000), (96, 0x10000)], 0x0, 0x0, 0x0, 0x0, 0xffffffffffffffff, 0x0⟩,
   ⟨0xf00c0000100, [(2, 0x40000000), (96, 0x10000), (8, 0x10)], 0x0, 0x8000000000000000, 0x0, 0x0, 0x7fffffffffffffff, 0x0⟩,
   ⟨0xf00c0000108, [(2, 0x40000000), (96, 0x10000), (8, 0x10)], 0x0, 0x0, 0x0, 0x0, 0xffffffffffffffff, 0x0⟩]

/-- The rows of the SOL registers. -/
def rowsSOL : List RegRow :=
  [⟨0xf00c1000000, [(2, 0x40000000), (12, 0x10000)], 0x0, 0x0, 0x0, 0x0, 0xffffffffffffffff, 0x0⟩,
   ⟨0xf00c1000008, [(2, 0x40000000), (12, 0x10000)], 0x0, 0x0, 0x0, 0x0, 0xffffffffffffffff, 0x0⟩,
   ⟨0xf00c1000010, [(2, 0x40000000), (12, 0x10000)], 0x0, 0x0, 0x0, 0x0, 0xffffffffffffffff, 0x0⟩]

/-- The rows of the MEM registers. -/
def rowsMEM : List RegRow :=
  [⟨0xf0040000080, [(2, 0x40000000)], 0x80000003ffffffff, 0x0, 0x0, 0x0, 0x7ffffffc00000000, 0x8000090000ffffff⟩,
   ⟨0xf0040000000, [(2, 0x40000000), (9, 0x10)], 0x80000003ffffffff, 0x0, 0x0, 0x0, 0x7ffffffc00000000, 0x0⟩,
   ⟨0xf0040000008, [(2, 0x40000000), (9, 0x10)], 0x0, 0x0, 0x0, 0x0, 0xffffffffffffffff, 0x0⟩,
   ⟨0xf0040000100, [(2, 0x40000000)], 0x0, 0x8000000000000000, 0x0, 0x0, 0xffff00ff0fff, 0x0⟩,
   ⟨0xf0040000108, [(2, 0x40000000)], 0xffff000f, 0x0, 0x0, 0x0, 0x0, 0x3e80004⟩,
   ⟨0xf0040000110, [(2, 0x40000000)], 0xffff, 0x0, 0x0, 0x0, 0x0, 0x1808⟩,
   ⟨0xf0040000118, [(2, 0x40000000)], 0x0, 0x0, 0x0, 0x0, 0x3fffffffffffffff, 0x0⟩,
   ⟨0xf0040000120, [(2, 0x40000000)], 0x0, 0x2000, 0x0, 0x0, 0x1fff, 0x0⟩,
   ⟨0xf0040000128, [(2, 0x40000000)], 0x0, 0x8000000000000000, 0x0, 0x0, 0xfff, 0x0⟩,
   ⟨0xf0040000200, [(2, 0x40000000)], 0x0, 0x0, 0x0, 0x0, 0xffffffffffffffff, 0x0⟩,
   ⟨0xf0040000400, [(2, 0x40000000)], 0x0, 0x0, 0x0, 0x0, 0xffffffffffffffff, 0x0⟩,
   ⟨0xf0040000408, [(2, 0x40000000)], 0x0, 0x0, 0x0, 0x0, 0xffffffffffffffff, 0x0⟩,
   ⟨0xf0040000490, [(2, 0x40000000)], 0x0, 0x0, 0x0, 0x0, 0xffffffffffffffff, 0x0⟩,
   ⟨0xf0040000440, [(2, 0x40000000), (9, 0x8)], 0x0, 0x0, 0x0, 0x0, 0xffffffffffffffff, 0x0⟩,
   ⟨0xf0040001000, [(2, 0x40000000), (192, 0x8)], 0x0, 0x0, 0x0, 0x0, 0xffff0001ff3f, 0x30⟩,
   ⟨0xf0040020000, [(2, 0x40000000), (4096, 0x8)], 0x0, 0x0, 0x0, 0x0, 0x80fffffffffff000, 0x0⟩,
   ⟨0xf0040100000, [(2, 0x40000000), (8192, 0x8)], 0x0, 0x0, 0x0, 0x0, 0x80003f7fffff1fff, 0x0⟩]

/-- The rows of the LLM registers. -/
def rowsLLM : List RegRow :=
  [⟨0xf0041000000, [(2, 0x40000000), (8, 0x10)], 0xffffffff07ff, 0x0, 0x8000000000000000, 0x0, 0x4000000000000000, 0x0⟩,
   ⟨0xf0041000008, [(2, 0x40000000), (8, 0x10)], 0x0, 0x0, 0x0, 0x0, 0xffffffffffffffff, 0x0⟩,
   ⟨0xf0041000100, [(2, 0x40000000)], 0x0, 0x0, 0x0, 0x0, 0xffffffffffffffff, 0xffffffffffffffff⟩,
   ⟨0xf0041000108, [(2, 0x40000000)], 0x0, 0x0, 0x0, 0x0, 0xffff, 0x0⟩,
   ⟨0xf0041000110, [(2, 0x40000000)], 0x0, 0x0, 0x0, 0x0, 0xffffffffffffffff, 0x0⟩,
   ⟨0xf0041000118, [(2, 0x40000000)], 0x0, 0x8000000000000000, 0x0, 0x0, 0x7ff, 0x0⟩]

/-- The rows of the RGL registers. -/
def rowsRGL : List RegRow :=
  [⟨0xf0042000000, [(2, 0x40000000), (8, 0x20)], 0x3fff3fff3fff3fff, 0x0, 0x0, 0x0, 0x0, 0x0⟩,
   ⟨0xf0042000008, [(2, 0x40000000), (8, 0x20)], 0xffffffff, 0x0, 0x0, 0x0, 0x0, 0x4000400⟩,
   ⟨0xf0042000010, [(2, 0x40000000), (8, 0x20)], 0x0, 0x0, 0x0, 0x0, 0xffffffffffffffff, 0x0⟩,
   ⟨0xf0042000018, [(2, 0x40000000), (8, 0x20)], 0x0, 0x0, 0x0, 0x0, 0xffffffffffffffff, 0x0⟩,
   ⟨0xf0042000100, [(2, 0x40000000)], 0x0, 0x1, 0x0, 0x0, 0xe, 0x0⟩]

/-- The rows of the WIN registers. -/
def rowsWIN : List RegRow :=
  [⟨0xf0010000000, [(2097152, 0x10)], 0xfffff7f, 0x0, 0x0, 0x0, 0xfffffffff0000000, 0x0⟩,
   ⟨0xf0010000008, [(2097152, 0x10)], 0xfffffc000000, 0x0, 0x0, 0x0, 0xffff000003ffffff, 0x0⟩]

/-- The rows of the SCF registers. -/
def rowsSCF : List RegRow :=
  [⟨0xf0000100000, [], 0x0, 0x0, 0x0, 0xffffffffff, 0x8000000000000000, 0x0⟩,
   ⟨0xf0000100008, [], 0x80000fffffffffff, 0x0, 0x0, 0x0, 0x0, 0x0⟩,
   ⟨0xf0000100010, [], 0x3ff00ff, 0x0, 0x0, 0x0, 0x0, 0x640040⟩,
   ⟨0xf0000100018, [], 0x1fff, 0x0, 0x0, 0x0, 0x1fff0000, 0x4000c00⟩,
   ⟨0xf0000100060, [], 0x0, 0x8000000000000000, 0x0, 0x0, 0x7ff, 0x0⟩,
   ⟨0xf0000100500, [], 0x0, 0x0, 0x0, 0x0, 0xffffffffffffffff, 0x0⟩,
   ⟨0xf0000100508, [], 0x0, 0x0, 0x0, 0x0, 0xffffffff7fff, 0x0⟩,
   ⟨0xf0000100510, [], 0x0, 0x0, 0x0, 0x0, 0xffffffffffffffff, 0x0⟩,
   ⟨0xf0000100518, [], 0x0, 0x0, 0x0, 0x0, 0xffffffff, 0x0⟩,
   ⟨0xf0000100020, [(8, 0x8)], 0x800000000000ffff, 0x0, 0x0, 0x0, 0x0, 0x0⟩,
   ⟨0xf0000100100, [(16, 0x20)], 0x3, 0x0, 0x0, 0x0, 0x0, 0x2⟩,
   ⟨0xf0000100108, [(16, 0x20)], 0x0, 0x8, 0x0, 0x0, 0xffffffffffff0007, 0x0⟩,
   ⟨0xf0000100110, [(16, 0x20)], 0x0, 0x0, 0x0, 0x0, 0xffffffffffffffff, 0x0⟩,
   ⟨0xf0000100118, [(16, 0x20)], 0x0, 0x0, 0x0, 0x0, 0xffffffffffffffff, 0x0⟩,
   ⟨0xf0000100400, [(8, 0x8)], 0x1f1f, 0x0, 0x0, 0x0, 0x0, 0x0⟩,
   ⟨0xf0000100800, [(64, 0x8)], 0x0, 0x8000000000000000, 0x0, 0x0, 0x4000000000ffffff, 0x0⟩,
   ⟨0xf0000101000, [(64, 0x10)], 0x0, 0x8000000000000000, 0x0, 0x0, 0x7fffffffffffffff, 0x0⟩,
   ⟨0xf0000101008, [(64, 0x10)], 0x0, 0x0, 0x0, 0x0, 0xffffffffffffffff, 0x0⟩]

/-- The rows of the COL registers. -/
def rowsCOL : List RegRow :=
  [⟨0xf0000200000, [], 0x3f0fffffff, 0x0, 0x0, 0x0, 0x0, 0x2001002710⟩,
   ⟨0xf0000200008, [], 0x0, 0x0, 0x0, 0x0, 0xffffffffffffffff, 0x0⟩,
   ⟨0xf0000200010, [], 0x0, 0x0, 0x0, 0x0, 0xffffffff00001fff, 0x0⟩,
   ⟨0xf0000200018, [], 0x0, 0x0, 0x0, 0x0, 0xffffffff00000fff, 0x0⟩,
   ⟨0xf0000200020, [], 0x0, 0x0, 0x0, 0x0, 0xffffffff, 0x0⟩,
   ⟨0xf0000200028, [], 0x0, 0x8000000000000000, 0x0, 0x0, 0x3fff00ff, 0x0⟩,
   ⟨0xf0000200100, [(16, 0x10)], 0x0, 0x0, 0x0, 0x0, 0xffffffff000fff7f, 0x0⟩,
   ⟨0xf0000204000, [(1024, 0x10)], 0x80007fffffffffff, 0x0, 0x0, 0x0, 0x0, 0x0⟩,
   ⟨0xf0000204008, [(1024, 0x10)], 0xfffff, 0x0, 0x0, 0x0, 0xffffffff00000000, 0x0⟩,
   ⟨0xf0000208000, [(2048, 0x8)], 0x8000003fffffffff, 0x0, 0x0, 0x0, 0x0, 0x0⟩,
   ⟨0xf000020c000, [(2048, 0x8)], 0x0, 0x0, 0xffffffff, 0x0, 0x0, 0x0⟩,
   ⟨0xf0000280000, [(8192, 0x40)], 0xff7fffffff, 0x0, 0x0, 0x0, 0xffffff0000000000, 0xf000000000⟩,
   ⟨0xf0000280008, [(8192, 0x40)], 0xffffffffffffffff, 0x0, 0x0, 0x0, 0x0, 0x0⟩,
   ⟨0xf0000280010, [(8192, 0x40)], 0xffffffffffff03ff, 0x0, 0x0, 0x0, 0x0, 0x0⟩,
   ⟨0xf0000280018, [(8192, 0x40), (2, 0x8)], 0xffffffffffffffff, 0x0, 0x0, 0x0, 0x0, 0x0⟩,
   ⟨0xf0000280028, [(8192, 0x40)], 0x3fffffffff, 0x0, 0x0, 0x0, 0x0, 0x0⟩,
   ⟨0xf0000280030, [(8192, 0x40)], 0xffffffffffffffff, 0x0, 0x0, 0x0, 0x0, 0x0⟩,
   ⟨0xf0000280038, [(8192, 0x40)], 0xffff, 0x0, 0x0, 0x0, 0xffffffffffff0000, 0x0⟩]

/-- The rows of the PLK registers. -/
def rowsPLK : List RegRow :=
  [⟨0xf0000050000, [], 0x0, 0x0, 0x0, 0x0, 0xffffffffffff000f, 0x0⟩,
   ⟨0xf0000050008, [], 0x0, 0x0, 0x0, 0x0, 0xffffffffffffffff, 0x0⟩,
   ⟨0xf0000050010, [], 0x0, 0x0, 0x0, 0x0, 0xffffffffffffffff, 0x0⟩]

/-- The rows of the DSP registers. -/
def rowsDSP : List RegRow :=
  [⟨0xf0000060000, [], 0xff01, 0x0, 0x0, 0x0, 0x0, 0x0⟩,
   ⟨0xf0000060008, [], 0x0, 0x0, 0x30701ff, 0x0, 0x0, 0x0⟩,
   ⟨0xf0000060010, [], 0xffffffe0007f, 0x0, 0x8000000000000000, 0x0, 0x4000000000000000, 0x4000000000000000⟩,
   ⟨0xf0000060018, [], 0x0, 0x8000000000000000, 0x0, 0x0, 0xffff, 0x0⟩,
   ⟨0xf0000060800, [(64, 0x10)], 0x80000000ffff0007, 0x0, 0x0, 0x0, 0x0, 0x27100000⟩,
   ⟨0xf0000060808, [(64, 0x10)], 0xfffffffff000, 0x0, 0x0, 0x0, 0x0, 0x0⟩,
   ⟨0xf0000060c00, [(8, 0x20)], 0xffffff000000, 0x0, 0x0, 0x0, 0x0, 0x0⟩,
   ⟨0xf0000060c08, [(8, 0x20)], 0x0, 0x0, 0x0, 0x0, 0xffffffffffffffff, 0x0⟩,
   ⟨0xf0000060c10, [(8, 0x20)], 0x0, 0x0, 0x0, 0x0, 0xffffffffffffffff, 0x0⟩,
   ⟨0xf0000061000, [(256, 0x20)], 0x81fffffffffff000, 0x0, 0x0, 0x0, 0x0, 0x60000000000000⟩,
   ⟨0xf0000061008, [(256, 0x20)], 0x1fffffffffff000, 0x0, 0x0, 0x0, 0x0, 0x60000000000000⟩,
   ⟨0xf0000061010, [(256, 0x20)], 0x3f0fffffffffffc0, 0x0, 0x0, 0x0, 0x0, 0x0⟩,
   ⟨0xf0000061018, [(256, 0x20)], 0x0, 0x1, 0x0, 0x0, 0xffffffff0000ff02, 0x0⟩,
   ⟨0xf0000064000, [(64, 0x100), (4, 0x40), (5, 0x8)], 0xffffffffffffffff, 0x0, 0x0, 0x0, 0x0, 0x0⟩,
   ⟨0xf0000064028, [(64, 0x100), (4, 0x40)], 0xff, 0x0, 0x0, 0x0, 0x0, 0x0⟩,
   ⟨0xf0000068000, [(64, 0x40)], 0xffffffffffffffff, 0x0, 0x0, 0x0, 0x0, 0x0⟩,
   ⟨0xf0000068008, [(64, 0x40)], 0xffffffffffffffff, 0x0, 0x0, 0x0, 0x0, 0x0⟩,
   ⟨0xf0000068010, [(64, 0x40)], 0xffffffffffffffff, 0x0, 0x0, 0x0, 0x0, 0x0⟩,
   ⟨0xf0000068018, [(64, 0x40)], 0xffffffffffffffff, 0x0, 0x0, 0x0, 0x0, 0x0⟩,
   ⟨0xf0000068020, [(64, 0x40), (4, 0x8)], 0xffffffffffffffff, 0x0, 0x0, 0x0, 0x0, 0x0⟩,
   ⟨0xf0000069000, [(64, 0x80), (8, 0x10)], 0xffffffffffffffff, 0x0, 0x0, 0x0, 0x0, 0x0⟩,
   ⟨0xf0000069008, [(64, 0x80), (8, 0x10)], 0xffffffffffffffff, 0x0, 0x0, 0x0, 0x0, 0x0⟩,
   ⟨0xf000006b000, [(64, 0x8)], 0x0, 0x0, 0x0, 0x0, 0xffffffffffffffff, 0x0⟩]

/-- The rows of the CKP registers. -/
def rowsCKP : List RegRow :=
  [⟨0xf0000070000, [(8, 0x100)], 0x8000ffff007fffff, 0x0, 0x0, 0x0, 0x0, 0x100600000⟩,
   ⟨0xf0000070008, [(8, 0x100)], 0x3ffffffffe00000, 0x0, 0x0, 0x0, 0x0, 0x0⟩,
   ⟨0xf0000070010, [(8, 0x100)], 0x3ffffffffe00000, 0x0, 0x0, 0x0, 0x0, 0x0⟩,
   ⟨0xf0000070018, [(8, 0x100)], 0xffff001f, 0x0, 0x0, 0x0, 0x0, 0x400000⟩,
   ⟨0xf0000070020, [(8, 0x100)], 0xffffffff, 0x0, 0x0, 0x0, 0x0, 0x0⟩,
   ⟨0xf0000070028, [(8, 0x100)], 0xffffffffffc0, 0x0, 0x0, 0x0, 0x0, 0x0⟩,
   ⟨0xf0000070030, [(8, 0x100)], 0xffffffffffc0, 0x0, 0x0, 0x0, 0x0, 0x0⟩,
   ⟨0xf0000070038, [(8, 0x100)], 0x0, 0x0, 0x7f, 0x0, 0x0, 0x0⟩,
   ⟨0xf0000070040, [(8, 0x100)], 0xffffffffffffffff, 0x0, 0x0, 0x0, 0x0, 0x0⟩,
   ⟨0xf0000070048, [(8, 0x100)], 0xffffffffffffffff, 0x0, 0x0, 0x0, 0x0, 0x0⟩,
   ⟨0xf0000070050, [(8, 0x100)], 0x0, 0x0, 0x0, 0x0, 0xffff00ffff7f, 0x0⟩,
   ⟨0xf0000070058, [(8, 0x100)], 0x0, 0x0, 0x0, 0x0, 0xffffffffffffffff, 0x0⟩,
   ⟨0xf0000070060, [(8, 0x100)], 0x0, 0x0, 0x0, 0x0, 0xffffffffffffffff, 0x0⟩,
   ⟨0xf0000070068, [(8, 0x100)], 0x0, 0x0, 0x0, 0x0, 0xffffffffffffffff, 0x0⟩,
   ⟨0xf0000070070, [(8, 0x100)], 0x0, 0x0, 0x0, 0x0, 0xffffffffffffffff, 0x0⟩,
   ⟨0xf0000070078, [(8, 0x100)], 0x0, 0x0, 0x0, 0x0, 0xffffffffffffffff, 0x0⟩,
   ⟨0xf0000070080, [(8, 0x100), (8, 0x8)], 0x80007fffffffffff, 0x0, 0x0, 0x0, 0x0, 0x0⟩,
   ⟨0xf00000700c0, [(8, 0x100), (8, 0x8)], 0x0, 0x0, 0x0, 0x0, 0xffffffffffffffff, 0x0⟩,
   ⟨0xf0000071000, [(8, 0x800), (64, 0x20)], 0x800ffffffffff000, 0x0, 0x0, 0x0, 0x0, 0x0⟩,
   ⟨0xf0000071008, [(8, 0x800), (64, 0x20), (2, 0x8)], 0xffffffffffffffff, 0x0, 0x0, 0x0, 0x0, 0x0⟩,
   ⟨0xf0000075000, [], 0x3ffffffffe00000, 0x0, 0x0, 0x0, 0x0, 0x0⟩,
   ⟨0xf0000075008, [], 0xffffffffffffff, 0x0, 0x0, 0x0, 0x0, 0xff03e8290403e8⟩,
   ⟨0xf0000075010, [], 0x0, 0xf, 0x0, 0x0, 0xffffffff00000000, 0x0⟩,
   ⟨0xf0000075018, [], 0x0, 0x8000000000000000, 0x0, 0x0, 0x7ff, 0x0⟩,
   ⟨0xf0000075100, [(8, 0x8)], 0x800000ffffffffff, 0x0, 0x0, 0x0, 0x0, 0x0⟩]

/-- The rows of the SEC registers. -/
def rowsSEC : List RegRow :=
  [⟨0xf0000030000, [], 0x0, 0x0, 0x0, 0x0, 0x3f3f4f, 0x0⟩,
   ⟨0xf0000030008, [], 0x0, 0x0, 0x7, 0x0, 0x0, 0x0⟩,
   ⟨0xf0000030010, [], 0x0, 0x8000000000000000, 0x0, 0x0, 0xffff, 0x0⟩,
   ⟨0xf0000030018, [], 0xfffffffffffc0, 0x0, 0x0, 0x0, 0x0, 0x0⟩,
   ⟨0xf0000030020, [], 0x0, 0x0, 0x0, 0x0, 0xffffffffffffffff, 0x0⟩,
   ⟨0xf00000300c0, [], 0x0, 0x0, 0x0, 0x0, 0xffffffffffffffff, 0x0⟩,
   ⟨0xf00000300d0, [], 0x0, 0x0, 0x8000000000000007, 0x0, 0x0, 0x0⟩,
   ⟨0xf00000300d8, [], 0x0, 0xff00, 0x0, 0x0, 0xffffffff000000ff, 0x0⟩,
   ⟨0xf0000030040, [(8, 0x8)], 0xffffffffffffffff, 0x0, 0x0, 0x0, 0x0, 0x0⟩,
   ⟨0xf0000030080, [(4, 0x8)], 0xffffffffffffffff, 0x0, 0x0, 0x0, 0x0, 0x0⟩,
   ⟨0xf0000031000, [(32, 0x80)], 0x73, 0x0, 0x4000000000000000, 0x0, 0x8000000000000000, 0x0⟩,
   ⟨0xf0000031008, [(32, 0x80), (12, 0x8)], 0x0, 0x0, 0xffffffffffffffff, 0x0, 0x0, 0x0⟩,
   ⟨0xf0000031068, [(32, 0x80), (3, 0x8)], 0x0, 0x0, 0x0, 0x0, 0xffffffffffffffff, 0x0⟩,
   ⟨0xf0000032000, [(64, 0x40), (8, 0x8)], 0x0, 0x0, 0x0, 0x0, 0xffffffffffffffff, 0x0⟩,
   ⟨0xf0000033000, [(8, 0x40), (8, 0x8)], 0x0, 0x0, 0x0, 0x0, 0xffffffffffffffff, 0x0⟩,
   ⟨0xf0043001000, [(2, 0x40000000), (128, 0x80)], 0xc000fffffffff000, 0x0, 0x0, 0x0, 0x2000000000000000, 0x0⟩,
   ⟨0xf0043001008, [(2, 0x40000000), (128, 0x80)], 0x7ffffffffff, 0x0, 0x8000000000000000, 0x0, 0x0, 0x0⟩,
   ⟨0xf0043001010, [(2, 0x40000000), (128, 0x80), (8, 0x8)], 0x0, 0x0, 0x0, 0x0, 0xffffffffffffffff, 0x0⟩]

/-- The rows of the BBX registers. -/
def rowsBBX : List RegRow :=
  [⟨0xf0000040000, [], 0x0, 0x0, 0x0, 0x0, 0xffffffffff01ffff, 0x0⟩,
   ⟨0xf0000040008, [], 0x0, 0x0, 0x3, 0x0, 0x0, 0x0⟩,
   ⟨0xf0000040010, [], 0x0, 0x0, 0x0, 0x0, 0x1ffff0001ffff, 0x0⟩,
   ⟨0xf0000040018, [], 0x0, 0x0, 0x0, 0x0, 0xffffffffffffffff, 0x0⟩,
   ⟨0xf0000040020, [], 0xffff, 0x0, 0x0, 0x0, 0x0, 0x3c⟩,
   ⟨0xf0000040028, [], 0x0, 0x0, 0x0, 0x0, 0xffffffffffffffff, 0x0⟩,
   ⟨0xf0000040030, [], 0x0, 0x8000000000000000, 0x0, 0x0, 0x3ffff, 0x0⟩,
   ⟨0xf0000040080, [], 0x7ffff8, 0x0, 0x0, 0x0, 0x0, 0x0⟩,
   ⟨0xf0000040088, [], 0x0, 0x0, 0x0, 0x0, 0xffffffffffffffff, 0x0⟩,
   ⟨0xf0000040090, [], 0x7ffff8, 0x0, 0x0, 0x0, 0x0, 0x0⟩,
   ⟨0xf0000040098, [], 0x0, 0x0, 0x0, 0x0, 0xffffffffffffffff, 0x0⟩,
   ⟨0xf0000040040, [(4, 0x8)], 0x7ff03, 0x0, 0x0, 0x0, 0x1c, 0x0⟩]

/-- The rows of the DRN registers. -/
def rowsDRN : List RegRow :=
  [⟨0xf0000080000, [(2, 0x20)], 0x0, 0x0, 0x20, 0x0, 0xffffffff0000ff5f, 0x0⟩,
   ⟨0xf0000080008, [(2, 0x20)], 0x0, 0x0, 0x0, 0x0, 0xffffffffffffffff, 0x0⟩,
   ⟨0xf0000080100, [(8, 0x20)], 0xffffffffffffffff, 0x0, 0x0, 0x0, 0x0, 0x0⟩,
   ⟨0xf0000080108, [(8, 0x20)], 0xffffffffff, 0x0, 0x0, 0x0, 0x0, 0x0⟩,
   ⟨0xf0000080110, [(8, 0x20)], 0x0, 0x0, 0x8000fffffffff001, 0x0, 0x0, 0x0⟩,
   ⟨0xf0000080118, [(8, 0x20)], 0xffffffffffffffff, 0x0, 0x0, 0x0, 0x0, 0x0⟩,
   ⟨0xf0000080200, [(8, 0x8)], 0x0, 0x8000000000000000, 0x0, 0x0, 0x400000000000ffff, 0x0⟩]

/-- The rows of the PWR registers. -/
def rowsPWR : List RegRow :=
  [⟨0xf0000020000, [], 0x303, 0x0, 0x8000000000000000, 0x0, 0x4000000000000400, 0x0⟩,
   ⟨0xf0000020008, [], 0x0, 0x0, 0xff03, 0x0, 0x0, 0x0⟩,
   ⟨0xf0000020010, [], 0x0, 0x0, 0x0, 0x0, 0xffffffff0000ffff, 0x11⟩,
   ⟨0xf0000020018, [], 0x0, 0x0, 0x0, 0x0, 0xffffffffffffffff, 0xe10000000000000⟩,
   ⟨0xf0000020020, [], 0x0, 0x0, 0x0, 0x0, 0xffffffff0000037f, 0x40⟩,
   ⟨0xf0000020028, [], 0xff00000000, 0x0, 0x0, 0x0, 0xff000007ffff, 0x6e6400000000⟩,
   ⟨0xf0000020030, [], 0x0, 0xfff0000, 0x0, 0x0, 0xfff, 0x0⟩,
   ⟨0xf0000020038, [], 0x0, 0x8000000000000000, 0x0, 0x0, 0xffff, 0x0⟩]

/-- Whether an offset from a register's first address is one of its instances. -/
def inDims : List (Nat × Nat) → Nat → Bool
  | [], off => off == 0
  | (c, st) :: r, off => off / st < c && inDims r (off % st)

/-- A row covers an address. -/
def RegRow.covers (r : RegRow) (a : Nat) : Bool := r.base ≤ a && inDims r.dims (a - r.base)

/-- R24: the rows of the block an address lies in. -/
def rowsAt (a : Nat) : List RegRow :=
  let off := nsub a 0x0F0000000000
  let die := off / 0x40000000
  let o := off % 0x40000000
  if die = 0 then
    (if o < 0x10000 then rowsPKG else if o < 0x20000 then rowsCLK else if o < 0x30000 then rowsPWR
     else if o < 0x40000 then rowsSEC else if o < 0x50000 then rowsBBX else if o < 0x60000 then rowsPLK
     else if o < 0x70000 then rowsDSP else if o < 0x80000 then rowsCKP else if o < 0x90000 then rowsDRN
     else if o < 0x200000 then rowsSCF else if o < 0x10000000 then rowsCOL else rowsWIN)
  else if die ≤ 2 then
    (if o < 0x1000000 then rowsMEM else if o < 0x2000000 then rowsLLM else if o < 0x3000000 then rowsRGL else rowsSEC)
  else if die ≤ 4 then (if o < 0x1000000 then rowsSCO else rowsSOL)
  else rowsNCO

/-- The row of an assigned register address. -/
def regRow (a : Nat) : Option RegRow := (rowsAt a).find? (fun r => r.covers a)

/-- The reset value of a register address; an unassigned offset reads zero (R25). -/
def regReset (a : Nat) : Word :=
  match regRow a with
  | some r => BitVec.ofNat 64 r.rst
  | none => 0#64

/-- R24, R25: an address lies in a function block of its die; `n` is PKG_LAYOUT.NCORES. -/
def regBlockExists (n a : Nat) : Bool :=
  let off := nsub a 0x0F0000000000
  let die := off / 0x40000000
  let o := off % 0x40000000
  if die = 0 then
    o < 0x90000 || (0x100000 ≤ o && o < 0x300000) || (0x10000000 ≤ o && o < 0x14000000)
  else if die ≤ 2 then o < 0x3010000
  else if die ≤ 4 then
    (o / 0x10000 < 96 && o < 0x1000000) || (0x1000000 ≤ o && (nsub o 0x1000000) / 0x10000 < 12)
  else if die ≤ 6 then
    (o / 0x10000 < n && o < 0x1000000) || (0x1000000 ≤ o && (nsub o 0x1000000) / 0x10000 < 9)
  else false

end Sys2Proof.Machine
end

