-- ==== Sys2Proof/Machine/State.lean ====
section
/-! DEFINITION. The state of one package as plain data (INVENTORY.md, '## State'): the clock, the register space, memory, the threads and stations of the cores, every unit's queues and sequencers, and the queue of commands waiting. -/

namespace Sys2Proof.Machine

/-- R39: a stream descriptor register: its eight words, and whether SDLD.B loaded it (R73). -/
structure Desc where
  w0 : Word
  w1 : Word
  w2 : Word
  w3 : Word
  w4 : Word
  w5 : Word
  w6 : Word
  w7 : Word
  basic : Bool
  deriving DecidableEq, Repr

/-- R48: a cleared descriptor register. -/
def desc0 : Desc := ⟨0, 0, 0, 0, 0, 0, 0, 0, false⟩

/-- R32-R34: a tile: its header fields, its element codes in row-major order, its E8M0 scales, and the poison mark of R385. -/
structure Tile where
  fmt : Nat
  scaled : Bool
  axis : Bool
  rows : Nat
  cols : Nat
  sat : Nat
  flush : Nat
  last : Bool
  els : List Nat
  scales : List Nat
  poison : Bool
  deriving DecidableEq, Repr

/-- R35, R74: a port of a station: the station code and the port number. -/
structure Port where
  st : Nat
  port : Nat
  deriving DecidableEq, Repr

/-- R42, R43: a bound stream: its queue, the copy of its descriptor (R40), its ports, its counter, the tiles put into the queue so far, the tiles still in it, and how many each consumer has taken. -/
structure Stream where
  q : Nat
  sd : Nat
  d : Desc
  frm : Port
  to1 : Port
  to2 : Option Port
  cnt : Nat
  made : Nat
  tiles : List Tile
  took1 : Nat
  took2 : Nat
  deriving DecidableEq, Repr

/-- R35: a class instruction on its way to its station, with the physical addresses its check at issue found (R445). -/
structure ClassIns where
  cls : Nat
  op : Nat
  d : Nat
  a : Nat
  imm : Half
  pas : List Nat
  deriving DecidableEq, Repr

/-- R118, R108: one accumulator element: the exact sum, the sum of the magnitudes (R104), the infinity and NaN flags, whether an operand was a NaN, the products received, and the lowest and highest combined block-scale exponents (R107). -/
structure AccEl where
  sum : Dy
  abs : Dy
  pinf : Bool
  ninf : Bool
  nanP : Bool
  nanOp : Bool
  n : Nat
  kmin : Int
  kmax : Int
  deriving DecidableEq, Repr

/-- R48: a cleared accumulator element. -/
def accEl0 : AccEl := ⟨dy0, dy0, false, false, false, false, 0, 0, 0⟩

/-- R113, R118: a wide accumulator: its elements by row*64+column, the rows and columns in use, whether its pass is windowed, the flushes owed to its readout (R121), whether a parity error poisoned it (R132), and its holder (R131: 0 none, 1 MATRIX, 2 TRESTLE, 3 REDUCE). -/
structure Acc where
  els : Sparse AccEl
  rows : Nat
  cols : Nat
  windowed : Bool
  flush : Nat
  poison : Bool
  owner : Nat
  deriving DecidableEq, Repr

/-- R48: a cleared accumulator. -/
def acc0 : Acc := ⟨[], 0, 0, false, 0, false, 0⟩

/-- R113-R125: the MATRIX station: the settings in force (none before the first MXPASS), the two stationary banks (none: never loaded, R117) with the flushes each block owes, the pass and its counts, MXSWAPs not yet made, whether the pass is to be read out (and LAST caused it), and the tiles still to leave, each with its accumulator. -/
structure Matrix where
  cfg : Option (Half × Bool)
  bankSel : Nat
  bank0 : Option Tile
  bank1 : Option Tile
  flush0 : Nat
  flush1 : Nat
  shadowFull : Bool
  swaps : Nat
  opened : Bool
  partials : Nat
  blocks : Nat
  kstep : Nat
  rot : Nat
  swapped : Bool
  m : Nat
  n : Nat
  reading : Bool
  lastRead : Bool
  out : List (Nat × Tile)
  deriving DecidableEq, Repr

/-- R48: the MATRIX station in its cleared state. -/
def matrix0 : Matrix := ⟨none, 0, none, none, 0, 0, false, 0, false, 0, 0, 0, 0, false, 0, 0, false, false, []⟩

/-- R126-R130: the TRESTLE station: the settings in force (IMM32, D, expert form), whether a tile has come under them, the open sweep with its tiles, its row base and the rows of its row block, whether it is being read out (because it is full), the tiles still to leave, and the descriptor register and index of the last weight tile. -/
structure Trestle where
  cfg : Option (Half × Nat × Bool)
  used : Bool
  sweep : Bool
  tiles : Nat
  rowBase : Nat
  blk : Nat
  reading : Bool
  cap : Bool
  out : List Tile
  lastSd : Nat
  lastIx : Nat
  deriving DecidableEq, Repr

/-- R48: the TRESTLE station in its cleared state. -/
def trestle0 : Trestle := ⟨none, false, false, 0, 0, 0, false, false, [], 0, 0⟩

/-- R134, R135: an element program: its header word and its micro-operation words. -/
structure Prog where
  hdr : Word
  uops : List Word
  deriving DecidableEq, Repr

/-- R133, R144, R145: the ELEMENT station: the eight program slots, k0-k3, the slot in force with its NUMCTL. -/
structure Element where
  slots : Sparse (Option Prog)
  k : Sparse Half
  run : Nat × Nat
  deriving DecidableEq, Repr

/-- R48: the ELEMENT station in its cleared state. -/
def element0 : Element := ⟨[], [], (0, 0)⟩

/-- R147-R150: the running result of one row or column of a group: its sums, its best element and that one's index, whether some element was no NaN, whether one was, and SMAX's sum with the rescales it has seen. -/
structure RedEl where
  sum : AccEl
  sum2 : AccEl
  best : Fp
  bestIx : Nat
  some : Bool
  anyNan : Bool
  exps : Dy
  resc : Nat
  deriving DecidableEq, Repr

/-- A group element before its first element. -/
def redEl0 : RedEl := ⟨accEl0, accEl0, .nan, 0, false, false, dy0, 0⟩

/-- R152: what ELEMENT finds for a jointly fed tile: its place in the shared stream, whether its members go by row, and the members, none when REDUCE took it without LINK. Only entries with members lie in the link buffer. -/
structure LinkEntry where
  q : Nat
  idx : Nat
  row : Bool
  members : Option (List (List Nat))
  deriving DecidableEq, Repr

/-- R147-R155: the REDUCE station: the open operation (IMM32, D, expert form), whether it has given a result, the tiles of the group, its shape, its running results, the index base of ARGMAX and ARGMIN, results waiting for REDUCE.r, and the link buffer. -/
structure Reduce where
  op : Option (Half × Nat × Bool)
  used : Bool
  tiles : Nat
  rows : Nat
  cols : Nat
  els : Sparse RedEl
  base : Nat
  out : List Tile
  links : List LinkEntry
  deriving DecidableEq, Repr

/-- R48: the REDUCE station in its cleared state. -/
def reduce0 : Reduce := ⟨none, false, 0, 0, 0, [], 0, [], []⟩

/-- R38-R44: an N-core's stations: its streams in issue order, class instructions on their way, the four accumulators, the element registers, the five arithmetic stations, tiles stored and not yet visible (by counter), and whether a stream fault stopped it. -/
structure NCore where
  streams : List Stream
  mxIn : List ClassIns
  trIn : List ClassIns
  ewIn : List ClassIns
  rdIn : List ClassIns
  acc : Sparse Acc
  e : Sparse (BitVec 2048)
  mx : Matrix
  tr : Trestle
  ew : Element
  rd : Reduce
  stored : List Nat
  deriving DecidableEq, Repr

/-- R48: an N-core with empty queues and cleared stations. -/
def ncore0 : NCore := ⟨[], [], [], [], [], [], [], matrix0, trestle0, element0, reduce0, []⟩

/-- R38: a COPY request: its core, that core's take-up number and its context, its descriptors, its counter, the lines already landed, whether a fault set it aside (R52), and the transfer it carries when it is an RGET, RPUT or RPUTF (R263). -/
structure CopyReq where
  core : Nat
  gen : Nat
  ctx : Nat
  sds : Nat
  src : Desc
  dst : Desc
  cnt : Nat
  line : Nat
  aside : Bool
  xfer : Option Nat
  deriving DecidableEq, Repr

/-- R38: a copy engine: its waiting requests and the core it served last. -/
structure Cpe where
  reqs : List CopyReq
  last : Nat
  deriving DecidableEq, Repr

/-- An idle copy engine. -/
def cpe0 : Cpe := ⟨[], 0⟩

/-- What a hardware thread is doing: idle; running; waiting at a WAIT, WAITR or WAITD (its instruction is kept so that its release can retire it); at a FENCE; for an atomic's reply; in a remote gather; for an LVU wake; stopped by a fault. -/
inductive Phase where
  | idle
  | run
  | waitCtr (ctr : Nat) (thr : Half)
  | waitDl (ctr : Nat) (thr : Half) (dl : Word) (pd : Nat)
  | fence
  | atomic
  | gather
  | wake
  | fault
  deriving DecidableEq, Repr

/-- R59: the register files of one hardware thread, the context and LAUNCH it runs, its take-up number, its restart index (R174), when a save under way began (R49), what it is doing, whether a watchdog stops it when its atomic or gather ends (R327), and the status and subcode of its last fault. -/
structure Thread where
  x : Sparse Word
  f : Sparse Word
  p : Sparse (BitVec 512)
  c : Sparse Half
  sd : Sparse Desc
  v : Sparse (BitVec 4096)
  vl : Word
  vtype : Word
  nstat : Word
  pc : Word
  ctx : Nat
  launch : Option (Nat × Nat)
  gen : Nat
  restart : Nat
  saving : Option Nat
  phase : Phase
  halt : Bool
  err : Nat × Nat
  deriving DecidableEq, Repr

/-- R48, R162: a thread that has taken up nothing: every register cleared, vtype FP64. -/
def thread0 : Thread := ⟨[], [], [], [], [], [], 0, 6, 0, 0, 0, none, 0, 0, none, .idle, false, (0, 0)⟩

/-- R49-R51: a saved image: the thread, its N-core stations, its local store with its undefined ranges and poisoned lines, and the arrival-counter increments held with it (R50). -/
structure Image where
  key : Nat
  th : Thread
  nc : NCore
  store : List Host.Cell
  undef : List (Nat × Nat × Nat)
  poison : List Nat
  held : List Nat
  deriving DecidableEq, Repr
/-- What a package sends on a Scauth port or to its host. -/
inductive Tx where
  | pkt (port : Nat) (p : Pkt)
  | flit (port : Nat) (f : Flit)
  | keep (port : Nat)
  | leaving (port : Nat)
  | training (port : Nat)
  | lost (port coord cause : Nat)
  | host (addr : Nat) (bytes : List Byte)
  | answer (addr : Nat) (bytes : List Byte) (ok : Bool)
  | poisoned (addr : Nat)
  | fetch (addr n : Nat)
  | keyswitch
  | plkLeaving (port : Nat)
  | i3c (bytes : List Byte)
  | tdo (idcode : Nat)
  deriving DecidableEq, Repr

/-- What a request of a local engine is for: line `i` of a transfer; an atomic's registers; a line of a remote gather; line `i` of a FABRIC.get tile of a queue; a line of a FABRIC.put tile; halo line of a solver unit; a line of a mirror restore; a line of a mirror copy. -/
inductive ReqKind where
  | xfer (id i : Nat)
  | atomic (d : Nat) (wide : Bool)
  | gather
  | get (q tile i : Nat)
  | put (id i : Nat)
  | halo (svu : Nat)
  | mirror (part : Nat)
  | mwrite (part : Nat)
  deriving DecidableEq, Repr

/-- R275: an outstanding request: its engine and sequence number, the thread, take-up and context it works for, what it is for, the fabric address of its line, the packet, the NACKs and resends so far, when it was last sent, and the hint it waits for. -/
structure OutReq where
  eng : Nat
  seq : Nat
  key : Nat
  gen : Nat
  ctx : Nat
  kind : ReqKind
  va : Nat
  pkt : Pkt
  nacks : Nat
  resends : Nat
  sent : Nat
  hint : Option Nat
  deriving DecidableEq, Repr

/-- R265: an RGET, RPUT or RPUTF under way: its operation, addresses, mask, counter and lines, the next line to send, the lines outstanding, and its final failure (status and line). -/
structure Xfer where
  id : Nat
  key : Nat
  gen : Nat
  ctx : Nat
  op : Nat
  ra : Nat
  la : Nat
  mask : Nat
  cnt : Nat
  n : Nat
  next : Nat
  out : Nat
  fail : Option (Nat × Nat)
  deriving DecidableEq, Repr

/-- R264: the lines of one FABRIC.get tile: the stream's queue and descriptor register, the tile, each line's fabric address with its bytes and poison once it has returned, and a failure. -/
structure GetTile where
  core : Nat
  q : Nat
  sd : Nat
  cnt : Nat
  tile : Nat
  lines : List (Nat × Option (List Byte × Bool))
  fail : Option (Nat × Nat)
  deriving DecidableEq, Repr

/-- R262, R264: a tile that FABRIC.put sent: its queue and counter, the lines not yet acknowledged, a failure, and the tile itself. -/
structure PutTile where
  id : Nat
  core : Nat
  gen : Nat
  ctx : Nat
  sd : Nat
  cnt : Nat
  tile : Nat
  left : Nat
  fail : Option Nat
  q : Nat
  data : Tile
  deriving DecidableEq, Repr

/-- R178: how a line of a remote gather came back: its bytes and poison, or a final status, subcode and cause. -/
inductive GotLine where
  | data (bs : List Byte) (pois : Bool)
  | fail (status sub : Nat)
  deriving DecidableEq, Repr

/-- R177, R178: a VRGATHER under way: the destination, the element bits, the elements with their fabric addresses, the lines not yet read in issue order, and the lines that have come back. -/
structure Gather where
  d : Nat
  bits : Nat
  els : List (Nat × Nat)
  todo : List Nat
  got : List (Nat × GotLine)
  deriving DecidableEq, Repr

/-- R266, R267: a combining slot: the tag and kind of the request that was forwarded, its port, and the members it stands for. -/
structure CombSlot where
  seq : Nat
  port : Nat
  mem : List Member
  deriving DecidableEq, Repr

/-- R274: a reply-cache entry: the tag, the prior value, and when it was recorded. -/
structure RcEntry where
  src : Nat
  eng : Nat
  seq : Nat
  v : Nat
  at_ : Nat
  deriving DecidableEq, Repr

/-- R287, R294, R342: who fired a collective at this package: nobody (this package's router only combines it), a trigger entry, a solver unit, or a checkpoint vote of a partition (0 cut, 1 copied, 2 restore). -/
inductive CollUser where
  | transit
  | trig (t : Nat)
  | svu (j : Nat)
  | ckp (p vote : Nat)
  deriving DecidableEq, Repr

/-- R295, R297: what a router has of one chunk: the members heard, those of them whose values it combines, the carried values of its inputs, and whether it has been sent on. -/
structure CollChunk where
  ix : Nat
  cnt : Nat
  comb : Nat
  vals : List (List (Nat × Nat))
  sent : Bool
  deriving DecidableEq, Repr

/-- R291-R304: a collective at this package: its group, sequence number and root; who fired it, its context and entry words, its contribution when that is not in memory; its engine, queue place and deadline; its digest, the members the router waits for, its chunks, its slots and whether it passes uncombined, the ports it heard, the results that have come, its failure here, and whether it has ended here. -/
structure Coll where
  id : Nat
  group : Nat
  seq : Nat
  root : Nat
  user : CollUser
  ctx : Nat
  ws : List Word
  src : List Byte
  eng : Nat
  queued : Bool
  fired : Bool
  dl : Nat
  kind : Nat
  ddig : Nat
  need : Nat
  n : Nat
  claimed : Bool
  slots : Nat
  pass : Bool
  part : Bool
  ins : List Nat
  chunks : List CollChunk
  res : List (Nat × List (Nat × Nat))
  fail : Option (Nat × Nat)
  up : Bool
  done : Bool
  deriving DecidableEq, Repr

/-- R346: a drain under way: its module slot, the cut with its step and causes, the sequence lengths, the buddies, the stage (0 invalidating, 1 data, 2 manifest copies), the lines of the stage sent and those outstanding, and whether a mirror has failed. -/
structure Drain where
  slot : Nat
  cut : Nat
  step : Nat
  cause : Nat
  stage : Nat
  sent : Nat
  out : Nat
  lost : Bool
  deriving DecidableEq, Repr

/-- R349: a restore under way: its source, whether it re-shards, the cut and step it restores, its failure, whether it is the second try (R351), whether it waits for RVOTE (R353), its stage (0 manifests, 1 shards), the lines sent and outstanding, and whether its local part has ended. -/
structure Restore where
  source : Nat
  reshard : Bool
  want : Nat
  slot : Nat
  cut : Nat
  step : Nat
  fail : Option (Nat × Nat)
  second : Bool
  auto : Bool
  stage : Nat
  sent : Nat
  out : Nat
  local_ : Bool
  deriving DecidableEq, Repr

/-- R338-R354: the checkpoint sequencer of a partition: boundaries waiting, the cut under way with its causes and its copy's failure, the drain, and the restore. -/
structure Ckp where
  bounds : Nat
  cut : Nat
  cause : Nat
  copyErr : Option (Nat × Nat)
  drain : Option Drain
  rest : Option Restore
  deriving DecidableEq, Repr

/-- An idle checkpoint sequencer. -/
def ckp0 : Ckp := ⟨0, 0, 0, none, none, none⟩

/-- R403-R406: a drain module: its serial, its rated and written bytes, whether it reports itself read-only, whether a T9 has written it, its Percentage Used, whether its capsule verifies, and the bytes its blocks hold, encrypted or not (an unlisted block holds zeros, log 15). -/
structure Module where
  serial : Nat
  rated : Nat
  written : Nat
  ro : Bool
  touched : Bool
  pct : Nat
  genuine : Bool
  blocks : Sparse (List Byte)
  deriving DecidableEq, Repr

/-- R403, R409: a bay: its module, whether the module is in use, and whether it was ejected. -/
structure Bay where
  mod : Option Module
  ready : Bool
  deriving DecidableEq, Repr

/-- R409: an empty bay. -/
def bay0 : Bay := ⟨none, false⟩

/-- R407: a transfer between a partition's cache area and its HBM. -/
structure DrnXfer where
  fill : Bool
  addr : Nat
  off : Nat
  blocks : Nat
  deriving DecidableEq, Repr

/-- What has come back for an engine that is not a core: a line of a solver unit's halo or of a mirror restore (R203, R354), by its unit and fabric address. -/
structure Mail where
  kind : Nat
  id : Nat
  va : Nat
  res : GotLine
  deriving DecidableEq, Repr

/-- R325: a cached translation: context, 2 MiB page number, the leaf entry, and whether it maps 1 GiB. -/
structure TlbEntry where
  ctx : Nat
  vpn : Nat
  leaf : Word
  big : Bool
  deriving DecidableEq, Repr

/-- R184-R191: a SOLVE: the thread, take-up and context that issued it, its counter, and the 32 words of its expert descriptor (a basic one with its defaults). -/
structure Solve where
  key : Nat
  gen : Nat
  ctx : Nat
  cnt : Nat
  ws : List Word
  deriving DecidableEq, Repr

/-- R188, R189: a matrix as it was read at the start: its header; its rows of (column, binary64 code), padding left out; rows, halo entries, stored entries and block size; the addresses (FP64, FP32) of each halo entry and of each neighbour's exchange vectors. -/
structure Mat where
  hdr : List Byte
  rows : List (List (Nat × Nat))
  nrows : Nat
  nhalo : Nat
  nnz : Nat
  bs : Nat
  halo : List (Nat × Nat)
  nbrs : List (Nat × Nat)
  deriving DecidableEq, Repr

/-- R195, R199, R200: a preconditioner in use: none (0), Jacobi (1) or incomplete LU (2); its pivots, and the entries below and above them of each row (column, binary32 code). -/
structure Pre where
  kind : Nat
  piv : List Nat
  lo : List (List (Nat × Nat))
  up : List (List (Nat × Nat))
  deriving DecidableEq, Repr

/-- No preconditioner. -/
def pre0 : Pre := ⟨0, [], [], []⟩

/-- R193, R197: an inner solve. `phase` counts its reductions within an iteration; vectors hold binary32 codes: the correction d, the residual r, the direction p and that preconditioned, a product q, BiCGSTAB's s and that preconditioned (CG: z), its second product t, and its shadow residual; scalars are binary64 codes. For GMRES: the basis, the basis preconditioned, the rotated columns of the Hessenberg, the rotations, and the rotated right-hand side. -/
structure Inner where
  phase : Nat
  d : List Nat
  r : List Nat
  p : List Nat
  ph : List Nat
  q : List Nat
  s : List Nat
  sh : List Nat
  t : List Nat
  rh : List Nat
  rho : Nat
  alpha : Nat
  omega : Nat
  brk : Bool
  basis : List (List Nat)
  zs : List (List Nat)
  cols : List (List Nat)
  rots : List (Nat × Nat)
  g : List Nat
  deriving DecidableEq, Repr

/-- No inner solve. -/
def inner0 : Inner := ⟨0, [], [], [], [], [], [], [], [], [], 0, 0, 0, false, [], [], [], [], []⟩

/-- R209: what a solve leaves in its output slot: nothing, unpredictable contents, the iterate, zeros, or the fallback. -/
inductive SolOut where
  | keep
  | undef
  | iterate
  | zeros
  | fallback
  deriving DecidableEq, Repr

/-- R195-R213: the active solve of a solver unit. `stage` is 1 in the warm start, 2 in setup, 3 for an outer residual, 4 for an inner iteration, 6 while it finishes. Its start and setup times; steps, inner iterations in total and in this inner solve, restarts; counts of R199 and R200; group FLAGS; boundaries passed; the vote it waits with (FMAP and slots), the wait's number, start and watchdog, and the unit that fired the group's reduction; the reduction's status, subcode and slots; a fault of this rank; its matrix and preconditioner; the iterate and its residual (binary64 codes); the inner solve; the norms (binary64 codes) of b, A, r (2 and infinity), x and the r of the step before; whether b is zero; RESID; whether the residual after a deadline is under way; how it ends (status, subcode, CLASS and output); and its timer. -/
structure Run where
  sol : Solve
  stage : Nat
  start : Nat
  factNs : Nat
  k : Nat
  iters : Nat
  inIts : Nat
  restarts : Nat
  reg : Nat
  clamp : Nat
  flags : Nat
  rounds : Nat
  vote : Option (Nat × List Nat)
  vid : Nat
  since : Nat
  dl : Nat
  lead : Option Nat
  got : Option (Nat × Nat × List Nat)
  bad : Option (Nat × Nat)
  mat : Option Mat
  pre : Pre
  x : List Nat
  res : List Nat
  inn : Inner
  bn : Nat
  an : Nat
  rn : Nat
  ri : Nat
  xi : Nat
  prev : Nat
  bzero : Bool
  resid : Option Nat
  final : Bool
  fin : Option (Nat × Nat × Nat × SolOut)
  timer : Option Nat
  deriving DecidableEq, Repr

/-- R183, R184: a solver unit: its active solve and its queue. -/
structure Svu where
  act : Option Run
  queue : List Solve
  deriving DecidableEq, Repr

/-- An idle solver unit. -/
def svu0 : Svu := ⟨none, []⟩

/-- R191, R195, R200: a valid factor: its context and address, the matrix header and PRECOND it was made for, the fill of its area, which lasts while nothing else writes there, its contents, and the pivots it replaced. -/
structure Factor where
  ctx : Nat
  va : Nat
  hdr : List Byte
  pre : Nat
  fill : Nat
  fac : Pre
  reg : Nat
  deriving DecidableEq, Repr

/-- R317-R323: a descriptor a ring has taken: its place in the ring, context and 64 bytes; whether it has started and in which order; for a LAUNCH the threads that wait for their cores and those that run, the threads ended and abandoned, x1 of the lowest thread that ended, the fault of the first thread abandoned, and its watchdog. -/
structure DescSt where
  ix : Nat
  ctx : Nat
  bytes : List Byte
  started : Bool
  order : Nat
  waiting : List Nat
  live : List Nat
  ended : Nat
  aband : Nat
  best : Option (Nat × Word)
  fault : Option (Nat × Nat)
  wdogAt : Option Nat
  deriving DecidableEq, Repr

/-- R317-R320: a submission ring and its completion ring: the four counts, index-line reads under way, descriptors taken and still to arrive, those that have arrived and not completed, and whether a ring error stopped it. -/
structure RingSt where
  sqPi : Nat
  sqCi : Nat
  cqPi : Nat
  cqCi : Nat
  reads : Nat
  toCome : Nat
  descs : List DescSt
  stopped : Bool
  deriving DecidableEq, Repr

/-- An unused ring. -/
def ring0 : RingSt := ⟨0, 0, 0, 0, 0, 0, [], false⟩

/-- R323, R331: a completion record for a ring, held while the host is lost. -/
structure HostRec where
  ring : Nat
  tag : Nat
  status : Nat
  sub : Nat
  ctx : Nat
  ended : Nat
  aband : Nat
  val : Nat
  deriving DecidableEq, Repr

/-- R327: a fault waiting to be written as a fault record: the thread's key and take-up number, status and subcode. -/
structure FaultRec where
  key : Nat
  gen : Nat
  launch : Option (Nat × Nat)
  status : Nat
  sub : Nat
  deriving DecidableEq, Repr

/-- R330: a trace record in the trace path. -/
structure TraceRec where
  part : Nat
  ctx : Nat
  ltc : Word
  id : Nat
  core : Nat
  lane : Nat
  value : Word
  deriving DecidableEq, Repr

/-- R232, R243, R244: lines on their way between a requester and the memory-side die that serves them: the first line and how many (none for a message or a register access), the half they come from and the half that serves them (2: the fabric die or beyond it), owner, class, what they count as in MEM_ARCH_MIX, the data bytes, whether they write, and whether they may be allocated in the LLM (R230). -/
structure Xact where
  line : Option Nat
  n : Nat
  src : Nat
  home : Nat
  owner : Nat
  cls : Nat
  cat : Nat
  bytes : Nat
  write : Bool
  alloc : Bool
  deriving DecidableEq, Repr

/-- R232: a regulator: the tokens of its floor and ceiling buckets for reads and writes, in 1/128 line, and the accesses that wait. -/
structure Rgl where
  rf : Nat
  rc : Nat
  wf : Nat
  wc : Nat
  rq : List Xact
  wq : List Xact
  deriving DecidableEq, Repr

/-- R232: a regulator with empty buckets (DESIGN CHOICE, log 30). -/
def rgl0 : Rgl := ⟨0, 0, 0, 0, [], []⟩

/-- R365, R367: a chain extension: the entry's half and number, its kind, context and partition, the first 16 bytes of its record, and its digest once hashed. -/
structure MeasExt where
  h : Nat
  i : Nat
  kind : Nat
  ctx : Nat
  part : Nat
  head : List Byte
  dig : Option (BitVec 512)
  deriving DecidableEq, Repr

/-- R360, R370: the session's keys: for the Palale Link to the host, for the one from it, and for unwrapping slot keys. -/
structure SessionKeys where
  d2h : BitVec 256
  h2d : BitVec 256
  wrap : BitVec 256
  deriving DecidableEq, Repr

/-- R379: a scrub: its partition, when it began, and what the partition held in each half (MEM_PART_CFG). -/
structure Scrub where
  part : Nat
  start : Nat
  west : Word
  east : Word
  deriving DecidableEq, Repr

/-- The package. Every field is named in INVENTORY.md, '## State'. -/
structure State where
  /-- The commands waiting, first in first out. -/
  pending : List Instr
  /-- R30: the local time counter. -/
  ltc : Word
  /-- R30: the place in the 1, 1, 1, 2 pattern of a 6.4 GHz ROOT. -/
  ltcPhase : Nat
  /-- R24: register space by physical address; an unlisted register holds its reset value. -/
  regs : Sparse Word
  /-- log 6: what has been counted toward the next step of a counter that counts a quotient, by register address times 64 plus the field's lowest bit. -/
  frac : Sparse Nat
  /-- R21: memory by physical address: HBM, LLM scratch, local stores and cluster memories. -/
  mem : List Host.Cell
  /-- R49, R221: ranges of memory whose contents the spec leaves undefined: first address, end, and the free fill that reads there; a write carves its bytes out. -/
  undef : List (Nat × Nat × Nat)
  /-- R216, R384: the 64-byte lines marked poisoned, by line number. -/
  poison : List Nat
  /-- R216: lines of HBM whose cells hold a symbol error not yet read: 1 or 2 symbols. -/
  symErr : Sparse Nat
  /-- R59: the hardware threads: N-core k at key k, S-core c thread t at key 128 + 8c + t. -/
  threads : Sparse Thread
  /-- R35: the stations of the N-cores. -/
  ncores : Sparse NCore
  /-- R38: the copy engines: 9 per half. -/
  cpes : Sparse Cpe
  /-- R44: lines copied or fetched and not yet visible, by copy engine: owner key, take-up number, counter. -/
  landing : List (Nat × Nat × Nat × Nat)
  /-- R49-R51: saved images. -/
  images : List Image
  /-- R327: faults waiting for the fault ring. -/
  faultQ : List FaultRec
  /-- R330: records in the trace path, oldest first. -/
  traceQ : List TraceRec
  /-- R325: cached translation entries. -/
  tlb : List TlbEntry
  /-- R325: an invalidation under way: its context and, unless whole, its page. -/
  tlbInv : Option (Nat × Option Nat)
  /-- R365: entries being hashed, in GO order: half and index. -/
  hashing : List (Nat × Nat)
  /-- R425: HBM accesses are held while ROOT slews and the PHYs relock. -/
  hbmHeld : Bool
  /-- R234: corrected errors of rows since they were last mapped, oldest first: row identity and count. -/
  rowCe : List (Nat × Nat)
  /-- R235: rows whose lines are being copied to a spare. -/
  rowHeld : List Nat
  /-- R238: spare rows used, by half*192+channel. -/
  sparesUsed : Sparse Nat
  /-- R394: the MRAM is write-protected until power returns. -/
  mramLocked : Bool
  /-- R388: the black-box MRAM by byte offset. -/
  mram : List Host.Cell
  /-- R388: ring records written since manufacture. -/
  ringCount : Nat
  /-- R398: when a CONFLICT record was last written, by kind times 65536 plus index; the LTC plus one. -/
  confAt : Sparse Nat
  /-- R316: lines of device memory the host holds: 1 clean, 2 dirty. -/
  hostLines : Sparse Nat
  /-- R180: S-cores whose long-vector unit is waking, each with the LTC at which the wake began. -/
  lvuWaking : List (Nat × Nat)
  /-- R180, R181: by S-core, the LTC at which the unit powers down; none while its timer is not running. An S-core that has retired no long-vector instruction holds 32 us. -/
  lvuIdle : Sparse (Option Nat)
  /-- R170: the sums that dot-product accumulator images stand for; none: no defined sum. -/
  dots : List (BitVec 4096 × Option AccEl)
  /-- R255, R274: the next sequence number of each engine. -/
  seqs : Sparse Nat
  /-- R275: requests sent and not yet ended, oldest first. -/
  reqs : List OutReq
  /-- R265: RGET, RPUT and RPUTF under way, in issue order. -/
  xfers : List Xfer
  /-- MODEL'S OWN: the number of the next transfer or tile. -/
  nextId : Nat
  /-- R264: tiles whose lines FABRIC.get is reading, in walk order. -/
  getTiles : List GetTile
  /-- R264: tiles that FABRIC.put has sent and that are not yet acknowledged. -/
  putTiles : List PutTile
  /-- R177: the remote gather of each thread. -/
  gathers : Sparse (Option Gather)
  /-- R263: packets of local engines waiting at the router, oldest first. -/
  routerIn : List Pkt
  /-- R266: the output queue of each Scauth port. -/
  outq : Sparse (List Pkt)
  /-- R259: packets that the router has delivered to this package. -/
  rxq : List Pkt
  /-- R266-R268: combining slots held. -/
  slots : List CombSlot
  /-- R274: the reply cache, oldest first. -/
  rcache : List RcEntry
  /-- R261: WRITEFs held, each with the sequence numbers of the earlier writes it waits for. -/
  heldFlags : List (Pkt × List Nat)
  /-- R261: the tags (source, engine, sequence number) of writes applied here, those no longer near their engine's latest left out. -/
  applied : List (Nat × Nat × Nat)
  /-- R257: writes to word 1 of a window entry, held until word 0 is written. -/
  winHeld : Sparse (Option Word)
  /-- MODEL'S OWN: what has left the package on its ports, oldest first. -/
  tx : List Tx
  /-- R425: the LTC at which the HBM pause began. -/
  hbmHeldAt : Nat
  /-- R203, R354: lines that have come back for solver units and mirror restores. -/
  mail : List Mail
  /-- R291-R304: collectives at this package, in firing order. -/
  colls : List Coll
  /-- R299: the match buffer: flits and chunks with the port each came from. -/
  matchBuf : List (Nat × Flit)
  /-- R304: collectives that failed here, for members that fire later: group, low 16 bits of SEQ, status and subcode. -/
  collEnds : List (Nat × Nat × Nat × Nat)
  /-- R372: the unwrapped key of each key slot. -/
  slotKeys : Sparse Nat
  /-- R338-R354: the checkpoint sequencers of the partitions. -/
  ckps : Sparse Ckp
  /-- R401: the two drain-module bays. -/
  bays : Sparse Bay
  /-- R407: the transfer of each partition. -/
  drnX : Sparse (Option DrnXfer)
  /-- R317: the submission rings. -/
  rings : Sparse RingSt
  /-- R331: records held while the host is lost, oldest first. -/
  heldRecs : List HostRec
  /-- R331: both Palale Link ports were declared down, and DSP_CFG.ENABLE has not been rewritten since they returned. -/
  hostLost : Bool
  /-- R370: the keys of the session. -/
  session : Option SessionKeys
  /-- R183: the 24 solver units, half*12 + number. -/
  svus : Sparse Svu
  /-- R195, R200: factor areas that hold a valid factor. -/
  factors : List Factor
  /-- R276: the LTC at which each Scauth port last had a valid control block. -/
  portSeen : Sparse Nat
  /-- R253, R270: ports for which a write of ACTIVE waits until they may enter it. -/
  portWant : List Nat
  /-- R276: ports declared down that have not trained since. -/
  portFell : List Nat
  /-- R278: ports that hold electrical idle since a LEAVING, until their partner trains again. -/
  portIdle : List Nat
  /-- R277: coordinates lost beyond the 64 entries of SCF_LOST, while OVER is in force. -/
  lostMore : List Nat
  /-- R419: ALIVE: 0 held low, 1 toggling, 2 stopped at its last level. -/
  alive : Nat
  /-- R419, R430: FAULT_N is asserted (held low while the always-on domain is unpowered). -/
  faultN : Bool
  /-- R229: way splits under way, half*8+partition: the cache and scratch ways to come, and of them those that were free and those that change kind, while they do not serve. -/
  llmPend : Sparse (Option (Nat × Nat × Nat × Nat))
  /-- R232: the regulators, half*9+partition; 8 holds what passes none. -/
  rgl : Sparse Rgl
  /-- R232: round-robin turns, (half*2+write)*2+class: the partition served last, plus 1. -/
  rglTurn : Sparse Nat
  /-- R244, R246: transfers that wait at an arch-link end, ((half*2+inbound)*4+class)*9+owner. -/
  arch : Sparse (List Xact)
  /-- R245: round-robin turns, (half*2+inbound)*4+class: the owner served last, plus 1. -/
  archTurn : Sparse Nat
  /-- R245: requests sent since the last bulk transfer, half*2+inbound. -/
  archRun : Sparse Nat
  /-- R243: bytes an arch-link end may still send of its rate, half*2+inbound. -/
  archCred : Sparse Nat
  /-- R226, R230: the LLM's cache ways, ((half*786432)+slice and set)*16+way: the line held and whether it is dirty. -/
  llm : Sparse (Option (Nat × Bool))
  /-- R247: lines that the S-core L1 and S-cluster caches of a half may hold: half and line. -/
  scLines : List (Nat × Nat)
  /-- R247: invalidations of the other half's copies not yet acknowledged: the writer's key, the line and the half that held it. -/
  invs : List (Nat × Nat × Nat)
  /-- R225: lines that each channel has carried for an owner in the window, (half*9+owner)*192+channel. -/
  chanLines : Sparse Nat
  /-- R225: the LTC at which an owner's window began, half*9+owner. -/
  hotAt : Sparse Nat
  /-- R217: the patrol of a half: the LTC at which its period began, and the lines read in it. -/
  patrol : Sparse (Nat × Nat)
  /-- R387: the LTC at which the summary period began. -/
  ceAt : Nat
  /-- R387: the corrected counts at the last summary. -/
  ceBase : List Nat
  /-- R341: the LTC at which the watch window began. -/
  watchAt : Nat
  /-- R341: the watched counts at the start of the window. -/
  watchBase : List Nat
  /-- R395: the block offset that a private write over I3C set. -/
  i3cOff : Nat
  /-- R395, R434: the boot sequencer has done with the management bus since the last start-up began. -/
  imgRead : Bool
  /-- R368: the private key drawn for the latest report. -/
  eph : Option (BitVec 256)
  /-- R369: the latest report. -/
  report : List Byte
  /-- R370, R371: the keys of an ADMIT whose KEYSWITCH has not been sent. -/
  admitting : Option SessionKeys
  /-- R360: the attestation key of this boot. -/
  attest : Nat
  /-- R362: the digest of the image booted. -/
  imgDigest : BitVec 512
  /-- R435: a debug instruction was used since power-on. -/
  debugUsed : Bool
  /-- R367: chain extensions in the order their GO was written. -/
  chainQ : List MeasExt
  /-- R379: scrubs that run. -/
  scrubs : List Scrub
  /-- R364: the security version that will be fused after start-up. -/
  svnTo : Option Nat
  /-- R405: the LTC of the last poll of the ledgers. -/
  ledgerAt : Nat
  /-- R430, R431: PWRGOOD, past its filter. -/
  pwrgood : Bool
  /-- R28, R30: the reference is present. -/
  refOk : Bool
  /-- R417: the package is in standby. -/
  standby : Bool
  /-- R415: the LTC from which the times of the start-up stages count. -/
  startAt : Nat
  /-- R426: the LTC at which the start-up began. -/
  beganAt : Nat
  /-- R363, R416: no image slot is valid; the device stays at stage 4. -/
  noImage : Bool
  /-- R434: attempts to read the image that lost arbitration. -/
  i3cTries : Nat
  /-- R434: the LTC at which the image read is retried. -/
  i3cWait : Option Nat
  /-- R422: the latest samples of input power in W, newest first, at most 100. -/
  powHist : List Nat
  /-- R422: the LTC at which DUTY last rose. -/
  dutyAt : Nat
  /-- R425: the power regime that a change into or out of FRUGAL goes to. -/
  regimeTo : Option Nat
  /-- R390, R425: the regime word before the change under way. -/
  regimeOld : Nat
  /-- R435: the instruction of the test access port. -/
  tapIr : TapIns
  /-- MODEL'S OWN: the number of free values drawn so far (log 5). -/
  free : Nat
  deriving DecidableEq, Repr

/-- Why a step stops with a fault. No meaning of this model raises one: every row of the table is an operation or an event of the package and has an effect in every state (log 1). -/
inductive Fault where
  /-- Raised by no meaning; kept so that the type is not empty. Safe. -/
  | unused
  deriving DecidableEq, Repr

/-- Why a step gives no meaning. -/
inductive Refusal where
  /-- Raised by `exec` for a row that has no meaning yet, by its mnemonic. Safe: nothing is claimed of it. -/
  | notModelled (mnemonic : String)
  deriving DecidableEq, Repr

/-- The three outcomes over this machine. -/
abbrev Out := Host.Outcome State Fault Refusal

/-- R415, R418: the package at power-on reset: every register at its reset value, every memory zero, nothing running (log 2). -/
def State.reset : State :=
  { pending := [], ltc := 0, ltcPhase := 0, regs := [], frac := [], mem := [], undef := [], poison := [], symErr := [],
    threads := [], ncores := [], cpes := [], landing := [], images := [], faultQ := [], traceQ := [],
    tlb := [], tlbInv := none, hashing := [], hbmHeld := false, rowCe := [], rowHeld := [], sparesUsed := [],
    mramLocked := false, mram := [], ringCount := 0, confAt := [], hostLines := [], lvuWaking := [], lvuIdle := [], dots := [], seqs := [], reqs := [], xfers := [], nextId := 0, getTiles := [], putTiles := [], gathers := [], routerIn := [], outq := [], rxq := [], slots := [], rcache := [], heldFlags := [], applied := [], winHeld := [], tx := [], hbmHeldAt := 0, mail := [], colls := [], matchBuf := [], collEnds := [], slotKeys := [], ckps := [], bays := [], drnX := [], rings := [], heldRecs := [], hostLost := false, session := none, svus := [], factors := [], portSeen := [], portWant := [], portFell := [], portIdle := [], lostMore := [], alive := 0, faultN := true, llmPend := [], rgl := [], rglTurn := [], arch := [], archTurn := [], archRun := [], archCred := [], llm := [], scLines := [], invs := [], chanLines := [], hotAt := [], patrol := [], ceAt := 0, ceBase := [], watchAt := 0, watchBase := [], i3cOff := 0, imgRead := false, eph := none, report := [], admitting := none, attest := 0, imgDigest := 0, debugUsed := false, chainQ := [], scrubs := [], svnTo := none, ledgerAt := 0, pwrgood := false, refOk := true, standby := false, startAt := 0, beganAt := 0, noImage := false, i3cTries := 0, i3cWait := none, powHist := [], dutyAt := 0, regimeTo := none, regimeOld := 0, tapIr := .bypass, free := 0 }

end Sys2Proof.Machine
end

