-- ==== Sys2Proof/Machine/Ops.lean ====
section
/-! DEFINITION. Named operations over the state shared by every family: registers, threads, free values, counters, the black box (R388-R393), log rings (R329), CONFLICT reports (R398) and arrival counters (R44, R50). -/

namespace Sys2Proof.Machine

/-- Read a register of register space as stored. -/
def rd (s : State) (a : Nat) : Word := sget (regReset a) s.regs a

/-- Write a register of register space as stored. -/
def wr (s : State) (a : Nat) (v : Word) : State := { s with regs := sset (regReset a) s.regs a v }

/-- Read a field of a register. -/
def rdf (s : State) (a lo n : Nat) : Nat := fld (rd s a) lo n

/-- Write a field of a register. -/
def wrf (s : State) (a lo n v : Nat) : State := wr s a (putf (rd s a) lo n v)

/-- Add to a saturating field. -/
def addSat (s : State) (a lo n k : Nat) : State := wr s a (satAdd (rd s a) lo n k)

/-- Add to a field that counts a quotient by `dv` and wraps, keeping the remainder (log 6). -/
def addDiv (s : State) (a lo n dv k : Nat) : State :=
  let key := a * 64 + lo
  let tot := sget 0 s.frac key + k
  { wr s a (wrapAdd (rd s a) lo n (tot / dv)) with frac := sset 0 s.frac key (tot % dv) }

/-- R8: a store to a register: read-write bits take the value, write-one-to-clear bits clear where it is one, and every other bit keeps what it holds. -/
def regPut (s : State) (a : Nat) (v : Word) : State :=
  match regRow a with
  | none => s
  | some r =>
    let rw := BitVec.ofNat 64 r.rw
    let wc := BitVec.ofNat 64 r.w1c
    let old := rd s a
    wr s a ((old &&& ~~~(rw ||| wc)) ||| (v &&& rw) ||| (old &&& wc &&& ~~~v))

/-- R2, R20: enabled N-cores per accelerator die. -/
def nCores (s : State) : Nat := rdf s R.PKG_LAYOUT 0 8

/-- R421: CONFIDENTIAL is in force. -/
def confidential (s : State) : Bool := bitw (rd s R.PWR_REGIME) 10
/-- R421: PRECISION is in force. -/
def precision (s : State) : Bool := bitw (rd s R.PWR_REGIME) 8
/-- R421: LATENCY is in force. -/
def latencyReg (s : State) : Bool := bitw (rd s R.PWR_REGIME) 9

/-- R415, R426: PWR_STAT.STATE. -/
def pwrState (s : State) : Nat := rdf s R.PWR_STAT 0 4

/-- R386, R416, R417: cores issue and stations work: the package is running or changing regime. -/
def issuing (s : State) : Bool := pwrState s == 2 || pwrState s == 3

/-- The key of a hardware thread. -/
def tkey : Tid → Nat
  | .n c => c.val
  | .s c t => 128 + 8 * c.val + t.val

/-- R58: the thread is of profile S. -/
def isS (key : Nat) : Bool := 128 ≤ key

/-- R19: the package core number of a thread. -/
def coreOf (key : Nat) : Nat := if isS key then (key - 128) / 8 else key

/-- R65: the hardware thread within the core. -/
def lane (key : Nat) : Nat := if isS key then (key - 128) % 8 else 0

/-- R2, R3, R18: the unit exists at this grade. -/
def exists_ (s : State) (key : Nat) : Bool := if isS key then key < 128 + 1536 else key < 2 * nCores s

/-- R19: the half a thread's core lies in. -/
def halfOf (s : State) (key : Nat) : Nat :=
  if isS key then coreOf key / 96 else if key < nCores s then 0 else 1

/-- R19: the core's number within its die. -/
def dieCore (s : State) (key : Nat) : Nat :=
  if isS key then coreOf key % 96 else if key < nCores s then key else key - nCores s

/-- The state of one hardware thread. -/
def th (s : State) (key : Nat) : Thread := sget thread0 s.threads key

/-- Replace the state of one hardware thread. -/
def setTh (s : State) (key : Nat) (t : Thread) : State := { s with threads := sset thread0 s.threads key t }

/-- The stations of one N-core. -/
def nc (s : State) (core : Nat) : NCore := sget ncore0 s.ncores core

/-- Replace the stations of one N-core. -/
def setNc (s : State) (core : Nat) (n : NCore) : State := { s with ncores := sset ncore0 s.ncores core n }

/-- The next free value, of width `w` (log 5). -/
def drawBits (w : Nat) (s : State) : BitVec w × State := (Config.freeBits w s.free, { s with free := s.free + 1 })

/-- The next free number (log 5). -/
def drawNat (s : State) : Nat × State := (Config.freeNat s.free, { s with free := s.free + 1 })

/-- R81: add to a per-context numeric counter, which saturates at 2^64 - 1. -/
def numAdd (s : State) (a k : Nat) : State := if k = 0 then s else addSat s a 0 64 k

/-- R81: add the counts of one operation to its context's counters. -/
def countNum (s : State) (ctx : Nat) (c : Cnt) : State :=
  numAdd (numAdd (numAdd s (R.DSP_CTX_NUM_SAT ctx) c.sat) (R.DSP_CTX_NUM_FLUSH ctx) c.flush) (R.DSP_CTX_NUM_NAN ctx) c.nan

/-- R102: take a random stream's COUNTER and advance it: the key and the counter value taken. -/
def takeRng (s : State) (ctx k : Nat) : (Word × Word) × State :=
  let key := rd s (R.DSP_CTX_RNG_KEY ctx k)
  let c := rd s (R.DSP_CTX_RNG_CTR ctx k)
  ((key, c), wr s (R.DSP_CTX_RNG_CTR ctx k) (c + 1))

/-- R100: the fields of a numeric output control. -/
structure NumCtl where
  stoch : Bool
  stream : Nat
  nosat : Bool
  deriving DecidableEq, Repr

/-- R100: read a numeric output control; none for a reserved RM. -/
def numCtl (w : Nat) : Option NumCtl :=
  if nfld w 0 2 < 2 then some ⟨nfld w 0 2 == 1, nfld w 2 3, nfld w 5 1 == 1⟩ else none

/-- R100: the numeric output control of a basic form. -/
def numCtl0 : NumCtl := ⟨false, 0, false⟩

/-- R101, R102: the rounding of element `i`, from the counter value taken for the tile or instruction. -/
def modeFor (nctl : NumCtl) (kc : Word × Word) (i : Nat) : RMode :=
  if nctl.stoch then .stoch (Config.drawF kc.1 kc.2 i).toNat else .rne

/-- R101, R102: take the counter value that a stochastic rounding needs; nothing is taken otherwise. -/
def takeFor (nctl : NumCtl) (ctx : Nat) (s : State) : (Word × Word) × State :=
  if nctl.stoch then takeRng s ctx nctl.stream else ((0, 0), s)

/-- R44, R59: an arrival counter of a thread rises by `k`, modulo 2^32. -/
def ctrAdd (t : Thread) (c k : Nat) : Thread :=
  { t with c := smod 0 t.c (c % 32) (fun v => v + BitVec.ofNat 32 k) }

/-- R44, R50: an increment reaches its thread: applied while the thread holds the take-up that started the work, held with a saved image of it, and discarded after an ABANDON (R328). -/
def arrive (s : State) (key gen c : Nat) : State :=
  let t := th s key
  if t.gen = gen ∧ t.phase ≠ .idle then setTh s key (ctrAdd t c 1)
  else { s with images := s.images.map (fun im => if im.key = key ∧ im.th.gen = gen then { im with held := im.held ++ [c] } else im) }

/-- CRC-32C of R389, one bit. -/
def crcBit (poly c : Nat) : Nat := if c % 2 = 1 then (c / 2) ^^^ poly else c / 2

/-- CRC-32C of R389, one byte. -/
def crcByte (c : Nat) (b : Byte) : Nat :=
  let p := crcBit 0x82F63B78
  p (p (p (p (p (p (p (p (c ^^^ b.toNat))))))))

/-- R389: CRC-32C of a byte string. -/
def crc32c (bs : List Byte) : Nat := (bs.foldl crcByte 0xFFFFFFFF) ^^^ 0xFFFFFFFF

/-- Bytes cut or padded with zeros to a length. -/
def padTo (n : Nat) (bs : List Byte) : List Byte := (bs ++ List.replicate n 0).take n

/-- R389: the 64 bytes of a black-box record. -/
def bbxBytes (s : State) (ty src status sub : Nat) (payload : List Byte) : List Byte :=
  let b := leBytes 8 (rd s R.BBX_SEQ).toNat ++ leBytes 8 s.ltc.toNat ++ leBytes 8 (rd s R.SEC_BOOTCOUNT).toNat
    ++ leBytes 1 ty ++ leBytes 1 src ++ leBytes 1 status ++ leBytes 1 sub ++ leBytes 4 0 ++ padTo 28 payload
  b ++ leBytes 4 (crc32c b)

/-- R389: place a record in the MRAM and step SEQ. -/
def bbxPut (s : State) (off : Nat) (rcd : List Byte) : State :=
  { wr s R.BBX_SEQ (rd s R.BBX_SEQ + 1) with mram := ssetAll 0 s.mram off rcd }

/-- R388: a record for the rolling ring, which drops it and counts it while frozen (R393). -/
def bbxRing (s : State) (rcd : List Byte) : State :=
  if bitw (rd s R.BBX_STAT) 16 then addSat s R.BBX_STAT 32 32 1
  else
    let i := s.ringCount % 114688
    let s := { bbxPut s (0x100000 + 64 * i) rcd with ringCount := s.ringCount + 1 }
    wrf (wrf s R.BBX_RING 0 17 i) R.BBX_RING 32 17 (if s.ringCount ≤ 114688 then 0 else s.ringCount % 114688)

/-- R388-R392: write a black-box record; `perm` for a record of a permanent type. -/
def bbx (s : State) (perm : Bool) (ty src status sub : Nat) (payload : List Byte) : State :=
  if s.mramLocked then s
  else
    let rcd := bbxBytes s ty src status sub payload
    if perm && !bitw (rd s R.BBX_STAT) 15 then
      let n := rdf s R.BBX_STAT 0 15
      let s := wrf (bbxPut s (64 * n) rcd) R.BBX_STAT 0 15 (n + 1)
      if n + 1 = 16384 then wrf s R.BBX_STAT 15 1 1 else s
    else bbxRing s rcd

/-- R220: GiB of HBM mapped in a half (R22). -/
def halfGib (s : State) (h : Nat) : Nat := rdf s R.PKG_LAYOUT (32 + 10 * h) 10

/-- R240: an owner's range in a half, in GiB: base, size; none when not valid. -/
def ownerRange (s : State) (h p : Nat) : Option (Nat × Nat) :=
  let w := rd s (R.MEM_PART_CFG h p)
  if bitw w 63 then some (fld w 24 10, fld w 34 10) else none

/-- R220: the owner whose range holds an HBM offset of a half. -/
def ownerOf (s : State) (h off : Nat) : Option Nat :=
  (List.range 9).find? (fun p =>
    match ownerRange s h p with
    | some (b, z) => b * 2 ^ 30 ≤ off && off < (b + z) * 2 ^ 30
    | none => false)

/-- Cut [lo, hi) out of the undefined ranges. -/
def carve (u : List (Nat × Nat × Nat)) (lo hi : Nat) : List (Nat × Nat × Nat) :=
  u.flatMap (fun r =>
    if hi ≤ r.1 ∨ r.2.1 ≤ lo then [r]
    else (if r.1 < lo then [(r.1, lo, r.2.2)] else []) ++ (if hi < r.2.1 then [(hi, r.2.1, r.2.2)] else []))

/-- One byte of memory: a free byte where the contents are undefined; zero where nothing was written (R415). -/
def memByte (s : State) (a : Nat) : Byte :=
  match s.undef.find? (fun r => r.1 ≤ a && a < r.2.1) with
  | some r => Config.freeByte r.2.2 a
  | none => sget 0 s.mem a

/-- Bytes of memory at rising addresses. -/
def memGet (s : State) (a n : Nat) : List Byte := (List.range n).map (fun i => memByte s (a + i))

/-- Write bytes at rising addresses. -/
def memPut (s : State) (a : Nat) (bs : List Byte) : State :=
  { s with mem := ssetAll 0 s.mem a bs, undef := carve s.undef a (a + bs.length) }

/-- Clear [lo, hi) of memory to zero, with its poison. -/
def memClear (s : State) (lo hi : Nat) : State :=
  { s with mem := sclear s.mem lo hi, undef := carve s.undef lo hi,
           poison := s.poison.filter (fun l => l * 64 + 64 ≤ lo || hi ≤ l * 64) }

/-- The contents of [lo, hi) become undefined: free bytes of a fresh fill. -/
def memUndef (s : State) (lo hi : Nat) : State :=
  { s with mem := sclear s.mem lo hi, undef := (lo, hi, s.free) :: carve s.undef lo hi, free := s.free + 1,
           poison := s.poison.filter (fun l => l * 64 + 64 ≤ lo || hi ≤ l * 64) }

/-- R49: put saved bytes back where they lay. -/
def memRestore (s : State) (cs : List Host.Cell) : State := { s with mem := cs.foldl (fun m c => sset 0 m c.1 c.2) s.mem }

/-- R379: registers return to their reset values. -/
def regsReset (s : State) (f : Nat → Bool) : State := { s with regs := s.regs.filter (fun kv => !f kv.1) }

/-- R329: write a record to a partition's log ring: the body first and SEQ last. A record takes its SEQ even where the ring lies outside the partition's HBM, and then nothing is written (log 21). -/
def logRecAt (s : State) (ltc : Word) (part ty ctx : Nat) (detail payload : List Byte) : State :=
  let base := rdf s (R.DSP_LOG part) 24 24 * 2 ^ 24
  let h := base / 0x10000000000
  let seq := rd s (R.DSP_LOGPTR part)
  let s := wr s (R.DSP_LOGPTR part) (seq + 1)
  if h < 2 ∧ ownerOf s h (base % 0x10000000000) = some part ∧ ownerOf s h (base % 0x10000000000 + 2 ^ 24 - 1) = some part then
    let a := base + 64 * (seq.toNat % 262144)
    let body := leBytes 8 ltc.toNat ++ leBytes 1 ty ++ leBytes 1 0 ++ leBytes 2 ctx ++ padTo 12 detail ++ padTo 32 payload
    memPut (memPut s (a + 8) body) a (leBytes 8 seq.toNat)
  else s

/-- R329: a log record of an event at this moment. -/
def logRec (s : State) (part ty ctx : Nat) (detail payload : List Byte) : State := logRecAt s s.ltc part ty ctx detail payload

/-- R398: report a refusal with status CONFLICT: the count, the log record of the claimant's partition, and at most one black-box record per kind, index and second. `src` is the record's SOURCE; `reg` is the register record the refusal left. -/
def conflictFrom (s : State) (src kind index owner claimant : Nat) (part : Option Nat) (reg : Word) : State :=
  let s := addSat s R.BBX_STAT 24 8 1
  let s := match part with
    | some p => logRec s p 0x06 0xFFFF [] (leBytes 8 reg.toNat)
    | none => s
  let key := kind * 65536 + index
  let last := sget 0 s.confAt key
  if last ≠ 0 ∧ s.ltc.toNat < last - 1 + 1000000000 then s
  else
    let pay := leBytes 1 kind ++ leBytes 1 index ++ leBytes 1 owner ++ leBytes 1 claimant ++ leBytes 1 (part.getD 0xFF)
    bbx { s with confAt := sset 0 s.confAt key (s.ltc.toNat + 1) } false 0x0B src 0x30 0 pay

/-- R398: a refusal in a function of the fabric die. -/
def conflict (s : State) (kind index owner claimant : Nat) (part : Option Nat) (reg : Word) : State :=
  conflictFrom s 0 kind index owner claimant part reg

/-- R326: a context exists. -/
def ctxValid (s : State) (ctx : Nat) : Bool := ctx < 64 && bitw (rd s (R.DSP_CTXDEF ctx)) 63

/-- R326: a context's partition. -/
def partOf (s : State) (ctx : Nat) : Nat := rdf s (R.DSP_CTXDEF ctx) 0 3

/-- R327: a thread fault waits to be written as a fault record, and a log record of TYPE 0x05 goes to its partition, with the registers of the fault. -/
def reportFault (s : State) (key status sub : Nat) (regs : List Nat) : State :=
  let t := th s key
  let s := logRec s (partOf s t.ctx) 0x05 t.ctx [] (regs.flatMap (fun a => leBytes 8 (rd s a).toNat))
  { setTh s key { t with err := (status, sub) } with faultQ := s.faultQ ++ [⟨key, t.gen, t.launch, status, sub⟩] }

/-- The fault registers of an N-core (R53, R86). -/
def ncoFaultRegs (s : State) (core : Nat) : List Nat :=
  let h := halfOf s core
  let k := dieCore s core
  [R.NCO_FAULT h k, R.NCO_FAULT_TILE h k, R.NCO_FAULT_PC h k]

/-- R53, R86: write NCO_FAULT of a core, with the tile index and the address of the instruction. -/
def putNcoFault (s : State) (core st sd status sub tile : Nat) (pc : Option Word) : State :=
  let h := halfOf s core
  let k := dieCore s core
  let w := sd % 16 + (st % 16) <<< 4 + status <<< 8 + sub <<< 16 + (tile % 2 ^ 32) <<< 24 + 1 <<< 63
  let s := wr s (R.NCO_FAULT h k) (BitVec.ofNat 64 w)
  let s := wr s (R.NCO_FAULT_TILE h k) (BitVec.ofNat 64 (tile % 2 ^ 48))
  match pc with
  | some p => wr s (R.NCO_FAULT_PC h k) (BitVec.ofNat 64 (p.toNat / 8 * 8))
  | none => s

/-- R52: a fault in a stream or at a station stops the context of an N-core at a tile boundary; its image is then saved. -/
def streamFault (s : State) (core st sd status sub tile : Nat) : State :=
  let s := putNcoFault s core st sd status sub tile none
  let s := reportFault s core status sub (ncoFaultRegs s core)
  setTh s core { th s core with phase := .fault, saving := some s.ltc.toNat }

/-- R49, R327: a thread stops as at a preemption, to be resumed or abandoned; an N-core saves its image. -/
def stopTh (s : State) (key : Nat) : State :=
  setTh s key { th s key with phase := .fault, halt := false, saving := if isS key then none else some s.ltc.toNat }

/-- R84, R86: a precise instruction fault: the fault registers, the report, and the thread (on an N-core, the context) stops at the instruction; a long-vector fault sets the restart index (R174). -/
def insnFault (s : State) (key cls status sub elem : Nat) : State :=
  let t := th s key
  if isS key then
    let c := coreOf key
    let w := status + sub <<< 8 + (cls % 64) <<< 16 + (elem % 1024) <<< 22 + 1 <<< 63
    let s := wr s (R.SCO_TFAULT (c / 96) (c % 96) (lane key)) (BitVec.ofNat 64 w)
    let s := wr s (R.SCO_TFAULT_PC (c / 96) (c % 96) (lane key)) (BitVec.ofNat 64 (t.pc.toNat / 8 * 8))
    let s := reportFault s key status sub [R.SCO_TFAULT (c / 96) (c % 96) (lane key), R.SCO_TFAULT_PC (c / 96) (c % 96) (lane key)]
    setTh s key { th s key with phase := .fault, restart := if cls = 0x10 then elem else (th s key).restart }
  else
    let s := putNcoFault s key 0xF 0 status sub 0 (some t.pc)
    let s := reportFault s key status sub (ncoFaultRegs s key)
    setTh s key { th s key with phase := .fault, saving := some s.ltc.toNat }

end Sys2Proof.Machine
end

