-- ==== Sys2Proof/Machine/Mem.lean ====
section
/-! DEFINITION. Reaching memory: the physical address map (R21-R23), the owners and locks that guard it (R220, R228, R366, R375, R376), errors and poison (R216, R234-R237, R385), what the host holds (R316), and translation (R325). -/

namespace Sys2Proof.Machine

/-- R85, R385: why an access ends: untranslatable or out of range, denied, a write to text, a write to a measured range, poison, a bad register access, misaligned, a fetch. -/
inductive AccErr where
  | addr
  | perm
  | text
  | measured
  | poison
  | reg
  | align
  deriving DecidableEq, Repr

/-- What an access answers: a value, an error, or that it waits (a recalled line, held HBM, a row being copied). -/
inductive MemRes (α : Type) where
  | ok (v : α)
  | err (e : AccErr)
  | wait
  deriving DecidableEq, Repr

/-- Change the value of an answer. -/
def MemRes.map {α β : Type} (f : α → β) : MemRes α → MemRes β
  | .ok v => .ok (f v)
  | .err e => .err e
  | .wait => .wait

/-- R85: status and subcode of an instruction's access error. -/
def accCode : AccErr → Nat × Nat
  | .addr => (0x10, 0x16)
  | .perm => (0x11, 0x17)
  | .text => (0x11, 0x14)
  | .measured => (0x11, 0xA0)
  | .poison => (0x12, 0)
  | .reg => (0x10, 0x19)
  | .align => (0x10, 0x15)

/-- R25, R41: status and subcode of a stream's access error at a tile. -/
def tileCode : AccErr → Nat × Nat
  | .addr => (0x10, 0x04)
  | .reg => (0x10, 0x19)
  | .align => (0x10, 0x04)
  | .perm => (0x11, 0x05)
  | .text => (0x11, 0x05)
  | .measured => (0x11, 0xA0)
  | .poison => (0x12, 0)

/-- Who makes an access: a context, the device's own sequencers, the host, or a Scauth request served for a partition. -/
inductive Who where
  | ctx (c : Nat)
  | dev
  | host
  | net (part : Nat)
  deriving DecidableEq, Repr

/-- R21, R23: where a physical address lies: HBM of a half, LLM scratch, a local store, a cluster memory, register space, or nowhere. -/
inductive Region where
  | hbm (h off : Nat)
  | llm (h off : Nat)
  | store (h k off : Nat)
  | cluster (h j off : Nat)
  | reg
  | none
  deriving DecidableEq, Repr

/-- R21, R23, R24: the physical address map. -/
def region (a : Nat) : Region :=
  if a < 0x009000000000 then .hbm 0 a
  else if a < 0x010000000000 then .none
  else if a < 0x019000000000 then .hbm 1 (nsub a 0x010000000000)
  else if a < 0x020000000000 then .none
  else if a < 0x020040000000 then .llm 0 (nsub a 0x020000000000)
  else if a < 0x020080000000 then .llm 1 (nsub a 0x020040000000)
  else if a < 0x020090000000 then .store 0 ((nsub a 0x020080000000) / 0x200000) ((nsub a 0x020080000000) % 0x200000)
  else if a < 0x0200A0000000 then .store 1 ((nsub a 0x020090000000) / 0x200000) ((nsub a 0x020090000000) % 0x200000)
  else if a < 0x0200A8000000 then .cluster 0 ((nsub a 0x0200A0000000) / 0x800000) ((nsub a 0x0200A0000000) % 0x800000)
  else if a < 0x0200B0000000 then .cluster 1 ((nsub a 0x0200A8000000) / 0x800000) ((nsub a 0x0200A8000000) % 0x800000)
  else if a < 0x0F0000000000 then .none
  else if a < 0x0F01C0000000 then .reg
  else .none

/-- R19: the N-cluster of N-core `k` of a half's die, from the cluster counts. -/
def nClusterFrom (w : Word) (k : Nat) : Nat → Nat → Nat → Nat
  | 0, j, _ => j
  | fuel + 1, j, acc =>
    let acc' := acc + fld w (4 * j) 4
    if k < acc' then j else nClusterFrom w k fuel (j + 1) acc'

/-- R19: the N-cluster of N-core `k` of a half's die. -/
def nCluster (s : State) (h k : Nat) : Nat :=
  nClusterFrom (rd s (if h = 0 then R.PKG_NCL_W else R.PKG_NCL_E)) k 8 0 0

/-- R326: a core set word of a context. -/
def csetWord (s : State) (c k w : Nat) : Word := rd s (R.DSP_CSET c k w)

/-- R326: a core set names a core: N-cores in words 0-1, S-cores in words 2-4. -/
def csetHas (s : State) (c k : Nat) (isSc : Bool) (core : Nat) : Bool :=
  bitw (csetWord s c k ((if isSc then 2 else 0) + core / 64)) (core % 64)

/-- R376: the partition whose contexts' core sets name a core, if any; the lowest context decides. -/
def corePart (s : State) (isSc : Bool) (core : Nat) : Option Nat :=
  ((List.range 64).find? (fun c => bitw (rd s (R.DSP_CTXDEF c)) 63 && (List.range 4).any (fun k => csetHas s c k isSc core))).map (partOf s)

/-- R376: the partition that an N-cluster of a half belongs to. -/
def nClusterPart (s : State) (h j : Nat) : Option Nat :=
  ((List.range (nCores s)).filter (fun k => nCluster s h k == j)).findSome? (fun k => corePart s false (h * nCores s + k))

/-- The partition an access is made for. -/
def whoPart (s : State) : Who → Option Nat
  | .ctx c => some (partOf s c)
  | .net p => some p
  | _ => none

/-- R366: a physical range touches a measured range that refuses writes: locked, or being hashed. -/
def measuredHit (s : State) (a n : Nat) : Bool :=
  (List.range 2).any (fun h => (List.range 128).any (fun i =>
    let w0 := rd s (R.SEC_MEAS h i 0)
    let w1 := rd s (R.SEC_MEAS h i 1)
    (bitw w0 62 || s.hashing.contains (h, i)) &&
    (let b := fld w0 12 36 * 4096
     b < a + n && a < b + fld w1 0 32 * 4096)))

/-- R3, R375, R376: a partition may reach a unit's memory: always outside CONFIDENTIAL, and there unless another partition holds the cluster. -/
def clusterOk (s : State) (who : Who) (h j : Nat) : Bool :=
  match confidential s, whoPart s who, nClusterPart s h j with
  | true, some p, some q => q == p
  | _, _, _ => true

/-- R21-R23, R220, R228, R366, R375, R376: the checks of a physical access of `n` bytes that place, owner and lock make; none when it may proceed. -/
def ownErr (s : State) (who : Who) (a n : Nat) (write : Bool) : Option AccErr :=
  let base : Option AccErr :=
    match region a with
    | .none => some .addr
    | .reg => some .reg
    | .hbm h off =>
      if halfGib s h * 2 ^ 30 < off + n then some .addr
      else
        match ownerOf s h off, whoPart s who with
        | none, _ => some .addr
        | some _, none => none
        | some o, some p => if o = p then none else if o = 8 then (if confidential s then some .perm else none) else some .perm
    | .llm h off =>
      let w := off / 0x3000000
      if 16 ≤ w then some .addr
      else
        let o := rdf s (R.LLM_WAYMAP h) (4 * w) 4
        if o = 15 ∨ bitw (rd s (R.LLM_WAYKIND h)) w = false then some .addr
        else match whoPart s who with
          | some p => if o = p then none else some .perm
          | none => none
    | .store h k _ => if nCores s ≤ k then some .addr else if clusterOk s who h (nCluster s h k) then none else some .perm
    | .cluster h j _ => if 9 ≤ j then some .addr else if clusterOk s who h j then none else some .perm
  match base with
  | some e => some e
  | none => if write && measuredHit s a n then some .measured else none

/-- The 64-byte lines that an access of `n` bytes touches. -/
def linesOf (a n : Nat) : List Nat := (List.range ((a + n - 1) / 64 + 1 - a / 64)).map (fun i => a / 64 + i)

/-- R215, R220: the mapped channels of an owner's groups in a half. -/
def ownerChans (s : State) (h p : Nat) : List Nat :=
  (List.range 192).filter (fun c => bitw (rd s (R.MEM_PART_CFG h p)) (c / 8) && !bitw (rd s (R.MEM_CH_STAT h c)) 16)

/-- The image of a number below `n` under a permutation of the numbers below `n`. -/
def permAt {n : Nat} (e : Equiv.Perm (Fin n)) (j : Nat) : Nat := if h : j < n then (e ⟨j, h⟩).val else j

/-- R223: the channel and the channel-local byte offset of an HBM offset in a valid owner's range. -/
def placeOf (s : State) (h off : Nat) : Option (Nat × Nat) :=
  match ownerOf s h off with
  | none => none
  | some p =>
    let chans := ownerChans s h p
    let n := chans.length
    if n = 0 then none
    else
      let rel := off - rdf s (R.MEM_PART_CFG h p) 24 10 * 2 ^ 30
      let i := rel / 256
      some (nth chans (permAt (Config.interleave (rd s (R.MEM_PART_KEY h p)) (i / n) n) (i % n)), (i / n) * 256 + rel % 256)

/-- R215: the mapped channels of a half whose group no valid owner holds. -/
def bareChans (s : State) (h : Nat) : List Nat :=
  (List.range 192).filter (fun c => !bitw (rd s (R.MEM_CH_STAT h c)) 16 &&
    !(List.range 9).any (fun p => (ownerRange s h p).isSome && bitw (rd s (R.MEM_PART_CFG h p)) (c / 8)))

/-- R215, R223, R235: the channel and channel-local offset of a line of HBM; one in no owner's range lies in some channel of a free group (log 10). -/
def placeAt (s : State) (h off : Nat) : Nat × Nat :=
  match placeOf s h off with
  | some p => p
  | none =>
    let b := Config.bareLine ((h * 0x10000000000 + off) / 64)
    let cs := match bareChans s h with | [] => List.range 192 | l => l
    (nth cs (b.1 % cs.length), b.2 % 50331648 * 64)

/-- R215: a row's identity: half, channel, and the pseudo-channel, bank and row of R240 in one number. A row is a KiB of one pseudo-channel. -/
def rowIdOf (h c loc : Nat) : Nat := (h * 192 + c) * 2 ^ 22 + permAt Config.rowOf (loc / 1024)

/-- R235: the row of a line of HBM. -/
def rowOfLine (s : State) (line : Nat) : Option (Nat × Nat × Nat) :=
  match region (line * 64) with
  | .hbm h off => (let p := placeAt s h off; some (h, p.1, rowIdOf h p.1 p.2))
  | _ => none

/-- Mark a line poisoned (R216). -/
def poisonLine (s : State) (line : Nat) : State := { s with poison := ninsert line s.poison }

/-- R235, R236: the black-box REMAP payload of an entry. -/
def remapPayload (h c id spare rep ix : Nat) : List Byte :=
  leBytes 1 h ++ leBytes 1 c ++ leBytes 1 (nfld id 0 1) ++ leBytes 1 (nfld id 1 4) ++ leBytes 4 (nfld id 5 17)
    ++ leBytes 1 spare ++ leBytes 1 rep ++ leBytes 2 ix

/-- R235: the remap entry of a row, if it has one. -/
def remapEntry (s : State) (h c id : Nat) : Option Nat :=
  (s.regs.filterMap (fun kv =>
    if R.MEM_REMAP h 0 ≤ kv.1 ∧ kv.1 < R.MEM_REMAP h 8192 ∧ bitw kv.2 63 ∧ fld kv.2 0 8 = c ∧
       fld kv.2 8 5 + fld kv.2 16 17 * 32 = id % 2 ^ 22 then some (nsub kv.1 (R.MEM_REMAP h 0) / 8) else none)).head?

/-- R235: the lowest free remap entry of a half. -/
def freeRemap (s : State) (h : Nat) : Option Nat :=
  (List.range 8192).find? (fun i => !bitw (rd s (R.MEM_REMAP h i)) 63)

/-- R236: the 4 KiB physical pages that hold the four chunks of the row of a failing line, each once; the failing line's own page for a row in no owner's range (log 10). -/
def rowPages (s : State) (line : Nat) : List Nat :=
  match region (line * 64) with
  | .hbm h off =>
    (match ownerOf s h off, placeOf s h off with
     | some p, some (c, loc) =>
       let chans := ownerChans s h p
       let n := chans.length
       let base := h * 0x10000000000 + rdf s (R.MEM_PART_CFG h p) 24 10 * 2 ^ 30
       ((List.range 4).map (fun k =>
          let st := loc / 1024 * 4 + k
          let j := permAt (Config.interleave (rd s (R.MEM_PART_KEY h p)) st n).symm (chans.idxOf c)
          (base + (st * n + j) * 256) / 4096)).eraseDups
     | _, _ => [line * 64 / 4096])
  | _ => []

/-- R236: list a page of a failing row, unless it is listed; at 64 pages the channel is to be mapped out (R237). -/
def retirePage (s : State) (h c page : Nat) : State :=
  let cnt := rdf s (R.MEM_RETIRE_STAT h) 0 13
  if (List.range cnt).any (fun i => rdf s (R.MEM_RETIRE h i) 12 36 == page) then s
  else
    let s := if cnt < 4096 then
        wrf (wr s (R.MEM_RETIRE h cnt) (BitVec.ofNat 64 (page * 4096 + c <<< 48 + 1 <<< 63))) (R.MEM_RETIRE_STAT h) 0 13 (cnt + 1)
      else s
    let s := if 4095 ≤ cnt then wrf s (R.MEM_RETIRE_STAT h) 13 1 1 else s
    let s := addSat s (R.MEM_CH_STAT h c) 8 7 1
    let s := bbx s true 0x06 (1 + h) 0 0 (leBytes 1 h ++ leBytes 1 c ++ leBytes 6 0 ++ leBytes 8 (page * 4096))
    let s := match ownerOf s h (page * 4096 % 0x10000000000) with
      | some p => if p < 8 then logRec s p 0x04 0xFFFF [] (leBytes 8 (page * 4096 + c <<< 48 + 1 <<< 63)) else s
      | none => s
    if 64 ≤ rdf s (R.MEM_CH_STAT h c) 8 7 ∧ rdf s (R.MEM_CH_STAT h c) 15 1 = 0 then
      bbx (wrf s (R.MEM_CH_STAT h c) 15 1 1) true 0x07 (1 + h) 0 0 (leBytes 1 h ++ leBytes 1 c ++ leBytes 1 0)
    else s

/-- R234-R236: a row fails: it takes a fresh spare of its channel and its lines are copied while accesses to it are held, or its pages are retired. -/
def rowFail (s : State) (line : Nat) : State :=
  match rowOfLine s line with
  | none => s
  | some (h, c, id) =>
    let s := { s with rowCe := s.rowCe.filter (fun r => r.1 ≠ id) }
    let used := sget 0 s.sparesUsed (h * 192 + c)
    let slot := match remapEntry s h c id with | some i => some (i, true) | none => (freeRemap s h).map (fun i => (i, false))
    match slot with
    | some (i, had) =>
      if used < 48 then
        let rep := if had then min 63 (rdf s (R.MEM_REMAP h i) 40 6 + 1) else 0
        let w := c + (nfld id 0 1) <<< 8 + (nfld id 1 4) <<< 9 + (nfld id 5 17) <<< 16 + used <<< 33 + rep <<< 40 + 1 <<< 63
        let s := wr s (R.MEM_REMAP h i) (BitVec.ofNat 64 w)
        let s := { s with sparesUsed := sset 0 s.sparesUsed (h * 192 + c) (used + 1), rowHeld := ninsert id s.rowHeld }
        let s := wrf s (R.MEM_CH_STAT h c) 0 6 (48 - (used + 1))
        let s := if had then s else wrf s (R.MEM_RAS_STAT h) 48 14 (rdf s (R.MEM_RAS_STAT h) 48 14 + 1)
        let s := bbx s true 0x05 (1 + h) 0 0 (remapPayload h c id used rep i)
        match ownerOf s h (line * 64 % 0x10000000000) with
        | some p => if p < 8 then logRec s p 0x03 0xFFFF [] (leBytes 8 w) else s
        | none => s
      else (rowPages s line).foldl (fun s p => retirePage s h c p) s
    | none => (rowPages s line).foldl (fun s p => retirePage s h c p) s

/-- R216, R234, R384: read one line through its check symbols: one bad symbol is corrected and written back and counted, two poison the line. -/
def readLine (s : State) (line : Nat) : State :=
  match sget 0 s.symErr line, region (line * 64) with
  | 0, _ => s
  | k + 1, .hbm h _ =>
    let s := { s with symErr := sset 0 s.symErr line 0 }
    if k = 0 then
      let s := addSat s (R.MEM_RAS_STAT h) 0 32 1
      match rowOfLine s line with
      | none => s
      | some (_, c, id) =>
        let s := addSat s (R.MEM_CH_STAT h c) 32 16 1
        let n := ((s.rowCe.find? (fun r => r.1 == id)).map (·.2)).getD 0 + 1
        let others := s.rowCe.filter (fun r => r.1 ≠ id)
        let mine := others.filter (fun r => r.1 / 2 ^ 22 / 192 == h)
        let keep := if 4096 ≤ mine.length then others.erase (mine.headD (0, 0)) else others
        let s := { s with rowCe := keep ++ [(id, n)] }
        if rdf s (R.MEM_RAS_CFG h) 0 8 ≤ n then rowFail s line else s
    else rowFail (addSat (poisonLine s line) (R.MEM_RAS_STAT h) 32 16 1) line
  | k + 1, _ =>
    let s := { s with symErr := sset 0 s.symErr line 0 }
    if k = 0 then addSat s R.BBX_SRAM_CE 0 32 1 else addSat (poisonLine s line) R.BBX_SRAM_CE 32 32 1

/-- R235, R316, R425: an access to a line waits: the host holds it dirty, HBM is held, or its row is being copied. -/
def lineWaits (s : State) (line : Nat) : Bool :=
  sget 0 s.hostLines line == 2 ||
  (match region (line * 64) with
   | .hbm _ _ => s.hbmHeld || (match rowOfLine s line with | some (_, _, id) => s.rowHeld.contains id | none => false)
   | _ => false)

/-- R325: the kinds of access that translation permits. -/
inductive AccKind where
  | read
  | write
  | exec
  deriving DecidableEq, Repr

/-- R325: read one table entry; poison in a table is poisoned data consumed (R385). -/
def tableEntry (s : State) (tbl ix : Nat) : MemRes Word :=
  let a := tbl + 8 * ix
  match ownErr s .dev a 8 false with
  | some _ => .err .addr
  | none =>
    if lineWaits s (a / 64) then .wait
    else if s.poison.contains (a / 64) then .err .poison
    else .ok (BitVec.ofNat 64 (leNat (memGet s a 8)))

/-- R325: an entry that may be used at its level: V set, [63:48] zero. -/
def entryOk (w : Word) : Bool := bitw w 0 && fld w 48 16 == 0

/-- R325: the entries of a table that may be read and whose V bit is set. -/
def tableEntries (s : State) (tbl : Nat) : List Word :=
  (List.range 512).filterMap (fun i =>
    if (memByte s (tbl + 8 * i)).getLsbD 0 then (match tableEntry s tbl i with | .ok e => some e | .err _ => none | .wait => none) else none)

/-- R54, R325: an entry of a table of level `lv` (1 to 3) maps bytes of [a, b) with execute permission, itself or through the tables below it. -/
def entryText (s : State) (a b : Nat) : Nat → Word → Bool
  | 0, _ => false
  | k + 1, e =>
    entryOk e &&
    (if bitw e 1 then
       (let z := if k = 0 then 2 ^ 21 else 2 ^ 30
        let base := fld e 12 36 * 4096
        k < 2 && base % z == 0 && bitw e 4 && decide (base < b) && decide (a < base + z))
     else k != 0 && (tableEntries s (fld e 12 36 * 4096)).any (fun e' => entryText s a b k e'))

/-- R54: a physical range holds text: a context maps it with execute permission. -/
def isText (s : State) (a n : Nat) : Bool :=
  (List.range 64).any (fun c => ctxValid s c &&
    (tableEntries s (rdf s (R.DSP_CTXROOT c) 12 36 * 4096)).any (entryText s a (a + n) 3))

/-- R21-R23, R54, R220, R228, R366, R375, R376: the checks of a physical access of `n` bytes; none when it may proceed. No context and no fabric transfer writes text. -/
def physErr (s : State) (who : Who) (a n : Nat) (write : Bool) : Option AccErr :=
  match ownErr s who a n write with
  | some e => some e
  | none => if write && (whoPart s who).isSome && isText s a n then some .text else none

/-- R232, R243, R244: who moves lines: the context, the half it does it from (2: the fabric die), the thread or core, the owner its transfers belong to, their class and what they count as, whether HBM lines may be allocated in the LLM (R39), and whether it reads through the S-core and S-cluster caches. -/
structure Src where
  ctx : Nat
  half : Nat
  key : Nat
  owner : Nat
  cls : Nat
  cat : Nat
  alloc : Bool
  sc : Bool
  deriving DecidableEq, Repr

/-- R244: loads, stores and atomics of a thread. -/
def srcTh (s : State) (key : Nat) : Src := ⟨(th s key).ctx, halfOf s key, key, partOf s (th s key).ctx, 2, 0, true, isS key⟩
/-- R244: streams and COPY lines of a core's context. -/
def srcBulk (s : State) (core ctx : Nat) (alloc : Bool) : Src := ⟨ctx, halfOf s core, core, partOf s ctx, 3, 0, alloc, false⟩
/-- R244, R259: what arrives from Scauth for a partition. -/
def srcNet (p : Nat) : Src := ⟨0, 2, 65535, p, 2, 1, true, false⟩
/-- R244: the host. -/
def srcHost : Src := ⟨0, 2, 65535, 8, 2, 2, true, false⟩
/-- R244: the device's own sequencers. -/
def srcDev : Src := ⟨0, 2, 65535, 8, 3, 3, true, false⟩

/-- R244: the queue of a class and an owner at an end of a half's arch link: 0 outbound, 1 inbound. -/
def archKey (h e cls owner : Nat) : Nat := ((h * 2 + e) * 4 + cls) * 9 + owner

/-- R246: a transfer waits at an end of a half's arch link. -/
def archPush (s : State) (h e : Nat) (x : Xact) : State :=
  { s with arch := smod [] s.arch (archKey h e x.cls x.owner) (· ++ [x]) }

/-- R243, R244: what was read for a requester elsewhere leaves as response data, or in the class of a bulk or express transfer. -/
def respond (s : State) (x : Xact) : State :=
  if x.write || x.src == x.home then s else archPush s x.home 0 { x with cls := if x.cls = 3 ∨ x.cls = 0 then x.cls else 1 }

/-- R232: the regulators meter lines of HBM and LLM scratch. -/
def metered (x : Xact) : Bool :=
  match x.line with
  | none => false
  | some l => match region (l * 64) with | .hbm _ _ => true | .llm _ _ => true | _ => false

/-- R232: a regulator's floor tokens, ceiling tokens and waiting accesses, for reads or writes. -/
def rglSide (g : Rgl) (wr : Bool) : Nat × Nat × List Xact := if wr then (g.wf, g.wc, g.wq) else (g.rf, g.rc, g.rq)

/-- R232: replace one side of a regulator. -/
def rglPut (g : Rgl) (wr : Bool) (x : Nat × Nat × List Xact) : Rgl :=
  if wr then { g with wf := x.1, wc := x.2.1, wq := x.2.2 } else { g with rf := x.1, rc := x.2.1, rq := x.2.2 }

/-- Change one side of a regulator. -/
def rglMod (s : State) (h p : Nat) (wr : Bool) (f : Nat × Nat × List Xact → Nat × Nat × List Xact) : State :=
  { s with rgl := smod rgl0 s.rgl (h * 9 + p) (fun g => rglPut g wr (f (rglSide g wr))) }

/-- R232: lines at the memory-side die wait at their partition's regulator; those of the pool and the device in a queue of their own; other memory answers at once. -/
def offerHome (s : State) (x : Xact) : State :=
  if metered x then
    rglMod s x.home x.owner x.write (fun g => (g.1, g.2.1, g.2.2 ++ [x]))
  else respond s x

/-- R15, R243: a transfer sets out: data written crosses from its half to the home half; a read is asked for on the side path. -/
def offer (s : State) (x : Xact) : State :=
  if x.write && x.src != x.home then
    (if x.src < 2 then archPush s x.src 0 x else archPush s x.home 1 x)
  else if x.home < 2 then offerHome s x
  else if x.src < 2 then archPush s x.src 1 { x with cls := 1 }
  else s

/-- R21: the half that a memory address belongs to. -/
def homeHalf (a : Nat) : Nat :=
  match region a with
  | .hbm h _ => h
  | .llm h _ => h
  | .store h _ _ => h
  | .cluster h _ _ => h
  | _ => 2

/-- R230, R232, R244: lines of memory are moved. -/
def moveLines (s : State) (src : Src) (a n : Nat) (write : Bool) : State :=
  offer s ⟨some (a / 64), (a + n - 1) / 64 + 1 - a / 64, src.half, homeHalf a, src.owner, src.cls, src.cat, n, write, src.alloc⟩

/-- R15, R243, R244: a message or a register access of `bytes` data bytes between the halves and the fabric die. -/
def moveMsg (s : State) (src : Src) (home bytes : Nat) (write : Bool) : State :=
  if bytes = 0 || src.half == home then s else offer s ⟨none, 0, src.half, home, src.owner, src.cls, src.cat, bytes, write, false⟩

/-- R68, R247: an S-core read of a line its caches may hold is served there or goes to its home: a free choice. -/
def scRead (s : State) (src : Src) (line : Nat) : State :=
  if s.scLines.contains (src.half, line) then
    (let d := drawBits 1 s
     if d.1 = 1 then d.2 else moveLines d.2 src (line * 64) 64 false)
  else moveLines { s with scLines := (src.half, line) :: s.scLines } src (line * 64) 64 false

/-- R247: a write to a line: the other half's copy of a line of this half's HBM is invalidated, and that is to be acknowledged. -/
def invalidate (s : State) (src : Src) (line : Nat) : State :=
  let others := s.scLines.filter (fun e => e.2 == line && e.1 != src.half)
  let away := match region (line * 64) with | .hbm h _ => others.filter (fun (e : Nat × Nat) => e.1 != h) | _ => []
  { s with scLines := s.scLines.filter (fun (e : Nat × Nat) => !others.contains e), invs := s.invs ++ away.map (fun (e : Nat × Nat) => (src.key, line, e.1)) }

/-- Get `n` bytes of physical memory, with the line outcomes of R216; poison is reported, the bytes are still given to movers (R385). -/
def physGet (s : State) (a n : Nat) : State × (List Byte × Bool) :=
  let s := (linesOf a n).foldl readLine s
  (s, (memGet s a n, (linesOf a n).any (fun l => s.poison.contains l)))

/-- R230, R232, R247: `n` bytes are read: an S-core through its caches, every other reader from their home. -/
def didRead (s : State) (src : Src) (a n : Nat) : State :=
  if src.sc then (linesOf a n).foldl (fun s l => scRead s src l) s else moveLines s src a n false

/-- R216, R230, R232: read `n` bytes of physical memory. -/
def physRead (s : State) (src : Src) (a n : Nat) : State × (List Byte × Bool) :=
  let r := physGet s a n
  (didRead r.1 src a n, r.2)

/-- R216, R316: write bytes to physical memory: a line wholly written loses its poison, and the host's clean copy of a written line is invalidated. -/
def physPut (s : State) (a : Nat) (bs : List Byte) : State :=
  let n := bs.length
  let whole := (linesOf a n).filter (fun l => a ≤ l * 64 && l * 64 + 64 ≤ a + n)
  let s := memPut s a bs
  { s with poison := s.poison.filter (fun l => !whole.contains l),
           symErr := s.symErr.filter (fun kv => !whole.contains kv.1),
           hostLines := s.hostLines.filter (fun kv => !((linesOf a n).contains kv.1 && kv.2 == 1)) }

/-- R232, R247: `n` bytes have been written: other halves' copies are invalidated, and the lines are metered. -/
def wrote (s : State) (src : Src) (a n : Nat) : State :=
  moveLines ((linesOf a n).foldl (fun s l => invalidate s src l) s) src a n true

/-- R216, R232, R247, R316: a write of bytes to physical memory. -/
def physWrite (s : State) (src : Src) (a : Nat) (bs : List Byte) : State := wrote (physPut s a bs) src a bs.length

/-- R325: walk the three levels for a virtual address: the leaf entry, and whether it maps 1 GiB. -/
def walk (s : State) (ctx va : Nat) : MemRes (Word × Bool) :=
  if 2 ^ 48 ≤ va then .err .addr
  else
    match tableEntry s (rdf s (R.DSP_CTXROOT ctx) 12 36 * 4096) (nfld va 39 9) with
    | .err e => .err e
    | .wait => .wait
    | .ok e1 =>
      if !entryOk e1 || bitw e1 1 then .err .addr
      else
        match tableEntry s (fld e1 12 36 * 4096) (nfld va 30 9) with
        | .err e => .err e
        | .wait => .wait
        | .ok e2 =>
          if !entryOk e2 then .err .addr
          else if bitw e2 1 then (if fld e2 12 18 = 0 then .ok (e2, true) else .err .addr)
          else
            match tableEntry s (fld e2 12 36 * 4096) (nfld va 21 9) with
            | .err e => .err e
            | .wait => .wait
            | .ok e3 => if entryOk e3 && bitw e3 1 && fld e3 12 9 == 0 then .ok (e3, false) else .err .addr

/-- R325: the physical address a leaf gives, or the absent permission. A write to a page with execute permission is a text write (R54). -/
def leafAddr (leaf : Word) (big : Bool) (va : Nat) (k : AccKind) : MemRes Nat :=
  let ok : Option AccErr :=
    match k with
    | .read => if bitw leaf 2 then none else some .perm
    | .write => if bitw leaf 4 then some .text else if bitw leaf 3 then none else some .perm
    | .exec => if bitw leaf 4 then none else some .perm
  match ok with
  | some e => .err e
  | none => if big then .ok (fld leaf 30 18 * 2 ^ 30 + va % 2 ^ 30) else .ok (fld leaf 21 27 * 2 ^ 21 + va % 2 ^ 21)

/-- R325: remember a translation entry. -/
def tlbFill (s : State) (ctx va : Nat) (leaf : Word) (big : Bool) : State :=
  let e : TlbEntry := ⟨ctx, va / 2 ^ 21, leaf, big⟩
  if s.tlb.contains e then s
  else { s with tlb := e :: s.tlb.filter (fun t => !(t.ctx == ctx && t.vpn == va / 2 ^ 21)) }

/-- R325: translate a virtual address of a context. A cached entry that the tables no longer give may still be used until it is invalidated: a free choice. -/
def translate (s : State) (ctx va : Nat) (k : AccKind) : State × MemRes Nat :=
  let now := walk s ctx va
  match s.tlb.find? (fun t => t.ctx == ctx && t.vpn == va / 2 ^ 21) with
  | some t =>
    if now = .ok (t.leaf, t.big) then (s, leafAddr t.leaf t.big va k)
    else
      let d := drawBits 1 s
      if d.1 = 1 then (d.2, leafAddr t.leaf t.big va k)
      else
        match now with
        | .ok (l, b) => (tlbFill d.2 ctx va l b, leafAddr l b va k)
        | .err e => (d.2, .err e)
        | .wait => (s, .wait)
  | none =>
    match now with
    | .ok (l, b) => (tlbFill s ctx va l b, leafAddr l b va k)
    | .err e => (s, .err e)
    | .wait => (s, .wait)

/-- Translate and check an access of `n` bytes that stays within a page: its physical address. -/
def vaCheck (s : State) (ctx va n : Nat) (k : AccKind) : State × MemRes Nat :=
  match translate s ctx va k with
  | (s, .ok pa) =>
    (match physErr s (.ctx ctx) pa n (k == .write) with
     | some e => (s, .err e)
     | none => if (linesOf pa n).any (lineWaits s) then (s, .wait) else (s, .ok pa))
  | (s, .err e) => (s, .err e)
  | (s, .wait) => (s, .wait)

/-- R54, R68: a context's load of `n` bytes from memory that is not register space. -/
def vaLoad (s : State) (src : Src) (va n : Nat) : State × MemRes (List Byte × Bool) :=
  match vaCheck s src.ctx va n .read with
  | (s, .ok pa) => let r := physRead s src pa n; (r.1, .ok r.2)
  | (s, .err e) => (s, .err e)
  | (s, .wait) => (s, .wait)

/-- R68: a load that consumes its bytes: poison is an error (R385). -/
def vaUse (s : State) (src : Src) (va n : Nat) : State × MemRes (List Byte) :=
  match vaLoad s src va n with
  | (s, .ok (bs, p)) => if p then (s, .err .poison) else (s, .ok bs)
  | (s, .err e) => (s, .err e)
  | (s, .wait) => (s, .wait)

/-- R68: a context's store to memory that is not register space. -/
def vaStore (s : State) (src : Src) (va : Nat) (bs : List Byte) : State × MemRes Unit :=
  match vaCheck s src.ctx va bs.length .write with
  | (s, .ok pa) => (physWrite s src pa bs, .ok ())
  | (s, .err e) => (s, .err e)
  | (s, .wait) => (s, .wait)

end Sys2Proof.Machine
end

