-- ==== Sys2Proof/Machine/Flags.lean ====
section
/-! DEFINITION. Numeric status (R79-R81): what an arithmetic instruction leaves in nstat and in its context's counters. -/

namespace Sys2Proof.Machine

/-- R79: nstat after an instruction of a class with the given counts; the sticky bits only rise. -/
def nstatWord (old : Word) (cls : Nat) (c : Cnt) : Word :=
  let stN := bitw old 62 || c.nan ≠ 0
  let stS := bitw old 63 || c.sat ≠ 0
  BitVec.ofNat 64 (c.sat % 2 ^ 16 + (c.flush % 2 ^ 16) <<< 16 + (c.nan % 2 ^ 16) <<< 32 + (cls % 64) <<< 48
    + (if stN then 1 else 0) <<< 62 + (if stS then 1 else 0) <<< 63)

/-- R80: a thread's nstat after an instruction with the given counts. -/
def setNstat (t : Thread) (cls : Nat) (c : Cnt) : Thread := { t with nstat := nstatWord t.nstat cls c }

/-- R80, R81: write a thread with its nstat, and add the counts to its context's counters. -/
def putCounted (s : State) (key : Nat) (t : Thread) (cls : Nat) (c : Cnt) : State :=
  countNum (setTh s key (setNstat t cls c)) t.ctx c

end Sys2Proof.Machine
end

