-- ==== Sys2Proof/Machine/Operands.lean ====
section
/-! DEFINITION. Operands and the issue of a Deash instruction: register files (R59, R60), operand fields and their checks (R57, R58), immediates (R62), the guard (R61), precise faults (R84) and retirement. -/

namespace Sys2Proof.Machine

/-- R59: integer register `i`; x0 reads zero. -/
def xr (t : Thread) (i : Nat) : Word := if i = 0 then 0 else sget 0 t.x i

/-- R59: write integer register `i`; a write to x0 is discarded. -/
def setX (t : Thread) (i : Nat) (v : Word) : Thread := if i = 0 then t else { t with x := sset 0 t.x i v }

/-- R59: binary64 register `i`. -/
def fr (t : Thread) (i : Nat) : Word := sget 0 t.f i

/-- R59: write binary64 register `i`. -/
def setF (t : Thread) (i : Nat) (v : Word) : Thread := { t with f := sset 0 t.f i v }

/-- R59: predicate register `i`. -/
def pr (t : Thread) (i : Nat) : BitVec 512 := sget 0 t.p i

/-- R59: write predicate register `i`: 512 bits on profile S, one bit on profile N. -/
def setP (isSc : Bool) (t : Thread) (i : Nat) (v : BitVec 512) : Thread :=
  { t with p := sset 0 t.p i (if isSc then v else v &&& 1) }

/-- R60: every bit of a predicate. -/
def allP (b : Bool) : BitVec 512 := if b then BitVec.allOnes 512 else 0

/-- R44: arrival counter `i`. -/
def cr (t : Thread) (i : Nat) : Half := sget 0 t.c i

/-- R45: write arrival counter `i`. -/
def setC (t : Thread) (i : Nat) (v : Half) : Thread := { t with c := sset 0 t.c i v }

/-- R39: descriptor register `i`. -/
def sdr (t : Thread) (i : Nat) : Desc := sget desc0 t.sd i

/-- R39: write descriptor register `i`. -/
def setSd (t : Thread) (i : Nat) (d : Desc) : Thread := { t with sd := sset desc0 t.sd i d }

/-- R57: the R-format fields an operation uses: the size of the register file each names (0: unused, must be zero), and the MOD bits it defines. -/
structure RShape where
  d : Nat
  a : Nat
  b : Nat
  c : Nat
  md : Nat
  deriving DecidableEq, Repr

/-- R57: the I-format fields an operation uses, and the IMM32 bits it takes. -/
structure IShape where
  d : Nat
  a : Nat
  im : Nat
  deriving DecidableEq, Repr

/-- R57: a register field names a register of its file, or is zero when unused. -/
def fits (n v : Nat) : Bool := if n = 0 then v == 0 else v < n

/-- R57: no bit outside a mask is set. -/
def within (mask v : Nat) : Bool := v &&& mask == v

/-- R57: the operand fields fit the operation in the format of the word; an absent form is a wrong format bit. -/
def shapeOk (r : Option RShape) (i : Option IShape) (o : Opnds) : Bool :=
  if o.iform then
    match i with
    | some i => fits i.d o.d.toNat && fits i.a o.a.toNat && within i.im o.imm.toNat
    | none => false
  else
    match r with
    | some r => fits r.d o.d.toNat && fits r.a o.a.toNat && fits r.b o.b.toNat && fits r.c o.c.toNat && within r.md o.md.toNat
    | none => false

/-- R56, R58: the profiles that implement a class. -/
def classOk (cls : Nat) (isSc : Bool) : Bool :=
  if 1 ≤ cls ∧ cls ≤ 4 then true
  else if 8 ≤ cls ∧ cls ≤ 12 then !isSc
  else if cls = 0x10 ∨ cls = 0x11 then isSc
  else false

/-- R61: the guard lets the instruction execute. -/
def guardOk (t : Thread) (ge gn : Bool) (pg : Nat) : Bool :=
  if ge then (pr t pg).getLsbD 0 != gn else true

/-- How an issued instruction ends: it retires and the pc moves on; it retires at a new pc; it faults precisely (R84), with the element of a vector access; or it does not retire now and the state is as given. -/
inductive Res where
  | done (s : State)
  | jump (s : State) (pc : Word)
  | trap (s : State) (status sub elem : Nat)
  | stay (s : State)

/-- Retire: the pc moves to the next word (R54). -/
def retire (s : State) (key : Nat) : State := setTh s key { th s key with pc := (th s key).pc + 8 }

/-- Finish an issued instruction. -/
def finish (key cls : Nat) : Res → State
  | .done s' => retire s' key
  | .jump s' pc => setTh s' key { th s' key with pc := pc }
  | .trap s' st sub el => insnFault s' key cls st sub el
  | .stay s' => s'

/-- A thread can issue: it exists, the device issues (R386, R417) and the thread runs. -/
def canIssue (s : State) (key : Nat) : Bool := exists_ s key && issuing s && (th s key).phase == .run && (th s key).saving == none

/-- R57, R58, R61, R84: issue one instruction: nothing happens when the thread cannot issue; the profile check, the field checks and the operation's own check `ok` of the word come before the guard; a guard that fails retires the word with no effect. -/
def insnW (s : State) (t : Tid) (o : Opnds) (cls : Nat) (r : Option RShape) (i : Option IShape) (ok : Bool) (eff : Nat → State → Res) : Out :=
  let key := tkey t
  .next (if !canIssue s key then s
    else if !classOk cls (isS key) then insnFault s key cls 0x11 0x10 0
    else if !(shapeOk r i o && ok) then insnFault s key cls 0x11 0x11 0
    else if !guardOk (th s key) o.ge o.gn o.pg.toNat then retire s key
    else finish key cls (eff key s))

/-- R57, R58, R61, R84: issue one instruction whose word is checked by its fields alone. -/
def insn (s : State) (t : Tid) (o : Opnds) (cls : Nat) (r : Option RShape) (i : Option IShape) (eff : Nat → State → Res) : Out :=
  insnW s t o cls r i true eff

/-- An effect on the thread alone. -/
def onTh (f : Thread → Thread) (key : Nat) (s : State) : Res := .done (setTh s key (f (th s key)))

/-- R84, R85: an access error as a precise fault. -/
def accTrap (s : State) (e : AccErr) : Res := .trap s (accCode e).1 (accCode e).2 0

/-- R64: the second integer operand: register B, or the immediate as given. -/
def opB (t : Thread) (o : Opnds) (imm : Word) : Word := if o.iform then imm else xr t o.b.toNat

/-- R62: the second FP64 operand: register fB, or a binary32 immediate widened exactly. -/
def opFB (t : Thread) (o : Opnds) : Fp := if o.iform then f32 o.imm.toNat else f64 (fr t o.b.toNat)

/-- R62: the byte address of a load or store: xA plus the signed offset. -/
def memAddr (t : Thread) (o : Opnds) : Nat := (xr t o.a.toNat + sx32 o.imm).toNat

/-- All bits of a 32-bit immediate. -/
abbrev imAll : Nat := 0xFFFFFFFF

end Sys2Proof.Machine
end

