-- ==== Sys2Proof/Machine/Tile.lean ====
section
/-! DEFINITION. Tiles, descriptors and streams (R32-R44, R92, R93, R439-R443): the walk of a descriptor, reading and writing a tile, block scales, and the queues between ports. -/

namespace Sys2Proof.Machine

/-- R39: signed low 32 bits of a word. -/
def Desc.rowStride (d : Desc) : Int := sext 32 (fld d.w1 0 32)
/-- R39: TILE_ROWS. -/ def Desc.rows (d : Desc) : Nat := fld d.w1 32 8
/-- R39: TILE_COLS. -/ def Desc.cols (d : Desc) : Nat := fld d.w1 40 8
/-- R39: FORMAT. -/ def Desc.fmt (d : Desc) : Nat := fld d.w1 48 4
/-- R39: SCALED. -/ def Desc.scaled (d : Desc) : Bool := bitw d.w1 52
/-- R39: SCALE_AXIS. -/ def Desc.axis (d : Desc) : Bool := bitw d.w1 53
/-- R39: ORDER. -/ def Desc.order (d : Desc) : Nat := fld d.w1 54 2
/-- R39: NO_ALLOC. -/ def Desc.noAlloc (d : Desc) : Bool := bitw d.w1 56
/-- R39: COUNT0. -/ def Desc.n0 (d : Desc) : Nat := fld d.w2 0 16
/-- R39: COUNT1. -/ def Desc.n1 (d : Desc) : Nat := fld d.w2 16 16
/-- R39: COUNT2. -/ def Desc.n2 (d : Desc) : Nat := fld d.w2 32 16
/-- R39: the tiles of the walk. -/ def Desc.total (d : Desc) : Nat := d.n0 * d.n1 * d.n2
/-- R39: SCALE_ROW_STRIDE. -/ def Desc.srs (d : Desc) : Int := sext 32 (fld d.w7 0 32)
/-- R34: bits per element; 0 for a reserved code. -/ def Desc.ebits (d : Desc) : Nat := (codeBits d.fmt).getD 0
/-- R441: bytes of one row of a tile with `cols` columns. -/
def rowBytes (cols ebits : Nat) : Nat := (cols * ebits + 7) / 8

/-- R39, R441: the E fields of the basic form, computed from words 0-2. -/
def basicDesc (w0 w1 w2 : Word) : Desc :=
  let w1' := BitVec.ofNat 64 (w1.toNat % 2 ^ 53)
  let w2' := BitVec.ofNat 64 (w2.toNat % 2 ^ 32 + 1 <<< 32)
  let d : Desc := ⟨w0, w1', w2', 0, 0, 0, 0, 0, true⟩
  let ts1 := (d.rows : Int) * d.rowStride
  { d with
    w3 := BitVec.ofNat 64 (rowBytes d.cols d.ebits)
    w4 := BitVec.ofInt 64 ts1
    w6 := BitVec.ofInt 64 ((w0.toNat : Int) + d.n1 * ts1)
    w7 := BitVec.ofNat 64 (d.n0 * d.cols / 32 % 2 ^ 32) }

/-- R73: SDADD on a descriptor: the E fields that depend on BASE follow only in the basic form. -/
def Desc.addBase (d : Desc) (k : Word) : Desc :=
  if d.basic then { d with w0 := d.w0 + k, w6 := d.w6 + k } else { d with w0 := d.w0 + k }

/-- R34: the format and scale rules. -/
def Desc.formatOk (d : Desc) : Bool :=
  (codeBits d.fmt).isSome &&
  (!d.scaled || (d.fmt ≤ 2 && (if d.axis then d.rows == 32 || d.rows == 64 else d.cols == 32 || d.cols == 64)))

/-- R41: a word is a multiple of 8. -/
def mul8 (w : Word) : Bool := w.toNat % 8 == 0

/-- R41: the checks of a memory-facing descriptor: the subcode of the first that fails, in the order of the table. -/
def Desc.check (d : Desc) : Option Nat :=
  if !(mul8 d.w0 && fld d.w1 0 32 % 8 == 0 && mul8 d.w3 && mul8 d.w4 && mul8 d.w5 && mul8 d.w6) then some 0x01
  else if d.rows < 1 || 64 < d.rows || d.cols < 1 || 64 < d.cols || d.n0 < 1 || d.n1 < 1 || d.n2 < 1
    || 131072 < d.rows * d.cols * d.ebits || d.order == 3 then some 0x02
  else if !d.formatOk then some 0x03
  else none

/-- R442: the indices of tile `n` of the walk. -/
def Desc.index (d : Desc) (n : Nat) : Nat × Nat × Nat :=
  match d.order with
  | 0 => (n % d.n0, n / d.n0 % d.n1, n / d.n0 / d.n1)
  | 1 => (n / d.n1 % d.n0, n % d.n1, n / d.n1 / d.n0)
  | _ => (n / d.n2 % d.n0, n / d.n2 / d.n0, n % d.n2)

/-- A signed address as a 64-bit address. -/
def vaOf (a : Int) : Nat := ofInt 64 a

/-- R442: the address of row `r` of tile `n`. -/
def Desc.rowAddr (d : Desc) (n r : Nat) : Nat :=
  let (i0, i1, i2) := d.index n
  vaOf ((d.w0.toNat : Int) + i0 * d.w3.toInt + i1 * d.w4.toInt + i2 * d.w5.toInt + r * d.rowStride)

/-- R442: the address of scale (`u`, `v`) of tile `n`: row `u` and block `v` on axis 0, block row `u` and column `v` on axis 1. -/
def Desc.scaleAddr (d : Desc) (n u v : Nat) : Nat :=
  let (i0, i1, i2) := d.index n
  let t := i2 * d.n1 + i1
  if d.axis then
    vaOf ((d.w6.toNat : Int) + ((t * d.rows / 32 + u : Nat) : Int) * d.srs + (i0 * d.cols : Nat) + v)
  else
    vaOf ((d.w6.toNat : Int) + ((t * d.rows + u : Nat) : Int) * d.srs + (i0 * d.cols / 32 : Nat) + v)

/-- R34: the rows and columns of a tile's scale block. -/
def scaleDims (axis : Bool) (rows cols : Nat) : Nat × Nat := if axis then (rows / 32, cols) else (rows, cols / 32)

/-- Cut a byte range at 64-byte lines: the address and length of each piece. -/
def pieces (va n : Nat) : Nat → List (Nat × Nat)
  | 0 => []
  | fuel + 1 =>
    if n = 0 then []
    else
      let k := min n (64 - va % 64)
      (va, k) :: pieces (va + k) (n - k) fuel

/-- Read a byte range of a context line by line; the poison of every line is gathered. -/
def vaRange (s : State) (src : Src) : List (Nat × Nat) → State × MemRes (List Byte × Bool)
  | [] => (s, .ok ([], false))
  | (va, n) :: r =>
    match vaLoad s src va n with
    | (s, .ok (bs, p)) =>
      (match vaRange s src r with
       | (s, .ok (bs', p')) => (s, .ok (bs ++ bs', p || p'))
       | (s, .err e) => (s, .err e)
       | (s, .wait) => (s, .wait))
    | (s, .err e) => (s, .err e)
    | (s, .wait) => (s, .wait)

/-- Read `n` bytes at a virtual address. -/
def vaBytes (s : State) (src : Src) (va n : Nat) : State × MemRes (List Byte × Bool) := vaRange s src (pieces va n (n + 1))

/-- Write the pieces of a byte range of a context. -/
def vaPutRange (s : State) (src : Src) (bs : List Byte) : List (Nat × Nat) → State × MemRes Unit
  | [] => (s, .ok ())
  | (va, n) :: r =>
    match vaStore s src va (bs.take n) with
    | (s, .ok ()) => vaPutRange s src (bs.drop n) r
    | (s, .err e) => (s, .err e)
    | (s, .wait) => (s, .wait)

/-- Write bytes at a virtual address. -/
def vaPut (s : State) (src : Src) (va : Nat) (bs : List Byte) : State × MemRes Unit :=
  vaPutRange s src bs (pieces va bs.length (bs.length + 1))

/-- Mark the lines of a written byte range of a context poisoned (R385). -/
def vaPoison (s : State) (ctx va n : Nat) : State :=
  (pieces va n (n + 1)).foldl (fun s p =>
    match translate s ctx p.1 .write with
    | (s, .ok pa) => poisonLine s (pa / 64)
    | (s, _) => s) s

/-- Read byte ranges in order, gathering each range's bytes. -/
def vaRows (s : State) (src : Src) : List (Nat × Nat) → State × MemRes (List (List Byte) × Bool)
  | [] => (s, .ok ([], false))
  | (va, n) :: r =>
    match vaBytes s src va n with
    | (s, .ok (bs, p)) =>
      (match vaRows s src r with
       | (s, .ok (bss, p')) => (s, .ok (bs :: bss, p || p'))
       | (s, .err e) => (s, .err e)
       | (s, .wait) => (s, .wait))
    | (s, .err e) => (s, .err e)
    | (s, .wait) => (s, .wait)

/-- Write byte ranges in order. -/
def vaPutRows (s : State) (src : Src) : List (Nat × List Byte) → State × MemRes Unit
  | [] => (s, .ok ())
  | (va, bs) :: r =>
    match vaPut s src va bs with
    | (s, .ok ()) => vaPutRows s src r
    | (s, .err e) => (s, .err e)
    | (s, .wait) => (s, .wait)

/-- R441: the element codes of a row from its bytes. -/
def rowCodes (ebits cols : Nat) (bs : List Byte) : List Nat := cutCodes ebits cols (leNat bs)

/-- R441: the bytes of a row of element codes; the spare half byte of an odd T4 row is zero. -/
def codesRow (ebits : Nat) (cs : List Nat) : List Byte := leBytes (rowBytes cs.length ebits) (joinCodes ebits cs)

/-- Element (i, j) of a tile. -/
def Tile.at (t : Tile) (i j : Nat) : Nat := nth t.els (i * t.cols + j)

/-- R442: the byte ranges of tile `n` of a descriptor: its rows, then the rows of its scales. -/
def Desc.ranges (d : Desc) (n rows cols : Nat) : List (Nat × Nat) :=
  (List.range rows).map (fun r => (d.rowAddr n r, rowBytes cols d.ebits)) ++
  (if d.scaled then (let (u, v) := scaleDims d.axis rows cols; (List.range u).map (fun q => (d.scaleAddr n q 0, v))) else [])

/-- R33, R42, R385: read tile `n` of a descriptor's walk. -/
def readTile (s : State) (src : Src) (d : Desc) (n : Nat) : State × MemRes Tile :=
  match vaRows s src (d.ranges n d.rows d.cols) with
  | (s, .ok (bss, p)) =>
    let els := (bss.take d.rows).flatMap (rowCodes d.ebits d.cols)
    let scales := (bss.drop d.rows).flatMap (fun bs => bs.map (fun b => b.toNat))
    (s, .ok ⟨d.fmt, d.scaled, d.axis, d.rows, d.cols, 0, 0, n + 1 == d.total, els, scales, p⟩)
  | (s, .err e) => (s, .err e)
  | (s, .wait) => (s, .wait)

/-- R443: the byte ranges and bytes that a tile is written as at place `n` of a descriptor's walk. -/
def tileBytes (d : Desc) (n : Nat) (t : Tile) : List (Nat × List Byte) :=
  (List.range t.rows).map (fun r => (d.rowAddr n r, codesRow d.ebits ((List.range t.cols).map (fun j => t.at r j)))) ++
  (if d.scaled then
    (let (u, v) := scaleDims d.axis t.rows t.cols
     (List.range u).map (fun q => (d.scaleAddr n q 0, (List.range v).map (fun j => BitVec.ofNat 8 (nth t.scales (q * v + j))))))
   else [])

/-- R443: the subcode of a tile that a descriptor does not allow. -/
def tileRefused (d : Desc) (t : Tile) : Option Nat :=
  if t.fmt ≠ d.fmt ∨ t.scaled ≠ d.scaled ∨ (d.scaled ∧ t.axis ≠ d.axis) then some 0x06
  else if d.rows < t.rows ∨ d.cols < t.cols then some 0x07
  else none

/-- R443, R385: write a tile; a poison mark poisons every line it covers. -/
def writeTile (s : State) (src : Src) (d : Desc) (n : Nat) (t : Tile) : State × MemRes Unit :=
  let rs := tileBytes d n t
  match vaPutRows s src rs with
  | (s, .ok ()) => (if t.poison then rs.foldl (fun s r => vaPoison s src.ctx r.1 r.2.length) s else s, .ok ())
  | (s, .err e) => (s, .err e)
  | (s, .wait) => (s, .wait)

/-- R92: the value of element (i, j) of a tile with its block scale applied. -/
def Tile.val (t : Tile) (i j : Nat) : Fp :=
  match fmtOfCode t.fmt with
  | none => .nan
  | some F =>
    let v := unpack F (t.at i j)
    if !t.scaled then v
    else
      let sc := if t.axis then nth t.scales (i / 32 * t.cols + j) else nth t.scales (i * (t.cols / 32) + j / 32)
      if sc = 255 then .nan
      else match v with
        | .fin n m e => .fin n m (e + sc - 127)
        | v => v

/-- R92, R107: the scale exponent of element (i, j); 0 for an unscaled tile. -/
def Tile.scaleExp (t : Tile) (i j : Nat) : Int :=
  if !t.scaled then 0
  else (if t.axis then nth t.scales (i / 32 * t.cols + j) else nth t.scales (i * (t.cols / 32) + j / 32) : Nat) - 127

/-- R93: the largest finite magnitude of a block, as an exact number; zero when there is none. -/
def blockMax (vs : List Fp) : Dy :=
  vs.foldl (fun acc v => match v with | .fin _ _ _ => (let a := v.abs.dy; if a.le acc then acc else a) | _ => acc) dy0

/-- R93: the scale byte of a block for an output format code. -/
def blockScale (code : Nat) (vs : List Fp) : Nat :=
  let m := blockMax vs
  if m.m = 0 then 0x7F
  else
    let E : Int := match code with | 1 => 8 | 2 => 15 | _ => 2
    (max (-127) (min 127 (m.ilog - E)) + 127).toNat

/-- Convert values to a format, element by element, from element index `i`: the codes and the counts. -/
def convAll (F : Fmt) (nctl : NumCtl) (kc : Word × Word) : Nat → List Fp → List Nat × Cnt
  | _, [] => ([], cnt0)
  | i, v :: vs =>
    let r := toFmt F (modeFor nctl kc i) nctl.nosat v
    let q := convAll F nctl kc (i + 1) vs
    (r.1 :: q.1, r.2.add q.2)

/-- R93: convert one block: its scale and its elements. -/
def convBlock (code : Nat) (F : Fmt) (nctl : NumCtl) (kc : Word × Word) (i : Nat) (vs : List Fp) : Nat × List Nat × Cnt :=
  let sc := blockScale code vs
  let q := convAll F nctl kc i (vs.map (fun v => match v with | .fin n m e => .fin n m (e + 127 - sc) | v => v))
  (sc, q.1, q.2)

/-- R93: convert a row-major list of values block by block of 32. -/
def convBlocks (code : Nat) (F : Fmt) (nctl : NumCtl) (kc : Word × Word) : Nat → Nat → List Fp → List Nat × List Nat × Cnt
  | 0, _, _ => ([], [], cnt0)
  | fuel + 1, i, vs =>
    if vs.isEmpty then ([], [], cnt0)
    else
      let b := convBlock code F nctl kc i (vs.take 32)
      let q := convBlocks code F nctl kc fuel (i + 32) (vs.drop 32)
      (b.1 :: q.1, b.2.1 ++ q.2.1, b.2.2.add q.2.2)

/-- R33, R93, R94: an output tile of an arithmetic station from its values, scaled or not; its SAT is counted, and the counts come back. -/
def outTile (code : Nat) (scaled : Bool) (nctl : NumCtl) (kc : Word × Word) (rows cols flush : Nat) (vs : List Fp) : Tile × Cnt :=
  let F := (fmtOfCode code).getD fmtFP32
  if scaled then
    let q := convBlocks code F nctl kc (vs.length / 32 + 1) 0 vs
    (⟨code, true, false, rows, cols, q.2.2.sat, flush, false, q.2.1, q.1, false⟩, q.2.2)
  else
    let q := convAll F nctl kc 0 vs
    (⟨code, false, false, rows, cols, q.2.sat, flush, false, q.1, [], false⟩, q.2)

/-- R33: the header word of a tile. -/
def Tile.header (t : Tile) : Word :=
  let b (x : Bool) : Nat := if x then 1 else 0
  BitVec.ofNat 64 (t.fmt % 16 + (b t.scaled) <<< 4 + (b t.axis) <<< 5 + (t.rows % 256) <<< 8 + (t.cols % 256) <<< 16
    + (t.sat % 8192) <<< 24 + (t.flush % 8192) <<< 37 + (b t.last) <<< 50)

/-- R42: the stream that now enters a port from its producer: the first bound in issue order with tiles to come. -/
def producing (n : NCore) (p : Port) : Option Stream := n.streams.find? (fun st => st.frm == p && st.made < st.d.total)

/-- R42: how many tiles a consumer port has taken of a stream. -/
def Stream.took (st : Stream) (p : Port) : Nat := if st.to1 = p then st.took1 else st.took2

/-- R42, R43: the stream that a consumer port now takes from. -/
def consuming (n : NCore) (p : Port) : Option Stream :=
  n.streams.find? (fun st => (st.to1 == p || st.to2 == some p) && st.took p < st.d.total)

/-- R42: the next tile at a consumer port, with its stream. -/
def peekTile (n : NCore) (p : Port) : Option (Stream × Tile) :=
  match consuming n p with
  | none => none
  | some st => (st.tiles[st.took p - (st.made - st.tiles.length)]?).map (fun t => (st, t))

/-- R42: a queue with room at an output port. -/
def hasRoom (n : NCore) (p : Port) : Bool := (producing n p).any (fun st => st.tiles.length < 4)

/-- R41, R42: put a tile into the stream bound to an output port; the stream sets LAST on its last tile and clears it on every other. -/
def pushTile (n : NCore) (p : Port) (t : Tile) : NCore :=
  match producing n p with
  | none => n
  | some st =>
    let st' := { st with made := st.made + 1, tiles := st.tiles ++ [{ t with last := st.made + 1 == st.d.total }] }
    { n with streams := n.streams.map (fun x => if x.q = st.q then st' else x) }

/-- R42, R43: a consumer takes the next tile of a stream: the tile leaves the queue when every consumer has taken it, and the queue is freed after the last. The number says whether the tile left. -/
def takeTile (n : NCore) (p : Port) (st : Stream) : NCore × Bool :=
  let base := st.made - st.tiles.length
  let st1 := if st.to1 = p then { st with took1 := st.took1 + 1 } else { st with took2 := st.took2 + 1 }
  let all := match st1.to2 with | some _ => min st1.took1 st1.took2 | none => st1.took1
  let st2 := if base < all then { st1 with tiles := st1.tiles.drop 1 } else st1
  let streams := if all = st.d.total then n.streams.filter (fun x => x.q ≠ st.q)
    else n.streams.map (fun x => if x.q = st.q then st2 else x)
  ({ n with streams := streams }, base < all)

/-- R34, R44, R81: an arithmetic station takes a tile: the arrival counter and the tile's counts, once every consumer has it. -/
def stationTook (s : State) (core : Nat) (p : Port) (st : Stream) (t : Tile) : State :=
  let r := takeTile (nc s core) p st
  let s := setNc s core r.1
  if r.2 then arrive (countNum s (th s core).ctx ⟨t.sat, t.flush, 0⟩) core (th s core).gen st.cnt else s

/-- R49, R52: an N-core whose stations work: the device issues, and its context is neither stopped nor being saved. -/
def stationsRun (s : State) (core : Nat) : Bool :=
  core < 2 * nCores s && issuing s && (th s core).phase != .idle && (th s core).phase != .fault && (th s core).saving == none

/-- LOAD.out. -/ def pLoad : Port := ⟨0, 0⟩
/-- STORE.in. -/ def pStore : Port := ⟨1, 0⟩
/-- MATRIX.a. -/ def pMxA : Port := ⟨2, 0⟩
/-- MATRIX.s. -/ def pMxS : Port := ⟨2, 1⟩
/-- MATRIX.p. -/ def pMxP : Port := ⟨2, 0⟩
/-- TRESTLE.w and TRESTLE.p. -/ def pTr : Port := ⟨3, 0⟩
/-- ELEMENT.x and ELEMENT.z. -/ def pEwX : Port := ⟨4, 0⟩
/-- ELEMENT.y. -/ def pEwY : Port := ⟨4, 1⟩
/-- REDUCE.x and REDUCE.r. -/ def pRd : Port := ⟨5, 0⟩
/-- FABRIC.put and FABRIC.get. -/ def pFab : Port := ⟨7, 0⟩

/-- R52: a stream that memory feeds starts again from tile `k`: that tile and the later ones, not yet taken, are read again. -/
def Stream.rewind (st : Stream) (k : Nat) : Stream :=
  if st.frm = pLoad ∨ st.frm = pFab then { st with made := k, tiles := st.tiles.take (k - (st.made - st.tiles.length)) } else st

/-- R52: a consumer's fault at tile `k` of a stream stops the context; a stream that memory feeds restarts from that tile. -/
def consumeFault (s : State) (core station : Nat) (st : Stream) (k status sub : Nat) : State :=
  let n := nc s core
  streamFault (setNc s core { n with streams := n.streams.map (fun x => if x.q = st.q then x.rewind k else x) }) core station st.sd status sub k

/-- R35: the formats an input port's station accepts. -/
def accepts (p : Port) (fmt : Nat) : Bool :=
  match p.st with
  | 2 => fmt ≤ 5
  | 3 => fmt ≤ 4
  | 4 => fmt ≤ 6
  | 5 => fmt ≤ 5
  | _ => true

/-- R41, R385: what stops a consuming station at a tile: poison, or a format it does not accept; status and subcode. -/
def tileStop (p : Port) (t : Tile) : Option (Nat × Nat) :=
  if t.poison then some (0x12, 0)
  else if accepts p t.fmt then none
  else some (0x10, 0x06)

end Sys2Proof.Machine
end

