-- ==== Sys2Proof/Machine/StreamIsa.lean ====
section
/-! DEFINITION. The STREAM class (R39-R42, R73-R75): STREAM, SDLD, SDADD, COPY, and what each checks when it issues. -/

namespace Sys2Proof.Machine

/-- R74: a station has an output port of a number. -/
def outPort (st port : Nat) : Bool := port == 0 && (st == 0 || st == 2 || st == 3 || st == 4 || st == 5 || st == 7)

/-- R74: a station has an input port of a number. -/
def inPort (st port : Nat) : Bool :=
  (port == 0 && (st == 1 || st == 2 || st == 3 || st == 4 || st == 5 || st == 7)) || (port == 1 && (st == 2 || st == 4))

/-- R75: the binding a STREAM word names is legal. -/
def bindingOk (o : StreamOps) : Bool :=
  outPort o.fromSt.toNat o.fromPort.toNat && inPort o.toSt.toNat o.toPort.toNat &&
  (!o.dual || (inPort o.to2St.toNat o.to2Port.toNat &&
    ((o.toSt == 4 && o.toPort == 0 && o.to2St == 5 && o.to2Port == 0) ||
     (o.toSt == 5 && o.toPort == 0 && o.to2St == 4 && o.to2Port == 0))))

/-- R41: a memory-facing station. -/
def facesMemory (st : Nat) : Bool := st == 0 || st == 1 || st == 7

/-- R41: the counts of a stream between two stations. -/
def Desc.countsOk (d : Desc) : Bool := 1 ≤ d.n0 && 1 ≤ d.n1 && 1 ≤ d.n2

/-- R41: the subcode of the first check that a stream's descriptor fails. -/
def streamCheck (o : StreamOps) (d : Desc) : Option Nat :=
  if facesMemory o.fromSt.toNat || facesMemory o.toSt.toNat then
    match d.check with
    | some c => some c
    | none =>
      if accepts ⟨o.toSt.toNat, o.toPort.toNat⟩ d.fmt && (!o.dual || accepts ⟨o.to2St.toNat, o.to2Port.toNat⟩ d.fmt) then none
      else some 0x03
  else if d.countsOk then none else some 0x02

/-- R41: the station a refused stream names: its memory-facing one, or its producer. -/
def faultStation (o : StreamOps) : Nat :=
  if facesMemory o.fromSt.toNat then o.fromSt.toNat
  else if facesMemory o.toSt.toNat then o.toSt.toNat else o.fromSt.toNat

/-- R41, R84: a STREAM or COPY refused at issue: a precise fault that names the station and the descriptor register. -/
def descFault (s : State) (core st sd sub : Nat) : State :=
  let t := th s core
  let s := putNcoFault s core st sd 0x10 sub 0 (some t.pc)
  let s := reportFault s core 0x10 sub (ncoFaultRegs s core)
  setTh s core { th s core with phase := .fault, saving := some s.ltc.toNat }

/-- R42: a queue that no stream holds. -/
def freeQueue (n : NCore) : Option Nat := (List.range 8).find? (fun q => n.streams.all (fun st => st.q ≠ q))

/-- R42, R73-R75: STREAM binds a stream, taking a free queue; with all eight held it stalls. -/
def bindStream (t : Tid) (o : StreamOps) (s : State) : Out :=
  let key := tkey t
  .next (if !canIssue s key then s
    else if !classOk 0x08 (isS key) then insnFault s key 0x08 0x11 0x10 0
    else if !(o.low == 0 && (o.dual || (o.to2St == 0 && o.to2Port == 0))) then insnFault s key 0x08 0x11 0x11 0
    else if !guardOk (th s key) o.ge o.gn o.pg.toNat then retire s key
    else if !bindingOk o then insnFault s key 0x08 0x11 0x12 0
    else
      let d := sdr (th s key) o.sd.toNat
      match streamCheck o d with
      | some sub => descFault s key (faultStation o) o.sd.toNat sub
      | none =>
        match freeQueue (nc s key) with
        | none => s
        | some q =>
          let n := nc s key
          let st : Stream := ⟨q, o.sd.toNat, d, ⟨o.fromSt.toNat, o.fromPort.toNat⟩, ⟨o.toSt.toNat, o.toPort.toNat⟩,
            if o.dual then some ⟨o.to2St.toNat, o.to2Port.toNat⟩ else none, o.cnt.toNat, 0, [], 0, 0⟩
          retire (setNc s key { n with streams := n.streams ++ [st] }) key)

/-- Read `n` successive 64-bit words of a context. -/
def vaWords (s : State) (src : Src) (va : Nat) : Nat → State × MemRes (List Word)
  | 0 => (s, .ok [])
  | n + 1 =>
    match vaUse s src va 8 with
    | (s, .ok bs) =>
      (match vaWords s src (va + 8) n with
       | (s, .ok ws) => (s, .ok (BitVec.ofNat 64 (leNat bs) :: ws))
       | (s, .err e) => (s, .err e)
       | (s, .wait) => (s, .wait))
    | (s, .err e) => (s, .err e)
    | (s, .wait) => (s, .wait)

/-- R39, R73: load descriptor words at xA + IMM32 into sdD. -/
def sdld (t : Tid) (o : Opnds) (n : Nat) (mk : List Word → Desc) (s : State) : Out :=
  insn s t o 0x08 none (some ⟨16, 64, imAll⟩) (fun key s0 =>
    let th0 := th s0 key
    let a := memAddr th0 o
    if a % 8 ≠ 0 then .trap s0 0x10 0x15 0
    else
      match vaWords s0 (srcTh s0 key) a n with
      | (s, .ok ws) => .done (setTh s key (setSd (th s key) o.d.toNat (mk ws)))
      | (s, .err e) => accTrap s e
      | (_, .wait) => .stay s0)

/-- R39, R73: SDLD.B. -/
def execSdldB (t : Tid) (o : Opnds) (s : State) : Out :=
  sdld t o 3 (fun ws => basicDesc (ws.getD 0 0) (ws.getD 1 0) (ws.getD 2 0)) s

/-- R39, R73: SDLD.E. -/
def execSdldE (t : Tid) (o : Opnds) (s : State) : Out :=
  sdld t o 8 (fun ws => ⟨ws.getD 0 0, ws.getD 1 0, ws.getD 2 0, ws.getD 3 0, ws.getD 4 0, ws.getD 5 0, ws.getD 6 0, ws.getD 7 0, false⟩) s

/-- R73: SDADD. -/
def execSdadd (t : Tid) (o : Opnds) (s : State) : Out :=
  insn s t o 0x08 (some ⟨16, 64, 0, 0, 0⟩) none
    (onTh (fun th => setSd th o.d.toNat ((sdr th o.d.toNat).addBase (xr th o.a.toNat))))

/-- R38, R41: the subcode of the first check that a COPY's two descriptors fail. -/
def copyCheck (src dst : Desc) : Option Nat :=
  match src.check, dst.check with
  | some c, _ => some c
  | none, some c => some c
  | none, none =>
    if src.ebits ≠ dst.ebits ∨ src.scaled ≠ dst.scaled then some 0x03
    else if src.total * (src.rows * src.cols) ≠ dst.total * (dst.rows * dst.cols) then some 0x02
    else none

/-- R15, R19: the copy engine of an N-core's cluster: 9 per half. -/
def cpeOf (s : State) (core : Nat) : Nat := halfOf s core * 9 + nCluster s (halfOf s core) (dieCore s core)

/-- R38, R40, R73: COPY submits a request, with copies of both descriptors, to the cluster's copy engine. -/
def execCopy (t : Tid) (o : Opnds) (s : State) : Out :=
  insn s t o 0x08 (some ⟨32, 16, 16, 0, 0⟩) none (fun key s =>
    let src := sdr (th s key) o.a.toNat
    let dst := sdr (th s key) o.b.toNat
    match copyCheck src dst with
    | some sub => .stay (descFault s key 6 o.a.toNat sub)
    | none =>
      let e := cpeOf s key
      let c := sget cpe0 s.cpes e
      .done { s with cpes := sset cpe0 s.cpes e { c with reqs := c.reqs ++ [⟨key, (th s key).gen, (th s key).ctx, o.a.toNat, src, dst, o.d.toNat, 0, false, none⟩] } })

end Sys2Proof.Machine
end

