-- ==== Sys2Proof/Machine/LoadStore.lean ====
section
/-! DEFINITION. The stations that face memory, and the copy engine (R33-R44, R385, R442, R443): LOAD, STORE and COPY. -/

namespace Sys2Proof.Machine

/-- R42, R52, R442: LOAD's read of the next tile of its stream completes and the tile enters its queue; with four tiles held the producer stalls. A tile that faults stops the context once the tiles before it are delivered. -/
def execLoadTileReady (core : Nat) (s : State) : Out :=
  .next (if !stationsRun s core then s
    else
      match producing (nc s core) pLoad with
      | none => s
      | some st =>
        if 4 ≤ st.tiles.length then s
        else
          match readTile s (srcBulk s core (th s core).ctx (!st.d.noAlloc)) st.d st.made with
          | (s', .ok t) => setNc s' core (pushTile (nc s' core) pLoad t)
          | (s', .err e) => if st.tiles.isEmpty then streamFault s' core 0 st.sd (tileCode e).1 (tileCode e).2 st.made else s
          | (_, .wait) => s)

/-- R34, R443: STORE takes the next tile and writes it where its walk gives; the counter waits for visibility (R44). -/
def execStoreTile (core : Nat) (s : State) : Out :=
  .next (if !stationsRun s core then s
    else
      match peekTile (nc s core) pStore with
      | none => s
      | some (st, t) =>
        match tileRefused st.d t with
        | some sub => consumeFault s core 1 st st.took1 0x10 sub
        | none =>
          match writeTile s (srcBulk s core (th s core).ctx (!st.d.noAlloc)) st.d st.took1 t with
          | (s', .ok ()) =>
            let n := (takeTile (nc s' core) pStore st).1
            countNum (setNc s' core { n with stored := n.stored ++ [st.cnt] }) (th s core).ctx ⟨t.sat, t.flush, 0⟩
          | (_, .err e) => consumeFault s core 1 st st.took1 (tileCode e).1 (tileCode e).2
          | (_, .wait) => s)

/-- R247: no invalidation that a thread's or core's writes caused waits for its acknowledgement. -/
def acked (s : State) (key : Nat) : Bool := !s.invs.any (fun (e : Nat × Nat × Nat) => e.1 == key)

/-- R44, R247, R248: the oldest stored tile of a core becomes visible to every core, once what it invalidated is acknowledged, and its counter rises. -/
def execStoreTileVisible (core : Nat) (s : State) : Out :=
  .next (match (nc s core).stored with
    | [] => s
    | c :: r => if !issuing s || !acked s core then s else arrive (setNc s core { nc s core with stored := r }) core (th s core).gen c)

/-- R38: where element `i` of a walk lies: the tile, the row and the column. -/
def Desc.elem (d : Desc) (i : Nat) : Nat × Nat × Nat :=
  (i / (d.rows * d.cols), i % (d.rows * d.cols) / d.cols, i % (d.rows * d.cols) % d.cols)

/-- R38: one move of a COPY: the destination bytes of one line, the first element (or scale) it holds, how many, and whether they are scales. -/
structure CopyMove where
  va : Nat
  first : Nat
  count : Nat
  scale : Bool
  tile : Nat
  deriving DecidableEq, Repr

/-- R38: the moves of one byte range, cut at 64-byte lines; `ipb` is bits per element. -/
def cutMoves (va n first ebits total tile : Nat) (scale : Bool) : List CopyMove :=
  (pieces va n (n + 1)).map (fun p =>
    let k := (p.1 - va) * 8 / ebits
    ⟨p.1, first + k, min (p.2 * 8 / ebits) (total - k), scale, tile⟩)

/-- R38: the moves of a COPY in order: each destination tile's rows, then its scales. -/
def copyMoves (dst : Desc) : List CopyMove :=
  (List.range dst.total).flatMap (fun n =>
    (List.range dst.rows).flatMap (fun r =>
      cutMoves (dst.rowAddr n r) (rowBytes dst.cols dst.ebits) ((n * dst.rows + r) * dst.cols) dst.ebits dst.cols n false) ++
    (if dst.scaled then
      (let (u, v) := scaleDims dst.axis dst.rows dst.cols
       (List.range u).flatMap (fun q => cutMoves (dst.scaleAddr n q 0) v (n * (u * v) + q * v) 8 v n true))
     else []))

/-- R38: read element `i` of the source walk (or scale `i`): its code, the poison of its line, and where it lies. -/
def copyRead (s : State) (ctx : Nat) (src : Desc) (scale : Bool) (i : Nat) : State × MemRes (Nat × Bool × Nat) :=
  let (va, bits, sh) :=
    if scale then
      (let (u, v) := scaleDims src.axis src.rows src.cols
       (src.scaleAddr (i / (u * v)) (i % (u * v) / v) (i % (u * v) % v), 8, 0))
    else
      (let (n, r, c) := src.elem i
       (vaOf ((src.rowAddr n r : Nat) + (c * src.ebits / 8 : Nat) : Int), src.ebits, c * src.ebits % 8))
  match vaCheck s ctx va ((bits + 7) / 8) .read with
  | (s, .ok pa) => (let g := physGet s pa ((bits + 7) / 8); (g.1, .ok (nfld (leNat g.2.1) sh bits, g.2.2, pa)))
  | (s, .err e) => (s, .err e)
  | (s, .wait) => (s, .wait)

/-- R38: read `k` successive elements of the source walk: their codes, their poison, and the lines they lie in. -/
def copyReads (s : State) (ctx : Nat) (src : Desc) (scale : Bool) (i : Nat) : Nat → State × MemRes (List Nat × Bool × List Nat)
  | 0 => (s, .ok ([], false, []))
  | k + 1 =>
    match copyRead s ctx src scale i with
    | (s, .ok (c, p, a)) =>
      (match copyReads s ctx src scale (i + 1) k with
       | (s, .ok (cs, q, ls)) => (s, .ok (c :: cs, p || q, ninsert (a / 64) ls))
       | (s, .err e) => (s, .err e)
       | (s, .wait) => (s, .wait))
    | (s, .err e) => (s, .err e)
    | (s, .wait) => (s, .wait)

/-- R38, R385: make one move: bit patterns unchanged, poison carried; the half byte beyond an odd T4 row keeps its bits. Each source line is asked for once (R232). -/
def copyMove (s : State) (core ctx : Nat) (src dst : Desc) (m : CopyMove) : State × MemRes Unit :=
  match copyReads s ctx src m.scale m.first m.count with
  | (s, .ok (cs, p, ls)) =>
    let s := ls.foldl (fun s l => moveLines s (srcBulk s core ctx (!src.noAlloc)) (l * 64) 64 false) s
    let bits := if m.scale then 8 else dst.ebits
    let n := (m.count * bits + 7) / 8
    let whole : State × MemRes (List Byte) :=
      if m.count * bits % 8 = 0 then (s, .ok (leBytes n (joinCodes bits cs)))
      else
        match vaCheck s ctx (m.va + n - 1) 1 .write with
        | (s, .ok pa) => (s, .ok (leBytes n (joinCodes bits (cs ++ [(memByte s pa).toNat / 16]))))
        | (s, .err e) => (s, .err e)
        | (s, .wait) => (s, .wait)
    (match whole with
     | (s, .ok bs) =>
       (match vaPut s (srcBulk s core ctx (!dst.noAlloc)) m.va bs with
        | (s, .ok ()) => (if p then vaPoison s ctx m.va n else s, .ok ())
        | (s, .err e) => (s, .err e)
        | (s, .wait) => (s, .wait))
     | (s, .err e) => (s, .err e)
     | (s, .wait) => (s, .wait))
  | (s, .err e) => (s, .err e)
  | (s, .wait) => (s, .wait)

/-- R38: make the moves of a request in order: how many were made, and the error that stopped it. -/
def copyRun (s : State) (ctx : Nat) (r : CopyReq) : List CopyMove → State × Nat × Option (AccErr × Nat)
  | [] => (s, 0, none)
  | m :: ms =>
    match copyMove s r.core ctx r.src r.dst m with
    | (s', .ok ()) => let q := copyRun s' ctx r ms; (q.1, q.2.1 + 1, q.2.2)
    | (_, .err e) => (s, 0, some (e, m.tile))
    | (_, .wait) => (s, 0, none)

/-- R38, R44: the lines landed by the first `k` of a list of moves; moves that follow one another in the same 64-byte line land as one (log 57). -/
def linesLanded : Nat → List CopyMove → Nat
  | 0, _ => 0
  | _, [] => 0
  | _, [_] => 1
  | k + 1, m :: m' :: ms => (if m.va / 64 = m'.va / 64 then 0 else 1) + linesLanded k (m' :: ms)

/-- R38, R328: a request that a copy engine may serve: neither it nor an earlier request of the same thread is set aside. -/
def copyReady (c : Cpe) (r : CopyReq) : Bool :=
  !(c.reqs.takeWhile (fun x => x != r)).any (fun x => x.core == r.core && x.gen == r.gen && x.aside) && !r.aside

/-- R38: the next core to serve, round-robin after the last served: the first request of each core that may be served. -/
def copyNext (s : State) (c : Cpe) : Option CopyReq :=
  let ready := c.reqs.filter (copyReady c)
  (List.range (2 * nCores s)).findSome? (fun i => ready.find? (fun r => r.core == (c.last + 1 + i) % (2 * nCores s)))

/-- R38, R50: a copy engine moves the lines of a COPY request; a line that faults stops the request there and sets it aside with the faulted context; a thread already stopped learns of it when it goes on. A request whose thread is gone ends at its fault. -/
def copyServe (s : State) (cpe : Nat) (c : Cpe) (r : CopyReq) : State :=
  let moves := (copyMoves r.dst).drop r.line
  let q := copyRun s r.ctx r moves
  let made := q.2.1
  let s' := { q.1 with landing := q.1.landing ++ List.replicate (linesLanded made moves) (cpe, r.core, r.gen, r.cnt) }
  let upd (rs : List CopyReq) : State :=
    { s' with cpes := sset cpe0 s'.cpes cpe { c with reqs := rs, last := r.core } }
  let n := th s r.core
  if q.2.2.isSome && n.gen == r.gen && n.phase == .atomic then s
  else if made = moves.length ∨ (q.2.2.isSome ∧ !(n.gen == r.gen && n.phase != .idle) ∧ !s.images.any (fun im => im.key == r.core && im.th.gen == r.gen)) then
    upd (c.reqs.filter (fun x => x ≠ r))
  else
    let r' := { r with line := r.line + made, aside := q.2.2.isSome }
    let s' := upd (c.reqs.map (fun x => if x = r then r' else x))
    match q.2.2 with
    | none => s'
    | some (e, tile) =>
      if n.gen = r.gen ∧ n.phase ≠ .idle ∧ n.phase ≠ .fault then
        streamFault s' r.core 6 r.sds (tileCode e).1 (tileCode e).2 tile
      else s'

/-- R44, R247, R248: a line that a copy engine moved becomes visible, once what it invalidated is acknowledged, and counts. -/
def execCopyLineLanded (cpe : Nat) (s : State) : Out :=
  .next (match s.landing.find? (fun l => l.1 == cpe) with
    | none => s
    | some l => if !issuing s || !acked s l.2.1 then s else arrive { s with landing := s.landing.erase l } l.2.1 l.2.2.1 l.2.2.2)

end Sys2Proof.Machine
end

