-- ==== Sys2Proof/Machine/Accum.lean ====
section
/-! DEFINITION. The wide accumulators (R104-R108, R118, R119): products and partials added exactly, what a readout of an element may give, and saving an accumulator (R120). -/

namespace Sys2Proof.Machine

/-- R108, R118: add one product to an element; `k` is its combined block-scale exponent. -/
def AccEl.prod (el : AccEl) (x y : Fp) (k : Int) : AccEl :=
  let el := { el with n := el.n + 1, kmin := if el.n = 0 then k else min el.kmin k, kmax := if el.n = 0 then k else max el.kmax k }
  if x.isNan || y.isNan then { el with nanOp := true }
  else
    match fMul x y with
    | .nan => { el with nanP := true }
    | .inf neg => if neg then { el with ninf := true } else { el with pinf := true }
    | p => { el with sum := el.sum.add p.dy, abs := el.abs.add p.abs.dy }

/-- R108, R124: add a value exactly: an initial partial, or a summand. -/
def AccEl.addVal (el : AccEl) (v : Fp) : AccEl :=
  match v with
  | .nan => { el with nanOp := true }
  | .inf neg => if neg then { el with ninf := true } else { el with pinf := true }
  | v => { el with sum := el.sum.add v.dy }

/-- R104: add a summand of a reduction: exactly, with its magnitude. -/
def AccEl.addTerm (el : AccEl) (v : Fp) : AccEl :=
  { el.addVal v with abs := el.abs.add v.abs.dy, n := el.n + 1 }

/-- R108: what the flags of an element make of its sum; none when the finite sum decides. -/
def AccEl.special (el : AccEl) : Option Fp :=
  if el.nanOp || el.nanP || (el.pinf && el.ninf) then some .nan
  else if el.pinf then some (.inf false)
  else if el.ninf then some (.inf true)
  else none

/-- R108: one NaN is counted for a NaN result when no operand was a NaN. -/
def AccEl.newNan (el : AccEl) : Nat :=
  if !el.nanOp && (el.nanP || (el.pinf && el.ninf)) then 1 else 0

/-- R107, R118: an element reads out exactly: an exact pass whose block scales spread by at most 20. -/
def AccEl.isExact (el : AccEl) (windowed : Bool) : Bool := !windowed && el.kmax - el.kmin ≤ 20

/-- R104: the sum as the window holds it: off by a free amount of at most 2^-100 of the magnitudes (log 8). -/
def AccEl.window (el : AccEl) (ix : Nat) : Dy :=
  let c : Int := (Config.freeBits 64 ix).toInt
  el.sum.add (el.abs.mul ⟨c, -163⟩)

/-- R104: a free binary32 value, if it lies within 1 ulp of the sum plus 2^-100 of the magnitudes; else the nearest one (log 8). -/
def AccEl.near32 (el : AccEl) (ix : Nat) : Fp :=
  let cand := f32 (Config.freeBits 32 ix).toNat
  let bound : Dy := (Dy.mk 1 (ulpExp fmtFP32 cand.dy)).add (el.abs.scale (-100))
  if cand.isFin && ((cand.dy.add el.sum.neg).abs).le bound then cand
  else f32 (to32 el.sum.toFp)

/-- R104, R105, R108, R110: the value that a readout converts to its output format: exact, or within the bound of a windowed pass. -/
def AccEl.value (el : AccEl) (windowed stoch : Bool) (ix : Nat) : Fp :=
  match el.special with
  | some v => v
  | none =>
    if el.isExact windowed then el.sum.toFp
    else if stoch then (el.window ix).toFp
    else el.near32 ix

/-- R106: the high and low binary32 parts of an element: the partial rounded to nearest, and the remainder. -/
def AccEl.pair (el : AccEl) (windowed : Bool) (ix : Nat) : Fp × Fp :=
  match el.special with
  | some v => (v, .fin false 0 0)
  | none =>
    let v := if el.isExact windowed then el.sum else el.window ix
    let hi := f32 (to32 v.toFp)
    match hi with
    | .fin _ _ _ => (hi, f32 (to32 (v.add hi.dy.neg).toFp))
    | h => (h, .fin false 0 0)

/-- R119, R105, R106: close a pass: round the element to binary32, or to a pair in PRECISION, and go on from that value exactly. -/
def AccEl.close (el : AccEl) (windowed prec : Bool) (ix : Nat) : AccEl :=
  let base : AccEl := { accEl0 with nanOp := el.nanOp, nanP := el.nanP, pinf := el.pinf, ninf := el.ninf }
  match el.special with
  | some _ => base
  | none =>
    if prec then
      let p := el.pair windowed ix
      (base.addVal p.1).addVal p.2
    else base.addVal (f32 (to32 (el.value windowed false ix)))

/-- R120: an accumulator as the save image holds it: each element a high and low pair, added exactly on restore. -/
def Acc.save (a : Acc) (ix : Nat) : Acc :=
  { a with els := a.els.map (fun kv => (kv.1, kv.2.close a.windowed true (ix + kv.1))) }

/-- The accumulator `i` of a core. -/
def accOf (n : NCore) (i : Nat) : Acc := sget acc0 n.acc i

/-- Replace accumulator `i` of a core. -/
def setAcc (n : NCore) (i : Nat) (a : Acc) : NCore := { n with acc := sset acc0 n.acc i a }

/-- Set the holder of accumulators (R131). -/
def setOwner (n : NCore) (is : List Nat) (o : Nat) : NCore :=
  is.foldl (fun n i => setAcc n i { accOf n i with owner := o }) n

/-- Use up `k` free values. -/
def spend (s : State) (k : Nat) : State := { s with free := s.free + k }

end Sys2Proof.Machine
end

