-- ==== Sys2Proof/Machine/Matrix.lean ====
section
/-! DEFINITION. The MATRIX station and class (R113-R125, R130): settings, stationary banks and swaps, activation tiles, passes and readouts. -/

namespace Sys2Proof.Machine

/-- R123: the settings of MXPASS. -/
structure MxCfg where
  acc : Nat
  g : Nat
  ksteps : Nat
  ofmt : Nat
  oscaled : Bool
  spill : Bool
  num : NumCtl
  init : Nat
  noswap : Bool
  deriving DecidableEq, Repr

/-- R123: read the fields of MXPASS; the basic form ignores the E fields. -/
def mxCfg (imm : Half) (expert : Bool) : MxCfg :=
  let w := imm.toNat
  let e := if expert then w else 0
  ⟨nfld w 0 2, 2 ^ nfld w 2 2, nfld w 4 6 + 1, nfld w 10 4, nfld w 14 1 == 1, nfld w 15 1 == 1,
   (numCtl (nfld e 16 6)).getD numCtl0, nfld e 22 2, nfld e 24 1 == 1⟩

/-- R34, R100, R123: an MXPASS word that breaks no rule of the table. -/
def mxOk (imm : Half) (expert : Bool) : Bool :=
  let w := imm.toNat
  nfld w 2 2 ≠ 3 && nfld w 0 2 % 2 ^ nfld w 2 2 == 0 && nfld w 10 4 ≤ 5 && nfld w 25 7 == 0 &&
  (nfld w 15 1 == 0 || (nfld w 10 4 == 5 && nfld w 14 1 == 0)) && (nfld w 14 1 == 0 || nfld w 10 4 ≤ 2) &&
  (!expert || ((numCtl (nfld w 16 6)).isSome && nfld w 22 2 ≠ 3))

/-- R122: the accumulators of a group. -/
def MxCfg.group (c : MxCfg) : List Nat := (List.range c.g).map (fun i => c.acc + i)

/-- R35, R122, R128, R144, R155: issue a class instruction: it retires and goes to its station, where it takes effect in order. -/
def sendClass (put : NCore → ClassIns → NCore) (ci : ClassIns) (key : Nat) (s : State) : Res :=
  .done (setNc s key (put (nc s key) ci))

/-- Put a class instruction on its way to MATRIX. -/
def toMx (n : NCore) (ci : ClassIns) : NCore := { n with mxIn := n.mxIn ++ [ci] }

/-- R122, R123: issue MXPASS. -/
def mxPass (t : Tid) (o : Opnds) (expert : Bool) (s : State) : Out :=
  insnW s t o 0x09 none (some ⟨0, 0, imAll⟩) (mxOk o.imm expert) (sendClass toMx ⟨9, if expert then 1 else 0, 0, 0, o.imm, []⟩)

/-- R123: MXPASS.B. -/
def execMxpassB (t : Tid) (o : Opnds) (s : State) : Out := mxPass t o false s
/-- R123: MXPASS.E. -/
def execMxpassE (t : Tid) (o : Opnds) (s : State) : Out := mxPass t o true s

/-- R117, R122: MXSWAP. -/
def execMxswap (t : Tid) (o : Opnds) (s : State) : Out :=
  insn s t o 0x09 (some ⟨0, 0, 0, 0, 0⟩) none (sendClass toMx ⟨9, 2, 0, 0, 0, []⟩)

/-- R122, R124: MXEND. -/
def execMxend (t : Tid) (o : Opnds) (s : State) : Out :=
  insn s t o 0x09 (some ⟨0, 0, 0, 0, 0⟩) none (sendClass toMx ⟨9, 4, 0, 0, 0, []⟩)

/-- R117: exchange the banks: the shadow bank becomes the active one. -/
def Matrix.swap (m : Matrix) : Matrix := { m with bankSel := 1 - m.bankSel, shadowFull := false }

/-- R117: make the MXSWAPs that a full shadow bank allows. -/
def Matrix.doSwaps (m : Matrix) : Matrix := if 0 < m.swaps ∧ m.shadowFull then { m.swap with swaps := m.swaps - 1 } else m

/-- R117: the active block; none when its bank was never loaded. -/
def Matrix.active (m : Matrix) : Option Tile := if m.bankSel = 0 then m.bank0 else m.bank1

/-- R124: begin reading out the open pass. -/
def Matrix.startRead (m : Matrix) (last : Bool) : Matrix := { m with reading := true, lastRead := last }

/-- R124: the state between passes. -/
def Matrix.endPass (m : Matrix) : Matrix :=
  { m with opened := false, partials := 0, blocks := 0, kstep := 0, rot := 0, swapped := false, m := 0, n := 0,
           reading := false, lastRead := false }

/-- R124, R125: an accumulator is still being read out: a tile of it has not left. -/
def Matrix.leaving (m : Matrix) (i : Nat) : Bool := m.out.any (fun (e : Nat × Tile) => e.1 == i)

/-- R125: accumulators of a group held by another station. -/
def heldByOther (n : NCore) (g : List Nat) (me : Nat) : Bool :=
  g.any (fun i => let o := (accOf n i).owner; o != 0 && o != me)

/-- R117, R124, R125: a MATRIX-class instruction takes effect at its station; false while it must wait. MXPASS ends the open pass, waits until it has been read out, and the blocks of the passes to come are counted anew. -/
def mxTake (n : NCore) (ci : ClassIns) : NCore × Bool :=
  if ci.op = 2 then ({ n with mx := { n.mx with swaps := n.mx.swaps + 1 }.doSwaps }, true)
  else if ci.op = 4 then
    (if n.mx.reading then (n, false)
     else if n.mx.opened then ({ n with mx := n.mx.startRead false }, true)
     else (n, true))
  else
    let expert := ci.op == 1
    if n.mx.reading || !n.mx.out.isEmpty then (n, false)
    else if n.mx.opened then ({ n with mx := n.mx.startRead false }, false)
    else if heldByOther n (mxCfg ci.imm expert).group 1 then (n, false)
    else ({ n with mx := { n.mx with cfg := some (ci.imm, expert), blocks := 0 } }, true)

/-- R35, R42: a station that faces the tiles of a port takes one only when no earlier class instruction waits there. -/
def mxFree (s : State) (core : Nat) : Bool := stationsRun s core && (nc s core).mxIn.isEmpty

/-- R124: the partial tiles a pass takes first. -/
def MxCfg.partialsNeeded (c : MxCfg) : Nat := match c.init with | 0 => 0 | 1 => c.g | _ => 2 * c.g

/-- R99: flush the subnormal elements of a binary32 tile, counting them. -/
def flush32 (t : Tile) : Tile × Nat :=
  if t.fmt ≠ 5 then (t, 0)
  else
    let sub (x : Nat) : Bool := nfld x 23 8 == 0 && x % 2 ^ 23 ≠ 0
    ({ t with els := t.els.map (fun x => if sub x then (if x.testBit 31 then 2 ^ 31 else 0) else x) }, (t.els.filter sub).length)

/-- R113, R125: a pass opens on its group's accumulators. -/
def mxOpen (n : NCore) (c : MxCfg) : NCore :=
  if n.mx.opened then n
  else
    let n := c.group.foldl (fun n i => setAcc n i { acc0 with owner := 1 }) n
    { n with mx := { n.mx with opened := true } }

/-- R114: the operand class of a format. -/
def opClass (fmt : Nat) : Nat := if fmt ≤ 2 then 0 else if fmt ≤ 4 then 1 else 2

/-- R124: a MATRIX.s tile is an initial partial of the pass that is open or about to open. -/
def isPartial (n : NCore) (c : MxCfg) : Bool := n.mx.partials < c.partialsNeeded

/-- R124: the accumulator of the next initial partial. -/
def nextPartial (n : NCore) (c : MxCfg) : Nat := c.acc + (if c.init = 1 then n.mx.partials else n.mx.partials / 2)

/-- R115, R124: an initial partial is an unscaled binary32 tile of its accumulator's rows and the pass's columns. -/
def partialOk (n : NCore) (c : MxCfg) (t : Tile) : Bool :=
  let rows := if n.mx.opened then (accOf n (nextPartial n c)).rows else 0
  t.fmt == 5 && !t.scaled && (rows == 0 || rows == t.rows) && (n.mx.n == 0 || n.mx.n == t.cols) &&
  (!c.oscaled || t.cols == 32 || t.cols == 64)

/-- R124: take an initial partial into its accumulator: exactly, of the pass's shape. -/
def takePartial (n : NCore) (c : MxCfg) (t : Tile) : NCore :=
  let i := nextPartial n c
  let n := mxOpen n c
  let a := accOf n i
  let els := (List.range t.rows).foldl (fun els r => (List.range t.cols).foldl (fun els j =>
    smod accEl0 els (r * 64 + j) (fun el => el.addVal (t.val r j))) els) a.els
  let n := setAcc n i { a with els := els, rows := t.rows, cols := t.cols }
  { n with mx := { n.mx with partials := n.mx.partials + 1, m := t.rows, n := t.cols } }

/-- R117, R124: MATRIX takes the next MATRIX.s tile: an initial partial into its accumulator, or a stationary block into the shadow bank. -/
def execMatrixStationaryTile (core : Nat) (s : State) : Out :=
  .next (if !mxFree s core then s
    else
      let n := nc s core
      match n.mx.cfg, peekTile n pMxS with
      | some (imm, expert), some (st, t) =>
        let c := mxCfg imm expert
        let stop (a b : Nat) : State := consumeFault s core 2 st (st.took pMxS) a b
        match tileStop pMxS t with
        | some (a, b) => stop a b
        | none =>
          if isPartial n c then
            (if n.mx.reading || n.mx.leaving (nextPartial n c) || heldByOther n c.group 1 then s
             else if partialOk n c t then stationTook (setNc s core (takePartial n c t)) core pMxS st t
             else stop 0x10 0x21)
          else if n.mx.shadowFull || (c.init ≠ 0 && !c.noswap && c.ksteps ≤ n.mx.blocks) then s
          else if t.scaled && !t.axis then stop 0x10 0x22
          else
            let (t', fl) := flush32 t
            let mx := if n.mx.bankSel = 0 then { n.mx with bank1 := some t', flush1 := fl } else { n.mx with bank0 := some t', flush0 := fl }
            let mx := { mx with shadowFull := true, blocks := mx.blocks + 1 }.doSwaps
            stationTook (setNc s core { n with mx := mx }) core pMxS st t
      | _, _ => s)

/-- R113, R114: the products of an activation tile and the active block, added into an accumulator. -/
def multiply (a : Acc) (t w : Tile) : Sparse AccEl :=
  (List.range t.rows).foldl (fun els i => (List.range w.cols).foldl (fun els j =>
    smod accEl0 els (i * 64 + j) (fun el => (List.range t.cols).foldl (fun el k =>
      el.prod (t.val i k) (w.val k j) (t.scaleExp i k + w.scaleExp k j)) el)) els) a.els

/-- R115, R130: what is wrong with an activation tile against the active block and its accumulator. -/
def activationFault (n : NCore) (c : MxCfg) (a : Acc) (t : Tile) : Option Nat :=
  let ncols := match n.mx.active with | some w => w.cols | none => 64
  let pair : Bool := match n.mx.active with | some w => opClass w.fmt != opClass t.fmt | none => false
  let inner : Bool := match n.mx.active with | some w => w.rows != t.cols | none => false
  if pair then some 0x20
  else if inner || (a.rows ≠ 0 && a.rows ≠ t.rows) || (n.mx.n ≠ 0 && n.mx.n ≠ ncols) ||
    (c.oscaled && ncols ≠ 32 && ncols ≠ 64) then some 0x21
  else if t.scaled && t.axis then some 0x22
  else none

/-- R124: whether MATRIX may take an activation tile now, after the swaps that fall before it; none while it waits. -/
def beforeActivation (n : NCore) (c : MxCfg) : Option NCore :=
  if n.mx.reading || n.mx.leaving (c.acc + n.mx.rot) || heldByOther n c.group 1 || isPartial n c then none
  else
    let n := { n with mx := n.mx.doSwaps }
    if 0 < n.mx.swaps then none
    else if n.mx.rot = 0 ∧ !n.mx.swapped ∧ !c.noswap then
      (if n.mx.shadowFull then some { n with mx := { n.mx.swap with swapped := true } } else none)
    else some n

/-- R121: the flushes that the active block owes, taken once. -/
def Matrix.takeBankFlush (m : Matrix) : Nat × Matrix :=
  if m.bankSel = 0 then (m.flush0, { m with flush0 := 0 }) else (m.flush1, { m with flush1 := 0 })

/-- R113, R118, R121, R124: an activation tile's products land in its accumulator, and the rotation and the K steps move on. -/
def activate (n : NCore) (c : MxCfg) (t : Tile) : NCore :=
  let n := mxOpen n c
  let (t', fl) := flush32 t
  let i := c.acc + n.mx.rot
  let a := accOf n i
  let ncols := match n.mx.active with | some w => w.cols | none => 64
  let els := match n.mx.active with | some w => multiply a t' w | none => a.els
  let n := setAcc n i { a with els := els, rows := t.rows, cols := ncols, windowed := a.windowed || opClass t.fmt ≠ 0, flush := a.flush + fl }
  let (bf, mx) := n.mx.takeBankFlush
  let a0 := accOf n c.acc
  let n := setAcc n c.acc { a0 with flush := a0.flush + bf }
  let mx := { mx with m := t.rows, n := ncols }
  let stepEnds := t.last || mx.rot + 1 = c.g
  let mx := if stepEnds then { mx with rot := 0, kstep := mx.kstep + 1, swapped := false } else { mx with rot := mx.rot + 1 }
  { n with mx := if stepEnds && (t.last || mx.kstep = c.ksteps) then mx.startRead t.last else mx }

/-- R116, R131: the ACLK in which the rows of an activation tile enter the array. A bank that was never loaded is of no class: then a free number (log 63). -/
def mxaAclk (n : NCore) (t : Tile) (ix : Nat) : Nat :=
  match n.mx.active with
  | none => Config.freeNat ix
  | some w => if t.fmt = 0 ∧ w.fmt = 0 then cdiv t.rows 4 else if t.fmt ≤ 2 then cdiv t.rows 2 else t.rows

/-- R113-R125, R131: MATRIX takes an activation tile into the array for its accumulator in the rotation. -/
def execMatrixActivationTile (core : Nat) (s : State) : Out :=
  .next (if !mxFree s core then s
    else
      let n0 := nc s core
      match n0.mx.cfg, peekTile n0 pMxA with
      | some (imm, expert), some (st, t) =>
        let c := mxCfg imm expert
        let stop (a b : Nat) : State := consumeFault s core 2 st (st.took pMxA) a b
        (match tileStop pMxA t with
         | some (a, b) => stop a b
         | none =>
           match beforeActivation n0 c with
           | none => s
           | some n =>
             match activationFault n c (if n.mx.opened then accOf n (c.acc + n.mx.rot) else acc0) t with
             | some sub => stop 0x10 sub
             | none =>
               let s := addDiv (spend s 1) (R.NCO_ENGINE_BUSY (halfOf s core) (dieCore s core)) 0 32 64 (mxaAclk n t s.free)
               stationTook (setNc s core (activate n c t)) core pMxA st t)
      | _, _ => s)

/-- R124: the values of an accumulator in row-major order, from free values starting at `ix`. -/
def accValues (a : Acc) (rows cols : Nat) (stoch : Bool) (ix : Nat) : List Fp :=
  (List.range rows).flatMap (fun i => (List.range cols).map (fun j =>
    (sget accEl0 a.els (i * 64 + j)).value a.windowed stoch (ix + i * 64 + j)))

/-- R124: the high or low parts of an accumulator in row-major order. -/
def accPairs (a : Acc) (rows cols : Nat) (low : Bool) (ix : Nat) : List Fp :=
  (List.range rows).flatMap (fun i => (List.range cols).map (fun j =>
    let p := (sget accEl0 a.els (i * 64 + j)).pair a.windowed (ix + i * 64 + j)
    if low then p.2 else p.1))

/-- R108: the NaNs an accumulator's readout produces. -/
def accNans (a : Acc) (rows cols : Nat) : Nat :=
  ((List.range rows).flatMap (fun i => (List.range cols).map (fun j => (sget accEl0 a.els (i * 64 + j)).newNan))).sum

/-- R121: counts of a readout go to the context at production: NaNs, and flushes beyond what a header holds. -/
def readoutCounts (s : State) (ctx : Nat) (c : Cnt) (nans flush : Nat) : State :=
  countNum s ctx ⟨0, nsub flush 4096, nans + c.nan⟩

/-- R105, R106, R121, R124, R132: read out one accumulator as its tile, or as a high and a low tile; a parity error of it, or of an element or cell that fed it, marks them poisoned. -/
def readAcc (s : State) (ctx : Nat) (c : MxCfg) (n : NCore) (bad i : Nat) : State × List (Nat × Tile) :=
  let a := accOf n i
  let rows := if a.rows = 0 then n.mx.m else a.rows
  let cols := if a.cols = 0 then n.mx.n else a.cols
  let ix := s.free
  let nans := accNans a rows cols
  let mark (t : Tile) : Nat × Tile := (i, { t with poison := a.poison || bad.testBit i })
  if c.spill && precision s then
    let hi := outTile 5 false numCtl0 (0, 0) rows cols (min a.flush 4096) (accPairs a rows cols false ix)
    let lo := outTile 5 false numCtl0 (0, 0) rows cols 0 (accPairs a rows cols true ix)
    (readoutCounts (spend s 4096) ctx cnt0 nans a.flush, [mark hi.1, mark lo.1])
  else
    let (kc, s) := takeFor c.num ctx s
    let q := outTile c.ofmt c.oscaled c.num kc rows cols (min a.flush 4096) (accValues a rows cols c.num.stoch ix)
    (readoutCounts (spend s 4096) ctx q.2 nans a.flush, [mark q.1])

/-- Read out accumulators in group order. -/
def readAccs (s : State) (ctx : Nat) (c : MxCfg) (n : NCore) (bad : Nat) : List Nat → State × List (Nat × Tile)
  | [] => (s, [])
  | i :: is =>
    let r := readAcc s ctx c n bad i
    let q := readAccs r.1 ctx c n bad is
    (q.1, r.2 ++ q.2)

/-- R42: push waiting output tiles into the stream at a port, as far as its queue has room: the station and the tiles left. -/
def drain (n : NCore) (p : Port) : List Tile → NCore × List Tile
  | [] => (n, [])
  | t :: ts => if hasRoom n p then drain (pushTile n p t) p ts else (n, t :: ts)

/-- R124: LAST goes on the final tile of a readout that LAST caused. -/
def markLast (last : Bool) : List (Nat × Tile) → List (Nat × Tile)
  | [] => []
  | [e] => [(e.1, { e.2 with last := last })]
  | e :: es => e :: markLast last es

/-- R124: the pass to be read out becomes the tiles that are to leave, and its accumulators are cleared; the next pass begins. -/
def mxRead (s : State) (core bad : Nat) (c : MxCfg) : State :=
  let n := nc s core
  let r := readAccs s (th s core).ctx c n bad c.group
  let n := c.group.foldl (fun n i => setAcc n i { acc0 with owner := 1 }) n
  setNc r.1 core { n with mx := { n.mx.endPass with out := n.mx.out ++ markLast n.mx.lastRead r.2 } }

/-- R124, R125: tiles leave for MATRIX.p as far as its stream has room; an accumulator whose last tile has left is free, unless the next pass holds it. -/
def mxLeave (n : NCore) (c : MxCfg) : NCore :=
  let q := drain n pMxP (n.mx.out.map (·.2))
  let rest := n.mx.out.drop (n.mx.out.length - q.2.length)
  let n' := { q.1 with mx := { q.1.mx with out := rest } }
  let gone := (n.mx.out.map (·.1)).filter (fun i => !n'.mx.leaving i && !(n'.mx.opened && c.group.contains i))
  setOwner n' gone 0

/-- R124, R125, R132: the open pass is read out to MATRIX.p: its accumulators are cleared as they are read and stay held until their last tile has left; the readout waits while the stream is full. `who.bad` has a bit for each accumulator whose result a parity error spoilt. -/
def execMatrixReadout (who : AccRead) (s : State) : Out :=
  .next (if !stationsRun s who.core then s
    else
      match (nc s who.core).mx.cfg with
      | none => s
      | some (imm, expert) =>
        let c := mxCfg imm expert
        let s := if (nc s who.core).mx.reading then mxRead s who.core who.bad c else s
        setNc s who.core (mxLeave (nc s who.core) c))

end Sys2Proof.Machine
end

