-- ==== Sys2Proof/Machine/Hazard.lean ====
section
/-! DEFINITION. The settings of TRSET and RDU.OP (R128, R155) and the element-register hazards between them and the users of element registers (R129, R145, R146). -/

namespace Sys2Proof.Machine

/-- R128: the settings of TRSET. -/
structure TrCfg where
  v : Nat
  ebase : Nat
  kt : Nat
  acc : Nat
  ofmt : Nat
  afmt : Nat
  accum : Bool
  read : Bool
  num : NumCtl
  odest : Bool
  d : Nat
  deriving DecidableEq, Repr

/-- R126, R128: the format of an AFMT code. -/
def afmtCode : Nat → Nat | 0 => 3 | 1 => 4 | 2 => 1 | _ => 2

/-- R128: read the fields of TRSET; the basic form ignores the E fields. -/
def trCfg (imm : Half) (d : Nat) (expert : Bool) : TrCfg :=
  let w := imm.toNat
  let e := if expert then w else 0
  ⟨nfld w 0 4 + 1, nfld w 4 5, nfld w 9 6 + 1, nfld w 15 2, nfld w 17 4, afmtCode (nfld w 21 2), nfld w 23 1 == 1, nfld w 24 1 == 1,
   (numCtl (nfld e 25 6)).getD numCtl0, nfld e 31 1 == 1, d⟩

/-- R126: registers of one activation vector. -/
def TrCfg.rv (c : TrCfg) : Nat := cdiv (c.kt * 64 * (codeBits c.afmt).getD 16) 2048

/-- R128: the settings in force at TRESTLE. -/
def trNow (n : NCore) : Option TrCfg := n.tr.cfg.map (fun c => trCfg c.1 c.2.1 c.2.2)

/-- R126: the element registers that a sweep reads. -/
def TrCfg.sources (c : TrCfg) (i : Nat) : Bool := c.ebase ≤ i && i < c.ebase + c.v * c.rv

/-- R129: registers of one vector's results. -/
def TrCfg.ro (c : TrCfg) (rows : Nat) : Nat := cdiv (rows * (codeBits c.ofmt).getD 32) 2048

/-- R129: the element registers that a readout of `rows` rows writes. -/
def TrCfg.dests (c : TrCfg) (rows i : Nat) : Bool := c.odest && c.d ≤ i && i < c.d + c.v * c.ro rows

/-- R129: an element register that an open sweep reads; a sweep that is read out because it is full stays open. -/
def sweepReads (n : NCore) (i : Nat) : Bool :=
  (n.tr.sweep || (n.tr.reading && n.tr.cap)) && (match trNow n with | some c => c.sources i | none => false)

/-- R42: a stream with tiles to come is bound to an input port. -/
def fed (n : NCore) (p : Port) : Bool := (consuming n p).isSome

/-- R129: an element register that a readout of TRESTLE, under way or to come, will write. -/
def trWrites (n : NCore) (i : Nat) : Bool :=
  (match trNow n with
   | some c =>
     if n.tr.reading then c.dests (accOf n c.acc).rows i
     else c.read && c.dests (4096 / c.v) i && (n.tr.sweep || (!n.tr.used && fed n pTr))
   | none => false) ||
  (fed n pTr && n.trIn.any (fun ci => ci.op ≠ 4 && (let c := trCfg ci.imm ci.d (ci.op == 1); c.read && c.dests (4096 / c.v) i)))

/-- R155: the settings of RDU.OP. -/
structure RdCfg where
  op : Nat
  row : Bool
  span : Nat
  acc : Nat
  ofmt : Nat
  link : Bool
  rdest : Bool
  noout : Bool
  num : NumCtl
  d : Nat
  deriving DecidableEq, Repr

/-- R155: read the fields of RDU.OP; the basic form ignores the E fields. -/
def rdCfg (imm : Half) (d : Nat) (expert : Bool) : RdCfg :=
  let w := imm.toNat
  let e := if expert then w else 0
  ⟨nfld w 0 4, nfld w 4 1 == 1, nfld w 5 7, nfld w 12 2, nfld w 14 4, nfld e 18 1 == 1, nfld e 19 1 == 1, nfld e 20 1 == 1,
   (numCtl (nfld e 21 6)).getD numCtl0, d⟩

/-- R147: the operation gives a pair. -/
def rdPair (op : Nat) : Bool := op == 8 || op == 9
/-- R147: the operation gives an index. -/
def rdArg (op : Nat) : Bool := op == 6 || op == 7

/-- R155: the settings of the open operation of REDUCE. -/
def rdNow (n : NCore) : Option RdCfg := n.rd.op.map (fun c => rdCfg c.1 c.2.1 c.2.2)

/-- R153: the element registers that the results of an operation go to. -/
def RdCfg.dests (c : RdCfg) (i : Nat) : Bool := c.rdest && (i == c.d || (rdPair c.op && i == c.d + 1))

/-- R152: results that hold the link buffer. -/
def linkCount (n : NCore) : Nat := (n.rd.links.filter (fun l => l.members.isSome)).length

/-- R145, R153: an element register that a readout of REDUCE, of the open group or of an operation yet to begin, will write. -/
def rdWrites (n : NCore) (i : Nat) : Bool :=
  (match rdNow n with
   | some c => c.dests i && (n.rd.tiles ≠ 0 || (!n.rd.used && fed n pRd))
   | none => false) ||
  (fed n pRd && n.rdIn.any (fun ci => ci.op ≠ 4 && (rdCfg ci.imm ci.d (ci.op == 1)).dests i))

/-- R129, R145: an element register that a pending readout will write. -/
def pendingWrites (n : NCore) (i : Nat) : Bool := trWrites n i || rdWrites n i

end Sys2Proof.Machine
end

