-- ==== Sys2Proof/Machine/Trestle.lean ====
section
/-! DEFINITION. The TRESTLE station and class (R119, R121, R125-R130): sweeps of weight tiles past activation vectors held in element registers. -/

namespace Sys2Proof.Machine

/-- R100, R128: a TRSET word that breaks no rule of the table. -/
def trOk (imm : Half) (d : Nat) (expert : Bool) : Bool :=
  let c := trCfg imm d expert
  c.ofmt ≤ 5 && c.ebase + c.v * c.rv ≤ 32 && (!expert || (numCtl (nfld imm.toNat 25 6)).isSome) &&
  (if expert && c.odest then d < 32 else d == 0)

/-- Put a class instruction on its way to TRESTLE. -/
def toTr (n : NCore) (ci : ClassIns) : NCore := { n with trIn := n.trIn ++ [ci] }

/-- R128: issue TRSET. -/
def trSet (t : Tid) (o : Opnds) (expert : Bool) (s : State) : Out :=
  insnW s t o 0x0A none (some ⟨64, 0, imAll⟩) (trOk o.imm o.d.toNat expert)
    (sendClass toTr ⟨0xA, if expert then 1 else 0, o.d.toNat, 0, o.imm, []⟩)

/-- R128: TRSET.B. -/
def execTrsetB (t : Tid) (o : Opnds) (s : State) : Out := trSet t o false s
/-- R128: TRSET.E. -/
def execTrsetE (t : Tid) (o : Opnds) (s : State) : Out := trSet t o true s

/-- R128: TREND. -/
def execTrend (t : Tid) (o : Opnds) (s : State) : Out :=
  insn s t o 0x0A (some ⟨0, 0, 0, 0, 0⟩) none (sendClass toTr ⟨0xA, 4, 0, 0, 0, []⟩)

/-- R129: the sweep ends: with READ, or at TREND, it is read out; else its pass stays open. -/
def Trestle.endSweep (r : Trestle) (read : Bool) : Trestle :=
  if read then { r with sweep := false, reading := true } else { r with sweep := false, tiles := 0, rowBase := 0 }

/-- R129: a TRSET waits because its sweep reads registers that the readout of the settings in force is still to write: the tiles that come meanwhile belong to those settings, up to their first whole row block (DEDUCED, log 64). -/
def trHazard (n : NCore) (ci : ClassIns) : Bool :=
  match trNow n with
  | some c => ci.op ≠ 4 && !n.tr.reading && c.read && (!n.tr.used || n.tr.tiles % c.kt ≠ 0) &&
      (List.range 32).any (fun i => (trCfg ci.imm ci.d (ci.op == 1)).sources i && c.dests 64 i)
  | none => false

/-- R125, R129: a TRESTLE-class instruction takes effect at its station; false while it must wait. -/
def trTake (n : NCore) (ci : ClassIns) : NCore × Bool :=
  if n.tr.reading || trHazard n ci then (n, false)
  else
    if ci.op = 4 then
      (if (trNow n).isSome && n.tr.sweep then ({ n with tr := n.tr.endSweep true }, true) else (n, true))
    else
      let n' := match trNow n with
        | some c => if n.tr.sweep then { n with tr := n.tr.endSweep c.read } else n
        | none => n
      if n'.tr.reading then (n', false)
      else
        let c := trCfg ci.imm ci.d (ci.op == 1)
        if heldByOther n' [c.acc] 2 then (n', false)
        else ({ n' with tr := { n'.tr with cfg := some (ci.imm, ci.d, ci.op == 1), used := false, tiles := 0, rowBase := 0 } }, true)

/-- R35, R129: TRESTLE takes a tile only when no earlier class instruction waits there, or only for that tile's sweep. -/
def trFree (s : State) (core : Nat) : Bool :=
  stationsRun s core && (match (nc s core).trIn with | [] => true | ci :: _ => trHazard (nc s core) ci)

/-- R59: element register `i`. -/
def er (n : NCore) (i : Nat) : BitVec 2048 := sget 0 n.e i

/-- R59: write element register `i`. -/
def setE (n : NCore) (i : Nat) (v : BitVec 2048) : NCore := { n with e := sset 0 n.e i v }

/-- R126: element `k` of activation vector `j`. -/
def vecElem (n : NCore) (c : TrCfg) (j k : Nat) : Fp :=
  let bits := (codeBits c.afmt).getD 16
  let per := 2048 / bits
  match fmtOfCode c.afmt with
  | some F => unpack F (nfld (er n (c.ebase + j * c.rv + k / per)).toNat (k % per * bits) bits)
  | none => .nan

/-- R119, R126: add the products of one weight tile into the accumulator, closing an element's pass before its 4,097th product. -/
def sweepTile (n : NCore) (c : TrCfg) (a : Acc) (t : Tile) (prec : Bool) (ix : Nat) : Sparse AccEl :=
  let kk := n.tr.tiles % c.kt
  (List.range t.rows).foldl (fun els r => (List.range c.v).foldl (fun els j =>
    smod accEl0 els ((n.tr.rowBase + r) * 16 + j) (fun el => (List.range t.cols).foldl (fun el k =>
      let el := if 4096 ≤ el.n then el.close a.windowed prec (ix + (n.tr.rowBase + r) * 16 + j) else el
      el.prod (t.val r k) (vecElem n c j (kk * 64 + k)) (t.scaleExp r k)) el)) els) a.els

/-- R125, R126: a trestle pass opens, or a sweep that does not accumulate starts it from zero. -/
def trOpen (n : NCore) (c : TrCfg) : NCore :=
  let n := if n.tr.sweep then n
    else if c.accum && (accOf n c.acc).owner == 2 then n
    else setAcc n c.acc { acc0 with owner := 2 }
  { n with tr := { n.tr with sweep := true, used := true } }

/-- R126, R130: what is wrong with a weight tile at its place in the sweep. -/
def weightFault (n : NCore) (c : TrCfg) (t : Tile) : Option Nat :=
  let kk := n.tr.tiles % c.kt
  let inBlock := kk ≠ 0
  if (t.cols ≠ 64 && kk + 1 ≠ c.kt) || (inBlock && n.tr.blk ≠ t.rows) then some 0x21
  else if t.scaled && t.axis then some 0x22
  else none

/-- R129: the sweep has filled its accumulator. -/
def sweepFull (n : NCore) (c : TrCfg) : Bool := n.tr.sweep && n.tr.tiles % c.kt == 0 && 4096 / (64 * c.v) ≤ n.tr.tiles / c.kt

/-- R127, R131: the ACLK in which TRESTLE takes the weights of a tile: at the full rate of its format, and a free number more where its source is slower. -/
def trpAclk (t : Tile) (ix : Nat) : Nat :=
  cdiv (t.rows * t.cols) (if t.fmt = 0 then 512 else if t.fmt ≤ 2 then 256 else 128) + Config.freeNat ix

/-- R119, R126, R129: a weight tile enters the open sweep. -/
def trAdd (n0 : NCore) (c : TrCfg) (st : Stream) (t : Tile) (prec : Bool) (ix : Nat) : NCore :=
  let n := trOpen n0 c
  let a := accOf n c.acc
  let a := { a with windowed := a.windowed || 2 < t.fmt || c.afmt == 3 || c.afmt == 4 }
  let els := sweepTile n c a t prec ix
  let top := n.tr.rowBase + t.rows
  let n := setAcc n c.acc { a with els := els, rows := max a.rows top }
  let lastSlice := n.tr.tiles % c.kt + 1 == c.kt
  let tr := { n.tr with tiles := n.tr.tiles + 1, rowBase := if lastSlice then top else n.tr.rowBase, blk := t.rows, lastSd := st.sd, lastIx := st.took pTr }
  { n with tr := if t.last then tr.endSweep c.read else tr }

/-- R126-R131: TRESTLE takes a weight tile into the open sweep; a full accumulator is read out first, or overflows. A tile waits for a REDUCE readout into the registers that its sweep reads (R145). -/
def execTrestleWeightTile (core : Nat) (s : State) : Out :=
  .next (if !trFree s core then s
    else
      let n0 := nc s core
      match trNow n0, peekTile n0 pTr with
      | some c, some (st, t) =>
        let stop (a b : Nat) : State := consumeFault s core 3 st (st.took pTr) a b
        if n0.tr.reading || heldByOther n0 [c.acc] 2 || (List.range 32).any (fun i => c.sources i && rdWrites n0 i) then s
        else
          (match tileStop pTr t with
           | some (a, b) => stop a b
           | none =>
             if sweepFull n0 c then
               (if c.read then setNc s core { n0 with tr := { n0.tr.endSweep true with cap := true } } else stop 0x10 0x23)
             else
               match weightFault n0 c t with
               | some sub => stop 0x10 sub
               | none =>
                 let s' := addDiv (spend s 65537) (R.NCO_ENGINE_BUSY (halfOf s core) (dieCore s core)) 32 32 64 (trpAclk t (s.free + 65536))
                 stationTook (setNc s' core (trAdd n0 c st t (precision s) s.free)) core pTr st t)
      | _, _ => s)

/-- R126, R129: the results of one vector, in row order. -/
def vecResults (a : Acc) (c : TrCfg) (rows j ix : Nat) : List Fp :=
  (List.range rows).map (fun r => (sget accEl0 a.els (r * 16 + j)).value a.windowed c.num.stoch (ix + r * 16 + j))

/-- R129: the result tiles of a sweep: V rows of 64 consecutive weight rows, the last shorter. -/
def sweepTiles (s : State) (ctx : Nat) (c : TrCfg) (a : Acc) (rows ix : Nat) : Nat → Nat → State × List Tile
  | 0, _ => (s, [])
  | fuel + 1, b =>
    if rows ≤ b * 64 then (s, [])
    else
      let w := min 64 (rows - b * 64)
      let vs := (List.range c.v).flatMap (fun j => ((vecResults a c rows j ix).drop (b * 64)).take w)
      let (kc, s) := takeFor c.num ctx s
      let q := outTile c.ofmt false c.num kc c.v w 0 vs
      let s := countNum s ctx ⟨0, 0, q.2.nan⟩
      let m := sweepTiles s ctx c a rows ix fuel (b + 1)
      (m.1, { q.1 with poison := a.poison } :: m.2)

/-- R121, R129: write each vector's results, packed, into element registers from D. -/
def resultsToRegs (n : NCore) (c : TrCfg) (a : Acc) (rows ix : Nat) (kc : Word × Word) : NCore × Cnt :=
  let bits := (codeBits c.ofmt).getD 32
  let F := (fmtOfCode c.ofmt).getD fmtFP32
  let per := 2048 / bits
  (List.range c.v).foldl (fun acc j =>
    let q := convAll F c.num kc (j * rows) (vecResults a c rows j ix)
    let n := (List.range (c.ro rows)).foldl (fun n g =>
      let part := (q.1.drop (g * per)).take per
      let i := c.d + j * c.ro rows + g
      let old := (er n i).toNat
      let w := part.length * bits
      setE n i (BitVec.ofNat 2048 (joinCodes bits part + (old >>> w) <<< w))) acc.1
    (n, acc.2.add q.2)) (n, cnt0)

/-- R108: NaNs produced by a sweep's results. -/
def sweepNans (a : Acc) (c : TrCfg) (rows : Nat) : Nat :=
  ((List.range rows).flatMap (fun r => (List.range c.v).map (fun j => (sget accEl0 a.els (r * 16 + j)).newNan))).sum

/-- R129: the readout is over: the accumulator is free, or a fresh pass under the same settings goes on after a full one. -/
def trDone (n : NCore) (c : TrCfg) : NCore :=
  let n := setAcc n c.acc (if n.tr.cap then { acc0 with owner := 2 } else acc0)
  { n with tr := { n.tr with sweep := n.tr.cap, tiles := 0, rowBase := 0, reading := false, cap := false, out := [] } }

/-- R132: the results of an accumulator that a parity error spoilt, as element registers hold them: free values, since a register carries no poison (log 65). -/
def spoil (s : State) (core lo n : Nat) : State :=
  (List.range n).foldl (fun s i => let d := drawBits 2048 s; setNc d.2 core (setE (nc d.2 core) (lo + i) d.1)) s

/-- R121, R125, R129, R132: a sweep's results are written to TRESTLE.p or into element registers; `who.bad` has a bit for each accumulator that a parity error spoilt. -/
def execTrestleReadout (who : AccRead) (s : State) : Out :=
  .next (if !stationsRun s who.core then s
    else
      let n := nc s who.core
      match trNow n with
      | none => s
      | some c =>
        if !n.tr.reading then s
        else
          let a := { accOf n c.acc with poison := (accOf n c.acc).poison || who.bad.testBit c.acc }
          let ctx := (th s who.core).ctx
          let rows := a.rows
          if c.odest then
            (if 32 < c.d + c.v * c.ro rows then streamFault s who.core 3 n.tr.lastSd 0x10 0x24 n.tr.lastIx
             else
               let ix := s.free
               let (kc, s) := takeFor c.num ctx s
               let r := resultsToRegs n c a rows ix kc
               let s := countNum (setNc (spend s 65536) who.core (trDone r.1 c)) ctx (r.2.add ⟨0, 0, sweepNans a c rows⟩)
               if a.poison then spoil s who.core c.d (c.v * c.ro rows) else s)
          else
            let (s, out) := if n.tr.out.isEmpty then
                (let r := sweepTiles s ctx c a rows s.free 65 0
                 (countNum (spend r.1 65536) ctx ⟨0, 0, sweepNans a c rows⟩, r.2))
              else (s, n.tr.out)
            let (n, rest) := drain n pTr out
            if rest.isEmpty then setNc s who.core (trDone n c)
            else setNc s who.core { n with tr := { n.tr with out := rest } })

end Sys2Proof.Machine
end

