-- ==== Sys2Proof/Machine/Element.lean ====
section
/-! DEFINITION. The ELEMENT station and class (R133-R146, R157, R444, R445): element programs, their micro-operations, and applying them to a stream or to registers. -/

namespace Sys2Proof.Machine

/-- R134: LEN + 1. -/ def Prog.len (p : Prog) : Nat := fld p.hdr 0 6 + 1
/-- R134: OFMT. -/ def Prog.ofmt (p : Prog) : Nat := fld p.hdr 6 4
/-- R134: OSCALED. -/ def Prog.oscaled (p : Prog) : Bool := bitw p.hdr 10
/-- R134: PREC. -/ def Prog.prec (p : Prog) : Bool := bitw p.hdr 11

/-- R137: the sources a micro-operation uses, 1 to 3; 0 for a reserved code. -/
def uopArity (op : Nat) : Nat :=
  if op = 1 ∨ op = 8 ∨ op = 9 ∨ (0x0C ≤ op ∧ op ≤ 0x14 ∧ op ≠ 0x0D ∧ op ≠ 0x0E ∧ op ≠ 0x0F) then 1
  else if (2 ≤ op ∧ op ≤ 4) ∨ op = 6 ∨ op = 7 ∨ op = 0x0B then 2
  else if op = 5 ∨ op = 0x0A then 3
  else 0

/-- R137: a four-slot operation, which always rounds to binary32. -/
def fourSlot (op : Nat) : Bool := 0x0B ≤ op

/-- R135: UOP. -/ def uOp (w : Word) : Nat := fld w 0 8
/-- R135: DST. -/ def uDst (w : Word) : Nat := fld w 8 5
/-- R135: source `i`: kind and index. -/
def uSrc (w : Word) (i : Nat) : Nat × Nat := (fld w (16 + 8 * i + 5) 3, fld w (16 + 8 * i) 5)

/-- R136: a source field in the range of its kind. -/
def srcOk (k : Nat × Nat) : Bool :=
  match k.1 with
  | 0 => k.2 < 16 | 1 => k.2 == 0 | 2 => k.2 == 0 | 3 => k.2 < 4 | 4 => k.2 < 12 | 5 => true | 6 => true | _ => k.2 < 2

/-- R139: the micro-operations pass the checks: `known` lists the temporaries written so far. -/
def uopsOk : List Nat → List Word → Bool
  | _, [] => false
  | known, w :: ws =>
    let n := uopArity (uOp w)
    let fields := n ≠ 0 && fld w 13 3 == 0 && fld w 40 24 == 0 && uDst w ≤ 16
    let srcs := (List.range 3).all (fun i =>
      if i < n then srcOk (uSrc w i) && ((uSrc w i).1 ≠ 0 || known.contains (uSrc w i).2) else fld w (16 + 8 * i) 8 == 0)
    let isLast := ws.isEmpty
    fields && srcs && ((uDst w == 16) == isLast) && (isLast || uopsOk (uDst w :: known) ws)

/-- R134, R139: an image that passes its checks. -/
def Prog.ok (p : Prog) : Bool :=
  fld p.hdr 12 52 == 0 && p.ofmt ≤ 5 && (!p.oscaled || p.ofmt ≤ 2) && p.uops.length == p.len && uopsOk [] p.uops

/-- R136: a program reads a source kind. -/
def Prog.reads (p : Prog) (kind : Nat) : Bool :=
  p.uops.any (fun w => (List.range (uopArity (uOp w))).any (fun i => (uSrc w i).1 == kind))

/-- R136: the element registers a program reads, as columns or rows. -/
def Prog.eRegs (p : Prog) : List Nat :=
  p.uops.flatMap (fun w => (List.range (uopArity (uOp w))).filterMap (fun i => let k := uSrc w i; if k.1 = 5 ∨ k.1 = 6 then some k.2 else none))

/-- R152: a program reads member 1 of a linked result. -/
def Prog.member1 (p : Prog) : Bool :=
  p.uops.any (fun w => (List.range (uopArity (uOp w))).any (fun i => uSrc w i == (7, 1)))

/-- R138: the constant table. -/
def constTable : List Nat :=
  [0x00000000, 0x3F800000, 0x3F000000, 0x40000000, 0xBF800000, 0x3F3504F3,
   0x3F4C422A, 0x3D372713, 0x3F317218, 0x3FB8AA3B, 0x40490FDB, 0x7F7FFFFF]

/-- R143: the functions: their special cases, and a free result elsewhere. -/
def funcVal (op : Nat) (x : Fp) (ix : Nat) : Fp :=
  match op, x with
  | _, .nan => .nan
  | 0x10, .inf neg => if neg then .fin false 0 0 else .inf false
  | 0x10, .fin _ _ _ =>
    if fLt (.fin false 887228 0) (fMul x (.fin false 10000 0)) then .inf false
    else if fLt (fMul x (.fin false 1000 0)) (.fin true 103972 0) then .fin false 0 0
    else freeFunc op x ix
  | 0x11, .inf neg => if neg then .nan else .inf false
  | 0x11, .fin neg m _ => if m = 0 then .inf true else if neg then .nan else freeFunc op x ix
  | 0x12, .inf neg => .fin neg 1 0
  | 0x12, .fin neg m _ => if m = 0 then .fin neg 0 0 else freeFunc op x ix
  | 0x13, .inf neg => if neg then .nan else .fin false 0 0
  | 0x13, .fin neg m _ => if m = 0 then .inf neg else if neg then .nan else freeFunc op x ix
  | _, .inf neg => .fin neg 1 0
  | _, .fin neg m _ => if m = 0 then .fin neg 0 0 else freeFunc op x ix

/-- R137: the exact or free value of a micro-operation before rounding. -/
def uopVal (op : Nat) (a b c : Fp) (ix : Nat) : Fp :=
  match op with
  | 0x01 => a
  | 0x02 => fAdd a b
  | 0x03 => fAdd a b.neg
  | 0x04 => fMul a b
  | 0x05 => fAdd (fMul a b) c
  | 0x06 => fMin a b
  | 0x07 => fMax a b
  | 0x08 => a.abs
  | 0x09 => a.neg
  | 0x0A => if fLt (.fin false 0 0) a then b else c
  | 0x0B => fDiv a b
  | 0x0C => fSqrt a
  | op => funcVal op a ix

/-- R136: what the sources of one element of a tile read. -/
structure EwEnv where
  x : Fp
  y : Fp
  k : List Nat
  colv : Nat → Nat
  rowv : Nat → Nat
  r : List Nat

/-- R136: the value of a source. -/
def EwEnv.src (env : EwEnv) (temps : Sparse Fp) (k : Nat × Nat) : Fp :=
  match k.1 with
  | 0 => sget .nan temps k.2
  | 1 => env.x
  | 2 => env.y
  | 3 => f32 (nth env.k k.2)
  | 4 => f32 (nth constTable k.2)
  | 5 => f32 (env.colv k.2)
  | 6 => f32 (env.rowv k.2)
  | _ => f32 (nth env.r k.2)

/-- R137, R140: run the micro-operations for one element: z, the NaNs produced, from free values at `ix`. -/
def runUops (prec : Bool) (env : EwEnv) (ix : Nat) : Sparse Fp → List Word → Fp × Nat
  | _, [] => (.nan, 0)
  | temps, w :: ws =>
    let op := uOp w
    let n := uopArity op
    let a := env.src temps (uSrc w 0)
    let b := env.src temps (uSrc w 1)
    let c := env.src temps (uSrc w 2)
    let v := uopVal op a b c (ix + ws.length)
    let F := if prec && !fourSlot op then fmtBF16 else fmtFP32
    let r := unpack F (rne F v)
    let used := if op = 0x0A ∨ op = 6 ∨ op = 7 then [r] else ([a, b, c].take n)
    let nn := newNan r used
    if ws.isEmpty then (r, nn)
    else
      let q := runUops prec env ix (sset .nan temps (uDst w) r) ws
      (q.1, nn + q.2)

/-- R444: an element as it enters a program: scaled exactly, then rounded once to binary32. -/
def enter (v : Fp) : Fp := f32 (to32 v)

/-- R140: the y element paired with element (i, j). -/
def yAt (y : Tile) (i j : Nat) : Fp := enter (y.val (if y.rows = 1 then 0 else i) (if y.cols = 1 then 0 else j))

/-- R140: a y tile that pairs with an x tile. -/
def yPairs (x y : Tile) : Bool := (y.rows == x.rows || y.rows == 1) && (y.cols == x.cols || y.cols == 1)

/-- R136: binary32 element `i` of an element register. -/
def eElem (n : NCore) (reg i : Nat) : Nat := nfld (er n reg).toNat (32 * i) 32

/-- R136, R141: the immediates in force. -/
def ewK (n : NCore) : List Nat := (List.range 4).map (fun i => (sget (0 : Half) n.ew.k i).toNat)

/-- R136: what element (i, j) of an x tile reads, given the linked members and whether they go by row. -/
def ewEnv (n : NCore) (x : Tile) (y : Option Tile) (link : List (List Nat)) (byRow : Bool) (i j : Nat) : EwEnv :=
  ⟨enter (x.val i j), match y with | some y => yAt y i j | none => .nan, ewK n,
   fun r => eElem n r j, fun r => eElem n r i, link.map (fun m => nth m (if byRow then i else j))⟩

/-- R140: the z values of a tile and the NaNs its program produced. -/
def runTile (n : NCore) (p : Prog) (x : Tile) (y : Option Tile) (link : List (List Nat)) (byRow : Bool) (ix : Nat) : List Fp × Nat :=
  let rs := (List.range x.rows).flatMap (fun i => (List.range x.cols).map (fun j =>
    runUops p.prec (ewEnv n x y link byRow i j) (ix + (i * 64 + j) * 64) [] p.uops))
  (rs.map (·.1), (rs.map (·.2)).sum)

/-- Put a class instruction on its way to ELEMENT. -/
def toEw (n : NCore) (ci : ClassIns) : NCore := { n with ewIn := n.ewIn ++ [ci] }

/-- R144: issue EWE.RUN. -/
def ewRun (t : Tid) (o : Opnds) (expert : Bool) (s : State) : Out :=
  insnW s t o 0x0B none (some ⟨8, if expert then 64 else 0, imAll⟩) (numCtl o.a.toNat).isSome
    (sendClass toEw ⟨0xB, if expert then 1 else 0, o.d.toNat, o.a.toNat, o.imm, []⟩)

/-- R144: EWE.RUN.B. -/
def execEweRunB (t : Tid) (o : Opnds) (s : State) : Out := ewRun t o false s
/-- R144: EWE.RUN.E. -/
def execEweRunE (t : Tid) (o : Opnds) (s : State) : Out := ewRun t o true s

/-- R141, R144: EWE.IMM; D names k1, k2 or k3. -/
def execEweImm (t : Tid) (o : Opnds) (s : State) : Out :=
  insnW s t o 0x0B none (some ⟨4, 0, imAll⟩) (o.d ≠ 0) (sendClass toEw ⟨0xB, 4, o.d.toNat, 0, o.imm, []⟩)

/-- R445: translate and check a list of 8-byte words. -/
def vaCheckWords (s : State) (ctx : Nat) (k : AccKind) (step : Nat) : List Nat → State × MemRes (List Nat)
  | [] => (s, .ok [])
  | va :: r =>
    match vaCheck s ctx va step k with
    | (s, .ok pa) =>
      (match vaCheckWords s ctx k step r with
       | (s, .ok ps) => (s, .ok (pa :: ps))
       | (s, .err e) => (s, .err e)
       | (s, .wait) => (s, .wait))
    | (s, .err e) => (s, .err e)
    | (s, .wait) => (s, .wait)

/-- R445: a fetch check's status and subcode. -/
def fetchCode : AccErr → Nat × Nat
  | .perm => (0x11, 0x13)
  | .measured => (0x11, 0x13)
  | .text => (0x11, 0x13)
  | .poison => (0x12, 0)
  | _ => (0x10, 0x18)

/-- R144, R445: EWE.LDP: the image's pages are checked at issue; the header word is read then. -/
def execEweLdp (t : Tid) (o : Opnds) (s : State) : Out :=
  insn s t o 0x0B none (some ⟨8, 64, imAll⟩) (fun key s0 =>
    let a := memAddr (th s0 key) o
    let ctx := (th s0 key).ctx
    if a % 8 ≠ 0 then .trap s0 0x10 0x15 0
    else
      match vaCheck s0 ctx a 8 .exec with
      | (s, .err e) => .trap s (fetchCode e).1 (fetchCode e).2 0
      | (_, .wait) => .stay s0
      | (s, .ok pa) =>
        let (s, bs, _) := physRead s (srcTh s0 key) pa 8
        let len := leNat bs % 64 + 1
        match vaCheckWords s ctx .exec 8 ((List.range (len + 1)).map (fun i => a + 8 * i)) with
        | (s, .err e) => .trap s (fetchCode e).1 (fetchCode e).2 0
        | (_, .wait) => .stay s0
        | (s, .ok pas) => sendClass toEw ⟨0xB, 8, o.d.toNat, o.a.toNat, o.imm, pas⟩ key s)

/-- R144, R445: EWE.LDR and EWE.STR check their 256 bytes at issue. -/
def ewReg (t : Tid) (o : Opnds) (op : Nat) (k : AccKind) (s : State) : Out :=
  insn s t o 0x0B none (some ⟨32, 64, imAll⟩) (fun key s0 =>
    let a := memAddr (th s0 key) o
    if a % 64 ≠ 0 then .trap s0 0x10 0x15 0
    else
      match vaCheckWords s0 (th s0 key).ctx k 64 ((List.range 4).map (fun i => a + 64 * i)) with
      | (s, .err e) => accTrap s e
      | (_, .wait) => .stay s0
      | (s, .ok pas) => sendClass toEw ⟨0xB, op, o.d.toNat, o.a.toNat, o.imm, pas⟩ key s)

/-- R144: EWE.LDR. -/
def execEweLdr (t : Tid) (o : Opnds) (s : State) : Out := ewReg t o 0x0C .read s
/-- R144: EWE.STR. -/
def execEweStr (t : Tid) (o : Opnds) (s : State) : Out := ewReg t o 0x0D .write s

/-- R146: EWE.REXEC runs a program on registers once the thread's earlier ELEMENT instructions have taken effect. -/
def execEweRexec (t : Tid) (o : Opnds) (s : State) : Out :=
  insnW s t o 0x0B (some ⟨32, 32, 32, 0, 0x1FF⟩) none (numCtl (nfld o.md.toNat 3 6)).isSome (fun key s =>
    let n := nc s key
    let md := o.md.toNat
    if n.ewIn.any (fun ci => ci.op ≠ 0x0D) then .stay s
    else
      match numCtl (nfld md 3 6), sget none n.ew.slots (nfld md 0 3) with
      | some nctl, some p =>
        if p.reads 6 || p.reads 7 then .trap s 0x11 0x11 0
        else if sweepReads n o.d.toNat || n.ewIn.any (fun ci => ci.d == o.d.toNat) ||
          ([o.d.toNat, o.a.toNat, o.b.toNat] ++ p.eRegs).any (pendingWrites n) then .stay s
        else
          let regTile (i : Nat) : Tile := ⟨5, false, false, 1, 64, 0, 0, false, cutCodes 32 64 (er n i).toNat, [], false⟩
          let r := runTile n p (regTile o.a.toNat) (some (regTile o.b.toNat)) [] false s.free
          let (kc, s) := takeFor nctl (th s key).ctx (spend s 4096)
          let F := (fmtOfCode p.ofmt).getD fmtFP32
          let q := convAll F nctl kc 0 r.1
          let w := 64 * F.bits
          let old := (er n o.d.toNat).toNat
          let s := setNc s key (setE n o.d.toNat (BitVec.ofNat 2048 (joinCodes F.bits q.1 + (old >>> w) <<< w)))
          .done (putCounted s key (th s key) 0x0B ⟨q.2.sat, 0, r.2 + q.2.nan⟩)
      | _, _ => .trap s 0x11 0x11 0)

/-- What a class instruction does at its station: it waits, takes effect, or stops the context with a status and subcode. -/
inductive Took where
  | wait
  | ok (s : State)
  | stop (s : State) (status sub : Nat)

/-- R385, R445: read the lines of an access translated at issue. -/
def physReads (s : State) (src : Src) (step : Nat) : List Nat → State × (List Byte × Bool)
  | [] => (s, ([], false))
  | pa :: r =>
    let (s, bs, p) := physRead s src pa step
    let (s, bs', p') := physReads s src step r
    (s, (bs ++ bs', p || p'))

/-- R139, R141, R144, R145, R445: an ELEMENT-class instruction takes effect at its station. -/
def ewTake (s : State) (core : Nat) (ci : ClassIns) : Took :=
  let n := nc s core
  if ci.op ≤ 1 then
    .ok (setNc s core { n with ew := { n.ew with run := (ci.d, if ci.op = 1 then ci.a else 0), k := sset 0 n.ew.k 0 ci.imm } })
  else if ci.op = 4 then .ok (setNc s core { n with ew := { n.ew with k := sset 0 n.ew.k ci.d ci.imm } })
  else if ci.op = 8 then
    (let (s, bs, p) := physReads s (srcTh s core) 8 ci.pas
     if p then .stop s 0x12 0
     else
       let ws := (List.range ci.pas.length).map (fun i => BitVec.ofNat 64 (leNat ((bs.drop (8 * i)).take 8)))
       let prog : Prog := ⟨ws.getD 0 0, ws.drop 1⟩
       let n := nc s core
       if prog.ok then .ok (setNc s core { n with ew := { n.ew with slots := sset none n.ew.slots ci.d (some prog) } })
       else .stop (setNc s core { n with ew := { n.ew with slots := sset none n.ew.slots ci.d none } }) 0x10 0x2A)
  else if ci.op = 0x0C then
    (if sweepReads n ci.d || pendingWrites n ci.d then .wait
     else if ci.pas.any (fun pa => lineWaits s (pa / 64)) then .wait
     else
       let (s, bs, p) := physReads s (srcTh s core) 64 ci.pas
       if p then .stop s 0x12 0
       else .ok (setNc s core (setE (nc s core) ci.d (BitVec.ofNat 2048 (leNat bs)))))
  else
    (if pendingWrites n ci.d then .wait
     else if ci.pas.any (fun pa => lineWaits s (pa / 64)) then .wait
     else
       let bs := leBytes 256 (er n ci.d).toNat
       .ok ((List.range 4).foldl (fun s i => physWrite s (srcTh s core) (ci.pas.getD i 0) ((bs.drop (64 * i)).take 64)) s))

/-- R152: the linked result that ELEMENT finds for the tile it would take: none while REDUCE has not taken the tile. -/
def linkOf (n : NCore) (q idx : Nat) : Option LinkEntry := n.rd.links.find? (fun l => l.q == q && l.idx == idx)

/-- R140, R152: a subcode of R157 that stops ELEMENT at an x tile with its y tile, before any element is computed. -/
def elementFault (n : NCore) (p : Prog) (st : Stream) (x : Tile) (y : Option Tile) : Option Nat :=
  let yBad : Bool := match y with | some y => !yPairs x y | none => false
  let link := linkOf n st.q (st.took pEwX)
  let lBad : Bool := p.reads 7 && (st.to2.isNone ||
    (match link with
     | some l => (match l.members with | none => true | some ms => p.member1 && decide (ms.length < 2))
     | none => false))
  if yBad || (p.oscaled && x.cols ≠ 32 && x.cols ≠ 64) then some 0x29
  else if lBad then some 0x2B
  else none

/-- R35, R145: ELEMENT takes a tile only when no earlier class instruction but a store waits there. -/
def ewFree (s : State) (core : Nat) : Bool := stationsRun s core && (nc s core).ewIn.all (fun ci => ci.op == 0x0D)

/-- R142, R158: the ACLK that a tile of `e` elements occupies the EWE. -/
def Prog.aclk (p : Prog) (e : Nat) : Nat :=
  let f := (p.uops.filter (fun w => fourSlot (uOp w))).length
  let u := p.len - f
  if p.prec then cdiv e 128 * u + cdiv e 64 * (4 * f) else cdiv e 64 * (u + 4 * f)

/-- R140-R145, R152: ELEMENT takes an x tile, pairs y, runs the program in force and produces z. -/
def execElementTile (core : Nat) (s : State) : Out :=
  .next (if !ewFree s core then s
    else
      let n := nc s core
      match peekTile n pEwX with
      | none => s
      | some (st, x) =>
        let stop (a b : Nat) : State := consumeFault s core 4 st (st.took pEwX) a b
        match tileStop pEwX x with
        | some (a, b) => stop a b
        | none =>
          match sget none n.ew.slots n.ew.run.1 with
          | none => stop 0x10 0x28
          | some p =>
            let needY := p.reads 2
            let yst := if needY then peekTile n pEwY else none
            let link := linkOf n st.q (st.took pEwX)
            if needY && yst.isNone then s
            else if p.reads 7 && st.to2.isSome && link.isNone then s
            else if !hasRoom n pEwX || p.eRegs.any (pendingWrites n) then s
            else
              match yst.bind (fun v => (tileStop pEwY v.2).map (fun e => (v.1, e))) with
              | some (y, a, b) => consumeFault s core 4 y (y.took pEwY) a b
              | none =>
                match elementFault n p st x (yst.map (·.2)) with
                | some sub => stop 0x10 sub
                | none =>
                  let nctl := (numCtl n.ew.run.2).getD numCtl0
                  let byRow := (link.map (·.row)).getD false
                  let ms := (link.bind (·.members)).getD []
                  let ctx := (th s core).ctx
                  let r := runTile n p x (yst.map (·.2)) ms byRow s.free
                  let (kc, s) := takeFor nctl ctx (spend s 262144)
                  let q := outTile p.ofmt p.oscaled nctl kc x.rows x.cols 0 r.1
                  let s := countNum s ctx ⟨0, 0, r.2 + q.2.nan⟩
                  let s := addDiv s (R.NCO_EWBUSY (halfOf s core) (dieCore s core)) 0 32 64 (p.aclk (x.rows * x.cols))
                  let s := stationTook s core pEwX st x
                  let s := match yst with | some (sy, y) => stationTook s core pEwY sy y | none => s
                  let n := nc s core
                  let n := { n with rd := { n.rd with links := n.rd.links.filter (fun l => !(l.q == st.q && l.idx == st.took pEwX)) } }
                  setNc s core (pushTile n pEwX q.1))

end Sys2Proof.Machine
end

