-- ==== Sys2Proof/Machine/Reduce.lean ====
section
/-! DEFINITION. The REDUCE station and class (R147-R157), and the arrival of class instructions at their stations (R35). -/

namespace Sys2Proof.Machine

/-- R100, R153, R155: an RDU.OP word that breaks no rule of the table. -/
def rdOk (imm : Half) (d : Nat) (expert : Bool) : Bool :=
  let c := rdCfg imm d expert
  c.op ≤ 9 && c.span ≤ 64 && c.ofmt ≤ 5 && nfld imm.toNat 27 5 == 0 && (!expert || (numCtl (nfld imm.toNat 21 6)).isSome) &&
  (if c.rdest then d ≤ (if rdPair c.op then 30 else 31) else d == 0)

/-- Put a class instruction on its way to REDUCE. -/
def toRd (n : NCore) (ci : ClassIns) : NCore := { n with rdIn := n.rdIn ++ [ci] }

/-- R155: issue RDU.OP. -/
def rdOp (t : Tid) (o : Opnds) (expert : Bool) (s : State) : Out :=
  insnW s t o 0x0C none (some ⟨64, 0, imAll⟩) (rdOk o.imm o.d.toNat expert)
    (sendClass toRd ⟨0xC, if expert then 1 else 0, o.d.toNat, 0, o.imm, []⟩)

/-- R155: RDU.OP.B. -/
def execRduOpB (t : Tid) (o : Opnds) (s : State) : Out := rdOp t o false s
/-- R155: RDU.OP.E. -/
def execRduOpE (t : Tid) (o : Opnds) (s : State) : Out := rdOp t o true s

/-- R155: RDU.END. -/
def execRduEnd (t : Tid) (o : Opnds) (s : State) : Out :=
  insn s t o 0x0C (some ⟨0, 0, 0, 0, 0⟩) none (sendClass toRd ⟨0xC, 4, 0, 0, 0, []⟩)

/-- R150: SMAX's sum of e^(x - m) with one more element, m being the greater of the maximum so far and the element. -/
def RedEl.addExp (el : RedEl) (v : Fp) : Dy :=
  match el.some, el.best, v with
  | _, _, .nan => el.exps
  | _, _, .inf _ => el.exps
  | true, .fin n m e, v =>
    let d := v.dy.add (Fp.fin n m e).dy.neg
    fxDy (if d.le dy0 then el.exps.add (dyExp d) else (el.exps.mul (dyExp d.neg)).add ⟨1, 0⟩).fx
  | _, _, _ => ⟨1, 0⟩

/-- R147, R149, R150: bring one element, the `ix`-th of its group, into a running result. -/
def RedEl.take (el : RedEl) (op : Nat) (v : Fp) (ix : Nat) : RedEl :=
  let best (cand : Fp) (better : Bool) : RedEl :=
    if v.isNan then { el with anyNan := true }
    else if !el.some || better then { el with best := cand, bestIx := ix, some := true }
    else el
  match op with
  | 0 => { el with sum := el.sum.addTerm v }
  | 1 => { el with sum := el.sum.addTerm v.abs }
  | 2 => { el with sum := el.sum.addTerm (fMul v v) }
  | 3 => best (if el.some then fMax el.best v else v) true
  | 4 => best (if el.some then fMin el.best v else v) true
  | 5 => best (if el.some then fMax el.best v.abs else v.abs) true
  | 6 => best v (fLt el.best v)
  | 7 => best v (fLt v el.best)
  | 8 => { el with sum := el.sum.addTerm v, sum2 := el.sum2.addTerm (fMul v v) }
  | _ => { best (if el.some then fMax el.best v else v) true with exps := el.addExp v }

/-- R150: the tile that raised a lane's maximum rescales its sum. -/
def RedEl.rescaled (new old : RedEl) (op : Nat) : RedEl :=
  if op = 9 ∧ new.some ∧ (!old.some ∨ fLt old.best new.best) then { new with resc := new.resc + 1 } else new

/-- R149, R150: the members of a result and the NaNs it produced, from free values at `ix`. -/
def RedEl.members (el : RedEl) (op : Nat) (stoch : Bool) (ix : Nat) : List Fp × Nat :=
  match op with
  | 0 | 1 | 2 => ([el.sum.value true stoch ix], el.sum.newNan)
  | 8 => ([el.sum.value true stoch ix, el.sum2.value true stoch (ix + 64)], el.sum.newNan + el.sum2.newNan)
  | 9 =>
    if el.anyNan then ([.nan, .nan], 0)
    else match el.best with
      | .inf false => ([.inf false, .nan], 1)
      | .inf true => ([.inf true, .fin false 0 0], 0)
      | m => ([m, freeSmax el.exps el.resc ix], 0)
  | _ => ([if el.some then el.best else .nan], 0)

/-- R149: the I32 pattern of ARGMAX or ARGMIN: -1 for a group of NaNs. -/
def RedEl.argCode (el : RedEl) : Nat := if el.some then el.bestIx % 2 ^ 32 else 0xFFFFFFFF

/-- R148: a tile's elements enter the running results of the group. -/
def Reduce.take (r : Reduce) (c : RdCfg) (t : Tile) : Reduce :=
  let els := (List.range t.rows).foldl (fun els i => (List.range t.cols).foldl (fun els j =>
    smod redEl0 els (if c.row then i else j) (fun el => el.take c.op (t.val i j) (r.base + (if c.row then j else i)))) els) r.els
  let els := if c.op = 9 then els.map (fun kv => (kv.1, kv.2.rescaled (sget redEl0 r.els kv.1) 9)) else els
  { r with els := els, tiles := r.tiles + 1, rows := t.rows, cols := t.cols, base := r.base + (if c.row then t.cols else t.rows) }

/-- R148: positions of a group's result. -/
def Reduce.width (r : Reduce) (c : RdCfg) : Nat := if c.row then r.rows else r.cols

/-- R147-R149: the members of the open group's result, member by member, and the NaNs produced. -/
def Reduce.result (r : Reduce) (c : RdCfg) (ix : Nat) : List (List Fp) × Nat :=
  let ps := (List.range (r.width c)).map (fun k => (sget redEl0 r.els k).members c.op c.num.stoch (ix + 128 * k))
  ((List.range (if rdPair c.op then 2 else 1)).map (fun m => ps.map (fun p => p.1.getD m .nan)), (ps.map (·.2)).sum)

/-- R149: the indices of the open group's result. -/
def Reduce.indices (r : Reduce) (c : RdCfg) : List Nat :=
  (List.range (r.width c)).map (fun k => (sget redEl0 r.els k).argCode)

/-- R148: member-major results in the row-major order of the result tile. -/
def tileOrder (row : Bool) (w : Nat) (ms : List (List Fp)) : List Fp :=
  if row then (List.range w).flatMap (fun i => ms.map (fun m => m.getD i .nan)) else ms.flatten

/-- R148: rows and columns of a result tile. -/
def Reduce.dims (r : Reduce) (c : RdCfg) : Nat × Nat :=
  let k := if rdPair c.op then 2 else 1
  if c.row then (r.rows, k) else (k, r.cols)

/-- R153: write result codes as the 64 binary32 positions of an element register; positions past the result are free (log 5). -/
def putRedReg (s : State) (core i : Nat) (codes : List Nat) : State :=
  let (b, s) := drawBits 2048 s
  let w := 32 * codes.length
  setNc s core (setE (nc s core) i (BitVec.ofNat 2048 (joinCodes 32 codes + (b.toNat >>> w) <<< w)))

/-- R148: the group is over: running results and index base start again. -/
def Reduce.nextGroup (r : Reduce) : Reduce := { r with tiles := 0, els := [], base := 0, used := true }

/-- R132: a group's results in registers, or free bits where a parity error of its accumulator spoilt them (log 65). -/
def spoilCodes (poison : Bool) (ix : Nat) (codes : List Nat) : List Nat :=
  if poison then (List.range codes.length).map (fun i => (Config.freeBits 32 (ix + i)).toNat) else codes

/-- R148, R149, R152, R153: the open group's result goes to REDUCE.r or to element registers; the new group starts. -/
def rdEmit (s : State) (core : Nat) (c : RdCfg) : State :=
  let n := nc s core
  let r := n.rd
  let ctx := (th s core).ctx
  let ix := s.free
  let res := r.result c ix
  let dims := r.dims c
  let a := accOf n c.acc
  let s := setNc (spend s 8448) core { setAcc n c.acc { a with poison := false } with rd := r.nextGroup }
  if rdArg c.op then
    let codes := r.indices c
    if c.rdest then putRedReg s core c.d (spoilCodes a.poison (ix + 8192) codes)
    else if c.noout then s
    else
      let n := nc s core
      setNc s core { n with rd := { n.rd with out := n.rd.out ++ [⟨10, false, false, dims.1, dims.2, 0, 0, false, codes, [], a.poison⟩] } }
  else
    if c.rdest then
      let (kc, s) := takeFor c.num ctx s
      let q := convAll fmtFP32 c.num kc 0 (tileOrder false 0 res.1)
      let w := r.width c
      let codes := spoilCodes a.poison (ix + 8192) q.1
      let s := (List.range res.1.length).foldl (fun s m => putRedReg s core (c.d + m) ((codes.drop (m * w)).take w)) s
      countNum s ctx ⟨q.2.sat, 0, res.2 + q.2.nan⟩
    else if c.noout then countNum s ctx ⟨0, 0, res.2⟩
    else
      let (kc, s) := takeFor c.num ctx s
      let q := outTile c.ofmt false c.num kc dims.1 dims.2 0 (tileOrder c.row (r.width c) res.1)
      let n := nc s core
      countNum (setNc s core { n with rd := { n.rd with out := n.rd.out ++ [{ q.1 with poison := a.poison }] } }) ctx ⟨0, 0, res.2 + q.2.nan⟩

/-- R152: the binary32 members that the link buffer holds; an index as its value, -1 for a group of NaNs (log 66). -/
def Reduce.linkMembers (r : Reduce) (c : RdCfg) (ix : Nat) : List (List Nat) :=
  if rdArg c.op then [(r.indices c).map (fun i => to32 (if i = 0xFFFFFFFF then .fin true 1 0 else .fin false i 0))]
  else (r.result c ix).1.map (fun m => m.map to32)

/-- R152, R148: what stops REDUCE at a tile. -/
def reduceFault (n : NCore) (c : RdCfg) (st : Stream) (t : Tile) : Option Nat :=
  let bad : Bool := n.rd.tiles ≠ 0 && (if c.row then n.rd.rows != t.rows else n.rd.cols != t.cols)
  if c.link && (c.span != 1 || st.to2.isNone) then some 0x2D
  else if bad then some 0x2C
  else none

/-- Push the results waiting at REDUCE.r as far as its queue has room. -/
def drainRd (n : NCore) : NCore :=
  let q := drain n pRd n.rd.out
  { q.1 with rd := { q.1.rd with out := q.2 } }

/-- R35, R155: REDUCE takes a tile only when no earlier class instruction waits there. -/
def rdFree (s : State) (core : Nat) : Bool := stationsRun s core && (nc s core).rdIn.isEmpty

/-- R133, R158: the ACLK in which the RDU takes the elements of a tile. -/
def rduAclk (c : RdCfg) (t : Tile) : Nat :=
  cdiv (t.rows * t.cols) (if c.op = 9 then 16 else if ((codeBits t.fmt).getD 32) ≤ 16 then 128 else 64)

/-- R148: a tile ends its group. -/
def RdCfg.ends (c : RdCfg) (r : Reduce) (t : Tile) : Bool := if c.span = 0 then t.last else r.tiles + 1 == c.span

/-- R148, R152: a tile enters the group, and its result the link buffer, unless ELEMENT has done with the tile already. -/
def rdAdd (n : NCore) (c : RdCfg) (st : Stream) (t : Tile) (bad : Bool) (ix : Nat) : NCore :=
  let r := n.rd.take c t
  let ms := (r.linkMembers c ix).map (fun m => spoilCodes bad (ix + 8192) m)
  let entry : List LinkEntry :=
    if st.to2.isSome && st.took pEwX ≤ st.took pRd then [⟨st.q, st.took pRd, c.row, if c.link then some ms else none⟩] else []
  let a := accOf n c.acc
  setAcc { n with rd := { r with links := r.links ++ entry } } c.acc { a with poison := a.poison || bad }

/-- R147-R154, R158: REDUCE takes a tile into the open operation and its group; `who.bad` has a bit for each accumulator that a parity error spoils (R132). -/
def execReduceTile (who : AccRead) (s : State) : Out :=
  .next (if !rdFree s who.core then s
    else
      let s := setNc s who.core (drainRd (nc s who.core))
      let n := nc s who.core
      match rdNow n, peekTile n pRd with
      | some c, some (st, t) =>
        let stop (a b : Nat) : State := consumeFault s who.core 5 st (st.took pRd) a b
        if !n.rd.out.isEmpty || (c.link && 4 ≤ linkCount n) then s
        else if c.ends n.rd t && (List.range 32).any (fun i => c.dests i && sweepReads n i) then s
        else
          (match tileStop pRd t with
           | some (a, b) => stop a b
           | none =>
             match reduceFault n c st t with
             | some sub => stop 0x10 sub
             | none =>
               let ends := c.ends n.rd t
               let s' := addDiv (spend s 8448) (R.NCO_EWBUSY (halfOf s who.core) (dieCore s who.core)) 32 32 64 (rduAclk c t)
               let s := setNc s' who.core (rdAdd n c st t (who.bad.testBit c.acc) s.free)
               let s := if ends then rdEmit s who.core c else s
               let s := stationTook s who.core pRd st t
               setNc s who.core (drainRd (nc s who.core)))
      | _, _ => s)

/-- R151, R155: end the open operation: an incomplete group is read out and its accumulator let go. -/
def rdClose (s : State) (core : Nat) : State :=
  match (nc s core).rd.op with
  | none => s
  | some (imm, d, x) =>
    let c := rdCfg imm d x
    let s := if (nc s core).rd.tiles = 0 then s else rdEmit s core c
    let n := setAcc (nc s core) c.acc acc0
    setNc s core { n with rd := { n.rd.nextGroup with op := none } }

/-- R151, R155: a REDUCE-class instruction takes effect at its station; false while it must wait. -/
def rdTake (s : State) (core : Nat) (ci : ClassIns) : State × Bool :=
  let s := setNc s core (drainRd (nc s core))
  let n := nc s core
  let hazard : Bool := match n.rd.op with
    | some (imm, d, x) => n.rd.tiles != 0 && (List.range 32).any (fun i => (rdCfg imm d x).dests i && sweepReads n i)
    | none => false
  if !n.rd.out.isEmpty || hazard then (s, false)
  else
    let s := rdClose s core
    if ci.op = 4 then (s, true)
    else
      let n := nc s core
      let c := rdCfg ci.imm ci.d (ci.op == 1)
      if heldByOther n [c.acc] 3 then (s, false)
      else
        let n := setOwner n [c.acc] 3
        (setNc s core { n with rd := { n.rd.nextGroup with op := some (ci.imm, ci.d, ci.op == 1), used := false } }, true)

/-- R35, R117, R124, R125, R129, R139, R151, R445: the oldest class instruction on its way to a station (its code as in R35) takes effect there, unless it must wait or it stops the context. -/
def execClassInstructionAtStation (core station : Nat) (s : State) : Out :=
  .next (if !stationsRun s core then s
    else
      let n := nc s core
      match station with
      | 2 =>
        (match n.mxIn with
         | [] => s
         | ci :: r => let q := mxTake n ci; setNc s core (if q.2 then { q.1 with mxIn := r } else q.1))
      | 3 =>
        (match n.trIn with
         | [] => s
         | ci :: r => let q := trTake n ci; setNc s core (if q.2 then { q.1 with trIn := r } else q.1))
      | 4 =>
        (match n.ewIn with
         | [] => s
         | ci :: r =>
           match ewTake s core ci with
           | .wait => s
           | .ok s' => setNc s' core { nc s' core with ewIn := r }
           | .stop s' status sub => streamFault s' core 4 0 status sub 0)
      | 5 =>
        (match n.rdIn with
         | [] => s
         | ci :: r =>
           let q := rdTake s core ci
           if q.2 then setNc q.1 core { nc q.1 core with rdIn := r } else q.1)
      | _ => s)

/-- R156: the result of one operation over 64 binary32 values, and the NaNs produced. -/
def rregResult (op : Nat) (vs : List Fp) (ix : Nat) : Fp × Nat :=
  let el := vs.foldl (fun (el : RedEl) v => el.take op v 0) redEl0
  if op ≤ 2 then
    (match el.sum.special with
     | some v => v
     | none => (el.sum.window ix).toFp, el.sum.newNan)
  else (if el.some then el.best else .nan, 0)

/-- R80, R156: RDU.RREG. -/
def execRduRreg (t : Tid) (o : Opnds) (s : State) : Out :=
  insnW s t o 0x0C (some ⟨32, 32, 0, 0, 0xF⟩) none (decide (o.md.toNat % 16 ≤ 5)) (fun key s =>
    let n := nc s key
    let op := o.md.toNat % 16
    if pendingWrites n o.a.toNat then .stay s
    else
      let r := rregResult op ((List.range 64).map (fun i => f32 (eElem n o.a.toNat i))) s.free
      let s := spend s 1
      .done (putCounted s key (setF (th s key) o.d.toNat (to64 r.1)) 0x0C ⟨0, 0, r.2⟩))

end Sys2Proof.Machine
end

