-- ==== Sys2Proof/Machine/Lvu.lean ====
section
/-! DEFINITION. The long-vector unit (chapter 7, R159-R182): vector length and masks, arithmetic, conversions, dot-product accumulators, fixed point, element-precise memory accesses, power-down and wake. Remote gathers stand with the fabric. -/

namespace Sys2Proof.Machine

/-- R164: the MOD fields of a long-vector word. -/
structure LvMod where
  vp : Nat
  vm : Bool
  sb : Bool
  num : Nat
  fx : Nat
  nf : Nat
  tt : Nat
  deriving DecidableEq, Repr

/-- R164: read MOD. -/
def lvMod (o : Opnds) : LvMod :=
  let w := o.md.toNat
  ⟨nfld w 0 4, nfld w 4 1 == 1, nfld w 5 1 == 1, nfld w 6 6, nfld w 12 2, nfld w 14 2, nfld w 16 4⟩

/-- R164: VP and VM. -/ abbrev mMask : Nat := 0x1F
/-- R164: SB. -/ abbrev mSb : Nat := 0x20
/-- R164: NUMCTL. -/ abbrev mNum : Nat := 0xFC0
/-- R164: FXRM. -/ abbrev mFx : Nat := 0x3000
/-- R164: NF. -/ abbrev mNf : Nat := 0xC000
/-- R164: TT. -/ abbrev mTt : Nat := 0xF0000

/-- R161: the element types. -/
def lvTypes : List Nat := [6, 5, 10, 9, 8]
/-- R166: the FP types. -/ def lvFps : List Nat := [6, 5]
/-- R166: the integer types. -/ def lvInts : List Nat := [10, 9, 8]

/-- R161: the bits of an element. -/
def tyBits (vt : Nat) : Nat := (codeBits vt).getD 64
/-- R161: VLMAX. -/
def vlMax (vt : Nat) : Nat := 4096 / tyBits vt

/-- R59: vector register `i`. -/
def vreg (t : Thread) (i : Nat) : BitVec 4096 := sget 0 t.v i
/-- R59: write vector register `i`. -/
def setV (t : Thread) (i : Nat) (v : BitVec 4096) : Thread := { t with v := sset 0 t.v i v }

/-- R161: element `i` of a vector register, elements of `bits` bits. -/
def velem (v : BitVec 4096) (bits i : Nat) : Nat := nfld v.toNat (i * bits) bits

/-- A register from its elements. -/
def vmake (bits : Nat) (f : Nat → Nat) : BitVec 4096 :=
  BitVec.ofNat 4096 (joinCodes bits ((List.range (4096 / bits)).map f))

/-- R163: element `i` is active. -/
def lvActive (t : Thread) (m : LvMod) (i : Nat) : Bool :=
  i < t.vl.toNat && (!m.vm || (pr t m.vp).getLsbD i)

/-- R163: the active elements. -/
def lvActs (t : Thread) (m : LvMod) : List Nat := (List.range t.vl.toNat).filter (lvActive t m)

/-- R180, R181: the unit of a thread's S-core is powered down or waking. -/
def lvuDown (s : State) (core : Nat) : Bool := bitw (rd s (R.SCO_LVU_PWR (core / 96) (core % 96))) 17

/-- R180: a long-vector instruction reaches a unit that is down: its thread stalls, and the first one starts the wake. -/
def lvuStartWake (s : State) (key : Nat) : State :=
  let c := coreOf key
  let s := setTh s key { th s key with phase := .wake }
  if s.lvuWaking.any (fun w => w.1 == c) then s
  else
    let a := R.SCO_LVU_PWR (c / 96) (c % 96)
    { wr s a (wrapAdd (rd s a) 32 32 1) with lvuWaking := s.lvuWaking ++ [(c, s.ltc.toNat)] }

/-- R180, R181: a long-vector instruction retires: the idle timer of a unit that is up runs again from now, under the IDLE and NOPD now in force. -/
def lvuRetire (s : State) (core : Nat) : State :=
  let w := rd s (R.SCO_LVU_PWR (core / 96) (core % 96))
  if bitw w 17 then s
  else { s with lvuIdle := sset (some 32000) s.lvuIdle core (if bitw w 16 then none else some (s.ltc.toNat + 1000 * max 1 (fld w 0 16))) }

/-- R168: registers that vl results of a type fill. -/
def lvRegs (t : Thread) (tt : Nat) : Nat := cdiv (t.vl.toNat * tyBits tt) 4096

/-- R179: where an instruction runs and how long it occupies the unit: the scalar pipe; `n` ACLK on one pipe; 4 ACLK on one pipe per register of a VCVT result; `n` ACLK on the memory port; one ACLK on the memory port per eight elements; or remote reads. -/
inductive LvUnit where
  | scalar
  | pipe (n : Nat)
  | perReg (tt : Nat)
  | port (n : Nat)
  | perEight
  | remote
  deriving DecidableEq, Repr

/-- R179, R181: charge an instruction's occupancy to SCO_LVU_BUSY when it retires (log 67). -/
def lvCharge (s : State) (core : Nat) (t : Thread) (u : LvUnit) : State :=
  let a := R.SCO_LVU_BUSY (core / 96) (core % 96)
  match u with
  | .scalar => s
  | .pipe n => addDiv s a 0 24 64 n
  | .perReg tt => addDiv s a 0 24 64 (4 * lvRegs t tt)
  | .port n => addDiv s a 24 24 64 n
  | .perEight => addDiv s a 24 24 64 (cdiv t.vl.toNat 8)
  | .remote => s

/-- R163, R166, R174, R180: the common part of a long-vector instruction: register ranges, the vtype, vl = 0, the wake, and what retirement does; `ok` checks the word, `pre` what depends on vl and vtype. -/
def lvOp (t : Tid) (o : Opnds) (shape : RShape) (types : List Nat) (arith : Bool) (u : LvUnit) (ok : Bool) (pre : Thread → Bool)
    (eff : Nat → State → Res) (s : State) : Out :=
  insnW s t o 0x10 (some shape) none ok (fun key s =>
    let t0 := th s key
    let done (s : State) : Res := .done (lvuRetire (setTh s key { th s key with restart := 0 }) (coreOf key))
    if !pre t0 then .trap s 0x11 0x11 0
    else if !types.contains t0.vtype.toNat then .trap s 0x11 0x30 0
    else if t0.vl = 0 then done (if arith then putCounted s key t0 0x10 cnt0 else s)
    else if u ≠ .scalar && lvuDown s (coreOf key) then .stay (lvuStartWake s key)
    else match eff key s with
      | .done s' => done (lvCharge s' (coreOf key) t0 u)
      | r => r)

/-- R162: set vtype and vl. -/
def setVl (t : Thread) (d ty : Nat) (n : Word) : Thread :=
  let vl := min n.toNat (vlMax ty)
  setX { t with vl := BitVec.ofNat 64 vl, vtype := BitVec.ofNat 64 ty } d (BitVec.ofNat 64 vl)

/-- R162, R166: SETVL; IMM32[31:4] is zero. -/
def execSetvl (t : Tid) (o : Opnds) (s : State) : Out :=
  insnW s t o 0x10 none (some ⟨64, 64, 0xF⟩) (lvTypes.contains o.imm.toNat) (fun key s =>
    let th0 := th s key
    .done (lvuRetire (setTh s key (setVl th0 o.d.toNat o.imm.toNat (xr th0 o.a.toNat))) (coreOf key)))

/-- R162, R166: SETVLR, with the type in xB[3:0]. -/
def execSetvlr (t : Tid) (o : Opnds) (s : State) : Out :=
  insn s t o 0x10 (some ⟨64, 64, 64, 0, 0⟩) none (fun key s =>
    let th0 := th s key
    let ty := (xr th0 o.b.toNat).toNat % 16
    if !lvTypes.contains ty then .trap s 0x11 0x11 0
    else .done (lvuRetire (setTh s key (setVl th0 o.d.toNat ty (xr th0 o.a.toNat))) (coreOf key)))

/-- R165: the code of the broadcast scalar of an SB form. -/
def lvScalar (t : Thread) (o : Opnds) (vt : Nat) : Nat :=
  if vt = 6 then (fr t o.b.toNat).toNat
  else if vt = 5 then to32 (f64 (fr t o.b.toNat))
  else (xr t o.b.toNat).toNat % 2 ^ tyBits vt

/-- R164, R165: element `i` of operand B. -/
def lvB (t : Thread) (o : Opnds) (vt i : Nat) : Nat :=
  if (lvMod o).sb then lvScalar t o vt else velem (vreg t o.b.toNat) (tyBits vt) i

/-- R165: the shift amount of element `i`. -/
def lvShift (t : Thread) (o : Opnds) (vt i : Nat) : Nat :=
  (if (lvMod o).sb then (xr t o.b.toNat).toNat % 64 else velem (vreg t o.b.toNat) (tyBits vt) i % 64) % tyBits vt

/-- R164, R165: the register file of operand B: v, or f or x with SB. -/
def lvBSize (o : Opnds) (isX : Bool) : Nat := if (lvMod o).sb && isX then 64 else 32

/-- R164, R165: without SB, B names a vector register. -/
def lvBWord (o : Opnds) : Bool := (lvMod o).sb || o.b.toNat < 32

/-- R164: operand B names a register of the file that vtype picks. -/
def lvBOk (o : Opnds) (t : Thread) : Bool := o.b.toNat < lvBSize o (t.vtype ≠ 6 && t.vtype ≠ 5)

/-- R163: write the active elements of vD: each result with its counts. -/
def lvMap (t : Thread) (o : Opnds) (f : Nat → Nat × Cnt) : Thread × Cnt :=
  let m := lvMod o
  let bits := tyBits t.vtype.toNat
  let old := vreg t o.d.toNat
  (setV t o.d.toNat (vmake bits (fun i => if lvActive t m i then (f i).1 else velem old bits i)),
   (lvActs t m).foldl (fun c i => c.add (f i).2) cnt0)

/-- R164: NUMCTL and FXRM of the word are not reserved. -/
def lvCtlOk (o : Opnds) : Bool := (numCtl (lvMod o).num).isSome && (lvMod o).fx ≠ 3

/-- R168: the FP operation of up to three operands: its exact value and the operands a NaN could come from. -/
def lvFp (t : Tid) (o : Opnds) (occ : Nat) (useB useC rounds : Bool) (f : Fp → Fp → Fp → Fp) (s : State) : Out :=
  lvOp t o ⟨32, 32, if useB then 64 else 0, if useC then 32 else 0, mMask + (if useB then mSb else 0) + (if rounds then mNum else 0)⟩ lvFps true (.pipe occ)
    (lvCtlOk o && (!useB || lvBWord o)) (fun t0 => !useB || lvBOk o t0) (fun key s =>
    let t0 := th s key
    let vt := t0.vtype.toNat
    let F := (fmtOfCode vt).getD fmtFP64
    let nctl := (numCtl (lvMod o).num).getD numCtl0
    let (kc, s) := takeFor nctl t0.ctx s
    let el (r i : Nat) : Fp := unpack F (velem (vreg t0 r) (tyBits vt) i)
    let q := lvMap t0 o (fun i =>
      let a := el o.a.toNat i
      let b := unpack F (lvB t0 o vt i)
      let c := el o.c.toNat i
      let v := f a b c
      let r := toFmt F (modeFor nctl kc i) nctl.nosat v
      let ops := if useC then [a, b, c] else if useB then [a, b] else [a]
      (r.1, r.2.add ⟨0, 0, newNan v ops⟩))
    .done (putCounted s key q.1 0x10 q.2)) s

/-- R163, R166: a compare into pD. -/
def lvCmp (t : Tid) (o : Opnds) (types : List Nat) (f : Nat → Nat → Nat → Bool) (s : State) : Out :=
  lvOp t o ⟨16, 32, 64, 0, mMask + mSb⟩ types true (.pipe 4) (lvBWord o) (lvBOk o) (fun key s =>
    let t0 := th s key
    let m := lvMod o
    let vt := t0.vtype.toNat
    let bit (i : Nat) : Nat := if lvActive t0 m i && f vt (velem (vreg t0 o.a.toNat) (tyBits vt) i) (lvB t0 o vt i) then 1 else 0
    let p := BitVec.ofNat 512 (joinCodes 1 ((List.range 512).map bit))
    .done (putCounted s key (setP true t0 o.d.toNat p) 0x10 cnt0)) s

/-- R166: an FP compare of two codes. -/
def fpCmpCode (f : Fp → Fp → Bool) (vt a b : Nat) : Bool :=
  let F := (fmtOfCode vt).getD fmtFP64
  f (unpack F a) (unpack F b)

/-- R166: an integer operation: its exact signed operands, the width and the shift amount give the code and the saturations. -/
def lvInt (t : Tid) (o : Opnds) (types : List Nat) (fx : Bool) (f : Nat → Int → Int → Nat → Nat × Nat) (s : State) : Out :=
  lvOp t o ⟨32, 32, 64, 0, mMask + mSb + (if fx then mFx else 0)⟩ types true (.pipe 4) (lvCtlOk o && lvBWord o) (lvBOk o) (fun key s =>
    let t0 := th s key
    let vt := t0.vtype.toNat
    let w := tyBits vt
    let q := lvMap t0 o (fun i =>
      let r := f w (sext w (velem (vreg t0 o.a.toNat) w i)) (sext w (lvB t0 o vt i)) (lvShift t0 o vt i)
      (r.1, ⟨r.2, 0, 0⟩))
    .done (putCounted s key q.1 0x10 q.2)) s

/-- R172: round num / 2^k under FXRM. -/
def fxRound (fx : Nat) (num : Int) (k : Nat) : Int :=
  let q : Int := num / 2 ^ k
  let r : Int := num % 2 ^ k
  match fx with
  | 0 => if 2 * r < 2 ^ k then q else if 2 * r = 2 ^ k then (if q % 2 = 0 then q else q + 1) else q + 1
  | 1 => if 2 * r < 2 ^ k then q else q + 1
  | _ => q

/-- R172: saturate to a signed width: the code and the one saturation. -/
def satTo (w : Nat) (v : Int) : Nat × Nat :=
  let lo : Int := -(2 ^ (w - 1) : Int)
  let hi : Int := 2 ^ (w - 1) - 1
  if v < lo then (ofInt w lo, 1) else if hi < v then (ofInt w hi, 1) else (ofInt w v, 0)

/-- A wrapping integer result. -/
def wrapTo (w : Nat) (v : Int) : Nat × Nat := (ofInt w v, 0)

/-- R168: write vl results of a type packed in index order into registers from vD. -/
def lvPack (t : Thread) (o : Opnds) (tt : Nat) (f : Nat → Nat) : Thread :=
  let m := lvMod o
  let bits := tyBits tt
  let per := 4096 / bits
  (List.range (lvRegs t tt)).foldl (fun t' r =>
    let old := vreg t (o.d.toNat + r)
    setV t' (o.d.toNat + r) (vmake bits (fun j => if lvActive t m (r * per + j) then f (r * per + j) else velem old bits j))) t

/-- R94-R98, R168: convert one element from a type to another: the code and what it counts. -/
def lvConv (vt tt : Nat) (md : RMode) (nosat : Bool) (c : Nat) : Nat × Cnt :=
  match fmtOfCode vt, fmtOfCode tt with
  | some F, some G => let v := unpack F c; toFmt G md nosat v
  | some F, none => let r := toIntSat md (tyBits tt) (unpack F c); (ofInt (tyBits tt) r.1, ⟨r.2, 0, 0⟩)
  | none, some G => toFmt G md nosat (Dy.mk (sext (tyBits vt) c) 0).toFp
  | none, none => let r := satTo (tyBits tt) (sext (tyBits vt) c); (r.1, ⟨r.2, 0, 0⟩)

/-- R167, R168: VCVT. -/
def execVcvt (t : Tid) (o : Opnds) (s : State) : Out :=
  let m := lvMod o
  lvOp t o ⟨32, 32, 0, 0, mMask + mNum + mTt⟩ lvTypes true (.perReg m.tt) (lvCtlOk o)
    (fun t0 => !lvTypes.contains m.tt || o.d.toNat + lvRegs t0 m.tt ≤ 32) (fun key s =>
    let t0 := th s key
    let vt := t0.vtype.toNat
    if !lvTypes.contains m.tt then .trap s 0x11 0x30 0
    else
      let nctl := (numCtl m.num).getD numCtl0
      let (kc, s) := takeFor nctl t0.ctx s
      let f (i : Nat) : Nat × Cnt := lvConv vt m.tt (modeFor nctl kc i) nctl.nosat (velem (vreg t0 o.a.toNat) (tyBits vt) i)
      .done (putCounted s key (lvPack t0 o m.tt (fun i => (f i).1)) 0x10 ((lvActs t0 m).foldl (fun c i => c.add (f i).2) cnt0))) s

/-- R172: VNSHR. -/
def execVnshr (t : Tid) (o : Opnds) (s : State) : Out :=
  let m := lvMod o
  lvOp t o ⟨32, 32, 64, 0, mMask + mSb + mFx + mTt⟩ [9, 10] true (.pipe 4) (lvCtlOk o && lvBWord o) (lvBOk o) (fun key s =>
    let t0 := th s key
    let vt := t0.vtype.toNat
    let w := tyBits vt
    if !(lvInts.contains m.tt && tyBits m.tt < w) then .trap s 0x11 0x30 0
    else
      let f (i : Nat) : Nat × Nat := satTo (tyBits m.tt) (fxRound m.fx (sext w (velem (vreg t0 o.a.toNat) w i)) (lvShift t0 o vt i))
      .done (putCounted s key (lvPack t0 o m.tt (fun i => (f i).1)) 0x10 ⟨((lvActs t0 m).map (fun i => (f i).2)).sum, 0, 0⟩)) s

/-- R170: the sum that an accumulator image stands for; none when it holds no defined sum. -/
def dotOf (s : State) (v : BitVec 4096) : Option AccEl :=
  if v = 0 then some accEl0 else ((s.dots.find? (fun d => d.1 == v)).map (·.2)).getD none

/-- R170: a register image for a sum: free bits, kept apart from every image in use and from the empty one. -/
def dotImage (s : State) (el : Option AccEl) : BitVec 4096 × State :=
  let (b, s) := drawBits 4096 s
  let used (v : BitVec 4096) : Bool := v = 0 || s.dots.any (fun d => d.1 == v)
  let v := if used b then
      (((List.range (s.dots.length + 1)).map (fun i => BitVec.ofNat 4096 (i + 1))).find? (fun v => !used v)).getD b
    else b
  (v, { s with dots := (v, el) :: s.dots })

/-- R104, R171: a sum read out once to binary64, off by a free amount of at most 2^-104 of the magnitudes (log 8). -/
def dotRound (el : AccEl) (ix : Nat) : Fp :=
  match el.special with
  | some v => v
  | none => (el.sum.add (el.abs.mul ⟨(Config.freeBits 64 ix).toInt, -167⟩)).toFp

/-- R171: an FP element widened exactly to binary64. -/
def lvVal (vt c : Nat) : Fp := unpack ((fmtOfCode vt).getD fmtFP64) c

/-- R170: VDOT. -/
def execVdot (t : Tid) (o : Opnds) (s : State) : Out :=
  lvOp t o ⟨32, 32, 64, 0, mMask + mSb⟩ lvFps true (.pipe 4) (lvBWord o) (lvBOk o) (fun key s =>
    let t0 := th s key
    let vt := t0.vtype.toNat
    let el := (dotOf s (vreg t0 o.d.toNat)).map (fun el => (lvActs t0 (lvMod o)).foldl (fun el i =>
      el.prod (lvVal vt (velem (vreg t0 o.a.toNat) (tyBits vt) i)) (lvVal vt (lvB t0 o vt i)) 0) el)
    let (v, s) := dotImage s el
    .done (putCounted s key (setV t0 o.d.toNat v) 0x10 cnt0)) s

/-- R170: two sums merged. -/
def AccEl.merge (a b : AccEl) : AccEl :=
  ⟨a.sum.add b.sum, a.abs.add b.abs, a.pinf || b.pinf, a.ninf || b.ninf, a.nanP || b.nanP, a.nanOp || b.nanOp, a.n + b.n, min a.kmin b.kmin, max a.kmax b.kmax⟩

/-- R170: VACCADD. -/
def execVaccadd (t : Tid) (o : Opnds) (s : State) : Out :=
  lvOp t o ⟨32, 32, 0, 0, 0⟩ lvTypes true (.pipe 4) true (fun _ => true) (fun key s =>
    let t0 := th s key
    let el := match dotOf s (vreg t0 o.d.toNat), dotOf s (vreg t0 o.a.toNat) with
      | some a, some b => some (a.merge b)
      | _, _ => none
    let (v, s) := dotImage s el
    .done (putCounted s key (setV t0 o.d.toNat v) 0x10 cnt0)) s

/-- R170, R171: VDOTR; a register that holds no defined sum gives any binary64 value. -/
def execVdotr (t : Tid) (o : Opnds) (s : State) : Out :=
  lvOp t o ⟨32, 32, 0, 0, 0⟩ lvTypes true (.pipe 4) true (fun _ => true) (fun key s =>
    let t0 := th s key
    let (b, s') := drawBits 64 s
    match dotOf s (vreg t0 o.a.toNat) with
    | some el => .done (putCounted s' key (setF t0 o.d.toNat (to64 (dotRound el s.free))) 0x10 ⟨0, 0, el.newNan⟩)
    | none => .done (putCounted s' key (setF t0 o.d.toNat b) 0x10 cnt0)) s

/-- R166, R171: a reduction: fD for FP types, xD for integer types. -/
def lvRed (t : Tid) (o : Opnds) (fp : List Fp → State → Fp × Nat) (int : Nat → List Int → Int) (s : State) : Out :=
  lvOp t o ⟨64, 32, 0, 0, mMask⟩ lvTypes true (.pipe 4) true (fun t0 => o.d.toNat < (if t0.vtype = 6 ∨ t0.vtype = 5 then 32 else 64)) (fun key s =>
    let t0 := th s key
    let vt := t0.vtype.toNat
    let codes := (lvActs t0 (lvMod o)).map (fun i => velem (vreg t0 o.a.toNat) (tyBits vt) i)
    if lvFps.contains vt then
      let r := fp (codes.map (lvVal vt)) s
      .done (putCounted (spend s 1) key (setF t0 o.d.toNat (to64 r.1)) 0x10 ⟨0, 0, r.2⟩)
    else .done (putCounted s key (setX t0 o.d.toNat (BitVec.ofInt 64 (int (tyBits vt) (codes.map (sext (tyBits vt)))))) 0x10 cnt0)) s

/-- R171: VREDSUM. -/
def execVredsum (t : Tid) (o : Opnds) (s : State) : Out :=
  lvRed t o (fun vs s => let el := vs.foldl AccEl.addTerm accEl0; (dotRound el s.free, el.newNan)) (fun _ vs => vs.foldl (· + ·) 0) s
/-- R149, R171: VREDMAX. -/
def execVredmax (t : Tid) (o : Opnds) (s : State) : Out :=
  lvRed t o (fun vs _ => (vs.foldl fMax .nan, 0)) (fun w vs => vs.foldl max (-(2 ^ (w - 1) : Int))) s
/-- R149, R171: VREDMIN. -/
def execVredmin (t : Tid) (o : Opnds) (s : State) : Out :=
  lvRed t o (fun vs _ => (vs.foldl fMin .nan, 0)) (fun w vs => vs.foldl min (2 ^ (w - 1) - 1 : Int)) s

/-- R166: VPCNT. -/
def execVpcnt (t : Tid) (o : Opnds) (s : State) : Out :=
  lvOp t o ⟨64, 16, 0, 0, 0⟩ lvTypes false .scalar true (fun _ => true) (fun key s =>
    let t0 := th s key
    .done (setTh s key (setX t0 o.d.toNat (BitVec.ofNat 64 ((List.range t0.vl.toNat).filter (fun i => (pr t0 o.a.toNat).getLsbD i)).length)))) s
/-- R166: VPFIRST. -/
def execVpfirst (t : Tid) (o : Opnds) (s : State) : Out :=
  lvOp t o ⟨64, 16, 0, 0, 0⟩ lvTypes false .scalar true (fun _ => true) (fun key s =>
    let t0 := th s key
    let r := match (List.range t0.vl.toNat).find? (fun i => (pr t0 o.a.toNat).getLsbD i) with
      | some i => BitVec.ofNat 64 i
      | none => BitVec.allOnes 64
    .done (setTh s key (setX t0 o.d.toNat r))) s

/-- R96, R166: VMOV moves bit patterns; with SB, A is unused and B names the scalar. -/
def execVmov (t : Tid) (o : Opnds) (s : State) : Out :=
  let sb := (lvMod o).sb
  lvOp t o ⟨32, if sb then 0 else 32, if sb then 64 else 0, 0, mMask + mSb⟩ lvTypes false (.pipe 4) true (fun t0 => !sb || lvBOk o t0) (fun key s =>
    let t0 := th s key
    let vt := t0.vtype.toNat
    .done (setTh s key (lvMap t0 o (fun i => (if sb then lvScalar t0 o vt else velem (vreg t0 o.a.toNat) (tyBits vt) i, cnt0))).1)) s
/-- R166: VIOTA. -/
def execViota (t : Tid) (o : Opnds) (s : State) : Out :=
  lvOp t o ⟨32, 0, 0, 0, mMask⟩ [10] false (.pipe 4) true (fun _ => true) (fun key s =>
    .done (setTh s key (lvMap (th s key) o (fun i => (i, cnt0))).1)) s

/-- How the element accesses of an instruction ended: all done, or stopped at an element by an error or a wait. -/
inductive LvEnd where
  | all
  | err (e : AccErr) (k : Nat)
  | wait
  deriving DecidableEq, Repr

/-- R173: load the fields of one element: aligned, in order, none torn. -/
def lvLoadEl (s : State) (src : Src) (size : Nat) : List Nat → State × MemRes (List Nat)
  | [] => (s, .ok [])
  | a :: as =>
    if a % size ≠ 0 then (s, .err .align)
    else
      match vaUse s src a size with
      | (s, .ok bs) =>
        (match lvLoadEl s src size as with
         | (s, .ok cs) => (s, .ok (leNat bs :: cs))
         | (s, .err e) => (s, .err e)
         | (s, .wait) => (s, .wait))
      | (s, .err e) => (s, .err e)
      | (s, .wait) => (s, .wait)

/-- R174: load elements in order until one stops: the elements loaded. -/
def lvLoadRun (s : State) (src : Src) (size : Nat) (addrs : Nat → List Nat) : List Nat → State × List (Nat × List Nat) × LvEnd
  | [] => (s, [], .all)
  | i :: is =>
    match lvLoadEl s src size (addrs i) with
    | (s, .ok cs) => let q := lvLoadRun s src size addrs is; (q.1, (i, cs) :: q.2.1, q.2.2)
    | (s, .err e) => (s, [], .err e i)
    | (s, .wait) => (s, [], .wait)

/-- R163: put loaded elements into the registers from vD, one register per field. -/
def lvPutLoaded (t : Thread) (d nf bits : Nat) (got : List (Nat × List Nat)) : Thread :=
  (List.range (nf + 1)).foldl (fun t f =>
    let old := vreg t (d + f)
    setV t (d + f) (vmake bits (fun i =>
      match got.find? (fun g => g.1 == i) with
      | some g => nth g.2 f
      | none => velem old bits i))) t

/-- R173-R175: a vector load: `addrs` gives the addresses of the fields of element `i`. -/
def lvLoad (t : Tid) (o : Opnds) (shape : RShape) (u : LvUnit) (ok : Bool) (pre : Thread → Bool) (ff : Bool) (addrs : Thread → Nat → List Nat) (s : State) : Out :=
  let m := lvMod o
  lvOp t o shape lvTypes false u ok pre (fun key s0 =>
    let t0 := th s0 key
    let bits := tyBits t0.vtype.toNat
    let acts := lvActs t0 m
    let (s, got, fin) := lvLoadRun s0 (srcTh s0 key) (bits / 8) (addrs t0) (acts.filter (fun i => t0.restart ≤ i))
    let put (s : State) : State := setTh s key (lvPutLoaded (th s key) o.d.toNat m.nf bits got)
    match fin with
    | .all => .done (put s)
    | .wait => .stay s0
    | .err e k =>
      if ff && acts.head? ≠ some k then .done (let s := put s; setTh s key { th s key with vl := BitVec.ofNat 64 k })
      else .trap (put s) (accCode e).1 (accCode e).2 k) s

/-- R173: check the fields of one element that is to be stored: their physical addresses, in order. -/
def lvCheckEl (s : State) (ctx size : Nat) : List Nat → State × MemRes (List Nat)
  | [] => (s, .ok [])
  | a :: as =>
    if a % size ≠ 0 then (s, .err .align)
    else
      match vaCheck s ctx a size .write with
      | (s, .ok pa) =>
        (match lvCheckEl s ctx size as with
         | (s, .ok ps) => (s, .ok (pa :: ps))
         | (s, .err e) => (s, .err e)
         | (s, .wait) => (s, .wait))
      | (s, .err e) => (s, .err e)
      | (s, .wait) => (s, .wait)

/-- R173, R174: store elements in order until one stops; an element is written at the addresses its check gave. -/
def lvStoreRun (s : State) (src : Src) (size : Nat) (addrs : Nat → List Nat) (codes : Nat → List Nat) : List Nat → State × LvEnd
  | [] => (s, .all)
  | i :: is =>
    match lvCheckEl s src.ctx size (addrs i) with
    | (s, .ok ps) =>
      let s := (ps.zip (codes i)).foldl (fun s p => physWrite s src p.1 (leBytes size p.2)) s
      lvStoreRun s src size addrs codes is
    | (s, .err e) => (s, .err e i)
    | (s, .wait) => (s, .wait)

/-- R173, R174: a vector store of the registers from vD. -/
def lvStore (t : Tid) (o : Opnds) (shape : RShape) (u : LvUnit) (ok : Bool) (pre : Thread → Bool) (addrs : Thread → Nat → List Nat) (s : State) : Out :=
  let m := lvMod o
  lvOp t o shape lvTypes false u ok pre (fun key s0 =>
    let t0 := th s0 key
    let bits := tyBits t0.vtype.toNat
    let codes (i : Nat) : List Nat := (List.range (m.nf + 1)).map (fun f => velem (vreg t0 (o.d.toNat + f)) bits i)
    let (s, fin) := lvStoreRun s0 (srcTh s0 key) (bits / 8) (addrs t0) codes ((lvActs t0 m).filter (fun i => t0.restart ≤ i))
    match fin with
    | .all => .done s
    | .wait => .stay s0
    | .err e k => .trap s (accCode e).1 (accCode e).2 k) s

/-- R166: bytes of an element of a thread's vtype. -/
def lvSize (t : Thread) : Nat := tyBits t.vtype.toNat / 8

/-- R166: unit-stride addresses. -/
def unitAddr (o : Opnds) (t : Thread) (i : Nat) : List Nat := [vaOf ((xr t o.a.toNat).toNat + (i * lvSize t : Nat))]
/-- R166: strided addresses, with a signed byte stride. -/
def strideAddr (o : Opnds) (t : Thread) (i : Nat) : List Nat := [vaOf ((xr t o.a.toNat).toNat + i * (xr t o.b.toNat).toInt)]
/-- R173: the signed index of element `i`. -/
def lvIndex (o : Opnds) (t : Thread) (i : Nat) : Int := sext 32 (velem (vreg t (o.b.toNat + i / 128)) 32 (i % 128))
/-- R166, R173: indexed addresses. -/
def indexAddr (o : Opnds) (t : Thread) (i : Nat) : List Nat := [vaOf ((xr t o.a.toNat).toNat + lvIndex o t i * lvSize t)]
/-- R166: the addresses of the fields of a record. -/
def segAddr (o : Opnds) (t : Thread) (i : Nat) : List Nat :=
  let n := (lvMod o).nf + 1
  (List.range n).map (fun f => vaOf ((xr t o.a.toNat).toNat + ((i * n + f) * lvSize t : Nat)))

/-- R173: index registers. -/
def indexRegs (t : Thread) : Nat := cdiv (t.vl.toNat * 4) 512
/-- R167: the index registers end at v31 or before. -/
def indexOk (o : Opnds) (t : Thread) : Bool := o.b.toNat + indexRegs t ≤ 32
/-- R167: the destination is no index register. -/
def indexApart (o : Opnds) (t : Thread) : Bool := !(o.b ≤ o.d && o.d.toNat < o.b.toNat + indexRegs t)
/-- R164, R167: NF is not 0 and the registers end at v31 or before. -/
def segOk (o : Opnds) : Bool := (lvMod o).nf ≠ 0 && o.d.toNat + (lvMod o).nf < 32

/-- R166, R174: VLD. -/
def execVld (t : Tid) (o : Opnds) (s : State) : Out := lvLoad t o ⟨32, 64, 0, 0, mMask⟩ (.port 4) true (fun _ => true) false (unitAddr o) s
/-- R175: VLDFF. -/
def execVldff (t : Tid) (o : Opnds) (s : State) : Out := lvLoad t o ⟨32, 64, 0, 0, mMask⟩ (.port 4) true (fun _ => true) true (unitAddr o) s
/-- R166: VLDS. -/
def execVlds (t : Tid) (o : Opnds) (s : State) : Out := lvLoad t o ⟨32, 64, 64, 0, mMask⟩ .perEight true (fun _ => true) false (strideAddr o) s
/-- R166, R173: VLDX. -/
def execVldx (t : Tid) (o : Opnds) (s : State) : Out := lvLoad t o ⟨32, 64, 32, 0, mMask⟩ .perEight true (fun t0 => indexOk o t0 && indexApart o t0) false (indexAddr o) s
/-- R175: VLDXFF. -/
def execVldxff (t : Tid) (o : Opnds) (s : State) : Out := lvLoad t o ⟨32, 64, 32, 0, mMask⟩ .perEight true (fun t0 => indexOk o t0 && indexApart o t0) true (indexAddr o) s
/-- R166: VLDSEG. -/
def execVldseg (t : Tid) (o : Opnds) (s : State) : Out := lvLoad t o ⟨32, 64, 0, 0, mMask + mNf⟩ (.port (4 * ((lvMod o).nf + 1))) (segOk o) (fun _ => true) false (segAddr o) s
/-- R166: VST. -/
def execVst (t : Tid) (o : Opnds) (s : State) : Out := lvStore t o ⟨32, 64, 0, 0, mMask⟩ (.port 4) true (fun _ => true) (unitAddr o) s
/-- R166: VSTS. -/
def execVsts (t : Tid) (o : Opnds) (s : State) : Out := lvStore t o ⟨32, 64, 64, 0, mMask⟩ .perEight true (fun _ => true) (strideAddr o) s
/-- R166, R173: VSTX: elements go in rising order, so the higher index is left. -/
def execVstx (t : Tid) (o : Opnds) (s : State) : Out := lvStore t o ⟨32, 64, 32, 0, mMask⟩ .perEight true (indexOk o) (indexAddr o) s
/-- R166: VSTSEG. -/
def execVstseg (t : Tid) (o : Opnds) (s : State) : Out := lvStore t o ⟨32, 64, 0, 0, mMask + mNf⟩ (.port (4 * ((lvMod o).nf + 1))) (segOk o) (fun _ => true) (segAddr o) s


/-- R168: VFADD. -/
def execVfadd (t : Tid) (o : Opnds) (s : State) : Out := lvFp t o 4 true false true (fun a b _ => fAdd a b) s

/-- R168: VFSUB. -/
def execVfsub (t : Tid) (o : Opnds) (s : State) : Out := lvFp t o 4 true false true (fun a b _ => fAdd a b.neg) s

/-- R168: VFMUL. -/
def execVfmul (t : Tid) (o : Opnds) (s : State) : Out := lvFp t o 4 true false true (fun a b _ => fMul a b) s

/-- R168: VFDIV. -/
def execVfdiv (t : Tid) (o : Opnds) (s : State) : Out := lvFp t o 32 true false true (fun a b _ => fDiv a b) s

/-- R168: VFSQRT. -/
def execVfsqrt (t : Tid) (o : Opnds) (s : State) : Out := lvFp t o 32 false false true (fun a _ _ => fSqrt a) s

/-- R168: VFMA, rounded once. -/
def execVfma (t : Tid) (o : Opnds) (s : State) : Out := lvFp t o 4 true true true (fun a b c => fAdd (fMul a b) c) s

/-- R166: VFMIN. -/
def execVfmin (t : Tid) (o : Opnds) (s : State) : Out := lvFp t o 4 true false false (fun a b _ => fMin a b) s

/-- R166: VFMAX. -/
def execVfmax (t : Tid) (o : Opnds) (s : State) : Out := lvFp t o 4 true false false (fun a b _ => fMax a b) s

/-- R163, R166: VFCMPEQ. -/
def execVfcmpeq (t : Tid) (o : Opnds) (s : State) : Out := lvCmp t o lvFps (fpCmpCode fEq) s

/-- R163, R166: VFCMPLT. -/
def execVfcmplt (t : Tid) (o : Opnds) (s : State) : Out := lvCmp t o lvFps (fpCmpCode fLt) s

/-- R163, R166: VFCMPLE. -/
def execVfcmple (t : Tid) (o : Opnds) (s : State) : Out := lvCmp t o lvFps (fpCmpCode (fun a b => fLt a b || fEq a b)) s

/-- R163, R166: VCMPEQ. -/
def execVcmpeq (t : Tid) (o : Opnds) (s : State) : Out := lvCmp t o lvInts (fun _ a b => a == b) s

/-- R163, R166: VCMPLT, signed. -/
def execVcmplt (t : Tid) (o : Opnds) (s : State) : Out := lvCmp t o lvInts (fun vt a b => decide (sext (tyBits vt) a < sext (tyBits vt) b)) s

/-- R166: VADD. -/
def execVadd (t : Tid) (o : Opnds) (s : State) : Out := lvInt t o lvInts false (fun w a b _ => wrapTo w (a + b)) s

/-- R166: VSUB. -/
def execVsub (t : Tid) (o : Opnds) (s : State) : Out := lvInt t o lvInts false (fun w a b _ => wrapTo w (a - b)) s

/-- R172: VSADD. -/
def execVsadd (t : Tid) (o : Opnds) (s : State) : Out := lvInt t o lvInts false (fun w a b _ => satTo w (a + b)) s

/-- R172: VSSUB. -/
def execVssub (t : Tid) (o : Opnds) (s : State) : Out := lvInt t o lvInts false (fun w a b _ => satTo w (a - b)) s

/-- R172: VAADD. -/
def execVaadd (t : Tid) (o : Opnds) (s : State) : Out := lvInt t o lvInts true (fun w a b _ => wrapTo w (fxRound (lvMod o).fx (a + b) 1)) s

/-- R166: VMUL. -/
def execVmul (t : Tid) (o : Opnds) (s : State) : Out := lvInt t o lvInts false (fun w a b _ => wrapTo w (a * b)) s

/-- R172: VMULH. -/
def execVmulh (t : Tid) (o : Opnds) (s : State) : Out := lvInt t o lvInts true (fun w a b _ => wrapTo w (fxRound (lvMod o).fx (a * b) w)) s

/-- R172: VMULHQ. -/
def execVmulhq (t : Tid) (o : Opnds) (s : State) : Out := lvInt t o lvInts true (fun w a b _ => satTo w (fxRound (lvMod o).fx (a * b) (w - 1))) s

/-- R166: VMIN. -/
def execVmin (t : Tid) (o : Opnds) (s : State) : Out := lvInt t o lvInts false (fun w a b _ => wrapTo w (min a b)) s

/-- R166: VMAX. -/
def execVmax (t : Tid) (o : Opnds) (s : State) : Out := lvInt t o lvInts false (fun w a b _ => wrapTo w (max a b)) s

/-- R166: VAND. -/
def execVand (t : Tid) (o : Opnds) (s : State) : Out := lvInt t o lvInts false (fun w a b _ => (Nat.land (ofInt w a) (ofInt w b), 0)) s

/-- R166: VOR. -/
def execVor (t : Tid) (o : Opnds) (s : State) : Out := lvInt t o lvInts false (fun w a b _ => (Nat.lor (ofInt w a) (ofInt w b), 0)) s

/-- R166: VXOR. -/
def execVxor (t : Tid) (o : Opnds) (s : State) : Out := lvInt t o lvInts false (fun w a b _ => (Nat.xor (ofInt w a) (ofInt w b), 0)) s

/-- R165, R166: VSHL. -/
def execVshl (t : Tid) (o : Opnds) (s : State) : Out := lvInt t o lvInts false (fun w a _ sh => wrapTo w (a * 2 ^ sh)) s

/-- R165, R172: VSRA. -/
def execVsra (t : Tid) (o : Opnds) (s : State) : Out := lvInt t o lvInts true (fun w a _ sh => wrapTo w (fxRound (lvMod o).fx a sh)) s

/-- R180: 1.2 us after the wake began, it ends: the unit is up, and the stalled threads proceed. -/
def execLvuWakeDone (core : Nat) (s : State) : Out :=
  .next (match s.lvuWaking.find? (fun w => w.1 == core) with
    | none => s
    | some w =>
      if s.ltc.toNat < w.2 + 1200 then s
      else
        let s := wrf { s with lvuWaking := s.lvuWaking.filter (fun w => w.1 != core) } (R.SCO_LVU_PWR (core / 96) (core % 96)) 17 1 0
        let s := (List.range 8).foldl (fun s t =>
          let k := 128 + 8 * core + t
          if (th s k).phase = .wake then setTh s k { th s k with phase := .run } else s) s
        lvuRetire s core)

/-- R180: the idle time has passed with no long-vector instruction retired: the unit powers down and keeps its registers. -/
def execLvuPowerDown (core : Nat) (s : State) : Out :=
  let a := R.SCO_LVU_PWR (core / 96) (core % 96)
  .next (match sget (some 32000) s.lvuIdle core with
    | some dl => if core < 192 && !bitw (rd s a) 17 && !bitw (rd s a) 16 && dl ≤ s.ltc.toNat then wrf s a 17 1 1 else s
    | none => s)

/-- R181: writing IDLE takes effect from the next retirement; NOPD 1 stops the idle timer at once. -/
def execScoLvuPwrWrite (core : Nat) (value : Word) (s : State) : Out :=
  .next (if core < 192 then
      let a := R.SCO_LVU_PWR (core / 96) (core % 96)
      let s := wrf s a 0 17 (fld value 0 17)
      if bitw value 16 then { s with lvuIdle := sset (some 32000) s.lvuIdle core none } else s
    else s)

end Sys2Proof.Machine
end

