-- ==== Sys2Proof/Machine/Fabric.lean ====
section
/-! DEFINITION. The source side of Scauth (R251-R265, R273, R275, R282): coordinates and routes, the remote window table, requests and their final failures, RGET, RPUT, RPUTF, atomics, VRGATHER and the FABRIC streams. -/

namespace Sys2Proof.Machine

/-- R253: this package's coordinate. -/
def ownCoord (s : State) : Nat := rdf s R.SCF_COORD 0 20
/-- R255: one axis of a coordinate. -/
def coordAx (c ax : Nat) : Nat := nfld c (5 * ax) 5
/-- R255: a coordinate with one axis replaced. -/
def setAx (c ax v : Nat) : Nat := c - (coordAx c ax) <<< (5 * ax) + (v % 32) <<< (5 * ax)
/-- R253: the length of an axis. -/
def axisLen (s : State) (ax : Nat) : Nat := rdf s R.SCF_COORD (20 + 5 * ax) 5 + 1
/-- R253: the block's origin on an axis. -/
def blockOrg (s : State) (ax : Nat) : Nat := rdf s R.SCF_BLOCK (5 * ax) 5
/-- R253: the block's extent on an axis. -/
def blockExt (s : State) (ax : Nat) : Nat := rdf s R.SCF_BLOCK (20 + 5 * ax) 5 + 1
/-- R253: the block has wrap-around on an axis. -/
def blockWrap (s : State) (ax : Nat) : Bool := bitw (rd s R.SCF_BLOCK) (40 + ax) && blockExt s ax == axisLen s ax
/-- R253: the offset of a place on an axis from an origin. -/
def axOff (s : State) (ax o c : Nat) : Nat := (c + 32 * axisLen s ax - o) % axisLen s ax
/-- R258, R281: a coordinate lies inside SCF_BLOCK; with the block not valid none does. -/
def inBlock (s : State) (c : Nat) : Bool :=
  bitw (rd s R.SCF_BLOCK) 63 && (List.range 4).all (fun ax =>
    coordAx c ax < axisLen s ax && axOff s ax (blockOrg s ax) (coordAx c ax) < blockExt s ax)

/-- R277, R281: a coordinate is in SCF_LOST, or more than 64 are lost. -/
def isLost (s : State) (c : Nat) : Bool :=
  (List.range 64).any (fun i => let w := rd s (R.SCF_LOST i); bitw w 63 && (fld w 0 20 == c || (i == 63 && bitw w 62)))

/-- R256-R258: what the window table gives a line: its target and address, or a status and subcode. -/
inductive WinRes where
  | ok (target addr : Nat)
  | err (status sub : Nat)
  deriving DecidableEq, Repr

/-- R256-R258: translate and check a line for a partition; `perm` is the entry's permission bit (1 RD, 2 WR, 3 AT). -/
def winCheckP (s : State) (part va perm : Nat) : WinRes :=
  let i := nfld va 26 21
  let w0 := rd s (R.WIN_ENTRY0 i)
  if 2 ^ 47 ≤ va ∨ bitw w0 0 = false then .err 0x10 0x16
  else if fld w0 4 3 ≠ part ∨ bitw w0 perm = false then .err 0x11 0x17
  else if !inBlock s (fld w0 8 20) then .err 0x21 0x56
  else .ok (fld w0 8 20) (fld (rd s (R.WIN_ENTRY1 i)) 26 22 * 2 ^ 26 + va % 2 ^ 26)

/-- R256-R258: translate and check a line for a context. -/
def winCheck (s : State) (ctx va perm : Nat) : WinRes := winCheckP s (partOf s ctx) va perm

/-- R274: the next sequence number of an engine. -/
def takeSeq (s : State) (eng : Nat) : Nat × State :=
  let q := sget 0 s.seqs eng
  (q, { s with seqs := sset 0 s.seqs eng ((q + 1) % 2 ^ 24) })

/-- R269: the domain ID of a context's partition. -/
def domOf (s : State) (ctx : Nat) : Nat := rdf s (R.SCF_DOMAIN (partOf s ctx)) 0 16

/-- R282: write the record of a final failure; while one is unread, count it in MORE. -/
def xfault (s : State) (ctx status cause cnt key line va : Nat) : State :=
  let a := R.SCF_XFAULT ctx
  if bitw (rd s a) 63 then wr s a (satAdd (rd s a) 48 14 1)
  else
    let w := status % 256 + (cause % 256) <<< 8 + (cnt % 32) <<< 16 + (lane key) <<< 21 + (coreOf key % 256) <<< 24
      + (line % 65536) <<< 32 + (if isS key then 1 else 0) <<< 62 + 1 <<< 63
    wr (wr s a (BitVec.ofNat 64 w)) (R.SCF_XADDR ctx) (BitVec.ofNat 64 (va % 2 ^ 47))

/-- R52, R265: a tile that FABRIC.put sent has failed: the tile and those sent after it go back to its stream, which restarts from that tile, and the context stops. -/
def putFault (s : State) (t : PutTile) (status : Nat) : State :=
  let later (y : PutTile) : Bool := y.core == t.core && y.gen == t.gen && y.q == t.q
  let back := s.putTiles.filter later
  let n := nc s t.core
  let fix (x : Stream) : Stream :=
    if x.q ≠ t.q then x
    else Stream.rewind { x with took1 := t.tile, tiles := back.map (·.data) ++ x.tiles } t.tile
  let s : State := { setNc s t.core { n with streams := n.streams.map fix } with putTiles := s.putTiles.filter (fun y => !later y) }
  streamFault s t.core 7 t.sd status 0x50 t.tile

/-- R42, R264: a FABRIC.put stream whose every tile is sent and acknowledged frees its queue. -/
def freePuts (s : State) (core : Nat) : State :=
  let n := nc s core
  let g := (th s core).gen
  let spent (st : Stream) : Bool := st.to1 == pFab && st.took1 == st.d.total && !s.putTiles.any (fun y => y.core == core && y.gen == g && y.q == st.q)
  if n.streams.any spent then setNc s core { n with streams := n.streams.filter (fun st => !spent st) } else s

/-- R52, R262, R265: the tiles of a core's FABRIC.put that are over, in the order sent: an acknowledged one counts; a failed one stops the context, once it is there to be stopped. -/
def settlePuts (s : State) (core : Nat) : Nat → State
  | 0 => freePuts s core
  | fuel + 1 =>
    match s.putTiles.find? (fun t => t.core == core && t.left == 0 && (s.putTiles.find? (fun y => y.core == core && y.gen == t.gen && y.q == t.q)).any (fun y => y.id == t.id)) with
    | none => freePuts s core
    | some t =>
      let gone : State := { s with putTiles := s.putTiles.filter (fun y => y.id ≠ t.id) }
      match t.fail with
      | none => settlePuts (countNum (arrive gone core t.gen t.cnt) t.ctx ⟨t.data.sat, t.data.flush, 0⟩) core fuel
      | some status =>
        let n := th s core
        if n.gen ≠ t.gen then
          (if s.images.any (fun im => im.key == core && im.th.gen == t.gen) then freePuts s core else settlePuts gone core fuel)
        else match n.phase with
          | .fault => freePuts s core
          | .atomic => freePuts s core
          | .idle => settlePuts gone core fuel
          | _ => putFault s t status

/-- R265: the transfers of a thread that are over: a finished one goes; a failed one stops its thread, once the thread is at a boundary. -/
def settle (s : State) (key : Nat) : State :=
  let spent := s.xfers.filter (fun x => x.out == 0 && (x.next == x.n || x.fail.isSome) && x.key == key)
  spent.foldl (fun s x =>
    let gone : State := { s with xfers := s.xfers.filter (fun y => y.id ≠ x.id) }
    match x.fail with
    | none => gone
    | some (status, line) =>
      let t := th s key
      if t.gen ≠ x.gen then
        (if s.images.any (fun im => im.key == key && im.th.gen == x.gen) then s else gone)
      else match t.phase with
        | .fault => s
        | .atomic => s
        | .gather => s
        | .idle => gone
        | _ => if isS key then insnFault gone key 0x04 status 0x50 0 else streamFault gone key 7 0 status 0x50 line) (settlePuts s key s.putTiles.length)

/-- R265, R327: a thread goes on after its atomic or gather: a watchdog that waited stops it, else what its transfers owe it. -/
def goOn (s : State) (key : Nat) : State := if (th s key).halt then stopTh s key else settle s key

/-- R265: change one transfer. -/
def modXfer (s : State) (id : Nat) (f : Xfer → Xfer) : State :=
  { s with xfers := s.xfers.map (fun x => if x.id = id then f x else x) }

/-- R77: an atomic's status, and its value when DONE, reach the thread's registers, and the thread goes on. -/
def atomicEnd (s : State) (key gen d : Nat) (wide : Bool) (status : Nat) (v : Nat) : State :=
  let t := th s key
  if t.gen = gen ∧ t.phase = .atomic then
    let t := if status = 0 then
        (let t := setX t d (BitVec.ofNat 64 v)
         if wide then setX t (d + 1) (BitVec.ofNat 64 (v >>> 64)) else t)
      else t
    let t := setX t (d + (if wide then 2 else 1)) (BitVec.ofNat 64 status)
    goOn (setTh s key { t with phase := .run, pc := t.pc + 8 }) key
  else s

/-- R178: the element lines of a gather: the line of an element; a misaligned element stands alone. -/
def gatherLine (g : Gather) (va : Nat) : Nat := if va % (g.bits / 8) = 0 then va / 64 * 64 else va

/-- R178: the lowest element whose line has failed. -/
def gatherBad (g : Gather) : Option (Nat × Nat × Nat) :=
  (g.els.find? (fun e => g.got.any (fun l => l.1 == gatherLine g e.2 && (match l.2 with | .fail _ _ => true | .data _ p => p)))).bind (fun e =>
    (g.got.find? (fun l => l.1 == gatherLine g e.2)).map (fun l =>
      match l.2 with
      | .fail st sub => (e.1, st, sub)
      | .data _ _ => (e.1, 0x12, 0)))

/-- R178: the elements of a gather whose line has come back with data. -/
def gatherEl (g : Gather) (va : Nat) : Option Nat :=
  match g.got.find? (fun l => l.1 == gatherLine g va) with
  | some (l, .data bs false) => some (leNat ((bs.drop (va - l)).take (g.bits / 8)))
  | _ => none

/-- R263: lines of a thread, and of its whole S-core, that are outstanding. -/
def linesOut (s : State) (key : Nat) (whole : Bool) : Nat :=
  (s.reqs.filter (fun r => isS r.key && (if whole then coreOf r.key == coreOf key else r.key == key) &&
    (match r.kind with | .xfer _ _ => true | .gather => true | _ => false))).length

/-- R177, R263: an S-core thread may have one more line outstanding. -/
def lineRoom (s : State) (key : Nat) : Bool := linesOut s key false < 16 && linesOut s key true < 64

/-- R255, R256: the packet of a request for a context. -/
def reqPkt (s : State) (ctx ty target addr eng seq : Nat) : Pkt :=
  ⟨ty, 2, false, false, ownCoord s, target, domOf s ctx, eng, seq, addr, 0, 0, 0, [], [], false, 0⟩

/-- R372: the valid key slot of a partition and kind. -/
def keySlot (s : State) (part kind : Nat) : Option Nat :=
  (List.range 32).find? (fun k => let w := rd s (R.SEC_KSLOT k 0); bitw w 63 && fld w 0 2 == kind && fld w 4 3 == part)

/-- R372: the key of a partition and kind. -/
def partKey (s : State) (part kind : Nat) : Option Nat := (keySlot s part kind).map (sget 0 s.slotKeys)

/-- R374: a request may be sent toward its target: in CONFIDENTIAL only with the domain's key. -/
def domKeyed (s : State) (p : Pkt) : Bool :=
  !confidential s || p.dst == ownCoord s || (List.range 8).any (fun q =>
    bitw (rd s (R.SCF_DOMAIN q)) 63 && rdf s (R.SCF_DOMAIN q) 0 16 == p.dom && (keySlot s q 1).isSome)

/-- R244: FABRIC operations of a thread, core or solver unit of a half. -/
def srcFab (s : State) (half key ctx : Nat) : Src := ⟨ctx, half, key, if ctx < 64 then partOf s ctx else 8, 2, 1, true, false⟩

/-- R203, R255, R354: the half that a request's engine lies in; the checkpoint mover lies on the fabric die (2). -/
def reqHalf (s : State) (r : OutReq) : Nat :=
  if r.eng < 0x900 ∨ (0xA00 ≤ r.eng ∧ r.eng < 0xB00) then halfOf s r.key
  else if r.eng < 0xA00 then (r.eng - 0x900) / 12 else 2

/-- R243, R244: data of a request crosses between its engine and the fabric die. -/
def reqMove (s : State) (r : OutReq) (bytes : Nat) (out : Bool) : State := moveMsg s (srcFab s (reqHalf s r) r.key r.ctx) 2 bytes out

/-- R254: bytes of data that a request carries. -/
def reqBytes (p : Pkt) : Nat := p.data.length + 16 * p.mem.length

/-- R275: send a request: it is outstanding from now, and waits at the router. -/
def sendReq (s : State) (r : OutReq) : State :=
  let s := reqMove s r (reqBytes r.pkt) true
  { s with reqs := s.reqs ++ [{ r with sent := s.ltc.toNat }], routerIn := s.routerIn ++ [r.pkt] }

/-- R277, R374: why a request cannot be sent at all: its target is lost, or its domain has no key. -/
def unsendable (s : State) (p : Pkt) : Option (Nat × Nat) :=
  if isLost s p.dst then some (0x22, 0x54) else if !domKeyed s p then some (0x21, 0x55) else none

/-- R177, R178: a gather that has nothing more to issue and nothing outstanding ends: it retires, faults at an element, or, when a preemption was requested, keeps its restart index. -/
def gatherEnd (s : State) (key : Nat) (g : Gather) : State :=
  let t := th s key
  let bad := gatherBad g
  let miss := (g.els.find? (fun e => (gatherEl g e.2).isNone)).map (·.1)
  let lim := miss.getD 4096
  let old := vreg t g.d
  let t := setV t g.d (vmake g.bits (fun i =>
    match g.els.find? (fun e => e.1 == i) with
    | some e => if i < lim then (gatherEl g e.2).getD (velem old g.bits i) else velem old g.bits i
    | none => velem old g.bits i))
  let s := { s with gathers := sset none s.gathers key none }
  match miss, bad with
  | none, _ => goOn (lvuRetire (setTh s key { t with phase := .run, pc := t.pc + 8, restart := 0 }) (coreOf key)) key
  | some k, some (kb, st, sub) =>
    if k = kb then insnFault (setTh s key { t with phase := .run }) key 0x10 st sub k
    else goOn (setTh s key { t with phase := .run, restart := k }) key
  | some k, none => goOn (setTh s key { t with phase := .run, restart := k }) key

/-- R178: note how a line of a gather came back. -/
def gatherGot (s : State) (key line : Nat) (r : GotLine) : State :=
  { s with gathers := smod none s.gathers key (fun o => o.map (fun g => { g with got := g.got ++ [(line, r)] })) }

/-- R178: the line may still be read: its lowest element lies below every failed one. -/
def gatherWanted (g : Gather) (line : Nat) : Bool :=
  match gatherBad g, g.els.find? (fun e => gatherLine g e.2 == line) with
  | some (k, _, _), some e => e.1 < k
  | _, _ => true

/-- R178, R265: a read of a gather that cannot be sent has failed finally: its record, and what its elements answer. -/
def gatherFail (s : State) (ctx key line status cause sub : Nat) : State :=
  let el := match sget none s.gathers key with
    | some g => ((g.els.find? (fun e => gatherLine g e.2 == line)).map (·.1)).getD 0
    | none => 0
  gatherGot (xfault s ctx status cause 0 key el line) key line (.fail status sub)

/-- R177, R178: issue the reads of a gather that may be issued now (log 67), and end it when none is left. -/
def gatherStep (key : Nat) : Nat → State → State
  | 0, s => s
  | fuel + 1, s =>
    match sget none s.gathers key with
    | none => s
    | some g =>
      let t := th s key
      let ended : State := if (linesOut s key false) = 0 ∨
          !(s.reqs.any (fun r => r.key == key && r.kind == .gather)) then gatherEnd s key g else s
      match g.todo with
      | [] => ended
      | line :: rest =>
        if t.saving.isSome || !gatherWanted g line then ended
        else if !lineRoom s key then s
        else
          let s := { s with gathers := sset none s.gathers key (some { g with todo := rest }) }
          let s :=
            match winCheck s t.ctx line 1 with
            | .err st sub => if sub = 0x56 then gatherFail s t.ctx key line st sub 0x31 else gatherFail s t.ctx key line st 0 sub
            | .ok tgt addr =>
              let q := takeSeq s key
              let p := reqPkt s t.ctx 0x01 tgt addr key q.1
              (match unsendable q.2 p with
               | some (st, cause) => gatherFail q.2 t.ctx key line st cause 0x31
               | none =>
                 addDiv (sendReq q.2 ⟨key, q.1, key, t.gen, t.ctx, .gather, line, p, 0, 0, 0, none⟩)
                   (R.SCO_LVU_BUSY (coreOf key / 96) (coreOf key % 96)) 48 16 64 1)
          gatherStep key fuel s

/-- R261: the request is a transfer's line or an atomic of a thread, the scope in which its flags are ordered. -/
def inScope (r : OutReq) (key : Nat) : Bool :=
  r.key == key && (match r.kind with | .xfer _ _ => true | .atomic _ _ => true | _ => false)

/-- R261: the writes of a thread that are sent and not acknowledged, to one target or to the others; atomics count for the others. -/
def writesOut (s : State) (key target : Nat) (same : Bool) : Nat :=
  (s.reqs.filter (fun r => inScope r key && (if same then r.pkt.dst == target && (r.pkt.ty == 2 || r.pkt.ty == 3)
    else r.pkt.dst != target && r.pkt.ty != 1))).length

/-- R248: every earlier write of a thread or core has been acknowledged, in either half: its stores, tiles, copied lines, writes and atomics. -/
def allAcked (s : State) (key gen : Nat) : Bool :=
  acked s key && !s.reqs.any (fun r => inScope r key && r.pkt.ty != 1) &&
  (isS key || ((nc s key).stored.isEmpty && !s.landing.any (fun l => l.2.1 == key && l.2.2.1 == gen)))

/-- R248, R261: a flag toward a target may be sent: every earlier line of its thread is sent, and the writes and atomics to other targets, or toward this package's own window all earlier writes, are acknowledged. -/
def flagMayGo (s : State) (x : Xfer) (target : Nat) : Bool :=
  !s.xfers.any (fun y => y.key == x.key && y.id < x.id && y.fail.isNone && y.next != y.n) &&
  (if target = ownCoord s then allAcked s x.key x.gen else writesOut s x.key target false == 0)

/-- R265: how the sending of one line ended: it was sent, it failed (status, cause), or it must wait. -/
inductive SendRes where
  | sent (s : State)
  | fail (s : State) (status cause : Nat)
  | wait

/-- R248, R258, R261, R263, R265, R385: send the next line of a transfer. -/
def sendLine (s : State) (x : Xfer) (eng : Nat) : SendRes :=
  let ra := x.ra + 64 * x.next
  match winCheck s x.ctx ra (if x.op = 0 then 1 else 2) with
  | .err st sub => .fail s st (if sub = 0x56 then sub else 0)
  | .ok tgt addr =>
    let p0 := reqPkt s x.ctx (if x.op = 0 then 0x01 else if x.op = 1 then 0x02 else 0x03) tgt addr eng 0
    match unsendable s p0 with
    | some (st, c) => .fail s st c
    | none =>
      let go (s : State) (p : Pkt) : SendRes :=
        let q := takeSeq s eng
        .sent (modXfer (sendReq q.2 ⟨eng, q.1, x.key, x.gen, x.ctx, .xfer x.id x.next, ra, { p with seq := q.1 }, 0, 0, 0, none⟩)
          x.id (fun y => { y with next := y.next + 1, out := y.out + 1 }))
      if x.op = 0 then go s p0
      else if x.op = 2 && !flagMayGo s x tgt then .wait
      else
        match vaLoad s (srcFab s (halfOf s x.key) x.key x.ctx) ((x.la + 64 * x.next) % 2 ^ 64) 64 with
        | (s, .ok (bs, pois)) =>
          go s { p0 with data := bs, pois := pois, mask := x.mask, prior := if x.op = 2 then writesOut s x.key tgt true else 0 }
        | (s, .err e) => .fail s (accCode e).1 0
        | (_, .wait) => .wait

/-- R263, R265: a transfer whose next line cannot be sent fails finally there. -/
def failLine (s : State) (x : Xfer) (st cause : Nat) : State :=
  let s := xfault s x.ctx st cause x.cnt x.key x.next (x.ra + 64 * x.next)
  settle (modXfer s x.id (fun y => { y with fail := some (st, y.next) })) x.key

/-- R263: the lines of an S-core thread's transfers go out as its slots allow, in issue order. -/
def pump (key : Nat) : Nat → State → State
  | 0, s => s
  | fuel + 1, s =>
    if !lineRoom s key then s
    else
      match s.xfers.find? (fun x => x.key == key && x.fail.isNone && x.next != x.n) with
      | none => s
      | some x =>
        match sendLine s x key with
        | .sent s => pump key fuel s
        | .fail s st c => pump key fuel (failLine s x st c)
        | .wait => s

/-- R263: lines outstanding of a copy engine. -/
def cpeOut (s : State) (cpe : Nat) : Nat := (s.reqs.filter (fun r => r.eng == 0x800 + cpe)).length

/-- R263: a copy engine sends the lines of a transfer, up to 512 outstanding. -/
def cpeSend (cpe id : Nat) : Nat → State → State
  | 0, s => s
  | fuel + 1, s =>
    if 512 ≤ cpeOut s cpe then s
    else
      match s.xfers.find? (fun x => x.id == id && x.fail.isNone && x.next != x.n) with
      | none => s
      | some x =>
        match sendLine s x (0x800 + cpe) with
        | .sent s => cpeSend cpe id fuel s
        | .fail s st c => failLine s x st c
        | .wait => s

/-- R38, R50, R263, R344: the copy engine takes the next request in round-robin and moves its lines, or sends those of an RGET, RPUT or RPUTF; a COPY waits behind a cut copy. -/
def execCopyRequestServe (cpe : Nat) (s : State) : Out :=
  let c := sget cpe0 s.cpes cpe
  .next (if !issuing s then s
    else
      match copyNext s c with
      | none => s
      | some r =>
        match r.xfer with
        | none => if (List.range 8).any (fun p => rdf s (R.CKP_STAT p) 0 4 == 2) then s else copyServe s cpe c r
        | some id =>
          let s := cpeSend cpe id 513 s
          let rest := if s.xfers.any (fun x => x.id == id && x.fail.isNone && x.next != x.n) then c.reqs else c.reqs.filter (fun x => x ≠ r)
          { s with cpes := sset cpe0 s.cpes cpe { c with reqs := rest, last := r.core } })

/-- R258: the windows that a transfer of `n` lines touches, by its first and last line. -/
def windowsErr (s : State) (ctx ra n perm : Nat) : Option (Nat × Nat) :=
  match winCheck s ctx ra perm with
  | .err st sub => some (st, sub)
  | .ok _ _ =>
    match winCheck s ctx (ra + 64 * (n - 1)) perm with
    | .err st sub => some (st, sub)
    | .ok _ _ => none

/-- R76, R258, R263, R265: issue RGET (0), RPUT (1) or RPUTF (2). -/
def fabMove (t : Tid) (o : Opnds) (op : Nat) (s : State) : Out :=
  insn s t o 0x04 (some ⟨32, 64, 64, if op = 0 then 0 else 64, if op = 2 then 0 else 0xFFFF⟩) none (fun key s0 =>
    let t0 := th s0 key
    let ra := (xr t0 o.a.toNat).toNat
    let la := (xr t0 o.b.toNat).toNat
    let n := o.md.toNat % 65536 + 1
    if ra % 64 ≠ 0 ∨ la % 64 ≠ 0 then .trap s0 0x10 0x15 0
    else
      match windowsErr s0 t0.ctx ra n (if op = 0 then 1 else 2) with
      | some (st, sub) => .trap s0 st sub 0
      | none =>
        match vaCheckWords s0 t0.ctx (if op = 0 then .write else .read) 64 ((List.range n).map (fun i => (la + 64 * i) % 2 ^ 64)) with
        | (s, .err e) => accTrap s e
        | (_, .wait) => .stay s0
        | (s, .ok _) =>
          let mask := if o.c = 0 then 2 ^ 64 - 1 else (xr t0 o.c.toNat).toNat
          let x : Xfer := ⟨s.nextId, key, t0.gen, t0.ctx, op, ra, la, mask, o.d.toNat, n, 0, 0, none⟩
          let s := { s with nextId := s.nextId + 1, xfers := s.xfers ++ [x] }
          if isS key then
            -- the instruction has retired before its first line is found to fail
            (let s := retire s key
             .stay (pump key 17 s))
          else
            let e := cpeOf s key
            let c := sget cpe0 s.cpes e
            .done { s with cpes := sset cpe0 s.cpes e { c with reqs := c.reqs ++ [⟨key, t0.gen, t0.ctx, 0, desc0, desc0, o.d.toNat, 0, false, some x.id⟩] } })

/-- R76, R263: RGET. -/
def execRget (t : Tid) (o : Opnds) (s : State) : Out := fabMove t o 0 s
/-- R76, R263: RPUT. -/
def execRput (t : Tid) (o : Opnds) (s : State) : Out := fabMove t o 1 s
/-- R76, R261: RPUTF. -/
def execRputf (t : Tid) (o : Opnds) (s : State) : Out := fabMove t o 2 s

/-- R76, R77: the register pairs of an atomic lie in their file, and D leaves room for the status. -/
def atomicWord (o : Opnds) (wide : Bool) : Bool :=
  o.d ≠ 0 && o.d.toNat ≤ (if wide then 61 else 62) && !(wide && (o.b.toNat == 63 || o.c.toNat == 63))

/-- R25, R85: an atomic's target is this package's register space. -/
def atomicReg (s : State) (target addr : Nat) : Bool := target == ownCoord s && region addr == .reg

/-- R76, R77, R258: issue an atomic of packet type `ty`; `wide` for RCAS16, `cas` for the compare forms. -/
def fabAtomic (t : Tid) (o : Opnds) (ty : Nat) (wide cas signable : Bool) (s : State) : Out :=
  insnW s t o 0x04 (some ⟨64, 64, 64, if cas then 64 else 0, if signable then 1 else 0⟩) none (atomicWord o wide) (fun key s =>
    let t0 := th s key
    let ra := (xr t0 o.a.toNat).toNat
    if ra % (if wide then 16 else 8) ≠ 0 then .trap s 0x10 0x15 0
    else
      match winCheck s t0.ctx ra 3 with
      | .err st sub => .trap s st sub 0
      | .ok tgt addr =>
        if atomicReg s tgt addr then .trap s 0x10 0x19 0
        else
          let b := (xr t0 o.b.toNat).toNat + (if wide then (xr t0 (o.b.toNat + 1)).toNat * 2 ^ 64 else 0)
          let c := (xr t0 o.c.toNat).toNat + (if wide then (xr t0 (o.c.toNat + 1)).toNat * 2 ^ 64 else 0)
          let n := if wide then 16 else 8
          let q := takeSeq s key
          let p := { reqPkt s t0.ctx ty tgt addr key q.1 with
            sgn := o.md.toNat % 2 == 1, mem := if cas then [] else [⟨ownCoord s, key, q.1, b⟩],
            data := if cas then leBytes n c ++ leBytes n b else [] }
          let s1 := setTh q.2 key { t0 with phase := .atomic }
          match unsendable q.2 p with
          | some (st, _) => .stay (atomicEnd s1 key t0.gen o.d.toNat wide st 0)
          | none => .stay (sendReq s1 ⟨key, q.1, key, t0.gen, t0.ctx, .atomic o.d.toNat wide, ra, p, 0, 0, 0, none⟩))

/-- R76: RADD. -/
def execRadd (t : Tid) (o : Opnds) (s : State) : Out := fabAtomic t o 0x08 false false false s
/-- R76: RMIN. -/
def execRmin (t : Tid) (o : Opnds) (s : State) : Out := fabAtomic t o 0x09 false false true s
/-- R76: RMAX. -/
def execRmax (t : Tid) (o : Opnds) (s : State) : Out := fabAtomic t o 0x0A false false true s
/-- R76: RAND. -/
def execRand (t : Tid) (o : Opnds) (s : State) : Out := fabAtomic t o 0x0B false false false s
/-- R76: ROR. -/
def execRor (t : Tid) (o : Opnds) (s : State) : Out := fabAtomic t o 0x0C false false false s
/-- R76: RXOR. -/
def execRxor (t : Tid) (o : Opnds) (s : State) : Out := fabAtomic t o 0x0D false false false s
/-- R76: RSWAP. -/
def execRswap (t : Tid) (o : Opnds) (s : State) : Out := fabAtomic t o 0x0E false false false s
/-- R76: RCAS8. -/
def execRcas8 (t : Tid) (o : Opnds) (s : State) : Out := fabAtomic t o 0x0F false true false s
/-- R76: RCAS16. -/
def execRcas16 (t : Tid) (o : Opnds) (s : State) : Out := fabAtomic t o 0x10 true true false s

/-- R176-R178: VRGATHER: one read for each line that active elements touch, in the order of their lowest element. -/
def execVrgather (t : Tid) (o : Opnds) (s : State) : Out :=
  lvOp t o ⟨32, 64, 32, 0, mMask⟩ lvTypes false .remote true (fun t0 => indexOk o t0 && indexApart o t0) (fun key s =>
    let t0 := th s key
    let bits := tyBits t0.vtype.toNat
    let acts := (lvActs t0 (lvMod o)).filter (fun i => t0.restart ≤ i)
    let els := acts.map (fun i => (i, (indexAddr o t0 i).headD 0))
    let g0 : Gather := ⟨o.d.toNat, bits, els, [], []⟩
    let bad := (els.filter (fun e => e.2 % (bits / 8) ≠ 0)).map (fun e => (e.2, GotLine.fail 0x10 0x15))
    let todo := ((els.filter (fun e => e.2 % (bits / 8) == 0)).map (fun e => e.2 / 64 * 64)).eraseDups
    let s := setTh { s with gathers := sset none s.gathers key (some { g0 with todo := todo, got := bad }) } key { t0 with phase := .gather }
    .stay (gatherStep key 600 s)) s

/-- R264: the 64-byte lines that a row touches. -/
def rowLines (r : Nat × Nat) : List Nat := (pieces r.1 r.2 (r.2 + 1)).map (fun p => p.1 / 64 * 64)

/-- R264: the lines of a tile: each row is split for itself. -/
def tileLines (ranges : List (Nat × Nat)) : List Nat := ranges.flatMap rowLines

/-- R258: the subcode of a failed window check of a FABRIC stream's tile. -/
def winTileSub (st sub : Nat) : Nat := if sub = 0x56 then 0x56 else if st = 0x10 then 0x04 else 0x05

/-- R264: FABRIC.get asks for the lines of one tile of its stream. -/
def askTile (s : State) (core : Nat) (st : Stream) (tile : Nat) : State :=
  let t := th s core
  let lines := tileLines (st.d.ranges tile st.d.rows st.d.cols)
  let checks := lines.map (fun l => winCheck s t.ctx l 1)
  match checks.find? (fun r => match r with | .err _ _ => true | _ => false) with
  | some (.err status sub) =>
    { s with getTiles := s.getTiles ++ [⟨core, st.q, st.sd, st.cnt, tile, [], some (status, winTileSub status sub)⟩] }
  | _ =>
    let s := { s with getTiles := s.getTiles ++ [⟨core, st.q, st.sd, st.cnt, tile, lines.map (fun l => (l, none)), none⟩] }
    ((List.range lines.length).zip (lines.zip checks)).foldl (fun s (lc : Nat × Nat × WinRes) =>
      match lc.2.2 with
      | .ok tgt addr =>
        let eng := 0xA00 + core
        let q := takeSeq s eng
        let p := reqPkt s t.ctx 0x01 tgt addr eng q.1
        (match unsendable q.2 p with
         | some (status, cause) =>
           let s := xfault q.2 t.ctx status cause st.cnt core lc.1 lc.2.1
           { s with getTiles := s.getTiles.map (fun g => if g.core = core ∧ g.tile = tile ∧ g.q = st.q then { g with fail := some (status, 0x50) } else g) }
         | none => sendReq q.2 ⟨eng, q.1, core, t.gen, t.ctx, .get st.q tile lc.1, lc.2.1, p, 0, 0, 0, none⟩)
      | .err _ _ => s) s

/-- R264: FABRIC.get reads ahead: at most 4 tiles beyond those in its queue, and at most 1,024 lines outstanding. -/
def pumpGet (core : Nat) : Nat → State → State
  | 0, s => s
  | fuel + 1, s =>
    match producing (nc s core) pFab with
    | none => s
    | some st =>
      let mine := s.getTiles.filter (fun g => g.core == core)
      let tile := st.made + mine.length
      let out := (s.reqs.filter (fun r => r.eng == 0xA00 + core && r.pkt.ty == 1)).length
      if mine.length < 4 && tile < st.d.total && mine.all (fun g => g.fail.isNone && g.q == st.q) &&
          out + (tileLines (st.d.ranges tile st.d.rows st.d.cols)).length ≤ 1024 && stationsRun s core then
        pumpGet core fuel (askTile s core st tile)
      else s

/-- R42, R73-R75, R264: STREAM; a stream from FABRIC.get starts its reads. -/
def execStream (t : Tid) (o : StreamOps) (s : State) : Out :=
  match bindStream t o s with
  | .next s' => .next (if (nc s' (tkey t)).streams.length = (nc s (tkey t)).streams.length then s' else pumpGet (tkey t) 4 s')
  | r => r

/-- R264: the bytes of each row of a tile, from its lines as they returned; the unused bytes are dropped. -/
def rowsBack : List (Nat × Nat) → List (Nat × Option (List Byte × Bool)) → List (List Byte)
  | [], _ => []
  | r :: rs, ls =>
    let n := (rowLines r).length
    let at_ (va : Nat) : Byte := match (ls.take n).find? (fun l => l.1 == va / 64 * 64) with
      | some (_, some (bs, _)) => bs.getD (va % 64) 0
      | _ => 0
    (List.range r.2).map (fun i => at_ ((r.1 + i) % 2 ^ 64)) :: rowsBack rs (ls.drop n)

/-- R33, R264: the tile that returned lines make. -/
def GetTile.make (g : GetTile) (d : Desc) : Tile :=
  let bss := rowsBack (d.ranges g.tile d.rows d.cols) g.lines
  ⟨d.fmt, d.scaled, d.axis, d.rows, d.cols, 0, 0, g.tile + 1 == d.total, (bss.take d.rows).flatMap (rowCodes d.ebits d.cols),
   (bss.drop d.rows).flatMap (fun bs => bs.map (fun b => b.toNat)), g.lines.any (fun l => match l.2 with | some (_, p) => p | none => false)⟩

/-- R264, R265: the next tile of a FABRIC.get stream has all its lines and enters the queue, or one of them failed and stops the context. -/
def execFabricGetTileReady (core : Nat) (s : State) : Out :=
  .next (if !stationsRun s core then s
    else
      match producing (nc s core) pFab with
      | none => s
      | some st =>
        match s.getTiles.find? (fun g => g.core == core && g.q == st.q && g.tile == st.made) with
        | none => pumpGet core 4 s
        | some g =>
          let gone : State := { s with getTiles := s.getTiles.filter (fun x => x ≠ g) }
          let waits := s.reqs.any (fun r => r.eng == 0xA00 + core && (match r.kind with | .get q tl _ => q == g.q && tl == g.tile | _ => false))
          match g.fail with
          | some (status, sub) => if waits || !st.tiles.isEmpty then s else streamFault gone core 7 st.sd status sub g.tile
          | none =>
            if 4 ≤ st.tiles.length ∨ g.lines.any (fun l => l.2.isNone) then s
            else pumpGet core 4 (setNc gone core (pushTile (nc gone core) pFab (g.make st.d))))

/-- R264: the masked WRITEs of one byte range: each line's address, mask and 64 bytes. -/
def putLines (va : Nat) (bs : List Byte) : List (Nat × Nat × List Byte) :=
  (pieces va bs.length (bs.length + 1)).map (fun p =>
    let off := p.1 % 64
    let part := (bs.drop (p.1 - va)).take p.2
    (p.1 - off, (2 ^ p.2 - 1) <<< off, List.replicate off 0 ++ part ++ List.replicate (64 - off - p.2) 0))

/-- R41, R264, R385, R443: FABRIC.put takes a tile and sends its lines as WRITEs; a poison mark goes with every line. -/
def execFabricPutTile (core : Nat) (s : State) : Out :=
  .next (if !stationsRun s core then s
    else
      let n := nc s core
      match peekTile n pFab with
      | none => s
      | some (st, t) =>
        let stop (a b : Nat) : State := consumeFault s core 7 st st.took1 a b
        if s.putTiles.any (fun y => y.core == core && y.gen == (th s core).gen && y.q == st.q && y.fail.isSome) then s
        else match tileRefused st.d t with
        | some sub => stop 0x10 sub
        | none =>
          let t0 := th s core
          let lines := ((tileBytes st.d st.took1 t).flatMap (fun r => putLines r.1 r.2))
          let checks := lines.map (fun l => winCheck s t0.ctx l.1 2)
          match checks.find? (fun r => match r with | .err _ _ => true | _ => false) with
          | some (.err status sub) => stop status (winTileSub status sub)
          | _ =>
            let id := s.nextId
            let sent : Stream := { st with took1 := st.took1 + 1, tiles := st.tiles.drop 1 }
            let s := setNc s core { n with streams := n.streams.map (fun x => if x.q = st.q then sent else x) }
            let s := { s with nextId := id + 1, putTiles := s.putTiles ++ [⟨id, core, t0.gen, t0.ctx, st.sd, st.cnt, st.took1, lines.length, none, st.q, t⟩] }
            let r := (lines.zip checks).foldl (fun (acc : State × Nat × Option (Nat × Nat × Nat)) lc =>
              let (s, i, bad) := acc
              match lc.2, bad with
              | .ok tgt addr, none =>
                let eng := 0xA00 + core
                let q := takeSeq s eng
                let p := { reqPkt s t0.ctx 0x02 tgt addr eng q.1 with mask := lc.1.2.1, data := lc.1.2.2, pois := t.poison }
                (match unsendable q.2 p with
                 | some (status, cause) => (q.2, i + 1, some (status, cause, i))
                 | none => (sendReq q.2 ⟨eng, q.1, core, t0.gen, t0.ctx, .put id i, lc.1.1, p, 0, 0, 0, none⟩, i + 1, none))
              | _, _ => (s, i + 1, bad)) (s, 0, none)
            match r.2.2 with
            | none => r.1
            | some (status, cause, i) =>
              let s := xfault r.1 t0.ctx status cause st.cnt core i ((lines.map (·.1)).getD i 0)
              settlePuts { s with putTiles := s.putTiles.map (fun x => if x.id = id then { x with left := i, fail := some status } else x) } core s.putTiles.length)

end Sys2Proof.Machine
end

