-- ==== Sys2Proof/Machine/Router.lean ====
section
/-! DEFINITION. The Scauth router (R252, R266-R272): dimension-order routes, detours, parapets, and the combining of READs and bundling of atomics in the output queues. -/

namespace Sys2Proof.Machine

/-- R281: the state of a port: 0 DOWN, 1 TRAINING, 2 PARAPET, 3 ACTIVE. -/
def portState (s : State) (k : Nat) : Nat := rdf s (R.SCF_PORT_STAT k) 0 2

/-- R254: the packet types that are requests. -/
def isRequest (ty : Nat) : Bool := 1 ≤ ty && ty ≤ 0x10

/-- R267: the atomics that may be bundled. -/
def bundled (ty : Nat) : Bool := 8 ≤ ty && ty ≤ 0x0E

/-- R271: the step of an axis from one coordinate toward another: none when it is reached; 0 for +, 1 for -. -/
def axisStep (s : State) (cur dst ax : Nat) : Option Nat :=
  let len := axisLen s ax
  let c := coordAx cur ax
  let t := coordAx dst ax
  if c = t then none
  else if blockWrap s ax then
    (let up := (t + len - c) % len
     some (if up ≤ len - up then 0 else 1))
  else some (if axOff s ax (blockOrg s ax) c < axOff s ax (blockOrg s ax) t then 0 else 1)

/-- R271, R272: the axis and direction of the next hop: dimension order, with the axis of a detour last. -/
def nextHop (s : State) (cur dst dax : Nat) : Option (Nat × Nat) :=
  let order := if dax = 0 then [0, 1, 2, 3] else [0, 1, 2, 3].filter (fun a => a + 1 ≠ dax) ++ [dax - 1]
  order.findSome? (fun ax => (axisStep s cur dst ax).map (fun d => (ax, d)))

/-- R252: the coordinate one hop away. -/
def neighbour (s : State) (cur ax d : Nat) : Nat :=
  let len := axisLen s ax
  setAx cur ax ((coordAx cur ax + (if d = 0 then 1 else len - 1)) % len)

/-- R271: a route passes a coordinate. -/
def routeVia (s : State) (via dst : Nat) : Nat → Nat → Bool
  | 0, _ => false
  | fuel + 1, cur =>
    if cur = via then true
    else
      match nextHop s cur dst 0 with
      | none => false
      | some (ax, d) => routeVia s via dst fuel (neighbour s cur ax d)

/-- R272: a hop through a port stays in the block. -/
def hopInBlock (s : State) (k : Nat) : Bool :=
  let ax := k % 8 / 2
  let off := axOff s ax (blockOrg s ax) (coordAx (ownCoord s) ax)
  blockWrap s ax || (if k % 2 = 0 then off + 1 < blockExt s ax else 0 < off)

/-- R255: the reply to a request. -/
def replyTo (s : State) (p : Pkt) (ty addr : Nat) (mem : List Member) (data : List Byte) (pois : Bool) : Pkt :=
  ⟨ty, 1, false, p.sgn, ownCoord s, p.src, p.dom, p.eng, p.seq, addr, 0, 0, 0, mem, data, pois, 0⟩

/-- A packet of this package waits at its router. -/
def emit (s : State) (p : Pkt) : State := { s with routerIn := s.routerIn ++ [p] }

/-- R270, R272: the router answers the source of a request it cannot forward; anything else is dropped. -/
def refusePkt (s : State) (p : Pkt) (ty status cause : Nat) : State :=
  if isRequest p.ty then emit s (replyTo s p ty (status + cause <<< 8) [] [] false) else s

/-- R266: the tag of a request as a member of a slot; `v` is how many member records it carries. -/
def slotMember (p : Pkt) : Member := ⟨p.src, p.eng, p.seq, p.mem.length⟩

/-- R266, R267: two requests of one output queue combine. -/
def combines (a b : Pkt) : Bool :=
  a.ty == b.ty && a.dom == b.dom && a.dst == b.dst &&
  (if a.ty = 1 then a.addr / 64 == b.addr / 64
   else bundled a.ty && a.addr == b.addr && a.sgn == b.sgn)

/-- R302: reduction slots held. -/
def redInuse (s : State) : Nat := (s.colls.map (·.slots)).sum

/-- R268: combining slots free: of the 4,096 less those kept for reductions, and of what both classes hold. -/
def combFree (s : State) : Nat :=
  min (4096 - rdf s R.SCF_SLOT_SPLIT 0 13 - s.slots.length) (4096 - s.slots.length - redInuse s)

/-- The slot of a request that this router forwarded for several. -/
def slotOf (s : State) (p : Pkt) : Option CombSlot :=
  if p.eng = 0xFFF ∧ p.src = ownCoord s then s.slots.find? (fun c => c.seq == p.seq) else none

/-- R266, R267: a request that waits in an output queue joins one already there, takes a slot with it, or waits uncombined. -/
def enqueue (s : State) (k : Nat) (p : Pkt) : State :=
  let q := sget [] s.outq k
  let plain : State := { s with outq := sset [] s.outq k (q ++ [p]) }
  if !(p.ty == 1 || bundled p.ty) then plain
  else
    match q.find? (fun a => combines a p &&
        (match slotOf s a with
         | some c => if a.ty = 1 then c.mem.length < 32 else a.mem.length + p.mem.length ≤ 8
         | none => a.ty == 1 || a.mem.length + p.mem.length ≤ 8)) with
    | none => plain
    | some a =>
      match slotOf s a with
      | some c =>
        let s : State := { s with slots := s.slots.map (fun x => if x.seq = c.seq then { x with mem := x.mem ++ [slotMember p] } else x) }
        let s : State := { s with outq := sset [] s.outq k (q.map (fun b => if b = a then { a with mem := a.mem ++ p.mem } else b)) }
        addDiv s R.SCF_COMB 0 32 64 1
      | none =>
        if combFree s = 0 then addSat plain R.SCF_COMB 32 32 1
        else
          let t := takeSeq s 0xFFF
          let one := { a with src := ownCoord s, eng := 0xFFF, seq := t.1, mem := a.mem ++ p.mem }
          let s := t.2
          let s : State := { s with slots := s.slots ++ [⟨t.1, k, [slotMember a, slotMember p]⟩] }
          let s : State := { s with outq := sset [] s.outq k (q.map (fun b => if b = a then one else b)) }
          addDiv s R.SCF_COMB 0 32 64 2

/-- R272: the first detour of an axis and direction whose port is up. -/
def detourPort (s : State) (n : Nat) : Option Nat :=
  let w := rd s (R.SCF_DETOUR n)
  if bitw w 4 && portState s (fld w 0 4) == 3 then some (fld w 0 4)
  else if bitw w 12 && portState s (fld w 8 4) == 3 then some (fld w 8 4)
  else none

/-- R270-R272: route a packet: to this package, into the output queue of a port, around a lost neighbour, or nowhere. -/
def routePkt (s : State) (p : Pkt) : State :=
  match nextHop s (ownCoord s) p.dst p.dax with
  | none => { s with rxq := s.rxq ++ [p] }
  | some (ax, d) =>
    let n := 2 * ax + d
    match portState s n == 3, portState s (n + 8) == 3 with
    | true, true => enqueue s (if Config.twinHash p.src p.eng p.seq then n + 8 else n) p
    | true, false => enqueue s n p
    | false, true => enqueue s (n + 8) p
    | false, false =>
      if portState s n = 2 ∨ portState s (n + 8) = 2 then refusePkt s p 0x29 0x21 0x55
      else
        match p.det, detourPort s n with
        | false, some k =>
          if hopInBlock s k then enqueue s k { p with vc := 3, det := true, dax := k % 8 / 2 + 1 }
          else refusePkt s p 0x2A 0x22 0x53
        | _, _ => refusePkt s p 0x2A 0x22 0x53

/-- R270: a parapet port drops what arrives, at every stage of the start-up too, and counts it. -/
def parapetDrop (s : State) (port : Nat) : State := addSat s (R.SCF_PORT_STAT port) 32 32 1

/-- R380: the released domain of a running scrub: none of its flits is sent. -/
def domScrubbed (s : State) (dom : Nat) : Bool := s.scrubs.any (fun c => rdf s (R.SCF_DOMAIN c.part) 0 16 == dom)

/-- R270, R271, R380: the router takes a packet of a local engine or of a port, or a port's link takes the next packet of its queue, but for a domain that is being released. A packet that waits for a port no longer ACTIVE is routed again (R276). -/
def execRouterForward (i : RouterIn) (s : State) : Out :=
  .next (match i with
    | .own =>
      (match s.routerIn with
       | [] => s
       | p :: r => if issuing s then routePkt { s with routerIn := r } p else s)
    | .port k p =>
      if 16 ≤ k then s
      else if portState s k = 2 then parapetDrop s k
      else if portState s k = 3 && issuing s then routePkt s p
      else s
    | .depart k =>
      if !issuing s then s
      else
        (match (sget [] s.outq k).find? (fun p => !domScrubbed s p.dom) with
         | none => s
         | some p =>
           let s : State := { s with outq := sset [] s.outq k ((sget [] s.outq k).erase p) }
           if portState s k = 3 then { s with tx := s.tx ++ [.pkt k p] } else routePkt s p))

end Sys2Proof.Machine
end

