-- ==== Sys2Proof/Machine/FabricReply.lean ====
section
/-! DEFINITION. Replies and retries at the source (R77, R178, R262-R266, R273-R275, R277): what a reply, its absence, or a lost target does to the request that waits for it. -/

namespace Sys2Proof.Machine

/-- The outstanding request of an engine and sequence number. -/
def reqOf (s : State) (eng seq : Nat) : Option OutReq := s.reqs.find? (fun r => r.eng == eng && r.seq == seq)

/-- A request is over. -/
def dropReq (s : State) (r : OutReq) : State :=
  { s with reqs := s.reqs.filter (fun x => !(x.eng == r.eng && x.seq == r.seq)) }

/-- R177, R263: slots have come free: the transfers and gathers of every thread of the S-core go on, in rising lanes from the thread whose line it was (log 67). -/
def moreLines (s : State) (key : Nat) : State :=
  if isS key then
    (List.range 8).foldl (fun s i =>
      let k := 128 + 8 * coreOf key + (lane key + i) % 8
      gatherStep k 600 (pump k 17 s)) s
  else s

/-- R264: change the FABRIC.get tile of a request. -/
def modGet (s : State) (core quad tile : Nat) (f : GetTile → GetTile) : State :=
  { s with getTiles := s.getTiles.map (fun g => if g.core = core ∧ g.q = quad ∧ g.tile = tile then f g else g) }

/-- R264: change a FABRIC.put tile. -/
def modPut (s : State) (id : Nat) (f : PutTile → PutTile) : State :=
  { s with putTiles := s.putTiles.map (fun t => if t.id = id then f t else t) }

/-- R282: the record of a final failure of a request: its counter and its line index. -/
def reqFault (s : State) (r : OutReq) (status cause cnt line : Nat) : State :=
  if r.ctx < 64 then xfault s r.ctx status cause cnt r.key line r.va else s

/-- R178, R265, R282: a request has failed finally. -/
def reqFail (s : State) (r : OutReq) (status cause : Nat) : State :=
  let s := dropReq s r
  match r.kind with
  | .xfer id i =>
    let cnt := ((s.xfers.find? (fun x => x.id == id)).map (·.cnt)).getD 0
    let s := reqFault s r status cause cnt i
    let s := modXfer s id (fun x => { x with out := x.out - 1, fail := x.fail.or (some (status, i)) })
    moreLines (settle s r.key) r.key
  | .atomic d wide =>
    let s := if status = 0x23 then addSat s R.SCF_UNKNOWN 0 32 1 else s
    atomicEnd s r.key r.gen d wide status 0
  | .gather =>
    let el := match sget none s.gathers r.key with
      | some g => ((g.els.find? (fun e => gatherLine g e.2 == r.va)).map (·.1)).getD 0
      | none => 0
    moreLines (gatherGot (reqFault s r status cause 0 el) r.key r.va (.fail status 0x31)) r.key
  | .get q tile i =>
    let cnt := ((s.getTiles.find? (fun g => g.core == r.key && g.q == q && g.tile == tile)).map (·.cnt)).getD 0
    modGet (reqFault s r status cause cnt i) r.key q tile (fun g => { g with fail := g.fail.or (some (status, 0x50)) })
  | .put id i =>
    let cnt := ((s.putTiles.find? (fun t => t.id == id)).map (·.cnt)).getD 0
    let s := reqFault s r status cause cnt i
    settle (modPut s id (fun t => { t with left := t.left - 1, fail := t.fail.or (some status) })) r.key
  | .halo svu => { reqFault s r status cause 0 0 with mail := s.mail ++ [⟨0, svu, r.va, .fail status cause⟩] }
  | .mirror part => { s with mail := s.mail ++ [⟨1, part, r.va, .fail status cause⟩] }
  | .mwrite part => { s with mail := s.mail ++ [⟨2, part, r.va, .fail status cause⟩] }

/-- R44, R262, R263: a line of an RGET lands in local memory, with its poison; it counts at once for an S-core, and when a copy engine's line becomes visible for an N-core. -/
def landLine (s : State) (r : OutReq) (id i : Nat) (bs : List Byte) (pois : Bool) : State × MemRes Unit :=
  match s.xfers.find? (fun x => x.id == id) with
  | none => (dropReq s r, .ok ())
  | some x =>
    match vaStore s (srcFab s (halfOf s r.key) r.key x.ctx) ((x.la + 64 * i) % 2 ^ 64) bs with
    | (s, .ok ()) =>
      let s := if pois then vaPoison s x.ctx ((x.la + 64 * i) % 2 ^ 64) 64 else s
      let s := if isS r.key then arrive s r.key x.gen x.cnt
        else { s with landing := s.landing ++ [(cpeOf s r.key, r.key, x.gen, x.cnt)] }
      (moreLines (settle (modXfer (dropReq s r) id (fun y => { y with out := y.out - 1 })) r.key) r.key, .ok ())
    | (s, .err e) => (reqFail s r (accCode e).1 0, .ok ())
    | (s, .wait) => (s, .wait)

/-- A reply of a type has come to this package: it is no longer at the router. -/
def takeRx (s : State) (p : Pkt) : State := { s with rxq := s.rxq.erase p }

/-- R266, R267: the router splits the reply of a combined request over the members of its slot, each with its own member records, and frees the slot. -/
def splitReply (s : State) (c : CombSlot) (p : Pkt) : State :=
  let s : State := { s with slots := s.slots.filter (fun x => x.seq ≠ c.seq) }
  (c.mem.foldl (fun (acc : State × List Member) m =>
    let q := { p with src := p.src, dst := m.src, eng := m.eng, seq := m.seq, mem := acc.2.take m.v, det := false, dax := 0, vc := 1 }
    (emit acc.1 q, acc.2.drop m.v)) (s, p.mem)).1

/-- R254: the request is an atomic. -/
def isAtomic (r : OutReq) : Bool := match r.kind with | .atomic _ _ => true | _ => false

/-- R277: more than 64 coordinates are lost: entry 63 is in use and says so. -/
def lostOver (s : State) : Bool := bitw (rd s (R.SCF_LOST 63)) 63 && bitw (rd s (R.SCF_LOST 63)) 62

/-- R277: a loss that this package already knows: it is listed, or is one of those beyond the 64 entries. -/
def knownLost (s : State) (c : Nat) : Bool :=
  (List.range 64).any (fun i => bitw (rd s (R.SCF_LOST i)) 63 && rdf s (R.SCF_LOST i) 0 20 == c) || (lostOver s && s.lostMore.contains c)

/-- R277: enter a coordinate in SCF_LOST; past 64 entries every target counts as lost. -/
def enterLost (s : State) (c cause : Nat) : State :=
  if knownLost s c then s
  else
    match (List.range 64).find? (fun i => !bitw (rd s (R.SCF_LOST i)) 63) with
    | some i => wr s (R.SCF_LOST i) (BitVec.ofNat 64 (c % 2 ^ 20 + (cause % 16) <<< 20 + 1 <<< 63))
    | none => wrf { s with lostMore := c :: (if lostOver s then s.lostMore else []) } (R.SCF_LOST 63) 62 1 1

/-- R277: requests to lost coordinates end: those not yet sent, and reads and writes that are outstanding, as unreachable; atomics already sent, once or again, as unknown. -/
def failLost (s : State) : State :=
  (s.reqs.filter (fun r => isLost s r.pkt.dst)).foldl (fun s r =>
    if s.reqs.contains r then
      (let unsent := s.routerIn.contains r.pkt && r.nacks == 0 && r.resends == 0
       let s : State := { s with routerIn := s.routerIn.filter (fun p => p ≠ r.pkt) }
       if isAtomic r && !unsent then reqFail s r 0x23 0x54 else reqFail s r 0x22 0x54)
    else s) s

end Sys2Proof.Machine
end

