-- ==== Sys2Proof/Machine/Group.lean ====
section
/-! DEFINITION. Groups (R283-R286, R355) and the arithmetic of collectives (R104, R109, R287-R289): members and their indices, digests, stand-ins, and the reduction of contributions. -/

namespace Sys2Proof.Machine

/-- R355: the spare that stands in for a lost coordinate. -/
def standFor (s : State) (c : Nat) : Option Nat :=
  ((List.range 8).find? (fun j => bitw (rd s (R.CKP_STANDIN j)) 63 && rdf s (R.CKP_STANDIN j) 0 20 == c)).map
    (fun j => rdf s (R.CKP_STANDIN j) 20 20)

/-- R355: the coordinate this package acts as in groups: the lost one it stands in for, or its own. -/
def actCoord (s : State) : Nat :=
  ((List.range 8).find? (fun j => bitw (rd s (R.CKP_STANDIN j)) 63 && rdf s (R.CKP_STANDIN j) 20 20 == ownCoord s)).elim
    (ownCoord s) (fun j => rdf s (R.CKP_STANDIN j) 0 20)

/-- R283: an axis is masked into a group. -/
def gMask (s : State) (g ax : Nat) : Bool := bitw (rd s (R.COL_GROUP g)) (40 + ax)
/-- R283: a group's extent on an axis. -/
def gExt (s : State) (g ax : Nat) : Nat := rdf s (R.COL_GROUP g) (20 + 5 * ax) 5 + 1
/-- R283: a group's origin on an axis. -/
def gOrg (s : State) (g ax : Nat) : Nat := rdf s (R.COL_GROUP g) (5 * ax) 5
/-- R285: the descriptor is in force. -/
def gValid (s : State) (g : Nat) : Bool := bitw (rd s (R.COL_GROUP g)) 63

/-- R283: the size of a group. -/
def groupSize (s : State) (g : Nat) : Nat :=
  (List.range 4).foldl (fun n ax => if gMask s g ax then n * gExt s g ax else n) 1

/-- R283: a coordinate is a member of this package's group of the family. -/
def isMember (s : State) (g c : Nat) : Bool :=
  (List.range 4).all (fun ax =>
    if gMask s g ax then axOff s ax (gOrg s g ax) (coordAx c ax) < gExt s g ax
    else coordAx c ax == coordAx (actCoord s) ax)

/-- R284: the coordinate of the member with an index. -/
def memberCoord (s : State) (g ix : Nat) : Nat :=
  ((List.range 4).foldl (fun (a : Nat × Nat) ax =>
    if gMask s g ax then
      (setAx a.1 ax ((gOrg s g ax + a.2 % gExt s g ax) % axisLen s ax), a.2 / gExt s g ax)
    else a) (actCoord s, ix)).1

/-- R284: the index of a member. -/
def memberIx (s : State) (g c : Nat) : Nat :=
  ((List.range 4).foldl (fun (a : Nat × Nat) ax =>
    if gMask s g ax then (a.1 + axOff s ax (gOrg s g ax) (coordAx c ax) * a.2, a.2 * gExt s g ax) else a) (0, 1)).1

/-- R284: the members of a group. -/
def groupMembers (s : State) (g : Nat) : List Nat := (List.range (groupSize s g)).map (memberCoord s g)

/-- R284, R355: where the root's contributions go: the root, or the spare that stands in for it. -/
def rootCoord (s : State) (g : Nat) : Nat :=
  let r := memberCoord s g (rdf s (R.COL_GSEQ g) 0 20)
  (standFor s r).getD r

/-- R355: some member is stood in for. -/
def hasStandin (s : State) (g : Nat) : Bool :=
  (List.range 8).any (fun j => bitw (rd s (R.CKP_STANDIN j)) 63 && isMember s g (rdf s (R.CKP_STANDIN j) 0 20))

/-- R277, R304, R355: a member is lost and has no stand-in. -/
def lostMember (s : State) (g : Nat) : Bool :=
  (List.range 64).any (fun i =>
    let w := rd s (R.SCF_LOST i)
    bitw w 63 && ((isMember s g (fld w 0 20) && (standFor s (fld w 0 20)).isNone) || (i == 63 && bitw w 62)))

/-- R286: the descriptor digest. -/
def groupDigest (s : State) (g : Nat) : Nat :=
  (Config.crc16 ((List.range 4).map (fun ax => if gMask s g ax then gOrg s g ax else 0) ++ (List.range 4).map (gExt s g) ++
    [rdf s (R.COL_GROUP g) 40 4, rdf s (R.COL_GSEQ g) 0 20])).toNat

/-- R295, R302, R355: how many members' contributions pass this package's router on their way to the root: all but those stood in for, by the routes of R271. -/
def routerNeed (s : State) (g : Nat) : Nat :=
  if rootCoord s g = ownCoord s then groupSize s g
  else ((groupMembers s g).filter (fun m => (standFor s m).isNone && routeVia s (ownCoord s) (rootCoord s g) 129 m)).length

/-- R288: the eight slots of 64 bytes. -/
def slotsOf (bs : List Byte) : List (Nat × Nat) := (List.range 8).map (fun k => (leNat ((bs.drop (8 * k)).take 8), 0))

/-- Sum of values with the IEEE rules for infinities and NaNs. -/
def fSumAll (xs : List Fp) : Fp := xs.foldl fAdd (.fin true 0 0)

/-- Sum of magnitudes. -/
def magAll (xs : List Fp) : Dy := xs.foldl (fun a x => a.add x.abs.dy) dy0

/-- R288: a value as a high part rounded to nearest and the remainder. -/
def splitPair (F : Fmt) (v : Dy) (z : Fp) : Nat × Nat :=
  let hi := rne F z
  match unpack F hi with
  | .fin a b c => (hi, rne F (v.add (Fp.fin a b c).dy.neg).toFp)
  | _ => (hi, 0)

/-- R288: a sum as a high and a low part, with no error of its own. -/
def exactPair (F : Fmt) (xs : List Fp) : Nat × Nat :=
  match fSumAll xs with
  | .fin n m e => splitPair F (Fp.fin n m e).dy (.fin n m e)
  | x => (rne F x, 0)

/-- R109, R288: a sum as a high and a low part of format `F`: off by a free amount within 2^-k of the magnitudes; `ix` numbers the free value (log 8). -/
def pairSum (F : Fmt) (k : Int) (ix : Nat) (xs : List Fp) : Nat × Nat :=
  match fSumAll xs with
  | .fin n m e =>
    let exact := (Fp.fin n m e).dy
    let bound := (magAll xs).scale (-k)
    let v := exact.add ((magAll xs).mul ⟨(Config.freeBits 64 ix).toInt, -k - 63⟩)
    let p := splitPair F v v.toFp
    let err := ((unpack F p.1).dy.add ((unpack F p.2).dy.add exact.neg)).abs
    if (unpack F p.1).isFin && err.le bound then p else splitPair F exact (.fin n m e)
  | x => (rne F x, 0)

/-- R289: a sum as one value of format `F`: a free one, if it lies within 2^-k of the magnitudes; else the nearest (log 8). -/
def oneSum (F : Fmt) (k : Int) (ix : Nat) (xs : List Fp) : Nat :=
  match fSumAll xs with
  | .fin n m e =>
    let exact := (Fp.fin n m e).dy
    let cand := (Config.freeBits 64 ix).toNat % 2 ^ F.bits
    if (unpack F cand).isFin && (((unpack F cand).dy.add exact.neg).abs).le ((magAll xs).scale (-k)) then cand
    else rne F (.fin n m e)
  | x => rne F x

/-- The least or greatest of numbers under an order. -/
def pick (lt : Nat → Nat → Bool) : List Nat → Nat
  | [] => 0
  | x :: xs => xs.foldl (fun a b => if lt b a then b else a) x

/-- R104, R109: the error 2^-k of one level of a group's combining tree: 2^-104, or less where the routes are deeper than the levels of R104 (log 8). -/
def levelBits (s : State) (g : Nat) : Nat :=
  let p := groupSize s g
  let l := if p ≤ 2 then 1 else Nat.log2 (p - 1) + 1
  let h := (List.range 4).foldl (fun n ax => if gMask s g ax then n + (gExt s g ax - 1) else n) 0
  104 + (if h ≤ l then 0 else if h ≤ 2 * l then 1 else if h ≤ 4 * l then 2 else 3)

/-- R104, R288: reduce one slot; a SUM_F64 pair is reduced at its high slot, with an error of 2^-b where inputs are combined. -/
def redSlot (fmap k b ix : Nat) (ins : List (List (Nat × Nat))) : Nat :=
  let col (j : Nat) : List Nat := ins.map (fun v => (v.getD j (0, 0)).1)
  let xs := col k
  let slt (a b : Nat) : Bool := sext 64 a < sext 64 b
  let pair (h : Nat) : Nat × Nat :=
    (if ins.length = 1 then exactPair fmtFP64 else pairSum fmtFP64 b (ix + h)) (((col h).map (fun n => f64 (BitVec.ofNat 64 n))) ++ ((col (h + 1)).map (fun n => f64 (BitVec.ofNat 64 n))))
  match nfld fmap (4 * k) 4 with
  | 0x1 => xs.foldl (fun a b => (a + b) % 2 ^ 64) 0
  | 0x2 => pick slt xs
  | 0x3 => pick (fun a b => slt b a) xs
  | 0x4 => pick (fun a b => a < b) xs
  | 0x5 => pick (fun a b => b < a) xs
  | 0x6 => xs.foldl (fun a b => a &&& b) (2 ^ 64 - 1)
  | 0x7 => xs.foldl (fun a b => a ||| b) 0
  | 0x8 => xs.foldl (fun a b => a ^^^ b) 0
  | 0x9 => (to64 ((xs.map (fun n => f64 (BitVec.ofNat 64 n))).foldl fMin .nan)).toNat
  | 0xA => (to64 ((xs.map (fun n => f64 (BitVec.ofNat 64 n))).foldl fMax .nan)).toNat
  | 0xB => (pair k).1
  | 0xC => (pair (k - 1)).2
  | _ => 0

/-- R289: the format of a bulk element type that is not I32. -/
def bulkFmt (ety : Nat) : Fmt := (fmtOfCode ety).getD fmtFP32

/-- R289: a bulk sum of this type travels as binary32. -/
def as32 (ety bop : Nat) : Bool := bop == 0 && (ety == 3 || ety == 4 || ety == 5)

/-- R289: bits of a bulk element. -/
def bulkBits (ety : Nat) : Nat := if ety = 3 ∨ ety = 4 then 16 else if ety = 6 then 64 else 32

/-- R289: the elements of a 64-byte chunk as they are carried. -/
def bulkCarry (ety bop : Nat) (bs : List Byte) : List (Nat × Nat) :=
  (cutCodes (bulkBits ety) (512 / bulkBits ety) (leNat bs)).map (fun c =>
    if as32 ety bop then (rne fmtFP32 (unpack (bulkFmt ety) c), 0) else (c, 0))

/-- R106, R289: reduce one bulk element of two inputs or more. -/
def redEl (ety bop : Nat) (prec : Bool) (ix : Nat) (xs : List (Nat × Nat)) : Nat × Nat :=
  let F := bulkFmt ety
  let hi := xs.map (·.1)
  if bop = 0 then
    (if as32 ety bop then
      (let vs := (hi ++ xs.map (·.2)).map f32
       if prec then pairSum fmtFP32 47 ix vs else (oneSum fmtFP32 24 ix vs, 0))
    else if ety = 6 then (oneSum fmtFP64 53 ix (hi.map (fun n => f64 (BitVec.ofNat 64 n))), 0)
    else (hi.foldl (fun a b => (a + b) % 2 ^ 32) 0, 0))
  else
    let lt (a b : Nat) : Bool := if ety = 0xA then sext 32 a < sext 32 b
      else
        let x := unpack F a
        let y := unpack F b
        if x.isNan || y.isNan then !x.isNan && y.isNan
        else fLt x y || (!fLt y x && x.sign && !y.sign)
    let gt (a b : Nat) : Bool := if ety = 0xA then sext 32 b < sext 32 a
      else
        let x := unpack F a
        let y := unpack F b
        if x.isNan || y.isNan then !x.isNan && y.isNan else fLt y x || (!fLt x y && !x.sign && y.sign)
    (pick (if bop = 1 then lt else gt) hi, 0)

/-- R287-R289: reduce the inputs of one chunk; a lone input is left as it is, and a broadcast has one input that is not empty. -/
def redChunk (kind fmap ety bop b : Nat) (prec : Bool) (ix : Nat) (ins : List (List (Nat × Nat))) : List (Nat × Nat) :=
  if kind = 3 ∨ kind = 4 then (List.range 8).map (fun k => (redSlot fmap k b (ix + 8 * k) ins, 0))
  else if kind = 0xA ∨ kind = 0xB then
    match ins with
    | [v] => v
    | _ => (List.range (512 / bulkBits ety)).map (fun i => redEl ety bop prec (ix + i) (ins.map (fun v => v.getD i (0, 0))))
  else (ins.find? (fun v => !v.isEmpty)).getD []

/-- R96, R289: a NaN of a result in the canonical pattern of its type. -/
def canonical (ety c : Nat) : Nat := if ety ≠ 0xA && (unpack (bulkFmt ety) c).isNan then (bulkFmt ety).cnan else c

/-- R94-R98, R289: the bytes of a result chunk: each bulk element converted to its type. -/
def chunkBytes (kind ety bop : Nat) (v : List (Nat × Nat)) : List Byte :=
  if kind = 0xA ∨ kind = 0xB then
    leBytes 64 (joinCodes (bulkBits ety) (v.map (fun e =>
      if as32 ety bop then (toFmt (bulkFmt ety) .rne false (fAdd (f32 e.1) (f32 e.2))).1 else canonical ety e.1)))
  else (v.flatMap (fun e => leBytes 8 e.1))

end Sys2Proof.Machine
end

