-- ==== Sys2Proof/Machine/Collective.lean ====
section
/-! DEFINITION. Collectives (R287-R304): firing trigger entries, starting a collective, its contributions on their way to the root, combining and passing at this package's router, results on their way back, the match buffer and the reduction slots. -/

namespace Sys2Proof.Machine

/-- R268: reduction slots free: of those kept for them, and of what both classes hold. -/
def redFree (s : State) : Nat := min (rdf s R.SCF_SLOT_SPLIT 0 13 - redInuse s) (4096 - s.slots.length - redInuse s)

/-- R297: the kind moves on the bulk path. -/
def isBulk (kind : Nat) : Bool := 9 ≤ kind

/-- Change one collective. -/
def modColl (s : State) (id : Nat) (f : Coll → Coll) : State := { s with colls := s.colls.map (fun c => if c.id = id then f c else c) }

/-- A collective by its number. -/
def getColl (s : State) (id : Nat) : Option Coll := s.colls.find? (fun c => c.id == id)

/-- Remove a collective; its slots go with it. -/
def dropColl (s : State) (id : Nat) : State := { s with colls := s.colls.filter (fun c => c.id ≠ id) }

/-- R286: the digest of a flit differs from that of this package's own descriptor of its group. -/
def digDiffers (s : State) (f : Flit) : Bool := gValid s f.group && f.dig != groupDigest s f.group

/-- R283, R286: the flit belongs to this package's own group of the family: it goes to that group's root, or its digest shows that the descriptors differ (log 34). -/
def ownGroup (s : State) (f : Flit) : Bool := gValid s f.group && (rootCoord s f.group == f.root || digDiffers s f)

/-- R298: the collective of a flit at this package: matched by group and sequence number; of one family's groups that cross here, the one on the way to the same root (log 34). -/
def collOf (s : State) (f : Flit) : Option Coll :=
  s.colls.find? (fun c => !c.queued && c.kind != 0 && c.group == f.group && c.seq % 65536 == f.seq && (c.root == f.root || digDiffers s f))

/-- R295, R380: a flit leaves on a port, on its twin when that one is not up, or is dropped; none of a group whose partition is being scrubbed is sent. -/
def txFlit (s : State) (k : Nat) (f : Flit) : State :=
  let t := (k + 8) % 16
  if ownGroup s f && s.scrubs.any (fun c => c.part == rdf s (R.COL_GROUP f.group) 44 3) then s
  else if portState s k = 3 then { s with tx := s.tx ++ [.flit k f] }
  else if portState s t = 3 then { s with tx := s.tx ++ [.flit t f] }
  else s

/-- R271, R272, R295, R303: send a flit toward the root: by dimension order, marked uncombined on a detour, dropped at a parapet or with no route. -/
def sendUp (s : State) (f : Flit) : State :=
  match nextHop s (ownCoord s) f.root f.dax with
  | none => s
  | some (ax, d) =>
    let n := 2 * ax + d
    let k := if Config.twinHash f.group f.seq f.chunk then n + 8 else n
    if portState s n = 3 ∨ portState s (n + 8) = 3 then txFlit s k f
    else if portState s n = 2 ∨ portState s (n + 8) = 2 ∨ f.dax ≠ 0 then s
    else
      match detourPort s n with
      | some k => if hopInBlock s k then txFlit s k { f with unc := true, part := true, dax := k % 8 / 2 + 1 } else s
      | none => s

/-- R302, R303: claim the slots of a collective, once, where contributions meet; a refused claim makes it pass uncombined. -/
def claimSlots (s : State) (id : Nat) : State :=
  match getColl s id with
  | none => s
  | some c =>
    if c.claimed || c.need ≤ 1 then s
    else
      let free := redFree s
      let win := max 1 (rdf s R.COL_CFG 32 6)
      let want := if isBulk c.kind then win else 1
      if (if isBulk c.kind then rdf s R.COL_CFG 16 12 < free && win ≤ free else 1 ≤ free) then
        modColl s id (fun c => { c with claimed := true, slots := want })
      else modColl (addSat s R.COL_SLOTS 32 32 1) id (fun c => { c with claimed := true, pass := true, part := true })

/-- A flit of a collective. -/
def collFlit (s : State) (c : Coll) (down : Bool) (chunk : Nat) (vals : List (Nat × Nat)) (cnt : Nat) : Flit :=
  ⟨down, isBulk c.kind, c.group, c.seq % 65536, c.kind, groupDigest s c.group, c.ddig, c.pass, c.part, none, chunk, c.n, vals, cnt, c.root, 0⟩

/-- R295, R303: a result, or a failure, reaches this package's router: it goes on to every port that was heard, and to this package's own engine. A transit collective ends here when it has passed. -/
def takeDown (s : State) (id : Nat) (f : Flit) : State :=
  match getColl s id with
  | none => s
  | some c =>
    let s := c.ins.foldl (fun s k => txFlit s k f) s
    let part := c.part || f.part
    match f.fail with
    | some e =>
      if c.fired then modColl s id (fun c => { c with fail := c.fail.or (some e), done := true, slots := 0, up := true })
      else { dropColl s id with collEnds := s.collEnds ++ [(c.group, c.seq % 65536, e.1, e.2)] }
    | none =>
      let res := if c.res.any (fun r => r.1 == f.chunk) then c.res else c.res ++ [(f.chunk, f.vals)]
      if res.length = c.n then
        (if c.fired then modColl s id (fun c => { c with res := res, part := part, done := true, slots := 0 }) else dropColl s id)
      else modColl s id (fun c => { c with res := res, part := part })

/-- R304: a collective fails at this router: its inputs learn it by the result path, and the root by one failed flit that stands for everything this router was to send. -/
def failColl (s : State) (id st sub : Nat) : State :=
  match getColl s id with
  | none => s
  | some c =>
    let e := (collFlit s c false 0 [] c.need)
    let s := if c.root ≠ ownCoord s && !c.up then sendUp s { e with fail := some (st, sub) } else s
    takeDown s id { collFlit s c true 0 [] 0 with fail := some (st, sub) }

/-- R295, R303: a chunk has all the members this router waits for: the root makes the result; another router sends one flit on, which counts the members it combined. -/
def tryChunk (s : State) (id ix : Nat) : State :=
  match getColl s id with
  | none => s
  | some c =>
    match c.chunks.find? (fun k => k.ix == ix) with
    | none => s
    | some k =>
      if k.sent || k.cnt < c.need then s
      else
        let fm := fld (c.ws.getD 2 0) 32 32
        let ety := fld (c.ws.getD 5 0) 32 4
        let bop := fld (c.ws.getD 5 0) 36 2
        let s1 : State := modColl { s with free := s.free + 64 } id (fun c =>
          { c with chunks := c.chunks.map (fun x => if x.ix = ix then { x with sent := true, vals := [] } else x) })
        let v := redChunk c.kind fm ety bop (levelBits s c.group) (precision s) s.free k.vals
        if c.root = ownCoord s then takeDown s1 id (collFlit s1 c true ix v 0)
        else
          match k.vals with
          | [] => s1
          | [one] => sendUp s1 (collFlit s1 c false ix one k.comb)
          | _ => sendUp s1 (collFlit s1 c false ix v k.comb)

/-- R295, R303: an input of a chunk: combined here, or, at a router that passes it and is not the root, sent on unchanged. -/
def addInput (s : State) (id ix cnt : Nat) (vals : List (Nat × Nat)) (f : Flit) : State :=
  match getColl s id with
  | none => s
  | some c =>
    let pass := (c.pass || f.unc) && c.root != ownCoord s
    let k0 : CollChunk := (c.chunks.find? (fun k => k.ix == ix)).getD ⟨ix, 0, 0, [], false⟩
    let k1 := { k0 with cnt := k0.cnt + cnt, comb := if pass then k0.comb else k0.comb + cnt, vals := if pass then k0.vals else k0.vals ++ [vals] }
    let s := modColl s id (fun c => { c with chunks := c.chunks.filter (fun k => k.ix ≠ ix) ++ [k1], part := c.part || f.unc || f.part })
    let s := if pass then sendUp s { f with unc := true, part := true } else s
    tryChunk s id ix

/-- R304: how another member's failure reads here: a contribution that could not be read is MEMBER_FAULT elsewhere. -/
def othersFail (e : Nat × Nat) : Nat × Nat := if e.2 = 0x16 ∨ e.2 = 0x17 ∨ e.1 = 0x12 then (0x12, 0x65) else e

/-- R286, R303, R304: a flit on its way to the root joins the collective at this router. -/
def joinUp (s : State) (id port : Nat) (f : Flit) : State :=
  match getColl s id with
  | none => s
  | some c =>
    let s := modColl s id (fun c => { c with ins := if c.ins.contains port then c.ins else c.ins ++ [port] })
    match c.fail with
    | some e =>
      if e.1 = 0x24 ∨ e.2 = 0x60 then addSat s R.COL_LATE 0 32 1
      else txFlit s port { collFlit s c true 0 [] 0 with fail := some (othersFail e) }
    | none =>
      match f.fail with
      | some e => failColl s id e.1 e.2
      | none =>
        if digDiffers s f then failColl s id 0x11 0x61
        else if c.kind ≠ f.kind ∨ c.ddig ≠ f.ddig then failColl s id 0x11 0x62
        else addInput s id f.chunk f.cnt f.vals f

/-- R298, R299: this package is a member that has not yet fired a sequence number of a group. -/
def unfired (s : State) (g q16 : Nat) : Bool :=
  gValid s g && isMember s g (actCoord s) && (q16 + 65536 - rdf s (R.COL_GSEQ g) 32 32 % 65536) % 65536 < 32768

/-- R299: the collective is fired here, but waits in its engine's queue. -/
def queuedHere (s : State) (g q16 : Nat) : Bool := s.colls.any (fun c => c.queued && c.group == g && c.seq % 65536 == q16)

/-- R298, R302: the record of a collective that this package has not fired, made by its first flit. -/
def transitColl (s : State) (f : Flit) : State × Nat :=
  let mine := ownGroup s f
  let c : Coll := ⟨s.nextId, f.group, f.seq, if mine then rootCoord s f.group else f.root, .transit, 64, [], [], 16, false, false, 0, f.kind, f.ddig,
    if mine then routerNeed s f.group else 0, f.n, !mine, 0, !mine, !mine, [], [], [], none, false, false⟩
  (claimSlots { s with nextId := s.nextId + 1, colls := s.colls ++ [c] } s.nextId, s.nextId)

/-- R299: a flit is refused: the match buffer has no room for it. -/
def matchFull (s : State) (f : Flit) : Bool := (if f.bulk then 3072 else 4096) ≤ s.matchBuf.length

/-- R298-R301: a flit on its way to the root arrives: it joins its collective, waits in the match buffer, is refused, is answered for a failed collective, or is late. -/
def flitUp (s : State) (port : Nat) (f : Flit) : State :=
  let known := collOf s f
  let firedHere := known.any (fun c => c.fired)
  let waits := !firedHere && (unfired s f.group f.seq || queuedHere s f.group f.seq) && ownGroup s f
  if waits then
    (if matchFull s f then addSat s R.COL_MATCH 32 32 1
     else
      let s : State := { s with matchBuf := s.matchBuf ++ [(port, f)] }
      match known with
      | some _ => s
      | none => (transitColl s f).1)
  else
    match known with
    | some c => joinUp s c.id port f
    | none =>
      match s.collEnds.find? (fun e => e.1 == f.group && e.2.1 == f.seq) with
      | some e => txFlit s port { f with down := true, fail := some e.2.2, vals := [], cnt := 0 }
      | none =>
        if ownGroup s f && isMember s f.group (actCoord s) then addSat s R.COL_LATE 0 32 1
        else let t := transitColl s f; joinUp t.1 t.2 port f

/-- R270, R295, R297, R301: a flit or chunk arrives at a port; a parapet drops it at every stage of the start-up too, and a collective that its watchdog ended counts it late. -/
def flitIn (s : State) (port : Nat) (f : Flit) : State :=
  if 16 ≤ port then s
  else if portState s port = 2 then parapetDrop s port
  else if portState s port ≠ 3 || !issuing s then s
  else if f.down then
    match collOf s f with
    | some c =>
      if c.fail.any (fun e => e.1 == 0x24) then addSat s R.COL_LATE 0 32 1
      else if digDiffers s f && f.fail.isNone then failColl s c.id 0x11 0x61
      else takeDown s c.id f
    | none => addSat s R.COL_LATE 0 32 1
  else flitUp s port f

/-- R298: fired collectives of a group that have not ended here. -/
def unfinished (s : State) (g : Nat) : List Coll := s.colls.filter (fun c => c.group == g && c.kind != 0 && (c.fired || c.queued) && !c.done)

/-- R293: collectives in flight on an engine. -/
def engInflight (s : State) (e : Nat) : Nat := (s.colls.filter (fun c => c.eng == e && c.fired && !c.queued)).length

/-- R293: firings waiting on an engine. -/
def engQueued (s : State) (e : Nat) : Nat := (s.colls.filter (fun c => c.eng == e && c.queued)).length

/-- R293, R298: a firing may start: its engine has room and no earlier firing waits there, and its sequence number is within the window. -/
def mayStart (s : State) (c : Coll) : Bool :=
  (c.eng == 16 || (engInflight s c.eng < 64 &&
    (s.colls.find? (fun x => x.eng == c.eng && x.queued)).all (fun x => x.id == c.id))) &&
  (unfinished s c.group).all (fun x => c.seq ≤ x.seq + 32768)

/-- R298, R302: a firing takes over the record that earlier flits of its collective made here. -/
def adopt (s : State) (c : Coll) : State :=
  match s.colls.find? (fun x => x.user == .transit && x.group == c.group && x.seq % 65536 == c.seq % 65536 && x.root == c.root) with
  | some x =>
    { s with colls := (s.colls.filter (fun y => y.id ≠ x.id)).map (fun y => if y.id = c.id then
        { y with ins := x.ins, claimed := x.claimed, slots := x.slots, pass := x.pass, part := y.part || x.part, chunks := x.chunks } else y) }
  | none => s

/-- R304: the failure of a contribution read, as the member that reads reports it. -/
def srcError : AccErr → Nat × Nat
  | .poison => (0x12, 0)
  | .perm => (0x11, 0x17)
  | .text => (0x11, 0x17)
  | .measured => (0x11, 0x17)
  | _ => (0x10, 0x16)

/-- R244, R297: a collective engine's reads and writes of memory: on the bulk path with the requests, else express. -/
def srcColl (s : State) (c : Coll) : Src := ⟨c.ctx, 2, 65535, partOf s c.ctx, if isBulk c.kind then 2 else 0, 1, true, false⟩

/-- R287, R292: the contribution of this member: none for a barrier and for a broadcast's other members. -/
def readSrc (s : State) (c : Coll) : State × MemRes (List Byte) :=
  let isRoot := c.root == ownCoord s
  match c.user with
  | .trig _ =>
    if c.kind = 1 ∨ ((c.kind = 2 ∨ c.kind = 9) ∧ !isRoot) then (s, .ok [])
    else
      (match vaBytes s (srcColl s c) (c.ws.getD 3 0).toNat (if isBulk c.kind then fld (c.ws.getD 5 0) 0 32 else 64) with
       | (s, .ok (bs, p)) => (s, if p then .err .poison else .ok bs)
       | (s, .err e) => (s, .err e)
       | (s, .wait) => (s, .wait))
  | _ => (s, .ok c.src)

/-- R287, R289: the carried values of chunk `i` of a contribution. -/
def chunkVals (c : Coll) (bs : List Byte) (i : Nat) : List (Nat × Nat) :=
  let part := (bs.drop (64 * i)).take 64
  if part.isEmpty then []
  else if c.kind = 0xA ∨ c.kind = 0xB then bulkCarry (fld (c.ws.getD 5 0) 32 4) (fld (c.ws.getD 5 0) 36 2) part
  else slotsOf part

/-- R299: the entries of the match buffer that wait for a collective join it. -/
def drainMatch (s : State) (id : Nat) : State :=
  match getColl s id with
  | none => s
  | some c =>
    let mine := s.matchBuf.filter (fun m => m.2.group == c.group && m.2.seq == c.seq % 65536)
    let s : State := { s with matchBuf := s.matchBuf.filter (fun m => !(m.2.group == c.group && m.2.seq == c.seq % 65536)) }
    mine.foldl (fun s m => joinUp s id m.1 m.2) s

/-- R292, R304: end a collective at this package alone. -/
def endHere (s : State) (id st sub : Nat) : State :=
  modColl s id (fun c => { c with fired := true, queued := false, fail := some (st, sub), done := true, slots := 0 })

/-- R287, R292, R295, R302-R304, R355: start a fired collective: LOCAL is done at once; otherwise check its group and members, read the contribution, claim slots, and send or combine it. It stays queued while the read waits. -/
def startColl (s0 : State) (id : Nat) : State :=
  match getColl s0 id with
  | none => s0
  | some c0 =>
    if c0.kind = 0 then modColl s0 id (fun c => { c with queued := false, fired := true, done := true })
    else
    let part := match c0.user with
      | .trig _ => partOf s0 c0.ctx
      | .svu _ => partOf s0 c0.ctx
      | _ => rdf s0 (R.COL_GROUP c0.group) 44 3
    if !gValid s0 c0.group || rdf s0 (R.COL_GROUP c0.group) 44 3 != part then endHere s0 id 0x11 0x60
    else if lostMember s0 c0.group then endHere s0 id 0x22 0x63
    else
      match readSrc s0 c0 with
      | (_, .wait) => modColl s0 id (fun c => { c with queued := true })
      | (s, r) =>
        let spare := actCoord s != ownCoord s
        let s := modColl s id (fun c => { c with queued := false, fired := true, need := routerNeed s c.group })
        let s := claimSlots (adopt s c0) id
        match r with
        | .err e =>
          let s := failColl s id 0x12 0x65
          modColl s id (fun c => { c with fail := some (srcError e) })
        | .ok bs =>
          let s := (List.range c0.n).foldl (fun s i =>
            match getColl s id with
            | none => s
            | some c =>
              let f := collFlit s c false i (chunkVals c bs i) 1
              if spare && c.root != ownCoord s then sendUp s { f with unc := true, part := true }
              else addInput s id i 1 f.vals { f with unc := false, part := false }) s
          drainMatch s id
        | .wait => s

/-- R292, R303, R304, R355: the status and subcode of a collective that has ended here. -/
def collStatus (s : State) (c : Coll) : Nat × Nat :=
  match c.fail with
  | some e => e
  | none => if c.kind = 0 then (0, 0) else if hasStandin s c.group then (1, 0x8A) else if c.part then (1, 0) else (0, 0)

/-- R303, R305: an ended collective leaves its engine and is counted. -/
def collEnd (s : State) (c : Coll) : State :=
  let s := if (collStatus s c).1 = 1 then addSat s R.COL_STAT 0 32 1 else s
  let s := if c.eng < 16 then addDiv s (R.COL_ENG c.eng) 32 32 64 1 else s
  let s : State := match c.fail with
    | some e => if e.1 = 0x24 ∨ e.2 = 0x60 then s else
      let o := othersFail e
      { s with collEnds := s.collEnds ++ [(c.group, c.seq % 65536, o.1, o.2)] }
    | none => s
  dropColl s c.id

/-- R298: the digest of what a collective does: FMAP, or ETYPE, BOP and LEN. -/
def dataDigest (ws : List Word) : Nat :=
  (Config.crc16 [fld (ws.getD 2 0) 32 32, fld (ws.getD 5 0) 0 38]).toNat

/-- R301: the LTC at which the watchdog of a collective fired now expires. -/
def wdogAt (s : State) (ws : List Word) : Nat :=
  let w := fld (ws.getD 7 0) 0 16
  s.ltc.toNat + 1000 * (if w = 0 then max 1 (rdf s R.COL_CFG 0 16) else w)

/-- R293: a fired collective enters its engine's queue, and starts when it may. -/
def queueColl (s : State) (c : Coll) : State :=
  let s : State := { s with nextId := s.nextId + 1, colls := s.colls ++ [c] }
  if mayStart s c then startColl s c.id else s

/-- R291-R294, R301: fire a collective of a group: it takes the group's sequence number, and starts or waits. -/
def fireColl (s : State) (user : CollUser) (ctx : Nat) (ws : List Word) (src : List Byte) (eng : Nat) : State :=
  let g := fld (ws.getD 2 0) 0 10
  let kind := fld (ws.getD 0 0) 32 4
  let seq := rdf s (R.COL_GSEQ g) 32 32
  let n := if isBulk kind then fld (ws.getD 5 0) 0 32 / 64 else 1
  let s1 := wrf s (R.COL_GSEQ g) 32 32 (seq + 1)
  queueColl { s1 with collEnds := s1.collEnds.filter (fun e => !(e.1 == g && e.2.1 == seq % 65536)) }
    ⟨s.nextId, g, seq, rootCoord s g, user, ctx, ws, src, eng, true, false, wdogAt s ws, kind, dataDigest ws,
      0, n, false, 0, false, false, [], [], [], none, false, false⟩

/-- R287, R291, R293: fire a LOCAL entry: it takes no sequence number and no group, and waits in its engine's queue like any firing. -/
def fireLocal (s : State) (t : Nat) (ws : List Word) (eng : Nat) : State :=
  queueColl s ⟨s.nextId, 1024, 0, 0, .trig t, fld (ws.getD 0 0) 2 6, ws, [], eng, true, false, wdogAt s ws, 0, 0,
    0, 0, false, 0, false, false, [], [], [], none, false, false⟩

/-- The words of a trigger entry. -/
def trigWords (s : State) (t : Nat) : List Word := (List.range 8).map (fun w => rd s (R.COL_TRIG t w))

/-- R291, R293: one firing of an entry: THRESH rises by STEP, or ARMED is cleared. -/
def fireTrig (s : State) (t : Nat) : State :=
  let ws := trigWords s t
  let w0 := ws.getD 0 0
  let step := fld (ws.getD 1 0) 32 32
  let s := if step = 0 then wrf s (R.COL_TRIG t 0) 1 1 0 else wrf s (R.COL_TRIG t 1) 0 32 (fld (ws.getD 1 0) 0 32 + step)
  let eng := if fld w0 36 4 = 15 then t % 16 else fld w0 36 4
  if fld w0 32 4 = 0 then fireLocal s t ws eng
  else fireColl s (.trig t) (fld w0 2 6) ws [] eng

/-- R291: the entry fires now. -/
def trigDue (s : State) (t n : Nat) : Bool :=
  let w0 := rd s (R.COL_TRIG t 0)
  bitw w0 0 && bitw w0 1 && fld w0 8 11 == n &&
    0 ≤ sext 32 (rdf s (R.COL_TCTR n) 0 32 + 2 ^ 32 - rdf s (R.COL_TRIG t 1) 0 32)

/-- R291: the valid entries of the trigger table that watch a counter, in increasing index. -/
def watchers (s : State) (n : Nat) : List Nat :=
  s.regs.filterMap (fun kv =>
    if R.COL_TRIG 0 0 ≤ kv.1 ∧ kv.1 < R.COL_TRIG 8192 0 ∧ (nsub kv.1 (R.COL_TRIG 0 0)) % 64 = 0 ∧ bitw kv.2 0 ∧ fld kv.2 8 11 = n then
      some ((nsub kv.1 (R.COL_TRIG 0 0)) / 64) else none)

/-- R291: the entries of a counter that are due fire in increasing index, one threshold each, until none is due. -/
def fireRounds (n : Nat) : Nat → State → State
  | 0, s => s
  | fuel + 1, s =>
    if (watchers s n).any (fun t => trigDue s t n) then
      fireRounds n fuel ((watchers s n).foldl (fun s t => if trigDue s t n then fireTrig s t else s) s)
    else s

/-- R291: fire the entries of a counter that are due. -/
def fireCounter (s : State) (n : Nat) : State := fireRounds n (2 ^ 32) s

/-- R290: add to a trigger counter in use, and fire what is due. -/
def tctrAdd (s : State) (n v : Nat) : State :=
  if bitw (rd s (R.COL_TCTR n)) 63 then fireCounter (wrf s (R.COL_TCTR n) 0 32 (rdf s (R.COL_TCTR n) 0 32 + v)) n else s

/-- R304: every collective here whose group has lost a member ends. -/
def loseMembers (s : State) : State :=
  (s.colls.filter (fun c => c.kind != 0 && !c.done && lostMember s c.group && gValid s c.group)).foldl (fun s c =>
    if c.fired ∨ c.queued then endHere s c.id 0x22 0x63 else dropColl s c.id) s

end Sys2Proof.Machine
end

