-- ==== Sys2Proof/Machine/Crypto.lean ====
section
/-! DEFINITION. The algorithms of the security engine that the spec names by their public standards (R360): SHA-512, HKDF-SHA-512 (RFC 5869), Ed25519 (RFC 8032), X25519 (RFC 7748), AES-256 in GCM and in XTS. The constants and steps are those of the standards (log 11). -/

namespace Sys2Proof.Machine

/-- SHA-512: the round constants. -/
def shaK : List Nat :=
  [0x428a2f98d728ae22, 0x7137449123ef65cd, 0xb5c0fbcfec4d3b2f, 0xe9b5dba58189dbbc] ++
  [0x3956c25bf348b538, 0x59f111f1b605d019, 0x923f82a4af194f9b, 0xab1c5ed5da6d8118] ++
  [0xd807aa98a3030242, 0x12835b0145706fbe, 0x243185be4ee4b28c, 0x550c7dc3d5ffb4e2] ++
  [0x72be5d74f27b896f, 0x80deb1fe3b1696b1, 0x9bdc06a725c71235, 0xc19bf174cf692694] ++
  [0xe49b69c19ef14ad2, 0xefbe4786384f25e3, 0xfc19dc68b8cd5b5, 0x240ca1cc77ac9c65] ++
  [0x2de92c6f592b0275, 0x4a7484aa6ea6e483, 0x5cb0a9dcbd41fbd4, 0x76f988da831153b5] ++
  [0x983e5152ee66dfab, 0xa831c66d2db43210, 0xb00327c898fb213f, 0xbf597fc7beef0ee4] ++
  [0xc6e00bf33da88fc2, 0xd5a79147930aa725, 0x6ca6351e003826f, 0x142929670a0e6e70] ++
  [0x27b70a8546d22ffc, 0x2e1b21385c26c926, 0x4d2c6dfc5ac42aed, 0x53380d139d95b3df] ++
  [0x650a73548baf63de, 0x766a0abb3c77b2a8, 0x81c2c92e47edaee6, 0x92722c851482353b] ++
  [0xa2bfe8a14cf10364, 0xa81a664bbc423001, 0xc24b8b70d0f89791, 0xc76c51a30654be30] ++
  [0xd192e819d6ef5218, 0xd69906245565a910, 0xf40e35855771202a, 0x106aa07032bbd1b8] ++
  [0x19a4c116b8d2d0c8, 0x1e376c085141ab53, 0x2748774cdf8eeb99, 0x34b0bcb5e19b48a8] ++
  [0x391c0cb3c5c95a63, 0x4ed8aa4ae3418acb, 0x5b9cca4f7763e373, 0x682e6ff3d6b2b8a3] ++
  [0x748f82ee5defb2fc, 0x78a5636f43172f60, 0x84c87814a1f0ab72, 0x8cc702081a6439ec] ++
  [0x90befffa23631e28, 0xa4506cebde82bde9, 0xbef9a3f7b2c67915, 0xc67178f2e372532b] ++
  [0xca273eceea26619c, 0xd186b8c721c0c207, 0xeada7dd6cde0eb1e, 0xf57d4f7fee6ed178] ++
  [0x6f067aa72176fba, 0xa637dc5a2c898a6, 0x113f9804bef90dae, 0x1b710b35131c471b] ++
  [0x28db77f523047d84, 0x32caab7b40c72493, 0x3c9ebe0a15c9bebc, 0x431d67c49c100d4c] ++
  [0x4cc5d4becb3e42b6, 0x597f299cfc657e2a, 0x5fcb6fab3ad6faec, 0x6c44198c4a475817]

/-- The eight working words of SHA-512. -/
structure Sha where
  a : Nat
  b : Nat
  c : Nat
  d : Nat
  e : Nat
  f : Nat
  g : Nat
  h : Nat
  deriving DecidableEq, Repr

/-- SHA-512: the initial hash value. -/
def shaInit : Sha := ⟨0x6a09e667f3bcc908, 0xbb67ae8584caa73b, 0x3c6ef372fe94f82b, 0xa54ff53a5f1d36f1, 0x510e527fade682d1, 0x9b05688c2b3e6c1f, 0x1f83d9abfb41bd6b, 0x5be0cd19137e2179⟩

/-- Rotate a 64-bit word right. -/
def rotr64 (x n : Nat) : Nat := (x >>> n) ||| ((x <<< (64 - n)) % 2 ^ 64)

/-- The big-endian number of a byte string. -/
def beNat (bs : List Byte) : Nat := bs.foldl (fun n b => n * 256 + b.toNat) 0

/-- The `n` big-endian bytes of a number. -/
def beBytes (n x : Nat) : List Byte := (leBytes n x).reverse

/-- SHA-512: the message schedule, newest word first. -/
def shaSched : Nat → List Nat → List Nat
  | 0, w => w
  | n + 1, w =>
    let x := nth w 1
    let y := nth w 14
    let s1 := rotr64 x 19 ^^^ rotr64 x 61 ^^^ (x >>> 6)
    let s0 := rotr64 y 1 ^^^ rotr64 y 8 ^^^ (y >>> 7)
    shaSched n (((s1 + nth w 6 + s0 + nth w 15) % 2 ^ 64) :: w)

/-- SHA-512: one round, with a constant and a schedule word. -/
def shaRound (x : Sha) (kw : Nat × Nat) : Sha :=
  let s1 := rotr64 x.e 14 ^^^ rotr64 x.e 18 ^^^ rotr64 x.e 41
  let ch := (x.e &&& x.f) ^^^ ((x.e ^^^ (2 ^ 64 - 1)) &&& x.g)
  let t1 := x.h + s1 + ch + kw.1 + kw.2
  let s0 := rotr64 x.a 28 ^^^ rotr64 x.a 34 ^^^ rotr64 x.a 39
  let mj := (x.a &&& x.b) ^^^ (x.a &&& x.c) ^^^ (x.b &&& x.c)
  ⟨(t1 + s0 + mj) % 2 ^ 64, x.a, x.b, x.c, (x.d + t1) % 2 ^ 64, x.e, x.f, x.g⟩

/-- SHA-512: one block of 128 bytes. -/
def shaBlock (h : Sha) (bs : List Byte) : Sha :=
  let w := shaSched 64 ((List.range 16).map (fun i => beNat ((bs.drop (8 * i)).take 8))).reverse
  let x := (shaK.zip w.reverse).foldl shaRound h
  let add (a b : Nat) : Nat := (a + b) % 2 ^ 64
  ⟨add h.a x.a, add h.b x.b, add h.c x.c, add h.d x.d, add h.e x.e, add h.f x.f, add h.g x.g, add h.h x.h⟩

/-- SHA-512: `n` blocks in order. -/
def shaBlocks : Nat → Sha → List Byte → Sha
  | 0, h, _ => h
  | n + 1, h, bs => shaBlocks n (shaBlock h (bs.take 128)) (bs.drop 128)

/-- R365: SHA-512 of a byte string, as 64 bytes. -/
def sha512Bytes (m : List Byte) : List Byte :=
  let z := (128 - (m.length + 17) % 128) % 128
  let p := m ++ [0x80] ++ List.replicate z 0 ++ beBytes 16 (8 * m.length)
  let h := shaBlocks (p.length / 128) shaInit p
  [h.a, h.b, h.c, h.d, h.e, h.f, h.g, h.h].flatMap (beBytes 8)

/-- R365: SHA-512 as a number whose little-endian bytes are the digest. -/
def sha512 (m : List Byte) : BitVec 512 := BitVec.ofNat 512 (leNat (sha512Bytes m))

/-- R370: HMAC-SHA-512 with a key of at most 128 bytes. -/
def hmac512 (key m : List Byte) : List Byte :=
  let k := (key ++ List.replicate 128 0).take 128
  sha512Bytes (k.map (· ^^^ 0x5C) ++ sha512Bytes (k.map (· ^^^ 0x36) ++ m))

/-- R370: the first step of HKDF-SHA-512, from salt and input key material. -/
def hkdfExtract (salt ikm : List Byte) : List Byte := hmac512 salt ikm

/-- R370: the second step of HKDF-SHA-512, for 32 bytes of a key. -/
def hkdfKey (prk info : List Byte) : BitVec 256 := BitVec.ofNat 256 (leNat ((hmac512 prk (info ++ [1])).take 32))

/-- The ASCII bytes of an info string. -/
def asciiBytes (t : String) : List Byte := t.toList.map (fun c => BitVec.ofNat 8 c.toNat)

/-- The prime 2^255 - 19. -/
def edP : Nat := 2 ^ 255 - 19

/-- The order of the Ed25519 base point. -/
def edL : Nat := 0x1000000000000000000000000000000014def9dea2f79cd65812631a5cf5d3ed

/-- The constant d of the Ed25519 curve. -/
def edD : Nat := 0x52036cee2b6ffe738cc740797779e89800700a4d4141d8ab75eb4dca135978a3

/-- A power modulo `m`, over `f` bits of the exponent. -/
def powMod (m : Nat) : Nat → Nat → Nat → Nat
  | 0, _, _ => 1
  | f + 1, b, e => (if e % 2 = 1 then b else 1) * powMod m f (b * b % m) (e / 2) % m

/-- The inverse modulo 2^255 - 19. -/
def edInv (x : Nat) : Nat := powMod edP 255 x (edP - 2)

/-- A difference modulo 2^255 - 19, of numbers below it. -/
def edSub (a b : Nat) : Nat := (a + edP - b) % edP

/-- R360: a point of the Ed25519 curve in extended coordinates. -/
structure EdPt where
  x : Nat
  y : Nat
  z : Nat
  t : Nat
  deriving DecidableEq, Repr

/-- The neutral point. -/
def edZero : EdPt := ⟨0, 1, 1, 0⟩

/-- The base point. -/
def edBase : EdPt :=
  let x := 0x216936d3cd6e53fec0a4e231fdd6dc5c692cc7609525a7b2c9562d608f25d51a
  let y := 0x6666666666666666666666666666666666666666666666666666666666666658
  ⟨x, y, 1, x * y % edP⟩

/-- The sum of two points. -/
def edAdd (p q : EdPt) : EdPt :=
  let a := edSub p.y p.x * edSub q.y q.x % edP
  let b := (p.y + p.x) * (q.y + q.x) % edP
  let c := p.t * 2 % edP * edD % edP * q.t % edP
  let d := p.z * 2 * q.z % edP
  let e := edSub b a
  let f := edSub d c
  let g := (d + c) % edP
  let h := (b + a) % edP
  ⟨e * f % edP, g * h % edP, f * g % edP, e * h % edP⟩

/-- A multiple of a point, over `f` bits of the scalar. -/
def edMul : Nat → Nat → EdPt → EdPt
  | 0, _, _ => edZero
  | f + 1, k, p =>
    let r := edMul f (k / 2) (edAdd p p)
    if k % 2 = 1 then edAdd r p else r

/-- Two points are the same. -/
def edEq (p q : EdPt) : Bool := p.x * q.z % edP == q.x * p.z % edP && p.y * q.z % edP == q.y * p.z % edP

/-- A point as a 256-bit number. -/
def edEncode (p : EdPt) : Nat :=
  let i := edInv p.z
  p.y * i % edP + 2 ^ 255 * (p.x * i % edP % 2)

/-- The point of a 256-bit number, if it is one. -/
def edDecode (n : Nat) : Option EdPt :=
  let sign := n / 2 ^ 255 % 2
  let y := n % 2 ^ 255
  let u := edSub (y * y % edP) 1
  let v := (edD * (y * y % edP) + 1) % edP
  let v3 := v * v % edP * v % edP
  let r := u * v3 % edP * powMod edP 255 (u * (v3 * v3 % edP * v % edP) % edP) ((edP - 5) / 8) % edP
  let vr := v * (r * r % edP) % edP
  let x := if vr = u then some r else if vr = edSub 0 u then some (r * 0x2b8324804fc1df0b2b4d00993dfbd7a72f431806ad2fe478c4ee1b274a0ea0b0 % edP) else none
  match x with
  | none => none
  | some x =>
    if edP ≤ y ∨ (x = 0 ∧ sign = 1) then none
    else
      let x := if x % 2 = sign then x else edP - x
      some ⟨x, y, 1, x * y % edP⟩

/-- R360: the secret scalar and the prefix of a seed. -/
def edExpand (seed : Nat) : Nat × List Byte :=
  let h := sha512Bytes (leBytes 32 seed)
  let a := leNat (h.take 32)
  (a % 2 ^ 254 / 8 * 8 + 2 ^ 254, h.drop 32)

/-- R373: the public half of an Ed25519 seed. -/
def edPub (seed : Nat) : BitVec 256 := BitVec.ofNat 256 (edEncode (edMul 255 (edExpand seed).1 edBase))

/-- R364, R368: the Ed25519 signature of a message by a seed. -/
def edSign (seed : Nat) (msg : List Byte) : BitVec 512 :=
  let k := edExpand seed
  let r := leNat (sha512Bytes (k.2 ++ msg)) % edL
  let big := edEncode (edMul 253 r edBase)
  let h := leNat (sha512Bytes (leBytes 32 big ++ leBytes 32 (edPub seed).toNat ++ msg)) % edL
  BitVec.ofNat 512 (big + ((r + h * k.1) % edL) * 2 ^ 256)

/-- R362, R373: whether an Ed25519 signature verifies. RFC 8032 lets the check leave the cofactor out or not, and the choice shows only in signatures that no signer makes (log 11). -/
def edVerify (pub : BitVec 256) (msg : List Byte) (sig : BitVec 512) : Bool :=
  let rn := sig.toNat % 2 ^ 256
  let sn := sig.toNat / 2 ^ 256
  match edDecode pub.toNat, edDecode rn with
  | some a, some r =>
    let k := leNat (sha512Bytes (leBytes 32 rn ++ leBytes 32 pub.toNat ++ msg)) % edL
    let x := edMul 253 sn edBase
    let y := edAdd r (edMul 253 k a)
    if edL ≤ sn then false
    else if edEq x y then true
    else edEq (edMul 4 8 x) (edMul 4 8 y) && Config.edCofactor pub msg sig
  | _, _ => false

/-- The two points of an X25519 ladder. -/
structure Ladder where
  x2 : Nat
  z2 : Nat
  x3 : Nat
  z3 : Nat
  deriving DecidableEq, Repr

/-- Exchange the points. -/
def ladSwap (l : Ladder) (b : Nat) : Ladder := if b = 1 then ⟨l.x3, l.z3, l.x2, l.z2⟩ else l

/-- One step of the ladder for a bit of the scalar. -/
def ladStep (u b : Nat) (l0 : Ladder) : Ladder :=
  let l := ladSwap l0 b
  let a := (l.x2 + l.z2) % edP
  let aa := a * a % edP
  let d := edSub l.x2 l.z2
  let dd := d * d % edP
  let e := edSub aa dd
  let da := edSub l.x3 l.z3 * a % edP
  let cb := (l.x3 + l.z3) % edP * d % edP
  let m := edSub da cb
  ladSwap ⟨aa * dd % edP, e * ((aa + 121665 * e) % edP) % edP, (da + cb) % edP * ((da + cb) % edP) % edP, u * (m * m % edP) % edP⟩ b

/-- The ladder over bits `n-1` to 0. -/
def ladder (u k : Nat) : Nat → Ladder → Ladder
  | 0, l => l
  | n + 1, l => ladder u k n (ladStep u (k / 2 ^ n % 2) l)

/-- R370: X25519 of a private and a public value. -/
def x25519 (priv pub : BitVec 256) : BitVec 256 :=
  let k := priv.toNat % 2 ^ 254 / 8 * 8 + 2 ^ 254
  let u := pub.toNat % 2 ^ 255 % edP
  let l := ladder u k 255 ⟨1, 0, u, 1⟩
  BitVec.ofNat 256 (l.x2 * edInv l.z2 % edP)

/-- AES: the substitution of a byte, from a table of 256 bytes. -/
def aesBox (t : Nat) (b : Byte) : Byte := BitVec.ofNat 8 (t >>> (8 * b.toNat))

/-- AES: the S-box, byte `i` at bits `8*i`. -/
def aesS : Nat := 0x16bb54b00f2d99416842e6bf0d89a18cdf2855cee9871e9b948ed9691198f8e19e1dc186b95735610ef6034866b53e708a8bbd4b1f74dde8c6b4a61c2e2578ba08ae7a65eaf4566ca94ed58d6d37c8e779e4959162acd3c25c2406490a3a32e0db0b5ede14b8ee4688902a22dc4f816073195d643d7ea7c41744975fec130ccdd2f3ff1021dab6bcf5389d928f40a351a89f3c507f02f94585334d43fbaaefd0cf584c4a39becb6a5bb1fc20ed00d153842fe329b3d63b52a05a6e1b1a2c830975b227ebe28012079a059618c323c7041531d871f1e5a534ccf73f362693fdb7c072a49cafa2d4adf04759fa7dc982ca76abd7fe2b670130c56f6bf27b777c63

/-- AES: the inverse S-box. -/
def aesI : Nat := 0x7d0c2155631469e126d677ba7e042b17619953833cbbebc8b0f52aae4d3be0a0ef9cc9939f7ae52d0d4ab519a97f51605fec8027591012b131c7078833a8dd1ff45acd78fec0db9a2079d2c64b3e56fc1bbe18aa0e62b76f89c5291d711af1476edf751ce837f9e28535ade72274ac9673e6b4f0cecff297eadc674f4111913a6b8a130103bdafc1020f3fca8f1e2cd00645b3b80558e4f70ad3bc8c00abd890849d8da75746155edab9edfd5048706c92b6655dcc5ca4d41698688664f6f87225d18b6d49a25b76b224d92866a12e084ec3fa420b954cee3d23c2a632947b54cbe9dec444438e3487ff2f9b8239e37cfbd7f3819ea340bf38a53630d56a0952

/-- AES: a byte times x. -/
def xtime (b : Byte) : Byte := (b <<< 1) ^^^ (if b.getLsbD 7 then 0x1B else 0)

/-- AES: a byte times a constant of four bits. -/
def aesMul (c : Nat) (b : Byte) : Byte :=
  let b2 := xtime b
  let b4 := xtime b2
  let b8 := xtime b4
  (if c.testBit 0 then b else 0) ^^^ (if c.testBit 1 then b2 else 0) ^^^ (if c.testBit 2 then b4 else 0) ^^^ (if c.testBit 3 then b8 else 0)

/-- Exclusive or of byte strings. -/
def xorBytes (a b : List Byte) : List Byte := List.zipWith (· ^^^ ·) a b

/-- Byte `i` of a string, zero past its end. -/
def byteAt (l : List Byte) (i : Nat) : Byte := l.getD i 0

/-- AES: (inverse) MixColumns, by the first row of its matrix. -/
def aesMix (c0 c1 c2 c3 : Nat) (x : List Byte) : List Byte :=
  (List.range 16).map (fun i =>
    let f (j : Nat) : Byte := byteAt x (i / 4 * 4 + (i + j) % 4)
    aesMul c0 (f 0) ^^^ aesMul c1 (f 1) ^^^ aesMul c2 (f 2) ^^^ aesMul c3 (f 3))

/-- AES: ShiftRows by `k` columns per row: 1, or 3 for its inverse. -/
def aesShift (k : Nat) (x : List Byte) : List Byte :=
  (List.range 16).map (fun i => byteAt x ((i / 4 + k * (i % 4)) % 4 * 4 + i % 4))

/-- AES-256: the key schedule, newest word first, from word `i` on. -/
def aesSched : Nat → Nat → List (List Byte) → List (List Byte)
  | 0, _, w => w
  | n + 1, i, w =>
    let t := w.headD []
    let t := if i % 8 = 0 then xorBytes ((t.drop 1 ++ t.take 1).map (aesBox aesS)) [BitVec.ofNat 8 (2 ^ (i / 8 - 1)), 0, 0, 0]
      else if i % 8 = 4 then t.map (aesBox aesS) else t
    aesSched n (i + 1) (xorBytes (w.getD 7 []) t :: w)

/-- AES-256: the fifteen round keys of a 32-byte key. -/
def aesKeys (key : List Byte) : List (List Byte) :=
  let w := (aesSched 52 8 ((List.range 8).map (fun i => (key.drop (4 * i)).take 4)).reverse).reverse
  (List.range 15).map (fun r => ((w.drop (4 * r)).take 4).flatten)

/-- AES-256: encrypt a block of 16 bytes under round keys. -/
def aesEnc (ks : List (List Byte)) (x : List Byte) : List Byte :=
  let k (r : Nat) : List Byte := ks.getD r []
  let y := (List.range 13).foldl (fun y r => xorBytes (aesMix 2 3 1 1 (aesShift 1 (y.map (aesBox aesS)))) (k (r + 1))) (xorBytes x (k 0))
  xorBytes (aesShift 1 (y.map (aesBox aesS))) (k 14)

/-- AES-256: decrypt a block of 16 bytes under round keys. -/
def aesDec (ks : List (List Byte)) (x : List Byte) : List Byte :=
  let k (r : Nat) : List Byte := ks.getD r []
  let y := (List.range 13).foldl (fun y r => aesMix 14 11 13 9 (xorBytes ((aesShift 3 y).map (aesBox aesI)) (k (13 - r)))) (xorBytes x (k 14))
  xorBytes ((aesShift 3 y).map (aesBox aesI)) (k 0)

/-- GCM: the product of two blocks as big-endian numbers, over bits `n-1` to 0 of the first. -/
def ghashMul (x : Nat) : Nat → Nat → Nat → Nat
  | 0, _, z => z
  | n + 1, v, z => ghashMul x n ((v / 2) ^^^ (if v % 2 = 1 then 0xE1 * 2 ^ 120 else 0)) (if x.testBit n then z ^^^ v else z)

/-- GCM: the hash of `n` blocks of 16 bytes. -/
def ghash (h : Nat) : Nat → Nat → List Byte → Nat
  | 0, y, _ => y
  | n + 1, y, bs => ghash h n (ghashMul (y ^^^ beNat (bs.take 16)) 128 h 0) (bs.drop 16)

/-- Pad with zeros to whole blocks of 16 bytes. -/
def pad16 (bs : List Byte) : List Byte := bs ++ List.replicate ((16 - bs.length % 16) % 16) 0

/-- R372: AES-256-GCM: the tag of a ciphertext and its authenticated data. The IV has 12 bytes. -/
def gcmTag (key iv aad ct : List Byte) : List Byte :=
  let ks := aesKeys key
  let h := beNat (aesEnc ks (List.replicate 16 0))
  let all := pad16 aad ++ pad16 ct ++ beBytes 8 (8 * aad.length) ++ beBytes 8 (8 * ct.length)
  xorBytes (beBytes 16 (ghash h (all.length / 16) 0 all)) (aesEnc ks (iv ++ beBytes 4 1))

/-- R372: AES-256-GCM: encrypt or decrypt a text by its counter blocks. -/
def gcmText (key iv ct : List Byte) : List Byte :=
  let ks := aesKeys key
  (List.range ((ct.length + 15) / 16)).flatMap (fun i => xorBytes ((ct.drop (16 * i)).take 16) (aesEnc ks (iv ++ beBytes 4 (i + 2))))

/-- R372: AES-256-GCM: decrypt a text and check its tag; none when the tag fails. -/
def gcmOpen (key iv aad ct tag : List Byte) : Option (List Byte) :=
  if gcmTag key iv aad ct = tag then some (gcmText key iv ct) else none

/-- XTS: the tweak of the next block. -/
def xtsNext (t : Nat) : Nat := (t * 2 % 2 ^ 128) ^^^ (if t.testBit 127 then 0x87 else 0)

/-- XTS: `n` blocks under a block function, from a tweak on. -/
def xtsBlocks (f : List Byte → List Byte) : Nat → Nat → List Byte → List Byte
  | 0, _, _ => []
  | n + 1, t, bs =>
    let w := leBytes 16 t
    xorBytes (f (xorBytes (bs.take 16) w)) w ++ xtsBlocks f n (xtsNext t) (bs.drop 16)

/-- R406: AES-256-XTS over one data unit: encrypt, or decrypt, with a key of 64 bytes and the unit's number. -/
def xts (enc : Bool) (key : List Byte) (unit : Nat) (bs : List Byte) : List Byte :=
  let t := leNat (aesEnc (aesKeys (key.drop 32)) (leBytes 16 unit))
  let ks := aesKeys (key.take 32)
  xtsBlocks (if enc then aesEnc ks else aesDec ks) (bs.length / 16) t bs

end Sys2Proof.Machine
end

