-- ==== Sys2Proof/Machine/Drain.lean ====
section
/-! DEFINITION. The drain modules as the package reaches them (R401-R406): which bays are usable, where a block of a partition's areas lies, and encrypted block reads and writes. -/

namespace Sys2Proof.Machine

/-- R403, R404: a bay's module may be used. -/
def bayUsable (s : State) (b : Nat) : Bool :=
  (sget bay0 s.bays b).ready && (sget bay0 s.bays b).mod.isSome && (!confidential s || rdf s (R.DRN_BAY b) 1 1 == 1)

/-- R405: every usable bay's life state lies below a limit, and there is one. -/
def bayState (s : State) (limit : Nat) : Bool :=
  (bayUsable s 0 || bayUsable s 1) && (List.range 2).all (fun b => !bayUsable s b || rdf s (R.DRN_BAY b) 2 3 < limit)

/-- R402: the first stripe pair of an area of a partition: checkpoint slot 0 or 1, the cache (2) or the spill (3). -/
def areaStart (s : State) (p area : Nat) : Nat :=
  let slot := rdf s (R.DRN_AREA p) 0 24
  rdf s (R.DRN_BASE p) 0 40 + (if area = 0 then 0 else if area = 1 then slot else if area = 2 then 2 * slot else 2 * slot + rdf s (R.DRN_AREA p) 24 24)

/-- R402: the 4 KiB blocks of an area. -/
def areaBlocks (s : State) (p area : Nat) : Nat :=
  512 * (if area < 2 then rdf s (R.DRN_AREA p) 0 24 else if area = 2 then rdf s (R.DRN_AREA p) 24 24 else rdf s (R.DRN_AREA p) 48 16)

/-- R402: the bay and logical block of block `i` of an area: 1 MiB stripes over both bays, or all on the one that is usable. -/
def blockPlace (s : State) (p area i : Nat) : Option (Nat × Nat) :=
  let stripe := i / 256
  let first := areaStart s p area
  match bayUsable s 0, bayUsable s 1 with
  | true, true => some (stripe % 2, (first + stripe / 2) * 256 + i % 256)
  | true, false => some (0, (2 * first + stripe) * 256 + i % 256)
  | false, true => some (1, (2 * first + stripe) * 256 + i % 256)
  | false, false => none

/-- R406: the bytes of a block of a partition as its module holds them (`enc`), or as the device reads them from there: AES-256-XTS under the partition's KIND 2 key, with the logical block as the data unit's number; without a key they are the same. -/
def xtsBlock (s : State) (p : Nat) (enc : Bool) (lba : Nat) (bs : List Byte) : List Byte :=
  match partKey s p 2 with
  | none => bs
  | some k => xts enc (leBytes 64 k) lba bs

/-- R401, R406: read a block of an area. -/
def readBlock (s : State) (p area i : Nat) : State × List Byte :=
  match blockPlace s p area i with
  | none => (s, List.replicate 4096 0)
  | some (b, lba) =>
    match (sget bay0 s.bays b).mod with
    | none => (s, List.replicate 4096 0)
    | some m => (s, xtsBlock s p false lba (padTo 4096 (sget [] m.blocks lba)))

/-- R401, R406: write a block, encrypted under the partition's key, and count it toward the module's wear. -/
def writeBlock (s : State) (p area i : Nat) (bs : List Byte) : State :=
  match blockPlace s p area i with
  | none => s
  | some (b, lba) =>
    { s with bays := smod bay0 s.bays b (fun y => { y with mod := y.mod.map (fun m =>
        { m with blocks := sset [] m.blocks lba (xtsBlock s p true lba (padTo 4096 bs)), written := m.written + 4096, touched := true }) }) }

/-- Read `n` blocks from block `i`. -/
def readBlocks (s : State) (p area i : Nat) : Nat → State × List Byte
  | 0 => (s, [])
  | n + 1 =>
    let a := readBlock s p area i
    let r := readBlocks a.1 p area (i + 1) n
    (r.1, a.2 ++ r.2)

/-- Write bytes from block `i`, a block at a time; `n` blocks. -/
def writeBlocks (s : State) (p area i : Nat) (bs : List Byte) : Nat → State
  | 0 => s
  | n + 1 => writeBlocks (writeBlock s p area i (bs.take 4096)) p area (i + 1) (bs.drop 4096) n

/-- R408: what the bays serve before a transfer: drains, and before a fill also loads and restore reads. -/
def xferWaits (s : State) (x : DrnXfer) : Bool :=
  s.ckps.any (fun kv => kv.2.drain.isSome || (x.fill && (match kv.2.rest with | some r => r.source == 1 && !r.local_ | none => false))) ||
  (x.fill && s.drnX.any (fun kv => (match kv.2 with | some y => !y.fill | none => false)))

end Sys2Proof.Machine
end

