-- ==== Sys2Proof/Machine/Checkpoint.lean ====
section
/-! DEFINITION. Checkpoints (R334-R354, R358): step boundaries, cut votes, the copy into the cofferdams, the drain to modules and mirrors, and restores. -/

namespace Sys2Proof.Machine

/-- The checkpoint sequencer of a partition. -/
def ckpOf (s : State) (p : Nat) : Ckp := sget ckp0 s.ckps p
/-- Replace the checkpoint sequencer of a partition. -/
def setCkp (s : State) (p : Nat) (c : Ckp) : State := { s with ckps := sset ckp0 s.ckps p c }
/-- R335: checkpointing of a partition is in force. -/
def ckpOn (s : State) (p : Nat) : Bool := bitw (rd s (R.CKP_CFG p)) 63
/-- R359: CKP_STAT.PHASE. -/
def ckpPhase (s : State) (p : Nat) : Nat := rdf s (R.CKP_STAT p) 0 4
/-- R359: set CKP_STAT.PHASE. -/
def setPhase (s : State) (p n : Nat) : State := wrf s (R.CKP_STAT p) 0 4 n
/-- R359: nothing but a drain, if one runs, is under way. -/
def restPhase (s : State) (p : Nat) : State :=
  setPhase s p (match (ckpOf s p).drain with | some d => if 2 ≤ d.stage then 5 else 4 | none => 0)
/-- R359: set CKP_STAT.STATUS and SUBCODE. -/
def ckpStat (s : State) (p st sub : Nat) : State := wrf s (R.CKP_STAT p) 8 16 (st + sub <<< 8)

/-- The device writes physical memory for itself; nothing where the address is not backed. -/
def devWrite (s : State) (a : Nat) (bs : List Byte) : State :=
  match physErr s .dev a bs.length true with
  | some _ => s
  | none => physWrite s srcDev a bs

/-- R234, R316, R425: an access to a range must wait. -/
def rangeWaits (s : State) (a n : Nat) : Bool :=
  s.hbmHeld || s.hostLines.any (fun kv => kv.2 == 2 && a / 64 ≤ kv.1 && kv.1 * 64 < a + n) ||
  (!s.rowHeld.isEmpty && (linesOf a n).any (lineWaits s))

/-- R232, R244, R344: the cut copy of a partition, made by the copy engines of a half. -/
def srcCut (h p : Nat) : Src := ⟨0, h, 65535, p, 3, 3, true, false⟩

/-- R339: write the release record: bytes [8:31] first, STEP last. -/
def writeRelease (s : State) (p st sub flags cut : Nat) : State :=
  let a := rdf s (R.CKP_ADDR p) 6 42 * 64
  let s := ckpStat s p st sub
  let s := devWrite s (a + 8) (leBytes 1 st ++ leBytes 1 sub ++ leBytes 1 flags ++ leBytes 5 0 ++ leBytes 8 cut ++ leBytes 8 s.ltc.toNat)
  devWrite s a (leBytes 8 (rd s (R.CKP_STEP p)).toNat)

/-- R334: the valid regions of a partition in a half: index, base and length, in increasing index. -/
def regionsOf (s : State) (p h : Nat) : List (Nat × Nat × Nat) :=
  (List.range 64).filterMap (fun i =>
    let w := rd s (R.CKP_REGION p i 0)
    let b := fld w 12 36 * 4096
    if bitw w 63 && (if b < 0x10000000000 then 0 else 1) == h then some (i, b, rdf s (R.CKP_REGION p i 1) 0 32 * 4096) else none)

/-- R335: the length of a half's sequence. -/
def seqLen (s : State) (p h : Nat) : Nat := (if h = 0 then 16384 else 0) + ((regionsOf s p h).map (fun r => r.2.2)).sum

/-- R335: the cofferdam register of a half. -/
def coffReg (p h : Nat) : Nat := if h = 0 then R.CKP_COFF_W p else R.CKP_COFF_E p
/-- R335: a half's cofferdam base. -/
def coffBase (s : State) (p h : Nat) : Nat := rdf s (coffReg p h) 21 27 * 2 ^ 21

/-- R338, R339, R344: the cursor line, the release record or the head of the West cofferdam must wait. -/
def recordWaits (s : State) (p : Nat) : Bool :=
  rangeWaits s (rdf s (R.CKP_ADDR p) 6 42 * 64) 32 || rangeWaits s (rdf s (R.CKP_CURADDR p) 6 42 * 64) 64 || rangeWaits s (coffBase s p 0) 64

/-- R344, R350: the regions or the cofferdams of a partition must wait. -/
def setWaits (s : State) (p : Nat) : Bool :=
  recordWaits s p || (regionsOf s p 0 ++ regionsOf s p 1).any (fun r => rangeWaits s r.2.1 r.2.2) ||
  (List.range 2).any (fun h => rangeWaits s (coffBase s p h) (seqLen s p h))

/-- R335, R373: the checks of CKP_CFG.VALID. -/
def ckpCfgOk (s : State) (p g : Nat) : Bool :=
  (List.range 2).all (fun h =>
    let cb := coffBase s p h
    let cz := rdf s (coffReg p h) 48 10 * 2 ^ 30
    seqLen s p h ≤ cz && (regionsOf s p h).all (fun r =>
      (match ownerRange s h p with
       | some (b, z) => h * 0x10000000000 + b * 2 ^ 30 ≤ r.2.1 && r.2.1 + r.2.2 ≤ h * 0x10000000000 + (b + z) * 2 ^ 30
       | none => false) && (r.2.1 + r.2.2 ≤ cb || cb + cz ≤ r.2.1))) &&
  gValid s g && rdf s (R.COL_GROUP g) 44 3 == p &&
  (!confidential s || ((keySlot s p 2).isSome && (keySlot s p 3).isSome))

/-- R335: a write of CKP_CFG: VALID is checked as it rises. -/
def execCkpCfgValid (p : Nat) (v : Word) (s : State) : Out :=
  .next (if 8 ≤ p then s
    else if bitw v 63 && !ckpOn s p && !ckpCfgOk s p (fld v 0 10) then
      (let s := regPut s (R.CKP_CFG p) (putf v 63 1 0)
       wr s R.CKP_CFG_ERR (BitVec.ofNat 64 (0x10 + p <<< 8 + 1 <<< 63)))
    else regPut s (R.CKP_CFG p) v)

/-- R340: a cause of a cut is pending: 0 schedule, 1 request, 2 warning. -/
def setCause (s : State) (p b : Nat) : State := wrf s (R.CKP_STAT p) (4 + b) 1 1

/-- R342: the words of a vote: an ALLREDUCE on the partition's group. -/
def voteWords (s : State) (p fmap : Nat) : List Word :=
  [BitVec.ofNat 64 (4 <<< 32), 0, BitVec.ofNat 64 (rdf s (R.CKP_CFG p) 0 10 + fmap <<< 32), 0, 0, 0, 0, 0]

/-- R342, R344, R351: take a vote with the given slots. -/
def takeVote (s : State) (p vote fmap : Nat) (slots : List Nat) : State :=
  fireColl s (.ckp p vote) 64 (voteWords s p fmap) (padTo 64 (slots.flatMap (leBytes 8))) 16

/-- The vote of a partition that has come back. -/
def voteDone (s : State) (p vote : Nat) : Option Coll := s.colls.find? (fun c => c.user == .ckp p vote && c.done)

/-- The slot of a vote's result. -/
def voteSlot (c : Coll) (k : Nat) : Nat := (((c.res.find? (fun r => r.1 == 0)).map (·.2)).getD []).getD k (0, 0) |>.1

/-- R338-R342: one boundary: the cursors, the step, and the cut vote or the release. -/
def boundary (s : State) (p : Nat) : State :=
  let line := physRead s srcDev (rdf s (R.CKP_CURADDR p) 6 42 * 64) 64
  let s := (List.range 8).foldl (fun s k => wr s (R.CKP_CURSOR p k) (BitVec.ofNat 64 (leNat ((line.2.1.drop (8 * k)).take 8)))) line.1
  let step := (rd s (R.CKP_STEP p)).toNat + 1
  let s := wr s (R.CKP_STEP p) (BitVec.ofNat 64 step)
  let per := rdf s (R.CKP_SCHED p) 0 32
  let s := if per ≠ 0 ∧ step % per = 0 then setCause s p 0 else s
  if step % (max 1 (rdf s (R.CKP_CFG p) 32 16)) = 0 then
    takeVote (setPhase s p 1) p 0 0x00475457
      [rdf s (R.CKP_STAT p) 4 3, (rd s (R.CKP_CUTS p)).toNat + 1, step, step, if (ckpOf s p).drain.isSome then 1 else 0, (rd s (R.CKP_SEALED p)).toNat]
  else writeRelease s p 0 0 0 0

/-- R338: boundaries that have come are taken in turn; while a vote, a copy or a restore runs, or memory must wait, they wait. -/
def takeBounds (p : Nat) : Nat → State → State
  | 0, s => s
  | fuel + 1, s =>
    let c := ckpOf s p
    if c.bounds = 0 ∨ (1 ≤ ckpPhase s p ∧ ckpPhase s p ≤ 3) ∨ ckpPhase s p = 6 ∨ recordWaits s p then s
    else takeBounds p fuel (boundary (setCkp s p { c with bounds := c.bounds - 1 }) p)

/-- R290, R338: add to a trigger counter; boundary counters mark steps. -/
def counterAdd (s : State) (n v : Nat) : State :=
  let live := bitw (rd s (R.COL_TCTR n)) 63
  let s := tctrAdd s n v
  (List.range 8).foldl (fun s p =>
    if live && ckpOn s p && rdf s (R.CKP_CFG p) 10 11 == n then
      (let c := ckpOf s p
       takeBounds p (2 ^ 32) (setCkp s p { c with bounds := c.bounds + v % 2 ^ 32 }))
    else s) s

/-- R345: the shards of a half of length `len`: their number. -/
def shardCount (s : State) (p : Nat) : Nat := max 1 (rdf s (R.CKP_MIRCFG p) 0 4)
/-- R345: the shard size of a half. -/
def shardZ (len b : Nat) : Nat := cdiv len (b * 4096) * 4096
/-- R345: the length of shard `k`. -/
def shardLen (len b k : Nat) : Nat := if k + 1 = b then len - k * shardZ len b else min (shardZ len b) (len - k * shardZ len b)

/-- R346: where a mirror slot starts at a buddy. -/
def mirrorBase (s : State) (p slot k lw le b : Nat) : Nat :=
  rdf s (R.CKP_BUDDY p k) 0 47 + (if bitw (rd s (R.CKP_MIRCFG p)) 4 then slot else 0) * (4096 + shardLen lw b k + shardLen le b k)

/-- R346: the fabric address of line `i` of the data of a cut: the West lines, then the East ones; with its buddy, half and offset. -/
def mirrorLine (s : State) (p slot lw le b i : Nat) : Nat × Nat × Nat × Nat :=
  let h := if i < lw / 64 then 0 else 1
  let off := if h = 0 then 64 * i else 64 * i - lw
  let len := if h = 0 then lw else le
  let k := min (b - 1) (off / shardZ len b)
  (mirrorBase s p slot k lw le b + 4096 + (if h = 0 then 0 else shardLen lw b k) + (off - k * shardZ len b), k, h, off)

/-- R346: the mover's requests outstanding for a partition. -/
def moverOut (s : State) (p : Nat) : Nat := (s.reqs.filter (fun r => r.kind == .mwrite p || r.kind == .mirror p)).length

/-- R346, R354: the checkpoint mover sends one line; false where it cannot be sent. -/
def moverSend (s : State) (p ty va mask : Nat) (data : List Byte) (pois : Bool) : State × Bool :=
  match winCheckP s p va (if ty = 1 then 1 else 2) with
  | .err _ _ => (s, false)
  | .ok tgt addr =>
    let q := takeSeq s 0xB00
    let pk := { reqPkt s 0 ty tgt addr 0xB00 q.1 with dom := rdf s (R.SCF_DOMAIN p) 0 16, mask := mask, data := data, pois := pois }
    match unsendable s pk with
    | some _ => (s, false)
    | none => (sendReq q.2 ⟨0xB00, q.1, 0, 0, 64, if ty = 1 then .mirror p else .mwrite p, va, pk, 0, 0, 0, none⟩, true)

/-- R348: the region entries of a manifest. -/
def manRegions (s : State) (p : Nat) : List Byte :=
  (List.range 2).flatMap (fun h =>
    ((regionsOf s p h).foldl (fun (acc : List Byte × Nat) r =>
      (acc.1 ++ leBytes 4 (rdf s (R.CKP_REGION p r.1 1) 32 32) ++ leBytes 1 (rdf s (R.CKP_REGION p r.1 0) 48 4) ++ leBytes 1 h ++ leBytes 2 0
        ++ leBytes 8 acc.2 ++ leBytes 8 r.2.2 ++ leBytes 8 (rd s (R.CKP_REGION p r.1 2)).toNat, acc.2 + r.2.2)) ([], if h = 0 then 16384 else 0)).1)

/-- R345, R348: the shard entries of a half's sequence. -/
def manShards (h b : Nat) (bs : List Byte) : List Byte :=
  (List.range b).flatMap (fun k =>
    let n := shardLen bs.length b k
    leBytes 1 h ++ leBytes 1 k ++ leBytes 6 0 ++ leBytes 8 n ++ leBytes 64 (sha512 ((bs.drop (k * shardZ bs.length b)).take n)).toNat)

/-- R348, R373: a manifest from its first 3968 bytes, signed in CONFIDENTIAL. -/
def manSeal (s : State) (p : Nat) (body : List Byte) : List Byte :=
  match confidential s, partKey s p 3 with
  | true, some k => padTo 4096 (body ++ leBytes 32 (edPub k).toNat ++ leBytes 64 (edSign k (body.drop 4)).toNat)
  | _, _ => padTo 4096 body

/-- R347: a manifest whose mirrors turn out not to be complete. -/
def manLost (s : State) (p : Nat) (m : List Byte) : List Byte :=
  let f := leNat ((m.drop 6).take 1)
  manSeal s p (m.take 6 ++ leBytes 1 (f - 2 * (f / 2 % 2)) ++ (m.take 3968).drop 7)

/-- R348, R373: the manifest of a cut. -/
def manifest (s : State) (p : Nat) (d : Drain) (seqs : List (List Byte)) : List Byte :=
  let conf := confidential s
  let two := bitw (rd s (R.CKP_MIRCFG p)) 4
  let buds := rdf s (R.CKP_MIRCFG p) 0 4
  let flags := (if conf then 1 else 0) + (if buds ≠ 0 && !d.lost then 2 else 0) + (if two then 4 else 0)
  let nreg := (regionsOf s p 0).length + (regionsOf s p 1).length
  let w := seqs.getD 0 []
  let e := seqs.getD 1 []
  let body := leBytes 4 1 ++ leBytes 1 d.slot ++ leBytes 1 d.cause ++ leBytes 1 flags ++ leBytes 1 buds
    ++ leBytes 8 d.cut ++ leBytes 8 d.step ++ leBytes 8 s.ltc.toNat ++ leBytes 4 (ownCoord s) ++ leBytes 1 p ++ leBytes 1 nreg ++ leBytes 2 0
    ++ leBytes 8 (rd s R.PKG_LAYOUT).toNat ++ leBytes 8 w.length ++ leBytes 8 e.length ++ List.replicate 64 0
    ++ manRegions s p ++ manShards 0 (shardCount s p) w ++ manShards 1 (shardCount s p) e
  manSeal s p (padTo 3968 body)

/-- R346: the lines of a drain's stage: invalidations, data, the manifest copies but their first lines, and those. -/
def stageLines (s : State) (p : Nat) (stage : Nat) : Nat :=
  let b := rdf s (R.CKP_MIRCFG p) 0 4
  if b = 0 then 0
  else if stage = 0 then b
  else if stage = 1 then (seqLen s p 0 + seqLen s p 1) / 64
  else if stage = 2 then 63 * b
  else b

/-- R346: send line `i` of a drain's stage to its buddy. -/
def sendDrain (s : State) (p : Nat) (d : Drain) (i : Nat) : State × Bool :=
  let b := rdf s (R.CKP_MIRCFG p) 0 4
  let lw := seqLen s p 0
  let le := seqLen s p 1
  let ok (k : Nat) : Bool := bitw (rd s (R.CKP_BUDDY p k)) 63
  let man (l : Nat) : List Byte := ((readBlock s p d.slot 0).2.drop (64 * l)).take 64
  if d.stage = 0 then
    (if ok i then moverSend s p 2 (mirrorBase s p d.slot i lw le b) 0xF (List.replicate 64 0) false else (s, false))
  else if d.stage = 1 then
    (let m := mirrorLine s p d.slot lw le b i
     let r := physRead s srcDev (coffBase s p m.2.2.1 + m.2.2.2) 64
     if ok m.2.1 then moverSend r.1 p 2 m.1 (2 ^ 64 - 1) r.2.1 r.2.2 else (s, false))
  else if d.stage = 2 then
    (if ok (i / 63) then moverSend s p 2 (mirrorBase s p d.slot (i / 63) lw le b + 64 * (i % 63 + 1)) (2 ^ 64 - 1) (man (i % 63 + 1)) false else (s, false))
  else if ok i then moverSend s p 3 (mirrorBase s p d.slot i lw le b) (2 ^ 64 - 1) (man 0) false else (s, false)

/-- R346, R347: the mover goes on with a drain: at most 32,768 lines outstanding; a stage begins when the one before it is acknowledged. -/
def pumpDrain (p : Nat) : Nat → State → State
  | 0, s => s
  | fuel + 1, s =>
    let c := ckpOf s p
    match c.drain with
    | none => s
    | some d =>
      let bad := s.mail.any (fun m => m.kind == 2 && m.id == p)
      let s : State := { s with mail := s.mail.filter (fun m => !(m.kind == 2 && m.id == p)) }
      let d := if bad then { d with lost := true } else d
      let s := setCkp s p { c with drain := some d }
      if d.sent < stageLines s p d.stage then
        (if 32768 ≤ moverOut s p || (d.stage == 1 && setWaits s p) then s
         else
           let r := sendDrain s p d d.sent
           pumpDrain p fuel (setCkp r.1 p { c with drain := some { d with sent := d.sent + 1, lost := d.lost || !r.2 } }))
      else if moverOut s p = 0 ∧ (d.stage = 0 ∨ d.stage = 2) then
        pumpDrain p fuel (setCkp s p { c with drain := some { d with stage := d.stage + 1, sent := 0 } })
      else s

/-- R347: a drain stops without a manifest. -/
def stopDrain (s : State) (p st sub : Nat) : State :=
  let s := setCkp s p { ckpOf s p with drain := none }
  let s := ckpStat s p st sub
  if ckpPhase s p = 4 ∨ ckpPhase s p = 5 then setPhase s p 0 else s

/-- R346: the module slot that a drain takes. -/
def drainSlot (s : State) (p : Nat) : Nat :=
  let a := (rd s (R.CKP_SLOT0 p)).toNat
  let b := (rd s (R.CKP_SLOT1 p)).toNat
  if a = 0 ∧ b = 0 then 0 else if b < a then 1 else 0

/-- R359: the register that names the cut in a module slot. -/
def slotReg (p slot : Nat) : Nat := if slot = 0 then R.CKP_SLOT0 p else R.CKP_SLOT1 p

/-- R346, R405: start a drain: choose the slot and invalidate its manifest; it ends at once when the modules refuse writes. -/
def startDrain (s : State) (p cut cause : Nat) : State :=
  let slot := drainSlot s p
  let d : Drain := ⟨slot, cut, (rd s (R.CKP_STEP p)).toNat, cause, 0, 0, 0, false⟩
  let s := setPhase (setCkp s p { ckpOf s p with drain := some d }) p 4
  if !bayState s 4 || areaBlocks s p slot * 4096 < 4096 + seqLen s p 0 + seqLen s p 1 then stopDrain s p 0x10 0x90
  else
    let s := writeBlock s p slot 0 (List.replicate 4096 0)
    pumpDrain p 40000 (wr s (slotReg p slot) 0)

/-- R343: the outcome of the cut vote; it waits while what it writes must wait. -/
def execCutVoteResult (p : Nat) (s : State) : Out :=
  .next (match voteDone s p 0 with
    | none => s
    | some c =>
      if recordWaits s p then s
      else
      let st := collStatus s c
      let s := collEnd s c
      let free (s : State) : State := takeBounds p (2 ^ 32) (restPhase s p)
      if ckpPhase s p = 7 ∧ 0x10 ≤ st.1 then writeRelease s p st.1 st.2 0 0
      else if ckpPhase s p ≠ 1 then s
      else if 0x10 ≤ st.1 then free (writeRelease s p st.1 st.2 0 0)
      else
        let s := wr s (R.CKP_GSEALED p) (BitVec.ofNat 64 (voteSlot c 5))
        if voteSlot c 2 ≠ voteSlot c 3 then free (writeRelease s p 0x11 0x80 0 0)
        else if voteSlot c 0 = 0 then free (writeRelease s p 0 0 0 0)
        else if voteSlot c 4 ≠ 0 then free (addSat (writeRelease s p 0 0x81 2 0) (R.CKP_STAT p) 32 16 1)
        else
          let s := wrf s (R.CKP_STAT p) 4 3 0
          let s := setPhase (setCkp s p { ckpOf s p with cut := voteSlot c 1, cause := voteSlot c 0 % 8, copyErr := none }) p 2
          devWrite s (coffBase s p 0) (leBytes 8 0))

/-- R344: copy regions into a cofferdam from an address on; the failure that stops it. -/
def copyRegions (s : State) (h part dst : Nat) : List (Nat × Nat × Nat) → State × Option (Nat × Nat)
  | [] => (s, none)
  | r :: rs =>
    match physErr s (.net part) r.2.1 r.2.2 false, physErr s (.net part) dst r.2.2 true with
    | some e, _ => (s, some (accCode e))
    | none, some e => (s, some (accCode e))
    | none, none =>
      let b := physRead s (srcCut h part) r.2.1 r.2.2
      if b.2.2 then (b.1, some (0x12, 0)) else copyRegions (physWrite b.1 (srcCut h part) dst b.2.1) h part (dst + r.2.2) rs

/-- The contexts of a partition. -/
def ctxsOf (s : State) (p : Nat) : List Nat := (List.range 64).filter (fun c => bitw (rd s (R.DSP_CTXDEF c)) 63 && partOf s c == p)

/-- R336: the state block, with CUT_ID zero. -/
def stateBlock (s : State) (p : Nat) : List Byte :=
  let mask := ((ctxsOf s p).map (fun c => 2 ^ c)).sum
  let head := leBytes 8 0 ++ leBytes 8 (rd s (R.CKP_STEP p)).toNat ++ leBytes 4 (ownCoord s) ++ leBytes 1 p ++ leBytes 3 0 ++ leBytes 8 s.ltc.toNat
    ++ (List.range 8).flatMap (fun k => leBytes 8 (rd s (R.CKP_CURSOR p k)).toNat) ++ leBytes 8 mask
  let rng := (List.range 64).flatMap (fun c => (List.range 8).flatMap (fun k =>
    if (ctxsOf s p).contains c then leBytes 8 (rd s (R.DSP_CTX_RNG_KEY c k)).toNat ++ leBytes 8 (rd s (R.DSP_CTX_RNG_CTR c k)).toNat
    else List.replicate 16 0))
  padTo 16384 (padTo 4096 head ++ rng)

/-- R344: the copy into the cofferdams ends, and the copied vote is taken. -/
def execCutCopyDone (p : Nat) (s : State) : Out :=
  .next (if ckpPhase s p ≠ 2 || setWaits s p then s
    else
      let cut := (ckpOf s p).cut
      let w := copyRegions s 0 p (coffBase s p 0 + 16384) (regionsOf s p 0)
      let e := match w.2 with
        | some x => (w.1, some x)
        | none => copyRegions w.1 1 p (coffBase s p 1) (regionsOf s p 1)
      let s := match e.2 with
        | some _ => e.1
        | none => wr (devWrite (devWrite e.1 (coffBase s p 0) (stateBlock e.1 p)) (coffBase s p 0) (leBytes 8 cut)) (R.CKP_CUTS p) (BitVec.ofNat 64 cut)
      let s := setPhase (setCkp s p { ckpOf s p with copyErr := e.2 }) p 3
      takeVote s p 1 0x547 [if e.2.isSome then 1 else 0, cut, cut])

/-- R344: the outcome of the copied vote: release and drain, or the cut is abandoned. -/
def execCopiedVoteResult (p : Nat) (s : State) : Out :=
  .next (match voteDone s p 1 with
    | none => s
    | some c =>
      if recordWaits s p then s
      else
      let st := collStatus s c
      let s := collEnd s c
      if ckpPhase s p = 7 ∧ 0x10 ≤ st.1 then writeRelease (devWrite s (coffBase s p 0) (leBytes 8 0)) p st.1 st.2 0 0
      else if ckpPhase s p ≠ 3 then s
      else
        let k := ckpOf s p
        if st.1 < 0x10 ∧ voteSlot c 0 = 0 ∧ voteSlot c 1 = voteSlot c 2 then
          takeBounds p (2 ^ 32) (startDrain (writeRelease s p 0 0 1 k.cut) p k.cut k.cause)
        else
          let s := devWrite s (coffBase s p 0) (leBytes 8 0)
          let out := if 0x10 ≤ st.1 then st else match k.copyErr with
            | some e => (e.1, 0x82)
            | none => (0x12, 0x82)
          takeBounds p (2 ^ 32) (restPhase (writeRelease s p out.1 out.2 0 0) p))

/-- R346, R347: the end of a drain's data: the manifest goes to the module slot and to the buddies; when they have it too, the cut is sealed. -/
def execDrainSeal (p : Nat) (s : State) : Out :=
  .next (let c := ckpOf s p
    match c.drain with
    | none => s
    | some d =>
      let done (s : State) (d : Drain) : State :=
        let s := setCkp s p { ckpOf s p with drain := none }
        let s := wr s (slotReg p d.slot) (BitVec.ofNat 64 d.cut)
        let s := if d.lost then
            (let m := readBlock s p d.slot 0
             ckpStat (writeBlock m.1 p d.slot 0 (manLost m.1 p m.2)) p 0x22 0x8B)
          else wr s (R.CKP_SEALED p) (BitVec.ofNat 64 d.cut)
        if ckpPhase s p = 4 ∨ ckpPhase s p = 5 then setPhase s p 0 else s
      if moverOut s p ≠ 0 ∨ d.sent < stageLines s p d.stage ∨ (d.stage = 1 ∧ setWaits s p) then s
      else if d.stage = 1 then
        (if !bayState s 4 then stopDrain s p 0x10 0x90
         else
           let w := physRead s srcDev (coffBase s p 0) (seqLen s p 0)
           let e := physRead w.1 srcDev (coffBase s p 1) (seqLen s p 1)
           let all := w.2.1 ++ e.2.1
           let s := writeBlocks e.1 p d.slot 1 all (all.length / 4096)
           let s := writeBlock s p d.slot 0 (manifest s p d [w.2.1, e.2.1])
           let d := { d with stage := 2, sent := 0 }
           let s := setCkp s p { c with drain := some d }
           let s := if ckpPhase s p = 4 then setPhase s p 5 else s
           if rdf s (R.CKP_MIRCFG p) 0 4 = 0 then done s d else pumpDrain p 40000 s)
      else if d.stage = 3 then done s d
      else s)

/-- R347: a drain-module write fails. -/
def execDrainWriteFail (p : Nat) (s : State) : Out :=
  .next (if (ckpOf s p).drain.isSome then stopDrain s p 0x10 0x90 else s)

/-- R349: the regions' contents while they are overwritten (R350). -/
def undefRegions (s : State) (p : Nat) : State :=
  (regionsOf s p 0 ++ regionsOf s p 1).foldl (fun s r => memUndef s r.2.1 (r.2.1 + r.2.2)) s

/-- R348: a manifest that is whole: its CUT_ID. -/
def manCut (m : List Byte) : Option Nat := if leNat (m.take 4) = 1 then some (leNat ((m.drop 8).take 8)) else none

/-- R373: in CONFIDENTIAL a manifest must be signed with the partition's key. -/
def manSigned (s : State) (p : Nat) (m : List Byte) : Bool :=
  !confidential s ||
  (match partKey s p 3 with
   | some k => leNat ((m.drop 3968).take 32) == (edPub k).toNat &&
       edVerify (edPub k) ((m.drop 4).take 3964) (BitVec.ofNat 512 (leNat ((m.drop 4000).take 64)))
   | none => false)

/-- R349: where each region of a manifest goes: half, offset in its half's sequence, length and physical base; none when one has no match. -/
def mapRegions (s : State) (p : Nat) (m : List Byte) : Option (List (Nat × Nat × Nat × Nat)) :=
  (List.range (leNat ((m.drop 37).take 1))).mapM (fun i =>
    let e := m.drop (128 + 32 * i)
    let h := leNat ((e.drop 5).take 1)
    let len := leNat ((e.drop 16).take 8)
    ((regionsOf s p h).find? (fun r => r.2.2 == len && rdf s (R.CKP_REGION p r.1 1) 32 32 == leNat (e.take 4))).map
      (fun r => (h, leNat ((e.drop 8).take 8), len, r.2.1)))

/-- R349: every shard digest of a manifest agrees with the bytes read. -/
def digestsOk (m : List Byte) (seqs : List (List Byte)) : Bool :=
  let nreg := leNat ((m.drop 37).take 1)
  let b := max 1 (leNat ((m.drop 7).take 1))
  (m.drop (128 + 32 * nreg)).take (160 * b) == manShards 0 b (seqs.getD 0 []) ++ manShards 1 b (seqs.getD 1 [])

/-- R350: put a verified cut in place: the regions, then step, cursors, the cursor line and the random streams; a context of the state block that is not valid here refuses it. -/
def applyCut (s : State) (p : Nat) (map : List (Nat × Nat × Nat × Nat)) (seqs : List (List Byte)) : State × Option (Nat × Nat) :=
  let w := seqs.getD 0 []
  let s := map.foldl (fun s r => physWrite s srcDev r.2.2.2 (((seqs.getD r.1 []).drop r.2.1).take r.2.2.1)) s
  let mask := leNat ((w.drop 96).take 8)
  let named := (List.range 64).filter (fun c => mask.testBit c)
  if named.any (fun c => !(ctxsOf s p).contains c) then (s, some (0x40, 0x86))
  else
    let word (o : Nat) : Word := BitVec.ofNat 64 (leNat ((w.drop o).take 8))
    let s := wr s (R.CKP_STEP p) (word 8)
    let s := (List.range 8).foldl (fun s k => wr s (R.CKP_CURSOR p k) (word (32 + 8 * k))) s
    let s := devWrite s (rdf s (R.CKP_CURADDR p) 6 42 * 64) ((w.drop 32).take 64)
    (named.foldl (fun s c => (List.range 8).foldl (fun s k =>
      wr (wr s (R.DSP_CTX_RNG_KEY c k) (word (4096 + 128 * c + 16 * k))) (R.DSP_CTX_RNG_CTR c k) (word (4096 + 128 * c + 16 * k + 8))) s) s, none)

/-- R349: a restore's check fails. -/
def restFail (s : State) (p : Nat) (r : Restore) (e : Nat × Nat) : State :=
  ckpStat (setCkp s p { ckpOf s p with rest := some { r with fail := r.fail.or (some e) } }) p e.1 e.2

/-- R349: begin reading the cofferdams. -/
def beginCoff (s : State) (p : Nat) (r : Restore) : State :=
  let q := physRead s srcDev (coffBase s p 0) 8
  let cut := leNat q.2.1
  if q.2.2 then restFail q.1 p r (0x12, 0)
  else if cut = 0 ∨ (r.want ≠ 0 ∧ cut ≠ r.want) then restFail q.1 p r (0x40, 0x84)
  else undefRegions (setCkp q.1 p { ckpOf q.1 p with rest := some { r with cut := cut } }) p

/-- R349, R410: begin reading the modules: choose the slot, check its manifest. -/
def beginModules (s : State) (p : Nat) (r : Restore) : State :=
  if !(bayUsable s 0 || bayUsable s 1) then restFail s p r (0x10, 0xC2)
  else
    let a := readBlock s p 0 0
    let b := readBlock a.1 p 1 0
    let s := b.1
    let ms := [a.2, b.2]
    let cuts := ms.map manCut
    let slot : Option Nat :=
      if r.second then some r.slot
      else if r.want = 0 then
        (if cuts.all (·.isNone) then none else some (if (cuts.getD 0 none).getD 0 < (cuts.getD 1 none).getD 0 then 1 else 0))
      else (List.range 2).find? (fun i => cuts.getD i none == some r.want)
    match slot with
    | none => restFail s p r (0x40, if cuts.all (·.isNone) then 0x85 else 0x84)
    | some i =>
      let m := ms.getD i []
      match manCut m with
      | none => restFail s p r (0x40, 0x85)
      | some cut =>
        let r := { r with slot := i, cut := cut, step := leNat ((m.drop 16).take 8) }
        let s := setCkp s p { ckpOf s p with rest := some r }
        if !manSigned s p m then restFail s p r (0x41, 0x88)
        else if r.reshard then s
        else if (mapRegions s p m).isNone then restFail s p r (0x40, 0x86)
        else undefRegions s p

/-- R349, R354: the lines a mirror restore reads in its stage: the manifests of every buddy's slots, then the shards. -/
def restLines (s : State) (p : Nat) (r : Restore) : Nat :=
  let b := rdf s (R.CKP_MIRCFG p) 0 4
  if r.stage = 0 then (if bitw (rd s (R.CKP_MIRCFG p)) 4 then 2 else 1) * b * 64 else (seqLen s p 0 + seqLen s p 1) / 64

/-- R354: the fabric address of line `i` of a mirror restore's stage. -/
def restLine (s : State) (p : Nat) (r : Restore) (i : Nat) : Nat :=
  let b := rdf s (R.CKP_MIRCFG p) 0 4
  let lw := seqLen s p 0
  let le := seqLen s p 1
  if r.stage = 0 then mirrorBase s p (i / 64 / b) (i / 64 % b) lw le b + 64 * (i % 64)
  else (mirrorLine s p r.slot lw le b i).1

/-- The lines of a mirror restore that have come back, joined in order; none while one is missing or has failed. -/
def restBytes (s : State) (p : Nat) (r : Restore) (n : Nat) : Option (List Byte) :=
  (((List.range n).map (restLine s p r)).mapM (fun va =>
    (s.mail.find? (fun m => m.kind == 1 && m.id == p && m.va == va)).bind (fun m =>
      match m.res with
      | .data bs false => some bs
      | _ => none))).map (·.flatten)

/-- R349, R354: how a mirror restore's reads failed. -/
def restBad (s : State) (p : Nat) : Option (Nat × Nat) :=
  (s.mail.filter (fun m => m.kind == 1 && m.id == p)).findSome? (fun m =>
    match m.res with
    | .fail st _ => some (if st = 0x22 then (0x22, 0x8B) else (st, 0x8B))
    | .data _ true => some (0x12, 0)
    | .data _ false => none)

/-- R349, R354: the mover goes on with a mirror restore; when every manifest is in, they must agree, and the shards follow. -/
def pumpRest (p : Nat) : Nat → State → State
  | 0, s => s
  | fuel + 1, s =>
    match (ckpOf s p).rest with
    | none => s
    | some r =>
      if r.source ≠ 2 ∨ r.fail.isSome ∨ r.local_ then s
      else if r.sent < restLines s p r then
        (if 32768 ≤ moverOut s p then s
         else
           let q := moverSend s p 1 (restLine s p r r.sent) 0 [] false
           let r' := { r with sent := r.sent + 1 }
           if q.2 then pumpRest p fuel (setCkp q.1 p { ckpOf q.1 p with rest := some r' })
           else restFail s p r' (0x22, 0x8B))
      else if moverOut s p ≠ 0 then s
      else
        match restBad s p with
        | some e => restFail s p r e
        | none =>
          if r.stage ≠ 0 then s
          else
            let b := rdf s (R.CKP_MIRCFG p) 0 4
            let bytes := (restBytes s p r (restLines s p r)).getD []
            let mans := (List.range (bytes.length / 4096)).map (fun i => (bytes.drop (4096 * i)).take 4096)
            let slotMan (i : Nat) : List Byte := mans.getD (i * b) []
            let n := mans.length / b
            let cand := (List.range n).filter (fun i => (manCut (slotMan i)).isSome)
            let pickd : Option Nat := if r.want = 0 then
                cand.foldl (fun best i => match best with
                  | none => some i
                  | some j => if (manCut (slotMan j)).getD 0 < (manCut (slotMan i)).getD 0 then some i else some j) none
              else cand.find? (fun i => manCut (slotMan i) == some r.want)
            match pickd with
            | none => restFail s p r (0x40, if cand.isEmpty then 0x85 else 0x84)
            | some i =>
              let m := slotMan i
              let r := { r with slot := i, cut := (manCut m).getD 0, step := leNat ((m.drop 16).take 8) }
              if (List.range b).any (fun k => mans.getD (i * b + k) [] ≠ m) then restFail s p r (0x40, 0x84)
              else if !manSigned s p m then restFail s p r (0x41, 0x88)
              else if leNat ((m.drop 48).take 8) ≠ seqLen s p 0 ∨ leNat ((m.drop 56).take 8) ≠ seqLen s p 1 ∨
                  (!r.reshard && (mapRegions s p m).isNone) then restFail s p r (0x40, 0x86)
              else
                let s := if r.reshard then s else undefRegions s p
                pumpRest p fuel (setCkp s p { ckpOf s p with rest := some { r with stage := 1, sent := 0 } })

/-- R338, R346, R354: boundaries that waited are taken, and the checkpoint mover goes on wherever it can. -/
def ckpPump (s : State) : State :=
  s.ckps.foldl (fun s kv => pumpRest kv.1 70000 (pumpDrain kv.1 70000 (takeBounds kv.1 (2 ^ 32) s))) s

/-- R349, R358: start a restore from a source. -/
def startRestore (s : State) (p source : Nat) (reshard auto : Bool) : State :=
  let ph := ckpPhase s p
  if 8 ≤ p || (!ckpOn s p && !reshard) || (1 ≤ ph && ph ≤ 3) || ph == 6 then s
  else
    let r : Restore := ⟨source, reshard, (rd s (R.CKP_RCUT p)).toNat, 0, 0, 0, none, false, auto, 0, 0, 0, false⟩
    let s : State := setPhase (setCkp s p { ckpOf s p with rest := some r }) p 6
    let s : State := { s with mail := s.mail.filter (fun m => !(m.kind == 1 && m.id == p)) }
    if source = 0 then beginCoff s p r
    else if source = 1 then beginModules s p r
    else pumpRest p 70000 s

/-- R351: take the restore vote. -/
def restoreVote (s : State) (p : Nat) (r : Restore) : State :=
  takeVote (setPhase s p 6) p 2 0x00054547 [if r.fail.isSome then 1 else 0, r.cut, r.cut, r.step, r.step]

/-- R358: the cut goes to the staging range. -/
def stageCut (s : State) (seqs : List (List Byte)) : State :=
  devWrite s (rdf s R.CKP_STAGE 21 27 * 2 ^ 21) (seqs.flatten.take (rdf s R.CKP_STAGE 48 10 * 2 ^ 30))

/-- R349: the bytes a restore has read, with the manifest that describes them; none while a mirror's lines are still to come; a failure where a cofferdam line is poisoned. -/
def restRead (s : State) (p : Nat) (r : Restore) : Option (State × Option (List Byte) × List (List Byte) × Option (Nat × Nat)) :=
  if r.source = 0 then
    (let w := physRead s srcDev (coffBase s p 0) (seqLen s p 0)
     let e := physRead w.1 srcDev (coffBase s p 1) (seqLen s p 1)
     some (e.1, none, [w.2.1, e.2.1], if w.2.2 || e.2.2 then some (0x12, 0) else none))
  else if r.source = 1 then
    (if !(bayUsable s 0 || bayUsable s 1) then some (s, none, [], some (0x10, 0xC2))
     else
       let m := readBlock s p r.slot 0
       let lw := leNat ((m.2.drop 48).take 8)
       let le := leNat ((m.2.drop 56).take 8)
       let d := readBlocks m.1 p r.slot 1 ((lw + le) / 4096)
       some (d.1, some m.2, [d.2.take lw, (d.2.drop lw).take le], none))
  else if r.stage = 0 ∨ moverOut s p ≠ 0 ∨ r.sent < restLines s p r then none
  else
    let b := rdf s (R.CKP_MIRCFG p) 0 4
    let man := (restBytes s p { r with stage := 0 } (restLines s p { r with stage := 0 })).map (fun bs => (bs.drop (4096 * r.slot * b)).take 4096)
    let lw := seqLen s p 0
    match restBytes s p r (restLines s p r) with
    | some bs => some (s, man, [bs.take lw, bs.drop lw], none)
    | none => some (s, man, [], some ((restBad s p).getD (0x22, 0x8B)))

/-- R349-R351, R353, R358: the local part of a restore ends: the cut is verified and put in place, or the package has failed, and the restore vote is taken unless RVOTE must come first. -/
def execRestoreLocalDone (p : Nat) (s : State) : Out :=
  .next (match (ckpOf s p).rest with
    | none => s
    | some r =>
      let finish (s : State) (r : Restore) : State :=
        let r := { r with local_ := true, step := if r.source = 0 then (rd s (R.CKP_STEP p)).toNat else r.step }
        let s : State := { s with mail := s.mail.filter (fun m => !(m.kind == 1 && m.id == p)) }
        if r.reshard then restPhase (setCkp s p { ckpOf s p with rest := none }) p
        else
          let s := setCkp s p { ckpOf s p with rest := some r }
          if r.auto then setPhase s p 8 else restoreVote s p r
      if ckpPhase s p ≠ 6 ∨ r.local_ ∨ setWaits s p then s
      else
        match r.fail with
        | some _ => finish s r
        | none =>
          match restRead s p r with
          | none => s
          | some (s, man, seqs, err) =>
            let fail (s : State) (e : Nat × Nat) : State := finish (ckpStat s p e.1 e.2) { r with fail := some e }
            match err, man with
            | some e, _ => fail s e
            | none, some m =>
              if !digestsOk m seqs then fail s (0x41, 0x87)
              else if r.reshard then finish (ckpStat (stageCut s seqs) p 0 0) r
              else
                (match mapRegions s p m with
                 | none => fail s (0x40, 0x86)
                 | some map =>
                   match applyCut s p map seqs with
                   | (s, some e) => fail s e
                   | (s, none) => finish s r)
            | none, none =>
              let map := (List.range 2).flatMap (fun h =>
                ((regionsOf s p h).foldl (fun (a : List (Nat × Nat × Nat × Nat) × Nat) g =>
                  (a.1 ++ [(h, a.2, g.2.2, g.2.1)], a.2 + g.2.2)) ([], if h = 0 then 16384 else 0)).1)
              match applyCut s p map seqs with
              | (s, some e) => fail s e
              | (s, none) => finish s r)

/-- R351: the outcome of the restore vote. -/
def execRestoreVoteResult (p : Nat) (s : State) : Out :=
  .next (match voteDone s p 2, (ckpOf s p).rest with
    | some c, some r =>
      if recordWaits s p then s
      else
      let st := collStatus s c
      let s := collEnd s c
      let ended (s : State) : State := takeBounds p (2 ^ 32) (restPhase (setCkp s p { ckpOf s p with rest := none }) p)
      if st.1 < 0x10 ∧ voteSlot c 0 = 0 ∧ voteSlot c 1 = voteSlot c 2 then
        ended (writeRelease s p 0 (if r.second then 0x89 else 0) 4 r.cut)
      else if st.1 < 0x10 && r.source == 1 && !r.second then
        (let r' := { r with second := true, slot := 1 - r.slot, fail := none, local_ := false, cut := 0, step := 0 }
         beginModules (setPhase (setCkp s p { ckpOf s p with rest := some r' }) p 6) p r')
      else
        let e := if 0x10 ≤ st.1 then st else match r.fail with
          | some e => e
          | none => (0x40, 0x84)
        ended (writeRelease s p e.1 e.2 4 0)
    | some c, none => collEnd s c
    | _, _ => s)

/-- R340, R359: request a cut; ignored while a vote, a copy or a restore runs. -/
def execCkpCmdCut (p : Nat) (s : State) : Out :=
  let ph := ckpPhase s p
  .next (if 8 ≤ p || (1 ≤ ph && ph ≤ 3) || ph == 6 then s else setCause s p 1)

/-- R349: restore from the cofferdams. -/
def execCkpCmdRestoreCofferdam (p : Nat) (s : State) : Out := .next (startRestore s p 0 false false)
/-- R349: restore from the drain modules. -/
def execCkpCmdRestoreModules (p : Nat) (s : State) : Out := .next (startRestore s p 1 false false)
/-- R354: restore from the buddies' mirrors. -/
def execCkpCmdRestoreMirror (p : Nat) (s : State) : Out := .next (startRestore s p 2 false false)
/-- R358: restore a cut from the modules or the mirrors to the staging range. -/
def execCkpCmdReshard (p source : Nat) (s : State) : Out :=
  .next (if source = 1 ∨ source = 2 then startRestore s p source true false else s)
/-- R347: stop the drain. -/
def execCkpCmdStop (p : Nat) (s : State) : Out := .next (if (ckpOf s p).drain.isSome then stopDrain s p 0 0 else s)

/-- R353: take the restore vote of a restore that waits for it. -/
def execCkpCmdRvote (p : Nat) (s : State) : Out :=
  .next (match (ckpOf s p).rest with
    | some r => if ckpPhase s p = 8 ∧ r.local_ then restoreVote s p { r with auto := false } else s
    | none => s)

end Sys2Proof.Machine
end

