-- ==== Sys2Proof/Machine/Host.lean ====
section
/-! DEFINITION. The front-end (R315-R331): submission and completion rings, descriptors, LAUNCH and the threads it starts, ends and abandons, records, faults and their answers, contexts and core sets, translation invalidation, the log ring's claims, and the Palale Link. -/

namespace Sys2Proof.Machine

/-- A submission ring. -/
def ringOf (s : State) (r : Nat) : RingSt := sget ring0 s.rings r
/-- Replace a submission ring. -/
def setRing (s : State) (r : Nat) (x : RingSt) : State := { s with rings := sset ring0 s.rings r x }
/-- R333: a ring is served. -/
def ringOn (s : State) (r : Nat) : Bool := r < 256 && bitw (rd s (R.DSP_RING_SQ r)) 63 && !(ringOf s r).stopped
/-- R317: the size of a submission ring. -/
def sqSize (s : State) (r : Nat) : Nat := 2 ^ rdf s (R.DSP_RING_SQ r) 52 5
/-- R317: the size of a completion ring. -/
def cqSize (s : State) (r : Nat) : Nat := 2 ^ rdf s (R.DSP_RING_CQ r) 52 5
/-- R317: the host address of a ring's index line. -/
def hostLine (s : State) (r : Nat) : Nat := rdf s (R.DSP_RING_IDX r) 6 46 * 64
/-- R333: the context of a ring. -/
def ringCtx (s : State) (r : Nat) : Nat := rdf s (R.DSP_RING_IDX r) 56 6

/-- R319: free slots of a completion ring: those neither written and unconsumed, nor reserved by a descriptor taken, nor owed to a held record. -/
def cqRoom (s : State) (r : Nat) : Nat :=
  let x := ringOf s r
  cqSize s r - ((x.cqPi - x.cqCi) + x.toCome + x.descs.length + (s.heldRecs.filter (fun h => h.ring == r)).length)

/-- R386, R331, R333: the front-end takes descriptors. -/
def feTakes (s : State) : Bool := bitw (rd s R.DSP_CFG) 0 && !s.hostLost && issuing s

/-- R319: take descriptors from a ring, at most 16 in one read, each with a completion slot reserved. -/
def takeDescs (s : State) (r : Nat) : State :=
  let x := ringOf s r
  let room := cqRoom s r
  let s := if r < 256 then wrf s (R.DSP_RING_STAT r) 1 1 (if room = 0 then 1 else 0) else s
  let n := min 16 (min (x.sqPi - x.sqCi) room)
  if !ringOn s r || !feTakes s || x.toCome != 0 || n == 0 then s
  else
    let s := wrf s (R.DSP_RING_STAT r) 32 32 (rdf s (R.DSP_RING_STAT r) 32 32 + n)
    let a := rdf s (R.DSP_RING_SQ r) 12 40 * 4096 + 64 * (x.sqCi % sqSize s r)
    { setRing s r { x with sqCi := x.sqCi + n, toCome := n } with tx := s.tx ++ [.fetch a (64 * n)] }

/-- R323: write a record into its completion ring at the next slot, with the device LTC of this moment. -/
def writeRec (s : State) (h : HostRec) : State :=
  let x := ringOf s h.ring
  let a := rdf s (R.DSP_RING_CQ h.ring) 12 40 * 4096 + 32 * (x.cqPi % cqSize s h.ring)
  let bs := leBytes 8 h.tag ++ leBytes 1 h.status ++ leBytes 1 h.sub ++ leBytes 2 h.ctx ++ leBytes 2 h.ended ++ leBytes 2 h.aband
    ++ leBytes 8 h.val ++ leBytes 8 s.ltc.toNat
  { setRing s h.ring { x with cqPi := x.cqPi + 1 } with tx := s.tx ++ [.host a bs] }

/-- R331: a record goes out; while the host is lost it is held, and beyond 4,096 it is dropped and counted. -/
def putRec (s : State) (h : HostRec) : State :=
  if !s.hostLost then writeRec s h
  else if s.heldRecs.length < 4096 then { s with heldRecs := s.heldRecs ++ [h] }
  else addSat s R.PLK_ERR 32 32 1

/-- R320: a ring error stops the ring; one record with tag 0 reports it where there is room. -/
def ringError (s : State) (r sub : Nat) : State :=
  let free := 0 < cqRoom s r
  let s := setRing s r { ringOf s r with stopped := true }
  let s := wrf (wrf s (R.DSP_RING_STAT r) 0 1 1) (R.DSP_RING_STAT r) 8 8 sub
  if free then putRec s ⟨r, 0, 0x10, sub, ringCtx s r, 0, 0, 0⟩ else s

/-- R318: the front-end reads a ring's host index line. -/
def readIndex (s : State) (r : Nat) : State :=
  { setRing s r { ringOf s r with reads := (ringOf s r).reads + 1 } with tx := s.tx ++ [.fetch (hostLine s r) 64] }

/-- R321: fields of a descriptor. -/
def dField (d : DescSt) (i n : Nat) : Nat := leNat ((d.bytes.drop i).take n)
/-- R321: a descriptor's operation. -/
def dOp (d : DescSt) : Nat := dField d 8 1
/-- R321: the descriptor breaks its table. -/
def dBad (d : DescSt) : Bool :=
  !(1 ≤ dOp d && dOp d ≤ 3) || 4 ≤ dField d 9 1 || dField d 11 1 != 0 || dField d 56 8 != 0 ||
  (if dOp d = 1 then 4 ≤ dField d 10 1 else dField d 10 1 != 0 || dField d 24 32 != 0)

/-- Change one descriptor of a ring. -/
def modDesc (s : State) (r ix : Nat) (f : DescSt → DescSt) : State :=
  setRing s r { ringOf s r with descs := (ringOf s r).descs.map (fun d => if d.ix = ix then f d else d) }

/-- R396, R400: timer 3 of a context belongs to its LAUNCHes that run with a watchdog. -/
def timer3 (s : State) (ctx : Nat) : State :=
  let used := s.rings.any (fun kv => kv.2.descs.any (fun d => d.ctx == ctx && d.wdogAt.isSome))
  if ctx < 64 then wrf s (R.DSP_TIMER ctx) 48 2 (if used then 2 else 0) else s

/-- R322, R323, R327: a descriptor completes: its slot is released, and its record is written unless it is QUIET and ended well. -/
def complete (s : State) (r : Nat) (d : DescSt) (st sub val : Nat) : State :=
  let s := setRing s r { ringOf s r with descs := (ringOf s r).descs.filter (fun x => x.ix ≠ d.ix) }
  let s := timer3 s d.ctx
  if dField d 9 1 / 2 % 2 = 1 ∧ st < 0x10 then s
  else putRec s ⟨r, dField d 0 8, st, sub, d.ctx, d.ended, d.aband, val⟩

/-- R322: a LAUNCH completes when all its threads have ended or been abandoned. -/
def launchDone (s : State) (r ix : Nat) : State :=
  match (ringOf s r).descs.find? (fun d => d.ix == ix) with
  | none => s
  | some d =>
    if d.started && d.waiting.isEmpty && d.live.isEmpty then
      complete s r d (d.fault.getD (0, 0)).1 (d.fault.getD (0, 0)).2 (match d.best with | some (_, v) => v.toNat | none => 0)
    else s

/-- R21: where the local store of an N-core lies. -/
def storeBase (h k : Nat) : Nat := 0x020080000000 + h * 0x10000000 + k * 0x200000

/-- R48, R322: a thread starts from its cleared state: the local store is zeroed on an N-core, and x1-x4 hold the arguments. -/
def startThread (s : State) (r : Nat) (d : DescSt) (key : Nat) : State :=
  let arg (i : Nat) : Word := BitVec.ofNat 64 (dField d (24 + 8 * i) 8)
  let x := (List.range 4).foldl (fun m i => sset 0 m (i + 1) (arg i)) []
  let t : Thread := { thread0 with x := x, pc := BitVec.ofNat 64 (dField d 16 8), ctx := d.ctx, launch := some (r, d.ix), gen := s.nextId + 1, phase := .run }
  let s : State := { setTh s key t with nextId := s.nextId + 1 }
  if isS key then s
  else
    let h := halfOf s key
    let k := dieCore s key
    let s := memClear (setNc s key ncore0) (storeBase h k) (storeBase h k + 0x200000)
    wr s (R.NCO_CTX h k) (BitVec.ofNat 64 (d.ctx + (partOf s d.ctx) <<< 8 + 1 <<< 16))

/-- R48: a free core is taken up by the LAUNCH that has waited longest for it. -/
def takeUp (s : State) (key : Nat) : State :=
  if (th s key).phase ≠ .idle then s
  else
    let cand := s.rings.flatMap (fun kv => (kv.2.descs.filter (fun d => d.started && d.waiting.contains key)).map (fun d => (kv.1, d)))
    let best := cand.foldl (fun (b : Option (Nat × DescSt)) c =>
      match b with
      | none => some c
      | some x => if c.2.order < x.2.order then some c else b) none
    match best with
    | none => s
    | some (r, d) =>
      modDesc (startThread s r d key) r d.ix (fun d => { d with waiting := d.waiting.filter (· ≠ key), live := d.live ++ [key] })

/-- R326: the threads that a core set names: N-cores, then threads of S-cores. -/
def csetKeys (s : State) (ctx k : Nat) : List Nat × Bool :=
  let ns := (List.range 128).filter (fun i => csetHas s ctx k false i && exists_ s i)
  let ss := (List.range 192).filter (fun i => csetHas s ctx k true i)
  let mask := fld (csetWord s ctx k 5) 0 8
  (ns ++ ss.flatMap (fun c => ((List.range 8).filter (fun t => mask.testBit t)).map (fun t => 128 + 8 * c + t)), ns.isEmpty && ss.isEmpty)

/-- R322: a LAUNCH starts; a thread whose core is busy waits. -/
def startLaunch (s : State) (r : Nat) (d : DescSt) : State :=
  let ks := csetKeys s d.ctx (dField d 10 1)
  if !ctxValid s d.ctx || ks.2 then complete s r d 0x11 0x73 0
  else
    let us := if dField d 12 4 = 0 then rdf s (R.DSP_CTXDEF d.ctx) 16 16 else dField d 12 4
    let s := modDesc s r d.ix (fun d =>
      { d with started := true, order := s.nextId, waiting := ks.1, wdogAt := if us = 0 then none else some (s.ltc.toNat + 1000 * us) })
    let s := timer3 { s with nextId := s.nextId + 1 } d.ctx
    launchDone (ks.1.foldl takeUp s) r d.ix

/-- R322: a TADD adds to a counter its context owns. -/
def startTadd (s : State) (r : Nat) (d : DescSt) : State :=
  let n := dField d 16 8 % 2048
  if bitw (rd s (R.COL_TCTR n)) 63 && rdf s (R.COL_TCTR n) 32 6 == d.ctx then
    (let v := (rdf s (R.COL_TCTR n) 0 32 + dField d 20 4) % 2 ^ 32
     complete (counterAdd s n (dField d 20 4)) r d 0 0 v)
  else complete s r d 0x11 0x17 0

/-- R321, R322: descriptors of a ring start in ring order; BARRIER holds one until every earlier one has completed, and a MARK completes then. -/
def runRing (r : Nat) : Nat → State → State
  | 0, s => s
  | fuel + 1, s =>
    let ds := (ringOf s r).descs
    let first (d : DescSt) : Bool := ds.all (fun x => d.ix ≤ x.ix)
    match ds.find? (fun d => d.started && !dBad d && dOp d == 3 && first d) with
    | some d => runRing r fuel (complete s r d 0 0 0)
    | none =>
      match ds.find? (fun d => !d.started) with
      | none => takeDescs s r
      | some d =>
        if dField d 9 1 % 2 = 1 && !first d && !dBad d then takeDescs s r
        else if dBad d then runRing r fuel (complete s r d 0x11 0x71 0)
        else if dOp d = 1 then runRing r fuel (startLaunch s r d)
        else if dOp d = 2 then runRing r fuel (startTadd s r d)
        else runRing r fuel (modDesc s r d.ix (fun d => { d with started := true }))

/-- Serve a ring as far as it goes. -/
def serveRing (s : State) (r : Nat) : State := runRing r (4 * (ringOf s r).descs.length + 4) s

/-- R318: the host index line of a watched ring is invalidated, and read again. -/
def execHostLineInvalidated (r : Nat) (s : State) : Out :=
  .next (if ringOn s r then readIndex s r else s)

/-- R319, R320: the index line arrives: its counts are checked, and descriptors are taken. -/
def execHostIndexLineArrival (r sqPi cqCi : Nat) (s : State) : Out :=
  .next (let x := ringOf s r
    if !ringOn s r || x.reads == 0 then s
    else
      let s := setRing s r { x with reads := x.reads - 1 }
      if sqPi < x.sqPi ∨ sqSize s r < sqPi - x.sqCi ∨ cqCi < x.cqCi ∨ x.cqPi < cqCi then ringError s r 0x70
      else takeDescs (setRing s r { ringOf s r with sqPi := sqPi, cqCi := cqCi }) r)

/-- R319, R321: the next descriptor of a ring's read arrives, if it is of this kind (0 for one that breaks R321). -/
def descArrives (s : State) (r : Nat) (bytes : List Byte) (op : Nat) : State :=
  let x := ringOf s r
  let d : DescSt := ⟨x.sqCi - x.toCome, ringCtx s r, bytes, false, 0, [], [], 0, 0, none, none, none⟩
  if 256 ≤ r ∨ x.toCome = 0 ∨ bytes.length ≠ 64 ∨ (if dBad d then 0 else dOp d) ≠ op then s
  else serveRing (setRing s r { x with toCome := x.toCome - 1, descs := x.descs ++ [d] }) r

/-- R322: a LAUNCH descriptor arrives. -/
def execLaunch (r : Nat) (bytes : List Byte) (s : State) : Out := .next (descArrives s r bytes 1)
/-- R322: a TADD descriptor arrives. -/
def execTadd (r : Nat) (bytes : List Byte) (s : State) : Out := .next (descArrives s r bytes 2)
/-- R322: a MARK descriptor arrives. -/
def execMark (r : Nat) (bytes : List Byte) (s : State) : Out := .next (descArrives s r bytes 3)
/-- R321: a descriptor that breaks R321 arrives: it completes with BAD_DESC and does nothing. -/
def execBadDesc (r : Nat) (bytes : List Byte) (s : State) : Out := .next (descArrives s r bytes 0)

/-- R320: a descriptor read fails at the host: the descriptors of that read were not taken, and the ring stops. -/
def execDescriptorReadFailure (r : Nat) (s : State) : Out :=
  .next (let x := ringOf s r
    if 256 ≤ r ∨ x.toCome = 0 then s
    else
      let s := wrf s (R.DSP_RING_STAT r) 32 32 (rdf s (R.DSP_RING_STAT r) 32 32 + 2 ^ 32 - x.toCome)
      ringError (setRing s r { x with sqCi := x.sqCi - x.toCome, toCome := 0 }) r 0x72)

/-- R315, R317: once the host has acknowledged the records, the device index line is written. -/
def execDeviceIndexLineWrite (r : Nat) (s : State) : Out :=
  .next (let x := ringOf s r
    if 256 ≤ r ∨ s.hostLost then s
    else { s with tx := s.tx ++ [.host (hostLine s r + 64) (leBytes 8 x.sqCi ++ leBytes 8 x.cqPi)] })

/-- R327: the oldest fault waiting is written to the fault ring when that has room. -/
def execFaultRecordWrite (s : State) : Out :=
  .next (match s.faultQ with
    | [] => s
    | f :: rest =>
      let r := rdf s R.DSP_CFG 8 8
      if s.hostLost || cqRoom s r == 0 then s
      else
        let d := f.launch.bind (fun l => (ringOf s l.1).descs.find? (fun d => d.ix == l.2))
        let v := coreOf f.key % 256 + (if isS f.key then 1 else 0) <<< 8 + (lane f.key) <<< 16
        writeRec { s with faultQ := rest } ⟨r, (d.map (fun d => dField d 0 8)).getD 0, f.status, f.sub, (d.map (·.ctx)).getD 0xFFFF, 0, 0, v⟩)

/-- R322, R328: a thread of a LAUNCH is over: ended with x1 in `x1`, or abandoned with the fault in `flt`. Its core is taken up by the next. -/
def threadOver (s : State) (key : Nat) (launch : Option (Nat × Nat)) (x1 : Option Word) (flt : Nat × Nat) : State :=
  let s := match launch with
    | none => s
    | some (r, ix) =>
      let s := modDesc s r ix (fun d =>
        let d := { d with live := d.live.filter (· ≠ key) }
        match x1 with
        | some v => { d with ended := d.ended + 1, best := match d.best with
            | some (k, w) => if key < k then some (key, v) else some (k, w)
            | none => some (key, v) }
        | none => { d with aband := d.aband + 1, fault := d.fault.or (some flt) })
      serveRing (launchDone s r ix) r
  takeUp s key

/-- R48: a core or thread is free: nothing of the thread remains but its take-up number. -/
def freeThread (s : State) (key : Nat) : State :=
  let t := th s key
  let s := setTh s key { thread0 with gen := t.gen }
  if isS key then s else wrf (setNc s key ncore0) (R.NCO_CTX (halfOf s key) (dieCore s key)) 16 1 0

/-- R70: the thread reaches END and its work has finished: it stops and is reported. -/
def endThread (s : State) (key : Nat) : State :=
  let t := th s key
  threadOver (freeThread s key) key t.launch (some (sget 0 t.x 1)) (0, 0)

/-- R50, R328: requests of an abandoned thread that its copy engine has not taken up, or that were set aside, are discarded with their transfers; the others complete. -/
def dropCopies (s : State) (core gen : Nat) : State :=
  let gone (r : CopyReq) : Bool := r.core == core && r.gen == gen && (r.aside || (r.line == 0 &&
    (match r.xfer with
     | none => true
     | some id => s.xfers.any (fun x => x.id == id && x.next == 0))))
  let ids := s.cpes.flatMap (fun kv => (kv.2.reqs.filter gone).filterMap (·.xfer))
  { s with cpes := s.cpes.map (fun kv => (kv.1, { kv.2 with reqs := kv.2.reqs.filter (fun r => !gone r) })),
           xfers := s.xfers.filter (fun x => !ids.contains x.id) }

/-- R328: everything of a thread that a save would have kept is discarded, and its LAUNCH counts it as abandoned. -/
def abandon (s : State) (key : Nat) : State :=
  let t := th s key
  let s := dropCopies s key t.gen
  let s : State := { s with gathers := sset none s.gathers key none, getTiles := s.getTiles.filter (fun g => g.core ≠ key || isS key) }
  threadOver (freeThread s key) key t.launch none t.err

/-- R52, R264, R328: an N-core's streams and copies go on: tiles that FABRIC.get had failed are read again, and requests set aside are tried again. -/
def reviveCore (s : State) (core : Nat) : State :=
  let s : State := { s with getTiles := s.getTiles.filter (fun g => g.core ≠ core),
                            cpes := s.cpes.map (fun kv => (kv.1, { kv.2 with reqs := kv.2.reqs.map (fun r => if r.core = core ∧ r.gen = (th s core).gen then { r with aside := false } else r) })) }
  pumpGet core 4 s

/-- R328: RESUME: a stopped thread restarts at its faulting point, once its save is over. -/
def execDspTctlResume (t : Tid) (s : State) : Out :=
  .next (let key := tkey t
    let n := th s key
    if n.phase = .fault then
      (if n.saving.isSome then s
       else
         let s := setTh s key { n with phase := .run, halt := false }
         goOn (if isS key then s else reviveCore s key) key)
    else { s with images := s.images.map (fun im => if im.key = key ∧ im.th.phase = .fault then { im with th := { im.th with phase := .run } } else im) })

/-- R328: ABANDON: a stopped thread, or the image of one, is discarded. -/
def execDspTctlAbandon (t : Tid) (s : State) : Out :=
  .next (let key := tkey t
    if (th s key).phase = .fault then abandon s key
    else
      match s.images.find? (fun im => im.key == key && im.th.phase == .fault) with
      | none => s
      | some im =>
        let s := dropCopies { s with images := s.images.filter (fun x => x ≠ im) } key im.th.gen
        threadOver s key im.th.launch none im.th.err)

/-- R327: the watchdog stops one running thread of a LAUNCH, as a preemption does, and reports it; a thread in an atomic or a gather stops when that ends. -/
def watchdogStop (s : State) (launch : Nat × Nat) (key : Nat) : State :=
  let t := th s key
  if t.launch ≠ some launch ∨ t.phase = .idle ∨ t.phase = .fault then s
  else
    let t := { t with err := (0x24, 0x64) }
    let s : State := { s with faultQ := s.faultQ ++ [⟨key, t.gen, t.launch, 0x24, 0x64⟩] }
    match t.phase with
    | .atomic => setTh s key { t with halt := true }
    | .gather => setTh s key { t with halt := true }
    | _ => stopTh (setTh s key t) key

/-- R327, R396: timer 3 of a LAUNCH expires. -/
def execLaunchWatchdog (r ix : Nat) (s : State) : Out :=
  .next (match (ringOf s r).descs.find? (fun d => d.ix == ix) with
    | none => s
    | some d =>
      match d.wdogAt with
      | none => s
      | some w =>
        if s.ltc.toNat < w then s
        else timer3 (d.live.foldl (fun s k => watchdogStop s (r, ix) k) (modDesc s r ix (fun d => { d with wdogAt := none }))) d.ctx)

/-- R325: cached entries of an invalidation: those of the context, or those that map the page. -/
def tlbDrop (s : State) (ctx : Nat) (vpn : Option Nat) : State :=
  { s with tlb := s.tlb.filter (fun e => !(e.ctx == ctx && (match vpn with
      | none => true
      | some v => e.vpn == v || (e.big && e.vpn / 512 == v / 512)))) }

/-- R325: start an invalidation. One still under way is made first. -/
def execDspTlbinvGo (v : Word) (s : State) : Out :=
  .next (let s := match s.tlbInv with
      | some (c, p) => tlbDrop s c p
      | none => s
    let s := regPut s R.DSP_TLBINV v
    if bitw v 63 then
      { wrf s R.DSP_TLBINV 62 1 0 with tlbInv := some (fld v 0 6, if bitw v 6 then none else some (fld v 21 27)) }
    else wrf { s with tlbInv := none } R.DSP_TLBINV 62 1 1)

/-- R325: the invalidation completes. -/
def execTlbinvDone (s : State) : Out :=
  .next (match s.tlbInv with
    | none => s
    | some (c, p) => wrf { tlbDrop s c p with tlbInv := none } R.DSP_TLBINV 62 1 1)

/-- R326: a refusal of the DSP block: its record, and for CONFLICT the reports of R398. -/
def dspRefuse (s : State) (st ctx : Nat) : State :=
  let s := wr s R.DSP_CFG_ERR (BitVec.ofNat 64 (st + ctx <<< 8 + 1 <<< 63))
  if st = 0x30 then conflict s 0 ctx 0 ctx none (rd s R.DSP_CFG_ERR) else s

/-- R326: a context is in use: an enabled ring names it, or a thread runs it. -/
def ctxUsed (s : State) (c : Nat) : Bool :=
  (List.range 256).any (fun r => bitw (rd s (R.DSP_RING_SQ r)) 63 && ringCtx s r == c) ||
  s.threads.any (fun kv => kv.2.phase != .idle && kv.2.ctx == c)

/-- R46, R326, R367: a write of DSP_CTXDEF: a context is created, with its program chain at zero, or destroyed, or the write is refused. A context keeps its partition while it exists. -/
def execDspCtxdefValid (c : Nat) (v : Word) (s : State) : Out :=
  .next (if 64 ≤ c then s
    else if ctxValid s c then
      (if !bitw v 63 && ctxUsed s c then dspRefuse s 0x30 c
       else regPut s (R.DSP_CTXDEF c) (if bitw v 63 then putf v 0 3 (partOf s c) else v))
    else
      let s := regPut s (R.DSP_CTXDEF c) v
      if bitw v 63 then (List.range 8).foldl (fun s w => wr s (R.SEC_PCHAIN c w) 0) s else s)

/-- R326, R376: in CONFIDENTIAL, another partition's context names a core of one of the clusters that this word names. -/
def clusterClash (s : State) (c w : Nat) (v : Word) : Bool :=
  confidential s && (List.range 64).any (fun b =>
    bitw v b && (let i := (if w < 2 then w else w - 2) * 64 + b
      (List.range 64).any (fun o => ctxValid s o && partOf s o != partOf s c && (List.range 4).any (fun k =>
        if w < 2 then
          (List.range (2 * nCores s)).any (fun j => csetHas s o k false j && halfOf s j == halfOf s i &&
            nCluster s (halfOf s j) (dieCore s j) == nCluster s (halfOf s i) (dieCore s i))
        else (List.range 192).any (fun j => csetHas s o k true j && j / 8 == i / 8)))))

/-- R326, R376: a write of one word of a core set: a core at or above the enabled count refuses it, and so does a cluster of another partition. -/
def execDspCsetWrite (c k w : Nat) (v : Word) (s : State) : Out :=
  .next (if 64 ≤ c ∨ 4 ≤ k ∨ 6 ≤ w then s
    else if w < 2 ∧ 2 ^ (2 * nCores s - 64 * w) ≤ v.toNat then dspRefuse s 0x10 c
    else if w < 5 ∧ clusterClash s c w v = true then dspRefuse s 0x30 c
    else regPut s (R.DSP_CSET c k w) v)

/-- R331, R333: a write of DSP_CFG: with ENABLE set and a port up, held records are delivered and the rings are served. -/
def execDspCfgEnable (v : Word) (s : State) : Out :=
  .next (let s := regPut s R.DSP_CFG v
    let up := rdf s R.PLK_STAT 0 2 = 3 ∨ rdf s R.PLK_STAT 2 2 = 3
    let s : State := if bitw v 0 ∧ s.hostLost = true ∧ up then
        s.heldRecs.foldl writeRec { s with hostLost := false, heldRecs := [] }
      else s
    if bitw v 0 then s.rings.foldl (fun s kv => takeDescs s kv.1) s else s)

/-- R318, R320, R333: a write of DSP_RING_SQ: enabling a ring reads its host index line; a stopped ring restarts once ERR has been cleared. -/
def execDspRingEnable (r : Nat) (v : Word) (s : State) : Out :=
  .next (if 256 ≤ r then s
    else
      let s := regPut s (R.DSP_RING_SQ r) v
      let x := ringOf s r
      if !bitw v 63 || rdf s (R.DSP_RING_STAT r) 0 1 == 1 then s
      else readIndex (setRing s r (if x.stopped then { x with stopped := false, sqPi := x.sqCi } else x)) r)

/-- R329: a read of DSP_LOGCLAIM returns the next SEQ of a partition's log ring and takes it. -/
def execDspLogclaim (p : Nat) (s : State) : Out :=
  .next (if 8 ≤ p then s
    else
      let v := rd s (R.DSP_LOGPTR p)
      { wr s (R.DSP_LOGPTR p) (v + 1) with tx := s.tx ++ [.answer (R.DSP_LOGCLAIM p) (leBytes 8 v.toNat) true] })

/-- R331, R371: both ports are down: lines the host held dirty are poisoned, its clean ones leave the directory, the front-end stops, the session ends, and the loss is recorded. -/
def loseHost (s : State) (port : Nat) : State :=
  let dirty := (s.hostLines.filter (fun kv => kv.2 == 2)).map (·.1)
  let s := dirty.foldl poisonLine { s with hostLines := [], hostLost := true, session := none }
  let s := addSat (wrf s R.SEC_STAT 1 1 0) R.PLK_STAT 32 32 dirty.length
  bbx s false 0x04 0 0 0 (leBytes 1 1 ++ leBytes 1 port ++ leBytes 6 0 ++ leBytes 8 (rdf s R.PLK_STAT 32 32))

/-- R313, R331: declare a Palale Link port down. -/
def plkDown (s : State) (port : Nat) : State :=
  if 2 ≤ port || rdf s R.PLK_STAT (2 * port) 2 == 0 then s
  else
    let other := rdf s R.PLK_STAT (2 * (1 - port)) 2
    let s := addSat (wrf s R.PLK_STAT (2 * port) 2 0) R.PLK_STAT 16 16 1
    if other = 3 then s else if s.hostLost then s else loseHost s port

/-- R313: a Palale Link port is declared down; the other carries every line. -/
def execPlkPortDown (port : Nat) (s : State) : Out := .next (plkDown s port)

/-- R28, R313: a Palale Link port is trained and up; not in the fatal state. -/
def execPlkPortUp (port : Nat) (s : State) : Out := .next (if 2 ≤ port || pwrState s == 4 then s else wrf s R.PLK_STAT (2 * port) 2 3)

/-- R312, R371: a flit that fails its CRC, or (`fails` in a row) its tag, is resent; eight tag failures in a row declare the port down. -/
def execPlkFlitResend (port fails : Nat) (s : State) : Out :=
  .next (if 2 ≤ port || rdf s R.PLK_STAT (2 * port) 2 != 3 then s
    else
      let s := addSat s R.PLK_ERR 0 32 1
      if fails = 0 ∨ s.session = none then s
      else
        let s := addSat s R.SEC_LINKAUTH 32 32 1
        if 8 ≤ fails then plkDown s port else s)

/-- R316: a line that the host held dirty comes back, and accesses that wait for it can go on. -/
def execRecallReturn (line : Nat) (bytes : List Byte) (s : State) : Out :=
  .next (if sget 0 s.hostLines line ≠ 2 ∨ bytes.length ≠ 64 then s
    else ckpPump (physWrite { s with hostLines := sset 0 s.hostLines line 0 } srcHost (line * 64) bytes))

end Sys2Proof.Machine
end

