-- ==== Sys2Proof/Machine/Ports.lean ====
section
/-! DEFINITION. Scauth ports and the loss of neighbours (R253, R257, R268-R270, R273, R276-R278, R304, R352, R353), and the writes of the SCF and WIN registers that act. -/

namespace Sys2Proof.Machine

/-- R281: set a port's state. -/
def setPort (s : State) (k st : Nat) : State := wrf s (R.SCF_PORT_STAT k) 0 2 st

/-- R253: SCF_COORD has been written since reset. -/
def coordSet (s : State) : Bool := bitw (rd s R.SCF_COORD) 63

/-- R252: the neighbour of a port, once the coordinate is set; none on an axis of length 1. -/
def portPeer (s : State) (k : Nat) : Option Nat :=
  if coordSet s && axisLen s (k % 8 / 2) != 1 then some (neighbour s (ownCoord s) (k % 8 / 2) (k % 2)) else none

/-- R277: a LOST notice leaves on every ACTIVE port. -/
def sendLost (s : State) (c cause : Nat) : State :=
  { s with tx := s.tx ++ ((List.range 16).filter (fun k => portState s k == 3)).map (fun k => .lost k c cause) }

/-- R352: the LAUNCHes of a partition at an abort: threads that have not started are stopped too, and each record carries JOB_ABORT. -/
def abortDescs (s : State) (p : Nat) : State :=
  { s with rings := s.rings.map (fun kv => (kv.1, { kv.2 with descs := kv.2.descs.map (fun d =>
      if d.started && dOp d == 1 && ctxValid s d.ctx && partOf s d.ctx == p then
        { d with waiting := [], aband := d.aband + d.waiting.length, fault := some (0x22, 0x83) }
      else d) })) }

/-- R352: every thread of a partition's contexts is stopped as ABANDON does. -/
def abortThreads (s : State) (p : Nat) : State :=
  let keys := (s.threads.filter (fun kv => kv.2.phase != .idle && partOf s kv.2.ctx == p)).map (·.1)
  let s := keys.foldl (fun s k => abandon (setTh s k { th s k with err := (0x22, 0x83) }) k) s
  let ims := s.images.filter (fun im => partOf s im.th.ctx == p)
  let s : State := { s with images := s.images.filter (fun im => partOf s im.th.ctx != p) }
  ims.foldl (fun s im => threadOver (dropCopies s im.key im.th.gen) im.key im.th.launch none (0x22, 0x83)) s

/-- R352: ARMED is cleared on the trigger entries of a partition's contexts. -/
def disarm (s : State) (p : Nat) : State :=
  let ts := s.regs.filterMap (fun kv =>
    if R.COL_TRIG 0 0 ≤ kv.1 ∧ kv.1 < R.COL_TRIG 8192 0 ∧ (nsub kv.1 (R.COL_TRIG 0 0)) % 64 = 0 ∧ bitw kv.2 1 = true ∧ partOf s (fld kv.2 2 6) = p then
      some kv.1 else none)
  ts.foldl (fun s a => wrf s a 1 1 0) s

/-- R352, R353: a partition is aborted; it may start its restore at once. -/
def abortPart (s : State) (p : Nat) : State :=
  let s := abortDescs s p
  let s := abortThreads s p
  let s := s.rings.foldl (fun s kv => serveRing (kv.2.descs.foldl (fun s d => launchDone s kv.1 d.ix) s) kv.1) s
  let s := disarm s p
  let s := if ckpPhase s p = 2 then devWrite s (coffBase s p 0) (leBytes 8 0) else s
  let s := if ckpPhase s p = 6 then s else setPhase s p 7
  let cut := leNat (memGet s (coffBase s p 0) 8)
  if rdf s (R.CKP_CFG p) 21 1 = 1 ∧ cut = (rd s (R.CKP_GSEALED p)).toNat ∧ cut ≠ 0 then startRestore s p 0 false true else s

/-- R277, R304, R352: a coordinate is lost: it is listed, requests to it and collectives with it end, and partitions that asked for it are aborted. -/
def loseCoord (s : State) (c cause : Nat) : State :=
  let s := loseMembers (failLost (enterLost s c cause))
  let s := (List.range 8).foldl (fun s p =>
    if ckpOn s p && bitw (rd s (R.CKP_CFG p)) 22 && inBlock s c then abortPart s p else s) s
  ckpPump s

/-- R276, R277: declare a port down: it trains again, and its neighbour is lost when no port to it is up. -/
def portDown (s : State) (k cause : Nat) : State :=
  let s := addSat (setPort s k 1) (R.SCF_PORT_STAT k) 16 16 1
  let s : State := { s with portFell := ninsert k s.portFell, portWant := s.portWant.filter (· ≠ k) }
  let peer := portPeer s k
  let s := bbx s false 0x04 0 0 0 (leBytes 1 0 ++ leBytes 1 k ++ leBytes 1 cause ++ leBytes 1 0 ++ leBytes 4 (peer.getD 0))
  match peer with
  | none => s
  | some c =>
    if (List.range 16).any (fun j => portPeer s j == some c && 2 ≤ portState s j) || knownLost s c then s
    else loseCoord (sendLost s c cause) c cause

/-- R276: a port is up: it exchanges control blocks. -/
def portUp (s : State) (k : Nat) : Bool := k < 16 && 2 ≤ portState s k

/-- R276, R278: the moment to send on a port: a keep-alive when it is up; training patterns in its place while it trains, unless it holds electrical idle. -/
def execKeepaliveSend (port : Nat) (s : State) : Out :=
  .next (if portUp s port then { s with tx := s.tx ++ [.keep port] }
    else if port < 16 && portState s port == 1 && !s.portIdle.contains port then { s with tx := s.tx ++ [.training port] }
    else s)

/-- R276: a valid control block arrives. -/
def execKeepaliveReceived (port : Nat) (s : State) : Out :=
  .next (if portUp s port then { s with portSeen := sset 0 s.portSeen port s.ltc.toNat } else s)

/-- R276: no valid control block for 1 us: the port is declared down. -/
def execPortSilenceTimeout (port : Nat) (s : State) : Out :=
  .next (if portUp s port && sget 0 s.portSeen port + 1000 ≤ s.ltc.toNat then portDown s port 1 else s)

/-- R276: 500 ns after a port has lost lock: it is declared down. -/
def execLossOfLock (port : Nat) (s : State) : Out :=
  .next (if 16 ≤ port then s
    else
      let s := wrf s (R.SCF_PORT_STAT port) 2 1 0
      if portUp s port then portDown s port 2 else s)

/-- R276, R278: a LEAVING control block arrives: the port is declared down at once and holds electrical idle. -/
def execLeavingReceived (port : Nat) (s : State) : Out :=
  .next (if portUp s port then portDown (wrf { s with portIdle := ninsert port s.portIdle } (R.SCF_PORT_STAT port) 3 1 1) port 3 else s)

/-- R276, R278: a port in TRAINING locks to its partner's training patterns; a partner that left is back. -/
def execReceiveLock (port : Nat) (s : State) : Out :=
  .next (if port < 16 && portState s port == 1 then wrf { s with portIdle := s.portIdle.filter (· ≠ port) } (R.SCF_PORT_STAT port) 2 1 1 else s)

/-- R253, R270, R276: training ends: the port enters PARAPET, or ACTIVE where a write of ACTIVE waits and the coordinate is set. -/
def execPortTrained (port : Nat) (s : State) : Out :=
  .next (if port < 16 && portState s port == 1 && rdf s (R.SCF_PORT_STAT port) 2 1 == 1 then
      (let s := if s.portFell.contains port then addSat s (R.SCF_PORT_ERR port) 32 32 1 else s
       let go := s.portWant.contains port && coordSet s
       let s : State := { s with portFell := s.portFell.filter (· ≠ port), portSeen := sset 0 s.portSeen port s.ltc.toNat,
                                 portWant := if go then s.portWant.filter (· ≠ port) else s.portWant }
       setPort s port (if go then 3 else 2))
    else s)

/-- R270, R277, R304, R352: a LOST notice: dropped at a parapet; otherwise entered, acted on, and passed on while it is new. One that names this package is recorded with cause 4. -/
def execLostNotice (port coord cause : Nat) (s : State) : Out :=
  .next (if 16 ≤ port then s
    else if portState s port = 2 then parapetDrop s port
    else if portState s port ≠ 3 || knownLost s coord then s
    else loseCoord (sendLost s coord cause) coord (if coord = ownCoord s then 4 else cause))

/-- R253: ports whose MODE holds a write of ACTIVE enter it, at once or when they have trained, and those of an axis of length 1 are held DOWN (R252). -/
def releasePorts (s : State) : State :=
  (List.range 16).foldl (fun s k =>
    if axisLen s (k % 8 / 2) = 1 then wrf (setPort { s with portWant := s.portWant.filter (· ≠ k) } k 0) (R.SCF_PORT_STAT k) 2 1 0
    else if rdf s (R.SCF_PORT_CTL k) 0 2 ≠ 3 then s
    else if portState s k = 2 then setPort { s with portWant := s.portWant.filter (· ≠ k) } k 3
    else { s with portWant := ninsert k s.portWant }) s

/-- R253, R281: the first write of SCF_COORD since reset takes effect and locks it. -/
def execScfCoordWrite (v : Word) (s : State) : Out :=
  .next (if coordSet s then s else releasePorts (wr s R.SCF_COORD (BitVec.ofNat 64 (fld v 0 40 + 1 <<< 63))))

/-- R252, R253, R270: a write of a port's MODE: DOWN, PARAPET or ACTIVE; a write of 1 is ignored. ACTIVE waits for the coordinate and for training. -/
def execScfPortCtlWrite (port : Nat) (v : Word) (s : State) : Out :=
  .next (if 16 ≤ port ∨ fld v 0 2 = 1 then s
    else
      let m := fld v 0 2
      let s := wrf s (R.SCF_PORT_CTL port) 0 2 m
      let s : State := { s with portWant := s.portWant.filter (· ≠ port) }
      let st := portState s port
      if m = 0 then wrf (setPort s port 0) (R.SCF_PORT_STAT port) 2 1 0
      else if coordSet s && axisLen s (port % 8 / 2) == 1 then s
      else
        let s := if st = 0 then setPort s port 1 else s
        if m = 2 then (if st = 3 then setPort s port 2 else s)
        else if st = 3 || (st == 2 && coordSet s) then setPort s port 3
        else { s with portWant := ninsert port s.portWant })

/-- R269: a write of a partition's domain ID: applied, or refused where two valid partitions would share it or it is zero. -/
def execScfDomainWrite (p : Nat) (v : Word) (s : State) : Out :=
  .next (if 8 ≤ p then s
    else
      let clash := (List.range 8).find? (fun q => q != p && bitw (rd s (R.SCF_DOMAIN q)) 63 && rdf s (R.SCF_DOMAIN q) 0 16 == fld v 0 16)
      if bitw v 63 && (fld v 0 16 == 0 || clash.isSome) then
        (let s := wr s R.SCF_CFG_ERR (BitVec.ofNat 64 (0x30 + p <<< 8 + 1 <<< 63))
         conflict s 0 p (clash.getD p) p (some p) (rd s R.SCF_CFG_ERR))
      else regPut s (R.SCF_DOMAIN p) v)

/-- R268: a write of RED: it acts on later claims. -/
def execScfSlotSplitWrite (v : Word) (s : State) : Out :=
  let n := min 4096 (fld v 0 13)
  .next (wrf (wrf s R.SCF_SLOT_SPLIT 0 13 n) R.SCF_SLOT_SPLIT 16 13 (4096 - n))

/-- R257: word 1 of a window entry is held. -/
def execWinEntryWord1Write (i : Nat) (v : Word) (s : State) : Out :=
  .next (if 2097152 ≤ i then s else { s with winHeld := sset none s.winHeld i (some v) })

/-- R257: word 0 of a window entry takes effect together with the word 1 that is held. -/
def execWinEntryWord0Write (i : Nat) (v : Word) (s : State) : Out :=
  .next (if 2097152 ≤ i then s
    else
      let s := match sget none s.winHeld i with
        | some w => regPut { s with winHeld := sset none s.winHeld i none } (R.WIN_ENTRY1 i) w
        | none => s
      regPut s (R.WIN_ENTRY0 i) v)

/-- R273, R374: a flit is resent: it failed its CRC, or (`fails` in a row, in CONFIDENTIAL) its tag; eight tag failures in a row declare the port down. -/
def execScauthLinkReplay (port fails : Nat) (s : State) : Out :=
  .next (if !portUp s port then s
    else
      let s := addSat s (R.SCF_PORT_ERR port) 0 32 1
      if fails = 0 ∨ confidential s = false then s
      else
        let s := addSat s R.SEC_LINKAUTH 0 32 1
        if 8 ≤ fails then portDown s port 1 else s)

end Sys2Proof.Machine
end

