-- ==== Sys2Proof/Machine/Fatal.lean ====
section
/-! DEFINITION. Fatal errors (R386, R419): the record, the frozen ring, LEAVING, the stop of issue, and the status signals. -/

namespace Sys2Proof.Machine

/-- R393: freeze the rolling ring. -/
def freezeRing (s : State) : State := wrf s R.BBX_STAT 16 1 1

/-- R278, R386: LEAVING on every Scauth port that is not DOWN; the ports then hold electrical idle. -/
def leaveScauth (s : State) : State :=
  (List.range 16).foldl (fun s k =>
    if portState s k = 0 then s
    else
      let s : State := { s with tx := s.tx ++ [.leaving k], portWant := s.portWant.filter (· ≠ k) }
      wrf (setPort s k 0) (R.SCF_PORT_STAT k) 2 1 0) s

/-- R386: the status register of a fatal cause. -/
def causeReg (s : State) (cause h : Nat) : Word :=
  if cause = 1 then rd s R.CLK_STATUS
  else if cause = 2 then rd s (R.MEM_ARCH_RAS h)
  else if cause = 4 then rd s R.PWR_THERM
  else if cause = 5 then rd s R.PWR_RAIL
  else rd s R.PWR_STAT

/-- R386: a fatal error with its cause, met on a die (`h`: the half of an arch link). A package already in the fatal state stays as it is. -/
def fatal (s : State) (cause src h : Nat) : State :=
  if pwrState s = 4 then s
  else
    let pay := leBytes 1 cause ++ leBytes 7 0 ++ leBytes 8 (causeReg s cause h).toNat
    let s := bbx s true 0x01 src 0 0 pay
    let s := leaveScauth (freezeRing s)
    let s := wrf (wrf s R.PWR_STAT 0 4 4) R.PWR_STAT 8 8 cause
    { s with faultN := true, alive := 0 }

end Sys2Proof.Machine
end

