-- ==== Sys2Proof/Machine/Modules.lean ====
section
/-! DEFINITION. Drain modules as commands (R401-R410): insertion, capsule checks, ledgers and life states, ejection and removal, areas, and staged loads and cache fills. -/

namespace Sys2Proof.Machine

/-- R409, R410: no slot striped over the bays is whole any more. -/
def clearSlots (s : State) : State := (List.range 8).foldl (fun s p => wr (wr s (R.CKP_SLOT0 p) 0) (R.CKP_SLOT1 p) 0) s

/-- A bay of the package. -/
def bayOf (s : State) (b : Nat) : Bay := sget bay0 s.bays b
/-- Replace a bay. -/
def setBay (s : State) (b : Nat) (y : Bay) : State := { s with bays := sset bay0 s.bays b y }

/-- The module that is inserted, as the device holds it. -/
def moduleOf (m : ModuleIn) : Module :=
  ⟨m.serial, m.rated, m.written, m.ro, m.touched, m.pct, m.genuine, m.blocks.foldl (fun t x => sset [] t x.1 (padTo 4096 x.2)) []⟩

/-- R409, R433: a module is inserted: it is present, and once it has trained its check starts; one that trains narrower than x8 is treated as absent. -/
def execModuleInserted (b : Nat) (m : ModuleIn) (s : State) : Out :=
  .next (if 2 ≤ b || (bayOf s b).mod.isSome then s
    else if !m.wide then clearSlots s
    else
      let s := clearSlots (setBay s b ⟨some (moduleOf m), false⟩)
      wr (wr s (R.DRN_BAY b) (putf (rd s (R.DRN_BAY b) &&& 0xFFFFFFFF00000000) 0 1 1)) (R.DRN_SERIAL b) 0)

/-- R404, R405: the ledger percentage of a module: from its ledger when its capsule verifies, else from Percentage Used. -/
def modulePct (m : Module) : Nat := if m.genuine then (if m.rated = 0 then 100 else m.written * 100 / m.rated) else m.pct

/-- R405: the life state of a module: 0 NEW, 1 SERVICE, 2 WORN, 3 LAST, 4 SPENT. -/
def moduleLife (m : Module) : Nat :=
  let p := modulePct m
  if m.ro ∨ 100 ≤ p then 4 else if 95 ≤ p then 3 else if 80 ≤ p then 2 else if p = 0 ∧ m.touched = false then 0 else 1

/-- R405: the ledger of a bay's module is read: the percentage, and the life state, which never falls. -/
def readLedger (s : State) (b : Nat) : State :=
  match (bayOf s b).mod with
  | none => s
  | some m =>
    let s := wrf s (R.DRN_BAY b) 8 8 (min 255 (modulePct m))
    let old := rdf s (R.DRN_BAY b) 2 3
    let new := moduleLife m
    if new ≤ old then s
    else bbx (wrf s (R.DRN_BAY b) 2 3 new) true 0x08 0 0 0
      (leBytes 1 b ++ leBytes 1 old ++ leBytes 1 new ++ leBytes 1 (min 255 (modulePct m)) ++ leBytes 4 0 ++ leBytes 8 m.serial)

/-- R403, R415: PCIe has trained, so bays are served. -/
def pcieUp (s : State) : Bool := issuing s || (pwrState s == 1 && 8 ≤ rdf s R.PWR_STAT 4 4)

/-- R403-R405: a capsule check ends: the module comes into use (in CONFIDENTIAL only one that passes: `bayUsable`), and its ledger is read. -/
def execCapsuleCheckDone (b : Nat) (s : State) : Out :=
  .next (match (bayOf s b).mod with
    | none => s
    | some m =>
      if 2 ≤ b || !pcieUp s || (bayOf s b).ready || rdf s (R.DRN_BAY b) 6 1 == 1 then s
      else
        let s := wrf (setBay s b ⟨some m, true⟩) (R.DRN_BAY b) 1 1 (if m.genuine then 1 else 0)
        readLedger (wr s (R.DRN_SERIAL b) (BitVec.ofNat 64 m.serial)) b)

/-- R405: the ledgers are read every 10 s. -/
def execLedgerPoll (s : State) : Out :=
  .next (if s.ltc.toNat < s.ledgerAt + 10000000000 then s
    else (List.range 2).foldl (fun s b => if (bayOf s b).ready then readLedger s b else s) { s with ledgerAt := s.ltc.toNat })

/-- R409: a drain, a restore from the modules or a transfer is using the bays. -/
def baysBusy (s : State) : Bool :=
  s.ckps.any (fun kv => kv.2.drain.isSome || (match kv.2.rest with | some r => r.source == 1 && !r.local_ | none => false)) ||
  s.drnX.any (fun kv => kv.2.isSome)

/-- R409: EJECT: refused while the bay is used; otherwise the module is flushed and held in reset, and the bay powers down. -/
def execDrnBayEject (b : Nat) (s : State) : Out :=
  .next (if 2 ≤ b || (bayOf s b).mod.isNone then s
    else if bayUsable s b && baysBusy s then conflict s 0 b 0 0 none (rd s (R.DRN_BAY b))
    else wrf (setBay s b { bayOf s b with ready := false }) (R.DRN_BAY b) 6 1 1)

/-- R407: a transfer ends with a status. -/
def xferEnd (s : State) (p st sub : Nat) : State :=
  { wr s (R.DRN_XSTAT p) (BitVec.ofNat 64 (st + sub <<< 8 + 1 <<< 63)) with drnX := sset none s.drnX p none }

/-- R410: the outstanding commands of a module that leaves end. -/
def bayLost (s : State) (b : Nat) : State :=
  let d := drawBits 8 s
  let s := bbx d.2 false 0x04 0 0 0 (leBytes 1 d.1.toNat ++ leBytes 1 b)
  (List.range 8).foldl (fun s p =>
    let s := if (ckpOf s p).drain.isSome then stopDrain s p 0x10 0x90 else s
    let s := match (ckpOf s p).rest with
      | some r => if r.source = 1 ∧ r.local_ = false then restFail s p r (0x10, 0xC2) else s
      | none => s
    if (sget none s.drnX p).isSome then xferEnd s p 0x10 0xC2 else s) s

/-- R409, R410: a module leaves its bay: ejected, or with its commands outstanding. -/
def execModuleRemoved (b : Nat) (s : State) : Out :=
  .next (if 2 ≤ b || (bayOf s b).mod.isNone then s
    else
      let s := if rdf s (R.DRN_BAY b) 6 1 = 1 then s else bayLost s b
      let s := clearSlots (setBay s b bay0)
      wr (wr s (R.DRN_BAY b) (rd s (R.DRN_BAY b) &&& 0xFFFFFFFF00000000)) (R.DRN_SERIAL b) 0)

/-- R402: the stripe pairs of a partition's areas: first and end. -/
def areaSpan (s : State) (p : Nat) : Nat × Nat :=
  let w := rd s (R.DRN_AREA p)
  let b := rdf s (R.DRN_BASE p) 0 40
  (b, b + 2 * fld w 0 24 + fld w 24 24 + fld w 48 16)

/-- R402: a write of DRN_AREA, or (`base`) of DRN_BASE: refused where the partition's areas would overlap another's. -/
def execDrnAreaWrite (p : Nat) (base : Bool) (v : Word) (s : State) : Out :=
  .next (if 8 ≤ p then s
    else
      let t := if base then regPut s (R.DRN_BASE p) v else regPut s (R.DRN_AREA p) v
      let me := areaSpan t p
      match (List.range 8).find? (fun q => q != p && (let o := areaSpan t q; max o.1 me.1 < min o.2 me.2)) with
      | some q => conflict s 0 p q p (some p) (rd s (R.DRN_AREA p))
      | none => t)

/-- R404-R407: why a transfer of a partition cannot run. -/
def xferBad (s : State) (p : Nat) (x : DrnXfer) : Option (Nat × Nat) :=
  if !(bayUsable s 0 || bayUsable s 1) then some (0x10, 0xC2)
  else if confidential s && (keySlot s p 2).isNone then some (0x11, 0xA2)
  else if x.fill && !bayState s 2 then some (0x11, 0xC1)
  else if areaBlocks s p 2 < x.off + x.blocks then some (accCode .addr)
  else if x.blocks = 0 then none
  else (physErr s (.net p) x.addr (x.blocks * 4096) (!x.fill)).map accCode

/-- R407: start a transfer. -/
def xferStart (s : State) (p : Nat) (v : Word) (fill : Bool) : State :=
  if 8 ≤ p || !bitw v 63 || bitw v 0 != fill then s
  else if (sget none s.drnX p).isSome then conflict s 0 p p p (some p) (rd s (R.DRN_XSTAT p))
  else
    let x : DrnXfer := ⟨fill, fld v 12 36 * 4096, rdf s (R.DRN_XLEN p) 0 32, rdf s (R.DRN_XLEN p) 32 32⟩
    match xferBad s p x with
    | some e => xferEnd s p e.1 e.2
    | none => { wrf s (R.DRN_XSTAT p) 62 1 1 with drnX := sset none s.drnX p (some x) }

/-- R407: a staged load starts. -/
def execDrnXferLoad (p : Nat) (v : Word) (s : State) : Out := .next (xferStart s p v false)
/-- R407: a cache fill starts. -/
def execDrnXferFill (p : Nat) (v : Word) (s : State) : Out := .next (xferStart s p v true)

/-- R407, R408: a transfer has moved its data; while a higher class runs, or memory must wait, it waits. -/
def execDrnXferDone (p : Nat) (s : State) : Out :=
  .next (match sget none s.drnX p with
    | none => s
    | some x =>
      if xferWaits s x || (linesOf x.addr (x.blocks * 4096)).any (lineWaits s) then s
      else
        match xferBad s p x with
        | some e => xferEnd s p e.1 e.2
        | none =>
          if x.fill then
            (let r := physRead s srcDev x.addr (x.blocks * 4096)
             if r.2.2 then xferEnd r.1 p 0x12 0 else xferEnd (writeBlocks r.1 p 2 x.off r.2.1 x.blocks) p 0 0)
          else
            let r := readBlocks s p 2 x.off x.blocks
            xferEnd (physWrite r.1 srcDev x.addr r.2) p 0 0)

end Sys2Proof.Machine
end

