-- ==== Sys2Proof/Machine/FabricRows.lean ====
section
/-! DEFINITION. Replies and retries as commands (R77, R178, R262-R266, R273-R275). -/

namespace Sys2Proof.Machine

/-- A reply of type `ty` for this package: for a combined request the router splits it; otherwise the request it answers, if one waits, ends as `f` says. -/
def onReply (ty : Nat) (p : Pkt) (f : State → OutReq → State) (s : State) : Out :=
  .next (ckpPump (if !issuing s || p.ty != ty || p.dst != ownCoord s then s
    else if p.eng = 0xFFF then
      (match s.slots.find? (fun c => c.seq == p.seq) with
       | some c => splitReply (takeRx s p) c p
       | none => takeRx s p)
    else
      match reqOf s p.eng p.seq with
      | none => takeRx s p
      | some r => f (takeRx s p) r))

/-- R203, R262-R265, R354: a DATA reply brings the line of a READ. -/
def execPktData (p : Pkt) (s : State) : Out :=
  onReply 0x20 p (fun s1 r =>
    let s0 := reqMove s1 r 64 false
    let bs := padTo 64 p.data
    match r.kind with
    | .xfer id i => (match landLine s0 r id i bs p.pois with
        | (s2, .ok ()) => s2
        | (_, _) => s)
    | .gather => moreLines (gatherGot (dropReq s0 r) r.key r.va (.data bs p.pois)) r.key
    | .get q tile i => modGet (dropReq s0 r) r.key q tile (fun g =>
        { g with lines := (List.range g.lines.length).zip g.lines |>.map (fun (l : Nat × Nat × Option (List Byte × Bool)) => if l.1 = i then (l.2.1, some (bs, p.pois)) else l.2) })
    | .halo svu => { dropReq s0 r with mail := s0.mail ++ [⟨0, svu, r.va, .data bs p.pois⟩] }
    | .mirror part => { dropReq s0 r with mail := s0.mail ++ [⟨1, part, r.va, .data bs p.pois⟩] }
    | .atomic _ _ => s0
    | .put _ _ => s0
    | .mwrite _ => s0) s

/-- R262: an ACK counts a line of an RPUT, the flag of an RPUTF, or a line of a FABRIC.put tile. -/
def execPktAck (p : Pkt) (s : State) : Out :=
  onReply 0x21 p (fun s r =>
    match r.kind with
    | .xfer id _ =>
      let s := match s.xfers.find? (fun x => x.id == id) with
        | some x => arrive s r.key x.gen x.cnt
        | none => s
      moreLines (settle (modXfer (dropReq s r) id (fun y => { y with out := y.out - 1 })) r.key) r.key
    | .put id _ => settle (modPut (dropReq s r) id (fun t => { t with left := t.left - 1 })) r.key
    | .mwrite _ => dropReq s r
    | _ => s) s

/-- R77: a VALUE brings an atomic's prior value, with status DONE. -/
def execPktValue (p : Pkt) (s : State) : Out :=
  onReply 0x22 p (fun s r =>
    match r.kind with
    | .atomic d wide =>
      let s := reqMove s r (if wide then 16 else 8) false
      let v := if bundled r.pkt.ty then ((p.mem.head?).map (·.v)).getD 0 else leNat p.data
      atomicEnd (dropReq s r) r.key r.gen d wide 0 v
    | _ => s) s

/-- R273: a NACK_BUSY: the source waits the hint, or the request fails at its eighth. -/
def execPktNackBusy (p : Pkt) (s : State) : Out :=
  onReply 0x28 p (fun s r =>
    if 8 ≤ r.nacks + 1 then reqFail (addSat s R.SCF_NACK 32 32 1) r 0x20 (nfld p.addr 8 8)
    else { s with reqs := s.reqs.map (fun x => if x = r then { r with nacks := r.nacks + 1, hint := some (s.ltc.toNat + 100 * nfld p.addr 0 8) } else x) }) s

/-- R265: a NACK_DOMAIN ends the operation finally, with the status and cause it carries. -/
def execPktNackDomain (p : Pkt) (s : State) : Out := onReply 0x29 p (fun s r => reqFail s r (nfld p.addr 0 8) (nfld p.addr 8 8)) s
/-- R265: an UNREACHABLE ends the operation finally. -/
def execPktUnreachable (p : Pkt) (s : State) : Out := onReply 0x2A p (fun s r => reqFail s r (nfld p.addr 0 8) (nfld p.addr 8 8)) s
/-- R265: a FAULT ends the operation finally. -/
def execPktFault (p : Pkt) (s : State) : Out := onReply 0x2B p (fun s r => reqFail s r (nfld p.addr 0 8) (nfld p.addr 8 8)) s

/-- R255, R273, R275: send a request again with the same tag. -/
def resend (s : State) (r : OutReq) (nack : Bool) : State :=
  let p := { r.pkt with tries := (r.pkt.tries + 1) % 16 }
  let r' := { r with pkt := p, hint := none, sent := s.ltc.toNat, resends := if nack then r.resends else r.resends + 1 }
  emit (reqMove { s with reqs := s.reqs.map (fun x => if x = r then r' else x) } r (reqBytes p) true) p

/-- R273: the hint of a NACK has passed. -/
def execRetryAfterExpiry (eng seq : Nat) (s : State) : Out :=
  .next (if !issuing s then s
    else
      match reqOf s eng seq with
      | none => s
      | some r => (match r.hint with
        | some t => if t ≤ s.ltc.toNat then resend s r true else s
        | none => s))

/-- R275: 20 us without a reply: the request is resent, at most 4 times; then it fails. -/
def execResendTimeout (eng seq : Nat) (s : State) : Out :=
  .next (ckpPump (if !issuing s then s
    else
      match reqOf s eng seq with
      | none => s
      | some r =>
        if r.hint.isSome ∨ s.ltc.toNat < r.sent + 20000 then s
        else if r.resends < 4 then resend s r false
        else if isAtomic r then reqFail s r 0x23 0x59
        else reqFail s r 0x22 0x59))

end Sys2Proof.Machine
end

