-- ==== Sys2Proof/Machine/CollRows.lean ====
section
/-! DEFINITION. Collectives as commands (R285, R290-R293, R295-R301, R304-R306): checking groups and trigger entries, adding to counters, flits and chunks, completion, and the watchdog. -/

namespace Sys2Proof.Machine

/-- A partition is in force: it owns HBM in a half (R220). -/
def partValid (s : State) (p : Nat) : Bool := bitw (rd s (R.MEM_PART_CFG 0 p)) 63 || bitw (rd s (R.MEM_PART_CFG 1 p)) 63

/-- R285: the checks of a group descriptor. -/
def groupOk (s : State) (g : Nat) : Bool :=
  bitw (rd s R.SCF_BLOCK) 63 && (List.range 4).all (fun ax =>
    gExt s g ax ≤ axisLen s ax &&
    (if gMask s g ax then
      (List.range (gExt s g ax)).all (fun o => axOff s ax (blockOrg s ax) ((gOrg s g ax + o) % axisLen s ax) < blockExt s ax)
     else axOff s ax (blockOrg s ax) (coordAx (actCoord s) ax) < blockExt s ax)) &&
  rdf s (R.COL_GSEQ g) 0 20 < groupSize s g && partValid s (rdf s (R.COL_GROUP g) 44 3)

/-- R285: a write of COL_GROUP: a valid descriptor only clears; VALID is checked as it rises, and SEQ restarts. -/
def execColGroupValid (g : Nat) (v : Word) (s : State) : Out :=
  .next (if 1024 ≤ g then s
    else if gValid s g then
      (if bitw v 63 || putf v 63 1 1 != rd s (R.COL_GROUP g) then s else wrf s (R.COL_GROUP g) 63 1 0)
    else
      let s1 := regPut s (R.COL_GROUP g) v
      if !bitw v 63 then s1
      else if groupOk s1 g then
        { wrf s1 (R.COL_GSEQ g) 32 32 0 with collEnds := s1.collEnds.filter (fun e => e.1 ≠ g) }
      else wr (wrf s1 (R.COL_GROUP g) 63 1 0) R.COL_CFG_ERR (BitVec.ofNat 64 (0x10 + g <<< 16 + 1 <<< 63)))

/-- R288: the codes of an FMAP: known ones, and SUM_F64 as a high part followed by its low part. -/
def fmapOk (m : Nat) : Bool :=
  (List.range 8).all (fun k =>
    let c := nfld m (4 * k) 4
    c ≤ 0xC && (c != 0xB || (k < 7 && nfld m (4 * k + 4) 4 == 0xC)) && (c != 0xC || (0 < k && nfld m (4 * k - 4) 4 == 0xB)))

/-- R306: the status of a refused trigger entry; none when it may be valid. -/
def trigRefused (s : State) (ws : List Word) : Option Nat :=
  let w0 := ws.getD 0 0
  let w2 := ws.getD 2 0
  let w5 := ws.getD 5 0
  let ctx := fld w0 2 6
  let kind := fld w0 32 4
  let own (n : Nat) : Bool := let c := rd s (R.COL_TCTR n); bitw c 63 && fld c 32 6 == ctx
  let len := fld w5 0 32
  if !own (fld w0 8 11) || !own (fld w0 19 11) then some 0x30
  else if [0, 1, 2, 3, 4, 9, 10, 11].contains kind && ctxValid s ctx && gValid s (fld w2 0 10) && rdf s (R.COL_GROUP (fld w2 0 10)) 44 3 == partOf s ctx &&
      (ws.getD 6 0).toNat % 8 == 0 && (kind == 0 || ((ws.getD 3 0).toNat % 64 == 0 && (ws.getD 4 0).toNat % 64 == 0)) &&
      (if kind = 3 ∨ kind = 4 then fmapOk (fld w2 32 32) else fld w2 32 32 == 0) &&
      (if isBulk kind then len % 64 == 0 && 64 ≤ len && len ≤ 2 ^ 28 else len == 0) &&
      (kind < 10 || ([3, 4, 5, 6, 10].contains (fld w5 32 4) && fld w5 36 2 ≤ 2)) then none
  else some 0x10

/-- R306: a write of word 0 of a trigger entry: VALID is checked as it rises; an entry that is due fires (R291). -/
def execColTrigValid (t : Nat) (v : Word) (s : State) : Out :=
  .next (if 8192 ≤ t then s
    else
      let was := bitw (rd s (R.COL_TRIG t 0)) 0
      let s1 := regPut s (R.COL_TRIG t 0) v
      let n := fld v 8 11
      if !bitw v 0 then s1
      else if was then fireCounter s1 n
      else
        match trigRefused s1 (trigWords s1 t) with
        | none => fireCounter s1 n
        | some st =>
          let s2 := wr (wrf s1 (R.COL_TRIG t 0) 0 1 0) R.COL_CFG_ERR (BitVec.ofNat 64 (st + t <<< 16 + 1 <<< 29 + 1 <<< 63))
          let ctx := fld v 2 6
          if st = 0x30 then conflict s2 0 (t % 256) 0 ctx (if ctxValid s ctx then some (partOf s ctx) else none) (rd s2 R.COL_CFG_ERR) else s2)

/-- R290: a context owns a trigger counter. -/
def ownsCtr (s : State) (ctx n : Nat) : Bool :=
  n < 2048 && bitw (rd s (R.COL_TCTR n)) 63 && rdf s (R.COL_TCTR n) 32 6 == ctx

/-- R290, R337, R338: a context's store to COL_TADD of a counter it owns; of another it is left unchanged. -/
def execColTadd (ctx n : Nat) (v : Word) (s : State) : Out :=
  .next (if ownsCtr s ctx n then counterAdd s n (fld v 0 32) else s)

/-- R293, R298: a firing that waits may start. -/
def execCollectiveQueuedStart (id : Nat) (s : State) : Out :=
  .next (if !issuing s then s
    else
      match getColl s id with
      | some c => if c.queued && mayStart s c then startColl s id else s
      | none => s)

/-- R295, R299: an express flit arrives at a port. -/
def execCollectiveFlit (port : Nat) (f : Flit) (s : State) : Out :=
  .next (if f.bulk then s else flitIn s port f)

/-- R297, R299: a bulk chunk arrives at a port. -/
def execBulkChunk (port : Nat) (f : Flit) (s : State) : Out :=
  .next (if !f.bulk then s else flitIn s port f)

/-- R299: a flit that the neighbour refused is sent again, unless its collective has ended here. -/
def execMatchRetry (port : Nat) (f : Flit) (s : State) : Out :=
  .next (if issuing s && s.tx.contains (.flit port f) && (collOf s f).any (fun c => !c.done) then txFlit s port f else s)

/-- The physical bytes of a virtual range that a context may write become undefined (R304). -/
def vaUndef (s : State) (ctx va n : Nat) : State :=
  (pieces va n (n + 1)).foldl (fun s p =>
    match vaCheck s ctx p.1 p.2 .write with
    | (s, .ok pa) => memUndef s pa (pa + p.2)
    | (s, _) => s) s

/-- R287, R292: this member's DST is written on success. -/
def writesDst (s : State) (c : Coll) : Bool :=
  c.kind == 2 || c.kind == 4 || c.kind == 9 || c.kind == 0xB || ((c.kind == 3 || c.kind == 0xA) && c.root == ownCoord s)

/-- R292: the bytes of a collective's result. -/
def collBytes (c : Coll) : List Byte :=
  (List.range c.n).flatMap (fun i =>
    chunkBytes c.kind (fld (c.ws.getD 5 0) 32 4) (fld (c.ws.getD 5 0) 36 2) (((c.res.find? (fun r => r.1 == i)).map (·.2)).getD []))

/-- R292, R304: the status word, and DONE_ADD on success, end a trigger entry's collective; none while the status word must wait. -/
def collFinish (s : State) (c : Coll) : Option State :=
  let st := collStatus s c
  let sa := (c.ws.getD 6 0).toNat
  let w := st.1 + st.2 <<< 8 + 1 <<< 31 + (if c.kind = 0 then 0 else c.seq) <<< 32
  let ended (s : State) : State :=
    let s := collEnd s c
    let w0 := c.ws.getD 0 0
    if st.1 < 0x10 ∧ bitw w0 30 then counterAdd s (fld w0 19 11) (fld (c.ws.getD 2 0) 16 16) else s
  if sa = 0 then some (ended s)
  else
    match vaPut s (srcColl s c) sa (leBytes 8 w) with
    | (_, .wait) => none
    | (s, _) => some (ended s)

/-- R292, R304: the result of a trigger entry's collective reaches this member; it waits while DST or the status word must wait. -/
def execCollectiveComplete (id : Nat) (s : State) : Out :=
  .next (if !issuing s then s
    else
      match getColl s id with
      | none => s
      | some c =>
        match c.user, c.done with
        | .trig _, true =>
          let len := if isBulk c.kind then fld (c.ws.getD 5 0) 0 32 else 64
          let dst := (c.ws.getD 4 0).toNat
          let fin : Option State := match c.fail with
            | some e =>
              collFinish (if isBulk c.kind && (e.2 == 0x63 || e.2 == 0x65) && writesDst s c then vaUndef s c.ctx dst len else s) c
            | none =>
              if c.kind = 0 ∨ !writesDst s c then collFinish s c
              else
                match vaPut s (srcColl s c) dst (collBytes c) with
                | (s, .ok ()) => collFinish s c
                | (s1, .err e) => collFinish (vaUndef s1 c.ctx dst len) { c with fail := some (srcError e) }
                | (_, .wait) => none
          match fin with
          | some t => t
          | none => s
        | _, _ => s)

/-- R301: a collective's watchdog expires: it ends with COLL_TIMEOUT, and its slots and match-buffer entries are freed. -/
def collWatchdog (id : Nat) (s : State) : Out :=
  .next (match getColl s id with
    | none => s
    | some c =>
      if c.done ∨ !(c.fired || c.queued) ∨ s.ltc.toNat < c.dl then s
      else
        let s : State := { s with matchBuf := s.matchBuf.filter (fun m => !(m.2.group == c.group && m.2.seq == c.seq % 65536)) }
        addSat (endHere s id 0x24 0x64) R.COL_STAT 32 32 1)

end Sys2Proof.Machine
end

