-- ==== Sys2Proof/Machine/Ras.lean ====
section
/-! DEFINITION. Error watch, summaries, the black box's register pairs, the I3C target and the EVT pins (R341, R387, R393, R395-R398, R436). -/

namespace Sys2Proof.Machine

/-- R281: the sum of a field over the Scauth ports. -/
def portSum (s : State) (reg : Nat → Nat) (lo n : Nat) : Nat := ((List.range 16).map (fun k => rdf s (reg k) lo n)).sum

/-- R273, R312, R249, R371, R374, R387: resends over all links. -/
def linkResends (s : State) : Nat :=
  rdf s (R.MEM_ARCH_RAS 0) 0 32 + rdf s (R.MEM_ARCH_RAS 1) 0 32 + portSum s R.SCF_PORT_ERR 0 32 + rdf s R.PLK_ERR 0 32

/-- R387: retrainings and link downs. -/
def linkDowns (s : State) : Nat := portSum s R.SCF_PORT_ERR 32 32 + portSum s R.SCF_PORT_STAT 16 16 + rdf s R.PLK_STAT 16 16

/-- R387, R390: the corrected counts of a CE_SUMMARY: both halves' HBM, on-die, resends, retrains and downs. -/
def ceCounts (s : State) : List Nat :=
  [rdf s (R.MEM_RAS_STAT 0) 0 32, rdf s (R.MEM_RAS_STAT 1) 0 32, rdf s R.BBX_SRAM_CE 0 32, linkResends s, linkDowns s]

/-- R387: which of those counts come from a counter that has saturated. -/
def ceSat (s : State) : List Bool :=
  let full (a lo n : Nat) : Bool := rdf s a lo n == 2 ^ n - 1
  [full (R.MEM_RAS_STAT 0) 0 32, full (R.MEM_RAS_STAT 1) 0 32, full R.BBX_SRAM_CE 0 32,
   full (R.MEM_ARCH_RAS 0) 0 32 || full (R.MEM_ARCH_RAS 1) 0 32 || full R.PLK_ERR 0 32 || (List.range 16).any (fun k => full (R.SCF_PORT_ERR k) 0 32),
   full R.PLK_STAT 16 16 || (List.range 16).any (fun k => full (R.SCF_PORT_ERR k) 32 32 || full (R.SCF_PORT_STAT k) 16 16)]

/-- R387: a summary period ends: where a corrected count has risen, one CE_SUMMARY record holds the rises. -/
def execCeSummaryPeriod (s : State) : Out :=
  .next (if s.ltc.toNat < s.ceAt + max 1 (rdf s R.BBX_CFG 0 16) * 1000000000 then s
    else
      let now := ceCounts s
      let rise := (now.zip (List.range 5)).map (fun c => c.1 - nth s.ceBase c.2)
      let s : State := { s with ceAt := s.ltc.toNat, ceBase := now }
      if rise.all (· == 0) then s
      else bbx s false 0x0A 0 0 0 ((rise.zip (ceSat s)).flatMap (fun r => leBytes 4 (if r.2 then 0xFFFFFFFF else min 0xFFFFFFFF r.1))))

/-- R341: the causes that a watch window crosses: 0 memory, 1 link, 2 wear, 3 thermal. -/
def watchCauses (s : State) : List Nat :=
  let ce := rdf s (R.MEM_RAS_STAT 0) 0 32 + rdf s (R.MEM_RAS_STAT 1) 0 32
  let link := portSum s R.SCF_PORT_ERR 32 32 + rdf s R.PLK_STAT 16 16
  let wear := rdf s R.CKP_WATCH 24 2
  let worn := (List.range 2).any (fun b => rdf s (R.DRN_BAY b) 0 1 == 1 && wear + 1 ≤ rdf s (R.DRN_BAY b) 2 3)
  (List.range 4).filter (fun c =>
    if c = 0 then rdf s R.CKP_WATCH 0 16 < ce - nth s.watchBase 0
    else if c = 1 then rdf s R.CKP_WATCH 16 8 < link - nth s.watchBase 1
    else if c = 2 then (wear == 1 || wear == 2) && worn
    else (105 - rdf s R.CKP_WATCH 26 6) * 10 < rdf s R.PWR_THERM 0 16)

/-- R341: one cause of the watch: recorded, logged to every valid partition, and a trigger for those that asked. -/
def watchWarn (s : State) (c : Nat) : State :=
  let s := addSat (wrf s R.CKP_WATCH_STAT c 1 1) R.CKP_WATCH_STAT 32 32 1
  (List.range 8).foldl (fun s p =>
    let s := if partValid s p then logRec s p 0x07 0xFFFF [] (leBytes 1 0x42 ++ leBytes 1 (0x8C + c)) else s
    if (rdf s R.CKP_WATCH 48 8).testBit p && ckpOn s p then setCause s p 2 else s) s

/-- R340, R341: an error-rate watch window ends. -/
def execErrorWatchWindow (s : State) : Out :=
  .next (if s.ltc.toNat < s.watchAt + max 1 (rdf s R.CKP_WATCH 32 16) * 1000000 then s
    else
      let cs := watchCauses s
      let base := [rdf s (R.MEM_RAS_STAT 0) 0 32 + rdf s (R.MEM_RAS_STAT 1) 0 32, portSum s R.SCF_PORT_ERR 32 32 + rdf s R.PLK_STAT 16 16]
      cs.foldl watchWarn { s with watchAt := s.ltc.toNat, watchBase := base })

/-- R393: BBX_CTL.FREEZE. -/
def execBbxCtlFreeze (s : State) : Out := .next (freezeRing s)

/-- R393: BBX_CTL.UNFREEZE. -/
def execBbxCtlUnfreeze (s : State) : Out := .next (wrf s R.BBX_STAT 16 1 0)

/-- R388: eight bytes of the MRAM. -/
def mramWord (s : State) (off : Nat) : Word := BitVec.ofNat 64 (leNat ((List.range 8).map (fun i => sget 0 s.mram (off + i))))

/-- R395: read a data register of the black box: the bytes at its address, which advances and wraps. -/
def mramRead (s : State) (addr : Nat) : State × Word :=
  let off := rdf s addr 3 20 * 8
  (wrf s addr 3 20 (rdf s addr 3 20 + 1), mramWord s off)

/-- R395: a read over Palale Link. -/
def execBbxDataHRead (s : State) : Out :=
  .next (let r := mramRead s R.BBX_ADDR_H
    { r.1 with tx := r.1.tx ++ [.answer R.BBX_DATA_H (leBytes 8 r.2.toNat) true] })

/-- R395: a read over the I3C pair. -/
def execBbxDataIRead (s : State) : Out :=
  .next (let r := mramRead s R.BBX_ADDR_I
    { r.1 with tx := r.1.tx ++ [.i3c (leBytes 8 r.2.toNat)] })

/-- R395, R434: the device answers as an I3C target: outside the interval in which its boot sequencer drives the bus. -/
def i3cTarget (s : State) : Bool := s.imgRead || pwrState s != 1

/-- R395: an 8-byte private write sets the block offset. -/
def execI3cPrivateWrite (bytes : List Byte) (s : State) : Out :=
  .next (if !i3cTarget s || bytes.length != 8 then s else { s with i3cOff := leNat bytes })

/-- R395: a private read returns 8 bytes from the block offset: a register of the BBX block; the data registers advance. -/
def execI3cPrivateRead (s : State) : Out :=
  .next (if !i3cTarget s then s
    else
      let a := R.BBX_STAT + s.i3cOff / 8 * 8
      if a = R.BBX_DATA_I then
        (let r := mramRead s R.BBX_ADDR_I
         { r.1 with tx := r.1.tx ++ [.i3c (leBytes 8 r.2.toNat)] })
      else
        let r : State × Word := if a = R.BBX_DATA_H then mramRead s R.BBX_ADDR_H else (s, if s.i3cOff < 0x10000 then rd s a else 0)
        { r.1 with tx := r.1.tx ++ [.i3c (leBytes 8 r.2.toNat)] })

/-- R397, R398: a refused claim of an EVT pin. -/
def evtRefuse (s : State) (n func : Nat) : State :=
  let s := wr s R.BBX_CFG_ERR (BitVec.ofNat 64 (0x30 + 0xB0 <<< 8 + n <<< 16 + 1 <<< 63))
  conflictFrom s 0xF 1 n (rdf s (R.BBX_EVT n) 2 2) func none (rd s R.BBX_CFG_ERR)

/-- R397: a write of an EVT pin's register with a FUNC: granted to a free pin or to its owner again, released by its owner, otherwise refused. -/
def evtWrite (s : State) (n func : Nat) (v : Word) (i3c : Bool) : State :=
  let w := rd s (R.BBX_EVT n)
  let own := fld w 2 2
  let mine := own != 0 && (fld w 4 1 == 1) == i3c
  if 4 ≤ n || fld v 0 2 != func then s
  else if own = 0 || (mine && (func = own || func = 0)) then
    wr s (R.BBX_EVT n) (BitVec.ofNat 64 (func + func <<< 2 + (if i3c ∧ func ≠ 0 then 1 else 0) <<< 4 + (fld v 8 11) <<< 8))
  else evtRefuse s n func

/-- R397: claim a pin as trigger-in. -/
def execEvtClaimTriggerIn (n : Nat) (v : Word) (i3c : Bool) (s : State) : Out := .next (evtWrite s n 1 v i3c)
/-- R397: claim a pin as freeze-out. -/
def execEvtClaimFreezeOut (n : Nat) (v : Word) (i3c : Bool) (s : State) : Out := .next (evtWrite s n 2 v i3c)
/-- R397: release a pin. -/
def execEvtRelease (n : Nat) (v : Word) (i3c : Bool) (s : State) : Out := .next (evtWrite s n 0 v i3c)

/-- R291, R338, R397, R436: a rising edge on a trigger-in pin adds 1 to its counter. -/
def execEvtTriggerEdge (n : Nat) (s : State) : Out :=
  .next (if n < 4 && rdf s (R.BBX_EVT n) 2 2 == 1 then counterAdd s (rdf s (R.BBX_EVT n) 8 11) 1 else s)

/-- R393, R436: a rising edge from outside on a freeze-out pin that the device is not driving freezes the ring. -/
def execEvtFreezeEdge (n : Nat) (s : State) : Out :=
  .next (if n < 4 && rdf s (R.BBX_EVT n) 2 2 == 2 && !bitw (rd s R.BBX_STAT) 16 then freezeRing s else s)

end Sys2Proof.Machine
end

