-- ==== Sys2Proof/Machine/MemCtl.lean ====
section
/-! DEFINITION. The memory-side dies' own commands (R217, R220-R225, R227-R229, R231, R233, R235, R249): owners, way splits, regulator settings, patrol, remap copies, hot channels and arch-link errors. -/

namespace Sys2Proof.Machine

/-- R221, R378: a refusal of the MEM block. -/
def memRefuse (s : State) (h p : Nat) (owner : Nat) : State :=
  let s := wr s (R.MEM_CFG_ERR h) (BitVec.ofNat 64 (0x30 + p <<< 8 + 1 <<< 63))
  conflict s 0 p owner p (if p < 8 then some p else none) (rd s (R.MEM_CFG_ERR h))

/-- R220, R379: the owner, if any, that keeps an owner from being put in force: its groups or its range overlap, or its groups are being scrubbed; `some 9` when the range lies outside the half. -/
def ownerClash (s : State) (h p : Nat) : Option Nat :=
  let w := rd s (R.MEM_PART_CFG h p)
  let b := fld w 24 10
  let z := fld w 34 10
  if halfGib s h < b + z then some 9
  else ((List.range 9).find? (fun q =>
    let v := rd s (R.MEM_PART_CFG h q)
    q != p && bitw v 63 && ((w &&& v &&& 0xFFFFFF) != 0 || (b < fld v 24 10 + fld v 34 10 && fld v 24 10 < b + z)))).or ((s.scrubs.find? (fun c => (w &&& (if h = 0 then c.west else c.east) &&& 0xFFFFFF) != 0)).map (·.part))

/-- R220: the GiB an owner's groups hold: three for each mapped channel. -/
def ownerGib (s : State) (h p : Nat) : Nat := 3 * (ownerChans s h p).length

/-- R221, R379: the LLM's lines without those of a range, which are discarded. -/
def llmOut (s : State) (lo hi : Nat) : Sparse (Option (Nat × Bool)) :=
  s.llm.filter (fun kv => match kv.2 with | some (l, _) => l * 64 < lo || hi ≤ l * 64 | none => true)

/-- R220, R224, R225: put an owner in force: a new key, undefined contents, and its first window. -/
def enforceOwner (s : State) (h p : Nat) : State :=
  let w := rd s (R.MEM_PART_CFG h p)
  let d := drawBits 64 s
  let s := wr (wrf d.2 (R.MEM_PART_CFG h p) 63 1 1) (R.MEM_PART_KEY h p) d.1
  let base := h * 0x10000000000 + fld w 24 10 * 2 ^ 30
  let s := memUndef s base (base + fld w 34 10 * 2 ^ 30)
  { s with llm := llmOut s base (base + fld w 34 10 * 2 ^ 30), hotAt := sset 0 s.hotAt (h * 9 + p) s.ltc.toNat, chanLines := sclear s.chanLines ((h * 9 + p) * 192) ((h * 9 + p + 1) * 192) }

/-- R220-R222, R367: a write of an owner's MEM_PART_CFG: its groups and base only while it is not valid; VALID = 1 puts it in force with a new key, or is refused. In CONFIDENTIAL a partition leaves only through a release (R377). A partition that comes into being has an empty data chain. -/
def execMemPartCfgValid (h p : Nat) (v : Word) (s : State) : Out :=
  .next (if 2 ≤ h ∨ 9 ≤ p then s
    else if bitw (rd s (R.MEM_PART_CFG h p)) 63 then (if bitw v 63 || (confidential s && p < 8) then s else wrf s (R.MEM_PART_CFG h p) 63 1 0)
    else
      let s := wr s (R.MEM_PART_CFG h p) (BitVec.ofNat 64 (fld v 0 34))
      let s := wrf s (R.MEM_PART_CFG h p) 34 10 (ownerGib s h p)
      if !bitw v 63 then s
      else
        match ownerClash s h p with
        | some q => memRefuse s h p q
        | none =>
          let s := if p < 8 && !bitw (rd s (R.MEM_PART_CFG (1 - h) p)) 63 then (List.range 8).foldl (fun s w => wr s (R.SEC_DCHAIN p w) 0) s else s
          enforceOwner s h p)

/-- R227: the holder of a way of a half; 15 when it is free. -/
def wayOwner (s : State) (h w : Nat) : Nat := rdf s (R.LLM_WAYMAP h) (4 * w) 4
/-- R227: a way is a scratch way. -/
def wayScratch (s : State) (h w : Nat) : Bool := bitw (rd s (R.LLM_WAYKIND h)) w

/-- A mask of ways. -/
def wayMask (ws : List Nat) : Nat := (ws.map (fun w => 2 ^ w)).sum

/-- R227, R231: the cache and scratch ways that an APPLY gives a partition; none when it is refused. -/
def splitFor (s : State) (h p : Nat) (v : Word) : Option (Nat × Nat) :=
  let avail := (List.range 16).filter (fun w => wayOwner s h w == p || wayOwner s h w == 15)
  let n := fld v 0 5
  let k := fld v 5 5
  let split : Option (Nat × Nat) :=
    if bitw v 10 then
      (let c := fld v 16 16
       let m := fld v 32 16
       if (List.range 16).any (fun w => (c.testBit w && m.testBit w) || ((c.testBit w || m.testBit w) && !avail.contains w)) then none else some (c, m))
    else if avail.length < n ∨ n < k then none
    else some (wayMask (avail.drop (avail.length - (n - k))), wayMask (avail.take k))
  match split with
  | none => none
  | some (c, m) =>
    if latencyReg s && (List.range 16).any (fun w => wayOwner s h w == p && wayScratch s h w && !m.testBit w) then none else some (c, m)

/-- R228: where the memory of a scratch way begins. -/
def wayBase (h w : Nat) : Nat := 0x020000000000 + h * 0x40000000 + w * 0x3000000

/-- R226: the place in the LLM of a half for a line, in one way. -/
def llmKey (h line w : Nat) : Nat := (h * 786432 + Config.llmSet line % 786432) * 16 + w

/-- R225, R240: a line crosses a channel of HBM for an owner. -/
def hbmLine (s : State) (h line : Nat) : State :=
  match region (line * 64) with
  | .hbm _ off =>
    let s := addDiv s (R.MEM_UTIL_HBM h) 32 32 1024 1
    (match ownerOf s h off with
     | some p => { s with chanLines := smod 0 s.chanLines ((h * 9 + p) * 192 + (placeAt s h off).1) (· + 1) }
     | none => s)
  | _ => s

/-- R229, R379: a way of a half is emptied: its dirty lines are written back, or (`back` false) dropped. -/
def llmDrop (s : State) (h w : Nat) (back : Bool) : State :=
  let mine (kv : Nat × Option (Nat × Bool)) : Bool := kv.1 / 16 / 786432 == h && kv.1 % 16 == w
  let s := if back then (s.llm.filter mine).foldl (fun s kv => match kv.2 with | some (l, true) => hbmLine s h l | _ => s) s else s
  { s with llm := s.llm.filter (fun kv => !mine kv) }

/-- R229: a joining scratch way reads zero and serves. -/
def wayScratchOn (s : State) (h w : Nat) : State := memClear (wrf s (R.LLM_WAYKIND h) w 1 1) (wayBase h w) (wayBase h w + 0x3000000)

/-- R229: the joining ways of a partition that were free serve. -/
def joinFree (s : State) (h p : Nat) : State :=
  match sget none s.llmPend (h * 8 + p) with
  | none => s
  | some (c, m, f, g) =>
    let s := (List.range 16).foldl (fun s w => if f.testBit w && m.testBit w then wayScratchOn s h w else s) s
    { s with llmPend := sset none s.llmPend (h * 8 + p) (some (c, m, 0, g)) }

/-- R227, R229: a write of LLM_PART_CFG: with APPLY a new split starts, or is refused. The scratch ways that leave are cleared and accesses to them end as for a way not held; the cache ways that leave are written back; the ways taken from the free ones lose the pool's lines and serve once the partition's requests in flight are done. -/
def execLlmPartCfgApply (h p : Nat) (v : Word) (s : State) : Out :=
  .next (if 2 ≤ h ∨ 8 ≤ p ∨ rdf s (R.LLM_PART_CFG h p) 62 1 = 1 then s
    else
      let s := regPut s (R.LLM_PART_CFG h p) v
      if !bitw v 63 then s
      else
        match splitFor s h p v with
        | none =>
          let s := wr s (R.LLM_CFG_ERR h) (BitVec.ofNat 64 (0x30 + p <<< 8 + 1 <<< 63))
          conflict s 0 p p p (some p) (rd s (R.LLM_CFG_ERR h))
        | some (c, m) =>
          let joins := fun w : Nat => c.testBit w || m.testBit w
          let free := wayMask ((List.range 16).filter (fun w => joins w && wayOwner s h w == 15))
          let chg := wayMask ((List.range 16).filter (fun w => wayOwner s h w == p && (if wayScratch s h w then c.testBit w else m.testBit w)))
          let s : State := { wrf s (R.LLM_PART_CFG h p) 62 1 1 with llmPend := sset none s.llmPend (h * 8 + p) (some (c, m, free, chg)) }
          let s := (List.range 16).foldl (fun s w =>
            let own := wayOwner s h w == p
            let s := if own && wayScratch s h w && !m.testBit w then memClear (wrf s (R.LLM_WAYKIND h) w 1 0) (wayBase h w) (wayBase h w + 0x3000000)
              else if (own && !wayScratch s h w && !c.testBit w) || free.testBit w then llmDrop s h w true
              else s
            if joins w then wrf s (R.LLM_WAYMAP h) (4 * w) 4 p else s) s
          let g := sget rgl0 s.rgl (h * 9 + p)
          if g.rq.isEmpty && g.wq.isEmpty then joinFree s h p else s)

/-- R229: the split is in force: every joining way serves, leaving ways are free, and PENDING clears. -/
def execLlmSplitDone (h p : Nat) (s : State) : Out :=
  .next (if !issuing s then s
    else
      match sget none s.llmPend (h * 8 + p) with
      | none => s
      | some (c, m, _, g) =>
        let s := joinFree s h p
        let s : State := { s with llmPend := sset none s.llmPend (h * 8 + p) none }
        let s := (List.range 16).foldl (fun s w =>
          if wayOwner s h w ≠ p then s
          else if g.testBit w && m.testBit w then wayScratchOn s h w
          else if c.testBit w || m.testBit w then s
          else wrf s (R.LLM_WAYMAP h) (4 * w) 4 15) s
        wrf s (R.LLM_PART_CFG h p) 62 1 0)

/-- R233: a write of a regulator's settings: applied, or ignored when the floors of the half would sum to too much or a floor lies above its ceiling. -/
def execRglPartWrite (h p : Nat) (v : Word) (s : State) : Out :=
  .next (if 2 ≤ h ∨ 8 ≤ p then s
    else
      let sum (lo : Nat) : Nat := ((List.range 8).map (fun q => if q = p then fld v lo 14 else rdf s (R.RGL_PART h q) lo 14)).sum
      let above (f c : Nat) : Bool := fld v c 14 != 0 && fld v c 14 < fld v f 14
      if 8000 < sum 0 ∨ 4000 < sum 32 ∨ above 0 16 = true ∨ above 32 48 = true then wr s (R.RGL_STAT h) (BitVec.ofNat 64 (1 + p <<< 1))
      else regPut s (R.RGL_PART h p) v)

/-- R217: a period of the patrol scrub, in ns. -/
def patrolNs (s : State) (h : Nat) : Nat := max 1 (rdf s (R.MEM_RAS_CFG h) 8 8) * 3600000000000

/-- R217: the patrol's line is read: the lines of a half come in rising order (log 30), and after the last of them the next period begins when this one has passed. -/
def patrolNext (s : State) (h : Nat) : State :=
  let p := sget (0, 0) s.patrol h
  let p' := if p.2 + 1 < halfGib s h * 16777216 then (p.1, p.2 + 1) else (p.1 + patrolNs s h, 0)
  { s with patrol := sset (0, 0) s.patrol h p' }

/-- R216, R217, R234-R236: the patrol scrub reads its next line, of which `syms` symbols have failed. Beyond two the device promises nothing: a free choice of noticing it as an uncorrectable error, or leaving undefined contents, with or without a correction counted. -/
def execPatrolScrubRead (line syms : Nat) (s : State) : Out :=
  .next (match region (line * 64) with
    | .hbm h off =>
      let due := sget (0, 0) s.patrol h
      if !issuing s || halfGib s h * 2 ^ 30 < off + 64 || off / 64 ≠ due.2 || s.ltc.toNat < due.1 then s
      else
        let s := patrolNext s h
        if s.poison.contains line then s
        else if syms ≤ 2 then readLine { s with symErr := sset 0 s.symErr line syms } line
        else
          let d := drawNat s
          if d.1 % 3 = 0 then readLine { d.2 with symErr := sset 0 d.2.symErr line 2 } line
          else
            let s := memUndef d.2 (line * 64) (line * 64 + 64)
            if d.1 % 3 = 1 then s else readLine { s with symErr := sset 0 s.symErr line 1 } line
    | _ => s)

/-- R28, R235: the copy of a remapped row ends: accesses that were held are served from the spare. -/
def execRemapCopyDone (h i : Nat) (s : State) : Out :=
  .next (if 2 ≤ h || 8192 ≤ i || !issuing s then s
    else
      let w := rd s (R.MEM_REMAP h i)
      if !bitw w 63 then s
      else
        let id := (h * 192 + fld w 0 8) * 2 ^ 22 + fld w 8 5 + fld w 16 17 * 32
        ckpPump { s with rowHeld := s.rowHeld.filter (· ≠ id) })

/-- R225: a window of WINDOW_US of an owner ends: the lines that each of its channels has carried in it are compared, those of agents without commands (`counts`, log 31) among them, and the next window begins. -/
def execHotChannelWindowEnd (h p : Nat) (counts : List Nat) (s : State) : Out :=
  .next (let len := max 1 (rdf s (R.MEM_HOT_CFG h) 16 16) * 1000
    let at_ := sget 0 s.hotAt (h * 9 + p)
    if 2 ≤ h || 9 ≤ p || !issuing s || !bitw (rd s (R.MEM_PART_CFG h p)) 63 || s.ltc.toNat < at_ + len then s
    else
      let chans := ownerChans s h p
      let count := fun c => sget 0 s.chanLines ((h * 9 + p) * 192 + c) + nth counts c
      let sum := (chans.map count).sum
      let hot := chans.foldl (fun b c => if count b < count c then c else b) (chans.headD 0)
      let top := count hot
      let ratio := max 2 (rdf s (R.MEM_HOT_CFG h) 0 4)
      let s : State := { s with hotAt := sset 0 s.hotAt (h * 9 + p) (at_ + len), chanLines := sclear s.chanLines ((h * 9 + p) * 192) ((h * 9 + p + 1) * 192) }
      if sum = 0 ∨ top * chans.length ≤ ratio * sum then s
      else
        let r := min 255 (top * chans.length / sum)
        let w := hot + p <<< 8 + r <<< 16 + 1 <<< 63
        let s := if bitw (rd s (R.MEM_HOT h)) 63 then addSat s (R.MEM_HOT h) 32 16 1 else wr s (R.MEM_HOT h) (BitVec.ofNat 64 w)
        if p < 8 then logRec s p 0x02 0xFFFF [] (leBytes 8 w) else s)

/-- R249: a transfer on a half's arch link fails its CRC after `resends` resends: it is resent and counted, or after 8 the error is fatal. -/
def execArchLinkCrcFail (h resends : Nat) (s : State) : Out :=
  .next (if 2 ≤ h then s
    else if resends < 8 then addSat s (R.MEM_ARCH_RAS h) 0 32 1
    else fatal s 2 (1 + h) h)

end Sys2Proof.Machine
end

