-- ==== Sys2Proof/Machine/Security.lean ====
section
/-! DEFINITION. The security engine (R360-R382): reports, admission, key slots, measurement, release and scrub. -/

namespace Sys2Proof.Machine

/-- R381: a refusal of the SEC block. -/
def secErr (s : State) (st sub : Nat) : State := wr s R.SEC_CFG_ERR (BitVec.ofNat 64 (st + sub <<< 8 + 1 <<< 63))

/-- The little-endian bytes of registers at rising addresses. -/
def regBytes (s : State) (a n : Nat) : List Byte := (List.range n).flatMap (fun w => leBytes 8 (rd s (a + 8 * w)).toNat)

/-- Write 64 bytes to eight registers. -/
def putDigest (s : State) (a : Nat) (d : BitVec 512) : State :=
  (List.range 8).foldl (fun s w => wr s (a + 8 * w) (BitVec.ofNat 64 (nfld d.toNat (64 * w) 64))) s

/-- R421: the regime word. -/
def regimeWord (s : State) : Nat := fld (rd s R.PWR_REGIME) 0 62

/-- R369: the ways of a kind that a partition holds in a half. -/
def partWays (s : State) (h p : Nat) (scratch : Bool) : Nat :=
  wayMask ((List.range 16).filter (fun w => wayOwner s h w == p && wayScratch s h w == scratch))

/-- R369: a partition's entry of the report. -/
def partEntry (s : State) (p : Nat) : List Byte :=
  let cs := ctxsOf s p
  leBytes 1 (if partValid s p then 1 else 0) ++ leBytes 1 cs.length ++ leBytes 2 (rdf s (R.SCF_DOMAIN p) 0 16)
    ++ leBytes 4 (rdf s (R.MEM_PART_CFG 0 p) 0 24) ++ leBytes 4 (rdf s (R.MEM_PART_CFG 1 p) 0 24)
    ++ leBytes 2 (partWays s 0 p false) ++ leBytes 2 (partWays s 0 p true) ++ leBytes 2 (partWays s 1 p false) ++ leBytes 2 (partWays s 1 p true)
    ++ leBytes 2 (rdf s (R.MEM_PART_CFG 0 p) 24 10) ++ leBytes 2 (rdf s (R.MEM_PART_CFG 1 p) 24 10) ++ leBytes 8 ((cs.map (fun c => 2 ^ c)).sum)

/-- R369: the report over the current state, for an ephemeral private key. -/
def buildReport (s : State) (eph : BitVec 256) : List Byte :=
  let certs := Config.certs.take 2048
  let n := 5288 + cdiv certs.length 8 * 8 + 64
  let ident := Config.identitySeed.toNat
  let mid := leBytes 32 (edPub s.attest).toNat ++ leBytes 8 (rd s R.SEC_BOOTCOUNT).toNat ++ leBytes 8 (rd s R.PKG_ID).toNat
  let st := rd s R.SEC_STAT
  let debug := fld st 3 1 + (if Config.lockFused then 2 else 0) + (if s.debugUsed then 4 else 0)
  let body := leBytes 4 1 ++ leBytes 4 n ++ leBytes 8 s.ltc.toNat ++ regBytes s (R.SEC_NONCE 0) 8
    ++ leBytes 32 (edPub ident).toNat ++ mid ++ leBytes 64 (edSign ident mid).toNat
    ++ leBytes 1 (fld st 8 6) ++ leBytes 1 (fld st 16 6) ++ leBytes 1 (fld st 6 1) ++ leBytes 1 debug ++ leBytes 4 0
    ++ leBytes 8 (regimeWord s) ++ leBytes 64 Config.romDigest.toNat ++ leBytes 64 s.imgDigest.toNat
    ++ leBytes 32 (x25519 eph 9).toNat
    ++ leBytes 8 (((List.range 64).filter (ctxValid s)).map (fun c => 2 ^ c)).sum ++ leBytes 8 0
    ++ (List.range 8).flatMap (partEntry s) ++ regBytes s (R.SEC_DCHAIN 0 0) 64
    ++ (List.range 64).flatMap (fun c => if ctxValid s c then regBytes s (R.SEC_PCHAIN c 0) 8 else List.replicate 64 0)
    ++ leBytes 4 certs.length ++ leBytes 4 0 ++ padTo (cdiv certs.length 8 * 8) certs
  body ++ leBytes 64 (edSign s.attest body).toNat

/-- R368: SEC_CMD.REPORT: a fresh ephemeral key, the report over the current state, written through to host memory. -/
def execSecCmdReport (s : State) : Out :=
  .next (let d := drawBits 256 s
    let r := buildReport d.2 d.1
    let s : State := { d.2 with eph := some d.1, report := r, tx := d.2.tx ++ [.host (rdf s R.SEC_RADDR 6 46 * 64) r] }
    wrf s R.SEC_STAT 2 1 1)

/-- R370: the keys that a shared secret gives: HKDF-SHA-512 with the digest of the whole report as salt. -/
def sessionKeys (s : State) (z : BitVec 256) : SessionKeys :=
  let prk := hkdfExtract (sha512Bytes s.report) (leBytes 32 z.toNat)
  ⟨hkdfKey prk (asciiBytes "T9 plk d2h"), hkdfKey prk (asciiBytes "T9 plk h2d"), hkdfKey prk (asciiBytes "T9 wrap")⟩

/-- R370: SEC_CMD.ADMIT: the shared secret with the host's key; an all-zero one is refused. Without a report there is no key to admit. -/
def execSecCmdAdmit (s : State) : Out :=
  .next (match s.eph with
    | none => s
    | some k =>
      let z := x25519 k (BitVec.ofNat 256 (leNat (regBytes s (R.SEC_PEER 0) 4)))
      if z = 0 then secErr s 0x11 0xA5
      else { s with eph := none, admitting := some (sessionKeys s z) })

/-- R371: the device has answered what came before the ADMIT: KEYSWITCH leaves on both ports, and the session is in force. -/
def execKeyswitch (s : State) : Out :=
  .next (match s.admitting with
    | none => s
    | some k =>
      let s := wrf { s with session := some k, admitting := none, tx := s.tx ++ [.keyswitch, .keyswitch] } R.SEC_STAT 1 1 1
      bbx s false 0x09 0 0 0 (leBytes 1 6))

/-- R371: SEC_CMD.ENDSESSION: the session's keys are erased; slot keys are kept. -/
def execSecCmdEndsession (s : State) : Out :=
  .next (wrf { s with session := none, admitting := none } R.SEC_STAT 1 1 0)

/-- R372, R381: the key that a slot's words unwrap to under the wrap key, of 64 bytes for KIND 2 and of 32 for the others; none when the tag fails. -/
def unwrapSlot (s : State) (wrap : BitVec 256) (k kind part : Nat) : Option Nat :=
  let n := if kind = 2 then 64 else 32
  (gcmOpen (leBytes 32 wrap.toNat) ((regBytes s (R.SEC_KSLOT k 1) 2).take 12) (Config.wrapAad kind part k)
    ((regBytes s (R.SEC_KSLOT k 3) 8).take n) (regBytes s (R.SEC_KSLOT k 11) 2)).map leNat

/-- R372: forget a slot's key. -/
def dropSlot (s : State) (k : Nat) : State :=
  let s : State := { s with slotKeys := sset 0 s.slotKeys k 0 }
  let s := (List.range 3).foldl (fun s w => wr s (R.SEC_KSLOT k (13 + w)) 0) s
  wrf s (R.SEC_KSLOT k 0) 63 1 0

/-- R372: a write of a slot's control word with LOAD: the key is unwrapped, or the slot stays invalid. A partition keeps one valid slot of each kind: the newest. -/
def execSecKslotLoad (k : Nat) (v : Word) (s : State) : Out :=
  .next (if 32 ≤ k ∨ bitw v 62 = false then s
    else
      let s := wrf (wr (dropSlot s k) (R.SEC_KSLOT k 0) (v &&& 0x73)) (R.SEC_KSLOT k 0) 63 1 0
      let kind := fld v 0 2
      let part := fld v 4 3
      match s.session with
      | none => secErr s 0x11 0xA2
      | some z =>
        if rdf s R.SEC_STAT 1 1 = 0 then secErr s 0x11 0xA2
        else
          match (if kind = 0 then none else unwrapSlot s z.wrap k kind part) with
          | none => secErr s 0x11 0xA1
          | some n =>
            let s := match keySlot s part kind with
              | some o => dropSlot s o
              | none => s
            let s := wrf { s with slotKeys := sset 0 s.slotKeys k n } (R.SEC_KSLOT k 0) 63 1 1
            if kind = 3 then
              (let pub := (edPub n).toNat
               wr (wr s (R.SEC_KSLOT k 13) (BitVec.ofNat 64 (nfld pub 0 64))) (R.SEC_KSLOT k 14) (BitVec.ofNat 64 (nfld pub 64 64)))
            else s)

/-- R365, R366, R382: a write of word 1 of a measurement entry with GO: the range is read-only from now on, and is hashed. The fields of an entry that is VALID stay as they are. -/
def execSecMeasGo (h i : Nat) (v : Word) (s : State) : Out :=
  .next (if 2 ≤ h || 128 ≤ i || !bitw v 63 || s.hashing.contains (h, i) then s
    else
      let s := if bitw (rd s (R.SEC_MEAS h i 0)) 63 then s else wr s (R.SEC_MEAS h i 1) (BitVec.ofNat 64 (fld v 0 43))
      let w0 := rd s (R.SEC_MEAS h i 0)
      let w1 := rd s (R.SEC_MEAS h i 1)
      let kind := fld w1 41 2
      let head := leBytes 8 (fld w0 12 36 * 4096) ++ leBytes 4 (fld w1 0 32) ++ leBytes 1 kind
        ++ leBytes 1 (if kind = 0 then fld w1 32 6 else 0xFF) ++ leBytes 1 (fld w1 38 3) ++ leBytes 1 h
      { wrf s (R.SEC_MEAS h i 0) 61 1 0 with
          hashing := s.hashing ++ [(h, i)],
          chainQ := s.chainQ ++ [⟨h, i, kind, fld w1 32 6, fld w1 38 3, head, none⟩] })

/-- R365: the range digest: SHA-512 over the digests of the 1 MiB leaves. -/
def rangeDigest (s : State) (base len : Nat) : BitVec 512 :=
  sha512 ((List.range (cdiv len 0x100000)).flatMap (fun k =>
    leBytes 64 (sha512 (memGet s (base + k * 0x100000) (min 0x100000 (len - k * 0x100000)))).toNat))

/-- R367: extend a chain, of a context or of a partition, with a record. -/
def extendChain (s : State) (e : MeasExt) (dig : BitVec 512) : State :=
  let a := if e.kind = 0 then R.SEC_PCHAIN e.ctx 0 else R.SEC_DCHAIN e.part 0
  if e.kind = 3 then s
  else putDigest s a (sha512 (regBytes s a 8 ++ e.head ++ leBytes 64 dig.toNat))

/-- R367: extensions are made in GO order, as far as the digests are there. -/
def extendAll : Nat → State → State
  | 0, s => s
  | fuel + 1, s =>
    match s.chainQ with
    | [] => s
    | e :: r =>
      match e.dig with
      | none => s
      | some d => extendAll fuel (extendChain { s with chainQ := r } e d)

/-- R365, R367: the hash of an entry's range ends. -/
def execMeasurementDone (h i : Nat) (s : State) : Out :=
  .next (if !s.hashing.contains (h, i) then s
    else
      let d := rangeDigest s (rdf s (R.SEC_MEAS h i 0) 12 36 * 4096) (rdf s (R.SEC_MEAS h i 1) 0 32 * 4096)
      let s := wrf (putDigest s (R.SEC_MEAS h i 2) d) (R.SEC_MEAS h i 0) 61 1 1
      let s : State := { s with hashing := s.hashing.filter (· ≠ (h, i)),
                                chainQ := s.chainQ.map (fun e => if e.h = h ∧ e.i = i ∧ e.dig = none then { e with dig := some d } else e) }
      extendAll s.chainQ.length s)

/-- R366: a write that would clear VALID or LOCK of a measurement entry in use: refused in CONFIDENTIAL while its partition is valid. -/
def measClear (s : State) (h i : Nat) (v : Word) : State :=
  let w := rd s (R.SEC_MEAS h i 0)
  let part := rdf s (R.SEC_MEAS h i 1) 38 3
  let clears := (bitw w 63 && !bitw v 63) || (bitw w 62 && !bitw v 62)
  if !clears then s
  else if confidential s && partValid s part then
    (let s := secErr s 0x30 0xA4
     conflict s 0 i part part (some part) (rd s R.SEC_CFG_ERR))
  else wr s (R.SEC_MEAS h i 0) (w &&& (v ||| 0x3FFFFFFFFFFFFFFF))

/-- R382: a write of word 0 of a measurement entry. -/
def measWrite0 (s : State) (h i : Nat) (v : Word) : State :=
  let w := rd s (R.SEC_MEAS h i 0)
  if bitw w 63 || (bitw w 62 && !bitw v 62 && confidential s && partValid s (rdf s (R.SEC_MEAS h i 1) 38 3)) || s.hashing.contains (h, i) then measClear s h i v
  else regPut s (R.SEC_MEAS h i 0) v

/-- R376, R379: the N-clusters of a half that only the core sets of a partition's contexts name. -/
def partNClusters (s : State) (p h : Nat) : List Nat :=
  (List.range 9).filter (fun j =>
    (List.range (nCores s)).any (fun k => nCluster s h k == j && (List.range 64).any (fun c => partOf s c == p && (List.range 4).any (fun g => csetHas s c g false (h * nCores s + k))))
      && (match nClusterPart s h j with | some q => q == p | none => true))

/-- R379: every on-die memory of a partition's clusters is cleared. -/
def clearClusters (s : State) (p : Nat) : State :=
  (List.range 2).foldl (fun s h => (partNClusters s p h).foldl (fun s j =>
    let m := 0x0200A0000000 + h * 0x8000000 + j * 0x800000
    let s := memClear s m (m + 0x800000)
    ((List.range (nCores s)).filter (fun k => nCluster s h k == j)).foldl (fun s k => memClear s (storeBase h k) (storeBase h k + 0x200000)) s) s) s

/-- R379: the LLM's lines of a partition are discarded and its ways cleared, whatever they hold. -/
def clearWays (s : State) (p : Nat) (sc : Scrub) : State :=
  (List.range 2).foldl (fun s h =>
    let w := if h = 0 then sc.west else sc.east
    let s : State := { s with llm := llmOut s (h * 0x10000000000 + fld w 24 10 * 2 ^ 30) (h * 0x10000000000 + (fld w 24 10 + fld w 34 10) * 2 ^ 30) }
    (List.range 16).foldl (fun s w => if wayOwner s h w = p then memClear (llmDrop s h w false) (wayBase h w) (wayBase h w + 0x3000000) else s) s) s

/-- R378, R379: a write of SEC_RELEASE with GO: refused while the partition is in use or busy; otherwise it leaves the fabric and its memory, and its scrub starts. -/
def execSecReleaseGo (v : Word) (s : State) : Out :=
  .next (let p := fld v 0 3
    let ph := ckpPhase s p
    let refuse (sub : Nat) : State :=
      let s := secErr s 0x30 sub
      conflict s 0 p p p (some p) (rd s R.SEC_CFG_ERR)
    if !bitw v 63 then s
    else if !(ctxsOf s p).isEmpty then refuse 0xA4
    else if (1 ≤ ph && ph ≤ 3) || ph == 6 || bitw (rd s R.SEC_SCRUB) p then refuse 0xA3
    else
      let s := if (ckpOf s p).drain.isSome then stopDrain s p 0 0 else s
      let held (h : Nat) : Word := if bitw (rd s (R.MEM_PART_CFG h p)) 63 then rd s (R.MEM_PART_CFG h p) else 0
      let sc : Scrub := ⟨p, s.ltc.toNat, held 0, held 1⟩
      let s := bbx s false 0x09 0 0 0 (leBytes 1 3 ++ leBytes 1 p ++ leBytes 2 0 ++ leBytes 4 (rdf s R.SEC_SCRUB 32 32))
      let s := wrf (wrf (wrf s (R.SCF_DOMAIN p) 63 1 0) (R.MEM_PART_CFG 0 p) 63 1 0) (R.MEM_PART_CFG 1 p) 63 1 0
      let s := wrf (clearWays (clearClusters s p) p sc) R.SEC_SCRUB p 1 1
      { s with scrubs := s.scrubs ++ [sc] })

/-- R379: a register belongs to a partition and returns to its reset value at its release. -/
def scrubReg (s : State) (p a : Nat) : Bool :=
  let within (lo hi : Nat) : Bool := lo ≤ a && a < hi
  if within (R.LLM_PART_CFG 0 0) (R.LLM_PART_CFG 0 8) || within (R.LLM_PART_CFG 1 0) (R.LLM_PART_CFG 1 8) then
    a == R.LLM_PART_CFG 0 p || a == R.LLM_PART_CFG 1 p
  else if within (R.RGL_PART 0 0) (R.RGL_PART 0 8) || within (R.RGL_PART 1 0) (R.RGL_PART 1 8) then
    a == R.RGL_PART 0 p || a == R.RGL_PART 1 p
  else if within (R.CKP_CFG 0) R.CKP_STAGE then within (R.CKP_CFG p) (R.CKP_CFG (p + 1)) || within (R.CKP_REGION p 0 0) (R.CKP_REGION (p + 1) 0 0)
  else if within (R.DSP_CTX_NUM_SAT 0) (R.DSP_CTX_NUM_SAT 64) then partOf s ((nsub a (R.DSP_CTX_NUM_SAT 0)) / 0x40) == p
  else if within (R.DSP_CTX_RNG_KEY 0 0) (R.DSP_CTX_RNG_KEY 64 0) then partOf s ((nsub a (R.DSP_CTX_RNG_KEY 0 0)) / 0x80) == p
  else if within (R.COL_GROUP 0) (R.COL_GROUP 1024) then rdf s (R.COL_GROUP ((nsub a (R.COL_GROUP 0)) / 16)) 44 3 == p
  else if within (R.COL_TRIG 0 0) (R.COL_TRIG 8192 0) then partOf s (rdf s (R.COL_TRIG ((nsub a (R.COL_TRIG 0 0)) / 64) 0) 2 6) == p
  else if within (R.WIN_ENTRY0 0) (R.WIN_ENTRY0 2097152) then rdf s (R.WIN_ENTRY0 ((nsub a (R.WIN_ENTRY0 0)) / 16)) 4 3 == p
  else if within (R.SEC_MEAS 0 0 0) (R.SEC_MEAS 0 128 0) then rdf s (R.SEC_MEAS 0 ((nsub a (R.SEC_MEAS 0 0 0)) / 128) 1) 38 3 == p
  else if within (R.SEC_MEAS 1 0 0) (R.SEC_MEAS 1 128 0) then rdf s (R.SEC_MEAS 1 ((nsub a (R.SEC_MEAS 1 0 0)) / 128) 1) 38 3 == p
  else if within (R.SEC_DCHAIN 0 0) (R.SEC_DCHAIN 8 0) then within (R.SEC_DCHAIN p 0) (R.SEC_DCHAIN (p + 1) 0)
  else within (R.SEC_PCHAIN 0 0) (R.SEC_PCHAIN 64 0) && partOf s ((nsub a (R.SEC_PCHAIN 0 0)) / 0x40) == p

/-- R380: how long a scrub takes, in ns. -/
def scrubNs (s : State) : Nat := if rdf s R.PWR_REGIME 0 2 = 2 then 67108864 else 53687091

/-- R379, R380: a scrub ends: the partition's memory is zero, its registers are at reset, its keys and chains are gone, and its groups and ways are free. -/
def execScrubDone (p : Nat) (s : State) : Out :=
  .next (match s.scrubs.find? (fun c => c.part == p) with
    | none => s
    | some sc =>
      if s.ltc.toNat < sc.start + scrubNs s then s
      else
        let range (s : State) (h : Nat) (w : Word) : State :=
          memClear s (h * 0x10000000000 + fld w 24 10 * 2 ^ 30) (h * 0x10000000000 + (fld w 24 10 + fld w 34 10) * 2 ^ 30)
        let s := range (range s 0 sc.west) 1 sc.east
        let s := (List.range 2).foldl (fun s h => (List.range 16).foldl (fun s w =>
          if wayOwner s h w = p then wrf (wrf (memClear (llmDrop s h w false) (wayBase h w) (wayBase h w + 0x3000000)) (R.LLM_WAYMAP h) (4 * w) 4 15) (R.LLM_WAYKIND h) w 1 0 else s) s) s
        let s : State := { regsReset s (scrubReg s p) with
          scrubs := s.scrubs.filter (· ≠ sc), llmPend := sset none (sset none s.llmPend p none) (8 + p) none }
        let s := ((List.range 32).filter (fun k => rdf s (R.SEC_KSLOT k 0) 4 3 == p && bitw (rd s (R.SEC_KSLOT k 0)) 63)).foldl dropSlot s
        let s := setCkp s p ckp0
        let s := wrf (wrf (wrf s R.SEC_SCRUB p 1 0) R.SEC_SCRUB (8 + p) 1 1) R.SEC_SCRUB 32 32 (scrubNs s / 1000)
        bbx s false 0x09 0 0 0 (leBytes 1 4 ++ leBytes 1 p ++ leBytes 2 0 ++ leBytes 4 (scrubNs s / 1000)))

end Sys2Proof.Machine
end

