-- ==== Sys2Proof/Machine/Startup.lean ====
section
/-! DEFINITION. Start-up and resets (R237, R238, R362-R364, R391, R394, R415-R419, R434): what a reset keeps, the black box's rebuild, and the ten stages as commands. -/

namespace Sys2Proof.Machine

/-- The numbers of a rising list, each once. -/
def squeeze : List Nat → List Nat
  | [] => []
  | [x] => [x]
  | x :: y :: r => if x = y then squeeze (y :: r) else x :: squeeze (y :: r)

/-- R389, R391: the valid records of the black box, by MRAM order. -/
def bbxValid (s : State) : List (List Byte) :=
  ((squeeze (s.mram.map (fun kv => kv.1 / 64))).map (fun i => (List.range 64).map (fun k => sget 0 s.mram (64 * i + k)))).filter
    (fun r => crc32c (r.take 60) == leNat (r.drop 60))

/-- R389: a record's SEQ. -/
def bbxSeqOf (r : List Byte) : Nat := leNat (r.take 8)
/-- R389: a field of a record's payload. -/
def payF (r : List Byte) (i n : Nat) : Nat := leNat ((r.drop (32 + i)).take n)

/-- Put a record into a list that rises by SEQ. -/
def insSeq (r : List Byte) : List (List Byte) → List (List Byte)
  | [] => [r]
  | q :: t => if bbxSeqOf r < bbxSeqOf q then r :: q :: t else q :: insSeq r t

/-- R391: apply one record to the remap, retirement and map-out state. -/
def rebuildOne (s : State) (r : List Byte) : State :=
  let ty := leNat ((r.drop 24).take 1)
  let h := payF r 0 1
  let c := payF r 1 1
  if 2 ≤ h then s
  else if ty = 0x05 then
    (let w := c + payF r 2 1 <<< 8 + payF r 3 1 <<< 9 + payF r 4 4 <<< 16 + payF r 8 1 <<< 33 + payF r 9 1 <<< 40 + 1 <<< 63
     let s := wr s (R.MEM_REMAP h (payF r 10 2)) (BitVec.ofNat 64 w)
     { s with sparesUsed := smod 0 s.sparesUsed (h * 192 + c) (fun n => max n (payF r 8 1 + 1)) })
  else if ty = 0x06 then
    (let n := rdf s (R.MEM_RETIRE_STAT h) 0 13
     let s := if n < 4096 then
         wrf (wr s (R.MEM_RETIRE h n) (BitVec.ofNat 64 (payF r 8 8 + c <<< 48 + 1 <<< 63))) (R.MEM_RETIRE_STAT h) 0 13 (n + 1)
       else s
     let s := if 4095 ≤ n then wrf s (R.MEM_RETIRE_STAT h) 13 1 1 else s
     addSat s (R.MEM_CH_STAT h c) 8 7 1)
  else if ty = 0x07 then wrf s (R.MEM_CH_STAT h c) 15 1 1
  else s

/-- R238, R391: the remap table, the retirements and the map-outs from the records, oldest first. -/
def rebuild (s : State) : State :=
  let s := ((bbxValid s).foldl (fun l r => insSeq r l) []).foldl rebuildOne s
  let s := s.sparesUsed.foldl (fun s kv => wrf s (R.MEM_CH_STAT (kv.1 / 192) (kv.1 % 192)) 0 6 (48 - kv.2)) s
  (List.range 2).foldl (fun s h =>
    wrf s (R.MEM_RAS_STAT h) 48 14 ((s.regs.filter (fun kv => R.MEM_REMAP h 0 ≤ kv.1 && kv.1 < R.MEM_REMAP h 8192 && bitw kv.2 63)).length)) s

/-- R418: what a reset keeps outside register space: the black box, the modules in their bays, and over a warm reset the LTC, the clock's reference and the test port's marks. -/
def bare (s : State) (warm : Bool) : State :=
  { State.reset with
      pending := s.pending, tx := s.tx, free := s.free, nextId := s.nextId, mram := s.mram, ringCount := s.ringCount,
      bays := s.bays.map (fun kv => (kv.1, { kv.2 with ready := false })), refOk := s.refOk, pwrgood := warm && s.pwrgood,
      ltc := if warm then s.ltc else 0, debugUsed := warm && s.debugUsed, tapIr := if warm then s.tapIr else .bypass,
      hotAt := if warm then sset 0 (sset 0 [] 8 s.ltc.toNat) 17 s.ltc.toNat else [],
      patrol := if warm then sset (0, 0) (sset (0, 0) [] 0 (s.ltc.toNat, 0)) 1 (s.ltc.toNat, 0) else [],
      faultN := !warm || s.faultN, startAt := if warm then s.ltc.toNat + 10000000 else 0, beganAt := if warm then s.ltc.toNat else 0 }

/-- R418: the package after a reset, at the start of stage 1 (`warm` false) or 2: what is kept is the black box with its freeze and counts, the fuses (grade, stepping and enabled cores among them, R2), the modules in their bays, and over a warm reset the LTC, REF_LOST, the clock's reference and the test port's marks. -/
def reborn (s : State) (warm : Bool) : State :=
  let z := bare s warm
  let z := wr z R.BBX_STAT (BitVec.ofNat 64 (rdf s R.BBX_STAT 0 17))
  let z := wr (wr z R.BBX_RING (rd s R.BBX_RING)) R.BBX_SEQ (rd s R.BBX_SEQ)
  let z := wrf (wr z R.SEC_BOOTCOUNT (rd s R.SEC_BOOTCOUNT)) R.SEC_STAT 8 6 (rdf s R.SEC_STAT 8 6)
  let z := (List.range 2).foldl (fun z b => if (bayOf s b).mod.isSome then wrf z (R.DRN_BAY b) 0 1 1 else z) z
  let z := wrf (wr z R.PKG_ID (rd s R.PKG_ID)) R.PKG_LAYOUT 0 16 (rdf s R.PKG_LAYOUT 0 16)
  let z := wr (wr z R.PKG_NCL_W (rd s R.PKG_NCL_W)) R.PKG_NCL_E (rd s R.PKG_NCL_E)
  let z := wrf (wrf z R.CLK_STATUS 2 1 (if warm then rdf s R.CLK_STATUS 2 1 else 0)) R.CLK_STATUS 4 1 (if s.refOk then 0 else 1)
  rebuild (if warm then wrf z R.PWR_STAT 4 4 2 else z)

/-- R394: the input has failed and has not returned: the MRAM is write-protected. -/
def unpowered (s : State) : Bool := s.mramLocked

/-- R415: input rises through 40 V: start-up begins at stage 1. -/
def execPowerOn (s : State) : Out := .next (if unpowered s then reborn s false else s)

/-- R30, R364, R394, R420, R431: PWRGOOD falls (0) or the input falls below 39 V (1): the record of the loss, and the MRAM is protected; everything else stops, the root PLL too. The always-on domain holds up, so the LTC goes on (log 3). A burn of the security version that is cut short leaves the count anywhere between its old and its new value. -/
def execPowerLoss (cause : Nat) (s : State) : Out :=
  .next (if unpowered s ∨ 2 ≤ cause then s
    else
      let cut := issuing s
      let s := bbx s false 0x0D 0 0 0 (leBytes 1 cause ++ leBytes 7 0 ++ leBytes 8 s.ltc.toNat)
      let s := (List.range 16).foldl (fun s k => wrf (setPort s k 0) (R.SCF_PORT_STAT k) 2 1 0) s
      let s := wrf (wrf (wrf s R.PLK_STAT 0 4 0) R.PWR_STAT 0 4 5) R.PWR_RAIL 0 12 0
      let s := wrf (wrf s R.CLK_STATUS 0 1 0) R.CLK_STATUS 3 1 0
      let s := match s.svnTo with
        | some n => if cut then (let d := drawNat s; let o := rdf s R.SEC_STAT 8 6; wrf d.2 R.SEC_STAT 8 6 (o + d.1 % (n + 1 - o))) else s
        | none => s
      { s with mramLocked := true, pwrgood := false, alive := 0, faultN := true, standby := false })

/-- R415: the stage in progress, while the package starts with power. -/
def inStage (s : State) (k : Nat) : Bool := pwrState s == 1 && !unpowered s && rdf s R.PWR_STAT 4 4 == k
/-- R415: the next stage begins. -/
def toStage (s : State) (k : Nat) : State := wrf s R.PWR_STAT 4 4 k

/-- R415, R431: PWRGOOD is high past its filter: stage 1 may end. The times of the later stages assume it was high, so they count from here. -/
def execPwrgoodAsserted (s : State) : Out :=
  .next (if unpowered s then s
    else
      let s : State := { s with pwrgood := true }
      if inStage s 1 then { toStage s 2 with startAt := max s.startAt (nsub s.ltc.toNat 5000000) } else s)

/-- R26, R30, R415, R419: stage 2 ends: the root PLL locks, and FAULT_N is released. -/
def execRootPllLock (s : State) : Out :=
  .next (if !inStage s 2 || !s.pwrgood || !s.refOk then s
    else
      let s := wrf (wrf (wrf (wrf s R.CLK_STATUS 0 1 1) R.CLK_STATUS 3 1 1) R.CLK_STATUS 4 1 0) R.CLK_STATUS 8 8 80
      { toStage s 3 with faultN := false, ltcPhase := 0 })

/-- R416: at stage 2 the root PLL has not locked within 5 ms: fatal. -/
def execRootPllLockTimeout (s : State) : Out :=
  .next (if inStage s 2 && s.startAt + 10000000 ≤ s.ltc.toNat then fatal s 1 0 0 else s)

/-- R413, R415: stage 3 ends: every rail is in regulation. -/
def execRailsUp (s : State) : Out := .next (if inStage s 3 then wrf (toStage s 4) R.PWR_RAIL 0 12 0x7FF else s)

/-- R362: IMAGE_DIGEST of a slot. -/
def imageDigest (x : ImageSlot) : BitVec 512 := sha512 (x.header.take 48 ++ x.body)

/-- R362, R363: the first check that fails in a slot: 1 MAGIC, 2 SIGNER, 3 SIG, 4 SVN, 5 unreadable; 0 when it is valid. -/
def imageBad (s : State) (x : ImageSlot) : Nat :=
  if !x.ok then 5
  else if x.header.take 4 ≠ [0x46, 0x54, 0x39, 0x43] then 1
  else if Config.imageKey (leNat ((x.header.drop 6).take 1)) ≠ some (sha512 ((x.header.drop 16).take 32)) then 2
  else if !edVerify (BitVec.ofNat 256 (leNat ((x.header.drop 16).take 32))) (leBytes 64 (imageDigest x).toNat)
      (BitVec.ofNat 512 (leNat ((x.header.drop 48).take 64))) then 3
  else if leNat ((x.header.drop 4).take 1) < rdf s R.SEC_STAT 8 6 then 4
  else 0

/-- R363: no slot is valid: the device stays at stage 4 with FAULT_N asserted, and records the first check that failed in each slot. -/
def imageNone (s : State) (a b : Nat) : State :=
  { bbx s true 0x09 0 0 0 (leBytes 1 1 ++ leBytes 1 a ++ leBytes 1 b) with noImage := true, imgRead := true, faultN := true, alive := 0 }

/-- R362-R364, R377, R415: stage 4: the slots are read and verified; the valid one with the higher SVN is booted, slot A when equal. -/
def execImageVerify (a b : ImageSlot) (s : State) : Out :=
  .next (if !inStage s 4 || s.noImage || s.i3cWait.isSome then s
    else
      let svn (x : ImageSlot) : Nat := leNat ((x.header.drop 4).take 1)
      let ra := imageBad s a
      let rb := imageBad s b
      if ra ≠ 0 ∧ rb ≠ 0 then imageNone s ra rb
      else
        let useB := ra ≠ 0 ∨ (rb = 0 ∧ svn a < svn b)
        let x := if useB then b else a
        let fl := leNat ((x.header.drop 5).take 1)
        let conf := if fl.testBit 1 then 1 else 0
        let s := wrf (wrf (wrf s R.SEC_STAT 6 1 (if useB then 1 else 0)) R.SEC_STAT 16 6 (svn x)) R.SEC_STAT 0 1 conf
        let s := wrf (wrf s R.SEC_STAT 3 1 (if conf = 1 ∨ Config.lockFused = true then 1 else 0)) R.PWR_REGIME 10 1 conf
        { toStage s 5 with imgRead := true, imgDigest := imageDigest x,
                           svnTo := if fl.testBit 0 = true ∧ rdf s R.SEC_STAT 8 6 < svn x then some (svn x % 64) else none })

/-- R434: another controller takes the bus during the image read: it is aborted, and after 8 attempts both slots count as unreadable. -/
def execI3cArbitrationLoss (s : State) : Out :=
  .next (if pwrState s != 1 || unpowered s || s.imgRead || s.i3cWait.isSome then s
    else if 8 ≤ s.i3cTries + 1 then imageNone s 5 5
    else { s with i3cTries := s.i3cTries + 1, i3cWait := some (s.ltc.toNat + 1000000) })

/-- R434: 1 ms after an arbitration loss the image read is retried. -/
def execI3cRetry (s : State) : Out :=
  .next (match s.i3cWait with
    | none => s
    | some t => if t ≤ s.ltc.toNat then { s with i3cWait := none } else s)

/-- R421, R422: the cap of a power regime, in W. -/
def capOf (power : Nat) : Nat := if power = 0 then 3600 else if power = 1 then 3000 else 2200

/-- R237: the channels of a half that are mapped. -/
def mapChannels (s : State) (h : Nat) (failed : List (Nat × Nat)) : State :=
  let s := (List.range 192).foldl (fun s c =>
    let s := if failed.contains (h, c) && rdf s (R.MEM_CH_STAT h c) 15 1 == 0 then
        bbx (wrf s (R.MEM_CH_STAT h c) 15 1 1) true 0x07 (1 + h) 0 0 (leBytes 1 h ++ leBytes 1 c ++ leBytes 1 1) else s
    wrf s (R.MEM_CH_STAT h c) 16 1 (rdf s (R.MEM_CH_STAT h c) 15 1)) s
  let n := ((List.range 192).filter (fun c => rdf s (R.MEM_CH_STAT h c) 16 1 == 0)).length
  let s := wrf (wrf s R.PKG_LAYOUT (16 + 8 * h) 8 n) R.PKG_LAYOUT (32 + 10 * h) 10 (3 * n)
  (List.range 9).foldl (fun s p => wrf s (R.MEM_PART_CFG h p) 34 10 (ownerGib s h p)) s

/-- R237, R238, R415, R416: stage 6: HBM trains. `failed` are channels (half, number) that fail: they are mapped out, more than 32 of a half being fatal; `repaired` are remap entries (half, index) that the stacks' own repair replaces. -/
def execHbmTraining (failed repaired : List (Nat × Nat)) (s : State) : Out :=
  .next (if !inStage s 6 then s
    else if (List.range 2).any (fun h => 32 < ((List.range 192).filter (fun c => failed.contains (h, c))).length) then fatal s 6 0 0
    else
      let s := mapChannels (mapChannels s 0 failed) 1 failed
      let s := repaired.foldl (fun s e =>
        if 2 ≤ e.1 || 8192 ≤ e.2 || !bitw (rd s (R.MEM_REMAP e.1 e.2)) 63 then s
        else wrf (wr s (R.MEM_REMAP e.1 e.2) 0) (R.MEM_RAS_STAT e.1) 48 14 (rdf s (R.MEM_RAS_STAT e.1) 48 14 - 1)) s
      toStage s 7)

/-- R270, R415, R416: stage 7: SerDes ports train: Scauth ports that do enter PARAPET, those that fail are held DOWN, the others keep training; `plk` are the Palale Link ports that train. -/
def execSerdesTraining (trained failed plk : List Nat) (s : State) : Out :=
  .next (if !inStage s 7 then s
    else
      let s := (List.range 16).foldl (fun s k =>
        if rdf s (R.SCF_PORT_CTL k) 0 2 = 0 ∨ failed.contains k = true then s
        else if trained.contains k then
          { wrf (setPort s k 2) (R.SCF_PORT_STAT k) 2 1 1 with portSeen := sset 0 s.portSeen k s.ltc.toNat }
        else setPort s k 1) s
      let s := (List.range 2).foldl (fun s k => wrf s R.PLK_STAT (2 * k) 2 (if plk.contains k then 3 else 1)) s
      toStage s 8)

/-- R415: stage 8: all mapped HBM is zero, with valid check symbols. -/
def execHbmZero (s : State) : Out :=
  .next (if inStage s 8 then toStage (memClear s 0 0x020000000000) 9 else s)

/-- R224, R360, R415: stage 9: on-die memories are cleared, keys drawn, and the boot counted and recorded. -/
def execMemoryClear (s : State) : Out :=
  .next (if !inStage s 9 then s
    else
      let s := memClear s 0x020000000000 0x0F0000000000
      let k := drawNat s
      let a := drawBits 64 k.2
      let b := drawBits 64 a.2
      let s : State := { b.2 with attest := k.1 }
      let s := wr (wr s (R.MEM_PART_KEY 0 8) a.1) (R.MEM_PART_KEY 1 8) b.1
      let s := wr s R.SEC_BOOTCOUNT (rd s R.SEC_BOOTCOUNT + 1)
      let frozen := bitw (rd s R.BBX_STAT) 16
      toStage (bbx s frozen 0x0C 0 0 0 (leBytes 1 (rdf s R.SEC_STAT 6 1) ++ leBytes 1 (rdf s R.SEC_STAT 16 6) ++ leBytes 1 (if frozen then 1 else 0))) 10)

/-- R415, R419: stage 10 ends: the package runs and ALIVE toggles. A fused security version that the image asked for is burnt from now on (R364). -/
def execFrontEndReady (s : State) : Out :=
  .next (if !inStage s 10 then s
    else
      let now := s.ltc.toNat
      let s := wrf (wrf s R.PWR_STAT 0 4 2) R.PWR_STAT 32 32 ((now - s.beganAt) / 1000000)
      let s : State := { s with alive := 1, ceAt := now, ceBase := ceCounts s, watchAt := now, ledgerAt := now,
                                watchBase := [rdf s (R.MEM_RAS_STAT 0) 0 32 + rdf s (R.MEM_RAS_STAT 1) 0 32, portSum s R.SCF_PORT_ERR 32 32 + rdf s R.PLK_STAT 16 16] }
      s)

/-- R364: the fuses up to a version are blown: the count rises, and the black box has it. -/
def burnSvn (s : State) (n : Nat) : State :=
  let old := rdf s R.SEC_STAT 8 6
  bbx { wrf s R.SEC_STAT 8 6 n with svnTo := none } true 0x09 0 0 0 (leBytes 1 2 ++ leBytes 1 old ++ leBytes 1 n)

/-- R415: the latest end of a stage, in ms. -/
def stageEnd (k : Nat) : Nat := nth [0, 5, 10, 30, 110, 150, 450, 500, 560, 580, 600] k

/-- R416: a stage exceeds its end time by 100 ms: fatal. A package without a valid image stays at stage 4. -/
def execStartUpStageTimeout (s : State) : Out :=
  .next (let k := rdf s R.PWR_STAT 4 4
    if pwrState s != 1 || unpowered s || k < 2 || s.noImage then s
    else if s.startAt + (stageEnd k + 100) * 1000000 ≤ s.ltc.toNat then fatal s 6 0 0 else s)

/-- R278, R332, R347, R417: the graceful steps before a reset: LEAVING on the Scauth and Palale Link ports, and drains end without a manifest. -/
def graceful (s : State) : State :=
  let s := leaveScauth s
  (List.range 2).foldl (fun s k => if rdf s R.PLK_STAT (2 * k) 2 = 0 then s else { s with tx := s.tx ++ [.plkLeaving k] }) s

/-- R417: a graceful warm reset. -/
def warmReset (s : State) : State := reborn (graceful s) true

/-- R417: a reset may begin: the package has power and no reset is in progress. -/
def mayReset (s : State) : Bool := !unpowered s && pwrState s != 1

/-- R417, R431: RESET_N low for 10 us and released: a warm reset, or the end of standby. A package held at stage 4 without an image restarts too. -/
def execResetNPulse (s : State) : Out := .next (if mayReset s || (s.noImage && !unpowered s) then warmReset s else s)

/-- R417, R426: PWR_CTL.RESET with CONFIRM. -/
def execPwrCtlReset (v : Word) (s : State) : Out :=
  .next (if fld v 8 8 = 0x5A && bitw v 0 && mayReset s && !s.standby then warmReset s else s)

/-- R417, R426: PWR_CTL.STANDBY with CONFIRM: down to the always-on domain. -/
def execPwrCtlStandby (v : Word) (s : State) : Out :=
  .next (if fld v 8 8 = 0x5A && bitw v 1 && mayReset s && !s.standby then
      { wr (warmReset s) R.PWR_STAT 5 with standby := true }
    else s)

end Sys2Proof.Machine
end

