-- ==== Sys2Proof/Machine/Clock.lean ====
section
/-! DEFINITION. Time: what happens when no command waits (log 3): the local time counter advances (R30) and the trace path delivers its oldest record (R330). -/

namespace Sys2Proof.Machine

/-- R30: how far one tick advances the counter: 10 while the root PLL is unlocked; 1 at 8.0 GHz; 1, 1, 1 and 2 in turn at 6.4 GHz. -/
def ltcStep (s : State) : Nat :=
  if rdf s R.CLK_STATUS 3 1 = 0 then 10
  else if rdf s R.CLK_STATUS 8 8 = 64 ∧ s.ltcPhase = 3 then 2
  else 1

/-- R330: the oldest record of the trace path is written to its partition's log ring. -/
def traceOut (s : State) : State :=
  match s.traceQ with
  | [] => s
  | r :: q =>
    logRecAt { s with traceQ := q } r.ltc r.part 0x01 r.ctx (leBytes 1 r.id ++ leBytes 1 r.core ++ leBytes 1 r.lane) (leBytes 8 r.value.toNat)

/-- R364: after start-up the boot sequencer blows the fuses that the image asked for. -/
def burnOut (s : State) : State :=
  match s.svnTo with
  | some n => if issuing s then burnSvn s n else s
  | none => s

/-- R30, R330, R364: one tick with no command waiting. -/
def tick (s : State) : State :=
  let s := burnOut (traceOut s)
  { s with ltc := s.ltc + BitVec.ofNat 64 (ltcStep s),
           ltcPhase := if rdf s R.CLK_STATUS 8 8 = 64 then (s.ltcPhase + 1) % 4 else 0 }

end Sys2Proof.Machine
end

