-- ==== Sys2Proof/Machine/Krylov.lean ====
section
/-! DEFINITION. The arithmetic of the solver units (R188, R195, R197-R201): products with A in binary32, pivots and preconditioners, and the local work of CG, BiCGSTAB and GMRES between reductions. The spec names the methods and their formats and leaves the order of their operations open: each binary32 element is the rounded value of its recurrence, off by a free amount (log 67). -/

namespace Sys2Proof.Machine

/-- A binary64 code as a value. -/
def v64 (c : Nat) : Fp := f64 (BitVec.ofNat 64 c)
/-- A value rounded to a binary64 code. -/
def c64 (x : Fp) : Nat := (to64 x).toNat
/-- x ≤ y of two values, false with a NaN. -/
def fLe (x y : Fp) : Bool := !x.isNan && !y.isNan && !fLt y x

/-- R195: a value rounded to a binary32 code, off by a free amount of at most 4 ulp unless it is zero (log 67). -/
def near32 (ix : Nat) (x : Fp) : Nat :=
  let c := rne fmtFP32 x
  let m := c % 2 ^ 31 + Config.freeNat ix % 9 - 4
  if (f32 c).isFin && !(f32 c).isZero && 0 < m && m < 0x7F800000 then c / 2 ^ 31 * 2 ^ 31 + m else c

/-- A vector of `n` binary32 elements. -/
def vec32 (ix n : Nat) (f : Nat → Fp) : List Nat := (List.range n).map (fun i => near32 (ix + i) (f i))

/-- a + k b of two binary32 vectors. -/
def axpy (ix : Nat) (a : List Nat) (k : Fp) (b : List Nat) : List Nat :=
  vec32 ix a.length (fun i => fAdd (f32 (nth a i)) (fMul k (f32 (nth b i))))

/-- R197, R201: a dot product of binary32 vectors, widened exactly, as a high and a low part (log 8). -/
def dotPair (ix : Nat) (a b : List Nat) : List Nat :=
  let p := pairSum fmtFP64 104 ix ((a.zip b).map (fun e => fMul (f32 e.1) (f32 e.2)))
  [p.1, p.2]

/-- R195: the sum of squares of a binary64 vector, as a high and a low part (log 8). -/
def sumSq (ix : Nat) (xs : List Nat) : Nat × Nat := pairSum fmtFP64 104 ix (xs.map (fun c => fMul (v64 c) (v64 c)))

/-- The value of a high and a low part. -/
def pairVal (hi lo : Nat) : Nat := c64 (fAdd (v64 hi) (v64 lo))

/-- R195: a norm from the high and low part of its square. -/
def normOf (hi lo : Nat) : Nat := c64 (fSqrt (v64 (pairVal hi lo)))

/-- The infinity norm of a vector of binary64 codes. -/
def infNorm (xs : List Nat) : Nat := c64 ((xs.map (fun c => (v64 c).abs)).foldl fMax (.fin false 0 0))

/-- R195: an entry of A rounded to binary32, and whether it saturated. -/
def entry32 (c : Nat) : Fp × Nat :=
  let q := toFmt fmtFP32 .rne false (v64 c)
  (f32 q.1, q.2.sat)

/-- R203: the product of A in binary32 with a vector and its halo. -/
def spmv (m : Mat) (ix : Nat) (xs : List Nat) : List Nat :=
  vec32 ix m.nrows (fun i => fSumAll ((m.rows.getD i []).map (fun e => fMul (entry32 e.2).1 (f32 (nth xs e.1)))))

/-- R199: max|row|. -/
def rowMax (m : Mat) (i : Nat) : Fp := ((m.rows.getD i []).map (fun e => (entry32 e.2).1.abs)).foldl fMax (.fin false 0 0)

/-- R199: a pivot made regular: its binary32 code, and whether it was replaced. -/
def regular (tau mx d : Fp) : Nat × Nat :=
  if mx.isZero then (rne fmtFP32 (.fin false 1 0), 1)
  else if fLe d.abs (fMul tau mx) then (rne fmtFP32 (if !d.isZero && d.sign then (fMul tau mx).neg else fMul tau mx), 1)
  else (rne fmtFP32 d, 0)

/-- R199: the Jacobi preconditioner, and the pivots it replaced. -/
def jacobi (tau : Fp) (m : Mat) : Pre × Nat :=
  let ps := (List.range m.nrows).map (fun i =>
    regular tau (rowMax m i) ((((m.rows.getD i []).find? (fun e => e.1 == i)).map (fun e => (entry32 e.2).1)).getD (.fin false 0 0)))
  (⟨1, ps.map (·.1), [], []⟩, (ps.map (·.2)).sum)

/-- R200: a quotient, clamped to the largest binary32 of its sign where it overflows: its code, and whether it was clamped. -/
def quot32 (ix : Nat) (a d : Fp) : Nat × Nat :=
  let v := fDiv a d
  if v.isFin && (f32 (rne fmtFP32 v)).isInf then ((if v.sign then 2 ^ 31 else 0) + 0x7F7FFFFF, 1) else (near32 ix v, 0)

/-- R191, R200: the entries of row `i` of A, in binary32, that lie within its own block of rows. -/
def blockRow (m : Mat) (lo hi i : Nat) : List (Nat × Nat) :=
  ((m.rows.getD i []).filter (fun e => lo ≤ e.1 && e.1 < hi)).map (fun e => (e.1, rne fmtFP32 (entry32 e.2).1))

/-- R200: eliminate column `k` of a row by the finished row `k`: the row, and whether its quotient was clamped. -/
def elimCol (f : Pre) (ix : Nat) (row : List (Nat × Nat)) (k : Nat) : List (Nat × Nat) × Nat :=
  match row.find? (fun e => e.1 == k) with
  | none => (row, 0)
  | some e =>
    let q := quot32 ix (f32 e.2) (f32 (nth f.piv k))
    let upk := f.up.getD k []
    (row.map (fun x =>
      if x.1 = k then (k, q.1)
      else match upk.find? (fun u => u.1 == x.1) with
        | some u => if k < x.1 then (x.1, near32 (ix + 1 + x.1) (fAdd (f32 x.2) (fMul (f32 q.1) (f32 u.2)).neg)) else x
        | none => x), q.2)

/-- R191, R199, R200: the incomplete LU factors of the block of rows that holds row `i`, up to row `i`: `bj` is the rows of a block (0: one block). The factors, the pivots replaced, the quotients clamped. -/
def iluRow (m : Mat) (tau : Fp) (bj ix : Nat) (acc : Pre × Nat × Nat) (i : Nat) : Pre × Nat × Nat :=
  let lo := if bj = 0 then 0 else i / bj * bj
  let hi := if bj = 0 then m.nrows else min m.nrows (lo + bj)
  let r := (List.range i).foldl (fun (a : List (Nat × Nat) × Nat) k =>
    let q := elimCol acc.1 (ix + (i * m.nrows + k) * (m.nrows + 1)) a.1 k
    (q.1, a.2 + q.2)) (blockRow m lo hi i, 0)
  let p := regular tau (rowMax m i) (((r.1.find? (fun e => e.1 == i)).map (fun e => f32 e.2)).getD (.fin false 0 0))
  (⟨2, acc.1.piv ++ [p.1], acc.1.lo ++ [r.1.filter (fun e => e.1 < i)], acc.1.up ++ [r.1.filter (fun e => i < e.1)]⟩, acc.2.1 + p.2, acc.2.2 + r.2)

/-- R191, R199, R200: the incomplete LU factors of the rank's own rows and columns. -/
def ilu (m : Mat) (tau : Fp) (bj ix : Nat) : Pre × Nat × Nat := (List.range m.nrows).foldl (iluRow m tau bj ix) (⟨2, [], [], []⟩, 0, 0)

/-- The terms a - Σ c_k y_k of a triangular solve. -/
def lessRow (a : Fp) (row : List (Nat × Nat)) (y : Nat → Fp) : Fp :=
  fSumAll (a :: row.map (fun e => (fMul (f32 e.2) (y e.1)).neg))

/-- R195: apply the preconditioner to a vector. -/
def applyPre (f : Pre) (ix : Nat) (r : List Nat) : List Nat :=
  if f.kind = 0 then r
  else if f.kind = 1 then vec32 ix r.length (fun i => fDiv (f32 (nth r i)) (f32 (nth f.piv i)))
  else
    let n := r.length
    let y := (List.range n).foldl (fun y i => y ++ [near32 (ix + i) (lessRow (f32 (nth r i)) (f.lo.getD i []) (fun k => f32 (nth y k)))]) []
    -- z is built from the last row up: element i of the result stands at place i - (n - length)
    (List.range n).foldl (fun z k =>
      let i := n - 1 - k
      near32 (ix + n + i) (fDiv (lessRow (f32 (nth y i)) (f.up.getD i []) (fun j => f32 (nth z (j - i - 1)))) (f32 (nth f.piv i))) :: z) []

/-- R197: begin an inner solve of A d = r: `r64` is the outer residual and `rn` its norm. -/
def innerStart (method : Nat) (f : Pre) (ix : Nat) (r64 : List Nat) (rn : Nat) : Inner :=
  let n := r64.length
  let r := r64.map (fun c => rne fmtFP32 (v64 c))
  let zero := List.replicate n 0
  if method = 2 then
    (let v := vec32 ix n (fun i => fDiv (v64 (nth r64 i)) (v64 rn))
     { inner0 with d := zero, r := r, basis := [v], zs := [applyPre f (ix + n) v], g := [rn] })
  else if method = 1 then { inner0 with d := zero, r := r, rh := r, p := r, ph := applyPre f ix r }
  else (let z := applyPre f ix r; { inner0 with d := zero, r := r, sh := z, p := z })

/-- R203: the vector whose product with A comes next. -/
def Inner.operand (y : Inner) (method : Nat) : List Nat :=
  if method = 2 then y.zs.getLastD [] else if method = 1 then (if y.phase = 0 then y.ph else y.sh) else y.p

/-- R197: a reduction of this phase follows a product with A. -/
def Inner.needsProduct (y : Inner) (method : Nat) : Bool := y.phase == 0 || (method == 1 && y.phase == 1)

/-- R197: this phase ends the iteration: its reduction carries the vote. -/
def Inner.votes (y : Inner) (method : Nat) : Bool := y.phase == (if method = 1 then 2 else 1)

/-- R197: the local work of a phase: the inner solve with its product, and the dot products it contributes. -/
def innerWork (method ix : Nat) (y : Inner) (prod : List Nat) : Inner × List Nat :=
  let n := y.r.length
  if method = 0 then
    (if y.phase = 0 then ({ y with q := prod }, dotPair ix y.r y.sh ++ dotPair (ix + 1) y.p prod)
     else (y, dotPair ix y.r y.r ++ dotPair (ix + 1) y.r y.sh))
  else if method = 1 then
    (if y.phase = 0 then ({ y with q := prod }, dotPair ix y.rh y.r ++ dotPair (ix + 1) y.rh prod)
     else if y.phase = 1 then ({ y with t := prod }, dotPair ix prod y.s ++ dotPair (ix + 1) prod prod)
     else (y, dotPair ix y.r y.r ++ dotPair (ix + 1) y.rh y.r))
  else if y.phase = 0 then
    ({ y with q := prod }, ((List.range y.basis.length).map (fun i => dotPair (ix + i) (y.basis.getD i []) prod)).flatten)
  else (y, dotPair (ix + n) y.q y.q)

/-- R197: what a reduction that carries no vote does: scalars, breakdown, and the vector updates up to the next reduction; a broken step changes no vector. -/
def innerMid (method : Nat) (f : Pre) (ix : Nat) (y : Inner) (sl : List Nat) : Inner :=
  let n := y.r.length
  let v (i : Nat) : Nat := pairVal (nth sl (2 * i)) (nth sl (2 * i + 1))
  if method = 0 then
    (if fLe (v64 (v 1)) (.fin false 0 0) then { y with phase := 1, brk := true, rho := v 0 }
     else
       let a := c64 (fDiv (v64 (v 0)) (v64 (v 1)))
       let r := axpy ix y.r (v64 a).neg y.q
       { y with phase := 1, rho := v 0, alpha := a, d := axpy (ix + n) y.d (v64 a) y.p, r := r, sh := applyPre f (ix + 2 * n) r })
  else if method = 1 then
    (if y.phase = 0 then
       (if (v64 (v 0)).isZero then { y with phase := 1, brk := true, rho := v 0, s := y.r, sh := y.ph }
        else
          let a := c64 (fDiv (v64 (v 0)) (v64 (v 1)))
          let s := axpy ix y.r (v64 a).neg y.q
          { y with phase := 1, rho := v 0, alpha := a, s := s, sh := applyPre f (ix + n) s })
     else
       let w := c64 (fDiv (v64 (v 0)) (v64 (v 1)))
       if y.brk || (v64 w).isZero then { y with phase := 2, brk := true, omega := w }
       else
         { y with phase := 2, omega := w, d := axpy (ix + n) (axpy ix y.d (v64 y.alpha) y.ph) (v64 w) y.sh, r := axpy (ix + 2 * n) y.s (v64 w).neg y.t })
  else
    let h := (List.range y.basis.length).map v
    { y with phase := 1, cols := y.cols ++ [h],
             q := (List.range h.length).foldl (fun q i => axpy (ix + i * n) q (v64 (nth h i)).neg (y.basis.getD i [])) y.q }

/-- R197: a plane rotation of two numbers. -/
def rotate (cs : Nat × Nat) (a b : Nat) : Nat × Nat :=
  (c64 (fAdd (fMul (v64 cs.1) (v64 a)) (fMul (v64 cs.2) (v64 b))), c64 (fAdd (fMul (v64 cs.1) (v64 b)) (fMul (v64 cs.2) (v64 a)).neg))

/-- R197: the rotated column and the new rotation, from a column of the Hessenberg and the norm below it. -/
def gmresCol (rots : List (Nat × Nat)) (h : List Nat) (hn : Nat) : List Nat × (Nat × Nat) :=
  let c := (List.range rots.length).foldl (fun c i =>
    let q := rotate (rots.getD i (0, 0)) (nth c i) (nth c (i + 1))
    (c.set i q.1).set (i + 1) q.2) h
  let top := nth c (h.length - 1)
  let len := c64 (fSqrt (fAdd (fMul (v64 top) (v64 top)) (fMul (v64 hn) (v64 hn))))
  let cs := if (v64 len).isZero then (c64 (.fin false 1 0), 0) else (c64 (fDiv (v64 top) (v64 len)), c64 (fDiv (v64 hn) (v64 len)))
  (c.set (h.length - 1) len, cs)

/-- R197: the coefficients of the least-squares correction: back substitution on the rotated columns. -/
def gmresY (cols : List (List Nat)) (g : List Nat) : List Nat :=
  let k := cols.length
  (List.range k).foldl (fun y b =>
    let i := k - 1 - b
    let s := fSumAll (v64 (nth g i) :: (List.range b).map (fun e => (fMul (v64 (nth (cols.getD (i + 1 + e) []) i)) (v64 (nth y e))).neg))
    c64 (fDiv s (v64 (nth (cols.getD i []) i))) :: y) []

/-- R197: the correction with what the basis so far adds to it. -/
def gmresD (ix : Nat) (y : Inner) : List Nat :=
  let c := gmresY y.cols y.g
  (List.range c.length).foldl (fun d i => axpy (ix + i * d.length) d (v64 (nth c i)) (y.zs.getD i [])) y.d

/-- R197: the next vector of the GMRES basis. -/
def gmresNext (ix : Nat) (y : Inner) : List Nat :=
  vec32 ix y.r.length (fun i => if (v64 y.alpha).isZero then .fin false 0 0 else fDiv (f32 (nth y.q i)) (v64 y.alpha))

/-- R197: GMRES starts again from the residual that its basis and rotations give. -/
def gmresRestart (f : Pre) (ix : Nat) (y : Inner) : Inner :=
  let k := y.rots.length
  let last := nth y.g k
  let c := (List.range k).foldl (fun c b =>
    let i := k - 1 - b
    let cs := y.rots.getD i (0, 0)
    let q := rotate (cs.1, c64 (v64 cs.2).neg) (nth c i) (nth c (i + 1))
    (c.set i q.1).set (i + 1) q.2) (List.replicate k 0 ++ [last])
  let n := y.r.length
  let basis := y.basis ++ [gmresNext (ix + 3 * n) y]
  let r := vec32 ix n (fun e => fSumAll ((List.range (k + 1)).map (fun i => fMul (v64 (nth c i)) (f32 (nth (basis.getD i []) e)))))
  let beta := c64 (v64 last).abs
  let v := vec32 (ix + n) n (fun i => if (v64 beta).isZero then .fin false 0 0 else fDiv (f32 (nth r i)) (v64 beta))
  { y with phase := 0, d := gmresD (ix + 4 * n) y, r := r, basis := [v], zs := [applyPre f (ix + 4 * n + k * n) v], cols := [], rots := [], g := [beta] }

/-- R195, R197: an iteration's vote has come back (its values from slot `at_`): the inner solve, and the norm of the correction's residual. -/
def innerVoted (method : Nat) (y : Inner) (sl : List Nat) (at_ : Nat) : Inner × Nat :=
  if method = 2 then
    (let hn := normOf (nth sl at_) (nth sl (at_ + 1))
     let q := gmresCol y.rots (y.cols.getLastD []) hn
     let g := rotate q.2 (nth y.g y.rots.length) 0
     let y := { y with cols := y.cols.dropLast ++ [q.1], rots := y.rots ++ [q.2], g := y.g.dropLast ++ [g.1, g.2], alpha := hn }
     (y, c64 (v64 g.2).abs))
  else ({ y with omega := if method = 1 then y.omega else 0 }, normOf (nth sl at_) (nth sl (at_ + 1)))

/-- R197: the vectors of the next iteration; GMRES starts again after `len` vectors. -/
def innerNext (method len : Nat) (f : Pre) (ix : Nat) (y : Inner) (sl : List Nat) (at_ : Nat) : Inner :=
  let n := y.r.length
  let rho' := pairVal (nth sl (at_ + 2)) (nth sl (at_ + 3))
  if method = 0 then
    (let b := c64 (fDiv (v64 rho') (v64 y.rho))
     { y with phase := 0, p := axpy ix y.sh (v64 b) y.p })
  else if method = 1 then
    (let b := c64 (fMul (v64 (c64 (fDiv (v64 rho') (v64 y.rho)))) (v64 (c64 (fDiv (v64 y.alpha) (v64 y.omega)))))
     let p := axpy (ix + n) y.r (v64 b) (axpy ix y.p (v64 y.omega).neg y.q)
     { y with phase := 0, p := p, ph := applyPre f (ix + 2 * n) p })
  else if len ≤ y.rots.length then gmresRestart f ix y
  else
    let v := gmresNext ix y
    { y with phase := 0, basis := y.basis ++ [v], zs := y.zs ++ [applyPre f (ix + n) v] }

/-- R195: the correction as it stands. -/
def innerD (method ix : Nat) (y : Inner) : List Nat := if method = 2 then gmresD ix y else y.d

/-- R195: x + d in binary64, one rounding per element. -/
def addD (x d : List Nat) : List Nat := (List.range x.length).map (fun i => c64 (fAdd (v64 (nth x i)) (f32 (nth d i))))

/-- How many free values a step of an inner solve of `n` rows and `k` basis vectors draws at most. -/
def innerFree (n k : Nat) : Nat := (k + 10) * (n + 2)

end Sys2Proof.Machine
end

