-- ==== Sys2Proof/Machine/Solver.lean ====
section
/-! DEFINITION. The solver units (R183-R214): issuing SOLVE, start checks, warm start and fallback, the matrix and its halo, boundaries and their reductions, stopping, and the result record. A command that must wait for memory changes nothing. -/

namespace Sys2Proof.Machine

/-- A solver unit. -/
def svuOf (s : State) (j : Nat) : Svu := sget svu0 s.svus j
/-- Replace a solver unit. -/
def setSvu (s : State) (j : Nat) (u : Svu) : State := { s with svus := sset svu0 s.svus j u }
/-- R193, R244: a solver unit's accesses to memory, through its S-cluster's cache. -/
def srcSvu (s : State) (j ctx : Nat) : Src := ⟨ctx, j / 12, 65535, partOf s ctx, 2, 0, true, true⟩
/-- Replace the active solve of a unit. -/
def setRun (s : State) (j : Nat) (r : Run) : State := setSvu s j { svuOf s j with act := some r }

/-- A word of a solve's descriptor. -/
def Solve.w (v : Solve) (i : Nat) : Word := v.ws.getD i 0
/-- R190: METHOD. -/ def Solve.method (v : Solve) : Nat := fld (v.w 3) 0 2
/-- R190: PRECOND. -/ def Solve.precond (v : Solve) : Nat := fld (v.w 3) 2 2
/-- R190: HCOUNT. -/ def Solve.hcount (v : Solve) : Nat := fld (v.w 3) 6 2
/-- R190: HSTEP. -/ def Solve.hstep (v : Solve) : Nat := fld (v.w 3) 8 2
/-- R190: MAXIT. -/ def Solve.maxit (v : Solve) : Nat := fld (v.w 3) 16 16
/-- R190: GROUP. -/ def Solve.group (v : Solve) : Nat := fld (v.w 3) 32 16
/-- R190: SPP. -/ def Solve.spp (v : Solve) : Nat := fld (v.w 3) 48 5
/-- R190: LRANK. -/ def Solve.lrank (v : Solve) : Nat := fld (v.w 3) 53 5
/-- R190: DEADLINE. -/ def Solve.deadline (v : Solve) : Nat := (v.w 6).toNat
/-- R190: RESULT. -/ def Solve.result (v : Solve) : Nat := (v.w 7).toNat
/-- R191: RESTART. -/ def Solve.restart (v : Solve) : Nat := fld (v.w 9) 0 6
/-- R191: TAU. -/ def Solve.tau (v : Solve) : Fp := f64 (v.w 8)
/-- R191: BJROWS, for the block form alone. -/ def Solve.bjrows (v : Solve) : Nat := if v.precond = 2 then fld (v.w 11) 0 32 else 0
/-- R191: TIMER. -/ def Solve.timer (v : Solve) : Nat := fld (v.w 9) 12 2
/-- R190: TOL. -/ def Solve.tol (v : Solve) : Fp := f64 (v.w 4)
/-- R198: the effective warm-start mode. -/ def Solve.warm (v : Solve) : Nat := min (fld (v.w 3) 4 2) v.hcount
/-- R198: the effective fallback mode. -/ def Solve.fallback (v : Solve) : Nat := min (fld (v.w 9) 10 2) v.hcount
/-- R400: GROUP as the status registers give it. -/ def Solve.groupId (v : Solve) : Nat := if v.group = 0xFFFF then 0x3FF else v.group

/-- R191: the words of a basic descriptor with the defaults of the expert fields. -/
def basicWords (ws : List Word) : List Word :=
  let warm := fld (ws.getD 3 0) 4 2
  ws.take 8 ++ [0x3EB0000000000000, BitVec.ofNat 64 (31 + 8 <<< 6 + warm <<< 10 + 3 <<< 12), 0x3F50000000000000, 0, 0, 0x3FE0000000000000]
    ++ List.replicate 18 0

/-- R185, R186: issue a SOLVE: the descriptor is copied and RESULT translated; with seven solves queued the thread waits. -/
def issueSolve (t : Tid) (o : Opnds) (expert : Bool) (s : State) : Out :=
  insn s t o 0x11 none (some ⟨32, 64, imAll⟩) (fun key s =>
    let t0 := th s key
    let va := memAddr t0 o
    let j := coreOf key / 8
    if va % 64 ≠ 0 then .trap s 0x10 0x15 0
    else
      match vaBytes s (srcTh s key) va (if expert then 256 else 64) with
      | (_, .wait) => .stay s
      | (s, .err e) => accTrap s e
      | (s, .ok (bs, pois)) =>
        if pois then .trap s 0x12 0 0
        else
          let ws := (List.range (if expert then 32 else 8)).map (fun i => BitVec.ofNat 64 (leNat ((bs.drop (8 * i)).take 8)))
          let v : Solve := ⟨key, t0.gen, t0.ctx, o.d.toNat, if expert then ws else basicWords ws⟩
          match vaCheck s t0.ctx v.result 1 .write with
          | (s, .err e) => accTrap s e
          | (_, .wait) => .stay s
          | (s, .ok _) =>
            let u := svuOf s j
            if 7 ≤ u.queue.length then .stay s else .done (setSvu s j { u with queue := u.queue ++ [v] }))

/-- R185: SOLVE.B. -/
def execSolveB (t : Tid) (o : Opnds) (s : State) : Out := issueSolve t o false s
/-- R185: SOLVE.E. -/
def execSolveE (t : Tid) (o : Opnds) (s : State) : Out := issueSolve t o true s

/-- R190, R191, R194: every reserved field is zero and every field lies in its range. -/
def Solve.ok (v : Solve) : Bool :=
  let w3 := v.w 3
  let w9 := v.w 9
  let one : Fp := .fin false 1 0
  let zero : Fp := .fin false 0 0
  fld (v.w 0) 0 6 == 0 && fld (v.w 2) 0 6 == 0 && fld (v.w 7) 0 6 == 0 && fld w3 10 6 == 0 && fld w3 58 6 == 0 && v.method != 3 && v.lrank ≤ v.spp &&
  1 ≤ v.maxit && fLe zero v.tol && fLt v.tol one && !v.tol.isNan && !(f64 (v.w 5)).isNan &&
  fLt zero v.tau && fLt v.tau one && fld w9 6 4 != 0 && fld w9 15 17 == 0 && !(f64 (v.w 10)).isNan && fld (v.w 11) 32 32 == 0 &&
  fLt zero (f64 (v.w 13)) && fLe (f64 (v.w 13)) one && (v.ws.drop 14).all (fun w => w == 0)

/-- R194, R201: the rank can take part in its group's votes; a rank above SPP too tells the others of its fault (log 69). -/
def Solve.votable (v : Solve) : Bool := v.spp ≤ 23 && (v.group < 1024 || v.group == 0xFFFF)

/-- R194, R213: the status and subcode of an access error of the unit. -/
def solErr : AccErr → Nat × Nat
  | .poison => (0x12, 0)
  | .perm => (0x11, 0x46)
  | .text => (0x11, 0x46)
  | .measured => (0x11, 0x46)
  | _ => (0x10, 0x46)

/-- What a step of a solve that needs memory answers: a value, a status and subcode, or that it waits. -/
inductive SolRes (α : Type) where
  | ok (v : α)
  | bad (status sub : Nat)
  | wait

/-- Read `n` bytes for a solve and go on with them. -/
def solRead {α : Type} (s : State) (src : Src) (va n : Nat) (k : State → List Byte → State × SolRes α) : State × SolRes α :=
  match vaBytes s src va n with
  | (s, .ok (bs, pois)) => if pois then (s, .bad 0x12 0) else k s bs
  | (s, .err e) => (s, .bad (solErr e).1 (solErr e).2)
  | (s, .wait) => (s, .wait)

/-- Write bytes for a solve and go on. -/
def solPut {α : Type} (s : State) (src : Src) (va : Nat) (bs : List Byte) (k : State → State × SolRes α) : State × SolRes α :=
  match vaPut s src va bs with
  | (s, .ok ()) => k s
  | (s, .err e) => (s, .bad (solErr e).1 (solErr e).2)
  | (s, .wait) => (s, .wait)

/-- Read the binary64 code at each address. -/
def solEach (s : State) (src : Src) : List Nat → State × SolRes (List Nat)
  | [] => (s, .ok [])
  | a :: as =>
    solRead s src a 8 (fun s bs =>
      match solEach s src as with
      | (s, .ok xs) => (s, .ok (leNat bs :: xs))
      | r => r)

/-- Check that the pieces of a range translate for an access. -/
def solSpan (s : State) (ctx : Nat) (k : AccKind) : List (Nat × Nat) → State × SolRes Unit
  | [] => (s, .ok ())
  | p :: ps =>
    match vaCheck s ctx p.1 p.2 k with
    | (s, .ok _) => solSpan s ctx k ps
    | (s, .err e) => (s, .bad (solErr e).1 (solErr e).2)
    | (s, .wait) => (s, .wait)

/-- The `n` numbers of `k` bytes each in a byte string. -/
def numsOf (k n : Nat) (bs : List Byte) : List Nat := cutCodes (8 * k) n (leNat bs)

/-- A list never falls. -/
def rising : List Int → Bool
  | [] => true
  | [_] => true
  | a :: b :: r => decide (a ≤ b) && rising (b :: r)

/-- R189: the stored entries of row `i`, by pointers relative to the first: positions of the column index and of the value, and the column offset within a block. -/
def rowEntries (layout bsz : Nat) (ptr : List Nat) (i : Nat) : List (Nat × Nat × Nat) :=
  let p (k : Nat) : Nat := nth ptr k
  if layout = 0 then (List.range (p (i + 1) - p i)).map (fun e => (p i + e, p i + e, 0))
  else if layout = 1 then (List.range ((p (i / 32 + 1) - p (i / 32)) / 32)).map (fun e => let q := p (i / 32) + 32 * e + i % 32; (q, q, 0))
  else
    let b := i / bsz
    (List.range (p (b + 1) - p b)).flatMap (fun e => (List.range bsz).map (fun c =>
      (p b + e, (p b + e) * (bsz * bsz) + (i % bsz) * bsz + c, c)))

/-- R188, R189, R194: read the halo map: each entry's FP64 and FP32 addresses, and those of each neighbour's vectors. -/
def readHalo (s : State) (src : Src) (va nnbr n : Nat) (k : State → List (Nat × Nat) → List (Nat × Nat) → State × SolRes Mat) : State × SolRes Mat :=
  if n = 0 then (if va = 0 then k s [] [] else (s, .bad 0x10 0x47))
  else
    solRead s src va (16 * nnbr + 8 * n) (fun s bs =>
      let nb := numsOf 8 (2 * nnbr) bs
      let es := numsOf 8 n (bs.drop (16 * nnbr))
      if es.any (fun e => nnbr ≤ nfld e 48 16) then (s, .bad 0x10 0x47)
      else
        k s (es.map (fun e => (nth nb (2 * nfld e 48 16) + 8 * nfld e 0 48, nth nb (2 * nfld e 48 16 + 1) + 4 * nfld e 0 48)))
          ((List.range nnbr).map (fun i => (nth nb (2 * i), nth nb (2 * i + 1)))))

/-- R188, R189, R194: read a matrix and check its structure. The value of a padding entry is not read. -/
def readMat (s : State) (src : Src) (v : Solve) : State × SolRes Mat :=
  solRead s src (v.w 0).toNat 64 (fun s hdr =>
    let w (i : Nat) : Nat := leNat ((hdr.drop (8 * i)).take 8)
    let layout := nfld (w 0) 0 2
    let bsz := nfld (w 0) 4 4
    let n := nfld (w 1) 0 32
    let nint := nfld (w 1) 32 32
    let nhalo := nfld (w 6) 0 32
    let b := if layout = 2 then bsz else 1
    let okHdr := layout != 3 && (if layout = 2 then 2 ≤ bsz && bsz ≤ 8 else bsz == 0) && nfld (w 0) 2 2 == 0 && nfld (w 0) 8 56 == 0 &&
      1 ≤ n && n % b == 0 && nint ≤ n && nfld (w 6) 48 16 == 0
    if !okHdr then (s, .bad 0x10 0x47)
    else
      let np := if layout = 0 then n + 1 else if layout = 1 then cdiv n 32 + 1 else n / b + 1
      solRead s src (w 5) (8 * np) (fun s pb =>
        let raw := (numsOf 8 np pb).map (sext 64)
        let p0 := (raw.getD 0 0).toNat
        let ptr := raw.map (fun p => p.toNat - p0)
        let tot := nth ptr (np - 1)
        if !rising (0 :: raw) || (layout == 1 && ptr.any (fun p => p % 32 != 0)) then (s, .bad 0x10 0x47)
        else
          solRead s src (w 4 + 4 * p0) (4 * tot) (fun s cb =>
            let cols := numsOf 4 tot cb
            let ents := (List.range n).map (fun i => (rowEntries layout bsz ptr i).map (fun e => (sext 32 (nth cols e.1) * b + e.2.2, e.2.1)))
            let colOk (c : Int) : Bool := (0 ≤ c && c < n + nhalo) || (layout == 1 && c == -1)
            let kept := ents.map (fun r => (r.filter (fun e => 0 ≤ e.1)).map (fun e => (e.1.toNat, e.2)))
            let used := (kept.map List.length).sum
            if ents.any (fun r => r.any (fun e => !colOk e.1)) || (kept.take nint).any (fun r => r.any (fun e => n ≤ e.1)) ||
               !(w 2 == tot || (layout == 1 && w 2 == used)) then (s, .bad 0x10 0x47)
            else
              let v0 := w 3 + 8 * (p0 * b * b)
              let vals := if layout = 1 then solEach s src (kept.flatMap (fun r => r.map (fun e => v0 + 8 * e.2)))
                else solRead s src v0 (8 * (tot * b * b)) (fun s vb => let c := numsOf 8 (tot * b * b) vb; (s, .ok (kept.flatMap (fun r => r.map (fun e => nth c e.2)))))
              match vals with
              | (s, .bad x y) => (s, .bad x y)
              | (s, .wait) => (s, .wait)
              | (s, .ok vs) =>
                let rows := (kept.foldl (fun (a : List (List (Nat × Nat)) × List Nat) r =>
                  (a.1 ++ [(r.zip a.2).map (fun e => (e.1.1, e.2))], a.2.drop r.length)) ([], vs)).1
                readHalo s src (w 7) (nfld (w 6) 32 16) nhalo (fun s halo nbrs => (s, .ok ⟨hdr, rows, n, nhalo, w 2, b, halo, nbrs⟩)))))

/-- R192: the address of a history slot. -/
def histSlot (v : Solve) (n k : Nat) : Nat := (v.w 2).toNat + k * (cdiv (8 * n) 64 * 64)
/-- R192: the address of the slot that holds x of `i` steps ago. -/
def histAgo (v : Solve) (n i : Nat) : Nat := histSlot v n ((v.hstep + 4 - i) % 4)

/-- NROWS and NHALO rounded up (R193). -/
def Mat.pad (m : Mat) : Nat × Nat := (cdiv m.nrows 16 * 16, cdiv m.nhalo 16 * 16)

/-- R193: sizes of the work area up to the factor area, and of the factor area. -/
def workSize (v : Solve) (m : Mat) : Nat × Nat :=
  let n' := m.pad.1
  let vecs := if v.method = 0 then 4 else if v.method = 1 then 7 else v.restart + 4
  let work := 64 + 12 * (n' + m.pad.2) + vecs * n' * 4 + 8 * n' + (if v.method = 2 then 33280 else 0)
  let fac := if v.precond = 3 then 0 else 64 + 4 * n' + (if v.precond = 0 then 0 else 4 * m.nnz * m.bs * m.bs)
  (work, fac)

/-- R193: where the factor lies. -/
def factAt (v : Solve) (m : Mat) : Nat := if (v.w 12).toNat = 0 then v.result + (workSize v m).1 else (v.w 12).toNat
/-- R193: the FP64 exchange vector. -/
def exch64 (v : Solve) : Nat := v.result + 64
/-- R193: the FP32 exchange vector. -/
def exch32 (v : Solve) (m : Mat) : Nat := v.result + 64 + 8 * (m.pad.1 + m.pad.2)

/-- R192, R198: read the slots that a mode uses: x of 1 to `i` steps ago. -/
def readHist (s : State) (src : Src) (v : Solve) (n : Nat) : Nat → State × SolRes (List (List Nat))
  | 0 => (s, .ok [])
  | i + 1 =>
    match readHist s src v n i with
    | (s, .ok xs) => solRead s src (histAgo v n (i + 1)) (8 * n) (fun s bs => (s, .ok (xs ++ [numsOf 8 n bs])))
    | r => r

/-- R198: extrapolate from the history, with one rounding per element. -/
def extrap (mode n : Nat) (h : List (List Nat)) : List Nat :=
  (List.range n).map (fun i =>
    let x (k : Nat) : Fp := v64 (nth (h.getD k []) i)
    let times (c : Nat) (a : Fp) : Fp := fMul (.fin false c 0) a
    if mode = 0 then 0
    else if mode = 1 then nth (h.getD 0 []) i
    else if mode = 2 then c64 (fAdd (times 2 (x 0)) (x 1).neg)
    else c64 (fAdd (fAdd (times 3 (x 0)) (times 3 (x 1)).neg) (x 2)))

/-- R400: the register of a context's timers is set from the solves that run. -/
def putTimers (s : State) (ctx : Nat) : State :=
  (List.range 3).foldl (fun s k =>
    let us := s.svus.filterMap (fun kv => kv.2.act.bind (fun r => if r.sol.ctx = ctx ∧ r.timer = some k then some r.sol.groupId else none))
    wrf s (R.DSP_TIMER ctx) (16 * k) 16 (match us with
      | [] => 0
      | g :: _ => 1 + g <<< 2 + (min 15 us.length) <<< 12)) s

/-- R211: the timer that a solve with a deadline claims: one that is free or serves its context and GROUP here. -/
def claimTimer (s : State) (v : Solve) : Option Nat :=
  let free (k : Nat) : Bool := s.svus.all (fun kv => match kv.2.act with
    | some r => !(r.sol.ctx == v.ctx && r.timer == some k) || r.sol.group == v.group
    | none => true)
  if v.timer = 3 then (List.range 3).find? free else if free v.timer then some v.timer else none

/-- R201, R206: the FMAP of the setup vote: vote word, digest minimum and maximum, flags, the sum of squares of b, the norm of A. -/
abbrev fmSetup : Nat := 0x0ACB7545
/-- R201, R206: the FMAP of an outer boundary: vote word, the sum of squares of r, its infinity norm, that of x. -/
abbrev fmOuter : Nat := 0x000AACB5
/-- R197: the FMAP of the two dot products of a CG or BiCGSTAB reduction that carries no vote. -/
abbrev fmDots : Nat := 0xCBCB
/-- R197, R206: the FMAP of an inner boundary: vote word, the correction residual's sum of squares, and the next rho of CG and BiCGSTAB. -/
def fmInner (method : Nat) : Nat := if method = 2 then 0xCB5 else 0xCBCB5
/-- R197: GMRES's `k` dot products: four fit an express reduction; more go by the bulk path (2^32 + k stands for that here). -/
def fmGmres (k : Nat) : Nat := if k ≤ 4 then (List.range k).foldl (fun a i => a + 0xCB * 256 ^ i) 0 else 2 ^ 32 + k

/-- R205: the digest of the fields that all ranks must agree on. -/
def solDigest (v : Solve) : Nat :=
  let w3 := putf (putf (v.w 3) 8 2 0) 53 5 0
  let w9 := putf (v.w 9) 12 52 ((v.w 9).toNat >>> 32 <<< 20)
  crc32c ([w3, v.w 4, v.w 5, v.w 8, w9, v.w 10, v.w 13].flatMap (fun w => leBytes 8 w.toNat))

/-- R206: the vote word of a class, status and subcode. -/
def voteWord (cls st sub : Nat) : Nat := cls <<< 56 + st <<< 48 + sub <<< 40

/-- R206: a rank's vote at a boundary. -/
def voteNow (s : State) (r : Run) : Nat :=
  match r.bad with
  | some e => voteWord 3 e.1 e.2
  | none => if r.sol.deadline ≠ 0 ∧ r.sol.deadline ≤ s.ltc.toNat then voteWord 1 0 0 else 0

/-- R212: the solve's datapath is busy for `n` ACLK. -/
def solWork (s : State) (j n : Nat) : State := addDiv s (R.SOL_BUSY (j / 12) (j % 12)) 0 32 64 n
/-- R212: ACLK of a product with A. -/
def Mat.cost (m : Mat) : Nat := cdiv ((m.rows.map List.length).sum) (if m.bs = 1 then 16 else 32)

/-- R201, R204: the ranks of this package that wait at the boundary that `r` waits at, once the places that some of them names are all filled: a rank above SPP fills an empty place, and where SPP differs the least serves (log 69). -/
def boundarySet (s : State) (r : Run) : Option (List (Nat × Run)) :=
  let all := s.svus.filterMap (fun kv => kv.2.act.bind (fun q =>
    if q.sol.group = r.sol.group ∧ q.rounds = r.rounds ∧ q.vote.isSome ∧ q.lead = none ∧
       (if r.sol.group = 0xFFFF then q.sol.ctx = r.sol.ctx else partOf s q.sol.ctx = partOf s r.sol.ctx) then some (kv.1, q) else none))
  let full (q : Nat × Run) : Bool :=
    let place (l : Nat) : Bool := all.any (fun x => x.2.sol.lrank == l)
    ((List.range (q.2.sol.spp + 1)).filter (fun l => !place l)).length ≤ (all.filter (fun x => q.2.sol.spp < x.2.sol.lrank)).length
  if all.any full then some all else none

/-- R294, R297: the words of a boundary reduction: an ALLREDUCE on the solve's GROUP, in bulk where its FMAP says so. -/
def boundaryWords (g fmap : Nat) : List Word :=
  if fmap < 2 ^ 32 then [BitVec.ofNat 64 (4 <<< 32), 0, BitVec.ofNat 64 (g + fmap <<< 32), 0, 0, 0, 0, 0]
  else [BitVec.ofNat 64 (0xB <<< 32), 0, BitVec.ofNat 64 g, 0, 0, BitVec.ofNat 64 (cdiv (8 * (fmap - 2 ^ 32)) 64 * 64 + 6 <<< 32), 0, 0]

/-- R104, R201: the slots of the ranks of one package reduced to one. -/
def redHere (s : State) (fmap : Nat) (ins : List (List Nat)) : List Nat :=
  let chunk (fm c : Nat) : List Nat := (redChunk 4 fm 0 0 104 false (s.free + 64 * c) (ins.map (fun v => (v.drop (8 * c)).map (fun n => (n, 0))))).map (·.1)
  if fmap < 2 ^ 32 then chunk fmap 0 else (List.range (cdiv (fmap - 2 ^ 32) 4)).flatMap (fun c => chunk 0xCBCBCBCB c)

/-- R289, R297: what a package contributes to the group: its slots, or, in bulk, one binary64 number per dot product. -/
def boundaryBytes (fmap : Nat) (red : List Nat) : List Byte :=
  if fmap < 2 ^ 32 then red.flatMap (leBytes 8)
  else padTo (cdiv (8 * (fmap - 2 ^ 32)) 64 * 64) ((List.range (fmap - 2 ^ 32)).flatMap (fun i => leBytes 8 (pairVal (nth red (2 * i)) (nth red (2 * i + 1)))))

/-- R201: the slots of a group's result. -/
def boundarySlots (c : Coll) : List Nat :=
  if isBulk c.kind then ((List.range c.n).flatMap (fun i => ((c.res.find? (fun r => r.1 == i)).map (·.2)).getD [])).flatMap (fun e => [e.1, 0])
  else (List.range 8).map (voteSlot c)

/-- R244: a rank's reduction crosses the arch link of its half, both ways. -/
def boundaryMove (s : State) (j ctx bytes : Nat) : State :=
  let src : Src := { srcSvu s j ctx with cls := 0, cat := 1 }
  moveMsg (moveMsg s src 2 bytes true) { src with half := 2 } (j / 12) bytes true

/-- R201, R207, R294: a rank waits at a boundary with its slots; with the last rank of the package, they are reduced here, and across the group by a collective. A free value follows the slots: a RESID that no iterate gives (log 69). -/
def atBoundary (s : State) (j : Nat) (r : Run) (fmap : Nat) (slots : List Nat) : State :=
  let r := { r with vote := some (fmap, slots), vid := s.nextId, since := s.ltc.toNat, dl := s.ltc.toNat + 1000 * max 1 (rdf s R.COL_CFG 0 16), got := none, lead := none }
  let s := setRun { s with nextId := s.nextId + 1 } j r
  match boundarySet s r with
  | none => s
  | some rs =>
    let red := redHere s fmap (rs.map (fun q => (q.2.vote.map (·.2)).getD []))
    let extra := (Config.freeBits 64 (s.free + 64 * red.length)).toNat
    let s := spend s (64 * red.length + 1)
    let far := r.sol.group ≠ 0xFFFF ∨ rs.any (fun q => q.1 / 12 != j / 12)
    let s := if far then rs.foldl (fun s q => boundaryMove s q.1 q.2.sol.ctx (max 64 (boundaryBytes fmap red).length)) s else s
    if r.sol.group = 0xFFFF then rs.foldl (fun s q => setRun s q.1 { q.2 with lead := some j, got := some (0, 0, red ++ [extra]) }) s
    else
      let s := rs.foldl (fun s q => setRun s q.1 { q.2 with lead := some j }) s
      fireColl s (.svu j) r.sol.ctx (boundaryWords r.sol.group fmap) (boundaryBytes fmap red) 16

/-- R209: what a solve writes to its output slot: where and which bytes. -/
def outputBytes (s : State) (src : Src) (r : Run) (m : Mat) : SolOut → State × SolRes (Option (List Byte))
  | .keep => (s, .ok none)
  | .undef => (s, .ok none)
  | .iterate => (s, .ok (some (r.x.flatMap (leBytes 8))))
  | .zeros => (s, .ok (some ((List.replicate m.nrows 0).flatMap (leBytes 8))))
  | .fallback =>
    match readHist s src r.sol m.nrows r.sol.fallback with
    | (s, .ok h) => (s, .ok (some ((extrap r.sol.fallback m.nrows h).flatMap (leBytes 8))))
    | (s, .bad a b) => (s, .bad a b)
    | (s, .wait) => (s, .wait)

/-- R209: write the output slot. -/
def putOutput (s : State) (src : Src) (r : Run) (out : SolOut) : State × SolRes Unit :=
  match r.mat with
  | none => (s, .ok ())
  | some m =>
    let slot := histSlot r.sol m.nrows r.sol.hstep
    match outputBytes s src r m out with
    | (s, .bad a b) => (s, .bad a b)
    | (s, .wait) => (s, .wait)
    | (s, .ok (some bs)) => solPut s src slot bs (fun s => (s, .ok ()))
    | (s, .ok none) => (if out = .undef then vaUndef s src.ctx slot (8 * m.nrows) else s, .ok ())

/-- R213: the result record. -/
def resultRecord (s : State) (r : Run) (st sub cls resid : Nat) : List Byte :=
  leBytes 8 s.ltc.toNat ++ leBytes 1 st ++ leBytes 1 sub ++ leBytes 1 r.flags ++ leBytes 1 r.k ++ leBytes 4 r.iters ++ leBytes 8 resid
    ++ leBytes 4 r.reg ++ leBytes 4 r.clamp ++ leBytes 1 (r.sol.warm + 4 * r.sol.fallback) ++ leBytes 1 cls ++ leBytes 2 r.restarts ++ leBytes 4 0
    ++ leBytes 8 r.start ++ leBytes 8 r.factNs ++ leBytes 8 0

/-- R211, R214: the unit is free: its timer is released, and the solve is counted. -/
def freeSvu (s : State) (j : Nat) (r : Run) (st cls : Nat) : State :=
  let s := setSvu s j { svuOf s j with act := none }
  let s := if r.timer.isSome then putTimers s r.sol.ctx else s
  let a := R.SOL_COUNT (j / 12) (j % 12)
  let s := wrf s a 0 32 (rdf s a 0 32 + 1)
  let s := if cls = 1 ∨ cls = 2 then wrf s a 32 16 (rdf s a 32 16 + 1) else s
  let s := if st = 4 then wrf s a 48 16 (rdf s a 48 16 + 1) else s
  { s with mail := s.mail.filter (fun m => !(m.kind == 0 && m.id == j)), reqs := s.reqs.filter (fun q => q.kind != .halo j) }

/-- R187, R207, R213, R214: a solve that has ended writes its output slot, its result record, and then its arrival counter. While memory waits, nothing happens; a history that cannot be read any more makes the status a fault, and a record that cannot be written raises no counter (log 69). -/
def tryFinish (s0 : State) (j : Nat) : State :=
  match (svuOf s0 j).act with
  | none => s0
  | some r =>
    match r.fin with
    | none => s0
    | some (st0, sub0, cls, out) =>
      let src := srcSvu s0 j r.sol.ctx
      match putOutput s0 src r out with
      | (_, .wait) => s0
      | (s, o) =>
        let (st, sub) := match o with
          | .bad a b => (a, b)
          | _ => (st0, sub0)
        let resid := r.resid.getD (Config.freeBits 64 s.free).toNat
        match vaPut (spend s 1) src r.sol.result (resultRecord s r st sub cls resid) with
        | (_, .wait) => s0
        | (s, .err _) => freeSvu s j r st cls
        | (s, .ok ()) => arrive (freeSvu s j r st cls) r.sol.key r.sol.gen r.sol.cnt

/-- R209: a solve ends with a status, a subcode, the CLASS of its last vote, and an output. -/
def endSolve (s : State) (j : Nat) (r : Run) (st sub cls : Nat) (out : SolOut) : State :=
  tryFinish (setRun s j { r with stage := 6, vote := none, got := none, lead := none, fin := some (st, sub, cls, out) }) j

/-- R194, R211: start the oldest queued solve of a unit: its field and timer checks. -/
def execSolveStart (j : Nat) (s0 : State) : Out :=
  .next (let u := svuOf s0 j
    if !issuing s0 || u.act.isSome || 24 ≤ j then s0
    else
      match u.queue with
      | [] => s0
      | v :: rest =>
        let s := setSvu s0 j { u with queue := rest }
        let r : Run := ⟨v, 1, s.ltc.toNat, 0, 0, 0, 0, 0, 0, 0, 0, 0, none, 0, 0, 0, none, none, none, none, pre0, [], [], inner0, 0, 0, 0, 0, 0, 0, false, none, false, none, none⟩
        if !v.votable then endSolve s j r 0x10 0x46 0 .keep
        else if v.deadline ≠ 0 ∧ claimTimer s v = none then
          (let s := endSolve s j r 0x30 0x49 0 .keep
           conflict s 2 v.ctx 1 1 (some (partOf s v.ctx)) (rd s (R.DSP_TIMER v.ctx)))
        else
          let r := { r with timer := if v.deadline = 0 then none else claimTimer s v, bad := if v.ok then none else some (0x10, 0x46) }
          let s := setRun s j r
          if r.timer.isSome then putTimers s v.ctx else s)

/-- R188, R190, R194: with GROUP 0xFFFF the halo map names ranks of this package alone. -/
def haloLocal (s : State) (v : Solve) (m : Mat) : Bool :=
  v.group != 0xFFFF || m.nbrs.all (fun h => [h.1, h.2].all (fun a => match winCheck s v.ctx (a / 64 * 64) 1 with
    | .ok t _ => t == ownCoord s
    | .err _ _ => false))

/-- R188, R189, R192-R195: the start of a rank: the matrix and the checks of its addresses, and the warm start. -/
def warmWork (s : State) (j : Nat) (r : Run) : State × SolRes Run :=
  let v := r.sol
  let src := srcSvu s j v.ctx
  match readMat s src v with
  | (s, .bad a b) => (s, .bad a b)
  | (s, .wait) => (s, .wait)
  | (s, .ok m) =>
    let n := m.nrows
    let size := workSize v m
    let cut (a n : Nat) : List (Nat × Nat) := pieces a n (n + 1)
    let outs := cut v.result (size.1 + (if (v.w 12).toNat = 0 then size.2 else 0))
      ++ (if (v.w 12).toNat = 0 then [] else cut (v.w 12).toNat size.2) ++ cut (histAgo v n 0) (8 * n)
    let ins := cut (v.w 1).toNat (8 * n) ++ (List.range (max v.warm v.fallback)).flatMap (fun i => cut (histAgo v n (i + 1)) (8 * n))
    match solSpan s v.ctx .write outs with
    | (s, .bad a b) => (s, .bad a b)
    | (s, .wait) => (s, .wait)
    | (s, .ok ()) =>
      match solSpan s v.ctx .read ins with
      | (s, .bad a b) => (s, .bad a b)
      | (s, .wait) => (s, .wait)
      | (s, .ok ()) =>
        if !haloLocal s v m then (s, .bad 0x10 0x46)
        else
          match readHist s src v n v.warm with
          | (s, .bad a b) => (s, .bad a b)
          | (s, .wait) => (s, .wait)
          | (s, .ok h) => (solWork s j (cdiv n 32), .ok { r with mat := some m, x := extrap v.warm n h })

/-- R191, R195, R208: the valid factor that a solve reuses, if REUSE asks for one. -/
def withFactor {α : Type} (s : State) (j : Nat) (v : Solve) (m : Mat) (k : State → Option Factor → State × SolRes α) : State × SolRes α :=
  if !bitw (v.w 9) 14 || v.precond == 3 then k s none
  else
    solRead s (srcSvu s j v.ctx) (factAt v m) 64 (fun s _ =>
      k s (match translate s v.ctx (factAt v m) .read with
        | (_, .ok pa) => s.factors.find? (fun f => f.ctx == v.ctx && f.va == factAt v m && f.hdr == m.hdr && f.pre == v.precond &&
            s.undef.any (fun u => u.1 ≤ pa && pa < u.2.1 && u.2.2 == f.fill))
        | _ => none))

/-- R191, R199, R200: a rank's preconditioner: in use, pivots replaced, quotients clamped. A degraded rank uses Jacobi. -/
def buildPre (v : Solve) (m : Mat) (ix : Nat) : Pre × Nat × Nat :=
  if v.precond = 3 then (pre0, 0, 0)
  else
    let jac := jacobi v.tau m
    if v.precond = 0 then (jac.1, jac.2, 0)
    else
      let f := ilu m v.tau v.bjrows ix
      if f.2.2 = 0 then f else (jac.1, f.2.1 + jac.2, f.2.2)

/-- R187, R193-R195, R199, R200, R208: a rank's setup: the norms of b and A and the preconditioner, in the factor area. A factor that was reused tells no count of replaced pivots: none, or those of its making (log 69). -/
def setupWork (s : State) (j : Nat) (r : Run) (m : Mat) : State × SolRes (Run × List Nat) :=
  let v := r.sol
  let n := m.nrows
  solRead s (srcSvu s j v.ctx) (v.w 1).toNat (8 * n) (fun s bb =>
    withFactor s j v m (fun s old =>
      let b := numsOf 8 n bb
      let ents := m.rows.map (fun row => row.map (fun e => entry32 e.2))
      let s := numAdd s (R.DSP_CTX_NUM_SAT v.ctx) ((ents.map (fun row => (row.map (·.2)).sum)).sum)
      let an := infNorm ((List.range n).map (fun i => c64 (dotRound (((ents.getD i []).map (fun e => e.1.abs)).foldl AccEl.addTerm accEl0) (s.free + i))))
      let bsq := sumSq (s.free + n) b
      let pre : Pre × Nat × Nat := match old with
        | some f => (f.fac, if Config.freeBits 1 (s.free + n + 1) = 0 then 0 else f.reg, 0)
        | none => buildPre v m (s.free + n + 2)
      let s := solWork (spend s (n + 2 + n * (n + 1) * (n + 1))) j (m.cost + cdiv n 64)
      let s := vaUndef s v.ctx (v.result + 64) ((workSize v m).1 - 64)
      let s : State := if old.isSome || v.precond == 3 then s
        else
          let f : Factor := ⟨v.ctx, factAt v m, m.hdr, v.precond, s.free, pre.1, pre.2.1⟩
          let s := vaUndef { s with factors := s.factors.filter (fun f => !(f.ctx == v.ctx && f.va == factAt v m)) } v.ctx (factAt v m) (workSize v m).2
          if pre.2.2 = 0 then { s with factors := s.factors ++ [f] } else s
      let bit (c : Bool) (k : Nat) : Nat := if c then k else 0
      let flags := bit (pre.2.1 != 0) 1 + bit (pre.2.2 != 0) 2 + bit (b.any (fun c => c % 2 ^ 63 != 0)) 4 + bit old.isSome 8
      (s, .ok ({ r with pre := pre.1, reg := pre.2.1, clamp := pre.2.2 }, [solDigest v, solDigest v, flags, bsq.1, bsq.2, an]))))

/-- R203, R265: send the remote halo reads of one exchange: `fp64` chooses the vector. A read that cannot be sent has failed (R282). -/
def sendHalo (s : State) (j : Nat) (r : Run) (m : Mat) (fp64 : Bool) : State × Option (Nat × Nat) :=
  let v := r.sol
  let s : State := { s with mail := s.mail.filter (fun m => !(m.kind == 0 && m.id == j)) }
  ((m.halo.map (fun h => (if fp64 then h.1 else h.2) / 64 * 64)).eraseDups).foldl (fun (acc : State × Option (Nat × Nat)) line =>
    match acc.2 with
    | some _ => acc
    | none =>
      let s := acc.1
      match winCheck s v.ctx line 1 with
      | .err st sub => (xfault s v.ctx st sub 0 v.key 0 line, some (st, if sub = 0x56 then 0x4A else 0x46))
      | .ok tgt addr =>
        if tgt = ownCoord s then acc
        else
          let q := takeSeq s (0x900 + j)
          let p := reqPkt s v.ctx 0x01 tgt addr (0x900 + j) q.1
          match unsendable q.2 p with
          | some (st, cause) => (xfault q.2 v.ctx st cause 0 v.key 0 line, some (st, 0x4A))
          | none => (sendReq q.2 ⟨0x900 + j, q.1, v.key, v.gen, v.ctx, .halo j, line, p, 0, 0, 0, none⟩, none)) (s, none)

/-- A rank leaves a boundary for the next stage. -/
def Run.leave (r : Run) (stage : Nat) : Run := { r with stage := stage, vote := none, got := none, lead := none, rounds := r.rounds + 1 }

/-- R195, R203: begin a product in binary64: x goes to the output slot and the exchange vector, and the halo reads go out; none while memory waits. -/
def startOuter (s : State) (j : Nat) (r : Run) (m : Mat) : Option State :=
  let bs := r.x.flatMap (leBytes 8)
  let src := srcSvu s j r.sol.ctx
  match solPut s src (histAgo r.sol m.nrows 0) bs (fun s => solPut s src (exch64 r.sol) bs (fun s => (s, .ok ()))) with
  | (_, .wait) => none
  | (s, .bad a b) => some (setRun s j { r.leave 3 with bad := r.bad.or (some (a, b)) })
  | (s, .ok ()) =>
    let h := sendHalo s j r m true
    some (setRun h.1 j { r.leave 3 with bad := r.bad.or h.2 })

/-- R197, R203: go on to the next reduction of an inner iteration; before a product, its vector goes to the exchange vector and the halo reads go out. None while memory waits. -/
def stepInner (s : State) (j : Nat) (r : Run) (m : Mat) : Option State :=
  if !r.inn.needsProduct r.sol.method || r.bad.isSome then some (setRun s j (r.leave 4))
  else
    match solPut s (srcSvu s j r.sol.ctx) (exch32 r.sol m) ((r.inn.operand r.sol.method).flatMap (leBytes 4)) (fun s => (s, .ok ())) with
    | (_, .wait) => none
    | (s, .bad a b) => some (setRun s j { r.leave 4 with bad := some (a, b) })
    | (s, .ok ()) =>
      let h := sendHalo s j r m false
      some (setRun h.1 j { r.leave 4 with bad := h.2 })

/-- R203: the fault of a halo line that did not come back whole. -/
def haloBad (s : State) (j : Nat) : Option (Nat × Nat) :=
  (s.mail.filter (fun m => m.kind == 0 && m.id == j)).findSome? (fun m => match m.res with
    | .fail st _ => some (st, 0x4A)
    | .data _ true => some (0x12, 0)
    | .data _ false => none)

/-- R203: a halo entry of `n` bytes: from a line that came back, or from this package's own memory. -/
def haloGet (s : State) (j ctx va n : Nat) : State × SolRes Nat :=
  match s.mail.find? (fun m => m.kind == 0 && m.id == j && m.va == va / 64 * 64) with
  | some m => (match m.res with
    | .data bs _ => (s, .ok (leNat ((bs.drop (va % 64)).take n)))
    | .fail st _ => (s, .bad st 0x4A))
  | none =>
    match winCheck s ctx (va / 64 * 64) 1 with
    | .err st _ => (s, .bad st 0x46)
    | .ok _ addr =>
      let a := addr + va % 64
      match physErr s (.net (partOf s ctx)) a n false with
      | some e => (s, .bad (solErr e).1 (solErr e).2)
      | none =>
        if (linesOf a n).any (lineWaits s) then (s, .wait)
        else
          let q := physRead s (srcSvu s j ctx) a n
          if q.2.2 then (q.1, .bad 0x12 0) else (q.1, .ok (leNat q.2.1))

/-- R203: every halo entry's value: `n` bytes at each address. -/
def haloAll (s : State) (j ctx n : Nat) : List Nat → State × SolRes (List Nat)
  | [] => (s, .ok [])
  | h :: hs =>
    match haloGet s j ctx h n with
    | (s, .bad a b) => (s, .bad a b)
    | (s, .wait) => (s, .wait)
    | (s, .ok x) =>
      match haloAll s j ctx n hs with
      | (s, .ok xs) => (s, .ok (x :: xs))
      | r => r

/-- R195: r = b - Ax, each row's sum in the wide accumulator and rounded once to binary64; the contributions of its norms. -/
def outerWork (s : State) (j : Nat) (r : Run) (m : Mat) : State × SolRes (Run × List Nat) :=
  match haloAll s j r.sol.ctx 8 (m.halo.map (·.1)) with
  | (s, .bad a b) => (s, .bad a b)
  | (s, .wait) => (s, .wait)
  | (s, .ok hx) =>
    solRead s (srcSvu s j r.sol.ctx) (r.sol.w 1).toNat (8 * m.nrows) (fun s bb =>
      let b := numsOf 8 m.nrows bb
      let xs := r.x ++ hx
      let res := (List.range m.nrows).map (fun i =>
        let el := (m.rows.getD i []).foldl (fun el e => el.prod (v64 e.2).neg (v64 (nth xs e.1)) 0) (accEl0.addTerm (v64 (nth b i)))
        c64 (dotRound el (s.free + i)))
      let sq := sumSq (s.free + m.nrows) res
      (solWork (spend s (m.nrows + 1)) j (m.cost + cdiv m.nrows 64), .ok ({ r with res := res }, [sq.1, sq.2, infNorm res, infNorm r.x])))

/-- R195, R203: the product of an inner iteration with the vector that its rank has exchanged; no value for a phase without one. -/
def innerProduct (s : State) (j : Nat) (r : Run) (m : Mat) : State × SolRes (List Nat) :=
  if !r.inn.needsProduct r.sol.method then (s, .ok [])
  else
    match haloAll s j r.sol.ctx 4 (m.halo.map (·.2)) with
    | (s, .ok hx) => (solWork (spend s m.nrows) j m.cost, .ok (spmv m s.free (r.inn.operand r.sol.method ++ hx)))
    | (s, .bad a b) => (s, .bad a b)
    | (s, .wait) => (s, .wait)

/-- R197, R206: a rank's contribution to a reduction of an inner iteration: zeros after a fault, and the vote where the iteration ends. -/
def innerBoundary (s : State) (j : Nat) (r : Run) (prod : List Nat) : State :=
  let me := r.sol.method
  let n := r.inn.r.length
  let w := innerWork me s.free r.inn prod
  let s := solWork (spend s (innerFree n r.inn.basis.length)) j (3 * cdiv n 64)
  let r := { r with inn := w.1 }
  let dots := if r.bad.isSome then w.2.map (fun _ => 0) else w.2
  if r.inn.votes me then
    (let r := { r with iters := r.iters + 1, inIts := r.inIts + 1 }
     atBoundary s j r (fmInner me) (voteNow s r :: dots))
  else atBoundary s j r (if me = 2 then fmGmres r.inn.basis.length else fmDots) dots

/-- R201: no other rank of this package has a result of the last boundary that it has not taken. -/
def othersReady (s : State) (j : Nat) (r : Run) : Bool :=
  s.svus.all (fun kv => kv.1 == j || (match kv.2.act with
    | some q => !(q.sol.group == r.sol.group && q.lead.isSome && q.rounds < r.rounds)
    | none => true))

/-- R206, R208: a rank's setup ends with its vote. -/
def voteSetup (s : State) (j : Nat) (r : Run) (slots : List Nat) : State :=
  let r := { r with factNs := s.ltc.toNat - r.start }
  atBoundary s j r fmSetup (voteNow s r :: slots)

/-- R195, R206, R207: a rank ends its local work of a stage: the warm start, or a boundary at which it votes or contributes; a solve that is finishing goes on with that. -/
def execIterationBoundary (j : Nat) (s : State) : Out :=
  .next (match (svuOf s j).act with
    | none => s
    | some r =>
      if !issuing s || r.vote.isSome || s.reqs.any (fun q => q.kind == .halo j) || !othersReady s j r then s
      else if r.stage = 6 then tryFinish s j
      else
        let bad := r.bad.or (haloBad s j)
        let none6 := [0, 0, 0, 0, 0, 0]
        match r.stage, bad, r.mat with
        | 1, none, _ =>
          (match warmWork s j r with
           | (_, .wait) => s
           | (s, .bad a b) => setRun s j { r with stage := 2, bad := some (a, b) }
           | (s, .ok r) => setRun s j { r with stage := 2 })
        | 2, none, some m =>
          (match setupWork s j r m with
           | (_, .wait) => s
           | (s, .bad a b) => voteSetup s j { r with bad := some (a, b) } none6
           | (s, .ok (r, slots)) => voteSetup s j r slots)
        | 3, none, some m =>
          (match outerWork s j r m with
           | (_, .wait) => s
           | (s, .bad a b) => (let r := { r with bad := some (a, b) }; atBoundary s j r fmOuter [voteNow s r, 0, 0, 0, 0])
           | (s, .ok (r, slots)) => atBoundary s j r fmOuter (voteNow s r :: slots))
        | 4, none, some m =>
          (match innerProduct s j r m with
           | (_, .wait) => s
           | (s, .bad a b) => innerBoundary s j { r with bad := some (a, b) } []
           | (s, .ok p) => innerBoundary s j r p)
        | 3, _, _ => (let r := { r with bad := bad }; atBoundary s j r fmOuter [voteNow s r, 0, 0, 0, 0])
        | 4, _, _ => innerBoundary s j { r with bad := bad } []
        | _, _, _ => voteSetup s j { r with stage := 2, bad := bad.or (some (0x10, 0x46)) } none6)

/-- R195, R196: the floor and target tests of an iterate's reduced norms. -/
def floorTest (r : Run) : Bool :=
  (v64 r.ri).isFin && (v64 r.an).isFin && (v64 r.xi).isFin && (v64 r.ri).dy.le (((v64 r.an).dy.mul (v64 r.xi).dy).scale (-50))
/-- R195: the target test. -/
def targetTest (r : Run) : Bool := match r.resid with
  | some c => fLe (v64 c) r.sol.tol
  | none => false

/-- R199, R209: the success status of a solve. -/
def okStatus (r : Run) : Nat := if r.flags % 2 = 1 then 4 else 0
/-- R200, R209: the subcode that tells of a degraded preconditioner. -/
def degSub (r : Run) : Nat := if r.flags / 2 % 2 = 1 then 0x41 else 0

/-- R196: note that the floor test held at the end. -/
def Run.floored (r : Run) : Run := if floorTest r then { r with flags := r.flags % 4 + 4 + r.flags / 8 * 8 } else r

/-- R209: the end of a solve that a deadline stopped, on the norms of x + d. -/
def deadlineEnd (s : State) (j : Nat) (r : Run) (cls : Nat) : State :=
  let ok := match r.resid with
    | some c => fLe (v64 c) (f64 (r.sol.w 5))
    | none => false
  if floorTest r || targetTest r then endSolve s j r.floored (okStatus r) (degSub r) cls .iterate
  else if ok then endSolve s j r 2 (degSub r) cls .iterate
  else endSolve s j r 3 (degSub r) cls .fallback

/-- R195, R205, R208, R209: the setup vote has come back: its flags hold from now on, however the solve ends. -/
def afterSetup (s : State) (j : Nat) (r : Run) (m : Mat) (cls sub : Nat) (sl : List Nat) : Option State :=
  if cls ≠ 0 then some (endSolve s j r 3 (if cls = 2 then sub else 0) cls .fallback)
  else startOuter s j { r with bn := normOf (nth sl 4) (nth sl 5), an := nth sl 6, resid := none } m

/-- R195, R207, R209: an outer boundary has come back: the tests of steps 5 to 8, or the end after a deadline. -/
def afterOuter (s : State) (j : Nat) (r : Run) (m : Mat) (cls : Nat) (sl : List Nat) : Option State :=
  let rn := normOf (nth sl 1) (nth sl 2)
  let prev := r.rn
  let r := { r with rn := rn, ri := nth sl 3, xi := nth sl 4, resid := some (if r.bzero then nth sl 8 else c64 (fDiv (v64 rn) (v64 r.bn))) }
  if r.final then some (deadlineEnd s j r 1)
  else if r.bzero then some (endSolve s j { r with flags := r.flags % 4 + 4 + r.flags / 8 * 8 } (okStatus r) (degSub r) cls .zeros)
  else if cls ≠ 0 then some (deadlineEnd s j r cls)
  else if floorTest r || targetTest r then some (endSolve s j r.floored (okStatus r) (degSub r) cls .iterate)
  else if r.k ≠ 0 && fLt (fMul (f64 (r.sol.w 13)) (v64 prev)) (v64 rn) then some (endSolve s j r 0x31 0x45 cls .iterate)
  else if r.k = fld (r.sol.w 9) 6 4 then some (endSolve s j r 0x31 0x42 cls .iterate)
  else if r.sol.maxit ≤ r.iters then some (endSolve s j r 0x31 0x43 cls .iterate)
  else stepInner (spend s (innerFree m.nrows 1)) j { r with inIts := 0, prev := rn, inn := innerStart r.sol.method r.pre s.free r.res rn } m

/-- R195, R197, R207: the vote of an inner iteration has come back. -/
def afterInner (s : State) (j : Nat) (r : Run) (m : Mat) (cls : Nat) (sl : List Nat) : Option State :=
  let me := r.sol.method
  let v := innerVoted me r.inn sl 1
  let r := { r with inn := v.1 }
  let cost := innerFree m.nrows r.inn.basis.length
  let done := fLe (v64 v.2) (fMul (f64 (r.sol.w 10)) (v64 r.prev))
  let lim := fld (r.sol.w 9) 32 32
  let added := { r with x := addD r.x (innerD me s.free r.inn) }
  let s1 := solWork (spend s cost) j (cdiv m.nrows 32)
  if cls ≠ 0 then startOuter s1 j { added with final := true } m
  else if r.inn.brk then some (endSolve s j r 0x31 0x44 cls .iterate)
  else if done || (lim != 0 && lim ≤ r.inIts) then startOuter s1 j { added with k := r.k + 1 } m
  else if r.sol.maxit ≤ r.iters then some (endSolve s j r 0x31 0x43 cls .iterate)
  else
    let again := me == 2 && r.sol.restart + 1 ≤ r.inn.rots.length
    stepInner (spend s cost) j { r with inn := innerNext me (r.sol.restart + 1) r.pre s.free r.inn sl 1, restarts := if again then r.restarts + 1 else r.restarts } m

/-- R201: the group's reduction that a unit fired has come back: every rank of the package has its result. -/
def shareResult (s : State) (j : Nat) : State :=
  match (svuOf s j).act.bind (·.lead) with
  | none => s
  | some l =>
    match s.colls.find? (fun c => c.user == .svu l && c.done) with
    | none => s
    | some c =>
      let st := collStatus s c
      let slots := boundarySlots c ++ [(Config.freeBits 64 s.free).toNat]
      s.svus.foldl (fun s kv => match kv.2.act with
        | some r => if r.lead = some l ∧ r.got = none then setRun s kv.1 { r with got := some (st.1, st.2, slots) } else s
        | none => s) (collEnd (spend s 1) c)

/-- R201, R206-R210: a rank goes on from a boundary with its reduced slots; none while memory waits. A reduction without a vote decides nothing. -/
def tookResult (s : State) (j : Nat) (r : Run) (st : Nat) (sl : List Nat) : Option State :=
  let cls := nfld (nth sl 0) 56 8
  let votes := r.stage ≠ 4 ∨ r.inn.votes r.sol.method
  if 0x10 ≤ st then some (endSolve s j r st 0x4A 0 .undef)
  else
    let setup := r.stage = 2
    let r := if setup then { r with flags := nth sl 3 &&& 0b1011, bzero := !(nth sl 3).testBit 2, resid := some (nth sl 8) } else r
    if setup ∧ nth sl 1 ≠ nth sl 2 ∧ cls ≠ 3 then some (endSolve s j r 0x11 0x48 cls .keep)
    else if votes ∧ cls = 3 then some (endSolve s j r (nfld (nth sl 0) 48 8) (nfld (nth sl 0) 40 8) 3 (if setup then .keep else .undef))
    else
      match r.mat with
      | none => some (endSolve s j r 0x10 0x46 cls .keep)
      | some m =>
        if setup then afterSetup s j r m cls (nfld (nth sl 0) 40 8) sl
        else if r.stage = 3 then afterOuter s j r m cls sl
        else if votes then afterInner s j r m cls sl
        else
          stepInner (spend s (innerFree m.nrows r.inn.basis.length)) j { r with inn := innerMid r.sol.method r.pre s.free r.inn sl } m

/-- R206-R210, R214: a rank takes the result of its boundary's reduction; the wait is counted. -/
def execBoundaryReductionResult (j : Nat) (s : State) : Out :=
  .next (let s := shareResult s j
    match (svuOf s j).act with
    | none => s
    | some r =>
      match r.got with
      | none => s
      | some (st, _, sl) =>
        let wait := (s.ltc.toNat - r.since) * rdf s R.CLK_STATUS 8 8 / 20
        match tookResult (addDiv s (R.SOL_BUSY (j / 12) (j % 12)) 32 32 64 wait) j r st sl with
        | some t => t
        | none => s)

/-- R208: the deadline passes during a rank's setup: it abandons its factor, marks the factor area invalid, and votes class 2 at once. A factor that it reuses was complete, and stays. -/
def execSolveDeadlineExpiry (j : Nat) (s : State) : Out :=
  .next (match (svuOf s j).act with
    | none => s
    | some r =>
      if !issuing s || r.stage ≠ 2 || r.vote.isSome || r.bad.isSome || r.sol.deadline = 0 || s.ltc.toNat < r.sol.deadline then s
      else
        match r.mat with
        | none => s
        | some m =>
          match withFactor s j r.sol m (fun s old => (s, .ok old.isSome)) with
          | (_, .wait) => s
          | (s, o) =>
            let kept := match o with
              | .ok k => k
              | _ => false
            let s : State := if kept || r.sol.precond == 3 then s
              else vaUndef { s with factors := s.factors.filter (fun f => !(f.ctx == r.sol.ctx && f.va == factAt r.sol m)) } r.sol.ctx (factAt r.sol m) (workSize r.sol m).2
            atBoundary s j { r with factNs := s.ltc.toNat - r.start } fmSetup [voteWord 2 0 0x40, solDigest r.sol, solDigest r.sol, 0, 0, 0, 0])

/-- R204, R210, R301: the watchdog of a collective expires, or that of a rank that waits for the others of its own package. -/
def execCollWatchdog (id : Nat) (s : State) : Out :=
  match s.svus.findSome? (fun kv => kv.2.act.bind (fun r => if r.vid = id ∧ r.vote.isSome ∧ r.lead = none then some (kv.1, r) else none)) with
  | some (j, r) => .next (if s.ltc.toNat < r.dl then s else addSat (endSolve s j r 0x24 0x4A 0 .undef) R.COL_STAT 32 32 1)
  | none => collWatchdog id s

end Sys2Proof.Machine
end

