-- ==== Sys2Proof/Machine/Preempt.lean ====
section
/-! DEFINITION. Preemption and restore (R48-R52): stopping a context, saving its image, and taking it up again. -/

namespace Sys2Proof.Machine

/-- R72: a stopped thread runs its waiting instruction again from the start. -/
def restartPhase : Phase → Phase
  | .fault => .fault
  | _ => .run

/-- R49: the largest N-core save image, in bytes. -/
abbrev imageBytes : Nat := 2863360

/-- R49: the bytes of an N-core's image: the local store and the register state, and each queued tile. -/
def imageSize (n : NCore) : Nat := 2334720 + 16520 * (n.streams.map (fun st => st.tiles.length)).sum

/-- R49: setting NCO_PREEMPT.REQ stops issue and starts the save of the context on a core; a core that runs nothing has none to preempt. -/
def execNcoPreemptReq (core : Nat) (v : Word) (s : State) : Out :=
  .next (let a := R.NCO_PREEMPT (halfOf s core) (dieCore s core)
    if 2 * nCores s ≤ core then s
    else
      let t := th s core
      let s := regPut s a (putf v 0 1 (rdf s a 0 1))
      if !bitw v 0 || t.phase == .idle then s
      else wrf (setTh s core { t with saving := some s.ltc.toNat }) a 0 1 1)

/-- R49, R50, R120: the image of an N-core: accumulators that hold a pass are saved as pairs. -/
def coreImage (s : State) (core : Nat) : Image :=
  let n := nc s core
  let lo := storeBase (halfOf s core) (dieCore s core)
  let hi := lo + 0x200000
  let t := th s core
  ⟨core, { t with phase := restartPhase t.phase, saving := none },
    { n with acc := n.acc.map (fun kv => (kv.1, if kv.2.owner = 1 ∨ kv.2.owner = 2 then kv.2.save (s.free + 4096 * kv.1) else kv.2)) },
    s.mem.filter (fun c => lo ≤ c.1 && c.1 < hi),
    s.undef.filterMap (fun u => if u.1 < hi ∧ lo < u.2.1 then some (max lo u.1, min hi u.2.1, u.2.2) else none),
    s.poison.filter (fun l => lo / 64 ≤ l && l < hi / 64), []⟩

/-- R49, R52, R264: the save of an N-core's context ends, once its FABRIC reads and its atomic have: DONE is set, and a preempted core is free. The layout of the image in memory is not given, so the save area's contents are undefined. -/
def execPreemptSaveDone (core : Nat) (s : State) : Out :=
  .next (let t := th s core
    let h := halfOf s core
    let k := dieCore s core
    let a := R.NCO_PREEMPT h k
    match t.saving with
    | none => s
    | some t0 =>
      if 2 * nCores s ≤ core ∨ t.phase = .atomic ∨ s.reqs.any (fun r => r.eng == 0xA00 + core && (match r.kind with | .get _ _ _ => true | _ => false)) then s
      else
        let base := rdf s (R.NCO_SAVE_BASE h k) 12 36 * 4096
        let req := rdf s a 0 1 = 1
        let im := coreImage s core
        let s := spend s 16384
        let s := match physErr s .dev base imageBytes true with
          | none => moveLines (memUndef s base (base + imageBytes)) (srcBulk s core t.ctx true) base (imageSize (nc s core)) true
          | some _ => s
        let s : State := { s with getTiles := s.getTiles.filter (fun g => g.core ≠ core) }
        let s := wrf (wrf s a 1 1 1) a 0 1 0
        if req then takeUp (freeThread { wrf s a 32 32 (s.ltc.toNat - t0) with images := s.images ++ [im] } core) core
        else setTh s core { t with phase := restartPhase t.phase, saving := none })

/-- R51, R178: the dispatcher preempts an S-core thread: at an instruction boundary its image is saved and the thread is free. In a gather or an atomic the thread first finishes what is outstanding, and the next command of this kind saves it. -/
def execSCorePreemption (t : Tid) (s : State) : Out :=
  .next (let key := tkey t
    let n := th s key
    if !isS key || n.phase == .idle then s
    else
      let s := if n.phase = .gather ∨ n.phase = .atomic then
          gatherStep key 600 (setTh s key { n with saving := some (n.saving.getD s.ltc.toNat) })
        else s
      let n := th s key
      if n.phase = .gather ∨ n.phase = .atomic then s
      else
        let im : Image := ⟨key, { n with phase := restartPhase n.phase, saving := none }, ncore0, [], [], [], []⟩
        takeUp (freeThread { s with images := s.images ++ [im] } key) key)

/-- R48-R51: a free core or thread takes up a preempted context again: its image is restored, and the increments held with it are applied. -/
def execContextRestore (t : Tid) (ctx : Nat) (s : State) : Out :=
  .next (let key := tkey t
    match s.images.find? (fun im => im.key == key && im.th.ctx == ctx) with
    | none => s
    | some im =>
      if (th s key).phase ≠ .idle then s
      else
        let s : State := { s with images := s.images.erase im }
        let n := im.held.foldl (fun n c => ctrAdd n c 1) im.th
        let s := setTh s key n
        if isS key then goOn s key
        else
          let h := halfOf s key
          let k := dieCore s key
          let s := moveLines s (srcBulk s key ctx true) (rdf s (R.NCO_SAVE_BASE h k) 12 36 * 4096) (imageSize im.nc) false
          let s := memClear (setNc s key im.nc) (storeBase h k) (storeBase h k + 0x200000)
          let s : State := { memRestore s im.store with undef := im.undef ++ s.undef, poison := im.poison.foldl (fun p l => ninsert l p) s.poison }
          let s := wr s (R.NCO_CTX h k) (BitVec.ofNat 64 (ctx + (partOf s ctx) <<< 8 + 1 <<< 16))
          if n.phase = .fault then s else goOn (reviveCore s key) key)

end Sys2Proof.Machine
end

