-- ==== Sys2Proof/Machine/Control.lean ====
section
/-! DEFINITION. Control and synchronisation (R45, R54, R56, R69-R72): branches, END, TRACE, counters and waits, FENCE, and the faults of fetching a word. -/

namespace Sys2Proof.Machine

/-- R69: the pc-relative target of BR and JAL. -/
def relTarget (t : Thread) (o : Opnds) : Word := t.pc + 8 * sx32 o.imm

/-- R69: BR. -/
def execBr (t : Tid) (o : Opnds) (s : State) : Out :=
  insn s t o 0x02 none (some ⟨0, 0, imAll⟩) (fun key s => .jump s (relTarget (th s key) o))

/-- R69: JAL. -/
def execJal (t : Tid) (o : Opnds) (s : State) : Out :=
  insn s t o 0x02 none (some ⟨64, 0, imAll⟩) (fun key s =>
    let t0 := th s key
    .jump (setTh s key (setX t0 o.d.toNat (t0.pc + 8))) (relTarget t0 o))

/-- R69: JR; a target that is not a multiple of 8 is misaligned. The immediate is a signed byte offset (log 59). -/
def execJr (t : Tid) (o : Opnds) (s : State) : Out :=
  insn s t o 0x02 none (some ⟨64, 64, imAll⟩) (fun key s =>
    let t0 := th s key
    let tgt := xr t0 o.a.toNat + sx32 o.imm
    if tgt.toNat % 8 ≠ 0 then .trap s 0x10 0x15 0
    else .jump (setTh s key (setX t0 o.d.toNat (t0.pc + 8))) tgt)

/-- R69: NOP. -/
def execNop (t : Tid) (o : Opnds) (s : State) : Out := insn s t o 0x02 none (some ⟨0, 0, 0⟩) (fun _ s => .done s)

/-- R70: work that a thread has started and that has not finished; an EWE.STR still at its station counts (DEDUCED: an instruction that has issued takes effect). -/
def hasWork (s : State) (key : Nat) : Bool :=
  let g := (th s key).gen
  (!isS key && (!(nc s key).streams.isEmpty || !(nc s key).stored.isEmpty || (nc s key).ewIn.any (fun c => c.op == 0x0D) ||
    s.cpes.any (fun kv => kv.2.reqs.any (fun r => r.core == key && r.gen == g)) ||
    s.landing.any (fun l => l.2.1 == key && l.2.2.1 == g) || s.putTiles.any (fun p => p.core == key && p.gen == g))) ||
  s.xfers.any (fun x => x.key == key && x.gen == g) ||
  s.svus.any (fun kv => kv.2.queue.any (fun v => v.key == key && v.gen == g) || (match kv.2.act with
    | some r => r.sol.key == key && r.sol.gen == g
    | none => false))

/-- R70: END stalls until the thread's started work has finished, then stops the thread and reports it. -/
def execEndProg (t : Tid) (o : Opnds) (s : State) : Out :=
  insn s t o 0x02 none (some ⟨0, 0, 0⟩) (fun key s => .stay (if hasWork s key then s else endThread s key))

/-- R71, R330: TRACE. -/
def execTrace (t : Tid) (o : Opnds) (s : State) : Out :=
  insn s t o 0x02 none (some ⟨0, 64, 0xFF⟩) (fun key s =>
    let t0 := th s key
    let id := o.imm.toNat % 256
    if confidential s || !bitw (rd s (R.DSP_CTX_TRACE_EN t0.ctx (id / 64))) (id % 64) then .done s
    else if 1024 ≤ s.traceQ.length then .done (numAdd s (R.DSP_CTX_TRACE_DROP t0.ctx) 1)
    else .done { s with traceQ := s.traceQ ++ [⟨partOf s t0.ctx, t0.ctx, s.ltc, id, coreOf key, (if isS key then 128 else 0) + lane key, xr t0 o.a.toNat⟩] })

/-- R45: SETC. -/
def execSetc (t : Tid) (o : Opnds) (s : State) : Out :=
  insn s t o 0x03 none (some ⟨32, 0, imAll⟩) (onTh (fun t0 => setC t0 o.d.toNat o.imm))

/-- R45: a counter has reached a threshold: their signed 32-bit difference is not negative. -/
def reached (t : Thread) (c : Nat) (thr : Half) : Bool := !(cr t c - thr).msb

/-- R45, R72: wait for a counter. -/
def waitFor (key : Nat) (s : State) (c : Nat) (thr : Half) : Res :=
  if reached (th s key) c thr then .done s else .stay (setTh s key { th s key with phase := .waitCtr c thr })

/-- R45: WAIT. -/
def execWait (t : Tid) (o : Opnds) (s : State) : Out :=
  insn s t o 0x03 none (some ⟨0, 32, imAll⟩) (fun key s => waitFor key s o.a.toNat o.imm)

/-- R72: WAITR. -/
def execWaitr (t : Tid) (o : Opnds) (s : State) : Out :=
  insn s t o 0x03 (some ⟨0, 32, 64, 0, 0⟩) none (fun key s => waitFor key s o.a.toNat ((xr (th s key) o.b.toNat).truncate 32))

/-- R72: a WAITD ends: pD says whether its counter condition holds, in every bit (log 59). -/
def waitdEnd (s : State) (key c : Nat) (thr : Half) (pd : Nat) : State :=
  let t := th s key
  retire (setTh s key { setP (isS key) t pd (allP (reached t c thr)) with phase := .run }) key

/-- R72: WAITD, in its R form alone (log 59): it ends at once when the counter condition holds or the deadline has come. -/
def execWaitd (t : Tid) (o : Opnds) (s : State) : Out :=
  insn s t o 0x03 (some ⟨16, 32, 64, 64, 0⟩) none (fun key s =>
    let t0 := th s key
    let thr : Half := (xr t0 o.b.toNat).truncate 32
    let dl := xr t0 o.c.toNat
    if reached t0 o.a.toNat thr || dl.toNat ≤ s.ltc.toNat then .stay (waitdEnd s key o.a.toNat thr o.d.toNat)
    else .stay (setTh s key { t0 with phase := .waitDl o.a.toNat thr dl o.d.toNat }))

/-- R45, R72: a stalled wait retires when its counter condition holds. -/
def execWaitRelease (t : Tid) (s : State) : Out :=
  .next (let key := tkey t
    let n := th s key
    if !issuing s || n.saving.isSome then s
    else match n.phase with
      | .waitCtr c thr => if reached n c thr then retire (setTh s key { n with phase := .run }) key else s
      | .waitDl c thr _ pd => if reached n c thr then waitdEnd s key c thr pd else s
      | _ => s)

/-- R72: a WAITD whose deadline has come ends. -/
def execWaitdDeadline (t : Tid) (s : State) : Out :=
  .next (let key := tkey t
    let n := th s key
    if !issuing s || n.saving.isSome then s
    else match n.phase with
      | .waitDl c thr dl pd => if dl.toNat ≤ s.ltc.toNat then waitdEnd s key c thr pd else s
      | _ => s)

/-- R72: FENCE. -/
def execFence (t : Tid) (o : Opnds) (s : State) : Out :=
  insn s t o 0x03 (some ⟨0, 0, 0, 0, 0⟩) none (fun key s => .stay (setTh s key { th s key with phase := .fence }))

/-- R72, R247, R248: the fencing thread's earlier stores have been acknowledged, with every invalidation they caused, and it goes on. -/
def execFenceComplete (t : Tid) (s : State) : Out :=
  .next (let key := tkey t
    let n := th s key
    if n.phase = .fence ∧ n.saving.isNone ∧ issuing s ∧ acked s key then retire (setTh s key { n with phase := .run }) key else s)

/-- R54-R57: the word that a thread fetches at its pc, when the fetch raises no fault. -/
def fetchedWord (s : State) (key : Nat) : Option Word :=
  let n := th s key
  if n.pc.toNat % 8 ≠ 0 then none
  else
    match (translate s n.ctx n.pc.toNat .exec).2 with
    | .ok pa => if (physErr s (.ctx n.ctx) pa 8 false).isSome || s.poison.contains (pa / 64) then none else some (BitVec.ofNat 64 (leNat (memGet s pa 8)))
    | _ => none

/-- R54-R57: the command that the word at a thread's pc spells. -/
def nextCommand (s : State) (t : Tid) : Option Instr := (fetchedWord s (tkey t)).bind (decodeDeash t)

/-- R56-R58, R85: a fetched word of a reserved class or OP, or with a wrong format bit; a class of the other profile. -/
def execIllegalEncoding (t : Tid) (cls : Nat) (s : State) : Out :=
  .next (let key := tkey t
    if !canIssue s key then s
    else if classOk cls (!isS key) && !classOk cls (isS key) then insnFault s key cls 0x11 0x10 0
    else insnFault s key cls 0x11 0x11 0)

/-- R54, R85: the fetch at a thread's pc faults: it is misaligned, does not translate, or lies in a page without execute permission. -/
def execFetchFault (t : Tid) (s : State) : Out :=
  .next (let key := tkey t
    let n := th s key
    if !canIssue s key then s
    else if n.pc.toNat % 8 ≠ 0 then insnFault s key 0 0x10 0x15 0
    else
      match translate s n.ctx n.pc.toNat .exec with
      | (s, .err e) => insnFault s key 0 (fetchCode e).1 (fetchCode e).2 0
      | (_, .wait) => s
      | (s1, .ok pa) =>
        match physErr s1 (.ctx n.ctx) pa 8 false with
        | some e => insnFault s1 key 0 (fetchCode e).1 (fetchCode e).2 0
        | none => if s1.poison.contains (pa / 64) then insnFault s1 key 0 0x12 0 0 else s)

end Sys2Proof.Machine
end

