-- ==== Sys2Proof/Machine/Power.lean ====
section
/-! DEFINITION. Clocks, power and regimes while the package runs (R27, R28, R30, R386, R413, R419, R421-R425, R435): the reference, rails, sampling and throttling, regime changes, and test access. -/

namespace Sys2Proof.Machine

/-- R28, R30, R332: the reference is absent for more than 1 us: the LTC goes over to the oscillator; with the root PLL locked the loss is fatal. -/
def execRefclkLoss (s : State) : Out :=
  .next (if !s.refOk || unpowered s then s
    else
      let locked := bitw (rd s R.CLK_STATUS) 0
      let c := putf (putf (putf (putf (rd s R.CLK_STATUS) 0 2 0) 2 1 1) 3 1 0) 4 1 1
      let s : State := { wr s R.CLK_STATUS c with refOk := false }
      if locked then wrf (fatal s 1 0 0) R.PLK_STAT 0 4 0 else s)

/-- R30: the reference returns: the LTC goes back to it, without a step backward. -/
def execRefclkReturn (s : State) : Out := .next (if s.refOk then s else wrf { s with refOk := true } R.CLK_STATUS 4 1 0)

/-- R386, R413: a rail has been out of regulation for 20 us: fatal, and every main rail goes down. -/
def execRailFault (rail : Nat) (s : State) : Out :=
  .next (if 11 ≤ rail ∨ unpowered s then s
    else
      let s := wrf s R.PWR_RAIL (16 + rail) 1 1
      let s := fatal (wrf s R.PWR_RAIL rail 1 0) 5 0 0
      wrf s R.PWR_RAIL 1 11 0)

/-- R386: a hardware sequencer of a die has not completed within its limit: fatal. -/
def execSequencerTimeout (die : Nat) (s : State) : Out := .next (if unpowered s then s else fatal s 6 die 0)

/-- R419: a die's sequencer heartbeat is missing: ALIVE stops at its last level, and nothing else changes. -/
def execSequencerHeartbeatLost (_die : Nat) (s : State) : Out := .next (if s.alive = 1 then { s with alive := 2 } else s)

/-- R422, R425: the mean of the input power over the last 100 us, in W. -/
def meanPower (s : State) : Nat := let l := s.powHist.take 10; if l.isEmpty then 0 else l.sum / l.length

/-- R422: change DUTY. -/
def setDuty (s : State) (d : Nat) : State := wrf s R.PWR_THROTTLE 0 7 (min 64 d)

/-- R422: the input power is sampled, with its voltage and current: DUTY follows the cap, rising only while no die is above the thermal threshold; the time below 64 counts, and the bits of the causes stand until DUTY is 64 again (log 53). -/
def execPowerSample (w mv ca : Nat) (s : State) : Out :=
  .next (if unpowered s then s
    else
      let s : State := { s with powHist := (w :: s.powHist).take 100 }
      let s := wr s R.PWR_POWER (putf (putf (putf (rd s R.PWR_POWER) 0 16 (s.powHist.sum / s.powHist.length)) 16 16 mv) 32 16 ca)
      if !issuing s then s
      else
        let cap := rdf s R.PWR_POWER 48 16
        let m := (s.powHist.take 10).sum
        let n := (s.powHist.take 10).length
        let duty := rdf s R.PWR_THROTTLE 0 7
        let s := if cap * n < m then wrf (setDuty s (duty - 1)) R.PWR_THROTTLE 8 1 1
          else if m * 100 < cap * n * 97 ∧ rdf s R.PWR_THERM 0 16 ≤ rdf s R.PWR_THERM 32 8 * 10 ∧ s.dutyAt + 100000 ≤ s.ltc.toNat ∧ duty < 64 then
            { setDuty s (duty + 1) with dutyAt := s.ltc.toNat }
          else s
        if rdf s R.PWR_THROTTLE 0 7 < 64 then addSat s R.PWR_THROTTLE 32 32 10 else wrf s R.PWR_THROTTLE 8 2 0)

/-- R423: junction temperatures are sensed, in 0.1 degrees, one per die in the order of R24: the hottest is shown and throttles. -/
def execThermalSample (temps : List Nat) (s : State) : Out :=
  .next (if unpowered s then s
    else
      let hot := temps.foldl max 0
      let die := (temps.findIdx? (· == hot)).getD 0
      let s := wr s R.PWR_THERM (putf (putf (rd s R.PWR_THERM) 0 16 hot) 16 3 die)
      if !issuing s then s
      else
        let duty := rdf s R.PWR_THROTTLE 0 7
        let lim := rdf s R.PWR_THERM 32 8 * 10
        if lim < hot ∨ 1050 ≤ hot then
          wrf (setDuty s (if 1050 ≤ hot then min 8 (duty - 1) else duty - 1)) R.PWR_THROTTLE 9 1 1
        else s)

/-- R386, R390, R423: a die has been above 110 degrees for 1 ms: a THERMAL record, then fatal. -/
def execThermalTrip (die temp : Nat) (s : State) : Out :=
  .next (if unpowered s || pwrState s == 4 || temp ≤ rdf s R.PWR_THERM 40 8 * 10 then s
    else
      let s := wr s R.PWR_THERM (putf (putf (rd s R.PWR_THERM) 0 16 temp) 16 3 die)
      fatal (bbx s true 0x03 die 0 0 (leBytes 1 die ++ leBytes 1 (rdf s R.PWR_THERM 40 8) ++ leBytes 2 temp)) 4 die 0)

/-- R424: a refused change of regime. -/
def regimeRefuse (s : State) (st sub : Nat) : State :=
  let s := wr s R.PWR_CFG_ERR (BitVec.ofNat 64 (st + sub <<< 8 + 1 <<< 63))
  if st = 0x30 then conflict s 0 0 0 0 none (rd s R.PWR_CFG_ERR) else s

/-- R390, R421: a change of regime is complete: its record. -/
def regimeRecord (s : State) : State := bbx s false 0x02 0 0 0 (leBytes 8 s.regimeOld ++ leBytes 8 (regimeWord s))

/-- R424, R425: a write of PWR_REGIME with APPLY: refused, or in force at once, or, into or out of FRUGAL, the start of a change. -/
def regimeWrite (s : State) (v : Word) : State :=
  let w := rd s R.PWR_REGIME
  if !bitw v 63 || bitw w 62 || !issuing s then s
  else if fld v 0 2 = 3 then regimeRefuse s 0x10 0
  else if bitw v 8 != bitw w 8 && (List.range 64).any (ctxValid s) then regimeRefuse s 0x30 0xD0
  else if bitw v 10 != bitw w 10 then regimeRefuse s 0x30 0xD0
  else
    let s : State := { s with regimeOld := regimeWord s }
    let s := wrf s R.PWR_REGIME 8 2 (fld v 8 2)
    let now := fld w 0 2
    let tgt := fld v 0 2
    if now ≠ tgt ∧ (now = 2 ∨ tgt = 2) then
      (let s := wrf (wrf s R.PWR_REGIME 62 1 1) R.PWR_STAT 0 4 3
       let s := if tgt = 2 then wrf s R.PWR_POWER 48 16 (capOf 2) else s
       { s with regimeTo := some tgt })
    else
      let s := wrf (wrf s R.PWR_REGIME 0 2 tgt) R.PWR_POWER 48 16 (capOf tgt)
      if regimeWord s = s.regimeOld then s else regimeRecord s

/-- R424, R425: a change of the power regime. -/
def execPwrRegimePowerChange (v : Word) (s : State) : Out := .next (regimeWrite s v)
/-- R424: a change of PRECISION. -/
def execPwrRegimePrecisionChange (v : Word) (s : State) : Out := .next (regimeWrite s v)
/-- R424: a change of LATENCY. -/
def execPwrRegimeLatencyChange (v : Word) (s : State) : Out := .next (regimeWrite s v)

/-- R425: steps 2 and 3 begin (entering FRUGAL, once the 100 us mean is below the cap; leaving it, once the rails are raised): HBM is held, and ROOT slews. -/
def execFrugalChangeProceeds (s : State) : Out :=
  .next (match s.regimeTo with
    | none => s
    | some tgt =>
      if s.hbmHeld || pwrState s != 3 || (tgt == 2 && rdf s R.PWR_POWER 48 16 ≤ meanPower s) then s
      else { wrf s R.CLK_STATUS 1 1 1 with hbmHeld := true, hbmHeldAt := s.ltc.toNat })

/-- R425: the slew ends: the PHYs relock, HBM resumes, and the change is complete. -/
def execSlewEnd (s : State) : Out :=
  .next (match s.regimeTo with
    | none => s
    | some tgt =>
      if !s.hbmHeld || pwrState s != 3 then s
      else
        let s : State := { s with hbmHeld := false, regimeTo := none, ltcPhase := 0 }
        let s := wrf (wrf s R.CLK_STATUS 1 1 0) R.CLK_STATUS 8 8 (if tgt = 2 then 64 else 80)
        let s := wrf (wrf (wrf s R.PWR_REGIME 0 2 tgt) R.PWR_REGIME 62 1 0) R.PWR_POWER 48 16 (capOf tgt)
        ckpPump (regimeRecord (wrf s R.PWR_STAT 0 4 2)))

/-- R435: the test access port accepts an instruction in this state. -/
def tapAccepts (s : State) (i : TapIns) : Bool :=
  match i with
  | .bypass => true
  | .idcode => true
  | .sample => !confidential s && !Config.lockFused
  | .extest => !confidential s && !Config.lockFused && (pwrState s == 4 || rdf s R.PWR_RAIL 1 11 == 0)
  | .debug => !confidential s && !Config.lockFused && pwrState s != 4 && rdf s R.PWR_RAIL 1 11 != 0

/-- R20, R435: the IDCODE. -/
def idcode (s : State) : Nat :=
  ((rdf s R.PKG_ID 16 8 * 10 + rdf s R.PKG_ID 8 8) % 16) <<< 28 + 0x0009 <<< 12 + 0x1E5 <<< 1 + 1

/-- R369, R377, R390, R435: an instruction is shifted in: accepted, or acting as BYPASS; IDCODE shifts the code out. The first debug instruction since power-on is recorded. -/
def execTestAccessInstruction (i : TapIns) (s : State) : Out :=
  .next (if unpowered s || inStage s 1 then s
    else
      let s : State := { s with tapIr := if tapAccepts s i then i else .bypass }
      let s : State := if s.tapIr = .idcode then { s with tx := s.tx ++ [.tdo (idcode s)] } else s
      if s.tapIr = .debug ∧ s.debugUsed = false then bbx { s with debugUsed := true } true 0x09 0 0 0 (leBytes 1 5) else s)

end Sys2Proof.Machine
end

