-- ==== Sys2Proof/Machine/Mmio.lean ====
section
/-! DEFINITION. Reaching registers and memory by address (R8, R25, R68, R290, R314, R316, R371, R376, R377, R416): register loads and stores with the behaviour of each register, scalar loads and stores, and the host's reads and writes. -/

namespace Sys2Proof.Machine

/-- The address of a register within its die's part of register space (R24). -/
def regOff (a : Nat) : Nat := (nsub a 0x0F0000000000) % 0x40000000
/-- The die of a register (R24): 0 fabric; then memory-side, processor and accelerator dies, West before East. -/
def regDie (a : Nat) : Nat := (nsub a 0x0F0000000000) / 0x40000000
/-- The half of a register of a compute or memory-side die. -/
def regHalf (a : Nat) : Nat := (regDie a + 1) % 2

/-- R53: NCO_QSTAT: tiles held in each queue, and whether a stream holds it. -/
def qstat (n : NCore) : Nat :=
  ((List.range 8).map (fun q =>
    match n.streams.find? (fun st => st.q == q) with
    | some st => (min 7 st.tiles.length + 8) <<< (4 * q)
    | none => 0)).sum

/-- R131: NCO_MXSTAT. -/
def mxstat (n : NCore) : Nat :=
  n.mx.bankSel + (if n.mx.shadowFull then 1 else 0) <<< 1 + ((List.range 4).map (fun i => (sget acc0 n.acc i).owner <<< (8 + 2 * i))).sum
    + (n.mx.kstep % 64) <<< 16

/-- R158: NCO_EWSTAT. -/
def ewstat (n : NCore) : Nat :=
  ((List.range 8).map (fun i => if (sget none n.ew.slots i).isSome then 2 ^ i else 0)).sum + n.ew.run.1 <<< 8
    + (match n.rd.op with
       | some (imm, d, x) => let c := rdCfg imm d x; c.op <<< 12 + 1 <<< 16 + (if c.link then 1 else 0) <<< 17
       | none => 0)
    + (linkCount n) <<< 18

/-- R214: SOL_STAT. -/
def solstat (s : State) (j : Nat) : Nat :=
  let u := svuOf s j
  (min 7 u.queue.length) <<< 1 +
  (match u.act with
   | some r => 1 + r.sol.ctx <<< 4 + (partOf s r.sol.ctx) <<< 10 + (if r.vote.isSome then 5 else r.stage) <<< 13
       + (min 65535 r.iters) <<< 16 + (r.sol.groupId % 1024) <<< 32
   | none => 0)

/-- R377: the counters that read zero in CONFIDENTIAL. -/
def hiddenReg (a : Nat) : Bool :=
  let o := regOff a
  let d := regDie a
  if d = 0 then
    a == R.SCF_COMB || a == R.PLK_UTIL || (R.SCF_PORT_UTIL 0 ≤ a && a < R.SCF_PORT_UTIL 16 && (nsub a (R.SCF_PORT_UTIL 0)) % 0x20 == 0)
  else if d ≤ 2 then
    o == 0x200 || o == 0x400 || o == 0x408 || o == 0x1000110 || (o < 0x90 && o % 0x10 == 8)
      || (0x1000000 ≤ o && o < 0x1000080 && o % 0x10 == 8) || (0x2000000 ≤ o && o < 0x2000100 && o % 0x20 == 0x18)
  else if d ≤ 4 then (o < 0x1000000 && o % 0x10000 == 0x48) || (0x1000000 ≤ o && o % 0x10000 == 8)
  else o < 0x1000000 && (o % 0x10000 == 0x38 || o % 0x10000 == 0x48)

/-- What a register reads, for the registers that show live state. -/
def regView (s : State) (a : Nat) : Nat :=
  let b := (rd s a).toNat - ((rd s a).toNat &&& (match regRow a with | some r => r.wo | none => 0))
  let o := regOff a
  let d := regDie a
  let put (lo n v : Nat) : Nat := (putf (BitVec.ofNat 64 b) lo n v).toNat
  if d = 0 then
    if a = R.CLK_LTC then s.ltc.toNat
    else if a = R.SCF_RCACHE then put 0 15 s.rcache.length
    else if a = R.COL_MATCH then put 0 13 s.matchBuf.length
    else if a = R.COL_SLOTS then put 0 12 (min 4095 (redInuse s))
    else if R.COL_ENG 0 ≤ a ∧ a < R.COL_ENG 16 ∧ a % 16 = 0 then
      (let e := (nsub a (R.COL_ENG 0)) / 16
       (putf (BitVec.ofNat 64 (put 0 7 (engInflight s e))) 8 12 (min 4095 (engQueued s e))).toNat)
    else b
  else if d ≤ 2 then b
  else if d ≤ 4 then (if 0x1000000 ≤ o ∧ o % 0x10000 = 0 then solstat s (12 * regHalf a + (nsub o 0x1000000) / 0x10000) else b)
  else if o < 0x1000000 then
    (let n := nc s (regHalf a * nCores s + o / 0x10000)
     if o % 0x10000 = 8 then qstat n else if o % 0x10000 = 0x30 then mxstat n else if o % 0x10000 = 0x40 then ewstat n else b)
  else b

/-- R8, R25, R329, R377, R395: load a register. Write-only bits and unassigned offsets read zero; two data registers of the black box and DSP_LOGCLAIM act as they are read. -/
def regLoad (s : State) (a : Nat) : State × Word :=
  if confidential s && hiddenReg a then (s, 0)
  else if a = R.BBX_DATA_H then mramRead s R.BBX_ADDR_H
  else if a = R.BBX_DATA_I then mramRead s R.BBX_ADDR_I
  else if R.DSP_LOGCLAIM 0 ≤ a ∧ a < R.DSP_LOGCLAIM 8 ∧ (nsub a (R.DSP_LOGCLAIM 0)) % 0x20 = 0 then
    (let p := (nsub a (R.DSP_LOGCLAIM 0)) / 0x20
     (wr s (R.DSP_LOGPTR p) (rd s (R.DSP_LOGPTR p) + 1), rd s (R.DSP_LOGPTR p)))
  else (s, BitVec.ofNat 64 (regView s a))

/-- The next state of a meaning. -/
def after (o : Out) (s : State) : State :=
  match o with
  | .next t => t
  | _ => s

/-- R381, R382: stores to the SEC block of the fabric die. -/
def storeSec (s : State) (a : Nat) (v : Word) : State :=
  if a = R.SEC_CMD then
    (let s := if bitw v 0 then after (execSecCmdReport s) s else s
     let s := if bitw v 1 then after (execSecCmdAdmit s) s else s
     if bitw v 2 then after (execSecCmdEndsession s) s else s)
  else if a = R.SEC_RELEASE then after (execSecReleaseGo v s) s
  else if R.SEC_KSLOT 0 0 ≤ a ∧ a < R.SEC_KSLOT 32 0 then
    (let k := (nsub a (R.SEC_KSLOT 0 0)) / 0x80
     let w := (nsub a (R.SEC_KSLOT 0 0)) % 0x80 / 8
     if w = 0 then (if bitw v 62 then after (execSecKslotLoad k v s) s else regPut s a v)
     else if w ≤ 12 then wr s a v
     else s)
  else regPut s a v

/-- R399: stores to the BBX block. -/
def storeBbx (s : State) (a : Nat) (v : Word) : State :=
  if a = R.BBX_CTL then
    (let s := if bitw v 0 then after (execBbxCtlFreeze s) s else s
     if bitw v 1 then after (execBbxCtlUnfreeze s) s else s)
  else if R.BBX_EVT 0 ≤ a ∧ a < R.BBX_EVT 4 then
    (if fld v 0 2 = 3 then s else evtWrite s ((nsub a (R.BBX_EVT 0)) / 8) (fld v 0 2) v false)
  else regPut s a v

/-- R328: a store to DSP_TCTL: the thread that it names goes on or is abandoned. -/
def storeTctl (s : State) (v : Word) : State :=
  let c := fld v 0 8
  let act (t : Tid) : State :=
    if fld v 24 2 = 1 then after (execDspTctlResume t s) s else if fld v 24 2 = 2 then after (execDspTctlAbandon t s) s else s
  if bitw v 8 then (if h : c < 192 then act (.s ⟨c, h⟩ (BitVec.ofNat 3 (fld v 16 3)).toFin) else s)
  else if h : c < 128 then act (.n ⟨c, h⟩) else s

/-- R333: stores to the DSP block. -/
def storeDsp (s : State) (a : Nat) (v : Word) : State :=
  let o := nsub a R.DSP_CFG
  if a = R.DSP_CFG then after (execDspCfgEnable v s) s
  else if a = R.DSP_TCTL then storeTctl s v
  else if a = R.DSP_TLBINV then after (execDspTlbinvGo v s) s
  else if 0x800 ≤ o ∧ o < 0xC00 ∧ o % 0x10 = 0 then after (execDspCtxdefValid ((nsub o 0x800) / 0x10) v s) s
  else if 0x1000 ≤ o ∧ o < 0x3000 ∧ o % 0x20 = 0 then after (execDspRingEnable ((nsub o 0x1000) / 0x20) v s) s
  else if 0x4000 ≤ o ∧ o < 0x8000 then after (execDspCsetWrite ((nsub o 0x4000) / 0x100) (o % 0x100 / 0x40) (o % 0x40 / 8) v s) s
  else regPut s a v

/-- R340, R347, R349, R353, R358, R359: a store to CKP_CMD. -/
def storeCkpCmd (s : State) (p : Nat) (v : Word) : State :=
  let s := if bitw v 5 then after (execCkpCmdStop p s) s else s
  let s := if bitw v 0 then after (execCkpCmdCut p s) s else s
  let src := fld v 2 2
  let s := if bitw v 1 then
      (if bitw v 4 then after (execCkpCmdReshard p src s) s
       else if src = 0 then after (execCkpCmdRestoreCofferdam p s) s
       else if src = 1 then after (execCkpCmdRestoreModules p s) s
       else if src = 2 then after (execCkpCmdRestoreMirror p s) s
       else s)
    else s
  if bitw v 6 then after (execCkpCmdRvote p s) s else s

/-- R335, R359: stores to the CKP block. While a partition's checkpointing is in force its regions and cofferdams stay as they are. -/
def storeCkp (s : State) (a : Nat) (v : Word) : State :=
  let o := nsub a (R.CKP_CFG 0)
  if o < 0x800 then
    (let p := o / 0x100
     let r := o % 0x100
     if r = 0 then after (execCkpCfgValid p v s) s
     else if r = 0x38 then storeCkpCmd s p v
     else if (r = 8 ∨ r = 0x10) ∧ ckpOn s p then s
     else regPut s a v)
  else if 0x1000 ≤ o ∧ o < 0x5000 then (if ckpOn s ((nsub o 0x1000) / 0x800) then s else regPut s a v)
  else regPut s a v

/-- R411: stores to the DRN block. -/
def storeDrn (s : State) (a : Nat) (v : Word) : State :=
  let o := nsub a (R.DRN_BAY 0)
  if o < 0x40 ∧ o % 0x20 = 0 then (if bitw v 5 then after (execDrnBayEject (o / 0x20) s) s else s)
  else if 0x100 ≤ o ∧ o < 0x200 then
    (let p := (nsub o 0x100) / 0x20
     let r := o % 0x20
     if r = 0 then after (execDrnAreaWrite p false v s) s
     else if r = 8 then after (execDrnAreaWrite p true v s) s
     else if r = 0x10 then (if bitw v 0 then after (execDrnXferFill p v s) s else after (execDrnXferLoad p v s) s)
     else regPut s a v)
  else regPut s a v

/-- R281: stores to the SCF block. -/
def storeScf (s : State) (a : Nat) (v : Word) : State :=
  let o := nsub a R.SCF_COORD
  if a = R.SCF_COORD then after (execScfCoordWrite v s) s
  else if a = R.SCF_SLOT_SPLIT then after (execScfSlotSplitWrite v s) s
  else if 0x20 ≤ o ∧ o < 0x60 then after (execScfDomainWrite ((o - 0x20) / 8) v s) s
  else if 0x100 ≤ o ∧ o < 0x300 ∧ o % 0x20 = 0 then after (execScfPortCtlWrite ((nsub o 0x100) / 0x20) v s) s
  else regPut s a v

/-- R285, R290, R291, R305, R306: the host's stores to the COL block. A counter that is written fires the entries it has reached; a store to COL_TADD that no context makes adds nothing. -/
def storeCol (s : State) (a : Nat) (v : Word) : State :=
  let o := nsub a R.COL_CFG
  if 0x4000 ≤ o ∧ o < 0x8000 then
    (let g := (nsub o 0x4000) / 0x10
     if o % 0x10 = 0 then after (execColGroupValid g v s) s else if gValid s g then s else regPut s a v)
  else if 0x8000 ≤ o ∧ o < 0xC000 then fireCounter (regPut s a v) ((nsub o 0x8000) / 8)
  else if 0xC000 ≤ o ∧ o < 0x10000 then s
  else if 0x80000 ≤ o ∧ o < 0x100000 then
    (let t := (nsub o 0x80000) / 0x40
     if o % 0x40 = 0 then after (execColTrigValid t v s) s
     else if bitw (rd s (R.COL_TRIG t 0)) 0 then s
     else regPut s a v)
  else regPut s a v

/-- R240-R242, R382: stores to the blocks of a memory-side die. -/
def storeMem (s : State) (a : Nat) (v : Word) : State :=
  let o := regOff a
  let h := regHalf a
  if o < 0x90 ∧ o % 0x10 = 0 then after (execMemPartCfgValid h (o / 0x10) v s) s
  else if 0x1000000 ≤ o ∧ o < 0x1000080 ∧ o % 0x10 = 0 then after (execLlmPartCfgApply h ((nsub o 0x1000000) / 0x10) v s) s
  else if 0x2000000 ≤ o ∧ o < 0x2000100 ∧ o % 0x20 = 0 then after (execRglPartWrite h ((nsub o 0x2000000) / 0x20) v s) s
  else if 0x3001000 ≤ o ∧ o < 0x3005000 then
    (let i := (nsub o 0x3001000) / 0x80
     let w := (nsub o 0x3001000) % 0x80 / 8
     if w = 0 then measWrite0 s h i v
     else if w = 1 then
       (if bitw v 63 then after (execSecMeasGo h i v s) s
        else if bitw (rd s (R.SEC_MEAS h i 0)) 63 || s.hashing.contains (h, i) then s
        else regPut s a v)
     else s)
  else regPut s a v

/-- R8, R25: store to a register that a block of the package holds: every register with a behaviour of its own has that behaviour; the others keep what R8 says. -/
def regStore (s : State) (a : Nat) (v : Word) : State :=
  let d := regDie a
  let o := regOff a
  if d = 0 then
    (if o < 0x20000 then regPut s a v
     else if o < 0x30000 then
       (if a = R.PWR_REGIME then regimeWrite s v
        else if a = R.PWR_CTL then (if bitw v 0 then after (execPwrCtlReset v s) s else after (execPwrCtlStandby v s) s)
        else regPut s a v)
     else if o < 0x40000 then storeSec s a v
     else if o < 0x50000 then storeBbx s a v
     else if o < 0x60000 then regPut s a v
     else if o < 0x70000 then storeDsp s a v
     else if o < 0x80000 then storeCkp s a v
     else if o < 0x90000 then storeDrn s a v
     else if o < 0x200000 then storeScf s a v
     else if o < 0x10000000 then storeCol s a v
     else if o < 0x12000000 then
       (let i := (nsub o 0x10000000) / 0x10
        if o % 0x10 = 0 then after (execWinEntryWord0Write i v s) s else after (execWinEntryWord1Write i v s) s)
     else s)
  else if d ≤ 2 then storeMem s a v
  else if d ≤ 4 then
    (if o < 0x1000000 ∧ o % 0x10000 = 0x40 then after (execScoLvuPwrWrite (96 * regHalf a + o / 0x10000) v s) s else regPut s a v)
  else if o < 0x1000000 ∧ o % 0x10000 = 0x10 then after (execNcoPreemptReq (nCores s * regHalf a + o / 0x10000) v s) s
  else regPut s a v

/-- R25: why a register access of `n` bytes is refused: its width or alignment, or an address outside every block. -/
def regBad (s : State) (a n : Nat) : Option AccErr :=
  if n ≠ 8 ∨ a % 8 ≠ 0 then some .reg
  else if regBlockExists (nCores s) a then none
  else some .addr

/-- R305: the COL block. -/
def inCol (a : Nat) : Bool := R.COL_CFG ≤ a && a < R.COL_CFG + 0x100000

/-- R290: the counter a COL_TADD address names. -/
def taddOf (a : Nat) : Option Nat := if R.COL_TADD 0 ≤ a ∧ a < R.COL_TADD 2048 then some ((nsub a (R.COL_TADD 0)) / 8) else none

/-- R24: the half that holds a register; 2 for the fabric die. -/
def regHome (a : Nat) : Nat := if regDie a = 0 then 2 else regHalf a

/-- R244: a thread's register access of eight bytes passes the arch links to the register's die. -/
def regMove (s : State) (key a : Nat) (write : Bool) : State := moveMsg s { srcTh s key with cat := 2 } (regHome a) 8 write

/-- R25, R244, R290: a context's load from register space. -/
def ctxRegLoad (s : State) (key a n : Nat) : State × MemRes Word :=
  match regBad s a n with
  | some e => (s, .err e)
  | none =>
    if inCol a && (taddOf a).isNone then (s, .err .perm)
    else let r := regLoad (regMove s key a false) a; (r.1, .ok r.2)

/-- R25, R244, R290: a context's store to register space. -/
def ctxRegStore (s : State) (key a n : Nat) (v : Word) : State × MemRes Unit :=
  match regBad s a n with
  | some e => (s, .err e)
  | none =>
    if inCol a then
      (match taddOf a with
       | some k => if ownsCtr s (th s key).ctx k then (counterAdd (regMove s key a true) k (fld v 0 32), .ok ()) else (s, .err .perm)
       | none => (s, .err .perm))
    else (regStore (regMove s key a true) a v, .ok ())

/-- R25, R54, R68: a context's access of `n` bytes at a virtual address: its translation, then register space or memory; `wait` when the access waits. A misaligned access of register space is a bad register access, any other misaligned access is misaligned (log 58). -/
def scalarAt (s : State) (ctx va n : Nat) (k : AccKind) (reg : State → Nat → State × MemRes Word) (mem : State → Nat → State × MemRes Word) :
    State × MemRes Word :=
  match translate s ctx va k with
  | (s, .ok pa) =>
    if region pa = .reg then reg s pa
    else if va % n ≠ 0 then (s, .err .align)
    else
      (match physErr s (.ctx ctx) pa n (k == .write) with
       | some e => (s, .err e)
       | none => if (linesOf pa n).any (lineWaits s) then (s, .wait) else mem s pa)
  | (s, .err e) => (s, .err (if va % n = 0 then e else .align))
  | (s, .wait) => (s, .wait)

/-- R68, R385: read bytes of memory, zero-extended; poison that is consumed is an error. -/
def memLoad (src : Src) (n : Nat) (s : State) (pa : Nat) : State × MemRes Word :=
  let r := physRead s src pa n
  if r.2.2 then (r.1, .err .poison) else (r.1, .ok (BitVec.ofNat 64 (leNat r.2.1)))

/-- R64, R68, R84: a scalar load of `n` bytes; a wait leaves the instruction to issue again. -/
def scalarLoad (t : Tid) (o : Opnds) (n dfile : Nat) (put : Thread → Nat → Word → Thread) (s : State) : Out :=
  insn s t o 0x01 none (some ⟨dfile, 64, imAll⟩) (fun key s0 =>
    match scalarAt s0 (th s0 key).ctx (memAddr (th s0 key) o) n .read (fun s a => ctxRegLoad s key a n) (memLoad (srcTh s0 key) n) with
    | (s, .ok v) => .done (setTh s key (put (th s key) o.d.toNat v))
    | (s, .err e) => accTrap s e
    | (_, .wait) => .stay s0)

/-- R64, R68, R84: a scalar store of the low `n` bytes of a register. -/
def scalarStore (t : Tid) (o : Opnds) (n dfile : Nat) (get : Thread → Nat → Word) (s : State) : Out :=
  insn s t o 0x01 none (some ⟨dfile, 64, imAll⟩) (fun key s0 =>
    let v := get (th s0 key) o.d.toNat
    match scalarAt s0 (th s0 key).ctx (memAddr (th s0 key) o) n .write
        (fun s a => let r := ctxRegStore s key a n v; (r.1, r.2.map (fun _ => 0)))
        (fun s pa => (physWrite s (srcTh s0 key) pa (leBytes n v.toNat), .ok 0)) with
    | (s, .ok _) => .done s
    | (s, .err e) => accTrap s e
    | (_, .wait) => .stay s0)

/-- R64, R68: LD1. -/
def execLd1 (t : Tid) (o : Opnds) (s : State) : Out := scalarLoad t o 1 64 setX s
/-- R64, R68: LD2. -/
def execLd2 (t : Tid) (o : Opnds) (s : State) : Out := scalarLoad t o 2 64 setX s
/-- R64, R68: LD4. -/
def execLd4 (t : Tid) (o : Opnds) (s : State) : Out := scalarLoad t o 4 64 setX s
/-- R25, R64, R68: LD8. -/
def execLd8 (t : Tid) (o : Opnds) (s : State) : Out := scalarLoad t o 8 64 setX s
/-- R25, R64, R68: FLD. -/
def execFld (t : Tid) (o : Opnds) (s : State) : Out := scalarLoad t o 8 32 setF s
/-- R64, R68: ST1. -/
def execSt1 (t : Tid) (o : Opnds) (s : State) : Out := scalarStore t o 1 64 xr s
/-- R64, R68: ST2. -/
def execSt2 (t : Tid) (o : Opnds) (s : State) : Out := scalarStore t o 2 64 xr s
/-- R64, R68: ST4. -/
def execSt4 (t : Tid) (o : Opnds) (s : State) : Out := scalarStore t o 4 64 xr s
/-- R25, R64, R68: ST8. -/
def execSt8 (t : Tid) (o : Opnds) (s : State) : Out := scalarStore t o 8 64 xr s
/-- R25, R64, R68: FST. -/
def execFst (t : Tid) (o : Opnds) (s : State) : Out := scalarStore t o 8 32 fr s

/-- R312, R313: a host request reaches the device: a Palale Link port is up. -/
def plkOpen (s : State) : Bool := rdf s R.PLK_STAT 0 2 == 3 || rdf s R.PLK_STAT 2 2 == 3

/-- R24: a register in one of the blocks PKG, CLK, PWR, SEC and BBX of the fabric die, or (`pwr` false) in those but PWR. -/
def earlyBlock (a : Nat) (pwr : Bool) : Bool :=
  region a == .reg && regDie a == 0 && regOff a < 0x50000 && (pwr || !(0x20000 ≤ regOff a && regOff a < 0x30000))

/-- R371, R376, R416: an access by the host that ends with the link's error response wherever it goes: between ADMIT and KEYSWITCH, in CONFIDENTIAL before admission, and before stage 10 has ended. -/
def hostBarred (s : State) (a : Nat) : Bool :=
  s.admitting.isSome || (confidential s && !bitw (rd s R.SEC_STAT) 1 && !earlyBlock a false) || (pwrState s == 1 && !earlyBlock a true)

/-- Answer the host. -/
def toHost (s : State) (x : Tx) : State := { s with tx := s.tx ++ [x] }

/-- R216, R316: what the host holds of a line after an access: nothing, a clean copy, or the line to change. -/
def hostHolds (s : State) (line hold : Nat) : State := { s with hostLines := sset 0 s.hostLines line (min hold 2) }

/-- R235, R425: a host access to a line waits; its own copy does not hold it. -/
def hostWaits (s : State) (line : Nat) : Bool := lineWaits { s with hostLines := [] } line

/-- R25, R314, R316, R371, R376, R385, R416: a host read of `n` bytes of one line; the host then holds the line as `hold` says (0 not, 1 clean, 2 to change). -/
def execHostRead (addr n hold : Nat) (s : State) : Out :=
  .next (if !plkOpen s || n == 0 || 64 < addr % 64 + n then s
    else if hostBarred s addr then toHost s (.answer addr [] false)
    else if region addr = .reg then
      (if (regBad s addr n).isSome then toHost s (.answer addr [] false)
       else let r := regLoad (moveMsg s srcHost (regHome addr) 8 false) addr; toHost r.1 (.answer addr (leBytes 8 r.2.toNat) true))
    else if (physErr s .host addr n false).isSome then toHost s (.answer addr [] false)
    else if hostWaits s (addr / 64) then s
    else
      let r := physRead s srcHost addr n
      if r.2.2 then toHost r.1 (.poisoned addr)
      else toHost (hostHolds r.1 (addr / 64) hold) (.answer addr r.2.1 true))

/-- R25, R371, R376, R416: a host store to register space. -/
def hostRegStore (s : State) (addr n : Nat) (v : Word) : State :=
  if !plkOpen s then s
  else if hostBarred s addr || region addr != .reg || (regBad s addr n).isSome then toHost s (.answer addr [] false)
  else toHost (regStore (moveMsg s srcHost (regHome addr) 8 true) addr v) (.answer addr [] true)

/-- R8, R25: a store of `n` bytes to a register by the host. -/
def execRegisterWrite (addr n : Nat) (v : Word) (s : State) : Out := .next (hostRegStore s addr n v)

/-- R25, R316, R366, R371, R376, R416: a host write of bytes of one line is applied at its home; the host then holds the line as `hold` says. -/
def execHostWrite (addr : Nat) (bytes : List Byte) (hold : Nat) (s : State) : Out :=
  .next (if !plkOpen s || bytes.isEmpty || 64 < addr % 64 + bytes.length then s
    else if region addr = .reg then hostRegStore s addr bytes.length (BitVec.ofNat 64 (leNat bytes))
    else if hostBarred s addr || (physErr s .host addr bytes.length true).isSome then toHost s (.answer addr [] false)
    else if hostWaits s (addr / 64) then s
    else toHost (hostHolds (physWrite s srcHost addr bytes) (addr / 64) hold) (.answer addr [] true))

/-- R415, R421: stage 5: the image body is applied: its register writes, each as a store to that register, and its power regime. The body's layout is not given, so both come with the command (log 32). -/
def execImageApply (power : Nat) (writes : List (Nat × Word)) (s : State) : Out :=
  .next (if !inStage s 5 || 3 ≤ power then s
    else
      let s := writes.foldl (fun s w => if R.PWR_REGIME ≤ w.1 ∧ w.1 < R.SEC_STAT then s else regStore s w.1 w.2) s
      let s := wrf (wrf s R.PWR_REGIME 0 2 power) R.PWR_POWER 48 16 (capOf power)
      toStage (if power = 2 then wrf s R.CLK_STATUS 8 8 64 else s) 6)

end Sys2Proof.Machine
end

