-- ==== Sys2Proof/Machine/Regulator.lean ====
section
/-! DEFINITION. One SCLK cycle of a half (R226, R230, R232, R233, R243-R246): its bandwidth regulators refill and arbitrate, the LLM serves what they let through, and both ends of its arch link arbitrate. What accesses have offered waits in State; the lines of agents that no command stands for (instruction fetches, table walks) and what the half can serve come with the command (log 31). -/

namespace Sys2Proof.Machine

/-- The first line (or up to 64 bytes of a message) of an access, and the rest. -/
def chunk (x : Xact) : Xact × Option Xact :=
  let b := if x.n ≤ 1 then min 64 x.bytes else min 64 (x.bytes - (x.n - 1))
  ({ x with n := min 1 x.n, bytes := b },
   if x.n ≤ 1 && x.bytes ≤ b then none else some { x with line := x.line.map (· + 1), n := x.n - 1, bytes := x.bytes - b })

/-- R230: the ways in which an owner's lines may be cached: a partition's cache ways that serve (R229), or for the pool the free ways (R227). -/
def cacheWays (s : State) (h o : Nat) : List Nat :=
  (List.range 16).filter (fun w =>
    if o = 8 then wayOwner s h w == 15
    else wayOwner s h w == o && !wayScratch s h w &&
      (match sget none s.llmPend (h * 8 + o) with
       | some (c, _, f, g) => c.testBit w && !f.testBit w && !g.testBit w
       | none => true))

/-- R230: a line takes a place among an owner's ways: an empty one of its set, else that of a line chosen freely, which is written back when dirty. -/
def llmAlloc (s : State) (h line : Nat) (ways : List Nat) (dirty : Bool) : State :=
  let empty := ways.filter (fun w => (sget none s.llm (llmKey h line w)).isNone)
  let cands := if empty.isEmpty then ways else empty
  let d := drawNat s
  let w := nth cands (d.1 % cands.length)
  let s := match sget none d.2.llm (llmKey h line w) with
    | some (l, true) => hbmLine d.2 h l
    | _ => d.2
  { s with llm := sset none s.llm (llmKey h line w) (some (line, dirty)) }

/-- R226, R230, R241: the LLM serves one line of HBM for an access: a hit, or a miss that is allocated unless the stream says NO_ALLOC or its owner has no cache ways. A line not wholly written is read first. -/
def llmServe (s : State) (h : Nat) (x : Xact) (line : Nat) : State :=
  match region (line * 64) with
  | .hbm _ off =>
    let o := (ownerOf s h off).getD 8
    let ways := cacheWays s h o
    let part := x.write && x.bytes < 64
    let again (s : State) : State := if part then hbmLine s h line else s
    if ways.isEmpty then again (hbmLine s h line)
    else
      match ways.find? (fun w => (sget none s.llm (llmKey h line w)).any (fun e => e.1 == line)) with
      | some w =>
        let s := if x.write then { s with llm := sset none s.llm (llmKey h line w) (some (line, true)) } else s
        if o < 8 then addDiv s (R.LLM_PART_STAT h o) 0 32 64 1 else s
      | none =>
        let s := if o < 8 then addDiv s (R.LLM_PART_STAT h o) 32 32 64 1 else s
        if !x.alloc then again (hbmLine s h line)
        else
          let s := if x.write && !part then s else addDiv (hbmLine s h line) (R.LLM_UTIL h) 32 32 1024 1
          llmAlloc s h line ways x.write
  | _ => s

/-- R242: floor, ceiling and burst of a regulator's side. -/
def rglSet (s : State) (h p : Nat) (wr : Bool) : Nat × Nat × Nat :=
  let w := rd s (R.RGL_PART h p)
  let b := rd s (R.RGL_BURST h p)
  if wr then (fld w 32 14, fld w 48 14, fld b 16 16) else (fld w 0 14, fld w 16 14, fld b 0 16)

/-- R232: the buckets of a half refill: FLOOR and CEIL GB/s are that many 1/128 lines in each cycle. -/
def rglRefill (s : State) (h : Nat) : State :=
  (List.range 8).foldl (fun s p => [false, true].foldl (fun s wr =>
    let c := rglSet s h p wr
    rglMod s h p wr (fun x => (min (c.2.2 * 128) (x.1 + c.1), min (c.2.2 * 128) (x.2.1 + c.2.1), x.2.2))) s) s

/-- R232: a partition has a waiting line of this class: 0 floor, 1 surplus; class 2 is the pool's and the device's, which no regulator meters (log 31). -/
def rglReady (s : State) (h p : Nat) (wr : Bool) (cls : Nat) : Bool :=
  let x := rglSide (sget rgl0 s.rgl (h * 9 + p)) wr
  if cls = 2 then p == 8 && !x.2.2.isEmpty
  else
    let ceil := (rglSet s h p wr).2.1
    !x.2.2.isEmpty && (ceil == 0 || 128 ≤ x.2.1) && (if cls = 0 then 128 ≤ x.1 else x.1 < 128)

/-- The next of `n` round-robin claimants after the one whose turn was last. -/
def nextTurn (n last : Nat) (ready : Nat → Bool) : Option Nat :=
  ((List.range n).map (fun i => (last + i) % n)).find? ready

/-- R230, R232, R243: the first waiting line of a regulator is served: it takes its tokens, the LLM serves it, and what was read for a requester elsewhere leaves the half. -/
def rglOne (s : State) (h p : Nat) (wr : Bool) (cls : Nat) : State :=
  match (rglSide (sget rgl0 s.rgl (h * 9 + p)) wr).2.2 with
  | [] => s
  | x :: q =>
    let c := chunk x
    let ceil := (rglSet s h p wr).2.1
    let s := rglMod s h p wr (fun t => (if cls = 0 then t.1 - 128 else t.1, if ceil = 0 ∨ cls = 2 then t.2.1 else t.2.1 - 128, c.2.toList ++ q))
    let s := if p < 8 then addDiv s (R.RGL_SERVED h p) (if wr then 32 else 0) 32 1024 1 else s
    respond (match x.line with | some l => llmServe s h c.1 l | none => s) c.1

/-- R232: serve lines of one class, round-robin among partitions; the capacity left. -/
def rglServe (h : Nat) (wr : Bool) (cls : Nat) : Nat → State → State × Nat
  | 0, s => (s, 0)
  | cap + 1, s =>
    let key := (h * 2 + (if wr then 1 else 0)) * 2 + cls % 2
    let ready := fun p => rglReady s h p wr cls
    match (if cls = 2 then (if ready 8 then some 8 else none) else nextTurn 8 (sget 0 s.rglTurn key) ready) with
    | none => (s, cap + 1)
    | some p =>
      let s := rglOne s h p wr cls
      rglServe h wr cls cap (if cls = 2 then s else { s with rglTurn := sset 0 s.rglTurn key (p + 1) })

/-- R232: one cycle of a half's regulators, with the lines it can read and write, and lines that other agents of a partition offer. -/
def rglCycle (s : State) (h capR capW : Nat) (regs : List (Nat × Bool × Nat)) : State :=
  let s := rglRefill s h
  let s := regs.foldl (fun s r => if r.1 < 8 ∧ 0 < r.2.2 then rglMod s h r.1 r.2.1 (fun x => (x.1, x.2.1, x.2.2 ++ [⟨none, r.2.2, h, h, r.1, 2, 3, 64 * r.2.2, r.2.1, true⟩])) else s) s
  let s := [(false, capR), (true, capW)].foldl (fun s c =>
    let a := rglServe h c.1 0 c.2 s
    let b := rglServe h c.1 1 a.2 a.1
    (rglServe h c.1 2 b.2 b.1).1) s
  (List.range 8).foldl (fun s p =>
    let g := sget rgl0 s.rgl (h * 9 + p)
    let s := if g.rq.isEmpty then s else addDiv s (R.RGL_DELAY h p) 0 32 64 1
    if g.wq.isEmpty then s else addDiv s (R.RGL_DELAY h p) 32 32 64 1) s

/-- R239, R241: the channels and slices of a half that were busy in a cycle: free counts within their number (log 4). -/
def busyCycle (s : State) (h : Nat) : State :=
  let a := drawNat s
  let b := drawNat a.2
  addDiv (addDiv b.2 (R.MEM_UTIL_HBM h) 0 32 64 (a.1 % 193)) (R.LLM_UTIL h) 0 32 64 (b.1 % 65)

/-- R245: a class has a transfer waiting. -/
def archWaits (s : State) (h e cls : Nat) : Bool := (List.range 9).any (fun o => !(sget [] s.arch (archKey h e cls o)).isEmpty)

/-- R245: the class that goes next: express, responses, then 3 requests (15 in LATENCY) for each bulk line. -/
def archClass (s : State) (h e : Nat) : Option Nat :=
  if archWaits s h e 0 then some 0
  else if archWaits s h e 1 then some 1
  else
    match archWaits s h e 2, archWaits s h e 3 with
    | true, true => some (if sget 0 s.archRun (h * 2 + e) < (if latencyReg s then 15 else 3) then 2 else 3)
    | true, false => some 2
    | false, true => some 3
    | false, false => none

/-- R250: what an outbound line counts as. -/
def archCount (s : State) (h cls cat : Nat) : State :=
  let s := if cat < 3 then addDiv s (R.MEM_ARCH_MIX h) (16 * cat) 16 65536 1 else s
  if cls = 3 then addDiv s (R.MEM_ARCH_MIX h) 48 16 65536 1 else s

/-- R243, R246: a transfer has crossed one end of a half's arch link: it goes on to the other half's link, or reaches this half's memory-side die, where its regulator meters what is written. -/
def archLand (s : State) (h e : Nat) (x : Xact) : State :=
  if e = 0 then
    (if x.write then (if x.home < 2 && x.home != h then archPush s x.home 1 x else s)
     else if x.src < 2 && x.src != h then archPush s x.src 1 x else s)
  else if x.write then offerHome s x
  else s

/-- R243, R245: an end sends data while it has bytes of its rate left; the bytes left, and whether it sent any. -/
def archSend (h e : Nat) : Nat → Nat → Bool → State → State × Nat × Bool
  | 0, cred, any, s => (s, cred, any)
  | fuel + 1, cred, any, s =>
    match archClass s h e with
    | none => (s, cred, any)
    | some cls =>
      let key := (h * 2 + e) * 4 + cls
      match nextTurn 9 (sget 0 s.archTurn key) (fun o => !(sget [] s.arch (archKey h e cls o)).isEmpty) with
      | none => (s, cred, any)
      | some o =>
        match sget [] s.arch (archKey h e cls o) with
        | [] => (s, cred, any)
        | x :: xs =>
          let c := chunk x
          if cred < c.1.bytes then (s, cred, any)
          else
            let both := archWaits s h e 2 && archWaits s h e 3
            let run := sget 0 s.archRun (h * 2 + e)
            let s : State := { s with arch := sset [] s.arch (archKey h e cls o) (c.2.toList ++ xs), archTurn := sset 0 s.archTurn key (o + 1),
                                      archRun := sset 0 s.archRun (h * 2 + e) (if cls = 3 then 0 else if cls = 2 && both then run + 1 else run) }
            archSend h e fuel (cred - c.1.bytes) true (archLand (if e = 0 then archCount s h cls x.cat else s) h e c.1)

/-- R245, R246, R250: one cycle of one end of a half's arch link: 1,000 bytes. -/
def archCycle (s : State) (h e : Nat) : State :=
  let r := archSend h e 1000 (sget 0 s.archCred (h * 2 + e) + 1000) false s
  let s : State := { r.1 with archCred := sset 0 r.1.archCred (h * 2 + e) (min 63 r.2.1) }
  let s := if r.2.2 then addDiv s (R.MEM_ARCH_UTIL h) (32 * e) 32 64 1 else s
  if e ≠ 0 then s
  else (List.range 9).foldl (fun s o =>
    let s := if (List.range 4).any (fun c => !(sget [] s.arch (archKey h 0 c o)).isEmpty) then addDiv s (R.MEM_ARCH_WAIT h o) 0 32 64 1 else s
    if (sget [] s.arch (archKey h 0 3 o)).isEmpty then s else addDiv s (R.MEM_ARCH_WAIT h o) 32 32 64 1) s

/-- R229: the free ways that join a partition serve once its requests in flight have completed. -/
def waysJoin (s : State) (h : Nat) : State :=
  (List.range 8).foldl (fun s p =>
    let g := sget rgl0 s.rgl (h * 9 + p)
    if g.rq.isEmpty && g.wq.isEmpty then joinFree s h p else s) s

/-- R408: each cycle (counted with the West half) in which a lower class waits for a drain adds to DRN_BAY.WAIT. -/
def drnWait (s : State) (h : Nat) : State :=
  let late := s.drnX.any (fun kv => (match kv.2 with | some x => xferWaits s x | none => false)) ||
    (s.ckps.any (fun kv => match kv.2.rest with | some r => r.source == 1 && !r.local_ | none => false) && s.ckps.any (fun kv => kv.2.drain.isSome))
  if h != 0 || !late then s
  else (List.range 2).foldl (fun s b => if bayUsable s b then addDiv s (R.DRN_BAY b) 32 32 64 1 else s) s

/-- R232, R245, R246: one SCLK cycle of a half. `regs` are the lines that other agents offer to its regulators (partition, write, how many); `arch` the data lines they offer to its arch link (inbound, class, owner, what they count as). The other half's acknowledgements of invalidations have crossed (R247). -/
def execSclkCycle (h capR capW : Nat) (regs : List (Nat × Bool × Nat)) (arch : List (Bool × Nat × Nat × Nat)) (s : State) : Out :=
  .next (if 2 ≤ h || !issuing s then s
    else
      let s := waysJoin (busyCycle (rglCycle s h capR capW regs) h) h
      let s := arch.foldl (fun s a =>
        if 4 ≤ a.2.1 ∨ 9 ≤ a.2.2.1 then s
        else archPush s h (if a.1 then 1 else 0) ⟨none, 0, h, 2, a.2.2.1, a.2.1, a.2.2.2, 64, !a.1, false⟩) s
      let s : State := { s with invs := s.invs.filter (fun (e : Nat × Nat × Nat) => e.2.2 != h) }
      drnWait (archCycle (archCycle s h 0) h 1) h)

end Sys2Proof.Machine
end

