-- ==== Sys2Proof/Machine/Scalar.lean ====
section
/-! DEFINITION. The SCALAR class but for loads and stores (R60, R64-R67, R79): integer, binary64 and predicate operations, and the special reads. -/

namespace Sys2Proof.Machine

/-- R57, R64: an integer operation with an R form and an I form. -/
def shapeXR : Option RShape := some ⟨64, 64, 64, 0, 0⟩
/-- R57, R64: the I form of an integer operation with IMM32. -/
def shapeXI (im : Nat) : Option IShape := some ⟨64, 64, im⟩

/-- R64: an integer operation of two operands into xD. -/
def intOp (t : Tid) (o : Opnds) (iform : Option IShape) (imm : Word) (f : Word → Word → Word) (s : State) : Out :=
  insn s t o 0x01 shapeXR iform (onTh (fun th => setX th o.d.toNat (f (xr th o.a.toNat) (opB th o imm))))

/-- R60, R64: an integer compare into every bit of pD. -/
def intCmp (t : Tid) (o : Opnds) (imm : Word) (f : Word → Word → Bool) (s : State) : Out :=
  insn s t o 0x01 (some ⟨16, 64, 64, 0, 0⟩) (some ⟨16, 64, imAll⟩)
    (fun key => onTh (fun th => setP (isS key) th o.d.toNat (allP (f (xr th o.a.toNat) (opB th o imm)))) key)

/-- R66: the signed quotient, truncated toward zero; all ones for a divisor of zero, -2^63 for -2^63 by -1. -/
def divS (a b : Word) : Word :=
  if b = 0 then BitVec.allOnes 64 else BitVec.ofInt 64 (a.toInt.tdiv b.toInt)

/-- R66: the unsigned quotient; all ones for a divisor of zero. -/
def divU (a b : Word) : Word := if b = 0 then BitVec.allOnes 64 else a.udiv b

/-- R66: the signed remainder, with the sign of the dividend; the dividend for a divisor of zero. -/
def remS (a b : Word) : Word := if b = 0 then a else BitVec.ofInt 64 (a.toInt.tmod b.toInt)

/-- R66: the unsigned remainder; the dividend for a divisor of zero. -/
def remU (a b : Word) : Word := if b = 0 then a else a.umod b

/-- R64: the high 64 bits of a signed product. -/
def mulHS (a b : Word) : Word := BitVec.ofInt 64 (a.toInt * b.toInt / 2 ^ 64)

/-- R64: the high 64 bits of an unsigned product. -/
def mulHU (a b : Word) : Word := BitVec.ofNat 64 (a.toNat * b.toNat / 2 ^ 64)

/-- R62: a shift amount. -/
def shAmt (b : Word) : Nat := b.toNat % 64

/-- R67, R80: a binary64 operation into fD, rounded to nearest even; one NaN is counted when no operand was one. -/
def fpOp (t : Tid) (o : Opnds) (r : RShape) (i : Option IShape) (f : Thread → Fp × List Fp) (s : State) : Out :=
  insn s t o 0x01 (some r) i (fun key s =>
    let th0 := th s key
    let v := f th0
    .done (putCounted s key (setF th0 o.d.toNat (to64 v.1)) 0x01 ⟨0, 0, newNan v.1 v.2⟩))

/-- R64, R67: a binary64 operation of fA and a second operand, in R and I form. -/
def fpOp2 (t : Tid) (o : Opnds) (f : Fp → Fp → Fp) (s : State) : Out :=
  fpOp t o ⟨32, 32, 32, 0, 0⟩ (some ⟨32, 32, imAll⟩)
    (fun th => let a := f64 (fr th o.a.toNat); let b := opFB th o; (f a b, [a, b])) s

/-- R64, R67: a binary64 operation of fA and fB, in R form only. -/
def fpOp2R (t : Tid) (o : Opnds) (f : Fp → Fp → Fp) (s : State) : Out :=
  fpOp t o ⟨32, 32, 32, 0, 0⟩ none
    (fun th => let a := f64 (fr th o.a.toNat); let b := f64 (fr th o.b.toNat); (f a b, [a, b])) s

/-- R64: a binary64 compare into every bit of pD; it counts nothing in nstat. -/
def fpCmp (t : Tid) (o : Opnds) (f : Fp → Fp → Bool) (s : State) : Out :=
  insn s t o 0x01 (some ⟨16, 32, 32, 0, 0⟩) none (fun key s =>
    let th0 := th s key
    let b := f (f64 (fr th0 o.a.toNat)) (f64 (fr th0 o.b.toNat))
    .done (putCounted s key (setP (isS key) th0 o.d.toNat (allP b)) 0x01 cnt0))

/-- R64: a predicate operation of pA and pB. -/
def predOp (t : Tid) (o : Opnds) (r : RShape) (f : BitVec 512 → BitVec 512 → BitVec 512) (s : State) : Out :=
  insn s t o 0x01 (some r) none
    (fun key => onTh (fun th => setP (isS key) th o.d.toNat (f (pr th o.a.toNat) (pr th o.b.toNat))) key)

/-- R64: a read of something into xD. -/
def readX (t : Tid) (o : Opnds) (r : Option RShape) (i : Option IShape) (f : Nat → State → Word) (s : State) : Out :=
  insn s t o 0x01 r i (fun key s => .done (setTh s key (setX (th s key) o.d.toNat (f key s))))

/-- R65: the identity of a thread. -/
def identity (s : State) (key : Nat) : Word :=
  let t := th s key
  BitVec.ofNat 64 (t.ctx % 64 + (partOf s t.ctx) <<< 8 + (lane key) <<< 16 + (coreOf key) <<< 32 + (if isS key then 1 else 0) <<< 40)


/-- R62, R64: ADD. -/
def execAdd (t : Tid) (o : Opnds) (s : State) : Out := intOp t o (shapeXI imAll) (sx32 o.imm) (fun a b => a + b) s

/-- R62, R64: SUB. -/
def execSub (t : Tid) (o : Opnds) (s : State) : Out := intOp t o (shapeXI imAll) (sx32 o.imm) (fun a b => a - b) s

/-- R62, R64: MUL. -/
def execMul (t : Tid) (o : Opnds) (s : State) : Out := intOp t o (shapeXI imAll) (sx32 o.imm) (fun a b => a * b) s

/-- R62, R64: AND. -/
def execAnd (t : Tid) (o : Opnds) (s : State) : Out := intOp t o (shapeXI imAll) (zx32 o.imm) (fun a b => a &&& b) s

/-- R62, R64: OR. -/
def execOr (t : Tid) (o : Opnds) (s : State) : Out := intOp t o (shapeXI imAll) (zx32 o.imm) (fun a b => a ||| b) s

/-- R62, R64: XOR. -/
def execXor (t : Tid) (o : Opnds) (s : State) : Out := intOp t o (shapeXI imAll) (zx32 o.imm) (fun a b => a ^^^ b) s

/-- R62, R64: MINS. -/
def execMins (t : Tid) (o : Opnds) (s : State) : Out := intOp t o (shapeXI imAll) (sx32 o.imm) (fun a b => if a.slt b then a else b) s

/-- R62, R64: MAXS. -/
def execMaxs (t : Tid) (o : Opnds) (s : State) : Out := intOp t o (shapeXI imAll) (sx32 o.imm) (fun a b => if a.slt b then b else a) s

/-- R62, R64: MINU. -/
def execMinu (t : Tid) (o : Opnds) (s : State) : Out := intOp t o (shapeXI imAll) (zx32 o.imm) (fun a b => if a.ult b then a else b) s

/-- R62, R64: MAXU. -/
def execMaxu (t : Tid) (o : Opnds) (s : State) : Out := intOp t o (shapeXI imAll) (zx32 o.imm) (fun a b => if a.ult b then b else a) s

/-- R64, R66: MULHS. -/
def execMulhs (t : Tid) (o : Opnds) (s : State) : Out := intOp t o none 0 mulHS s

/-- R64, R66: MULHU. -/
def execMulhu (t : Tid) (o : Opnds) (s : State) : Out := intOp t o none 0 mulHU s

/-- R64, R66: DIVS. -/
def execDivs (t : Tid) (o : Opnds) (s : State) : Out := intOp t o none 0 divS s

/-- R64, R66: DIVU. -/
def execDivu (t : Tid) (o : Opnds) (s : State) : Out := intOp t o none 0 divU s

/-- R64, R66: REMS. -/
def execRems (t : Tid) (o : Opnds) (s : State) : Out := intOp t o none 0 remS s

/-- R64, R66: REMU. -/
def execRemu (t : Tid) (o : Opnds) (s : State) : Out := intOp t o none 0 remU s

/-- R62, R64: SHL. -/
def execShl (t : Tid) (o : Opnds) (s : State) : Out := intOp t o (shapeXI 0x3F) (zx32 o.imm) (fun a b => a <<< shAmt b) s

/-- R62, R64: SHR. -/
def execShr (t : Tid) (o : Opnds) (s : State) : Out := intOp t o (shapeXI 0x3F) (zx32 o.imm) (fun a b => a >>> shAmt b) s

/-- R62, R64: SAR. -/
def execSar (t : Tid) (o : Opnds) (s : State) : Out := intOp t o (shapeXI 0x3F) (zx32 o.imm) (fun a b => a.sshiftRight (shAmt b)) s

/-- R60, R62, R64: CMPEQ. -/
def execCmpeq (t : Tid) (o : Opnds) (s : State) : Out := intCmp t o (sx32 o.imm) (fun a b => a == b) s

/-- R60, R62, R64: CMPNE. -/
def execCmpne (t : Tid) (o : Opnds) (s : State) : Out := intCmp t o (sx32 o.imm) (fun a b => a != b) s

/-- R60, R62, R64: CMPLTS. -/
def execCmplts (t : Tid) (o : Opnds) (s : State) : Out := intCmp t o (sx32 o.imm) (fun a b => a.slt b) s

/-- R60, R62, R64: CMPLTU. -/
def execCmpltu (t : Tid) (o : Opnds) (s : State) : Out := intCmp t o (zx32 o.imm) (fun a b => a.ult b) s

/-- R60, R62, R64: CMPLES. -/
def execCmples (t : Tid) (o : Opnds) (s : State) : Out := intCmp t o (sx32 o.imm) (fun a b => a.sle b) s

/-- R60, R62, R64: CMPLEU. -/
def execCmpleu (t : Tid) (o : Opnds) (s : State) : Out := intCmp t o (zx32 o.imm) (fun a b => a.ule b) s

/-- R62, R64: MOV and MOVI. -/
def execMov (t : Tid) (o : Opnds) (s : State) : Out := 
  insn s t o 0x01 (some ⟨64, 64, 0, 0, 0⟩) (some ⟨64, 0, imAll⟩)
    (onTh (fun th => setX th o.d.toNat (if o.iform then sx32 o.imm else xr th o.a.toNat)))

/-- R62, R64: MOVHI keeps the low half of xD. -/
def execMovhi (t : Tid) (o : Opnds) (s : State) : Out := 
  insn s t o 0x01 none (some ⟨64, 0, imAll⟩)
    (onTh (fun th => setX th o.d.toNat (putf (xr th o.d.toNat) 32 32 o.imm.toNat)))

/-- R64, R67: FADD. -/
def execFadd (t : Tid) (o : Opnds) (s : State) : Out := fpOp2 t o (fAdd) s

/-- R64, R67: FSUB. -/
def execFsub (t : Tid) (o : Opnds) (s : State) : Out := fpOp2 t o (fun a b => fAdd a b.neg) s

/-- R64, R67: FMUL. -/
def execFmul (t : Tid) (o : Opnds) (s : State) : Out := fpOp2 t o (fMul) s

/-- R64, R67: FDIV. -/
def execFdiv (t : Tid) (o : Opnds) (s : State) : Out := fpOp2 t o (fDiv) s

/-- R64, R67: FSQRT. -/
def execFsqrt (t : Tid) (o : Opnds) (s : State) : Out := 
  fpOp t o ⟨32, 32, 0, 0, 0⟩ none (fun th => let a := f64 (fr th o.a.toNat); (fSqrt a, [a])) s

/-- R64, R67: FFMA, rounded once. -/
def execFfma (t : Tid) (o : Opnds) (s : State) : Out := 
  fpOp t o ⟨32, 32, 32, 32, 0⟩ none (fun th =>
    let a := f64 (fr th o.a.toNat)
    let b := f64 (fr th o.b.toNat)
    let c := f64 (fr th o.c.toNat)
    (fAdd (fMul a b) c, [a, b, c])) s

/-- R64, R67: FMIN. -/
def execFmin (t : Tid) (o : Opnds) (s : State) : Out := fpOp2R t o fMin s

/-- R64, R67: FMAX. -/
def execFmax (t : Tid) (o : Opnds) (s : State) : Out := fpOp2R t o fMax s

/-- R64: FCMPEQ. -/
def execFcmpeq (t : Tid) (o : Opnds) (s : State) : Out := fpCmp t o fEq s

/-- R64: FCMPLT. -/
def execFcmplt (t : Tid) (o : Opnds) (s : State) : Out := fpCmp t o fLt s

/-- R64: FCMPLE. -/
def execFcmple (t : Tid) (o : Opnds) (s : State) : Out := fpCmp t o (fun a b => fLt a b || fEq a b) s

/-- R64, R67: FCVTI, to the nearest even integer, saturating and counting. -/
def execFcvti (t : Tid) (o : Opnds) (s : State) : Out := 
  insn s t o 0x01 (some ⟨64, 32, 0, 0, 0⟩) none (fun key s =>
    let th0 := th s key
    let v := toIntSat .rne 64 (f64 (fr th0 o.a.toNat))
    .done (putCounted s key (setX th0 o.d.toNat (BitVec.ofInt 64 v.1)) 0x01 ⟨v.2, 0, 0⟩))

/-- R64: FCVTF, to the nearest even binary64. -/
def execFcvtf (t : Tid) (o : Opnds) (s : State) : Out := 
  fpOp t o ⟨32, 64, 0, 0, 0⟩ none (fun th =>
    let a : Fp := (Dy.mk (xr th o.a.toNat).toInt 0).toFp
    (a, [a])) s

/-- R64, R67: FMOVX moves a bit pattern. -/
def execFmovx (t : Tid) (o : Opnds) (s : State) : Out := readX t o (some ⟨64, 32, 0, 0, 0⟩) none (fun key s => fr (th s key) o.a.toNat) s

/-- R64, R67: FMOVF moves a bit pattern. -/
def execFmovf (t : Tid) (o : Opnds) (s : State) : Out := 
  insn s t o 0x01 (some ⟨32, 64, 0, 0, 0⟩) none (onTh (fun th => setF th o.d.toNat (xr th o.a.toNat)))

/-- R64: PAND. -/
def execPand (t : Tid) (o : Opnds) (s : State) : Out := predOp t o ⟨16, 16, 16, 0, 0⟩ (fun a b => a &&& b) s

/-- R64: POR. -/
def execPor (t : Tid) (o : Opnds) (s : State) : Out := predOp t o ⟨16, 16, 16, 0, 0⟩ (fun a b => a ||| b) s

/-- R64: PXOR. -/
def execPxor (t : Tid) (o : Opnds) (s : State) : Out := predOp t o ⟨16, 16, 16, 0, 0⟩ (fun a b => a ^^^ b) s

/-- R64: PNOT. -/
def execPnot (t : Tid) (o : Opnds) (s : State) : Out := predOp t o ⟨16, 16, 0, 0, 0⟩ (fun a _ => ~~~a) s

/-- R64: PSET sets every bit of pD to IMM32[0]. -/
def execPset (t : Tid) (o : Opnds) (s : State) : Out := 
  insn s t o 0x01 none (some ⟨16, 0, imAll⟩)
    (fun key => onTh (fun th => setP (isS key) th o.d.toNat (allP (o.imm.getLsbD 0))) key)

/-- R30, R64: RDLTC reads the copy in the thread's own die; all copies hold the same value. -/
def execRdltc (t : Tid) (o : Opnds) (s : State) : Out := readX t o (some ⟨64, 0, 0, 0, 0⟩) none (fun _ s => s.ltc) s

/-- R64, R79: RDNSTAT. -/
def execRdnstat (t : Tid) (o : Opnds) (s : State) : Out := readX t o (some ⟨64, 0, 0, 0, 0⟩) none (fun key s => (th s key).nstat) s

/-- R64, R79: NSTCLR clears nstat, its sticky bits too. -/
def execNstclr (t : Tid) (o : Opnds) (s : State) : Out := 
  insn s t o 0x01 (some ⟨0, 0, 0, 0, 0⟩) none (onTh (fun th => { th with nstat := 0 }))

/-- R64, R82, R83: RDCTR reads counters 0-3 of the context; any other index gives zero. Counts are applied as they are made (R82). -/
def execRdctr (t : Tid) (o : Opnds) (s : State) : Out := 
  readX t o none (some ⟨64, 0, imAll⟩) (fun key s =>
    let c := (th s key).ctx
    match o.imm.toNat with
    | 0 => rd s (R.DSP_CTX_NUM_SAT c)
    | 1 => rd s (R.DSP_CTX_NUM_FLUSH c)
    | 2 => rd s (R.DSP_CTX_NUM_NAN c)
    | 3 => rd s (R.DSP_CTX_TRACE_DROP c)
    | _ => 0) s

/-- R64, R65: RDID. -/
def execRdid (t : Tid) (o : Opnds) (s : State) : Out := readX t o (some ⟨64, 0, 0, 0, 0⟩) none (fun key s => identity s key) s


end Sys2Proof.Machine
end

