-- ==== Sys2Proof/Machine/Target.lean ====
section
/-! DEFINITION. The target side of Scauth (R254, R259-R261, R267, R273, R274, R385, R425): the checks of an arriving request, reads, masked writes, flags held behind earlier writes, atomics and their reply cache. -/

namespace Sys2Proof.Machine

/-- R259: what the checks of a request answer: the partition it is served for, or a reply type, status and cause (none: a cause the spec does not name). -/
inductive Checked where
  | ok (part : Nat)
  | bad (ty status : Nat) (cause : Option Nat)
  deriving DecidableEq, Repr

/-- R269: the valid partition that holds a domain ID. -/
def partOfDomain (s : State) (dom : Nat) : Option Nat :=
  (List.range 8).find? (fun p => bitw (rd s (R.SCF_DOMAIN p)) 63 && rdf s (R.SCF_DOMAIN p) 0 16 == dom)

/-- R220, R228, R259: an address lies in a partition's HBM range in its half or in its LLM scratch ways. -/
def partHolds (s : State) (part a : Nat) : Bool :=
  match region a with
  | .hbm h off => (match ownerRange s h part with
    | some (b, z) => b * 2 ^ 30 ≤ off && off < (b + z) * 2 ^ 30
    | none => false)
  | .llm h off => off / 0x3000000 < 16 && rdf s (R.LLM_WAYMAP h) (4 * (off / 0x3000000)) 4 == part && bitw (rd s (R.LLM_WAYKIND h)) (off / 0x3000000)
  | _ => false

/-- R54, R259, R366: the checks of a request for `n` bytes, in their order; a write to text is refused (log 62). -/
def checkReq (s : State) (p : Pkt) (n : Nat) (write : Bool) : Checked :=
  if region p.addr = .reg then .bad 0x2B 0x11 (some 0x52)
  else
    match partOfDomain s p.dom with
    | none => .bad 0x29 0x21 none
    | some part =>
      if !partHolds s part p.addr then .bad 0x2B 0x11 (some 0x51)
      else
        match physErr s (.net part) p.addr n write with
        | none => .ok part
        | some .measured => .bad 0x2B 0x11 (some 0x51)
        | some .perm => .bad 0x2B 0x11 (some 0x51)
        | some .text => .bad 0x2B 0x11 none
        | some _ => .bad 0x2B 0x10 none

/-- Answer a request with a status: a cause the spec does not name is a free value. -/
def answerBad (s : State) (p : Pkt) (ty status : Nat) (cause : Option Nat) : State :=
  match cause with
  | some c => emit s (replyTo s p ty (status + c <<< 8) [] [] false)
  | none => let d := drawBits 8 s; emit d.2 (replyTo s p ty (status + d.1.toNat <<< 8) [] [] false)

/-- R425: the pause remaining, in units of 100 ns, 1-255. -/
def pauseHint (s : State) : Nat := max 1 (min 255 (cdiv (s.hbmHeldAt + 102000 - s.ltc.toNat) 100))

/-- R273, R425: answer NACK_BUSY: during the HBM pause the hint is the pause remaining; otherwise it is a free value in 1-255. -/
def nackBusy (s : State) (p : Pkt) (cause : Nat) : State :=
  let d : Nat × State := if s.hbmHeld then (pauseHint s, s) else (let f := drawNat s; (f.1 % 255 + 1, f.2))
  emit (addDiv d.2 R.SCF_NACK 0 32 64 1) (replyTo s p 0x28 (d.1 + cause <<< 8) [] [] false)

/-- R273: requests of a source, or of all, that this target holds when `p` is served: flags held, and what arrived before it. -/
def heldFrom (s : State) (p : Pkt) (src : Option Nat) : Nat :=
  let of_ (x : Pkt) : Bool := match src with | some c => x.src == c | none => true
  (s.heldFlags.filter (fun h => of_ h.1)).length +
  ((s.rxq.takeWhile (fun x => x != p)).filter (fun x => isRequest x.ty && of_ x)).length

/-- R232, R244, R259: a request of a packet, metered against its partition. -/
def netSrc (s : State) (p : Pkt) : Src := srcNet ((partOfDomain s p.dom).getD 8)

/-- R247, R260: a write to lines of which the other half holds copies waits for the acknowledgement of their invalidation: the state with it asked for. -/
def invWait (s : State) (a n : Nat) : Option State :=
  let s' := (linesOf a n).foldl (fun s l => invalidate s (srcNet 0) l) s
  if s'.invs.any (fun (e : Nat × Nat × Nat) => e.1 == 65535 && (linesOf a n).contains e.2.1) then some s' else none

/-- R259, R273, R425: admit and check a request of type `ty` for `n` bytes, and serve it with `f`; a request whose line must wait stays where it is. `busy`: requests still in service exhaust a limit of R273 (log 68). -/
def onRequest (ty : Nat) (p : Pkt) (busy : Bool) (n : Nat) (write : Bool) (f : State → State) (s0 : State) : Out :=
  .next (if !issuing s0 || p.ty != ty || p.dst != ownCoord s0 then s0
    else
      let s := takeRx s0 p
      if busy || rdf s R.SCF_CFG 0 8 ≤ heldFrom s0 p (some p.src) || 8192 ≤ heldFrom s0 p none then nackBusy s p 0x57
      else
        match checkReq s p n write with
        | .bad ty st c => answerBad s p ty st c
        | .ok _ =>
          if s.hbmHeld && (match region p.addr with | .hbm _ _ => true | _ => false) then nackBusy s p 0x57
          else if (linesOf p.addr n).any (lineWaits s) then s0
          else
            match if write then invWait s0 p.addr n else none with
            | some s' => s'
            | none => f s)

/-- R216, R260: apply a masked write of one line. -/
def putMasked (s : State) (src : Src) (a mask : Nat) (bs : List Byte) (pois : Bool) : State :=
  let s := if mask = 2 ^ 64 - 1 then physPut s a (padTo 64 bs)
    else (List.range 64).foldl (fun s i => if mask.testBit i then physPut s (a + i) [bs.getD i 0] else s) s
  let s := wrote s src a 64
  if pois then poisonLine s (a / 64) else s

/-- R260, R265, R385: serve a READ. -/
def execPktRead (p : Pkt) (busy : Bool) (s : State) : Out :=
  let q := { p with addr := p.addr / 64 * 64 }
  onRequest 0x01 p busy 64 false (fun s =>
    let r := physRead s (netSrc s p) q.addr 64
    emit r.1 (replyTo s p 0x20 0 [] r.2.1 r.2.2)) s

/-- R261: two sequence numbers of an engine lie far apart. -/
def seqFar (a b : Nat) : Bool := let d := (a + 2 ^ 24 - b) % 2 ^ 24; 2 ^ 22 ≤ d && d ≤ 2 ^ 24 - 2 ^ 22

/-- R261: a write of a source has been applied. -/
def noteApplied (s : State) (p : Pkt) : State :=
  { s with applied := (p.src, p.eng, p.seq) :: s.applied.filter (fun (e : Nat × Nat × Nat) =>
      !(e.1 == p.src && e.2.1 == p.eng && (e.2.2 == p.seq || seqFar e.2.2 p.seq))) }

/-- R260: apply a WRITE or a WRITEF at its home and acknowledge it. -/
def applyWrite (s : State) (p : Pkt) : State :=
  emit (noteApplied (putMasked s (netSrc s p) (p.addr / 64 * 64) p.mask p.data p.pois) p) (replyTo s p 0x21 0 [] [] false)

/-- R261: flags whose earlier writes have all been applied are applied in turn. -/
def releaseFlags : Nat → State → State
  | 0, s => s
  | fuel + 1, s =>
    match s.heldFlags.find? (fun h => h.2.isEmpty) with
    | none => s
    | some h =>
      let s : State := applyWrite { s with heldFlags := s.heldFlags.erase h } h.1
      releaseFlags fuel { s with heldFlags := s.heldFlags.map (fun x =>
        if x.1.src = h.1.src ∧ x.1.eng = h.1.eng then (x.1, x.2.filter (· ≠ h.1.seq)) else x) }

/-- R260, R261: a WRITE. -/
def execPktWrite (p : Pkt) (busy : Bool) (s : State) : Out :=
  onRequest 0x02 p busy 64 true (fun s =>
    let s := applyWrite s p
    let s : State := { s with heldFlags := s.heldFlags.map (fun x =>
      if x.1.src = p.src ∧ x.1.eng = p.eng then (x.1, x.2.filter (· ≠ p.seq)) else x) }
    releaseFlags s.heldFlags.length s) s

/-- R261: a WRITEF is held until the PRIOR earlier writes of its source, which `waits` names, have been applied; other numbers of names are no such packet (log 68). -/
def execPktWritef (p : Pkt) (busy : Bool) (waits : List Nat) (s : State) : Out :=
  onRequest 0x03 p busy 64 true (fun s1 =>
    if waits.length ≠ p.prior then s
    else if s1.heldFlags.any (fun h => h.1.src == p.src && h.1.eng == p.eng && h.1.seq == p.seq) then s1
    else
      let s2 : State := { s1 with heldFlags := s1.heldFlags ++ [(p, waits.filter (fun q => !s1.applied.contains (p.src, p.eng, q)))] }
      releaseFlags s2.heldFlags.length s2) s

/-- R274: the reply cached under a tag. -/
def cached (s : State) (src eng seq : Nat) : Option Nat :=
  (s.rcache.find? (fun e => e.src == src && e.eng == eng && e.seq == seq)).map (·.v)

/-- R76, R254: the value an atomic leaves. -/
def atomicNew (ty : Nat) (sgn : Bool) (old v : Nat) : Nat :=
  let lt (a b : Nat) : Bool := if sgn then sext 64 a < sext 64 b else a < b
  match ty with
  | 0x08 => (old + v) % 2 ^ 64
  | 0x09 => if lt v old then v else old
  | 0x0A => if lt old v then v else old
  | 0x0B => old &&& v
  | 0x0C => old ||| v
  | 0x0D => old ^^^ v
  | _ => v

/-- R267, R274: apply the members of an atomic in order, each once: a cached member is answered from the cache. -/
def applyMembers (ty : Nat) (sgn : Bool) (a : Nat) : List Member → State → State × List Member
  | [], s => (s, [])
  | m :: ms, s =>
    match cached s m.src m.eng m.seq with
    | some v =>
      let r := applyMembers ty sgn a ms (addSat s R.SCF_RCACHE 16 32 1)
      (r.1, { m with v := v } :: r.2)
    | none =>
      let old := leNat (memGet s a 8)
      let s := physPut s a (leBytes 8 (atomicNew ty sgn old (m.v % 2 ^ 64)))
      let s : State := { s with rcache := s.rcache ++ [⟨m.src, m.eng, m.seq, old, s.ltc.toNat⟩] }
      let r := applyMembers ty sgn a ms s
      (r.1, { m with v := old } :: r.2)

/-- R260, R265, R267, R274, R385: serve an atomic or a bundle of type `ty`. -/
def atomicAt (ty : Nat) (p : Pkt) (busy : Bool) (s : State) : Out :=
  onRequest ty p busy 8 true (fun s =>
    let fresh := (p.mem.filter (fun m => (cached s m.src m.eng m.seq).isNone)).length
    if 16384 < s.rcache.length + fresh then nackBusy s p 0x58
    else if p.addr % 8 ≠ 0 then answerBad s p 0x2B 0x10 none
    else
      let r := physRead s (netSrc s p) p.addr 8
      if r.2.2 && fresh != 0 then answerBad r.1 p 0x2B 0x12 none
      else
        let q := applyMembers ty p.sgn p.addr p.mem r.1
        emit (if fresh = 0 then q.1 else wrote q.1 (netSrc s p) p.addr 8) (replyTo s p 0x22 0 q.2 [] false)) s

/-- R260: ADD. -/
def execPktAdd (p : Pkt) (busy : Bool) (s : State) : Out := atomicAt 0x08 p busy s
/-- R260: MIN. -/
def execPktMin (p : Pkt) (busy : Bool) (s : State) : Out := atomicAt 0x09 p busy s
/-- R260: MAX. -/
def execPktMax (p : Pkt) (busy : Bool) (s : State) : Out := atomicAt 0x0A p busy s
/-- R260: AND. -/
def execPktAnd (p : Pkt) (busy : Bool) (s : State) : Out := atomicAt 0x0B p busy s
/-- R260: OR. -/
def execPktOr (p : Pkt) (busy : Bool) (s : State) : Out := atomicAt 0x0C p busy s
/-- R260: XOR. -/
def execPktXor (p : Pkt) (busy : Bool) (s : State) : Out := atomicAt 0x0D p busy s
/-- R260: SWAP. -/
def execPktSwap (p : Pkt) (busy : Bool) (s : State) : Out := atomicAt 0x0E p busy s

/-- R260, R265, R274: serve a compare-and-swap of `n` bytes. -/
def casAt (ty n : Nat) (p : Pkt) (busy : Bool) (s : State) : Out :=
  onRequest ty p busy n true (fun s =>
    match cached s p.src p.eng p.seq with
    | some v => emit (addSat s R.SCF_RCACHE 16 32 1) (replyTo s p 0x22 0 [] (leBytes n v) false)
    | none =>
      if 16384 ≤ s.rcache.length then nackBusy s p 0x58
      else if p.addr % n ≠ 0 then answerBad s p 0x2B 0x10 none
      else
        let r := physRead s (netSrc s p) p.addr n
        if r.2.2 then answerBad r.1 p 0x2B 0x12 none
        else
          let old := leNat r.2.1
          let s := r.1
          let s := if old = leNat (p.data.take n) then physWrite s (netSrc s p) p.addr (padTo n (p.data.drop n)) else s
          let s : State := { s with rcache := s.rcache ++ [⟨p.src, p.eng, p.seq, old, s.ltc.toNat⟩] }
          emit s (replyTo s p 0x22 0 [] (leBytes n old) false)) s

/-- R260: CAS8. -/
def execPktCas8 (p : Pkt) (busy : Bool) (s : State) : Out := casAt 0x0F 8 p busy s
/-- R260: CAS16. -/
def execPktCas16 (p : Pkt) (busy : Bool) (s : State) : Out := casAt 0x10 16 p busy s

/-- R274: an entry whose retention has ended frees. -/
def execRcacheEntryExpiry (src eng seq : Nat) (s : State) : Out :=
  let keep := max 100 (rdf s R.SCF_CFG 16 10) * 1000
  .next { s with rcache := s.rcache.filter (fun e => !(e.src == src && e.eng == eng && e.seq == seq && e.at_ + keep ≤ s.ltc.toNat)) }

end Sys2Proof.Machine
end

