-- ==== Sys2Proof/Machine/Dispatch.lean ====
section
/-! DEFINITION. The meaning of every command of the table, by its row: one arm each. -/

namespace Sys2Proof.Machine

/-- What a command does to everything but the queue of commands. -/
def exec (i : Instr) (s : State) : Host.Outcome State Fault Refusal :=
  match i with
  | .add t o => Sys2Proof.Machine.execAdd t o s
  | .sub t o => Sys2Proof.Machine.execSub t o s
  | .mul t o => Sys2Proof.Machine.execMul t o s
  | .mulhs t o => Sys2Proof.Machine.execMulhs t o s
  | .mulhu t o => Sys2Proof.Machine.execMulhu t o s
  | .divs t o => Sys2Proof.Machine.execDivs t o s
  | .divu t o => Sys2Proof.Machine.execDivu t o s
  | .rems t o => Sys2Proof.Machine.execRems t o s
  | .remu t o => Sys2Proof.Machine.execRemu t o s
  | .and t o => Sys2Proof.Machine.execAnd t o s
  | .or t o => Sys2Proof.Machine.execOr t o s
  | .xor t o => Sys2Proof.Machine.execXor t o s
  | .shl t o => Sys2Proof.Machine.execShl t o s
  | .shr t o => Sys2Proof.Machine.execShr t o s
  | .sar t o => Sys2Proof.Machine.execSar t o s
  | .mins t o => Sys2Proof.Machine.execMins t o s
  | .maxs t o => Sys2Proof.Machine.execMaxs t o s
  | .minu t o => Sys2Proof.Machine.execMinu t o s
  | .maxu t o => Sys2Proof.Machine.execMaxu t o s
  | .cmpeq t o => Sys2Proof.Machine.execCmpeq t o s
  | .cmpne t o => Sys2Proof.Machine.execCmpne t o s
  | .cmplts t o => Sys2Proof.Machine.execCmplts t o s
  | .cmpltu t o => Sys2Proof.Machine.execCmpltu t o s
  | .cmples t o => Sys2Proof.Machine.execCmples t o s
  | .cmpleu t o => Sys2Proof.Machine.execCmpleu t o s
  | .mov t o => Sys2Proof.Machine.execMov t o s
  | .movhi t o => Sys2Proof.Machine.execMovhi t o s
  | .ld1 t o => Sys2Proof.Machine.execLd1 t o s
  | .ld2 t o => Sys2Proof.Machine.execLd2 t o s
  | .ld4 t o => Sys2Proof.Machine.execLd4 t o s
  | .ld8 t o => Sys2Proof.Machine.execLd8 t o s
  | .st1 t o => Sys2Proof.Machine.execSt1 t o s
  | .st2 t o => Sys2Proof.Machine.execSt2 t o s
  | .st4 t o => Sys2Proof.Machine.execSt4 t o s
  | .st8 t o => Sys2Proof.Machine.execSt8 t o s
  | .fld t o => Sys2Proof.Machine.execFld t o s
  | .fst t o => Sys2Proof.Machine.execFst t o s
  | .fadd t o => Sys2Proof.Machine.execFadd t o s
  | .fsub t o => Sys2Proof.Machine.execFsub t o s
  | .fmul t o => Sys2Proof.Machine.execFmul t o s
  | .fdiv t o => Sys2Proof.Machine.execFdiv t o s
  | .fsqrt t o => Sys2Proof.Machine.execFsqrt t o s
  | .ffma t o => Sys2Proof.Machine.execFfma t o s
  | .fmin t o => Sys2Proof.Machine.execFmin t o s
  | .fmax t o => Sys2Proof.Machine.execFmax t o s
  | .fcmpeq t o => Sys2Proof.Machine.execFcmpeq t o s
  | .fcmplt t o => Sys2Proof.Machine.execFcmplt t o s
  | .fcmple t o => Sys2Proof.Machine.execFcmple t o s
  | .fcvti t o => Sys2Proof.Machine.execFcvti t o s
  | .fcvtf t o => Sys2Proof.Machine.execFcvtf t o s
  | .fmovx t o => Sys2Proof.Machine.execFmovx t o s
  | .fmovf t o => Sys2Proof.Machine.execFmovf t o s
  | .pand t o => Sys2Proof.Machine.execPand t o s
  | .por t o => Sys2Proof.Machine.execPor t o s
  | .pxor t o => Sys2Proof.Machine.execPxor t o s
  | .pnot t o => Sys2Proof.Machine.execPnot t o s
  | .pset t o => Sys2Proof.Machine.execPset t o s
  | .rdltc t o => Sys2Proof.Machine.execRdltc t o s
  | .rdnstat t o => Sys2Proof.Machine.execRdnstat t o s
  | .nstclr t o => Sys2Proof.Machine.execNstclr t o s
  | .rdctr t o => Sys2Proof.Machine.execRdctr t o s
  | .rdid t o => Sys2Proof.Machine.execRdid t o s
  | .br t o => Sys2Proof.Machine.execBr t o s
  | .jal t o => Sys2Proof.Machine.execJal t o s
  | .jr t o => Sys2Proof.Machine.execJr t o s
  | .endProg t o => Sys2Proof.Machine.execEndProg t o s
  | .nop t o => Sys2Proof.Machine.execNop t o s
  | .trace t o => Sys2Proof.Machine.execTrace t o s
  | .setc t o => Sys2Proof.Machine.execSetc t o s
  | .wait t o => Sys2Proof.Machine.execWait t o s
  | .waitr t o => Sys2Proof.Machine.execWaitr t o s
  | .waitd t o => Sys2Proof.Machine.execWaitd t o s
  | .waitRelease t => Sys2Proof.Machine.execWaitRelease t s
  | .waitdDeadline t => Sys2Proof.Machine.execWaitdDeadline t s
  | .fence t o => Sys2Proof.Machine.execFence t o s
  | .fenceComplete t => Sys2Proof.Machine.execFenceComplete t s
  | .stream t o => Sys2Proof.Machine.execStream t o s
  | .sdldB t o => Sys2Proof.Machine.execSdldB t o s
  | .sdldE t o => Sys2Proof.Machine.execSdldE t o s
  | .sdadd t o => Sys2Proof.Machine.execSdadd t o s
  | .copy t o => Sys2Proof.Machine.execCopy t o s
  | .rget t o => Sys2Proof.Machine.execRget t o s
  | .rput t o => Sys2Proof.Machine.execRput t o s
  | .rputf t o => Sys2Proof.Machine.execRputf t o s
  | .radd t o => Sys2Proof.Machine.execRadd t o s
  | .rmin t o => Sys2Proof.Machine.execRmin t o s
  | .rmax t o => Sys2Proof.Machine.execRmax t o s
  | .rand t o => Sys2Proof.Machine.execRand t o s
  | .ror t o => Sys2Proof.Machine.execRor t o s
  | .rxor t o => Sys2Proof.Machine.execRxor t o s
  | .rswap t o => Sys2Proof.Machine.execRswap t o s
  | .rcas8 t o => Sys2Proof.Machine.execRcas8 t o s
  | .rcas16 t o => Sys2Proof.Machine.execRcas16 t o s
  | .mxpassB t o => Sys2Proof.Machine.execMxpassB t o s
  | .mxpassE t o => Sys2Proof.Machine.execMxpassE t o s
  | .mxswap t o => Sys2Proof.Machine.execMxswap t o s
  | .mxend t o => Sys2Proof.Machine.execMxend t o s
  | .trsetB t o => Sys2Proof.Machine.execTrsetB t o s
  | .trsetE t o => Sys2Proof.Machine.execTrsetE t o s
  | .trend t o => Sys2Proof.Machine.execTrend t o s
  | .eweRunB t o => Sys2Proof.Machine.execEweRunB t o s
  | .eweRunE t o => Sys2Proof.Machine.execEweRunE t o s
  | .eweImm t o => Sys2Proof.Machine.execEweImm t o s
  | .eweLdp t o => Sys2Proof.Machine.execEweLdp t o s
  | .eweLdr t o => Sys2Proof.Machine.execEweLdr t o s
  | .eweStr t o => Sys2Proof.Machine.execEweStr t o s
  | .eweRexec t o => Sys2Proof.Machine.execEweRexec t o s
  | .rduOpB t o => Sys2Proof.Machine.execRduOpB t o s
  | .rduOpE t o => Sys2Proof.Machine.execRduOpE t o s
  | .rduEnd t o => Sys2Proof.Machine.execRduEnd t o s
  | .rduRreg t o => Sys2Proof.Machine.execRduRreg t o s
  | .classInstructionAtStation core station => Sys2Proof.Machine.execClassInstructionAtStation core station s
  | .setvl t o => Sys2Proof.Machine.execSetvl t o s
  | .setvlr t o => Sys2Proof.Machine.execSetvlr t o s
  | .vld t o => Sys2Proof.Machine.execVld t o s
  | .vldff t o => Sys2Proof.Machine.execVldff t o s
  | .vlds t o => Sys2Proof.Machine.execVlds t o s
  | .vldx t o => Sys2Proof.Machine.execVldx t o s
  | .vldxff t o => Sys2Proof.Machine.execVldxff t o s
  | .vldseg t o => Sys2Proof.Machine.execVldseg t o s
  | .vrgather t o => Sys2Proof.Machine.execVrgather t o s
  | .vst t o => Sys2Proof.Machine.execVst t o s
  | .vsts t o => Sys2Proof.Machine.execVsts t o s
  | .vstx t o => Sys2Proof.Machine.execVstx t o s
  | .vstseg t o => Sys2Proof.Machine.execVstseg t o s
  | .vfadd t o => Sys2Proof.Machine.execVfadd t o s
  | .vfsub t o => Sys2Proof.Machine.execVfsub t o s
  | .vfmul t o => Sys2Proof.Machine.execVfmul t o s
  | .vfdiv t o => Sys2Proof.Machine.execVfdiv t o s
  | .vfsqrt t o => Sys2Proof.Machine.execVfsqrt t o s
  | .vfma t o => Sys2Proof.Machine.execVfma t o s
  | .vfmin t o => Sys2Proof.Machine.execVfmin t o s
  | .vfmax t o => Sys2Proof.Machine.execVfmax t o s
  | .vfcmpeq t o => Sys2Proof.Machine.execVfcmpeq t o s
  | .vfcmplt t o => Sys2Proof.Machine.execVfcmplt t o s
  | .vfcmple t o => Sys2Proof.Machine.execVfcmple t o s
  | .vcvt t o => Sys2Proof.Machine.execVcvt t o s
  | .vadd t o => Sys2Proof.Machine.execVadd t o s
  | .vsub t o => Sys2Proof.Machine.execVsub t o s
  | .vsadd t o => Sys2Proof.Machine.execVsadd t o s
  | .vssub t o => Sys2Proof.Machine.execVssub t o s
  | .vaadd t o => Sys2Proof.Machine.execVaadd t o s
  | .vmul t o => Sys2Proof.Machine.execVmul t o s
  | .vmulh t o => Sys2Proof.Machine.execVmulh t o s
  | .vmulhq t o => Sys2Proof.Machine.execVmulhq t o s
  | .vmin t o => Sys2Proof.Machine.execVmin t o s
  | .vmax t o => Sys2Proof.Machine.execVmax t o s
  | .vand t o => Sys2Proof.Machine.execVand t o s
  | .vor t o => Sys2Proof.Machine.execVor t o s
  | .vxor t o => Sys2Proof.Machine.execVxor t o s
  | .vshl t o => Sys2Proof.Machine.execVshl t o s
  | .vsra t o => Sys2Proof.Machine.execVsra t o s
  | .vnshr t o => Sys2Proof.Machine.execVnshr t o s
  | .vcmpeq t o => Sys2Proof.Machine.execVcmpeq t o s
  | .vcmplt t o => Sys2Proof.Machine.execVcmplt t o s
  | .vdot t o => Sys2Proof.Machine.execVdot t o s
  | .vaccadd t o => Sys2Proof.Machine.execVaccadd t o s
  | .vdotr t o => Sys2Proof.Machine.execVdotr t o s
  | .vredsum t o => Sys2Proof.Machine.execVredsum t o s
  | .vredmax t o => Sys2Proof.Machine.execVredmax t o s
  | .vredmin t o => Sys2Proof.Machine.execVredmin t o s
  | .vpcnt t o => Sys2Proof.Machine.execVpcnt t o s
  | .vpfirst t o => Sys2Proof.Machine.execVpfirst t o s
  | .vmov t o => Sys2Proof.Machine.execVmov t o s
  | .viota t o => Sys2Proof.Machine.execViota t o s
  | .solveB t o => Sys2Proof.Machine.execSolveB t o s
  | .solveE t o => Sys2Proof.Machine.execSolveE t o s
  | .lvuWakeDone core => Sys2Proof.Machine.execLvuWakeDone core s
  | .lvuPowerDown core => Sys2Proof.Machine.execLvuPowerDown core s
  | .loadTileReady core => Sys2Proof.Machine.execLoadTileReady core s
  | .matrixActivationTile core => Sys2Proof.Machine.execMatrixActivationTile core s
  | .matrixStationaryTile core => Sys2Proof.Machine.execMatrixStationaryTile core s
  | .matrixReadout who => Sys2Proof.Machine.execMatrixReadout who s
  | .trestleWeightTile core => Sys2Proof.Machine.execTrestleWeightTile core s
  | .trestleReadout who => Sys2Proof.Machine.execTrestleReadout who s
  | .elementTile core => Sys2Proof.Machine.execElementTile core s
  | .reduceTile who => Sys2Proof.Machine.execReduceTile who s
  | .storeTile core => Sys2Proof.Machine.execStoreTile core s
  | .storeTileVisible core => Sys2Proof.Machine.execStoreTileVisible core s
  | .fabricPutTile core => Sys2Proof.Machine.execFabricPutTile core s
  | .fabricGetTileReady core => Sys2Proof.Machine.execFabricGetTileReady core s
  | .copyRequestServe cpe => Sys2Proof.Machine.execCopyRequestServe cpe s
  | .copyLineLanded cpe => Sys2Proof.Machine.execCopyLineLanded cpe s
  | .ncoPreemptReq core v => Sys2Proof.Machine.execNcoPreemptReq core v s
  | .preemptSaveDone core => Sys2Proof.Machine.execPreemptSaveDone core s
  | .solveStart svu => Sys2Proof.Machine.execSolveStart svu s
  | .boundaryReductionResult svu => Sys2Proof.Machine.execBoundaryReductionResult svu s
  | .solveDeadlineExpiry svu => Sys2Proof.Machine.execSolveDeadlineExpiry svu s
  | .patrolScrubRead line syms => Sys2Proof.Machine.execPatrolScrubRead line syms s
  | .remapCopyDone h ix => Sys2Proof.Machine.execRemapCopyDone h ix s
  | .hotChannelWindowEnd h p counts => Sys2Proof.Machine.execHotChannelWindowEnd h p counts s
  | .memPartCfgValid h p v => Sys2Proof.Machine.execMemPartCfgValid h p v s
  | .llmPartCfgApply h p v => Sys2Proof.Machine.execLlmPartCfgApply h p v s
  | .llmSplitDone h p => Sys2Proof.Machine.execLlmSplitDone h p s
  | .rglPartWrite h p v => Sys2Proof.Machine.execRglPartWrite h p v s
  | .archLinkCrcFail h resends => Sys2Proof.Machine.execArchLinkCrcFail h resends s
  | .pktRead p busy => Sys2Proof.Machine.execPktRead p busy s
  | .pktWrite p busy => Sys2Proof.Machine.execPktWrite p busy s
  | .pktWritef p busy waits => Sys2Proof.Machine.execPktWritef p busy waits s
  | .pktAdd p busy => Sys2Proof.Machine.execPktAdd p busy s
  | .pktMin p busy => Sys2Proof.Machine.execPktMin p busy s
  | .pktMax p busy => Sys2Proof.Machine.execPktMax p busy s
  | .pktAnd p busy => Sys2Proof.Machine.execPktAnd p busy s
  | .pktOr p busy => Sys2Proof.Machine.execPktOr p busy s
  | .pktXor p busy => Sys2Proof.Machine.execPktXor p busy s
  | .pktSwap p busy => Sys2Proof.Machine.execPktSwap p busy s
  | .pktCas8 p busy => Sys2Proof.Machine.execPktCas8 p busy s
  | .pktCas16 p busy => Sys2Proof.Machine.execPktCas16 p busy s
  | .pktData p => Sys2Proof.Machine.execPktData p s
  | .pktAck p => Sys2Proof.Machine.execPktAck p s
  | .pktValue p => Sys2Proof.Machine.execPktValue p s
  | .pktNackBusy p => Sys2Proof.Machine.execPktNackBusy p s
  | .pktNackDomain p => Sys2Proof.Machine.execPktNackDomain p s
  | .pktUnreachable p => Sys2Proof.Machine.execPktUnreachable p s
  | .pktFault p => Sys2Proof.Machine.execPktFault p s
  | .retryAfterExpiry eng seq => Sys2Proof.Machine.execRetryAfterExpiry eng seq s
  | .resendTimeout eng seq => Sys2Proof.Machine.execResendTimeout eng seq s
  | .rcacheEntryExpiry src eng seq => Sys2Proof.Machine.execRcacheEntryExpiry src eng seq s
  | .routerForward ix => Sys2Proof.Machine.execRouterForward ix s
  | .scauthLinkReplay port fails => Sys2Proof.Machine.execScauthLinkReplay port fails s
  | .keepaliveSend port => Sys2Proof.Machine.execKeepaliveSend port s
  | .keepaliveReceived port => Sys2Proof.Machine.execKeepaliveReceived port s
  | .portSilenceTimeout port => Sys2Proof.Machine.execPortSilenceTimeout port s
  | .lossOfLock port => Sys2Proof.Machine.execLossOfLock port s
  | .leavingReceived port => Sys2Proof.Machine.execLeavingReceived port s
  | .portTrained port => Sys2Proof.Machine.execPortTrained port s
  | .lostNotice port coord cause => Sys2Proof.Machine.execLostNotice port coord cause s
  | .scfCoordWrite v => Sys2Proof.Machine.execScfCoordWrite v s
  | .scfPortCtlWrite port v => Sys2Proof.Machine.execScfPortCtlWrite port v s
  | .scfDomainWrite p v => Sys2Proof.Machine.execScfDomainWrite p v s
  | .scfSlotSplitWrite v => Sys2Proof.Machine.execScfSlotSplitWrite v s
  | .winEntryWord1Write ix v => Sys2Proof.Machine.execWinEntryWord1Write ix v s
  | .winEntryWord0Write ix v => Sys2Proof.Machine.execWinEntryWord0Write ix v s
  | .colGroupValid g v => Sys2Proof.Machine.execColGroupValid g v s
  | .colTrigValid t v => Sys2Proof.Machine.execColTrigValid t v s
  | .colTadd ctx n v => Sys2Proof.Machine.execColTadd ctx n v s
  | .collectiveQueuedStart id => Sys2Proof.Machine.execCollectiveQueuedStart id s
  | .collectiveFlit port f => Sys2Proof.Machine.execCollectiveFlit port f s
  | .bulkChunk port f => Sys2Proof.Machine.execBulkChunk port f s
  | .matchRetry port f => Sys2Proof.Machine.execMatchRetry port f s
  | .collectiveComplete id => Sys2Proof.Machine.execCollectiveComplete id s
  | .collWatchdog id => Sys2Proof.Machine.execCollWatchdog id s
  | .cutVoteResult p => Sys2Proof.Machine.execCutVoteResult p s
  | .cutCopyDone p => Sys2Proof.Machine.execCutCopyDone p s
  | .copiedVoteResult p => Sys2Proof.Machine.execCopiedVoteResult p s
  | .drainSeal p => Sys2Proof.Machine.execDrainSeal p s
  | .drainWriteFail p => Sys2Proof.Machine.execDrainWriteFail p s
  | .restoreLocalDone p => Sys2Proof.Machine.execRestoreLocalDone p s
  | .restoreVoteResult p => Sys2Proof.Machine.execRestoreVoteResult p s
  | .errorWatchWindow => Sys2Proof.Machine.execErrorWatchWindow s
  | .ckpCfgValid p v => Sys2Proof.Machine.execCkpCfgValid p v s
  | .ckpCmdCut p => Sys2Proof.Machine.execCkpCmdCut p s
  | .ckpCmdRestoreCofferdam p => Sys2Proof.Machine.execCkpCmdRestoreCofferdam p s
  | .ckpCmdRestoreModules p => Sys2Proof.Machine.execCkpCmdRestoreModules p s
  | .ckpCmdRestoreMirror p => Sys2Proof.Machine.execCkpCmdRestoreMirror p s
  | .ckpCmdReshard p source => Sys2Proof.Machine.execCkpCmdReshard p source s
  | .ckpCmdStop p => Sys2Proof.Machine.execCkpCmdStop p s
  | .ckpCmdRvote p => Sys2Proof.Machine.execCkpCmdRvote p s
  | .hostLineInvalidated r => Sys2Proof.Machine.execHostLineInvalidated r s
  | .hostIndexLineArrival r sqPi cqCi => Sys2Proof.Machine.execHostIndexLineArrival r sqPi cqCi s
  | .launch r bytes => Sys2Proof.Machine.execLaunch r bytes s
  | .tadd r bytes => Sys2Proof.Machine.execTadd r bytes s
  | .mark r bytes => Sys2Proof.Machine.execMark r bytes s
  | .deviceIndexLineWrite r => Sys2Proof.Machine.execDeviceIndexLineWrite r s
  | .faultRecordWrite => Sys2Proof.Machine.execFaultRecordWrite s
  | .launchWatchdog r ix => Sys2Proof.Machine.execLaunchWatchdog r ix s
  | .dspTctlResume t => Sys2Proof.Machine.execDspTctlResume t s
  | .dspTctlAbandon t => Sys2Proof.Machine.execDspTctlAbandon t s
  | .dspTlbinvGo v => Sys2Proof.Machine.execDspTlbinvGo v s
  | .tlbinvDone => Sys2Proof.Machine.execTlbinvDone s
  | .dspCtxdefValid c v => Sys2Proof.Machine.execDspCtxdefValid c v s
  | .dspCsetWrite c k w v => Sys2Proof.Machine.execDspCsetWrite c k w v s
  | .dspCfgEnable v => Sys2Proof.Machine.execDspCfgEnable v s
  | .dspRingEnable r v => Sys2Proof.Machine.execDspRingEnable r v s
  | .dspLogclaim p => Sys2Proof.Machine.execDspLogclaim p s
  | .hostRead addr n hold => Sys2Proof.Machine.execHostRead addr n hold s
  | .hostWrite addr bytes hold => Sys2Proof.Machine.execHostWrite addr bytes hold s
  | .plkPortDown port => Sys2Proof.Machine.execPlkPortDown port s
  | .plkPortUp port => Sys2Proof.Machine.execPlkPortUp port s
  | .plkFlitResend port fails => Sys2Proof.Machine.execPlkFlitResend port fails s
  | .keyswitch => Sys2Proof.Machine.execKeyswitch s
  | .secCmdReport => Sys2Proof.Machine.execSecCmdReport s
  | .secCmdAdmit => Sys2Proof.Machine.execSecCmdAdmit s
  | .secCmdEndsession => Sys2Proof.Machine.execSecCmdEndsession s
  | .secKslotLoad k v => Sys2Proof.Machine.execSecKslotLoad k v s
  | .secMeasGo h ix v => Sys2Proof.Machine.execSecMeasGo h ix v s
  | .measurementDone h ix => Sys2Proof.Machine.execMeasurementDone h ix s
  | .secReleaseGo v => Sys2Proof.Machine.execSecReleaseGo v s
  | .scrubDone p => Sys2Proof.Machine.execScrubDone p s
  | .ceSummaryPeriod => Sys2Proof.Machine.execCeSummaryPeriod s
  | .refclkLoss => Sys2Proof.Machine.execRefclkLoss s
  | .refclkReturn => Sys2Proof.Machine.execRefclkReturn s
  | .railFault rail => Sys2Proof.Machine.execRailFault rail s
  | .sequencerTimeout die => Sys2Proof.Machine.execSequencerTimeout die s
  | .powerSample w mv ca => Sys2Proof.Machine.execPowerSample w mv ca s
  | .thermalSample temps => Sys2Proof.Machine.execThermalSample temps s
  | .thermalTrip die temp => Sys2Proof.Machine.execThermalTrip die temp s
  | .powerLoss cause => Sys2Proof.Machine.execPowerLoss cause s
  | .powerOn => Sys2Proof.Machine.execPowerOn s
  | .rootPllLock => Sys2Proof.Machine.execRootPllLock s
  | .railsUp => Sys2Proof.Machine.execRailsUp s
  | .imageVerify a b => Sys2Proof.Machine.execImageVerify a b s
  | .imageApply power writes => Sys2Proof.Machine.execImageApply power writes s
  | .hbmTraining failed repaired => Sys2Proof.Machine.execHbmTraining failed repaired s
  | .serdesTraining trained failed plk => Sys2Proof.Machine.execSerdesTraining trained failed plk s
  | .hbmZero => Sys2Proof.Machine.execHbmZero s
  | .memoryClear => Sys2Proof.Machine.execMemoryClear s
  | .frontEndReady => Sys2Proof.Machine.execFrontEndReady s
  | .startUpStageTimeout => Sys2Proof.Machine.execStartUpStageTimeout s
  | .resetNPulse => Sys2Proof.Machine.execResetNPulse s
  | .pwrCtlReset v => Sys2Proof.Machine.execPwrCtlReset v s
  | .pwrCtlStandby v => Sys2Proof.Machine.execPwrCtlStandby v s
  | .pwrRegimePowerChange v => Sys2Proof.Machine.execPwrRegimePowerChange v s
  | .pwrRegimePrecisionChange v => Sys2Proof.Machine.execPwrRegimePrecisionChange v s
  | .pwrRegimeLatencyChange v => Sys2Proof.Machine.execPwrRegimeLatencyChange v s
  | .frugalChangeProceeds => Sys2Proof.Machine.execFrugalChangeProceeds s
  | .bbxCtlFreeze => Sys2Proof.Machine.execBbxCtlFreeze s
  | .bbxCtlUnfreeze => Sys2Proof.Machine.execBbxCtlUnfreeze s
  | .bbxDataHRead => Sys2Proof.Machine.execBbxDataHRead s
  | .bbxDataIRead => Sys2Proof.Machine.execBbxDataIRead s
  | .i3cPrivateWrite bytes => Sys2Proof.Machine.execI3cPrivateWrite bytes s
  | .i3cPrivateRead => Sys2Proof.Machine.execI3cPrivateRead s
  | .i3cArbitrationLoss => Sys2Proof.Machine.execI3cArbitrationLoss s
  | .i3cRetry => Sys2Proof.Machine.execI3cRetry s
  | .evtClaimTriggerIn n v i3c => Sys2Proof.Machine.execEvtClaimTriggerIn n v i3c s
  | .evtClaimFreezeOut n v i3c => Sys2Proof.Machine.execEvtClaimFreezeOut n v i3c s
  | .evtRelease n v i3c => Sys2Proof.Machine.execEvtRelease n v i3c s
  | .evtTriggerEdge n => Sys2Proof.Machine.execEvtTriggerEdge n s
  | .evtFreezeEdge n => Sys2Proof.Machine.execEvtFreezeEdge n s
  | .moduleInserted b m => Sys2Proof.Machine.execModuleInserted b m s
  | .capsuleCheckDone b => Sys2Proof.Machine.execCapsuleCheckDone b s
  | .drnBayEject b => Sys2Proof.Machine.execDrnBayEject b s
  | .moduleRemoved b => Sys2Proof.Machine.execModuleRemoved b s
  | .ledgerPoll => Sys2Proof.Machine.execLedgerPoll s
  | .drnAreaWrite p base v => Sys2Proof.Machine.execDrnAreaWrite p base v s
  | .drnXferLoad p v => Sys2Proof.Machine.execDrnXferLoad p v s
  | .drnXferFill p v => Sys2Proof.Machine.execDrnXferFill p v s
  | .drnXferDone p => Sys2Proof.Machine.execDrnXferDone p s
  | .scoLvuPwrWrite core v => Sys2Proof.Machine.execScoLvuPwrWrite core v s
  | .registerWrite addr n v => Sys2Proof.Machine.execRegisterWrite addr n v s
  | .receiveLock port => Sys2Proof.Machine.execReceiveLock port s
  | .iterationBoundary svu => Sys2Proof.Machine.execIterationBoundary svu s
  | .sCorePreemption t => Sys2Proof.Machine.execSCorePreemption t s
  | .contextRestore t ctx => Sys2Proof.Machine.execContextRestore t ctx s
  | .pwrgoodAsserted => Sys2Proof.Machine.execPwrgoodAsserted s
  | .rootPllLockTimeout => Sys2Proof.Machine.execRootPllLockTimeout s
  | .badDesc r bytes => Sys2Proof.Machine.execBadDesc r bytes s
  | .descriptorReadFailure r => Sys2Proof.Machine.execDescriptorReadFailure r s
  | .recallReturn line bytes => Sys2Proof.Machine.execRecallReturn line bytes s
  | .slewEnd => Sys2Proof.Machine.execSlewEnd s
  | .sclkCycle h capR capW regs arch => Sys2Proof.Machine.execSclkCycle h capR capW regs arch s
  | .testAccessInstruction ix => Sys2Proof.Machine.execTestAccessInstruction ix s
  | .illegalEncoding t cls => Sys2Proof.Machine.execIllegalEncoding t cls s
  | .fetchFault t => Sys2Proof.Machine.execFetchFault t s
  | .sequencerHeartbeatLost die => Sys2Proof.Machine.execSequencerHeartbeatLost die s

end Sys2Proof.Machine
end

