-- ==== Sys2Proof/Machine/Step.lean ====
section
/-! DEFINITION. One step of the package: the command at the front of the queue, or, when none waits, one tick. -/

namespace Sys2Proof.Machine

/-- One step: the command at the front acts on the state with the queue's rest; with no command waiting the package's own time passes (log 3). -/
def step (s : State) : Host.Outcome State Fault Refusal :=
  match s.pending with
  | c :: rest => exec c { s with pending := rest }
  | [] => .next (tick s)

/-- The command that a table word spells, put at the front of the queue; the table gives no command any bits, so the state stays as it is. -/
def State.withFetchWord (s : State) (nbits w : Nat) : State :=
  match decodeTableWord nbits w with
  | some c => { s with pending := c :: s.pending }
  | none => s

end Sys2Proof.Machine
end

