-- ==== Sys2Proof/Safety.lean ====
section
/-! DEFINITION. What counts as a well-kept state: memory, the black-box MRAM and register space each hold their one canonical form, so that equal contents are equal data. -/

namespace Sys2Proof.Machine

/-- R21, R415: memory is in its canonical form: addresses strictly rising, and no listed byte equal to the zero that an unlisted address reads as. -/
def Memory.wf (m : List Host.Cell) : Bool := swf (fun _ => 0) m

/-- R24: register space is in its canonical form: addresses strictly rising, and no listed register holding its reset value. -/
def Regs.wf (m : Sparse Word) : Bool := swf regReset m

/-- The sparse parts of a state in canonical form: memory, MRAM, register space, the threads, the N-cores' stations, the checkpoint sequencers, the solver units, the submission rings and the regulators. -/
def Stores.wf (mem mram : List Host.Cell) (regs : Sparse Word) (threads : Sparse Thread) (ncores : Sparse NCore) (ckps : Sparse Ckp)
    (svus : Sparse Svu) (rings : Sparse RingSt) (rgl : Sparse Rgl) : Prop :=
  Memory.wf mem = true ∧ Memory.wf mram = true ∧ Regs.wf regs = true ∧ swf (fun _ => thread0) threads = true ∧
  swf (fun _ => ncore0) ncores = true ∧ swf (fun _ => ckp0) ckps = true ∧ swf (fun _ => svu0) svus = true ∧ swf (fun _ => ring0) rings = true ∧ swf (fun _ => rgl0) rgl = true

/-- The invariant of the package: memory (R21), the MRAM (R388), register space (R24), the threads (R59), the stations (R35), the checkpoint sequencers (R338), the solver units (R183), the submission rings (R317) and the bandwidth regulators (R232) hold their canonical form, so that equal contents are equal data. -/
def State.Inv (s : State) : Prop := Stores.wf s.mem s.mram s.regs s.threads s.ncores s.ckps s.svus s.rings s.rgl

end Sys2Proof.Machine
end

