-- ==== Sys2Proof/Certificates/Slice0/Obligations.lean ====
section
/-! DEFINITION. What is claimed of the model, one proposition each. The predicates at the head say when a command issues and what a plain retirement is. -/

namespace Sys2Proof.Machine

/-- R57, R58, R61, R417: the instruction of thread `t` issues and its effect happens: the thread runs on a package that issues, its profile has the class, its operand fields fit, and its guard lets it. -/
def Issues (s : State) (t : Tid) (o : Opnds) (cls : Nat) (r : Option RShape) (i : Option IShape) : Prop :=
  canIssue s (tkey t) = true ∧ classOk cls (isS (tkey t)) = true ∧ shapeOk r i o = true ∧
  guardOk (th s (tkey t)) o.ge o.gn o.pg.toNat = true

/-- R54: thread `t` takes a new state and its pc moves to the next word; nothing else changes. -/
def ran (s : State) (t : Tid) (f : Thread → Thread) : State :=
  setTh s (tkey t) { f (th s (tkey t)) with pc := (th s (tkey t)).pc + 8 }

/-- A meaning of one thread and its operand fields answers a next state in which only that thread's registers have changed. -/
def Retires (c : Tid → Opnds → Instr) (cls : Nat) (r : Option RShape) (i : Option IShape) (f : Bool → Opnds → Thread → Thread) : Prop :=
  ∀ (s : State) (t : Tid) (o : Opnds), s.Inv → Issues s t o cls r i → exec (c t o) s = .next (ran s t (f (isS (tkey t)) o))

/-- R57: the operand fields of an operation of two integer registers into a third. -/
def xxx : Option RShape := some ⟨64, 64, 64, 0, 0⟩
/-- R57: the operand fields of an operation of an integer register and an immediate into another. -/
def xxi : Option IShape := some ⟨64, 64, 0xFFFFFFFF⟩
/-- R62: the second operand with a sign-extended immediate. -/
def bS (o : Opnds) (n : Thread) : Word := if o.iform then o.imm.signExtend 64 else xr n o.b.toNat
/-- R62: the second operand with a zero-extended immediate. -/
def bZ (o : Opnds) (n : Thread) : Word := if o.iform then o.imm.zeroExtend 64 else xr n o.b.toNat

/-- The same of any effect: under a condition on the state, the thread and the operand fields, the command answers this next state. -/
def Does (c : Tid → Opnds → Instr) (cls : Nat) (r : Option RShape) (i : Option IShape) (pre : State → Nat → Opnds → Prop)
    (g : State → Nat → Opnds → State) : Prop :=
  ∀ (s : State) (t : Tid) (o : Opnds), s.Inv → Issues s t o cls r i → pre s (tkey t) o → exec (c t o) s = .next (g s (tkey t) o)

/-- R64, R67, R80: a binary64 operation puts its value in fD; nstat and the context's counters take one NaN where the result is a NaN and no operand was. -/
def FpRetires (c : Tid → Opnds → Instr) (r : Option RShape) (i : Option IShape) (v : Opnds → Thread → Fp × List Fp) : Prop :=
  ∀ (s : State) (t : Tid) (o : Opnds), s.Inv → Issues s t o 0x01 r i →
    exec (c t o) s = .next (countNum (ran s t (fun n => setNstat (setF n o.d.toNat (to64 (v o n).1)) 0x01 ⟨0, 0, newNan (v o n).1 (v o n).2⟩))
      (th s (tkey t)).ctx ⟨0, 0, newNan (v o (th s (tkey t))).1 (v o (th s (tkey t))).2⟩)

/-- R57: the operand fields of a binary64 operation of two registers into a third. -/
def fff : Option RShape := some ⟨32, 32, 32, 0, 0⟩
/-- The first operand of a binary64 operation. -/
def fA (o : Opnds) (n : Thread) : Fp := f64 (fr n o.a.toNat)
/-- R62: the second operand of a binary64 operation: a register, or a binary32 immediate. -/
def fB (o : Opnds) (n : Thread) : Fp := if o.iform then f32 o.imm.toNat else f64 (fr n o.b.toNat)
/-- R57: the operand fields of a scalar load or store of a register file. -/
def memForm (file : Nat) : Option IShape := some ⟨file, 64, 0xFFFFFFFF⟩
/-- R64, R68: the byte address of a scalar load or store: xA plus the sign-extended immediate. -/
def scalarVa (s : State) (k : Nat) (o : Opnds) : Nat := (xr (th s k) o.a.toNat + o.imm.signExtend 64).toNat
/-- Two states differ in nothing but the state of the thread with this key. -/
def OnlyTh (k : Nat) (s t : State) : Prop := t = setTh s k (th t k)

/-- R35: an instruction of a station's class retires and goes to its station. -/
def sent (put : NCore → ClassIns → NCore) (ci : ClassIns) (s : State) (k : Nat) : State := retire (setNc s k (put (nc s k) ci)) k

/-- R57, R58, R161, R163, R180: a long-vector instruction issues with its effect: on profile S, at an element type it is defined for, with vl not zero, on a unit that is up where it uses the pipes. -/
def LvIssues (s : State) (t : Tid) (o : Opnds) (shape : RShape) (types : List Nat) (pipe : Bool) : Prop :=
  Issues s t o 0x10 (some shape) none ∧ (th s (tkey t)).vtype.toNat ∈ types ∧ (th s (tkey t)).vl ≠ 0 ∧
  (pipe = true → lvuDown s (coreOf (tkey t)) = false)

/-- R54, R174, R179-R181: a long-vector instruction of thread `k`, whose state was `n0`, retires with its thread in a new state: the restart index is zero, the pc moves on, its time in the unit is charged, and the unit's idle timer runs again. -/
def lvDone (s : State) (k : Nat) (n0 : Thread) (u : LvUnit) (n : Thread) : State :=
  lvuRetire (lvCharge (setTh s k { n with restart := 0, pc := n.pc + 8 }) (coreOf k) n0 u) (coreOf k)

/-- R80: the same with counts for nstat and the context's counters. -/
def lvCounted (s : State) (k : Nat) (n0 : Thread) (u : LvUnit) (n : Thread) (c : Cnt) : State := lvDone (countNum s n.ctx c) k n0 u (setNstat n 0x10 c)

/-- R57, R58, R61, R80, R163, R164, R167, R180: what a long-vector instruction does before its own effect, or in its place: its word and what depends on vl and vtype are checked, and the element type; with vl zero it retires with no element; one that needs the pipes or the port of a unit that is down starts the wake or joins it. -/
def LvChecks (c : Tid → Opnds → Instr) (shape : Opnds → RShape) (types : List Nat) (arith pipe : Bool) (word : Opnds → Bool) (pre : Opnds → Thread → Bool) : Prop :=
  ∀ (s : State) (t : Tid) (o : Opnds), s.Inv →
    let k := tkey t
    let n := th s k
    (canIssue s k = true → classOk 0x10 (isS k) = true → shapeOk (some (shape o)) none o = true → word o = false →
      exec (c t o) s = .next (insnFault s k 0x10 0x11 0x11 0)) ∧
    (Issues s t o 0x10 (some (shape o)) none → word o = true →
      (pre o n = false → exec (c t o) s = .next (insnFault s k 0x10 0x11 0x11 0)) ∧
      (pre o n = true → n.vtype.toNat ∉ types → exec (c t o) s = .next (insnFault s k 0x10 0x11 0x30 0)) ∧
      (pre o n = true → n.vtype.toNat ∈ types → n.vl = 0 →
        exec (c t o) s = .next (lvDone s k n .scalar (if arith then setNstat n 0x10 cnt0 else n))) ∧
      (pre o n = true → n.vtype.toNat ∈ types → n.vl ≠ 0 → pipe = true → lvuDown s (coreOf k) = true →
        exec (c t o) s = .next (lvuStartWake s k)))

/-- R163: a vector register's new contents: the results of the active elements, the old values of the others. -/
def Elements (n : Thread) (o : Opnds) (w : BitVec 4096) (f : Nat → Nat) : Prop :=
  ∀ i < vlMax n.vtype.toNat, velem w (tyBits n.vtype.toNat) i =
    if lvActive n (lvMod o) i then f i % 2 ^ tyBits n.vtype.toNat else velem (vreg n o.d.toNat) (tyBits n.vtype.toNat) i

/-- The counts of the active elements together. -/
def countActive (n : Thread) (o : Opnds) (f : Nat → Cnt) : Cnt := (lvActs n (lvMod o)).foldl (fun c i => c.add (f i)) cnt0

/-- R259, R273: a request of type `ty` for this package, for `n` bytes, that is admitted and passes its checks, and whose lines wait for nothing: no pause of HBM, no row copy, no line the host changes, and, for a write, no line that the other half's caches hold. -/
def Served (s : State) (p : Pkt) (ty n : Nat) (write : Bool) : Prop :=
  issuing s = true ∧ p.ty = ty ∧ p.dst = ownCoord s ∧ heldFrom s p (some p.src) < rdf s R.SCF_CFG 0 8 ∧ heldFrom s p none < 8192 ∧
  (∃ part, checkReq s p n write = .ok part) ∧ s.hbmHeld = false ∧ (linesOf p.addr n).any (lineWaits s) = false ∧
  (write = true → invWait s p.addr n = none)

/-- R54, R68: the scalar access of `n` bytes is aligned, translates to memory at `pa` that its context may reach, and waits for nothing; `s1` is the state its translation leaves. -/
def Reaches (s s1 : State) (k n : Nat) (o : Opnds) (kind : AccKind) (pa : Nat) : Prop :=
  scalarVa s k o % n = 0 ∧ translate s (th s k).ctx (scalarVa s k o) kind = (s1, .ok pa) ∧ region pa ≠ .reg ∧
  physErr s1 (.ctx (th s k).ctx) pa n (kind == .write) = none ∧ (linesOf pa n).any (lineWaits s1) = false

/-- R25, R68: the scalar access translates to the register at `pa`. -/
def ReachesReg (s s1 : State) (k : Nat) (o : Opnds) (kind : AccKind) (pa : Nat) : Prop :=
  translate s (th s k).ctx (scalarVa s k o) kind = (s1, .ok pa) ∧ region pa = .reg ∧ regBad s1 pa 8 = none

/-- R57, R58, R61, R84: the checks of an instruction of class `cls` with these operand fields, in their order. -/
def IssueOrder (c : Tid → Opnds → Instr) (cls : Nat) (r : Option RShape) (i : Option IShape) : Prop :=
  ∀ (s : State) (t : Tid) (o : Opnds),
    (canIssue s (tkey t) = false → exec (c t o) s = .next s) ∧
    (canIssue s (tkey t) = true → classOk cls (isS (tkey t)) = false → exec (c t o) s = .next (insnFault s (tkey t) cls 0x11 0x10 0)) ∧
    (canIssue s (tkey t) = true → classOk cls (isS (tkey t)) = true → shapeOk r i o = false →
      exec (c t o) s = .next (insnFault s (tkey t) cls 0x11 0x11 0)) ∧
    (canIssue s (tkey t) = true → classOk cls (isS (tkey t)) = true → shapeOk r i o = true →
      guardOk (th s (tkey t)) o.ge o.gn o.pg.toNat = false → exec (c t o) s = .next (retire s (tkey t)))

end Sys2Proof.Machine

open Sys2Proof Sys2Proof.Machine

/-- One step runs the command at the front of the queue on the state with the queue's rest. -/
def Obligations.StepRunsFront : Prop :=
  ∀ (c : Instr) (rest : List Instr) (s : State), step { s with pending := c :: rest } = exec c { s with pending := rest }

/-- The model's choice (log 3): with no command waiting a step is one tick: the local time counter advances by 10 while the root PLL is unlocked, by the 1, 1, 1, 2 pattern at a multiplier of 64, by 1 otherwise; the trace path delivers its oldest record; the fuses that the image asked for are blown once the package runs; and nothing else moves. -/
def Obligations.IdleStepTicks : Prop :=
  ∀ s : State, s.pending = [] → ∃ t, step s = .next t ∧ t.threads = s.threads ∧ t.tx = s.tx ∧ t.traceQ = s.traceQ.drop 1 ∧
    t.ltc = s.ltc + (if rdf s R.CLK_STATUS 3 1 = 0 then 10 else if rdf s R.CLK_STATUS 8 8 = 64 ∧ s.ltcPhase = 3 then 2 else 1) ∧
    t.ltcPhase = (if rdf s R.CLK_STATUS 8 8 = 64 then (s.ltcPhase + 1) % 4 else 0) ∧
    (s.traceQ = [] → t.mem = s.mem ∧ (s.svnTo = none ∨ issuing s = false → t.regs = s.regs ∧ t.svnTo = s.svnTo)) ∧
    (∀ n, s.traceQ = [] → s.svnTo = some n → issuing s = true → t.regs = (burnSvn s n).regs ∧ t.mram = (burnSvn s n).mram ∧ t.svnTo = none)

/-- Every step keeps the canonical form of memory, the MRAM, register space, the threads, the stations, the checkpoint sequencers, the solver units, the submission rings and the regulators. -/
def Obligations.StepKeepsInvariant : Prop :=
  ∀ s t : State, s.Inv → step s = .next t → t.Inv

/-- R8, R240, R399, R415, R426: the package after reset is in canonical form, with no command waiting, no thread and nothing listed in memory, which reads zero (the model's choice for the time before stage 8, log 15); every register has its reset value: start-up is at stage 1, the patrol period is 24 hours, the summary period 60 s. -/
def Obligations.ResetHasInvariant : Prop :=
  State.reset.Inv ∧ State.reset.pending = [] ∧ State.reset.threads = [] ∧ (∀ a, memByte State.reset a = 0) ∧ (∀ a, rd State.reset a = regReset a) ∧
  pwrState State.reset = 1 ∧ rdf State.reset R.PWR_STAT 4 4 = 1 ∧ rdf State.reset R.PWR_STAT 8 8 = 0 ∧
  (∀ h < 2, rdf State.reset (R.MEM_RAS_CFG h) 8 8 = 24) ∧ rdf State.reset R.BBX_CFG 0 16 = 60

/-- The model's choice (log 1): every command answers a next state in every state, and takes nothing from the queue and puts nothing into it. -/
def Obligations.EveryCommandAnswers : Prop :=
  ∀ (c : Instr) (s : State), s.Inv → ∃ t, exec c s = .next t ∧ t.pending = s.pending ∧ t.Inv

/-- R62, R64: ADD, SUB, MUL, AND, OR, XOR and the minimum and maximum forms write their result to xD and nothing else. -/
def Sys2Proof.Parts.IntegerResults : Prop :=
  Retires .add 0x01 xxx xxi (fun _ o n => setX n o.d.toNat (xr n o.a.toNat + bS o n)) ∧
  Retires .sub 0x01 xxx xxi (fun _ o n => setX n o.d.toNat (xr n o.a.toNat - bS o n)) ∧
  Retires .mul 0x01 xxx xxi (fun _ o n => setX n o.d.toNat (xr n o.a.toNat * bS o n)) ∧
  Retires .and 0x01 xxx xxi (fun _ o n => setX n o.d.toNat (xr n o.a.toNat &&& bZ o n)) ∧
  Retires .or 0x01 xxx xxi (fun _ o n => setX n o.d.toNat (xr n o.a.toNat ||| bZ o n)) ∧
  Retires .xor 0x01 xxx xxi (fun _ o n => setX n o.d.toNat (xr n o.a.toNat ^^^ bZ o n)) ∧
  Retires .mins 0x01 xxx xxi (fun _ o n => setX n o.d.toNat (if (xr n o.a.toNat).toInt < (bS o n).toInt then xr n o.a.toNat else bS o n)) ∧
  Retires .maxs 0x01 xxx xxi (fun _ o n => setX n o.d.toNat (if (xr n o.a.toNat).toInt < (bS o n).toInt then bS o n else xr n o.a.toNat)) ∧
  Retires .minu 0x01 xxx xxi (fun _ o n => setX n o.d.toNat (if (xr n o.a.toNat).toNat < (bZ o n).toNat then xr n o.a.toNat else bZ o n)) ∧
  Retires .maxu 0x01 xxx xxi (fun _ o n => setX n o.d.toNat (if (xr n o.a.toNat).toNat < (bZ o n).toNat then bZ o n else xr n o.a.toNat))

/-- R62, R64: shifts take their amount from the low six bits; MULHS and MULHU give the high half of the product; MOV, MOVI and MOVHI move. -/
def Sys2Proof.Parts.ShiftMoveAndHighProduct : Prop :=
  Retires .shl 0x01 xxx (some ⟨64, 64, 0x3F⟩) (fun _ o n => setX n o.d.toNat (xr n o.a.toNat <<< ((bZ o n).toNat % 64))) ∧
  Retires .shr 0x01 xxx (some ⟨64, 64, 0x3F⟩) (fun _ o n => setX n o.d.toNat (xr n o.a.toNat >>> ((bZ o n).toNat % 64))) ∧
  Retires .sar 0x01 xxx (some ⟨64, 64, 0x3F⟩) (fun _ o n => setX n o.d.toNat ((xr n o.a.toNat).sshiftRight ((bZ o n).toNat % 64))) ∧
  Retires .mulhs 0x01 xxx none (fun _ o n => setX n o.d.toNat
    ((((xr n o.a.toNat).signExtend 128 * (xr n o.b.toNat).signExtend 128) >>> 64).truncate 64)) ∧
  Retires .mulhu 0x01 xxx none (fun _ o n => setX n o.d.toNat
    ((((xr n o.a.toNat).zeroExtend 128 * (xr n o.b.toNat).zeroExtend 128) >>> 64).truncate 64)) ∧
  Retires .mov 0x01 (some ⟨64, 64, 0, 0, 0⟩) (some ⟨64, 0, 0xFFFFFFFF⟩)
    (fun _ o n => setX n o.d.toNat (if o.iform then o.imm.signExtend 64 else xr n o.a.toNat)) ∧
  Retires .movhi 0x01 none (some ⟨64, 0, 0xFFFFFFFF⟩)
    (fun _ o n => setX n o.d.toNat (o.imm ++ (xr n o.d.toNat).truncate 32))

/-- R66: integer division never faults: a divisor of zero gives a quotient of all ones and a remainder equal to xA; -2^63 by -1 gives -2^63 and 0. -/
def Sys2Proof.Parts.DivisionNeverFaults : Prop :=
  Retires .divs 0x01 xxx none (fun _ o n => setX n o.d.toNat
    (if xr n o.b.toNat = 0 then BitVec.allOnes 64 else (xr n o.a.toNat).sdiv (xr n o.b.toNat))) ∧
  Retires .divu 0x01 xxx none (fun _ o n => setX n o.d.toNat
    (if xr n o.b.toNat = 0 then BitVec.allOnes 64 else xr n o.a.toNat / xr n o.b.toNat)) ∧
  Retires .rems 0x01 xxx none (fun _ o n => setX n o.d.toNat
    (if xr n o.b.toNat = 0 then xr n o.a.toNat else (xr n o.a.toNat).srem (xr n o.b.toNat))) ∧
  Retires .remu 0x01 xxx none (fun _ o n => setX n o.d.toNat
    (if xr n o.b.toNat = 0 then xr n o.a.toNat else xr n o.a.toNat % xr n o.b.toNat)) ∧
  (BitVec.intMin 64).sdiv (BitVec.allOnes 64) = BitVec.intMin 64 ∧ (BitVec.intMin 64).srem (BitVec.allOnes 64) = 0 ∧
  (∀ (n : Thread) (i : Nat) (v : Word), (setX n i v).nstat = n.nstat) ∧ (∀ (b : Bool) (n : Thread) (i : Nat) (v : BitVec 512), (setP b n i v).nstat = n.nstat)

/-- R60: a compare writes its one-bit result to every bit of the destination predicate, 512 bits on profile S and one on profile N. -/
def Sys2Proof.Parts.IntegerCompares : Prop :=
  ∀ (c : Tid → Opnds → Instr) (sg : Bool) (rel : Word → Word → Bool),
    ((c, sg, rel) = (Instr.cmpeq, true, fun a b => decide (a = b)) ∨
     (c, sg, rel) = (Instr.cmpne, true, fun a b => decide (a ≠ b)) ∨
     (c, sg, rel) = (Instr.cmplts, true, fun a b => decide (a.toInt < b.toInt)) ∨
     (c, sg, rel) = (Instr.cmpltu, false, fun a b => decide (a.toNat < b.toNat)) ∨
     (c, sg, rel) = (Instr.cmples, true, fun a b => decide (a.toInt ≤ b.toInt)) ∨
     (c, sg, rel) = (Instr.cmpleu, false, fun a b => decide (a.toNat ≤ b.toNat))) →
    Retires c 0x01 (some ⟨16, 64, 64, 0, 0⟩) (some ⟨16, 64, 0xFFFFFFFF⟩)
      (fun isSc o n => setP isSc n o.d.toNat
        (if rel (xr n o.a.toNat) (if sg then bS o n else bZ o n) then BitVec.allOnes 512 else 0))

/-- R64: the predicate operations work on every bit; PSET sets every bit to IMM32[0]; FMOVF moves a bit pattern; NSTCLR clears nstat; SDADD steps a base address. -/
def Sys2Proof.Parts.PredicateAndMoveResults : Prop :=
  Retires .pand 0x01 (some ⟨16, 16, 16, 0, 0⟩) none (fun b o n => setP b n o.d.toNat (pr n o.a.toNat &&& pr n o.b.toNat)) ∧
  Retires .por 0x01 (some ⟨16, 16, 16, 0, 0⟩) none (fun b o n => setP b n o.d.toNat (pr n o.a.toNat ||| pr n o.b.toNat)) ∧
  Retires .pxor 0x01 (some ⟨16, 16, 16, 0, 0⟩) none (fun b o n => setP b n o.d.toNat (pr n o.a.toNat ^^^ pr n o.b.toNat)) ∧
  Retires .pnot 0x01 (some ⟨16, 16, 0, 0, 0⟩) none (fun b o n => setP b n o.d.toNat (~~~ pr n o.a.toNat)) ∧
  Retires .pset 0x01 none (some ⟨16, 0, 0xFFFFFFFF⟩)
    (fun b o n => setP b n o.d.toNat (if o.imm.toNat % 2 = 1 then BitVec.allOnes 512 else 0)) ∧
  Retires .fmovf 0x01 (some ⟨32, 64, 0, 0, 0⟩) none (fun _ o n => setF n o.d.toNat (xr n o.a.toNat)) ∧
  Retires .fmovx 0x01 (some ⟨64, 32, 0, 0, 0⟩) none (fun _ o n => setX n o.d.toNat (fr n o.a.toNat)) ∧
  Retires .nstclr 0x01 (some ⟨0, 0, 0, 0, 0⟩) none (fun _ _ n => { n with nstat := 0 }) ∧
  Retires .rdnstat 0x01 (some ⟨64, 0, 0, 0, 0⟩) none (fun _ o n => setX n o.d.toNat n.nstat) ∧
  Retires .setc 0x03 none (some ⟨32, 0, 0xFFFFFFFF⟩) (fun _ o n => setC n o.d.toNat o.imm) ∧
  Retires .nop 0x02 none (some ⟨0, 0, 0⟩) (fun _ _ n => n) ∧
  Retires .sdadd 0x08 (some ⟨16, 64, 0, 0, 0⟩) none
    (fun _ o n => setSd n o.d.toNat ((sdr n o.d.toNat).addBase (xr n o.a.toNat)))

/-- R62, R64, R67, R80: the binary64 operations round once to nearest even into fD, and count a NaN made from operands that were not NaN. -/
def Sys2Proof.Parts.FloatResults : Prop :=
  FpRetires .fadd fff (some ⟨32, 32, 0xFFFFFFFF⟩) (fun o n => (fAdd (fA o n) (fB o n), [fA o n, fB o n])) ∧
  FpRetires .fsub fff (some ⟨32, 32, 0xFFFFFFFF⟩) (fun o n => (fAdd (fA o n) (fB o n).neg, [fA o n, fB o n])) ∧
  FpRetires .fmul fff (some ⟨32, 32, 0xFFFFFFFF⟩) (fun o n => (fMul (fA o n) (fB o n), [fA o n, fB o n])) ∧
  FpRetires .fdiv fff (some ⟨32, 32, 0xFFFFFFFF⟩) (fun o n => (fDiv (fA o n) (fB o n), [fA o n, fB o n])) ∧
  FpRetires .fsqrt (some ⟨32, 32, 0, 0, 0⟩) none (fun o n => (fSqrt (fA o n), [fA o n])) ∧
  FpRetires .ffma (some ⟨32, 32, 32, 32, 0⟩) none (fun o n =>
    (fAdd (fMul (fA o n) (f64 (fr n o.b.toNat))) (f64 (fr n o.c.toNat)), [fA o n, f64 (fr n o.b.toNat), f64 (fr n o.c.toNat)])) ∧
  FpRetires .fmin fff none (fun o n => (fMin (fA o n) (f64 (fr n o.b.toNat)), [fA o n, f64 (fr n o.b.toNat)])) ∧
  FpRetires .fmax fff none (fun o n => (fMax (fA o n) (f64 (fr n o.b.toNat)), [fA o n, f64 (fr n o.b.toNat)])) ∧
  FpRetires .fcvtf (some ⟨32, 64, 0, 0, 0⟩) none (fun o n =>
    ((Dy.mk (xr n o.a.toNat).toInt 0).toFp, [(Dy.mk (xr n o.a.toNat).toInt 0).toFp]))

/-- R60, R64, R67, R80: a binary64 compare writes every bit of pD and sets nstat with no counts; FCVTI rounds to the nearest even integer, saturates and counts the saturation. -/
def Sys2Proof.Parts.FloatComparesAndConversion : Prop :=
  (∀ (c : Tid → Opnds → Instr) (rel : Fp → Fp → Bool),
    ((c, rel) = (Instr.fcmpeq, fEq) ∨ (c, rel) = (Instr.fcmplt, fLt) ∨ (c, rel) = (Instr.fcmple, fun a b => fLt a b || fEq a b)) →
    Retires c 0x01 (some ⟨16, 32, 32, 0, 0⟩) none (fun isSc o n =>
      setNstat (setP isSc n o.d.toNat (if rel (f64 (fr n o.a.toNat)) (f64 (fr n o.b.toNat)) then BitVec.allOnes 512 else 0)) 0x01 ⟨0, 0, 0⟩)) ∧
  (∀ (s : State) (t : Tid) (o : Opnds), s.Inv → Issues s t o 0x01 (some ⟨64, 32, 0, 0, 0⟩) none →
    let v := toIntSat .rne 64 (f64 (fr (th s (tkey t)) o.a.toNat))
    exec (.fcvti t o) s = .next (countNum (ran s t (fun n => setNstat (setX n o.d.toNat (BitVec.ofInt 64 v.1)) 0x01 ⟨v.2, 0, 0⟩))
      (th s (tkey t)).ctx ⟨v.2, 0, 0⟩))

/-- R30, R64, R65, R82: RDLTC reads the local time counter, RDID the identity of the thread, RDCTR the counter of its context that IMM32 names: saturations, flushes, NaNs, trace drops; zero for any other index. -/
def Sys2Proof.Parts.SpecialReads : Prop :=
  Does .rdltc 0x01 (some ⟨64, 0, 0, 0, 0⟩) none (fun _ _ _ => True)
    (fun s k o => setTh s k { setX (th s k) o.d.toNat s.ltc with pc := (th s k).pc + 8 }) ∧
  Does .rdid 0x01 (some ⟨64, 0, 0, 0, 0⟩) none (fun _ _ _ => True)
    (fun s k o => setTh s k { setX (th s k) o.d.toNat (BitVec.ofNat 64 ((th s k).ctx % 64 + partOf s (th s k).ctx * 2 ^ 8
      + lane k * 2 ^ 16 + coreOf k * 2 ^ 32 + (if isS k then 2 ^ 40 else 0))) with pc := (th s k).pc + 8 }) ∧
  Does .rdctr 0x01 none (some ⟨64, 0, 0xFFFFFFFF⟩) (fun _ _ _ => True)
    (fun s k o => setTh s k { setX (th s k) o.d.toNat
      (if o.imm = 0 then rd s (R.DSP_CTX_NUM_SAT (th s k).ctx) else if o.imm = 1 then rd s (R.DSP_CTX_NUM_FLUSH (th s k).ctx)
       else if o.imm = 2 then rd s (R.DSP_CTX_NUM_NAN (th s k).ctx) else if o.imm = 3 then rd s (R.DSP_CTX_TRACE_DROP (th s k).ctx) else 0)
      with pc := (th s k).pc + 8 })

/-- R54, R64, R68, R385: LD1, LD2, LD4, LD8 and FLD at an aligned address read the bytes there, least significant first, zero-extended, into the destination register, and no other register of the thread changes but the pc; poisoned bytes fault with FAULT_POISON. The read of a line with no bad symbol gives the bytes of memory as they are and leaves memory, the registers of register space and every thread as they were. -/
def Sys2Proof.Parts.ScalarLoads : Prop :=
  ∀ (c : Tid → Opnds → Instr) (n file : Nat) (put : Thread → Nat → Word → Thread),
    ((c, n, file, put) = (Instr.ld1, 1, 64, setX) ∨ (c, n, file, put) = (Instr.ld2, 2, 64, setX) ∨ (c, n, file, put) = (Instr.ld4, 4, 64, setX) ∨
     (c, n, file, put) = (Instr.ld8, 8, 64, setX) ∨ (c, n, file, put) = (Instr.fld, 8, 32, setF)) →
    ∀ (s : State) (t : Tid) (o : Opnds) (s1 : State) (pa : Nat), s.Inv → Issues s t o 0x01 none (memForm file) → Reaches s s1 (tkey t) n o .read pa →
      let k := tkey t
      let m := physRead s1 (srcTh s k) pa n
      (m.2.2 = false → exec (c t o) s = .next (setTh m.1 k { put (th s k) o.d.toNat (BitVec.ofNat 64 (leNat m.2.1)) with pc := (th s k).pc + 8 })) ∧
      (m.2.2 = true → exec (c t o) s = .next (insnFault m.1 k 0x01 0x12 0 0)) ∧
      ((∀ l ∈ linesOf pa n, sget 0 s.symErr l = 0) →
        m.2.1 = (List.range n).map (fun i => memByte s (pa + i)) ∧ (m.2.2 = true ↔ ∃ l ∈ linesOf pa n, l ∈ s.poison) ∧
        m.1.mem = s.mem ∧ m.1.regs = s.regs ∧ m.1.threads = s.threads)

/-- R25, R68, R290: LD8 and FLD of a register of a block that the package has read its eight bytes; a register of the COL block that is no COL_TADD address is denied. -/
def Sys2Proof.Parts.RegisterLoads : Prop :=
  ∀ (c : Tid → Opnds → Instr) (file : Nat) (put : Thread → Nat → Word → Thread),
    ((c, file, put) = (Instr.ld8, 64, setX) ∨ (c, file, put) = (Instr.fld, 32, setF)) →
    ∀ (s : State) (t : Tid) (o : Opnds) (s1 : State) (pa : Nat), s.Inv → Issues s t o 0x01 none (memForm file) → ReachesReg s s1 (tkey t) o .read pa →
      let k := tkey t
      let r := regLoad (regMove s1 k pa false) pa
      (inCol pa = false ∨ (taddOf pa).isSome = true →
        exec (c t o) s = .next (setTh r.1 k { put (th s k) o.d.toNat r.2 with pc := (th s k).pc + 8 })) ∧
      (inCol pa = true → taddOf pa = none → exec (c t o) s = .next (insnFault s1 k 0x01 0x11 0x17 0))

/-- R54, R64, R68: ST1, ST2, ST4, ST8 and FST at an aligned address store the low bytes of the register there, least significant first; every other byte of memory reads as before, no register of register space changes, and of the threads only the storing one changes, by its pc. -/
def Sys2Proof.Parts.ScalarStores : Prop :=
  ∀ (c : Tid → Opnds → Instr) (n file : Nat) (get : Thread → Nat → Word),
    ((c, n, file, get) = (Instr.st1, 1, 64, xr) ∨ (c, n, file, get) = (Instr.st2, 2, 64, xr) ∨ (c, n, file, get) = (Instr.st4, 4, 64, xr) ∨
     (c, n, file, get) = (Instr.st8, 8, 64, xr) ∨ (c, n, file, get) = (Instr.fst, 8, 32, fr)) →
    ∀ (s : State) (t : Tid) (o : Opnds) (s1 : State) (pa : Nat), s.Inv → Issues s t o 0x01 none (memForm file) → Reaches s s1 (tkey t) n o .write pa →
      ∃ u, exec (c t o) s = .next u ∧ (∀ i < n, memByte u (pa + i) = (get (th s (tkey t)) o.d.toNat >>> (8 * i)).truncate 8) ∧
        (∀ a, a < pa ∨ pa + n ≤ a → memByte u a = memByte s a) ∧ u.regs = s.regs ∧ u.tx = s.tx ∧ u.reqs = s.reqs ∧
        (∀ j ≠ tkey t, th u j = th s j) ∧ th u (tkey t) = { th s (tkey t) with pc := (th s (tkey t)).pc + 8 }

/-- R25, R54, R68, R84, R85: a scalar load or store that does not translate, that is misaligned, or whose context may not reach its bytes, faults precisely with the status and subcode of the error; one of register space that is not eight aligned bytes faults with REG_ACCESS, and one of a register outside every block with DATA_ADDRESS; one that waits for its line or for a line of a table stays at its pc, and nothing changes. -/
def Sys2Proof.Parts.ScalarAccessFaults : Prop :=
  ∀ (c : Tid → Opnds → Instr) (n file : Nat) (kind : AccKind),
    ((c, n, file, kind) = (Instr.ld1, 1, 64, .read) ∨ (c, n, file, kind) = (Instr.ld2, 2, 64, .read) ∨ (c, n, file, kind) = (Instr.ld4, 4, 64, .read) ∨
     (c, n, file, kind) = (Instr.ld8, 8, 64, .read) ∨ (c, n, file, kind) = (Instr.fld, 8, 32, .read) ∨
     (c, n, file, kind) = (Instr.st1, 1, 64, .write) ∨ (c, n, file, kind) = (Instr.st2, 2, 64, .write) ∨ (c, n, file, kind) = (Instr.st4, 4, 64, .write) ∨
     (c, n, file, kind) = (Instr.st8, 8, 64, .write) ∨ (c, n, file, kind) = (Instr.fst, 8, 32, .write)) →
    ∀ (s : State) (t : Tid) (o : Opnds) (s1 : State), s.Inv → Issues s t o 0x01 none (memForm file) →
      let k := tkey t
      let va := scalarVa s k o
      let tr := translate s (th s k).ctx va kind
      (∀ e, tr = (s1, .err e) → va % n = 0 → exec (c t o) s = .next (insnFault s1 k 0x01 (accCode e).1 (accCode e).2 0)) ∧
      (∀ e, tr = (s1, .err e) → va % n ≠ 0 → exec (c t o) s = .next (insnFault s1 k 0x01 0x10 0x15 0)) ∧
      (∀ pa, tr = (s1, .ok pa) → region pa ≠ .reg → va % n ≠ 0 → exec (c t o) s = .next (insnFault s1 k 0x01 0x10 0x15 0)) ∧
      (∀ pa e, tr = (s1, .ok pa) → region pa ≠ .reg → va % n = 0 → physErr s1 (.ctx (th s k).ctx) pa n (kind == .write) = some e →
        exec (c t o) s = .next (insnFault s1 k 0x01 (accCode e).1 (accCode e).2 0)) ∧
      (∀ pa, tr = (s1, .ok pa) → region pa = .reg → n ≠ 8 ∨ pa % 8 ≠ 0 → exec (c t o) s = .next (insnFault s1 k 0x01 0x10 0x19 0)) ∧
      (∀ pa, tr = (s1, .ok pa) → region pa = .reg → n = 8 → pa % 8 = 0 → regBlockExists (nCores s1) pa = false →
        exec (c t o) s = .next (insnFault s1 k 0x01 0x10 0x16 0)) ∧
      (tr = (s1, .wait) → exec (c t o) s = .next s) ∧
      (∀ pa, tr = (s1, .ok pa) → region pa ≠ .reg → va % n = 0 → physErr s1 (.ctx (th s k).ctx) pa n (kind == .write) = none →
        (linesOf pa n).any (lineWaits s1) = true → exec (c t o) s = .next s)

/-- R54, R69, R84: BR and JAL go to the pc plus eight times the signed immediate, JR to xA plus it; JAL and JR leave the address of the next word in xD; a JR target that is not a multiple of 8 is misaligned. -/
def Sys2Proof.Parts.Branches : Prop :=
  Does .br 0x02 none (some ⟨0, 0, 0xFFFFFFFF⟩) (fun _ _ _ => True)
    (fun s k o => setTh s k { th s k with pc := (th s k).pc + 8 * o.imm.signExtend 64 }) ∧
  Does .jal 0x02 none (some ⟨64, 0, 0xFFFFFFFF⟩) (fun _ _ _ => True)
    (fun s k o => setTh s k { setX (th s k) o.d.toNat ((th s k).pc + 8) with pc := (th s k).pc + 8 * o.imm.signExtend 64 }) ∧
  Does .jr 0x02 none (some ⟨64, 64, 0xFFFFFFFF⟩) (fun s k o => scalarVa s k o % 8 = 0)
    (fun s k o => setTh s k { setX (th s k) o.d.toNat ((th s k).pc + 8) with pc := BitVec.ofNat 64 (scalarVa s k o) }) ∧
  Does .jr 0x02 none (some ⟨64, 64, 0xFFFFFFFF⟩) (fun s k o => scalarVa s k o % 8 ≠ 0) (fun s k _ => insnFault s k 0x02 0x10 0x15 0)

/-- R70, R71: END stops the thread once the work it started has finished, and stalls until then. TRACE appends one record where its identifier is enabled for the context and the queue has room, counts a drop where it has none, and does nothing where the identifier is not enabled or CONFIDENTIAL is in force. -/
def Sys2Proof.Parts.EndAndTrace : Prop :=
  Does .endProg 0x02 none (some ⟨0, 0, 0⟩) (fun s k _ => hasWork s k = false) (fun s k _ => endThread s k) ∧
  Does .endProg 0x02 none (some ⟨0, 0, 0⟩) (fun s k _ => hasWork s k = true) (fun s _ _ => s) ∧
  Does .trace 0x02 none (some ⟨0, 64, 0xFF⟩)
    (fun s k o => confidential s = false ∧ bitw (rd s (R.DSP_CTX_TRACE_EN (th s k).ctx (o.imm.toNat % 256 / 64))) (o.imm.toNat % 64) = true ∧ s.traceQ.length < 1024)
    (fun s k o => retire { s with traceQ := s.traceQ ++ [⟨partOf s (th s k).ctx, (th s k).ctx, s.ltc, o.imm.toNat % 256, coreOf k,
      (if isS k then 128 else 0) + lane k, xr (th s k) o.a.toNat⟩] } k) ∧
  Does .trace 0x02 none (some ⟨0, 64, 0xFF⟩)
    (fun s k o => confidential s = false ∧ bitw (rd s (R.DSP_CTX_TRACE_EN (th s k).ctx (o.imm.toNat % 256 / 64))) (o.imm.toNat % 64) = true ∧ 1024 ≤ s.traceQ.length)
    (fun s k _ => retire (addSat s (R.DSP_CTX_TRACE_DROP (th s k).ctx) 0 64 1) k) ∧
  Does .trace 0x02 none (some ⟨0, 64, 0xFF⟩)
    (fun s k o => confidential s = true ∨ bitw (rd s (R.DSP_CTX_TRACE_EN (th s k).ctx (o.imm.toNat % 256 / 64))) (o.imm.toNat % 64) = false)
    (fun s k _ => retire s k)

/-- R45, R72, R247: WAIT and WAITR retire when the counter has reached its threshold as a signed 32-bit difference, and otherwise stall until WAIT_RELEASE finds that it has; WAITD ends with that condition in every bit of pD, at once, when the counter gets there, or at its deadline; FENCE stalls until FENCE_COMPLETE, which ends it once every invalidation that the thread's writes caused is acknowledged. -/
def Obligations.WaitsAndFence : Prop :=
  Does .wait 0x03 none (some ⟨0, 32, 0xFFFFFFFF⟩) (fun s k o => 0 ≤ (cr (th s k) o.a.toNat - o.imm).toInt) (fun s k _ => retire s k) ∧
  Does .wait 0x03 none (some ⟨0, 32, 0xFFFFFFFF⟩) (fun s k o => (cr (th s k) o.a.toNat - o.imm).toInt < 0)
    (fun s k o => setTh s k { th s k with phase := .waitCtr o.a.toNat o.imm }) ∧
  Does .waitr 0x03 (some ⟨0, 32, 64, 0, 0⟩) none (fun s k o => 0 ≤ (cr (th s k) o.a.toNat - (xr (th s k) o.b.toNat).truncate 32).toInt) (fun s k _ => retire s k) ∧
  Does .waitr 0x03 (some ⟨0, 32, 64, 0, 0⟩) none (fun s k o => (cr (th s k) o.a.toNat - (xr (th s k) o.b.toNat).truncate 32).toInt < 0)
    (fun s k o => setTh s k { th s k with phase := .waitCtr o.a.toNat ((xr (th s k) o.b.toNat).truncate 32) }) ∧
  Does .waitd 0x03 (some ⟨16, 32, 64, 64, 0⟩) none (fun s k o => 0 ≤ (cr (th s k) o.a.toNat - (xr (th s k) o.b.toNat).truncate 32).toInt ∨ (xr (th s k) o.c.toNat).toNat ≤ s.ltc.toNat)
    (fun s k o => setTh s k { setP (isS k) (th s k) o.d.toNat
      (if 0 ≤ (cr (th s k) o.a.toNat - (xr (th s k) o.b.toNat).truncate 32).toInt then BitVec.allOnes 512 else 0) with phase := .run, pc := (th s k).pc + 8 }) ∧
  Does .waitd 0x03 (some ⟨16, 32, 64, 64, 0⟩) none (fun s k o => (cr (th s k) o.a.toNat - (xr (th s k) o.b.toNat).truncate 32).toInt < 0 ∧ s.ltc.toNat < (xr (th s k) o.c.toNat).toNat)
    (fun s k o => setTh s k { th s k with phase := .waitDl o.a.toNat ((xr (th s k) o.b.toNat).truncate 32) (xr (th s k) o.c.toNat) o.d.toNat }) ∧
  Does .fence 0x03 (some ⟨0, 0, 0, 0, 0⟩) none (fun _ _ _ => True) (fun s k _ => setTh s k { th s k with phase := .fence }) ∧
  (∀ (s : State) (t : Tid), s.Inv → issuing s = true → (th s (tkey t)).saving = none →
    (∀ c thr, (th s (tkey t)).phase = .waitCtr c thr → 0 ≤ (cr (th s (tkey t)) c - thr).toInt →
      exec (.waitRelease t) s = .next (setTh s (tkey t) { th s (tkey t) with phase := .run, pc := (th s (tkey t)).pc + 8 })) ∧
    (∀ c thr dl pd, (th s (tkey t)).phase = .waitDl c thr dl pd → 0 ≤ (cr (th s (tkey t)) c - thr).toInt →
      exec (.waitRelease t) s = .next (setTh s (tkey t)
        { setP (isS (tkey t)) (th s (tkey t)) pd (BitVec.allOnes 512) with phase := .run, pc := (th s (tkey t)).pc + 8 })) ∧
    (∀ c thr dl pd, (th s (tkey t)).phase = .waitDl c thr dl pd → dl.toNat ≤ s.ltc.toNat →
      exec (.waitdDeadline t) s = .next (setTh s (tkey t) { setP (isS (tkey t)) (th s (tkey t)) pd
        (if 0 ≤ (cr (th s (tkey t)) c - thr).toInt then BitVec.allOnes 512 else 0) with phase := .run, pc := (th s (tkey t)).pc + 8 })) ∧
    ((th s (tkey t)).phase = .fence → acked s (tkey t) = true →
      exec (.fenceComplete t) s = .next (setTh s (tkey t) { th s (tkey t) with phase := .run, pc := (th s (tkey t)).pc + 8 })) ∧
    ((th s (tkey t)).phase = .fence → acked s (tkey t) = false → exec (.fenceComplete t) s = .next s))

/-- R54, R56-R58, R85, R385: a word of a reserved encoding faults with the ILLEGAL status, with the profile's subcode where the class belongs to the other profile. A fetch at a misaligned pc, one that does not translate to a page with execute permission, one of memory that the context may not reach and one of poison fault with the fetch's status and subcode; a fetch that raises no fault, or waits, changes nothing by itself. -/
def Sys2Proof.Parts.EncodingAndFetchFaults : Prop :=
  ∀ (s : State) (t : Tid) (cls : Nat), s.Inv → canIssue s (tkey t) = true →
    let k := tkey t
    let pc := (th s k).pc.toNat
    let tr := translate s (th s k).ctx pc .exec
    exec (.illegalEncoding t cls) s = .next (insnFault s k cls 0x11 (if classOk cls (!isS k) = true ∧ classOk cls (isS k) = false then 0x10 else 0x11) 0) ∧
    (pc % 8 ≠ 0 → exec (.fetchFault t) s = .next (insnFault s k 0 0x10 0x15 0)) ∧
    (∀ s1 e, pc % 8 = 0 → tr = (s1, .err e) → exec (.fetchFault t) s = .next (insnFault s1 k 0 (fetchCode e).1 (fetchCode e).2 0)) ∧
    (∀ s1 pa e, pc % 8 = 0 → tr = (s1, .ok pa) → physErr s1 (.ctx (th s k).ctx) pa 8 false = some e →
      exec (.fetchFault t) s = .next (insnFault s1 k 0 (fetchCode e).1 (fetchCode e).2 0)) ∧
    (∀ s1 pa, pc % 8 = 0 → tr = (s1, .ok pa) → physErr s1 (.ctx (th s k).ctx) pa 8 false = none → pa / 64 ∈ s1.poison →
      exec (.fetchFault t) s = .next (insnFault s1 k 0 0x12 0 0)) ∧
    (∀ s1, pc % 8 = 0 → tr = (s1, .wait) → exec (.fetchFault t) s = .next s) ∧
    (∀ s1 pa, pc % 8 = 0 → tr = (s1, .ok pa) → physErr s1 (.ctx (th s k).ctx) pa 8 false = none → pa / 64 ∉ s1.poison →
      exec (.fetchFault t) s = .next s)

/-- R55-R57, R74: a word whose CLASS and OP are those of an operation spells that operation, with the guard and the operand fields at their places; OP bit 7 gives the format of a SCALAR word. CLASS 0x08 with OP 0 is STREAM with its own fields. A reserved CLASS or OP spells nothing. -/
def Sys2Proof.Parts.DeashWords : Prop :=
  (∀ (t : Tid) (w : Word) (r : OpRow), r ∈ opRows → (w >>> 58).toNat = r.cls →
    (w >>> 50).toNat % 256 = r.op ∨ (r.cls = 0x01 ∧ (w >>> 50).toNat % 128 = r.op) →
    decodeDeash t w = some (r.make t (wordOpnds (r.iform.getD (w.getLsbD 57)) w))) ∧
  (∀ (t : Tid) (w : Word), (w >>> 50).toNat = 0x08 * 256 → decodeDeash t w = some (.stream t (wordStream w))) ∧
  (∀ (t : Tid) (w : Word), (w >>> 50).toNat ≠ 0x08 * 256 →
    (∀ r ∈ opRows, ¬ ((w >>> 58).toNat = r.cls ∧ ((w >>> 50).toNat % 256 = r.op ∨ (r.cls = 0x01 ∧ (w >>> 50).toNat % 128 = r.op)))) →
    decodeDeash t w = none) ∧
  (∀ (iform : Bool) (w : Word), let o := wordOpnds iform w
    o.ge = w.getLsbD 49 ∧ o.gn = w.getLsbD 44 ∧ o.pg = w.extractLsb' 45 4 ∧ o.d = w.extractLsb' 38 6 ∧ o.a = w.extractLsb' 32 6 ∧
    (iform = true → o.imm = w.truncate 32) ∧ (iform = false → o.b = w.extractLsb' 26 6 ∧ o.c = w.extractLsb' 20 6 ∧ o.md = w.truncate 20))

/-- R8, R25, R68, R290: ST8 and FST of a register outside the COL block act on the register as a store of eight bytes by the host does; at a COL_TADD address they add the low half of the value to a counter the context owns; anything else of the COL block is denied. -/
def Sys2Proof.Parts.RegisterStores : Prop :=
  ∀ (c : Tid → Opnds → Instr) (file : Nat) (get : Thread → Nat → Word),
    ((c, file, get) = (Instr.st8, 64, xr) ∨ (c, file, get) = (Instr.fst, 32, fr)) →
    ∀ (s : State) (t : Tid) (o : Opnds) (s1 : State) (pa : Nat), s.Inv → Issues s t o 0x01 none (memForm file) → ReachesReg s s1 (tkey t) o .write pa →
      let k := tkey t
      let v := get (th s k) o.d.toNat
      (inCol pa = false → exec (c t o) s = .next (retire (regStore (regMove s1 k pa true) pa v) k)) ∧
      (∀ i, inCol pa = true → taddOf pa = some i → ownsCtr s1 (th s k).ctx i = true →
        exec (c t o) s = .next (retire (counterAdd (regMove s1 k pa true) i (v.toNat % 2 ^ 32)) k)) ∧
      (inCol pa = true → (taddOf pa = none ∨ ∃ i, taddOf pa = some i ∧ ownsCtr s1 (th s k).ctx i = false) →
        exec (c t o) s = .next (insnFault s1 k 0x01 0x11 0x17 0))
/-- R41, R42, R57, R58, R61, R73-R75, R84: STREAM on an N-core with a legal binding and a descriptor that passes its checks takes the lowest free queue and binds the stream, with a copy of the descriptor, at its first tile; with all eight queues held it stalls. Bits that must be zero, an S-core, and an illegal binding fault as encodings with their subcodes; a guard that fails retires the word; a refused descriptor leaves the station, the descriptor register and the subcode in NCO_FAULT and stops the context. A stream that no FABRIC.get feeds changes nothing else. -/
def Sys2Proof.Parts.StreamBinds : Prop :=
  ∀ (s : State) (t : Tid) (o : StreamOps), s.Inv → canIssue s (tkey t) = true →
    let k := tkey t
    let d := sdr (th s k) o.sd.toNat
    let zeros := o.low = 0 ∧ (o.dual = true ∨ (o.to2St = 0 ∧ o.to2Port = 0))
    let guard := guardOk (th s k) o.ge o.gn o.pg.toNat
    (isS k = true → exec (.stream t o) s = .next (insnFault s k 0x08 0x11 0x10 0)) ∧
    (isS k = false → ¬ zeros → exec (.stream t o) s = .next (insnFault s k 0x08 0x11 0x11 0)) ∧
    (isS k = false → zeros → guard = false → exec (.stream t o) s = .next (retire s k)) ∧
    (isS k = false → zeros → guard = true →
      (bindingOk o = false → exec (.stream t o) s = .next (insnFault s k 0x08 0x11 0x12 0)) ∧
      (∀ sub, bindingOk o = true → streamCheck o d = some sub → exec (.stream t o) s = .next (descFault s k (faultStation o) o.sd.toNat sub)) ∧
      (bindingOk o = true → streamCheck o d = none → (∀ q < 8, ∃ x ∈ (nc s k).streams, x.q = q) → exec (.stream t o) s = .next s) ∧
      (∀ q, bindingOk o = true → streamCheck o d = none → q < 8 → (∀ x ∈ (nc s k).streams, x.q ≠ q) →
        (∀ r < q, ∃ x ∈ (nc s k).streams, x.q = r) →
        let st : Stream := ⟨q, o.sd.toNat, d, ⟨o.fromSt.toNat, o.fromPort.toNat⟩, ⟨o.toSt.toNat, o.toPort.toNat⟩,
          if o.dual then some ⟨o.to2St.toNat, o.to2Port.toNat⟩ else none, o.cnt.toNat, 0, [], 0, 0⟩
        let u := setTh (setNc s k { (nc s k) with streams := (nc s k).streams ++ [st] }) k { th s k with pc := (th s k).pc + 8 }
        exec (.stream t o) s = .next (pumpGet k 4 u) ∧
        ((∀ x ∈ (nc s k).streams, x.frm ≠ pFab) → st.frm ≠ pFab → exec (.stream t o) s = .next u)))

/-- R39, R54, R73, R84, R441: SDLD.E loads the eight words of a descriptor at an address that is a multiple of 8, SDLD.B the first three and computes the others; a misaligned address and a word that cannot be read fault precisely; a word that waits leaves the instruction at its pc. -/
def Sys2Proof.Parts.DescriptorLoads : Prop :=
  ∀ (c : Tid → Opnds → Instr) (n : Nat) (desc : List Word → Desc),
    ((c, n, desc) = (Instr.sdldB, 3, fun w => basicDesc (w.getD 0 0) (w.getD 1 0) (w.getD 2 0)) ∨
     (c, n, desc) = (Instr.sdldE, 8, fun w => ⟨w.getD 0 0, w.getD 1 0, w.getD 2 0, w.getD 3 0, w.getD 4 0, w.getD 5 0, w.getD 6 0, w.getD 7 0, false⟩)) →
    ∀ (s : State) (t : Tid) (o : Opnds) (s1 : State), s.Inv → Issues s t o 0x08 none (some ⟨16, 64, 0xFFFFFFFF⟩) →
      let k := tkey t
      let r := vaWords s (srcTh s k) (scalarVa s k o) n
      (scalarVa s k o % 8 ≠ 0 → exec (c t o) s = .next (insnFault s k 0x08 0x10 0x15 0)) ∧
      (∀ ws, scalarVa s k o % 8 = 0 → r = (s1, .ok ws) →
        exec (c t o) s = .next (setTh s1 k { setSd (th s k) o.d.toNat (desc ws) with pc := (th s k).pc + 8 })) ∧
      (∀ e, scalarVa s k o % 8 = 0 → r = (s1, .err e) → exec (c t o) s = .next (insnFault s1 k 0x08 (accCode e).1 (accCode e).2 0)) ∧
      (scalarVa s k o % 8 = 0 → r = (s1, .wait) → exec (c t o) s = .next s)

/-- R38, R40, R44, R50, R73, R247, R263, R344: COPY appends a request with both descriptors to the copy engine of its cluster, or stops at a descriptor that fails its checks. The engine makes every move of a COPY that it can and drops it; one whose line faults stops there with its index, is set aside, and stops its thread with the fault; behind a cut copy COPY waits. The engine sends the lines of an RGET, RPUT or RPUTF as its 512 allow. Each line that a COPY has moved counts for the thread that asked, once the invalidations of that core's writes are acknowledged (moves that follow one another in one line count as one, the model's choice, log 57). -/
def Sys2Proof.Parts.CopyRequests : Prop :=
  Does .copy 0x08 (some ⟨32, 16, 16, 0, 0⟩) none (fun s k o => copyCheck (sdr (th s k) o.a.toNat) (sdr (th s k) o.b.toNat) = none)
    (fun s k o => let c := sget cpe0 s.cpes (cpeOf s k)
      retire { s with cpes := sset cpe0 s.cpes (cpeOf s k) { c with reqs := c.reqs ++
        [⟨k, (th s k).gen, (th s k).ctx, o.a.toNat, sdr (th s k) o.a.toNat, sdr (th s k) o.b.toNat, o.d.toNat, 0, false, none⟩] } } k) ∧
  (∀ (s : State) (t : Tid) (o : Opnds) (sub : Nat), s.Inv → Issues s t o 0x08 (some ⟨32, 16, 16, 0, 0⟩) none →
    copyCheck (sdr (th s (tkey t)) o.a.toNat) (sdr (th s (tkey t)) o.b.toNat) = some sub →
    exec (.copy t o) s = .next (descFault s (tkey t) 6 o.a.toNat sub)) ∧
  (∀ (s : State) (cpe : Nat) (r : CopyReq) (s1 : State) (made : Nat) (bad : Option (AccErr × Nat)), s.Inv → issuing s = true →
    copyNext s (sget cpe0 s.cpes cpe) = some r → r.xfer = none →
    let e := sget cpe0 s.cpes cpe
    let cut := (List.range 8).any (fun p => rdf s (R.CKP_STAT p) 0 4 == 2)
    let moves := (copyMoves r.dst).drop r.line
    let landed := s1.landing ++ List.replicate (linesLanded made moves) (cpe, r.core, r.gen, r.cnt)
    (cut = true → exec (.copyRequestServe cpe) s = .next s) ∧
    (cut = false → copyRun s r.ctx r moves = (s1, made, bad) → made = moves.length → bad = none →
      exec (.copyRequestServe cpe) s = .next { s1 with
        landing := landed, cpes := sset cpe0 s1.cpes cpe { e with reqs := e.reqs.filter (fun x => x ≠ r), last := r.core } }) ∧
    (∀ err tile, cut = false → copyRun s r.ctx r moves = (s1, made, bad) → made < moves.length → bad = some (err, tile) →
      (th s r.core).gen = r.gen → ((th s r.core).phase = .run ∨ (th s r.core).phase = .fence) →
      exec (.copyRequestServe cpe) s = .next (streamFault { s1 with
        landing := landed, cpes := sset cpe0 s1.cpes cpe { e with
          reqs := e.reqs.map (fun x => if x = r then { r with line := r.line + made, aside := true } else x), last := r.core } }
        r.core 6 r.sds (tileCode err).1 (tileCode err).2 tile))) ∧
  (∀ (s : State) (cpe id : Nat) (r : CopyReq), s.Inv → issuing s = true → copyNext s (sget cpe0 s.cpes cpe) = some r → r.xfer = some id →
    let e := sget cpe0 s.cpes cpe
    let s1 := cpeSend cpe id 513 s
    exec (.copyRequestServe cpe) s = .next { s1 with cpes := sset cpe0 s1.cpes cpe { e with
      reqs := if s1.xfers.any (fun x => x.id == id && x.fail.isNone && x.next != x.n) then e.reqs else e.reqs.filter (fun x => x ≠ r), last := r.core } }) ∧
  (∀ (s : State) (cpe : Nat) (l : Nat × Nat × Nat × Nat), s.Inv → s.landing.find? (fun x => x.1 == cpe) = some l →
    (issuing s = true → acked s l.2.1 = true →
      exec (.copyLineLanded cpe) s = .next (arrive { s with landing := s.landing.erase l } l.2.1 l.2.2.1 l.2.2.2)) ∧
    (issuing s = false ∨ acked s l.2.1 = false → exec (.copyLineLanded cpe) s = .next s))

/-- R42, R44, R52, R247, R442, R443: LOAD reads the next tile of its stream into its queue while that holds fewer than four; a tile that faults stops the context once the tiles before it are delivered. STORE takes the next tile and writes it where the walk gives, its saturations and flushes counted, or stops at a tile or an access that is refused; the counter rises when the tile is visible, once the invalidations of the core's writes are acknowledged. -/
def Obligations.LoadAndStoreStations : Prop :=
  (∀ (s : State) (core : Nat) (st : Stream) (s1 : State), s.Inv → stationsRun s core = true → producing (nc s core) pLoad = some st →
    let r := readTile s (srcBulk s core (th s core).ctx (!st.d.noAlloc)) st.d st.made
    (4 ≤ st.tiles.length → exec (.loadTileReady core) s = .next s) ∧
    (∀ tile, st.tiles.length < 4 → r = (s1, .ok tile) →
      exec (.loadTileReady core) s = .next (setNc s1 core (pushTile (nc s core) pLoad tile))) ∧
    (∀ e, st.tiles = [] → r = (s1, .err e) →
      exec (.loadTileReady core) s = .next (streamFault s1 core 0 st.sd (tileCode e).1 (tileCode e).2 st.made)) ∧
    (∀ e, st.tiles ≠ [] → r = (s1, .err e) → exec (.loadTileReady core) s = .next s) ∧
    (r = (s1, .wait) → exec (.loadTileReady core) s = .next s)) ∧
  (∀ (s : State) (core : Nat) (st : Stream) (s1 : State) (tile : Tile), s.Inv → stationsRun s core = true → peekTile (nc s core) pStore = some (st, tile) →
    let w := writeTile s (srcBulk s core (th s core).ctx (!st.d.noAlloc)) st.d st.took1 tile
    let n := (takeTile (nc s core) pStore st).1
    (∀ sub, tileRefused st.d tile = some sub → exec (.storeTile core) s = .next (consumeFault s core 1 st st.took1 0x10 sub)) ∧
    (tileRefused st.d tile = none → w = (s1, .ok ()) →
      exec (.storeTile core) s = .next (countNum (setNc s1 core { n with stored := n.stored ++ [st.cnt] }) (th s core).ctx ⟨tile.sat, tile.flush, 0⟩)) ∧
    (∀ e, tileRefused st.d tile = none → w = (s1, .err e) →
      exec (.storeTile core) s = .next (consumeFault s core 1 st st.took1 (tileCode e).1 (tileCode e).2)) ∧
    (tileRefused st.d tile = none → w = (s1, .wait) → exec (.storeTile core) s = .next s)) ∧
  (∀ (s : State) (core : Nat) (c : Nat) (rest : List Nat), s.Inv → (nc s core).stored = c :: rest →
    (issuing s = true → acked s core = true →
      exec (.storeTileVisible core) s = .next (arrive (setNc s core { nc s core with stored := rest }) core (th s core).gen c)) ∧
    (issuing s = false ∨ acked s core = false → exec (.storeTileVisible core) s = .next s))

/-- R76, R258, R263, R265: RGET, RPUT and RPUTF with aligned addresses, permitted windows and permitted local lines become one transfer; the lines of an S-core thread go out at once as its slots allow, those of an N-core wait in the copy engine of its cluster. A misaligned address, a window error or a local access error faults precisely; a local line that waits leaves the instruction at its pc. An RGET of at most 16 lines of an S-core that has no line outstanding, through windows whose targets can be reached, sends a READ of every line, in order, each with the thread's next sequence number. -/
def Sys2Proof.Parts.FabricMoves : Prop :=
  ∀ (c : Tid → Opnds → Instr) (op perm cfile mods : Nat) (kind : AccKind),
    ((c, op, perm, cfile, mods, kind) = (Instr.rget, 0, 1, 0, 0xFFFF, .write) ∨ (c, op, perm, cfile, mods, kind) = (Instr.rput, 1, 2, 64, 0xFFFF, .read) ∨
     (c, op, perm, cfile, mods, kind) = (Instr.rputf, 2, 2, 64, 0, .read)) →
    ∀ (s : State) (t : Tid) (o : Opnds), s.Inv → Issues s t o 0x04 (some ⟨32, 64, 64, cfile, mods⟩) none →
      let k := tkey t
      let n := th s k
      let ra := (xr n o.a.toNat).toNat
      let la := (xr n o.b.toNat).toNat
      let cnt := o.md.toNat % 65536 + 1
      let lines := (List.range cnt).map (fun i => (la + 64 * i) % 2 ^ 64)
      let local_ := vaCheckWords s n.ctx kind 64 lines
      (ra % 64 ≠ 0 ∨ la % 64 ≠ 0 → exec (c t o) s = .next (insnFault s k 0x04 0x10 0x15 0)) ∧
      (∀ st sub, ra % 64 = 0 → la % 64 = 0 → windowsErr s n.ctx ra cnt perm = some (st, sub) → exec (c t o) s = .next (insnFault s k 0x04 st sub 0)) ∧
      (∀ s1 e, ra % 64 = 0 → la % 64 = 0 → windowsErr s n.ctx ra cnt perm = none → local_ = (s1, .err e) →
        exec (c t o) s = .next (insnFault s1 k 0x04 (accCode e).1 (accCode e).2 0)) ∧
      (∀ s1, ra % 64 = 0 → la % 64 = 0 → windowsErr s n.ctx ra cnt perm = none → local_ = (s1, .wait) → exec (c t o) s = .next s) ∧
      (∀ s1 pas, ra % 64 = 0 → la % 64 = 0 → windowsErr s n.ctx ra cnt perm = none → local_ = (s1, .ok pas) →
        let x : Xfer := ⟨s1.nextId, k, n.gen, n.ctx, op, ra, la, if o.c = 0 then 2 ^ 64 - 1 else (xr n o.c.toNat).toNat, o.d.toNat, cnt, 0, 0, none⟩
        let s2 := { s1 with nextId := s1.nextId + 1, xfers := s1.xfers ++ [x] }
        let e := sget cpe0 s2.cpes (cpeOf s2 k)
        exec (c t o) s = .next (if isS k then pump k 17 (retire s2 k)
          else retire { s2 with cpes := sset cpe0 s2.cpes (cpeOf s2 k) { e with reqs := e.reqs ++ [⟨k, n.gen, n.ctx, 0, desc0, desc0, o.d.toNat, 0, false, some x.id⟩] } } k)) ∧
      (∀ s1 pas (tgt addr : Nat → Nat), op = 0 → isS k = true → cnt ≤ 16 → ra % 64 = 0 → la % 64 = 0 → local_ = (s1, .ok pas) →
        linesOut s k true = 0 → (∀ x ∈ s.xfers, x.id < s.nextId ∧ (x.key = k → x.fail.isSome = true ∨ x.next = x.n)) → sget 0 s.seqs k < 2 ^ 24 →
        (∀ i < cnt, winCheck s n.ctx (ra + 64 * i) 1 = .ok (tgt i) (addr i) ∧ unsendable s (reqPkt s n.ctx 1 (tgt i) (addr i) k 0) = none) →
        ∃ u, exec (c t o) s = .next u ∧ u.mem = s.mem ∧ u.regs = s.regs ∧ th u k = { n with pc := n.pc + 8 } ∧
          u.routerIn = s.routerIn ++ (List.range cnt).map (fun i => reqPkt s n.ctx 1 (tgt i) (addr i) k ((sget 0 s.seqs k + i) % 2 ^ 24)) ∧
          u.reqs.length = s.reqs.length + cnt)

/-- R76, R77, R85, R258, R274, R275, R277, R374: a remote atomic whose window permits it takes the thread's next sequence number and sends one request packet, with its operand, and the thread waits; one whose target is lost or whose domain has no key ends at once with that status. A misaligned address, a window error and an address of this package's register space fault precisely, and a register pair that does not exist is an illegal encoding. -/
def Sys2Proof.Parts.RemoteAtomics : Prop :=
  ∀ (c : Tid → Opnds → Instr) (ty : Nat) (wide cas : Bool) (mods : Nat),
    ((c, ty, wide, cas, mods) = (Instr.radd, 0x08, false, false, 0) ∨ (c, ty, wide, cas, mods) = (Instr.rmin, 0x09, false, false, 1) ∨
     (c, ty, wide, cas, mods) = (Instr.rmax, 0x0A, false, false, 1) ∨ (c, ty, wide, cas, mods) = (Instr.rand, 0x0B, false, false, 0) ∨
     (c, ty, wide, cas, mods) = (Instr.ror, 0x0C, false, false, 0) ∨ (c, ty, wide, cas, mods) = (Instr.rxor, 0x0D, false, false, 0) ∨
     (c, ty, wide, cas, mods) = (Instr.rswap, 0x0E, false, false, 0) ∨ (c, ty, wide, cas, mods) = (Instr.rcas8, 0x0F, false, true, 0) ∨
     (c, ty, wide, cas, mods) = (Instr.rcas16, 0x10, true, true, 0)) →
    ∀ (s : State) (t : Tid) (o : Opnds), s.Inv → Issues s t o 0x04 (some ⟨64, 64, 64, if cas then 64 else 0, mods⟩) none →
      let k := tkey t
      let n := th s k
      let ra := (xr n o.a.toNat).toNat
      let w := if wide then 16 else 8
      let legal := o.d ≠ 0 ∧ o.d.toNat + (if wide then 2 else 1) < 64 ∧ (wide = true → o.b.toNat < 63 ∧ o.c.toNat < 63)
      let val (r : Nat) : Nat := (xr n r).toNat + (if wide then (xr n (r + 1)).toNat * 2 ^ 64 else 0)
      let q := sget 0 s.seqs k
      let pkt (tgt addr : Nat) : Pkt := { (reqPkt s n.ctx ty tgt addr k q) with
        sgn := o.md.toNat % 2 == 1, mem := if cas then [] else [⟨ownCoord s, k, q, val o.b.toNat⟩],
        data := if cas then leBytes w (val o.c.toNat) ++ leBytes w (val o.b.toNat) else [] }
      (¬ legal → exec (c t o) s = .next (insnFault s k 0x04 0x11 0x11 0)) ∧
      (legal → ra % w ≠ 0 → exec (c t o) s = .next (insnFault s k 0x04 0x10 0x15 0)) ∧
      (∀ st sub, legal → ra % w = 0 → winCheck s n.ctx ra 3 = .err st sub → exec (c t o) s = .next (insnFault s k 0x04 st sub 0)) ∧
      (∀ tgt addr, legal → ra % w = 0 → winCheck s n.ctx ra 3 = .ok tgt addr →
        (tgt = ownCoord s → region addr = .reg → exec (c t o) s = .next (insnFault s k 0x04 0x10 0x19 0)) ∧
        (tgt ≠ ownCoord s ∨ region addr ≠ .reg → unsendable s (pkt tgt addr) = none →
          ∃ u, exec (c t o) s = .next u ∧ u.routerIn = s.routerIn ++ [pkt tgt addr] ∧
            u.reqs = s.reqs ++ [⟨k, q, k, n.gen, n.ctx, .atomic o.d.toNat wide, ra, pkt tgt addr, 0, s.ltc.toNat, 0, none⟩] ∧
            u.seqs = sset 0 s.seqs k ((q + 1) % 2 ^ 24) ∧ u.threads = (setTh s k { n with phase := .atomic }).threads ∧ u.mem = s.mem ∧ u.regs = s.regs) ∧
        (∀ st cause, tgt ≠ ownCoord s ∨ region addr ≠ .reg → unsendable s (pkt tgt addr) = some (st, cause) →
          exec (c t o) s = .next (atomicEnd { setTh s k { n with phase := .atomic } with seqs := sset 0 s.seqs k ((q + 1) % 2 ^ 24) }
            k n.gen o.d.toNat wide st 0)))

/-- R41, R52, R258, R264, R265, R385, R443: FABRIC.put takes the next tile of its stream and sends each line that a row of the tile touches as one masked WRITE of a fresh request, with the tile's poison mark; the tile waits, with as many acknowledgements to come as it has lines. A tile or a window that is refused stops the context. FABRIC.get puts the next tile into its queue once every line of it has come back, stops the context at a tile that failed, once the tiles before it are delivered, and asks for the tiles to come. -/
def Sys2Proof.Parts.FabricStreams : Prop :=
  (∀ (s : State) (core : Nat) (st : Stream) (tile : Tile), s.Inv → stationsRun s core = true → peekTile (nc s core) pFab = some (st, tile) →
    s.putTiles.any (fun y => y.core == core && y.gen == (th s core).gen && y.q == st.q && y.fail.isSome) = false →
    let lines := (tileBytes st.d st.took1 tile).flatMap (fun r => putLines r.1 r.2)
    (∀ sub, tileRefused st.d tile = some sub → exec (.fabricPutTile core) s = .next (consumeFault s core 7 st st.took1 0x10 sub)) ∧
    (∀ i status sub, tileRefused st.d tile = none → i < lines.length → winCheck s (th s core).ctx ((lines.map (·.1)).getD i 0) 2 = .err status sub →
      (∀ j < i, ∃ tgt addr, winCheck s (th s core).ctx ((lines.map (·.1)).getD j 0) 2 = .ok tgt addr) →
      exec (.fabricPutTile core) s = .next (consumeFault s core 7 st st.took1 status (winTileSub status sub))) ∧
    (tileRefused st.d tile = none →
      (∀ l ∈ lines, ∃ tgt addr, winCheck s (th s core).ctx l.1 2 = .ok tgt addr ∧ unsendable s (reqPkt s (th s core).ctx 2 tgt addr 0 0) = none) →
      ∃ u ps, exec (.fabricPutTile core) s = .next u ∧ u.routerIn = s.routerIn ++ ps ∧
        ps.map (fun p => (p.ty, p.eng, p.mask, p.data, p.pois)) = lines.map (fun l => (2, 0xA00 + core, l.2.1, l.2.2, tile.poison)) ∧
        u.putTiles = s.putTiles ++ [⟨s.nextId, core, (th s core).gen, (th s core).ctx, st.sd, st.cnt, st.took1, lines.length, none, st.q, tile⟩] ∧
        u.reqs.length = s.reqs.length + lines.length ∧ u.mem = s.mem ∧ u.regs = s.regs ∧ u.threads = s.threads)) ∧
  (∀ (s : State) (core : Nat) (st : Stream), s.Inv → stationsRun s core = true → producing (nc s core) pFab = some st →
    let next := s.getTiles.find? (fun g => g.core == core && g.q == st.q && g.tile == st.made)
    (next = none → exec (.fabricGetTileReady core) s = .next (pumpGet core 4 s)) ∧
    (∀ g, next = some g →
      let gone : State := { s with getTiles := s.getTiles.filter (fun x => x ≠ g) }
      let waits := s.reqs.any (fun r => r.eng == 0xA00 + core && (match r.kind with | .get q tl _ => q == g.q && tl == g.tile | _ => false))
      (g.fail = none → st.tiles.length < 4 → (∀ l ∈ g.lines, l.2.isSome = true) →
        exec (.fabricGetTileReady core) s = .next (pumpGet core 4 (setNc gone core (pushTile (nc s core) pFab (g.make st.d))))) ∧
      (g.fail = none → (4 ≤ st.tiles.length ∨ ∃ l ∈ g.lines, l.2 = none) → exec (.fabricGetTileReady core) s = .next s) ∧
      (∀ status sub, g.fail = some (status, sub) → st.tiles = [] → waits = false →
        exec (.fabricGetTileReady core) s = .next (streamFault gone core 7 st.sd status sub g.tile)) ∧
      (∀ status sub, g.fail = some (status, sub) → (st.tiles ≠ [] ∨ waits = true) → exec (.fabricGetTileReady core) s = .next s)))

/-- R35, R122, R123, R128, R141, R144, R155: a MATRIX, TRESTLE, ELEMENT or REDUCE class instruction whose settings break no rule of its table retires and goes to its station; one that breaks a rule is an illegal encoding. -/
def Sys2Proof.Parts.ClassInstructionsIssue : Prop :=
  (∀ (c : Tid → Opnds → Instr) (cls dfile afile op : Nat) (legal : Opnds → Prop) (put : NCore → ClassIns → NCore),
    ((c, cls, dfile, afile, op, legal, put) = (Instr.mxpassB, 0x09, 0, 0, 0, fun o => mxOk o.imm false = true, toMx) ∨
     (c, cls, dfile, afile, op, legal, put) = (Instr.mxpassE, 0x09, 0, 0, 1, fun o => mxOk o.imm true = true, toMx) ∨
     (c, cls, dfile, afile, op, legal, put) = (Instr.trsetB, 0x0A, 64, 0, 0, fun o => trOk o.imm o.d.toNat false = true, toTr) ∨
     (c, cls, dfile, afile, op, legal, put) = (Instr.trsetE, 0x0A, 64, 0, 1, fun o => trOk o.imm o.d.toNat true = true, toTr) ∨
     (c, cls, dfile, afile, op, legal, put) = (Instr.rduOpB, 0x0C, 64, 0, 0, fun o => rdOk o.imm o.d.toNat false = true, toRd) ∨
     (c, cls, dfile, afile, op, legal, put) = (Instr.rduOpE, 0x0C, 64, 0, 1, fun o => rdOk o.imm o.d.toNat true = true, toRd) ∨
     (c, cls, dfile, afile, op, legal, put) = (Instr.eweRunB, 0x0B, 8, 0, 0, fun _ => True, toEw) ∨
     (c, cls, dfile, afile, op, legal, put) = (Instr.eweRunE, 0x0B, 8, 64, 1, fun o => (numCtl o.a.toNat).isSome = true, toEw) ∨
     (c, cls, dfile, afile, op, legal, put) = (Instr.eweImm, 0x0B, 4, 0, 4, fun o => o.d ≠ 0, toEw)) →
    Does c cls none (some ⟨dfile, afile, 0xFFFFFFFF⟩) (fun _ _ o => legal o) (fun s k o => sent put ⟨cls, op, o.d.toNat, o.a.toNat, o.imm, []⟩ s k) ∧
    Does c cls none (some ⟨dfile, afile, 0xFFFFFFFF⟩) (fun _ _ o => ¬ legal o) (fun s k _ => insnFault s k cls 0x11 0x11 0)) ∧
  Does .mxswap 0x09 (some ⟨0, 0, 0, 0, 0⟩) none (fun _ _ _ => True) (fun s k _ => sent toMx ⟨9, 2, 0, 0, 0, []⟩ s k) ∧
  Does .mxend 0x09 (some ⟨0, 0, 0, 0, 0⟩) none (fun _ _ _ => True) (fun s k _ => sent toMx ⟨9, 4, 0, 0, 0, []⟩ s k) ∧
  Does .trend 0x0A (some ⟨0, 0, 0, 0, 0⟩) none (fun _ _ _ => True) (fun s k _ => sent toTr ⟨0xA, 4, 0, 0, 0, []⟩ s k) ∧
  Does .rduEnd 0x0C (some ⟨0, 0, 0, 0, 0⟩) none (fun _ _ _ => True) (fun s k _ => sent toRd ⟨0xC, 4, 0, 0, 0, []⟩ s k)

/-- R54, R84, R144, R445: EWE.LDR and EWE.STR at an address that is a multiple of 64, and EWE.LDP at one that is a multiple of 8, translate and check their range when they issue and go to ELEMENT with its physical addresses; a misaligned address or a refused one faults, EWE.LDP with the fetch's status and subcode; an access that waits leaves the instruction at its pc. -/
def Sys2Proof.Parts.ElementLoadsIssue : Prop :=
  (∀ (c : Tid → Opnds → Instr) (op : Nat) (kind : AccKind),
    ((c, op, kind) = (Instr.eweLdr, 0x0C, .read) ∨ (c, op, kind) = (Instr.eweStr, 0x0D, .write)) →
    ∀ (s : State) (t : Tid) (o : Opnds) (s1 : State), s.Inv → Issues s t o 0x0B none (some ⟨32, 64, 0xFFFFFFFF⟩) →
      let k := tkey t
      let r := vaCheckWords s (th s k).ctx kind 64 ((List.range 4).map (fun i => scalarVa s k o + 64 * i))
      (scalarVa s k o % 64 ≠ 0 → exec (c t o) s = .next (insnFault s k 0x0B 0x10 0x15 0)) ∧
      (∀ pas, scalarVa s k o % 64 = 0 → r = (s1, .ok pas) →
        exec (c t o) s = .next (sent toEw ⟨0xB, op, o.d.toNat, o.a.toNat, o.imm, pas⟩ s1 k)) ∧
      (∀ e, scalarVa s k o % 64 = 0 → r = (s1, .err e) → exec (c t o) s = .next (insnFault s1 k 0x0B (accCode e).1 (accCode e).2 0)) ∧
      (scalarVa s k o % 64 = 0 → r = (s1, .wait) → exec (c t o) s = .next s)) ∧
  (∀ (s : State) (t : Tid) (o : Opnds) (s1 : State), s.Inv → Issues s t o 0x0B none (some ⟨8, 64, 0xFFFFFFFF⟩) →
    let k := tkey t
    let va := scalarVa s k o
    let head := vaCheck s (th s k).ctx va 8 .exec
    (va % 8 ≠ 0 → exec (.eweLdp t o) s = .next (insnFault s k 0x0B 0x10 0x15 0)) ∧
    (∀ e, va % 8 = 0 → head = (s1, .err e) → exec (.eweLdp t o) s = .next (insnFault s1 k 0x0B (fetchCode e).1 (fetchCode e).2 0)) ∧
    (va % 8 = 0 → head = (s1, .wait) → exec (.eweLdp t o) s = .next s) ∧
    (∀ pa s2, va % 8 = 0 → head = (s1, .ok pa) →
      let m := physRead s1 (srcTh s k) pa 8
      let r := vaCheckWords m.1 (th s k).ctx .exec 8 ((List.range (leNat m.2.1 % 64 + 2)).map (fun i => va + 8 * i))
      (∀ pas, r = (s2, .ok pas) → exec (.eweLdp t o) s = .next (sent toEw ⟨0xB, 8, o.d.toNat, o.a.toNat, o.imm, pas⟩ s2 k)) ∧
      (∀ e, r = (s2, .err e) → exec (.eweLdp t o) s = .next (insnFault s2 k 0x0B (fetchCode e).1 (fetchCode e).2 0)) ∧
      (r = (s2, .wait) → exec (.eweLdp t o) s = .next s)))

/-- R80, R129, R145, R146, R156: EWE.REXEC runs its program on element registers and writes the packed results over the low bits of eD; RDU.RREG reduces the 64 binary32 values of an element register into fD. Both count in nstat, and wait at their pc for what is pending on their registers. An EWE.REXEC of an empty slot, of a program that reads y2 or the link buffer, or with a reserved numeric control, and an RDU.RREG of another operation than its six, are illegal encodings. -/
def Sys2Proof.Parts.RegisterPrograms : Prop :=
  (∀ (s : State) (t : Tid) (o : Opnds), s.Inv → Issues s t o 0x0B (some ⟨32, 32, 32, 0, 0x1FF⟩) none →
    let k := tkey t
    let n := nc s k
    let slot := sget none n.ew.slots (o.md.toNat % 8)
    let earlier := n.ewIn.any (fun ci => ci.op ≠ 0x0D)
    let busy (p : Prog) : Bool := sweepReads n o.d.toNat || n.ewIn.any (fun ci => ci.d == o.d.toNat) ||
      ([o.d.toNat, o.a.toNat, o.b.toNat] ++ p.eRegs).any (pendingWrites n)
    (numCtl (o.md.toNat / 8 % 64) = none → exec (.eweRexec t o) s = .next (insnFault s k 0x0B 0x11 0x11 0)) ∧
    (∀ nctl, numCtl (o.md.toNat / 8 % 64) = some nctl →
      (earlier = true → exec (.eweRexec t o) s = .next s) ∧
      (earlier = false → slot = none → exec (.eweRexec t o) s = .next (insnFault s k 0x0B 0x11 0x11 0)) ∧
      (∀ p, earlier = false → slot = some p →
        (p.reads 6 = true ∨ p.reads 7 = true → exec (.eweRexec t o) s = .next (insnFault s k 0x0B 0x11 0x11 0)) ∧
        (p.reads 6 = false → p.reads 7 = false → busy p = true → exec (.eweRexec t o) s = .next s) ∧
        (p.reads 6 = false → p.reads 7 = false → busy p = false →
          let tile (i : Nat) : Tile := ⟨5, false, false, 1, 64, 0, 0, false, cutCodes 32 64 (er n i).toNat, [], false⟩
          let r := runTile n p (tile o.a.toNat) (some (tile o.b.toNat)) [] false s.free
          let rng := takeFor nctl (th s k).ctx (spend s 4096)
          let F := (fmtOfCode p.ofmt).getD fmtFP32
          let q := convAll F nctl rng.1 0 r.1
          let cnt : Cnt := ⟨q.2.sat, 0, r.2 + q.2.nan⟩
          exec (.eweRexec t o) s = .next (countNum (setTh (setNc rng.2 k (setE n o.d.toNat
              (BitVec.ofNat 2048 (joinCodes F.bits q.1 + (er n o.d.toNat).toNat / 2 ^ (64 * F.bits) * 2 ^ (64 * F.bits))))) k
            { setNstat (th s k) 0x0B cnt with pc := (th s k).pc + 8 }) (th s k).ctx cnt))))) ∧
  (∀ (s : State) (t : Tid) (o : Opnds), s.Inv → Issues s t o 0x0C (some ⟨32, 32, 0, 0, 0xF⟩) none →
    let k := tkey t
    let r := rregResult (o.md.toNat % 16) ((List.range 64).map (fun i => f32 (eElem (nc s k) o.a.toNat i))) s.free
    (5 < o.md.toNat % 16 → exec (.rduRreg t o) s = .next (insnFault s k 0x0C 0x11 0x11 0)) ∧
    (o.md.toNat % 16 ≤ 5 → pendingWrites (nc s k) o.a.toNat = true → exec (.rduRreg t o) s = .next s) ∧
    (o.md.toNat % 16 ≤ 5 → pendingWrites (nc s k) o.a.toNat = false →
      exec (.rduRreg t o) s = .next (countNum (setTh (spend s 1) k
        { setNstat (setF (th s k) o.d.toNat (to64 r.1)) 0x0C ⟨0, 0, r.2⟩ with pc := (th s k).pc + 8 }) (th s k).ctx ⟨0, 0, r.2⟩)))

/-- R35, R117, R124, R125, R129, R139, R141, R144, R145, R151: the oldest class instruction of a station takes effect there. MXSWAP asks for a swap; MXEND starts the readout of an open pass; MXPASS starts it too and waits until the pass has left and its group is no other station's, and then is in force. TRSET ends the sweep, waits for its readout and for its accumulator, and then is in force. EWE.RUN selects a program and k0, EWE.IMM sets an immediate, EWE.LDP loads a legal program and empties the slot of another, EWE.LDR loads an element register, EWE.STR stores one and no other byte, each once nothing is pending on its register. RDU.OP closes the open operation, takes its accumulator and opens the next; RDU.END closes it. -/
def Sys2Proof.Parts.ClassInstructionsTakeEffect : Prop :=
  ∀ (s : State) (core : Nat) (ci : ClassIns) (rest : List ClassIns), s.Inv → stationsRun s core = true →
    let n := nc s core
    let at2 := exec (.classInstructionAtStation core 2) s
    let at3 := exec (.classInstructionAtStation core 3) s
    let at4 := exec (.classInstructionAtStation core 4) s
    let at5 := exec (.classInstructionAtStation core 5) s
    (n.mxIn = ci :: rest →
      let group := (mxCfg ci.imm (ci.op == 1)).group
      (ci.op = 2 → at2 = .next (setNc s core { n with mx := { n.mx with swaps := n.mx.swaps + 1 }.doSwaps, mxIn := rest })) ∧
      (ci.op = 4 → n.mx.reading = true → at2 = .next (setNc s core n)) ∧
      (ci.op = 4 → n.mx.reading = false → n.mx.opened = true →
        at2 = .next (setNc s core { n with mx := { n.mx with reading := true, lastRead := false }, mxIn := rest })) ∧
      (ci.op = 4 → n.mx.reading = false → n.mx.opened = false → at2 = .next (setNc s core { n with mxIn := rest })) ∧
      (ci.op ≤ 1 → n.mx.reading = true ∨ n.mx.out ≠ [] → at2 = .next (setNc s core n)) ∧
      (ci.op ≤ 1 → n.mx.reading = false → n.mx.out = [] → n.mx.opened = true →
        at2 = .next (setNc s core { n with mx := { n.mx with reading := true, lastRead := false } })) ∧
      (ci.op ≤ 1 → n.mx.reading = false → n.mx.out = [] → n.mx.opened = false → heldByOther n group 1 = true → at2 = .next (setNc s core n)) ∧
      (ci.op ≤ 1 → n.mx.reading = false → n.mx.out = [] → n.mx.opened = false → heldByOther n group 1 = false →
        at2 = .next (setNc s core { n with mx := { n.mx with cfg := some (ci.imm, ci.op == 1), blocks := 0 }, mxIn := rest }))) ∧
    (n.trIn = ci :: rest →
      let c := trCfg ci.imm ci.d (ci.op == 1)
      (n.tr.reading = true ∨ trHazard n ci = true → at3 = .next (setNc s core n)) ∧
      (n.tr.reading = false → trHazard n ci = false → ci.op = 4 → n.tr.sweep = true → (trNow n).isSome = true →
        at3 = .next (setNc s core { n with tr := { n.tr with sweep := false, reading := true }, trIn := rest })) ∧
      (∀ c0, n.tr.reading = false → trHazard n ci = false → ci.op ≤ 1 → n.tr.sweep = true → trNow n = some c0 → c0.read = true →
        at3 = .next (setNc s core { n with tr := { n.tr with sweep := false, reading := true } })) ∧
      (n.tr.reading = false → trHazard n ci = false → ci.op = 4 → n.tr.sweep = false → at3 = .next (setNc s core { n with trIn := rest })) ∧
      (∀ c0, n.tr.reading = false → trHazard n ci = false → ci.op ≤ 1 → n.tr.sweep = true → trNow n = some c0 → c0.read = false →
        let ended := { n.tr with sweep := false, tiles := 0, rowBase := 0 }
        at3 = .next (setNc s core (if heldByOther n [c.acc] 2 then { n with tr := ended }
          else { n with trIn := rest, tr := { ended with cfg := some (ci.imm, ci.d, ci.op == 1), used := false } }))) ∧
      (n.tr.reading = false → trHazard n ci = false → ci.op ≤ 1 → n.tr.sweep = false → heldByOther n [c.acc] 2 = true → at3 = .next (setNc s core n)) ∧
      (n.tr.reading = false → trHazard n ci = false → ci.op ≤ 1 → n.tr.sweep = false → heldByOther n [c.acc] 2 = false →
        at3 = .next (setNc s core { n with trIn := rest, tr := { n.tr with cfg := some (ci.imm, ci.d, ci.op == 1), used := false, tiles := 0, rowBase := 0 } }))) ∧
    (n.ewIn = ci :: rest →
      let pend := pendingWrites n ci.d = true
      let free := ∀ pa ∈ ci.pas, lineWaits s (pa / 64) = false
      (ci.op ≤ 1 → at4 = .next (setNc s core { n with ewIn := rest, ew := { n.ew with
        run := (ci.d, if ci.op = 1 then ci.a else 0), k := sset 0 n.ew.k 0 ci.imm } })) ∧
      (ci.op = 4 → at4 = .next (setNc s core { n with ewIn := rest, ew := { n.ew with k := sset 0 n.ew.k ci.d ci.imm } })) ∧
      (∀ s1 bs bad, ci.op = 8 → physReads s (srcTh s core) 8 ci.pas = (s1, (bs, bad)) →
        let ws := (List.range ci.pas.length).map (fun i => BitVec.ofNat 64 (leNat ((bs.drop (8 * i)).take 8)))
        let p : Prog := ⟨ws.getD 0 0, ws.drop 1⟩
        let put (v : Option Prog) : NCore := { n with ew := { n.ew with slots := sset none n.ew.slots ci.d v } }
        (bad = true → at4 = .next (streamFault s1 core 4 0 0x12 0 0)) ∧
        (bad = false → p.ok = true → at4 = .next (setNc s1 core { put (some p) with ewIn := rest })) ∧
        (bad = false → p.ok = false → at4 = .next (streamFault (setNc s1 core (put none)) core 4 0 0x10 0x2A 0))) ∧
      (ci.op = 0x0C → (sweepReads n ci.d = true ∨ pend ∨ ¬ free) → at4 = .next s) ∧
      (∀ s1 bs bad, ci.op = 0x0C → sweepReads n ci.d = false → ¬ pend → free → physReads s (srcTh s core) 64 ci.pas = (s1, (bs, bad)) →
        (bad = true → at4 = .next (streamFault s1 core 4 0 0x12 0 0)) ∧
        (bad = false → at4 = .next (setNc s1 core { setE n ci.d (BitVec.ofNat 2048 (leNat bs)) with ewIn := rest }))) ∧
      (ci.op = 0x0D → (pend ∨ ¬ free) → at4 = .next s) ∧
      (∀ p0 p1 p2 p3, ci.op = 0x0D → ¬ pend → free → ci.pas = [p0, p1, p2, p3] →
        (∀ a ∈ ci.pas, a % 64 = 0) → ci.pas.Nodup →
        ∃ u, at4 = .next u ∧ u.regs = s.regs ∧ u.threads = s.threads ∧ nc u core = { n with ewIn := rest } ∧
          (∀ i < 4, ∀ j < 64, memByte u (ci.pas.getD i 0 + j) = ((er n ci.d) >>> (8 * (64 * i + j))).truncate 8) ∧
          (∀ a, (∀ b ∈ ci.pas, a / 64 ≠ b / 64) → memByte u a = memByte s a))) ∧
    (n.rdIn = ci :: rest → n.rd.out = [] →
      (n.rd.op = none → ci.op = 4 → at5 = .next (setNc s core { n with rdIn := rest })) ∧
      (n.rd.op = none → ci.op ≤ 1 → heldByOther n [(rdCfg ci.imm ci.d (ci.op == 1)).acc] 3 = true → at5 = .next (setNc s core n)) ∧
      (n.rd.op = none → ci.op ≤ 1 → heldByOther n [(rdCfg ci.imm ci.d (ci.op == 1)).acc] 3 = false →
        at5 = .next (setNc s core { setOwner n [(rdCfg ci.imm ci.d (ci.op == 1)).acc] 3 with
          rdIn := rest, rd := { n.rd with tiles := 0, els := [], base := 0, used := false, op := some (ci.imm, ci.d, ci.op == 1) } })) ∧
      (∀ imm d x, n.rd.op = some (imm, d, x) →
        let c0 := rdCfg imm d x
        let hazard := (List.range 32).any (fun i => c0.dests i && sweepReads n i)
        let s1 := if n.rd.tiles = 0 then s else rdEmit s core c0
        let m := nc s1 core
        let closed := { setAcc m c0.acc acc0 with rd := { m.rd with tiles := 0, els := [], base := 0, used := true, op := none } }
        let c := rdCfg ci.imm ci.d (ci.op == 1)
        (n.rd.tiles ≠ 0 → hazard = true → at5 = .next (setNc s core n)) ∧
        (n.rd.tiles = 0 ∨ hazard = false → ci.op = 4 → at5 = .next (setNc s1 core { closed with rdIn := rest })) ∧
        (n.rd.tiles = 0 ∨ hazard = false → ci.op ≤ 1 → heldByOther closed [c.acc] 3 = true → at5 = .next (setNc s1 core closed)) ∧
        (n.rd.tiles = 0 ∨ hazard = false → ci.op ≤ 1 → heldByOther closed [c.acc] 3 = false →
          at5 = .next (setNc s1 core { setOwner closed [c.acc] 3 with
            rdIn := rest, rd := { closed.rd with used := false, op := some (ci.imm, ci.d, ci.op == 1) } })))) ∧
    (n.rdIn = ci :: rest → (drainRd n).rd.out ≠ [] → at5 = .next (setNc s core (drainRd n)))

/-- R35, R113-R118, R121, R124, R125, R130-R132: MATRIX, with no class instruction waiting, takes a stationary block into its shadow bank, an initial partial into its accumulator, and an activation tile into the accumulator of its place in the rotation, where each element takes the products of its row and column in order of k. It waits for a bank, an accumulator or a swap, and stops at a tile that is poisoned, of a format it does not take, or that breaks a rule, with its subcode. The readout of a pass clears its accumulators, puts their tiles out as far as the stream has room, and frees each when its last tile has left. -/
def Sys2Proof.Parts.MatrixStation : Prop :=
  (∀ (s : State) (core : Nat) (imm : Half) (x : Bool) (st : Stream) (t : Tile), s.Inv → mxFree s core = true →
    (nc s core).mx.cfg = some (imm, x) → peekTile (nc s core) pMxS = some (st, t) →
    let n := nc s core
    let c := mxCfg imm x
    let stop (a b : Nat) : State := consumeFault s core 2 st (st.took pMxS) a b
    let run := exec (.matrixStationaryTile core) s
    let waits := n.mx.reading = true ∨ n.mx.leaving (nextPartial n c) = true ∨ heldByOther n c.group 1 = true
    let full := n.mx.shadowFull = true ∨ (c.init ≠ 0 ∧ c.noswap = false ∧ c.ksteps ≤ n.mx.blocks)
    (∀ a b, tileStop pMxS t = some (a, b) → run = .next (stop a b)) ∧
    (tileStop pMxS t = none → isPartial n c = true → waits → run = .next s) ∧
    (tileStop pMxS t = none → isPartial n c = true → ¬ waits → partialOk n c t = false → run = .next (stop 0x10 0x21)) ∧
    (tileStop pMxS t = none → isPartial n c = true → ¬ waits → partialOk n c t = true →
      run = .next (stationTook (setNc s core (takePartial n c t)) core pMxS st t)) ∧
    (tileStop pMxS t = none → isPartial n c = false → full → run = .next s) ∧
    (tileStop pMxS t = none → isPartial n c = false → ¬ full → t.scaled = true → t.axis = false → run = .next (stop 0x10 0x22)) ∧
    (tileStop pMxS t = none → isPartial n c = false → ¬ full → (t.scaled = true → t.axis = true) →
      let f := flush32 t
      let bank := if n.mx.bankSel = 0 then { n.mx with bank1 := some f.1, flush1 := f.2 } else { n.mx with bank0 := some f.1, flush0 := f.2 }
      run = .next (stationTook (setNc s core { n with mx := { bank with shadowFull := true, blocks := n.mx.blocks + 1 }.doSwaps }) core pMxS st t))) ∧
  (∀ (s : State) (core : Nat) (imm : Half) (x : Bool) (st : Stream) (t : Tile), s.Inv → mxFree s core = true →
    (nc s core).mx.cfg = some (imm, x) → peekTile (nc s core) pMxA = some (st, t) →
    let c := mxCfg imm x
    let run := exec (.matrixActivationTile core) s
    (∀ a b, tileStop pMxA t = some (a, b) → run = .next (consumeFault s core 2 st (st.took pMxA) a b)) ∧
    (tileStop pMxA t = none → beforeActivation (nc s core) c = none → run = .next s) ∧
    (∀ n, tileStop pMxA t = none → beforeActivation (nc s core) c = some n →
      let bad := activationFault n c (if n.mx.opened then accOf n (c.acc + n.mx.rot) else acc0) t
      (∀ sub, bad = some sub → run = .next (consumeFault s core 2 st (st.took pMxA) 0x10 sub)) ∧
      (bad = none → run = .next (stationTook (setNc (addDiv (spend s 1) (R.NCO_ENGINE_BUSY (halfOf s core) (dieCore s core)) 0 32 64 (mxaAclk n t s.free))
        core (activate n c t)) core pMxA st t)))) ∧
  (∀ (n : NCore) (c : MxCfg) (t w : Tile), n.mx.active = some w →
    (accOf (activate n c t) (c.acc + n.mx.rot)).els = multiply (accOf (mxOpen n c) (c.acc + n.mx.rot)) (flush32 t).1 w) ∧
  (∀ (a : Acc) (t w : Tile) (i j : Nat), swf (fun _ => accEl0) a.els = true → i < t.rows → j < w.cols → w.cols ≤ 64 →
    sget accEl0 (multiply a t w) (i * 64 + j) =
      (List.range t.cols).foldl (fun el k => el.prod (t.val i k) (w.val k j) (t.scaleExp i k + w.scaleExp k j)) (sget accEl0 a.els (i * 64 + j))) ∧
  (∀ (s : State) (core bad : Nat) (imm : Half) (x : Bool), s.Inv → stationsRun s core = true → (nc s core).mx.cfg = some (imm, x) →
    let n := nc s core
    let c := mxCfg imm x
    let r := readAccs s (th s core).ctx c n bad c.group
    let outs := n.mx.out ++ markLast n.mx.lastRead r.2
    let run := exec (.matrixReadout ⟨core, bad⟩) s
    (n.mx.reading = false → run = .next (setNc s core (mxLeave n c))) ∧
    (n.mx.reading = true → ∃ u, run = .next u ∧ u.mem = s.mem ∧ u.threads = s.threads ∧ (nc u core).mx.opened = false ∧ (nc u core).mx.reading = false ∧
      (∀ i ∈ c.group, (accOf (nc u core) i).els = []) ∧
      (∃ k ≤ outs.length, (nc u core).mx.out = outs.drop k ∧ (nc u core).streams = ((outs.take k).foldl (fun m e => pushTile m pMxP e.2) n).streams) ∧
      (∀ i ∈ c.group, (nc u core).mx.leaving i = false → (accOf (nc u core) i).owner = 0)))

/-- R35, R119, R121, R126-R132: TRESTLE, with no class instruction waiting but for that tile's sweep, adds the products of a weight tile to the open sweep's accumulator and takes the tile; with LAST the sweep ends, and is read out where the settings say so. It waits for a readout, its accumulator or a register that REDUCE is to write; a full accumulator is read out first or overflows; a refused tile stops the context with its subcode. The readout of a sweep puts its tiles out as far as the stream has room, or its results into element registers, and frees the accumulator; a destination past the last register stops the context. -/
def Sys2Proof.Parts.TrestleStation : Prop :=
  (∀ (s : State) (core : Nat) (c : TrCfg) (st : Stream) (t : Tile), s.Inv → trFree s core = true →
    trNow (nc s core) = some c → peekTile (nc s core) pTr = some (st, t) →
    let n := nc s core
    let stop (a b : Nat) : State := consumeFault s core 3 st (st.took pTr) a b
    let run := exec (.trestleWeightTile core) s
    let waits := n.tr.reading = true ∨ heldByOther n [c.acc] 2 = true ∨ ∃ i < 32, c.sources i = true ∧ rdWrites n i = true
    (waits → run = .next s) ∧
    (∀ a b, ¬ waits → tileStop pTr t = some (a, b) → run = .next (stop a b)) ∧
    (¬ waits → tileStop pTr t = none → sweepFull n c = true → c.read = true →
      run = .next (setNc s core { n with tr := { n.tr with sweep := false, reading := true, cap := true } })) ∧
    (¬ waits → tileStop pTr t = none → sweepFull n c = true → c.read = false → run = .next (stop 0x10 0x23)) ∧
    (∀ sub, ¬ waits → tileStop pTr t = none → sweepFull n c = false → weightFault n c t = some sub → run = .next (stop 0x10 sub)) ∧
    (¬ waits → tileStop pTr t = none → sweepFull n c = false → weightFault n c t = none →
      run = .next (stationTook (setNc (addDiv (spend s 65537) (R.NCO_ENGINE_BUSY (halfOf s core) (dieCore s core)) 32 32 64 (trpAclk t (s.free + 65536)))
        core (trAdd n c st t (precision s) s.free)) core pTr st t))) ∧
  (∀ (n : NCore) (c : TrCfg) (st : Stream) (t : Tile) (pr : Bool) (ix : Nat),
    let m := trOpen n c
    let a := { accOf m c.acc with windowed := (accOf m c.acc).windowed || 2 < t.fmt || c.afmt == 3 || c.afmt == 4 }
    let u := trAdd n c st t pr ix
    u.acc = sset acc0 m.acc c.acc { a with els := sweepTile m c a t pr ix, rows := max a.rows (n.tr.rowBase + t.rows) } ∧
    (t.last = false → u.tr.sweep = true ∧ u.tr.tiles = n.tr.tiles + 1) ∧
    (t.last = true → c.read = true → u.tr.sweep = false ∧ u.tr.reading = true) ∧
    (t.last = true → c.read = false → u.tr.sweep = false ∧ u.tr.tiles = 0 ∧ u.tr.reading = n.tr.reading)) ∧
  (∀ (s : State) (core bad : Nat) (c : TrCfg), s.Inv → stationsRun s core = true → trNow (nc s core) = some c →
    let n := nc s core
    let a := { accOf n c.acc with poison := (accOf n c.acc).poison || bad.testBit c.acc }
    let ctx := (th s core).ctx
    let run := exec (.trestleReadout ⟨core, bad⟩) s
    (n.tr.reading = false → run = .next s) ∧
    (n.tr.reading = true → c.odest = true → 32 < c.d + c.v * c.ro a.rows → run = .next (streamFault s core 3 n.tr.lastSd 0x10 0x24 n.tr.lastIx)) ∧
    (n.tr.reading = true → c.odest = true → c.d + c.v * c.ro a.rows ≤ 32 →
      let rng := takeFor c.num ctx s
      let r := resultsToRegs n c a a.rows s.free rng.1
      let u := countNum (setNc (spend rng.2 65536) core (trDone r.1 c)) ctx (r.2.add ⟨0, 0, sweepNans a c a.rows⟩)
      run = .next (if a.poison then spoil u core c.d (c.v * c.ro a.rows) else u)) ∧
    (n.tr.reading = true → c.odest = false →
      let r := sweepTiles s ctx c a a.rows s.free 65 0
      let s1 := if n.tr.out = [] then countNum (spend r.1 65536) ctx ⟨0, 0, sweepNans a c a.rows⟩ else s
      let q := drain n pTr (if n.tr.out = [] then r.2 else n.tr.out)
      (q.2 = [] → run = .next (setNc s1 core (trDone q.1 c))) ∧
      (q.2 ≠ [] → run = .next (setNc s1 core { q.1 with tr := { q.1.tr with out := q.2 } }))))

/-- R35, R130, R136-R145, R152, R157, R158: ELEMENT, with no class instruction but a store waiting, takes an x tile, and the y tile and the linked result that its program reads, runs the program in force on every element and puts the z tile into its stream, its counts and its busy time added. It waits for a y tile, a linked result, room, or a register that is to be written, and stops at a tile that is refused, at an empty slot, at a y tile that does not pair and at a link that gives no such member, each with its subcode. -/
def Sys2Proof.Parts.ElementStation : Prop :=
  ∀ (s : State) (core : Nat) (st : Stream) (x : Tile), s.Inv → ewFree s core = true → peekTile (nc s core) pEwX = some (st, x) →
    let n := nc s core
    let stop (a b : Nat) : State := consumeFault s core 4 st (st.took pEwX) a b
    let run := exec (.elementTile core) s
    (∀ a b, tileStop pEwX x = some (a, b) → run = .next (stop a b)) ∧
    (tileStop pEwX x = none → sget none n.ew.slots n.ew.run.1 = none → run = .next (stop 0x10 0x28)) ∧
    (∀ p, tileStop pEwX x = none → sget none n.ew.slots n.ew.run.1 = some p →
      let y := if p.reads 2 then peekTile n pEwY else none
      let link := linkOf n st.q (st.took pEwX)
      let waits := (p.reads 2 = true ∧ y = none) ∨ (p.reads 7 = true ∧ st.to2.isSome = true ∧ link = none) ∨ hasRoom n pEwX = false ∨
        ∃ i ∈ p.eRegs, pendingWrites n i = true
      (waits → run = .next s) ∧
      (∀ sy ty a b, ¬ waits → y = some (sy, ty) → tileStop pEwY ty = some (a, b) → run = .next (consumeFault s core 4 sy (sy.took pEwY) a b)) ∧
      (¬ waits → (∀ v, y = some v → tileStop pEwY v.2 = none) →
        (∀ sub, elementFault n p st x (y.map (·.2)) = some sub → run = .next (stop 0x10 sub)) ∧
        (elementFault n p st x (y.map (·.2)) = none →
          let nctl := (numCtl n.ew.run.2).getD numCtl0
          let ctx := (th s core).ctx
          let r := runTile n p x (y.map (·.2)) ((link.bind (·.members)).getD []) ((link.map (·.row)).getD false) s.free
          let rng := takeFor nctl ctx (spend s 262144)
          let q := outTile p.ofmt p.oscaled nctl rng.1 x.rows x.cols 0 r.1
          let s1 := addDiv (countNum rng.2 ctx ⟨0, 0, r.2 + q.2.nan⟩) (R.NCO_EWBUSY (halfOf s core) (dieCore s core)) 0 32 64 (p.aclk (x.rows * x.cols))
          let s2 := stationTook s1 core pEwX st x
          let s3 := match y with | some v => stationTook s2 core pEwY v.1 v.2 | none => s2
          run = .next (setNc s3 core (pushTile { nc s3 core with rd := { (nc s3 core).rd with
            links := (nc s3 core).rd.links.filter (fun l => !(l.q == st.q && l.idx == st.took pEwX)) } } pEwX q.1)))))

/-- R35, R129, R132, R147-R153, R157, R158: REDUCE, with no class instruction waiting, puts its results out as far as the stream has room and takes a tile into the open operation's group; where the tile ends the group, its result goes out. It waits while a result cannot leave, four linked results are held, or an open sweep reads a register that the result goes to, and stops at a tile that is refused, that has no link to give, or of another shape than its group's, with its subcode. -/
def Sys2Proof.Parts.ReduceStation : Prop :=
  ∀ (s : State) (core bad : Nat) (c : RdCfg) (st : Stream) (t : Tile), s.Inv → rdFree s core = true →
    rdNow (nc s core) = some c → peekTile (drainRd (nc s core)) pRd = some (st, t) →
    let n := drainRd (nc s core)
    let s0 := setNc s core n
    let stop (a b : Nat) : State := consumeFault s0 core 5 st (st.took pRd) a b
    let run := exec (.reduceTile ⟨core, bad⟩) s
    let ends := c.ends n.rd t
    let waits := n.rd.out ≠ [] ∨ (c.link = true ∧ 4 ≤ linkCount n) ∨ (ends = true ∧ ∃ i < 32, c.dests i = true ∧ sweepReads n i = true)
    (waits → run = .next s0) ∧
    (∀ a b, ¬ waits → tileStop pRd t = some (a, b) → run = .next (stop a b)) ∧
    (∀ sub, ¬ waits → tileStop pRd t = none → reduceFault n c st t = some sub → run = .next (stop 0x10 sub)) ∧
    (¬ waits → tileStop pRd t = none → reduceFault n c st t = none →
      let s1 := setNc (addDiv (spend s0 8448) (R.NCO_EWBUSY (halfOf s core) (dieCore s core)) 32 32 64 (rduAclk c t)) core (rdAdd n c st t (bad.testBit c.acc) s.free)
      let s2 := stationTook (if ends then rdEmit s1 core c else s1) core pRd st t
      run = .next (setNc s2 core (drainRd (nc s2 core))))

/-- R162: SETVL and SETVLR set vtype, set vl to the lesser of xA and VLMAX and write it to xD; a reserved type is an illegal encoding; a thread starts with vl 0 and vtype FP64. -/
def Obligations.VectorLength : Prop :=
  ∀ (s : State) (t : Tid) (o : Opnds), s.Inv →
    let k := tkey t
    let n := th s k
    (Issues s t o 0x10 none (some ⟨64, 64, 0xF⟩) → o.imm.toNat ∈ [5, 6, 8, 9, 10] →
      exec (.setvl t o) s = .next (lvuRetire (retire (setTh s k (setX
        { n with vl := BitVec.ofNat 64 (min (xr n o.a.toNat).toNat (vlMax o.imm.toNat)), vtype := BitVec.ofNat 64 o.imm.toNat }
        o.d.toNat (BitVec.ofNat 64 (min (xr n o.a.toNat).toNat (vlMax o.imm.toNat))))) k) (coreOf k))) ∧
    (Issues s t o 0x10 none (some ⟨64, 64, 0xF⟩) → o.imm.toNat ∉ [5, 6, 8, 9, 10] → exec (.setvl t o) s = .next (insnFault s k 0x10 0x11 0x11 0)) ∧
    (Issues s t o 0x10 (some ⟨64, 64, 64, 0, 0⟩) none → (xr n o.b.toNat).toNat % 16 ∈ [5, 6, 8, 9, 10] →
      exec (.setvlr t o) s = .next (lvuRetire (retire (setTh s k (setX
        { n with vl := BitVec.ofNat 64 (min (xr n o.a.toNat).toNat (vlMax ((xr n o.b.toNat).toNat % 16))), vtype := BitVec.ofNat 64 ((xr n o.b.toNat).toNat % 16) }
        o.d.toNat (BitVec.ofNat 64 (min (xr n o.a.toNat).toNat (vlMax ((xr n o.b.toNat).toNat % 16)))))) k) (coreOf k))) ∧
    (Issues s t o 0x10 (some ⟨64, 64, 64, 0, 0⟩) none → (xr n o.b.toNat).toNat % 16 ∉ [5, 6, 8, 9, 10] →
      exec (.setvlr t o) s = .next (insnFault s k 0x10 0x11 0x11 0)) ∧
    (∀ r d, (th (startThread s r d k) k).vl = 0 ∧ (th (startThread s r d k) k).vtype = 6)

/-- R79, R102, R163, R165, R168: the floating-point vector operations write each active element's value, rounded once under the word's numeric control, keep the others, and count saturations, flushes and new NaNs. -/
def Sys2Proof.Parts.VectorFloat : Prop :=
  ∀ (c : Tid → Opnds → Instr) (useB useC : Bool) (mods occ : Nat) (f : Fp → Fp → Fp → Fp),
    ((c, useB, useC, mods, occ, f) = (Instr.vfadd, true, false, 0xFFF, 4, fun a b _ => fAdd a b) ∨
     (c, useB, useC, mods, occ, f) = (Instr.vfsub, true, false, 0xFFF, 4, fun a b _ => fAdd a b.neg) ∨
     (c, useB, useC, mods, occ, f) = (Instr.vfmul, true, false, 0xFFF, 4, fun a b _ => fMul a b) ∨
     (c, useB, useC, mods, occ, f) = (Instr.vfdiv, true, false, 0xFFF, 32, fun a b _ => fDiv a b) ∨
     (c, useB, useC, mods, occ, f) = (Instr.vfsqrt, false, false, 0xFDF, 32, fun a _ _ => fSqrt a) ∨
     (c, useB, useC, mods, occ, f) = (Instr.vfma, true, true, 0xFFF, 4, fun a b c => fAdd (fMul a b) c) ∨
     (c, useB, useC, mods, occ, f) = (Instr.vfmin, true, false, 0x3F, 4, fun a b _ => fMin a b) ∨
     (c, useB, useC, mods, occ, f) = (Instr.vfmax, true, false, 0x3F, 4, fun a b _ => fMax a b)) →
    ∀ (s : State) (t : Tid) (o : Opnds) (nctl : NumCtl), s.Inv →
      LvIssues s t o ⟨32, 32, if useB then 64 else 0, if useC then 32 else 0, mods⟩ [6, 5] true →
      numCtl (lvMod o).num = some nctl → (useB = true → o.b.toNat < 32) →
      let n := th s (tkey t)
      let vt := n.vtype.toNat
      let F := if vt = 6 then fmtFP64 else fmtFP32
      let el (r i : Nat) : Fp := unpack F (velem (vreg n r) (tyBits vt) i)
      let b (i : Nat) : Fp := unpack F (lvB n o vt i)
      let v (i : Nat) : Fp := f (el o.a.toNat i) (b i) (el o.c.toNat i)
      let took := takeFor nctl n.ctx s
      let res (i : Nat) : Nat × Cnt := toFmt F (modeFor nctl took.1 i) nctl.nosat (v i)
      let ops (i : Nat) : List Fp := if useC then [el o.a.toNat i, b i, el o.c.toNat i] else if useB then [el o.a.toNat i, b i] else [el o.a.toNat i]
      ∃ w, Elements n o w (fun i => (res i).1) ∧
        exec (c t o) s = .next (lvCounted took.2 (tkey t) n (.pipe occ) (setV n o.d.toNat w) (countActive n o (fun i => (res i).2.add ⟨0, 0, newNan (v i) (ops i)⟩)))

/-- R163, R165, R166: a vector compare sets bit i of pD where element i is active and the relation holds, and clears every other bit; nstat has no counts. -/
def Sys2Proof.Parts.VectorCompares : Prop :=
  ∀ (c : Tid → Opnds → Instr) (types : List Nat) (rel : Nat → Nat → Nat → Bool),
    ((c, types, rel) = (Instr.vfcmpeq, [6, 5], fun vt a b => fEq (lvVal vt a) (lvVal vt b)) ∨
     (c, types, rel) = (Instr.vfcmplt, [6, 5], fun vt a b => fLt (lvVal vt a) (lvVal vt b)) ∨
     (c, types, rel) = (Instr.vfcmple, [6, 5], fun vt a b => fLt (lvVal vt a) (lvVal vt b) || fEq (lvVal vt a) (lvVal vt b)) ∨
     (c, types, rel) = (Instr.vcmpeq, [10, 9, 8], fun _ a b => a == b) ∨
     (c, types, rel) = (Instr.vcmplt, [10, 9, 8], fun vt a b => decide (sext (tyBits vt) a < sext (tyBits vt) b))) →
    ∀ (s : State) (t : Tid) (o : Opnds), s.Inv → LvIssues s t o ⟨16, 32, 64, 0, 0x3F⟩ types true → lvBOk o (th s (tkey t)) = true →
      let n := th s (tkey t)
      let vt := n.vtype.toNat
      ∃ p : BitVec 512,
        (∀ i < 512, p.getLsbD i = (lvActive n (lvMod o) i && rel vt (velem (vreg n o.a.toNat) (tyBits vt) i) (lvB n o vt i))) ∧
        exec (c t o) s = .next (lvCounted s (tkey t) n (.pipe 4) (setP true n o.d.toNat p) ⟨0, 0, 0⟩)

/-- R163, R165, R166, R172: the integer and fixed-point vector operations write each active element's result in its width, wrapped or saturated, and keep the others; a saturation counts. -/
def Sys2Proof.Parts.VectorInteger : Prop :=
  ∀ (c : Tid → Opnds → Instr) (mods : Nat) (f : Nat → Nat → Int → Int → Nat → Int × Bool),
    ((c, mods, f) = (Instr.vadd, 0x3F, fun _ _ a b _ => (a + b, false)) ∨
     (c, mods, f) = (Instr.vsub, 0x3F, fun _ _ a b _ => (a - b, false)) ∨
     (c, mods, f) = (Instr.vsadd, 0x3F, fun _ _ a b _ => (a + b, true)) ∨
     (c, mods, f) = (Instr.vssub, 0x3F, fun _ _ a b _ => (a - b, true)) ∨
     (c, mods, f) = (Instr.vaadd, 0x303F, fun _ fx a b _ => (fxRound fx (a + b) 1, false)) ∨
     (c, mods, f) = (Instr.vmul, 0x3F, fun _ _ a b _ => (a * b, false)) ∨
     (c, mods, f) = (Instr.vmulh, 0x303F, fun w fx a b _ => (fxRound fx (a * b) w, false)) ∨
     (c, mods, f) = (Instr.vmulhq, 0x303F, fun w fx a b _ => (fxRound fx (a * b) (w - 1), true)) ∨
     (c, mods, f) = (Instr.vmin, 0x3F, fun _ _ a b _ => (min a b, false)) ∨
     (c, mods, f) = (Instr.vmax, 0x3F, fun _ _ a b _ => (max a b, false)) ∨
     (c, mods, f) = (Instr.vshl, 0x3F, fun _ _ a _ sh => (a * 2 ^ sh, false)) ∨
     (c, mods, f) = (Instr.vsra, 0x303F, fun _ fx a _ sh => (fxRound fx a sh, false))) →
    ∀ (s : State) (t : Tid) (o : Opnds), s.Inv → LvIssues s t o ⟨32, 32, 64, 0, mods⟩ [10, 9, 8] true →
      lvBOk o (th s (tkey t)) = true → (lvMod o).fx ≠ 3 →
      let n := th s (tkey t)
      let bits := tyBits n.vtype.toNat
      let r (i : Nat) : Int × Bool := f bits (lvMod o).fx (sext bits (velem (vreg n o.a.toNat) bits i)) (sext bits (lvB n o n.vtype.toNat i)) (lvShift n o n.vtype.toNat i)
      let sat (i : Nat) : Bool := (r i).2 && !(decide (-(2 ^ (bits - 1) : Int) ≤ (r i).1) && decide ((r i).1 < 2 ^ (bits - 1)))
      let val (i : Nat) : Int := if sat i then (if (r i).1 < 0 then -(2 ^ (bits - 1) : Int) else 2 ^ (bits - 1) - 1) else (r i).1
      ∃ w, Elements n o w (fun i => (val i % 2 ^ bits).toNat) ∧
        exec (c t o) s = .next (lvCounted s (tkey t) n (.pipe 4) (setV n o.d.toNat w) (countActive n o (fun i => ⟨if sat i then 1 else 0, 0, 0⟩)))

/-- R163, R165, R166: VAND, VOR and VXOR work on the bits of the active elements; VMOV moves bit patterns or a broadcast scalar, VIOTA writes element indices. -/
def Sys2Proof.Parts.VectorBitsAndMoves : Prop :=
  (∀ (c : Tid → Opnds → Instr) (f : Nat → Nat → Nat),
    ((c, f) = (Instr.vand, Nat.land) ∨ (c, f) = (Instr.vor, Nat.lor) ∨ (c, f) = (Instr.vxor, Nat.xor)) →
    ∀ (s : State) (t : Tid) (o : Opnds), s.Inv → LvIssues s t o ⟨32, 32, 64, 0, 0x3F⟩ [10, 9, 8] true → lvBOk o (th s (tkey t)) = true →
      let n := th s (tkey t)
      ∃ w, Elements n o w (fun i => f (velem (vreg n o.a.toNat) (tyBits n.vtype.toNat) i) (lvB n o n.vtype.toNat i)) ∧
        exec (c t o) s = .next (lvCounted s (tkey t) n (.pipe 4) (setV n o.d.toNat w) ⟨0, 0, 0⟩)) ∧
  (∀ (s : State) (t : Tid) (o : Opnds), s.Inv →
    let n := th s (tkey t)
    ((lvMod o).sb = true → LvIssues s t o ⟨32, 0, 64, 0, 0x3F⟩ [6, 5, 10, 9, 8] true → lvBOk o n = true →
      ∃ w, Elements n o w (fun _ => lvScalar n o n.vtype.toNat) ∧ exec (.vmov t o) s = .next (lvDone s (tkey t) n (.pipe 4) (setV n o.d.toNat w))) ∧
    ((lvMod o).sb = false → LvIssues s t o ⟨32, 32, 0, 0, 0x3F⟩ [6, 5, 10, 9, 8] true →
      ∃ w, Elements n o w (fun i => velem (vreg n o.a.toNat) (tyBits n.vtype.toNat) i) ∧
        exec (.vmov t o) s = .next (lvDone s (tkey t) n (.pipe 4) (setV n o.d.toNat w))) ∧
    (LvIssues s t o ⟨32, 0, 0, 0, 0x1F⟩ [10] true →
      ∃ w, Elements n o w (fun i => i) ∧ exec (.viota t o) s = .next (lvDone s (tkey t) n (.pipe 4) (setV n o.d.toNat w))))

/-- R167, R168, R172: VCVT and VNSHR write vl results of the target type packed in index order from vD, keeping what inactive elements held, and count; a type that is no element type, or for VNSHR not a narrower integer, faults with the type's subcode, and a VCVT whose results pass v31 is an illegal encoding. -/
def Sys2Proof.Parts.VectorConversions : Prop :=
  (∀ (s : State) (t : Tid) (o : Opnds) (nctl : NumCtl), s.Inv → LvIssues s t o ⟨32, 32, 0, 0, 0xF0FDF⟩ [6, 5, 10, 9, 8] true →
    numCtl (lvMod o).num = some nctl →
    let n := th s (tkey t)
    let took := takeFor nctl n.ctx s
    let r (i : Nat) : Nat × Cnt := lvConv n.vtype.toNat (lvMod o).tt (modeFor nctl took.1 i) nctl.nosat (velem (vreg n o.a.toNat) (tyBits n.vtype.toNat) i)
    ((lvMod o).tt ∈ [6, 5, 10, 9, 8] → o.d.toNat + lvRegs n (lvMod o).tt ≤ 32 →
      exec (.vcvt t o) s = .next (lvCounted took.2 (tkey t) n (.perReg (lvMod o).tt) (lvPack n o (lvMod o).tt (fun i => (r i).1)) (countActive n o (fun i => (r i).2)))) ∧
    ((lvMod o).tt ∈ [6, 5, 10, 9, 8] → 32 < o.d.toNat + lvRegs n (lvMod o).tt → exec (.vcvt t o) s = .next (insnFault s (tkey t) 0x10 0x11 0x11 0)) ∧
    ((lvMod o).tt ∉ [6, 5, 10, 9, 8] → exec (.vcvt t o) s = .next (insnFault s (tkey t) 0x10 0x11 0x30 0))) ∧
  (∀ (s : State) (t : Tid) (o : Opnds), s.Inv → LvIssues s t o ⟨32, 32, 64, 0, 0xF303F⟩ [9, 10] true → lvBOk o (th s (tkey t)) = true → (lvMod o).fx ≠ 3 →
    let n := th s (tkey t)
    let bits := tyBits n.vtype.toNat
    let r (i : Nat) : Nat × Nat := satTo (tyBits (lvMod o).tt) (fxRound (lvMod o).fx (sext bits (velem (vreg n o.a.toNat) bits i)) (lvShift n o n.vtype.toNat i))
    ((lvMod o).tt ∈ [10, 9, 8] → tyBits (lvMod o).tt < bits →
      exec (.vnshr t o) s = .next (lvCounted s (tkey t) n (.pipe 4) (lvPack n o (lvMod o).tt (fun i => (r i).1)) ⟨((lvActs n (lvMod o)).map (fun i => (r i).2)).sum, 0, 0⟩)) ∧
    (((lvMod o).tt ∉ [10, 9, 8] ∨ bits ≤ tyBits (lvMod o).tt) → exec (.vnshr t o) s = .next (insnFault s (tkey t) 0x10 0x11 0x30 0)))

/-- R170, R171: VDOT adds the products of the active elements to the exact sum that vD stands for, VACCADD merges two sums, and the register's image stands for the new sum from then on; where a register stands for no sum, neither does the image. VDOTR reads a sum into fD with one rounding (within the free amount of log 8), and any binary64 value where the register stands for none. -/
def Sys2Proof.Parts.VectorDots : Prop :=
  (∀ (s : State) (el : Option AccEl), s.dots.length < 2 ^ 64 → dotOf (dotImage s el).2 (dotImage s el).1 = el ∧ (dotImage s el).1 ≠ 0 ∧
    ∀ v, v = 0 ∨ s.dots.any (fun d => d.1 == v) = true → v ≠ (dotImage s el).1 ∧ dotOf (dotImage s el).2 v = dotOf s v) ∧
  (∀ (s : State) (t : Tid) (o : Opnds), s.Inv → LvIssues s t o ⟨32, 32, 64, 0, 0x3F⟩ [6, 5] true → lvBOk o (th s (tkey t)) = true →
    let n := th s (tkey t)
    let vt := n.vtype.toNat
    let sum := (dotOf s (vreg n o.d.toNat)).map (fun el => (lvActs n (lvMod o)).foldl (fun el i =>
      el.prod (lvVal vt (velem (vreg n o.a.toNat) (tyBits vt) i)) (lvVal vt (lvB n o vt i)) 0) el)
    exec (.vdot t o) s = .next (lvCounted (dotImage s sum).2 (tkey t) n (.pipe 4) (setV n o.d.toNat (dotImage s sum).1) ⟨0, 0, 0⟩)) ∧
  (∀ (s : State) (t : Tid) (o : Opnds), s.Inv → LvIssues s t o ⟨32, 32, 0, 0, 0⟩ [6, 5, 10, 9, 8] true →
    let n := th s (tkey t)
    let sum := match dotOf s (vreg n o.d.toNat), dotOf s (vreg n o.a.toNat) with | some a, some b => some (a.merge b) | _, _ => none
    exec (.vaccadd t o) s = .next (lvCounted (dotImage s sum).2 (tkey t) n (.pipe 4) (setV n o.d.toNat (dotImage s sum).1) ⟨0, 0, 0⟩)) ∧
  (∀ (s : State) (t : Tid) (o : Opnds), s.Inv → LvIssues s t o ⟨32, 32, 0, 0, 0⟩ [6, 5, 10, 9, 8] true →
    let n := th s (tkey t)
    (∀ el, dotOf s (vreg n o.a.toNat) = some el →
      exec (.vdotr t o) s = .next (lvCounted (drawBits 64 s).2 (tkey t) n (.pipe 4) (setF n o.d.toNat (to64 (dotRound el s.free))) ⟨0, 0, el.newNan⟩)) ∧
    (dotOf s (vreg n o.a.toNat) = none →
      exec (.vdotr t o) s = .next (lvCounted (drawBits 64 s).2 (tkey t) n (.pipe 4) (setF n o.d.toNat (drawBits 64 s).1) ⟨0, 0, 0⟩)))

/-- R149, R166, R171: VREDSUM, VREDMAX and VREDMIN reduce the active elements into fD for floating-point types and, sign-extended, into xD for integer types; VPCNT counts the set bits of pA below vl and VPFIRST finds the first, all ones where there is none. -/
def Sys2Proof.Parts.VectorReductions : Prop :=
  (∀ (c : Tid → Opnds → Instr) (int : Nat → List Int → Int),
    ((c, int) = (Instr.vredsum, fun _ vs => vs.sum) ∨ (c, int) = (Instr.vredmax, fun w vs => vs.foldl max (-(2 ^ (w - 1) : Int))) ∨
     (c, int) = (Instr.vredmin, fun w vs => vs.foldl min (2 ^ (w - 1) - 1 : Int))) →
    ∀ (s : State) (t : Tid) (o : Opnds), s.Inv → LvIssues s t o ⟨64, 32, 0, 0, 0x1F⟩ [10, 9, 8] true →
      let n := th s (tkey t)
      let bits := tyBits n.vtype.toNat
      exec (c t o) s = .next (lvCounted s (tkey t) n (.pipe 4) (setX n o.d.toNat (BitVec.ofInt 64 (int bits
        ((lvActs n (lvMod o)).map (fun i => sext bits (velem (vreg n o.a.toNat) bits i)))))) ⟨0, 0, 0⟩)) ∧
  (∀ (c : Tid → Opnds → Instr) (fp : List Fp → Nat → Fp × Nat),
    ((c, fp) = (Instr.vredsum, fun vs ix => let el := vs.foldl AccEl.addTerm accEl0; (dotRound el ix, el.newNan)) ∨
     (c, fp) = (Instr.vredmax, fun vs _ => (vs.foldl fMax .nan, 0)) ∨ (c, fp) = (Instr.vredmin, fun vs _ => (vs.foldl fMin .nan, 0))) →
    ∀ (s : State) (t : Tid) (o : Opnds), s.Inv → LvIssues s t o ⟨64, 32, 0, 0, 0x1F⟩ [6, 5] true → o.d.toNat < 32 →
      let n := th s (tkey t)
      let r := fp ((lvActs n (lvMod o)).map (fun i => lvVal n.vtype.toNat (velem (vreg n o.a.toNat) (tyBits n.vtype.toNat) i))) s.free
      exec (c t o) s = .next (lvCounted (spend s 1) (tkey t) n (.pipe 4) (setF n o.d.toNat (to64 r.1)) ⟨0, 0, r.2⟩)) ∧
  (∀ (s : State) (t : Tid) (o : Opnds), s.Inv → LvIssues s t o ⟨64, 16, 0, 0, 0⟩ [6, 5, 10, 9, 8] false →
    let n := th s (tkey t)
    let set := (List.range n.vl.toNat).filter (fun i => (pr n o.a.toNat).getLsbD i)
    exec (.vpcnt t o) s = .next (lvDone s (tkey t) n .scalar (setX n o.d.toNat (BitVec.ofNat 64 set.length))) ∧
    exec (.vpfirst t o) s = .next (lvDone s (tkey t) n .scalar (setX n o.d.toNat (match set.head? with | some i => BitVec.ofNat 64 i | none => BitVec.allOnes 64))))

/-- R163, R166, R173-R175, R179: a vector load reads the fields of each active element from the restart index on, in order, at the addresses of its form, into the registers from vD, and charges the memory port. Where an element faults, the elements before it are loaded and the fault names the element; a first-fault form instead ends with vl at that element, unless it is the first active one. Where an element waits, nothing is done and the instruction stays at its pc. -/
def Sys2Proof.Parts.VectorLoads : Prop :=
  ∀ (c : Tid → Opnds → Instr) (shape : RShape) (ff : Bool) (legal : Opnds → Thread → Prop) (addrs : Opnds → Thread → Nat → List Nat) (unit : Opnds → LvUnit),
    ((c, shape, ff, legal, addrs, unit) = (Instr.vld, ⟨32, 64, 0, 0, 0x1F⟩, false, fun _ _ => True, unitAddr, fun _ => .port 4) ∨
     (c, shape, ff, legal, addrs, unit) = (Instr.vldff, ⟨32, 64, 0, 0, 0x1F⟩, true, fun _ _ => True, unitAddr, fun _ => .port 4) ∨
     (c, shape, ff, legal, addrs, unit) = (Instr.vlds, ⟨32, 64, 64, 0, 0x1F⟩, false, fun _ _ => True, strideAddr, fun _ => .perEight) ∨
     (c, shape, ff, legal, addrs, unit) = (Instr.vldx, ⟨32, 64, 32, 0, 0x1F⟩, false, fun o n => indexOk o n = true ∧ indexApart o n = true, indexAddr, fun _ => .perEight) ∨
     (c, shape, ff, legal, addrs, unit) = (Instr.vldxff, ⟨32, 64, 32, 0, 0x1F⟩, true, fun o n => indexOk o n = true ∧ indexApart o n = true, indexAddr, fun _ => .perEight) ∨
     (c, shape, ff, legal, addrs, unit) = (Instr.vldseg, ⟨32, 64, 0, 0, 0xC01F⟩, false, fun o _ => (lvMod o).nf ≠ 0 ∧ o.d.toNat + (lvMod o).nf < 32, segAddr, fun o => .port (4 * ((lvMod o).nf + 1)))) →
    ∀ (s : State) (t : Tid) (o : Opnds) (s1 : State) (got : List (Nat × List Nat)) (fin : LvEnd), s.Inv →
      LvIssues s t o shape [6, 5, 10, 9, 8] true → legal o (th s (tkey t)) →
      let k := tkey t
      let n := th s k
      let bits := tyBits n.vtype.toNat
      lvLoadRun s (srcTh s k) (bits / 8) (addrs o n) ((lvActs n (lvMod o)).filter (fun i => n.restart ≤ i)) = (s1, got, fin) →
      let loaded := lvPutLoaded n o.d.toNat (lvMod o).nf bits got
      (fin = .all → exec (c t o) s = .next (lvDone s1 k n (unit o) loaded)) ∧
      (∀ e i, fin = .err e i → (ff = false ∨ (lvActs n (lvMod o)).head? = some i) →
        exec (c t o) s = .next (insnFault (setTh s1 k loaded) k 0x10 (accCode e).1 (accCode e).2 i)) ∧
      (∀ e i, fin = .err e i → ff = true → (lvActs n (lvMod o)).head? ≠ some i →
        exec (c t o) s = .next (lvDone s1 k n (unit o) { loaded with vl := BitVec.ofNat 64 i })) ∧
      (fin = .wait → exec (c t o) s = .next s) ∧
      (∀ f ≤ (lvMod o).nf, ∀ i < vlMax n.vtype.toNat, o.d.toNat + f < 32 →
        velem (vreg loaded (o.d.toNat + f)) bits i =
          match got.find? (fun g => g.1 == i) with | some g => nth g.2 f % 2 ^ bits | none => velem (vreg n (o.d.toNat + f)) bits i)

/-- R163, R166, R173, R174, R179: a vector store writes the fields of each active element from the restart index on, in order, from the registers from vD to the addresses of its form, and charges the memory port; where an element faults, the elements before it are stored and the fault names it; where one waits, nothing is done and the instruction stays at its pc. A store of one element leaves its bytes at the address, least significant first, and every other byte, register of register space and thread as they were. -/
def Sys2Proof.Parts.VectorStores : Prop :=
  ∀ (c : Tid → Opnds → Instr) (shape : RShape) (legal : Opnds → Thread → Prop) (addrs : Opnds → Thread → Nat → List Nat) (unit : Opnds → LvUnit),
    ((c, shape, legal, addrs, unit) = (Instr.vst, ⟨32, 64, 0, 0, 0x1F⟩, fun _ _ => True, unitAddr, fun _ => .port 4) ∨
     (c, shape, legal, addrs, unit) = (Instr.vsts, ⟨32, 64, 64, 0, 0x1F⟩, fun _ _ => True, strideAddr, fun _ => .perEight) ∨
     (c, shape, legal, addrs, unit) = (Instr.vstx, ⟨32, 64, 32, 0, 0x1F⟩, fun o n => indexOk o n = true, indexAddr, fun _ => .perEight) ∨
     (c, shape, legal, addrs, unit) = (Instr.vstseg, ⟨32, 64, 0, 0, 0xC01F⟩, fun o _ => (lvMod o).nf ≠ 0 ∧ o.d.toNat + (lvMod o).nf < 32, segAddr, fun o => .port (4 * ((lvMod o).nf + 1)))) →
    ∀ (s : State) (t : Tid) (o : Opnds) (s1 : State) (fin : LvEnd), s.Inv →
      LvIssues s t o shape [6, 5, 10, 9, 8] true → legal o (th s (tkey t)) →
      let k := tkey t
      let n := th s k
      let bits := tyBits n.vtype.toNat
      let acts := (lvActs n (lvMod o)).filter (fun i => n.restart ≤ i)
      let codes (i : Nat) : List Nat := (List.range ((lvMod o).nf + 1)).map (fun f => velem (vreg n (o.d.toNat + f)) bits i)
      lvStoreRun s (srcTh s k) (bits / 8) (addrs o n) codes acts = (s1, fin) →
      (fin = .all → exec (c t o) s = .next (lvDone s1 k n (unit o) n)) ∧
      (∀ e i, fin = .err e i → exec (c t o) s = .next (insnFault s1 k 0x10 (accCode e).1 (accCode e).2 i)) ∧
      (fin = .wait → exec (c t o) s = .next s) ∧
      (∀ i a s2 pa, acts = [i] → (lvMod o).nf = 0 → addrs o n i = [a] → a % (bits / 8) = 0 → vaCheck s n.ctx a (bits / 8) .write = (s2, .ok pa) →
        fin = .all ∧ (∀ j < bits / 8, memByte s1 (pa + j) = BitVec.ofNat 8 (velem (vreg n o.d.toNat) bits i / 2 ^ (8 * j))) ∧
        (∀ b, b < pa ∨ pa + bits / 8 ≤ b → memByte s1 b = memByte s b) ∧ s1.regs = s.regs ∧ s1.threads = s.threads)

/-- R163, R166, R177, R178, R180, R181: VRGATHER on a unit that is up reads each line its active elements touch once, in the order of their lowest element, and its thread waits for them. -/
def Sys2Proof.Parts.VectorGather : Prop :=
  ∀ (s : State) (t : Tid) (o : Opnds), s.Inv → LvIssues s t o ⟨32, 64, 32, 0, 0x1F⟩ [6, 5, 10, 9, 8] true →
    let k := tkey t
    let n := th s k
    let bits := tyBits n.vtype.toNat
    indexOk o n = true → indexApart o n = true →
    let acts := (lvActs n (lvMod o)).filter (fun i => n.restart ≤ i)
    let els := acts.map (fun i => (i, (indexAddr o n i).headD 0))
    let lines := ((els.filter (fun e => e.2 % (bits / 8) == 0)).map (fun e => e.2 / 64 * 64)).eraseDups
    let bad := (els.filter (fun e => e.2 % (bits / 8) ≠ 0)).map (fun e => (e.2, GotLine.fail 0x10 0x15))
    exec (.vrgather t o) s = .next (gatherStep k 600 (setTh { s with gathers := sset none s.gathers k (some ⟨o.d.toNat, bits, els, lines, bad⟩) } k { n with phase := .gather }))

/-- R166, R179-R181: the end of a wake, 1.2 us after it began and no sooner, clears DOWN and lets the stalled threads go on; a unit that is up, with NOPD 0, powers down when its idle time has passed, and not before; a write of SCO_LVU_PWR takes IDLE and NOPD, and NOPD 1 stops the idle timer. The first instruction to reach a unit that is down counts a wake; those that come during it only wait. -/
def Sys2Proof.Parts.LvuPower : Prop :=
  (∀ (s : State) (k : Nat), s.Inv →
    let c := coreOf k
    let u := lvuStartWake s k
    (s.lvuWaking.any (fun w => w.1 == c) = true → u = setTh s k { th s k with phase := .wake }) ∧
    (s.lvuWaking.any (fun w => w.1 == c) = false → th u k = { th s k with phase := .wake } ∧ u.lvuWaking = s.lvuWaking ++ [(c, s.ltc.toNat)] ∧
      rdf u (R.SCO_LVU_PWR (c / 96) (c % 96)) 32 32 = (rdf s (R.SCO_LVU_PWR (c / 96) (c % 96)) 32 32 + 1) % 2 ^ 32 ∧ u.mem = s.mem)) ∧
  (∀ (s : State) (core : Nat) (w : Nat × Nat), s.Inv → s.lvuWaking.find? (fun x => x.1 == core) = some w → core < 192 →
    (s.ltc.toNat < w.2 + 1200 → exec (.lvuWakeDone core) s = .next s) ∧
    (w.2 + 1200 ≤ s.ltc.toNat →
      ∃ u, exec (.lvuWakeDone core) s = .next u ∧ (∀ x ∈ u.lvuWaking, x.1 ≠ core) ∧ rdf u (R.SCO_LVU_PWR (core / 96) (core % 96)) 17 1 = 0 ∧
        (∀ j < 8, (th s (128 + 8 * core + j)).phase = .wake → th u (128 + 8 * core + j) = { th s (128 + 8 * core + j) with phase := .run }) ∧ u.mem = s.mem)) ∧
  (∀ (s : State) (core dl : Nat), s.Inv → core < 192 → sget (some 32000) s.lvuIdle core = some dl →
    (dl ≤ s.ltc.toNat → rdf s (R.SCO_LVU_PWR (core / 96) (core % 96)) 16 2 = 0 →
      exec (.lvuPowerDown core) s = .next (wrf s (R.SCO_LVU_PWR (core / 96) (core % 96)) 17 1 1)) ∧
    (s.ltc.toNat < dl ∨ rdf s (R.SCO_LVU_PWR (core / 96) (core % 96)) 16 2 ≠ 0 → exec (.lvuPowerDown core) s = .next s)) ∧
  (∀ (s : State) (core : Nat) (v : Word), s.Inv → core < 192 →
    exec (.scoLvuPwrWrite core v) s = .next { wrf s (R.SCO_LVU_PWR (core / 96) (core % 96)) 0 17 (v.toNat % 2 ^ 17) with
      lvuIdle := if v.getLsbD 16 then sset (some 32000) s.lvuIdle core none else s.lvuIdle })

/-- R57, R58, R61, R80, R163-R168, R180: every long-vector instruction checks its word before its guard, then its register ranges and its element type, retires without effect at vl zero, and wakes a unit that is down before it uses its pipes or its memory port. -/
def Sys2Proof.Parts.VectorChecks : Prop :=
  (∀ (c : Tid → Opnds → Instr) (b cr mods : Nat), (c, b, cr, mods) ∈ [(Instr.vfadd, 64, 0, 0xFFF), (.vfsub, 64, 0, 0xFFF), (.vfmul, 64, 0, 0xFFF), (.vfdiv, 64, 0, 0xFFF),
      (.vfma, 64, 32, 0xFFF), (.vfmin, 64, 0, 0x3F), (.vfmax, 64, 0, 0x3F)] →
    LvChecks c (fun _ => ⟨32, 32, b, cr, mods⟩) lvFps true true (fun o => lvCtlOk o && lvBWord o) lvBOk) ∧
  LvChecks .vfsqrt (fun _ => ⟨32, 32, 0, 0, 0xFDF⟩) lvFps true true lvCtlOk (fun _ _ => true) ∧
  (∀ (c : Tid → Opnds → Instr) (types : List Nat), (c, types) ∈ [(Instr.vfcmpeq, lvFps), (.vfcmplt, lvFps), (.vfcmple, lvFps), (.vcmpeq, lvInts), (.vcmplt, lvInts)] →
    LvChecks c (fun _ => ⟨16, 32, 64, 0, 0x3F⟩) types true true lvBWord lvBOk) ∧
  (∀ (c : Tid → Opnds → Instr) (mods : Nat), (c, mods) ∈ [(Instr.vadd, 0x3F), (.vsub, 0x3F), (.vsadd, 0x3F), (.vssub, 0x3F), (.vaadd, 0x303F), (.vmul, 0x3F), (.vmulh, 0x303F),
      (.vmulhq, 0x303F), (.vmin, 0x3F), (.vmax, 0x3F), (.vand, 0x3F), (.vor, 0x3F), (.vxor, 0x3F), (.vshl, 0x3F), (.vsra, 0x303F)] →
    LvChecks c (fun _ => ⟨32, 32, 64, 0, mods⟩) lvInts true true (fun o => lvCtlOk o && lvBWord o) lvBOk) ∧
  LvChecks .vcvt (fun _ => ⟨32, 32, 0, 0, 0xF0FDF⟩) lvTypes true true lvCtlOk (fun o n => !lvTypes.contains (lvMod o).tt || o.d.toNat + lvRegs n (lvMod o).tt ≤ 32) ∧
  LvChecks .vnshr (fun _ => ⟨32, 32, 64, 0, 0xF303F⟩) [9, 10] true true (fun o => lvCtlOk o && lvBWord o) lvBOk ∧
  LvChecks .vdot (fun _ => ⟨32, 32, 64, 0, 0x3F⟩) lvFps true true lvBWord lvBOk ∧
  (∀ c ∈ [Instr.vaccadd, .vdotr], LvChecks c (fun _ => ⟨32, 32, 0, 0, 0⟩) lvTypes true true (fun _ => true) (fun _ _ => true)) ∧
  (∀ c ∈ [Instr.vredsum, .vredmax, .vredmin], LvChecks c (fun _ => ⟨64, 32, 0, 0, 0x1F⟩) lvTypes true true (fun _ => true)
    (fun o n => o.d.toNat < (if n.vtype = 6 ∨ n.vtype = 5 then 32 else 64))) ∧
  (∀ c ∈ [Instr.vpcnt, .vpfirst], LvChecks c (fun _ => ⟨64, 16, 0, 0, 0⟩) lvTypes false false (fun _ => true) (fun _ _ => true)) ∧
  LvChecks .vmov (fun o => ⟨32, if (lvMod o).sb then 0 else 32, if (lvMod o).sb then 64 else 0, 0, 0x3F⟩) lvTypes false true (fun _ => true) (fun o n => !(lvMod o).sb || lvBOk o n) ∧
  LvChecks .viota (fun _ => ⟨32, 0, 0, 0, 0x1F⟩) [10] false true (fun _ => true) (fun _ _ => true) ∧
  (∀ c ∈ [Instr.vld, .vldff, .vst], LvChecks c (fun _ => ⟨32, 64, 0, 0, 0x1F⟩) lvTypes false true (fun _ => true) (fun _ _ => true)) ∧
  (∀ c ∈ [Instr.vlds, .vsts], LvChecks c (fun _ => ⟨32, 64, 64, 0, 0x1F⟩) lvTypes false true (fun _ => true) (fun _ _ => true)) ∧
  (∀ c ∈ [Instr.vldx, .vldxff, .vrgather], LvChecks c (fun _ => ⟨32, 64, 32, 0, 0x1F⟩) lvTypes false true (fun _ => true) (fun o n => indexOk o n && indexApart o n)) ∧
  LvChecks .vstx (fun _ => ⟨32, 64, 32, 0, 0x1F⟩) lvTypes false true (fun _ => true) indexOk ∧
  (∀ c ∈ [Instr.vldseg, .vstseg], LvChecks c (fun _ => ⟨32, 64, 0, 0, 0xC01F⟩) lvTypes false true segOk (fun _ _ => true))

/-- R216, R232, R259, R260, R385: a READ that passes its checks, of a line that waits for nothing, is answered with a DATA packet of the same tag and domain that carries the 64 bytes of its line and their poison; where no symbol of the line is bad they are the bytes of memory, and memory, the registers and the threads stay as they were. -/
def Sys2Proof.Parts.RemoteReads : Prop :=
  ∀ (s : State) (p : Pkt), s.Inv → Served s p 0x01 64 false →
    let r := physRead (takeRx s p) (netSrc s p) (p.addr / 64 * 64) 64
    exec (.pktRead p false) s = .next { r.1 with routerIn := r.1.routerIn ++
      [⟨0x20, 1, false, p.sgn, ownCoord s, p.src, p.dom, p.eng, p.seq, 0, 0, 0, 0, [], r.2.1, r.2.2, 0⟩] } ∧
    (sget 0 s.symErr (p.addr / 64) = 0 →
      r.2.1 = (List.range 64).map (fun i => memByte s (p.addr / 64 * 64 + i)) ∧ (r.2.2 = true ↔ p.addr / 64 ∈ s.poison) ∧
      r.1.mem = s.mem ∧ r.1.regs = s.regs ∧ r.1.threads = s.threads)

/-- R216, R260, R261: a WRITE that passes its checks, of a line that waits for nothing, writes the bytes its mask selects and is acknowledged under its tag; every other byte of memory reads as before, and no register of register space and no thread changes. A flag held behind it waits for it no longer, and the flags that then wait for none are applied. -/
def Sys2Proof.Parts.RemoteWrites : Prop :=
  ∀ (s : State) (p : Pkt), s.Inv → Served s p 0x02 64 true →
    let u := applyWrite (takeRx s p) p
    let v : State := { u with heldFlags := s.heldFlags.map (fun x =>
      if x.1.src = p.src ∧ x.1.eng = p.eng then (x.1, x.2.filter (· ≠ p.seq)) else x) }
    exec (.pktWrite p false) s = .next (releaseFlags s.heldFlags.length v) ∧
    ((∀ h ∈ v.heldFlags, h.2 ≠ []) → exec (.pktWrite p false) s = .next v) ∧
    (∀ i < 64, memByte u (p.addr / 64 * 64 + i) = if p.mask.testBit i then p.data.getD i 0 else memByte s (p.addr / 64 * 64 + i)) ∧
    (∀ a, a / 64 ≠ p.addr / 64 → memByte u a = memByte s a) ∧ u.regs = s.regs ∧ u.threads = s.threads ∧
    u.routerIn = s.routerIn ++ [⟨0x21, 1, false, p.sgn, ownCoord s, p.src, p.dom, p.eng, p.seq, 0, 0, 0, 0, [], [], false, 0⟩]

/-- R259-R261: a WRITEF that passes its checks is applied and acknowledged at once where every earlier write it waits for has been applied, and is held with those that have not where some have not; sent again while it is held, it is dropped. The last of its earlier writes applies it after itself. -/
def Sys2Proof.Parts.RemoteFlags : Prop :=
  ∀ (s : State) (p : Pkt) (waits : List Nat), s.Inv → Served s p 0x03 64 true → waits.length = p.prior →
    let left := waits.filter (fun q => !s.applied.contains (p.src, p.eng, q))
    let again := s.heldFlags.any (fun h => h.1.src == p.src && h.1.eng == p.eng && h.1.seq == p.seq)
    (again = false → s.heldFlags = [] → left = [] →
      exec (.pktWritef p false waits) s = .next (applyWrite (takeRx s p) p)) ∧
    (again = false → (∀ h ∈ s.heldFlags, h.2 ≠ []) → left ≠ [] →
      exec (.pktWritef p false waits) s = .next { takeRx s p with heldFlags := s.heldFlags ++ [(p, left)] }) ∧
    (again = true → exec (.pktWritef p false waits) s = .next (takeRx s p)) ∧
    (∀ w : Pkt, Served { s with heldFlags := [(p, [w.seq])] } w 0x02 64 true → w.src = p.src → w.eng = p.eng →
      exec (.pktWrite w false) { s with heldFlags := [(p, [w.seq])] } = .next (applyWrite (applyWrite { takeRx s w with heldFlags := [] } w) p))

/-- R76, R216, R254, R260, R267, R274: an atomic that passes its checks, at an address that is a multiple of 8 and with room in the reply cache for its members, leaves in memory what its type makes of the old value and of each new member's operand in turn. One of a single new member keeps the old value in the cache under the member's tag and answers it, or faults with status 0x12 where the eight bytes are poisoned; a member that the cache holds is answered from it, and nothing is written. -/
def Sys2Proof.Parts.RemoteAtomicTargets : Prop :=
  ∀ (c : Pkt → Bool → Instr) (ty : Nat) (new : Bool → Nat → Nat → Nat),
    ((c, ty, new) = (Instr.pktAdd, 0x08, fun (_ : Bool) (old v : Nat) => (old + v) % 2 ^ 64) ∨
     (c, ty, new) = (Instr.pktMin, 0x09, fun (g : Bool) (old v : Nat) => if (if g then sext 64 v < sext 64 old else v < old) then v else old) ∨
     (c, ty, new) = (Instr.pktMax, 0x0A, fun (g : Bool) (old v : Nat) => if (if g then sext 64 old < sext 64 v else old < v) then v else old) ∨
     (c, ty, new) = (Instr.pktAnd, 0x0B, fun (_ : Bool) (old v : Nat) => old &&& v) ∨ (c, ty, new) = (Instr.pktOr, 0x0C, fun (_ : Bool) (old v : Nat) => old ||| v) ∨
     (c, ty, new) = (Instr.pktXor, 0x0D, fun (_ : Bool) (old v : Nat) => old ^^^ v) ∨ (c, ty, new) = (Instr.pktSwap, 0x0E, fun (_ : Bool) (_ v : Nat) => v)) →
    ∀ (s : State) (p : Pkt), s.Inv → Served s p ty 8 true → p.addr % 8 = 0 →
      let r := physRead (takeRx s p) (netSrc s p) p.addr 8
      let old := leNat (memGet r.1 p.addr 8)
      let reply (m : Member) (v : Nat) : Pkt := ⟨0x22, 1, false, p.sgn, ownCoord s, p.src, p.dom, p.eng, p.seq, 0, 0, 0, 0, [{ m with v := v }], [], false, 0⟩
      (∀ m, p.mem = [m] → cached s m.src m.eng m.seq = none → s.rcache.length < 16384 → r.2.2 = false →
        let u := physPut r.1 p.addr (leBytes 8 (new p.sgn old (m.v % 2 ^ 64)))
        exec (c p false) s = .next (emit (wrote { u with rcache := s.rcache ++ [⟨m.src, m.eng, m.seq, old, s.ltc.toNat⟩] } (netSrc s p) p.addr 8) (reply m old))) ∧
      (∀ m, p.mem = [m] → cached s m.src m.eng m.seq = none → s.rcache.length < 16384 → r.2.2 = true →
        exec (c p false) s = .next (answerBad r.1 p 0x2B 0x12 none)) ∧
      (∀ m v, p.mem = [m] → cached s m.src m.eng m.seq = some v → s.rcache.length ≤ 16384 →
        exec (c p false) s = .next (emit (addSat r.1 R.SCF_RCACHE 16 32 1) (reply m v))) ∧
      ((∀ m ∈ p.mem, cached s m.src m.eng m.seq = none) → (p.mem.map (fun m => (m.src, m.eng, m.seq))).Nodup →
        s.rcache.length + p.mem.length ≤ 16384 → r.2.2 = false →
        ∃ u, exec (c p false) s = .next u ∧ leNat (memGet u p.addr 8) = p.mem.foldl (fun v m => new p.sgn v (m.v % 2 ^ 64)) old ∧
          (∀ a, a < p.addr ∨ p.addr + 8 ≤ a → memByte u a = memByte r.1 a) ∧ u.threads = s.threads)

/-- R76, R216, R260, R274: a compare-and-swap that passes its checks stores its second operand where the old value equals the first, keeps the old value in the cache under its tag and answers it; one that the cache holds is answered from it, and nothing is written; an entry of the cache frees when its retention has passed, and not before. -/
def Sys2Proof.Parts.CompareAndSwapTargets : Prop :=
  (∀ (c : Pkt → Bool → Instr) (ty n : Nat), ((c, ty, n) = (Instr.pktCas8, 0x0F, 8) ∨ (c, ty, n) = (Instr.pktCas16, 0x10, 16)) →
    ∀ (s : State) (p : Pkt), s.Inv → Served s p ty n true →
      let reply (t : State) (v : Nat) : Pkt := ⟨0x22, 1, false, p.sgn, ownCoord t, p.src, p.dom, p.eng, p.seq, 0, 0, 0, 0, [], leBytes n v, false, 0⟩
      let r := physRead (takeRx s p) (netSrc s p) p.addr n
      (∀ v, cached s p.src p.eng p.seq = some v → exec (c p false) s = .next (emit (addSat (takeRx s p) R.SCF_RCACHE 16 32 1) (reply s v))) ∧
      (cached s p.src p.eng p.seq = none → s.rcache.length < 16384 → p.addr % n = 0 → r.2.2 = false →
        let old := leNat r.2.1
        let u := if old = leNat (p.data.take n) then physWrite r.1 (netSrc s p) p.addr (padTo n (p.data.drop n)) else r.1
        exec (c p false) s = .next (emit { u with rcache := s.rcache ++ [⟨p.src, p.eng, p.seq, old, s.ltc.toNat⟩] } (reply u old)))) ∧
  (∀ (s : State) (src eng seq : Nat), exec (.rcacheEntryExpiry src eng seq) s = .next { s with rcache := s.rcache.filter (fun e =>
    !(e.src == src && e.eng == eng && e.seq == seq && e.at_ + max 100 (rdf s R.SCF_CFG 16 10) * 1000 ≤ s.ltc.toNat)) })

/-- R216, R247, R259, R260, R273, R274, R425: a request that finds its target busy, or more of its source's requests held than SCF_CFG allows, is answered NACK_BUSY with cause 0x57, counted in SCF_NACK; one for register space is a FAULT with status 0x11 and cause 0x52; one whose domain no partition holds is NACK_DOMAIN with status 0x21 and a free cause; one outside the partition's memory, or that writes a measured range, is a FAULT with status 0x11 and cause 0x51. One for HBM while it is paused is NACK_BUSY; one whose line must wait waits, and a write to lines that the other half's caches hold asks for their invalidation and waits. An atomic with no room in the reply cache is NACK_BUSY with cause 0x58, and one that is not aligned a FAULT with status 0x10. -/
def Obligations.RequestChecks : Prop :=
  ∀ (c : Pkt → Bool → Instr) (ty n : Nat) (write : Bool), ((c, ty, n, write) = (Instr.pktRead, 0x01, 64, false) ∨ (c, ty, n, write) = (Instr.pktWrite, 0x02, 64, true) ∨
      (∃ waits, (c, ty, n, write) = (fun (p : Pkt) (b : Bool) => Instr.pktWritef p b waits, 0x03, 64, true)) ∨
      (c, ty, n, write) = (Instr.pktAdd, 0x08, 8, true) ∨ (c, ty, n, write) = (Instr.pktMin, 0x09, 8, true) ∨ (c, ty, n, write) = (Instr.pktMax, 0x0A, 8, true) ∨
      (c, ty, n, write) = (Instr.pktAnd, 0x0B, 8, true) ∨ (c, ty, n, write) = (Instr.pktOr, 0x0C, 8, true) ∨ (c, ty, n, write) = (Instr.pktXor, 0x0D, 8, true) ∨
      (c, ty, n, write) = (Instr.pktSwap, 0x0E, 8, true) ∨ (c, ty, n, write) = (Instr.pktCas8, 0x0F, 8, true) ∨ (c, ty, n, write) = (Instr.pktCas16, 0x10, 16, true)) →
    ∀ (s : State) (p : Pkt) (busy : Bool), s.Inv → issuing s = true → p.ty = ty → p.dst = ownCoord s →
      let s1 := takeRx s p
      let bad (ty' st cause : Nat) : Host.Outcome State Fault Refusal := .next (emit s1 (replyTo s1 p ty' (st + cause * 256) [] [] false))
      let free (ty' st : Nat) : Host.Outcome State Fault Refusal :=
        .next (emit (drawBits 8 s1).2 (replyTo s1 p ty' (st + (drawBits 8 s1).1.toNat * 256) [] [] false))
      (busy = true ∨ rdf s R.SCF_CFG 0 8 ≤ heldFrom s p (some p.src) ∨ 8192 ≤ heldFrom s p none → exec (c p busy) s = .next (nackBusy s1 p 0x57)) ∧
      (busy = false → heldFrom s p (some p.src) < rdf s R.SCF_CFG 0 8 → heldFrom s p none < 8192 →
        (region p.addr = .reg → exec (c p busy) s = bad 0x2B 0x11 0x52) ∧
        (region p.addr ≠ .reg → partOfDomain s p.dom = none → exec (c p busy) s = free 0x29 0x21) ∧
        (∀ part, region p.addr ≠ .reg → partOfDomain s p.dom = some part →
          (partHolds s part p.addr = false → exec (c p busy) s = bad 0x2B 0x11 0x51) ∧
          (partHolds s part p.addr = true → physErr s (.net part) p.addr n write = some .measured → exec (c p busy) s = bad 0x2B 0x11 0x51) ∧
          (partHolds s part p.addr = true → physErr s (.net part) p.addr n write = none →
            (∀ h off, s.hbmHeld = true → region p.addr = .hbm h off → exec (c p busy) s = .next (nackBusy s1 p 0x57)) ∧
            (s.hbmHeld = false → (linesOf p.addr n).any (lineWaits s) = true → exec (c p busy) s = .next s) ∧
            (∀ s2, s.hbmHeld = false → (linesOf p.addr n).any (lineWaits s) = false → write = true → invWait s p.addr n = some s2 →
              exec (c p busy) s = .next s2) ∧
            (s.hbmHeld = false → (linesOf p.addr n).any (lineWaits s) = false → invWait s p.addr n = none →
              (8 ≤ ty → ty ≤ 0x0E → 16384 < s.rcache.length + (p.mem.filter (fun m => (cached s m.src m.eng m.seq).isNone)).length →
                exec (c p busy) s = .next (nackBusy s1 p 0x58)) ∧
              (8 ≤ ty → ty ≤ 0x0E → s.rcache.length + (p.mem.filter (fun m => (cached s m.src m.eng m.seq).isNone)).length ≤ 16384 → p.addr % 8 ≠ 0 →
                exec (c p busy) s = free 0x2B 0x10) ∧
              (0x0F ≤ ty → cached s p.src p.eng p.seq = none → 16384 ≤ s.rcache.length → exec (c p busy) s = .next (nackBusy s1 p 0x58)) ∧
              (0x0F ≤ ty → cached s p.src p.eng p.seq = none → s.rcache.length < 16384 → p.addr % n ≠ 0 → exec (c p busy) s = free 0x2B 0x10)))))

/-- R77, R178, R262-R267, R273, R354: a reply for a request that this package has outstanding: DATA lands a line or waits while its line must wait, fills a line of a gather or a tile, or brings what a solve or a mirror reads; ACK counts a written line; VALUE ends an atomic with its old value; NACK_BUSY sets the time to try again or, at the eighth, ends the request with status 0x20; NACK_DOMAIN, UNREACHABLE and FAULT end it with the status and cause they carry. A reply that answers nothing is dropped. The reply of a combined request is split over its members. -/
def Sys2Proof.Parts.RepliesAtSource : Prop :=
  ∀ (s : State) (p : Pkt), s.Inv → issuing s = true → p.dst = ownCoord s →
    let s0 := takeRx s p
    (∀ (c : Pkt → Instr) (ty : Nat), ((c, ty) = (Instr.pktData, 0x20) ∨ (c, ty) = (Instr.pktAck, 0x21) ∨ (c, ty) = (Instr.pktValue, 0x22) ∨
        (c, ty) = (Instr.pktNackBusy, 0x28) ∨ (c, ty) = (Instr.pktNackDomain, 0x29) ∨ (c, ty) = (Instr.pktUnreachable, 0x2A) ∨ (c, ty) = (Instr.pktFault, 0x2B)) →
      p.ty = ty →
      (∀ slot, p.eng = 0xFFF → s.slots.find? (fun c => c.seq == p.seq) = some slot → exec (c p) s = .next (ckpPump (splitReply s0 slot p))) ∧
      (p.eng = 0xFFF → s.slots.find? (fun c => c.seq == p.seq) = none → exec (c p) s = .next (ckpPump s0)) ∧
      (p.eng ≠ 0xFFF → reqOf s p.eng p.seq = none → exec (c p) s = .next (ckpPump s0))) ∧
    (∀ r, p.eng ≠ 0xFFF → reqOf s p.eng p.seq = some r →
      let sd := reqMove s0 r 64 false
      (∀ id i s1, p.ty = 0x20 → r.kind = .xfer id i → landLine sd r id i (padTo 64 p.data) p.pois = (s1, .ok ()) →
        exec (.pktData p) s = .next (ckpPump s1)) ∧
      (∀ id i s1, p.ty = 0x20 → r.kind = .xfer id i → landLine sd r id i (padTo 64 p.data) p.pois = (s1, .wait) →
        exec (.pktData p) s = .next (ckpPump s)) ∧
      (p.ty = 0x20 → r.kind = .gather → exec (.pktData p) s = .next (ckpPump (moreLines (gatherGot (dropReq sd r) r.key r.va (.data (padTo 64 p.data) p.pois)) r.key))) ∧
      (∀ q tile i, p.ty = 0x20 → r.kind = .get q tile i → exec (.pktData p) s = .next (ckpPump (modGet (dropReq sd r) r.key q tile (fun g =>
        { g with lines := (List.range g.lines.length).zip g.lines |>.map (fun (l : Nat × Nat × Option (List Byte × Bool)) =>
            if l.1 = i then (l.2.1, some (padTo 64 p.data, p.pois)) else l.2) })))) ∧
      (∀ svu, p.ty = 0x20 → r.kind = .halo svu →
        exec (.pktData p) s = .next (ckpPump { dropReq sd r with mail := sd.mail ++ [⟨0, svu, r.va, .data (padTo 64 p.data) p.pois⟩] })) ∧
      (∀ part, p.ty = 0x20 → r.kind = .mirror part →
        exec (.pktData p) s = .next (ckpPump { dropReq sd r with mail := sd.mail ++ [⟨1, part, r.va, .data (padTo 64 p.data) p.pois⟩] })) ∧
      (∀ id, p.ty = 0x21 → r.kind = .mwrite id → exec (.pktAck p) s = .next (ckpPump (dropReq s0 r))) ∧
      (∀ id i x, p.ty = 0x21 → r.kind = .xfer id i → s.xfers.find? (fun x => x.id == id) = some x →
        exec (.pktAck p) s = .next (ckpPump (moreLines (settle (modXfer (dropReq (arrive s0 r.key x.gen x.cnt) r) id
          (fun y => { y with out := y.out - 1 })) r.key) r.key))) ∧
      (∀ id i, p.ty = 0x21 → r.kind = .put id i →
        exec (.pktAck p) s = .next (ckpPump (settle (modPut (dropReq s0 r) id (fun t => { t with left := t.left - 1 })) r.key))) ∧
      (∀ d wide, p.ty = 0x22 → r.kind = .atomic d wide → exec (.pktValue p) s = .next (ckpPump (atomicEnd
        (dropReq (reqMove s0 r (if wide then 16 else 8) false) r) r.key r.gen d wide 0
        (if bundled r.pkt.ty then ((p.mem.head?).map (·.v)).getD 0 else leNat p.data)))) ∧
      (p.ty = 0x28 → r.nacks < 7 → exec (.pktNackBusy p) s = .next (ckpPump { s0 with reqs := s0.reqs.map (fun x =>
        if x = r then { r with nacks := r.nacks + 1, hint := some (s.ltc.toNat + 100 * (p.addr % 256)) } else x) })) ∧
      (p.ty = 0x28 → 7 ≤ r.nacks → exec (.pktNackBusy p) s = .next (ckpPump (reqFail (addSat s0 R.SCF_NACK 32 32 1) r 0x20 (p.addr / 256 % 256)))) ∧
      (∀ (c : Pkt → Instr) (ty : Nat), ((c, ty) = (Instr.pktNackDomain, 0x29) ∨ (c, ty) = (Instr.pktUnreachable, 0x2A) ∨ (c, ty) = (Instr.pktFault, 0x2B)) →
        p.ty = ty → exec (c p) s = .next (ckpPump (reqFail s0 r (p.addr % 256) (p.addr / 256 % 256)))))

/-- R243, R273, R275: when the time to try again has come a request is sent again under its tag with its TRIES one higher, and its data crosses to the fabric die again; a request with no reply for 20 us is sent again up to four times, then it ends: an atomic with status 0x23, any other with 0x22. Before its time nothing happens. -/
def Sys2Proof.Parts.Resends : Prop :=
  ∀ (s : State) (eng seq : Nat) (r : OutReq), s.Inv → issuing s = true → reqOf s eng seq = some r →
    let p := { r.pkt with tries := (r.pkt.tries + 1) % 16 }
    let again (k : Nat) : State :=
      emit (reqMove { s with reqs := s.reqs.map (fun x => if x = r then { r with pkt := p, hint := none, sent := s.ltc.toNat, resends := k } else x) } r (reqBytes p) true) p
    (∀ at_, r.hint = some at_ → at_ ≤ s.ltc.toNat → exec (.retryAfterExpiry eng seq) s = .next (again r.resends)) ∧
    (∀ at_, r.hint = some at_ → s.ltc.toNat < at_ → exec (.retryAfterExpiry eng seq) s = .next s) ∧
    (r.hint = none → r.sent + 20000 ≤ s.ltc.toNat → r.resends < 4 → exec (.resendTimeout eng seq) s = .next (ckpPump (again (r.resends + 1)))) ∧
    (r.hint = none → r.sent + 20000 ≤ s.ltc.toNat → 4 ≤ r.resends →
      exec (.resendTimeout eng seq) s = .next (ckpPump (reqFail s r (if isAtomic r then 0x23 else 0x22) 0x59))) ∧
    (s.ltc.toNat < r.sent + 20000 → exec (.resendTimeout eng seq) s = .next (ckpPump s))

/-- R252, R270-R272, R276, R380: the router takes the oldest packet of its own engines and one that a port brings; a packet for this package goes to it, one for another is routed: it joins the output queue of an ACTIVE port of its hop, where a READ and an earlier READ of its line become one request with a slot, and where neither port of the hop is ACTIVE and one is PARAPET a request is refused with NACK_DOMAIN, status 0x21 and cause 0x55; where both are down, it goes by a detour, or a request is refused with UNREACHABLE, status 0x22 and cause 0x53. The oldest packet of a queue whose domain is not being released leaves by its port, or is routed again where the port is no longer ACTIVE. A PARAPET port counts what it stops. -/
def Obligations.RouterForwards : Prop :=
  ∀ (s : State) (p : Pkt) (rest : List Pkt), s.Inv → issuing s = true →
    (s.routerIn = p :: rest → exec (.routerForward .own) s = .next (routePkt { s with routerIn := rest } p)) ∧
    (s.routerIn = [] → exec (.routerForward .own) s = .next s) ∧
    (∀ k < 16, portState s k = 3 → exec (.routerForward (.port k p)) s = .next (routePkt s p)) ∧
    (∀ k < 16, portState s k = 2 → exec (.routerForward (.port k p)) s = .next (addSat s (R.SCF_PORT_STAT k) 32 32 1)) ∧
    (nextHop s (ownCoord s) p.dst p.dax = none → routePkt s p = { s with rxq := s.rxq ++ [p] }) ∧
    (∀ ax d, nextHop s (ownCoord s) p.dst p.dax = some (ax, d) →
      let n := 2 * ax + d
      let queued (k : Nat) (p : Pkt) : State := { s with outq := sset [] s.outq k (sget [] s.outq k ++ [p]) }
      let alone (k : Nat) : Prop := (p.ty ≠ 1 ∧ bundled p.ty = false) ∨ ∀ a ∈ sget [] s.outq k, combines a p = false
      (portState s n = 3 → portState s (n + 8) ≠ 3 → alone n → routePkt s p = queued n p) ∧
      (portState s n ≠ 3 → portState s (n + 8) = 3 → alone (n + 8) → routePkt s p = queued (n + 8) p) ∧
      (portState s n = 3 → portState s (n + 8) = 3 → alone n → alone (n + 8) → routePkt s p = queued n p ∨ routePkt s p = queued (n + 8) p) ∧
      (∀ pre a post, portState s n = 3 → portState s (n + 8) ≠ 3 → sget [] s.outq n = pre ++ a :: post → a ∉ post → p.ty = 1 → (∀ x ∈ pre, combines x p = false) →
        combines a p = true → slotOf s a = none → combFree s ≠ 0 →
        (routePkt s p).slots = s.slots ++ [⟨sget 0 s.seqs 0xFFF, n, [slotMember a, slotMember p]⟩] ∧
        (routePkt s p).outq = sset [] s.outq n (pre ++ { a with src := ownCoord s, eng := 0xFFF, seq := sget 0 s.seqs 0xFFF, mem := a.mem ++ p.mem } :: post)) ∧
      (portState s n ≠ 3 → portState s (n + 8) ≠ 3 → portState s n = 2 ∨ portState s (n + 8) = 2 →
        routePkt s p = if isRequest p.ty then emit s (replyTo s p 0x29 (0x21 + 0x55 * 256) [] [] false) else s) ∧
      (portState s n < 2 → portState s (n + 8) < 2 → p.det = true ∨ detourPort s n = none →
        routePkt s p = if isRequest p.ty then emit s (replyTo s p 0x2A (0x22 + 0x53 * 256) [] [] false) else s) ∧
      (∀ k, portState s n < 2 → portState s (n + 8) < 2 → p.det = false → detourPort s n = some k → hopInBlock s k = true → p.ty ≠ 1 → bundled p.ty = false →
        routePkt s p = queued k { p with vc := 3, det := true, dax := k % 8 / 2 + 1 })) ∧
    (∀ k pre post, sget [] s.outq k = pre ++ p :: post → (∀ x ∈ pre, domScrubbed s x.dom = true) → domScrubbed s p.dom = false → p ∉ pre →
      let u : State := { s with outq := sset [] s.outq k (pre ++ post) }
      exec (.routerForward (.depart k)) s = .next (if portState s k = 3 then { u with tx := s.tx ++ [.pkt k p] } else routePkt u p))

/-- R252, R253, R270, R276, R278, R281: a port that is up sends a keep-alive and notes the control blocks that arrive; a port in TRAINING sends training patterns, unless it holds electrical idle since its partner left; it locks to its partner's patterns, which ends that idle, and once trained enters PARAPET, or ACTIVE where a write of ACTIVE waits and the coordinate is set, and a port that had fallen counts its return. -/
def Sys2Proof.Parts.PortsTrain : Prop :=
  ∀ (s : State) (k : Nat), s.Inv → k < 16 →
    (2 ≤ portState s k → exec (.keepaliveSend k) s = .next { s with tx := s.tx ++ [.keep k] }) ∧
    (portState s k = 1 → k ∉ s.portIdle → exec (.keepaliveSend k) s = .next { s with tx := s.tx ++ [.training k] }) ∧
    (portState s k = 1 → k ∈ s.portIdle → exec (.keepaliveSend k) s = .next s) ∧
    (2 ≤ portState s k → exec (.keepaliveReceived k) s = .next { s with portSeen := sset 0 s.portSeen k s.ltc.toNat }) ∧
    (portState s k = 1 → ∃ u, exec (.receiveLock k) s = .next u ∧ rdf u (R.SCF_PORT_STAT k) 2 1 = 1 ∧ portState u k = 1 ∧ k ∉ u.portIdle ∧
      u.mem = s.mem ∧ u.threads = s.threads) ∧
    (portState s k = 1 → rdf s (R.SCF_PORT_STAT k) 2 1 = 1 →
      ∃ u, exec (.portTrained k) s = .next u ∧ portState u k = (if k ∈ s.portWant ∧ coordSet s = true then 3 else 2) ∧ k ∉ u.portFell ∧
        u.portSeen = sset 0 s.portSeen k s.ltc.toNat ∧ (∀ j < 16, j ≠ k → portState u j = portState s j) ∧
        (k ∈ s.portFell → rdf u (R.SCF_PORT_ERR k) 32 32 = min (2 ^ 32 - 1) (rdf s (R.SCF_PORT_ERR k) 32 32 + 1)) ∧
        (k ∉ s.portFell → rd u (R.SCF_PORT_ERR k) = rd s (R.SCF_PORT_ERR k)))

/-- R276-R278, R374: a port that is up and has seen no control block for 1 us, has lost lock or receives LEAVING is declared down: it trains again, its losses are counted, and the black box has a record; where no other port to its neighbour is up, the neighbour is told of as lost and entered. After LEAVING the port holds electrical idle. A link replay counts a CRC error, and in CONFIDENTIAL a tag failure; the eighth tag failure in a row declares the port down. -/
def Sys2Proof.Parts.PortsGoDown : Prop :=
  ∀ (s : State) (k : Nat), s.Inv → k < 16 → 2 ≤ portState s k →
    (sget 0 s.portSeen k + 1000 ≤ s.ltc.toNat → exec (.portSilenceTimeout k) s = .next (portDown s k 1)) ∧
    (s.ltc.toNat < sget 0 s.portSeen k + 1000 → exec (.portSilenceTimeout k) s = .next s) ∧
    (exec (.lossOfLock k) s = .next (portDown (wrf s (R.SCF_PORT_STAT k) 2 1 0) k 2)) ∧
    (exec (.leavingReceived k) s = .next (portDown (wrf { s with portIdle := ninsert k s.portIdle } (R.SCF_PORT_STAT k) 3 1 1) k 3)) ∧
    (exec (.scauthLinkReplay k 0) s = .next (addSat s (R.SCF_PORT_ERR k) 0 32 1)) ∧
    (∀ n, confidential s = false → exec (.scauthLinkReplay k n) s = .next (addSat s (R.SCF_PORT_ERR k) 0 32 1)) ∧
    (∀ n, confidential s = true → 1 ≤ n → n < 8 → exec (.scauthLinkReplay k n) s = .next (addSat (addSat s (R.SCF_PORT_ERR k) 0 32 1) R.SEC_LINKAUTH 0 32 1)) ∧
    (∀ n, confidential s = true → 8 ≤ n → exec (.scauthLinkReplay k n) s = .next (portDown (addSat (addSat s (R.SCF_PORT_ERR k) 0 32 1) R.SEC_LINKAUTH 0 32 1) k 1)) ∧
    (∀ cause, portPeer s k = none → portState (portDown s k cause) k = 1 ∧ k ∈ (portDown s k cause).portFell ∧
      rdf (portDown s k cause) (R.SCF_PORT_STAT k) 16 16 = min 65535 (rdf s (R.SCF_PORT_STAT k) 16 16 + 1) ∧ (portDown s k cause).mem = s.mem) ∧
    (∀ cause c, portPeer s k = some c →
      let t := addSat (setPort s k 1) (R.SCF_PORT_STAT k) 16 16 1
      let u := bbx { t with portFell := ninsert k t.portFell, portWant := t.portWant.filter (· ≠ k) } false 0x04 0 0 0
        (leBytes 1 0 ++ leBytes 1 k ++ leBytes 1 cause ++ leBytes 1 0 ++ leBytes 4 c)
      (∀ j < 16, portPeer u j = some c → portState u j < 2) → knownLost u c = false → portDown s k cause = loseCoord (sendLost u c cause) c cause)

/-- R270, R277: a LOST notice that comes to a PARAPET port is dropped and counted; one that comes to an ACTIVE port and is new leaves on every ACTIVE port and its coordinate is entered as lost, with cause 4 where it is this package's own; one that is not new, or that comes to a port that is not up, does nothing. -/
def Sys2Proof.Parts.LostNotices : Prop :=
  ∀ (s : State) (k c cause : Nat), s.Inv → k < 16 →
    (portState s k = 2 → exec (.lostNotice k c cause) s = .next (addSat s (R.SCF_PORT_STAT k) 32 32 1)) ∧
    (portState s k < 2 → exec (.lostNotice k c cause) s = .next s) ∧
    (portState s k = 3 → knownLost s c = true → exec (.lostNotice k c cause) s = .next s) ∧
    (portState s k = 3 → knownLost s c = false → exec (.lostNotice k c cause) s = .next (loseCoord
      { s with tx := s.tx ++ ((List.range 16).filter (fun j => portState s j == 3)).map (fun j => .lost j c cause) } c (if c = ownCoord s then 4 else cause))) ∧
    (∀ i < 64, knownLost s c = false → (∀ j < i, bitw (rd s (R.SCF_LOST j)) 63 = true) → bitw (rd s (R.SCF_LOST i)) 63 = false →
      enterLost s c cause = wr s (R.SCF_LOST i) (BitVec.ofNat 64 (c % 2 ^ 20 + cause % 16 * 2 ^ 20 + 2 ^ 63)))

/-- R252, R253, R270, R281: the first write of SCF_COORD takes effect and locks it, holds the ports of an axis of length 1 DOWN, and lets a PARAPET port whose MODE is 3 become ACTIVE; a later write changes nothing. A port's MODE 0 takes it down, 1 is ignored, 2 makes an ACTIVE port PARAPET, and 3 makes a PARAPET port ACTIVE once the coordinate is set and otherwise waits; a DOWN port begins TRAINING, but for one of an axis of length 1. -/
def Sys2Proof.Parts.CoordinateAndPortModes : Prop :=
  ∀ (s : State) (v : Word), s.Inv →
    (coordSet s = false →
      let t := wr s R.SCF_COORD (BitVec.ofNat 64 (v.toNat % 2 ^ 40 + 2 ^ 63))
      exec (.scfCoordWrite v) s = .next (releasePorts t) ∧
      (∀ k < 16, portState (releasePorts t) k = if axisLen t (k % 8 / 2) = 1 then 0 else if rdf s (R.SCF_PORT_CTL k) 0 2 = 3 ∧ portState s k = 2 then 3 else portState s k)) ∧
    (coordSet s = true → exec (.scfCoordWrite v) s = .next s) ∧
    (∀ k < 16,
      (v.toNat % 4 = 1 → exec (.scfPortCtlWrite k v) s = .next s) ∧
      (v.toNat % 4 = 0 → ∃ u, exec (.scfPortCtlWrite k v) s = .next u ∧ portState u k = 0 ∧ rdf u (R.SCF_PORT_STAT k) 2 1 = 0 ∧ k ∉ u.portWant ∧ rdf u (R.SCF_PORT_CTL k) 0 2 = 0) ∧
      (coordSet s = true → axisLen s (k % 8 / 2) = 1 → 2 ≤ v.toNat % 4 →
        ∃ u, exec (.scfPortCtlWrite k v) s = .next u ∧ rdf u (R.SCF_PORT_CTL k) 0 2 = v.toNat % 4 ∧ portState u k = portState s k) ∧
      (coordSet s = false ∨ axisLen s (k % 8 / 2) ≠ 1 → 2 ≤ v.toNat % 4 →
        ∃ u, exec (.scfPortCtlWrite k v) s = .next u ∧ rdf u (R.SCF_PORT_CTL k) 0 2 = v.toNat % 4 ∧
          portState u k = (if portState s k ≤ 1 then 1 else if v.toNat % 4 = 3 ∧ portState s k = 2 ∧ coordSet s = false then 2 else v.toNat % 4) ∧
          (v.toNat % 4 = 3 → portState s k ≤ 1 ∨ (portState s k = 2 ∧ coordSet s = false) → k ∈ u.portWant)))

/-- R8, R257, R268, R269: a valid domain ID that is zero or that another valid partition holds is refused: SCF_CFG_ERR records status 0x30 and the partition, and the refusal is reported as a CONFLICT; any other write takes effect. The slot split is clamped to 4,096 and its two parts add up to that. Word 1 of a window entry is held until word 0 is written, and both take effect then. -/
def Sys2Proof.Parts.FabricRegisterWrites : Prop :=
  ∀ (s : State) (v : Word), s.Inv →
    (∀ p < 8,
      let clash := (List.range 8).find? (fun q => q != p && bitw (rd s (R.SCF_DOMAIN q)) 63 && rdf s (R.SCF_DOMAIN q) 0 16 == v.toNat % 65536)
      (v.getLsbD 63 = false ∨ (v.toNat % 65536 ≠ 0 ∧ clash = none) → exec (.scfDomainWrite p v) s = .next (regPut s (R.SCF_DOMAIN p) v)) ∧
      (v.getLsbD 63 = true → v.toNat % 65536 = 0 ∨ clash ≠ none →
        let s1 := wr s R.SCF_CFG_ERR (BitVec.ofNat 64 (0x30 + p * 256 + 2 ^ 63))
        exec (.scfDomainWrite p v) s = .next (conflict s1 0 p (clash.getD p) p (some p) (rd s1 R.SCF_CFG_ERR)))) ∧
    (∃ u, exec (.scfSlotSplitWrite v) s = .next u ∧ rdf u R.SCF_SLOT_SPLIT 0 13 = min 4096 (v.toNat % 8192) ∧
      rdf u R.SCF_SLOT_SPLIT 0 13 + rdf u R.SCF_SLOT_SPLIT 16 13 = 4096 ∧ (∀ a, a ≠ R.SCF_SLOT_SPLIT → rd u a = rd s a) ∧ u.mem = s.mem) ∧
    (∀ i < 2097152, exec (.winEntryWord1Write i v) s = .next { s with winHeld := sset none s.winHeld i (some v) }) ∧
    (∀ i < 2097152, sget none s.winHeld i = none → exec (.winEntryWord0Write i v) s = .next (regPut s (R.WIN_ENTRY0 i) v)) ∧
    (∀ i w, i < 2097152 → sget none s.winHeld i = some w →
      exec (.winEntryWord0Write i v) s = .next (regPut (regPut { s with winHeld := sset none s.winHeld i none } (R.WIN_ENTRY1 i) w) (R.WIN_ENTRY0 i) v))

/-- R285, R290, R291, R306: a COL_GROUP descriptor whose checks hold takes VALID and its sequence number restarts; one that fails them stays invalid and COL_CFG_ERR records status 0x10 and the group; a valid one is only cleared. A valid trigger entry fires at once where it is due; one that may not be valid stays invalid, with status 0x10, or 0x30 and a CONFLICT for a counter of another context, and the entry in COL_CFG_ERR. A context adds to a counter it owns and to no other. -/
def Sys2Proof.Parts.GroupsAndTriggers : Prop :=
  ∀ (s : State) (v : Word), s.Inv →
    (∀ g < 1024, gValid s g = true → v.getLsbD 63 = false → putf v 63 1 1 = rd s (R.COL_GROUP g) →
      exec (.colGroupValid g v) s = .next (wrf s (R.COL_GROUP g) 63 1 0)) ∧
    (∀ g < 1024, gValid s g = true → v.getLsbD 63 = true ∨ putf v 63 1 1 ≠ rd s (R.COL_GROUP g) → exec (.colGroupValid g v) s = .next s) ∧
    (∀ g < 1024, gValid s g = false →
      let s1 := regPut s (R.COL_GROUP g) v
      (v.getLsbD 63 = false → exec (.colGroupValid g v) s = .next s1) ∧
      (v.getLsbD 63 = true → groupOk s1 g = true → exec (.colGroupValid g v) s = .next
        { wrf s1 (R.COL_GSEQ g) 32 32 0 with collEnds := s1.collEnds.filter (fun e => e.1 ≠ g) }) ∧
      (v.getLsbD 63 = true → groupOk s1 g = false → exec (.colGroupValid g v) s = .next
        (wr (wrf s1 (R.COL_GROUP g) 63 1 0) R.COL_CFG_ERR (BitVec.ofNat 64 (0x10 + g * 65536 + 2 ^ 63))))) ∧
    (∀ t < 8192,
      let s1 := regPut s (R.COL_TRIG t 0) v
      let was := bitw (rd s (R.COL_TRIG t 0)) 0
      let refused (st : Nat) : State := wr (wrf s1 (R.COL_TRIG t 0) 0 1 0) R.COL_CFG_ERR (BitVec.ofNat 64 (st + t * 65536 + 2 ^ 29 + 2 ^ 63))
      let ctx := v.toNat / 4 % 64
      (v.getLsbD 0 = false → exec (.colTrigValid t v) s = .next s1) ∧
      (v.getLsbD 0 = true → was = true ∨ trigRefused s1 (trigWords s1 t) = none → exec (.colTrigValid t v) s = .next (fireCounter s1 (v.toNat / 256 % 2048))) ∧
      (v.getLsbD 0 = true → was = false → trigRefused s1 (trigWords s1 t) = some 0x10 → exec (.colTrigValid t v) s = .next (refused 0x10)) ∧
      (v.getLsbD 0 = true → was = false → trigRefused s1 (trigWords s1 t) = some 0x30 → exec (.colTrigValid t v) s = .next
        (conflict (refused 0x30) 0 (t % 256) 0 ctx (if ctxValid (refused 0x30) ctx then some (partOf (refused 0x30) ctx) else none) (rd (refused 0x30) R.COL_CFG_ERR)))) ∧
    (∀ ctx n, ownsCtr s ctx n = true → exec (.colTadd ctx n v) s = .next (counterAdd s n (v.toNat % 2 ^ 32))) ∧
    (∀ ctx n, ownsCtr s ctx n = false → exec (.colTadd ctx n v) s = .next s)

/-- R270, R293, R295, R297-R301, R303: an express flit or a bulk chunk at an ACTIVE port. On its way to the root: one whose collective its own package has yet to start waits in the match buffer, or is refused and counted when that is full; one of a collective known here joins it; one of a collective that has failed here is answered with the failure; one that comes after the end is counted as late; any other joins a record made for it. On its way back: it goes down the collective, or is late. A PARAPET port drops and counts it. A firing that may start does; a refused flit is sent again while its collective lasts, and not after. -/
def Sys2Proof.Parts.CollectiveTraffic : Prop :=
  (∀ (c : Nat → Flit → Instr) (bulk : Bool), ((c, bulk) = (Instr.collectiveFlit, false) ∨ (c, bulk) = (Instr.bulkChunk, true)) →
    ∀ (s : State) (k : Nat) (f : Flit), s.Inv → f.bulk = bulk → k < 16 →
      let waits := (∀ x, collOf s f = some x → x.fired = false) ∧ (unfired s f.group f.seq = true ∨ queuedHere s f.group f.seq = true) ∧ ownGroup s f = true
      let room := s.matchBuf.length < (if bulk then 3072 else 4096)
      let kept : State := { s with matchBuf := s.matchBuf ++ [(k, f)] }
      let ended := s.collEnds.find? (fun e => e.1 == f.group && e.2.1 == f.seq)
      let late := addSat s R.COL_LATE 0 32 1
      (portState s k = 2 → exec (c k f) s = .next (addSat s (R.SCF_PORT_STAT k) 32 32 1)) ∧
      (portState s k = 3 → issuing s = true → f.down = false →
        (waits → ¬ room → exec (c k f) s = .next (addSat s R.COL_MATCH 32 32 1)) ∧
        (∀ x, waits → room → collOf s f = some x → exec (c k f) s = .next kept) ∧
        (waits → room → collOf s f = none → exec (c k f) s = .next (transitColl kept f).1) ∧
        (∀ x, ¬ waits → collOf s f = some x → exec (c k f) s = .next (joinUp s x.id k f)) ∧
        (∀ e, ¬ waits → collOf s f = none → ended = some e → exec (c k f) s = .next (txFlit s k { f with down := true, fail := some e.2.2, vals := [], cnt := 0 })) ∧
        (¬ waits → collOf s f = none → ended = none → ownGroup s f = true → isMember s f.group (actCoord s) = true → exec (c k f) s = .next late) ∧
        (¬ waits → collOf s f = none → ended = none → ownGroup s f = false ∨ isMember s f.group (actCoord s) = false →
          exec (c k f) s = .next (joinUp (transitColl s f).1 (transitColl s f).2 k f))) ∧
      (portState s k = 3 → issuing s = true → f.down = true →
        (collOf s f = none → exec (c k f) s = .next late) ∧
        (∀ x, collOf s f = some x → x.fail.any (fun e => e.1 == 0x24) = true → exec (c k f) s = .next late) ∧
        (∀ x, collOf s f = some x → x.fail.any (fun e => e.1 == 0x24) = false → digDiffers s f = true → f.fail = none → exec (c k f) s = .next (failColl s x.id 0x11 0x61)) ∧
        (∀ x, collOf s f = some x → x.fail.any (fun e => e.1 == 0x24) = false → digDiffers s f = false ∨ f.fail ≠ none → exec (c k f) s = .next (takeDown s x.id f)))) ∧
  (∀ (s : State) (id : Nat) (c : Coll), issuing s = true → getColl s id = some c → c.queued = true →
    (mayStart s c = true → exec (.collectiveQueuedStart id) s = .next (startColl s id)) ∧
    (mayStart s c = false → exec (.collectiveQueuedStart id) s = .next s)) ∧
  (∀ (s : State) (k : Nat) (f : Flit), issuing s = true → .flit k f ∈ s.tx →
    (∀ c, collOf s f = some c → c.done = false → exec (.matchRetry k f) s = .next (txFlit s k f)) ∧
    ((∀ c, collOf s f = some c → c.done = true) → exec (.matchRetry k f) s = .next s) ∧
    (ownGroup s f = false → portState s k = 3 → txFlit s k f = { s with tx := s.tx ++ [.flit k f] }))

/-- R287, R292, R301, R304, R305: the result of a trigger entry's collective is stored at DST where this member takes one, then the status word at STATUS and the addition that DONE_ADD asks for end it; it waits while DST or the status word must wait; a DST that may not be written makes it fail; a failed one ends with its status. A collective whose watchdog expires ends with COLL_TIMEOUT and subcode 0x64, is counted, and frees its slots and its match-buffer entries; before its time nothing happens. -/
def Sys2Proof.Parts.CollectiveEnds : Prop :=
  (∀ (s : State) (id t : Nat) (c : Coll), s.Inv → issuing s = true → getColl s id = some c → c.user = .trig t → c.done = true →
    let out (fin : Option State) : Prop := (∀ u, fin = some u → exec (.collectiveComplete id) s = .next u) ∧ (fin = none → exec (.collectiveComplete id) s = .next s)
    let dst := (c.ws.getD 4 0).toNat
    let len := if isBulk c.kind then (c.ws.getD 5 0).toNat % 2 ^ 32 else 64
    let put := vaPut s (srcColl s c) dst (collBytes c)
    (c.fail = none → (c.kind = 0 ∨ writesDst s c = false) → out (collFinish s c)) ∧
    (∀ s1, c.fail = none → c.kind ≠ 0 → writesDst s c = true → put = (s1, .ok ()) → out (collFinish s1 c)) ∧
    (∀ s1 e, c.fail = none → c.kind ≠ 0 → writesDst s c = true → put = (s1, .err e) → out (collFinish (vaUndef s1 c.ctx dst len) { c with fail := some (srcError e) })) ∧
    (∀ s1, c.fail = none → c.kind ≠ 0 → writesDst s c = true → put = (s1, .wait) → exec (.collectiveComplete id) s = .next s) ∧
    (∀ e, c.fail = some e → e.2 ≠ 0x63 → e.2 ≠ 0x65 → out (collFinish s c)) ∧
    (∀ e, c.fail = some e → e.2 = 0x63 ∨ e.2 = 0x65 → out (collFinish (if isBulk c.kind && writesDst s c then vaUndef s c.ctx dst len else s) c))) ∧
  (∀ (s s1 : State) (c : Coll), s.Inv →
    let st := collStatus s c
    let sa := (c.ws.getD 6 0).toNat
    let w := st.1 + st.2 * 256 + 2 ^ 31 + (if c.kind = 0 then 0 else c.seq) * 2 ^ 32
    let ended (u : State) : State := if st.1 < 0x10 ∧ (c.ws.getD 0 0).getLsbD 30 = true
      then counterAdd (collEnd u c) ((c.ws.getD 0 0).toNat / 2 ^ 19 % 2 ^ 11) ((c.ws.getD 2 0).toNat / 2 ^ 16 % 2 ^ 16) else collEnd u c
    (sa = 0 → collFinish s c = some (ended s)) ∧
    (sa ≠ 0 → vaPut s (srcColl s c) sa (leBytes 8 w) = (s1, .wait) → collFinish s c = none) ∧
    (sa ≠ 0 → vaPut s (srcColl s c) sa (leBytes 8 w) = (s1, .ok ()) → collFinish s c = some (ended s1))) ∧
  (∀ (s : State) (id : Nat) (c : Coll), s.Inv → getColl s id = some c → c.done = false → (c.fired = true ∨ c.queued = true) →
    (∀ kv ∈ s.svus, ∀ r, kv.2.act = some r → r.vid ≠ id) →
    (s.ltc.toNat < c.dl → exec (.collWatchdog id) s = .next s) ∧
    (c.dl ≤ s.ltc.toNat → ∃ u, exec (.collWatchdog id) s = .next u ∧
      u.colls = s.colls.map (fun x => if x.id = id then { x with fired := true, queued := false, fail := some (0x24, 0x64), done := true, slots := 0 } else x) ∧
      u.matchBuf = s.matchBuf.filter (fun m => !(m.2.group == c.group && m.2.seq == c.seq % 65536)) ∧
      u.regs = (addSat s R.COL_STAT 32 32 1).regs ∧ u.mem = s.mem ∧ u.threads = s.threads))

/-- R335, R340, R347, R353, R359: CKP_CFG takes VALID only where its checks hold, and otherwise takes the rest with CKP_CFG_ERR at status 0x10 and the partition; a cut request sets the REQUEST cause unless a vote, a copy or a restore runs; STOP and a failed module write end a running drain, the latter with status 0x10 and subcode 0x90, and do nothing where none runs; RVOTE takes the vote of a restore that waits for it, and nothing else. -/
def Sys2Proof.Parts.CheckpointOrders : Prop :=
  ∀ (s : State) (p : Nat), s.Inv → p < 8 →
    (∀ v : Word, (v.getLsbD 63 = false ∨ ckpOn s p = true ∨ ckpCfgOk s p (v.toNat % 1024) = true) →
      exec (.ckpCfgValid p v) s = .next (regPut s (R.CKP_CFG p) v)) ∧
    (∀ v : Word, v.getLsbD 63 = true → ckpOn s p = false → ckpCfgOk s p (v.toNat % 1024) = false →
      exec (.ckpCfgValid p v) s = .next (wr (regPut s (R.CKP_CFG p) (putf v 63 1 0)) R.CKP_CFG_ERR (BitVec.ofNat 64 (0x10 + p * 256 + 2 ^ 63)))) ∧
    (ckpPhase s p ∉ [1, 2, 3, 6] → ∃ u, exec (.ckpCmdCut p) s = .next u ∧ rdf u (R.CKP_STAT p) 5 1 = 1 ∧ ckpPhase u p = ckpPhase s p ∧
      (∀ a, a ≠ R.CKP_STAT p → rd u a = rd s a) ∧ u.mem = s.mem) ∧
    (ckpPhase s p ∈ [1, 2, 3, 6] → exec (.ckpCmdCut p) s = .next s) ∧
    (∀ d, (ckpOf s p).drain = some d →
      exec (.ckpCmdStop p) s = .next (stopDrain s p 0 0) ∧ exec (.drainWriteFail p) s = .next (stopDrain s p 0x10 0x90) ∧
      (ckpOf (stopDrain s p 0x10 0x90) p).drain = none ∧ rdf (stopDrain s p 0x10 0x90) (R.CKP_STAT p) 8 16 = 0x9010) ∧
    ((ckpOf s p).drain = none → exec (.ckpCmdStop p) s = .next s ∧ exec (.drainWriteFail p) s = .next s) ∧
    (∀ r, (ckpOf s p).rest = some r → ckpPhase s p = 8 → r.local_ = true →
      exec (.ckpCmdRvote p) s = .next (restoreVote s p { r with auto := false })) ∧
    (ckpPhase s p ≠ 8 → exec (.ckpCmdRvote p) s = .next s)

/-- R349, R354, R358: a restore command to a partition with checkpointing in force, or RESHARD to any, while no vote, copy or restore runs, takes phase 6 and starts to read its source: the cofferdams, the modules or the mirrors; otherwise it is ignored, as is RESHARD from any other source. -/
def Sys2Proof.Parts.RestoresStart : Prop :=
  (∀ (c : Nat → Instr) (src : Nat) (reshard : Bool),
    ((c, src, reshard) = (Instr.ckpCmdRestoreCofferdam, 0, false) ∨ (c, src, reshard) = (Instr.ckpCmdRestoreModules, 1, false) ∨
     (c, src, reshard) = (Instr.ckpCmdRestoreMirror, 2, false) ∨ (c, src, reshard) = (fun p => Instr.ckpCmdReshard p 1, 1, true) ∨
     (c, src, reshard) = (fun p => Instr.ckpCmdReshard p 2, 2, true)) →
    ∀ (s : State) (p : Nat), s.Inv → p < 8 →
      ((ckpPhase s p ∈ [1, 2, 3, 6] ∨ (ckpOn s p = false ∧ reshard = false)) → exec (c p) s = .next s) ∧
      ((ckpOn s p = true ∨ reshard = true) → ckpPhase s p ∉ [1, 2, 3, 6] →
        let r : Restore := ⟨src, reshard, (rd s (R.CKP_RCUT p)).toNat, 0, 0, 0, none, false, false, 0, 0, 0, false⟩
        let s1 : State := setPhase (setCkp s p { ckpOf s p with rest := some r }) p 6
        let s2 : State := { s1 with mail := s.mail.filter (fun m => !(m.kind == 1 && m.id == p)) }
        exec (c p) s = .next (if src = 0 then beginCoff s2 p r else if src = 1 then beginModules s2 p r else pumpRest p 70000 s2))) ∧
  (∀ (s : State) (p src : Nat), src ≠ 1 → src ≠ 2 → exec (.ckpCmdReshard p src) s = .next s)

/-- R339, R342, R343, R352: when the cut vote comes back the package releases its step: with the vote's failure; with status 0x11 and subcode 0x80 where the packages' steps differ; with status 0 where no package has a cause, and with subcode 0x81 where one still drains. Otherwise the cut is taken: its number and causes are kept, the causes are cleared, the cofferdam is marked empty and the copy begins (phase 2). An aborted partition gets the failure only; while the record's lines must wait, the outcome waits. -/
def Obligations.CutVotes : Prop :=
  ∀ (s : State) (p : Nat) (c : Coll), s.Inv → p < 8 → voteDone s p 0 = some c →
    let st := collStatus s c
    let s1 := collEnd s c
    let s2 := wr s1 (R.CKP_GSEALED p) (BitVec.ofNat 64 (voteSlot c 5))
    let release (u : State) : State := takeBounds p (2 ^ 32) (restPhase u p)
    (recordWaits s p = true → exec (.cutVoteResult p) s = .next s) ∧
    (recordWaits s p = false → ckpPhase s1 p = 7 → 0x10 ≤ st.1 → exec (.cutVoteResult p) s = .next (writeRelease s1 p st.1 st.2 0 0)) ∧
    (recordWaits s p = false → ckpPhase s1 p ≠ 1 → ckpPhase s1 p ≠ 7 ∨ st.1 < 0x10 → exec (.cutVoteResult p) s = .next s1) ∧
    (recordWaits s p = false → ckpPhase s1 p = 1 →
      (0x10 ≤ st.1 → exec (.cutVoteResult p) s = .next (release (writeRelease s1 p st.1 st.2 0 0))) ∧
      (st.1 < 0x10 → voteSlot c 2 ≠ voteSlot c 3 → exec (.cutVoteResult p) s = .next (release (writeRelease s2 p 0x11 0x80 0 0))) ∧
      (st.1 < 0x10 → voteSlot c 2 = voteSlot c 3 → voteSlot c 0 = 0 → exec (.cutVoteResult p) s = .next (release (writeRelease s2 p 0 0 0 0))) ∧
      (st.1 < 0x10 → voteSlot c 2 = voteSlot c 3 → voteSlot c 0 ≠ 0 → voteSlot c 4 ≠ 0 →
        exec (.cutVoteResult p) s = .next (release (addSat (writeRelease s2 p 0 0x81 2 0) (R.CKP_STAT p) 32 16 1))) ∧
      (st.1 < 0x10 → voteSlot c 2 = voteSlot c 3 → voteSlot c 0 ≠ 0 → voteSlot c 4 = 0 →
        let s3 := wrf s2 (R.CKP_STAT p) 4 3 0
        let s4 := setPhase (setCkp s3 p { ckpOf s3 p with cut := voteSlot c 1, cause := voteSlot c 0 % 8, copyErr := none }) p 2
        exec (.cutVoteResult p) s = .next (devWrite s4 (coffBase s4 p 0) (leBytes 8 0))))

/-- R336, R344: in phase 2 the regions are copied into the cofferdams; a whole copy writes the state block, then its cut number, and CKP_CUTS; the copied vote is taken (phase 3), with 1 where this package's copy failed. When it comes back with every package whole and of one cut, the step is released with flag 1 and the drain begins; otherwise the cofferdam is marked empty and the step is released with the failure: the vote's, or this package's own with subcode 0x82. Each waits while memory must wait. -/
def Sys2Proof.Parts.CutCopies : Prop :=
  (∀ (s : State) (p : Nat), s.Inv → p < 8 → ckpPhase s p = 2 →
    let cut := (ckpOf s p).cut
    let west := copyRegions s 0 p (coffBase s p 0 + 16384) (regionsOf s p 0)
    let voted (u : State) (x : Option (Nat × Nat)) : Prop := exec (.cutCopyDone p) s = .next
      (takeVote (setPhase (setCkp u p { ckpOf u p with copyErr := x }) p 3) p 1 0x547 [if x.isSome then 1 else 0, cut, cut])
    (setWaits s p = true → exec (.cutCopyDone p) s = .next s) ∧
    (∀ w e, setWaits s p = false → west = (w, none) → copyRegions w 1 p (coffBase s p 1) (regionsOf s p 1) = (e, none) →
      voted (wr (devWrite (devWrite e (coffBase s p 0) (stateBlock e p)) (coffBase s p 0) (leBytes 8 cut)) (R.CKP_CUTS p) (BitVec.ofNat 64 cut)) none) ∧
    (∀ w x, setWaits s p = false → west = (w, some x) → voted w (some x)) ∧
    (∀ w e x, setWaits s p = false → west = (w, none) → copyRegions w 1 p (coffBase s p 1) (regionsOf s p 1) = (e, some x) → voted e (some x))) ∧
  (∀ (s : State) (p : Nat) (c : Coll), s.Inv → p < 8 → voteDone s p 1 = some c →
    let st := collStatus s c
    let s1 := collEnd s c
    let k := ckpOf s1 p
    let abandoned (st sub : Nat) : State := writeRelease (devWrite s1 (coffBase s1 p 0) (leBytes 8 0)) p st sub 0 0
    (recordWaits s p = true → exec (.copiedVoteResult p) s = .next s) ∧
    (recordWaits s p = false → ckpPhase s1 p = 7 → 0x10 ≤ st.1 → exec (.copiedVoteResult p) s = .next (abandoned st.1 st.2)) ∧
    (recordWaits s p = false → ckpPhase s1 p = 3 →
      (st.1 < 0x10 → voteSlot c 0 = 0 → voteSlot c 1 = voteSlot c 2 →
        exec (.copiedVoteResult p) s = .next (takeBounds p (2 ^ 32) (startDrain (writeRelease s1 p 0 0 1 k.cut) p k.cut k.cause))) ∧
      (0x10 ≤ st.1 → exec (.copiedVoteResult p) s = .next (takeBounds p (2 ^ 32) (restPhase (abandoned st.1 st.2) p))) ∧
      (st.1 < 0x10 → voteSlot c 0 ≠ 0 ∨ voteSlot c 1 ≠ voteSlot c 2 →
        exec (.copiedVoteResult p) s = .next (takeBounds p (2 ^ 32) (restPhase (abandoned ((k.copyErr.map (·.1)).getD 0x12) 0x82) p)))))

/-- R346-R348, R405: a drain that has sent its data writes the cut to its module slot, the manifest last, unless the modules refuse writes (status 0x10, subcode 0x90); once the buddies have the manifest too, or at once where there are none, the slot's register and, where no buddy was lost, CKP_SEALED name the cut, and the drain is over. While a line is outstanding, still to be sent, or must wait, nothing happens. -/
def Sys2Proof.Parts.DrainSeals : Prop :=
  ∀ (s : State) (p : Nat) (d : Drain), s.Inv → p < 8 → (ckpOf s p).drain = some d →
    (moverOut s p ≠ 0 ∨ d.sent < stageLines s p d.stage ∨ (d.stage = 1 ∧ setWaits s p = true) → exec (.drainSeal p) s = .next s) ∧
    (moverOut s p = 0 → stageLines s p d.stage ≤ d.sent → d.stage = 1 → setWaits s p = false → bayState s 4 = false →
      exec (.drainSeal p) s = .next (stopDrain s p 0x10 0x90)) ∧
    (moverOut s p = 0 → stageLines s p d.stage ≤ d.sent → d.stage = 3 → d.lost = false → ckpPhase s p ∈ [4, 5] →
      ∃ u, exec (.drainSeal p) s = .next u ∧ (ckpOf u p).drain = none ∧
        rd u (R.CKP_SEALED p) = BitVec.ofNat 64 d.cut ∧ rd u (slotReg p d.slot) = BitVec.ofNat 64 d.cut ∧ ckpPhase u p = 0 ∧ u.mem = s.mem) ∧
    (moverOut s p = 0 → stageLines s p d.stage ≤ d.sent → d.stage = 3 → d.lost = true → ckpPhase s p ∈ [4, 5] →
      ∃ u, exec (.drainSeal p) s = .next u ∧ (ckpOf u p).drain = none ∧
        rd u (R.CKP_SEALED p) = rd s (R.CKP_SEALED p) ∧ rdf u (R.CKP_STAT p) 8 16 = 0x8B22 ∧ ckpPhase u p = 0) ∧
    (moverOut s p = 0 → stageLines s p d.stage ≤ d.sent → d.stage = 1 → setWaits s p = false → bayState s 4 = true →
      let w := physRead s srcDev (coffBase s p 0) (seqLen s p 0)
      let e := physRead w.1 srcDev (coffBase s p 1) (seqLen s p 1)
      let all := w.2.1 ++ e.2.1
      let s1 := writeBlocks e.1 p d.slot 1 all (all.length / 4096)
      let s2 := writeBlock s1 p d.slot 0 (manifest s1 p d [w.2.1, e.2.1])
      let s3 := setCkp s2 p { ckpOf s p with drain := some { d with stage := 2, sent := 0 } }
      let s4 := if ckpPhase s3 p = 4 then setPhase s3 p 5 else s3
      (rdf s4 (R.CKP_MIRCFG p) 0 4 ≠ 0 → exec (.drainSeal p) s = .next (pumpDrain p 40000 s4)) ∧
      (rdf s4 (R.CKP_MIRCFG p) 0 4 = 0 → d.lost = false → ∃ u, exec (.drainSeal p) s = .next u ∧ (ckpOf u p).drain = none ∧
        rd u (R.CKP_SEALED p) = BitVec.ofNat 64 d.cut ∧ rd u (slotReg p d.slot) = BitVec.ofNat 64 d.cut))

/-- R349-R351, R353, R358: when the local part of a restore ends, the cut is verified and put in place, or staged for RESHARD, or the restore has failed: with what reading gave, with status 0x41 and subcode 0x87 where a digest differs, with 0x40 and 0x86 where a region has no match; then the restore vote is taken, or waits for RVOTE. When that comes back with every package whole and of one cut, the step is released with flag 4; where it does not, a restore from the modules tries the other slot once, and any other releases the step with the failure. Each waits while memory must wait. -/
def Sys2Proof.Parts.RestoresEnd : Prop :=
  (∀ (s : State) (p : Nat) (r : Restore), s.Inv → p < 8 → (ckpOf s p).rest = some r →
    let fin (u : State) (r : Restore) : State :=
      let r1 := { r with local_ := true, step := if r.source = 0 then (rd u (R.CKP_STEP p)).toNat else r.step }
      let t : State := { u with mail := u.mail.filter (fun m => !(m.kind == 1 && m.id == p)) }
      if r.reshard then restPhase (setCkp t p { ckpOf t p with rest := none }) p
      else if r.auto then setPhase (setCkp t p { ckpOf t p with rest := some r1 }) p 8
      else restoreVote (setCkp t p { ckpOf t p with rest := some r1 }) p r1
    let fail (u : State) (e : Nat × Nat) : State := fin (ckpStat u p e.1 e.2) { r with fail := some e }
    (ckpPhase s p ≠ 6 ∨ r.local_ = true ∨ setWaits s p = true → exec (.restoreLocalDone p) s = .next s) ∧
    (ckpPhase s p = 6 → r.local_ = false → setWaits s p = false →
      (∀ e, r.fail = some e → exec (.restoreLocalDone p) s = .next (fin s r)) ∧
      (r.fail = none → restRead s p r = none → exec (.restoreLocalDone p) s = .next s) ∧
      (∀ s1 man seqs e, r.fail = none → restRead s p r = some (s1, man, seqs, some e) → exec (.restoreLocalDone p) s = .next (fail s1 e)) ∧
      (∀ s1 m seqs, r.fail = none → restRead s p r = some (s1, some m, seqs, none) →
        (digestsOk m seqs = false → exec (.restoreLocalDone p) s = .next (fail s1 (0x41, 0x87))) ∧
        (digestsOk m seqs = true → r.reshard = true → exec (.restoreLocalDone p) s = .next (fin (ckpStat (stageCut s1 seqs) p 0 0) r)) ∧
        (digestsOk m seqs = true → r.reshard = false → mapRegions s1 p m = none → exec (.restoreLocalDone p) s = .next (fail s1 (0x40, 0x86))) ∧
        (∀ map s2, digestsOk m seqs = true → r.reshard = false → mapRegions s1 p m = some map → applyCut s1 p map seqs = (s2, none) →
          exec (.restoreLocalDone p) s = .next (fin s2 r)) ∧
        (∀ map s2 e, digestsOk m seqs = true → r.reshard = false → mapRegions s1 p m = some map → applyCut s1 p map seqs = (s2, some e) →
          exec (.restoreLocalDone p) s = .next (fail s2 e))) ∧
      (∀ s1 s2 seqs err, r.fail = none → restRead s p r = some (s1, none, seqs, none) →
        let place (h : Nat) : List (Nat × Nat × Nat × Nat) := ((regionsOf s1 p h).foldl (fun (a : List (Nat × Nat × Nat × Nat) × Nat) g =>
          (a.1 ++ [(h, a.2, g.2.2, g.2.1)], a.2 + g.2.2)) ([], if h = 0 then 16384 else 0)).1
        applyCut s1 p (place 0 ++ place 1) seqs = (s2, err) →
        exec (.restoreLocalDone p) s = .next (match err with | none => fin s2 r | some e => fail s2 e)))) ∧
  (∀ (s : State) (p : Nat) (c : Coll) (r : Restore), s.Inv → p < 8 → voteDone s p 2 = some c → (ckpOf s p).rest = some r →
    let st := collStatus s c
    let s1 := collEnd s c
    let ended (u : State) : State := takeBounds p (2 ^ 32) (restPhase (setCkp u p { ckpOf u p with rest := none }) p)
    let whole := voteSlot c 0 = 0 ∧ voteSlot c 1 = voteSlot c 2
    (recordWaits s p = true → exec (.restoreVoteResult p) s = .next s) ∧
    (recordWaits s p = false →
      (st.1 < 0x10 → whole → exec (.restoreVoteResult p) s = .next (ended (writeRelease s1 p 0 (if r.second then 0x89 else 0) 4 r.cut))) ∧
      (st.1 < 0x10 → ¬ whole → r.source = 1 → r.second = false →
        let r1 := { r with second := true, slot := 1 - r.slot, fail := none, local_ := false, cut := 0, step := 0 }
        exec (.restoreVoteResult p) s = .next (beginModules (setPhase (setCkp s1 p { ckpOf s1 p with rest := some r1 }) p 6) p r1)) ∧
      (st.1 < 0x10 → ¬ whole → r.source ≠ 1 ∨ r.second = true →
        let e := r.fail.getD (0x40, 0x84)
        exec (.restoreVoteResult p) s = .next (ended (writeRelease s1 p e.1 e.2 4 0))) ∧
      (0x10 ≤ st.1 → exec (.restoreVoteResult p) s = .next (ended (writeRelease s1 p st.1 st.2 4 0)))))

/-- R317, R318, R319, R320, R329: on a served ring an invalidated index line is read again; counts that fit are taken and descriptors are read; counts that run backwards or beyond the ring stop the ring with BAD_INDEX; a failed descriptor read gives its descriptors back; the device index line carries both counts, while the host is there; a claim returns the next SEQ of the log ring and takes it. What no read asked for does nothing. -/
def Obligations.RingsAndClaims : Prop :=
  ∀ (s : State) (r : Nat), s.Inv → r < 256 →
    (ringOn s r = true → exec (.hostLineInvalidated r) s = .next (readIndex s r)) ∧
    (ringOn s r = false → exec (.hostLineInvalidated r) s = .next s) ∧
    (∀ p q, ringOn s r = false ∨ (ringOf s r).reads = 0 → exec (.hostIndexLineArrival r p q) s = .next s) ∧
    (∀ p q, ringOn s r = true → (ringOf s r).reads ≠ 0 →
      let x := ringOf s r
      let s1 := setRing s r { x with reads := x.reads - 1 }
      ((x.sqPi ≤ p ∧ p - x.sqCi ≤ sqSize s r ∧ x.cqCi ≤ q ∧ q ≤ x.cqPi) → exec (.hostIndexLineArrival r p q) s =
        .next (takeDescs (setRing s1 r { ringOf s1 r with sqPi := p, cqCi := q }) r)) ∧
      ((p < x.sqPi ∨ sqSize s r < p - x.sqCi ∨ q < x.cqCi ∨ x.cqPi < q) → exec (.hostIndexLineArrival r p q) s = .next (ringError s1 r 0x70))) ∧
    ((ringOf s r).toCome ≠ 0 → exec (.descriptorReadFailure r) s =
      .next (ringError (setRing (wrf s (R.DSP_RING_STAT r) 32 32 (rdf s (R.DSP_RING_STAT r) 32 32 + 2 ^ 32 - (ringOf s r).toCome)) r
        { ringOf s r with sqCi := (ringOf s r).sqCi - (ringOf s r).toCome, toCome := 0 }) r 0x72)) ∧
    ((ringOf s r).toCome = 0 → exec (.descriptorReadFailure r) s = .next s) ∧
    (s.hostLost = false → exec (.deviceIndexLineWrite r) s =
      .next { s with tx := s.tx ++ [.host (hostLine s r + 64) (leBytes 8 (ringOf s r).sqCi ++ leBytes 8 (ringOf s r).cqPi)] }) ∧
    (s.hostLost = true → exec (.deviceIndexLineWrite r) s = .next s) ∧
    (∀ p < 8, ∃ u, exec (.dspLogclaim p) s = .next u ∧ rd u (R.DSP_LOGPTR p) = rd s (R.DSP_LOGPTR p) + 1 ∧
      (∀ a, a ≠ R.DSP_LOGPTR p → rd u a = rd s a) ∧ u.mem = s.mem ∧
      u.tx = s.tx ++ [.answer (R.DSP_LOGCLAIM p) (leBytes 8 (rd s (R.DSP_LOGPTR p)).toNat) true])

/-- R321, R322, R323: a descriptor that arrives joins its ring, which is then served. With none before it, one that breaks its table completes with BAD_DESC; a LAUNCH starts its threads; a TADD adds to a counter its context owns and otherwise completes with a permission fault; a MARK completes; and when no descriptor is left to start the ring takes more. One with BARRIER set waits behind those that have not completed. -/
def Obligations.DescriptorsStart : Prop :=
  ∀ (s : State) (r : Nat) (bytes : List Byte), s.Inv → r < 256 → (ringOf s r).toCome ≠ 0 → bytes.length = 64 →
    let x := ringOf s r
    let d : DescSt := ⟨x.sqCi - x.toCome, ringCtx s r, bytes, false, 0, [], [], 0, 0, none, none, none⟩
    let s1 := setRing s r { x with toCome := x.toCome - 1, descs := x.descs ++ [d] }
    let run : Host.Outcome State Fault Refusal :=
      if dBad d then exec (.badDesc r bytes) s else if dOp d = 1 then exec (.launch r bytes) s else if dOp d = 2 then exec (.tadd r bytes) s else exec (.mark r bytes) s
    (run = .next (serveRing s1 r)) ∧
    (∀ u, (∀ y ∈ (ringOf u r).descs, y.started = true ∧ (dBad y = true ∨ dOp y ≠ 3)) → runRing r 7 u = takeDescs u r) ∧
    (x.descs = [] →
      (dBad d = true → run = .next (runRing r 7 (complete s1 r d 0x11 0x71 0))) ∧
      (dBad d = false → dOp d = 1 → run = .next (runRing r 7 (startLaunch s1 r d))) ∧
      (dBad d = false → dOp d = 2 →
        let n := dField d 16 8 % 2048
        run = .next (runRing r 7
          (if bitw (rd s (R.COL_TCTR n)) 63 && rdf s (R.COL_TCTR n) 32 6 == d.ctx then
            complete (counterAdd s1 n (dField d 20 4)) r d 0 0 ((rdf s (R.COL_TCTR n) 0 32 + dField d 20 4) % 2 ^ 32)
          else complete s1 r d 0x11 0x17 0))) ∧
      (dBad d = false → dOp d = 3 → run = .next (takeDescs (complete s1 r { d with started := true } 0 0 0) r))) ∧
    (dBad d = false → dField d 9 1 % 2 = 1 → x.descs ≠ [] → (∀ y ∈ x.descs, y.ix < d.ix ∧ y.started = true ∧ (dBad y = true ∨ dOp y ≠ 3)) →
      run = .next (takeDescs s1 r))

/-- R52, R323, R327, R328: RESUME restarts a stopped thread at its faulting point, once its save is over, or lets its saved image run again; ABANDON discards a stopped thread, or its image, and its LAUNCH counts it; an expired watchdog stops every running thread of its LAUNCH and its timer is free; the oldest fault waiting goes to the fault ring while that has room and the host is there. -/
def Obligations.ThreadControl : Prop :=
  ∀ (s : State) (t : Tid), s.Inv →
    let k := tkey t
    ((th s k).phase = .fault → (th s k).saving = none →
      let s1 := setTh s k { th s k with phase := .run, halt := false }
      exec (.dspTctlResume t) s = .next (goOn (if isS k then s1 else reviveCore s1 k) k)) ∧
    ((th s k).phase = .fault → (th s k).saving ≠ none → exec (.dspTctlResume t) s = .next s) ∧
    ((th s k).phase ≠ .fault → exec (.dspTctlResume t) s =
      .next { s with images := s.images.map (fun im => if im.key = k ∧ im.th.phase = .fault then { im with th := { im.th with phase := .run } } else im) }) ∧
    ((th s k).phase = .fault → exec (.dspTctlAbandon t) s = .next (abandon s k)) ∧
    (∀ im, (th s k).phase ≠ .fault → s.images.find? (fun im => im.key == k && im.th.phase == .fault) = some im → exec (.dspTctlAbandon t) s =
      .next (threadOver (dropCopies { s with images := s.images.filter (fun x => x ≠ im) } k im.th.gen) k im.th.launch none im.th.err)) ∧
    ((th s k).phase ≠ .fault → (∀ im ∈ s.images, im.key = k → im.th.phase ≠ .fault) → exec (.dspTctlAbandon t) s = .next s) ∧
    (∀ r ix, (ringOf s r).descs.find? (fun d => d.ix == ix) = none → exec (.launchWatchdog r ix) s = .next s) ∧
    (∀ r ix d, (ringOf s r).descs.find? (fun d => d.ix == ix) = some d →
      (d.wdogAt = none → exec (.launchWatchdog r ix) s = .next s) ∧
      (∀ w, d.wdogAt = some w → s.ltc.toNat < w → exec (.launchWatchdog r ix) s = .next s) ∧
      (∀ w, d.wdogAt = some w → w ≤ s.ltc.toNat → exec (.launchWatchdog r ix) s =
        .next (timer3 (d.live.foldl (fun s k => watchdogStop s (r, ix) k) (modDesc s r ix (fun d => { d with wdogAt := none }))) d.ctx))) ∧
    (∀ f rest, s.faultQ = f :: rest → s.hostLost = false → cqRoom s (rdf s R.DSP_CFG 8 8) ≠ 0 →
      let d := f.launch.bind (fun l => (ringOf s l.1).descs.find? (fun d => d.ix == l.2))
      exec .faultRecordWrite s = .next (writeRec { s with faultQ := rest } ⟨rdf s R.DSP_CFG 8 8, (d.map (fun d => dField d 0 8)).getD 0, f.status, f.sub,
        (d.map (·.ctx)).getD 0xFFFF, 0, 0, coreOf f.key % 256 + (if isS f.key then 1 else 0) * 256 + lane f.key * 65536⟩)) ∧
    ((s.faultQ = [] ∨ s.hostLost = true ∨ cqRoom s (rdf s R.DSP_CFG 8 8) = 0) → exec .faultRecordWrite s = .next s)

/-- R46, R318, R320, R325, R326, R331, R333, R367, R376: a translation invalidation drops the entries of its context, or those that map its page, when it completes, and DONE tells it; one still under way is made first. A context in use is not destroyed, keeps its partition while it exists, and a new one starts with its program chain at zero; a core set naming a core above the enabled count, or in CONFIDENTIAL a core of another partition's cluster, is refused; enabling a ring reads its index line, and restarts a stopped one; ENABLE delivers the records held while the host was away and serves the rings. -/
def Obligations.ContextsAndInvalidation : Prop :=
  ∀ (s : State) (v : Word), s.Inv →
    (let s0 := match s.tlbInv with | some (c, p) => tlbDrop s c p | none => s
     let s1 := regPut s0 R.DSP_TLBINV v
     (v.getLsbD 63 = true → exec (.dspTlbinvGo v) s =
       .next { wrf s1 R.DSP_TLBINV 62 1 0 with tlbInv := some (fld v 0 6, if bitw v 6 then none else some (fld v 21 27)) }) ∧
     (v.getLsbD 63 = false → exec (.dspTlbinvGo v) s = .next (wrf { s1 with tlbInv := none } R.DSP_TLBINV 62 1 1))) ∧
    (∀ c p, s.tlbInv = some (c, p) → ∃ u, exec .tlbinvDone s = .next u ∧ u.tlbInv = none ∧ rdf u R.DSP_TLBINV 62 1 = 1 ∧
      (∀ e, e ∈ u.tlb ↔ e ∈ s.tlb ∧ ¬ (e.ctx = c ∧ (p = none ∨ ∃ n, p = some n ∧ (e.vpn = n ∨ (e.big = true ∧ e.vpn / 512 = n / 512))))) ∧
      u.mem = s.mem ∧ (∀ a, a ≠ R.DSP_TLBINV → rd u a = rd s a)) ∧
    (s.tlbInv = none → exec .tlbinvDone s = .next s) ∧
    (∀ c < 64, (ctxValid s c = true → v.getLsbD 63 = false → ctxUsed s c = true → exec (.dspCtxdefValid c v) s = .next (dspRefuse s 0x30 c)) ∧
      (ctxValid s c = true → v.getLsbD 63 = false → ctxUsed s c = false → exec (.dspCtxdefValid c v) s = .next (regPut s (R.DSP_CTXDEF c) v)) ∧
      (ctxValid s c = true → v.getLsbD 63 = true → exec (.dspCtxdefValid c v) s = .next (regPut s (R.DSP_CTXDEF c) (putf v 0 3 (partOf s c)))) ∧
      (ctxValid s c = false → v.getLsbD 63 = false → exec (.dspCtxdefValid c v) s = .next (regPut s (R.DSP_CTXDEF c) v)) ∧
      (ctxValid s c = false → v.getLsbD 63 = true → ∃ u, exec (.dspCtxdefValid c v) s = .next u ∧ (∀ w < 8, rd u (R.SEC_PCHAIN c w) = 0) ∧
        (∀ a, (∀ w < 8, a ≠ R.SEC_PCHAIN c w) → rd u a = rd (regPut s (R.DSP_CTXDEF c) v) a))) ∧
    (∀ c k w, c < 64 → k < 4 → w < 6 →
      let fits := 2 ≤ w ∨ v.toNat < 2 ^ (2 * nCores s - 64 * w)
      (¬ fits → exec (.dspCsetWrite c k w v) s = .next (dspRefuse s 0x10 c)) ∧
      (fits → w < 5 → clusterClash s c w v = true → exec (.dspCsetWrite c k w v) s = .next (dspRefuse s 0x30 c)) ∧
      (fits → w = 5 ∨ clusterClash s c w v = false → exec (.dspCsetWrite c k w v) s = .next (regPut s (R.DSP_CSET c k w) v)) ∧
      (confidential s = false → clusterClash s c w v = false)) ∧
    (∀ r < 256,
      let s1 := regPut s (R.DSP_RING_SQ r) v
      (v.getLsbD 63 = false ∨ rdf s (R.DSP_RING_STAT r) 0 1 = 1 → exec (.dspRingEnable r v) s = .next s1) ∧
      (v.getLsbD 63 = true → rdf s (R.DSP_RING_STAT r) 0 1 = 0 → (ringOf s r).stopped = false → exec (.dspRingEnable r v) s = .next (readIndex s1 r)) ∧
      (v.getLsbD 63 = true → rdf s (R.DSP_RING_STAT r) 0 1 = 0 → (ringOf s r).stopped = true →
        exec (.dspRingEnable r v) s = .next (readIndex (setRing s1 r { ringOf s r with stopped := false, sqPi := (ringOf s r).sqCi }) r))) ∧
    (let s1 := regPut s R.DSP_CFG v
     let up := rdf s R.PLK_STAT 0 2 = 3 ∨ rdf s R.PLK_STAT 2 2 = 3
     let serve (u : State) : State := u.rings.foldl (fun u kv => takeDescs u kv.1) u
     (v.getLsbD 0 = false → exec (.dspCfgEnable v) s = .next s1) ∧
     (v.getLsbD 0 = true → s.hostLost = false ∨ ¬ up → exec (.dspCfgEnable v) s = .next (serve s1)) ∧
     (v.getLsbD 0 = true → s.hostLost = true → up →
       exec (.dspCfgEnable v) s = .next (serve (s.heldRecs.foldl writeRec { s1 with hostLost := false, heldRecs := [] }))))

/-- R28, R312, R313, R316, R331, R371: a port that goes down while the other is up loses nothing but itself; with both down the host is lost: the session ends, its lines leave the directory, and those it held dirty are poisoned. Training brings a port up, but not in the fatal state; a flit that fails its CRC is counted and resent, one that fails its tag in a session is counted too, and the eighth in a row declares the port down; a line the host held dirty comes back with its bytes, no other byte changes, and a checkpoint that waited goes on. -/
def Obligations.HostLink : Prop :=
  ∀ (s : State) (port : Nat), s.Inv → port < 2 →
    (rdf s R.PLK_STAT (2 * port) 2 = 0 → exec (.plkPortDown port) s = .next s) ∧
    (rdf s R.PLK_STAT (2 * port) 2 ≠ 0 →
      let s1 := addSat (wrf s R.PLK_STAT (2 * port) 2 0) R.PLK_STAT 16 16 1
      exec (.plkPortDown port) s =
        .next (if rdf s R.PLK_STAT (2 * (1 - port)) 2 = 3 ∨ s.hostLost = true then s1 else loseHost s1 port)) ∧
    ((loseHost s port).hostLost = true ∧ (loseHost s port).session = none ∧ (loseHost s port).hostLines = [] ∧ (loseHost s port).mem = s.mem ∧
      (∀ l, sget 0 s.hostLines l = 2 → l ∈ (loseHost s port).poison)) ∧
    (pwrState s ≠ 4 → ∃ u, exec (.plkPortUp port) s = .next u ∧ rdf u R.PLK_STAT (2 * port) 2 = 3 ∧ (∀ a, a ≠ R.PLK_STAT → rd u a = rd s a) ∧ u.mem = s.mem) ∧
    (pwrState s = 4 → exec (.plkPortUp port) s = .next s) ∧
    (∀ n, rdf s R.PLK_STAT (2 * port) 2 ≠ 3 → exec (.plkFlitResend port n) s = .next s) ∧
    (∀ n, rdf s R.PLK_STAT (2 * port) 2 = 3 → (n = 0 ∨ s.session = none) → exec (.plkFlitResend port n) s = .next (addSat s R.PLK_ERR 0 32 1)) ∧
    (∀ n, rdf s R.PLK_STAT (2 * port) 2 = 3 → 1 ≤ n → n < 8 → s.session ≠ none →
      exec (.plkFlitResend port n) s = .next (addSat (addSat s R.PLK_ERR 0 32 1) R.SEC_LINKAUTH 32 32 1)) ∧
    (∀ n, rdf s R.PLK_STAT (2 * port) 2 = 3 → 8 ≤ n → s.session ≠ none →
      exec (.plkFlitResend port n) s = .next (plkDown (addSat (addSat s R.PLK_ERR 0 32 1) R.SEC_LINKAUTH 32 32 1) port)) ∧
    (∀ line bytes, sget 0 s.hostLines line = 2 → bytes.length = 64 →
      let u := physWrite { s with hostLines := sset 0 s.hostLines line 0 } srcHost (line * 64) bytes
      exec (.recallReturn line bytes) s = .next (ckpPump u) ∧ (∀ i < 64, memByte u (line * 64 + i) = bytes.getD i 0) ∧
      (∀ a, a / 64 ≠ line → memByte u a = memByte s a)) ∧
    (∀ line bytes, sget 0 s.hostLines line ≠ 2 → exec (.recallReturn line bytes) s = .next s)

/-- R25, R314, R316, R366, R371, R376, R385, R416, R425: a host write of bytes within one line changes those bytes of memory and no other, no register and no thread, and is acknowledged; a host read answers the line's bytes, and the host then holds the line as it asked; poison is answered as poison; an access barred to the host, or outside what exists, gets the link's error response and does nothing else; one whose line must wait waits; with no port up no access arrives. -/
def Obligations.HostMemoryAccesses : Prop :=
  ∀ (s : State) (a hold : Nat), s.Inv →
    (∀ bs, plkOpen s = true → bs ≠ [] → a % 64 + bs.length ≤ 64 → hostBarred s a = false → region a ≠ .reg →
      physErr s .host a bs.length true = none →
      (hostWaits s (a / 64) = false →
        ∃ u, exec (.hostWrite a bs hold) s = .next u ∧ (∀ i (h : i < bs.length), memByte u (a + i) = bs[i]) ∧
          (∀ x, x < a ∨ a + bs.length ≤ x → memByte u x = memByte s x) ∧ u.regs = s.regs ∧ u.threads = s.threads ∧ u.tx = s.tx ++ [.answer a [] true]) ∧
      (hostWaits s (a / 64) = true → exec (.hostWrite a bs hold) s = .next s)) ∧
    (∀ n, plkOpen s = true → n ≠ 0 → a % 64 + n ≤ 64 → hostBarred s a = false → region a ≠ .reg → physErr s .host a n false = none →
      let m := physRead s srcHost a n
      (hostWaits s (a / 64) = true → exec (.hostRead a n hold) s = .next s) ∧
      (hostWaits s (a / 64) = false → m.2.2 = false →
        exec (.hostRead a n hold) s = .next (toHost (hostHolds m.1 (a / 64) hold) (.answer a m.2.1 true))) ∧
      (hostWaits s (a / 64) = false → m.2.2 = true → exec (.hostRead a n hold) s = .next (toHost m.1 (.poisoned a))) ∧
      (sget 0 s.symErr (a / 64) = 0 → m.2.1 = (List.range n).map (fun i => memByte s (a + i)) ∧ (m.2.2 = true ↔ a / 64 ∈ s.poison) ∧
        m.1.mem = s.mem ∧ m.1.regs = s.regs ∧ m.1.threads = s.threads)) ∧
    (∀ n bs, plkOpen s = true → n ≠ 0 → a % 64 + n ≤ 64 → bs ≠ [] → a % 64 + bs.length ≤ 64 → hostBarred s a = true →
      exec (.hostRead a n hold) s = .next (toHost s (.answer a [] false)) ∧ exec (.hostWrite a bs hold) s = .next (toHost s (.answer a [] false))) ∧
    (∀ n bs, plkOpen s = true → n ≠ 0 → a % 64 + n ≤ 64 → bs ≠ [] → a % 64 + bs.length ≤ 64 → hostBarred s a = false → region a ≠ .reg →
      ((physErr s .host a n false).isSome = true → exec (.hostRead a n hold) s = .next (toHost s (.answer a [] false))) ∧
      ((physErr s .host a bs.length true).isSome = true → exec (.hostWrite a bs hold) s = .next (toHost s (.answer a [] false)))) ∧
    (plkOpen s = false → ∀ n v bs, exec (.hostRead a n hold) s = .next s ∧ exec (.hostWrite a bs hold) s = .next s ∧ exec (.registerWrite a n v) s = .next s)

/-- R8, R24, R25, R243: a host store of 8 bytes to an aligned register address of a block that exists crosses to the register's die, has the register's behaviour and is acknowledged; a register with no behaviour of its own takes the written value in its RW bits, loses the RW1C bits written as 1 and keeps the rest, and no other register changes; any other width or address, or one barred to the host, gets the link's error response. -/
def Sys2Proof.Parts.RegisterStores8 : Prop :=
  ∀ (s : State) (a : Nat) (v : Word), s.Inv → plkOpen s = true → region a = .reg →
    (hostBarred s a = false → a % 8 = 0 → regBlockExists (nCores s) a = true →
      exec (.registerWrite a 8 v) s = .next (toHost (regStore (moveMsg s srcHost (regHome a) 8 true) a v) (.answer a [] true)) ∧
      (∀ bs, bs.length = 8 → ∀ hold, exec (.hostWrite a bs hold) s = exec (.registerWrite a 8 (BitVec.ofNat 64 (leNat bs))) s)) ∧
    (∀ n, hostBarred s a = true ∨ n ≠ 8 ∨ a % 8 ≠ 0 ∨ regBlockExists (nCores s) a = false →
      exec (.registerWrite a n v) s = .next (toHost s (.answer a [] false))) ∧
    (∀ r i, regRow a = some r → i < 64 →
      (r.rw.testBit i = true → r.w1c.testBit i = false → (rd (regPut s a v) a).getLsbD i = v.getLsbD i) ∧
      (r.w1c.testBit i = true → r.rw.testBit i = false → (rd (regPut s a v) a).getLsbD i = ((rd s a).getLsbD i && !v.getLsbD i)) ∧
      (r.rw.testBit i = false → r.w1c.testBit i = false → (rd (regPut s a v) a).getLsbD i = (rd s a).getLsbD i)) ∧
    (∀ b, b ≠ a → rd (regPut s a v) b = rd s b) ∧ (regRow a = none → regPut s a v = s) ∧
    (a = R.DSP_CFG_ERR ∨ (∃ c < 64, a = R.DSP_CTXROOT c) ∨ (∃ p < 8, a = R.DSP_LOG p) → regStore s a v = regPut s a v)

/-- R8, R25, R243, R329, R377: a host load of a register answers what it holds: its bits without the write-only ones for a register that shows no live state; zero for the counters that CONFIDENTIAL hides; DSP_LOGCLAIM takes the SEQ it answers. One barred to the host, of another width, misaligned, or outside every block gets the link's error response. -/
def Sys2Proof.Parts.RegisterLoads8 : Prop :=
  ∀ (s : State) (a hold : Nat), s.Inv → plkOpen s = true → region a = .reg →
    (∀ n, n ≠ 0 → a % 64 + n ≤ 64 → hostBarred s a = true ∨ n ≠ 8 ∨ a % 8 ≠ 0 ∨ regBlockExists (nCores s) a = false →
      exec (.hostRead a n hold) s = .next (toHost s (.answer a [] false))) ∧
    (hostBarred s a = false → a % 8 = 0 → regBlockExists (nCores s) a = true →
      let s1 := moveMsg s srcHost (regHome a) 8 false
      let b := rd s a &&& ~~~ BitVec.ofNat 64 (match regRow a with | some r => r.wo | none => 0)
      (confidential s = true → hiddenReg a = true → exec (.hostRead a 8 hold) s = .next (toHost s1 (.answer a (leBytes 8 0) true))) ∧
      (confidential s = false ∨ hiddenReg a = false → a ≠ R.BBX_DATA_H → a ≠ R.BBX_DATA_I → (∀ p < 8, a ≠ R.DSP_LOGCLAIM p) →
        exec (.hostRead a 8 hold) s = .next (toHost s1 (.answer a (leBytes 8 (BitVec.ofNat 64 (regView s1 a)).toNat) true))) ∧
      (a = R.CLK_LTC ∨ a = R.SCF_RCACHE ∨ a = R.COL_MATCH ∨ a = R.COL_SLOTS ∨ (∃ e < 16, a = R.COL_ENG e) ∨ 2 < regDie a ∨ BitVec.ofNat 64 (regView s a) = b) ∧
      (a = R.CLK_LTC → exec (.hostRead a 8 hold) s = .next (toHost s1 (.answer a (leBytes 8 s.ltc.toNat) true))) ∧
      (∀ p < 8, a = R.DSP_LOGCLAIM p → exec (.hostRead a 8 hold) s =
        .next (toHost (wr s1 (R.DSP_LOGPTR p) (rd s1 (R.DSP_LOGPTR p) + 1)) (.answer a (leBytes 8 (rd s1 (R.DSP_LOGPTR p)).toNat) true)))
    )

/-- R185, R186, R191: SOLVE.B and SOLVE.E at a 64-byte aligned address copy their descriptor, translate RESULT and queue the solve at the core's unit, where SOLVE.B takes the defaults of the expert fields; with seven solves queued, or while memory waits, the instruction waits; a misaligned descriptor, a poisoned one, and one or a RESULT that may not be reached fault. -/
def Sys2Proof.Parts.SolvesIssue : Prop :=
  ∀ (c : Tid → Opnds → Instr) (n : Nat) (words : List Word → List Word),
    ((c, n, words) = (Instr.solveB, 8, basicWords) ∨ (c, n, words) = (Instr.solveE, 32, fun (ws : List Word) => ws)) →
    ∀ (s : State) (t : Tid) (o : Opnds), s.Inv → Issues s t o 0x11 none (memForm 32) →
      let k := tkey t
      let j := coreOf k / 8
      let ctx := (th s k).ctx
      let va := scalarVa s k o
      let got := vaBytes s (srcTh s k) va (8 * n)
      (va % 64 ≠ 0 → exec (c t o) s = .next (insnFault s k 0x11 0x10 0x15 0)) ∧
      (∀ s1 e, va % 64 = 0 → got = (s1, .err e) → exec (c t o) s = .next (insnFault s1 k 0x11 (accCode e).1 (accCode e).2 0)) ∧
      (∀ s1, va % 64 = 0 → got = (s1, .wait) → exec (c t o) s = .next s) ∧
      (∀ s1 bs, va % 64 = 0 → got = (s1, .ok (bs, true)) → exec (c t o) s = .next (insnFault s1 k 0x11 0x12 0 0)) ∧
      (∀ s1 bs, va % 64 = 0 → got = (s1, .ok (bs, false)) →
        let v : Solve := ⟨k, (th s k).gen, ctx, o.d.toNat, words ((List.range n).map (fun i => BitVec.ofNat 64 (leNat ((bs.drop (8 * i)).take 8))))⟩
        (∀ s2 pa, vaCheck s1 ctx v.result 1 .write = (s2, .ok pa) →
          ((svuOf s2 j).queue.length < 7 → exec (c t o) s = .next (retire (setSvu s2 j { svuOf s2 j with queue := (svuOf s2 j).queue ++ [v] }) k)) ∧
          (7 ≤ (svuOf s2 j).queue.length → exec (c t o) s = .next s2)) ∧
        (∀ s2, vaCheck s1 ctx v.result 1 .write = (s2, .wait) → exec (c t o) s = .next s1) ∧
        (∀ s2 e, vaCheck s1 ctx v.result 1 .write = (s2, .err e) → exec (c t o) s = .next (insnFault s2 k 0x11 (accCode e).1 (accCode e).2 0)))

/-- R194, R201, R211, R400: an idle unit starts its oldest queued solve: one that cannot take part in its group's votes ends at once with 0x10 and DESC_FIELD; one whose timer is in use ends with CONFLICT; the others take their timer and begin, a field out of range becoming the fault of the setup vote. A unit with no solve queued, or with one running, starts none. -/
def Sys2Proof.Parts.SolvesStart : Prop :=
  ∀ (s : State) (j : Nat), s.Inv → issuing s = true → j < 24 →
    ((svuOf s j).act.isSome = true ∨ (svuOf s j).queue = [] → exec (.solveStart j) s = .next s) ∧
    (∀ v rest, (svuOf s j).act = none → (svuOf s j).queue = v :: rest →
      let r : Run := ⟨v, 1, s.ltc.toNat, 0, 0, 0, 0, 0, 0, 0, 0, 0, none, 0, 0, 0, none, none, none, none, pre0, [], [], inner0, 0, 0, 0, 0, 0, 0, false, none, false, none, none⟩
      let s1 := setSvu s j { svuOf s j with queue := rest }
      let r1 := if v.ok then r else { r with bad := some (0x10, 0x46) }
      (v.votable = false → exec (.solveStart j) s = .next (endSolve s1 j r 0x10 0x46 0 .keep)) ∧
      (v.votable = true → v.deadline ≠ 0 → claimTimer s1 v = none →
        let s2 := endSolve s1 j r 0x30 0x49 0 .keep
        exec (.solveStart j) s = .next (conflict s2 2 v.ctx 1 1 (some (partOf s2 v.ctx)) (rd s2 (R.DSP_TIMER v.ctx)))) ∧
      (v.votable = true → v.deadline = 0 → exec (.solveStart j) s = .next (setSvu s j { svuOf s j with queue := rest, act := some r1 })) ∧
      (∀ k, v.votable = true → v.deadline ≠ 0 → claimTimer s1 v = some k →
        exec (.solveStart j) s = .next (putTimers (setRun s1 j { r1 with timer := some k }) v.ctx)))

/-- R188, R193-R195, R197, R203, R206-R208: a rank's local work of a stage: the warm start, with the checks of the matrix and its addresses; the setup; the residual in binary64; an inner iteration's products. It ends at a boundary where the rank votes: with the fault it found, with class 1 after its deadline, or with class 0, beside its part of the sums; while memory waits nothing happens, and a rank that still waits for its halo, for its vote, or for another rank here does nothing. In the setup the deadline makes it vote class 2 at once, and the factor it was making loses its validity. -/
def Sys2Proof.Parts.SolverBoundaries : Prop :=
  ∀ (s : State) (j : Nat) (r : Run), s.Inv → (svuOf s j).act = some r →
    let run := exec (.iterationBoundary j) s
    let bad := r.bad.or (haloBad s j)
    let voted (u : State) (q : Run) (slots : List Nat) : Host.Outcome State Fault Refusal :=
      let q1 := { q with factNs := u.ltc.toNat - q.start }
      .next (atBoundary u j q1 fmSetup (voteNow u q1 :: slots))
    ((issuing s = false ∨ r.vote.isSome = true ∨ s.reqs.any (fun q => q.kind == .halo j) = true ∨ othersReady s j r = false) → run = .next s) ∧
    (issuing s = true → r.vote = none → s.reqs.any (fun q => q.kind == .halo j) = false → othersReady s j r = true →
      (r.stage = 1 → bad = none →
        (∀ s1, warmWork s j r = (s1, .wait) → run = .next s) ∧
        (∀ s1 a b, warmWork s j r = (s1, .bad a b) → run = .next (setRun s1 j { r with stage := 2, bad := some (a, b) })) ∧
        (∀ s1 q, warmWork s j r = (s1, .ok q) → run = .next (setRun s1 j { q with stage := 2 }))) ∧
      (∀ m, r.stage = 2 → bad = none → r.mat = some m →
        (∀ s1, setupWork s j r m = (s1, .wait) → run = .next s) ∧
        (∀ s1 a b, setupWork s j r m = (s1, .bad a b) → run = voted s1 { r with bad := some (a, b) } [0, 0, 0, 0, 0, 0]) ∧
        (∀ s1 q slots, setupWork s j r m = (s1, .ok (q, slots)) → run = voted s1 q slots)) ∧
      (∀ e, r.stage = 1 ∨ r.stage = 2 → bad = some e → run = voted s { r with stage := 2, bad := some e } [0, 0, 0, 0, 0, 0]) ∧
      (∀ m, r.stage = 3 → bad = none → r.mat = some m →
        (∀ s1, outerWork s j r m = (s1, .wait) → run = .next s) ∧
        (∀ s1 a b, outerWork s j r m = (s1, .bad a b) → run = .next (atBoundary s1 j { r with bad := some (a, b) } fmOuter [voteWord 3 a b, 0, 0, 0, 0])) ∧
        (∀ s1 q slots, outerWork s j r m = (s1, .ok (q, slots)) → run = .next (atBoundary s1 j q fmOuter (voteNow s1 q :: slots)))) ∧
      (∀ e, r.stage = 3 → bad = some e → run = .next (atBoundary s j { r with bad := some e } fmOuter [voteWord 3 e.1 e.2, 0, 0, 0, 0])) ∧
      (∀ m, r.stage = 4 → bad = none → r.mat = some m →
        (∀ s1, innerProduct s j r m = (s1, .wait) → run = .next s) ∧
        (∀ s1 a b, innerProduct s j r m = (s1, .bad a b) → run = .next (innerBoundary s1 j { r with bad := some (a, b) } [])) ∧
        (∀ s1 p, innerProduct s j r m = (s1, .ok p) → run = .next (innerBoundary s1 j r p))) ∧
      (∀ e, r.stage = 4 → bad = some e → run = .next (innerBoundary s j { r with bad := some e } []))) ∧
    (∀ m s1 o, issuing s = true → r.stage = 2 → r.vote = none → r.bad = none → r.sol.deadline ≠ 0 → r.sol.deadline ≤ s.ltc.toNat → r.mat = some m →
      withFactor s j r.sol m (fun s old => (s, SolRes.ok old.isSome)) = (s1, o) →
      let marked : State := vaUndef { s1 with factors := s1.factors.filter (fun f => !(f.ctx == r.sol.ctx && f.va == factAt r.sol m)) } r.sol.ctx (factAt r.sol m) (workSize r.sol m).2
      let vote (u : State) : Host.Outcome State Fault Refusal := .next (atBoundary u j { r with factNs := u.ltc.toNat - r.start } fmSetup
        [voteWord 2 0 0x40, solDigest r.sol, solDigest r.sol, 0, 0, 0, 0])
      (o = .wait → exec (.solveDeadlineExpiry j) s = .next s) ∧
      (o = .ok true ∨ (r.sol.precond = 3 ∧ o ≠ .wait) → exec (.solveDeadlineExpiry j) s = vote s1) ∧
      (o ≠ .ok true → o ≠ .wait → r.sol.precond ≠ 3 → exec (.solveDeadlineExpiry j) s = vote marked)) ∧
    ((r.stage ≠ 2 ∨ r.vote.isSome = true ∨ r.bad.isSome = true ∨ r.sol.deadline = 0 ∨ s.ltc.toNat < r.sol.deadline) → exec (.solveDeadlineExpiry j) s = .next s)

/-- R195-R197, R201, R205-R210, R214: a boundary's reduction that has come back is shared by the ranks of the package. A failed collective ends the solve with its status; a class 3 vote ends it with the fault that was voted; ranks that disagree end it with DESC_MISMATCH; a deadline in setup ends it with the fallback. At an outer boundary the target or floor test, a right-hand side of zero, growth of the residual, and the limits of steps and iterations end it, and a deadline ends it on the norms it has; else the next correction starts. In an inner solve a breakdown ends it with NOT_CONVERGED, a deadline or enough progress takes the corrected iterate to an outer boundary, and else the iteration goes on. While memory waits the rank's part waits. -/
def Sys2Proof.Parts.SolverResults : Prop :=
  (∀ (s : State) (j : Nat), s.Inv →
    (∀ r, (svuOf s j).act = some r → r.lead = none → shareResult s j = s) ∧
    (∀ r l c, (svuOf s j).act = some r → r.lead = some l → r.got = none → s.colls.find? (fun c => c.user == .svu l && c.done) = some c →
      let free := (Config.freeBits 64 s.free).toNat
      (svuOf (shareResult s j) j).act = some { r with got := some ((collStatus s c).1, (collStatus s c).2, boundarySlots c ++ [free]) }) ∧
    ((svuOf (shareResult s j) j).act = none → exec (.boundaryReductionResult j) s = .next (shareResult s j)) ∧
    (∀ r, (svuOf (shareResult s j) j).act = some r → r.got = none → exec (.boundaryReductionResult j) s = .next (shareResult s j))) ∧
  (∀ (s : State) (j : Nat) (r : Run) (st sub : Nat) (sl : List Nat), s.Inv → (svuOf (shareResult s j) j).act = some r → r.got = some (st, sub, sl) →
    let s0 := shareResult s j
    let s1 := addDiv s0 (R.SOL_BUSY (j / 12) (j % 12)) 32 32 64 ((s0.ltc.toNat - r.since) * rdf s0 R.CLK_STATUS 8 8 / 20)
    let run := exec (.boundaryReductionResult j) s
    let out (x : Option State) : Prop := run = .next (x.getD s0)
    let cls := nfld (nth sl 0) 56 8
    let vst := nfld (nth sl 0) 48 8
    let vsub := nfld (nth sl 0) 40 8
    (0x10 ≤ st → run = .next (endSolve s1 j r st 0x4A 0 .undef)) ∧
    (st < 0x10 → r.stage = 2 →
      let q := { r with flags := nth sl 3 &&& 0b1011, bzero := !(nth sl 3).testBit 2, resid := some (nth sl 8) }
      (cls = 3 → run = .next (endSolve s1 j q vst vsub 3 .keep)) ∧
      (cls ≠ 3 → nth sl 1 ≠ nth sl 2 → run = .next (endSolve s1 j q 0x11 0x48 cls .keep)) ∧
      (∀ m, cls ≠ 3 → nth sl 1 = nth sl 2 → r.mat = some m → cls ≠ 0 → run = .next (endSolve s1 j q 3 (if cls = 2 then vsub else 0) cls .fallback)) ∧
      (∀ m, cls = 0 → nth sl 1 = nth sl 2 → r.mat = some m → out (startOuter s1 j { q with bn := normOf (nth sl 4) (nth sl 5), an := nth sl 6, resid := none } m))) ∧
    (st < 0x10 → r.stage = 3 → cls = 3 → run = .next (endSolve s1 j r vst vsub 3 .undef)) ∧
    (∀ m, st < 0x10 → r.stage = 3 → cls ≠ 3 → r.mat = some m →
      let rn := normOf (nth sl 1) (nth sl 2)
      let q := { r with rn := rn, ri := nth sl 3, xi := nth sl 4, resid := some (if r.bzero then nth sl 8 else c64 (fDiv (v64 rn) (v64 r.bn))) }
      let good := floorTest q = true ∨ targetTest q = true
      let grown := r.k ≠ 0 ∧ fLt (fMul (f64 (r.sol.w 13)) (v64 r.rn)) (v64 rn) = true
      (r.final = true → run = .next (deadlineEnd s1 j q 1)) ∧
      (r.final = false → r.bzero = true → run = .next (endSolve s1 j { q with flags := q.flags % 4 + 4 + q.flags / 8 * 8 } (okStatus q) (degSub q) cls .zeros)) ∧
      (r.final = false → r.bzero = false → cls ≠ 0 → run = .next (deadlineEnd s1 j q cls)) ∧
      (r.final = false → r.bzero = false → cls = 0 → good → run = .next (endSolve s1 j q.floored (okStatus q) (degSub q) 0 .iterate)) ∧
      (r.final = false → r.bzero = false → cls = 0 → ¬ good → grown → run = .next (endSolve s1 j q 0x31 0x45 0 .iterate)) ∧
      (r.final = false → r.bzero = false → cls = 0 → ¬ good → ¬ grown → r.k = fld (r.sol.w 9) 6 4 → run = .next (endSolve s1 j q 0x31 0x42 0 .iterate)) ∧
      (r.final = false → r.bzero = false → cls = 0 → ¬ good → ¬ grown → r.k ≠ fld (r.sol.w 9) 6 4 → r.sol.maxit ≤ r.iters →
        run = .next (endSolve s1 j q 0x31 0x43 0 .iterate)) ∧
      (r.final = false → r.bzero = false → cls = 0 → ¬ good → ¬ grown → r.k ≠ fld (r.sol.w 9) 6 4 → r.iters < r.sol.maxit →
        out (stepInner (spend s1 (innerFree m.nrows 1)) j { q with inIts := 0, prev := rn, inn := innerStart r.sol.method r.pre s1.free r.res rn } m)) ∧
      (good → deadlineEnd s1 j q cls = endSolve s1 j q.floored (okStatus q) (degSub q) cls .iterate) ∧
      (∀ c, ¬ good → q.resid = some c → deadlineEnd s1 j q cls =
        if fLe (v64 c) (f64 (r.sol.w 5)) then endSolve s1 j q 2 (degSub q) cls .iterate else endSolve s1 j q 3 (degSub q) cls .fallback)) ∧
    (st < 0x10 → r.stage = 4 → r.inn.votes r.sol.method = true → cls = 3 → run = .next (endSolve s1 j r vst vsub 3 .undef)) ∧
    (∀ m, st < 0x10 → r.stage = 4 → r.inn.votes r.sol.method = true → cls ≠ 3 → r.mat = some m →
      let me := r.sol.method
      let v := innerVoted me r.inn sl 1
      let q := { r with inn := v.1 }
      let cost := innerFree m.nrows v.1.basis.length
      let added := { q with x := addD r.x (innerD me s1.free v.1) }
      let s2 := solWork (spend s1 cost) j (cdiv m.nrows 32)
      let enough := fLe (v64 v.2) (fMul (f64 (r.sol.w 10)) (v64 r.prev)) = true ∨ (fld (r.sol.w 9) 32 32 ≠ 0 ∧ fld (r.sol.w 9) 32 32 ≤ r.inIts)
      (cls ≠ 0 → out (startOuter s2 j { added with final := true } m)) ∧
      (cls = 0 → v.1.brk = true → run = .next (endSolve s1 j q 0x31 0x44 0 .iterate)) ∧
      (cls = 0 → v.1.brk = false → enough → out (startOuter s2 j { added with k := r.k + 1 } m)) ∧
      (cls = 0 → v.1.brk = false → ¬ enough → r.sol.maxit ≤ r.iters → run = .next (endSolve s1 j q 0x31 0x43 0 .iterate)) ∧
      (cls = 0 → v.1.brk = false → ¬ enough → r.iters < r.sol.maxit → out (stepInner (spend s1 cost) j
        { q with inn := innerNext me (r.sol.restart + 1) r.pre s1.free v.1 sl 1,
                 restarts := if me == 2 && r.sol.restart + 1 ≤ v.1.rots.length then r.restarts + 1 else r.restarts } m))) ∧
    (∀ m, st < 0x10 → r.stage = 4 → r.inn.votes r.sol.method = false → r.mat = some m →
      out (stepInner (spend s1 (innerFree m.nrows r.inn.basis.length)) j { r with inn := innerMid r.sol.method r.pre s1.free r.inn sl } m)))

/-- R187, R207, R209, R211, R213, R214: a solve that is finishing writes its output slot, then its result record, then its arrival counter, and its unit is free; while memory waits nothing happens; an output that cannot be read or written any more makes the status its fault; a record that cannot be written frees the unit without the counter. -/
def Sys2Proof.Parts.SolvesEnd : Prop :=
  ∀ (s s1 : State) (j : Nat) (r : Run) (st sub cls : Nat) (out : SolOut) (o : SolRes Unit), s.Inv → (svuOf s j).act = some r → r.stage = 6 → r.fin = some (st, sub, cls, out) →
    issuing s = true → r.vote = none → s.reqs.any (fun q => q.kind == .halo j) = false → othersReady s j r = true →
    let src := srcSvu s j r.sol.ctx
    putOutput s src r out = (s1, o) →
    let put (st sub : Nat) : State × MemRes Unit := vaPut (spend s1 1) src r.sol.result (resultRecord s1 r st sub cls (r.resid.getD (Config.freeBits 64 s1.free).toNat))
    let run := exec (.iterationBoundary j) s
    let ends (st sub : Nat) : Prop :=
      (∀ u, put st sub = (u, .wait) → run = .next s) ∧
      (∀ u e, put st sub = (u, .err e) → run = .next (freeSvu u j r st cls)) ∧
      (∀ u, put st sub = (u, .ok ()) → run = .next (arrive (freeSvu u j r st cls) r.sol.key r.sol.gen r.sol.cnt))
    (o = .wait → run = .next s) ∧ (o = .ok () → ends st sub) ∧ (∀ a b, o = .bad a b → ends a b) ∧
    (svuOf (freeSvu s j r st cls) j).act = none ∧ (svuOf (freeSvu s j r st cls) j).queue = (svuOf s j).queue

/-- R48, R49, R50, R51, R52, R178, R264: a preemption request on a core that runs a context stops its issue; when the save ends, once the context's FABRIC reads and its atomic have, DONE is set, the image is kept and the core is free; an S-core thread at an instruction boundary is saved at once, and in a gather or an atomic once what is outstanding is finished; a free core or thread takes its image up again with the increments held for it. -/
def Obligations.Preemption : Prop :=
  ∀ (s : State), s.Inv →
    (∀ core v, core < 2 * nCores s →
      let a := R.NCO_PREEMPT (halfOf s core) (dieCore s core)
      let s1 := regPut s a (putf v 0 1 (rdf s a 0 1))
      (v.getLsbD 0 = true → (th s core).phase ≠ .idle → exec (.ncoPreemptReq core v) s = .next (wrf (setTh s1 core { th s core with saving := some s.ltc.toNat }) a 0 1 1)) ∧
      (v.getLsbD 0 = false ∨ (th s core).phase = .idle → exec (.ncoPreemptReq core v) s = .next s1)) ∧
    (∀ core v, 2 * nCores s ≤ core → exec (.ncoPreemptReq core v) s = .next s) ∧
    (∀ core t0, core < 2 * nCores s → (th s core).saving = some t0 →
      let a := R.NCO_PREEMPT (halfOf s core) (dieCore s core)
      let base := rdf s (R.NCO_SAVE_BASE (halfOf s core) (dieCore s core)) 12 36 * 4096
      let reads := s.reqs.any (fun r => r.eng == 0xA00 + core && (match r.kind with | .get _ _ _ => true | _ => false))
      let s1 := spend s 16384
      let s2 := if physErr s1 .dev base imageBytes true = none then
          moveLines (memUndef s1 base (base + imageBytes)) (srcBulk s1 core (th s core).ctx true) base (imageSize (nc s core)) true
        else s1
      let s3 : State := { s2 with getTiles := s2.getTiles.filter (fun g => g.core ≠ core) }
      let s4 := wrf (wrf s3 a 1 1 1) a 0 1 0
      ((th s core).phase = .atomic ∨ reads = true → exec (.preemptSaveDone core) s = .next s) ∧
      ((th s core).phase ≠ .atomic → reads = false → rdf s a 0 1 = 0 →
        exec (.preemptSaveDone core) s = .next (setTh s4 core { th s core with phase := restartPhase (th s core).phase, saving := none })) ∧
      ((th s core).phase ≠ .atomic → reads = false → rdf s a 0 1 = 1 → exec (.preemptSaveDone core) s =
        .next (takeUp (freeThread { wrf s4 a 32 32 (s4.ltc.toNat - t0) with images := s4.images ++ [coreImage s core] } core) core))) ∧
    (∀ core, (th s core).saving = none → exec (.preemptSaveDone core) s = .next s) ∧
    (∀ t, isS (tkey t) = true →
      let k := tkey t
      let saved (u : State) : State :=
        takeUp (freeThread { u with images := u.images ++ [⟨k, { th u k with phase := restartPhase (th u k).phase, saving := none }, ncore0, [], [], [], []⟩] } k) k
      let s1 := gatherStep k 600 (setTh s k { th s k with saving := some ((th s k).saving.getD s.ltc.toNat) })
      ((th s k).phase = .idle → exec (.sCorePreemption t) s = .next s) ∧
      ((th s k).phase ∉ [.idle, .gather, .atomic] → exec (.sCorePreemption t) s = .next (saved s)) ∧
      ((th s k).phase ∈ [.gather, .atomic] → exec (.sCorePreemption t) s = .next (if (th s1 k).phase ∈ [.gather, .atomic] then s1 else saved s1))) ∧
    (∀ t ctx im, s.images.find? (fun im => im.key == tkey t && im.th.ctx == ctx) = some im →
      let k := tkey t
      let n := im.held.foldl (fun n c => ctrAdd n c 1) im.th
      let s0 : State := setTh { s with images := s.images.erase im } k n
      ((th s k).phase ≠ .idle → exec (.contextRestore t ctx) s = .next s) ∧
      ((th s k).phase = .idle → isS k = true → exec (.contextRestore t ctx) s = .next (goOn s0 k)) ∧
      ((th s k).phase = .idle → isS k = false →
        let lo := storeBase (halfOf s k) (dieCore s k)
        let sm := moveLines s0 (srcBulk s0 k ctx true) (rdf s (R.NCO_SAVE_BASE (halfOf s k) (dieCore s k)) 12 36 * 4096) (imageSize im.nc) false
        let s1 : State := memClear (setNc sm k im.nc) lo (lo + 0x200000)
        let s2 : State := { memRestore s1 im.store with undef := im.undef ++ s1.undef, poison := im.poison.foldl (fun p l => ninsert l p) s1.poison }
        let s3 := wr s2 (R.NCO_CTX (halfOf s k) (dieCore s k)) (BitVec.ofNat 64 (ctx + partOf s ctx * 2 ^ 8 + 2 ^ 16))
        exec (.contextRestore t ctx) s = .next (if n.phase = .fault then s3 else goOn (reviveCore s3 k) k))) ∧
    (∀ t ctx, s.images.find? (fun im => im.key == tkey t && im.th.ctx == ctx) = none → exec (.contextRestore t ctx) s = .next s)

/-- R220, R221, R222, R224, R367: while an owner is valid a write with VALID set is ignored and one without VALID ends it, but for a partition in CONFIDENTIAL; a write without VALID to an owner that is not valid takes its groups and base and shows the size its groups hold; VALID on groups or a range in use is refused with a record; and an owner put in force draws a new key, every byte of its range reads as undefined contents while every byte outside reads as before, and a partition that had no range in the other half begins with an empty data chain. -/
def Obligations.MemoryOwners : Prop :=
  ∀ (s : State) (h p : Nat) (v : Word), s.Inv → h < 2 → p < 9 →
    let a := R.MEM_PART_CFG h p
    let s1 := wr s a (BitVec.ofNat 64 (fld v 0 34))
    let s2 := wrf s1 a 34 10 (ownerGib s1 h p)
    (bitw (rd s a) 63 = true → v.getLsbD 63 = true → exec (.memPartCfgValid h p v) s = .next s) ∧
    (bitw (rd s a) 63 = true → v.getLsbD 63 = false → (confidential s = false ∨ p = 8) → exec (.memPartCfgValid h p v) s = .next (wrf s a 63 1 0)) ∧
    (bitw (rd s a) 63 = true → v.getLsbD 63 = false → confidential s = true → p < 8 → exec (.memPartCfgValid h p v) s = .next s) ∧
    (bitw (rd s a) 63 = false → v.getLsbD 63 = false → exec (.memPartCfgValid h p v) s = .next s2) ∧
    (∀ q, bitw (rd s a) 63 = false → v.getLsbD 63 = true → ownerClash s2 h p = some q → exec (.memPartCfgValid h p v) s = .next (memRefuse s2 h p q)) ∧
    (bitw (rd s a) 63 = false → v.getLsbD 63 = true → ownerClash s2 h p = none → ∃ u, exec (.memPartCfgValid h p v) s = .next u ∧
      bitw (rd u a) 63 = true ∧ rd u (R.MEM_PART_KEY h p) = Config.freeBits 64 s.free ∧
      (let base := h * 0x10000000000 + fld (rd s2 a) 24 10 * 2 ^ 30
       let top := base + fld (rd s2 a) 34 10 * 2 ^ 30
       (∀ x, base ≤ x → x < top → memByte u x = Config.freeByte (s.free + 1) x) ∧ (∀ x, x < base ∨ top ≤ x → memByte u x = memByte s x)) ∧
      (p < 8 → bitw (rd s (R.MEM_PART_CFG (1 - h) p)) 63 = false → ∀ w < 8, rd u (R.SEC_DCHAIN p w) = 0) ∧
      (p = 8 ∨ bitw (rd s (R.MEM_PART_CFG (1 - h) p)) 63 = true → ∀ q < 8, ∀ w < 8, rd u (R.SEC_DCHAIN q w) = rd s (R.SEC_DCHAIN q w)))

/-- R227, R229, R231, R233: a split waits while one is pending and is refused where it does not fit the ways that are free or the partition's own; a split that starts takes its joining ways, and the scratch ways that leave stop serving; once it is in force, in a device that runs, a scratch way that joins serves and reads zero, the ways that leave are free and PENDING is clear; a regulator's settings are applied, or ignored where the floors sum to too much or a floor lies above its ceiling. -/
def Obligations.CacheSplitsAndRegulators : Prop :=
  ∀ (s : State) (h p : Nat) (v : Word), s.Inv → h < 2 → p < 8 →
    (rdf s (R.LLM_PART_CFG h p) 62 1 = 1 → exec (.llmPartCfgApply h p v) s = .next s) ∧
    (rdf s (R.LLM_PART_CFG h p) 62 1 = 0 → v.getLsbD 63 = false → exec (.llmPartCfgApply h p v) s = .next (regPut s (R.LLM_PART_CFG h p) v)) ∧
    (rdf s (R.LLM_PART_CFG h p) 62 1 = 0 → v.getLsbD 63 = true → splitFor (regPut s (R.LLM_PART_CFG h p) v) h p v = none →
      let s1 := wr (regPut s (R.LLM_PART_CFG h p) v) (R.LLM_CFG_ERR h) (BitVec.ofNat 64 (0x30 + p * 256 + 2 ^ 63))
      exec (.llmPartCfgApply h p v) s = .next (conflict s1 0 p p p (some p) (rd s1 (R.LLM_CFG_ERR h)))) ∧
    (∀ c m, rdf s (R.LLM_PART_CFG h p) 62 1 = 0 → v.getLsbD 63 = true → splitFor (regPut s (R.LLM_PART_CFG h p) v) h p v = some (c, m) →
      ∃ u, exec (.llmPartCfgApply h p v) s = .next u ∧ rdf u (R.LLM_PART_CFG h p) 62 1 = 1 ∧
        (∀ w < 16, wayOwner u h w = if c.testBit w = true ∨ m.testBit w = true then p else wayOwner s h w) ∧
        (∀ w < 16, wayOwner s h w = p → wayScratch s h w = true → m.testBit w = false → wayScratch u h w = false)) ∧
    (sget none s.llmPend (h * 8 + p) = none ∨ issuing s = false → exec (.llmSplitDone h p) s = .next s) ∧
    (∀ c m free chg, issuing s = true → sget none s.llmPend (h * 8 + p) = some (c, m, free, chg) →
      ∃ u, exec (.llmSplitDone h p) s = .next u ∧ rdf u (R.LLM_PART_CFG h p) 62 1 = 0 ∧ sget none u.llmPend (h * 8 + p) = none ∧
      (∀ w < 16, wayOwner u h w = if wayOwner s h w = p ∧ m.testBit w = false ∧ c.testBit w = false then 15 else wayOwner s h w) ∧
      (∀ w < 16, wayOwner s h w = p → m.testBit w = true → (free.testBit w = true ∨ chg.testBit w = true) →
        wayScratch u h w = true ∧ ∀ x, wayBase h w ≤ x → x < wayBase h w + 0x3000000 → memByte u x = 0)) ∧
    (let sum (lo : Nat) : Nat := ((List.range 8).map (fun q => if q = p then fld v lo 14 else rdf s (R.RGL_PART h q) lo 14)).sum
     let bad := 8000 < sum 0 ∨ 4000 < sum 32 ∨ (fld v 16 14 ≠ 0 ∧ fld v 16 14 < fld v 0 14) ∨ (fld v 48 14 ≠ 0 ∧ fld v 48 14 < fld v 32 14)
     (bad → exec (.rglPartWrite h p v) s = .next (wr s (R.RGL_STAT h) (BitVec.ofNat 64 (1 + p * 2)))) ∧
     (¬ bad → exec (.rglPartWrite h p v) s = .next (regPut s (R.RGL_PART h p) v)))

/-- R217, R225, R235, R249, R386: the patrol reads the next line of a half when it is due and corrects a line with at most two failed symbols as any read does; a finished row copy serves the held row again; when a window of an owner ends, the channel that carried the most lines is reported if it carried more than RATIO times its share, and a new window begins; an arch-link CRC failure is counted until its eighth resend, which is fatal. -/
def Sys2Proof.Parts.MemoryErrors : Prop :=
  ∀ (s : State) (h : Nat), s.Inv → h < 2 →
    (∀ line syms off, region (line * 64) = .hbm h off → issuing s = true → off + 64 ≤ halfGib s h * 2 ^ 30 → off / 64 = (sget (0, 0) s.patrol h).2 →
      (s.ltc.toNat < (sget (0, 0) s.patrol h).1 → exec (.patrolScrubRead line syms) s = .next s) ∧
      ((sget (0, 0) s.patrol h).1 ≤ s.ltc.toNat →
        let s1 := patrolNext s h
        (line ∈ s.poison → exec (.patrolScrubRead line syms) s = .next s1) ∧
        (line ∉ s.poison → syms ≤ 2 → exec (.patrolScrubRead line syms) s = .next (readLine { s1 with symErr := sset 0 s1.symErr line syms } line)) ∧
        (line ∉ s.poison → 2 < syms → ∃ u, exec (.patrolScrubRead line syms) s = .next u ∧ u.patrol = s1.patrol))) ∧
    (∀ i, i < 8192 → issuing s = true → bitw (rd s (R.MEM_REMAP h i)) 63 = true →
      let w := rd s (R.MEM_REMAP h i)
      exec (.remapCopyDone h i) s =
        .next (ckpPump { s with rowHeld := s.rowHeld.filter (· ≠ (h * 192 + fld w 0 8) * 2 ^ 22 + fld w 8 5 + fld w 16 17 * 32) })) ∧
    (∀ i, (bitw (rd s (R.MEM_REMAP h i)) 63 = false ∨ issuing s = false) → exec (.remapCopyDone h i) s = .next s) ∧
    (∀ p (counts : List Nat), p < 9 →
      let o := h * 9 + p
      let len := max 1 (rdf s (R.MEM_HOT_CFG h) 16 16) * 1000
      let chans := ownerChans s h p
      let count := fun c => sget 0 s.chanLines (o * 192 + c) + nth counts c
      let sum := (chans.map count).sum
      let ratio := max 2 (rdf s (R.MEM_HOT_CFG h) 0 4)
      let s1 : State := { s with hotAt := sset 0 s.hotAt o (sget 0 s.hotAt o + len), chanLines := sclear s.chanLines (o * 192) ((o + 1) * 192) }
      (bitw (rd s (R.MEM_PART_CFG h p)) 63 = false ∨ issuing s = false ∨ s.ltc.toNat < sget 0 s.hotAt o + len → exec (.hotChannelWindowEnd h p counts) s = .next s) ∧
      (bitw (rd s (R.MEM_PART_CFG h p)) 63 = true → issuing s = true → sget 0 s.hotAt o + len ≤ s.ltc.toNat →
        ((∀ c ∈ chans, count c * chans.length ≤ ratio * sum) → exec (.hotChannelWindowEnd h p counts) s = .next s1) ∧
        ((∃ c ∈ chans, ratio * sum < count c * chans.length) →
          ∃ c ∈ chans, (∀ d ∈ chans, count d ≤ count c) ∧
            let w := c + p * 256 + min 255 (count c * chans.length / sum) * 65536 + 2 ^ 63
            let s2 := if bitw (rd s (R.MEM_HOT h)) 63 = true then addSat s1 (R.MEM_HOT h) 32 16 1 else wr s1 (R.MEM_HOT h) (BitVec.ofNat 64 w)
            exec (.hotChannelWindowEnd h p counts) s = .next (if p < 8 then logRec s2 p 0x02 0xFFFF [] (leBytes 8 w) else s2)))) ∧
    (∀ n, n < 8 → exec (.archLinkCrcFail h n) s = .next (addSat s (R.MEM_ARCH_RAS h) 0 32 1)) ∧
    (∀ n, 8 ≤ n → exec (.archLinkCrcFail h n) s = .next (fatal s 2 (1 + h) h))

/-- R386, R393, R419: a fatal error of a package that is not already in the fatal state puts it there with its cause, freezes the rolling ring, takes every Scauth port down, drives FAULT_N and stops the heartbeat; a second one changes nothing. -/
def Sys2Proof.Parts.FatalErrors : Prop :=
  ∀ (s : State) (cause src h : Nat), s.Inv → cause < 256 →
    (pwrState s = 4 → fatal s cause src h = s) ∧
    (pwrState s ≠ 4 → pwrState (fatal s cause src h) = 4 ∧ rdf (fatal s cause src h) R.PWR_STAT 8 8 = cause ∧
      rdf (fatal s cause src h) R.BBX_STAT 16 1 = 1 ∧ (∀ k < 16, portState (fatal s cause src h) k = 0) ∧
      (fatal s cause src h).faultN = true ∧ (fatal s cause src h).alive = 0 ∧ (fatal s cause src h).mem = s.mem ∧ (fatal s cause src h).threads = s.threads)

/-- R340, R341, R387, R390: before its window or period has passed a watch or a summary does nothing; when the period ends with no corrected count risen there is no record, and otherwise one CE_SUMMARY record holds the rises; when the window ends every cause that was crossed warns. -/
def Sys2Proof.Parts.WatchAndSummaries : Prop :=
  ∀ s : State, s.Inv →
    (s.ltc.toNat < s.watchAt + max 1 (rdf s R.CKP_WATCH 32 16) * 1000000 → exec .errorWatchWindow s = .next s) ∧
    (s.watchAt + max 1 (rdf s R.CKP_WATCH 32 16) * 1000000 ≤ s.ltc.toNat →
      let base := [rdf s (R.MEM_RAS_STAT 0) 0 32 + rdf s (R.MEM_RAS_STAT 1) 0 32, portSum s R.SCF_PORT_ERR 32 32 + rdf s R.PLK_STAT 16 16]
      exec .errorWatchWindow s = .next ((watchCauses s).foldl watchWarn { s with watchAt := s.ltc.toNat, watchBase := base })) ∧
    (∀ c < 4, rdf (watchWarn s c) R.CKP_WATCH_STAT c 1 = 1) ∧
    (s.ltc.toNat < s.ceAt + max 1 (rdf s R.BBX_CFG 0 16) * 1000000000 → exec .ceSummaryPeriod s = .next s) ∧
    (s.ceAt + max 1 (rdf s R.BBX_CFG 0 16) * 1000000000 ≤ s.ltc.toNat → (∀ i < 5, nth (ceCounts s) i ≤ nth s.ceBase i) →
      exec .ceSummaryPeriod s = .next { s with ceAt := s.ltc.toNat, ceBase := ceCounts s }) ∧
    (∀ i < 5, s.ceAt + max 1 (rdf s R.BBX_CFG 0 16) * 1000000000 ≤ s.ltc.toNat → nth s.ceBase i < nth (ceCounts s) i →
      exec .ceSummaryPeriod s = .next (bbx { s with ceAt := s.ltc.toNat, ceBase := ceCounts s } false 0x0A 0 0 0
        ((List.range 5).flatMap (fun i => leBytes 4 (if (ceSat s).getD i false = true then 0xFFFFFFFF else min 0xFFFFFFFF (nth (ceCounts s) i - nth s.ceBase i))))))

/-- R388, R393, R395: FREEZE and UNFREEZE set and clear the freeze of the rolling ring and change nothing else; a read of a data register returns the eight bytes at its address, which moves on by eight and wraps; while the device is an I3C target, a private write of eight bytes sets the block offset, and a private read returns the register there, a data register with its move; while it is not, neither does anything. -/
def Sys2Proof.Parts.BlackBoxAccess : Prop :=
  ∀ s : State, s.Inv →
    (∃ u, exec .bbxCtlFreeze s = .next u ∧ u = wr s R.BBX_STAT (rd s R.BBX_STAT ||| BitVec.ofNat 64 (2 ^ 16))) ∧
    (∃ u, exec .bbxCtlUnfreeze s = .next u ∧ u = wr s R.BBX_STAT (rd s R.BBX_STAT &&& ~~~ BitVec.ofNat 64 (2 ^ 16))) ∧
    (∃ u, exec .bbxDataHRead s = .next u ∧ rdf u R.BBX_ADDR_H 3 20 = (rdf s R.BBX_ADDR_H 3 20 + 1) % 2 ^ 20 ∧ u.mram = s.mram ∧
      u.tx = s.tx ++ [.answer R.BBX_DATA_H (leBytes 8 (mramWord s (rdf s R.BBX_ADDR_H 3 20 * 8)).toNat) true] ∧
      (∀ a, a ≠ R.BBX_ADDR_H → rd u a = rd s a)) ∧
    (∃ u, exec .bbxDataIRead s = .next u ∧ rdf u R.BBX_ADDR_I 3 20 = (rdf s R.BBX_ADDR_I 3 20 + 1) % 2 ^ 20 ∧ u.mram = s.mram ∧
      u.tx = s.tx ++ [.i3c (leBytes 8 (mramWord s (rdf s R.BBX_ADDR_I 3 20 * 8)).toNat)] ∧ (∀ a, a ≠ R.BBX_ADDR_I → rd u a = rd s a)) ∧
    (∀ bytes, i3cTarget s = true → bytes.length = 8 → exec (.i3cPrivateWrite bytes) s = .next { s with i3cOff := leNat bytes }) ∧
    (∀ bytes, bytes.length ≠ 8 ∨ i3cTarget s = false → exec (.i3cPrivateWrite bytes) s = .next s) ∧
    (i3cTarget s = false → exec .i3cPrivateRead s = .next s) ∧
    (i3cTarget s = true → s.i3cOff < 0x10000 → R.BBX_STAT + s.i3cOff / 8 * 8 ≠ R.BBX_DATA_I → R.BBX_STAT + s.i3cOff / 8 * 8 ≠ R.BBX_DATA_H →
      exec .i3cPrivateRead s = .next { s with tx := s.tx ++ [.i3c (leBytes 8 (rd s (R.BBX_STAT + s.i3cOff / 8 * 8)).toNat)] }) ∧
    (∀ d a, (d, a) = (R.BBX_DATA_I, R.BBX_ADDR_I) ∨ (d, a) = (R.BBX_DATA_H, R.BBX_ADDR_H) → i3cTarget s = true → R.BBX_STAT + s.i3cOff / 8 * 8 = d →
      exec .i3cPrivateRead s = .next { wrf s a 3 20 (rdf s a 3 20 + 1) with tx := s.tx ++ [.i3c (leBytes 8 (mramWord s (rdf s a 3 20 * 8)).toNat)] })

/-- R291, R338, R393, R397, R436: a claim of a free pin takes it for its function and records its owner, as does its owner's repeated claim; a claim of a pin held by the other side or for another function is refused, and so is a release by the other side; its owner releases it; a rising edge on a trigger-in pin adds 1 to its counter and one on a freeze-out pin freezes the ring. -/
def Sys2Proof.Parts.EventPins : Prop :=
  ∀ (s : State) (n : Nat) (v : Word) (i3c : Bool), s.Inv → n < 4 →
    let own := rdf s (R.BBX_EVT n) 2 2
    let mine := own ≠ 0 ∧ rdf s (R.BBX_EVT n) 4 1 = (if i3c then 1 else 0)
    (∀ (c : Nat → Word → Bool → Instr) (f : Nat), ((c, f) = (Instr.evtClaimTriggerIn, 1) ∨ (c, f) = (Instr.evtClaimFreezeOut, 2)) → fld v 0 2 = f →
      (own = 0 ∨ (mine ∧ own = f) → ∃ u, exec (c n v i3c) s = .next u ∧ rdf u (R.BBX_EVT n) 2 2 = f ∧ rdf u (R.BBX_EVT n) 0 2 = f ∧
        rdf u (R.BBX_EVT n) 4 1 = (if i3c then 1 else 0) ∧ rdf u (R.BBX_EVT n) 8 11 = fld v 8 11 ∧ (∀ a, a ≠ R.BBX_EVT n → rd u a = rd s a) ∧ u.mem = s.mem) ∧
      (own ≠ 0 → (own ≠ f ∨ ¬ mine) → exec (c n v i3c) s = .next (evtRefuse s n f))) ∧
    (fld v 0 2 = 0 → own = 0 ∨ mine →
      ∃ u, exec (.evtRelease n v i3c) s = .next u ∧ rdf u (R.BBX_EVT n) 2 2 = 0 ∧ (∀ a, a ≠ R.BBX_EVT n → rd u a = rd s a)) ∧
    (fld v 0 2 = 0 → own ≠ 0 → ¬ mine → exec (.evtRelease n v i3c) s = .next (evtRefuse s n 0)) ∧
    (own = 1 → exec (.evtTriggerEdge n) s = .next (counterAdd s (rdf s (R.BBX_EVT n) 8 11) 1)) ∧
    (own ≠ 1 → exec (.evtTriggerEdge n) s = .next s) ∧
    (own = 2 → rdf s R.BBX_STAT 16 1 = 0 → exec (.evtFreezeEdge n) s = .next (freezeRing s)) ∧
    ((own ≠ 2 ∨ rdf s R.BBX_STAT 16 1 = 1) → exec (.evtFreezeEdge n) s = .next s)

/-- R365, R366, R367, R382: GO on a measurement entry clears DONE, queues its range for hashing and its extension in GO order; when the hash ends the digest is stored, DONE is set, and every extension whose digest is there is made in that order; an entry already hashing ignores GO. -/
def Sys2Proof.Parts.Measurement : Prop :=
  ∀ (s : State) (h i : Nat) (v : Word), s.Inv → h < 2 → i < 128 →
    ((v.getLsbD 63 = false ∨ s.hashing.contains (h, i) = true) → exec (.secMeasGo h i v) s = .next s) ∧
    (v.getLsbD 63 = true → s.hashing.contains (h, i) = false → ∃ u e, exec (.secMeasGo h i v) s = .next u ∧
      rdf u (R.SEC_MEAS h i 0) 61 1 = 0 ∧ u.hashing = s.hashing ++ [(h, i)] ∧ u.chainQ = s.chainQ ++ [e] ∧ e.h = h ∧ e.i = i ∧ e.dig = none ∧
      e.kind = rdf u (R.SEC_MEAS h i 1) 41 2 ∧ e.ctx = rdf u (R.SEC_MEAS h i 1) 32 6 ∧ e.part = rdf u (R.SEC_MEAS h i 1) 38 3 ∧ u.mem = s.mem ∧
      (bitw (rd s (R.SEC_MEAS h i 0)) 63 = true → rd u (R.SEC_MEAS h i 1) = rd s (R.SEC_MEAS h i 1)) ∧
      (bitw (rd s (R.SEC_MEAS h i 0)) 63 = false → rd u (R.SEC_MEAS h i 1) = BitVec.ofNat 64 (fld v 0 43)) ∧
      (∀ a, a ≠ R.SEC_MEAS h i 0 → a ≠ R.SEC_MEAS h i 1 → rd u a = rd s a)) ∧
    (s.hashing.contains (h, i) = false → exec (.measurementDone h i) s = .next s) ∧
    (∀ made left, s.hashing.contains (h, i) = true →
      let d := rangeDigest s (rdf s (R.SEC_MEAS h i 0) 12 36 * 4096) (rdf s (R.SEC_MEAS h i 1) 0 32 * 4096)
      s.chainQ.map (fun e => if e.h = h ∧ e.i = i ∧ e.dig = none then { e with dig := some d } else e) = made ++ left →
      (∀ e ∈ made, e.dig.isSome = true) → (∀ e r, left = e :: r → e.dig = none) →
      let s1 := wrf (putDigest s (R.SEC_MEAS h i 2) d) (R.SEC_MEAS h i 0) 61 1 1
      exec (.measurementDone h i) s =
        .next (made.foldl (fun u e => extendChain u e (e.dig.getD 0)) { s1 with hashing := s.hashing.filter (· ≠ (h, i)), chainQ := left })) ∧
    (s.hashing.contains (h, i) = true → s.chainQ = [] →
      let d := rangeDigest s (rdf s (R.SEC_MEAS h i 0) 12 36 * 4096) (rdf s (R.SEC_MEAS h i 1) 0 32 * 4096)
      ∃ u, exec (.measurementDone h i) s = .next u ∧ rdf u (R.SEC_MEAS h i 0) 61 1 = 1 ∧
        (∀ w < 8, rd u (R.SEC_MEAS h i (2 + w)) = BitVec.ofNat 64 (nfld d.toNat (64 * w) 64)) ∧ (h, i) ∉ u.hashing ∧ u.mem = s.mem)

/-- R368, R370, R371, R381: REPORT draws a fresh key and writes the report over the current state to the host; ADMIT without a report does nothing, an all-zero secret is refused with BAD_PEER, and otherwise the session's three keys are derived from the secret and the report and the report's key is spent; KEYSWITCH leaves on both ports and puts the session in force; ENDSESSION ends it and keeps the slot keys. -/
def Sys2Proof.Parts.Sessions : Prop :=
  ∀ s : State, s.Inv →
    (∃ u, exec .secCmdReport s = .next u ∧ u.eph = some (Config.freeBits 256 s.free) ∧
      u.report = buildReport { s with free := s.free + 1 } (Config.freeBits 256 s.free) ∧
      u.tx = s.tx ++ [.host (rdf s R.SEC_RADDR 6 46 * 64) u.report] ∧ rdf u R.SEC_STAT 2 1 = 1 ∧ (∀ a, a ≠ R.SEC_STAT → rd u a = rd s a) ∧ u.mem = s.mem) ∧
    (s.eph = none → exec .secCmdAdmit s = .next s) ∧
    (∀ k, s.eph = some k →
      let z := x25519 k (BitVec.ofNat 256 (leNat (regBytes s (R.SEC_PEER 0) 4)))
      (z = 0 → exec .secCmdAdmit s = .next (wr s R.SEC_CFG_ERR (BitVec.ofNat 64 (0x11 + 0xA5 * 256 + 2 ^ 63)))) ∧
      (z ≠ 0 → exec .secCmdAdmit s = .next { s with eph := none, admitting := some (sessionKeys s z) })) ∧
    (s.admitting = none → exec .keyswitch s = .next s) ∧
    (∀ k, s.admitting = some k → ∃ u, exec .keyswitch s = .next u ∧ u.session = some k ∧ u.admitting = none ∧ rdf u R.SEC_STAT 1 1 = 1 ∧
      u.tx = s.tx ++ [.keyswitch, .keyswitch] ∧ u.mem = s.mem ∧ u.slotKeys = s.slotKeys) ∧
    (∃ u, exec .secCmdEndsession s = .next u ∧ u.session = none ∧ u.admitting = none ∧ rdf u R.SEC_STAT 1 1 = 0 ∧ u.slotKeys = s.slotKeys ∧
      (∀ a, a ≠ R.SEC_STAT → rd u a = rd s a) ∧ u.mem = s.mem)

/-- R372, R381: LOAD of a key slot without a session is refused with NOT_ADMITTED and leaves the slot invalid; a blob that does not unwrap is refused with KEY_UNWRAP; a key that unwraps makes the slot valid with its kind and partition, and an older slot of the same kind and partition is dropped; a write without LOAD loads nothing. -/
def Sys2Proof.Parts.KeySlots : Prop :=
  ∀ (s : State) (k : Nat) (v : Word), s.Inv → k < 32 →
    (v.getLsbD 62 = false → exec (.secKslotLoad k v) s = .next s) ∧
    (v.getLsbD 62 = true →
    let s1 := wrf (wr (dropSlot s k) (R.SEC_KSLOT k 0) (v &&& 0x73)) (R.SEC_KSLOT k 0) 63 1 0
    bitw (rd s1 (R.SEC_KSLOT k 0)) 63 = false ∧
    (s.session = none ∨ rdf s R.SEC_STAT 1 1 = 0 → exec (.secKslotLoad k v) s = .next (wr s1 R.SEC_CFG_ERR (BitVec.ofNat 64 (0x11 + 0xA2 * 256 + 2 ^ 63)))) ∧
    (∀ z, s.session = some z → rdf s R.SEC_STAT 1 1 = 1 → (fld v 0 2 = 0 ∨ unwrapSlot s1 z.wrap k (fld v 0 2) (fld v 4 3) = none) →
      exec (.secKslotLoad k v) s = .next (wr s1 R.SEC_CFG_ERR (BitVec.ofNat 64 (0x11 + 0xA1 * 256 + 2 ^ 63)))) ∧
    (∀ z key, s.session = some z → rdf s R.SEC_STAT 1 1 = 1 → fld v 0 2 ≠ 0 →
      unwrapSlot s1 z.wrap k (fld v 0 2) (fld v 4 3) = some key →
      ∃ u, exec (.secKslotLoad k v) s = .next u ∧ bitw (rd u (R.SEC_KSLOT k 0)) 63 = true ∧ rdf u (R.SEC_KSLOT k 0) 0 2 = fld v 0 2 ∧
        rdf u (R.SEC_KSLOT k 0) 4 3 = fld v 4 3 ∧ sget 0 u.slotKeys k = key ∧
        (∀ o, keySlot s1 (fld v 4 3) (fld v 0 2) = some o → bitw (rd u (R.SEC_KSLOT o 0)) 63 = false) ∧
        u.mem = s.mem ∧ u.session = s.session))

/-- R378, R379, R380, R398: GO of a release is refused with a conflict while a context of the partition exists or it is busy; otherwise the partition leaves the fabric and both halves and its scrub starts; and once the scrub's time has passed its scrub is over, its status says so, and its memory reads zero. -/
def Sys2Proof.Parts.ReleaseAndScrub : Prop :=
  ∀ (s : State) (v : Word), s.Inv →
    let p := fld v 0 3
    let refuse (sub : Nat) : State :=
      conflict (wr s R.SEC_CFG_ERR (BitVec.ofNat 64 (0x30 + sub * 256 + 2 ^ 63))) 0 p p p (some p) (BitVec.ofNat 64 (0x30 + sub * 256 + 2 ^ 63))
    (v.getLsbD 63 = false → exec (.secReleaseGo v) s = .next s) ∧
    (v.getLsbD 63 = true → ctxsOf s p ≠ [] → exec (.secReleaseGo v) s = .next (refuse 0xA4)) ∧
    (v.getLsbD 63 = true → ctxsOf s p = [] → (ckpPhase s p ∈ [1, 2, 3, 6] ∨ bitw (rd s R.SEC_SCRUB) p = true) →
      exec (.secReleaseGo v) s = .next (refuse 0xA3)) ∧
    (v.getLsbD 63 = true → ctxsOf s p = [] → ckpPhase s p ∉ [1, 2, 3, 6] → bitw (rd s R.SEC_SCRUB) p = false →
      ∃ u sc, exec (.secReleaseGo v) s = .next u ∧ bitw (rd u (R.SCF_DOMAIN p)) 63 = false ∧ (∀ h < 2, bitw (rd u (R.MEM_PART_CFG h p)) 63 = false) ∧
        bitw (rd u R.SEC_SCRUB) p = true ∧ u.scrubs = s.scrubs ++ [sc] ∧ sc.part = p ∧ sc.start = s.ltc.toNat ∧
        (∀ h < 2, (if h = 0 then sc.west else sc.east) = if bitw (rd s (R.MEM_PART_CFG h p)) 63 then rd s (R.MEM_PART_CFG h p) else 0)) ∧
    (∀ q, s.scrubs.find? (fun c => c.part == q) = none → exec (.scrubDone q) s = .next s) ∧
    (∀ q sc, s.scrubs.find? (fun c => c.part == q) = some sc → s.ltc.toNat < sc.start + scrubNs s → exec (.scrubDone q) s = .next s) ∧
    (∀ q sc, q < 8 → s.scrubs.find? (fun c => c.part == q) = some sc → sc.start + scrubNs s ≤ s.ltc.toNat →
      ∃ u, exec (.scrubDone q) s = .next u ∧ bitw (rd u R.SEC_SCRUB) q = false ∧ bitw (rd u R.SEC_SCRUB) (8 + q) = true ∧ sc ∉ u.scrubs ∧
        (∀ x, fld sc.west 24 10 * 2 ^ 30 ≤ x → x < (fld sc.west 24 10 + fld sc.west 34 10) * 2 ^ 30 → memByte u x = 0) ∧
        (∀ x, 0x10000000000 + fld sc.east 24 10 * 2 ^ 30 ≤ x → x < 0x10000000000 + (fld sc.east 24 10 + fld sc.east 34 10) * 2 ^ 30 → memByte u x = 0))

/-- R28, R30, R386, R413, R419: losing the reference clears LOCK and marks the loss, and is fatal when the root PLL was locked; its return clears the fault; a rail fault, a sequencer timeout and a die above its trip are fatal with their cause; a missing sequencer heartbeat only stops ALIVE; and nothing of this happens without power. -/
def Sys2Proof.Parts.ClockAndRailFaults : Prop :=
  ∀ s : State, s.Inv →
    (s.refOk = true → unpowered s = false → pwrState s ≠ 4 →
      (rdf s R.CLK_STATUS 0 1 = 1 → ∃ u, exec .refclkLoss s = .next u ∧ pwrState u = 4 ∧ rdf u R.PWR_STAT 8 8 = 1 ∧ rdf u R.CLK_STATUS 0 1 = 0 ∧
        rdf u R.CLK_STATUS 4 1 = 1 ∧ u.refOk = false) ∧
      (rdf s R.CLK_STATUS 0 1 = 0 → ∃ u, exec .refclkLoss s = .next u ∧ pwrState u = pwrState s ∧ rdf u R.CLK_STATUS 4 1 = 1 ∧ rdf u R.CLK_STATUS 2 1 = 1 ∧
        u.refOk = false ∧ (∀ a, a ≠ R.CLK_STATUS → rd u a = rd s a))) ∧
    (s.refOk = false → exec .refclkLoss s = .next s ∧ exec .refclkReturn s = .next (wrf { s with refOk := true } R.CLK_STATUS 4 1 0)) ∧
    (s.refOk = true → exec .refclkReturn s = .next s) ∧
    (∀ rail, rail < 11 → unpowered s = false → pwrState s ≠ 4 → ∃ u, exec (.railFault rail) s = .next u ∧ pwrState u = 4 ∧ rdf u R.PWR_STAT 8 8 = 5 ∧
      rdf u R.PWR_RAIL (16 + rail) 1 = 1 ∧ rdf u R.PWR_RAIL 1 11 = 0) ∧
    (∀ die, unpowered s = false → exec (.sequencerTimeout die) s = .next (fatal s 6 die 0)) ∧
    (∀ die, s.alive = 1 → exec (.sequencerHeartbeatLost die) s = .next { s with alive := 2 }) ∧
    (∀ die, s.alive ≠ 1 → exec (.sequencerHeartbeatLost die) s = .next s) ∧
    (∀ die temp, unpowered s = false → pwrState s ≠ 4 → rdf s R.PWR_THERM 40 8 * 10 < temp → temp < 65536 → die < 8 →
      ∃ u, exec (.thermalTrip die temp) s = .next u ∧ pwrState u = 4 ∧ rdf u R.PWR_STAT 8 8 = 4 ∧ rdf u R.PWR_THERM 0 16 = temp ∧ rdf u R.PWR_THERM 16 3 = die) ∧
    (∀ die temp, temp ≤ rdf s R.PWR_THERM 40 8 * 10 ∨ pwrState s = 4 → exec (.thermalTrip die temp) s = .next s) ∧
    (unpowered s = true → exec .refclkLoss s = .next s ∧ (∀ r, exec (.railFault r) s = .next s) ∧ (∀ d, exec (.sequencerTimeout d) s = .next s) ∧
      (∀ d t, exec (.thermalTrip d t) s = .next s) ∧
      (∀ a b c, exec (.powerSample a b c) s = .next s) ∧ (∀ l, exec (.thermalSample l) s = .next s))

/-- R422, R423: above its cap over 100 us the package lowers DUTY by one and marks the cap; well below it, with no die above the limit and 100 us since the last rise, it raises DUTY by one; a die above its limit lowers DUTY and marks the heat, and from 105 degrees DUTY is at most 8; the power, the hottest die and its temperature are shown, and the time with DUTY below 64 is counted. The marks stand until a sample leaves DUTY at 64 (log 53). A package that does not run is only sampled. -/
def Sys2Proof.Parts.PowerAndHeat : Prop :=
  ∀ s : State, s.Inv → unpowered s = false → rdf s R.PWR_THROTTLE 0 7 ≤ 64 →
    (∀ w mv ca, mv < 65536 → ca < 65536 →
      let l := (w :: s.powHist).take 10
      let duty := rdf s R.PWR_THROTTLE 0 7
      let cap := rdf s R.PWR_POWER 48 16
      let low := l.sum * 100 < cap * l.length * 97
      let may := rdf s R.PWR_THERM 0 16 ≤ rdf s R.PWR_THERM 32 8 * 10 ∧ s.dutyAt + 100000 ≤ s.ltc.toNat ∧ duty < 64
      ∃ u, exec (.powerSample w mv ca) s = .next u ∧ u.powHist = (w :: s.powHist).take 100 ∧
        rdf u R.PWR_POWER 0 16 = u.powHist.sum / u.powHist.length % 65536 ∧ rdf u R.PWR_POWER 16 16 = mv ∧ rdf u R.PWR_POWER 32 16 = ca ∧
        rdf u R.PWR_POWER 48 16 = cap ∧
        (issuing s = true →
          (cap * l.length < l.sum → rdf u R.PWR_THROTTLE 0 7 = duty - 1 ∧ rdf u R.PWR_THROTTLE 8 1 = 1) ∧
          (low → may → rdf u R.PWR_THROTTLE 0 7 = duty + 1 ∧ u.dutyAt = s.ltc.toNat) ∧
          (l.sum ≤ cap * l.length → ¬ (low ∧ may) → rdf u R.PWR_THROTTLE 0 7 = duty) ∧
          (rdf u R.PWR_THROTTLE 0 7 = 64 → rdf u R.PWR_THROTTLE 8 2 = 0) ∧
          (rdf u R.PWR_THROTTLE 0 7 < 64 → rdf u R.PWR_THROTTLE 9 1 = rdf s R.PWR_THROTTLE 9 1 ∧
            rdf u R.PWR_THROTTLE 32 32 = min (2 ^ 32 - 1) (rdf s R.PWR_THROTTLE 32 32 + 10))) ∧
        (issuing s = false → rd u R.PWR_THROTTLE = rd s R.PWR_THROTTLE) ∧
        (∀ a, a ≠ R.PWR_POWER → a ≠ R.PWR_THROTTLE → rd u a = rd s a) ∧ u.mem = s.mem) ∧
    (∀ temps, temps ≠ [] → temps.length ≤ 8 → temps.foldl max 0 < 65536 →
      let hot := temps.foldl max 0
      let duty := rdf s R.PWR_THROTTLE 0 7
      ∃ u, exec (.thermalSample temps) s = .next u ∧ rdf u R.PWR_THERM 0 16 = hot ∧ temps[rdf u R.PWR_THERM 16 3]? = some hot ∧
        rdf u R.PWR_THERM 32 8 = rdf s R.PWR_THERM 32 8 ∧
        (issuing s = true →
          (hot ≤ rdf s R.PWR_THERM 32 8 * 10 → hot < 1050 → rd u R.PWR_THROTTLE = rd s R.PWR_THROTTLE) ∧
          (rdf s R.PWR_THERM 32 8 * 10 < hot → hot < 1050 → rdf u R.PWR_THROTTLE 0 7 = duty - 1 ∧ rdf u R.PWR_THROTTLE 9 1 = 1) ∧
          (1050 ≤ hot → rdf u R.PWR_THROTTLE 0 7 = min 8 (duty - 1) ∧ rdf u R.PWR_THROTTLE 9 1 = 1)) ∧
        (issuing s = false → rd u R.PWR_THROTTLE = rd s R.PWR_THROTTLE) ∧
        (∀ a, a ≠ R.PWR_THERM → a ≠ R.PWR_THROTTLE → rd u a = rd s a))

/-- R421, R424, R425: a regime is changed only with APPLY, while the package runs and no change is under way; a power regime of 3 is refused with 0x10, and PRECISION with a context in existence, or CONFIDENTIAL, with a conflict; between PEAK and STEADY the new regime and its cap are in force at once; into or out of FRUGAL PENDING is set, HBM is held through the slew, which entering FRUGAL waits for the mean power to fall below the cap, and then the multiplier and cap are those of the new regime. -/
def Sys2Proof.Parts.RegimeChanges : Prop :=
  (∀ (c : Word → Instr), c ∈ [Instr.pwrRegimePowerChange, Instr.pwrRegimePrecisionChange, Instr.pwrRegimeLatencyChange] →
    ∀ (s : State) (v : Word), s.Inv →
      let w := rd s R.PWR_REGIME
      ((v.getLsbD 63 = false ∨ w.getLsbD 62 = true ∨ issuing s = false) → exec (c v) s = .next s) ∧
      (v.getLsbD 63 = true → w.getLsbD 62 = false → issuing s = true →
        (fld v 0 2 = 3 → exec (c v) s = .next (wr s R.PWR_CFG_ERR (BitVec.ofNat 64 (0x10 + 2 ^ 63)))) ∧
        (fld v 0 2 ≠ 3 → ((v.getLsbD 8 ≠ w.getLsbD 8 ∧ ∃ x < 64, ctxValid s x = true) ∨ v.getLsbD 10 ≠ w.getLsbD 10) → exec (c v) s = .next (regimeRefuse s 0x30 0xD0)) ∧
        (fld v 0 2 ≠ 3 → (v.getLsbD 8 = w.getLsbD 8 ∨ ∀ x < 64, ctxValid s x = false) → v.getLsbD 10 = w.getLsbD 10 →
          ((fld w 0 2 = fld v 0 2 ∨ (fld w 0 2 ≠ 2 ∧ fld v 0 2 ≠ 2)) → ∃ u, exec (c v) s = .next u ∧ rdf u R.PWR_REGIME 0 2 = fld v 0 2 ∧
            rdf u R.PWR_REGIME 8 2 = fld v 8 2 ∧ rdf u R.PWR_POWER 48 16 = capOf (fld v 0 2) ∧ pwrState u = pwrState s) ∧
          ((fld w 0 2 ≠ fld v 0 2 ∧ (fld w 0 2 = 2 ∨ fld v 0 2 = 2)) → ∃ u, exec (c v) s = .next u ∧ rdf u R.PWR_REGIME 62 1 = 1 ∧
            rdf u R.PWR_REGIME 8 2 = fld v 8 2 ∧ rdf u R.PWR_REGIME 0 2 = fld w 0 2 ∧ pwrState u = 3 ∧ u.regimeTo = some (fld v 0 2))))) ∧
  (∀ (s : State), s.Inv → s.regimeTo = none ∨ pwrState s ≠ 3 → exec .frugalChangeProceeds s = .next s ∧ exec .slewEnd s = .next s) ∧
  (∀ (s : State) (tgt : Nat), s.Inv → s.regimeTo = some tgt → pwrState s = 3 → tgt < 3 →
    (s.hbmHeld = false → exec .slewEnd s = .next s ∧
      (tgt = 2 → rdf s R.PWR_POWER 48 16 ≤ meanPower s → exec .frugalChangeProceeds s = .next s) ∧
      ((tgt = 2 → meanPower s < rdf s R.PWR_POWER 48 16) →
        exec .frugalChangeProceeds s = .next { wrf s R.CLK_STATUS 1 1 1 with hbmHeld := true, hbmHeldAt := s.ltc.toNat })) ∧
    (s.hbmHeld = true → exec .frugalChangeProceeds s = .next s ∧ ∃ u, exec .slewEnd s = .next u ∧ u.hbmHeld = false ∧ u.regimeTo = none ∧
      rdf u R.CLK_STATUS 1 1 = 0 ∧ rdf u R.CLK_STATUS 8 8 = (if tgt = 2 then 64 else 80) ∧ rdf u R.PWR_REGIME 0 2 = tgt ∧ rdf u R.PWR_REGIME 62 1 = 0 ∧
      rdf u R.PWR_POWER 48 16 = capOf tgt ∧ pwrState u = 2))

/-- R20, R435: BYPASS and IDCODE are always accepted, and IDCODE shifts the code out; SAMPLE, EXTEST and debug instructions are not in CONFIDENTIAL or with the fuse blown, and act as BYPASS there, as does EXTEST while the package has power and runs, and a debug instruction while it does not; the first debug instruction since power-on is recorded. Without power, and in stage 1, no instruction is taken. -/
def Sys2Proof.Parts.TestAccess : Prop :=
  ∀ (s : State) (i : TapIns), s.Inv →
    (unpowered s = true ∨ inStage s 1 = true → exec (.testAccessInstruction i) s = .next s) ∧
    (unpowered s = false → inStage s 1 = false →
      let down := pwrState s = 4 ∨ rdf s R.PWR_RAIL 1 11 = 0
      let shut := confidential s = true ∨ Config.lockFused = true
      (i = .bypass → exec (.testAccessInstruction i) s = .next { s with tapIr := .bypass }) ∧
      (i = .idcode → exec (.testAccessInstruction i) s = .next { s with tapIr := .idcode, tx := s.tx ++ [.tdo (idcode s)] }) ∧
      ((shut ∧ i ≠ .idcode) ∨ (i = .extest ∧ ¬ down) ∨ (i = .debug ∧ down) → exec (.testAccessInstruction i) s = .next { s with tapIr := .bypass }) ∧
      (¬ shut → (i = .sample ∨ (i = .extest ∧ down) ∨ (i = .debug ∧ ¬ down ∧ s.debugUsed = true)) →
        exec (.testAccessInstruction i) s = .next { s with tapIr := i }) ∧
      (¬ shut → i = .debug → ¬ down → s.debugUsed = false →
        exec (.testAccessInstruction i) s = .next (bbx { s with tapIr := .debug, debugUsed := true } true 0x09 0 0 0 [5])))

/-- R362, R363, R364, R415, R421, R434: stages 1 to 5, each by its command: PWRGOOD, the root PLL's lock at a multiplier of 80, the rails, the image with the higher security version of those that verify (slot A when equal), and its register writes and regime; with no valid image the package stays at stage 4 with FAULT_N; the eighth arbitration loss counts both slots as unreadable. -/
def Sys2Proof.Parts.EarlyStages : Prop :=
  ∀ s : State, s.Inv →
    (inStage s 1 = true → ∃ u, exec .pwrgoodAsserted s = .next u ∧ u.pwrgood = true ∧ inStage u 2 = true ∧ u.regs = (toStage s 2).regs) ∧
    (unpowered s = false → inStage s 1 = false → exec .pwrgoodAsserted s = .next { s with pwrgood := true }) ∧
    (inStage s 2 = true → s.pwrgood = true → s.refOk = true → ∃ u, exec .rootPllLock s = .next u ∧ inStage u 3 = true ∧
      rdf u R.CLK_STATUS 0 1 = 1 ∧ rdf u R.CLK_STATUS 8 8 = 80 ∧ u.faultN = false) ∧
    (inStage s 2 = true → s.startAt + 10000000 ≤ s.ltc.toNat → exec .rootPllLockTimeout s = .next (fatal s 1 0 0)) ∧
    (inStage s 2 = false ∨ s.ltc.toNat < s.startAt + 10000000 → exec .rootPllLockTimeout s = .next s) ∧
    (inStage s 3 = true → ∃ u, exec .railsUp s = .next u ∧ inStage u 4 = true ∧ rdf u R.PWR_RAIL 0 12 = 0x7FF) ∧
    (inStage s 4 = true → s.noImage = false → s.i3cWait = none → ∀ a b : ImageSlot,
      (imageBad s a ≠ 0 → imageBad s b ≠ 0 → ∃ u, exec (.imageVerify a b) s = .next u ∧ u.noImage = true ∧ u.faultN = true ∧ inStage u 4 = true) ∧
      (imageBad s a = 0 → (imageBad s b ≠ 0 ∨ leNat ((b.header.drop 4).take 1) ≤ leNat ((a.header.drop 4).take 1)) →
        ∃ u, exec (.imageVerify a b) s = .next u ∧ inStage u 5 = true ∧ rdf u R.SEC_STAT 6 1 = 0 ∧ u.imgDigest = imageDigest a ∧ u.imgRead = true) ∧
      (imageBad s b = 0 → (imageBad s a ≠ 0 ∨ leNat ((a.header.drop 4).take 1) < leNat ((b.header.drop 4).take 1)) →
        ∃ u, exec (.imageVerify a b) s = .next u ∧ inStage u 5 = true ∧ rdf u R.SEC_STAT 6 1 = 1 ∧ u.imgDigest = imageDigest b ∧ u.imgRead = true)) ∧
    (pwrState s = 1 → unpowered s = false → s.imgRead = false → s.i3cWait = none →
      (s.i3cTries < 7 → exec .i3cArbitrationLoss s = .next { s with i3cTries := s.i3cTries + 1, i3cWait := some (s.ltc.toNat + 1000000) }) ∧
      (7 ≤ s.i3cTries → exec .i3cArbitrationLoss s = .next (imageNone s 5 5))) ∧
    (∀ t, s.i3cWait = some t → (t ≤ s.ltc.toNat → exec .i3cRetry s = .next { s with i3cWait := none }) ∧ (s.ltc.toNat < t → exec .i3cRetry s = .next s)) ∧
    (∀ p ws, inStage s 5 = true → p < 3 →
      let s1 := ws.foldl (fun u w => if R.PWR_REGIME ≤ w.1 ∧ w.1 < R.SEC_STAT then u else regStore u w.1 w.2) s
      ∃ u, exec (.imageApply p ws) s = .next u ∧ rdf u R.PWR_STAT 4 4 = 6 ∧ rdf u R.PWR_REGIME 0 2 = p ∧ rdf u R.PWR_POWER 48 16 = capOf p ∧
        (∀ a, a ∉ [R.PWR_STAT, R.PWR_REGIME, R.PWR_POWER, R.CLK_STATUS] → rd u a = rd s1 a) ∧ u.mem = s1.mem ∧ ((∀ w ∈ ws, regRow w.1 = none) → inStage u 6 = true))

/-- R224, R237, R270, R415, R416, R419: stages 6 to 10: failed HBM channels are mapped out, more than 32 of a half being fatal; the ports that train come up; mapped HBM and the on-die memories read zero; the boot is counted; and with the front-end ready the package runs and ALIVE toggles. A stage more than 100 ms late is fatal, but for a package with no image. -/
def Sys2Proof.Parts.LateStages : Prop :=
  ∀ s : State, s.Inv →
    (∀ failed repaired, inStage s 6 = true →
      ((∃ h < 2, 32 < ((List.range 192).filter (fun c => failed.contains (h, c))).length) → exec (.hbmTraining failed repaired) s = .next (fatal s 6 0 0)) ∧
      ((∀ h < 2, ((List.range 192).filter (fun c => failed.contains (h, c))).length ≤ 32) → ∃ u, exec (.hbmTraining failed repaired) s = .next u ∧ inStage u 7 = true ∧
        (∀ h < 2, ∀ c < 192, failed.contains (h, c) = true → rdf u (R.MEM_CH_STAT h c) 15 1 = 1))) ∧
    (∀ trained failed plk, inStage s 7 = true → ∃ u, exec (.serdesTraining trained failed plk) s = .next u ∧ inStage u 8 = true ∧
      (∀ k < 16, rdf s (R.SCF_PORT_CTL k) 0 2 ≠ 0 → failed.contains k = false → portState u k = (if trained.contains k then 2 else 1)) ∧
      (∀ k < 16, rdf s (R.SCF_PORT_CTL k) 0 2 = 0 ∨ failed.contains k = true → portState u k = portState s k) ∧
      (∀ k < 2, rdf u R.PLK_STAT (2 * k) 2 = (if plk.contains k then 3 else 1))) ∧
    (inStage s 8 = true → ∃ u, exec .hbmZero s = .next u ∧ inStage u 9 = true ∧ ∀ a, a < 0x020000000000 → memByte u a = 0) ∧
    (inStage s 9 = true → ∃ u, exec .memoryClear s = .next u ∧ inStage u 10 = true ∧ rd u R.SEC_BOOTCOUNT = rd s R.SEC_BOOTCOUNT + 1 ∧
      u.attest = Config.freeNat s.free ∧ ∀ a, 0x020000000000 ≤ a → a < 0x0F0000000000 → memByte u a = 0) ∧
    (inStage s 10 = true → ∃ u, exec .frontEndReady s = .next u ∧ issuing u = true ∧ u.alive = 1 ∧ u.mem = s.mem) ∧
    (pwrState s = 1 → unpowered s = false → 2 ≤ rdf s R.PWR_STAT 4 4 → s.noImage = false →
      (s.startAt + (stageEnd (rdf s R.PWR_STAT 4 4) + 100) * 1000000 ≤ s.ltc.toNat → exec .startUpStageTimeout s = .next (fatal s 6 0 0)) ∧
      (s.ltc.toNat < s.startAt + (stageEnd (rdf s R.PWR_STAT 4 4) + 100) * 1000000 → exec .startUpStageTimeout s = .next s)) ∧
    (s.noImage = true → exec .startUpStageTimeout s = .next s)

/-- R2, R30, R394, R417, R418, R420, R426, R431: a power loss records itself, takes every port down and protects the MRAM, and only power that returns starts the package again; RESET_N and a confirmed PWR_CTL.RESET are graceful warm resets, RESET_N also of a package held without an image; a confirmed PWR_CTL.STANDBY goes to standby; an unconfirmed write does nothing; and a reset keeps the local time counter and REF_LOST when warm, the black box and the fuses always, and clears every thread and all memory. -/
def Sys2Proof.Parts.Resets : Prop :=
  ∀ s : State, s.Inv →
    (∀ cause < 2, unpowered s = false → ∃ u, exec (.powerLoss cause) s = .next u ∧ unpowered u = true ∧ pwrState u = 5 ∧ u.pwrgood = false ∧ u.alive = 0 ∧
      (∀ k < 16, portState u k = 0) ∧ rdf u R.CLK_STATUS 0 1 = 0 ∧ u.ltc = s.ltc ∧ u.mem = s.mem) ∧
    (∀ cause, unpowered s = true → exec (.powerLoss cause) s = .next s) ∧
    (unpowered s = true → exec .powerOn s = .next (reborn s false)) ∧ (unpowered s = false → exec .powerOn s = .next s) ∧
    (mayReset s = true ∨ (s.noImage = true ∧ unpowered s = false) → exec .resetNPulse s = .next (warmReset s)) ∧
    (mayReset s = false → (s.noImage = false ∨ unpowered s = true) → exec .resetNPulse s = .next s) ∧
    (∀ v : Word, mayReset s = true → s.standby = false →
      (fld v 8 8 = 0x5A → v.getLsbD 0 = true → exec (.pwrCtlReset v) s = .next (warmReset s)) ∧
      (fld v 8 8 = 0x5A → v.getLsbD 1 = true → exec (.pwrCtlStandby v) s = .next { wr (warmReset s) R.PWR_STAT 5 with standby := true }) ∧
      (fld v 8 8 ≠ 0x5A → exec (.pwrCtlReset v) s = .next s ∧ exec (.pwrCtlStandby v) s = .next s)) ∧
    (∀ v : Word, mayReset s = false ∨ s.standby = true → exec (.pwrCtlReset v) s = .next s ∧ exec (.pwrCtlStandby v) s = .next s) ∧
    (∀ warm, (reborn s warm).threads = [] ∧ (reborn s warm).ncores = [] ∧ (reborn s warm).mem = [] ∧ (reborn s warm).mram = s.mram ∧
      (reborn s warm).pending = s.pending ∧ (reborn s warm).ltc = (if warm then s.ltc else 0) ∧ pwrState (reborn s warm) = 1 ∧
      rdf (reborn s warm) R.PWR_STAT 4 4 = (if warm then 2 else 1) ∧ rd (reborn s warm) R.BBX_SEQ = rd s R.BBX_SEQ ∧
      rd (reborn s warm) R.PKG_ID = rd s R.PKG_ID ∧ nCores (reborn s warm) = nCores s ∧ rd (reborn s warm) R.PKG_NCL_W = rd s R.PKG_NCL_W ∧
      rd (reborn s warm) R.PKG_NCL_E = rd s R.PKG_NCL_E ∧ rdf (reborn s warm) R.CLK_STATUS 0 2 = 0 ∧ rdf (reborn s warm) R.CLK_STATUS 3 1 = 0 ∧
      rdf (reborn s warm) R.CLK_STATUS 2 1 = (if warm then rdf s R.CLK_STATUS 2 1 else 0))

/-- R57, R58, R61, R84: the checks an instruction passes before its effect, in their order: a thread that cannot issue does nothing; a class outside the profile and fields that break the format fault; and a guard that fails retires the word with no other effect. -/
def Obligations.IssueChecks : Prop :=
  (∀ c ∈ [Instr.add, .sub, .mul, .mulhs, .mulhu, .divs, .divu, .rems, .remu, .and, .or, .xor, .shl, .shr, .sar, .mins, .maxs, .minu, .maxu,
      .cmpeq, .cmpne, .cmplts, .cmpltu, .cmples, .cmpleu, .mov, .movhi, .ld1, .ld2, .ld4, .ld8, .st1, .st2, .st4, .st8, .fld, .fst,
      .fadd, .fsub, .fmul, .fdiv, .fsqrt, .ffma, .fmin, .fmax, .fcmpeq, .fcmplt, .fcmple, .fcvti, .fcvtf, .fmovx, .fmovf,
      .pand, .por, .pxor, .pnot, .pset, .rdltc, .rdnstat, .nstclr, .rdctr, .rdid], ∃ r i, IssueOrder c 0x01 r i) ∧
  (∀ c ∈ [Instr.br, .jal, .jr, .endProg, .nop, .trace], ∃ r i, IssueOrder c 0x02 r i) ∧
  (∀ c ∈ [Instr.setc, .wait, .waitr, .waitd, .fence], ∃ r i, IssueOrder c 0x03 r i) ∧
  (∀ c ∈ [Instr.rget, .rput, .rputf, .radd, .rmin, .rmax, .rand, .ror, .rxor, .rswap, .rcas8, .rcas16], ∃ r i, IssueOrder c 0x04 r i) ∧
  (∀ c ∈ [Instr.sdldB, .sdldE, .sdadd, .copy], ∃ r i, IssueOrder c 0x08 r i) ∧
  (∀ c ∈ [Instr.mxpassB, .mxpassE, .mxswap, .mxend], ∃ r i, IssueOrder c 0x09 r i) ∧
  (∀ c ∈ [Instr.trsetB, .trsetE, .trend], ∃ r i, IssueOrder c 0x0A r i) ∧
  (∀ c ∈ [Instr.eweRunB, .eweRunE, .eweImm, .eweLdp, .eweLdr, .eweStr, .eweRexec], ∃ r i, IssueOrder c 0x0B r i) ∧
  (∀ c ∈ [Instr.rduOpB, .rduOpE, .rduEnd, .rduRreg], ∃ r i, IssueOrder c 0x0C r i) ∧
  (∀ c ∈ [Instr.solveB, .solveE], ∃ r i, IssueOrder c 0x11 r i)

/-- R442: the walk of a descriptor takes each tile (i0, i1, i2) exactly once, in an order that ORDER alone sets; row r of tile (i0, i1, i2) begins at BASE + i0 TSTRIDE0 + i1 TSTRIDE1 + i2 TSTRIDE2 + r ROW_STRIDE, whatever ORDER is; and its scales lie at the addresses that SCALE_BASE and SCALE_ROW_STRIDE give for their axis. -/
def Obligations.TileWalk : Prop :=
  ∀ d : Desc,
    (∀ i0 i1 i2, i0 < d.n0 → i1 < d.n1 → i2 < d.n2 → ∃ n, n < d.n0 * d.n1 * d.n2 ∧ d.index n = (i0, i1, i2) ∧
      ∀ m, m < d.n0 * d.n1 * d.n2 → d.index m = (i0, i1, i2) → m = n) ∧
    (∀ n i0 i1 i2 r, d.index n = (i0, i1, i2) →
      (d.rowAddr n r : Int) = ((d.w0.toNat : Int) + i0 * d.w3.toInt + i1 * d.w4.toInt + i2 * d.w5.toInt + r * d.rowStride) % 2 ^ 64) ∧
    (∀ n i0 i1 i2 u v, d.index n = (i0, i1, i2) → (d.rows % 32 = 0 ∨ d.axis = false) → (d.cols % 32 = 0 ∨ d.axis = true) →
      (d.scaleAddr n u v : Int) = ((d.w6.toNat : Int) + (if d.axis = true
        then (((i2 * d.n1 + i1) * (d.rows / 32) + u : Nat) : Int) * d.srs + ((i0 * d.cols + v : Nat) : Int)
        else (((i2 * d.n1 + i1) * d.rows + u : Nat) : Int) * d.srs + ((i0 * (d.cols / 32) + v : Nat) : Int))) % 2 ^ 64)

/-- R232, R233, R243, R247: a cycle of a half that runs: the tokens of its buckets never exceed their burst, a partition with a ceiling and no whole token of it is not served, and what waits there still waits in its order; the ends of its arch link keep less than a line of their rate; the other half's buckets, the threads, the cores, the queues to the outside and HBM are as before; and its acknowledgements of the other half's invalidations have crossed. A half that does not run has no cycle. The lines of other agents and the half's capacity come with the command (log 31). -/
def Obligations.RegulatorCycles : Prop :=
  ∀ (s : State) (h capR capW : Nat) (offer : List (Nat × Bool × Nat)) (arch : List (Bool × Nat × Nat × Nat)), s.Inv → h < 2 →
    (issuing s = false → exec (.sclkCycle h capR capW offer arch) s = .next s) ∧
    (issuing s = true → ∃ u, exec (.sclkCycle h capR capW offer arch) s = .next u ∧
      (∀ p < 8, ∀ w : Bool,
        let was := rglSide (sget rgl0 s.rgl (h * 9 + p)) w
        let now := rglSide (sget rgl0 u.rgl (h * 9 + p)) w
        let set := rglSet s h p w
        now.1 ≤ set.2.2 * 128 ∧ now.2.1 ≤ set.2.2 * 128 ∧
        (set.2.1 ≠ 0 → min (set.2.2 * 128) (was.2.1 + set.2.1) < 128 → ∃ more, now.2.2 = was.2.2 ++ more)) ∧
      (∀ p < 8, ∀ w : Bool,
        let was := rglSide (sget rgl0 s.rgl ((1 - h) * 9 + p)) w
        let now := rglSide (sget rgl0 u.rgl ((1 - h) * 9 + p)) w
        now.1 = was.1 ∧ now.2.1 = was.2.1) ∧
      (∀ e < 2, sget 0 u.archCred (h * 2 + e) ≤ 63) ∧
      u.invs = s.invs.filter (fun (e : Nat × Nat × Nat) => e.2.2 != h) ∧
      (∀ a, a < 0x020000000000 → memByte u a = memByte s a) ∧ u.threads = s.threads ∧ u.ncores = s.ncores ∧ u.tx = s.tx)

/-- R402-R405, R407-R410, R433: a module that is inserted at full width is present and unchecked, a narrower one is absent; its check brings it into use and reads its ledger, and its life state never falls; a bay in use is not ejected; a module that leaves empties its bay and, where it was not ejected, ends what it had outstanding; areas may not overlap; and a transfer starts, is refused while one runs, waits while a higher class runs or memory waits, and ends with its status. A command for an empty bay, or a transfer that is not asked to go, does nothing. -/
def Obligations.DrainModules : Prop :=
  ∀ (s : State) (b p : Nat), s.Inv → b < 2 → p < 8 →
    (∀ m : ModuleIn, (bayOf s b).mod.isSome = true → exec (.moduleInserted b m) s = .next s) ∧
    (∀ m : ModuleIn, (bayOf s b).mod = none → m.wide = false → exec (.moduleInserted b m) s = .next (clearSlots s)) ∧
    (∀ m : ModuleIn, (bayOf s b).mod = none → m.wide = true →
      let s1 := clearSlots (setBay s b ⟨some (moduleOf m), false⟩)
      exec (.moduleInserted b m) s = .next (wr (wr s1 (R.DRN_BAY b) (putf (rd s1 (R.DRN_BAY b) &&& 0xFFFFFFFF00000000) 0 1 1)) (R.DRN_SERIAL b) 0)) ∧
    (∀ m, (bayOf s b).mod = some m → pcieUp s = true → (bayOf s b).ready = false → rdf s (R.DRN_BAY b) 6 1 = 0 →
      exec (.capsuleCheckDone b) s = .next (readLedger (wr (wrf (setBay s b ⟨some m, true⟩) (R.DRN_BAY b) 1 1 (if m.genuine then 1 else 0))
        (R.DRN_SERIAL b) (BitVec.ofNat 64 m.serial)) b)) ∧
    (((bayOf s b).mod = none ∨ pcieUp s = false ∨ (bayOf s b).ready = true ∨ rdf s (R.DRN_BAY b) 6 1 = 1) → exec (.capsuleCheckDone b) s = .next s) ∧
    (∀ m, (bayOf s b).mod = some m → rdf (readLedger s b) (R.DRN_BAY b) 8 8 = min 255 (modulePct m) ∧
      rdf (readLedger s b) (R.DRN_BAY b) 2 3 = max (rdf s (R.DRN_BAY b) 2 3) (moduleLife m)) ∧
    (s.ltc.toNat < s.ledgerAt + 10000000000 → exec .ledgerPoll s = .next s) ∧
    (s.ledgerAt + 10000000000 ≤ s.ltc.toNat →
      let s1 : State := { s with ledgerAt := s.ltc.toNat }
      let s2 := if (bayOf s 0).ready then readLedger s1 0 else s1
      exec .ledgerPoll s = .next (if (bayOf s 1).ready then readLedger s2 1 else s2)) ∧
    ((bayOf s b).mod = none → exec (.drnBayEject b) s = .next s ∧ exec (.moduleRemoved b) s = .next s) ∧
    ((bayOf s b).mod.isSome = true →
      (bayUsable s b = true → baysBusy s = true → exec (.drnBayEject b) s = .next (conflict s 0 b 0 0 none (rd s (R.DRN_BAY b)))) ∧
      ((bayUsable s b = false ∨ baysBusy s = false) → exec (.drnBayEject b) s = .next (wrf (setBay s b { bayOf s b with ready := false }) (R.DRN_BAY b) 6 1 1)) ∧
      (let s1 := if rdf s (R.DRN_BAY b) 6 1 = 1 then s else bayLost s b
       let s2 := clearSlots (setBay s1 b bay0)
       exec (.moduleRemoved b) s = .next (wr (wr s2 (R.DRN_BAY b) (rd s2 (R.DRN_BAY b) &&& 0xFFFFFFFF00000000)) (R.DRN_SERIAL b) 0))) ∧
    (∀ base v, let t := if base then regPut s (R.DRN_BASE p) v else regPut s (R.DRN_AREA p) v
      let meets (q : Nat) : Prop := q ≠ p ∧ max (areaSpan t q).1 (areaSpan t p).1 < min (areaSpan t q).2 (areaSpan t p).2
      ((∀ q < 8, ¬ meets q) → exec (.drnAreaWrite p base v) s = .next t) ∧
      (∀ q < 8, meets q → (∀ r < q, ¬ meets r) → exec (.drnAreaWrite p base v) s = .next (conflict s 0 p q p (some p) (rd s (R.DRN_AREA p))))) ∧
    (∀ (c : Nat → Word → Instr) (fill : Bool), ((c, fill) = (Instr.drnXferLoad, false) ∨ (c, fill) = (Instr.drnXferFill, true)) →
      ∀ v : Word, (v.getLsbD 63 = false ∨ v.getLsbD 0 ≠ fill → exec (c p v) s = .next s) ∧
      (v.getLsbD 63 = true → v.getLsbD 0 = fill →
      let x : DrnXfer := ⟨fill, fld v 12 36 * 4096, rdf s (R.DRN_XLEN p) 0 32, rdf s (R.DRN_XLEN p) 32 32⟩
      ((sget none s.drnX p).isSome = true → exec (c p v) s = .next (conflict s 0 p p p (some p) (rd s (R.DRN_XSTAT p)))) ∧
      (sget none s.drnX p = none → xferBad s p x = none →
        exec (c p v) s = .next { wrf s (R.DRN_XSTAT p) 62 1 1 with drnX := sset none s.drnX p (some x) }) ∧
      (∀ st sub, sget none s.drnX p = none → xferBad s p x = some (st, sub) → exec (c p v) s = .next (xferEnd s p st sub)))) ∧
    (sget none s.drnX p = none → exec (.drnXferDone p) s = .next s) ∧
    (∀ x, sget none s.drnX p = some x →
      let waits := xferWaits s x = true ∨ ∃ l ∈ linesOf x.addr (x.blocks * 4096), lineWaits s l = true
      let got := physRead s srcDev x.addr (x.blocks * 4096)
      let blocks := readBlocks s p 2 x.off x.blocks
      (waits → exec (.drnXferDone p) s = .next s) ∧
      (¬ waits →
        (∀ st sub, xferBad s p x = some (st, sub) → exec (.drnXferDone p) s = .next (xferEnd s p st sub)) ∧
        (xferBad s p x = none → x.fill = true → got.2.2 = false →
          exec (.drnXferDone p) s = .next (xferEnd (writeBlocks got.1 p 2 x.off got.2.1 x.blocks) p 0 0)) ∧
        (xferBad s p x = none → x.fill = true → got.2.2 = true → exec (.drnXferDone p) s = .next (xferEnd got.1 p 0x12 0)) ∧
        (xferBad s p x = none → x.fill = false →
          exec (.drnXferDone p) s = .next (xferEnd (physWrite blocks.1 srcDev x.addr blocks.2) p 0 0))))

/-- Integer arithmetic, shifts, moves and division: results and frame: the parts above together. -/
def Obligations.IntegerOperations : Prop :=
  Sys2Proof.Parts.IntegerResults ∧ Sys2Proof.Parts.ShiftMoveAndHighProduct ∧ Sys2Proof.Parts.DivisionNeverFaults

/-- Integer compares, predicate operations, moves of special registers: results and frame: the parts above together. -/
def Obligations.ComparesAndPredicates : Prop :=
  Sys2Proof.Parts.IntegerCompares ∧ Sys2Proof.Parts.PredicateAndMoveResults

/-- Binary64 operations, compares and conversion: results, counts and frame: the parts above together. -/
def Obligations.FloatOperations : Prop :=
  Sys2Proof.Parts.FloatResults ∧ Sys2Proof.Parts.FloatComparesAndConversion

/-- Reads of time, identity and counters; branches; END and TRACE: the parts above together. -/
def Obligations.ControlAndSpecialReads : Prop :=
  Sys2Proof.Parts.SpecialReads ∧ Sys2Proof.Parts.Branches ∧ Sys2Proof.Parts.EndAndTrace

/-- Scalar loads of memory and of registers: the parts above together. -/
def Obligations.Loads : Prop :=
  Sys2Proof.Parts.ScalarLoads ∧ Sys2Proof.Parts.RegisterLoads

/-- Scalar stores to memory and to registers, with every other byte unchanged: the parts above together. -/
def Obligations.Stores : Prop :=
  Sys2Proof.Parts.ScalarStores ∧ Sys2Proof.Parts.RegisterStores

/-- The words of instructions, and precise faults of scalar accesses, reserved encodings and fetches: the parts above together. -/
def Obligations.InstructionFaults : Prop :=
  Sys2Proof.Parts.DeashWords ∧ Sys2Proof.Parts.ScalarAccessFaults ∧ Sys2Proof.Parts.EncodingAndFetchFaults

/-- STREAM, descriptor loads and COPY requests: the parts above together. -/
def Obligations.StreamsAndDescriptors : Prop :=
  Sys2Proof.Parts.StreamBinds ∧ Sys2Proof.Parts.DescriptorLoads ∧ Sys2Proof.Parts.CopyRequests

/-- Remote gets, puts, atomics and FABRIC streams send their requests: the parts above together. -/
def Obligations.FabricInstructions : Prop :=
  Sys2Proof.Parts.FabricMoves ∧ Sys2Proof.Parts.RemoteAtomics ∧ Sys2Proof.Parts.FabricStreams

/-- MATRIX, TRESTLE, ELEMENT and REDUCE instructions issue to their stations: the parts above together. -/
def Obligations.ClassInstructions : Prop :=
  Sys2Proof.Parts.ClassInstructionsIssue ∧ Sys2Proof.Parts.ElementLoadsIssue

/-- Class instructions take effect at their stations and on packed registers: the parts above together. -/
def Obligations.ClassEffects : Prop :=
  Sys2Proof.Parts.RegisterPrograms ∧ Sys2Proof.Parts.ClassInstructionsTakeEffect

/-- MATRIX and TRESTLE take tiles: the parts above together. -/
def Obligations.MatrixAndTrestle : Prop :=
  Sys2Proof.Parts.MatrixStation ∧ Sys2Proof.Parts.TrestleStation

/-- ELEMENT and REDUCE take tiles: the parts above together. -/
def Obligations.ElementAndReduce : Prop :=
  Sys2Proof.Parts.ElementStation ∧ Sys2Proof.Parts.ReduceStation

/-- Long-vector floating point and compares, element by element: the parts above together. -/
def Obligations.VectorFloatAndCompares : Prop :=
  Sys2Proof.Parts.VectorFloat ∧ Sys2Proof.Parts.VectorCompares

/-- Long-vector integer, fixed-point, bitwise operations and moves: the parts above together. -/
def Obligations.VectorIntegerAndMoves : Prop :=
  Sys2Proof.Parts.VectorInteger ∧ Sys2Proof.Parts.VectorBitsAndMoves

/-- Long-vector conversions, dot products and reductions: the parts above together. -/
def Obligations.VectorConvertsAndSums : Prop :=
  Sys2Proof.Parts.VectorConversions ∧ Sys2Proof.Parts.VectorDots ∧ Sys2Proof.Parts.VectorReductions

/-- Long-vector loads and stores, element by element, with their faults: the parts above together. -/
def Obligations.VectorMemory : Prop :=
  Sys2Proof.Parts.VectorLoads ∧ Sys2Proof.Parts.VectorStores

/-- VRGATHER's reads, the power of the long-vector unit, and what every long-vector instruction checks: the parts above together. -/
def Obligations.GatherAndPower : Prop :=
  Sys2Proof.Parts.VectorGather ∧ Sys2Proof.Parts.LvuPower ∧ Sys2Proof.Parts.VectorChecks

/-- READ, WRITE and WRITEF at their target: the parts above together. -/
def Obligations.RemoteAccess : Prop :=
  Sys2Proof.Parts.RemoteReads ∧ Sys2Proof.Parts.RemoteWrites ∧ Sys2Proof.Parts.RemoteFlags

/-- Atomics and compare-and-swaps at their target: the parts above together. -/
def Obligations.AtomicsAtTarget : Prop :=
  Sys2Proof.Parts.RemoteAtomicTargets ∧ Sys2Proof.Parts.CompareAndSwapTargets

/-- Replies at the source, and requests sent again: the parts above together. -/
def Obligations.RepliesAndResends : Prop :=
  Sys2Proof.Parts.RepliesAtSource ∧ Sys2Proof.Parts.Resends

/-- Scauth ports train, go down and tell of losses; coordinates and modes: the parts above together. -/
def Obligations.PortStates : Prop :=
  Sys2Proof.Parts.PortsTrain ∧ Sys2Proof.Parts.PortsGoDown ∧ Sys2Proof.Parts.LostNotices ∧ Sys2Proof.Parts.CoordinateAndPortModes

/-- Domains, windows, slots, groups and triggers are put in force or refused: the parts above together. -/
def Obligations.FabricAndGroupRegisters : Prop :=
  Sys2Proof.Parts.FabricRegisterWrites ∧ Sys2Proof.Parts.GroupsAndTriggers

/-- Collective flits and chunks, results and watchdogs: the parts above together. -/
def Obligations.Collectives : Prop :=
  Sys2Proof.Parts.CollectiveTraffic ∧ Sys2Proof.Parts.CollectiveEnds

/-- Checkpoint commands and the start of a restore: the parts above together. -/
def Obligations.CheckpointCommands : Prop :=
  Sys2Proof.Parts.CheckpointOrders ∧ Sys2Proof.Parts.RestoresStart

/-- Cut copies, drain seals and the end of a restore: the parts above together. -/
def Obligations.CutsDrainsRestores : Prop :=
  Sys2Proof.Parts.CutCopies ∧ Sys2Proof.Parts.DrainSeals ∧ Sys2Proof.Parts.RestoresEnd

/-- Register stores and loads by the host follow the access codes: the parts above together. -/
def Obligations.RegisterAccess : Prop :=
  Sys2Proof.Parts.RegisterStores8 ∧ Sys2Proof.Parts.RegisterLoads8

/-- SOLVE issues into its unit's queue, and the unit starts the oldest: the parts above together. -/
def Obligations.SolveQueue : Prop :=
  Sys2Proof.Parts.SolvesIssue ∧ Sys2Proof.Parts.SolvesStart

/-- A solve's votes at its boundaries and the outcomes of their reductions: the parts above together. -/
def Obligations.SolverVotes : Prop :=
  Sys2Proof.Parts.SolverBoundaries ∧ Sys2Proof.Parts.SolverResults ∧ Sys2Proof.Parts.SolvesEnd

/-- Memory and link errors, and the fatal state: the parts above together. -/
def Obligations.ErrorsAndFatal : Prop :=
  Sys2Proof.Parts.MemoryErrors ∧ Sys2Proof.Parts.FatalErrors

/-- Watches, summaries, the black box's registers and the EVT pins: the parts above together. -/
def Obligations.RecordsAndPins : Prop :=
  Sys2Proof.Parts.WatchAndSummaries ∧ Sys2Proof.Parts.BlackBoxAccess ∧ Sys2Proof.Parts.EventPins

/-- Measurement of memory ranges and key slots: the parts above together. -/
def Obligations.KeysAndMeasurement : Prop :=
  Sys2Proof.Parts.Measurement ∧ Sys2Proof.Parts.KeySlots

/-- Sessions, release and scrub of a partition: the parts above together. -/
def Obligations.SessionsAndRelease : Prop :=
  Sys2Proof.Parts.Sessions ∧ Sys2Proof.Parts.ReleaseAndScrub

/-- Clock and rail faults, power samples and thermal samples: the parts above together. -/
def Obligations.ClockPowerAndHeat : Prop :=
  Sys2Proof.Parts.ClockAndRailFaults ∧ Sys2Proof.Parts.PowerAndHeat

/-- Changes of regime and test access: the parts above together. -/
def Obligations.RegimesAndTestAccess : Prop :=
  Sys2Proof.Parts.RegimeChanges ∧ Sys2Proof.Parts.TestAccess

/-- The ten stages of start-up, power loss and resets: the parts above together. -/
def Obligations.StartUpAndResets : Prop :=
  Sys2Proof.Parts.EarlyStages ∧ Sys2Proof.Parts.LateStages ∧ Sys2Proof.Parts.Resets
end

