-- ==== Sys2Proof/Laws/Sparse.lean ====
section
/-! SUPPORT. Laws of the sparse maps: what a read after a write gives, and that every operation keeps the canonical form. -/

namespace Sys2Proof.Machine

variable {α : Type}

theorem sabove_iff (b : Nat) (m : Sparse α) : sabove b m = true ↔ ∀ p ∈ m, b < p.1 := by simp [sabove]

/-- A bound holds for everything below it. -/
theorem sabove_mono {b c : Nat} (m : Sparse α) (h : sabove b m = true) (hc : c ≤ b) : sabove c m = true := by
  rw [sabove_iff] at *; intro p hp; exact Nat.lt_of_le_of_lt hc (h p hp)

/-- A key below every listed key reads as the default. -/
theorem sget_of_above (d : α) (b k : Nat) (m : Sparse α) (h : sabove b m = true) (hk : k ≤ b) : sget d m k = d := by
  cases m with
  | nil => rfl
  | cons p r =>
    have hp : b < p.1 := (sabove_iff b _).1 h p (by simp)
    simp [sget, show k < p.1 by omega]

variable [DecidableEq α]

/-- The map below its first key, and above it, in one. -/
theorem swf_cons (d : Nat → α) (k : Nat) (v : α) (r : Sparse α) :
    swf d ((k, v) :: r) = true ↔ v ≠ d k ∧ sabove k r = true ∧ swf d r = true := by
  simp [swf, and_assoc]

/-- A write keeps every bound that its own key respects. -/
theorem sabove_sset (d : α) (b k : Nat) (v : α) (m : Sparse α) (h : sabove b m = true) (hk : b < k) :
    sabove b (sset d m k v) = true := by
  induction m with
  | nil => simp only [sset]; split <;> simp [sabove, hk]
  | cons p r ih =>
    obtain ⟨j, w⟩ := p
    have h' := (sabove_iff b _).1 h
    have hj : b < j := h' (j, w) (by simp)
    have hr : sabove b r = true := (sabove_iff b r).2 fun p hp => h' p (by simp [hp])
    simp only [sset]
    split
    · split
      · exact h
      · rw [sabove_iff]; intro p hp
        rcases List.mem_cons.1 hp with rfl | hp
        · exact hk
        · exact h' p hp
    · split
      · split
        · exact hr
        · rw [sabove_iff]; intro p hp
          rcases List.mem_cons.1 hp with rfl | hp
          · exact hk
          · exact (sabove_iff b r).1 hr p hp
      · rw [sabove_iff]; intro p hp
        rcases List.mem_cons.1 hp with rfl | hp
        · exact hj
        · exact (sabove_iff b _).1 (ih hr) p hp

/-- A write keeps the canonical form. -/
theorem swf_sset (d : Nat → α) (k : Nat) (v : α) (m : Sparse α) (h : swf d m = true) : swf d (sset (d k) m k v) = true := by
  induction m with
  | nil => by_cases hv : v = d k <;> simp [sset, swf, sabove, hv]
  | cons p r ih =>
    obtain ⟨j, w⟩ := p
    obtain ⟨hw, ha, hr⟩ := (swf_cons d j w r).1 h
    simp only [sset]
    split
    · rename_i hkj
      split
      · exact h
      · rename_i hv
        refine (swf_cons d k v _).2 ⟨hv, ?_, h⟩
        rw [sabove_iff]; intro p hp
        rcases List.mem_cons.1 hp with rfl | hp
        · exact hkj
        · exact Nat.lt_trans hkj ((sabove_iff j r).1 ha p hp)
    · split
      · rename_i hkj
        subst hkj
        split
        · exact hr
        · rename_i hv
          exact (swf_cons d k v r).2 ⟨hv, ha, hr⟩
      · exact (swf_cons d j w _).2 ⟨hw, sabove_sset _ _ _ _ _ ha (by omega), ih hr⟩

/-- Dropping entries keeps the canonical form. -/
theorem swf_filter (d : Nat → α) (f : Nat × α → Bool) (m : Sparse α) (h : swf d m = true) : swf d (m.filter f) = true := by
  induction m with
  | nil => rfl
  | cons p r ih =>
    obtain ⟨j, w⟩ := p
    obtain ⟨hw, ha, hr⟩ := (swf_cons d j w r).1 h
    simp only [List.filter]
    split
    · refine (swf_cons d j w _).2 ⟨hw, ?_, ih hr⟩
      rw [sabove_iff] at *; intro p hp; exact ha p (List.mem_filter.1 hp).1
    · exact ih hr

/-- Clearing a range keeps the canonical form. -/
theorem swf_sclear (d : Nat → α) (lo hi : Nat) (m : Sparse α) (h : swf d m = true) : swf d (sclear m lo hi) = true := swf_filter d _ m h

/-- Writing a list of values keeps the canonical form. -/
theorem swf_ssetAll (z : α) (vs : List α) : ∀ (k : Nat) (m : Sparse α), swf (fun _ => z) m = true → swf (fun _ => z) (ssetAll z m k vs) = true := by
  induction vs with
  | nil => intro k m h; exact h
  | cons v vs ih => intro k m h; exact ih _ _ (swf_sset (fun _ => z) k v m h)

/-- Writing listed entries one after another keeps the canonical form. -/
theorem swf_foldl_sset (z : α) (cs : List (Nat × α)) : ∀ m : Sparse α, swf (fun _ => z) m = true →
    swf (fun _ => z) (cs.foldl (fun m c => sset z m c.1 c.2) m) = true := by
  induction cs with
  | nil => intro m h; exact h
  | cons c cs ih => intro m h; exact ih _ (swf_sset (fun _ => z) c.1 c.2 m h)

/-- A read after a write to the same key gives the value written. -/
theorem sget_sset_same (d : Nat → α) (k : Nat) (v : α) (m : Sparse α) (h : swf d m = true) : sget (d k) (sset (d k) m k v) k = v := by
  induction m with
  | nil => by_cases hv : v = d k <;> simp [sset, sget, hv]
  | cons p r ih =>
    obtain ⟨j, w⟩ := p
    obtain ⟨hw, ha, hr⟩ := (swf_cons d j w r).1 h
    simp only [sset]
    split
    · rename_i hkj
      split
      · rename_i hv; simp [sget, hkj, hv]
      · simp [sget]
    · split
      · rename_i hkj
        subst hkj
        split
        · rename_i hv; rw [sget_of_above (d k) k k r ha (Nat.le_refl _)]; exact hv.symm
        · simp [sget]
      · rename_i h1 h2
        simp only [sget, h1, h2, if_false]
        exact ih hr

/-- A write leaves every other key alone. -/
theorem sget_sset_ne (d : Nat → α) (k k' : Nat) (v : α) (m : Sparse α) (h : swf d m = true) (hk : k' ≠ k) :
    sget (d k') (sset (d k) m k v) k' = sget (d k') m k' := by
  induction m with
  | nil => by_cases hv : v = d k <;> simp [sset, sget, hv, hk]
  | cons p r ih =>
    obtain ⟨j, w⟩ := p
    obtain ⟨hw, ha, hr⟩ := (swf_cons d j w r).1 h
    simp only [sset]
    split
    · rename_i hkj
      split
      · rfl
      · by_cases hlt : k' < k
        · simp [sget, hlt, show k' < j by omega]
        · rw [sget, if_neg hlt, if_neg hk]
    · split
      · rename_i hkj
        subst hkj
        have hr0 : k' < k → sget (d k') r k' = d k' := fun hlt => sget_of_above _ k _ _ ha (Nat.le_of_lt hlt)
        split
        · by_cases hlt : k' < k
          · simp [sget, hlt, hr0 hlt]
          · simp [sget, hlt, hk]
        · by_cases hlt : k' < k
          · simp [sget, hlt]
          · simp [sget, hlt, hk]
      · simp only [sget]; rw [ih hr]

/-- Maps in canonical form that read alike everywhere are equal data. -/
theorem swf_ext (d : Nat → α) : ∀ (m n : Sparse α), swf d m = true → swf d n = true → (∀ k, sget (d k) m k = sget (d k) n k) → m = n := by
  intro m
  induction m with
  | nil =>
    intro n _ hn h
    cases n with
    | nil => rfl
    | cons p r =>
      obtain ⟨j, w⟩ := p
      have := h j
      simp [sget] at this
      exact absurd this.symm ((swf_cons d j w r).1 hn).1
  | cons p r ih =>
    obtain ⟨j, w⟩ := p
    intro n hm hn h
    obtain ⟨hw, ha, hr⟩ := (swf_cons d j w r).1 hm
    cases n with
    | nil =>
      have := h j
      simp [sget] at this
      exact absurd this hw
    | cons q t =>
      obtain ⟨i, u⟩ := q
      obtain ⟨hu, hb, ht⟩ := (swf_cons d i u t).1 hn
      have hij : i = j := by
        rcases Nat.lt_trichotomy i j with hlt | heq | hlt
        · have := h i; simp [sget, hlt] at this; exact absurd this.symm hu
        · exact heq
        · have := h j; simp [sget, hlt] at this; exact absurd this hw
      subst hij
      have hwu : w = u := by have := h i; simpa [sget] using this
      subst hwu
      congr 1
      refine ih t hr ht fun k => ?_
      rcases Nat.lt_trichotomy k i with hlt | heq | hlt
      · rw [sget_of_above _ i k r ha (Nat.le_of_lt hlt), sget_of_above _ i k t hb (Nat.le_of_lt hlt)]
      · subst heq; rw [sget_of_above _ k k r ha (Nat.le_refl _), sget_of_above _ k k t hb (Nat.le_refl _)]
      · have := h k
        simpa [sget, show ¬ k < i by omega, show k ≠ i by omega] using this

end Sys2Proof.Machine
end

