-- ==== Sys2Proof/Laws/Kept.lean ====
section
/-! SUPPORT. What every operation keeps: the queue of commands as it was given, and the canonical form of the stores. The predicates, one per kind of answer, and the rules that take an answer apart. -/

namespace Sys2Proof.Machine

/-- The queue is `q` and the stores are in canonical form. -/
def Kept (q : List Instr) (s : State) : Prop := s.pending = q ∧ s.Inv

variable {q : List Instr} {α β : Type}

/-- The state of a pair that begins with it. -/
abbrev KFst (q : List Instr) (p : State × α) : Prop := Kept q p.1
/-- The state of a pair that ends with it. -/
abbrev KSnd (q : List Instr) (p : α × State) : Prop := Kept q p.2
/-- The state of an answer that may be absent. -/
def KOpt (q : List Instr) (o : Option (State × α)) : Prop := ∀ p, o = some p → Kept q p.1
/-- A state that may be absent. -/
def KOptS (q : List Instr) (o : Option State) : Prop := ∀ p, o = some p → Kept q p
/-- The next state of an outcome. -/
def KOut (q : List Instr) (o : Out) : Prop := ∀ t, o = .next t → Kept q t
/-- The state in the end of an instruction. -/
def KRes (q : List Instr) : Res → Prop
  | .done s => Kept q s
  | .jump s _ => Kept q s
  | .trap s _ _ _ => Kept q s
  | .stay s => Kept q s
/-- The state in an answer of ELEMENT's inputs. -/
def KTook (q : List Instr) : Took → Prop
  | .wait => True
  | .ok s => Kept q s
  | .stop s _ _ => Kept q s
/-- The state in an answer of a send. -/
def KSend (q : List Instr) : SendRes → Prop
  | .sent s => Kept q s
  | .fail s _ _ => Kept q s
  | .wait => True

theorem kept_ite {P : α → Prop} {c : Prop} [Decidable c] {a b : α} (ha : P a) (hb : P b) : P (if c then a else b) := by
  split <;> assumption
theorem kept_dite {P : α → Prop} {c : Prop} [Decidable c] {a : c → α} {b : ¬c → α} (ha : ∀ h, P (a h)) (hb : ∀ h, P (b h)) :
    P (if h : c then a h else b h) := by
  split
  · exact ha _
  · exact hb _
theorem kept_eq {P : α → Prop} {a b : α} (e : a = b) (h : P a) : P b := e ▸ h
theorem kept_fst {p : State × α} (h : KFst q p) : Kept q p.1 := h
theorem kept_snd {p : α × State} (h : KSnd q p) : Kept q p.2 := h
theorem kept_of_fst {p : State × α} {s : State} {a : α} (e : p = (s, a)) (h : KFst q p) : Kept q s := by subst e; exact h
theorem kept_of_snd {p : α × State} {s : State} {a : α} (e : p = (a, s)) (h : KSnd q p) : Kept q s := by subst e; exact h
theorem kept_of_opt {p : Option (State × α)} {s : State} {a : α} (e : p = some (s, a)) (h : KOpt q p) : Kept q s := h _ e
theorem kept_of_optS {p : Option State} {s : State} (e : p = some s) (h : KOptS q p) : Kept q s := h _ e
theorem kept_pair {s : State} {a : α} (h : Kept q s) : KFst q (s, a) := h
theorem kept_pair' {s : State} {a : α} (h : Kept q s) : KSnd q (a, s) := h
theorem kept_some {p : State × α} (h : KFst q p) : KOpt q (some p) := by
  intro p' e; cases e; exact h
theorem kept_none : KOpt q (none : Option (State × α)) := by intro p' e; cases e
theorem kept_someS {p : State} (h : Kept q p) : KOptS q (some p) := by
  intro p' e; cases e; exact h
theorem kept_noneS : KOptS q none := by intro p' e; cases e
theorem kept_next {s : State} (h : Kept q s) : KOut q (.next s) := by
  intro t e; cases e; exact h
theorem kept_foldl {f : State → α → State} {l : List α} : ∀ {s : State}, (∀ s a, Kept q s → Kept q (f s a)) → Kept q s → Kept q (l.foldl f s) := by
  induction l with
  | nil => intro s _ h; exact h
  | cons a l ih => intro s hf h; exact ih hf (hf s a h)
theorem kept_foldl_fst {f : State × β → α → State × β} {l : List α} : ∀ {p : State × β},
    (∀ p a, KFst q p → KFst q (f p a)) → KFst q p → KFst q (l.foldl f p) := by
  induction l with
  | nil => intro s _ h; exact h
  | cons a l ih => intro s hf h; exact ih hf (hf s a h)
theorem kept_foldl_snd {f : β × State → α → β × State} {l : List α} : ∀ {p : β × State},
    (∀ p a, KSnd q p → KSnd q (f p a)) → KSnd q p → KSnd q (l.foldl f p) := by
  induction l with
  | nil => intro s _ h; exact h
  | cons a l ih => intro s hf h; exact ih hf (hf s a h)

/-- A state put together from the queue and the stores of another keeps what that one keeps. -/
theorem kept_mk {s : State}
    {z1 z2 z4 z6 z7 z8 z11 z12 z13 z14 z15 z16 z17 z18 z19 z20 z21 z22 z23 z25 z26 z27 z28 z29 z30 z31 z32 z33 z34 z35 z36 z37 z38 z39 z40 z41 z42
    z43 z44 z45 z46 z47 z48 z49 z50 z51 z52 z54 z55 z57 z58 z59 z61 z62 z63 z64 z65 z66 z67 z68 z69 z71 z72 z73 z74 z75 z76 z77 z78 z79 z80 z81 z82
    z83 z84 z85 z86 z87 z88 z89 z90 z91 z92 z93 z94 z95 z96 z97 z98 z99 z100 z101 z102 z103 z104 z105 z106 z107 z108 z109 z110 z111} (h : Kept q s) : Kept q (State.mk
   s.pending z1 z2 s.regs z4 s.mem z6 z7 z8 s.threads s.ncores z11 z12 z13 z14 z15 z16 z17 z18 z19 z20 z21 z22 z23 s.mram z25 z26 z27 z28 z29 z30 z31
    z32 z33 z34 z35 z36 z37 z38 z39 z40 z41 z42 z43 z44 z45 z46 z47 z48 z49 z50 z51 z52 s.ckps z54 z55 s.rings z57 z58 z59 s.svus z61 z62 z63 z64 z65
    z66 z67 z68 z69 s.rgl z71 z72 z73 z74 z75 z76 z77 z78 z79 z80 z81 z82 z83 z84 z85 z86 z87 z88 z89 z90 z91 z92 z93 z94 z95 z96 z97 z98 z99 z100
    z101 z102 z103 z104 z105 z106 z107 z108 z109 z110 z111) :=
  ⟨h.1, h.2⟩

/-- Register writes keep the canonical form. -/
theorem wr_kept {s : State} {a : Nat} {v : Word} (h : Kept q s) : Kept q (wr s a v) :=
  ⟨h.1, h.2.1, h.2.2.1, swf_sset regReset a v s.regs h.2.2.2.1, h.2.2.2.2⟩
theorem regsReset_kept {s : State} {f : Nat → Bool} (h : Kept q s) : Kept q (regsReset s f) :=
  ⟨h.1, h.2.1, h.2.2.1, swf_filter regReset _ s.regs h.2.2.2.1, h.2.2.2.2⟩

/-- Memory writes keep the canonical form. -/
theorem memPut_kept {s : State} {a : Nat} {bs : List Byte} (h : Kept q s) : Kept q (memPut s a bs) :=
  ⟨h.1, swf_ssetAll 0 bs a s.mem h.2.1, h.2.2⟩
theorem memClear_kept {s : State} {lo hi : Nat} (h : Kept q s) : Kept q (memClear s lo hi) :=
  ⟨h.1, swf_sclear _ lo hi s.mem h.2.1, h.2.2⟩
theorem memUndef_kept {s : State} {lo hi : Nat} (h : Kept q s) : Kept q (memUndef s lo hi) :=
  ⟨h.1, swf_sclear _ lo hi s.mem h.2.1, h.2.2⟩
theorem memRestore_kept {s : State} {cs : List Host.Cell} (h : Kept q s) : Kept q (memRestore s cs) :=
  ⟨h.1, swf_foldl_sset 0 cs s.mem h.2.1, h.2.2⟩

/-- A black-box record keeps the canonical form of the MRAM. -/
theorem bbxPut_kept {s : State} {off : Nat} {r : List Byte} (h : Kept q s) : Kept q (bbxPut s off r) :=
  ⟨h.1, h.2.1, swf_ssetAll 0 r off s.mram h.2.2.1, swf_sset regReset _ _ s.regs h.2.2.2.1, h.2.2.2.2⟩

/-- The state of a thread, of a core's stations, of a checkpoint sequencer and of a solver unit is replaced in canonical form. -/
theorem setTh_kept {s : State} {key : Nat} {t : Thread} (h : Kept q s) : Kept q (setTh s key t) :=
  ⟨h.1, h.2.1, h.2.2.1, h.2.2.2.1, swf_sset (fun _ => thread0) key t s.threads h.2.2.2.2.1, h.2.2.2.2.2⟩
theorem setNc_kept {s : State} {core : Nat} {n : NCore} (h : Kept q s) : Kept q (setNc s core n) :=
  ⟨h.1, h.2.1, h.2.2.1, h.2.2.2.1, h.2.2.2.2.1, swf_sset (fun _ => ncore0) core n s.ncores h.2.2.2.2.2.1, h.2.2.2.2.2.2⟩
theorem setCkp_kept {s : State} {p : Nat} {c : Ckp} (h : Kept q s) : Kept q (setCkp s p c) :=
  ⟨h.1, h.2.1, h.2.2.1, h.2.2.2.1, h.2.2.2.2.1, h.2.2.2.2.2.1, swf_sset (fun _ => ckp0) p c s.ckps h.2.2.2.2.2.2.1, h.2.2.2.2.2.2.2⟩
theorem setSvu_kept {s : State} {j : Nat} {u : Svu} (h : Kept q s) : Kept q (setSvu s j u) :=
  ⟨h.1, h.2.1, h.2.2.1, h.2.2.2.1, h.2.2.2.2.1, h.2.2.2.2.2.1, h.2.2.2.2.2.2.1, swf_sset (fun _ => svu0) j u s.svus h.2.2.2.2.2.2.2.1, h.2.2.2.2.2.2.2.2⟩

theorem setRing_kept {s : State} {r : Nat} {x : RingSt} (h : Kept q s) : Kept q (setRing s r x) :=
  ⟨h.1, h.2.1, h.2.2.1, h.2.2.2.1, h.2.2.2.2.1, h.2.2.2.2.2.1, h.2.2.2.2.2.2.1, h.2.2.2.2.2.2.2.1, swf_sset (fun _ => ring0) r x s.rings h.2.2.2.2.2.2.2.2.1, h.2.2.2.2.2.2.2.2.2⟩
theorem rglMod_kept {s : State} {h' p : Nat} {wr : Bool} {f : Nat × Nat × List Xact → Nat × Nat × List Xact} (h : Kept q s) : Kept q (rglMod s h' p wr f) :=
  ⟨h.1, h.2.1, h.2.2.1, h.2.2.2.1, h.2.2.2.2.1, h.2.2.2.2.2.1, h.2.2.2.2.2.2.1, h.2.2.2.2.2.2.2.1, h.2.2.2.2.2.2.2.2.1,
    swf_sset (fun _ => rgl0) _ _ s.rgl h.2.2.2.2.2.2.2.2.2⟩

/-- A change of every value that makes none of them the default keeps the canonical form. -/
theorem swf_mapv {α : Type} [DecidableEq α] (d : Nat → α) (f : α → α) (hf : ∀ k v, v ≠ d k → f v ≠ d k) (m : Sparse α) (h : swf d m = true) :
    swf d (m.map (fun kv => (kv.1, f kv.2))) = true := by
  induction m with
  | nil => rfl
  | cons p r ih =>
    obtain ⟨k, v⟩ := p
    simp only [swf, Bool.and_eq_true, decide_eq_true_eq, List.map_cons] at h ⊢
    refine ⟨⟨hf k v h.1.1, ?_⟩, ih h.2⟩
    simpa [sabove, List.all_map, Function.comp_def] using h.1.2
theorem abortDescs_kept {s : State} {p : Nat} (h : Kept q s) : Kept q (abortDescs s p) := by
  refine ⟨h.1, h.2.1, h.2.2.1, h.2.2.2.1, h.2.2.2.2.1, h.2.2.2.2.2.1, h.2.2.2.2.2.2.1, h.2.2.2.2.2.2.2.1, ?_, h.2.2.2.2.2.2.2.2.2⟩
  refine swf_mapv _ (fun x : RingSt => { x with descs := x.descs.map _ }) ?_ s.rings h.2.2.2.2.2.2.2.2.1
  intro k v hv e
  apply hv
  simp only [ring0, RingSt.mk.injEq, List.map_eq_nil_iff] at e
  cases v
  simp_all [ring0]

/-- A reset keeps the queue and the MRAM and empties everything else. -/
theorem bare_kept {s : State} {warm : Bool} (h : Kept q s) : Kept q (bare s warm) :=
  ⟨h.1, rfl, h.2.2.1, rfl, rfl, rfl, rfl, rfl, rfl, rfl⟩

end Sys2Proof.Machine
end

