-- ==== Sys2Proof/Laws/KeptBase.lean ====
section
/-! SUPPORT. Every operation and meaning of the shared operations, memory and the issue of an instruction keeps the queue of commands and the canonical form of the stores. One lemma each: what its arguments keep, its answer keeps. -/

namespace Sys2Proof.Machine

theorem wrf_kept {q : List Instr} (s : State) (a lo n v : Nat) (h_s : Kept q s) : Kept q (wrf s a lo n v) := by
  unfold wrf
  apply wr_kept
  exact h_s

theorem addSat_kept {q : List Instr} (s : State) (a lo n k : Nat) (h_s : Kept q s) : Kept q (addSat s a lo n k) := by
  unfold addSat
  apply wr_kept
  exact h_s

theorem addDiv_kept {q : List Instr} (s : State) (a lo n dv k : Nat) (h_s : Kept q s) : Kept q (addDiv s a lo n dv k) := by
  unfold addDiv
  extract_lets +onlyGivenNames x0
  clear_value x0
  extract_lets +onlyGivenNames x2
  clear_value x2
  extract_lets +onlyGivenNames x4
  have h5 : Kept q x4 := by
    unfold x4
    apply wr_kept
    exact h_s
  clear_value x4
  refine kept_mk (s := x4) ?_
  exact h5

theorem regPut_kept {q : List Instr} (s : State) (a : Nat) (v : Word) (h_s : Kept q s) : Kept q (regPut s a v) := by
  unfold regPut
  split
  · rename_i z6 z7
    exact h_s
  · rename_i z8 z9 z10
    extract_lets +onlyGivenNames x11
    clear_value x11
    extract_lets +onlyGivenNames x13
    clear_value x13
    extract_lets +onlyGivenNames x15
    clear_value x15
    apply wr_kept
    exact h_s

theorem drawBits_kept {q : List Instr} (w : Nat) (s : State) (h_s : Kept q s) : KSnd q (drawBits w s) := by
  unfold drawBits
  apply kept_pair'
  refine kept_mk (s := s) ?_
  exact h_s

theorem drawNat_kept {q : List Instr} (s : State) (h_s : Kept q s) : KSnd q (drawNat s) := by
  unfold drawNat
  apply kept_pair'
  refine kept_mk (s := s) ?_
  exact h_s

theorem numAdd_kept {q : List Instr} (s : State) (a k : Nat) (h_s : Kept q s) : Kept q (numAdd s a k) := by
  unfold numAdd
  refine kept_ite (P := Kept q) ?_ ?_
  · exact h_s
  · apply addSat_kept
    exact h_s

theorem countNum_kept {q : List Instr} (s : State) (ctx : Nat) (c : Cnt) (h_s : Kept q s) : Kept q (countNum s ctx c) := by
  unfold countNum
  apply numAdd_kept
  apply numAdd_kept
  apply numAdd_kept
  exact h_s

theorem takeRng_kept {q : List Instr} (s : State) (ctx k : Nat) (h_s : Kept q s) : KSnd q (takeRng s ctx k) := by
  unfold takeRng
  extract_lets +onlyGivenNames x17
  clear_value x17
  extract_lets +onlyGivenNames x19
  clear_value x19
  apply kept_pair'
  apply wr_kept
  exact h_s

theorem takeFor_kept {q : List Instr} (nctl : NumCtl) (ctx : Nat) (s : State) (h_s : Kept q s) : KSnd q (takeFor nctl ctx s) := by
  unfold takeFor
  refine kept_ite (P := KSnd q) ?_ ?_
  · apply takeRng_kept
    exact h_s
  · exact h_s

theorem arrive_kept {q : List Instr} (s : State) (key gen c : Nat) (h_s : Kept q s) : Kept q (arrive s key gen c) := by
  unfold arrive
  extract_lets +onlyGivenNames x21
  clear_value x21
  refine kept_ite (P := Kept q) ?_ ?_
  · apply setTh_kept
    exact h_s
  · refine kept_mk (s := s) ?_
    exact h_s

theorem bbxRing_kept {q : List Instr} (s : State) (rcd : List Byte) (h_s : Kept q s) : Kept q (bbxRing s rcd) := by
  unfold bbxRing
  refine kept_ite (P := Kept q) ?_ ?_
  · apply addSat_kept
    exact h_s
  · extract_lets +onlyGivenNames x23
    clear_value x23
    extract_lets +onlyGivenNames x25
    have h26 : Kept q x25 := by
      unfold x25
      apply bbxPut_kept
      exact h_s
    clear_value x25
    extract_lets +onlyGivenNames x27
    have h28 : Kept q x27 := by
      unfold x27
      refine kept_mk (s := x25) ?_
      exact h26
    clear_value x27
    apply wrf_kept
    apply wrf_kept
    exact h28

theorem bbx_kept {q : List Instr} (s : State) (perm : Bool) (ty src status sub : Nat) (payload : List Byte) (h_s : Kept q s) : Kept q (bbx s perm ty src status sub payload) := by
  unfold bbx
  refine kept_ite (P := Kept q) ?_ ?_
  · exact h_s
  · extract_lets +onlyGivenNames x29
    clear_value x29
    refine kept_ite (P := Kept q) ?_ ?_
    · extract_lets +onlyGivenNames x31
      clear_value x31
      extract_lets +onlyGivenNames x33
      have h34 : Kept q x33 := by
        unfold x33
        apply wrf_kept
        apply bbxPut_kept
        exact h_s
      clear_value x33
      refine kept_ite (P := Kept q) ?_ ?_
      · apply wrf_kept
        exact h34
      · exact h34
    · apply bbxRing_kept
      exact h_s

theorem logRecAt_kept {q : List Instr} (s : State) (ltc : Word) (part ty ctx : Nat) (detail payload : List Byte) (h_s : Kept q s) : Kept q (logRecAt s ltc part ty ctx detail payload) := by
  unfold logRecAt
  extract_lets +onlyGivenNames x35
  clear_value x35
  extract_lets +onlyGivenNames x37
  clear_value x37
  extract_lets +onlyGivenNames x39
  clear_value x39
  extract_lets +onlyGivenNames x41
  have h42 : Kept q x41 := by
    unfold x41
    apply wr_kept
    exact h_s
  clear_value x41
  refine kept_ite (P := Kept q) ?_ ?_
  · extract_lets +onlyGivenNames x43
    clear_value x43
    extract_lets +onlyGivenNames x45
    clear_value x45
    apply memPut_kept
    apply memPut_kept
    exact h42
  · exact h42

theorem logRec_kept {q : List Instr} (s : State) (part ty ctx : Nat) (detail payload : List Byte) (h_s : Kept q s) : Kept q (logRec s part ty ctx detail payload) := by
  unfold logRec
  apply logRecAt_kept
  exact h_s

theorem conflictFrom_kept {q : List Instr} (s : State) (src kind index owner claimant : Nat) (part : Option Nat) (reg : Word) (h_s : Kept q s) : Kept q (conflictFrom s src kind index owner claimant part reg) := by
  unfold conflictFrom
  extract_lets +onlyGivenNames x47
  have h48 : Kept q x47 := by
    unfold x47
    apply addSat_kept
    exact h_s
  clear_value x47
  extract_lets +onlyGivenNames x49
  have h50 : Kept q x49 := by
    unfold x49
    split
    · rename_i z51 z52
      apply logRec_kept
      exact h48
    · rename_i z53
      exact h48
  clear_value x49
  extract_lets +onlyGivenNames x54
  clear_value x54
  extract_lets +onlyGivenNames x56
  clear_value x56
  refine kept_ite (P := Kept q) ?_ ?_
  · exact h50
  · extract_lets +onlyGivenNames x58
    clear_value x58
    apply bbx_kept
    refine kept_mk (s := x49) ?_
    exact h50

theorem conflict_kept {q : List Instr} (s : State) (kind index owner claimant : Nat) (part : Option Nat) (reg : Word) (h_s : Kept q s) : Kept q (conflict s kind index owner claimant part reg) := by
  unfold conflict
  apply conflictFrom_kept
  exact h_s

theorem reportFault_kept {q : List Instr} (s : State) (key status sub : Nat) (regs : List Nat) (h_s : Kept q s) : Kept q (reportFault s key status sub regs) := by
  unfold reportFault
  extract_lets +onlyGivenNames x60
  clear_value x60
  extract_lets +onlyGivenNames x62
  have h63 : Kept q x62 := by
    unfold x62
    apply logRec_kept
    exact h_s
  clear_value x62
  extract_lets +onlyGivenNames x64
  have h65 : Kept q x64 := by
    unfold x64
    apply setTh_kept
    exact h63
  clear_value x64
  refine kept_mk (s := x64) ?_
  exact h65

theorem putNcoFault_kept {q : List Instr} (s : State) (core st sd status sub tile : Nat) (pc : Option Word) (h_s : Kept q s) : Kept q (putNcoFault s core st sd status sub tile pc) := by
  unfold putNcoFault
  extract_lets +onlyGivenNames x66
  clear_value x66
  extract_lets +onlyGivenNames x68
  clear_value x68
  extract_lets +onlyGivenNames x70
  clear_value x70
  extract_lets +onlyGivenNames x72
  have h73 : Kept q x72 := by
    unfold x72
    apply wr_kept
    exact h_s
  clear_value x72
  extract_lets +onlyGivenNames x74
  have h75 : Kept q x74 := by
    unfold x74
    apply wr_kept
    exact h73
  clear_value x74
  split
  · rename_i z76 z77
    apply wr_kept
    exact h75
  · rename_i z78
    exact h75

theorem streamFault_kept {q : List Instr} (s : State) (core st sd status sub tile : Nat) (h_s : Kept q s) : Kept q (streamFault s core st sd status sub tile) := by
  unfold streamFault
  extract_lets +onlyGivenNames x79
  have h80 : Kept q x79 := by
    unfold x79
    apply putNcoFault_kept
    exact h_s
  clear_value x79
  extract_lets +onlyGivenNames x81
  have h82 : Kept q x81 := by
    unfold x81
    apply reportFault_kept
    exact h80
  clear_value x81
  apply setTh_kept
  exact h82

theorem stopTh_kept {q : List Instr} (s : State) (key : Nat) (h_s : Kept q s) : Kept q (stopTh s key) := by
  unfold stopTh
  apply setTh_kept
  exact h_s

theorem insnFault_kept {q : List Instr} (s : State) (key cls status sub elem : Nat) (h_s : Kept q s) : Kept q (insnFault s key cls status sub elem) := by
  unfold insnFault
  extract_lets +onlyGivenNames x83
  clear_value x83
  refine kept_ite (P := Kept q) ?_ ?_
  · extract_lets +onlyGivenNames x85
    clear_value x85
    extract_lets +onlyGivenNames x87
    clear_value x87
    extract_lets +onlyGivenNames x89
    have h90 : Kept q x89 := by
      unfold x89
      apply wr_kept
      exact h_s
    clear_value x89
    extract_lets +onlyGivenNames x91
    have h92 : Kept q x91 := by
      unfold x91
      apply wr_kept
      exact h90
    clear_value x91
    extract_lets +onlyGivenNames x93
    have h94 : Kept q x93 := by
      unfold x93
      apply reportFault_kept
      exact h92
    clear_value x93
    apply setTh_kept
    exact h94
  · extract_lets +onlyGivenNames x95
    have h96 : Kept q x95 := by
      unfold x95
      apply putNcoFault_kept
      exact h_s
    clear_value x95
    extract_lets +onlyGivenNames x97
    have h98 : Kept q x97 := by
      unfold x97
      apply reportFault_kept
      exact h96
    clear_value x97
    apply setTh_kept
    exact h98

theorem poisonLine_kept {q : List Instr} (s : State) (line : Nat) (h_s : Kept q s) : Kept q (poisonLine s line) := by
  unfold poisonLine
  refine kept_mk (s := s) ?_
  exact h_s

theorem retirePage_kept {q : List Instr} (s : State) (h c page : ℕ) (h_s : Kept q s) : Kept q (retirePage s h c page) := by
  unfold retirePage
  extract_lets +onlyGivenNames x0
  clear_value x0
  refine kept_ite (P := Kept q) ?_ ?_
  · exact h_s
  · extract_lets +onlyGivenNames x2
    have h3 : Kept q x2 := by
      unfold x2
      refine kept_ite (P := Kept q) ?_ ?_
      · apply wrf_kept
        apply wr_kept
        exact h_s
      · exact h_s
    clear_value x2
    extract_lets +onlyGivenNames x4
    have h5 : Kept q x4 := by
      unfold x4
      refine kept_ite (P := Kept q) ?_ ?_
      · apply wrf_kept
        exact h3
      · exact h3
    clear_value x4
    extract_lets +onlyGivenNames x6
    have h7 : Kept q x6 := by
      unfold x6
      apply addSat_kept
      exact h5
    clear_value x6
    extract_lets +onlyGivenNames x8
    have h9 : Kept q x8 := by
      unfold x8
      apply bbx_kept
      exact h7
    clear_value x8
    extract_lets +onlyGivenNames x10
    have h11 : Kept q x10 := by
      unfold x10
      split
      · rename_i z12 z13 z14
        refine kept_ite (P := Kept q) ?_ ?_
        · apply logRec_kept
          exact h9
        · exact h9
      · rename_i z15 z16
        exact h9
    clear_value x10
    refine kept_ite (P := Kept q) ?_ ?_
    · apply bbx_kept
      apply wrf_kept
      exact h11
    · exact h11

theorem rowFail_kept {q : List Instr} (s : State) (line : Nat) (h_s : Kept q s) : Kept q (rowFail s line) := by
  unfold rowFail
  split
  · rename_i z114 z115
    exact h_s
  · rename_i z116 z117 z118 z119 z120
    extract_lets +onlyGivenNames x121
    have h122 : Kept q x121 := by
      unfold x121
      refine kept_mk (s := s) ?_
      exact h_s
    clear_value x121
    extract_lets +onlyGivenNames x123
    clear_value x123
    extract_lets +onlyGivenNames x125
    clear_value x125
    split
    · rename_i z127 z128 z129
      refine kept_ite (P := Kept q) ?_ ?_
      · extract_lets +onlyGivenNames x130
        clear_value x130
        extract_lets +onlyGivenNames x132
        clear_value x132
        extract_lets +onlyGivenNames x134
        have h135 : Kept q x134 := by
          unfold x134
          apply wr_kept
          exact h122
        clear_value x134
        extract_lets +onlyGivenNames x136
        have h137 : Kept q x136 := by
          unfold x136
          refine kept_mk (s := x134) ?_
          exact h135
        clear_value x136
        extract_lets +onlyGivenNames x138
        have h139 : Kept q x138 := by
          unfold x138
          apply wrf_kept
          exact h137
        clear_value x138
        extract_lets +onlyGivenNames x140
        have h141 : Kept q x140 := by
          unfold x140
          refine kept_ite (P := Kept q) ?_ ?_
          · exact h139
          · apply wrf_kept
            exact h139
        clear_value x140
        extract_lets +onlyGivenNames x142
        have h143 : Kept q x142 := by
          unfold x142
          apply bbx_kept
          exact h141
        clear_value x142
        split
        · rename_i z144 z145 z146
          refine kept_ite (P := Kept q) ?_ ?_
          · apply logRec_kept
            exact h143
          · exact h143
        · rename_i z147 z148
          exact h143
      · refine kept_foldl ?_ ?_
        · intro v149 v150 v151
          apply retirePage_kept
          exact v151
        · exact h122
    · rename_i z152
      refine kept_foldl ?_ ?_
      · intro v153 v154 v155
        apply retirePage_kept
        exact v155
      · exact h122

theorem readLine_kept {q : List Instr} (s : State) (line : ℕ) (h_s : Kept q s) : Kept q (readLine s line) := by
  unfold readLine
  split
  · rename_i z17 z18 z19
    exact h_s
  · rename_i z20 z21 z22 z23 z24 z25 z26
    extract_lets +onlyGivenNames x27
    have h28 : Kept q x27 := by
      unfold x27
      refine kept_mk (s := s) ?_
      exact h_s
    clear_value x27
    refine kept_ite (P := Kept q) ?_ ?_
    · extract_lets +onlyGivenNames x29
      have h30 : Kept q x29 := by
        unfold x29
        apply addSat_kept
        exact h28
      clear_value x29
      split
      · rename_i z31 z32
        exact h30
      · rename_i z33 z34 z35 z36 z37
        extract_lets +onlyGivenNames x38
        have h39 : Kept q x38 := by
          unfold x38
          apply addSat_kept
          exact h30
        clear_value x38
        extract_lets +onlyGivenNames x40
        clear_value x40
        extract_lets +onlyGivenNames x42
        clear_value x42
        extract_lets +onlyGivenNames x44
        clear_value x44
        extract_lets +onlyGivenNames x46
        clear_value x46
        extract_lets +onlyGivenNames x48
        have h49 : Kept q x48 := by
          unfold x48
          refine kept_mk (s := x38) ?_
          exact h39
        clear_value x48
        refine kept_ite (P := Kept q) ?_ ?_
        · apply rowFail_kept
          exact h49
        · exact h49
    · apply rowFail_kept
      apply addSat_kept
      apply poisonLine_kept
      exact h28
  · rename_i z50 z51 z52 z53 z54
    extract_lets +onlyGivenNames x55
    have h56 : Kept q x55 := by
      unfold x55
      refine kept_mk (s := s) ?_
      exact h_s
    clear_value x55
    refine kept_ite (P := Kept q) ?_ ?_
    · apply addSat_kept
      exact h56
    · apply addSat_kept
      apply poisonLine_kept
      exact h56

theorem archPush_kept {q : List Instr} (s : State) (h e : ℕ) (x : Xact) (h_s : Kept q s) : Kept q (archPush s h e x) := by
  unfold archPush
  refine kept_mk (s := s) ?_
  exact h_s

theorem respond_kept {q : List Instr} (s : State) (x : Xact) (h_s : Kept q s) : Kept q (respond s x) := by
  unfold respond
  refine kept_ite (P := Kept q) ?_ ?_
  · exact h_s
  · apply archPush_kept
    exact h_s

theorem offerHome_kept {q : List Instr} (s : State) (x : Xact) (h_s : Kept q s) : Kept q (offerHome s x) := by
  unfold offerHome
  refine kept_ite (P := Kept q) ?_ ?_
  · apply rglMod_kept
    exact h_s
  · apply respond_kept
    exact h_s

theorem offer_kept {q : List Instr} (s : State) (x : Xact) (h_s : Kept q s) : Kept q (offer s x) := by
  unfold offer
  refine kept_ite (P := Kept q) ?_ ?_
  · refine kept_ite (P := Kept q) ?_ ?_
    · apply archPush_kept
      exact h_s
    · apply archPush_kept
      exact h_s
  · refine kept_ite (P := Kept q) ?_ ?_
    · apply offerHome_kept
      exact h_s
    · refine kept_ite (P := Kept q) ?_ ?_
      · apply archPush_kept
        exact h_s
      · exact h_s

theorem moveLines_kept {q : List Instr} (s : State) (src : Src) (a n : ℕ) (write : Bool) (h_s : Kept q s) : Kept q (moveLines s src a n write) := by
  unfold moveLines
  apply offer_kept
  exact h_s

theorem moveMsg_kept {q : List Instr} (s : State) (src : Src) (home bytes : ℕ) (write : Bool) (h_s : Kept q s) : Kept q (moveMsg s src home bytes write) := by
  unfold moveMsg
  refine kept_ite (P := Kept q) ?_ ?_
  · exact h_s
  · apply offer_kept
    exact h_s

theorem scRead_kept {q : List Instr} (s : State) (src : Src) (line : ℕ) (h_s : Kept q s) : Kept q (scRead s src line) := by
  unfold scRead
  refine kept_ite (P := Kept q) ?_ ?_
  · extract_lets +onlyGivenNames x0
    have h1 : KSnd q x0 := by
      unfold x0
      apply drawBits_kept
      exact h_s
    clear_value x0
    refine kept_ite (P := Kept q) ?_ ?_
    · exact h1
    · apply moveLines_kept
      exact h1
  · apply moveLines_kept
    refine kept_mk (s := s) ?_
    exact h_s

theorem invalidate_kept {q : List Instr} (s : State) (src : Src) (line : ℕ) (h_s : Kept q s) : Kept q (invalidate s src line) := by
  unfold invalidate
  extract_lets +onlyGivenNames x59
  clear_value x59
  extract_lets +onlyGivenNames x61
  clear_value x61
  refine kept_mk (s := s) ?_
  exact h_s

theorem physGet_kept {q : List Instr} (s : State) (a n : ℕ) (h_s : Kept q s) : KFst q (physGet s a n) := by
  unfold physGet
  extract_lets +onlyGivenNames x63
  have h64 : Kept q x63 := by
    unfold x63
    refine kept_foldl ?_ ?_
    · intro v65 v66 v67
      apply readLine_kept
      exact v67
    · exact h_s
  clear_value x63
  exact h64

theorem didRead_kept {q : List Instr} (s : State) (src : Src) (a n : ℕ) (h_s : Kept q s) : Kept q (didRead s src a n) := by
  unfold didRead
  refine kept_ite (P := Kept q) ?_ ?_
  · refine kept_foldl ?_ ?_
    · intro v2 v3 v4
      apply scRead_kept
      exact v4
    · exact h_s
  · apply moveLines_kept
    exact h_s

theorem physRead_kept {q : List Instr} (s : State) (src : Src) (a n : ℕ) (h_s : Kept q s) : KFst q (physRead s src a n) := by
  unfold physRead
  extract_lets +onlyGivenNames x5
  have h6 : KFst q x5 := by
    unfold x5
    apply physGet_kept
    exact h_s
  clear_value x5
  apply kept_pair
  apply didRead_kept
  exact h6

theorem physPut_kept {q : List Instr} (s : State) (a : ℕ) (bs : List Byte) (h_s : Kept q s) : Kept q (physPut s a bs) := by
  unfold physPut
  extract_lets +onlyGivenNames x73
  clear_value x73
  extract_lets +onlyGivenNames x75
  clear_value x75
  extract_lets +onlyGivenNames x77
  have h78 : Kept q x77 := by
    unfold x77
    apply memPut_kept
    exact h_s
  clear_value x77
  refine kept_mk (s := x77) ?_
  exact h78

theorem wrote_kept {q : List Instr} (s : State) (src : Src) (a n : ℕ) (h_s : Kept q s) : Kept q (wrote s src a n) := by
  unfold wrote
  apply moveLines_kept
  refine kept_foldl ?_ ?_
  · intro v7 v8 v9
    apply invalidate_kept
    exact v9
  · exact h_s

theorem physWrite_kept {q : List Instr} (s : State) (src : Src) (a : ℕ) (bs : List Byte) (h_s : Kept q s) : Kept q (physWrite s src a bs) := by
  unfold physWrite
  apply wrote_kept
  apply physPut_kept
  exact h_s

theorem tlbFill_kept {q : List Instr} (s : State) (ctx va : Nat) (leaf : Word) (big : Bool) (h_s : Kept q s) : Kept q (tlbFill s ctx va leaf big) := by
  unfold tlbFill
  extract_lets +onlyGivenNames x205
  clear_value x205
  refine kept_ite (P := Kept q) ?_ ?_
  · exact h_s
  · refine kept_mk (s := s) ?_
    exact h_s

theorem translate_kept {q : List Instr} (s : State) (ctx va : Nat) (k : AccKind) (h_s : Kept q s) : KFst q (translate s ctx va k) := by
  unfold translate
  extract_lets +onlyGivenNames x207
  clear_value x207
  split
  · rename_i z209 z210 z211
    refine kept_ite (P := KFst q) ?_ ?_
    · exact h_s
    · extract_lets +onlyGivenNames x212
      have h213 : KSnd q x212 := by
        unfold x212
        apply drawBits_kept
        exact h_s
      clear_value x212
      refine kept_ite (P := KFst q) ?_ ?_
      · exact h213
      · split
        · rename_i z214 z215 z216
          apply kept_pair
          apply tlbFill_kept
          exact h213
        · rename_i z217 z218
          exact h213
        · rename_i z219
          exact h_s
  · rename_i z220 z221
    split
    · rename_i z222 z223 z224
      apply kept_pair
      apply tlbFill_kept
      exact h_s
    · rename_i z225 z226
      exact h_s
    · rename_i z227
      exact h_s

theorem vaCheck_kept {q : List Instr} (s : State) (ctx va n : Nat) (k : AccKind) (h_s : Kept q s) : KFst q (vaCheck s ctx va n k) := by
  unfold vaCheck
  split
  · rename_i z228 z229 z230 z231
    have h232 := kept_eq (P := KFst q) z231 (by
      apply translate_kept
      exact h_s)
    split
    · rename_i z233 z234 z235
      exact h232
    · rename_i z236 z237
      refine kept_ite (P := KFst q) ?_ ?_
      · exact h232
      · exact h232
  · rename_i z238 z239 z240 z241
    have h242 := kept_eq (P := KFst q) z241 (by
      apply translate_kept
      exact h_s)
    exact h242
  · rename_i z243 z244 z245
    have h246 := kept_eq (P := KFst q) z245 (by
      apply translate_kept
      exact h_s)
    exact h246

theorem vaLoad_kept {q : List Instr} (s : State) (src : Src) (va n : ℕ) (h_s : Kept q s) : KFst q (vaLoad s src va n) := by
  unfold vaLoad
  split
  · rename_i z10 z11 z12 z13
    have h14 := kept_eq (P := KFst q) z13 (by
      apply vaCheck_kept
      exact h_s)
    extract_lets +onlyGivenNames x15
    have h16 : KFst q x15 := by
      unfold x15
      apply physRead_kept
      exact h14
    clear_value x15
    exact h16
  · rename_i z17 z18 z19 z20
    have h21 := kept_eq (P := KFst q) z20 (by
      apply vaCheck_kept
      exact h_s)
    exact h21
  · rename_i z22 z23 z24
    have h25 := kept_eq (P := KFst q) z24 (by
      apply vaCheck_kept
      exact h_s)
    exact h25

theorem vaUse_kept {q : List Instr} (s : State) (src : Src) (va n : ℕ) (h_s : Kept q s) : KFst q (vaUse s src va n) := by
  unfold vaUse
  split
  · rename_i z26 z27 z28 z29 z30
    have h31 := kept_eq (P := KFst q) z30 (by
      apply vaLoad_kept
      exact h_s)
    refine kept_ite (P := KFst q) ?_ ?_
    · exact h31
    · exact h31
  · rename_i z32 z33 z34 z35
    have h36 := kept_eq (P := KFst q) z35 (by
      apply vaLoad_kept
      exact h_s)
    exact h36
  · rename_i z37 z38 z39
    have h40 := kept_eq (P := KFst q) z39 (by
      apply vaLoad_kept
      exact h_s)
    exact h40

theorem vaStore_kept {q : List Instr} (s : State) (src : Src) (va : ℕ) (bs : List Byte) (h_s : Kept q s) : KFst q (vaStore s src va bs) := by
  unfold vaStore
  split
  · rename_i z41 z42 z43 z44
    have h45 := kept_eq (P := KFst q) z44 (by
      apply vaCheck_kept
      exact h_s)
    apply kept_pair
    apply physWrite_kept
    exact h45
  · rename_i z46 z47 z48 z49
    have h50 := kept_eq (P := KFst q) z49 (by
      apply vaCheck_kept
      exact h_s)
    exact h50
  · rename_i z51 z52 z53
    have h54 := kept_eq (P := KFst q) z53 (by
      apply vaCheck_kept
      exact h_s)
    exact h54

theorem putCounted_kept {q : List Instr} (s : State) (key : Nat) (t : Thread) (cls : Nat) (c : Cnt) (h_s : Kept q s) : Kept q (putCounted s key t cls c) := by
  unfold putCounted
  apply countNum_kept
  apply setTh_kept
  exact h_s

theorem retire_kept {q : List Instr} (s : State) (key : Nat) (h_s : Kept q s) : Kept q (retire s key) := by
  unfold retire
  apply setTh_kept
  exact h_s

theorem finish_kept {q : List Instr} (key cls : Nat) (a2 : Res) (h_a2 : KRes q a2) : Kept q (finish key cls a2) := by
  unfold finish
  split
  · rename_i z0 z1
    apply retire_kept
    have h3 : Kept q _ := h_a2
    exact h3
  · rename_i z4 z5 z6
    apply setTh_kept
    have h8 : Kept q _ := h_a2
    exact h8
  · rename_i z9 z10 z11 z12 z13
    apply insnFault_kept
    have h15 : Kept q _ := h_a2
    exact h15
  · rename_i z16 z17
    have h18 : Kept q _ := h_a2
    exact h18

theorem insnW_kept {q : List Instr} (s : State) (t : Tid) (o : Opnds) (cls : ℕ) (r : Option RShape) (i : Option IShape) (ok : Bool) (eff : ℕ → State → Res) (h_s : Kept q s) (h_eff : (∀ y97 y98, Kept q y98 → KRes q (eff y97 y98))) : KOut q (insnW s t o cls r i ok eff) := by
  unfold insnW
  extract_lets +onlyGivenNames x99
  clear_value x99
  apply kept_next
  refine kept_ite (P := Kept q) ?_ ?_
  · exact h_s
  · refine kept_ite (P := Kept q) ?_ ?_
    · apply insnFault_kept
      exact h_s
    · refine kept_ite (P := Kept q) ?_ ?_
      · apply insnFault_kept
        exact h_s
      · refine kept_ite (P := Kept q) ?_ ?_
        · apply retire_kept
          exact h_s
        · apply finish_kept
          apply h_eff
          exact h_s

theorem insn_kept {q : List Instr} (s : State) (t : Tid) (o : Opnds) (cls : ℕ) (r : Option RShape) (i : Option IShape) (eff : ℕ → State → Res) (h_s : Kept q s) (h_eff : (∀ y101 y102, Kept q y102 → KRes q (eff y101 y102))) : KOut q (insn s t o cls r i eff) := by
  unfold insn
  apply insnW_kept
  · exact h_s
  · intro v103 v104 v105
    apply h_eff
    exact v105

theorem onTh_kept {q : List Instr} (f : Thread → Thread) (key : Nat) (s : State) (h_s : Kept q s) : KRes q (onTh f key s) := by
  unfold onTh
  show Kept q _
  apply setTh_kept
  exact h_s

theorem accTrap_kept {q : List Instr} (s : State) (e : AccErr) (h_s : Kept q s) : KRes q (accTrap s e) := by
  unfold accTrap
  show Kept q _
  exact h_s

end Sys2Proof.Machine
end

