-- ==== Sys2Proof/Laws/KeptTile.lean ====
section
/-! SUPPORT. Every operation and meaning of tiles, streams and the stations of an N-core keeps the queue of commands and the canonical form of the stores. One lemma each: what its arguments keep, its answer keeps. -/

namespace Sys2Proof.Machine

theorem vaRange_kept {q : List Instr} (s : State) (src : Src) (a2 : List (ℕ × ℕ)) (h_s : Kept q s) : KFst q (vaRange s src a2) := by
  induction a2 generalizing s src
  · rw [vaRange]
    exact h_s
  · rename_i z55 z56 z57
    rw [vaRange]
    split
    · rename_i z58 z59 z60 z61 z62
      have h63 := kept_eq (P := KFst q) z62 (by
        apply vaLoad_kept
        exact h_s)
      split
      · rename_i z64 z65 z66 z67 z68
        have h69 := kept_eq (P := KFst q) z68 (by
          apply z57
          exact h63)
        exact h69
      · rename_i z70 z71 z72 z73
        have h74 := kept_eq (P := KFst q) z73 (by
          apply z57
          exact h63)
        exact h74
      · rename_i z75 z76 z77
        have h78 := kept_eq (P := KFst q) z77 (by
          apply z57
          exact h63)
        exact h78
    · rename_i z79 z80 z81 z82
      have h83 := kept_eq (P := KFst q) z82 (by
        apply vaLoad_kept
        exact h_s)
      exact h83
    · rename_i z84 z85 z86
      have h87 := kept_eq (P := KFst q) z86 (by
        apply vaLoad_kept
        exact h_s)
      exact h87

theorem vaBytes_kept {q : List Instr} (s : State) (src : Src) (va n : ℕ) (h_s : Kept q s) : KFst q (vaBytes s src va n) := by
  unfold vaBytes
  apply vaRange_kept
  exact h_s

theorem vaPutRange_kept {q : List Instr} (s : State) (src : Src) (bs : List Byte) (a3 : List (ℕ × ℕ)) (h_s : Kept q s) : KFst q (vaPutRange s src bs a3) := by
  induction a3 generalizing s src bs
  · rw [vaPutRange]
    exact h_s
  · rename_i z88 z89 z90
    rw [vaPutRange]
    split
    · rename_i z91 z92 z93
      have h94 := kept_eq (P := KFst q) z93 (by
        apply vaStore_kept
        exact h_s)
      apply z90
      exact h94
    · rename_i z95 z96 z97 z98
      have h99 := kept_eq (P := KFst q) z98 (by
        apply vaStore_kept
        exact h_s)
      exact h99
    · rename_i z100 z101 z102
      have h103 := kept_eq (P := KFst q) z102 (by
        apply vaStore_kept
        exact h_s)
      exact h103

theorem vaPut_kept {q : List Instr} (s : State) (src : Src) (va : ℕ) (bs : List Byte) (h_s : Kept q s) : KFst q (vaPut s src va bs) := by
  unfold vaPut
  apply vaPutRange_kept
  exact h_s

theorem vaPoison_kept {q : List Instr} (s : State) (ctx va n : Nat) (h_s : Kept q s) : Kept q (vaPoison s ctx va n) := by
  unfold vaPoison
  refine kept_foldl ?_ ?_
  · intro v357 v358 v359
    split
    · rename_i z360 z361 z362 z363
      have h364 := kept_eq (P := KFst q) z363 (by
        apply translate_kept
        exact v359)
      exact h364
    · rename_i z365 z366 z367 z368 z369
      have h370 := kept_eq (P := KFst q) z369 (by
        apply translate_kept
        exact v359)
      exact h370
  · exact h_s

theorem vaRows_kept {q : List Instr} (s : State) (src : Src) (a2 : List (ℕ × ℕ)) (h_s : Kept q s) : KFst q (vaRows s src a2) := by
  induction a2 generalizing s src
  · rw [vaRows]
    exact h_s
  · rename_i z104 z105 z106
    rw [vaRows]
    split
    · rename_i z107 z108 z109 z110 z111
      have h112 := kept_eq (P := KFst q) z111 (by
        apply vaBytes_kept
        exact h_s)
      split
      · rename_i z113 z114 z115 z116 z117
        have h118 := kept_eq (P := KFst q) z117 (by
          apply z106
          exact h112)
        exact h118
      · rename_i z119 z120 z121 z122
        have h123 := kept_eq (P := KFst q) z122 (by
          apply z106
          exact h112)
        exact h123
      · rename_i z124 z125 z126
        have h127 := kept_eq (P := KFst q) z126 (by
          apply z106
          exact h112)
        exact h127
    · rename_i z128 z129 z130 z131
      have h132 := kept_eq (P := KFst q) z131 (by
        apply vaBytes_kept
        exact h_s)
      exact h132
    · rename_i z133 z134 z135
      have h136 := kept_eq (P := KFst q) z135 (by
        apply vaBytes_kept
        exact h_s)
      exact h136

theorem vaPutRows_kept {q : List Instr} (s : State) (src : Src) (a2 : List (ℕ × List Byte)) (h_s : Kept q s) : KFst q (vaPutRows s src a2) := by
  induction a2 generalizing s src
  · rw [vaPutRows]
    exact h_s
  · rename_i z137 z138 z139
    rw [vaPutRows]
    split
    · rename_i z140 z141 z142
      have h143 := kept_eq (P := KFst q) z142 (by
        apply vaPut_kept
        exact h_s)
      apply z139
      exact h143
    · rename_i z144 z145 z146 z147
      have h148 := kept_eq (P := KFst q) z147 (by
        apply vaPut_kept
        exact h_s)
      exact h148
    · rename_i z149 z150 z151
      have h152 := kept_eq (P := KFst q) z151 (by
        apply vaPut_kept
        exact h_s)
      exact h152

theorem readTile_kept {q : List Instr} (s : State) (src : Src) (d : Desc) (n : ℕ) (h_s : Kept q s) : KFst q (readTile s src d n) := by
  unfold readTile
  split
  · rename_i z153 z154 z155 z156 z157
    have h158 := kept_eq (P := KFst q) z157 (by
      apply vaRows_kept
      exact h_s)
    exact h158
  · rename_i z159 z160 z161 z162
    have h163 := kept_eq (P := KFst q) z162 (by
      apply vaRows_kept
      exact h_s)
    exact h163
  · rename_i z164 z165 z166
    have h167 := kept_eq (P := KFst q) z166 (by
      apply vaRows_kept
      exact h_s)
    exact h167

theorem writeTile_kept {q : List Instr} (s : State) (src : Src) (d : Desc) (n : ℕ) (t : Tile) (h_s : Kept q s) : KFst q (writeTile s src d n t) := by
  unfold writeTile
  extract_lets +onlyGivenNames x168
  clear_value x168
  split
  · rename_i z170 z171 z172
    have h173 := kept_eq (P := KFst q) z172 (by
      apply vaPutRows_kept
      exact h_s)
    apply kept_pair
    refine kept_ite (P := Kept q) ?_ ?_
    · refine kept_foldl ?_ ?_
      · intro v174 v175 v176
        apply vaPoison_kept
        exact v176
      · exact h173
    · exact h173
  · rename_i z177 z178 z179 z180
    have h181 := kept_eq (P := KFst q) z180 (by
      apply vaPutRows_kept
      exact h_s)
    exact h181
  · rename_i z182 z183 z184
    have h185 := kept_eq (P := KFst q) z184 (by
      apply vaPutRows_kept
      exact h_s)
    exact h185

theorem stationTook_kept {q : List Instr} (s : State) (core : Nat) (p : Port) (st : Stream) (t : Tile) (h_s : Kept q s) : Kept q (stationTook s core p st t) := by
  unfold stationTook
  extract_lets +onlyGivenNames x453
  clear_value x453
  extract_lets +onlyGivenNames x455
  have h456 : Kept q x455 := by
    unfold x455
    apply setNc_kept
    exact h_s
  clear_value x455
  refine kept_ite (P := Kept q) ?_ ?_
  · apply arrive_kept
    apply countNum_kept
    exact h456
  · exact h456

theorem consumeFault_kept {q : List Instr} (s : State) (core station : Nat) (st : Stream) (k status sub : Nat) (h_s : Kept q s) : Kept q (consumeFault s core station st k status sub) := by
  unfold consumeFault
  extract_lets +onlyGivenNames x457
  clear_value x457
  apply streamFault_kept
  apply setNc_kept
  exact h_s

theorem descFault_kept {q : List Instr} (s : State) (core st sd sub : Nat) (h_s : Kept q s) : Kept q (descFault s core st sd sub) := by
  unfold descFault
  extract_lets +onlyGivenNames x459
  clear_value x459
  extract_lets +onlyGivenNames x461
  have h462 : Kept q x461 := by
    unfold x461
    apply putNcoFault_kept
    exact h_s
  clear_value x461
  extract_lets +onlyGivenNames x463
  have h464 : Kept q x463 := by
    unfold x463
    apply reportFault_kept
    exact h462
  clear_value x463
  apply setTh_kept
  exact h464

theorem bindStream_kept {q : List Instr} (t : Tid) (o : StreamOps) (s : State) (h_s : Kept q s) : KOut q (bindStream t o s) := by
  unfold bindStream
  extract_lets +onlyGivenNames x465
  clear_value x465
  apply kept_next
  refine kept_ite (P := Kept q) ?_ ?_
  · exact h_s
  · refine kept_ite (P := Kept q) ?_ ?_
    · apply insnFault_kept
      exact h_s
    · refine kept_ite (P := Kept q) ?_ ?_
      · apply insnFault_kept
        exact h_s
      · refine kept_ite (P := Kept q) ?_ ?_
        · apply retire_kept
          exact h_s
        · refine kept_ite (P := Kept q) ?_ ?_
          · apply insnFault_kept
            exact h_s
          · extract_lets +onlyGivenNames x467
            clear_value x467
            split
            · rename_i z469 z470 z471
              apply descFault_kept
              exact h_s
            · rename_i z472 z473
              split
              · rename_i z474 z475
                exact h_s
              · rename_i z476 z477 z478
                extract_lets +onlyGivenNames x479
                clear_value x479
                extract_lets +onlyGivenNames x481
                clear_value x481
                apply retire_kept
                apply setNc_kept
                exact h_s

theorem vaWords_kept {q : List Instr} (s : State) (src : Src) (va a3 : ℕ) (h_s : Kept q s) : KFst q (vaWords s src va a3) := by
  induction a3 generalizing s src va
  · rw [vaWords]
    exact h_s
  · rename_i z186 z187
    rw [vaWords]
    split
    · rename_i z188 z189 z190 z191
      have h192 := kept_eq (P := KFst q) z191 (by
        apply vaUse_kept
        exact h_s)
      split
      · rename_i z193 z194 z195 z196
        have h197 := kept_eq (P := KFst q) z196 (by
          apply z187
          exact h192)
        exact h197
      · rename_i z198 z199 z200 z201
        have h202 := kept_eq (P := KFst q) z201 (by
          apply z187
          exact h192)
        exact h202
      · rename_i z203 z204 z205
        have h206 := kept_eq (P := KFst q) z205 (by
          apply z187
          exact h192)
        exact h206
    · rename_i z207 z208 z209 z210
      have h211 := kept_eq (P := KFst q) z210 (by
        apply vaUse_kept
        exact h_s)
      exact h211
    · rename_i z212 z213 z214
      have h215 := kept_eq (P := KFst q) z214 (by
        apply vaUse_kept
        exact h_s)
      exact h215

theorem sdld_kept {q : List Instr} (t : Tid) (o : Opnds) (n : ℕ) (mk : List Word → Desc) (s : State) (h_s : Kept q s) : KOut q (sdld t o n mk s) := by
  unfold sdld
  apply insn_kept
  · exact h_s
  · intro v216 v217 v218
    extract_lets +onlyGivenNames x219
    clear_value x219
    extract_lets +onlyGivenNames x221
    clear_value x221
    refine kept_ite (P := KRes q) ?_ ?_
    · show Kept q _
      exact v218
    · split
      · rename_i z223 z224 z225 z226
        have h227 := kept_eq (P := KFst q) z226 (by
          apply vaWords_kept
          exact v218)
        show Kept q _
        apply setTh_kept
        exact h227
      · rename_i z228 z229 z230 z231
        have h232 := kept_eq (P := KFst q) z231 (by
          apply vaWords_kept
          exact v218)
        apply accTrap_kept
        exact h232
      · rename_i z233 z234 z235
        have h236 := kept_eq (P := KFst q) z235 (by
          apply vaWords_kept
          exact v218)
        show Kept q _
        exact v218

theorem execSdldB_kept {q : List Instr} (t : Tid) (o : Opnds) (s : State) (h_s : Kept q s) : KOut q (execSdldB t o s) := by
  unfold execSdldB
  apply sdld_kept
  exact h_s

theorem execSdldE_kept {q : List Instr} (t : Tid) (o : Opnds) (s : State) (h_s : Kept q s) : KOut q (execSdldE t o s) := by
  unfold execSdldE
  apply sdld_kept
  exact h_s

theorem execSdadd_kept {q : List Instr} (t : Tid) (o : Opnds) (s : State) (h_s : Kept q s) : KOut q (execSdadd t o s) := by
  unfold execSdadd
  apply insn_kept
  · exact h_s
  · intro v44 v45 v46
    apply onTh_kept
    exact v46

theorem execCopy_kept {q : List Instr} (t : Tid) (o : Opnds) (s : State) (h_s : Kept q s) : KOut q (execCopy t o s) := by
  unfold execCopy
  apply insn_kept
  · exact h_s
  · intro v47 v48 v49
    extract_lets +onlyGivenNames x50
    clear_value x50
    extract_lets +onlyGivenNames x52
    clear_value x52
    split
    · rename_i z54 z55 z56
      show Kept q _
      apply descFault_kept
      exact v49
    · rename_i z57 z58
      extract_lets +onlyGivenNames x59
      clear_value x59
      extract_lets +onlyGivenNames x61
      clear_value x61
      show Kept q _
      refine kept_mk (s := v48) ?_
      exact v49

theorem execLoadTileReady_kept {q : List Instr} (core : ℕ) (s : State) (h_s : Kept q s) : KOut q (execLoadTileReady core s) := by
  unfold execLoadTileReady
  apply kept_next
  refine kept_ite (P := Kept q) ?_ ?_
  · exact h_s
  · split
    · rename_i z237 z238
      exact h_s
    · rename_i z239 z240 z241
      refine kept_ite (P := Kept q) ?_ ?_
      · exact h_s
      · split
        · rename_i z242 z243 z244 z245
          have h246 := kept_eq (P := KFst q) z245 (by
            apply readTile_kept
            exact h_s)
          apply setNc_kept
          exact h246
        · rename_i z247 z248 z249 z250
          have h251 := kept_eq (P := KFst q) z250 (by
            apply readTile_kept
            exact h_s)
          refine kept_ite (P := Kept q) ?_ ?_
          · apply streamFault_kept
            exact h251
          · exact h_s
        · rename_i z252 z253 z254
          have h255 := kept_eq (P := KFst q) z254 (by
            apply readTile_kept
            exact h_s)
          exact h_s

theorem execStoreTile_kept {q : List Instr} (core : ℕ) (s : State) (h_s : Kept q s) : KOut q (execStoreTile core s) := by
  unfold execStoreTile
  apply kept_next
  refine kept_ite (P := Kept q) ?_ ?_
  · exact h_s
  · split
    · rename_i z256 z257
      exact h_s
    · rename_i z258 z259 z260 z261
      split
      · rename_i z262 z263 z264
        apply consumeFault_kept
        exact h_s
      · rename_i z265 z266
        split
        · rename_i z267 z268 z269
          have h270 := kept_eq (P := KFst q) z269 (by
            apply writeTile_kept
            exact h_s)
          extract_lets +onlyGivenNames x271
          clear_value x271
          apply countNum_kept
          apply setNc_kept
          exact h270
        · rename_i z273 z274 z275 z276
          have h277 := kept_eq (P := KFst q) z276 (by
            apply writeTile_kept
            exact h_s)
          apply consumeFault_kept
          exact h_s
        · rename_i z278 z279 z280
          have h281 := kept_eq (P := KFst q) z280 (by
            apply writeTile_kept
            exact h_s)
          exact h_s

theorem execStoreTileVisible_kept {q : List Instr} (core : ℕ) (s : State) (h_s : Kept q s) : KOut q (execStoreTileVisible core s) := by
  unfold execStoreTileVisible
  apply kept_next
  split
  · rename_i z194 z195
    exact h_s
  · rename_i z196 z197 z198 z199
    refine kept_ite (P := Kept q) ?_ ?_
    · exact h_s
    · apply arrive_kept
      apply setNc_kept
      exact h_s

theorem copyRead_kept {q : List Instr} (s : State) (ctx : ℕ) (src : Desc) (scale : Bool) (i : ℕ) (h_s : Kept q s) : KFst q (copyRead s ctx src scale i) := by
  unfold copyRead
  split
  · rename_i z200 z201 z202 z203 z204
    split
    · rename_i z205 z206 z207 z208
      have h209 := kept_eq (P := KFst q) z208 (by
        apply vaCheck_kept
        exact h_s)
      extract_lets +onlyGivenNames x210
      have h211 : KFst q x210 := by
        unfold x210
        apply physGet_kept
        exact h209
      clear_value x210
      exact h211
    · rename_i z212 z213 z214 z215
      have h216 := kept_eq (P := KFst q) z215 (by
        apply vaCheck_kept
        exact h_s)
      exact h216
    · rename_i z217 z218 z219
      have h220 := kept_eq (P := KFst q) z219 (by
        apply vaCheck_kept
        exact h_s)
      exact h220

theorem copyReads_kept {q : List Instr} (s : State) (ctx : Nat) (src : Desc) (scale : Bool) (i a5 : Nat) (h_s : Kept q s) : KFst q (copyReads s ctx src scale i a5) := by
  induction a5 generalizing s ctx src scale i
  · rw [copyReads]
    exact h_s
  · rename_i z624 z625
    rw [copyReads]
    split
    · rename_i z626 z627 z628 z629 z630
      have h631 := kept_eq (P := KFst q) z630 (by
        apply copyRead_kept
        exact h_s)
      split
      · rename_i z632 z633 z634 z635 z636
        have h637 := kept_eq (P := KFst q) z636 (by
          apply z625
          exact h631)
        exact h637
      · rename_i z638 z639 z640 z641
        have h642 := kept_eq (P := KFst q) z641 (by
          apply z625
          exact h631)
        exact h642
      · rename_i z643 z644 z645
        have h646 := kept_eq (P := KFst q) z645 (by
          apply z625
          exact h631)
        exact h646
    · rename_i z647 z648 z649 z650
      have h651 := kept_eq (P := KFst q) z650 (by
        apply copyRead_kept
        exact h_s)
      exact h651
    · rename_i z652 z653 z654
      have h655 := kept_eq (P := KFst q) z654 (by
        apply copyRead_kept
        exact h_s)
      exact h655

theorem copyMove_kept {q : List Instr} (s : State) (core ctx : ℕ) (src dst : Desc) (m : CopyMove) (h_s : Kept q s) : KFst q (copyMove s core ctx src dst m) := by
  unfold copyMove
  split
  · rename_i z282 z283 z284 z285 z286 z287
    have h288 := kept_eq (P := KFst q) z287 (by
      apply copyReads_kept
      exact h_s)
    extract_lets +onlyGivenNames x289
    have h290 : Kept q x289 := by
      unfold x289
      refine kept_foldl ?_ ?_
      · intro v291 v292 v293
        apply moveLines_kept
        exact v293
      · exact h288
    clear_value x289
    extract_lets +onlyGivenNames x294
    clear_value x294
    extract_lets +onlyGivenNames x296
    clear_value x296
    extract_lets +onlyGivenNames x298
    have h299 : KFst q x298 := by
      unfold x298
      refine kept_ite (P := KFst q) ?_ ?_
      · exact h290
      · split
        · rename_i z300 z301 z302 z303
          have h304 := kept_eq (P := KFst q) z303 (by
            apply vaCheck_kept
            exact h290)
          exact h304
        · rename_i z305 z306 z307 z308
          have h309 := kept_eq (P := KFst q) z308 (by
            apply vaCheck_kept
            exact h290)
          exact h309
        · rename_i z310 z311 z312
          have h313 := kept_eq (P := KFst q) z312 (by
            apply vaCheck_kept
            exact h290)
          exact h313
    clear_value x298
    split
    · rename_i z314 z315 z316
      split
      · rename_i z317 z318 z319
        have h320 := kept_eq (P := KFst q) z319 (by
          apply vaPut_kept
          exact h299)
        apply kept_pair
        refine kept_ite (P := Kept q) ?_ ?_
        · apply vaPoison_kept
          exact h320
        · exact h320
      · rename_i z321 z322 z323 z324
        have h325 := kept_eq (P := KFst q) z324 (by
          apply vaPut_kept
          exact h299)
        exact h325
      · rename_i z326 z327 z328
        have h329 := kept_eq (P := KFst q) z328 (by
          apply vaPut_kept
          exact h299)
        exact h329
    · rename_i z330 z331 z332
      exact h299
    · rename_i z333 z334
      exact h299
  · rename_i z335 z336 z337 z338
    have h339 := kept_eq (P := KFst q) z338 (by
      apply copyReads_kept
      exact h_s)
    exact h339
  · rename_i z340 z341 z342
    have h343 := kept_eq (P := KFst q) z342 (by
      apply copyReads_kept
      exact h_s)
    exact h343

theorem copyRun_kept {q : List Instr} (s : State) (ctx : ℕ) (r : CopyReq) (a3 : List CopyMove) (h_s : Kept q s) : KFst q (copyRun s ctx r a3) := by
  induction a3 generalizing s ctx r
  · rw [copyRun]
    exact h_s
  · rename_i z344 z345 z346
    rw [copyRun]
    split
    · rename_i z347 z348 z349
      have h350 := kept_eq (P := KFst q) z349 (by
        apply copyMove_kept
        exact h_s)
      extract_lets +onlyGivenNames x351
      have h352 : KFst q x351 := by
        unfold x351
        apply z346
        exact h350
      clear_value x351
      exact h352
    · rename_i z353 z354 z355 z356
      have h357 := kept_eq (P := KFst q) z356 (by
        apply copyMove_kept
        exact h_s)
      exact h_s
    · rename_i z358 z359 z360
      have h361 := kept_eq (P := KFst q) z360 (by
        apply copyMove_kept
        exact h_s)
      exact h_s

theorem copyServe_kept {q : List Instr} (s : State) (cpe : ℕ) (c : Cpe) (r : CopyReq) (h_s : Kept q s) : Kept q (copyServe s cpe c r) := by
  unfold copyServe
  extract_lets +onlyGivenNames x362
  clear_value x362
  extract_lets +onlyGivenNames x364
  have h365 : KFst q x364 := by
    unfold x364
    apply copyRun_kept
    exact h_s
  clear_value x364
  extract_lets +onlyGivenNames x366
  clear_value x366
  extract_lets +onlyGivenNames x368
  have h369 : Kept q x368 := by
    unfold x368
    exact h365
  clear_value x368
  extract_lets +onlyGivenNames x370
  have h371 : Kept q x370 := by
    unfold x370
    refine kept_mk (s := x368) ?_
    exact h369
  clear_value x370
  extract_lets +onlyGivenNames x372
  have h373 : (∀ y374, Kept q (x372 y374)) := by
    unfold x372
    intro v375
    refine kept_mk (s := x370) ?_
    exact h371
  clear_value x372
  extract_lets +onlyGivenNames x376
  clear_value x376
  refine kept_ite (P := Kept q) ?_ ?_
  · exact h_s
  · refine kept_ite (P := Kept q) ?_ ?_
    · apply h373
    · extract_lets +onlyGivenNames x378
      clear_value x378
      extract_lets +onlyGivenNames x380
      have h381 : Kept q x380 := by
        unfold x380
        apply h373
      clear_value x380
      split
      · rename_i z382 z383
        exact h381
      · rename_i z384 z385 z386 z387
        refine kept_ite (P := Kept q) ?_ ?_
        · apply streamFault_kept
          exact h381
        · exact h381

theorem execCopyLineLanded_kept {q : List Instr} (cpe : ℕ) (s : State) (h_s : Kept q s) : KOut q (execCopyLineLanded cpe s) := by
  unfold execCopyLineLanded
  apply kept_next
  split
  · rename_i z244 z245
    exact h_s
  · rename_i z246 z247 z248
    refine kept_ite (P := Kept q) ?_ ?_
    · exact h_s
    · apply arrive_kept
      refine kept_mk (s := s) ?_
      exact h_s

theorem spend_kept {q : List Instr} (s : State) (k : Nat) (h_s : Kept q s) : Kept q (spend s k) := by
  unfold spend
  refine kept_mk (s := s) ?_
  exact h_s

theorem sendClass_kept {q : List Instr} (put : NCore → ClassIns → NCore) (ci : ClassIns) (key : Nat) (s : State) (h_s : Kept q s) : KRes q (sendClass put ci key s) := by
  unfold sendClass
  show Kept q _
  apply setNc_kept
  exact h_s

theorem mxPass_kept {q : List Instr} (t : Tid) (o : Opnds) (expert : Bool) (s : State) (h_s : Kept q s) : KOut q (mxPass t o expert s) := by
  unfold mxPass
  apply insnW_kept
  · exact h_s
  · intro v249 v250 v251
    apply sendClass_kept
    exact v251

theorem execMxpassB_kept {q : List Instr} (t : Tid) (o : Opnds) (s : State) (h_s : Kept q s) : KOut q (execMxpassB t o s) := by
  unfold execMxpassB
  apply mxPass_kept
  exact h_s

theorem execMxpassE_kept {q : List Instr} (t : Tid) (o : Opnds) (s : State) (h_s : Kept q s) : KOut q (execMxpassE t o s) := by
  unfold execMxpassE
  apply mxPass_kept
  exact h_s

theorem execMxswap_kept {q : List Instr} (t : Tid) (o : Opnds) (s : State) (h_s : Kept q s) : KOut q (execMxswap t o s) := by
  unfold execMxswap
  apply insn_kept
  · exact h_s
  · intro v66 v67 v68
    apply sendClass_kept
    exact v68

theorem execMxend_kept {q : List Instr} (t : Tid) (o : Opnds) (s : State) (h_s : Kept q s) : KOut q (execMxend t o s) := by
  unfold execMxend
  apply insn_kept
  · exact h_s
  · intro v69 v70 v71
    apply sendClass_kept
    exact v71

theorem execMatrixStationaryTile_kept {q : List Instr} (core : ℕ) (s : State) (h_s : Kept q s) : KOut q (execMatrixStationaryTile core s) := by
  unfold execMatrixStationaryTile
  apply kept_next
  refine kept_ite (P := Kept q) ?_ ?_
  · exact h_s
  · extract_lets +onlyGivenNames x252
    clear_value x252
    split
    · rename_i z254 z255 z256 z257 z258 z259 z260 z261
      extract_lets +onlyGivenNames x262
      clear_value x262
      extract_lets +onlyGivenNames x264
      have h265 : (∀ y266 y267, Kept q (x264 y266 y267)) := by
        unfold x264
        intro v268 v269
        apply consumeFault_kept
        exact h_s
      clear_value x264
      split
      · rename_i z270 z271 z272 z273
        apply h265
      · rename_i z274 z275
        refine kept_ite (P := Kept q) ?_ ?_
        · refine kept_ite (P := Kept q) ?_ ?_
          · exact h_s
          · refine kept_ite (P := Kept q) ?_ ?_
            · apply stationTook_kept
              apply setNc_kept
              exact h_s
            · apply h265
        · refine kept_ite (P := Kept q) ?_ ?_
          · exact h_s
          · refine kept_ite (P := Kept q) ?_ ?_
            · apply h265
            · split
              · rename_i z276 z277 z278 z279
                extract_lets +onlyGivenNames x280
                clear_value x280
                extract_lets +onlyGivenNames x282
                clear_value x282
                extract_lets +onlyGivenNames x284
                clear_value x284
                apply stationTook_kept
                apply setNc_kept
                exact h_s
    · rename_i z286 z287 z288
      exact h_s

theorem execMatrixActivationTile_kept {q : List Instr} (core : ℕ) (s : State) (h_s : Kept q s) : KOut q (execMatrixActivationTile core s) := by
  unfold execMatrixActivationTile
  apply kept_next
  refine kept_ite (P := Kept q) ?_ ?_
  · exact h_s
  · extract_lets +onlyGivenNames x289
    clear_value x289
    split
    · rename_i z291 z292 z293 z294 z295 z296 z297 z298
      extract_lets +onlyGivenNames x299
      clear_value x299
      extract_lets +onlyGivenNames x301
      have h302 : (∀ y303 y304, Kept q (x301 y303 y304)) := by
        unfold x301
        intro v305 v306
        apply consumeFault_kept
        exact h_s
      clear_value x301
      split
      · rename_i z307 z308 z309 z310
        apply h302
      · rename_i z311 z312
        split
        · rename_i z313 z314
          exact h_s
        · rename_i z315 z316 z317
          split
          · rename_i z318 z319 z320
            apply h302
          · rename_i z321 z322
            extract_lets +onlyGivenNames x323
            have h324 : Kept q x323 := by
              unfold x323
              apply addDiv_kept
              apply spend_kept
              exact h_s
            clear_value x323
            apply stationTook_kept
            apply setNc_kept
            exact h324
    · rename_i z325 z326 z327
      exact h_s

theorem readoutCounts_kept {q : List Instr} (s : State) (ctx : Nat) (c : Cnt) (nans flush : Nat) (h_s : Kept q s) : Kept q (readoutCounts s ctx c nans flush) := by
  unfold readoutCounts
  apply countNum_kept
  exact h_s

theorem readAcc_kept {q : List Instr} (s : State) (ctx : ℕ) (c : MxCfg) (n : NCore) (bad i : ℕ) (h_s : Kept q s) : KFst q (readAcc s ctx c n bad i) := by
  unfold readAcc
  extract_lets +onlyGivenNames x328
  clear_value x328
  extract_lets +onlyGivenNames x330
  clear_value x330
  extract_lets +onlyGivenNames x332
  clear_value x332
  extract_lets +onlyGivenNames x334
  clear_value x334
  extract_lets +onlyGivenNames x336
  clear_value x336
  extract_lets +onlyGivenNames x338
  clear_value x338
  refine kept_ite (P := KFst q) ?_ ?_
  · extract_lets +onlyGivenNames x340
    clear_value x340
    extract_lets +onlyGivenNames x342
    clear_value x342
    apply kept_pair
    apply readoutCounts_kept
    apply spend_kept
    exact h_s
  · split
    · rename_i z344 z345 z346 z347
      have h348 := kept_eq (P := KSnd q) z347 (by
        apply takeFor_kept
        exact h_s)
      extract_lets +onlyGivenNames x349
      clear_value x349
      apply kept_pair
      apply readoutCounts_kept
      apply spend_kept
      exact h348

theorem readAccs_kept {q : List Instr} (s : State) (ctx : ℕ) (c : MxCfg) (n : NCore) (bad : ℕ) (a5 : List ℕ) (h_s : Kept q s) : KFst q (readAccs s ctx c n bad a5) := by
  induction a5 generalizing s ctx c n bad
  · rw [readAccs]
    exact h_s
  · rename_i z351 z352 z353
    rw [readAccs]
    apply kept_pair
    apply kept_fst
    apply z353
    apply kept_fst
    apply readAcc_kept
    exact h_s

theorem mxRead_kept {q : List Instr} (s : State) (core bad : ℕ) (c : MxCfg) (h_s : Kept q s) : Kept q (mxRead s core bad c) := by
  unfold mxRead
  extract_lets +onlyGivenNames x354
  clear_value x354
  extract_lets +onlyGivenNames x356
  have h357 : KFst q x356 := by
    unfold x356
    apply readAccs_kept
    exact h_s
  clear_value x356
  extract_lets +onlyGivenNames x358
  clear_value x358
  extract_lets +onlyGivenNames x360
  clear_value x360
  apply setNc_kept
  exact h357

theorem execMatrixReadout_kept {q : List Instr} (who : AccRead) (s : State) (h_s : Kept q s) : KOut q (execMatrixReadout who s) := by
  unfold execMatrixReadout
  apply kept_next
  refine kept_ite (P := Kept q) ?_ ?_
  · exact h_s
  · split
    · rename_i z362 z363
      exact h_s
    · rename_i z364 z365 z366 z367
      extract_lets +onlyGivenNames x368
      clear_value x368
      extract_lets +onlyGivenNames x370
      have h371 : Kept q x370 := by
        unfold x370
        refine kept_ite (P := Kept q) ?_ ?_
        · apply mxRead_kept
          exact h_s
        · exact h_s
      clear_value x370
      apply setNc_kept
      exact h371


theorem trSet_kept {q : List Instr} (t : Tid) (o : Opnds) (expert : Bool) (s : State) (h_s : Kept q s) : KOut q (trSet t o expert s) := by
  unfold trSet
  apply insnW_kept
  · exact h_s
  · intro v372 v373 v374
    apply sendClass_kept
    exact v374

theorem execTrsetB_kept {q : List Instr} (t : Tid) (o : Opnds) (s : State) (h_s : Kept q s) : KOut q (execTrsetB t o s) := by
  unfold execTrsetB
  apply trSet_kept
  exact h_s

theorem execTrsetE_kept {q : List Instr} (t : Tid) (o : Opnds) (s : State) (h_s : Kept q s) : KOut q (execTrsetE t o s) := by
  unfold execTrsetE
  apply trSet_kept
  exact h_s

theorem execTrend_kept {q : List Instr} (t : Tid) (o : Opnds) (s : State) (h_s : Kept q s) : KOut q (execTrend t o s) := by
  unfold execTrend
  apply insn_kept
  · exact h_s
  · intro v75 v76 v77
    apply sendClass_kept
    exact v77

theorem execTrestleWeightTile_kept {q : List Instr} (core : ℕ) (s : State) (h_s : Kept q s) : KOut q (execTrestleWeightTile core s) := by
  unfold execTrestleWeightTile
  apply kept_next
  refine kept_ite (P := Kept q) ?_ ?_
  · exact h_s
  · extract_lets +onlyGivenNames x375
    clear_value x375
    split
    · rename_i z377 z378 z379 z380 z381 z382 z383
      extract_lets +onlyGivenNames x384
      have h385 : (∀ y386 y387, Kept q (x384 y386 y387)) := by
        unfold x384
        intro v388 v389
        apply consumeFault_kept
        exact h_s
      clear_value x384
      refine kept_ite (P := Kept q) ?_ ?_
      · exact h_s
      · split
        · rename_i z390 z391 z392 z393
          apply h385
        · rename_i z394 z395
          refine kept_ite (P := Kept q) ?_ ?_
          · refine kept_ite (P := Kept q) ?_ ?_
            · apply setNc_kept
              exact h_s
            · apply h385
          · split
            · rename_i z396 z397 z398
              apply h385
            · rename_i z399 z400
              extract_lets +onlyGivenNames x401
              have h402 : Kept q x401 := by
                unfold x401
                apply addDiv_kept
                apply spend_kept
                exact h_s
              clear_value x401
              apply stationTook_kept
              apply setNc_kept
              exact h402
    · rename_i z403 z404 z405
      exact h_s

theorem sweepTiles_kept {q : List Instr} (s : State) (ctx : Nat) (c : TrCfg) (a : Acc) (rows ix a6 a7 : Nat) (h_s : Kept q s) : KFst q (sweepTiles s ctx c a rows ix a6 a7) := by
  induction a6 generalizing s ctx c a rows ix a7
  · rw [sweepTiles]
    exact h_s
  · rename_i z950 z951
    rw [sweepTiles]
    refine kept_ite (P := KFst q) ?_ ?_
    · exact h_s
    · extract_lets +onlyGivenNames x952
      clear_value x952
      extract_lets +onlyGivenNames x954
      clear_value x954
      split
      · rename_i z956 z957 z958 z959
        have h960 := kept_eq (P := KSnd q) z959 (by
          apply takeFor_kept
          exact h_s)
        extract_lets +onlyGivenNames x961
        clear_value x961
        extract_lets +onlyGivenNames x963
        have h964 : Kept q x963 := by
          unfold x963
          apply countNum_kept
          exact h960
        clear_value x963
        extract_lets +onlyGivenNames x965
        have h966 : KFst q x965 := by
          unfold x965
          apply z951
          exact h964
        clear_value x965
        exact h966

theorem spoil_kept {q : List Instr} (s : State) (core lo n : ℕ) (h_s : Kept q s) : Kept q (spoil s core lo n) := by
  unfold spoil
  refine kept_foldl ?_ ?_
  · intro v406 v407 v408
    extract_lets +onlyGivenNames x409
    have h410 : KSnd q x409 := by
      unfold x409
      apply drawBits_kept
      exact v408
    clear_value x409
    apply setNc_kept
    exact h410
  · exact h_s

theorem execTrestleReadout_kept {q : List Instr} (who : AccRead) (s : State) (h_s : Kept q s) : KOut q (execTrestleReadout who s) := by
  unfold execTrestleReadout
  apply kept_next
  refine kept_ite (P := Kept q) ?_ ?_
  · exact h_s
  · extract_lets +onlyGivenNames x411
    clear_value x411
    split
    · rename_i z413 z414
      exact h_s
    · rename_i z415 z416 z417
      refine kept_ite (P := Kept q) ?_ ?_
      · exact h_s
      · extract_lets +onlyGivenNames x418
        clear_value x418
        extract_lets +onlyGivenNames x420
        clear_value x420
        extract_lets +onlyGivenNames x422
        clear_value x422
        extract_lets +onlyGivenNames x424
        clear_value x424
        refine kept_ite (P := Kept q) ?_ ?_
        · refine kept_ite (P := Kept q) ?_ ?_
          · apply streamFault_kept
            exact h_s
          · extract_lets +onlyGivenNames x426
            clear_value x426
            split
            · rename_i z428 z429 z430 z431
              have h432 := kept_eq (P := KSnd q) z431 (by
                apply takeFor_kept
                exact h_s)
              extract_lets +onlyGivenNames x433
              clear_value x433
              extract_lets +onlyGivenNames x435
              have h436 : Kept q x435 := by
                unfold x435
                apply countNum_kept
                apply setNc_kept
                apply spend_kept
                exact h432
              clear_value x435
              refine kept_ite (P := Kept q) ?_ ?_
              · apply spoil_kept
                exact h436
              · exact h436
        · split
          · rename_i z437 z438 z439 z440
            have h441 := kept_eq (P := KFst q) z440 (by
              refine kept_ite (P := KFst q) ?_ ?_
              · extract_lets +onlyGivenNames x442
                have h443 : KFst q x442 := by
                  unfold x442
                  apply sweepTiles_kept
                  exact h_s
                clear_value x442
                apply kept_pair
                apply countNum_kept
                apply spend_kept
                exact h443
              · exact h_s)
            split
            · rename_i z444 z445 z446 z447
              refine kept_ite (P := Kept q) ?_ ?_
              · apply setNc_kept
                exact h441
              · apply setNc_kept
                exact h441

theorem ewRun_kept {q : List Instr} (t : Tid) (o : Opnds) (expert : Bool) (s : State) (h_s : Kept q s) : KOut q (ewRun t o expert s) := by
  unfold ewRun
  apply insnW_kept
  · exact h_s
  · intro v448 v449 v450
    apply sendClass_kept
    exact v450

theorem execEweRunB_kept {q : List Instr} (t : Tid) (o : Opnds) (s : State) (h_s : Kept q s) : KOut q (execEweRunB t o s) := by
  unfold execEweRunB
  apply ewRun_kept
  exact h_s

theorem execEweRunE_kept {q : List Instr} (t : Tid) (o : Opnds) (s : State) (h_s : Kept q s) : KOut q (execEweRunE t o s) := by
  unfold execEweRunE
  apply ewRun_kept
  exact h_s

theorem execEweImm_kept {q : List Instr} (t : Tid) (o : Opnds) (s : State) (h_s : Kept q s) : KOut q (execEweImm t o s) := by
  unfold execEweImm
  apply insnW_kept
  · exact h_s
  · intro v451 v452 v453
    apply sendClass_kept
    exact v453

theorem vaCheckWords_kept {q : List Instr} (s : State) (ctx : Nat) (k : AccKind) (step : Nat) (a4 : List Nat) (h_s : Kept q s) : KFst q (vaCheckWords s ctx k step a4) := by
  induction a4 generalizing s ctx k step
  · rw [vaCheckWords]
    exact h_s
  · rename_i z1010 z1011 z1012
    rw [vaCheckWords]
    split
    · rename_i z1013 z1014 z1015 z1016
      have h1017 := kept_eq (P := KFst q) z1016 (by
        apply vaCheck_kept
        exact h_s)
      split
      · rename_i z1018 z1019 z1020 z1021
        have h1022 := kept_eq (P := KFst q) z1021 (by
          apply z1012
          exact h1017)
        exact h1022
      · rename_i z1023 z1024 z1025 z1026
        have h1027 := kept_eq (P := KFst q) z1026 (by
          apply z1012
          exact h1017)
        exact h1027
      · rename_i z1028 z1029 z1030
        have h1031 := kept_eq (P := KFst q) z1030 (by
          apply z1012
          exact h1017)
        exact h1031
    · rename_i z1032 z1033 z1034 z1035
      have h1036 := kept_eq (P := KFst q) z1035 (by
        apply vaCheck_kept
        exact h_s)
      exact h1036
    · rename_i z1037 z1038 z1039
      have h1040 := kept_eq (P := KFst q) z1039 (by
        apply vaCheck_kept
        exact h_s)
      exact h1040

theorem execEweLdp_kept {q : List Instr} (t : Tid) (o : Opnds) (s : State) (h_s : Kept q s) : KOut q (execEweLdp t o s) := by
  unfold execEweLdp
  apply insn_kept
  · exact h_s
  · intro v388 v389 v390
    extract_lets +onlyGivenNames x391
    clear_value x391
    extract_lets +onlyGivenNames x393
    clear_value x393
    refine kept_ite (P := KRes q) ?_ ?_
    · show Kept q _
      exact v390
    · split
      · rename_i z395 z396 z397 z398
        have h399 := kept_eq (P := KFst q) z398 (by
          apply vaCheck_kept
          exact v390)
        show Kept q _
        exact h399
      · rename_i z400 z401 z402
        have h403 := kept_eq (P := KFst q) z402 (by
          apply vaCheck_kept
          exact v390)
        show Kept q _
        exact v390
      · rename_i z404 z405 z406 z407
        have h408 := kept_eq (P := KFst q) z407 (by
          apply vaCheck_kept
          exact v390)
        split
        · rename_i z409 z410 z411 z412 z413
          have h414 := kept_eq (P := KFst q) z413 (by
            apply physRead_kept
            exact h408)
          extract_lets +onlyGivenNames x415
          clear_value x415
          split
          · rename_i z417 z418 z419 z420
            have h421 := kept_eq (P := KFst q) z420 (by
              apply vaCheckWords_kept
              exact h414)
            show Kept q _
            exact h421
          · rename_i z422 z423 z424
            have h425 := kept_eq (P := KFst q) z424 (by
              apply vaCheckWords_kept
              exact h414)
            show Kept q _
            exact v390
          · rename_i z426 z427 z428 z429
            have h430 := kept_eq (P := KFst q) z429 (by
              apply vaCheckWords_kept
              exact h414)
            apply sendClass_kept
            exact h430

theorem ewReg_kept {q : List Instr} (t : Tid) (o : Opnds) (op : Nat) (k : AccKind) (s : State) (h_s : Kept q s) : KOut q (ewReg t o op k s) := by
  unfold ewReg
  apply insn_kept
  · exact h_s
  · intro v127 v128 v129
    extract_lets +onlyGivenNames x130
    clear_value x130
    refine kept_ite (P := KRes q) ?_ ?_
    · show Kept q _
      exact v129
    · split
      · rename_i z132 z133 z134 z135
        have h136 := kept_eq (P := KFst q) z135 (by
          apply vaCheckWords_kept
          exact v129)
        apply accTrap_kept
        exact h136
      · rename_i z137 z138 z139
        have h140 := kept_eq (P := KFst q) z139 (by
          apply vaCheckWords_kept
          exact v129)
        show Kept q _
        exact v129
      · rename_i z141 z142 z143 z144
        have h145 := kept_eq (P := KFst q) z144 (by
          apply vaCheckWords_kept
          exact v129)
        apply sendClass_kept
        exact h145

theorem execEweLdr_kept {q : List Instr} (t : Tid) (o : Opnds) (s : State) (h_s : Kept q s) : KOut q (execEweLdr t o s) := by
  unfold execEweLdr
  apply ewReg_kept
  exact h_s

theorem execEweStr_kept {q : List Instr} (t : Tid) (o : Opnds) (s : State) (h_s : Kept q s) : KOut q (execEweStr t o s) := by
  unfold execEweStr
  apply ewReg_kept
  exact h_s

theorem execEweRexec_kept {q : List Instr} (t : Tid) (o : Opnds) (s : State) (h_s : Kept q s) : KOut q (execEweRexec t o s) := by
  unfold execEweRexec
  apply insnW_kept
  · exact h_s
  · intro v481 v482 v483
    extract_lets +onlyGivenNames x484
    clear_value x484
    extract_lets +onlyGivenNames x486
    clear_value x486
    refine kept_ite (P := KRes q) ?_ ?_
    · show Kept q _
      exact v483
    · split
      · rename_i z488 z489 z490 z491 z492 z493
        refine kept_ite (P := KRes q) ?_ ?_
        · show Kept q _
          exact v483
        · refine kept_ite (P := KRes q) ?_ ?_
          · show Kept q _
            exact v483
          · extract_lets +onlyGivenNames x494
            clear_value x494
            extract_lets +onlyGivenNames x496
            clear_value x496
            split
            · rename_i z498 z499 z500 z501
              have h502 := kept_eq (P := KSnd q) z501 (by
                apply takeFor_kept
                apply spend_kept
                exact v483)
              extract_lets +onlyGivenNames x503
              clear_value x503
              extract_lets +onlyGivenNames x505
              clear_value x505
              extract_lets +onlyGivenNames x507
              clear_value x507
              extract_lets +onlyGivenNames x509
              clear_value x509
              extract_lets +onlyGivenNames x511
              have h512 : Kept q x511 := by
                unfold x511
                apply setNc_kept
                exact h502
              clear_value x511
              show Kept q _
              apply putCounted_kept
              exact h512
      · rename_i z513 z514 z515
        show Kept q _
        exact v483

theorem physReads_kept {q : List Instr} (s : State) (src : Src) (step : ℕ) (a3 : List ℕ) (h_s : Kept q s) : KFst q (physReads s src step a3) := by
  induction a3 generalizing s src step
  · rw [physReads]
    exact h_s
  · rename_i z431 z432 z433
    rw [physReads]
    split
    · rename_i z434 z435 z436 z437 z438
      have h439 := kept_eq (P := KFst q) z438 (by
        apply physRead_kept
        exact h_s)
      split
      · rename_i z440 z441 z442 z443 z444
        have h445 := kept_eq (P := KFst q) z444 (by
          apply z433
          exact h439)
        exact h445

theorem ewTake_kept {q : List Instr} (s : State) (core : ℕ) (ci : ClassIns) (h_s : Kept q s) : KTook q (ewTake s core ci) := by
  unfold ewTake
  extract_lets +onlyGivenNames x446
  clear_value x446
  refine kept_ite (P := KTook q) ?_ ?_
  · show Kept q _
    apply setNc_kept
    exact h_s
  · refine kept_ite (P := KTook q) ?_ ?_
    · show Kept q _
      apply setNc_kept
      exact h_s
    · refine kept_ite (P := KTook q) ?_ ?_
      · split
        · rename_i z448 z449 z450 z451 z452
          have h453 := kept_eq (P := KFst q) z452 (by
            apply physReads_kept
            exact h_s)
          refine kept_ite (P := KTook q) ?_ ?_
          · show Kept q _
            exact h453
          · extract_lets +onlyGivenNames x454
            clear_value x454
            extract_lets +onlyGivenNames x456
            clear_value x456
            extract_lets +onlyGivenNames x458
            clear_value x458
            refine kept_ite (P := KTook q) ?_ ?_
            · show Kept q _
              apply setNc_kept
              exact h453
            · show Kept q _
              apply setNc_kept
              exact h453
      · refine kept_ite (P := KTook q) ?_ ?_
        · refine kept_ite (P := KTook q) ?_ ?_
          · exact True.intro
          · refine kept_ite (P := KTook q) ?_ ?_
            · exact True.intro
            · split
              · rename_i z460 z461 z462 z463 z464
                have h465 := kept_eq (P := KFst q) z464 (by
                  apply physReads_kept
                  exact h_s)
                refine kept_ite (P := KTook q) ?_ ?_
                · show Kept q _
                  exact h465
                · show Kept q _
                  apply setNc_kept
                  exact h465
        · refine kept_ite (P := KTook q) ?_ ?_
          · exact True.intro
          · refine kept_ite (P := KTook q) ?_ ?_
            · exact True.intro
            · extract_lets +onlyGivenNames x466
              clear_value x466
              show Kept q _
              refine kept_foldl ?_ ?_
              · intro v468 v469 v470
                apply physWrite_kept
                exact v470
              · exact h_s

theorem execElementTile_kept {q : List Instr} (core : ℕ) (s : State) (h_s : Kept q s) : KOut q (execElementTile core s) := by
  unfold execElementTile
  apply kept_next
  refine kept_ite (P := Kept q) ?_ ?_
  · exact h_s
  · extract_lets +onlyGivenNames x533
    clear_value x533
    split
    · rename_i z535 z536
      exact h_s
    · rename_i z537 z538 z539 z540
      extract_lets +onlyGivenNames x541
      have h542 : (∀ y543 y544, Kept q (x541 y543 y544)) := by
        unfold x541
        intro v545 v546
        apply consumeFault_kept
        exact h_s
      clear_value x541
      split
      · rename_i z547 z548 z549 z550
        apply h542
      · rename_i z551 z552
        split
        · rename_i z553 z554
          apply h542
        · rename_i z555 z556 z557
          extract_lets +onlyGivenNames x558
          clear_value x558
          extract_lets +onlyGivenNames x560
          clear_value x560
          extract_lets +onlyGivenNames x562
          clear_value x562
          refine kept_ite (P := Kept q) ?_ ?_
          · exact h_s
          · refine kept_ite (P := Kept q) ?_ ?_
            · exact h_s
            · refine kept_ite (P := Kept q) ?_ ?_
              · exact h_s
              · split
                · rename_i z564 z565 z566 z567 z568
                  apply consumeFault_kept
                  exact h_s
                · rename_i z569 z570
                  split
                  · rename_i z571 z572 z573
                    apply h542
                  · rename_i z574 z575
                    extract_lets +onlyGivenNames x576
                    clear_value x576
                    extract_lets +onlyGivenNames x578
                    clear_value x578
                    extract_lets +onlyGivenNames x580
                    clear_value x580
                    extract_lets +onlyGivenNames x582
                    clear_value x582
                    extract_lets +onlyGivenNames x584
                    clear_value x584
                    split
                    · rename_i z586 z587 z588 z589
                      have h590 := kept_eq (P := KSnd q) z589 (by
                        apply takeFor_kept
                        apply spend_kept
                        exact h_s)
                      extract_lets +onlyGivenNames x591
                      clear_value x591
                      extract_lets +onlyGivenNames x593
                      have h594 : Kept q x593 := by
                        unfold x593
                        apply countNum_kept
                        exact h590
                      clear_value x593
                      extract_lets +onlyGivenNames x595
                      have h596 : Kept q x595 := by
                        unfold x595
                        apply addDiv_kept
                        exact h594
                      clear_value x595
                      extract_lets +onlyGivenNames x597
                      have h598 : Kept q x597 := by
                        unfold x597
                        apply stationTook_kept
                        exact h596
                      clear_value x597
                      extract_lets +onlyGivenNames x599
                      have h600 : Kept q x599 := by
                        unfold x599
                        split
                        · rename_i z601 z602 z603
                          apply stationTook_kept
                          exact h598
                        · rename_i z604
                          exact h598
                      clear_value x599
                      extract_lets +onlyGivenNames x605
                      clear_value x605
                      extract_lets +onlyGivenNames x607
                      clear_value x607
                      extract_lets +onlyGivenNames x609
                      clear_value x609
                      apply setNc_kept
                      exact h600

theorem rdOp_kept {q : List Instr} (t : Tid) (o : Opnds) (expert : Bool) (s : State) (h_s : Kept q s) : KOut q (rdOp t o expert s) := by
  unfold rdOp
  apply insnW_kept
  · exact h_s
  · intro v611 v612 v613
    apply sendClass_kept
    exact v613

theorem execRduOpB_kept {q : List Instr} (t : Tid) (o : Opnds) (s : State) (h_s : Kept q s) : KOut q (execRduOpB t o s) := by
  unfold execRduOpB
  apply rdOp_kept
  exact h_s

theorem execRduOpE_kept {q : List Instr} (t : Tid) (o : Opnds) (s : State) (h_s : Kept q s) : KOut q (execRduOpE t o s) := by
  unfold execRduOpE
  apply rdOp_kept
  exact h_s

theorem execRduEnd_kept {q : List Instr} (t : Tid) (o : Opnds) (s : State) (h_s : Kept q s) : KOut q (execRduEnd t o s) := by
  unfold execRduEnd
  apply insn_kept
  · exact h_s
  · intro v184 v185 v186
    apply sendClass_kept
    exact v186

theorem putRedReg_kept {q : List Instr} (s : State) (core i : Nat) (codes : List Nat) (h_s : Kept q s) : Kept q (putRedReg s core i codes) := by
  unfold putRedReg
  split
  · rename_i z135 z136 z137 z138
    have h139 := kept_eq (P := KSnd q) z138 (by
      apply drawBits_kept
      exact h_s)
    extract_lets +onlyGivenNames x140
    clear_value x140
    apply setNc_kept
    exact h139

theorem rdEmit_kept {q : List Instr} (s : State) (core : ℕ) (c : RdCfg) (h_s : Kept q s) : Kept q (rdEmit s core c) := by
  unfold rdEmit
  extract_lets +onlyGivenNames x614
  clear_value x614
  extract_lets +onlyGivenNames x616
  clear_value x616
  extract_lets +onlyGivenNames x618
  clear_value x618
  extract_lets +onlyGivenNames x620
  clear_value x620
  extract_lets +onlyGivenNames x622
  clear_value x622
  extract_lets +onlyGivenNames x624
  clear_value x624
  extract_lets +onlyGivenNames x626
  clear_value x626
  extract_lets +onlyGivenNames x628
  clear_value x628
  extract_lets +onlyGivenNames x630
  have h631 : Kept q x630 := by
    unfold x630
    apply setNc_kept
    apply spend_kept
    exact h_s
  clear_value x630
  refine kept_ite (P := Kept q) ?_ ?_
  · extract_lets +onlyGivenNames x632
    clear_value x632
    refine kept_ite (P := Kept q) ?_ ?_
    · apply putRedReg_kept
      exact h631
    · refine kept_ite (P := Kept q) ?_ ?_
      · exact h631
      · extract_lets +onlyGivenNames x634
        clear_value x634
        apply setNc_kept
        exact h631
  · refine kept_ite (P := Kept q) ?_ ?_
    · split
      · rename_i z636 z637 z638 z639
        have h640 := kept_eq (P := KSnd q) z639 (by
          apply takeFor_kept
          exact h631)
        extract_lets +onlyGivenNames x641
        clear_value x641
        extract_lets +onlyGivenNames x643
        clear_value x643
        extract_lets +onlyGivenNames x645
        clear_value x645
        extract_lets +onlyGivenNames x647
        have h648 : Kept q x647 := by
          unfold x647
          refine kept_foldl ?_ ?_
          · intro v649 v650 v651
            apply putRedReg_kept
            exact v651
          · exact h640
        clear_value x647
        apply countNum_kept
        exact h648
    · refine kept_ite (P := Kept q) ?_ ?_
      · apply countNum_kept
        exact h631
      · split
        · rename_i z652 z653 z654 z655
          have h656 := kept_eq (P := KSnd q) z655 (by
            apply takeFor_kept
            exact h631)
          extract_lets +onlyGivenNames x657
          clear_value x657
          extract_lets +onlyGivenNames x659
          clear_value x659
          apply countNum_kept
          apply setNc_kept
          exact h656

theorem execReduceTile_kept {q : List Instr} (who : AccRead) (s : State) (h_s : Kept q s) : KOut q (execReduceTile who s) := by
  unfold execReduceTile
  apply kept_next
  refine kept_ite (P := Kept q) ?_ ?_
  · exact h_s
  · extract_lets +onlyGivenNames x661
    have h662 : Kept q x661 := by
      unfold x661
      apply setNc_kept
      exact h_s
    clear_value x661
    extract_lets +onlyGivenNames x663
    clear_value x663
    split
    · rename_i z665 z666 z667 z668 z669 z670 z671
      extract_lets +onlyGivenNames x672
      have h673 : (∀ y674 y675, Kept q (x672 y674 y675)) := by
        unfold x672
        intro v676 v677
        apply consumeFault_kept
        exact h662
      clear_value x672
      refine kept_ite (P := Kept q) ?_ ?_
      · exact h662
      · refine kept_ite (P := Kept q) ?_ ?_
        · exact h662
        · split
          · rename_i z678 z679 z680 z681
            apply h673
          · rename_i z682 z683
            split
            · rename_i z684 z685 z686
              apply h673
            · rename_i z687 z688
              extract_lets +onlyGivenNames x689
              clear_value x689
              extract_lets +onlyGivenNames x691
              have h692 : Kept q x691 := by
                unfold x691
                apply addDiv_kept
                apply spend_kept
                exact h662
              clear_value x691
              extract_lets +onlyGivenNames x693
              have h694 : Kept q x693 := by
                unfold x693
                apply setNc_kept
                exact h692
              clear_value x693
              extract_lets +onlyGivenNames x695
              have h696 : Kept q x695 := by
                unfold x695
                refine kept_ite (P := Kept q) ?_ ?_
                · apply rdEmit_kept
                  exact h694
                · exact h694
              clear_value x695
              extract_lets +onlyGivenNames x697
              have h698 : Kept q x697 := by
                unfold x697
                apply stationTook_kept
                exact h696
              clear_value x697
              apply setNc_kept
              exact h698
    · rename_i z699 z700 z701
      exact h662

theorem rdClose_kept {q : List Instr} (s : State) (core : Nat) (h_s : Kept q s) : Kept q (rdClose s core) := by
  unfold rdClose
  split
  · rename_i z1355 z1356
    exact h_s
  · rename_i z1357 z1358 z1359 z1360 z1361
    extract_lets +onlyGivenNames x1362
    clear_value x1362
    extract_lets +onlyGivenNames x1364
    have h1365 : Kept q x1364 := by
      unfold x1364
      refine kept_ite (P := Kept q) ?_ ?_
      · exact h_s
      · apply rdEmit_kept
        exact h_s
    clear_value x1364
    extract_lets +onlyGivenNames x1366
    clear_value x1366
    apply setNc_kept
    exact h1365

theorem rdTake_kept {q : List Instr} (s : State) (core : Nat) (ci : ClassIns) (h_s : Kept q s) : KFst q (rdTake s core ci) := by
  unfold rdTake
  extract_lets +onlyGivenNames x1368
  have h1369 : Kept q x1368 := by
    unfold x1368
    apply setNc_kept
    exact h_s
  clear_value x1368
  extract_lets +onlyGivenNames x1370
  clear_value x1370
  extract_lets +onlyGivenNames x1372
  clear_value x1372
  refine kept_ite (P := KFst q) ?_ ?_
  · exact h1369
  · extract_lets +onlyGivenNames x1374
    have h1375 : Kept q x1374 := by
      unfold x1374
      apply rdClose_kept
      exact h1369
    clear_value x1374
    refine kept_ite (P := KFst q) ?_ ?_
    · exact h1375
    · extract_lets +onlyGivenNames x1376
      clear_value x1376
      extract_lets +onlyGivenNames x1378
      clear_value x1378
      refine kept_ite (P := KFst q) ?_ ?_
      · exact h1375
      · extract_lets +onlyGivenNames x1380
        clear_value x1380
        apply kept_pair
        apply setNc_kept
        exact h1375

theorem execClassInstructionAtStation_kept {q : List Instr} (core station : ℕ) (s : State) (h_s : Kept q s) : KOut q (execClassInstructionAtStation core station s) := by
  unfold execClassInstructionAtStation
  apply kept_next
  refine kept_ite (P := Kept q) ?_ ?_
  · exact h_s
  · extract_lets +onlyGivenNames x471
    clear_value x471
    split
    · rename_i z473
      split
      · rename_i z474 z475
        exact h_s
      · rename_i z476 z477 z478 z479
        extract_lets +onlyGivenNames x480
        clear_value x480
        apply setNc_kept
        exact h_s
    · rename_i z482
      split
      · rename_i z483 z484
        exact h_s
      · rename_i z485 z486 z487 z488
        extract_lets +onlyGivenNames x489
        clear_value x489
        apply setNc_kept
        exact h_s
    · rename_i z491
      split
      · rename_i z492 z493
        exact h_s
      · rename_i z494 z495 z496 z497
        split
        · rename_i z498 z499
          have h500 := kept_eq (P := KTook q) z499 (by
            apply ewTake_kept
            exact h_s)
          exact h_s
        · rename_i z502 z503 z504
          have h505 := kept_eq (P := KTook q) z504 (by
            apply ewTake_kept
            exact h_s)
          apply setNc_kept
          have h507 : Kept q _ := h505
          exact h507
        · rename_i z508 z509 z510 z511 z512
          have h513 := kept_eq (P := KTook q) z512 (by
            apply ewTake_kept
            exact h_s)
          apply streamFault_kept
          have h515 : Kept q _ := h513
          exact h515
    · rename_i z516
      split
      · rename_i z517 z518
        exact h_s
      · rename_i z519 z520 z521 z522
        extract_lets +onlyGivenNames x523
        have h524 : KFst q x523 := by
          unfold x523
          apply rdTake_kept
          exact h_s
        clear_value x523
        refine kept_ite (P := Kept q) ?_ ?_
        · apply setNc_kept
          exact h524
        · exact h524
    · rename_i z525 z526 z527 z528 z529
      exact h_s

theorem execRduRreg_kept {q : List Instr} (t : Tid) (o : Opnds) (s : State) (h_s : Kept q s) : KOut q (execRduRreg t o s) := by
  unfold execRduRreg
  apply insnW_kept
  · exact h_s
  · intro v732 v733 v734
    extract_lets +onlyGivenNames x735
    clear_value x735
    extract_lets +onlyGivenNames x737
    clear_value x737
    refine kept_ite (P := KRes q) ?_ ?_
    · show Kept q _
      exact v734
    · extract_lets +onlyGivenNames x739
      clear_value x739
      extract_lets +onlyGivenNames x741
      have h742 : Kept q x741 := by
        unfold x741
        apply spend_kept
        exact v734
      clear_value x741
      show Kept q _
      apply putCounted_kept
      exact h742

end Sys2Proof.Machine
end

