-- ==== Sys2Proof/Laws/KeptLvu.lean ====
section
/-! SUPPORT. Every operation and meaning of the long-vector unit keeps the queue of commands and the canonical form of the stores. One lemma each: what its arguments keep, its answer keeps. -/

namespace Sys2Proof.Machine

theorem lvuStartWake_kept {q : List Instr} (s : State) (key : Nat) (h_s : Kept q s) : Kept q (lvuStartWake s key) := by
  unfold lvuStartWake
  extract_lets +onlyGivenNames x1447
  clear_value x1447
  extract_lets +onlyGivenNames x1449
  clear_value x1449
  extract_lets +onlyGivenNames x1451
  have h1452 : Kept q x1451 := by
    unfold x1451
    apply setTh_kept
    exact h_s
  clear_value x1451
  refine kept_ite (P := Kept q) ?_ ?_
  · exact h1452
  · extract_lets +onlyGivenNames x1453
    clear_value x1453
    extract_lets +onlyGivenNames x1455
    have h1456 : Kept q x1455 := by
      unfold x1455
      apply wr_kept
      exact h1452
    clear_value x1455
    refine kept_mk (s := x1455) ?_
    exact h1456

theorem lvuRetire_kept {q : List Instr} (s : State) (core : Nat) (h_s : Kept q s) : Kept q (lvuRetire s core) := by
  unfold lvuRetire
  extract_lets +onlyGivenNames x1457
  clear_value x1457
  refine kept_ite (P := Kept q) ?_ ?_
  · exact h_s
  · refine kept_mk (s := s) ?_
    exact h_s

theorem lvCharge_kept {q : List Instr} (s : State) (core : ℕ) (t : Thread) (u : LvUnit) (h_s : Kept q s) : Kept q (lvCharge s core t u) := by
  unfold lvCharge
  extract_lets +onlyGivenNames x743
  clear_value x743
  split
  · rename_i z745
    exact h_s
  · rename_i z746 z747
    apply addDiv_kept
    exact h_s
  · rename_i z748 z749
    apply addDiv_kept
    exact h_s
  · rename_i z750 z751
    apply addDiv_kept
    exact h_s
  · rename_i z752
    apply addDiv_kept
    exact h_s
  · rename_i z753
    exact h_s

theorem lvOp_kept {q : List Instr} (t : Tid) (o : Opnds) (shape : RShape) (types : List ℕ) (arith : Bool) (u : LvUnit) (ok : Bool) (pre : Thread → Bool) (eff : ℕ → State → Res) (s : State) (h_eff : (∀ y754 y755, Kept q y755 → KRes q (eff y754 y755))) (h_s : Kept q s) : KOut q (lvOp t o shape types arith u ok pre eff s) := by
  unfold lvOp
  apply insnW_kept
  · exact h_s
  · intro v756 v757 v758
    extract_lets +onlyGivenNames x759
    clear_value x759
    extract_lets +onlyGivenNames x761
    have h762 : (∀ y763, Kept q y763 → KRes q (x761 y763)) := by
      unfold x761
      intro v764 v765
      show Kept q _
      apply lvuRetire_kept
      apply setTh_kept
      exact v765
    clear_value x761
    refine kept_ite (P := KRes q) ?_ ?_
    · show Kept q _
      exact v758
    · refine kept_ite (P := KRes q) ?_ ?_
      · show Kept q _
        exact v758
      · refine kept_ite (P := KRes q) ?_ ?_
        · apply h762
          refine kept_ite (P := Kept q) ?_ ?_
          · apply putCounted_kept
            exact v758
          · exact v758
        · refine kept_ite (P := KRes q) ?_ ?_
          · show Kept q _
            apply lvuStartWake_kept
            exact v758
          · split
            · rename_i z766 z767 z768
              have h769 := kept_eq (P := KRes q) z768 (by
                apply h_eff
                exact v758)
              apply h762
              apply lvCharge_kept
              have h771 : Kept q _ := h769
              exact h771
            · rename_i z772 z773
              apply h_eff
              exact v758

theorem execSetvl_kept {q : List Instr} (t : Tid) (o : Opnds) (s : State) (h_s : Kept q s) : KOut q (execSetvl t o s) := by
  unfold execSetvl
  apply insnW_kept
  · exact h_s
  · intro v774 v775 v776
    extract_lets +onlyGivenNames x777
    clear_value x777
    show Kept q _
    apply lvuRetire_kept
    apply setTh_kept
    exact v776

theorem execSetvlr_kept {q : List Instr} (t : Tid) (o : Opnds) (s : State) (h_s : Kept q s) : KOut q (execSetvlr t o s) := by
  unfold execSetvlr
  apply insn_kept
  · exact h_s
  · intro v281 v282 v283
    extract_lets +onlyGivenNames x284
    clear_value x284
    extract_lets +onlyGivenNames x286
    clear_value x286
    refine kept_ite (P := KRes q) ?_ ?_
    · show Kept q _
      exact v283
    · show Kept q _
      apply lvuRetire_kept
      apply setTh_kept
      exact v283

theorem lvFp_kept {q : List Instr} (t : Tid) (o : Opnds) (occ : ℕ) (useB useC rounds : Bool) (f : Fp → Fp → Fp → Fp) (s : State) (h_s : Kept q s) : KOut q (lvFp t o occ useB useC rounds f s) := by
  unfold lvFp
  apply lvOp_kept
  · intro v779 v780 v781
    extract_lets +onlyGivenNames x782
    clear_value x782
    extract_lets +onlyGivenNames x784
    clear_value x784
    extract_lets +onlyGivenNames x786
    clear_value x786
    extract_lets +onlyGivenNames x788
    clear_value x788
    split
    · rename_i z790 z791 z792 z793
      have h794 := kept_eq (P := KSnd q) z793 (by
        apply takeFor_kept
        exact v781)
      extract_lets +onlyGivenNames x795
      clear_value x795
      extract_lets +onlyGivenNames x797
      clear_value x797
      show Kept q _
      apply putCounted_kept
      exact h794
  · exact h_s

theorem lvCmp_kept {q : List Instr} (t : Tid) (o : Opnds) (types : List Nat) (f : Nat → Nat → Nat → Bool) (s : State) (h_s : Kept q s) : KOut q (lvCmp t o types f s) := by
  unfold lvCmp
  apply lvOp_kept
  · intro v308 v309 v310
    extract_lets +onlyGivenNames x311
    clear_value x311
    extract_lets +onlyGivenNames x313
    clear_value x313
    extract_lets +onlyGivenNames x315
    clear_value x315
    extract_lets +onlyGivenNames x317
    clear_value x317
    extract_lets +onlyGivenNames x319
    clear_value x319
    show Kept q _
    apply putCounted_kept
    exact v310
  · exact h_s

theorem lvInt_kept {q : List Instr} (t : Tid) (o : Opnds) (types : List Nat) (fx : Bool) (f : Nat → Int → Int → Nat → Nat × Nat) (s : State) (h_s : Kept q s) : KOut q (lvInt t o types fx f s) := by
  unfold lvInt
  apply lvOp_kept
  · intro v321 v322 v323
    extract_lets +onlyGivenNames x324
    clear_value x324
    extract_lets +onlyGivenNames x326
    clear_value x326
    extract_lets +onlyGivenNames x328
    clear_value x328
    extract_lets +onlyGivenNames x330
    clear_value x330
    show Kept q _
    apply putCounted_kept
    exact v323
  · exact h_s

theorem execVcvt_kept {q : List Instr} (t : Tid) (o : Opnds) (s : State) (h_s : Kept q s) : KOut q (execVcvt t o s) := by
  unfold execVcvt
  extract_lets +onlyGivenNames x332
  clear_value x332
  apply lvOp_kept
  · intro v334 v335 v336
    extract_lets +onlyGivenNames x337
    clear_value x337
    extract_lets +onlyGivenNames x339
    clear_value x339
    refine kept_ite (P := KRes q) ?_ ?_
    · show Kept q _
      exact v336
    · extract_lets +onlyGivenNames x341
      clear_value x341
      split
      · rename_i z343 z344 z345 z346
        have h347 := kept_eq (P := KSnd q) z346 (by
          apply takeFor_kept
          exact v336)
        extract_lets +onlyGivenNames x348
        clear_value x348
        show Kept q _
        apply putCounted_kept
        exact h347
  · exact h_s

theorem execVnshr_kept {q : List Instr} (t : Tid) (o : Opnds) (s : State) (h_s : Kept q s) : KOut q (execVnshr t o s) := by
  unfold execVnshr
  extract_lets +onlyGivenNames x350
  clear_value x350
  apply lvOp_kept
  · intro v352 v353 v354
    extract_lets +onlyGivenNames x355
    clear_value x355
    extract_lets +onlyGivenNames x357
    clear_value x357
    extract_lets +onlyGivenNames x359
    clear_value x359
    refine kept_ite (P := KRes q) ?_ ?_
    · show Kept q _
      exact v354
    · extract_lets +onlyGivenNames x361
      clear_value x361
      show Kept q _
      apply putCounted_kept
      exact v354
  · exact h_s

theorem dotImage_kept {q : List Instr} (s : State) (el : Option AccEl) (h_s : Kept q s) : KSnd q (dotImage s el) := by
  unfold dotImage
  split
  · rename_i z1564 z1565 z1566 z1567
    have h1568 := kept_eq (P := KSnd q) z1567 (by
      apply drawBits_kept
      exact h_s)
    extract_lets +onlyGivenNames x1569
    clear_value x1569
    extract_lets +onlyGivenNames x1571
    clear_value x1571
    apply kept_pair'
    exact h1568

theorem execVdot_kept {q : List Instr} (t : Tid) (o : Opnds) (s : State) (h_s : Kept q s) : KOut q (execVdot t o s) := by
  unfold execVdot
  apply lvOp_kept
  · intro v363 v364 v365
    extract_lets +onlyGivenNames x366
    clear_value x366
    extract_lets +onlyGivenNames x368
    clear_value x368
    extract_lets +onlyGivenNames x370
    clear_value x370
    split
    · rename_i z372 z373 z374 z375
      have h376 := kept_eq (P := KSnd q) z375 (by
        apply dotImage_kept
        exact v365)
      show Kept q _
      apply putCounted_kept
      exact h376
  · exact h_s

theorem execVaccadd_kept {q : List Instr} (t : Tid) (o : Opnds) (s : State) (h_s : Kept q s) : KOut q (execVaccadd t o s) := by
  unfold execVaccadd
  apply lvOp_kept
  · intro v377 v378 v379
    extract_lets +onlyGivenNames x380
    clear_value x380
    extract_lets +onlyGivenNames x382
    clear_value x382
    split
    · rename_i z384 z385 z386 z387
      have h388 := kept_eq (P := KSnd q) z387 (by
        apply dotImage_kept
        exact v379)
      show Kept q _
      apply putCounted_kept
      exact h388
  · exact h_s

theorem execVdotr_kept {q : List Instr} (t : Tid) (o : Opnds) (s : State) (h_s : Kept q s) : KOut q (execVdotr t o s) := by
  unfold execVdotr
  apply lvOp_kept
  · intro v389 v390 v391
    extract_lets +onlyGivenNames x392
    clear_value x392
    split
    · rename_i z394 z395 z396 z397
      have h398 := kept_eq (P := KSnd q) z397 (by
        apply drawBits_kept
        exact v391)
      split
      · rename_i z399 z400 z401
        show Kept q _
        apply putCounted_kept
        exact h398
      · rename_i z402 z403
        show Kept q _
        apply putCounted_kept
        exact h398
  · exact h_s

theorem lvRed_kept {q : List Instr} (t : Tid) (o : Opnds) (fp : List Fp → State → Fp × Nat) (int : Nat → List Int → Int) (s : State) (h_s : Kept q s) : KOut q (lvRed t o fp int s) := by
  unfold lvRed
  apply lvOp_kept
  · intro v404 v405 v406
    extract_lets +onlyGivenNames x407
    clear_value x407
    extract_lets +onlyGivenNames x409
    clear_value x409
    extract_lets +onlyGivenNames x411
    clear_value x411
    refine kept_ite (P := KRes q) ?_ ?_
    · extract_lets +onlyGivenNames x413
      clear_value x413
      show Kept q _
      apply putCounted_kept
      apply spend_kept
      exact v406
    · show Kept q _
      apply putCounted_kept
      exact v406
  · exact h_s

theorem execVredsum_kept {q : List Instr} (t : Tid) (o : Opnds) (s : State) (h_s : Kept q s) : KOut q (execVredsum t o s) := by
  unfold execVredsum
  apply lvRed_kept
  exact h_s

theorem execVredmax_kept {q : List Instr} (t : Tid) (o : Opnds) (s : State) (h_s : Kept q s) : KOut q (execVredmax t o s) := by
  unfold execVredmax
  apply lvRed_kept
  exact h_s

theorem execVredmin_kept {q : List Instr} (t : Tid) (o : Opnds) (s : State) (h_s : Kept q s) : KOut q (execVredmin t o s) := by
  unfold execVredmin
  apply lvRed_kept
  exact h_s

theorem execVpcnt_kept {q : List Instr} (t : Tid) (o : Opnds) (s : State) (h_s : Kept q s) : KOut q (execVpcnt t o s) := by
  unfold execVpcnt
  apply lvOp_kept
  · intro v415 v416 v417
    extract_lets +onlyGivenNames x418
    clear_value x418
    show Kept q _
    apply setTh_kept
    exact v417
  · exact h_s

theorem execVpfirst_kept {q : List Instr} (t : Tid) (o : Opnds) (s : State) (h_s : Kept q s) : KOut q (execVpfirst t o s) := by
  unfold execVpfirst
  apply lvOp_kept
  · intro v420 v421 v422
    extract_lets +onlyGivenNames x423
    clear_value x423
    extract_lets +onlyGivenNames x425
    clear_value x425
    show Kept q _
    apply setTh_kept
    exact v422
  · exact h_s

theorem execVmov_kept {q : List Instr} (t : Tid) (o : Opnds) (s : State) (h_s : Kept q s) : KOut q (execVmov t o s) := by
  unfold execVmov
  extract_lets +onlyGivenNames x427
  clear_value x427
  apply lvOp_kept
  · intro v429 v430 v431
    extract_lets +onlyGivenNames x432
    clear_value x432
    extract_lets +onlyGivenNames x434
    clear_value x434
    show Kept q _
    apply setTh_kept
    exact v431
  · exact h_s

theorem execViota_kept {q : List Instr} (t : Tid) (o : Opnds) (s : State) (h_s : Kept q s) : KOut q (execViota t o s) := by
  unfold execViota
  apply lvOp_kept
  · intro v436 v437 v438
    show Kept q _
    apply setTh_kept
    exact v438
  · exact h_s

theorem lvLoadEl_kept {q : List Instr} (s : State) (src : Src) (size : ℕ) (a3 : List ℕ) (h_s : Kept q s) : KFst q (lvLoadEl s src size a3) := by
  induction a3 generalizing s src size
  · rw [lvLoadEl]
    exact h_s
  · rename_i z530 z531 z532
    rw [lvLoadEl]
    refine kept_ite (P := KFst q) ?_ ?_
    · exact h_s
    · split
      · rename_i z533 z534 z535 z536
        have h537 := kept_eq (P := KFst q) z536 (by
          apply vaUse_kept
          exact h_s)
        split
        · rename_i z538 z539 z540 z541
          have h542 := kept_eq (P := KFst q) z541 (by
            apply z532
            exact h537)
          exact h542
        · rename_i z543 z544 z545 z546
          have h547 := kept_eq (P := KFst q) z546 (by
            apply z532
            exact h537)
          exact h547
        · rename_i z548 z549 z550
          have h551 := kept_eq (P := KFst q) z550 (by
            apply z532
            exact h537)
          exact h551
      · rename_i z552 z553 z554 z555
        have h556 := kept_eq (P := KFst q) z555 (by
          apply vaUse_kept
          exact h_s)
        exact h556
      · rename_i z557 z558 z559
        have h560 := kept_eq (P := KFst q) z559 (by
          apply vaUse_kept
          exact h_s)
        exact h560

theorem lvLoadRun_kept {q : List Instr} (s : State) (src : Src) (size : ℕ) (addrs : ℕ → List ℕ) (a4 : List ℕ) (h_s : Kept q s) : KFst q (lvLoadRun s src size addrs a4) := by
  induction a4 generalizing s src size addrs
  · rw [lvLoadRun]
    exact h_s
  · rename_i z561 z562 z563
    rw [lvLoadRun]
    split
    · rename_i z564 z565 z566 z567
      have h568 := kept_eq (P := KFst q) z567 (by
        apply lvLoadEl_kept
        exact h_s)
      extract_lets +onlyGivenNames x569
      have h570 : KFst q x569 := by
        unfold x569
        apply z563
        exact h568
      clear_value x569
      exact h570
    · rename_i z571 z572 z573 z574
      have h575 := kept_eq (P := KFst q) z574 (by
        apply lvLoadEl_kept
        exact h_s)
      exact h575
    · rename_i z576 z577 z578
      have h579 := kept_eq (P := KFst q) z578 (by
        apply lvLoadEl_kept
        exact h_s)
      exact h579

theorem lvLoad_kept {q : List Instr} (t : Tid) (o : Opnds) (shape : RShape) (u : LvUnit) (ok : Bool) (pre : Thread → Bool) (ff : Bool) (addrs : Thread → ℕ → List ℕ) (s : State) (h_s : Kept q s) : KOut q (lvLoad t o shape u ok pre ff addrs s) := by
  unfold lvLoad
  extract_lets +onlyGivenNames x580
  clear_value x580
  apply lvOp_kept
  · intro v582 v583 v584
    extract_lets +onlyGivenNames x585
    clear_value x585
    extract_lets +onlyGivenNames x587
    clear_value x587
    extract_lets +onlyGivenNames x589
    clear_value x589
    split
    · rename_i z591 z592 z593 z594 z595
      have h596 := kept_eq (P := KFst q) z595 (by
        apply lvLoadRun_kept
        exact v584)
      extract_lets +onlyGivenNames x597
      have h598 : (∀ y599, Kept q y599 → Kept q (x597 y599)) := by
        unfold x597
        intro v600 v601
        apply setTh_kept
        exact v601
      clear_value x597
      split
      · rename_i z602
        show Kept q _
        apply h598
        exact h596
      · rename_i z603
        show Kept q _
        exact v584
      · rename_i z604 z605 z606
        refine kept_ite (P := KRes q) ?_ ?_
        · show Kept q _
          extract_lets +onlyGivenNames x607
          have h608 : Kept q x607 := by
            unfold x607
            apply h598
            exact h596
          clear_value x607
          apply setTh_kept
          exact h608
        · show Kept q _
          apply h598
          exact h596
  · exact h_s

theorem lvCheckEl_kept {q : List Instr} (s : State) (ctx size : ℕ) (a3 : List ℕ) (h_s : Kept q s) : KFst q (lvCheckEl s ctx size a3) := by
  induction a3 generalizing s ctx size
  · rw [lvCheckEl]
    exact h_s
  · rename_i z832 z833 z834
    rw [lvCheckEl]
    refine kept_ite (P := KFst q) ?_ ?_
    · exact h_s
    · split
      · rename_i z835 z836 z837 z838
        have h839 := kept_eq (P := KFst q) z838 (by
          apply vaCheck_kept
          exact h_s)
        split
        · rename_i z840 z841 z842 z843
          have h844 := kept_eq (P := KFst q) z843 (by
            apply z834
            exact h839)
          exact h844
        · rename_i z845 z846 z847 z848
          have h849 := kept_eq (P := KFst q) z848 (by
            apply z834
            exact h839)
          exact h849
        · rename_i z850 z851 z852
          have h853 := kept_eq (P := KFst q) z852 (by
            apply z834
            exact h839)
          exact h853
      · rename_i z854 z855 z856 z857
        have h858 := kept_eq (P := KFst q) z857 (by
          apply vaCheck_kept
          exact h_s)
        exact h858
      · rename_i z859 z860 z861
        have h862 := kept_eq (P := KFst q) z861 (by
          apply vaCheck_kept
          exact h_s)
        exact h862

theorem lvStoreRun_kept {q : List Instr} (s : State) (src : Src) (size : ℕ) (addrs codes : ℕ → List ℕ) (a5 : List ℕ) (h_s : Kept q s) : KFst q (lvStoreRun s src size addrs codes a5) := by
  induction a5 generalizing s src size addrs codes
  · rw [lvStoreRun]
    exact h_s
  · rename_i z609 z610 z611
    rw [lvStoreRun]
    split
    · rename_i z612 z613 z614 z615
      have h616 := kept_eq (P := KFst q) z615 (by
        apply lvCheckEl_kept
        exact h_s)
      extract_lets +onlyGivenNames x617
      have h618 : Kept q x617 := by
        unfold x617
        refine kept_foldl ?_ ?_
        · intro v619 v620 v621
          apply physWrite_kept
          exact v621
        · exact h616
      clear_value x617
      apply z611
      exact h618
    · rename_i z622 z623 z624 z625
      have h626 := kept_eq (P := KFst q) z625 (by
        apply lvCheckEl_kept
        exact h_s)
      exact h626
    · rename_i z627 z628 z629
      have h630 := kept_eq (P := KFst q) z629 (by
        apply lvCheckEl_kept
        exact h_s)
      exact h630

theorem lvStore_kept {q : List Instr} (t : Tid) (o : Opnds) (shape : RShape) (u : LvUnit) (ok : Bool) (pre : Thread → Bool) (addrs : Thread → ℕ → List ℕ) (s : State) (h_s : Kept q s) : KOut q (lvStore t o shape u ok pre addrs s) := by
  unfold lvStore
  extract_lets +onlyGivenNames x631
  clear_value x631
  apply lvOp_kept
  · intro v633 v634 v635
    extract_lets +onlyGivenNames x636
    clear_value x636
    extract_lets +onlyGivenNames x638
    clear_value x638
    extract_lets +onlyGivenNames x640
    clear_value x640
    split
    · rename_i z642 z643 z644 z645
      have h646 := kept_eq (P := KFst q) z645 (by
        apply lvStoreRun_kept
        exact v635)
      split
      · rename_i z647
        show Kept q _
        exact h646
      · rename_i z648
        show Kept q _
        exact v635
      · rename_i z649 z650 z651
        show Kept q _
        exact h646
  · exact h_s

theorem execVld_kept {q : List Instr} (t : Tid) (o : Opnds) (s : State) (h_s : Kept q s) : KOut q (execVld t o s) := by
  unfold execVld
  apply lvLoad_kept
  exact h_s

theorem execVldff_kept {q : List Instr} (t : Tid) (o : Opnds) (s : State) (h_s : Kept q s) : KOut q (execVldff t o s) := by
  unfold execVldff
  apply lvLoad_kept
  exact h_s

theorem execVlds_kept {q : List Instr} (t : Tid) (o : Opnds) (s : State) (h_s : Kept q s) : KOut q (execVlds t o s) := by
  unfold execVlds
  apply lvLoad_kept
  exact h_s

theorem execVldx_kept {q : List Instr} (t : Tid) (o : Opnds) (s : State) (h_s : Kept q s) : KOut q (execVldx t o s) := by
  unfold execVldx
  apply lvLoad_kept
  exact h_s

theorem execVldxff_kept {q : List Instr} (t : Tid) (o : Opnds) (s : State) (h_s : Kept q s) : KOut q (execVldxff t o s) := by
  unfold execVldxff
  apply lvLoad_kept
  exact h_s

theorem execVldseg_kept {q : List Instr} (t : Tid) (o : Opnds) (s : State) (h_s : Kept q s) : KOut q (execVldseg t o s) := by
  unfold execVldseg
  apply lvLoad_kept
  exact h_s

theorem execVst_kept {q : List Instr} (t : Tid) (o : Opnds) (s : State) (h_s : Kept q s) : KOut q (execVst t o s) := by
  unfold execVst
  apply lvStore_kept
  exact h_s

theorem execVsts_kept {q : List Instr} (t : Tid) (o : Opnds) (s : State) (h_s : Kept q s) : KOut q (execVsts t o s) := by
  unfold execVsts
  apply lvStore_kept
  exact h_s

theorem execVstx_kept {q : List Instr} (t : Tid) (o : Opnds) (s : State) (h_s : Kept q s) : KOut q (execVstx t o s) := by
  unfold execVstx
  apply lvStore_kept
  exact h_s

theorem execVstseg_kept {q : List Instr} (t : Tid) (o : Opnds) (s : State) (h_s : Kept q s) : KOut q (execVstseg t o s) := by
  unfold execVstseg
  apply lvStore_kept
  exact h_s

theorem execVfadd_kept {q : List Instr} (t : Tid) (o : Opnds) (s : State) (h_s : Kept q s) : KOut q (execVfadd t o s) := by
  unfold execVfadd
  apply lvFp_kept
  exact h_s

theorem execVfsub_kept {q : List Instr} (t : Tid) (o : Opnds) (s : State) (h_s : Kept q s) : KOut q (execVfsub t o s) := by
  unfold execVfsub
  apply lvFp_kept
  exact h_s

theorem execVfmul_kept {q : List Instr} (t : Tid) (o : Opnds) (s : State) (h_s : Kept q s) : KOut q (execVfmul t o s) := by
  unfold execVfmul
  apply lvFp_kept
  exact h_s

theorem execVfdiv_kept {q : List Instr} (t : Tid) (o : Opnds) (s : State) (h_s : Kept q s) : KOut q (execVfdiv t o s) := by
  unfold execVfdiv
  apply lvFp_kept
  exact h_s

theorem execVfsqrt_kept {q : List Instr} (t : Tid) (o : Opnds) (s : State) (h_s : Kept q s) : KOut q (execVfsqrt t o s) := by
  unfold execVfsqrt
  apply lvFp_kept
  exact h_s

theorem execVfma_kept {q : List Instr} (t : Tid) (o : Opnds) (s : State) (h_s : Kept q s) : KOut q (execVfma t o s) := by
  unfold execVfma
  apply lvFp_kept
  exact h_s

theorem execVfmin_kept {q : List Instr} (t : Tid) (o : Opnds) (s : State) (h_s : Kept q s) : KOut q (execVfmin t o s) := by
  unfold execVfmin
  apply lvFp_kept
  exact h_s

theorem execVfmax_kept {q : List Instr} (t : Tid) (o : Opnds) (s : State) (h_s : Kept q s) : KOut q (execVfmax t o s) := by
  unfold execVfmax
  apply lvFp_kept
  exact h_s

theorem execVfcmpeq_kept {q : List Instr} (t : Tid) (o : Opnds) (s : State) (h_s : Kept q s) : KOut q (execVfcmpeq t o s) := by
  unfold execVfcmpeq
  apply lvCmp_kept
  exact h_s

theorem execVfcmplt_kept {q : List Instr} (t : Tid) (o : Opnds) (s : State) (h_s : Kept q s) : KOut q (execVfcmplt t o s) := by
  unfold execVfcmplt
  apply lvCmp_kept
  exact h_s

theorem execVfcmple_kept {q : List Instr} (t : Tid) (o : Opnds) (s : State) (h_s : Kept q s) : KOut q (execVfcmple t o s) := by
  unfold execVfcmple
  apply lvCmp_kept
  exact h_s

theorem execVcmpeq_kept {q : List Instr} (t : Tid) (o : Opnds) (s : State) (h_s : Kept q s) : KOut q (execVcmpeq t o s) := by
  unfold execVcmpeq
  apply lvCmp_kept
  exact h_s

theorem execVcmplt_kept {q : List Instr} (t : Tid) (o : Opnds) (s : State) (h_s : Kept q s) : KOut q (execVcmplt t o s) := by
  unfold execVcmplt
  apply lvCmp_kept
  exact h_s

theorem execVadd_kept {q : List Instr} (t : Tid) (o : Opnds) (s : State) (h_s : Kept q s) : KOut q (execVadd t o s) := by
  unfold execVadd
  apply lvInt_kept
  exact h_s

theorem execVsub_kept {q : List Instr} (t : Tid) (o : Opnds) (s : State) (h_s : Kept q s) : KOut q (execVsub t o s) := by
  unfold execVsub
  apply lvInt_kept
  exact h_s

theorem execVsadd_kept {q : List Instr} (t : Tid) (o : Opnds) (s : State) (h_s : Kept q s) : KOut q (execVsadd t o s) := by
  unfold execVsadd
  apply lvInt_kept
  exact h_s

theorem execVssub_kept {q : List Instr} (t : Tid) (o : Opnds) (s : State) (h_s : Kept q s) : KOut q (execVssub t o s) := by
  unfold execVssub
  apply lvInt_kept
  exact h_s

theorem execVaadd_kept {q : List Instr} (t : Tid) (o : Opnds) (s : State) (h_s : Kept q s) : KOut q (execVaadd t o s) := by
  unfold execVaadd
  apply lvInt_kept
  exact h_s

theorem execVmul_kept {q : List Instr} (t : Tid) (o : Opnds) (s : State) (h_s : Kept q s) : KOut q (execVmul t o s) := by
  unfold execVmul
  apply lvInt_kept
  exact h_s

theorem execVmulh_kept {q : List Instr} (t : Tid) (o : Opnds) (s : State) (h_s : Kept q s) : KOut q (execVmulh t o s) := by
  unfold execVmulh
  apply lvInt_kept
  exact h_s

theorem execVmulhq_kept {q : List Instr} (t : Tid) (o : Opnds) (s : State) (h_s : Kept q s) : KOut q (execVmulhq t o s) := by
  unfold execVmulhq
  apply lvInt_kept
  exact h_s

theorem execVmin_kept {q : List Instr} (t : Tid) (o : Opnds) (s : State) (h_s : Kept q s) : KOut q (execVmin t o s) := by
  unfold execVmin
  apply lvInt_kept
  exact h_s

theorem execVmax_kept {q : List Instr} (t : Tid) (o : Opnds) (s : State) (h_s : Kept q s) : KOut q (execVmax t o s) := by
  unfold execVmax
  apply lvInt_kept
  exact h_s

theorem execVand_kept {q : List Instr} (t : Tid) (o : Opnds) (s : State) (h_s : Kept q s) : KOut q (execVand t o s) := by
  unfold execVand
  apply lvInt_kept
  exact h_s

theorem execVor_kept {q : List Instr} (t : Tid) (o : Opnds) (s : State) (h_s : Kept q s) : KOut q (execVor t o s) := by
  unfold execVor
  apply lvInt_kept
  exact h_s

theorem execVxor_kept {q : List Instr} (t : Tid) (o : Opnds) (s : State) (h_s : Kept q s) : KOut q (execVxor t o s) := by
  unfold execVxor
  apply lvInt_kept
  exact h_s

theorem execVshl_kept {q : List Instr} (t : Tid) (o : Opnds) (s : State) (h_s : Kept q s) : KOut q (execVshl t o s) := by
  unfold execVshl
  apply lvInt_kept
  exact h_s

theorem execVsra_kept {q : List Instr} (t : Tid) (o : Opnds) (s : State) (h_s : Kept q s) : KOut q (execVsra t o s) := by
  unfold execVsra
  apply lvInt_kept
  exact h_s

theorem execLvuWakeDone_kept {q : List Instr} (core : ℕ) (s : State) (h_s : Kept q s) : KOut q (execLvuWakeDone core s) := by
  unfold execLvuWakeDone
  apply kept_next
  split
  · rename_i z892 z893
    exact h_s
  · rename_i z894 z895 z896
    refine kept_ite (P := Kept q) ?_ ?_
    · exact h_s
    · extract_lets +onlyGivenNames x897
      have h898 : Kept q x897 := by
        unfold x897
        apply wrf_kept
        refine kept_mk (s := s) ?_
        exact h_s
      clear_value x897
      extract_lets +onlyGivenNames x899
      have h900 : Kept q x899 := by
        unfold x899
        refine kept_foldl ?_ ?_
        · intro v901 v902 v903
          extract_lets +onlyGivenNames x904
          clear_value x904
          refine kept_ite (P := Kept q) ?_ ?_
          · apply setTh_kept
            exact v903
          · exact v903
        · exact h898
      clear_value x899
      apply lvuRetire_kept
      exact h900

theorem execLvuPowerDown_kept {q : List Instr} (core : Nat) (s : State) (h_s : Kept q s) : KOut q (execLvuPowerDown core s) := by
  unfold execLvuPowerDown
  extract_lets +onlyGivenNames x1796
  clear_value x1796
  apply kept_next
  split
  · rename_i z1798 z1799 z1800
    refine kept_ite (P := Kept q) ?_ ?_
    · apply wrf_kept
      exact h_s
    · exact h_s
  · rename_i z1801 z1802
    exact h_s

theorem execScoLvuPwrWrite_kept {q : List Instr} (core : Nat) (value : Word) (s : State) (h_s : Kept q s) : KOut q (execScoLvuPwrWrite core value s) := by
  unfold execScoLvuPwrWrite
  apply kept_next
  refine kept_ite (P := Kept q) ?_ ?_
  · extract_lets +onlyGivenNames x1803
    clear_value x1803
    extract_lets +onlyGivenNames x1805
    have h1806 : Kept q x1805 := by
      unfold x1805
      apply wrf_kept
      exact h_s
    clear_value x1805
    refine kept_ite (P := Kept q) ?_ ?_
    · refine kept_mk (s := x1805) ?_
      exact h1806
    · exact h1806
  · exact h_s

end Sys2Proof.Machine
end

