-- ==== Sys2Proof/Laws/KeptFabric.lean ====
section
/-! SUPPORT. Every operation and meaning of the fabric: requests, transfers, the router and replies keeps the queue of commands and the canonical form of the stores. One lemma each: what its arguments keep, its answer keeps. -/

namespace Sys2Proof.Machine

theorem takeSeq_kept {q : List Instr} (s : State) (eng : Nat) (h_s : Kept q s) : KSnd q (takeSeq s eng) := by
  unfold takeSeq
  extract_lets +onlyGivenNames x1807
  clear_value x1807
  apply kept_pair'
  refine kept_mk (s := s) ?_
  exact h_s

theorem xfault_kept {q : List Instr} (s : State) (ctx status cause cnt key line va : Nat) (h_s : Kept q s) : Kept q (xfault s ctx status cause cnt key line va) := by
  unfold xfault
  extract_lets +onlyGivenNames x1809
  clear_value x1809
  refine kept_ite (P := Kept q) ?_ ?_
  · apply wr_kept
    exact h_s
  · extract_lets +onlyGivenNames x1811
    clear_value x1811
    apply wr_kept
    apply wr_kept
    exact h_s

theorem putFault_kept {q : List Instr} (s : State) (t : PutTile) (status : Nat) (h_s : Kept q s) : Kept q (putFault s t status) := by
  unfold putFault
  extract_lets +onlyGivenNames x1813
  clear_value x1813
  extract_lets +onlyGivenNames x1815
  clear_value x1815
  extract_lets +onlyGivenNames x1817
  clear_value x1817
  extract_lets +onlyGivenNames x1819
  clear_value x1819
  extract_lets +onlyGivenNames x1821
  have h1822 : Kept q x1821 := by
    unfold x1821
    apply setNc_kept
    exact h_s
  clear_value x1821
  extract_lets +onlyGivenNames x1823
  have h1824 : Kept q x1823 := by
    unfold x1823
    refine kept_mk (s := x1821) ?_
    exact h1822
  clear_value x1823
  apply streamFault_kept
  exact h1824

theorem freePuts_kept {q : List Instr} (s : State) (core : Nat) (h_s : Kept q s) : Kept q (freePuts s core) := by
  unfold freePuts
  extract_lets +onlyGivenNames x1825
  clear_value x1825
  extract_lets +onlyGivenNames x1827
  clear_value x1827
  extract_lets +onlyGivenNames x1829
  clear_value x1829
  refine kept_ite (P := Kept q) ?_ ?_
  · apply setNc_kept
    exact h_s
  · exact h_s

theorem settlePuts_kept {q : List Instr} (s : State) (core a2 : Nat) (h_s : Kept q s) : Kept q (settlePuts s core a2) := by
  induction a2 generalizing s core
  · rw [settlePuts]
    apply freePuts_kept
    exact h_s
  · rename_i z1831 z1832
    rw [settlePuts]
    split
    · rename_i z1833 z1834
      apply freePuts_kept
      exact h_s
    · rename_i z1835 z1836 z1837
      extract_lets +onlyGivenNames x1838
      have h1839 : Kept q x1838 := by
        unfold x1838
        refine kept_mk (s := s) ?_
        exact h_s
      clear_value x1838
      split
      · rename_i z1840 z1841
        apply z1832
        apply countNum_kept
        apply arrive_kept
        exact h1839
      · rename_i z1842 z1843 z1844
        extract_lets +onlyGivenNames x1845
        clear_value x1845
        refine kept_ite (P := Kept q) ?_ ?_
        · refine kept_ite (P := Kept q) ?_ ?_
          · apply freePuts_kept
            exact h_s
          · apply z1832
            exact h1839
        · split
          · rename_i z1847 z1848
            apply freePuts_kept
            exact h_s
          · rename_i z1849 z1850
            apply freePuts_kept
            exact h_s
          · rename_i z1851 z1852
            apply z1832
            exact h1839
          · rename_i z1853 z1854 z1855 z1856
            apply putFault_kept
            exact h_s

theorem settle_kept {q : List Instr} (s : State) (key : Nat) (h_s : Kept q s) : Kept q (settle s key) := by
  unfold settle
  extract_lets +onlyGivenNames x1857
  clear_value x1857
  refine kept_foldl ?_ ?_
  · intro v1859 v1860 v1861
    extract_lets +onlyGivenNames x1862
    have h1863 : Kept q x1862 := by
      unfold x1862
      refine kept_mk (s := v1859) ?_
      exact v1861
    clear_value x1862
    split
    · rename_i z1864 z1865
      exact h1863
    · rename_i z1866 z1867 z1868 z1869
      extract_lets +onlyGivenNames x1870
      clear_value x1870
      refine kept_ite (P := Kept q) ?_ ?_
      · refine kept_ite (P := Kept q) ?_ ?_
        · exact v1861
        · exact h1863
      · split
        · rename_i z1872 z1873
          exact v1861
        · rename_i z1874 z1875
          exact v1861
        · rename_i z1876 z1877
          exact v1861
        · rename_i z1878 z1879
          exact h1863
        · rename_i z1880 z1881 z1882 z1883 z1884
          refine kept_ite (P := Kept q) ?_ ?_
          · apply insnFault_kept
            exact h1863
          · apply streamFault_kept
            exact h1863
  · apply settlePuts_kept
    exact h_s

theorem goOn_kept {q : List Instr} (s : State) (key : Nat) (h_s : Kept q s) : Kept q (goOn s key) := by
  unfold goOn
  refine kept_ite (P := Kept q) ?_ ?_
  · apply stopTh_kept
    exact h_s
  · apply settle_kept
    exact h_s

theorem modXfer_kept {q : List Instr} (s : State) (id : Nat) (f : Xfer → Xfer) (h_s : Kept q s) : Kept q (modXfer s id f) := by
  unfold modXfer
  refine kept_mk (s := s) ?_
  exact h_s

theorem atomicEnd_kept {q : List Instr} (s : State) (key gen d : Nat) (wide : Bool) (status v : Nat) (h_s : Kept q s) : Kept q (atomicEnd s key gen d wide status v) := by
  unfold atomicEnd
  extract_lets +onlyGivenNames x1885
  clear_value x1885
  refine kept_ite (P := Kept q) ?_ ?_
  · extract_lets +onlyGivenNames x1887
    clear_value x1887
    extract_lets +onlyGivenNames x1889
    clear_value x1889
    extract_lets +onlyGivenNames x1891
    clear_value x1891
    apply goOn_kept
    apply setTh_kept
    exact h_s
  · exact h_s

theorem reqMove_kept {q : List Instr} (s : State) (r : OutReq) (bytes : ℕ) (out : Bool) (h_s : Kept q s) : Kept q (reqMove s r bytes out) := by
  unfold reqMove
  apply moveMsg_kept
  exact h_s

theorem sendReq_kept {q : List Instr} (s : State) (r : OutReq) (h_s : Kept q s) : Kept q (sendReq s r) := by
  unfold sendReq
  extract_lets +onlyGivenNames x652
  have h653 : Kept q x652 := by
    unfold x652
    apply reqMove_kept
    exact h_s
  clear_value x652
  refine kept_mk (s := x652) ?_
  exact h653

theorem gatherEnd_kept {q : List Instr} (s : State) (key : Nat) (g : Gather) (h_s : Kept q s) : Kept q (gatherEnd s key g) := by
  unfold gatherEnd
  extract_lets +onlyGivenNames x1893
  clear_value x1893
  extract_lets +onlyGivenNames x1895
  clear_value x1895
  extract_lets +onlyGivenNames x1897
  clear_value x1897
  extract_lets +onlyGivenNames x1899
  clear_value x1899
  extract_lets +onlyGivenNames x1901
  clear_value x1901
  extract_lets +onlyGivenNames x1903
  clear_value x1903
  extract_lets +onlyGivenNames x1905
  have h1906 : Kept q x1905 := by
    unfold x1905
    refine kept_mk (s := s) ?_
    exact h_s
  clear_value x1905
  split
  · rename_i z1907 z1908
    apply goOn_kept
    apply lvuRetire_kept
    apply setTh_kept
    exact h1906
  · rename_i z1909 z1910 z1911 z1912 z1913 z1914
    refine kept_ite (P := Kept q) ?_ ?_
    · apply insnFault_kept
      apply setTh_kept
      exact h1906
    · apply goOn_kept
      apply setTh_kept
      exact h1906
  · rename_i z1915 z1916 z1917
    apply goOn_kept
    apply setTh_kept
    exact h1906

theorem gatherGot_kept {q : List Instr} (s : State) (key line : Nat) (r : GotLine) (h_s : Kept q s) : Kept q (gatherGot s key line r) := by
  unfold gatherGot
  refine kept_mk (s := s) ?_
  exact h_s

theorem gatherFail_kept {q : List Instr} (s : State) (ctx key line status cause sub : ℕ) (h_s : Kept q s) : Kept q (gatherFail s ctx key line status cause sub) := by
  unfold gatherFail
  extract_lets +onlyGivenNames x908
  clear_value x908
  apply gatherGot_kept
  apply xfault_kept
  exact h_s

theorem gatherStep_kept {q : List Instr} (key a1 : ℕ) (a2 : State) (h_a2 : Kept q a2) : Kept q (gatherStep key a1 a2) := by
  induction a1 generalizing key a2
  · rw [gatherStep]
    exact h_a2
  · rename_i z654 z655
    rw [gatherStep]
    split
    · rename_i z656 z657
      exact h_a2
    · rename_i z658 z659 z660
      extract_lets +onlyGivenNames x661
      clear_value x661
      extract_lets +onlyGivenNames x663
      have h664 : Kept q x663 := by
        unfold x663
        refine kept_ite (P := Kept q) ?_ ?_
        · apply gatherEnd_kept
          exact h_a2
        · exact h_a2
      clear_value x663
      split
      · rename_i z665 z666
        exact h664
      · rename_i z667 z668 z669 z670
        refine kept_ite (P := Kept q) ?_ ?_
        · exact h664
        · refine kept_ite (P := Kept q) ?_ ?_
          · exact h_a2
          · extract_lets +onlyGivenNames x671
            have h672 : Kept q x671 := by
              unfold x671
              refine kept_mk (s := a2) ?_
              exact h_a2
            clear_value x671
            extract_lets +onlyGivenNames x673
            have h674 : KSnd q x673 := by
              unfold x673
              apply takeSeq_kept
              exact h672
            clear_value x673
            extract_lets +onlyGivenNames x675
            have h676 : Kept q x675 := by
              unfold x675
              split
              · rename_i z677 z678 z679 z680
                refine kept_ite (P := Kept q) ?_ ?_
                · apply gatherFail_kept
                  exact h672
                · apply gatherFail_kept
                  exact h672
              · rename_i z681 z682 z683 z684
                extract_lets +onlyGivenNames x685
                clear_value x685
                split
                · rename_i z687 z688 z689 z690
                  apply gatherFail_kept
                  exact h674
                · rename_i z691 z692
                  apply addDiv_kept
                  apply sendReq_kept
                  exact h674
            clear_value x675
            apply z655
            exact h676

theorem sendLine_kept {q : List Instr} (s : State) (x : Xfer) (eng : ℕ) (h_s : Kept q s) : KSend q (sendLine s x eng) := by
  unfold sendLine
  extract_lets +onlyGivenNames x693
  clear_value x693
  split
  · rename_i z695 z696 z697 z698
    show Kept q _
    exact h_s
  · rename_i z699 z700 z701 z702
    extract_lets +onlyGivenNames x703
    clear_value x703
    split
    · rename_i z705 z706 z707 z708
      show Kept q _
      exact h_s
    · rename_i z709 z710
      extract_lets +onlyGivenNames x711
      have h712 : (∀ y713 y714, Kept q y713 → KSend q (x711 y713 y714)) := by
        unfold x711
        intro v715 v716 v717
        extract_lets +onlyGivenNames x718
        have h719 : KSnd q x718 := by
          unfold x718
          apply takeSeq_kept
          exact v717
        clear_value x718
        show Kept q _
        apply modXfer_kept
        apply sendReq_kept
        exact h719
      clear_value x711
      refine kept_ite (P := KSend q) ?_ ?_
      · apply h712
        exact h_s
      · refine kept_ite (P := KSend q) ?_ ?_
        · exact True.intro
        · split
          · rename_i z720 z721 z722 z723 z724
            have h725 := kept_eq (P := KFst q) z724 (by
              apply vaLoad_kept
              exact h_s)
            apply h712
            exact h725
          · rename_i z726 z727 z728 z729
            have h730 := kept_eq (P := KFst q) z729 (by
              apply vaLoad_kept
              exact h_s)
            show Kept q _
            exact h730
          · rename_i z731 z732 z733
            have h734 := kept_eq (P := KFst q) z733 (by
              apply vaLoad_kept
              exact h_s)
            exact True.intro

theorem failLine_kept {q : List Instr} (s : State) (x : Xfer) (st cause : Nat) (h_s : Kept q s) : Kept q (failLine s x st cause) := by
  unfold failLine
  extract_lets +onlyGivenNames x2001
  have h2002 : Kept q x2001 := by
    unfold x2001
    apply xfault_kept
    exact h_s
  clear_value x2001
  apply settle_kept
  apply modXfer_kept
  exact h2002

theorem pump_kept {q : List Instr} (key a1 : ℕ) (a2 : State) (h_a2 : Kept q a2) : Kept q (pump key a1 a2) := by
  induction a1 generalizing key a2
  · rw [pump]
    exact h_a2
  · rename_i z735 z736
    rw [pump]
    refine kept_ite (P := Kept q) ?_ ?_
    · exact h_a2
    · split
      · rename_i z737 z738
        exact h_a2
      · rename_i z739 z740 z741
        split
        · rename_i z742 z743 z744
          have h745 := kept_eq (P := KSend q) z744 (by
            apply sendLine_kept
            exact h_a2)
          apply z736
          have h747 : Kept q _ := h745
          exact h747
        · rename_i z748 z749 z750 z751 z752
          have h753 := kept_eq (P := KSend q) z752 (by
            apply sendLine_kept
            exact h_a2)
          apply z736
          apply failLine_kept
          have h756 : Kept q _ := h753
          exact h756
        · rename_i z757 z758
          have h759 := kept_eq (P := KSend q) z758 (by
            apply sendLine_kept
            exact h_a2)
          exact h_a2

theorem cpeSend_kept {q : List Instr} (cpe id a2 : ℕ) (a3 : State) (h_a3 : Kept q a3) : Kept q (cpeSend cpe id a2 a3) := by
  induction a2 generalizing cpe id a3
  · rw [cpeSend]
    exact h_a3
  · rename_i z761 z762
    rw [cpeSend]
    refine kept_ite (P := Kept q) ?_ ?_
    · exact h_a3
    · split
      · rename_i z763 z764
        exact h_a3
      · rename_i z765 z766 z767
        split
        · rename_i z768 z769 z770
          have h771 := kept_eq (P := KSend q) z770 (by
            apply sendLine_kept
            exact h_a3)
          apply z762
          have h773 : Kept q _ := h771
          exact h773
        · rename_i z774 z775 z776 z777 z778
          have h779 := kept_eq (P := KSend q) z778 (by
            apply sendLine_kept
            exact h_a3)
          apply failLine_kept
          have h781 : Kept q _ := h779
          exact h781
        · rename_i z782 z783
          have h784 := kept_eq (P := KSend q) z783 (by
            apply sendLine_kept
            exact h_a3)
          exact h_a3

theorem execCopyRequestServe_kept {q : List Instr} (cpe : ℕ) (s : State) (h_s : Kept q s) : KOut q (execCopyRequestServe cpe s) := by
  unfold execCopyRequestServe
  extract_lets +onlyGivenNames x786
  clear_value x786
  apply kept_next
  refine kept_ite (P := Kept q) ?_ ?_
  · exact h_s
  · split
    · rename_i z788 z789
      exact h_s
    · rename_i z790 z791 z792
      split
      · rename_i z793 z794
        refine kept_ite (P := Kept q) ?_ ?_
        · exact h_s
        · apply copyServe_kept
          exact h_s
      · rename_i z795 z796 z797
        extract_lets +onlyGivenNames x798
        have h799 : Kept q x798 := by
          unfold x798
          apply cpeSend_kept
          exact h_s
        clear_value x798
        extract_lets +onlyGivenNames x800
        clear_value x800
        refine kept_mk (s := x798) ?_
        exact h799

theorem fabMove_kept {q : List Instr} (t : Tid) (o : Opnds) (op : ℕ) (s : State) (h_s : Kept q s) : KOut q (fabMove t o op s) := by
  unfold fabMove
  apply insn_kept
  · exact h_s
  · intro v802 v803 v804
    extract_lets +onlyGivenNames x805
    clear_value x805
    extract_lets +onlyGivenNames x807
    clear_value x807
    extract_lets +onlyGivenNames x809
    clear_value x809
    extract_lets +onlyGivenNames x811
    clear_value x811
    refine kept_ite (P := KRes q) ?_ ?_
    · show Kept q _
      exact v804
    · split
      · rename_i z813 z814 z815 z816
        show Kept q _
        exact v804
      · rename_i z817 z818
        split
        · rename_i z819 z820 z821 z822
          have h823 := kept_eq (P := KFst q) z822 (by
            apply vaCheckWords_kept
            exact v804)
          apply accTrap_kept
          exact h823
        · rename_i z824 z825 z826
          have h827 := kept_eq (P := KFst q) z826 (by
            apply vaCheckWords_kept
            exact v804)
          show Kept q _
          exact v804
        · rename_i z828 z829 z830 z831
          have h832 := kept_eq (P := KFst q) z831 (by
            apply vaCheckWords_kept
            exact v804)
          extract_lets +onlyGivenNames x833
          clear_value x833
          extract_lets +onlyGivenNames x835
          clear_value x835
          extract_lets +onlyGivenNames x837
          have h838 : Kept q x837 := by
            unfold x837
            refine kept_mk (s := z829) ?_
            exact h832
          clear_value x837
          refine kept_ite (P := KRes q) ?_ ?_
          · extract_lets +onlyGivenNames x839
            have h840 : Kept q x839 := by
              unfold x839
              apply retire_kept
              exact h838
            clear_value x839
            show Kept q _
            apply pump_kept
            exact h840
          · extract_lets +onlyGivenNames x841
            clear_value x841
            extract_lets +onlyGivenNames x843
            clear_value x843
            show Kept q _
            refine kept_mk (s := x837) ?_
            exact h838

theorem execRget_kept {q : List Instr} (t : Tid) (o : Opnds) (s : State) (h_s : Kept q s) : KOut q (execRget t o s) := by
  unfold execRget
  apply fabMove_kept
  exact h_s

theorem execRput_kept {q : List Instr} (t : Tid) (o : Opnds) (s : State) (h_s : Kept q s) : KOut q (execRput t o s) := by
  unfold execRput
  apply fabMove_kept
  exact h_s

theorem execRputf_kept {q : List Instr} (t : Tid) (o : Opnds) (s : State) (h_s : Kept q s) : KOut q (execRputf t o s) := by
  unfold execRputf
  apply fabMove_kept
  exact h_s

theorem fabAtomic_kept {q : List Instr} (t : Tid) (o : Opnds) (ty : ℕ) (wide cas signable : Bool) (s : State) (h_s : Kept q s) : KOut q (fabAtomic t o ty wide cas signable s) := by
  unfold fabAtomic
  apply insnW_kept
  · exact h_s
  · intro v845 v846 v847
    extract_lets +onlyGivenNames x848
    clear_value x848
    extract_lets +onlyGivenNames x850
    clear_value x850
    refine kept_ite (P := KRes q) ?_ ?_
    · show Kept q _
      exact v847
    · split
      · rename_i z852 z853 z854 z855
        show Kept q _
        exact v847
      · rename_i z856 z857 z858 z859
        refine kept_ite (P := KRes q) ?_ ?_
        · show Kept q _
          exact v847
        · extract_lets +onlyGivenNames x860
          clear_value x860
          extract_lets +onlyGivenNames x862
          clear_value x862
          extract_lets +onlyGivenNames x864
          clear_value x864
          extract_lets +onlyGivenNames x866
          have h867 : KSnd q x866 := by
            unfold x866
            apply takeSeq_kept
            exact v847
          clear_value x866
          extract_lets +onlyGivenNames x868
          clear_value x868
          extract_lets +onlyGivenNames x870
          clear_value x870
          extract_lets +onlyGivenNames x872
          have h873 : Kept q x872 := by
            unfold x872
            apply setTh_kept
            exact h867
          clear_value x872
          split
          · rename_i z874 z875 z876 z877
            show Kept q _
            apply atomicEnd_kept
            exact h873
          · rename_i z878 z879
            show Kept q _
            apply sendReq_kept
            exact h873

theorem execRadd_kept {q : List Instr} (t : Tid) (o : Opnds) (s : State) (h_s : Kept q s) : KOut q (execRadd t o s) := by
  unfold execRadd
  apply fabAtomic_kept
  exact h_s

theorem execRmin_kept {q : List Instr} (t : Tid) (o : Opnds) (s : State) (h_s : Kept q s) : KOut q (execRmin t o s) := by
  unfold execRmin
  apply fabAtomic_kept
  exact h_s

theorem execRmax_kept {q : List Instr} (t : Tid) (o : Opnds) (s : State) (h_s : Kept q s) : KOut q (execRmax t o s) := by
  unfold execRmax
  apply fabAtomic_kept
  exact h_s

theorem execRand_kept {q : List Instr} (t : Tid) (o : Opnds) (s : State) (h_s : Kept q s) : KOut q (execRand t o s) := by
  unfold execRand
  apply fabAtomic_kept
  exact h_s

theorem execRor_kept {q : List Instr} (t : Tid) (o : Opnds) (s : State) (h_s : Kept q s) : KOut q (execRor t o s) := by
  unfold execRor
  apply fabAtomic_kept
  exact h_s

theorem execRxor_kept {q : List Instr} (t : Tid) (o : Opnds) (s : State) (h_s : Kept q s) : KOut q (execRxor t o s) := by
  unfold execRxor
  apply fabAtomic_kept
  exact h_s

theorem execRswap_kept {q : List Instr} (t : Tid) (o : Opnds) (s : State) (h_s : Kept q s) : KOut q (execRswap t o s) := by
  unfold execRswap
  apply fabAtomic_kept
  exact h_s

theorem execRcas8_kept {q : List Instr} (t : Tid) (o : Opnds) (s : State) (h_s : Kept q s) : KOut q (execRcas8 t o s) := by
  unfold execRcas8
  apply fabAtomic_kept
  exact h_s

theorem execRcas16_kept {q : List Instr} (t : Tid) (o : Opnds) (s : State) (h_s : Kept q s) : KOut q (execRcas16 t o s) := by
  unfold execRcas16
  apply fabAtomic_kept
  exact h_s

theorem execVrgather_kept {q : List Instr} (t : Tid) (o : Opnds) (s : State) (h_s : Kept q s) : KOut q (execVrgather t o s) := by
  unfold execVrgather
  apply lvOp_kept
  · intro v880 v881 v882
    extract_lets +onlyGivenNames x883
    clear_value x883
    extract_lets +onlyGivenNames x885
    clear_value x885
    extract_lets +onlyGivenNames x887
    clear_value x887
    extract_lets +onlyGivenNames x889
    clear_value x889
    extract_lets +onlyGivenNames x891
    clear_value x891
    extract_lets +onlyGivenNames x893
    clear_value x893
    extract_lets +onlyGivenNames x895
    clear_value x895
    extract_lets +onlyGivenNames x897
    have h898 : Kept q x897 := by
      unfold x897
      apply setTh_kept
      refine kept_mk (s := v881) ?_
      exact v882
    clear_value x897
    show Kept q _
    apply gatherStep_kept
    exact h898
  · exact h_s

theorem askTile_kept {q : List Instr} (s : State) (core : ℕ) (st : Stream) (tile : ℕ) (h_s : Kept q s) : Kept q (askTile s core st tile) := by
  unfold askTile
  extract_lets +onlyGivenNames x899
  clear_value x899
  extract_lets +onlyGivenNames x901
  clear_value x901
  extract_lets +onlyGivenNames x903
  clear_value x903
  split
  · rename_i z905 z906 z907 z908
    refine kept_mk (s := s) ?_
    exact h_s
  · rename_i z909 z910
    extract_lets +onlyGivenNames x911
    have h912 : Kept q x911 := by
      unfold x911
      refine kept_mk (s := s) ?_
      exact h_s
    clear_value x911
    refine kept_foldl ?_ ?_
    · intro v913 v914 v915
      split
      · rename_i z916 z917 z918 z919
        extract_lets +onlyGivenNames x920
        clear_value x920
        extract_lets +onlyGivenNames x922
        have h923 : KSnd q x922 := by
          unfold x922
          apply takeSeq_kept
          exact v915
        clear_value x922
        extract_lets +onlyGivenNames x924
        clear_value x924
        split
        · rename_i z926 z927 z928 z929
          extract_lets +onlyGivenNames x930
          have h931 : Kept q x930 := by
            unfold x930
            apply xfault_kept
            exact h923
          clear_value x930
          refine kept_mk (s := x930) ?_
          exact h931
        · rename_i z932 z933
          apply sendReq_kept
          exact h923
      · rename_i z934 z935 z936 z937
        exact v915
    · exact h912

theorem pumpGet_kept {q : List Instr} (core a1 : ℕ) (a2 : State) (h_a2 : Kept q a2) : Kept q (pumpGet core a1 a2) := by
  induction a1 generalizing core a2
  · rw [pumpGet]
    exact h_a2
  · rename_i z938 z939
    rw [pumpGet]
    split
    · rename_i z940 z941
      exact h_a2
    · rename_i z942 z943 z944
      extract_lets +onlyGivenNames x945
      clear_value x945
      extract_lets +onlyGivenNames x947
      clear_value x947
      extract_lets +onlyGivenNames x949
      clear_value x949
      refine kept_ite (P := Kept q) ?_ ?_
      · apply z939
        apply askTile_kept
        exact h_a2
      · exact h_a2

theorem execStream_kept {q : List Instr} (t : Tid) (o : StreamOps) (s : State) (h_s : Kept q s) : KOut q (execStream t o s) := by
  unfold execStream
  split
  · rename_i z951 z952 z953
    have h954 := kept_eq (P := KOut q) z953 (by
      apply bindStream_kept
      exact h_s)
    apply kept_next
    refine kept_ite (P := Kept q) ?_ ?_
    · have h956 : Kept q _ := h954 _ rfl
      exact h956
    · apply pumpGet_kept
      have h958 : Kept q _ := h954 _ rfl
      exact h958
  · rename_i z959 z960
    apply bindStream_kept
    exact h_s

theorem execFabricGetTileReady_kept {q : List Instr} (core : ℕ) (s : State) (h_s : Kept q s) : KOut q (execFabricGetTileReady core s) := by
  unfold execFabricGetTileReady
  apply kept_next
  refine kept_ite (P := Kept q) ?_ ?_
  · exact h_s
  · split
    · rename_i z961 z962
      exact h_s
    · rename_i z963 z964 z965
      split
      · rename_i z966 z967
        apply pumpGet_kept
        exact h_s
      · rename_i z968 z969 z970
        extract_lets +onlyGivenNames x971
        have h972 : Kept q x971 := by
          unfold x971
          refine kept_mk (s := s) ?_
          exact h_s
        clear_value x971
        extract_lets +onlyGivenNames x973
        clear_value x973
        split
        · rename_i z975 z976 z977 z978
          refine kept_ite (P := Kept q) ?_ ?_
          · exact h_s
          · apply streamFault_kept
            exact h972
        · rename_i z979 z980
          refine kept_ite (P := Kept q) ?_ ?_
          · exact h_s
          · apply pumpGet_kept
            apply setNc_kept
            exact h972

theorem execFabricPutTile_kept {q : List Instr} (core : ℕ) (s : State) (h_s : Kept q s) : KOut q (execFabricPutTile core s) := by
  unfold execFabricPutTile
  apply kept_next
  refine kept_ite (P := Kept q) ?_ ?_
  · exact h_s
  · extract_lets +onlyGivenNames x981
    clear_value x981
    split
    · rename_i z983 z984
      exact h_s
    · rename_i z985 z986 z987 z988
      extract_lets +onlyGivenNames x989
      have h990 : (∀ y991 y992, Kept q (x989 y991 y992)) := by
        unfold x989
        intro v993 v994
        apply consumeFault_kept
        exact h_s
      clear_value x989
      refine kept_ite (P := Kept q) ?_ ?_
      · exact h_s
      · split
        · rename_i z995 z996 z997
          apply h990
        · rename_i z998 z999
          extract_lets +onlyGivenNames x1000
          clear_value x1000
          extract_lets +onlyGivenNames x1002
          clear_value x1002
          extract_lets +onlyGivenNames x1004
          clear_value x1004
          split
          · rename_i z1006 z1007 z1008 z1009
            apply h990
          · rename_i z1010 z1011
            extract_lets +onlyGivenNames x1012
            clear_value x1012
            extract_lets +onlyGivenNames x1014
            clear_value x1014
            extract_lets +onlyGivenNames x1016
            have h1017 : Kept q x1016 := by
              unfold x1016
              apply setNc_kept
              exact h_s
            clear_value x1016
            extract_lets +onlyGivenNames x1018
            have h1019 : Kept q x1018 := by
              unfold x1018
              refine kept_mk (s := x1016) ?_
              exact h1017
            clear_value x1018
            extract_lets +onlyGivenNames x1020
            clear_value x1020
            extract_lets +onlyGivenNames x1022
            have h1023 : KFst q x1022 := by
              unfold x1022
              refine kept_foldl_fst ?_ ?_
              · intro v1024 v1025 v1026
                split
                · rename_i z1027 z1028 z1029 z1030
                  split
                  · rename_i z1031 z1032 z1033 z1034 z1035
                    extract_lets +onlyGivenNames x1036
                    have h1037 : KSnd q x1036 := by
                      unfold x1036
                      apply takeSeq_kept
                      exact v1026
                    clear_value x1036
                    extract_lets +onlyGivenNames x1038
                    clear_value x1038
                    extract_lets +onlyGivenNames x1040
                    clear_value x1040
                    split
                    · rename_i z1042 z1043 z1044 z1045
                      exact h1037
                    · rename_i z1046 z1047
                      apply kept_pair
                      apply sendReq_kept
                      exact h1037
                  · rename_i z1048 z1049 z1050 z1051
                    exact v1026
              · exact h1019
            clear_value x1022
            split
            · rename_i z1052 z1053
              exact h1023
            · rename_i z1054 z1055 z1056 z1057 z1058
              extract_lets +onlyGivenNames x1059
              have h1060 : Kept q x1059 := by
                unfold x1059
                apply xfault_kept
                exact h1023
              clear_value x1059
              apply settlePuts_kept
              refine kept_mk (s := x1059) ?_
              exact h1060

theorem emit_kept {q : List Instr} (s : State) (p : Pkt) (h_s : Kept q s) : Kept q (emit s p) := by
  unfold emit
  refine kept_mk (s := s) ?_
  exact h_s

theorem refusePkt_kept {q : List Instr} (s : State) (p : Pkt) (ty status cause : Nat) (h_s : Kept q s) : Kept q (refusePkt s p ty status cause) := by
  unfold refusePkt
  refine kept_ite (P := Kept q) ?_ ?_
  · apply emit_kept
    exact h_s
  · exact h_s

theorem enqueue_kept {q : List Instr} (s : State) (k : Nat) (p : Pkt) (h_s : Kept q s) : Kept q (enqueue s k p) := by
  unfold enqueue
  extract_lets +onlyGivenNames x2314
  clear_value x2314
  extract_lets +onlyGivenNames x2316
  have h2317 : Kept q x2316 := by
    unfold x2316
    refine kept_mk (s := s) ?_
    exact h_s
  clear_value x2316
  refine kept_ite (P := Kept q) ?_ ?_
  · exact h2317
  · split
    · rename_i z2318 z2319
      exact h2317
    · rename_i z2320 z2321 z2322
      split
      · rename_i z2323 z2324 z2325
        extract_lets +onlyGivenNames x2326
        have h2327 : Kept q x2326 := by
          unfold x2326
          refine kept_mk (s := s) ?_
          exact h_s
        clear_value x2326
        extract_lets +onlyGivenNames x2328
        have h2329 : Kept q x2328 := by
          unfold x2328
          refine kept_mk (s := x2326) ?_
          exact h2327
        clear_value x2328
        apply addDiv_kept
        exact h2329
      · rename_i z2330 z2331
        refine kept_ite (P := Kept q) ?_ ?_
        · apply addSat_kept
          exact h2317
        · extract_lets +onlyGivenNames x2332
          have h2333 : KSnd q x2332 := by
            unfold x2332
            apply takeSeq_kept
            exact h_s
          clear_value x2332
          extract_lets +onlyGivenNames x2334
          clear_value x2334
          extract_lets +onlyGivenNames x2336
          have h2337 : Kept q x2336 := by
            unfold x2336
            exact h2333
          clear_value x2336
          extract_lets +onlyGivenNames x2338
          have h2339 : Kept q x2338 := by
            unfold x2338
            refine kept_mk (s := x2336) ?_
            exact h2337
          clear_value x2338
          extract_lets +onlyGivenNames x2340
          have h2341 : Kept q x2340 := by
            unfold x2340
            refine kept_mk (s := x2338) ?_
            exact h2339
          clear_value x2340
          apply addDiv_kept
          exact h2341

theorem routePkt_kept {q : List Instr} (s : State) (p : Pkt) (h_s : Kept q s) : Kept q (routePkt s p) := by
  unfold routePkt
  split
  · rename_i z2342 z2343
    refine kept_mk (s := s) ?_
    exact h_s
  · rename_i z2344 z2345 z2346 z2347
    extract_lets +onlyGivenNames x2348
    clear_value x2348
    split
    · rename_i z2350 z2351 z2352 z2353
      apply enqueue_kept
      exact h_s
    · rename_i z2354 z2355 z2356 z2357
      apply enqueue_kept
      exact h_s
    · rename_i z2358 z2359 z2360 z2361
      apply enqueue_kept
      exact h_s
    · rename_i z2362 z2363 z2364 z2365
      refine kept_ite (P := Kept q) ?_ ?_
      · apply refusePkt_kept
        exact h_s
      · split
        · rename_i z2366 z2367 z2368 z2369 z2370
          refine kept_ite (P := Kept q) ?_ ?_
          · apply enqueue_kept
            exact h_s
          · apply refusePkt_kept
            exact h_s
        · rename_i z2371 z2372 z2373
          apply refusePkt_kept
          exact h_s

theorem parapetDrop_kept {q : List Instr} (s : State) (port : ℕ) (h_s : Kept q s) : Kept q (parapetDrop s port) := by
  unfold parapetDrop
  apply addSat_kept
  exact h_s

theorem execRouterForward_kept {q : List Instr} (i : RouterIn) (s : State) (h_s : Kept q s) : KOut q (execRouterForward i s) := by
  unfold execRouterForward
  apply kept_next
  split
  · rename_i z1229
    split
    · rename_i z1230 z1231
      exact h_s
    · rename_i z1232 z1233 z1234 z1235
      refine kept_ite (P := Kept q) ?_ ?_
      · apply routePkt_kept
        refine kept_mk (s := s) ?_
        exact h_s
      · exact h_s
  · rename_i z1236 z1237 z1238
    refine kept_ite (P := Kept q) ?_ ?_
    · exact h_s
    · refine kept_ite (P := Kept q) ?_ ?_
      · apply parapetDrop_kept
        exact h_s
      · refine kept_ite (P := Kept q) ?_ ?_
        · apply routePkt_kept
          exact h_s
        · exact h_s
  · rename_i z1239 z1240
    refine kept_ite (P := Kept q) ?_ ?_
    · exact h_s
    · split
      · rename_i z1241 z1242
        exact h_s
      · rename_i z1243 z1244 z1245
        extract_lets +onlyGivenNames x1246
        have h1247 : Kept q x1246 := by
          unfold x1246
          refine kept_mk (s := s) ?_
          exact h_s
        clear_value x1246
        refine kept_ite (P := Kept q) ?_ ?_
        · refine kept_mk (s := x1246) ?_
          exact h1247
        · apply routePkt_kept
          exact h1247

theorem dropReq_kept {q : List Instr} (s : State) (r : OutReq) (h_s : Kept q s) : Kept q (dropReq s r) := by
  unfold dropReq
  refine kept_mk (s := s) ?_
  exact h_s

theorem moreLines_kept {q : List Instr} (s : State) (key : ℕ) (h_s : Kept q s) : Kept q (moreLines s key) := by
  unfold moreLines
  refine kept_ite (P := Kept q) ?_ ?_
  · refine kept_foldl ?_ ?_
    · intro v1061 v1062 v1063
      extract_lets +onlyGivenNames x1064
      clear_value x1064
      apply gatherStep_kept
      apply pump_kept
      exact v1063
    · exact h_s
  · exact h_s

theorem modGet_kept {q : List Instr} (s : State) (core quad tile : ℕ) (f : GetTile → GetTile) (h_s : Kept q s) : Kept q (modGet s core quad tile f) := by
  unfold modGet
  refine kept_mk (s := s) ?_
  exact h_s

theorem modPut_kept {q : List Instr} (s : State) (id : Nat) (f : PutTile → PutTile) (h_s : Kept q s) : Kept q (modPut s id f) := by
  unfold modPut
  refine kept_mk (s := s) ?_
  exact h_s

theorem reqFault_kept {q : List Instr} (s : State) (r : OutReq) (status cause cnt line : Nat) (h_s : Kept q s) : Kept q (reqFault s r status cause cnt line) := by
  unfold reqFault
  refine kept_ite (P := Kept q) ?_ ?_
  · apply xfault_kept
    exact h_s
  · exact h_s

theorem reqFail_kept {q : List Instr} (s : State) (r : OutReq) (status cause : ℕ) (h_s : Kept q s) : Kept q (reqFail s r status cause) := by
  unfold reqFail
  extract_lets +onlyGivenNames x1066
  have h1067 : Kept q x1066 := by
    unfold x1066
    apply dropReq_kept
    exact h_s
  clear_value x1066
  split
  · rename_i z1068 z1069 z1070 z1071
    extract_lets +onlyGivenNames x1072
    clear_value x1072
    extract_lets +onlyGivenNames x1074
    have h1075 : Kept q x1074 := by
      unfold x1074
      apply reqFault_kept
      exact h1067
    clear_value x1074
    extract_lets +onlyGivenNames x1076
    have h1077 : Kept q x1076 := by
      unfold x1076
      apply modXfer_kept
      exact h1075
    clear_value x1076
    apply moreLines_kept
    apply settle_kept
    exact h1077
  · rename_i z1078 z1079 z1080 z1081
    extract_lets +onlyGivenNames x1082
    have h1083 : Kept q x1082 := by
      unfold x1082
      refine kept_ite (P := Kept q) ?_ ?_
      · apply addSat_kept
        exact h1067
      · exact h1067
    clear_value x1082
    apply atomicEnd_kept
    exact h1083
  · rename_i z1084 z1085
    extract_lets +onlyGivenNames x1086
    clear_value x1086
    apply moreLines_kept
    apply gatherGot_kept
    apply reqFault_kept
    exact h1067
  · rename_i z1088 z1089 z1090 z1091 z1092
    extract_lets +onlyGivenNames x1093
    clear_value x1093
    apply modGet_kept
    apply reqFault_kept
    exact h1067
  · rename_i z1095 z1096 z1097 z1098
    extract_lets +onlyGivenNames x1099
    clear_value x1099
    extract_lets +onlyGivenNames x1101
    have h1102 : Kept q x1101 := by
      unfold x1101
      apply reqFault_kept
      exact h1067
    clear_value x1101
    apply settle_kept
    apply modPut_kept
    exact h1102
  · rename_i z1103 z1104 z1105
    extract_lets +onlyGivenNames x1106
    have h1107 : Kept q x1106 := by
      unfold x1106
      apply reqFault_kept
      exact h1067
    clear_value x1106
    refine kept_mk (s := x1106) ?_
    exact h1107
  · rename_i z1108 z1109 z1110
    refine kept_mk (s := x1066) ?_
    exact h1067
  · rename_i z1111 z1112 z1113
    refine kept_mk (s := x1066) ?_
    exact h1067

theorem landLine_kept {q : List Instr} (s : State) (r : OutReq) (id i : ℕ) (bs : List Byte) (pois : Bool) (h_s : Kept q s) : KFst q (landLine s r id i bs pois) := by
  unfold landLine
  split
  · rename_i z1114 z1115
    apply kept_pair
    apply dropReq_kept
    exact h_s
  · rename_i z1116 z1117 z1118
    split
    · rename_i z1119 z1120 z1121
      have h1122 := kept_eq (P := KFst q) z1121 (by
        apply vaStore_kept
        exact h_s)
      extract_lets +onlyGivenNames x1123
      have h1124 : Kept q x1123 := by
        unfold x1123
        refine kept_ite (P := Kept q) ?_ ?_
        · apply vaPoison_kept
          exact h1122
        · exact h1122
      clear_value x1123
      extract_lets +onlyGivenNames x1125
      have h1126 : Kept q x1125 := by
        unfold x1125
        refine kept_ite (P := Kept q) ?_ ?_
        · apply arrive_kept
          exact h1124
        · refine kept_mk (s := x1123) ?_
          exact h1124
      clear_value x1125
      apply kept_pair
      apply moreLines_kept
      apply settle_kept
      apply modXfer_kept
      apply dropReq_kept
      exact h1126
    · rename_i z1127 z1128 z1129 z1130
      have h1131 := kept_eq (P := KFst q) z1130 (by
        apply vaStore_kept
        exact h_s)
      apply kept_pair
      apply reqFail_kept
      exact h1131
    · rename_i z1132 z1133 z1134
      have h1135 := kept_eq (P := KFst q) z1134 (by
        apply vaStore_kept
        exact h_s)
      exact h1135

theorem takeRx_kept {q : List Instr} (s : State) (p : Pkt) (h_s : Kept q s) : Kept q (takeRx s p) := by
  unfold takeRx
  refine kept_mk (s := s) ?_
  exact h_s

theorem splitReply_kept {q : List Instr} (s : State) (c : CombSlot) (p : Pkt) (h_s : Kept q s) : Kept q (splitReply s c p) := by
  unfold splitReply
  extract_lets +onlyGivenNames x2466
  have h2467 : Kept q x2466 := by
    unfold x2466
    refine kept_mk (s := s) ?_
    exact h_s
  clear_value x2466
  apply kept_fst
  refine kept_foldl_fst ?_ ?_
  · intro v2468 v2469 v2470
    extract_lets +onlyGivenNames x2471
    clear_value x2471
    apply kept_pair
    exact v2470
  · exact h2467

theorem enterLost_kept {q : List Instr} (s : State) (c cause : Nat) (h_s : Kept q s) : Kept q (enterLost s c cause) := by
  unfold enterLost
  refine kept_ite (P := Kept q) ?_ ?_
  · exact h_s
  · split
    · rename_i z2473 z2474 z2475
      apply wr_kept
      exact h_s
    · rename_i z2476 z2477
      apply wrf_kept
      exact h_s

theorem failLost_kept {q : List Instr} (s : State) (h_s : Kept q s) : Kept q (failLost s) := by
  unfold failLost
  refine kept_foldl ?_ ?_
  · intro v1136 v1137 v1138
    refine kept_ite (P := Kept q) ?_ ?_
    · extract_lets +onlyGivenNames x1139
      clear_value x1139
      extract_lets +onlyGivenNames x1141
      have h1142 : Kept q x1141 := by
        unfold x1141
        refine kept_mk (s := v1136) ?_
        exact v1138
      clear_value x1141
      refine kept_ite (P := Kept q) ?_ ?_
      · apply reqFail_kept
        exact h1142
      · apply reqFail_kept
        exact h1142
    · exact v1138
  · exact h_s

end Sys2Proof.Machine
end

