-- ==== Sys2Proof/Laws/KeptColl.lean ====
section
/-! SUPPORT. Every operation and meaning of collectives and checkpoints keeps the queue of commands and the canonical form of the stores. One lemma each: what its arguments keep, its answer keeps. -/

namespace Sys2Proof.Machine



theorem modColl_kept {q : List Instr} (s : State) (id : Nat) (f : Coll → Coll) (h_s : Kept q s) : Kept q (modColl s id f) := by
  unfold modColl
  refine kept_mk (s := s) ?_
  exact h_s

theorem dropColl_kept {q : List Instr} (s : State) (id : Nat) (h_s : Kept q s) : Kept q (dropColl s id) := by
  unfold dropColl
  refine kept_mk (s := s) ?_
  exact h_s

theorem txFlit_kept {q : List Instr} (s : State) (k : ℕ) (f : Flit) (h_s : Kept q s) : Kept q (txFlit s k f) := by
  unfold txFlit
  extract_lets +onlyGivenNames x1281
  clear_value x1281
  refine kept_ite (P := Kept q) ?_ ?_
  · exact h_s
  · refine kept_ite (P := Kept q) ?_ ?_
    · refine kept_mk (s := s) ?_
      exact h_s
    · refine kept_ite (P := Kept q) ?_ ?_
      · refine kept_mk (s := s) ?_
        exact h_s
      · exact h_s

theorem sendUp_kept {q : List Instr} (s : State) (f : Flit) (h_s : Kept q s) : Kept q (sendUp s f) := by
  unfold sendUp
  split
  · rename_i z2487 z2488
    exact h_s
  · rename_i z2489 z2490 z2491 z2492
    extract_lets +onlyGivenNames x2493
    clear_value x2493
    extract_lets +onlyGivenNames x2495
    clear_value x2495
    refine kept_ite (P := Kept q) ?_ ?_
    · apply txFlit_kept
      exact h_s
    · refine kept_ite (P := Kept q) ?_ ?_
      · exact h_s
      · split
        · rename_i z2497 z2498 z2499
          refine kept_ite (P := Kept q) ?_ ?_
          · apply txFlit_kept
            exact h_s
          · exact h_s
        · rename_i z2500 z2501
          exact h_s

theorem claimSlots_kept {q : List Instr} (s : State) (id : Nat) (h_s : Kept q s) : Kept q (claimSlots s id) := by
  unfold claimSlots
  split
  · rename_i z2502 z2503
    exact h_s
  · rename_i z2504 z2505 z2506
    refine kept_ite (P := Kept q) ?_ ?_
    · exact h_s
    · extract_lets +onlyGivenNames x2507
      clear_value x2507
      extract_lets +onlyGivenNames x2509
      clear_value x2509
      extract_lets +onlyGivenNames x2511
      clear_value x2511
      refine kept_ite (P := Kept q) ?_ ?_
      · apply modColl_kept
        exact h_s
      · apply modColl_kept
        apply addSat_kept
        exact h_s

theorem takeDown_kept {q : List Instr} (s : State) (id : Nat) (f : Flit) (h_s : Kept q s) : Kept q (takeDown s id f) := by
  unfold takeDown
  split
  · rename_i z2513 z2514
    exact h_s
  · rename_i z2515 z2516 z2517
    extract_lets +onlyGivenNames x2518
    have h2519 : Kept q x2518 := by
      unfold x2518
      refine kept_foldl ?_ ?_
      · intro v2520 v2521 v2522
        apply txFlit_kept
        exact v2522
      · exact h_s
    clear_value x2518
    extract_lets +onlyGivenNames x2523
    clear_value x2523
    split
    · rename_i z2525 z2526 z2527
      refine kept_ite (P := Kept q) ?_ ?_
      · apply modColl_kept
        exact h2519
      · extract_lets +onlyGivenNames x2528
        have h2529 : Kept q x2528 := by
          unfold x2528
          apply dropColl_kept
          exact h2519
        clear_value x2528
        refine kept_mk (s := x2528) ?_
        exact h2529
    · rename_i z2530 z2531
      extract_lets +onlyGivenNames x2532
      clear_value x2532
      refine kept_ite (P := Kept q) ?_ ?_
      · refine kept_ite (P := Kept q) ?_ ?_
        · apply modColl_kept
          exact h2519
        · apply dropColl_kept
          exact h2519
      · apply modColl_kept
        exact h2519

theorem failColl_kept {q : List Instr} (s : State) (id st sub : Nat) (h_s : Kept q s) : Kept q (failColl s id st sub) := by
  unfold failColl
  split
  · rename_i z2534 z2535
    exact h_s
  · rename_i z2536 z2537 z2538
    extract_lets +onlyGivenNames x2539
    clear_value x2539
    extract_lets +onlyGivenNames x2541
    have h2542 : Kept q x2541 := by
      unfold x2541
      refine kept_ite (P := Kept q) ?_ ?_
      · apply sendUp_kept
        exact h_s
      · exact h_s
    clear_value x2541
    apply takeDown_kept
    exact h2542

theorem tryChunk_kept {q : List Instr} (s : State) (id ix : ℕ) (h_s : Kept q s) : Kept q (tryChunk s id ix) := by
  unfold tryChunk
  split
  · rename_i z1283 z1284
    exact h_s
  · rename_i z1285 z1286 z1287
    split
    · rename_i z1288 z1289
      exact h_s
    · rename_i z1290 z1291 z1292
      refine kept_ite (P := Kept q) ?_ ?_
      · exact h_s
      · extract_lets +onlyGivenNames x1293
        clear_value x1293
        extract_lets +onlyGivenNames x1295
        clear_value x1295
        extract_lets +onlyGivenNames x1297
        clear_value x1297
        extract_lets +onlyGivenNames x1299
        have h1300 : Kept q x1299 := by
          unfold x1299
          apply modColl_kept
          refine kept_mk (s := s) ?_
          exact h_s
        clear_value x1299
        extract_lets +onlyGivenNames x1301
        clear_value x1301
        refine kept_ite (P := Kept q) ?_ ?_
        · apply takeDown_kept
          exact h1300
        · split
          · rename_i z1303 z1304
            exact h1300
          · rename_i z1305 z1306 z1307
            apply sendUp_kept
            exact h1300
          · rename_i z1308 z1309 z1310
            apply sendUp_kept
            exact h1300

theorem addInput_kept {q : List Instr} (s : State) (id ix cnt : Nat) (vals : List (Nat × Nat)) (f : Flit) (h_s : Kept q s) : Kept q (addInput s id ix cnt vals f) := by
  unfold addInput
  split
  · rename_i z2563 z2564
    exact h_s
  · rename_i z2565 z2566 z2567
    extract_lets +onlyGivenNames x2568
    clear_value x2568
    extract_lets +onlyGivenNames x2570
    clear_value x2570
    extract_lets +onlyGivenNames x2572
    clear_value x2572
    extract_lets +onlyGivenNames x2574
    have h2575 : Kept q x2574 := by
      unfold x2574
      apply modColl_kept
      exact h_s
    clear_value x2574
    extract_lets +onlyGivenNames x2576
    have h2577 : Kept q x2576 := by
      unfold x2576
      refine kept_ite (P := Kept q) ?_ ?_
      · apply sendUp_kept
        exact h2575
      · exact h2575
    clear_value x2576
    apply tryChunk_kept
    exact h2577

theorem joinUp_kept {q : List Instr} (s : State) (id port : Nat) (f : Flit) (h_s : Kept q s) : Kept q (joinUp s id port f) := by
  unfold joinUp
  split
  · rename_i z2578 z2579
    exact h_s
  · rename_i z2580 z2581 z2582
    extract_lets +onlyGivenNames x2583
    have h2584 : Kept q x2583 := by
      unfold x2583
      apply modColl_kept
      exact h_s
    clear_value x2583
    split
    · rename_i z2585 z2586 z2587
      refine kept_ite (P := Kept q) ?_ ?_
      · apply addSat_kept
        exact h2584
      · apply txFlit_kept
        exact h2584
    · rename_i z2588 z2589
      split
      · rename_i z2590 z2591 z2592
        apply failColl_kept
        exact h2584
      · rename_i z2593 z2594
        refine kept_ite (P := Kept q) ?_ ?_
        · apply failColl_kept
          exact h2584
        · refine kept_ite (P := Kept q) ?_ ?_
          · apply failColl_kept
            exact h2584
          · apply addInput_kept
            exact h2584

theorem transitColl_kept {q : List Instr} (s : State) (f : Flit) (h_s : Kept q s) : KFst q (transitColl s f) := by
  unfold transitColl
  extract_lets +onlyGivenNames x2595
  clear_value x2595
  extract_lets +onlyGivenNames x2597
  clear_value x2597
  apply kept_pair
  apply claimSlots_kept
  refine kept_mk (s := s) ?_
  exact h_s

theorem flitUp_kept {q : List Instr} (s : State) (port : Nat) (f : Flit) (h_s : Kept q s) : Kept q (flitUp s port f) := by
  unfold flitUp
  extract_lets +onlyGivenNames x2599
  clear_value x2599
  extract_lets +onlyGivenNames x2601
  clear_value x2601
  extract_lets +onlyGivenNames x2603
  clear_value x2603
  refine kept_ite (P := Kept q) ?_ ?_
  · refine kept_ite (P := Kept q) ?_ ?_
    · apply addSat_kept
      exact h_s
    · extract_lets +onlyGivenNames x2605
      have h2606 : Kept q x2605 := by
        unfold x2605
        refine kept_mk (s := s) ?_
        exact h_s
      clear_value x2605
      split
      · rename_i z2607 z2608
        exact h2606
      · rename_i z2609
        apply kept_fst
        apply transitColl_kept
        exact h2606
  · split
    · rename_i z2610 z2611
      apply joinUp_kept
      exact h_s
    · rename_i z2612
      split
      · rename_i z2613 z2614 z2615
        apply txFlit_kept
        exact h_s
      · rename_i z2616 z2617
        refine kept_ite (P := Kept q) ?_ ?_
        · apply addSat_kept
          exact h_s
        · extract_lets +onlyGivenNames x2618
          have h2619 : KFst q x2618 := by
            unfold x2618
            apply transitColl_kept
            exact h_s
          clear_value x2618
          apply joinUp_kept
          exact h2619

theorem flitIn_kept {q : List Instr} (s : State) (port : ℕ) (f : Flit) (h_s : Kept q s) : Kept q (flitIn s port f) := by
  unfold flitIn
  refine kept_ite (P := Kept q) ?_ ?_
  · exact h_s
  · refine kept_ite (P := Kept q) ?_ ?_
    · apply parapetDrop_kept
      exact h_s
    · refine kept_ite (P := Kept q) ?_ ?_
      · exact h_s
      · refine kept_ite (P := Kept q) ?_ ?_
        · split
          · rename_i z1311 z1312 z1313
            refine kept_ite (P := Kept q) ?_ ?_
            · apply addSat_kept
              exact h_s
            · refine kept_ite (P := Kept q) ?_ ?_
              · apply failColl_kept
                exact h_s
              · apply takeDown_kept
                exact h_s
          · rename_i z1314 z1315
            apply addSat_kept
            exact h_s
        · apply flitUp_kept
          exact h_s

theorem adopt_kept {q : List Instr} (s : State) (c : Coll) (h_s : Kept q s) : Kept q (adopt s c) := by
  unfold adopt
  split
  · rename_i z2625 z2626 z2627
    refine kept_mk (s := s) ?_
    exact h_s
  · rename_i z2628 z2629
    exact h_s

theorem readSrc_kept {q : List Instr} (s : State) (c : Coll) (h_s : Kept q s) : KFst q (readSrc s c) := by
  unfold readSrc
  extract_lets +onlyGivenNames x1143
  clear_value x1143
  split
  · rename_i z1145 z1146 z1147
    refine kept_ite (P := KFst q) ?_ ?_
    · exact h_s
    · split
      · rename_i z1148 z1149 z1150 z1151 z1152
        have h1153 := kept_eq (P := KFst q) z1152 (by
          apply vaBytes_kept
          exact h_s)
        exact h1153
      · rename_i z1154 z1155 z1156 z1157
        have h1158 := kept_eq (P := KFst q) z1157 (by
          apply vaBytes_kept
          exact h_s)
        exact h1158
      · rename_i z1159 z1160 z1161
        have h1162 := kept_eq (P := KFst q) z1161 (by
          apply vaBytes_kept
          exact h_s)
        exact h1162
  · rename_i z1163 z1164
    exact h_s

theorem drainMatch_kept {q : List Instr} (s : State) (id : Nat) (h_s : Kept q s) : Kept q (drainMatch s id) := by
  unfold drainMatch
  split
  · rename_i z2652 z2653
    exact h_s
  · rename_i z2654 z2655 z2656
    extract_lets +onlyGivenNames x2657
    clear_value x2657
    extract_lets +onlyGivenNames x2659
    have h2660 : Kept q x2659 := by
      unfold x2659
      refine kept_mk (s := s) ?_
      exact h_s
    clear_value x2659
    refine kept_foldl ?_ ?_
    · intro v2661 v2662 v2663
      apply joinUp_kept
      exact v2663
    · exact h2660

theorem endHere_kept {q : List Instr} (s : State) (id st sub : Nat) (h_s : Kept q s) : Kept q (endHere s id st sub) := by
  unfold endHere
  apply modColl_kept
  exact h_s

theorem startColl_kept {q : List Instr} (s0 : State) (id : ℕ) (h_s0 : Kept q s0) : Kept q (startColl s0 id) := by
  unfold startColl
  split
  · rename_i z1165 z1166
    exact h_s0
  · rename_i z1167 z1168 z1169
    refine kept_ite (P := Kept q) ?_ ?_
    · apply modColl_kept
      exact h_s0
    · extract_lets +onlyGivenNames x1170
      clear_value x1170
      refine kept_ite (P := Kept q) ?_ ?_
      · apply endHere_kept
        exact h_s0
      · refine kept_ite (P := Kept q) ?_ ?_
        · apply endHere_kept
          exact h_s0
        · split
          · rename_i z1172 z1173 z1174
            have h1175 := kept_eq (P := KFst q) z1174 (by
              apply readSrc_kept
              exact h_s0)
            apply modColl_kept
            exact h_s0
          · rename_i z1176 z1177 z1178 z1179 z1180
            have h1181 := kept_eq (P := KFst q) z1180 (by
              apply readSrc_kept
              exact h_s0)
            extract_lets +onlyGivenNames x1182
            clear_value x1182
            extract_lets +onlyGivenNames x1184
            have h1185 : Kept q x1184 := by
              unfold x1184
              apply modColl_kept
              exact h1181
            clear_value x1184
            extract_lets +onlyGivenNames x1186
            have h1187 : Kept q x1186 := by
              unfold x1186
              apply claimSlots_kept
              apply adopt_kept
              exact h1185
            clear_value x1186
            split
            · rename_i z1188 z1189
              extract_lets +onlyGivenNames x1190
              have h1191 : Kept q x1190 := by
                unfold x1190
                apply failColl_kept
                exact h1187
              clear_value x1190
              apply modColl_kept
              exact h1191
            · rename_i z1192 z1193
              extract_lets +onlyGivenNames x1194
              have h1195 : Kept q x1194 := by
                unfold x1194
                refine kept_foldl ?_ ?_
                · intro v1196 v1197 v1198
                  split
                  · rename_i z1199 z1200
                    exact v1198
                  · rename_i z1201 z1202 z1203
                    extract_lets +onlyGivenNames x1204
                    clear_value x1204
                    refine kept_ite (P := Kept q) ?_ ?_
                    · apply sendUp_kept
                      exact v1198
                    · apply addInput_kept
                      exact v1198
                · exact h1187
              clear_value x1194
              apply drainMatch_kept
              exact h1195
            · rename_i z1206
              exact h1187

theorem collEnd_kept {q : List Instr} (s : State) (c : Coll) (h_s : Kept q s) : Kept q (collEnd s c) := by
  unfold collEnd
  extract_lets +onlyGivenNames x2706
  have h2707 : Kept q x2706 := by
    unfold x2706
    refine kept_ite (P := Kept q) ?_ ?_
    · apply addSat_kept
      exact h_s
    · exact h_s
  clear_value x2706
  extract_lets +onlyGivenNames x2708
  have h2709 : Kept q x2708 := by
    unfold x2708
    refine kept_ite (P := Kept q) ?_ ?_
    · apply addDiv_kept
      exact h2707
    · exact h2707
  clear_value x2708
  extract_lets +onlyGivenNames x2710
  have h2711 : Kept q x2710 := by
    unfold x2710
    split
    · rename_i z2712 z2713 z2714
      refine kept_ite (P := Kept q) ?_ ?_
      · exact h2709
      · extract_lets +onlyGivenNames x2715
        clear_value x2715
        refine kept_mk (s := x2708) ?_
        exact h2709
    · rename_i z2717 z2718
      exact h2709
  clear_value x2710
  apply dropColl_kept
  exact h2711

theorem queueColl_kept {q : List Instr} (s : State) (c : Coll) (h_s : Kept q s) : Kept q (queueColl s c) := by
  unfold queueColl
  extract_lets +onlyGivenNames x1207
  have h1208 : Kept q x1207 := by
    unfold x1207
    refine kept_mk (s := s) ?_
    exact h_s
  clear_value x1207
  refine kept_ite (P := Kept q) ?_ ?_
  · apply startColl_kept
    exact h1208
  · exact h1208

theorem fireColl_kept {q : List Instr} (s : State) (user : CollUser) (ctx : ℕ) (ws : List Word) (src : List Byte) (eng : ℕ) (h_s : Kept q s) : Kept q (fireColl s user ctx ws src eng) := by
  unfold fireColl
  extract_lets +onlyGivenNames x1209
  clear_value x1209
  extract_lets +onlyGivenNames x1211
  clear_value x1211
  extract_lets +onlyGivenNames x1213
  clear_value x1213
  extract_lets +onlyGivenNames x1215
  clear_value x1215
  extract_lets +onlyGivenNames x1217
  have h1218 : Kept q x1217 := by
    unfold x1217
    apply wrf_kept
    exact h_s
  clear_value x1217
  apply queueColl_kept
  refine kept_mk (s := x1217) ?_
  exact h1218

theorem fireLocal_kept {q : List Instr} (s : State) (t : ℕ) (ws : List Word) (eng : ℕ) (h_s : Kept q s) : Kept q (fireLocal s t ws eng) := by
  unfold fireLocal
  apply queueColl_kept
  exact h_s

theorem fireTrig_kept {q : List Instr} (s : State) (t : ℕ) (h_s : Kept q s) : Kept q (fireTrig s t) := by
  unfold fireTrig
  extract_lets +onlyGivenNames x1219
  clear_value x1219
  extract_lets +onlyGivenNames x1221
  clear_value x1221
  extract_lets +onlyGivenNames x1223
  clear_value x1223
  extract_lets +onlyGivenNames x1225
  have h1226 : Kept q x1225 := by
    unfold x1225
    refine kept_ite (P := Kept q) ?_ ?_
    · apply wrf_kept
      exact h_s
    · apply wrf_kept
      exact h_s
  clear_value x1225
  extract_lets +onlyGivenNames x1227
  clear_value x1227
  refine kept_ite (P := Kept q) ?_ ?_
  · apply fireLocal_kept
    exact h1226
  · apply fireColl_kept
    exact h1226

theorem fireRounds_kept {q : List Instr} (n a1 : ℕ) (a2 : State) (h_a2 : Kept q a2) : Kept q (fireRounds n a1 a2) := by
  induction a1 generalizing n a2
  · rw [fireRounds]
    exact h_a2
  · rename_i z1229 z1230
    rw [fireRounds]
    refine kept_ite (P := Kept q) ?_ ?_
    · apply z1230
      refine kept_foldl ?_ ?_
      · intro v1231 v1232 v1233
        refine kept_ite (P := Kept q) ?_ ?_
        · apply fireTrig_kept
          exact v1233
        · exact v1233
      · exact h_a2
    · exact h_a2

theorem fireCounter_kept {q : List Instr} (s : State) (n : ℕ) (h_s : Kept q s) : Kept q (fireCounter s n) := by
  unfold fireCounter
  apply fireRounds_kept
  exact h_s

theorem tctrAdd_kept {q : List Instr} (s : State) (n v : ℕ) (h_s : Kept q s) : Kept q (tctrAdd s n v) := by
  unfold tctrAdd
  refine kept_ite (P := Kept q) ?_ ?_
  · apply fireCounter_kept
    apply wrf_kept
    exact h_s
  · exact h_s

theorem loseMembers_kept {q : List Instr} (s : State) (h_s : Kept q s) : Kept q (loseMembers s) := by
  unfold loseMembers
  refine kept_foldl ?_ ?_
  · intro v2752 v2753 v2754
    refine kept_ite (P := Kept q) ?_ ?_
    · apply endHere_kept
      exact v2754
    · apply dropColl_kept
      exact v2754
  · exact h_s

theorem readBlock_kept {q : List Instr} (s : State) (p area i : ℕ) (h_s : Kept q s) : KFst q (readBlock s p area i) := by
  unfold readBlock
  split
  · rename_i z0 z1
    exact h_s
  · rename_i z2 z3 z4 z5
    split
    · rename_i z6 z7
      exact h_s
    · rename_i z8 z9 z10
      exact h_s

theorem writeBlock_kept {q : List Instr} (s : State) (p area i : Nat) (bs : List Byte) (h_s : Kept q s) : Kept q (writeBlock s p area i bs) := by
  unfold writeBlock
  split
  · rename_i z2768 z2769
    exact h_s
  · rename_i z2770 z2771 z2772 z2773
    refine kept_mk (s := s) ?_
    exact h_s

theorem readBlocks_kept {q : List Instr} (s : State) (p area i a4 : Nat) (h_s : Kept q s) : KFst q (readBlocks s p area i a4) := by
  induction a4 generalizing s p area i
  · rw [readBlocks]
    exact h_s
  · rename_i z2774 z2775
    rw [readBlocks]
    apply kept_pair
    apply kept_fst
    apply z2775
    apply kept_fst
    apply readBlock_kept
    exact h_s

theorem writeBlocks_kept {q : List Instr} (s : State) (p area i : Nat) (bs : List Byte) (a5 : Nat) (h_s : Kept q s) : Kept q (writeBlocks s p area i bs a5) := by
  induction a5 generalizing s p area i bs
  · rw [writeBlocks]
    exact h_s
  · rename_i z2776 z2777
    rw [writeBlocks]
    apply z2777
    apply writeBlock_kept
    exact h_s

theorem setPhase_kept {q : List Instr} (s : State) (p n : Nat) (h_s : Kept q s) : Kept q (setPhase s p n) := by
  unfold setPhase
  apply wrf_kept
  exact h_s

theorem restPhase_kept {q : List Instr} (s : State) (p : Nat) (h_s : Kept q s) : Kept q (restPhase s p) := by
  unfold restPhase
  apply setPhase_kept
  exact h_s

theorem ckpStat_kept {q : List Instr} (s : State) (p st sub : Nat) (h_s : Kept q s) : Kept q (ckpStat s p st sub) := by
  unfold ckpStat
  apply wrf_kept
  exact h_s

theorem devWrite_kept {q : List Instr} (s : State) (a : ℕ) (bs : List Byte) (h_s : Kept q s) : Kept q (devWrite s a bs) := by
  unfold devWrite
  split
  · rename_i z1234 z1235 z1236
    exact h_s
  · rename_i z1237 z1238
    apply physWrite_kept
    exact h_s

theorem writeRelease_kept {q : List Instr} (s : State) (p st sub flags cut : ℕ) (h_s : Kept q s) : Kept q (writeRelease s p st sub flags cut) := by
  unfold writeRelease
  extract_lets +onlyGivenNames x1239
  clear_value x1239
  extract_lets +onlyGivenNames x1241
  have h1242 : Kept q x1241 := by
    unfold x1241
    apply ckpStat_kept
    exact h_s
  clear_value x1241
  extract_lets +onlyGivenNames x1243
  have h1244 : Kept q x1243 := by
    unfold x1243
    apply devWrite_kept
    exact h1242
  clear_value x1243
  apply devWrite_kept
  exact h1244

theorem execCkpCfgValid_kept {q : List Instr} (p : Nat) (v : Word) (s : State) (h_s : Kept q s) : KOut q (execCkpCfgValid p v s) := by
  unfold execCkpCfgValid
  apply kept_next
  refine kept_ite (P := Kept q) ?_ ?_
  · exact h_s
  · refine kept_ite (P := Kept q) ?_ ?_
    · extract_lets +onlyGivenNames x2789
      have h2790 : Kept q x2789 := by
        unfold x2789
        apply regPut_kept
        exact h_s
      clear_value x2789
      apply wr_kept
      exact h2790
    · apply regPut_kept
      exact h_s

theorem setCause_kept {q : List Instr} (s : State) (p b : Nat) (h_s : Kept q s) : Kept q (setCause s p b) := by
  unfold setCause
  apply wrf_kept
  exact h_s

theorem takeVote_kept {q : List Instr} (s : State) (p vote fmap : ℕ) (slots : List ℕ) (h_s : Kept q s) : Kept q (takeVote s p vote fmap slots) := by
  unfold takeVote
  apply fireColl_kept
  exact h_s

theorem boundary_kept {q : List Instr} (s : State) (p : ℕ) (h_s : Kept q s) : Kept q (boundary s p) := by
  unfold boundary
  extract_lets +onlyGivenNames x1245
  have h1246 : KFst q x1245 := by
    unfold x1245
    apply physRead_kept
    exact h_s
  clear_value x1245
  extract_lets +onlyGivenNames x1247
  have h1248 : Kept q x1247 := by
    unfold x1247
    refine kept_foldl ?_ ?_
    · intro v1249 v1250 v1251
      apply wr_kept
      exact v1251
    · exact h1246
  clear_value x1247
  extract_lets +onlyGivenNames x1252
  clear_value x1252
  extract_lets +onlyGivenNames x1254
  have h1255 : Kept q x1254 := by
    unfold x1254
    apply wr_kept
    exact h1248
  clear_value x1254
  extract_lets +onlyGivenNames x1256
  clear_value x1256
  extract_lets +onlyGivenNames x1258
  have h1259 : Kept q x1258 := by
    unfold x1258
    refine kept_ite (P := Kept q) ?_ ?_
    · apply setCause_kept
      exact h1255
    · exact h1255
  clear_value x1258
  refine kept_ite (P := Kept q) ?_ ?_
  · apply takeVote_kept
    apply setPhase_kept
    exact h1259
  · apply writeRelease_kept
    exact h1259

theorem takeBounds_kept {q : List Instr} (p a1 : ℕ) (a2 : State) (h_a2 : Kept q a2) : Kept q (takeBounds p a1 a2) := by
  induction a1 generalizing p a2
  · rw [takeBounds]
    exact h_a2
  · rename_i z1260 z1261
    rw [takeBounds]
    refine kept_ite (P := Kept q) ?_ ?_
    · exact h_a2
    · apply z1261
      apply boundary_kept
      apply setCkp_kept
      exact h_a2

theorem counterAdd_kept {q : List Instr} (s : State) (n v : ℕ) (h_s : Kept q s) : Kept q (counterAdd s n v) := by
  unfold counterAdd
  extract_lets +onlyGivenNames x1262
  clear_value x1262
  extract_lets +onlyGivenNames x1264
  have h1265 : Kept q x1264 := by
    unfold x1264
    apply tctrAdd_kept
    exact h_s
  clear_value x1264
  refine kept_foldl ?_ ?_
  · intro v1266 v1267 v1268
    refine kept_ite (P := Kept q) ?_ ?_
    · extract_lets +onlyGivenNames x1269
      clear_value x1269
      apply takeBounds_kept
      apply setCkp_kept
      exact v1268
    · exact v1268
  · exact h1265

theorem moverSend_kept {q : List Instr} (s : State) (p ty va mask : ℕ) (data : List Byte) (pois : Bool) (h_s : Kept q s) : KFst q (moverSend s p ty va mask data pois) := by
  unfold moverSend
  split
  · rename_i z1271 z1272 z1273 z1274
    exact h_s
  · rename_i z1275 z1276 z1277 z1278
    extract_lets +onlyGivenNames x1279
    have h1280 : KSnd q x1279 := by
      unfold x1279
      apply takeSeq_kept
      exact h_s
    clear_value x1279
    extract_lets +onlyGivenNames x1281
    clear_value x1281
    extract_lets +onlyGivenNames x1283
    clear_value x1283
    split
    · rename_i z1285 z1286 z1287
      exact h_s
    · rename_i z1288 z1289
      apply kept_pair
      apply sendReq_kept
      exact h1280

theorem sendDrain_kept {q : List Instr} (s : State) (p : ℕ) (d : Drain) (i : ℕ) (h_s : Kept q s) : KFst q (sendDrain s p d i) := by
  unfold sendDrain
  extract_lets +onlyGivenNames x1290
  clear_value x1290
  extract_lets +onlyGivenNames x1292
  clear_value x1292
  extract_lets +onlyGivenNames x1294
  clear_value x1294
  extract_lets +onlyGivenNames x1296
  clear_value x1296
  extract_lets +onlyGivenNames x1298
  clear_value x1298
  refine kept_ite (P := KFst q) ?_ ?_
  · refine kept_ite (P := KFst q) ?_ ?_
    · apply moverSend_kept
      exact h_s
    · exact h_s
  · refine kept_ite (P := KFst q) ?_ ?_
    · extract_lets +onlyGivenNames x1300
      clear_value x1300
      extract_lets +onlyGivenNames x1302
      have h1303 : KFst q x1302 := by
        unfold x1302
        apply physRead_kept
        exact h_s
      clear_value x1302
      refine kept_ite (P := KFst q) ?_ ?_
      · apply moverSend_kept
        exact h1303
      · exact h_s
    · refine kept_ite (P := KFst q) ?_ ?_
      · refine kept_ite (P := KFst q) ?_ ?_
        · apply moverSend_kept
          exact h_s
        · exact h_s
      · refine kept_ite (P := KFst q) ?_ ?_
        · apply moverSend_kept
          exact h_s
        · exact h_s

theorem pumpDrain_kept {q : List Instr} (p a1 : ℕ) (a2 : State) (h_a2 : Kept q a2) : Kept q (pumpDrain p a1 a2) := by
  induction a1 generalizing p a2
  · rw [pumpDrain]
    exact h_a2
  · rename_i z1304 z1305
    rw [pumpDrain]
    split
    · rename_i z1306 z1307
      exact h_a2
    · rename_i z1308 z1309 z1310
      extract_lets +onlyGivenNames x1311
      clear_value x1311
      extract_lets +onlyGivenNames x1313
      have h1314 : Kept q x1313 := by
        unfold x1313
        refine kept_mk (s := a2) ?_
        exact h_a2
      clear_value x1313
      extract_lets +onlyGivenNames x1315
      clear_value x1315
      extract_lets +onlyGivenNames x1317
      have h1318 : Kept q x1317 := by
        unfold x1317
        apply setCkp_kept
        exact h1314
      clear_value x1317
      refine kept_ite (P := Kept q) ?_ ?_
      · refine kept_ite (P := Kept q) ?_ ?_
        · exact h1318
        · extract_lets +onlyGivenNames x1319
          have h1320 : KFst q x1319 := by
            unfold x1319
            apply sendDrain_kept
            exact h1318
          clear_value x1319
          apply z1305
          apply setCkp_kept
          exact h1320
      · refine kept_ite (P := Kept q) ?_ ?_
        · apply z1305
          apply setCkp_kept
          exact h1318
        · exact h1318

theorem stopDrain_kept {q : List Instr} (s : State) (p st sub : Nat) (h_s : Kept q s) : Kept q (stopDrain s p st sub) := by
  unfold stopDrain
  extract_lets +onlyGivenNames x2867
  clear_value x2867
  extract_lets +onlyGivenNames x2869
  have h2870 : Kept q x2869 := by
    unfold x2869
    apply setCkp_kept
    exact h_s
  clear_value x2869
  extract_lets +onlyGivenNames x2871
  have h2872 : Kept q x2871 := by
    unfold x2871
    apply ckpStat_kept
    exact h2870
  clear_value x2871
  refine kept_ite (P := Kept q) ?_ ?_
  · apply setPhase_kept
    exact h2872
  · exact h2872

theorem startDrain_kept {q : List Instr} (s : State) (p cut cause : ℕ) (h_s : Kept q s) : Kept q (startDrain s p cut cause) := by
  unfold startDrain
  extract_lets +onlyGivenNames x1321
  clear_value x1321
  extract_lets +onlyGivenNames x1323
  clear_value x1323
  extract_lets +onlyGivenNames x1325
  clear_value x1325
  extract_lets +onlyGivenNames x1327
  have h1328 : Kept q x1327 := by
    unfold x1327
    apply setPhase_kept
    apply setCkp_kept
    exact h_s
  clear_value x1327
  refine kept_ite (P := Kept q) ?_ ?_
  · apply stopDrain_kept
    exact h1328
  · extract_lets +onlyGivenNames x1329
    have h1330 : Kept q x1329 := by
      unfold x1329
      apply writeBlock_kept
      exact h1328
    clear_value x1329
    apply pumpDrain_kept
    apply wr_kept
    exact h1330

theorem execCutVoteResult_kept {q : List Instr} (p : ℕ) (s : State) (h_s : Kept q s) : KOut q (execCutVoteResult p s) := by
  unfold execCutVoteResult
  apply kept_next
  split
  · rename_i z1331 z1332
    exact h_s
  · rename_i z1333 z1334 z1335
    refine kept_ite (P := Kept q) ?_ ?_
    · exact h_s
    · extract_lets +onlyGivenNames x1336
      clear_value x1336
      extract_lets +onlyGivenNames x1338
      have h1339 : Kept q x1338 := by
        unfold x1338
        apply collEnd_kept
        exact h_s
      clear_value x1338
      extract_lets +onlyGivenNames x1340
      have h1341 : (∀ y1342, Kept q y1342 → Kept q (x1340 y1342)) := by
        unfold x1340
        intro v1343 v1344
        apply takeBounds_kept
        apply restPhase_kept
        exact v1344
      clear_value x1340
      refine kept_ite (P := Kept q) ?_ ?_
      · apply writeRelease_kept
        exact h1339
      · refine kept_ite (P := Kept q) ?_ ?_
        · exact h1339
        · refine kept_ite (P := Kept q) ?_ ?_
          · apply h1341
            apply writeRelease_kept
            exact h1339
          · extract_lets +onlyGivenNames x1345
            have h1346 : Kept q x1345 := by
              unfold x1345
              apply wr_kept
              exact h1339
            clear_value x1345
            refine kept_ite (P := Kept q) ?_ ?_
            · apply h1341
              apply writeRelease_kept
              exact h1346
            · refine kept_ite (P := Kept q) ?_ ?_
              · apply h1341
                apply writeRelease_kept
                exact h1346
              · refine kept_ite (P := Kept q) ?_ ?_
                · apply h1341
                  apply addSat_kept
                  apply writeRelease_kept
                  exact h1346
                · extract_lets +onlyGivenNames x1347
                  have h1348 : Kept q x1347 := by
                    unfold x1347
                    apply wrf_kept
                    exact h1346
                  clear_value x1347
                  extract_lets +onlyGivenNames x1349
                  clear_value x1349
                  extract_lets +onlyGivenNames x1351
                  have h1352 : Kept q x1351 := by
                    unfold x1351
                    apply setPhase_kept
                    apply setCkp_kept
                    exact h1348
                  clear_value x1351
                  apply devWrite_kept
                  exact h1352

theorem copyRegions_kept {q : List Instr} (s : State) (h part dst : ℕ) (a4 : List (ℕ × ℕ × ℕ)) (h_s : Kept q s) : KFst q (copyRegions s h part dst a4) := by
  induction a4 generalizing s h part dst
  · rw [copyRegions]
    exact h_s
  · rename_i z1353 z1354 z1355
    rw [copyRegions]
    split
    · rename_i z1356 z1357 z1358 z1359
      exact h_s
    · rename_i z1360 z1361 z1362 z1363 z1364
      exact h_s
    · rename_i z1365 z1366 z1367 z1368
      extract_lets +onlyGivenNames x1369
      have h1370 : KFst q x1369 := by
        unfold x1369
        apply physRead_kept
        exact h_s
      clear_value x1369
      refine kept_ite (P := KFst q) ?_ ?_
      · exact h1370
      · apply z1355
        apply physWrite_kept
        exact h1370

theorem execCutCopyDone_kept {q : List Instr} (p : ℕ) (s : State) (h_s : Kept q s) : KOut q (execCutCopyDone p s) := by
  unfold execCutCopyDone
  apply kept_next
  refine kept_ite (P := Kept q) ?_ ?_
  · exact h_s
  · extract_lets +onlyGivenNames x1371
    clear_value x1371
    extract_lets +onlyGivenNames x1373
    have h1374 : KFst q x1373 := by
      unfold x1373
      apply copyRegions_kept
      exact h_s
    clear_value x1373
    extract_lets +onlyGivenNames x1375
    have h1376 : KFst q x1375 := by
      unfold x1375
      split
      · rename_i z1377 z1378 z1379
        exact h1374
      · rename_i z1380 z1381
        apply copyRegions_kept
        exact h1374
    clear_value x1375
    extract_lets +onlyGivenNames x1382
    have h1383 : Kept q x1382 := by
      unfold x1382
      split
      · rename_i z1384 z1385 z1386
        exact h1376
      · rename_i z1387 z1388
        apply wr_kept
        apply devWrite_kept
        apply devWrite_kept
        exact h1376
    clear_value x1382
    extract_lets +onlyGivenNames x1389
    clear_value x1389
    extract_lets +onlyGivenNames x1391
    have h1392 : Kept q x1391 := by
      unfold x1391
      apply setPhase_kept
      apply setCkp_kept
      exact h1383
    clear_value x1391
    apply takeVote_kept
    exact h1392

theorem execCopiedVoteResult_kept {q : List Instr} (p : ℕ) (s : State) (h_s : Kept q s) : KOut q (execCopiedVoteResult p s) := by
  unfold execCopiedVoteResult
  apply kept_next
  split
  · rename_i z1393 z1394
    exact h_s
  · rename_i z1395 z1396 z1397
    refine kept_ite (P := Kept q) ?_ ?_
    · exact h_s
    · extract_lets +onlyGivenNames x1398
      clear_value x1398
      extract_lets +onlyGivenNames x1400
      have h1401 : Kept q x1400 := by
        unfold x1400
        apply collEnd_kept
        exact h_s
      clear_value x1400
      refine kept_ite (P := Kept q) ?_ ?_
      · apply writeRelease_kept
        apply devWrite_kept
        exact h1401
      · refine kept_ite (P := Kept q) ?_ ?_
        · exact h1401
        · extract_lets +onlyGivenNames x1402
          clear_value x1402
          refine kept_ite (P := Kept q) ?_ ?_
          · apply takeBounds_kept
            apply startDrain_kept
            apply writeRelease_kept
            exact h1401
          · extract_lets +onlyGivenNames x1404
            have h1405 : Kept q x1404 := by
              unfold x1404
              apply devWrite_kept
              exact h1401
            clear_value x1404
            extract_lets +onlyGivenNames x1406
            clear_value x1406
            apply takeBounds_kept
            apply restPhase_kept
            apply writeRelease_kept
            exact h1405

theorem execDrainSeal_kept {q : List Instr} (p : ℕ) (s : State) (h_s : Kept q s) : KOut q (execDrainSeal p s) := by
  unfold execDrainSeal
  apply kept_next
  extract_lets +onlyGivenNames x1408
  clear_value x1408
  split
  · rename_i z1410 z1411
    exact h_s
  · rename_i z1412 z1413 z1414
    extract_lets +onlyGivenNames x1415
    have h1416 : (∀ y1417 y1418, Kept q y1417 → Kept q (x1415 y1417 y1418)) := by
      unfold x1415
      intro v1419 v1420 v1421
      extract_lets +onlyGivenNames x1422
      clear_value x1422
      extract_lets +onlyGivenNames x1424
      have h1425 : Kept q x1424 := by
        unfold x1424
        apply setCkp_kept
        exact v1421
      clear_value x1424
      extract_lets +onlyGivenNames x1426
      have h1427 : Kept q x1426 := by
        unfold x1426
        apply wr_kept
        exact h1425
      clear_value x1426
      extract_lets +onlyGivenNames x1428
      have h1429 : KFst q x1428 := by
        unfold x1428
        apply readBlock_kept
        exact h1427
      clear_value x1428
      extract_lets +onlyGivenNames x1430
      have h1431 : Kept q x1430 := by
        unfold x1430
        refine kept_ite (P := Kept q) ?_ ?_
        · apply ckpStat_kept
          apply writeBlock_kept
          exact h1429
        · apply wr_kept
          exact h1427
      clear_value x1430
      refine kept_ite (P := Kept q) ?_ ?_
      · apply setPhase_kept
        exact h1431
      · exact h1431
    clear_value x1415
    refine kept_ite (P := Kept q) ?_ ?_
    · exact h_s
    · refine kept_ite (P := Kept q) ?_ ?_
      · refine kept_ite (P := Kept q) ?_ ?_
        · apply stopDrain_kept
          exact h_s
        · extract_lets +onlyGivenNames x1432
          have h1433 : KFst q x1432 := by
            unfold x1432
            apply physRead_kept
            exact h_s
          clear_value x1432
          extract_lets +onlyGivenNames x1434
          have h1435 : KFst q x1434 := by
            unfold x1434
            apply physRead_kept
            exact h1433
          clear_value x1434
          extract_lets +onlyGivenNames x1436
          clear_value x1436
          extract_lets +onlyGivenNames x1438
          have h1439 : Kept q x1438 := by
            unfold x1438
            apply writeBlocks_kept
            exact h1435
          clear_value x1438
          extract_lets +onlyGivenNames x1440
          have h1441 : Kept q x1440 := by
            unfold x1440
            apply writeBlock_kept
            exact h1439
          clear_value x1440
          extract_lets +onlyGivenNames x1442
          clear_value x1442
          extract_lets +onlyGivenNames x1444
          have h1445 : Kept q x1444 := by
            unfold x1444
            apply setCkp_kept
            exact h1441
          clear_value x1444
          extract_lets +onlyGivenNames x1446
          have h1447 : Kept q x1446 := by
            unfold x1446
            refine kept_ite (P := Kept q) ?_ ?_
            · apply setPhase_kept
              exact h1445
            · exact h1445
          clear_value x1446
          refine kept_ite (P := Kept q) ?_ ?_
          · apply h1416
            exact h1447
          · apply pumpDrain_kept
            exact h1447
      · refine kept_ite (P := Kept q) ?_ ?_
        · apply h1416
          exact h_s
        · exact h_s

theorem execDrainWriteFail_kept {q : List Instr} (p : Nat) (s : State) (h_s : Kept q s) : KOut q (execDrainWriteFail p s) := by
  unfold execDrainWriteFail
  apply kept_next
  refine kept_ite (P := Kept q) ?_ ?_
  · apply stopDrain_kept
    exact h_s
  · exact h_s

theorem undefRegions_kept {q : List Instr} (s : State) (p : Nat) (h_s : Kept q s) : Kept q (undefRegions s p) := by
  unfold undefRegions
  refine kept_foldl ?_ ?_
  · intro v2998 v2999 v3000
    apply memUndef_kept
    exact v3000
  · exact h_s

theorem applyCut_kept {q : List Instr} (s : State) (p : ℕ) (map : List (ℕ × ℕ × ℕ × ℕ)) (seqs : List (List Byte)) (h_s : Kept q s) : KFst q (applyCut s p map seqs) := by
  unfold applyCut
  extract_lets +onlyGivenNames x1448
  clear_value x1448
  extract_lets +onlyGivenNames x1450
  have h1451 : Kept q x1450 := by
    unfold x1450
    refine kept_foldl ?_ ?_
    · intro v1452 v1453 v1454
      apply physWrite_kept
      exact v1454
    · exact h_s
  clear_value x1450
  extract_lets +onlyGivenNames x1455
  clear_value x1455
  extract_lets +onlyGivenNames x1457
  clear_value x1457
  refine kept_ite (P := KFst q) ?_ ?_
  · exact h1451
  · extract_lets +onlyGivenNames x1459
    clear_value x1459
    extract_lets +onlyGivenNames x1461
    have h1462 : Kept q x1461 := by
      unfold x1461
      apply wr_kept
      exact h1451
    clear_value x1461
    extract_lets +onlyGivenNames x1463
    have h1464 : Kept q x1463 := by
      unfold x1463
      refine kept_foldl ?_ ?_
      · intro v1465 v1466 v1467
        apply wr_kept
        exact v1467
      · exact h1462
    clear_value x1463
    extract_lets +onlyGivenNames x1468
    have h1469 : Kept q x1468 := by
      unfold x1468
      apply devWrite_kept
      exact h1464
    clear_value x1468
    apply kept_pair
    refine kept_foldl ?_ ?_
    · intro v1470 v1471 v1472
      refine kept_foldl ?_ ?_
      · intro v1473 v1474 v1475
        apply wr_kept
        apply wr_kept
        exact v1475
      · exact v1472
    · exact h1469

theorem restFail_kept {q : List Instr} (s : State) (p : Nat) (r : Restore) (e : Nat × Nat) (h_s : Kept q s) : Kept q (restFail s p r e) := by
  unfold restFail
  apply ckpStat_kept
  apply setCkp_kept
  exact h_s

theorem beginCoff_kept {q : List Instr} (s : State) (p : ℕ) (r : Restore) (h_s : Kept q s) : Kept q (beginCoff s p r) := by
  unfold beginCoff
  extract_lets +onlyGivenNames x1476
  have h1477 : KFst q x1476 := by
    unfold x1476
    apply physRead_kept
    exact h_s
  clear_value x1476
  extract_lets +onlyGivenNames x1478
  clear_value x1478
  refine kept_ite (P := Kept q) ?_ ?_
  · apply restFail_kept
    exact h1477
  · refine kept_ite (P := Kept q) ?_ ?_
    · apply restFail_kept
      exact h1477
    · apply undefRegions_kept
      apply setCkp_kept
      exact h1477

theorem beginModules_kept {q : List Instr} (s : State) (p : Nat) (r : Restore) (h_s : Kept q s) : Kept q (beginModules s p r) := by
  unfold beginModules
  refine kept_ite (P := Kept q) ?_ ?_
  · apply restFail_kept
    exact h_s
  · extract_lets +onlyGivenNames x3033
    have h3034 : KFst q x3033 := by
      unfold x3033
      apply readBlock_kept
      exact h_s
    clear_value x3033
    extract_lets +onlyGivenNames x3035
    have h3036 : KFst q x3035 := by
      unfold x3035
      apply readBlock_kept
      exact h3034
    clear_value x3035
    extract_lets +onlyGivenNames x3037
    have h3038 : Kept q x3037 := by
      unfold x3037
      exact h3036
    clear_value x3037
    extract_lets +onlyGivenNames x3039
    clear_value x3039
    extract_lets +onlyGivenNames x3041
    clear_value x3041
    extract_lets +onlyGivenNames x3043
    clear_value x3043
    split
    · rename_i z3045
      apply restFail_kept
      exact h3038
    · rename_i z3046 z3047
      extract_lets +onlyGivenNames x3048
      clear_value x3048
      split
      · rename_i z3050 z3051
        apply restFail_kept
        exact h3038
      · rename_i z3052 z3053 z3054
        extract_lets +onlyGivenNames x3055
        clear_value x3055
        extract_lets +onlyGivenNames x3057
        clear_value x3057
        extract_lets +onlyGivenNames x3059
        have h3060 : Kept q x3059 := by
          unfold x3059
          apply setCkp_kept
          exact h3038
        clear_value x3059
        refine kept_ite (P := Kept q) ?_ ?_
        · apply restFail_kept
          exact h3060
        · refine kept_ite (P := Kept q) ?_ ?_
          · exact h3060
          · refine kept_ite (P := Kept q) ?_ ?_
            · apply restFail_kept
              exact h3060
            · apply undefRegions_kept
              exact h3060

theorem pumpRest_kept {q : List Instr} (p a1 : ℕ) (a2 : State) (h_a2 : Kept q a2) : Kept q (pumpRest p a1 a2) := by
  induction a1 generalizing p a2
  · rw [pumpRest]
    exact h_a2
  · rename_i z1480 z1481
    rw [pumpRest]
    split
    · rename_i z1482 z1483
      exact h_a2
    · rename_i z1484 z1485 z1486
      refine kept_ite (P := Kept q) ?_ ?_
      · exact h_a2
      · refine kept_ite (P := Kept q) ?_ ?_
        · refine kept_ite (P := Kept q) ?_ ?_
          · exact h_a2
          · extract_lets +onlyGivenNames x1487
            have h1488 : KFst q x1487 := by
              unfold x1487
              apply moverSend_kept
              exact h_a2
            clear_value x1487
            extract_lets +onlyGivenNames x1489
            clear_value x1489
            refine kept_ite (P := Kept q) ?_ ?_
            · apply z1481
              apply setCkp_kept
              exact h1488
            · apply restFail_kept
              exact h_a2
        · refine kept_ite (P := Kept q) ?_ ?_
          · exact h_a2
          · split
            · rename_i z1491 z1492 z1493
              apply restFail_kept
              exact h_a2
            · rename_i z1494 z1495
              refine kept_ite (P := Kept q) ?_ ?_
              · exact h_a2
              · extract_lets +onlyGivenNames x1496
                clear_value x1496
                extract_lets +onlyGivenNames x1498
                clear_value x1498
                extract_lets +onlyGivenNames x1500
                clear_value x1500
                extract_lets +onlyGivenNames x1502
                clear_value x1502
                extract_lets +onlyGivenNames x1504
                clear_value x1504
                extract_lets +onlyGivenNames x1506
                clear_value x1506
                extract_lets +onlyGivenNames x1508
                clear_value x1508
                split
                · rename_i z1510
                  apply restFail_kept
                  exact h_a2
                · rename_i z1511 z1512
                  extract_lets +onlyGivenNames x1513
                  clear_value x1513
                  extract_lets +onlyGivenNames x1515
                  clear_value x1515
                  refine kept_ite (P := Kept q) ?_ ?_
                  · apply restFail_kept
                    exact h_a2
                  · refine kept_ite (P := Kept q) ?_ ?_
                    · apply restFail_kept
                      exact h_a2
                    · refine kept_ite (P := Kept q) ?_ ?_
                      · apply restFail_kept
                        exact h_a2
                      · extract_lets +onlyGivenNames x1517
                        have h1518 : Kept q x1517 := by
                          unfold x1517
                          refine kept_ite (P := Kept q) ?_ ?_
                          · exact h_a2
                          · apply undefRegions_kept
                            exact h_a2
                        clear_value x1517
                        apply z1481
                        apply setCkp_kept
                        exact h1518

theorem ckpPump_kept {q : List Instr} (s : State) (h_s : Kept q s) : Kept q (ckpPump s) := by
  unfold ckpPump
  refine kept_foldl ?_ ?_
  · intro v1519 v1520 v1521
    apply pumpRest_kept
    apply pumpDrain_kept
    apply takeBounds_kept
    exact v1521
  · exact h_s

theorem startRestore_kept {q : List Instr} (s : State) (p source : ℕ) (reshard auto : Bool) (h_s : Kept q s) : Kept q (startRestore s p source reshard auto) := by
  unfold startRestore
  extract_lets +onlyGivenNames x1522
  clear_value x1522
  refine kept_ite (P := Kept q) ?_ ?_
  · exact h_s
  · extract_lets +onlyGivenNames x1524
    clear_value x1524
    extract_lets +onlyGivenNames x1526
    clear_value x1526
    extract_lets +onlyGivenNames x1528
    have h1529 : Kept q x1528 := by
      unfold x1528
      apply setPhase_kept
      apply setCkp_kept
      exact h_s
    clear_value x1528
    extract_lets +onlyGivenNames x1530
    have h1531 : Kept q x1530 := by
      unfold x1530
      refine kept_mk (s := x1528) ?_
      exact h1529
    clear_value x1530
    refine kept_ite (P := Kept q) ?_ ?_
    · apply beginCoff_kept
      exact h1531
    · refine kept_ite (P := Kept q) ?_ ?_
      · apply beginModules_kept
        exact h1531
      · apply pumpRest_kept
        exact h1531

theorem restoreVote_kept {q : List Instr} (s : State) (p : ℕ) (r : Restore) (h_s : Kept q s) : Kept q (restoreVote s p r) := by
  unfold restoreVote
  apply takeVote_kept
  apply setPhase_kept
  exact h_s

theorem stageCut_kept {q : List Instr} (s : State) (seqs : List (List Byte)) (h_s : Kept q s) : Kept q (stageCut s seqs) := by
  unfold stageCut
  apply devWrite_kept
  exact h_s

theorem restRead_kept {q : List Instr} (s : State) (p : ℕ) (r : Restore) (h_s : Kept q s) : KOpt q (restRead s p r) := by
  unfold restRead
  refine kept_ite (P := KOpt q) ?_ ?_
  · extract_lets +onlyGivenNames x1532
    have h1533 : KFst q x1532 := by
      unfold x1532
      apply physRead_kept
      exact h_s
    clear_value x1532
    extract_lets +onlyGivenNames x1534
    have h1535 : KFst q x1534 := by
      unfold x1534
      apply physRead_kept
      exact h1533
    clear_value x1534
    apply kept_some
    exact h1535
  · refine kept_ite (P := KOpt q) ?_ ?_
    · refine kept_ite (P := KOpt q) ?_ ?_
      · apply kept_some
        exact h_s
      · extract_lets +onlyGivenNames x1536
        have h1537 : KFst q x1536 := by
          unfold x1536
          apply readBlock_kept
          exact h_s
        clear_value x1536
        extract_lets +onlyGivenNames x1538
        clear_value x1538
        extract_lets +onlyGivenNames x1540
        clear_value x1540
        extract_lets +onlyGivenNames x1542
        have h1543 : KFst q x1542 := by
          unfold x1542
          apply readBlocks_kept
          exact h1537
        clear_value x1542
        apply kept_some
        exact h1543
    · refine kept_ite (P := KOpt q) ?_ ?_
      · exact kept_none
      · extract_lets +onlyGivenNames x1544
        clear_value x1544
        extract_lets +onlyGivenNames x1546
        clear_value x1546
        extract_lets +onlyGivenNames x1548
        clear_value x1548
        split
        · rename_i z1550 z1551 z1552
          apply kept_some
          exact h_s
        · rename_i z1553 z1554
          apply kept_some
          exact h_s

theorem execRestoreLocalDone_kept {q : List Instr} (p : ℕ) (s : State) (h_s : Kept q s) : KOut q (execRestoreLocalDone p s) := by
  unfold execRestoreLocalDone
  apply kept_next
  split
  · rename_i z1555 z1556
    exact h_s
  · rename_i z1557 z1558 z1559
    extract_lets +onlyGivenNames x1560
    have h1561 : (∀ y1562 y1563, Kept q y1562 → Kept q (x1560 y1562 y1563)) := by
      unfold x1560
      intro v1564 v1565 v1566
      extract_lets +onlyGivenNames x1567
      clear_value x1567
      extract_lets +onlyGivenNames x1569
      have h1570 : Kept q x1569 := by
        unfold x1569
        refine kept_mk (s := v1564) ?_
        exact v1566
      clear_value x1569
      refine kept_ite (P := Kept q) ?_ ?_
      · apply restPhase_kept
        apply setCkp_kept
        exact h1570
      · extract_lets +onlyGivenNames x1571
        clear_value x1571
        extract_lets +onlyGivenNames x1573
        have h1574 : Kept q x1573 := by
          unfold x1573
          apply setCkp_kept
          exact h1570
        clear_value x1573
        refine kept_ite (P := Kept q) ?_ ?_
        · apply setPhase_kept
          exact h1574
        · apply restoreVote_kept
          exact h1574
    clear_value x1560
    refine kept_ite (P := Kept q) ?_ ?_
    · exact h_s
    · split
      · rename_i z1575 z1576 z1577
        apply h1561
        exact h_s
      · rename_i z1578 z1579
        split
        · rename_i z1580 z1581
          have h1582 := kept_eq (P := KOpt q) z1581 (by
            apply restRead_kept
            exact h_s)
          exact h_s
        · rename_i z1584 z1585 z1586 z1587 z1588 z1589
          have h1590 := kept_eq (P := KOpt q) z1589 (by
            apply restRead_kept
            exact h_s)
          extract_lets +onlyGivenNames x1592
          have h1593 : (∀ y1594 y1595, Kept q y1594 → Kept q (x1592 y1594 y1595)) := by
            unfold x1592
            intro v1596 v1597 v1598
            apply h1561
            apply ckpStat_kept
            exact v1598
          clear_value x1592
          split
          · rename_i z1602 z1603 z1604
            apply h1593
            have h1606 : Kept q _ := h1590 _ rfl
            exact h1606
          · rename_i z1607 z1608 z1609
            refine kept_ite (P := Kept q) ?_ ?_
            · apply h1593
              have h1612 : Kept q _ := h1590 _ rfl
              exact h1612
            · refine kept_ite (P := Kept q) ?_ ?_
              · apply h1561
                apply ckpStat_kept
                apply stageCut_kept
                have h1617 : Kept q _ := h1590 _ rfl
                exact h1617
              · split
                · rename_i z1619 z1620
                  apply h1593
                  have h1622 : Kept q _ := h1590 _ rfl
                  exact h1622
                · rename_i z1623 z1624 z1625
                  split
                  · rename_i z1627 z1628 z1629 z1630
                    have h1631 := kept_eq (P := KFst q) z1630 (by
                      apply applyCut_kept
                      have h1632 : Kept q _ := h1590 _ rfl
                      exact h1632)
                    apply h1593
                    exact h1631
                  · rename_i z1634 z1635 z1636
                    have h1637 := kept_eq (P := KFst q) z1636 (by
                      apply applyCut_kept
                      have h1638 : Kept q _ := h1590 _ rfl
                      exact h1638)
                    apply h1561
                    exact h1637
          · rename_i z1640 z1641
            extract_lets +onlyGivenNames x1643
            clear_value x1643
            split
            · rename_i z1646 z1647 z1648 z1649
              have h1650 := kept_eq (P := KFst q) z1649 (by
                apply applyCut_kept
                have h1651 : Kept q _ := h1590 _ rfl
                exact h1651)
              apply h1593
              exact h1650
            · rename_i z1653 z1654 z1655
              have h1656 := kept_eq (P := KFst q) z1655 (by
                apply applyCut_kept
                have h1657 : Kept q _ := h1590 _ rfl
                exact h1657)
              apply h1561
              exact h1656

theorem execRestoreVoteResult_kept {q : List Instr} (p : ℕ) (s : State) (h_s : Kept q s) : KOut q (execRestoreVoteResult p s) := by
  unfold execRestoreVoteResult
  apply kept_next
  split
  · rename_i z1659 z1660 z1661 z1662 z1663 z1664
    refine kept_ite (P := Kept q) ?_ ?_
    · exact h_s
    · extract_lets +onlyGivenNames x1665
      clear_value x1665
      extract_lets +onlyGivenNames x1667
      have h1668 : Kept q x1667 := by
        unfold x1667
        apply collEnd_kept
        exact h_s
      clear_value x1667
      extract_lets +onlyGivenNames x1669
      have h1670 : (∀ y1671, Kept q y1671 → Kept q (x1669 y1671)) := by
        unfold x1669
        intro v1672 v1673
        apply takeBounds_kept
        apply restPhase_kept
        apply setCkp_kept
        exact v1673
      clear_value x1669
      refine kept_ite (P := Kept q) ?_ ?_
      · apply h1670
        apply writeRelease_kept
        exact h1668
      · refine kept_ite (P := Kept q) ?_ ?_
        · extract_lets +onlyGivenNames x1674
          clear_value x1674
          apply beginModules_kept
          apply setPhase_kept
          apply setCkp_kept
          exact h1668
        · extract_lets +onlyGivenNames x1676
          clear_value x1676
          apply h1670
          apply writeRelease_kept
          exact h1668
  · rename_i z1678 z1679 z1680 z1681 z1682
    apply collEnd_kept
    exact h_s
  · rename_i z1683 z1684 z1685 z1686
    exact h_s

theorem execCkpCmdCut_kept {q : List Instr} (p : Nat) (s : State) (h_s : Kept q s) : KOut q (execCkpCmdCut p s) := by
  unfold execCkpCmdCut
  extract_lets +onlyGivenNames x3239
  clear_value x3239
  apply kept_next
  refine kept_ite (P := Kept q) ?_ ?_
  · exact h_s
  · apply setCause_kept
    exact h_s

theorem execCkpCmdRestoreCofferdam_kept {q : List Instr} (p : ℕ) (s : State) (h_s : Kept q s) : KOut q (execCkpCmdRestoreCofferdam p s) := by
  unfold execCkpCmdRestoreCofferdam
  apply kept_next
  apply startRestore_kept
  exact h_s

theorem execCkpCmdRestoreModules_kept {q : List Instr} (p : ℕ) (s : State) (h_s : Kept q s) : KOut q (execCkpCmdRestoreModules p s) := by
  unfold execCkpCmdRestoreModules
  apply kept_next
  apply startRestore_kept
  exact h_s

theorem execCkpCmdRestoreMirror_kept {q : List Instr} (p : ℕ) (s : State) (h_s : Kept q s) : KOut q (execCkpCmdRestoreMirror p s) := by
  unfold execCkpCmdRestoreMirror
  apply kept_next
  apply startRestore_kept
  exact h_s

theorem execCkpCmdReshard_kept {q : List Instr} (p source : ℕ) (s : State) (h_s : Kept q s) : KOut q (execCkpCmdReshard p source s) := by
  unfold execCkpCmdReshard
  apply kept_next
  refine kept_ite (P := Kept q) ?_ ?_
  · apply startRestore_kept
    exact h_s
  · exact h_s

theorem execCkpCmdStop_kept {q : List Instr} (p : Nat) (s : State) (h_s : Kept q s) : KOut q (execCkpCmdStop p s) := by
  unfold execCkpCmdStop
  apply kept_next
  refine kept_ite (P := Kept q) ?_ ?_
  · apply stopDrain_kept
    exact h_s
  · exact h_s

theorem execCkpCmdRvote_kept {q : List Instr} (p : ℕ) (s : State) (h_s : Kept q s) : KOut q (execCkpCmdRvote p s) := by
  unfold execCkpCmdRvote
  apply kept_next
  split
  · rename_i z1687 z1688 z1689
    refine kept_ite (P := Kept q) ?_ ?_
    · apply restoreVote_kept
      exact h_s
    · exact h_s
  · rename_i z1690 z1691
    exact h_s

theorem onReply_kept {q : List Instr} (ty : ℕ) (p : Pkt) (f : State → OutReq → State) (s : State) (h_f : (∀ y1692 y1693, Kept q y1692 → Kept q (f y1692 y1693))) (h_s : Kept q s) : KOut q (onReply ty p f s) := by
  unfold onReply
  apply kept_next
  apply ckpPump_kept
  refine kept_ite (P := Kept q) ?_ ?_
  · exact h_s
  · refine kept_ite (P := Kept q) ?_ ?_
    · split
      · rename_i z1694 z1695 z1696
        apply splitReply_kept
        apply takeRx_kept
        exact h_s
      · rename_i z1697 z1698
        apply takeRx_kept
        exact h_s
    · split
      · rename_i z1699 z1700
        apply takeRx_kept
        exact h_s
      · rename_i z1701 z1702 z1703
        apply h_f
        apply takeRx_kept
        exact h_s

theorem execPktData_kept {q : List Instr} (p : Pkt) (s : State) (h_s : Kept q s) : KOut q (execPktData p s) := by
  unfold execPktData
  apply onReply_kept
  · intro v1704 v1705 v1706
    extract_lets +onlyGivenNames x1707
    have h1708 : Kept q x1707 := by
      unfold x1707
      apply reqMove_kept
      exact v1706
    clear_value x1707
    extract_lets +onlyGivenNames x1709
    clear_value x1709
    split
    · rename_i z1711 z1712 z1713 z1714
      split
      · rename_i z1715 z1716 z1717
        have h1718 := kept_eq (P := KFst q) z1717 (by
          apply landLine_kept
          exact h1708)
        exact h1718
      · rename_i z1719 z1720 z1721 z1722 z1723
        have h1724 := kept_eq (P := KFst q) z1723 (by
          apply landLine_kept
          exact h1708)
        exact h_s
    · rename_i z1725 z1726
      apply moreLines_kept
      apply gatherGot_kept
      apply dropReq_kept
      exact h1708
    · rename_i z1727 z1728 z1729 z1730 z1731
      apply modGet_kept
      apply dropReq_kept
      exact h1708
    · rename_i z1732 z1733 z1734
      extract_lets +onlyGivenNames x1735
      have h1736 : Kept q x1735 := by
        unfold x1735
        apply dropReq_kept
        exact h1708
      clear_value x1735
      refine kept_mk (s := x1735) ?_
      exact h1736
    · rename_i z1737 z1738 z1739
      extract_lets +onlyGivenNames x1740
      have h1741 : Kept q x1740 := by
        unfold x1740
        apply dropReq_kept
        exact h1708
      clear_value x1740
      refine kept_mk (s := x1740) ?_
      exact h1741
    · rename_i z1742 z1743 z1744 z1745
      exact h1708
    · rename_i z1746 z1747 z1748 z1749
      exact h1708
    · rename_i z1750 z1751 z1752
      exact h1708
  · exact h_s

theorem execPktAck_kept {q : List Instr} (p : Pkt) (s : State) (h_s : Kept q s) : KOut q (execPktAck p s) := by
  unfold execPktAck
  apply onReply_kept
  · intro v1753 v1754 v1755
    split
    · rename_i z1756 z1757 z1758 z1759
      extract_lets +onlyGivenNames x1760
      have h1761 : Kept q x1760 := by
        unfold x1760
        split
        · rename_i z1762 z1763 z1764
          apply arrive_kept
          exact v1755
        · rename_i z1765 z1766
          exact v1755
      clear_value x1760
      apply moreLines_kept
      apply settle_kept
      apply modXfer_kept
      apply dropReq_kept
      exact h1761
    · rename_i z1767 z1768 z1769 z1770
      apply settle_kept
      apply modPut_kept
      apply dropReq_kept
      exact v1755
    · rename_i z1771 z1772 z1773
      apply dropReq_kept
      exact v1755
    · rename_i z1774 z1775 z1776 z1777
      exact v1755
  · exact h_s

theorem execPktValue_kept {q : List Instr} (p : Pkt) (s : State) (h_s : Kept q s) : KOut q (execPktValue p s) := by
  unfold execPktValue
  apply onReply_kept
  · intro v1778 v1779 v1780
    split
    · rename_i z1781 z1782 z1783 z1784
      extract_lets +onlyGivenNames x1785
      have h1786 : Kept q x1785 := by
        unfold x1785
        apply reqMove_kept
        exact v1780
      clear_value x1785
      extract_lets +onlyGivenNames x1787
      clear_value x1787
      apply atomicEnd_kept
      apply dropReq_kept
      exact h1786
    · rename_i z1789 z1790
      exact v1780
  · exact h_s

theorem execPktNackBusy_kept {q : List Instr} (p : Pkt) (s : State) (h_s : Kept q s) : KOut q (execPktNackBusy p s) := by
  unfold execPktNackBusy
  apply onReply_kept
  · intro v1791 v1792 v1793
    refine kept_ite (P := Kept q) ?_ ?_
    · apply reqFail_kept
      apply addSat_kept
      exact v1793
    · refine kept_mk (s := v1791) ?_
      exact v1793
  · exact h_s

theorem execPktNackDomain_kept {q : List Instr} (p : Pkt) (s : State) (h_s : Kept q s) : KOut q (execPktNackDomain p s) := by
  unfold execPktNackDomain
  apply onReply_kept
  · intro v1794 v1795 v1796
    apply reqFail_kept
    exact v1796
  · exact h_s

theorem execPktUnreachable_kept {q : List Instr} (p : Pkt) (s : State) (h_s : Kept q s) : KOut q (execPktUnreachable p s) := by
  unfold execPktUnreachable
  apply onReply_kept
  · intro v1797 v1798 v1799
    apply reqFail_kept
    exact v1799
  · exact h_s

theorem execPktFault_kept {q : List Instr} (p : Pkt) (s : State) (h_s : Kept q s) : KOut q (execPktFault p s) := by
  unfold execPktFault
  apply onReply_kept
  · intro v1800 v1801 v1802
    apply reqFail_kept
    exact v1802
  · exact h_s

theorem resend_kept {q : List Instr} (s : State) (r : OutReq) (nack : Bool) (h_s : Kept q s) : Kept q (resend s r nack) := by
  unfold resend
  extract_lets +onlyGivenNames x1803
  clear_value x1803
  extract_lets +onlyGivenNames x1805
  clear_value x1805
  extract_lets +onlyGivenNames x1807
  clear_value x1807
  apply emit_kept
  apply reqMove_kept
  refine kept_mk (s := s) ?_
  exact h_s

theorem execRetryAfterExpiry_kept {q : List Instr} (eng seq : ℕ) (s : State) (h_s : Kept q s) : KOut q (execRetryAfterExpiry eng seq s) := by
  unfold execRetryAfterExpiry
  apply kept_next
  refine kept_ite (P := Kept q) ?_ ?_
  · exact h_s
  · split
    · rename_i z1809 z1810
      exact h_s
    · rename_i z1811 z1812 z1813
      split
      · rename_i z1814 z1815 z1816
        refine kept_ite (P := Kept q) ?_ ?_
        · apply resend_kept
          exact h_s
        · exact h_s
      · rename_i z1817 z1818
        exact h_s

theorem execResendTimeout_kept {q : List Instr} (eng seq : ℕ) (s : State) (h_s : Kept q s) : KOut q (execResendTimeout eng seq s) := by
  unfold execResendTimeout
  apply kept_next
  apply ckpPump_kept
  refine kept_ite (P := Kept q) ?_ ?_
  · exact h_s
  · split
    · rename_i z1819 z1820
      exact h_s
    · rename_i z1821 z1822 z1823
      refine kept_ite (P := Kept q) ?_ ?_
      · exact h_s
      · refine kept_ite (P := Kept q) ?_ ?_
        · apply resend_kept
          exact h_s
        · refine kept_ite (P := Kept q) ?_ ?_
          · apply reqFail_kept
            exact h_s
          · apply reqFail_kept
            exact h_s

theorem execColGroupValid_kept {q : List Instr} (g : Nat) (v : Word) (s : State) (h_s : Kept q s) : KOut q (execColGroupValid g v s) := by
  unfold execColGroupValid
  apply kept_next
  refine kept_ite (P := Kept q) ?_ ?_
  · exact h_s
  · refine kept_ite (P := Kept q) ?_ ?_
    · refine kept_ite (P := Kept q) ?_ ?_
      · exact h_s
      · apply wrf_kept
        exact h_s
    · extract_lets +onlyGivenNames x3372
      have h3373 : Kept q x3372 := by
        unfold x3372
        apply regPut_kept
        exact h_s
      clear_value x3372
      refine kept_ite (P := Kept q) ?_ ?_
      · exact h3373
      · refine kept_ite (P := Kept q) ?_ ?_
        · extract_lets +onlyGivenNames x3374
          have h3375 : Kept q x3374 := by
            unfold x3374
            apply wrf_kept
            exact h3373
          clear_value x3374
          refine kept_mk (s := x3374) ?_
          exact h3375
        · apply wr_kept
          apply wrf_kept
          exact h3373

theorem execColTrigValid_kept {q : List Instr} (t : ℕ) (v : Word) (s : State) (h_s : Kept q s) : KOut q (execColTrigValid t v s) := by
  unfold execColTrigValid
  apply kept_next
  refine kept_ite (P := Kept q) ?_ ?_
  · exact h_s
  · extract_lets +onlyGivenNames x1824
    clear_value x1824
    extract_lets +onlyGivenNames x1826
    have h1827 : Kept q x1826 := by
      unfold x1826
      apply regPut_kept
      exact h_s
    clear_value x1826
    extract_lets +onlyGivenNames x1828
    clear_value x1828
    refine kept_ite (P := Kept q) ?_ ?_
    · exact h1827
    · refine kept_ite (P := Kept q) ?_ ?_
      · apply fireCounter_kept
        exact h1827
      · split
        · rename_i z1830 z1831
          apply fireCounter_kept
          exact h1827
        · rename_i z1832 z1833 z1834
          extract_lets +onlyGivenNames x1835
          have h1836 : Kept q x1835 := by
            unfold x1835
            apply wr_kept
            apply wrf_kept
            exact h1827
          clear_value x1835
          extract_lets +onlyGivenNames x1837
          clear_value x1837
          refine kept_ite (P := Kept q) ?_ ?_
          · apply conflict_kept
            exact h1836
          · exact h1836

theorem execColTadd_kept {q : List Instr} (ctx n : ℕ) (v : Word) (s : State) (h_s : Kept q s) : KOut q (execColTadd ctx n v s) := by
  unfold execColTadd
  apply kept_next
  refine kept_ite (P := Kept q) ?_ ?_
  · apply counterAdd_kept
    exact h_s
  · exact h_s

theorem execCollectiveQueuedStart_kept {q : List Instr} (id : ℕ) (s : State) (h_s : Kept q s) : KOut q (execCollectiveQueuedStart id s) := by
  unfold execCollectiveQueuedStart
  apply kept_next
  refine kept_ite (P := Kept q) ?_ ?_
  · exact h_s
  · split
    · rename_i z1839 z1840 z1841
      refine kept_ite (P := Kept q) ?_ ?_
      · apply startColl_kept
        exact h_s
      · exact h_s
    · rename_i z1842 z1843
      exact h_s

theorem execCollectiveFlit_kept {q : List Instr} (port : Nat) (f : Flit) (s : State) (h_s : Kept q s) : KOut q (execCollectiveFlit port f s) := by
  unfold execCollectiveFlit
  apply kept_next
  refine kept_ite (P := Kept q) ?_ ?_
  · exact h_s
  · apply flitIn_kept
    exact h_s

theorem execBulkChunk_kept {q : List Instr} (port : Nat) (f : Flit) (s : State) (h_s : Kept q s) : KOut q (execBulkChunk port f s) := by
  unfold execBulkChunk
  apply kept_next
  refine kept_ite (P := Kept q) ?_ ?_
  · exact h_s
  · apply flitIn_kept
    exact h_s

theorem execMatchRetry_kept {q : List Instr} (port : Nat) (f : Flit) (s : State) (h_s : Kept q s) : KOut q (execMatchRetry port f s) := by
  unfold execMatchRetry
  apply kept_next
  refine kept_ite (P := Kept q) ?_ ?_
  · apply txFlit_kept
    exact h_s
  · exact h_s

theorem vaUndef_kept {q : List Instr} (s : State) (ctx va n : Nat) (h_s : Kept q s) : Kept q (vaUndef s ctx va n) := by
  unfold vaUndef
  refine kept_foldl ?_ ?_
  · intro v3396 v3397 v3398
    split
    · rename_i z3399 z3400 z3401 z3402
      have h3403 := kept_eq (P := KFst q) z3402 (by
        apply vaCheck_kept
        exact v3398)
      apply memUndef_kept
      exact h3403
    · rename_i z3404 z3405 z3406 z3407 z3408
      have h3409 := kept_eq (P := KFst q) z3408 (by
        apply vaCheck_kept
        exact v3398)
      exact h3409
  · exact h_s

theorem collFinish_kept {q : List Instr} (s : State) (c : Coll) (h_s : Kept q s) : KOptS q (collFinish s c) := by
  unfold collFinish
  extract_lets +onlyGivenNames x1844
  clear_value x1844
  extract_lets +onlyGivenNames x1846
  clear_value x1846
  extract_lets +onlyGivenNames x1848
  clear_value x1848
  extract_lets +onlyGivenNames x1850
  clear_value x1850
  extract_lets +onlyGivenNames x1852
  have h1853 : (∀ y1854, Kept q y1854 → Kept q (x1852 y1854)) := by
    unfold x1852
    intro v1855 v1856
    extract_lets +onlyGivenNames x1857
    have h1858 : Kept q x1857 := by
      unfold x1857
      apply collEnd_kept
      exact v1856
    clear_value x1857
    refine kept_ite (P := Kept q) ?_ ?_
    · apply counterAdd_kept
      exact h1858
    · exact h1858
  clear_value x1852
  refine kept_ite (P := KOptS q) ?_ ?_
  · apply kept_someS
    apply h1853
    exact h_s
  · split
    · rename_i z1859 z1860 z1861
      have h1862 := kept_eq (P := KFst q) z1861 (by
        apply vaPut_kept
        exact h_s)
      exact kept_noneS
    · rename_i z1863 z1864 z1865 z1866 z1867
      have h1868 := kept_eq (P := KFst q) z1867 (by
        apply vaPut_kept
        exact h_s)
      apply kept_someS
      apply h1853
      exact h1868

theorem execCollectiveComplete_kept {q : List Instr} (id : ℕ) (s : State) (h_s : Kept q s) : KOut q (execCollectiveComplete id s) := by
  unfold execCollectiveComplete
  apply kept_next
  refine kept_ite (P := Kept q) ?_ ?_
  · exact h_s
  · split
    · rename_i z0 z1
      exact h_s
    · rename_i z2 z3 z4
      split
      · rename_i z5 z6 z7 z8 z9
        extract_lets +onlyGivenNames x10
        clear_value x10
        extract_lets +onlyGivenNames x12
        clear_value x12
        extract_lets +onlyGivenNames x14
        have h15 : KOptS q x14 := by
          unfold x14
          split
          · rename_i z16 z17 z18
            apply collFinish_kept
            refine kept_ite (P := Kept q) ?_ ?_
            · apply vaUndef_kept
              exact h_s
            · exact h_s
          · rename_i z19 z20
            refine kept_ite (P := KOptS q) ?_ ?_
            · apply collFinish_kept
              exact h_s
            · split
              · rename_i z21 z22 z23
                have h24 := kept_eq (P := KFst q) z23 (by
                  apply vaPut_kept
                  exact h_s)
                apply collFinish_kept
                exact h24
              · rename_i z25 z26 z27 z28
                have h29 := kept_eq (P := KFst q) z28 (by
                  apply vaPut_kept
                  exact h_s)
                apply collFinish_kept
                apply vaUndef_kept
                exact h29
              · rename_i z30 z31 z32
                have h33 := kept_eq (P := KFst q) z32 (by
                  apply vaPut_kept
                  exact h_s)
                exact kept_noneS
        clear_value x14
        split
        · rename_i z34 z35
          have h36 : Kept q _ := h15 _ rfl
          exact h36
        · rename_i z37
          exact h_s
      · rename_i z39 z40 z41
        exact h_s

theorem collWatchdog_kept {q : List Instr} (id : Nat) (s : State) (h_s : Kept q s) : KOut q (collWatchdog id s) := by
  unfold collWatchdog
  apply kept_next
  split
  · rename_i z3459 z3460
    exact h_s
  · rename_i z3461 z3462 z3463
    refine kept_ite (P := Kept q) ?_ ?_
    · exact h_s
    · extract_lets +onlyGivenNames x3464
      have h3465 : Kept q x3464 := by
        unfold x3464
        refine kept_mk (s := s) ?_
        exact h_s
      clear_value x3464
      apply addSat_kept
      apply endHere_kept
      exact h3465

end Sys2Proof.Machine
end

