-- ==== Sys2Proof/Laws/KeptHost.lean ====
section
/-! SUPPORT. Every operation and meaning of the dispatcher, the solver, preemption and control keeps the queue of commands and the canonical form of the stores. One lemma each: what its arguments keep, its answer keeps. -/

namespace Sys2Proof.Machine

theorem takeDescs_kept {q : List Instr} (s : State) (r : Nat) (h_s : Kept q s) : Kept q (takeDescs s r) := by
  unfold takeDescs
  extract_lets +onlyGivenNames x3466
  clear_value x3466
  extract_lets +onlyGivenNames x3468
  clear_value x3468
  extract_lets +onlyGivenNames x3470
  have h3471 : Kept q x3470 := by
    unfold x3470
    refine kept_ite (P := Kept q) ?_ ?_
    · apply wrf_kept
      exact h_s
    · exact h_s
  clear_value x3470
  extract_lets +onlyGivenNames x3472
  clear_value x3472
  refine kept_ite (P := Kept q) ?_ ?_
  · exact h3471
  · extract_lets +onlyGivenNames x3474
    have h3475 : Kept q x3474 := by
      unfold x3474
      apply wrf_kept
      exact h3471
    clear_value x3474
    extract_lets +onlyGivenNames x3476
    clear_value x3476
    extract_lets +onlyGivenNames x3478
    have h3479 : Kept q x3478 := by
      unfold x3478
      apply setRing_kept
      exact h3475
    clear_value x3478
    refine kept_mk (s := x3478) ?_
    exact h3479

theorem writeRec_kept {q : List Instr} (s : State) (h : HostRec) (h_s : Kept q s) : Kept q (writeRec s h) := by
  unfold writeRec
  extract_lets +onlyGivenNames x3480
  clear_value x3480
  extract_lets +onlyGivenNames x3482
  clear_value x3482
  extract_lets +onlyGivenNames x3484
  clear_value x3484
  extract_lets +onlyGivenNames x3486
  have h3487 : Kept q x3486 := by
    unfold x3486
    apply setRing_kept
    exact h_s
  clear_value x3486
  refine kept_mk (s := x3486) ?_
  exact h3487

theorem putRec_kept {q : List Instr} (s : State) (h : HostRec) (h_s : Kept q s) : Kept q (putRec s h) := by
  unfold putRec
  refine kept_ite (P := Kept q) ?_ ?_
  · apply writeRec_kept
    exact h_s
  · refine kept_ite (P := Kept q) ?_ ?_
    · refine kept_mk (s := s) ?_
      exact h_s
    · apply addSat_kept
      exact h_s

theorem ringError_kept {q : List Instr} (s : State) (r sub : Nat) (h_s : Kept q s) : Kept q (ringError s r sub) := by
  unfold ringError
  extract_lets +onlyGivenNames x3488
  extract_lets +onlyGivenNames x3490
  clear_value x3490
  extract_lets +onlyGivenNames x3492
  have h3493 : Kept q x3492 := by
    unfold x3492
    apply setRing_kept
    exact h_s
  clear_value x3492
  extract_lets +onlyGivenNames x3494
  have h3495 : Kept q x3494 := by
    unfold x3494
    apply wrf_kept
    apply wrf_kept
    exact h3493
  clear_value x3494
  refine kept_ite (P := Kept q) ?_ ?_
  · apply putRec_kept
    exact h3495
  · exact h3495

theorem readIndex_kept {q : List Instr} (s : State) (r : Nat) (h_s : Kept q s) : Kept q (readIndex s r) := by
  unfold readIndex
  extract_lets +onlyGivenNames x3496
  clear_value x3496
  extract_lets +onlyGivenNames x3498
  have h3499 : Kept q x3498 := by
    unfold x3498
    apply setRing_kept
    exact h_s
  clear_value x3498
  refine kept_mk (s := x3498) ?_
  exact h3499

theorem modDesc_kept {q : List Instr} (s : State) (r ix : Nat) (f : DescSt → DescSt) (h_s : Kept q s) : Kept q (modDesc s r ix f) := by
  unfold modDesc
  apply setRing_kept
  exact h_s

theorem timer3_kept {q : List Instr} (s : State) (ctx : Nat) (h_s : Kept q s) : Kept q (timer3 s ctx) := by
  unfold timer3
  extract_lets +onlyGivenNames x3500
  clear_value x3500
  refine kept_ite (P := Kept q) ?_ ?_
  · apply wrf_kept
    exact h_s
  · exact h_s

theorem complete_kept {q : List Instr} (s : State) (r : Nat) (d : DescSt) (st sub val : Nat) (h_s : Kept q s) : Kept q (complete s r d st sub val) := by
  unfold complete
  extract_lets +onlyGivenNames x3502
  clear_value x3502
  extract_lets +onlyGivenNames x3504
  have h3505 : Kept q x3504 := by
    unfold x3504
    apply setRing_kept
    exact h_s
  clear_value x3504
  extract_lets +onlyGivenNames x3506
  have h3507 : Kept q x3506 := by
    unfold x3506
    apply timer3_kept
    exact h3505
  clear_value x3506
  refine kept_ite (P := Kept q) ?_ ?_
  · exact h3507
  · apply putRec_kept
    exact h3507

theorem launchDone_kept {q : List Instr} (s : State) (r ix : Nat) (h_s : Kept q s) : Kept q (launchDone s r ix) := by
  unfold launchDone
  split
  · rename_i z3508 z3509
    exact h_s
  · rename_i z3510 z3511 z3512
    refine kept_ite (P := Kept q) ?_ ?_
    · apply complete_kept
      exact h_s
    · exact h_s

theorem startThread_kept {q : List Instr} (s : State) (r : Nat) (d : DescSt) (key : Nat) (h_s : Kept q s) : Kept q (startThread s r d key) := by
  unfold startThread
  extract_lets +onlyGivenNames x3513
  clear_value x3513
  extract_lets +onlyGivenNames x3515
  clear_value x3515
  extract_lets +onlyGivenNames x3517
  clear_value x3517
  extract_lets +onlyGivenNames x3519
  clear_value x3519
  extract_lets +onlyGivenNames x3521
  have h3522 : Kept q x3521 := by
    unfold x3521
    apply setTh_kept
    exact h_s
  clear_value x3521
  extract_lets +onlyGivenNames x3523
  have h3524 : Kept q x3523 := by
    unfold x3523
    refine kept_mk (s := x3521) ?_
    exact h3522
  clear_value x3523
  refine kept_ite (P := Kept q) ?_ ?_
  · exact h3524
  · extract_lets +onlyGivenNames x3525
    clear_value x3525
    extract_lets +onlyGivenNames x3527
    clear_value x3527
    extract_lets +onlyGivenNames x3529
    have h3530 : Kept q x3529 := by
      unfold x3529
      apply memClear_kept
      apply setNc_kept
      exact h3524
    clear_value x3529
    apply wr_kept
    exact h3530

theorem takeUp_kept {q : List Instr} (s : State) (key : Nat) (h_s : Kept q s) : Kept q (takeUp s key) := by
  unfold takeUp
  refine kept_ite (P := Kept q) ?_ ?_
  · exact h_s
  · extract_lets +onlyGivenNames x3531
    clear_value x3531
    extract_lets +onlyGivenNames x3533
    clear_value x3533
    split
    · rename_i z3535
      exact h_s
    · rename_i z3536 z3537 z3538
      apply modDesc_kept
      apply startThread_kept
      exact h_s

theorem startLaunch_kept {q : List Instr} (s : State) (r : Nat) (d : DescSt) (h_s : Kept q s) : Kept q (startLaunch s r d) := by
  unfold startLaunch
  extract_lets +onlyGivenNames x3539
  clear_value x3539
  refine kept_ite (P := Kept q) ?_ ?_
  · apply complete_kept
    exact h_s
  · extract_lets +onlyGivenNames x3541
    clear_value x3541
    extract_lets +onlyGivenNames x3543
    have h3544 : Kept q x3543 := by
      unfold x3543
      apply modDesc_kept
      exact h_s
    clear_value x3543
    extract_lets +onlyGivenNames x3545
    have h3546 : Kept q x3545 := by
      unfold x3545
      apply timer3_kept
      refine kept_mk (s := x3543) ?_
      exact h3544
    clear_value x3545
    apply launchDone_kept
    refine kept_foldl ?_ ?_
    · intro v3547 v3548 v3549
      apply takeUp_kept
      exact v3549
    · exact h3546

theorem startTadd_kept {q : List Instr} (s : State) (r : ℕ) (d : DescSt) (h_s : Kept q s) : Kept q (startTadd s r d) := by
  unfold startTadd
  extract_lets +onlyGivenNames x1903
  clear_value x1903
  refine kept_ite (P := Kept q) ?_ ?_
  · extract_lets +onlyGivenNames x1905
    clear_value x1905
    apply complete_kept
    apply counterAdd_kept
    exact h_s
  · apply complete_kept
    exact h_s

theorem runRing_kept {q : List Instr} (r a1 : ℕ) (a2 : State) (h_a2 : Kept q a2) : Kept q (runRing r a1 a2) := by
  induction a1 generalizing r a2
  · rw [runRing]
    exact h_a2
  · rename_i z1907 z1908
    rw [runRing]
    split
    · rename_i z1909 z1910 z1911
      apply z1908
      apply complete_kept
      exact h_a2
    · rename_i z1912 z1913
      split
      · rename_i z1914 z1915
        apply takeDescs_kept
        exact h_a2
      · rename_i z1916 z1917 z1918
        refine kept_ite (P := Kept q) ?_ ?_
        · apply takeDescs_kept
          exact h_a2
        · refine kept_ite (P := Kept q) ?_ ?_
          · apply z1908
            apply complete_kept
            exact h_a2
          · refine kept_ite (P := Kept q) ?_ ?_
            · apply z1908
              apply startLaunch_kept
              exact h_a2
            · refine kept_ite (P := Kept q) ?_ ?_
              · apply z1908
                apply startTadd_kept
                exact h_a2
              · apply z1908
                apply modDesc_kept
                exact h_a2

theorem serveRing_kept {q : List Instr} (s : State) (r : ℕ) (h_s : Kept q s) : Kept q (serveRing s r) := by
  unfold serveRing
  apply runRing_kept
  exact h_s

theorem execHostLineInvalidated_kept {q : List Instr} (r : Nat) (s : State) (h_s : Kept q s) : KOut q (execHostLineInvalidated r s) := by
  unfold execHostLineInvalidated
  apply kept_next
  refine kept_ite (P := Kept q) ?_ ?_
  · apply readIndex_kept
    exact h_s
  · exact h_s

theorem execHostIndexLineArrival_kept {q : List Instr} (r sqPi cqCi : Nat) (s : State) (h_s : Kept q s) : KOut q (execHostIndexLineArrival r sqPi cqCi s) := by
  unfold execHostIndexLineArrival
  apply kept_next
  extract_lets +onlyGivenNames x3566
  clear_value x3566
  refine kept_ite (P := Kept q) ?_ ?_
  · exact h_s
  · extract_lets +onlyGivenNames x3568
    have h3569 : Kept q x3568 := by
      unfold x3568
      apply setRing_kept
      exact h_s
    clear_value x3568
    refine kept_ite (P := Kept q) ?_ ?_
    · apply ringError_kept
      exact h3569
    · apply takeDescs_kept
      apply setRing_kept
      exact h3569

theorem descArrives_kept {q : List Instr} (s : State) (r : ℕ) (bytes : List Byte) (op : ℕ) (h_s : Kept q s) : Kept q (descArrives s r bytes op) := by
  unfold descArrives
  extract_lets +onlyGivenNames x1919
  clear_value x1919
  extract_lets +onlyGivenNames x1921
  clear_value x1921
  refine kept_ite (P := Kept q) ?_ ?_
  · exact h_s
  · apply serveRing_kept
    apply setRing_kept
    exact h_s

theorem execLaunch_kept {q : List Instr} (r : ℕ) (bytes : List Byte) (s : State) (h_s : Kept q s) : KOut q (execLaunch r bytes s) := by
  unfold execLaunch
  apply kept_next
  apply descArrives_kept
  exact h_s

theorem execTadd_kept {q : List Instr} (r : ℕ) (bytes : List Byte) (s : State) (h_s : Kept q s) : KOut q (execTadd r bytes s) := by
  unfold execTadd
  apply kept_next
  apply descArrives_kept
  exact h_s

theorem execMark_kept {q : List Instr} (r : ℕ) (bytes : List Byte) (s : State) (h_s : Kept q s) : KOut q (execMark r bytes s) := by
  unfold execMark
  apply kept_next
  apply descArrives_kept
  exact h_s

theorem execBadDesc_kept {q : List Instr} (r : ℕ) (bytes : List Byte) (s : State) (h_s : Kept q s) : KOut q (execBadDesc r bytes s) := by
  unfold execBadDesc
  apply kept_next
  apply descArrives_kept
  exact h_s

theorem execDescriptorReadFailure_kept {q : List Instr} (r : Nat) (s : State) (h_s : Kept q s) : KOut q (execDescriptorReadFailure r s) := by
  unfold execDescriptorReadFailure
  apply kept_next
  extract_lets +onlyGivenNames x3574
  clear_value x3574
  refine kept_ite (P := Kept q) ?_ ?_
  · exact h_s
  · extract_lets +onlyGivenNames x3576
    have h3577 : Kept q x3576 := by
      unfold x3576
      apply wrf_kept
      exact h_s
    clear_value x3576
    apply ringError_kept
    apply setRing_kept
    exact h3577

theorem execDeviceIndexLineWrite_kept {q : List Instr} (r : Nat) (s : State) (h_s : Kept q s) : KOut q (execDeviceIndexLineWrite r s) := by
  unfold execDeviceIndexLineWrite
  apply kept_next
  extract_lets +onlyGivenNames x3578
  clear_value x3578
  refine kept_ite (P := Kept q) ?_ ?_
  · exact h_s
  · refine kept_mk (s := s) ?_
    exact h_s

theorem execFaultRecordWrite_kept {q : List Instr} (s : State) (h_s : Kept q s) : KOut q (execFaultRecordWrite s) := by
  unfold execFaultRecordWrite
  apply kept_next
  split
  · rename_i z3580 z3581
    exact h_s
  · rename_i z3582 z3583 z3584 z3585
    extract_lets +onlyGivenNames x3586
    clear_value x3586
    refine kept_ite (P := Kept q) ?_ ?_
    · exact h_s
    · extract_lets +onlyGivenNames x3588
      clear_value x3588
      extract_lets +onlyGivenNames x3590
      clear_value x3590
      apply writeRec_kept
      refine kept_mk (s := s) ?_
      exact h_s

theorem threadOver_kept {q : List Instr} (s : State) (key : ℕ) (launch : Option (ℕ × ℕ)) (x1 : Option Word) (flt : ℕ × ℕ) (h_s : Kept q s) : Kept q (threadOver s key launch x1 flt) := by
  unfold threadOver
  extract_lets +onlyGivenNames x1923
  have h1924 : Kept q x1923 := by
    unfold x1923
    split
    · rename_i z1925
      exact h_s
    · rename_i z1926 z1927 z1928
      extract_lets +onlyGivenNames x1929
      have h1930 : Kept q x1929 := by
        unfold x1929
        apply modDesc_kept
        exact h_s
      clear_value x1929
      apply serveRing_kept
      apply launchDone_kept
      exact h1930
  clear_value x1923
  apply takeUp_kept
  exact h1924

theorem freeThread_kept {q : List Instr} (s : State) (key : Nat) (h_s : Kept q s) : Kept q (freeThread s key) := by
  unfold freeThread
  extract_lets +onlyGivenNames x3600
  clear_value x3600
  extract_lets +onlyGivenNames x3602
  clear_value x3602
  extract_lets +onlyGivenNames x3604
  have h3605 : Kept q x3604 := by
    unfold x3604
    apply setTh_kept
    exact h_s
  clear_value x3604
  refine kept_ite (P := Kept q) ?_ ?_
  · exact h3605
  · apply wrf_kept
    apply setNc_kept
    exact h3605

theorem endThread_kept {q : List Instr} (s : State) (key : ℕ) (h_s : Kept q s) : Kept q (endThread s key) := by
  unfold endThread
  extract_lets +onlyGivenNames x1931
  clear_value x1931
  apply threadOver_kept
  apply freeThread_kept
  exact h_s

theorem dropCopies_kept {q : List Instr} (s : State) (core gen : Nat) (h_s : Kept q s) : Kept q (dropCopies s core gen) := by
  unfold dropCopies
  extract_lets +onlyGivenNames x3608
  clear_value x3608
  extract_lets +onlyGivenNames x3610
  clear_value x3610
  refine kept_mk (s := s) ?_
  exact h_s

theorem abandon_kept {q : List Instr} (s : State) (key : ℕ) (h_s : Kept q s) : Kept q (abandon s key) := by
  unfold abandon
  extract_lets +onlyGivenNames x1933
  clear_value x1933
  extract_lets +onlyGivenNames x1935
  have h1936 : Kept q x1935 := by
    unfold x1935
    apply dropCopies_kept
    exact h_s
  clear_value x1935
  extract_lets +onlyGivenNames x1937
  have h1938 : Kept q x1937 := by
    unfold x1937
    refine kept_mk (s := x1935) ?_
    exact h1936
  clear_value x1937
  apply threadOver_kept
  apply freeThread_kept
  exact h1938

theorem reviveCore_kept {q : List Instr} (s : State) (core : ℕ) (h_s : Kept q s) : Kept q (reviveCore s core) := by
  unfold reviveCore
  extract_lets +onlyGivenNames x1939
  have h1940 : Kept q x1939 := by
    unfold x1939
    refine kept_mk (s := s) ?_
    exact h_s
  clear_value x1939
  apply pumpGet_kept
  exact h1940

theorem execDspTctlResume_kept {q : List Instr} (t : Tid) (s : State) (h_s : Kept q s) : KOut q (execDspTctlResume t s) := by
  unfold execDspTctlResume
  apply kept_next
  extract_lets +onlyGivenNames x1941
  clear_value x1941
  extract_lets +onlyGivenNames x1943
  clear_value x1943
  refine kept_ite (P := Kept q) ?_ ?_
  · refine kept_ite (P := Kept q) ?_ ?_
    · exact h_s
    · extract_lets +onlyGivenNames x1945
      have h1946 : Kept q x1945 := by
        unfold x1945
        apply setTh_kept
        exact h_s
      clear_value x1945
      apply goOn_kept
      refine kept_ite (P := Kept q) ?_ ?_
      · exact h1946
      · apply reviveCore_kept
        exact h1946
  · refine kept_mk (s := s) ?_
    exact h_s

theorem execDspTctlAbandon_kept {q : List Instr} (t : Tid) (s : State) (h_s : Kept q s) : KOut q (execDspTctlAbandon t s) := by
  unfold execDspTctlAbandon
  apply kept_next
  extract_lets +onlyGivenNames x1947
  clear_value x1947
  refine kept_ite (P := Kept q) ?_ ?_
  · apply abandon_kept
    exact h_s
  · split
    · rename_i z1949 z1950
      exact h_s
    · rename_i z1951 z1952 z1953
      extract_lets +onlyGivenNames x1954
      have h1955 : Kept q x1954 := by
        unfold x1954
        apply dropCopies_kept
        refine kept_mk (s := s) ?_
        exact h_s
      clear_value x1954
      apply threadOver_kept
      exact h1955

theorem watchdogStop_kept {q : List Instr} (s : State) (launch : Nat × Nat) (key : Nat) (h_s : Kept q s) : Kept q (watchdogStop s launch key) := by
  unfold watchdogStop
  extract_lets +onlyGivenNames x3635
  clear_value x3635
  refine kept_ite (P := Kept q) ?_ ?_
  · exact h_s
  · extract_lets +onlyGivenNames x3637
    clear_value x3637
    extract_lets +onlyGivenNames x3639
    have h3640 : Kept q x3639 := by
      unfold x3639
      refine kept_mk (s := s) ?_
      exact h_s
    clear_value x3639
    split
    · rename_i z3641 z3642
      apply setTh_kept
      exact h3640
    · rename_i z3643 z3644
      apply setTh_kept
      exact h3640
    · rename_i z3645 z3646 z3647
      apply stopTh_kept
      apply setTh_kept
      exact h3640

theorem execLaunchWatchdog_kept {q : List Instr} (r ix : Nat) (s : State) (h_s : Kept q s) : KOut q (execLaunchWatchdog r ix s) := by
  unfold execLaunchWatchdog
  apply kept_next
  split
  · rename_i z3648 z3649
    exact h_s
  · rename_i z3650 z3651 z3652
    split
    · rename_i z3653 z3654
      exact h_s
    · rename_i z3655 z3656 z3657
      refine kept_ite (P := Kept q) ?_ ?_
      · exact h_s
      · apply timer3_kept
        refine kept_foldl ?_ ?_
        · intro v3658 v3659 v3660
          apply watchdogStop_kept
          exact v3660
        · apply modDesc_kept
          exact h_s

theorem tlbDrop_kept {q : List Instr} (s : State) (ctx : Nat) (vpn : Option Nat) (h_s : Kept q s) : Kept q (tlbDrop s ctx vpn) := by
  unfold tlbDrop
  refine kept_mk (s := s) ?_
  exact h_s

theorem execDspTlbinvGo_kept {q : List Instr} (v : Word) (s : State) (h_s : Kept q s) : KOut q (execDspTlbinvGo v s) := by
  unfold execDspTlbinvGo
  apply kept_next
  extract_lets +onlyGivenNames x3661
  have h3662 : Kept q x3661 := by
    unfold x3661
    split
    · rename_i z3663 z3664 z3665 z3666
      apply tlbDrop_kept
      exact h_s
    · rename_i z3667 z3668
      exact h_s
  clear_value x3661
  extract_lets +onlyGivenNames x3669
  have h3670 : Kept q x3669 := by
    unfold x3669
    apply regPut_kept
    exact h3662
  clear_value x3669
  refine kept_ite (P := Kept q) ?_ ?_
  · extract_lets +onlyGivenNames x3671
    have h3672 : Kept q x3671 := by
      unfold x3671
      apply wrf_kept
      exact h3670
    clear_value x3671
    refine kept_mk (s := x3671) ?_
    exact h3672
  · apply wrf_kept
    refine kept_mk (s := x3669) ?_
    exact h3670

theorem execTlbinvDone_kept {q : List Instr} (s : State) (h_s : Kept q s) : KOut q (execTlbinvDone s) := by
  unfold execTlbinvDone
  apply kept_next
  split
  · rename_i z3673 z3674
    exact h_s
  · rename_i z3675 z3676 z3677 z3678
    apply wrf_kept
    extract_lets +onlyGivenNames x3679
    have h3680 : Kept q x3679 := by
      unfold x3679
      apply tlbDrop_kept
      exact h_s
    clear_value x3679
    refine kept_mk (s := x3679) ?_
    exact h3680

theorem dspRefuse_kept {q : List Instr} (s : State) (st ctx : Nat) (h_s : Kept q s) : Kept q (dspRefuse s st ctx) := by
  unfold dspRefuse
  extract_lets +onlyGivenNames x3681
  have h3682 : Kept q x3681 := by
    unfold x3681
    apply wr_kept
    exact h_s
  clear_value x3681
  refine kept_ite (P := Kept q) ?_ ?_
  · apply conflict_kept
    exact h3682
  · exact h3682

theorem execDspCtxdefValid_kept {q : List Instr} (c : Nat) (v : Word) (s : State) (h_s : Kept q s) : KOut q (execDspCtxdefValid c v s) := by
  unfold execDspCtxdefValid
  apply kept_next
  refine kept_ite (P := Kept q) ?_ ?_
  · exact h_s
  · refine kept_ite (P := Kept q) ?_ ?_
    · refine kept_ite (P := Kept q) ?_ ?_
      · apply dspRefuse_kept
        exact h_s
      · apply regPut_kept
        exact h_s
    · extract_lets +onlyGivenNames x3683
      have h3684 : Kept q x3683 := by
        unfold x3683
        apply regPut_kept
        exact h_s
      clear_value x3683
      refine kept_ite (P := Kept q) ?_ ?_
      · refine kept_foldl ?_ ?_
        · intro v3685 v3686 v3687
          apply wr_kept
          exact v3687
        · exact h3684
      · exact h3684

theorem execDspCsetWrite_kept {q : List Instr} (c k w : Nat) (v : Word) (s : State) (h_s : Kept q s) : KOut q (execDspCsetWrite c k w v s) := by
  unfold execDspCsetWrite
  apply kept_next
  refine kept_ite (P := Kept q) ?_ ?_
  · exact h_s
  · refine kept_ite (P := Kept q) ?_ ?_
    · apply dspRefuse_kept
      exact h_s
    · refine kept_ite (P := Kept q) ?_ ?_
      · apply dspRefuse_kept
        exact h_s
      · apply regPut_kept
        exact h_s

theorem execDspCfgEnable_kept {q : List Instr} (v : Word) (s : State) (h_s : Kept q s) : KOut q (execDspCfgEnable v s) := by
  unfold execDspCfgEnable
  apply kept_next
  extract_lets +onlyGivenNames x3688
  have h3689 : Kept q x3688 := by
    unfold x3688
    apply regPut_kept
    exact h_s
  clear_value x3688
  extract_lets +onlyGivenNames x3690
  extract_lets +onlyGivenNames x3692
  have h3693 : Kept q x3692 := by
    unfold x3692
    refine kept_ite (P := Kept q) ?_ ?_
    · refine kept_foldl ?_ ?_
      · intro v3694 v3695 v3696
        apply writeRec_kept
        exact v3696
      · refine kept_mk (s := x3688) ?_
        exact h3689
    · exact h3689
  clear_value x3692
  refine kept_ite (P := Kept q) ?_ ?_
  · refine kept_foldl ?_ ?_
    · intro v3697 v3698 v3699
      apply takeDescs_kept
      exact v3699
    · exact h3693
  · exact h3693

theorem execDspRingEnable_kept {q : List Instr} (r : Nat) (v : Word) (s : State) (h_s : Kept q s) : KOut q (execDspRingEnable r v s) := by
  unfold execDspRingEnable
  apply kept_next
  refine kept_ite (P := Kept q) ?_ ?_
  · exact h_s
  · extract_lets +onlyGivenNames x3700
    have h3701 : Kept q x3700 := by
      unfold x3700
      apply regPut_kept
      exact h_s
    clear_value x3700
    extract_lets +onlyGivenNames x3702
    clear_value x3702
    refine kept_ite (P := Kept q) ?_ ?_
    · exact h3701
    · apply readIndex_kept
      apply setRing_kept
      exact h3701

theorem execDspLogclaim_kept {q : List Instr} (p : Nat) (s : State) (h_s : Kept q s) : KOut q (execDspLogclaim p s) := by
  unfold execDspLogclaim
  apply kept_next
  refine kept_ite (P := Kept q) ?_ ?_
  · exact h_s
  · extract_lets +onlyGivenNames x3704
    clear_value x3704
    extract_lets +onlyGivenNames x3706
    have h3707 : Kept q x3706 := by
      unfold x3706
      apply wr_kept
      exact h_s
    clear_value x3706
    refine kept_mk (s := x3706) ?_
    exact h3707

theorem loseHost_kept {q : List Instr} (s : State) (port : Nat) (h_s : Kept q s) : Kept q (loseHost s port) := by
  unfold loseHost
  extract_lets +onlyGivenNames x3708
  clear_value x3708
  extract_lets +onlyGivenNames x3710
  have h3711 : Kept q x3710 := by
    unfold x3710
    refine kept_foldl ?_ ?_
    · intro v3712 v3713 v3714
      apply poisonLine_kept
      exact v3714
    · refine kept_mk (s := s) ?_
      exact h_s
  clear_value x3710
  extract_lets +onlyGivenNames x3715
  have h3716 : Kept q x3715 := by
    unfold x3715
    apply addSat_kept
    apply wrf_kept
    exact h3711
  clear_value x3715
  apply bbx_kept
  exact h3716

theorem plkDown_kept {q : List Instr} (s : State) (port : Nat) (h_s : Kept q s) : Kept q (plkDown s port) := by
  unfold plkDown
  refine kept_ite (P := Kept q) ?_ ?_
  · exact h_s
  · extract_lets +onlyGivenNames x3717
    clear_value x3717
    extract_lets +onlyGivenNames x3719
    have h3720 : Kept q x3719 := by
      unfold x3719
      apply addSat_kept
      apply wrf_kept
      exact h_s
    clear_value x3719
    refine kept_ite (P := Kept q) ?_ ?_
    · exact h3720
    · refine kept_ite (P := Kept q) ?_ ?_
      · exact h3720
      · apply loseHost_kept
        exact h3720

theorem execPlkPortDown_kept {q : List Instr} (port : Nat) (s : State) (h_s : Kept q s) : KOut q (execPlkPortDown port s) := by
  unfold execPlkPortDown
  apply kept_next
  apply plkDown_kept
  exact h_s

theorem execPlkPortUp_kept {q : List Instr} (port : Nat) (s : State) (h_s : Kept q s) : KOut q (execPlkPortUp port s) := by
  unfold execPlkPortUp
  apply kept_next
  refine kept_ite (P := Kept q) ?_ ?_
  · exact h_s
  · apply wrf_kept
    exact h_s

theorem execPlkFlitResend_kept {q : List Instr} (port fails : Nat) (s : State) (h_s : Kept q s) : KOut q (execPlkFlitResend port fails s) := by
  unfold execPlkFlitResend
  apply kept_next
  refine kept_ite (P := Kept q) ?_ ?_
  · exact h_s
  · extract_lets +onlyGivenNames x3721
    have h3722 : Kept q x3721 := by
      unfold x3721
      apply addSat_kept
      exact h_s
    clear_value x3721
    refine kept_ite (P := Kept q) ?_ ?_
    · exact h3722
    · extract_lets +onlyGivenNames x3723
      have h3724 : Kept q x3723 := by
        unfold x3723
        apply addSat_kept
        exact h3722
      clear_value x3723
      refine kept_ite (P := Kept q) ?_ ?_
      · apply plkDown_kept
        exact h3724
      · exact h3724

theorem execRecallReturn_kept {q : List Instr} (line : ℕ) (bytes : List Byte) (s : State) (h_s : Kept q s) : KOut q (execRecallReturn line bytes s) := by
  unfold execRecallReturn
  apply kept_next
  refine kept_ite (P := Kept q) ?_ ?_
  · exact h_s
  · apply ckpPump_kept
    apply physWrite_kept
    refine kept_mk (s := s) ?_
    exact h_s

theorem setRun_kept {q : List Instr} (s : State) (j : Nat) (r : Run) (h_s : Kept q s) : Kept q (setRun s j r) := by
  unfold setRun
  apply setSvu_kept
  exact h_s

theorem issueSolve_kept {q : List Instr} (t : Tid) (o : Opnds) (expert : Bool) (s : State) (h_s : Kept q s) : KOut q (issueSolve t o expert s) := by
  unfold issueSolve
  apply insn_kept
  · exact h_s
  · intro v1956 v1957 v1958
    extract_lets +onlyGivenNames x1959
    clear_value x1959
    extract_lets +onlyGivenNames x1961
    clear_value x1961
    extract_lets +onlyGivenNames x1963
    clear_value x1963
    refine kept_ite (P := KRes q) ?_ ?_
    · show Kept q _
      exact v1958
    · split
      · rename_i z1965 z1966 z1967
        have h1968 := kept_eq (P := KFst q) z1967 (by
          apply vaBytes_kept
          exact v1958)
        show Kept q _
        exact v1958
      · rename_i z1969 z1970 z1971 z1972
        have h1973 := kept_eq (P := KFst q) z1972 (by
          apply vaBytes_kept
          exact v1958)
        apply accTrap_kept
        exact h1973
      · rename_i z1974 z1975 z1976 z1977 z1978
        have h1979 := kept_eq (P := KFst q) z1978 (by
          apply vaBytes_kept
          exact v1958)
        refine kept_ite (P := KRes q) ?_ ?_
        · show Kept q _
          exact h1979
        · extract_lets +onlyGivenNames x1980
          clear_value x1980
          extract_lets +onlyGivenNames x1982
          clear_value x1982
          split
          · rename_i z1984 z1985 z1986 z1987
            have h1988 := kept_eq (P := KFst q) z1987 (by
              apply vaCheck_kept
              exact h1979)
            apply accTrap_kept
            exact h1988
          · rename_i z1989 z1990 z1991
            have h1992 := kept_eq (P := KFst q) z1991 (by
              apply vaCheck_kept
              exact h1979)
            show Kept q _
            exact h1979
          · rename_i z1993 z1994 z1995 z1996
            have h1997 := kept_eq (P := KFst q) z1996 (by
              apply vaCheck_kept
              exact h1979)
            extract_lets +onlyGivenNames x1998
            clear_value x1998
            refine kept_ite (P := KRes q) ?_ ?_
            · show Kept q _
              exact h1997
            · show Kept q _
              apply setSvu_kept
              exact h1997

theorem execSolveB_kept {q : List Instr} (t : Tid) (o : Opnds) (s : State) (h_s : Kept q s) : KOut q (execSolveB t o s) := by
  unfold execSolveB
  apply issueSolve_kept
  exact h_s

theorem execSolveE_kept {q : List Instr} (t : Tid) (o : Opnds) (s : State) (h_s : Kept q s) : KOut q (execSolveE t o s) := by
  unfold execSolveE
  apply issueSolve_kept
  exact h_s

theorem solRead_kept {q : List Instr} {α : Type} (s : State) (src : Src) (va n : ℕ) (k : State → List Byte → State × SolRes α) (h_s : Kept q s) (h_k : (∀ y2000 y2001, Kept q y2000 → KFst q (k y2000 y2001))) : KFst q (solRead s src va n k) := by
  unfold solRead
  split
  · rename_i z2002 z2003 z2004 z2005 z2006
    have h2007 := kept_eq (P := KFst q) z2006 (by
      apply vaBytes_kept
      exact h_s)
    refine kept_ite (P := KFst q) ?_ ?_
    · exact h2007
    · apply h_k
      exact h2007
  · rename_i z2008 z2009 z2010 z2011
    have h2012 := kept_eq (P := KFst q) z2011 (by
      apply vaBytes_kept
      exact h_s)
    exact h2012
  · rename_i z2013 z2014 z2015
    have h2016 := kept_eq (P := KFst q) z2015 (by
      apply vaBytes_kept
      exact h_s)
    exact h2016

theorem solPut_kept {q : List Instr} {α : Type} (s : State) (src : Src) (va : ℕ) (bs : List Byte) (k : State → State × SolRes α) (h_s : Kept q s) (h_k : (∀ y2017, Kept q y2017 → KFst q (k y2017))) : KFst q (solPut s src va bs k) := by
  unfold solPut
  split
  · rename_i z2018 z2019 z2020
    have h2021 := kept_eq (P := KFst q) z2020 (by
      apply vaPut_kept
      exact h_s)
    apply h_k
    exact h2021
  · rename_i z2022 z2023 z2024 z2025
    have h2026 := kept_eq (P := KFst q) z2025 (by
      apply vaPut_kept
      exact h_s)
    exact h2026
  · rename_i z2027 z2028 z2029
    have h2030 := kept_eq (P := KFst q) z2029 (by
      apply vaPut_kept
      exact h_s)
    exact h2030

theorem solEach_kept {q : List Instr} (s : State) (src : Src) (a2 : List ℕ) (h_s : Kept q s) : KFst q (solEach s src a2) := by
  induction a2 generalizing s src
  · rw [solEach]
    exact h_s
  · rename_i z2031 z2032 z2033
    rw [solEach]
    apply solRead_kept
    · exact h_s
    · intro v2034 v2035 v2036
      split
      · rename_i z2037 z2038 z2039 z2040
        have h2041 := kept_eq (P := KFst q) z2040 (by
          apply z2033
          exact v2036)
        exact h2041
      · rename_i z2042 z2043
        apply z2033
        exact v2036

theorem solSpan_kept {q : List Instr} (s : State) (ctx : Nat) (k : AccKind) (a3 : List (Nat × Nat)) (h_s : Kept q s) : KFst q (solSpan s ctx k a3) := by
  induction a3 generalizing s ctx k
  · rw [solSpan]
    exact h_s
  · rename_i z3786 z3787 z3788
    rw [solSpan]
    split
    · rename_i z3789 z3790 z3791 z3792
      have h3793 := kept_eq (P := KFst q) z3792 (by
        apply vaCheck_kept
        exact h_s)
      apply z3788
      exact h3793
    · rename_i z3794 z3795 z3796 z3797
      have h3798 := kept_eq (P := KFst q) z3797 (by
        apply vaCheck_kept
        exact h_s)
      exact h3798
    · rename_i z3799 z3800 z3801
      have h3802 := kept_eq (P := KFst q) z3801 (by
        apply vaCheck_kept
        exact h_s)
      exact h3802

theorem readHalo_kept {q : List Instr} (s : State) (src : Src) (va nnbr n : ℕ) (k : State → List (ℕ × ℕ) → List (ℕ × ℕ) → State × SolRes Mat) (h_s : Kept q s) (h_k : (∀ y2044 y2045 y2046, Kept q y2044 → KFst q (k y2044 y2045 y2046))) : KFst q (readHalo s src va nnbr n k) := by
  unfold readHalo
  refine kept_ite (P := KFst q) ?_ ?_
  · refine kept_ite (P := KFst q) ?_ ?_
    · apply h_k
      exact h_s
    · exact h_s
  · apply solRead_kept
    · exact h_s
    · intro v2047 v2048 v2049
      extract_lets +onlyGivenNames x2050
      clear_value x2050
      extract_lets +onlyGivenNames x2052
      clear_value x2052
      refine kept_ite (P := KFst q) ?_ ?_
      · exact v2049
      · apply h_k
        exact v2049

theorem readMat_kept {q : List Instr} (s : State) (src : Src) (v : Solve) (h_s : Kept q s) : KFst q (readMat s src v) := by
  unfold readMat
  apply solRead_kept
  · exact h_s
  · intro v2054 v2055 v2056
    extract_lets +onlyGivenNames x2057
    clear_value x2057
    extract_lets +onlyGivenNames x2059
    clear_value x2059
    extract_lets +onlyGivenNames x2061
    clear_value x2061
    extract_lets +onlyGivenNames x2063
    clear_value x2063
    extract_lets +onlyGivenNames x2065
    clear_value x2065
    extract_lets +onlyGivenNames x2067
    clear_value x2067
    extract_lets +onlyGivenNames x2069
    clear_value x2069
    extract_lets +onlyGivenNames x2071
    clear_value x2071
    refine kept_ite (P := KFst q) ?_ ?_
    · exact v2056
    · extract_lets +onlyGivenNames x2073
      clear_value x2073
      apply solRead_kept
      · exact v2056
      · intro v2075 v2076 v2077
        extract_lets +onlyGivenNames x2078
        clear_value x2078
        extract_lets +onlyGivenNames x2080
        clear_value x2080
        extract_lets +onlyGivenNames x2082
        clear_value x2082
        extract_lets +onlyGivenNames x2084
        clear_value x2084
        refine kept_ite (P := KFst q) ?_ ?_
        · exact v2077
        · apply solRead_kept
          · exact v2077
          · intro v2086 v2087 v2088
            extract_lets +onlyGivenNames x2089
            clear_value x2089
            extract_lets +onlyGivenNames x2091
            clear_value x2091
            extract_lets +onlyGivenNames x2093
            clear_value x2093
            extract_lets +onlyGivenNames x2095
            clear_value x2095
            extract_lets +onlyGivenNames x2097
            clear_value x2097
            refine kept_ite (P := KFst q) ?_ ?_
            · exact v2088
            · extract_lets +onlyGivenNames x2099
              clear_value x2099
              extract_lets +onlyGivenNames x2101
              have h2102 : KFst q x2101 := by
                unfold x2101
                refine kept_ite (P := KFst q) ?_ ?_
                · apply solEach_kept
                  exact v2088
                · apply solRead_kept
                  · exact v2088
                  · intro v2103 v2104 v2105
                    exact v2105
              clear_value x2101
              split
              · rename_i z2106 z2107 z2108 z2109
                exact h2102
              · rename_i z2110 z2111
                exact h2102
              · rename_i z2112 z2113 z2114
                extract_lets +onlyGivenNames x2115
                clear_value x2115
                apply readHalo_kept
                · exact h2102
                · intro v2117 v2118 v2119 v2120
                  exact v2120

theorem readHist_kept {q : List Instr} (s : State) (src : Src) (v : Solve) (n a4 : ℕ) (h_s : Kept q s) : KFst q (readHist s src v n a4) := by
  induction a4 generalizing s src v n
  · rw [readHist]
    exact h_s
  · rename_i z2121 z2122
    rw [readHist]
    split
    · rename_i z2123 z2124 z2125 z2126
      have h2127 := kept_eq (P := KFst q) z2126 (by
        apply z2122
        exact h_s)
      apply solRead_kept
      · exact h2127
      · intro v2128 v2129 v2130
        exact v2130
    · rename_i z2131 z2132
      apply z2122
      exact h_s

theorem putTimers_kept {q : List Instr} (s : State) (ctx : Nat) (h_s : Kept q s) : Kept q (putTimers s ctx) := by
  unfold putTimers
  refine kept_foldl ?_ ?_
  · intro v3869 v3870 v3871
    extract_lets +onlyGivenNames x3872
    clear_value x3872
    apply wrf_kept
    exact v3871
  · exact h_s

theorem solWork_kept {q : List Instr} (s : State) (j n : ℕ) (h_s : Kept q s) : Kept q (solWork s j n) := by
  unfold solWork
  apply addDiv_kept
  exact h_s

theorem boundaryMove_kept {q : List Instr} (s : State) (j ctx bytes : ℕ) (h_s : Kept q s) : Kept q (boundaryMove s j ctx bytes) := by
  unfold boundaryMove
  extract_lets +onlyGivenNames x2133
  clear_value x2133
  extract_lets +onlyGivenNames x2135
  clear_value x2135
  apply moveMsg_kept
  apply moveMsg_kept
  exact h_s

theorem atBoundary_kept {q : List Instr} (s : State) (j : ℕ) (r : Run) (fmap : ℕ) (slots : List ℕ) (h_s : Kept q s) : Kept q (atBoundary s j r fmap slots) := by
  unfold atBoundary
  extract_lets +onlyGivenNames x2137
  clear_value x2137
  extract_lets +onlyGivenNames x2139
  have h2140 : Kept q x2139 := by
    unfold x2139
    apply setRun_kept
    refine kept_mk (s := s) ?_
    exact h_s
  clear_value x2139
  split
  · rename_i z2141 z2142
    exact h2140
  · rename_i z2143 z2144 z2145
    extract_lets +onlyGivenNames x2146
    clear_value x2146
    extract_lets +onlyGivenNames x2148
    clear_value x2148
    extract_lets +onlyGivenNames x2150
    have h2151 : Kept q x2150 := by
      unfold x2150
      apply spend_kept
      exact h2140
    clear_value x2150
    extract_lets +onlyGivenNames x2152
    extract_lets +onlyGivenNames x2154
    have h2155 : Kept q x2154 := by
      unfold x2154
      refine kept_ite (P := Kept q) ?_ ?_
      · refine kept_foldl ?_ ?_
        · intro v2156 v2157 v2158
          apply boundaryMove_kept
          exact v2158
        · exact h2151
      · exact h2151
    clear_value x2154
    refine kept_ite (P := Kept q) ?_ ?_
    · refine kept_foldl ?_ ?_
      · intro v2159 v2160 v2161
        apply setRun_kept
        exact v2161
      · exact h2155
    · extract_lets +onlyGivenNames x2162
      have h2163 : Kept q x2162 := by
        unfold x2162
        refine kept_foldl ?_ ?_
        · intro v2164 v2165 v2166
          apply setRun_kept
          exact v2166
        · exact h2155
      clear_value x2162
      apply fireColl_kept
      exact h2163

theorem outputBytes_kept {q : List Instr} (s : State) (src : Src) (r : Run) (m : Mat) (a4 : SolOut) (h_s : Kept q s) : KFst q (outputBytes s src r m a4) := by
  unfold outputBytes
  split
  · rename_i z2167
    exact h_s
  · rename_i z2168
    exact h_s
  · rename_i z2169
    exact h_s
  · rename_i z2170
    exact h_s
  · rename_i z2171
    split
    · rename_i z2172 z2173 z2174 z2175
      have h2176 := kept_eq (P := KFst q) z2175 (by
        apply readHist_kept
        exact h_s)
      exact h2176
    · rename_i z2177 z2178 z2179 z2180 z2181
      have h2182 := kept_eq (P := KFst q) z2181 (by
        apply readHist_kept
        exact h_s)
      exact h2182
    · rename_i z2183 z2184 z2185
      have h2186 := kept_eq (P := KFst q) z2185 (by
        apply readHist_kept
        exact h_s)
      exact h2186

theorem putOutput_kept {q : List Instr} (s : State) (src : Src) (r : Run) (out : SolOut) (h_s : Kept q s) : KFst q (putOutput s src r out) := by
  unfold putOutput
  split
  · rename_i z2187 z2188
    exact h_s
  · rename_i z2189 z2190 z2191
    extract_lets +onlyGivenNames x2192
    clear_value x2192
    split
    · rename_i z2194 z2195 z2196 z2197 z2198
      have h2199 := kept_eq (P := KFst q) z2198 (by
        apply outputBytes_kept
        exact h_s)
      exact h2199
    · rename_i z2200 z2201 z2202
      have h2203 := kept_eq (P := KFst q) z2202 (by
        apply outputBytes_kept
        exact h_s)
      exact h2203
    · rename_i z2204 z2205 z2206 z2207
      have h2208 := kept_eq (P := KFst q) z2207 (by
        apply outputBytes_kept
        exact h_s)
      apply solPut_kept
      · exact h2208
      · intro v2209 v2210
        exact v2210
    · rename_i z2211 z2212 z2213
      have h2214 := kept_eq (P := KFst q) z2213 (by
        apply outputBytes_kept
        exact h_s)
      apply kept_pair
      refine kept_ite (P := Kept q) ?_ ?_
      · apply vaUndef_kept
        exact h2214
      · exact h2214

theorem freeSvu_kept {q : List Instr} (s : State) (j : ℕ) (r : Run) (st cls : ℕ) (h_s : Kept q s) : Kept q (freeSvu s j r st cls) := by
  unfold freeSvu
  extract_lets +onlyGivenNames x1775
  clear_value x1775
  extract_lets +onlyGivenNames x1777
  have h1778 : Kept q x1777 := by
    unfold x1777
    apply setSvu_kept
    exact h_s
  clear_value x1777
  extract_lets +onlyGivenNames x1779
  have h1780 : Kept q x1779 := by
    unfold x1779
    refine kept_ite (P := Kept q) ?_ ?_
    · apply putTimers_kept
      exact h1778
    · exact h1778
  clear_value x1779
  extract_lets +onlyGivenNames x1781
  clear_value x1781
  extract_lets +onlyGivenNames x1783
  have h1784 : Kept q x1783 := by
    unfold x1783
    apply wrf_kept
    exact h1780
  clear_value x1783
  extract_lets +onlyGivenNames x1785
  have h1786 : Kept q x1785 := by
    unfold x1785
    refine kept_ite (P := Kept q) ?_ ?_
    · apply wrf_kept
      exact h1784
    · exact h1784
  clear_value x1785
  extract_lets +onlyGivenNames x1787
  have h1788 : Kept q x1787 := by
    unfold x1787
    refine kept_ite (P := Kept q) ?_ ?_
    · apply wrf_kept
      exact h1786
    · exact h1786
  clear_value x1787
  refine kept_mk (s := x1787) ?_
  exact h1788

theorem tryFinish_kept {q : List Instr} (s0 : State) (j : ℕ) (h_s0 : Kept q s0) : Kept q (tryFinish s0 j) := by
  unfold tryFinish
  split
  · rename_i z2215 z2216
    exact h_s0
  · rename_i z2217 z2218 z2219
    split
    · rename_i z2220 z2221
      exact h_s0
    · rename_i z2222 z2223 z2224 z2225 z2226 z2227
      extract_lets +onlyGivenNames x2228
      clear_value x2228
      split
      · rename_i z2230 z2231 z2232
        have h2233 := kept_eq (P := KFst q) z2232 (by
          apply putOutput_kept
          exact h_s0)
        exact h_s0
      · rename_i z2234 z2235 z2236 z2237 z2238
        have h2239 := kept_eq (P := KFst q) z2238 (by
          apply putOutput_kept
          exact h_s0)
        split
        · rename_i z2240 z2241 z2242 z2243
          extract_lets +onlyGivenNames x2244
          clear_value x2244
          split
          · rename_i z2246 z2247 z2248
            have h2249 := kept_eq (P := KFst q) z2248 (by
              apply vaPut_kept
              apply spend_kept
              exact h2239)
            exact h_s0
          · rename_i z2250 z2251 z2252 z2253
            have h2254 := kept_eq (P := KFst q) z2253 (by
              apply vaPut_kept
              apply spend_kept
              exact h2239)
            apply freeSvu_kept
            exact h2254
          · rename_i z2255 z2256 z2257
            have h2258 := kept_eq (P := KFst q) z2257 (by
              apply vaPut_kept
              apply spend_kept
              exact h2239)
            apply arrive_kept
            apply freeSvu_kept
            exact h2258

theorem endSolve_kept {q : List Instr} (s : State) (j : ℕ) (r : Run) (st sub cls : ℕ) (out : SolOut) (h_s : Kept q s) : Kept q (endSolve s j r st sub cls out) := by
  unfold endSolve
  apply tryFinish_kept
  apply setRun_kept
  exact h_s

theorem execSolveStart_kept {q : List Instr} (j : ℕ) (s0 : State) (h_s0 : Kept q s0) : KOut q (execSolveStart j s0) := by
  unfold execSolveStart
  apply kept_next
  extract_lets +onlyGivenNames x2259
  clear_value x2259
  refine kept_ite (P := Kept q) ?_ ?_
  · exact h_s0
  · split
    · rename_i z2261 z2262
      exact h_s0
    · rename_i z2263 z2264 z2265 z2266
      extract_lets +onlyGivenNames x2267
      have h2268 : Kept q x2267 := by
        unfold x2267
        apply setSvu_kept
        exact h_s0
      clear_value x2267
      extract_lets +onlyGivenNames x2269
      clear_value x2269
      refine kept_ite (P := Kept q) ?_ ?_
      · apply endSolve_kept
        exact h2268
      · refine kept_ite (P := Kept q) ?_ ?_
        · extract_lets +onlyGivenNames x2271
          have h2272 : Kept q x2271 := by
            unfold x2271
            apply endSolve_kept
            exact h2268
          clear_value x2271
          apply conflict_kept
          exact h2272
        · extract_lets +onlyGivenNames x2273
          clear_value x2273
          extract_lets +onlyGivenNames x2275
          have h2276 : Kept q x2275 := by
            unfold x2275
            apply setRun_kept
            exact h2268
          clear_value x2275
          refine kept_ite (P := Kept q) ?_ ?_
          · apply putTimers_kept
            exact h2276
          · exact h2276

theorem warmWork_kept {q : List Instr} (s : State) (j : ℕ) (r : Run) (h_s : Kept q s) : KFst q (warmWork s j r) := by
  unfold warmWork
  extract_lets +onlyGivenNames x2277
  clear_value x2277
  extract_lets +onlyGivenNames x2279
  clear_value x2279
  split
  · rename_i z2281 z2282 z2283 z2284 z2285
    have h2286 := kept_eq (P := KFst q) z2285 (by
      apply readMat_kept
      exact h_s)
    exact h2286
  · rename_i z2287 z2288 z2289
    have h2290 := kept_eq (P := KFst q) z2289 (by
      apply readMat_kept
      exact h_s)
    exact h2290
  · rename_i z2291 z2292 z2293 z2294
    have h2295 := kept_eq (P := KFst q) z2294 (by
      apply readMat_kept
      exact h_s)
    extract_lets +onlyGivenNames x2296
    clear_value x2296
    extract_lets +onlyGivenNames x2298
    clear_value x2298
    extract_lets +onlyGivenNames x2300
    clear_value x2300
    extract_lets +onlyGivenNames x2302
    clear_value x2302
    extract_lets +onlyGivenNames x2304
    clear_value x2304
    split
    · rename_i z2306 z2307 z2308 z2309 z2310
      have h2311 := kept_eq (P := KFst q) z2310 (by
        apply solSpan_kept
        exact h2295)
      exact h2311
    · rename_i z2312 z2313 z2314
      have h2315 := kept_eq (P := KFst q) z2314 (by
        apply solSpan_kept
        exact h2295)
      exact h2315
    · rename_i z2316 z2317 z2318
      have h2319 := kept_eq (P := KFst q) z2318 (by
        apply solSpan_kept
        exact h2295)
      split
      · rename_i z2320 z2321 z2322 z2323 z2324
        have h2325 := kept_eq (P := KFst q) z2324 (by
          apply solSpan_kept
          exact h2319)
        exact h2325
      · rename_i z2326 z2327 z2328
        have h2329 := kept_eq (P := KFst q) z2328 (by
          apply solSpan_kept
          exact h2319)
        exact h2329
      · rename_i z2330 z2331 z2332
        have h2333 := kept_eq (P := KFst q) z2332 (by
          apply solSpan_kept
          exact h2319)
        refine kept_ite (P := KFst q) ?_ ?_
        · exact h2333
        · split
          · rename_i z2334 z2335 z2336 z2337 z2338
            have h2339 := kept_eq (P := KFst q) z2338 (by
              apply readHist_kept
              exact h2333)
            exact h2339
          · rename_i z2340 z2341 z2342
            have h2343 := kept_eq (P := KFst q) z2342 (by
              apply readHist_kept
              exact h2333)
            exact h2343
          · rename_i z2344 z2345 z2346 z2347
            have h2348 := kept_eq (P := KFst q) z2347 (by
              apply readHist_kept
              exact h2333)
            apply kept_pair
            apply solWork_kept
            exact h2348

theorem withFactor_kept {q : List Instr} {α : Type} (s : State) (j : ℕ) (v : Solve) (m : Mat) (k : State → Option Factor → State × SolRes α) (h_s : Kept q s) (h_k : (∀ y2349 y2350, Kept q y2349 → KFst q (k y2349 y2350))) : KFst q (withFactor s j v m k) := by
  unfold withFactor
  refine kept_ite (P := KFst q) ?_ ?_
  · apply h_k
    exact h_s
  · apply solRead_kept
    · exact h_s
    · intro v2351 v2352 v2353
      apply h_k
      exact v2353

theorem setupWork_kept {q : List Instr} (s : State) (j : ℕ) (r : Run) (m : Mat) (h_s : Kept q s) : KFst q (setupWork s j r m) := by
  unfold setupWork
  extract_lets +onlyGivenNames x2354
  clear_value x2354
  extract_lets +onlyGivenNames x2356
  clear_value x2356
  apply solRead_kept
  · exact h_s
  · intro v2358 v2359 v2360
    apply withFactor_kept
    · exact v2360
    · intro v2361 v2362 v2363
      extract_lets +onlyGivenNames x2364
      clear_value x2364
      extract_lets +onlyGivenNames x2366
      clear_value x2366
      extract_lets +onlyGivenNames x2368
      have h2369 : Kept q x2368 := by
        unfold x2368
        apply numAdd_kept
        exact v2363
      clear_value x2368
      extract_lets +onlyGivenNames x2370
      clear_value x2370
      extract_lets +onlyGivenNames x2372
      clear_value x2372
      extract_lets +onlyGivenNames x2374
      clear_value x2374
      extract_lets +onlyGivenNames x2376
      have h2377 : Kept q x2376 := by
        unfold x2376
        apply solWork_kept
        apply spend_kept
        exact h2369
      clear_value x2376
      extract_lets +onlyGivenNames x2378
      have h2379 : Kept q x2378 := by
        unfold x2378
        apply vaUndef_kept
        exact h2377
      clear_value x2378
      extract_lets +onlyGivenNames x2380
      clear_value x2380
      extract_lets +onlyGivenNames x2382
      have h2383 : Kept q x2382 := by
        unfold x2382
        apply vaUndef_kept
        refine kept_mk (s := x2378) ?_
        exact h2379
      clear_value x2382
      extract_lets +onlyGivenNames x2384
      have h2385 : Kept q x2384 := by
        unfold x2384
        refine kept_ite (P := Kept q) ?_ ?_
        · exact h2379
        · refine kept_ite (P := Kept q) ?_ ?_
          · refine kept_mk (s := x2382) ?_
            exact h2383
          · exact h2383
      clear_value x2384
      exact h2385

theorem sendHalo_kept {q : List Instr} (s : State) (j : ℕ) (r : Run) (m : Mat) (fp64 : Bool) (h_s : Kept q s) : KFst q (sendHalo s j r m fp64) := by
  unfold sendHalo
  extract_lets +onlyGivenNames x2386
  clear_value x2386
  extract_lets +onlyGivenNames x2388
  have h2389 : Kept q x2388 := by
    unfold x2388
    refine kept_mk (s := s) ?_
    exact h_s
  clear_value x2388
  refine kept_foldl_fst ?_ ?_
  · intro v2390 v2391 v2392
    split
    · rename_i z2393 z2394 z2395
      exact v2392
    · rename_i z2396 z2397
      extract_lets +onlyGivenNames x2398
      have h2399 : Kept q x2398 := by
        unfold x2398
        exact v2392
      clear_value x2398
      split
      · rename_i z2400 z2401 z2402 z2403
        apply kept_pair
        apply xfault_kept
        exact h2399
      · rename_i z2404 z2405 z2406 z2407
        refine kept_ite (P := KFst q) ?_ ?_
        · exact v2392
        · extract_lets +onlyGivenNames x2408
          have h2409 : KSnd q x2408 := by
            unfold x2408
            apply takeSeq_kept
            exact h2399
          clear_value x2408
          extract_lets +onlyGivenNames x2410
          clear_value x2410
          split
          · rename_i z2412 z2413 z2414 z2415
            apply kept_pair
            apply xfault_kept
            exact h2409
          · rename_i z2416 z2417
            apply kept_pair
            apply sendReq_kept
            exact h2409
  · exact h2389

theorem startOuter_kept {q : List Instr} (s : State) (j : ℕ) (r : Run) (m : Mat) (h_s : Kept q s) : KOptS q (startOuter s j r m) := by
  unfold startOuter
  extract_lets +onlyGivenNames x2418
  clear_value x2418
  extract_lets +onlyGivenNames x2420
  clear_value x2420
  split
  · rename_i z2422 z2423 z2424
    have h2425 := kept_eq (P := KFst q) z2424 (by
      apply solPut_kept
      · exact h_s
      · intro v2426 v2427
        apply solPut_kept
        · exact v2427
        · intro v2428 v2429
          exact v2429)
    exact kept_noneS
  · rename_i z2430 z2431 z2432 z2433 z2434
    have h2435 := kept_eq (P := KFst q) z2434 (by
      apply solPut_kept
      · exact h_s
      · intro v2436 v2437
        apply solPut_kept
        · exact v2437
        · intro v2438 v2439
          exact v2439)
    apply kept_someS
    apply setRun_kept
    exact h2435
  · rename_i z2440 z2441 z2442
    have h2443 := kept_eq (P := KFst q) z2442 (by
      apply solPut_kept
      · exact h_s
      · intro v2444 v2445
        apply solPut_kept
        · exact v2445
        · intro v2446 v2447
          exact v2447)
    extract_lets +onlyGivenNames x2448
    have h2449 : KFst q x2448 := by
      unfold x2448
      apply sendHalo_kept
      exact h2443
    clear_value x2448
    apply kept_someS
    apply setRun_kept
    exact h2449

theorem stepInner_kept {q : List Instr} (s : State) (j : ℕ) (r : Run) (m : Mat) (h_s : Kept q s) : KOptS q (stepInner s j r m) := by
  unfold stepInner
  refine kept_ite (P := KOptS q) ?_ ?_
  · apply kept_someS
    apply setRun_kept
    exact h_s
  · split
    · rename_i z2450 z2451 z2452
      have h2453 := kept_eq (P := KFst q) z2452 (by
        apply solPut_kept
        · exact h_s
        · intro v2454 v2455
          exact v2455)
      exact kept_noneS
    · rename_i z2456 z2457 z2458 z2459 z2460
      have h2461 := kept_eq (P := KFst q) z2460 (by
        apply solPut_kept
        · exact h_s
        · intro v2462 v2463
          exact v2463)
      apply kept_someS
      apply setRun_kept
      exact h2461
    · rename_i z2464 z2465 z2466
      have h2467 := kept_eq (P := KFst q) z2466 (by
        apply solPut_kept
        · exact h_s
        · intro v2468 v2469
          exact v2469)
      extract_lets +onlyGivenNames x2470
      have h2471 : KFst q x2470 := by
        unfold x2470
        apply sendHalo_kept
        exact h2467
      clear_value x2470
      apply kept_someS
      apply setRun_kept
      exact h2471

theorem haloGet_kept {q : List Instr} (s : State) (j ctx va n : ℕ) (h_s : Kept q s) : KFst q (haloGet s j ctx va n) := by
  unfold haloGet
  split
  · rename_i z2472 z2473 z2474
    split
    · rename_i z2475 z2476 z2477 z2478
      exact h_s
    · rename_i z2479 z2480 z2481 z2482
      exact h_s
  · rename_i z2483 z2484
    split
    · rename_i z2485 z2486 z2487 z2488
      exact h_s
    · rename_i z2489 z2490 z2491 z2492
      extract_lets +onlyGivenNames x2493
      clear_value x2493
      split
      · rename_i z2495 z2496 z2497
        exact h_s
      · rename_i z2498 z2499
        refine kept_ite (P := KFst q) ?_ ?_
        · exact h_s
        · extract_lets +onlyGivenNames x2500
          have h2501 : KFst q x2500 := by
            unfold x2500
            apply physRead_kept
            exact h_s
          clear_value x2500
          refine kept_ite (P := KFst q) ?_ ?_
          · exact h2501
          · exact h2501

theorem haloAll_kept {q : List Instr} (s : State) (j ctx n : ℕ) (a4 : List ℕ) (h_s : Kept q s) : KFst q (haloAll s j ctx n a4) := by
  induction a4 generalizing s j ctx n
  · rw [haloAll]
    exact h_s
  · rename_i z2502 z2503 z2504
    rw [haloAll]
    split
    · rename_i z2505 z2506 z2507 z2508 z2509
      have h2510 := kept_eq (P := KFst q) z2509 (by
        apply haloGet_kept
        exact h_s)
      exact h2510
    · rename_i z2511 z2512 z2513
      have h2514 := kept_eq (P := KFst q) z2513 (by
        apply haloGet_kept
        exact h_s)
      exact h2514
    · rename_i z2515 z2516 z2517 z2518
      have h2519 := kept_eq (P := KFst q) z2518 (by
        apply haloGet_kept
        exact h_s)
      split
      · rename_i z2520 z2521 z2522 z2523
        have h2524 := kept_eq (P := KFst q) z2523 (by
          apply z2504
          exact h2519)
        exact h2524
      · rename_i z2525 z2526
        apply z2504
        exact h2519

theorem outerWork_kept {q : List Instr} (s : State) (j : ℕ) (r : Run) (m : Mat) (h_s : Kept q s) : KFst q (outerWork s j r m) := by
  unfold outerWork
  split
  · rename_i z2527 z2528 z2529 z2530 z2531
    have h2532 := kept_eq (P := KFst q) z2531 (by
      apply haloAll_kept
      exact h_s)
    exact h2532
  · rename_i z2533 z2534 z2535
    have h2536 := kept_eq (P := KFst q) z2535 (by
      apply haloAll_kept
      exact h_s)
    exact h2536
  · rename_i z2537 z2538 z2539 z2540
    have h2541 := kept_eq (P := KFst q) z2540 (by
      apply haloAll_kept
      exact h_s)
    apply solRead_kept
    · exact h2541
    · intro v2542 v2543 v2544
      extract_lets +onlyGivenNames x2545
      clear_value x2545
      extract_lets +onlyGivenNames x2547
      clear_value x2547
      extract_lets +onlyGivenNames x2549
      clear_value x2549
      extract_lets +onlyGivenNames x2551
      clear_value x2551
      apply kept_pair
      apply solWork_kept
      apply spend_kept
      exact v2544

theorem innerProduct_kept {q : List Instr} (s : State) (j : ℕ) (r : Run) (m : Mat) (h_s : Kept q s) : KFst q (innerProduct s j r m) := by
  unfold innerProduct
  refine kept_ite (P := KFst q) ?_ ?_
  · exact h_s
  · split
    · rename_i z2553 z2554 z2555 z2556
      have h2557 := kept_eq (P := KFst q) z2556 (by
        apply haloAll_kept
        exact h_s)
      apply kept_pair
      apply solWork_kept
      apply spend_kept
      exact h2557
    · rename_i z2558 z2559 z2560 z2561 z2562
      have h2563 := kept_eq (P := KFst q) z2562 (by
        apply haloAll_kept
        exact h_s)
      exact h2563
    · rename_i z2564 z2565 z2566
      have h2567 := kept_eq (P := KFst q) z2566 (by
        apply haloAll_kept
        exact h_s)
      exact h2567

theorem innerBoundary_kept {q : List Instr} (s : State) (j : ℕ) (r : Run) (prod : List ℕ) (h_s : Kept q s) : Kept q (innerBoundary s j r prod) := by
  unfold innerBoundary
  extract_lets +onlyGivenNames x2568
  clear_value x2568
  extract_lets +onlyGivenNames x2570
  clear_value x2570
  extract_lets +onlyGivenNames x2572
  clear_value x2572
  extract_lets +onlyGivenNames x2574
  have h2575 : Kept q x2574 := by
    unfold x2574
    apply solWork_kept
    apply spend_kept
    exact h_s
  clear_value x2574
  extract_lets +onlyGivenNames x2576
  clear_value x2576
  extract_lets +onlyGivenNames x2578
  clear_value x2578
  refine kept_ite (P := Kept q) ?_ ?_
  · extract_lets +onlyGivenNames x2580
    clear_value x2580
    apply atBoundary_kept
    exact h2575
  · apply atBoundary_kept
    exact h2575

theorem voteSetup_kept {q : List Instr} (s : State) (j : ℕ) (r : Run) (slots : List ℕ) (h_s : Kept q s) : Kept q (voteSetup s j r slots) := by
  unfold voteSetup
  extract_lets +onlyGivenNames x2582
  clear_value x2582
  apply atBoundary_kept
  exact h_s

theorem execIterationBoundary_kept {q : List Instr} (j : ℕ) (s : State) (h_s : Kept q s) : KOut q (execIterationBoundary j s) := by
  unfold execIterationBoundary
  apply kept_next
  split
  · rename_i z2584 z2585
    exact h_s
  · rename_i z2586 z2587 z2588
    refine kept_ite (P := Kept q) ?_ ?_
    · exact h_s
    · refine kept_ite (P := Kept q) ?_ ?_
      · apply tryFinish_kept
        exact h_s
      · extract_lets +onlyGivenNames x2589
        clear_value x2589
        extract_lets +onlyGivenNames x2591
        clear_value x2591
        split
        · rename_i z2593 z2594 z2595 z2596
          split
          · rename_i z2597 z2598 z2599
            have h2600 := kept_eq (P := KFst q) z2599 (by
              apply warmWork_kept
              exact h_s)
            exact h_s
          · rename_i z2601 z2602 z2603 z2604 z2605
            have h2606 := kept_eq (P := KFst q) z2605 (by
              apply warmWork_kept
              exact h_s)
            apply setRun_kept
            exact h2606
          · rename_i z2607 z2608 z2609 z2610
            have h2611 := kept_eq (P := KFst q) z2610 (by
              apply warmWork_kept
              exact h_s)
            apply setRun_kept
            exact h2611
        · rename_i z2612 z2613 z2614 z2615 z2616 z2617
          split
          · rename_i z2618 z2619 z2620
            have h2621 := kept_eq (P := KFst q) z2620 (by
              apply setupWork_kept
              exact h_s)
            exact h_s
          · rename_i z2622 z2623 z2624 z2625 z2626
            have h2627 := kept_eq (P := KFst q) z2626 (by
              apply setupWork_kept
              exact h_s)
            apply voteSetup_kept
            exact h2627
          · rename_i z2628 z2629 z2630 z2631 z2632
            have h2633 := kept_eq (P := KFst q) z2632 (by
              apply setupWork_kept
              exact h_s)
            apply voteSetup_kept
            exact h2633
        · rename_i z2634 z2635 z2636 z2637 z2638 z2639
          split
          · rename_i z2640 z2641 z2642
            have h2643 := kept_eq (P := KFst q) z2642 (by
              apply outerWork_kept
              exact h_s)
            exact h_s
          · rename_i z2644 z2645 z2646 z2647 z2648
            have h2649 := kept_eq (P := KFst q) z2648 (by
              apply outerWork_kept
              exact h_s)
            extract_lets +onlyGivenNames x2650
            clear_value x2650
            apply atBoundary_kept
            exact h2649
          · rename_i z2652 z2653 z2654 z2655 z2656
            have h2657 := kept_eq (P := KFst q) z2656 (by
              apply outerWork_kept
              exact h_s)
            apply atBoundary_kept
            exact h2657
        · rename_i z2658 z2659 z2660 z2661 z2662 z2663
          split
          · rename_i z2664 z2665 z2666
            have h2667 := kept_eq (P := KFst q) z2666 (by
              apply innerProduct_kept
              exact h_s)
            exact h_s
          · rename_i z2668 z2669 z2670 z2671 z2672
            have h2673 := kept_eq (P := KFst q) z2672 (by
              apply innerProduct_kept
              exact h_s)
            apply innerBoundary_kept
            exact h2673
          · rename_i z2674 z2675 z2676 z2677
            have h2678 := kept_eq (P := KFst q) z2677 (by
              apply innerProduct_kept
              exact h_s)
            apply innerBoundary_kept
            exact h2678
        · rename_i z2679 z2680 z2681 z2682 z2683 z2684
          extract_lets +onlyGivenNames x2685
          clear_value x2685
          apply atBoundary_kept
          exact h_s
        · rename_i z2687 z2688 z2689 z2690 z2691 z2692
          apply innerBoundary_kept
          exact h_s
        · rename_i z2693 z2694 z2695 z2696 z2697 z2698 z2699 z2700 z2701 z2702
          apply voteSetup_kept
          exact h_s

theorem deadlineEnd_kept {q : List Instr} (s : State) (j : ℕ) (r : Run) (cls : ℕ) (h_s : Kept q s) : Kept q (deadlineEnd s j r cls) := by
  unfold deadlineEnd
  extract_lets +onlyGivenNames x2703
  clear_value x2703
  refine kept_ite (P := Kept q) ?_ ?_
  · apply endSolve_kept
    exact h_s
  · refine kept_ite (P := Kept q) ?_ ?_
    · apply endSolve_kept
      exact h_s
    · apply endSolve_kept
      exact h_s

theorem afterSetup_kept {q : List Instr} (s : State) (j : ℕ) (r : Run) (m : Mat) (cls sub : ℕ) (sl : List ℕ) (h_s : Kept q s) : KOptS q (afterSetup s j r m cls sub sl) := by
  unfold afterSetup
  refine kept_ite (P := KOptS q) ?_ ?_
  · apply kept_someS
    apply endSolve_kept
    exact h_s
  · apply startOuter_kept
    exact h_s

theorem afterOuter_kept {q : List Instr} (s : State) (j : ℕ) (r : Run) (m : Mat) (cls : ℕ) (sl : List ℕ) (h_s : Kept q s) : KOptS q (afterOuter s j r m cls sl) := by
  unfold afterOuter
  extract_lets +onlyGivenNames x2705
  clear_value x2705
  extract_lets +onlyGivenNames x2707
  clear_value x2707
  extract_lets +onlyGivenNames x2709
  clear_value x2709
  refine kept_ite (P := KOptS q) ?_ ?_
  · apply kept_someS
    apply deadlineEnd_kept
    exact h_s
  · refine kept_ite (P := KOptS q) ?_ ?_
    · apply kept_someS
      apply endSolve_kept
      exact h_s
    · refine kept_ite (P := KOptS q) ?_ ?_
      · apply kept_someS
        apply deadlineEnd_kept
        exact h_s
      · refine kept_ite (P := KOptS q) ?_ ?_
        · apply kept_someS
          apply endSolve_kept
          exact h_s
        · refine kept_ite (P := KOptS q) ?_ ?_
          · apply kept_someS
            apply endSolve_kept
            exact h_s
          · refine kept_ite (P := KOptS q) ?_ ?_
            · apply kept_someS
              apply endSolve_kept
              exact h_s
            · refine kept_ite (P := KOptS q) ?_ ?_
              · apply kept_someS
                apply endSolve_kept
                exact h_s
              · apply stepInner_kept
                apply spend_kept
                exact h_s

theorem afterInner_kept {q : List Instr} (s : State) (j : ℕ) (r : Run) (m : Mat) (cls : ℕ) (sl : List ℕ) (h_s : Kept q s) : KOptS q (afterInner s j r m cls sl) := by
  unfold afterInner
  extract_lets +onlyGivenNames x2711
  clear_value x2711
  extract_lets +onlyGivenNames x2713
  clear_value x2713
  extract_lets +onlyGivenNames x2715
  clear_value x2715
  extract_lets +onlyGivenNames x2717
  clear_value x2717
  extract_lets +onlyGivenNames x2719
  clear_value x2719
  extract_lets +onlyGivenNames x2721
  clear_value x2721
  extract_lets +onlyGivenNames x2723
  clear_value x2723
  extract_lets +onlyGivenNames x2725
  have h2726 : Kept q x2725 := by
    unfold x2725
    apply solWork_kept
    apply spend_kept
    exact h_s
  clear_value x2725
  refine kept_ite (P := KOptS q) ?_ ?_
  · apply startOuter_kept
    exact h2726
  · refine kept_ite (P := KOptS q) ?_ ?_
    · apply kept_someS
      apply endSolve_kept
      exact h_s
    · refine kept_ite (P := KOptS q) ?_ ?_
      · apply startOuter_kept
        exact h2726
      · refine kept_ite (P := KOptS q) ?_ ?_
        · apply kept_someS
          apply endSolve_kept
          exact h_s
        · extract_lets +onlyGivenNames x2727
          clear_value x2727
          apply stepInner_kept
          apply spend_kept
          exact h_s

theorem shareResult_kept {q : List Instr} (s : State) (j : Nat) (h_s : Kept q s) : Kept q (shareResult s j) := by
  unfold shareResult
  split
  · rename_i z4308 z4309
    exact h_s
  · rename_i z4310 z4311 z4312
    split
    · rename_i z4313 z4314
      exact h_s
    · rename_i z4315 z4316 z4317
      extract_lets +onlyGivenNames x4318
      clear_value x4318
      extract_lets +onlyGivenNames x4320
      clear_value x4320
      refine kept_foldl ?_ ?_
      · intro v4322 v4323 v4324
        split
        · rename_i z4325 z4326 z4327
          refine kept_ite (P := Kept q) ?_ ?_
          · apply setRun_kept
            exact v4324
          · exact v4324
        · rename_i z4328 z4329
          exact v4324
      · apply collEnd_kept
        exact h_s

theorem tookResult_kept {q : List Instr} (s : State) (j : ℕ) (r : Run) (st : ℕ) (sl : List ℕ) (h_s : Kept q s) : KOptS q (tookResult s j r st sl) := by
  unfold tookResult
  extract_lets +onlyGivenNames x2729
  clear_value x2729
  extract_lets +onlyGivenNames x2731
  refine kept_ite (P := KOptS q) ?_ ?_
  · apply kept_someS
    apply endSolve_kept
    exact h_s
  · extract_lets +onlyGivenNames x2733
    extract_lets +onlyGivenNames x2735
    clear_value x2735
    refine kept_ite (P := KOptS q) ?_ ?_
    · apply kept_someS
      apply endSolve_kept
      exact h_s
    · refine kept_ite (P := KOptS q) ?_ ?_
      · apply kept_someS
        apply endSolve_kept
        exact h_s
      · split
        · rename_i z2737 z2738
          apply kept_someS
          apply endSolve_kept
          exact h_s
        · rename_i z2739 z2740 z2741
          refine kept_ite (P := KOptS q) ?_ ?_
          · apply afterSetup_kept
            exact h_s
          · refine kept_ite (P := KOptS q) ?_ ?_
            · apply afterOuter_kept
              exact h_s
            · refine kept_ite (P := KOptS q) ?_ ?_
              · apply afterInner_kept
                exact h_s
              · apply stepInner_kept
                apply spend_kept
                exact h_s

theorem execBoundaryReductionResult_kept {q : List Instr} (j : ℕ) (s : State) (h_s : Kept q s) : KOut q (execBoundaryReductionResult j s) := by
  unfold execBoundaryReductionResult
  apply kept_next
  extract_lets +onlyGivenNames x42
  have h43 : Kept q x42 := by
    unfold x42
    apply shareResult_kept
    exact h_s
  clear_value x42
  split
  · rename_i z44 z45
    exact h43
  · rename_i z46 z47 z48
    split
    · rename_i z49 z50
      exact h43
    · rename_i z51 z52 z53 z54 z55
      extract_lets +onlyGivenNames x56
      clear_value x56
      split
      · rename_i z58 z59 z60
        have h61 := kept_eq (P := KOptS q) z60 (by
          apply tookResult_kept
          apply addDiv_kept
          exact h43)
        have h62 : Kept q _ := h61 _ rfl
        exact h62
      · rename_i z63 z64
        have h65 := kept_eq (P := KOptS q) z64 (by
          apply tookResult_kept
          apply addDiv_kept
          exact h43)
        exact h43

theorem execSolveDeadlineExpiry_kept {q : List Instr} (j : ℕ) (s : State) (h_s : Kept q s) : KOut q (execSolveDeadlineExpiry j s) := by
  unfold execSolveDeadlineExpiry
  apply kept_next
  split
  · rename_i z2758 z2759
    exact h_s
  · rename_i z2760 z2761 z2762
    refine kept_ite (P := Kept q) ?_ ?_
    · exact h_s
    · split
      · rename_i z2763 z2764
        exact h_s
      · rename_i z2765 z2766 z2767
        split
        · rename_i z2768 z2769 z2770
          have h2771 := kept_eq (P := KFst q) z2770 (by
            apply withFactor_kept
            · exact h_s
            · intro v2772 v2773 v2774
              exact v2774)
          exact h_s
        · rename_i z2775 z2776 z2777 z2778 z2779
          have h2780 := kept_eq (P := KFst q) z2779 (by
            apply withFactor_kept
            · exact h_s
            · intro v2781 v2782 v2783
              exact v2783)
          extract_lets +onlyGivenNames x2784
          clear_value x2784
          extract_lets +onlyGivenNames x2786
          have h2787 : Kept q x2786 := by
            unfold x2786
            refine kept_ite (P := Kept q) ?_ ?_
            · exact h2780
            · apply vaUndef_kept
              refine kept_mk (s := z2776) ?_
              exact h2780
          clear_value x2786
          apply atBoundary_kept
          exact h2787

theorem execCollWatchdog_kept {q : List Instr} (id : ℕ) (s : State) (h_s : Kept q s) : KOut q (execCollWatchdog id s) := by
  unfold execCollWatchdog
  split
  · rename_i z2788 z2789 z2790 z2791
    apply kept_next
    refine kept_ite (P := Kept q) ?_ ?_
    · exact h_s
    · apply addSat_kept
      apply endSolve_kept
      exact h_s
  · rename_i z2792 z2793
    apply collWatchdog_kept
    exact h_s

theorem execNcoPreemptReq_kept {q : List Instr} (core : Nat) (v : Word) (s : State) (h_s : Kept q s) : KOut q (execNcoPreemptReq core v s) := by
  unfold execNcoPreemptReq
  apply kept_next
  extract_lets +onlyGivenNames x4366
  clear_value x4366
  refine kept_ite (P := Kept q) ?_ ?_
  · exact h_s
  · extract_lets +onlyGivenNames x4368
    clear_value x4368
    extract_lets +onlyGivenNames x4370
    have h4371 : Kept q x4370 := by
      unfold x4370
      apply regPut_kept
      exact h_s
    clear_value x4370
    refine kept_ite (P := Kept q) ?_ ?_
    · exact h4371
    · apply wrf_kept
      apply setTh_kept
      exact h4371

theorem execPreemptSaveDone_kept {q : List Instr} (core : ℕ) (s : State) (h_s : Kept q s) : KOut q (execPreemptSaveDone core s) := by
  unfold execPreemptSaveDone
  apply kept_next
  extract_lets +onlyGivenNames x2794
  clear_value x2794
  extract_lets +onlyGivenNames x2796
  clear_value x2796
  extract_lets +onlyGivenNames x2798
  clear_value x2798
  extract_lets +onlyGivenNames x2800
  clear_value x2800
  split
  · rename_i z2802 z2803
    exact h_s
  · rename_i z2804 z2805 z2806
    refine kept_ite (P := Kept q) ?_ ?_
    · exact h_s
    · extract_lets +onlyGivenNames x2807
      clear_value x2807
      extract_lets +onlyGivenNames x2809
      extract_lets +onlyGivenNames x2811
      clear_value x2811
      extract_lets +onlyGivenNames x2813
      have h2814 : Kept q x2813 := by
        unfold x2813
        apply spend_kept
        exact h_s
      clear_value x2813
      extract_lets +onlyGivenNames x2815
      have h2816 : Kept q x2815 := by
        unfold x2815
        split
        · rename_i z2817 z2818
          apply moveLines_kept
          apply memUndef_kept
          exact h2814
        · rename_i z2819 z2820 z2821
          exact h2814
      clear_value x2815
      extract_lets +onlyGivenNames x2822
      have h2823 : Kept q x2822 := by
        unfold x2822
        refine kept_mk (s := x2815) ?_
        exact h2816
      clear_value x2822
      extract_lets +onlyGivenNames x2824
      have h2825 : Kept q x2824 := by
        unfold x2824
        apply wrf_kept
        apply wrf_kept
        exact h2823
      clear_value x2824
      refine kept_ite (P := Kept q) ?_ ?_
      · apply takeUp_kept
        apply freeThread_kept
        extract_lets +onlyGivenNames x2826
        have h2827 : Kept q x2826 := by
          unfold x2826
          apply wrf_kept
          exact h2825
        clear_value x2826
        refine kept_mk (s := x2826) ?_
        exact h2827
      · apply setTh_kept
        exact h2825

theorem execSCorePreemption_kept {q : List Instr} (t : Tid) (s : State) (h_s : Kept q s) : KOut q (execSCorePreemption t s) := by
  unfold execSCorePreemption
  apply kept_next
  extract_lets +onlyGivenNames x2828
  clear_value x2828
  extract_lets +onlyGivenNames x2830
  clear_value x2830
  refine kept_ite (P := Kept q) ?_ ?_
  · exact h_s
  · extract_lets +onlyGivenNames x2832
    have h2833 : Kept q x2832 := by
      unfold x2832
      refine kept_ite (P := Kept q) ?_ ?_
      · apply gatherStep_kept
        apply setTh_kept
        exact h_s
      · exact h_s
    clear_value x2832
    extract_lets +onlyGivenNames x2834
    clear_value x2834
    refine kept_ite (P := Kept q) ?_ ?_
    · exact h2833
    · extract_lets +onlyGivenNames x2836
      clear_value x2836
      apply takeUp_kept
      apply freeThread_kept
      refine kept_mk (s := x2832) ?_
      exact h2833

theorem execContextRestore_kept {q : List Instr} (t : Tid) (ctx : ℕ) (s : State) (h_s : Kept q s) : KOut q (execContextRestore t ctx s) := by
  unfold execContextRestore
  apply kept_next
  extract_lets +onlyGivenNames x2838
  clear_value x2838
  split
  · rename_i z2840 z2841
    exact h_s
  · rename_i z2842 z2843 z2844
    refine kept_ite (P := Kept q) ?_ ?_
    · exact h_s
    · extract_lets +onlyGivenNames x2845
      have h2846 : Kept q x2845 := by
        unfold x2845
        refine kept_mk (s := s) ?_
        exact h_s
      clear_value x2845
      extract_lets +onlyGivenNames x2847
      clear_value x2847
      extract_lets +onlyGivenNames x2849
      have h2850 : Kept q x2849 := by
        unfold x2849
        apply setTh_kept
        exact h2846
      clear_value x2849
      refine kept_ite (P := Kept q) ?_ ?_
      · apply goOn_kept
        exact h2850
      · extract_lets +onlyGivenNames x2851
        clear_value x2851
        extract_lets +onlyGivenNames x2853
        clear_value x2853
        extract_lets +onlyGivenNames x2855
        have h2856 : Kept q x2855 := by
          unfold x2855
          apply moveLines_kept
          exact h2850
        clear_value x2855
        extract_lets +onlyGivenNames x2857
        have h2858 : Kept q x2857 := by
          unfold x2857
          apply memClear_kept
          apply setNc_kept
          exact h2856
        clear_value x2857
        extract_lets +onlyGivenNames x2859
        have h2860 : Kept q x2859 := by
          unfold x2859
          apply memRestore_kept
          exact h2858
        clear_value x2859
        extract_lets +onlyGivenNames x2861
        have h2862 : Kept q x2861 := by
          unfold x2861
          refine kept_mk (s := x2859) ?_
          exact h2860
        clear_value x2861
        extract_lets +onlyGivenNames x2863
        have h2864 : Kept q x2863 := by
          unfold x2863
          apply wr_kept
          exact h2862
        clear_value x2863
        refine kept_ite (P := Kept q) ?_ ?_
        · exact h2864
        · apply goOn_kept
          apply reviveCore_kept
          exact h2864

theorem execBr_kept {q : List Instr} (t : Tid) (o : Opnds) (s : State) (h_s : Kept q s) : KOut q (execBr t o s) := by
  unfold execBr
  apply insn_kept
  · exact h_s
  · intro v630 v631 v632
    show Kept q _
    exact v632

theorem execJal_kept {q : List Instr} (t : Tid) (o : Opnds) (s : State) (h_s : Kept q s) : KOut q (execJal t o s) := by
  unfold execJal
  apply insn_kept
  · exact h_s
  · intro v633 v634 v635
    extract_lets +onlyGivenNames x636
    clear_value x636
    show Kept q _
    apply setTh_kept
    exact v635

theorem execJr_kept {q : List Instr} (t : Tid) (o : Opnds) (s : State) (h_s : Kept q s) : KOut q (execJr t o s) := by
  unfold execJr
  apply insn_kept
  · exact h_s
  · intro v638 v639 v640
    extract_lets +onlyGivenNames x641
    clear_value x641
    extract_lets +onlyGivenNames x643
    clear_value x643
    refine kept_ite (P := KRes q) ?_ ?_
    · show Kept q _
      exact v640
    · show Kept q _
      apply setTh_kept
      exact v640

theorem execNop_kept {q : List Instr} (t : Tid) (o : Opnds) (s : State) (h_s : Kept q s) : KOut q (execNop t o s) := by
  unfold execNop
  apply insn_kept
  · exact h_s
  · intro v645 v646 v647
    show Kept q _
    exact v647

theorem execEndProg_kept {q : List Instr} (t : Tid) (o : Opnds) (s : State) (h_s : Kept q s) : KOut q (execEndProg t o s) := by
  unfold execEndProg
  apply insn_kept
  · exact h_s
  · intro v2865 v2866 v2867
    show Kept q _
    refine kept_ite (P := Kept q) ?_ ?_
    · exact v2867
    · apply endThread_kept
      exact v2867

theorem execTrace_kept {q : List Instr} (t : Tid) (o : Opnds) (s : State) (h_s : Kept q s) : KOut q (execTrace t o s) := by
  unfold execTrace
  apply insn_kept
  · exact h_s
  · intro v651 v652 v653
    extract_lets +onlyGivenNames x654
    clear_value x654
    extract_lets +onlyGivenNames x656
    clear_value x656
    refine kept_ite (P := KRes q) ?_ ?_
    · show Kept q _
      exact v653
    · refine kept_ite (P := KRes q) ?_ ?_
      · show Kept q _
        apply numAdd_kept
        exact v653
      · show Kept q _
        refine kept_mk (s := v652) ?_
        exact v653

theorem execSetc_kept {q : List Instr} (t : Tid) (o : Opnds) (s : State) (h_s : Kept q s) : KOut q (execSetc t o s) := by
  unfold execSetc
  apply insn_kept
  · exact h_s
  · intro v658 v659 v660
    apply onTh_kept
    exact v660

theorem waitFor_kept {q : List Instr} (key : Nat) (s : State) (c : Nat) (thr : Half) (h_s : Kept q s) : KRes q (waitFor key s c thr) := by
  unfold waitFor
  refine kept_ite (P := KRes q) ?_ ?_
  · show Kept q _
    exact h_s
  · show Kept q _
    apply setTh_kept
    exact h_s

theorem execWait_kept {q : List Instr} (t : Tid) (o : Opnds) (s : State) (h_s : Kept q s) : KOut q (execWait t o s) := by
  unfold execWait
  apply insn_kept
  · exact h_s
  · intro v661 v662 v663
    apply waitFor_kept
    exact v663

theorem execWaitr_kept {q : List Instr} (t : Tid) (o : Opnds) (s : State) (h_s : Kept q s) : KOut q (execWaitr t o s) := by
  unfold execWaitr
  apply insn_kept
  · exact h_s
  · intro v664 v665 v666
    apply waitFor_kept
    exact v666

theorem waitdEnd_kept {q : List Instr} (s : State) (key c : Nat) (thr : Half) (pd : Nat) (h_s : Kept q s) : Kept q (waitdEnd s key c thr pd) := by
  unfold waitdEnd
  extract_lets +onlyGivenNames x4474
  clear_value x4474
  apply retire_kept
  apply setTh_kept
  exact h_s

theorem execWaitd_kept {q : List Instr} (t : Tid) (o : Opnds) (s : State) (h_s : Kept q s) : KOut q (execWaitd t o s) := by
  unfold execWaitd
  apply insn_kept
  · exact h_s
  · intro v667 v668 v669
    extract_lets +onlyGivenNames x670
    clear_value x670
    extract_lets +onlyGivenNames x672
    clear_value x672
    extract_lets +onlyGivenNames x674
    clear_value x674
    refine kept_ite (P := KRes q) ?_ ?_
    · show Kept q _
      apply waitdEnd_kept
      exact v669
    · show Kept q _
      apply setTh_kept
      exact v669

theorem execWaitRelease_kept {q : List Instr} (t : Tid) (s : State) (h_s : Kept q s) : KOut q (execWaitRelease t s) := by
  unfold execWaitRelease
  apply kept_next
  extract_lets +onlyGivenNames x4485
  clear_value x4485
  extract_lets +onlyGivenNames x4487
  clear_value x4487
  refine kept_ite (P := Kept q) ?_ ?_
  · exact h_s
  · split
    · rename_i z4489 z4490 z4491 z4492
      refine kept_ite (P := Kept q) ?_ ?_
      · apply retire_kept
        apply setTh_kept
        exact h_s
      · exact h_s
    · rename_i z4493 z4494 z4495 z4496 z4497 z4498
      refine kept_ite (P := Kept q) ?_ ?_
      · apply waitdEnd_kept
        exact h_s
      · exact h_s
    · rename_i z4499 z4500 z4501
      exact h_s

theorem execWaitdDeadline_kept {q : List Instr} (t : Tid) (s : State) (h_s : Kept q s) : KOut q (execWaitdDeadline t s) := by
  unfold execWaitdDeadline
  apply kept_next
  extract_lets +onlyGivenNames x4502
  clear_value x4502
  extract_lets +onlyGivenNames x4504
  clear_value x4504
  refine kept_ite (P := Kept q) ?_ ?_
  · exact h_s
  · split
    · rename_i z4506 z4507 z4508 z4509 z4510 z4511
      refine kept_ite (P := Kept q) ?_ ?_
      · apply waitdEnd_kept
        exact h_s
      · exact h_s
    · rename_i z4512 z4513
      exact h_s

theorem execFence_kept {q : List Instr} (t : Tid) (o : Opnds) (s : State) (h_s : Kept q s) : KOut q (execFence t o s) := by
  unfold execFence
  apply insn_kept
  · exact h_s
  · intro v676 v677 v678
    show Kept q _
    apply setTh_kept
    exact v678

theorem execFenceComplete_kept {q : List Instr} (t : Tid) (s : State) (h_s : Kept q s) : KOut q (execFenceComplete t s) := by
  unfold execFenceComplete
  apply kept_next
  extract_lets +onlyGivenNames x4517
  clear_value x4517
  extract_lets +onlyGivenNames x4519
  clear_value x4519
  refine kept_ite (P := Kept q) ?_ ?_
  · apply retire_kept
    apply setTh_kept
    exact h_s
  · exact h_s

theorem execIllegalEncoding_kept {q : List Instr} (t : Tid) (cls : Nat) (s : State) (h_s : Kept q s) : KOut q (execIllegalEncoding t cls s) := by
  unfold execIllegalEncoding
  apply kept_next
  extract_lets +onlyGivenNames x4521
  clear_value x4521
  refine kept_ite (P := Kept q) ?_ ?_
  · exact h_s
  · refine kept_ite (P := Kept q) ?_ ?_
    · apply insnFault_kept
      exact h_s
    · apply insnFault_kept
      exact h_s

theorem execFetchFault_kept {q : List Instr} (t : Tid) (s : State) (h_s : Kept q s) : KOut q (execFetchFault t s) := by
  unfold execFetchFault
  apply kept_next
  extract_lets +onlyGivenNames x4523
  clear_value x4523
  extract_lets +onlyGivenNames x4525
  clear_value x4525
  refine kept_ite (P := Kept q) ?_ ?_
  · exact h_s
  · refine kept_ite (P := Kept q) ?_ ?_
    · apply insnFault_kept
      exact h_s
    · split
      · rename_i z4527 z4528 z4529 z4530
        have h4531 := kept_eq (P := KFst q) z4530 (by
          apply translate_kept
          exact h_s)
        apply insnFault_kept
        exact h4531
      · rename_i z4532 z4533 z4534
        have h4535 := kept_eq (P := KFst q) z4534 (by
          apply translate_kept
          exact h_s)
        exact h_s
      · rename_i z4536 z4537 z4538 z4539
        have h4540 := kept_eq (P := KFst q) z4539 (by
          apply translate_kept
          exact h_s)
        split
        · rename_i z4541 z4542 z4543
          apply insnFault_kept
          exact h4540
        · rename_i z4544 z4545
          refine kept_ite (P := Kept q) ?_ ?_
          · apply insnFault_kept
            exact h4540
          · exact h_s

end Sys2Proof.Machine
end

