-- ==== Sys2Proof/Laws/KeptDevice.lean ====
section
/-! SUPPORT. Every operation and meaning of ports, memory controllers, security, modules, records, start-up and power keeps the queue of commands and the canonical form of the stores. One lemma each: what its arguments keep, its answer keeps. -/

namespace Sys2Proof.Machine

theorem setPort_kept {q : List Instr} (s : State) (k st : Nat) (h_s : Kept q s) : Kept q (setPort s k st) := by
  unfold setPort
  apply wrf_kept
  exact h_s

theorem sendLost_kept {q : List Instr} (s : State) (c cause : Nat) (h_s : Kept q s) : Kept q (sendLost s c cause) := by
  unfold sendLost
  refine kept_mk (s := s) ?_
  exact h_s

theorem abortThreads_kept {q : List Instr} (s : State) (p : ℕ) (h_s : Kept q s) : Kept q (abortThreads s p) := by
  unfold abortThreads
  extract_lets +onlyGivenNames x2868
  clear_value x2868
  extract_lets +onlyGivenNames x2870
  have h2871 : Kept q x2870 := by
    unfold x2870
    refine kept_foldl ?_ ?_
    · intro v2872 v2873 v2874
      apply abandon_kept
      apply setTh_kept
      exact v2874
    · exact h_s
  clear_value x2870
  extract_lets +onlyGivenNames x2875
  clear_value x2875
  extract_lets +onlyGivenNames x2877
  have h2878 : Kept q x2877 := by
    unfold x2877
    refine kept_mk (s := x2870) ?_
    exact h2871
  clear_value x2877
  refine kept_foldl ?_ ?_
  · intro v2879 v2880 v2881
    apply threadOver_kept
    apply dropCopies_kept
    exact v2881
  · exact h2878

theorem disarm_kept {q : List Instr} (s : State) (p : Nat) (h_s : Kept q s) : Kept q (disarm s p) := by
  unfold disarm
  extract_lets +onlyGivenNames x4560
  clear_value x4560
  refine kept_foldl ?_ ?_
  · intro v4562 v4563 v4564
    apply wrf_kept
    exact v4564
  · exact h_s

theorem abortPart_kept {q : List Instr} (s : State) (p : ℕ) (h_s : Kept q s) : Kept q (abortPart s p) := by
  unfold abortPart
  extract_lets +onlyGivenNames x2882
  have h2883 : Kept q x2882 := by
    unfold x2882
    apply abortDescs_kept
    exact h_s
  clear_value x2882
  extract_lets +onlyGivenNames x2884
  have h2885 : Kept q x2884 := by
    unfold x2884
    apply abortThreads_kept
    exact h2883
  clear_value x2884
  extract_lets +onlyGivenNames x2886
  have h2887 : Kept q x2886 := by
    unfold x2886
    refine kept_foldl ?_ ?_
    · intro v2888 v2889 v2890
      apply serveRing_kept
      refine kept_foldl ?_ ?_
      · intro v2891 v2892 v2893
        apply launchDone_kept
        exact v2893
      · exact v2890
    · exact h2885
  clear_value x2886
  extract_lets +onlyGivenNames x2894
  have h2895 : Kept q x2894 := by
    unfold x2894
    apply disarm_kept
    exact h2887
  clear_value x2894
  extract_lets +onlyGivenNames x2896
  have h2897 : Kept q x2896 := by
    unfold x2896
    refine kept_ite (P := Kept q) ?_ ?_
    · apply devWrite_kept
      exact h2895
    · exact h2895
  clear_value x2896
  extract_lets +onlyGivenNames x2898
  have h2899 : Kept q x2898 := by
    unfold x2898
    refine kept_ite (P := Kept q) ?_ ?_
    · exact h2897
    · apply setPhase_kept
      exact h2897
  clear_value x2898
  extract_lets +onlyGivenNames x2900
  clear_value x2900
  refine kept_ite (P := Kept q) ?_ ?_
  · apply startRestore_kept
    exact h2899
  · exact h2899

theorem loseCoord_kept {q : List Instr} (s : State) (c cause : ℕ) (h_s : Kept q s) : Kept q (loseCoord s c cause) := by
  unfold loseCoord
  extract_lets +onlyGivenNames x2902
  have h2903 : Kept q x2902 := by
    unfold x2902
    apply loseMembers_kept
    apply failLost_kept
    apply enterLost_kept
    exact h_s
  clear_value x2902
  extract_lets +onlyGivenNames x2904
  have h2905 : Kept q x2904 := by
    unfold x2904
    refine kept_foldl ?_ ?_
    · intro v2906 v2907 v2908
      refine kept_ite (P := Kept q) ?_ ?_
      · apply abortPart_kept
        exact v2908
      · exact v2908
    · exact h2903
  clear_value x2904
  apply ckpPump_kept
  exact h2905

theorem portDown_kept {q : List Instr} (s : State) (k cause : ℕ) (h_s : Kept q s) : Kept q (portDown s k cause) := by
  unfold portDown
  extract_lets +onlyGivenNames x2909
  have h2910 : Kept q x2909 := by
    unfold x2909
    apply addSat_kept
    apply setPort_kept
    exact h_s
  clear_value x2909
  extract_lets +onlyGivenNames x2911
  have h2912 : Kept q x2911 := by
    unfold x2911
    refine kept_mk (s := x2909) ?_
    exact h2910
  clear_value x2911
  extract_lets +onlyGivenNames x2913
  clear_value x2913
  extract_lets +onlyGivenNames x2915
  have h2916 : Kept q x2915 := by
    unfold x2915
    apply bbx_kept
    exact h2912
  clear_value x2915
  split
  · rename_i z2917
    exact h2916
  · rename_i z2918 z2919
    refine kept_ite (P := Kept q) ?_ ?_
    · exact h2916
    · apply loseCoord_kept
      apply sendLost_kept
      exact h2916

theorem execKeepaliveSend_kept {q : List Instr} (port : Nat) (s : State) (h_s : Kept q s) : KOut q (execKeepaliveSend port s) := by
  unfold execKeepaliveSend
  apply kept_next
  refine kept_ite (P := Kept q) ?_ ?_
  · refine kept_mk (s := s) ?_
    exact h_s
  · refine kept_ite (P := Kept q) ?_ ?_
    · refine kept_mk (s := s) ?_
      exact h_s
    · exact h_s

theorem execKeepaliveReceived_kept {q : List Instr} (port : Nat) (s : State) (h_s : Kept q s) : KOut q (execKeepaliveReceived port s) := by
  unfold execKeepaliveReceived
  apply kept_next
  refine kept_ite (P := Kept q) ?_ ?_
  · refine kept_mk (s := s) ?_
    exact h_s
  · exact h_s

theorem execPortSilenceTimeout_kept {q : List Instr} (port : ℕ) (s : State) (h_s : Kept q s) : KOut q (execPortSilenceTimeout port s) := by
  unfold execPortSilenceTimeout
  apply kept_next
  refine kept_ite (P := Kept q) ?_ ?_
  · apply portDown_kept
    exact h_s
  · exact h_s

theorem execLossOfLock_kept {q : List Instr} (port : ℕ) (s : State) (h_s : Kept q s) : KOut q (execLossOfLock port s) := by
  unfold execLossOfLock
  apply kept_next
  refine kept_ite (P := Kept q) ?_ ?_
  · exact h_s
  · extract_lets +onlyGivenNames x2920
    have h2921 : Kept q x2920 := by
      unfold x2920
      apply wrf_kept
      exact h_s
    clear_value x2920
    refine kept_ite (P := Kept q) ?_ ?_
    · apply portDown_kept
      exact h2921
    · exact h2921

theorem execLeavingReceived_kept {q : List Instr} (port : ℕ) (s : State) (h_s : Kept q s) : KOut q (execLeavingReceived port s) := by
  unfold execLeavingReceived
  apply kept_next
  refine kept_ite (P := Kept q) ?_ ?_
  · apply portDown_kept
    apply wrf_kept
    refine kept_mk (s := s) ?_
    exact h_s
  · exact h_s

theorem execReceiveLock_kept {q : List Instr} (port : Nat) (s : State) (h_s : Kept q s) : KOut q (execReceiveLock port s) := by
  unfold execReceiveLock
  apply kept_next
  refine kept_ite (P := Kept q) ?_ ?_
  · apply wrf_kept
    exact h_s
  · exact h_s

theorem execPortTrained_kept {q : List Instr} (port : Nat) (s : State) (h_s : Kept q s) : KOut q (execPortTrained port s) := by
  unfold execPortTrained
  apply kept_next
  refine kept_ite (P := Kept q) ?_ ?_
  · extract_lets +onlyGivenNames x4605
    have h4606 : Kept q x4605 := by
      unfold x4605
      refine kept_ite (P := Kept q) ?_ ?_
      · apply addSat_kept
        exact h_s
      · exact h_s
    clear_value x4605
    extract_lets +onlyGivenNames x4607
    clear_value x4607
    extract_lets +onlyGivenNames x4609
    have h4610 : Kept q x4609 := by
      unfold x4609
      refine kept_mk (s := x4605) ?_
      exact h4606
    clear_value x4609
    apply setPort_kept
    exact h4610
  · exact h_s

theorem execLostNotice_kept {q : List Instr} (port coord cause : ℕ) (s : State) (h_s : Kept q s) : KOut q (execLostNotice port coord cause s) := by
  unfold execLostNotice
  apply kept_next
  refine kept_ite (P := Kept q) ?_ ?_
  · exact h_s
  · refine kept_ite (P := Kept q) ?_ ?_
    · apply parapetDrop_kept
      exact h_s
    · refine kept_ite (P := Kept q) ?_ ?_
      · exact h_s
      · apply loseCoord_kept
        apply sendLost_kept
        exact h_s

theorem releasePorts_kept {q : List Instr} (s : State) (h_s : Kept q s) : Kept q (releasePorts s) := by
  unfold releasePorts
  refine kept_foldl ?_ ?_
  · intro v2092 v2093 v2094
    refine kept_ite (P := Kept q) ?_ ?_
    · apply wrf_kept
      apply setPort_kept
      refine kept_mk (s := v2092) ?_
      exact v2094
    · refine kept_ite (P := Kept q) ?_ ?_
      · exact v2094
      · refine kept_ite (P := Kept q) ?_ ?_
        · apply setPort_kept
          refine kept_mk (s := v2092) ?_
          exact v2094
        · refine kept_mk (s := v2092) ?_
          exact v2094
  · exact h_s

theorem execScfCoordWrite_kept {q : List Instr} (v : Word) (s : State) (h_s : Kept q s) : KOut q (execScfCoordWrite v s) := by
  unfold execScfCoordWrite
  apply kept_next
  refine kept_ite (P := Kept q) ?_ ?_
  · exact h_s
  · apply releasePorts_kept
    apply wr_kept
    exact h_s

theorem execScfPortCtlWrite_kept {q : List Instr} (port : Nat) (v : Word) (s : State) (h_s : Kept q s) : KOut q (execScfPortCtlWrite port v s) := by
  unfold execScfPortCtlWrite
  apply kept_next
  refine kept_ite (P := Kept q) ?_ ?_
  · exact h_s
  · extract_lets +onlyGivenNames x4614
    clear_value x4614
    extract_lets +onlyGivenNames x4616
    have h4617 : Kept q x4616 := by
      unfold x4616
      apply wrf_kept
      exact h_s
    clear_value x4616
    extract_lets +onlyGivenNames x4618
    have h4619 : Kept q x4618 := by
      unfold x4618
      refine kept_mk (s := x4616) ?_
      exact h4617
    clear_value x4618
    extract_lets +onlyGivenNames x4620
    clear_value x4620
    refine kept_ite (P := Kept q) ?_ ?_
    · apply wrf_kept
      apply setPort_kept
      exact h4619
    · refine kept_ite (P := Kept q) ?_ ?_
      · exact h4619
      · extract_lets +onlyGivenNames x4622
        have h4623 : Kept q x4622 := by
          unfold x4622
          refine kept_ite (P := Kept q) ?_ ?_
          · apply setPort_kept
            exact h4619
          · exact h4619
        clear_value x4622
        refine kept_ite (P := Kept q) ?_ ?_
        · refine kept_ite (P := Kept q) ?_ ?_
          · apply setPort_kept
            exact h4623
          · exact h4623
        · refine kept_ite (P := Kept q) ?_ ?_
          · apply setPort_kept
            exact h4623
          · refine kept_mk (s := x4622) ?_
            exact h4623

theorem execScfDomainWrite_kept {q : List Instr} (p : Nat) (v : Word) (s : State) (h_s : Kept q s) : KOut q (execScfDomainWrite p v s) := by
  unfold execScfDomainWrite
  apply kept_next
  refine kept_ite (P := Kept q) ?_ ?_
  · exact h_s
  · extract_lets +onlyGivenNames x4624
    clear_value x4624
    refine kept_ite (P := Kept q) ?_ ?_
    · extract_lets +onlyGivenNames x4626
      have h4627 : Kept q x4626 := by
        unfold x4626
        apply wr_kept
        exact h_s
      clear_value x4626
      apply conflict_kept
      exact h4627
    · apply regPut_kept
      exact h_s

theorem execScfSlotSplitWrite_kept {q : List Instr} (v : Word) (s : State) (h_s : Kept q s) : KOut q (execScfSlotSplitWrite v s) := by
  unfold execScfSlotSplitWrite
  extract_lets +onlyGivenNames x4628
  clear_value x4628
  apply kept_next
  apply wrf_kept
  apply wrf_kept
  exact h_s

theorem execWinEntryWord1Write_kept {q : List Instr} (i : Nat) (v : Word) (s : State) (h_s : Kept q s) : KOut q (execWinEntryWord1Write i v s) := by
  unfold execWinEntryWord1Write
  apply kept_next
  refine kept_ite (P := Kept q) ?_ ?_
  · exact h_s
  · refine kept_mk (s := s) ?_
    exact h_s

theorem execWinEntryWord0Write_kept {q : List Instr} (i : Nat) (v : Word) (s : State) (h_s : Kept q s) : KOut q (execWinEntryWord0Write i v s) := by
  unfold execWinEntryWord0Write
  apply kept_next
  refine kept_ite (P := Kept q) ?_ ?_
  · exact h_s
  · extract_lets +onlyGivenNames x4630
    have h4631 : Kept q x4630 := by
      unfold x4630
      split
      · rename_i z4632 z4633 z4634
        apply regPut_kept
        refine kept_mk (s := s) ?_
        exact h_s
      · rename_i z4635 z4636
        exact h_s
    clear_value x4630
    apply regPut_kept
    exact h4631

theorem execScauthLinkReplay_kept {q : List Instr} (port fails : ℕ) (s : State) (h_s : Kept q s) : KOut q (execScauthLinkReplay port fails s) := by
  unfold execScauthLinkReplay
  apply kept_next
  refine kept_ite (P := Kept q) ?_ ?_
  · exact h_s
  · extract_lets +onlyGivenNames x2922
    have h2923 : Kept q x2922 := by
      unfold x2922
      apply addSat_kept
      exact h_s
    clear_value x2922
    refine kept_ite (P := Kept q) ?_ ?_
    · exact h2923
    · extract_lets +onlyGivenNames x2924
      have h2925 : Kept q x2924 := by
        unfold x2924
        apply addSat_kept
        exact h2923
      clear_value x2924
      refine kept_ite (P := Kept q) ?_ ?_
      · apply portDown_kept
        exact h2925
      · exact h2925

theorem freezeRing_kept {q : List Instr} (s : State) (h_s : Kept q s) : Kept q (freezeRing s) := by
  unfold freezeRing
  apply wrf_kept
  exact h_s

theorem leaveScauth_kept {q : List Instr} (s : State) (h_s : Kept q s) : Kept q (leaveScauth s) := by
  unfold leaveScauth
  refine kept_foldl ?_ ?_
  · intro v4641 v4642 v4643
    refine kept_ite (P := Kept q) ?_ ?_
    · exact v4643
    · extract_lets +onlyGivenNames x4644
      have h4645 : Kept q x4644 := by
        unfold x4644
        refine kept_mk (s := v4641) ?_
        exact v4643
      clear_value x4644
      apply wrf_kept
      apply setPort_kept
      exact h4645
  · exact h_s

theorem fatal_kept {q : List Instr} (s : State) (cause src h : Nat) (h_s : Kept q s) : Kept q (fatal s cause src h) := by
  unfold fatal
  refine kept_ite (P := Kept q) ?_ ?_
  · exact h_s
  · extract_lets +onlyGivenNames x4646
    clear_value x4646
    extract_lets +onlyGivenNames x4648
    have h4649 : Kept q x4648 := by
      unfold x4648
      apply bbx_kept
      exact h_s
    clear_value x4648
    extract_lets +onlyGivenNames x4650
    have h4651 : Kept q x4650 := by
      unfold x4650
      apply leaveScauth_kept
      apply freezeRing_kept
      exact h4649
    clear_value x4650
    extract_lets +onlyGivenNames x4652
    have h4653 : Kept q x4652 := by
      unfold x4652
      apply wrf_kept
      apply wrf_kept
      exact h4651
    clear_value x4652
    refine kept_mk (s := x4652) ?_
    exact h4653

theorem memRefuse_kept {q : List Instr} (s : State) (h p owner : Nat) (h_s : Kept q s) : Kept q (memRefuse s h p owner) := by
  unfold memRefuse
  extract_lets +onlyGivenNames x4654
  have h4655 : Kept q x4654 := by
    unfold x4654
    apply wr_kept
    exact h_s
  clear_value x4654
  apply conflict_kept
  exact h4655

theorem enforceOwner_kept {q : List Instr} (s : State) (h p : ℕ) (h_s : Kept q s) : Kept q (enforceOwner s h p) := by
  unfold enforceOwner
  extract_lets +onlyGivenNames x2099
  clear_value x2099
  extract_lets +onlyGivenNames x2101
  have h2102 : KSnd q x2101 := by
    unfold x2101
    apply drawBits_kept
    exact h_s
  clear_value x2101
  extract_lets +onlyGivenNames x2103
  have h2104 : Kept q x2103 := by
    unfold x2103
    apply wr_kept
    apply wrf_kept
    exact h2102
  clear_value x2103
  extract_lets +onlyGivenNames x2105
  clear_value x2105
  extract_lets +onlyGivenNames x2107
  have h2108 : Kept q x2107 := by
    unfold x2107
    apply memUndef_kept
    exact h2104
  clear_value x2107
  refine kept_mk (s := x2107) ?_
  exact h2108

theorem execMemPartCfgValid_kept {q : List Instr} (h p : Nat) (v : Word) (s : State) (h_s : Kept q s) : KOut q (execMemPartCfgValid h p v s) := by
  unfold execMemPartCfgValid
  apply kept_next
  refine kept_ite (P := Kept q) ?_ ?_
  · exact h_s
  · refine kept_ite (P := Kept q) ?_ ?_
    · refine kept_ite (P := Kept q) ?_ ?_
      · exact h_s
      · apply wrf_kept
        exact h_s
    · extract_lets +onlyGivenNames x4664
      have h4665 : Kept q x4664 := by
        unfold x4664
        apply wr_kept
        exact h_s
      clear_value x4664
      extract_lets +onlyGivenNames x4666
      have h4667 : Kept q x4666 := by
        unfold x4666
        apply wrf_kept
        exact h4665
      clear_value x4666
      refine kept_ite (P := Kept q) ?_ ?_
      · exact h4667
      · split
        · rename_i z4668 z4669 z4670
          apply memRefuse_kept
          exact h4667
        · rename_i z4671 z4672
          extract_lets +onlyGivenNames x4673
          have h4674 : Kept q x4673 := by
            unfold x4673
            refine kept_ite (P := Kept q) ?_ ?_
            · refine kept_foldl ?_ ?_
              · intro v4675 v4676 v4677
                apply wr_kept
                exact v4677
              · exact h4667
            · exact h4667
          clear_value x4673
          apply enforceOwner_kept
          exact h4674

theorem hbmLine_kept {q : List Instr} (s : State) (h line : ℕ) (h_s : Kept q s) : Kept q (hbmLine s h line) := by
  unfold hbmLine
  split
  · rename_i z2109 z2110 z2111 z2112
    extract_lets +onlyGivenNames x2113
    have h2114 : Kept q x2113 := by
      unfold x2113
      apply addDiv_kept
      exact h_s
    clear_value x2113
    split
    · rename_i z2115 z2116 z2117
      refine kept_mk (s := x2113) ?_
      exact h2114
    · rename_i z2118 z2119
      exact h2114
  · rename_i z2120 z2121
    exact h_s

theorem llmDrop_kept {q : List Instr} (s : State) (h w : ℕ) (back : Bool) (h_s : Kept q s) : Kept q (llmDrop s h w back) := by
  unfold llmDrop
  extract_lets +onlyGivenNames x2122
  clear_value x2122
  extract_lets +onlyGivenNames x2124
  have h2125 : Kept q x2124 := by
    unfold x2124
    refine kept_ite (P := Kept q) ?_ ?_
    · refine kept_foldl ?_ ?_
      · intro v2126 v2127 v2128
        split
        · rename_i z2129 z2130 z2131
          apply hbmLine_kept
          exact v2128
        · rename_i z2132 z2133
          exact v2128
      · exact h_s
    · exact h_s
  clear_value x2124
  refine kept_mk (s := x2124) ?_
  exact h2125

theorem wayScratchOn_kept {q : List Instr} (s : State) (h w : ℕ) (h_s : Kept q s) : Kept q (wayScratchOn s h w) := by
  unfold wayScratchOn
  apply memClear_kept
  apply wrf_kept
  exact h_s

theorem joinFree_kept {q : List Instr} (s : State) (h p : ℕ) (h_s : Kept q s) : Kept q (joinFree s h p) := by
  unfold joinFree
  split
  · rename_i z2134 z2135
    exact h_s
  · rename_i z2136 z2137 z2138 z2139 z2140 z2141
    extract_lets +onlyGivenNames x2142
    have h2143 : Kept q x2142 := by
      unfold x2142
      refine kept_foldl ?_ ?_
      · intro v2144 v2145 v2146
        refine kept_ite (P := Kept q) ?_ ?_
        · apply wayScratchOn_kept
          exact v2146
        · exact v2146
      · exact h_s
    clear_value x2142
    refine kept_mk (s := x2142) ?_
    exact h2143

theorem execLlmPartCfgApply_kept {q : List Instr} (h p : ℕ) (v : Word) (s : State) (h_s : Kept q s) : KOut q (execLlmPartCfgApply h p v s) := by
  unfold execLlmPartCfgApply
  apply kept_next
  refine kept_ite (P := Kept q) ?_ ?_
  · exact h_s
  · extract_lets +onlyGivenNames x2147
    have h2148 : Kept q x2147 := by
      unfold x2147
      apply regPut_kept
      exact h_s
    clear_value x2147
    refine kept_ite (P := Kept q) ?_ ?_
    · exact h2148
    · split
      · rename_i z2149 z2150
        extract_lets +onlyGivenNames x2151
        have h2152 : Kept q x2151 := by
          unfold x2151
          apply wr_kept
          exact h2148
        clear_value x2151
        apply conflict_kept
        exact h2152
      · rename_i z2153 z2154 z2155 z2156
        extract_lets +onlyGivenNames x2157
        clear_value x2157
        extract_lets +onlyGivenNames x2159
        clear_value x2159
        extract_lets +onlyGivenNames x2161
        clear_value x2161
        extract_lets +onlyGivenNames x2163
        have h2164 : Kept q x2163 := by
          unfold x2163
          apply wrf_kept
          exact h2148
        clear_value x2163
        extract_lets +onlyGivenNames x2165
        have h2166 : Kept q x2165 := by
          unfold x2165
          refine kept_mk (s := x2163) ?_
          exact h2164
        clear_value x2165
        extract_lets +onlyGivenNames x2167
        have h2168 : Kept q x2167 := by
          unfold x2167
          refine kept_foldl ?_ ?_
          · intro v2169 v2170 v2171
            extract_lets +onlyGivenNames x2172
            clear_value x2172
            extract_lets +onlyGivenNames x2174
            have h2175 : Kept q x2174 := by
              unfold x2174
              refine kept_ite (P := Kept q) ?_ ?_
              · apply memClear_kept
                apply wrf_kept
                exact v2171
              · refine kept_ite (P := Kept q) ?_ ?_
                · apply llmDrop_kept
                  exact v2171
                · exact v2171
            clear_value x2174
            refine kept_ite (P := Kept q) ?_ ?_
            · apply wrf_kept
              exact h2175
            · exact h2175
          · exact h2166
        clear_value x2167
        extract_lets +onlyGivenNames x2176
        clear_value x2176
        refine kept_ite (P := Kept q) ?_ ?_
        · apply joinFree_kept
          exact h2168
        · exact h2168

theorem execLlmSplitDone_kept {q : List Instr} (h p : ℕ) (s : State) (h_s : Kept q s) : KOut q (execLlmSplitDone h p s) := by
  unfold execLlmSplitDone
  apply kept_next
  refine kept_ite (P := Kept q) ?_ ?_
  · exact h_s
  · split
    · rename_i z2178 z2179
      exact h_s
    · rename_i z2180 z2181 z2182 z2183 z2184 z2185
      extract_lets +onlyGivenNames x2186
      have h2187 : Kept q x2186 := by
        unfold x2186
        apply joinFree_kept
        exact h_s
      clear_value x2186
      extract_lets +onlyGivenNames x2188
      have h2189 : Kept q x2188 := by
        unfold x2188
        refine kept_mk (s := x2186) ?_
        exact h2187
      clear_value x2188
      extract_lets +onlyGivenNames x2190
      have h2191 : Kept q x2190 := by
        unfold x2190
        refine kept_foldl ?_ ?_
        · intro v2192 v2193 v2194
          refine kept_ite (P := Kept q) ?_ ?_
          · exact v2194
          · refine kept_ite (P := Kept q) ?_ ?_
            · apply wayScratchOn_kept
              exact v2194
            · refine kept_ite (P := Kept q) ?_ ?_
              · exact v2194
              · apply wrf_kept
                exact v2194
        · exact h2189
      clear_value x2190
      apply wrf_kept
      exact h2191

theorem execRglPartWrite_kept {q : List Instr} (h p : Nat) (v : Word) (s : State) (h_s : Kept q s) : KOut q (execRglPartWrite h p v s) := by
  unfold execRglPartWrite
  apply kept_next
  refine kept_ite (P := Kept q) ?_ ?_
  · exact h_s
  · extract_lets +onlyGivenNames x4712
    clear_value x4712
    extract_lets +onlyGivenNames x4714
    clear_value x4714
    refine kept_ite (P := Kept q) ?_ ?_
    · apply wr_kept
      exact h_s
    · apply regPut_kept
      exact h_s

theorem patrolNext_kept {q : List Instr} (s : State) (h : ℕ) (h_s : Kept q s) : Kept q (patrolNext s h) := by
  unfold patrolNext
  extract_lets +onlyGivenNames x2195
  clear_value x2195
  extract_lets +onlyGivenNames x2197
  clear_value x2197
  refine kept_mk (s := s) ?_
  exact h_s

theorem execPatrolScrubRead_kept {q : List Instr} (line syms : ℕ) (s : State) (h_s : Kept q s) : KOut q (execPatrolScrubRead line syms s) := by
  unfold execPatrolScrubRead
  apply kept_next
  split
  · rename_i z2199 z2200 z2201 z2202
    extract_lets +onlyGivenNames x2203
    clear_value x2203
    refine kept_ite (P := Kept q) ?_ ?_
    · exact h_s
    · extract_lets +onlyGivenNames x2205
      have h2206 : Kept q x2205 := by
        unfold x2205
        apply patrolNext_kept
        exact h_s
      clear_value x2205
      refine kept_ite (P := Kept q) ?_ ?_
      · exact h2206
      · refine kept_ite (P := Kept q) ?_ ?_
        · apply readLine_kept
          refine kept_mk (s := x2205) ?_
          exact h2206
        · extract_lets +onlyGivenNames x2207
          have h2208 : KSnd q x2207 := by
            unfold x2207
            apply drawNat_kept
            exact h2206
          clear_value x2207
          refine kept_ite (P := Kept q) ?_ ?_
          · apply readLine_kept
            extract_lets +onlyGivenNames x2209
            have h2210 : Kept q x2209 := by
              unfold x2209
              exact h2208
            clear_value x2209
            refine kept_mk (s := x2209) ?_
            exact h2210
          · extract_lets +onlyGivenNames x2211
            have h2212 : Kept q x2211 := by
              unfold x2211
              apply memUndef_kept
              exact h2208
            clear_value x2211
            refine kept_ite (P := Kept q) ?_ ?_
            · exact h2212
            · apply readLine_kept
              refine kept_mk (s := x2211) ?_
              exact h2212
  · rename_i z2213 z2214
    exact h_s

theorem execRemapCopyDone_kept {q : List Instr} (h i : ℕ) (s : State) (h_s : Kept q s) : KOut q (execRemapCopyDone h i s) := by
  unfold execRemapCopyDone
  apply kept_next
  refine kept_ite (P := Kept q) ?_ ?_
  · exact h_s
  · extract_lets +onlyGivenNames x2926
    clear_value x2926
    refine kept_ite (P := Kept q) ?_ ?_
    · exact h_s
    · extract_lets +onlyGivenNames x2928
      clear_value x2928
      apply ckpPump_kept
      refine kept_mk (s := s) ?_
      exact h_s

theorem execHotChannelWindowEnd_kept {q : List Instr} (h p : ℕ) (counts : List ℕ) (s : State) (h_s : Kept q s) : KOut q (execHotChannelWindowEnd h p counts s) := by
  unfold execHotChannelWindowEnd
  apply kept_next
  extract_lets +onlyGivenNames x2219
  clear_value x2219
  extract_lets +onlyGivenNames x2221
  clear_value x2221
  refine kept_ite (P := Kept q) ?_ ?_
  · exact h_s
  · extract_lets +onlyGivenNames x2223
    clear_value x2223
    extract_lets +onlyGivenNames x2225
    clear_value x2225
    extract_lets +onlyGivenNames x2227
    clear_value x2227
    extract_lets +onlyGivenNames x2229
    clear_value x2229
    extract_lets +onlyGivenNames x2231
    clear_value x2231
    extract_lets +onlyGivenNames x2233
    clear_value x2233
    extract_lets +onlyGivenNames x2235
    have h2236 : Kept q x2235 := by
      unfold x2235
      refine kept_mk (s := s) ?_
      exact h_s
    clear_value x2235
    refine kept_ite (P := Kept q) ?_ ?_
    · exact h2236
    · extract_lets +onlyGivenNames x2237
      clear_value x2237
      extract_lets +onlyGivenNames x2239
      clear_value x2239
      extract_lets +onlyGivenNames x2241
      have h2242 : Kept q x2241 := by
        unfold x2241
        refine kept_ite (P := Kept q) ?_ ?_
        · apply addSat_kept
          exact h2236
        · apply wr_kept
          exact h2236
      clear_value x2241
      refine kept_ite (P := Kept q) ?_ ?_
      · apply logRec_kept
        exact h2242
      · exact h2242

theorem execArchLinkCrcFail_kept {q : List Instr} (h resends : Nat) (s : State) (h_s : Kept q s) : KOut q (execArchLinkCrcFail h resends s) := by
  unfold execArchLinkCrcFail
  apply kept_next
  refine kept_ite (P := Kept q) ?_ ?_
  · exact h_s
  · refine kept_ite (P := Kept q) ?_ ?_
    · apply addSat_kept
      exact h_s
    · apply fatal_kept
      exact h_s

theorem secErr_kept {q : List Instr} (s : State) (st sub : Nat) (h_s : Kept q s) : Kept q (secErr s st sub) := by
  unfold secErr
  apply wr_kept
  exact h_s

theorem putDigest_kept {q : List Instr} (s : State) (a : Nat) (d : BitVec 512) (h_s : Kept q s) : Kept q (putDigest s a d) := by
  unfold putDigest
  refine kept_foldl ?_ ?_
  · intro v4744 v4745 v4746
    apply wr_kept
    exact v4746
  · exact h_s

theorem execSecCmdReport_kept {q : List Instr} (s : State) (h_s : Kept q s) : KOut q (execSecCmdReport s) := by
  unfold execSecCmdReport
  apply kept_next
  extract_lets +onlyGivenNames x4747
  have h4748 : KSnd q x4747 := by
    unfold x4747
    apply drawBits_kept
    exact h_s
  clear_value x4747
  extract_lets +onlyGivenNames x4749
  clear_value x4749
  extract_lets +onlyGivenNames x4751
  have h4752 : Kept q x4751 := by
    unfold x4751
    exact h4748
  clear_value x4751
  extract_lets +onlyGivenNames x4753
  have h4754 : Kept q x4753 := by
    unfold x4753
    refine kept_mk (s := x4751) ?_
    exact h4752
  clear_value x4753
  apply wrf_kept
  exact h4754

theorem execSecCmdAdmit_kept {q : List Instr} (s : State) (h_s : Kept q s) : KOut q (execSecCmdAdmit s) := by
  unfold execSecCmdAdmit
  apply kept_next
  split
  · rename_i z4755 z4756
    exact h_s
  · rename_i z4757 z4758 z4759
    extract_lets +onlyGivenNames x4760
    clear_value x4760
    refine kept_ite (P := Kept q) ?_ ?_
    · apply secErr_kept
      exact h_s
    · refine kept_mk (s := s) ?_
      exact h_s

theorem execKeyswitch_kept {q : List Instr} (s : State) (h_s : Kept q s) : KOut q (execKeyswitch s) := by
  unfold execKeyswitch
  apply kept_next
  split
  · rename_i z4762 z4763
    exact h_s
  · rename_i z4764 z4765 z4766
    extract_lets +onlyGivenNames x4767
    have h4768 : Kept q x4767 := by
      unfold x4767
      apply wrf_kept
      refine kept_mk (s := s) ?_
      exact h_s
    clear_value x4767
    apply bbx_kept
    exact h4768

theorem execSecCmdEndsession_kept {q : List Instr} (s : State) (h_s : Kept q s) : KOut q (execSecCmdEndsession s) := by
  unfold execSecCmdEndsession
  apply kept_next
  apply wrf_kept
  refine kept_mk (s := s) ?_
  exact h_s

theorem dropSlot_kept {q : List Instr} (s : State) (k : Nat) (h_s : Kept q s) : Kept q (dropSlot s k) := by
  unfold dropSlot
  extract_lets +onlyGivenNames x4769
  have h4770 : Kept q x4769 := by
    unfold x4769
    refine kept_mk (s := s) ?_
    exact h_s
  clear_value x4769
  extract_lets +onlyGivenNames x4771
  have h4772 : Kept q x4771 := by
    unfold x4771
    refine kept_foldl ?_ ?_
    · intro v4773 v4774 v4775
      apply wr_kept
      exact v4775
    · exact h4770
  clear_value x4771
  apply wrf_kept
  exact h4772

theorem execSecKslotLoad_kept {q : List Instr} (k : ℕ) (v : Word) (s : State) (h_s : Kept q s) : KOut q (execSecKslotLoad k v s) := by
  unfold execSecKslotLoad
  apply kept_next
  refine kept_ite (P := Kept q) ?_ ?_
  · exact h_s
  · extract_lets +onlyGivenNames x11
    have h12 : Kept q x11 := by
      unfold x11
      apply wrf_kept
      apply wr_kept
      apply dropSlot_kept
      exact h_s
    clear_value x11
    extract_lets +onlyGivenNames x13
    clear_value x13
    extract_lets +onlyGivenNames x15
    clear_value x15
    split
    · rename_i z17 z18
      apply secErr_kept
      exact h12
    · rename_i z19 z20 z21
      refine kept_ite (P := Kept q) ?_ ?_
      · apply secErr_kept
        exact h12
      · split
        · rename_i z22 z23
          apply secErr_kept
          exact h12
        · rename_i z24 z25 z26
          extract_lets +onlyGivenNames x27
          have h28 : Kept q x27 := by
            unfold x27
            split
            · rename_i z29 z30 z31
              apply dropSlot_kept
              exact h12
            · rename_i z32 z33
              exact h12
          clear_value x27
          extract_lets +onlyGivenNames x34
          have h35 : Kept q x34 := by
            unfold x34
            apply wrf_kept
            refine kept_mk (s := x27) ?_
            exact h28
          clear_value x34
          refine kept_ite (P := Kept q) ?_ ?_
          · extract_lets +onlyGivenNames x36
            clear_value x36
            apply wr_kept
            apply wr_kept
            exact h35
          · exact h35

theorem execSecMeasGo_kept {q : List Instr} (h i : Nat) (v : Word) (s : State) (h_s : Kept q s) : KOut q (execSecMeasGo h i v s) := by
  unfold execSecMeasGo
  apply kept_next
  refine kept_ite (P := Kept q) ?_ ?_
  · exact h_s
  · extract_lets +onlyGivenNames x4805
    have h4806 : Kept q x4805 := by
      unfold x4805
      refine kept_ite (P := Kept q) ?_ ?_
      · exact h_s
      · apply wr_kept
        exact h_s
    clear_value x4805
    extract_lets +onlyGivenNames x4807
    clear_value x4807
    extract_lets +onlyGivenNames x4809
    clear_value x4809
    extract_lets +onlyGivenNames x4811
    clear_value x4811
    extract_lets +onlyGivenNames x4813
    clear_value x4813
    extract_lets +onlyGivenNames x4815
    have h4816 : Kept q x4815 := by
      unfold x4815
      apply wrf_kept
      exact h4806
    clear_value x4815
    refine kept_mk (s := x4815) ?_
    exact h4816

theorem extendChain_kept {q : List Instr} (s : State) (e : MeasExt) (dig : BitVec 512) (h_s : Kept q s) : Kept q (extendChain s e dig) := by
  unfold extendChain
  extract_lets +onlyGivenNames x4817
  clear_value x4817
  refine kept_ite (P := Kept q) ?_ ?_
  · exact h_s
  · apply putDigest_kept
    exact h_s

theorem extendAll_kept {q : List Instr} (a0 : Nat) (a1 : State) (h_a1 : Kept q a1) : Kept q (extendAll a0 a1) := by
  induction a0 generalizing a1
  · rw [extendAll]
    exact h_a1
  · rename_i z4819 z4820
    rw [extendAll]
    split
    · rename_i z4821 z4822
      exact h_a1
    · rename_i z4823 z4824 z4825 z4826
      split
      · rename_i z4827 z4828
        exact h_a1
      · rename_i z4829 z4830 z4831
        apply z4820
        apply extendChain_kept
        refine kept_mk (s := a1) ?_
        exact h_a1

theorem execMeasurementDone_kept {q : List Instr} (h i : Nat) (s : State) (h_s : Kept q s) : KOut q (execMeasurementDone h i s) := by
  unfold execMeasurementDone
  apply kept_next
  refine kept_ite (P := Kept q) ?_ ?_
  · exact h_s
  · extract_lets +onlyGivenNames x4832
    clear_value x4832
    extract_lets +onlyGivenNames x4834
    have h4835 : Kept q x4834 := by
      unfold x4834
      apply wrf_kept
      apply putDigest_kept
      exact h_s
    clear_value x4834
    extract_lets +onlyGivenNames x4836
    have h4837 : Kept q x4836 := by
      unfold x4836
      refine kept_mk (s := x4834) ?_
      exact h4835
    clear_value x4836
    apply extendAll_kept
    exact h4837

theorem measClear_kept {q : List Instr} (s : State) (h i : Nat) (v : Word) (h_s : Kept q s) : Kept q (measClear s h i v) := by
  unfold measClear
  extract_lets +onlyGivenNames x4838
  clear_value x4838
  extract_lets +onlyGivenNames x4840
  clear_value x4840
  extract_lets +onlyGivenNames x4842
  clear_value x4842
  refine kept_ite (P := Kept q) ?_ ?_
  · exact h_s
  · refine kept_ite (P := Kept q) ?_ ?_
    · extract_lets +onlyGivenNames x4844
      have h4845 : Kept q x4844 := by
        unfold x4844
        apply secErr_kept
        exact h_s
      clear_value x4844
      apply conflict_kept
      exact h4845
    · apply wr_kept
      exact h_s

theorem measWrite0_kept {q : List Instr} (s : State) (h i : Nat) (v : Word) (h_s : Kept q s) : Kept q (measWrite0 s h i v) := by
  unfold measWrite0
  refine kept_ite (P := Kept q) ?_ ?_
  · apply measClear_kept
    exact h_s
  · apply regPut_kept
    exact h_s

theorem clearClusters_kept {q : List Instr} (s : State) (p : Nat) (h_s : Kept q s) : Kept q (clearClusters s p) := by
  unfold clearClusters
  refine kept_foldl ?_ ?_
  · intro v4846 v4847 v4848
    refine kept_foldl ?_ ?_
    · intro v4849 v4850 v4851
      extract_lets +onlyGivenNames x4852
      clear_value x4852
      extract_lets +onlyGivenNames x4854
      have h4855 : Kept q x4854 := by
        unfold x4854
        apply memClear_kept
        exact v4851
      clear_value x4854
      refine kept_foldl ?_ ?_
      · intro v4856 v4857 v4858
        apply memClear_kept
        exact v4858
      · exact h4855
    · exact v4848
  · exact h_s

theorem clearWays_kept {q : List Instr} (s : State) (p : ℕ) (sc : Scrub) (h_s : Kept q s) : Kept q (clearWays s p sc) := by
  unfold clearWays
  refine kept_foldl ?_ ?_
  · intro v2243 v2244 v2245
    extract_lets +onlyGivenNames x2246
    clear_value x2246
    extract_lets +onlyGivenNames x2248
    have h2249 : Kept q x2248 := by
      unfold x2248
      refine kept_mk (s := v2243) ?_
      exact v2245
    clear_value x2248
    refine kept_foldl ?_ ?_
    · intro v2250 v2251 v2252
      refine kept_ite (P := Kept q) ?_ ?_
      · apply memClear_kept
        apply llmDrop_kept
        exact v2252
      · exact v2252
    · exact h2249
  · exact h_s

theorem execSecReleaseGo_kept {q : List Instr} (v : Word) (s : State) (h_s : Kept q s) : KOut q (execSecReleaseGo v s) := by
  unfold execSecReleaseGo
  apply kept_next
  extract_lets +onlyGivenNames x2253
  clear_value x2253
  extract_lets +onlyGivenNames x2255
  clear_value x2255
  extract_lets +onlyGivenNames x2257
  have h2258 : (∀ y2259, Kept q (x2257 y2259)) := by
    unfold x2257
    intro v2260
    extract_lets +onlyGivenNames x2261
    have h2262 : Kept q x2261 := by
      unfold x2261
      apply secErr_kept
      exact h_s
    clear_value x2261
    apply conflict_kept
    exact h2262
  clear_value x2257
  refine kept_ite (P := Kept q) ?_ ?_
  · exact h_s
  · refine kept_ite (P := Kept q) ?_ ?_
    · apply h2258
    · refine kept_ite (P := Kept q) ?_ ?_
      · apply h2258
      · extract_lets +onlyGivenNames x2263
        have h2264 : Kept q x2263 := by
          unfold x2263
          refine kept_ite (P := Kept q) ?_ ?_
          · apply stopDrain_kept
            exact h_s
          · exact h_s
        clear_value x2263
        extract_lets +onlyGivenNames x2265
        clear_value x2265
        extract_lets +onlyGivenNames x2267
        clear_value x2267
        extract_lets +onlyGivenNames x2269
        have h2270 : Kept q x2269 := by
          unfold x2269
          apply bbx_kept
          exact h2264
        clear_value x2269
        extract_lets +onlyGivenNames x2271
        have h2272 : Kept q x2271 := by
          unfold x2271
          apply wrf_kept
          apply wrf_kept
          apply wrf_kept
          exact h2270
        clear_value x2271
        extract_lets +onlyGivenNames x2273
        have h2274 : Kept q x2273 := by
          unfold x2273
          apply wrf_kept
          apply clearWays_kept
          apply clearClusters_kept
          exact h2272
        clear_value x2273
        refine kept_mk (s := x2273) ?_
        exact h2274

theorem execScrubDone_kept {q : List Instr} (p : Nat) (s : State) (h_s : Kept q s) : KOut q (execScrubDone p s) := by
  unfold execScrubDone
  apply kept_next
  split
  · rename_i z83 z84
    exact h_s
  · rename_i z85 z86 z87
    refine kept_ite (P := Kept q) ?_ ?_
    · exact h_s
    · extract_lets +onlyGivenNames x88
      have h89 : (∀ y90 y91 y92, Kept q y90 → Kept q (x88 y90 y91 y92)) := by
        unfold x88
        intro v93 v94 v95 v96
        apply memClear_kept
        exact v96
      clear_value x88
      extract_lets +onlyGivenNames x97
      have h98 : Kept q x97 := by
        unfold x97
        apply h89
        apply h89
        exact h_s
      clear_value x97
      extract_lets +onlyGivenNames x99
      have h100 : Kept q x99 := by
        unfold x99
        refine kept_foldl ?_ ?_
        · intro v101 v102 v103
          refine kept_foldl ?_ ?_
          · intro v104 v105 v106
            refine kept_ite (P := Kept q) ?_ ?_
            · apply wrf_kept
              apply wrf_kept
              apply memClear_kept
              exact v106
            · exact v106
          · exact v103
        · exact h98
      clear_value x99
      extract_lets +onlyGivenNames x107
      have h108 : Kept q x107 := by
        unfold x107
        apply regsReset_kept
        exact h100
      clear_value x107
      extract_lets +onlyGivenNames x109
      have h110 : Kept q x109 := by
        unfold x109
        refine kept_mk (s := x107) ?_
        exact h108
      clear_value x109
      extract_lets +onlyGivenNames x111
      have h112 : Kept q x111 := by
        unfold x111
        refine kept_foldl ?_ ?_
        · intro v113 v114 v115
          apply dropSlot_kept
          exact v115
        · exact h110
      clear_value x111
      extract_lets +onlyGivenNames x116
      have h117 : Kept q x116 := by
        unfold x116
        apply setCkp_kept
        exact h112
      clear_value x116
      extract_lets +onlyGivenNames x118
      have h119 : Kept q x118 := by
        unfold x118
        apply wrf_kept
        apply wrf_kept
        apply wrf_kept
        exact h117
      clear_value x118
      apply bbx_kept
      exact h119

theorem clearSlots_kept {q : List Instr} (s : State) (h_s : Kept q s) : Kept q (clearSlots s) := by
  unfold clearSlots
  refine kept_foldl ?_ ?_
  · intro v4907 v4908 v4909
    apply wr_kept
    apply wr_kept
    exact v4909
  · exact h_s

theorem setBay_kept {q : List Instr} (s : State) (b : Nat) (y : Bay) (h_s : Kept q s) : Kept q (setBay s b y) := by
  unfold setBay
  refine kept_mk (s := s) ?_
  exact h_s

theorem execModuleInserted_kept {q : List Instr} (b : Nat) (m : ModuleIn) (s : State) (h_s : Kept q s) : KOut q (execModuleInserted b m s) := by
  unfold execModuleInserted
  apply kept_next
  refine kept_ite (P := Kept q) ?_ ?_
  · exact h_s
  · refine kept_ite (P := Kept q) ?_ ?_
    · apply clearSlots_kept
      exact h_s
    · extract_lets +onlyGivenNames x4910
      have h4911 : Kept q x4910 := by
        unfold x4910
        apply clearSlots_kept
        apply setBay_kept
        exact h_s
      clear_value x4910
      apply wr_kept
      apply wr_kept
      exact h4911

theorem readLedger_kept {q : List Instr} (s : State) (b : Nat) (h_s : Kept q s) : Kept q (readLedger s b) := by
  unfold readLedger
  split
  · rename_i z4912 z4913
    exact h_s
  · rename_i z4914 z4915 z4916
    extract_lets +onlyGivenNames x4917
    have h4918 : Kept q x4917 := by
      unfold x4917
      apply wrf_kept
      exact h_s
    clear_value x4917
    extract_lets +onlyGivenNames x4919
    clear_value x4919
    extract_lets +onlyGivenNames x4921
    clear_value x4921
    refine kept_ite (P := Kept q) ?_ ?_
    · exact h4918
    · apply bbx_kept
      apply wrf_kept
      exact h4918

theorem execCapsuleCheckDone_kept {q : List Instr} (b : Nat) (s : State) (h_s : Kept q s) : KOut q (execCapsuleCheckDone b s) := by
  unfold execCapsuleCheckDone
  apply kept_next
  split
  · rename_i z4923 z4924
    exact h_s
  · rename_i z4925 z4926 z4927
    refine kept_ite (P := Kept q) ?_ ?_
    · exact h_s
    · extract_lets +onlyGivenNames x4928
      have h4929 : Kept q x4928 := by
        unfold x4928
        apply wrf_kept
        apply setBay_kept
        exact h_s
      clear_value x4928
      apply readLedger_kept
      apply wr_kept
      exact h4929

theorem execLedgerPoll_kept {q : List Instr} (s : State) (h_s : Kept q s) : KOut q (execLedgerPoll s) := by
  unfold execLedgerPoll
  apply kept_next
  refine kept_ite (P := Kept q) ?_ ?_
  · exact h_s
  · refine kept_foldl ?_ ?_
    · intro v4930 v4931 v4932
      refine kept_ite (P := Kept q) ?_ ?_
      · apply readLedger_kept
        exact v4932
      · exact v4932
    · refine kept_mk (s := s) ?_
      exact h_s

theorem execDrnBayEject_kept {q : List Instr} (b : Nat) (s : State) (h_s : Kept q s) : KOut q (execDrnBayEject b s) := by
  unfold execDrnBayEject
  apply kept_next
  refine kept_ite (P := Kept q) ?_ ?_
  · exact h_s
  · refine kept_ite (P := Kept q) ?_ ?_
    · apply conflict_kept
      exact h_s
    · apply wrf_kept
      apply setBay_kept
      exact h_s

theorem xferEnd_kept {q : List Instr} (s : State) (p st sub : Nat) (h_s : Kept q s) : Kept q (xferEnd s p st sub) := by
  unfold xferEnd
  extract_lets +onlyGivenNames x4933
  have h4934 : Kept q x4933 := by
    unfold x4933
    apply wr_kept
    exact h_s
  clear_value x4933
  refine kept_mk (s := x4933) ?_
  exact h4934

theorem bayLost_kept {q : List Instr} (s : State) (b : Nat) (h_s : Kept q s) : Kept q (bayLost s b) := by
  unfold bayLost
  extract_lets +onlyGivenNames x120
  have h121 : KSnd q x120 := by
    unfold x120
    apply drawBits_kept
    exact h_s
  clear_value x120
  extract_lets +onlyGivenNames x122
  have h123 : Kept q x122 := by
    unfold x122
    apply bbx_kept
    exact h121
  clear_value x122
  refine kept_foldl ?_ ?_
  · intro v124 v125 v126
    extract_lets +onlyGivenNames x127
    have h128 : Kept q x127 := by
      unfold x127
      refine kept_ite (P := Kept q) ?_ ?_
      · apply stopDrain_kept
        exact v126
      · exact v126
    clear_value x127
    extract_lets +onlyGivenNames x129
    have h130 : Kept q x129 := by
      unfold x129
      split
      · rename_i z131 z132 z133
        refine kept_ite (P := Kept q) ?_ ?_
        · apply restFail_kept
          exact h128
        · exact h128
      · rename_i z134 z135
        exact h128
    clear_value x129
    refine kept_ite (P := Kept q) ?_ ?_
    · apply xferEnd_kept
      exact h130
    · exact h130
  · exact h123

theorem execModuleRemoved_kept {q : List Instr} (b : Nat) (s : State) (h_s : Kept q s) : KOut q (execModuleRemoved b s) := by
  unfold execModuleRemoved
  apply kept_next
  refine kept_ite (P := Kept q) ?_ ?_
  · exact h_s
  · extract_lets +onlyGivenNames x136
    have h137 : Kept q x136 := by
      unfold x136
      refine kept_ite (P := Kept q) ?_ ?_
      · exact h_s
      · apply bayLost_kept
        exact h_s
    clear_value x136
    extract_lets +onlyGivenNames x138
    have h139 : Kept q x138 := by
      unfold x138
      apply clearSlots_kept
      apply setBay_kept
      exact h137
    clear_value x138
    apply wr_kept
    apply wr_kept
    exact h139

theorem execDrnAreaWrite_kept {q : List Instr} (p : Nat) (base : Bool) (v : Word) (s : State) (h_s : Kept q s) : KOut q (execDrnAreaWrite p base v s) := by
  unfold execDrnAreaWrite
  apply kept_next
  refine kept_ite (P := Kept q) ?_ ?_
  · exact h_s
  · extract_lets +onlyGivenNames x4939
    have h4940 : Kept q x4939 := by
      unfold x4939
      refine kept_ite (P := Kept q) ?_ ?_
      · apply regPut_kept
        exact h_s
      · apply regPut_kept
        exact h_s
    clear_value x4939
    extract_lets +onlyGivenNames x4941
    clear_value x4941
    split
    · rename_i z4943 z4944 z4945
      apply conflict_kept
      exact h_s
    · rename_i z4946 z4947
      exact h4940

theorem xferStart_kept {q : List Instr} (s : State) (p : Nat) (v : Word) (fill : Bool) (h_s : Kept q s) : Kept q (xferStart s p v fill) := by
  unfold xferStart
  refine kept_ite (P := Kept q) ?_ ?_
  · exact h_s
  · refine kept_ite (P := Kept q) ?_ ?_
    · apply conflict_kept
      exact h_s
    · extract_lets +onlyGivenNames x4948
      clear_value x4948
      split
      · rename_i z4950 z4951 z4952
        apply xferEnd_kept
        exact h_s
      · rename_i z4953 z4954
        extract_lets +onlyGivenNames x4955
        have h4956 : Kept q x4955 := by
          unfold x4955
          apply wrf_kept
          exact h_s
        clear_value x4955
        refine kept_mk (s := x4955) ?_
        exact h4956

theorem execDrnXferLoad_kept {q : List Instr} (p : Nat) (v : Word) (s : State) (h_s : Kept q s) : KOut q (execDrnXferLoad p v s) := by
  unfold execDrnXferLoad
  apply kept_next
  apply xferStart_kept
  exact h_s

theorem execDrnXferFill_kept {q : List Instr} (p : Nat) (v : Word) (s : State) (h_s : Kept q s) : KOut q (execDrnXferFill p v s) := by
  unfold execDrnXferFill
  apply kept_next
  apply xferStart_kept
  exact h_s

theorem execDrnXferDone_kept {q : List Instr} (p : ℕ) (s : State) (h_s : Kept q s) : KOut q (execDrnXferDone p s) := by
  unfold execDrnXferDone
  apply kept_next
  split
  · rename_i z2930 z2931
    exact h_s
  · rename_i z2932 z2933 z2934
    refine kept_ite (P := Kept q) ?_ ?_
    · exact h_s
    · split
      · rename_i z2935 z2936 z2937
        apply xferEnd_kept
        exact h_s
      · rename_i z2938 z2939
        refine kept_ite (P := Kept q) ?_ ?_
        · extract_lets +onlyGivenNames x2940
          have h2941 : KFst q x2940 := by
            unfold x2940
            apply physRead_kept
            exact h_s
          clear_value x2940
          refine kept_ite (P := Kept q) ?_ ?_
          · apply xferEnd_kept
            exact h2941
          · apply xferEnd_kept
            apply writeBlocks_kept
            exact h2941
        · extract_lets +onlyGivenNames x2942
          have h2943 : KFst q x2942 := by
            unfold x2942
            apply readBlocks_kept
            exact h_s
          clear_value x2942
          apply xferEnd_kept
          apply physWrite_kept
          exact h2943

theorem execCeSummaryPeriod_kept {q : List Instr} (s : State) (h_s : Kept q s) : KOut q (execCeSummaryPeriod s) := by
  unfold execCeSummaryPeriod
  apply kept_next
  refine kept_ite (P := Kept q) ?_ ?_
  · exact h_s
  · extract_lets +onlyGivenNames x4971
    clear_value x4971
    extract_lets +onlyGivenNames x4973
    clear_value x4973
    extract_lets +onlyGivenNames x4975
    have h4976 : Kept q x4975 := by
      unfold x4975
      refine kept_mk (s := s) ?_
      exact h_s
    clear_value x4975
    refine kept_ite (P := Kept q) ?_ ?_
    · exact h4976
    · apply bbx_kept
      exact h4976

theorem watchWarn_kept {q : List Instr} (s : State) (c : Nat) (h_s : Kept q s) : Kept q (watchWarn s c) := by
  unfold watchWarn
  extract_lets +onlyGivenNames x4977
  have h4978 : Kept q x4977 := by
    unfold x4977
    apply addSat_kept
    apply wrf_kept
    exact h_s
  clear_value x4977
  refine kept_foldl ?_ ?_
  · intro v4979 v4980 v4981
    extract_lets +onlyGivenNames x4982
    have h4983 : Kept q x4982 := by
      unfold x4982
      refine kept_ite (P := Kept q) ?_ ?_
      · apply logRec_kept
        exact v4981
      · exact v4981
    clear_value x4982
    refine kept_ite (P := Kept q) ?_ ?_
    · apply setCause_kept
      exact h4983
    · exact h4983
  · exact h4978

theorem execErrorWatchWindow_kept {q : List Instr} (s : State) (h_s : Kept q s) : KOut q (execErrorWatchWindow s) := by
  unfold execErrorWatchWindow
  apply kept_next
  refine kept_ite (P := Kept q) ?_ ?_
  · exact h_s
  · extract_lets +onlyGivenNames x4984
    clear_value x4984
    extract_lets +onlyGivenNames x4986
    clear_value x4986
    refine kept_foldl ?_ ?_
    · intro v4988 v4989 v4990
      apply watchWarn_kept
      exact v4990
    · refine kept_mk (s := s) ?_
      exact h_s

theorem execBbxCtlFreeze_kept {q : List Instr} (s : State) (h_s : Kept q s) : KOut q (execBbxCtlFreeze s) := by
  unfold execBbxCtlFreeze
  apply kept_next
  apply freezeRing_kept
  exact h_s

theorem execBbxCtlUnfreeze_kept {q : List Instr} (s : State) (h_s : Kept q s) : KOut q (execBbxCtlUnfreeze s) := by
  unfold execBbxCtlUnfreeze
  apply kept_next
  apply wrf_kept
  exact h_s

theorem mramRead_kept {q : List Instr} (s : State) (addr : Nat) (h_s : Kept q s) : KFst q (mramRead s addr) := by
  unfold mramRead
  extract_lets +onlyGivenNames x4991
  clear_value x4991
  apply kept_pair
  apply wrf_kept
  exact h_s

theorem execBbxDataHRead_kept {q : List Instr} (s : State) (h_s : Kept q s) : KOut q (execBbxDataHRead s) := by
  unfold execBbxDataHRead
  apply kept_next
  extract_lets +onlyGivenNames x4993
  have h4994 : KFst q x4993 := by
    unfold x4993
    apply mramRead_kept
    exact h_s
  clear_value x4993
  exact h4994

theorem execBbxDataIRead_kept {q : List Instr} (s : State) (h_s : Kept q s) : KOut q (execBbxDataIRead s) := by
  unfold execBbxDataIRead
  apply kept_next
  extract_lets +onlyGivenNames x4995
  have h4996 : KFst q x4995 := by
    unfold x4995
    apply mramRead_kept
    exact h_s
  clear_value x4995
  exact h4996

theorem execI3cPrivateWrite_kept {q : List Instr} (bytes : List Byte) (s : State) (h_s : Kept q s) : KOut q (execI3cPrivateWrite bytes s) := by
  unfold execI3cPrivateWrite
  apply kept_next
  refine kept_ite (P := Kept q) ?_ ?_
  · exact h_s
  · refine kept_mk (s := s) ?_
    exact h_s

theorem execI3cPrivateRead_kept {q : List Instr} (s : State) (h_s : Kept q s) : KOut q (execI3cPrivateRead s) := by
  unfold execI3cPrivateRead
  apply kept_next
  refine kept_ite (P := Kept q) ?_ ?_
  · exact h_s
  · extract_lets +onlyGivenNames x4997
    clear_value x4997
    refine kept_ite (P := Kept q) ?_ ?_
    · extract_lets +onlyGivenNames x4999
      have h5000 : KFst q x4999 := by
        unfold x4999
        apply mramRead_kept
        exact h_s
      clear_value x4999
      exact h5000
    · extract_lets +onlyGivenNames x5001
      have h5002 : KFst q x5001 := by
        unfold x5001
        refine kept_ite (P := KFst q) ?_ ?_
        · apply mramRead_kept
          exact h_s
        · exact h_s
      clear_value x5001
      exact h5002

theorem evtRefuse_kept {q : List Instr} (s : State) (n func : Nat) (h_s : Kept q s) : Kept q (evtRefuse s n func) := by
  unfold evtRefuse
  extract_lets +onlyGivenNames x5003
  have h5004 : Kept q x5003 := by
    unfold x5003
    apply wr_kept
    exact h_s
  clear_value x5003
  apply conflictFrom_kept
  exact h5004

theorem evtWrite_kept {q : List Instr} (s : State) (n func : Nat) (v : Word) (i3c : Bool) (h_s : Kept q s) : Kept q (evtWrite s n func v i3c) := by
  unfold evtWrite
  extract_lets +onlyGivenNames x5005
  clear_value x5005
  extract_lets +onlyGivenNames x5007
  clear_value x5007
  extract_lets +onlyGivenNames x5009
  clear_value x5009
  refine kept_ite (P := Kept q) ?_ ?_
  · exact h_s
  · refine kept_ite (P := Kept q) ?_ ?_
    · apply wr_kept
      exact h_s
    · apply evtRefuse_kept
      exact h_s

theorem execEvtClaimTriggerIn_kept {q : List Instr} (n : Nat) (v : Word) (i3c : Bool) (s : State) (h_s : Kept q s) : KOut q (execEvtClaimTriggerIn n v i3c s) := by
  unfold execEvtClaimTriggerIn
  apply kept_next
  apply evtWrite_kept
  exact h_s

theorem execEvtClaimFreezeOut_kept {q : List Instr} (n : Nat) (v : Word) (i3c : Bool) (s : State) (h_s : Kept q s) : KOut q (execEvtClaimFreezeOut n v i3c s) := by
  unfold execEvtClaimFreezeOut
  apply kept_next
  apply evtWrite_kept
  exact h_s

theorem execEvtRelease_kept {q : List Instr} (n : Nat) (v : Word) (i3c : Bool) (s : State) (h_s : Kept q s) : KOut q (execEvtRelease n v i3c s) := by
  unfold execEvtRelease
  apply kept_next
  apply evtWrite_kept
  exact h_s

theorem execEvtTriggerEdge_kept {q : List Instr} (n : ℕ) (s : State) (h_s : Kept q s) : KOut q (execEvtTriggerEdge n s) := by
  unfold execEvtTriggerEdge
  apply kept_next
  refine kept_ite (P := Kept q) ?_ ?_
  · apply counterAdd_kept
    exact h_s
  · exact h_s

theorem execEvtFreezeEdge_kept {q : List Instr} (n : Nat) (s : State) (h_s : Kept q s) : KOut q (execEvtFreezeEdge n s) := by
  unfold execEvtFreezeEdge
  apply kept_next
  refine kept_ite (P := Kept q) ?_ ?_
  · apply freezeRing_kept
    exact h_s
  · exact h_s

theorem rebuildOne_kept {q : List Instr} (s : State) (r : List Byte) (h_s : Kept q s) : Kept q (rebuildOne s r) := by
  unfold rebuildOne
  extract_lets +onlyGivenNames x2287
  clear_value x2287
  extract_lets +onlyGivenNames x2289
  clear_value x2289
  extract_lets +onlyGivenNames x2291
  clear_value x2291
  refine kept_ite (P := Kept q) ?_ ?_
  · exact h_s
  · refine kept_ite (P := Kept q) ?_ ?_
    · extract_lets +onlyGivenNames x2293
      clear_value x2293
      extract_lets +onlyGivenNames x2295
      have h2296 : Kept q x2295 := by
        unfold x2295
        apply wr_kept
        exact h_s
      clear_value x2295
      refine kept_mk (s := x2295) ?_
      exact h2296
    · refine kept_ite (P := Kept q) ?_ ?_
      · extract_lets +onlyGivenNames x2297
        clear_value x2297
        extract_lets +onlyGivenNames x2299
        have h2300 : Kept q x2299 := by
          unfold x2299
          refine kept_ite (P := Kept q) ?_ ?_
          · apply wrf_kept
            apply wr_kept
            exact h_s
          · exact h_s
        clear_value x2299
        extract_lets +onlyGivenNames x2301
        have h2302 : Kept q x2301 := by
          unfold x2301
          refine kept_ite (P := Kept q) ?_ ?_
          · apply wrf_kept
            exact h2300
          · exact h2300
        clear_value x2301
        apply addSat_kept
        exact h2302
      · refine kept_ite (P := Kept q) ?_ ?_
        · apply wrf_kept
          exact h_s
        · exact h_s

theorem rebuild_kept {q : List Instr} (s : State) (h_s : Kept q s) : Kept q (rebuild s) := by
  unfold rebuild
  extract_lets +onlyGivenNames x5025
  have h5026 : Kept q x5025 := by
    unfold x5025
    refine kept_foldl ?_ ?_
    · intro v5027 v5028 v5029
      apply rebuildOne_kept
      exact v5029
    · exact h_s
  clear_value x5025
  extract_lets +onlyGivenNames x5030
  have h5031 : Kept q x5030 := by
    unfold x5030
    refine kept_foldl ?_ ?_
    · intro v5032 v5033 v5034
      apply wrf_kept
      exact v5034
    · exact h5026
  clear_value x5030
  refine kept_foldl ?_ ?_
  · intro v5035 v5036 v5037
    apply wrf_kept
    exact v5037
  · exact h5031

theorem reborn_kept {q : List Instr} (s : State) (warm : Bool) (h_s : Kept q s) : Kept q (reborn s warm) := by
  unfold reborn
  extract_lets +onlyGivenNames x2303
  have h2304 : Kept q x2303 := by
    unfold x2303
    apply bare_kept
    exact h_s
  clear_value x2303
  extract_lets +onlyGivenNames x2305
  have h2306 : Kept q x2305 := by
    unfold x2305
    apply wr_kept
    exact h2304
  clear_value x2305
  extract_lets +onlyGivenNames x2307
  have h2308 : Kept q x2307 := by
    unfold x2307
    apply wr_kept
    apply wr_kept
    exact h2306
  clear_value x2307
  extract_lets +onlyGivenNames x2309
  have h2310 : Kept q x2309 := by
    unfold x2309
    apply wrf_kept
    apply wr_kept
    exact h2308
  clear_value x2309
  extract_lets +onlyGivenNames x2311
  have h2312 : Kept q x2311 := by
    unfold x2311
    refine kept_foldl ?_ ?_
    · intro v2313 v2314 v2315
      refine kept_ite (P := Kept q) ?_ ?_
      · apply wrf_kept
        exact v2315
      · exact v2315
    · exact h2310
  clear_value x2311
  extract_lets +onlyGivenNames x2316
  have h2317 : Kept q x2316 := by
    unfold x2316
    apply wrf_kept
    apply wr_kept
    exact h2312
  clear_value x2316
  extract_lets +onlyGivenNames x2318
  have h2319 : Kept q x2318 := by
    unfold x2318
    apply wr_kept
    apply wr_kept
    exact h2317
  clear_value x2318
  extract_lets +onlyGivenNames x2320
  have h2321 : Kept q x2320 := by
    unfold x2320
    apply wrf_kept
    apply wrf_kept
    exact h2319
  clear_value x2320
  apply rebuild_kept
  refine kept_ite (P := Kept q) ?_ ?_
  · apply wrf_kept
    exact h2321
  · exact h2321

theorem execPowerOn_kept {q : List Instr} (s : State) (h_s : Kept q s) : KOut q (execPowerOn s) := by
  unfold execPowerOn
  apply kept_next
  refine kept_ite (P := Kept q) ?_ ?_
  · apply reborn_kept
    exact h_s
  · exact h_s

theorem execPowerLoss_kept {q : List Instr} (cause : ℕ) (s : State) (h_s : Kept q s) : KOut q (execPowerLoss cause s) := by
  unfold execPowerLoss
  apply kept_next
  refine kept_ite (P := Kept q) ?_ ?_
  · exact h_s
  · extract_lets +onlyGivenNames x2322
    clear_value x2322
    extract_lets +onlyGivenNames x2324
    have h2325 : Kept q x2324 := by
      unfold x2324
      apply bbx_kept
      exact h_s
    clear_value x2324
    extract_lets +onlyGivenNames x2326
    have h2327 : Kept q x2326 := by
      unfold x2326
      refine kept_foldl ?_ ?_
      · intro v2328 v2329 v2330
        apply wrf_kept
        apply setPort_kept
        exact v2330
      · exact h2325
    clear_value x2326
    extract_lets +onlyGivenNames x2331
    have h2332 : Kept q x2331 := by
      unfold x2331
      apply wrf_kept
      apply wrf_kept
      apply wrf_kept
      exact h2327
    clear_value x2331
    extract_lets +onlyGivenNames x2333
    have h2334 : Kept q x2333 := by
      unfold x2333
      apply wrf_kept
      apply wrf_kept
      exact h2332
    clear_value x2333
    extract_lets +onlyGivenNames x2335
    have h2336 : KSnd q x2335 := by
      unfold x2335
      apply drawNat_kept
      exact h2334
    clear_value x2335
    extract_lets +onlyGivenNames x2337
    clear_value x2337
    extract_lets +onlyGivenNames x2339
    have h2340 : Kept q x2339 := by
      unfold x2339
      split
      · rename_i z2341 z2342 z2343
        refine kept_ite (P := Kept q) ?_ ?_
        · apply wrf_kept
          exact h2336
        · exact h2334
      · rename_i z2344 z2345
        exact h2334
    clear_value x2339
    refine kept_mk (s := x2339) ?_
    exact h2340

theorem toStage_kept {q : List Instr} (s : State) (k : Nat) (h_s : Kept q s) : Kept q (toStage s k) := by
  unfold toStage
  apply wrf_kept
  exact h_s

theorem execPwrgoodAsserted_kept {q : List Instr} (s : State) (h_s : Kept q s) : KOut q (execPwrgoodAsserted s) := by
  unfold execPwrgoodAsserted
  apply kept_next
  refine kept_ite (P := Kept q) ?_ ?_
  · exact h_s
  · extract_lets +onlyGivenNames x5049
    have h5050 : Kept q x5049 := by
      unfold x5049
      refine kept_mk (s := s) ?_
      exact h_s
    clear_value x5049
    refine kept_ite (P := Kept q) ?_ ?_
    · extract_lets +onlyGivenNames x5051
      have h5052 : Kept q x5051 := by
        unfold x5051
        apply toStage_kept
        exact h5050
      clear_value x5051
      refine kept_mk (s := x5051) ?_
      exact h5052
    · exact h5050

theorem execRootPllLock_kept {q : List Instr} (s : State) (h_s : Kept q s) : KOut q (execRootPllLock s) := by
  unfold execRootPllLock
  apply kept_next
  refine kept_ite (P := Kept q) ?_ ?_
  · exact h_s
  · extract_lets +onlyGivenNames x5053
    have h5054 : Kept q x5053 := by
      unfold x5053
      apply wrf_kept
      apply wrf_kept
      apply wrf_kept
      apply wrf_kept
      exact h_s
    clear_value x5053
    extract_lets +onlyGivenNames x5055
    have h5056 : Kept q x5055 := by
      unfold x5055
      apply toStage_kept
      exact h5054
    clear_value x5055
    refine kept_mk (s := x5055) ?_
    exact h5056

theorem execRootPllLockTimeout_kept {q : List Instr} (s : State) (h_s : Kept q s) : KOut q (execRootPllLockTimeout s) := by
  unfold execRootPllLockTimeout
  apply kept_next
  refine kept_ite (P := Kept q) ?_ ?_
  · apply fatal_kept
    exact h_s
  · exact h_s

theorem execRailsUp_kept {q : List Instr} (s : State) (h_s : Kept q s) : KOut q (execRailsUp s) := by
  unfold execRailsUp
  apply kept_next
  refine kept_ite (P := Kept q) ?_ ?_
  · apply wrf_kept
    apply toStage_kept
    exact h_s
  · exact h_s

theorem imageNone_kept {q : List Instr} (s : State) (a b : Nat) (h_s : Kept q s) : Kept q (imageNone s a b) := by
  unfold imageNone
  extract_lets +onlyGivenNames x5057
  have h5058 : Kept q x5057 := by
    unfold x5057
    apply bbx_kept
    exact h_s
  clear_value x5057
  refine kept_mk (s := x5057) ?_
  exact h5058

theorem execImageVerify_kept {q : List Instr} (a b : ImageSlot) (s : State) (h_s : Kept q s) : KOut q (execImageVerify a b s) := by
  unfold execImageVerify
  apply kept_next
  refine kept_ite (P := Kept q) ?_ ?_
  · exact h_s
  · extract_lets +onlyGivenNames x5059
    clear_value x5059
    extract_lets +onlyGivenNames x5061
    clear_value x5061
    extract_lets +onlyGivenNames x5063
    clear_value x5063
    refine kept_ite (P := Kept q) ?_ ?_
    · apply imageNone_kept
      exact h_s
    · extract_lets +onlyGivenNames x5065
      extract_lets +onlyGivenNames x5067
      clear_value x5067
      extract_lets +onlyGivenNames x5069
      clear_value x5069
      extract_lets +onlyGivenNames x5071
      clear_value x5071
      extract_lets +onlyGivenNames x5073
      have h5074 : Kept q x5073 := by
        unfold x5073
        apply wrf_kept
        apply wrf_kept
        apply wrf_kept
        exact h_s
      clear_value x5073
      extract_lets +onlyGivenNames x5075
      have h5076 : Kept q x5075 := by
        unfold x5075
        apply wrf_kept
        apply wrf_kept
        exact h5074
      clear_value x5075
      extract_lets +onlyGivenNames x5077
      have h5078 : Kept q x5077 := by
        unfold x5077
        apply toStage_kept
        exact h5076
      clear_value x5077
      refine kept_mk (s := x5077) ?_
      exact h5078

theorem execI3cArbitrationLoss_kept {q : List Instr} (s : State) (h_s : Kept q s) : KOut q (execI3cArbitrationLoss s) := by
  unfold execI3cArbitrationLoss
  apply kept_next
  refine kept_ite (P := Kept q) ?_ ?_
  · exact h_s
  · refine kept_ite (P := Kept q) ?_ ?_
    · apply imageNone_kept
      exact h_s
    · refine kept_mk (s := s) ?_
      exact h_s

theorem execI3cRetry_kept {q : List Instr} (s : State) (h_s : Kept q s) : KOut q (execI3cRetry s) := by
  unfold execI3cRetry
  apply kept_next
  split
  · rename_i z5079 z5080
    exact h_s
  · rename_i z5081 z5082 z5083
    refine kept_ite (P := Kept q) ?_ ?_
    · refine kept_mk (s := s) ?_
      exact h_s
    · exact h_s

theorem mapChannels_kept {q : List Instr} (s : State) (h : ℕ) (failed : List (ℕ × ℕ)) (h_s : Kept q s) : Kept q (mapChannels s h failed) := by
  unfold mapChannels
  extract_lets +onlyGivenNames x2346
  have h2347 : Kept q x2346 := by
    unfold x2346
    refine kept_foldl ?_ ?_
    · intro v2348 v2349 v2350
      extract_lets +onlyGivenNames x2351
      have h2352 : Kept q x2351 := by
        unfold x2351
        refine kept_ite (P := Kept q) ?_ ?_
        · apply bbx_kept
          apply wrf_kept
          exact v2350
        · exact v2350
      clear_value x2351
      apply wrf_kept
      exact h2352
    · exact h_s
  clear_value x2346
  extract_lets +onlyGivenNames x2353
  clear_value x2353
  extract_lets +onlyGivenNames x2355
  have h2356 : Kept q x2355 := by
    unfold x2355
    apply wrf_kept
    apply wrf_kept
    exact h2347
  clear_value x2355
  refine kept_foldl ?_ ?_
  · intro v2357 v2358 v2359
    apply wrf_kept
    exact v2359
  · exact h2356

theorem execHbmTraining_kept {q : List Instr} (failed repaired : List (Nat × Nat)) (s : State) (h_s : Kept q s) : KOut q (execHbmTraining failed repaired s) := by
  unfold execHbmTraining
  apply kept_next
  refine kept_ite (P := Kept q) ?_ ?_
  · exact h_s
  · refine kept_ite (P := Kept q) ?_ ?_
    · apply fatal_kept
      exact h_s
    · extract_lets +onlyGivenNames x5102
      have h5103 : Kept q x5102 := by
        unfold x5102
        apply mapChannels_kept
        apply mapChannels_kept
        exact h_s
      clear_value x5102
      extract_lets +onlyGivenNames x5104
      have h5105 : Kept q x5104 := by
        unfold x5104
        refine kept_foldl ?_ ?_
        · intro v5106 v5107 v5108
          refine kept_ite (P := Kept q) ?_ ?_
          · exact v5108
          · apply wrf_kept
            apply wr_kept
            exact v5108
        · exact h5103
      clear_value x5104
      apply toStage_kept
      exact h5105

theorem execSerdesTraining_kept {q : List Instr} (trained failed plk : List Nat) (s : State) (h_s : Kept q s) : KOut q (execSerdesTraining trained failed plk s) := by
  unfold execSerdesTraining
  apply kept_next
  refine kept_ite (P := Kept q) ?_ ?_
  · exact h_s
  · extract_lets +onlyGivenNames x5109
    have h5110 : Kept q x5109 := by
      unfold x5109
      refine kept_foldl ?_ ?_
      · intro v5111 v5112 v5113
        refine kept_ite (P := Kept q) ?_ ?_
        · exact v5113
        · refine kept_ite (P := Kept q) ?_ ?_
          · extract_lets +onlyGivenNames x5114
            have h5115 : Kept q x5114 := by
              unfold x5114
              apply wrf_kept
              apply setPort_kept
              exact v5113
            clear_value x5114
            refine kept_mk (s := x5114) ?_
            exact h5115
          · apply setPort_kept
            exact v5113
      · exact h_s
    clear_value x5109
    extract_lets +onlyGivenNames x5116
    have h5117 : Kept q x5116 := by
      unfold x5116
      refine kept_foldl ?_ ?_
      · intro v5118 v5119 v5120
        apply wrf_kept
        exact v5120
      · exact h5110
    clear_value x5116
    apply toStage_kept
    exact h5117

theorem execHbmZero_kept {q : List Instr} (s : State) (h_s : Kept q s) : KOut q (execHbmZero s) := by
  unfold execHbmZero
  apply kept_next
  refine kept_ite (P := Kept q) ?_ ?_
  · apply toStage_kept
    apply memClear_kept
    exact h_s
  · exact h_s

theorem execMemoryClear_kept {q : List Instr} (s : State) (h_s : Kept q s) : KOut q (execMemoryClear s) := by
  unfold execMemoryClear
  apply kept_next
  refine kept_ite (P := Kept q) ?_ ?_
  · exact h_s
  · extract_lets +onlyGivenNames x5121
    have h5122 : Kept q x5121 := by
      unfold x5121
      apply memClear_kept
      exact h_s
    clear_value x5121
    extract_lets +onlyGivenNames x5123
    have h5124 : KSnd q x5123 := by
      unfold x5123
      apply drawNat_kept
      exact h5122
    clear_value x5123
    extract_lets +onlyGivenNames x5125
    have h5126 : KSnd q x5125 := by
      unfold x5125
      apply drawBits_kept
      exact h5124
    clear_value x5125
    extract_lets +onlyGivenNames x5127
    have h5128 : KSnd q x5127 := by
      unfold x5127
      apply drawBits_kept
      exact h5126
    clear_value x5127
    extract_lets +onlyGivenNames x5129
    have h5130 : Kept q x5129 := by
      unfold x5129
      exact h5128
    clear_value x5129
    extract_lets +onlyGivenNames x5131
    have h5132 : Kept q x5131 := by
      unfold x5131
      refine kept_mk (s := x5129) ?_
      exact h5130
    clear_value x5131
    extract_lets +onlyGivenNames x5133
    have h5134 : Kept q x5133 := by
      unfold x5133
      apply wr_kept
      apply wr_kept
      exact h5132
    clear_value x5133
    extract_lets +onlyGivenNames x5135
    have h5136 : Kept q x5135 := by
      unfold x5135
      apply wr_kept
      exact h5134
    clear_value x5135
    extract_lets +onlyGivenNames x5137
    clear_value x5137
    apply toStage_kept
    apply bbx_kept
    exact h5136

theorem execFrontEndReady_kept {q : List Instr} (s : State) (h_s : Kept q s) : KOut q (execFrontEndReady s) := by
  unfold execFrontEndReady
  apply kept_next
  refine kept_ite (P := Kept q) ?_ ?_
  · exact h_s
  · extract_lets +onlyGivenNames x2360
    clear_value x2360
    extract_lets +onlyGivenNames x2362
    have h2363 : Kept q x2362 := by
      unfold x2362
      apply wrf_kept
      apply wrf_kept
      exact h_s
    clear_value x2362
    extract_lets +onlyGivenNames x2364
    have h2365 : Kept q x2364 := by
      unfold x2364
      refine kept_mk (s := x2362) ?_
      exact h2363
    clear_value x2364
    exact h2365

theorem burnSvn_kept {q : List Instr} (s : State) (n : ℕ) (h_s : Kept q s) : Kept q (burnSvn s n) := by
  unfold burnSvn
  extract_lets +onlyGivenNames x2366
  clear_value x2366
  apply bbx_kept
  extract_lets +onlyGivenNames x2368
  have h2369 : Kept q x2368 := by
    unfold x2368
    apply wrf_kept
    exact h_s
  clear_value x2368
  refine kept_mk (s := x2368) ?_
  exact h2369

theorem execStartUpStageTimeout_kept {q : List Instr} (s : State) (h_s : Kept q s) : KOut q (execStartUpStageTimeout s) := by
  unfold execStartUpStageTimeout
  apply kept_next
  extract_lets +onlyGivenNames x5154
  clear_value x5154
  refine kept_ite (P := Kept q) ?_ ?_
  · exact h_s
  · refine kept_ite (P := Kept q) ?_ ?_
    · apply fatal_kept
      exact h_s
    · exact h_s

theorem graceful_kept {q : List Instr} (s : State) (h_s : Kept q s) : Kept q (graceful s) := by
  unfold graceful
  extract_lets +onlyGivenNames x5156
  have h5157 : Kept q x5156 := by
    unfold x5156
    apply leaveScauth_kept
    exact h_s
  clear_value x5156
  refine kept_foldl ?_ ?_
  · intro v5158 v5159 v5160
    refine kept_ite (P := Kept q) ?_ ?_
    · exact v5160
    · refine kept_mk (s := v5158) ?_
      exact v5160
  · exact h5157

theorem warmReset_kept {q : List Instr} (s : State) (h_s : Kept q s) : Kept q (warmReset s) := by
  unfold warmReset
  apply reborn_kept
  apply graceful_kept
  exact h_s

theorem execResetNPulse_kept {q : List Instr} (s : State) (h_s : Kept q s) : KOut q (execResetNPulse s) := by
  unfold execResetNPulse
  apply kept_next
  refine kept_ite (P := Kept q) ?_ ?_
  · apply warmReset_kept
    exact h_s
  · exact h_s

theorem execPwrCtlReset_kept {q : List Instr} (v : Word) (s : State) (h_s : Kept q s) : KOut q (execPwrCtlReset v s) := by
  unfold execPwrCtlReset
  apply kept_next
  refine kept_ite (P := Kept q) ?_ ?_
  · apply warmReset_kept
    exact h_s
  · exact h_s

theorem execPwrCtlStandby_kept {q : List Instr} (v : Word) (s : State) (h_s : Kept q s) : KOut q (execPwrCtlStandby v s) := by
  unfold execPwrCtlStandby
  apply kept_next
  refine kept_ite (P := Kept q) ?_ ?_
  · extract_lets +onlyGivenNames x155
    have h156 : Kept q x155 := by
      unfold x155
      apply wr_kept
      apply warmReset_kept
      exact h_s
    clear_value x155
    refine kept_mk (s := x155) ?_
    exact h156
  · exact h_s

theorem execRefclkLoss_kept {q : List Instr} (s : State) (h_s : Kept q s) : KOut q (execRefclkLoss s) := by
  unfold execRefclkLoss
  apply kept_next
  refine kept_ite (P := Kept q) ?_ ?_
  · exact h_s
  · extract_lets +onlyGivenNames x5163
    clear_value x5163
    extract_lets +onlyGivenNames x5165
    clear_value x5165
    extract_lets +onlyGivenNames x5167
    have h5168 : Kept q x5167 := by
      unfold x5167
      apply wr_kept
      exact h_s
    clear_value x5167
    extract_lets +onlyGivenNames x5169
    have h5170 : Kept q x5169 := by
      unfold x5169
      refine kept_mk (s := x5167) ?_
      exact h5168
    clear_value x5169
    refine kept_ite (P := Kept q) ?_ ?_
    · apply wrf_kept
      apply fatal_kept
      exact h5170
    · exact h5170

theorem execRefclkReturn_kept {q : List Instr} (s : State) (h_s : Kept q s) : KOut q (execRefclkReturn s) := by
  unfold execRefclkReturn
  apply kept_next
  refine kept_ite (P := Kept q) ?_ ?_
  · exact h_s
  · apply wrf_kept
    refine kept_mk (s := s) ?_
    exact h_s

theorem execRailFault_kept {q : List Instr} (rail : Nat) (s : State) (h_s : Kept q s) : KOut q (execRailFault rail s) := by
  unfold execRailFault
  apply kept_next
  refine kept_ite (P := Kept q) ?_ ?_
  · exact h_s
  · extract_lets +onlyGivenNames x5171
    have h5172 : Kept q x5171 := by
      unfold x5171
      apply wrf_kept
      exact h_s
    clear_value x5171
    extract_lets +onlyGivenNames x5173
    have h5174 : Kept q x5173 := by
      unfold x5173
      apply fatal_kept
      apply wrf_kept
      exact h5172
    clear_value x5173
    apply wrf_kept
    exact h5174

theorem execSequencerTimeout_kept {q : List Instr} (die : Nat) (s : State) (h_s : Kept q s) : KOut q (execSequencerTimeout die s) := by
  unfold execSequencerTimeout
  apply kept_next
  refine kept_ite (P := Kept q) ?_ ?_
  · exact h_s
  · apply fatal_kept
    exact h_s

theorem execSequencerHeartbeatLost_kept {q : List Instr} (_die : Nat) (s : State) (h_s : Kept q s) : KOut q (execSequencerHeartbeatLost _die s) := by
  unfold execSequencerHeartbeatLost
  apply kept_next
  refine kept_ite (P := Kept q) ?_ ?_
  · refine kept_mk (s := s) ?_
    exact h_s
  · exact h_s

theorem setDuty_kept {q : List Instr} (s : State) (d : Nat) (h_s : Kept q s) : Kept q (setDuty s d) := by
  unfold setDuty
  apply wrf_kept
  exact h_s

theorem execPowerSample_kept {q : List Instr} (w mv ca : Nat) (s : State) (h_s : Kept q s) : KOut q (execPowerSample w mv ca s) := by
  unfold execPowerSample
  apply kept_next
  refine kept_ite (P := Kept q) ?_ ?_
  · exact h_s
  · extract_lets +onlyGivenNames x5175
    have h5176 : Kept q x5175 := by
      unfold x5175
      refine kept_mk (s := s) ?_
      exact h_s
    clear_value x5175
    extract_lets +onlyGivenNames x5177
    have h5178 : Kept q x5177 := by
      unfold x5177
      apply wr_kept
      exact h5176
    clear_value x5177
    refine kept_ite (P := Kept q) ?_ ?_
    · exact h5178
    · extract_lets +onlyGivenNames x5179
      clear_value x5179
      extract_lets +onlyGivenNames x5181
      clear_value x5181
      extract_lets +onlyGivenNames x5183
      clear_value x5183
      extract_lets +onlyGivenNames x5185
      clear_value x5185
      extract_lets +onlyGivenNames x5187
      have h5188 : Kept q x5187 := by
        unfold x5187
        apply setDuty_kept
        exact h5178
      clear_value x5187
      extract_lets +onlyGivenNames x5189
      have h5190 : Kept q x5189 := by
        unfold x5189
        refine kept_ite (P := Kept q) ?_ ?_
        · apply wrf_kept
          apply setDuty_kept
          exact h5178
        · refine kept_ite (P := Kept q) ?_ ?_
          · refine kept_mk (s := x5187) ?_
            exact h5188
          · exact h5178
      clear_value x5189
      refine kept_ite (P := Kept q) ?_ ?_
      · apply addSat_kept
        exact h5190
      · apply wrf_kept
        exact h5190

theorem execThermalSample_kept {q : List Instr} (temps : List ℕ) (s : State) (h_s : Kept q s) : KOut q (execThermalSample temps s) := by
  unfold execThermalSample
  apply kept_next
  refine kept_ite (P := Kept q) ?_ ?_
  · exact h_s
  · extract_lets +onlyGivenNames x2370
    clear_value x2370
    extract_lets +onlyGivenNames x2372
    clear_value x2372
    extract_lets +onlyGivenNames x2374
    have h2375 : Kept q x2374 := by
      unfold x2374
      apply wr_kept
      exact h_s
    clear_value x2374
    refine kept_ite (P := Kept q) ?_ ?_
    · exact h2375
    · extract_lets +onlyGivenNames x2376
      clear_value x2376
      extract_lets +onlyGivenNames x2378
      clear_value x2378
      refine kept_ite (P := Kept q) ?_ ?_
      · apply wrf_kept
        apply setDuty_kept
        exact h2375
      · exact h2375

theorem execThermalTrip_kept {q : List Instr} (die temp : Nat) (s : State) (h_s : Kept q s) : KOut q (execThermalTrip die temp s) := by
  unfold execThermalTrip
  apply kept_next
  refine kept_ite (P := Kept q) ?_ ?_
  · exact h_s
  · extract_lets +onlyGivenNames x5205
    have h5206 : Kept q x5205 := by
      unfold x5205
      apply wr_kept
      exact h_s
    clear_value x5205
    apply fatal_kept
    apply bbx_kept
    exact h5206

theorem regimeRefuse_kept {q : List Instr} (s : State) (st sub : Nat) (h_s : Kept q s) : Kept q (regimeRefuse s st sub) := by
  unfold regimeRefuse
  extract_lets +onlyGivenNames x5207
  have h5208 : Kept q x5207 := by
    unfold x5207
    apply wr_kept
    exact h_s
  clear_value x5207
  refine kept_ite (P := Kept q) ?_ ?_
  · apply conflict_kept
    exact h5208
  · exact h5208

theorem regimeRecord_kept {q : List Instr} (s : State) (h_s : Kept q s) : Kept q (regimeRecord s) := by
  unfold regimeRecord
  apply bbx_kept
  exact h_s

theorem regimeWrite_kept {q : List Instr} (s : State) (v : Word) (h_s : Kept q s) : Kept q (regimeWrite s v) := by
  unfold regimeWrite
  extract_lets +onlyGivenNames x5209
  clear_value x5209
  refine kept_ite (P := Kept q) ?_ ?_
  · exact h_s
  · refine kept_ite (P := Kept q) ?_ ?_
    · apply regimeRefuse_kept
      exact h_s
    · refine kept_ite (P := Kept q) ?_ ?_
      · apply regimeRefuse_kept
        exact h_s
      · refine kept_ite (P := Kept q) ?_ ?_
        · apply regimeRefuse_kept
          exact h_s
        · extract_lets +onlyGivenNames x5211
          have h5212 : Kept q x5211 := by
            unfold x5211
            refine kept_mk (s := s) ?_
            exact h_s
          clear_value x5211
          extract_lets +onlyGivenNames x5213
          have h5214 : Kept q x5213 := by
            unfold x5213
            apply wrf_kept
            exact h5212
          clear_value x5213
          extract_lets +onlyGivenNames x5215
          clear_value x5215
          extract_lets +onlyGivenNames x5217
          clear_value x5217
          refine kept_ite (P := Kept q) ?_ ?_
          · extract_lets +onlyGivenNames x5219
            have h5220 : Kept q x5219 := by
              unfold x5219
              apply wrf_kept
              apply wrf_kept
              exact h5214
            clear_value x5219
            extract_lets +onlyGivenNames x5221
            have h5222 : Kept q x5221 := by
              unfold x5221
              refine kept_ite (P := Kept q) ?_ ?_
              · apply wrf_kept
                exact h5220
              · exact h5220
            clear_value x5221
            refine kept_mk (s := x5221) ?_
            exact h5222
          · extract_lets +onlyGivenNames x5223
            have h5224 : Kept q x5223 := by
              unfold x5223
              apply wrf_kept
              apply wrf_kept
              exact h5214
            clear_value x5223
            refine kept_ite (P := Kept q) ?_ ?_
            · exact h5224
            · apply regimeRecord_kept
              exact h5224

theorem execPwrRegimePowerChange_kept {q : List Instr} (v : Word) (s : State) (h_s : Kept q s) : KOut q (execPwrRegimePowerChange v s) := by
  unfold execPwrRegimePowerChange
  apply kept_next
  apply regimeWrite_kept
  exact h_s

theorem execPwrRegimePrecisionChange_kept {q : List Instr} (v : Word) (s : State) (h_s : Kept q s) : KOut q (execPwrRegimePrecisionChange v s) := by
  unfold execPwrRegimePrecisionChange
  apply kept_next
  apply regimeWrite_kept
  exact h_s

theorem execPwrRegimeLatencyChange_kept {q : List Instr} (v : Word) (s : State) (h_s : Kept q s) : KOut q (execPwrRegimeLatencyChange v s) := by
  unfold execPwrRegimeLatencyChange
  apply kept_next
  apply regimeWrite_kept
  exact h_s

theorem execFrugalChangeProceeds_kept {q : List Instr} (s : State) (h_s : Kept q s) : KOut q (execFrugalChangeProceeds s) := by
  unfold execFrugalChangeProceeds
  apply kept_next
  split
  · rename_i z5225 z5226
    exact h_s
  · rename_i z5227 z5228 z5229
    refine kept_ite (P := Kept q) ?_ ?_
    · exact h_s
    · extract_lets +onlyGivenNames x5230
      have h5231 : Kept q x5230 := by
        unfold x5230
        apply wrf_kept
        exact h_s
      clear_value x5230
      refine kept_mk (s := x5230) ?_
      exact h5231

theorem execSlewEnd_kept {q : List Instr} (s : State) (h_s : Kept q s) : KOut q (execSlewEnd s) := by
  unfold execSlewEnd
  apply kept_next
  split
  · rename_i z2944 z2945
    exact h_s
  · rename_i z2946 z2947 z2948
    refine kept_ite (P := Kept q) ?_ ?_
    · exact h_s
    · extract_lets +onlyGivenNames x2949
      have h2950 : Kept q x2949 := by
        unfold x2949
        refine kept_mk (s := s) ?_
        exact h_s
      clear_value x2949
      extract_lets +onlyGivenNames x2951
      have h2952 : Kept q x2951 := by
        unfold x2951
        apply wrf_kept
        apply wrf_kept
        exact h2950
      clear_value x2951
      extract_lets +onlyGivenNames x2953
      have h2954 : Kept q x2953 := by
        unfold x2953
        apply wrf_kept
        apply wrf_kept
        apply wrf_kept
        exact h2952
      clear_value x2953
      apply ckpPump_kept
      apply regimeRecord_kept
      apply wrf_kept
      exact h2954

theorem execTestAccessInstruction_kept {q : List Instr} (i : TapIns) (s : State) (h_s : Kept q s) : KOut q (execTestAccessInstruction i s) := by
  unfold execTestAccessInstruction
  apply kept_next
  refine kept_ite (P := Kept q) ?_ ?_
  · exact h_s
  · extract_lets +onlyGivenNames x2391
    have h2392 : Kept q x2391 := by
      unfold x2391
      refine kept_mk (s := s) ?_
      exact h_s
    clear_value x2391
    extract_lets +onlyGivenNames x2393
    have h2394 : Kept q x2393 := by
      unfold x2393
      refine kept_ite (P := Kept q) ?_ ?_
      · refine kept_mk (s := x2391) ?_
        exact h2392
      · exact h2392
    clear_value x2393
    refine kept_ite (P := Kept q) ?_ ?_
    · apply bbx_kept
      refine kept_mk (s := x2393) ?_
      exact h2394
    · exact h2394

end Sys2Proof.Machine
end

