-- ==== Sys2Proof/Laws/KeptIo.lean ====
section
/-! SUPPORT. Every operation and meaning of register space as loads and stores see it, regulators, scalar instructions, packets at their target and time keeps the queue of commands and the canonical form of the stores. One lemma each: what its arguments keep, its answer keeps. -/

namespace Sys2Proof.Machine

theorem regLoad_kept {q : List Instr} (s : State) (a : ℕ) (h_s : Kept q s) : KFst q (regLoad s a) := by
  unfold regLoad
  refine kept_ite (P := KFst q) ?_ ?_
  · exact h_s
  · refine kept_ite (P := KFst q) ?_ ?_
    · apply mramRead_kept
      exact h_s
    · refine kept_ite (P := KFst q) ?_ ?_
      · apply mramRead_kept
        exact h_s
      · refine kept_ite (P := KFst q) ?_ ?_
        · extract_lets +onlyGivenNames x2395
          clear_value x2395
          apply kept_pair
          apply wr_kept
          exact h_s
        · exact h_s

theorem after_kept {q : List Instr} (o : Out) (s : State) (h_o : KOut q o) (h_s : Kept q s) : Kept q (after o s) := by
  unfold after
  split
  · rename_i z5249 z5250
    exact h_o _ rfl
  · rename_i z5251 z5252
    exact h_s

theorem storeSec_kept {q : List Instr} (s : State) (a : Nat) (v : Word) (h_s : Kept q s) : Kept q (storeSec s a v) := by
  unfold storeSec
  refine kept_ite (P := Kept q) ?_ ?_
  · extract_lets +onlyGivenNames x5253
    have h5254 : Kept q x5253 := by
      unfold x5253
      refine kept_ite (P := Kept q) ?_ ?_
      · apply after_kept
        · apply execSecCmdReport_kept
          exact h_s
        · exact h_s
      · exact h_s
    clear_value x5253
    extract_lets +onlyGivenNames x5255
    have h5256 : Kept q x5255 := by
      unfold x5255
      refine kept_ite (P := Kept q) ?_ ?_
      · apply after_kept
        · apply execSecCmdAdmit_kept
          exact h5254
        · exact h5254
      · exact h5254
    clear_value x5255
    refine kept_ite (P := Kept q) ?_ ?_
    · apply after_kept
      · apply execSecCmdEndsession_kept
        exact h5256
      · exact h5256
    · exact h5256
  · refine kept_ite (P := Kept q) ?_ ?_
    · apply after_kept
      · apply execSecReleaseGo_kept
        exact h_s
      · exact h_s
    · refine kept_ite (P := Kept q) ?_ ?_
      · extract_lets +onlyGivenNames x5257
        clear_value x5257
        extract_lets +onlyGivenNames x5259
        clear_value x5259
        refine kept_ite (P := Kept q) ?_ ?_
        · refine kept_ite (P := Kept q) ?_ ?_
          · apply after_kept
            · apply execSecKslotLoad_kept
              exact h_s
            · exact h_s
          · apply regPut_kept
            exact h_s
        · refine kept_ite (P := Kept q) ?_ ?_
          · apply wr_kept
            exact h_s
          · exact h_s
      · apply regPut_kept
        exact h_s

theorem storeBbx_kept {q : List Instr} (s : State) (a : Nat) (v : Word) (h_s : Kept q s) : Kept q (storeBbx s a v) := by
  unfold storeBbx
  refine kept_ite (P := Kept q) ?_ ?_
  · extract_lets +onlyGivenNames x5261
    have h5262 : Kept q x5261 := by
      unfold x5261
      refine kept_ite (P := Kept q) ?_ ?_
      · apply after_kept
        · apply execBbxCtlFreeze_kept
          exact h_s
        · exact h_s
      · exact h_s
    clear_value x5261
    refine kept_ite (P := Kept q) ?_ ?_
    · apply after_kept
      · apply execBbxCtlUnfreeze_kept
        exact h5262
      · exact h5262
    · exact h5262
  · refine kept_ite (P := Kept q) ?_ ?_
    · refine kept_ite (P := Kept q) ?_ ?_
      · exact h_s
      · apply evtWrite_kept
        exact h_s
    · apply regPut_kept
      exact h_s

theorem storeTctl_kept {q : List Instr} (s : State) (v : Word) (h_s : Kept q s) : Kept q (storeTctl s v) := by
  unfold storeTctl
  extract_lets +onlyGivenNames x2955
  clear_value x2955
  extract_lets +onlyGivenNames x2957
  have h2958 : (∀ y2959, Kept q (x2957 y2959)) := by
    unfold x2957
    intro v2960
    refine kept_ite (P := Kept q) ?_ ?_
    · apply after_kept
      · apply execDspTctlResume_kept
        exact h_s
      · exact h_s
    · refine kept_ite (P := Kept q) ?_ ?_
      · apply after_kept
        · apply execDspTctlAbandon_kept
          exact h_s
        · exact h_s
      · exact h_s
  clear_value x2957
  refine kept_ite (P := Kept q) ?_ ?_
  · refine kept_dite (P := Kept q) ?_ ?_
    · intro v2961
      apply h2958
    · intro v2962
      exact h_s
  · refine kept_dite (P := Kept q) ?_ ?_
    · intro v2963
      apply h2958
    · intro v2964
      exact h_s

theorem storeDsp_kept {q : List Instr} (s : State) (a : ℕ) (v : Word) (h_s : Kept q s) : Kept q (storeDsp s a v) := by
  unfold storeDsp
  extract_lets +onlyGivenNames x2965
  clear_value x2965
  refine kept_ite (P := Kept q) ?_ ?_
  · apply after_kept
    · apply execDspCfgEnable_kept
      exact h_s
    · exact h_s
  · refine kept_ite (P := Kept q) ?_ ?_
    · apply storeTctl_kept
      exact h_s
    · refine kept_ite (P := Kept q) ?_ ?_
      · apply after_kept
        · apply execDspTlbinvGo_kept
          exact h_s
        · exact h_s
      · refine kept_ite (P := Kept q) ?_ ?_
        · apply after_kept
          · apply execDspCtxdefValid_kept
            exact h_s
          · exact h_s
        · refine kept_ite (P := Kept q) ?_ ?_
          · apply after_kept
            · apply execDspRingEnable_kept
              exact h_s
            · exact h_s
          · refine kept_ite (P := Kept q) ?_ ?_
            · apply after_kept
              · apply execDspCsetWrite_kept
                exact h_s
              · exact h_s
            · apply regPut_kept
              exact h_s

theorem storeCkpCmd_kept {q : List Instr} (s : State) (p : ℕ) (v : Word) (h_s : Kept q s) : Kept q (storeCkpCmd s p v) := by
  unfold storeCkpCmd
  extract_lets +onlyGivenNames x2967
  have h2968 : Kept q x2967 := by
    unfold x2967
    refine kept_ite (P := Kept q) ?_ ?_
    · apply after_kept
      · apply execCkpCmdStop_kept
        exact h_s
      · exact h_s
    · exact h_s
  clear_value x2967
  extract_lets +onlyGivenNames x2969
  have h2970 : Kept q x2969 := by
    unfold x2969
    refine kept_ite (P := Kept q) ?_ ?_
    · apply after_kept
      · apply execCkpCmdCut_kept
        exact h2968
      · exact h2968
    · exact h2968
  clear_value x2969
  extract_lets +onlyGivenNames x2971
  clear_value x2971
  extract_lets +onlyGivenNames x2973
  have h2974 : Kept q x2973 := by
    unfold x2973
    refine kept_ite (P := Kept q) ?_ ?_
    · refine kept_ite (P := Kept q) ?_ ?_
      · apply after_kept
        · apply execCkpCmdReshard_kept
          exact h2970
        · exact h2970
      · refine kept_ite (P := Kept q) ?_ ?_
        · apply after_kept
          · apply execCkpCmdRestoreCofferdam_kept
            exact h2970
          · exact h2970
        · refine kept_ite (P := Kept q) ?_ ?_
          · apply after_kept
            · apply execCkpCmdRestoreModules_kept
              exact h2970
            · exact h2970
          · refine kept_ite (P := Kept q) ?_ ?_
            · apply after_kept
              · apply execCkpCmdRestoreMirror_kept
                exact h2970
              · exact h2970
            · exact h2970
    · exact h2970
  clear_value x2973
  refine kept_ite (P := Kept q) ?_ ?_
  · apply after_kept
    · apply execCkpCmdRvote_kept
      exact h2974
    · exact h2974
  · exact h2974

theorem storeCkp_kept {q : List Instr} (s : State) (a : ℕ) (v : Word) (h_s : Kept q s) : Kept q (storeCkp s a v) := by
  unfold storeCkp
  extract_lets +onlyGivenNames x2975
  clear_value x2975
  refine kept_ite (P := Kept q) ?_ ?_
  · extract_lets +onlyGivenNames x2977
    clear_value x2977
    extract_lets +onlyGivenNames x2979
    clear_value x2979
    refine kept_ite (P := Kept q) ?_ ?_
    · apply after_kept
      · apply execCkpCfgValid_kept
        exact h_s
      · exact h_s
    · refine kept_ite (P := Kept q) ?_ ?_
      · apply storeCkpCmd_kept
        exact h_s
      · refine kept_ite (P := Kept q) ?_ ?_
        · exact h_s
        · apply regPut_kept
          exact h_s
  · refine kept_ite (P := Kept q) ?_ ?_
    · refine kept_ite (P := Kept q) ?_ ?_
      · exact h_s
      · apply regPut_kept
        exact h_s
    · apply regPut_kept
      exact h_s

theorem storeDrn_kept {q : List Instr} (s : State) (a : Nat) (v : Word) (h_s : Kept q s) : Kept q (storeDrn s a v) := by
  unfold storeDrn
  extract_lets +onlyGivenNames x5289
  clear_value x5289
  refine kept_ite (P := Kept q) ?_ ?_
  · refine kept_ite (P := Kept q) ?_ ?_
    · apply after_kept
      · apply execDrnBayEject_kept
        exact h_s
      · exact h_s
    · exact h_s
  · refine kept_ite (P := Kept q) ?_ ?_
    · extract_lets +onlyGivenNames x5291
      clear_value x5291
      extract_lets +onlyGivenNames x5293
      clear_value x5293
      refine kept_ite (P := Kept q) ?_ ?_
      · apply after_kept
        · apply execDrnAreaWrite_kept
          exact h_s
        · exact h_s
      · refine kept_ite (P := Kept q) ?_ ?_
        · apply after_kept
          · apply execDrnAreaWrite_kept
            exact h_s
          · exact h_s
        · refine kept_ite (P := Kept q) ?_ ?_
          · refine kept_ite (P := Kept q) ?_ ?_
            · apply after_kept
              · apply execDrnXferFill_kept
                exact h_s
              · exact h_s
            · apply after_kept
              · apply execDrnXferLoad_kept
                exact h_s
              · exact h_s
          · apply regPut_kept
            exact h_s
    · apply regPut_kept
      exact h_s

theorem storeScf_kept {q : List Instr} (s : State) (a : Nat) (v : Word) (h_s : Kept q s) : Kept q (storeScf s a v) := by
  unfold storeScf
  extract_lets +onlyGivenNames x5295
  clear_value x5295
  refine kept_ite (P := Kept q) ?_ ?_
  · apply after_kept
    · apply execScfCoordWrite_kept
      exact h_s
    · exact h_s
  · refine kept_ite (P := Kept q) ?_ ?_
    · apply after_kept
      · apply execScfSlotSplitWrite_kept
        exact h_s
      · exact h_s
    · refine kept_ite (P := Kept q) ?_ ?_
      · apply after_kept
        · apply execScfDomainWrite_kept
          exact h_s
        · exact h_s
      · refine kept_ite (P := Kept q) ?_ ?_
        · apply after_kept
          · apply execScfPortCtlWrite_kept
            exact h_s
          · exact h_s
        · apply regPut_kept
          exact h_s

theorem storeCol_kept {q : List Instr} (s : State) (a : ℕ) (v : Word) (h_s : Kept q s) : Kept q (storeCol s a v) := by
  unfold storeCol
  extract_lets +onlyGivenNames x2981
  clear_value x2981
  refine kept_ite (P := Kept q) ?_ ?_
  · extract_lets +onlyGivenNames x2983
    clear_value x2983
    refine kept_ite (P := Kept q) ?_ ?_
    · apply after_kept
      · apply execColGroupValid_kept
        exact h_s
      · exact h_s
    · refine kept_ite (P := Kept q) ?_ ?_
      · exact h_s
      · apply regPut_kept
        exact h_s
  · refine kept_ite (P := Kept q) ?_ ?_
    · apply fireCounter_kept
      apply regPut_kept
      exact h_s
    · refine kept_ite (P := Kept q) ?_ ?_
      · exact h_s
      · refine kept_ite (P := Kept q) ?_ ?_
        · extract_lets +onlyGivenNames x2985
          clear_value x2985
          refine kept_ite (P := Kept q) ?_ ?_
          · apply after_kept
            · apply execColTrigValid_kept
              exact h_s
            · exact h_s
          · refine kept_ite (P := Kept q) ?_ ?_
            · exact h_s
            · apply regPut_kept
              exact h_s
        · apply regPut_kept
          exact h_s

theorem storeMem_kept {q : List Instr} (s : State) (a : Nat) (v : Word) (h_s : Kept q s) : Kept q (storeMem s a v) := by
  unfold storeMem
  extract_lets +onlyGivenNames x5303
  clear_value x5303
  extract_lets +onlyGivenNames x5305
  clear_value x5305
  refine kept_ite (P := Kept q) ?_ ?_
  · apply after_kept
    · apply execMemPartCfgValid_kept
      exact h_s
    · exact h_s
  · refine kept_ite (P := Kept q) ?_ ?_
    · apply after_kept
      · apply execLlmPartCfgApply_kept
        exact h_s
      · exact h_s
    · refine kept_ite (P := Kept q) ?_ ?_
      · apply after_kept
        · apply execRglPartWrite_kept
          exact h_s
        · exact h_s
      · refine kept_ite (P := Kept q) ?_ ?_
        · extract_lets +onlyGivenNames x5307
          clear_value x5307
          extract_lets +onlyGivenNames x5309
          clear_value x5309
          refine kept_ite (P := Kept q) ?_ ?_
          · apply measWrite0_kept
            exact h_s
          · refine kept_ite (P := Kept q) ?_ ?_
            · refine kept_ite (P := Kept q) ?_ ?_
              · apply after_kept
                · apply execSecMeasGo_kept
                  exact h_s
                · exact h_s
              · refine kept_ite (P := Kept q) ?_ ?_
                · exact h_s
                · apply regPut_kept
                  exact h_s
            · exact h_s
        · apply regPut_kept
          exact h_s

theorem regStore_kept {q : List Instr} (s : State) (a : ℕ) (v : Word) (h_s : Kept q s) : Kept q (regStore s a v) := by
  unfold regStore
  extract_lets +onlyGivenNames x2987
  clear_value x2987
  extract_lets +onlyGivenNames x2989
  clear_value x2989
  refine kept_ite (P := Kept q) ?_ ?_
  · refine kept_ite (P := Kept q) ?_ ?_
    · apply regPut_kept
      exact h_s
    · refine kept_ite (P := Kept q) ?_ ?_
      · refine kept_ite (P := Kept q) ?_ ?_
        · apply regimeWrite_kept
          exact h_s
        · refine kept_ite (P := Kept q) ?_ ?_
          · refine kept_ite (P := Kept q) ?_ ?_
            · apply after_kept
              · apply execPwrCtlReset_kept
                exact h_s
              · exact h_s
            · apply after_kept
              · apply execPwrCtlStandby_kept
                exact h_s
              · exact h_s
          · apply regPut_kept
            exact h_s
      · refine kept_ite (P := Kept q) ?_ ?_
        · apply storeSec_kept
          exact h_s
        · refine kept_ite (P := Kept q) ?_ ?_
          · apply storeBbx_kept
            exact h_s
          · refine kept_ite (P := Kept q) ?_ ?_
            · apply regPut_kept
              exact h_s
            · refine kept_ite (P := Kept q) ?_ ?_
              · apply storeDsp_kept
                exact h_s
              · refine kept_ite (P := Kept q) ?_ ?_
                · apply storeCkp_kept
                  exact h_s
                · refine kept_ite (P := Kept q) ?_ ?_
                  · apply storeDrn_kept
                    exact h_s
                  · refine kept_ite (P := Kept q) ?_ ?_
                    · apply storeScf_kept
                      exact h_s
                    · refine kept_ite (P := Kept q) ?_ ?_
                      · apply storeCol_kept
                        exact h_s
                      · refine kept_ite (P := Kept q) ?_ ?_
                        · extract_lets +onlyGivenNames x2991
                          clear_value x2991
                          refine kept_ite (P := Kept q) ?_ ?_
                          · apply after_kept
                            · apply execWinEntryWord0Write_kept
                              exact h_s
                            · exact h_s
                          · apply after_kept
                            · apply execWinEntryWord1Write_kept
                              exact h_s
                            · exact h_s
                        · exact h_s
  · refine kept_ite (P := Kept q) ?_ ?_
    · apply storeMem_kept
      exact h_s
    · refine kept_ite (P := Kept q) ?_ ?_
      · refine kept_ite (P := Kept q) ?_ ?_
        · apply after_kept
          · apply execScoLvuPwrWrite_kept
            exact h_s
          · exact h_s
        · apply regPut_kept
          exact h_s
      · refine kept_ite (P := Kept q) ?_ ?_
        · apply after_kept
          · apply execNcoPreemptReq_kept
            exact h_s
          · exact h_s
        · apply regPut_kept
          exact h_s

theorem regMove_kept {q : List Instr} (s : State) (key a : ℕ) (write : Bool) (h_s : Kept q s) : Kept q (regMove s key a write) := by
  unfold regMove
  apply moveMsg_kept
  exact h_s

theorem ctxRegLoad_kept {q : List Instr} (s : State) (key a n : ℕ) (h_s : Kept q s) : KFst q (ctxRegLoad s key a n) := by
  unfold ctxRegLoad
  split
  · rename_i z2993 z2994 z2995
    exact h_s
  · rename_i z2996 z2997
    refine kept_ite (P := KFst q) ?_ ?_
    · exact h_s
    · extract_lets +onlyGivenNames x2998
      have h2999 : KFst q x2998 := by
        unfold x2998
        apply regLoad_kept
        apply regMove_kept
        exact h_s
      clear_value x2998
      exact h2999

theorem ctxRegStore_kept {q : List Instr} (s : State) (key a n : ℕ) (v : Word) (h_s : Kept q s) : KFst q (ctxRegStore s key a n v) := by
  unfold ctxRegStore
  split
  · rename_i z3000 z3001 z3002
    exact h_s
  · rename_i z3003 z3004
    refine kept_ite (P := KFst q) ?_ ?_
    · split
      · rename_i z3005 z3006 z3007
        refine kept_ite (P := KFst q) ?_ ?_
        · apply kept_pair
          apply counterAdd_kept
          apply regMove_kept
          exact h_s
        · exact h_s
      · rename_i z3008 z3009
        exact h_s
    · apply kept_pair
      apply regStore_kept
      apply regMove_kept
      exact h_s

theorem scalarAt_kept {q : List Instr} (s : State) (ctx va n : ℕ) (k : AccKind) (reg mem : State → ℕ → State × MemRes Word) (h_s : Kept q s) (h_reg : (∀ y2442 y2443, Kept q y2442 → KFst q (reg y2442 y2443))) (h_mem : (∀ y2444 y2445, Kept q y2444 → KFst q (mem y2444 y2445))) : KFst q (scalarAt s ctx va n k reg mem) := by
  unfold scalarAt
  split
  · rename_i z2446 z2447 z2448 z2449
    have h2450 := kept_eq (P := KFst q) z2449 (by
      apply translate_kept
      exact h_s)
    refine kept_ite (P := KFst q) ?_ ?_
    · apply h_reg
      exact h2450
    · refine kept_ite (P := KFst q) ?_ ?_
      · exact h2450
      · split
        · rename_i z2451 z2452 z2453
          exact h2450
        · rename_i z2454 z2455
          refine kept_ite (P := KFst q) ?_ ?_
          · exact h2450
          · apply h_mem
            exact h2450
  · rename_i z2456 z2457 z2458 z2459
    have h2460 := kept_eq (P := KFst q) z2459 (by
      apply translate_kept
      exact h_s)
    exact h2460
  · rename_i z2461 z2462 z2463
    have h2464 := kept_eq (P := KFst q) z2463 (by
      apply translate_kept
      exact h_s)
    exact h2464

theorem memLoad_kept {q : List Instr} (src : Src) (n : ℕ) (s : State) (pa : ℕ) (h_s : Kept q s) : KFst q (memLoad src n s pa) := by
  unfold memLoad
  extract_lets +onlyGivenNames x3010
  have h3011 : KFst q x3010 := by
    unfold x3010
    apply physRead_kept
    exact h_s
  clear_value x3010
  refine kept_ite (P := KFst q) ?_ ?_
  · exact h3011
  · exact h3011

theorem scalarLoad_kept {q : List Instr} (t : Tid) (o : Opnds) (n dfile : ℕ) (put : Thread → ℕ → Word → Thread) (s : State) (h_s : Kept q s) : KOut q (scalarLoad t o n dfile put s) := by
  unfold scalarLoad
  apply insn_kept
  · exact h_s
  · intro v3012 v3013 v3014
    split
    · rename_i z3015 z3016 z3017 z3018
      have h3019 := kept_eq (P := KFst q) z3018 (by
        apply scalarAt_kept
        · exact v3014
        · intro v3020 v3021 v3022
          apply ctxRegLoad_kept
          exact v3022
        · intro v3023 v3024 v3025
          apply memLoad_kept
          exact v3025)
      show Kept q _
      apply setTh_kept
      exact h3019
    · rename_i z3026 z3027 z3028 z3029
      have h3030 := kept_eq (P := KFst q) z3029 (by
        apply scalarAt_kept
        · exact v3014
        · intro v3031 v3032 v3033
          apply ctxRegLoad_kept
          exact v3033
        · intro v3034 v3035 v3036
          apply memLoad_kept
          exact v3036)
      apply accTrap_kept
      exact h3030
    · rename_i z3037 z3038 z3039
      have h3040 := kept_eq (P := KFst q) z3039 (by
        apply scalarAt_kept
        · exact v3014
        · intro v3041 v3042 v3043
          apply ctxRegLoad_kept
          exact v3043
        · intro v3044 v3045 v3046
          apply memLoad_kept
          exact v3046)
      show Kept q _
      exact v3014

theorem scalarStore_kept {q : List Instr} (t : Tid) (o : Opnds) (n dfile : ℕ) (get : Thread → ℕ → Word) (s : State) (h_s : Kept q s) : KOut q (scalarStore t o n dfile get s) := by
  unfold scalarStore
  apply insn_kept
  · exact h_s
  · intro v3047 v3048 v3049
    extract_lets +onlyGivenNames x3050
    clear_value x3050
    split
    · rename_i z3052 z3053 z3054 z3055
      have h3056 := kept_eq (P := KFst q) z3055 (by
        apply scalarAt_kept
        · exact v3049
        · intro v3057 v3058 v3059
          extract_lets +onlyGivenNames x3060
          have h3061 : KFst q x3060 := by
            unfold x3060
            apply ctxRegStore_kept
            exact v3059
          clear_value x3060
          exact h3061
        · intro v3062 v3063 v3064
          apply kept_pair
          apply physWrite_kept
          exact v3064)
      show Kept q _
      exact h3056
    · rename_i z3065 z3066 z3067 z3068
      have h3069 := kept_eq (P := KFst q) z3068 (by
        apply scalarAt_kept
        · exact v3049
        · intro v3070 v3071 v3072
          extract_lets +onlyGivenNames x3073
          have h3074 : KFst q x3073 := by
            unfold x3073
            apply ctxRegStore_kept
            exact v3072
          clear_value x3073
          exact h3074
        · intro v3075 v3076 v3077
          apply kept_pair
          apply physWrite_kept
          exact v3077)
      apply accTrap_kept
      exact h3069
    · rename_i z3078 z3079 z3080
      have h3081 := kept_eq (P := KFst q) z3080 (by
        apply scalarAt_kept
        · exact v3049
        · intro v3082 v3083 v3084
          extract_lets +onlyGivenNames x3085
          have h3086 : KFst q x3085 := by
            unfold x3085
            apply ctxRegStore_kept
            exact v3084
          clear_value x3085
          exact h3086
        · intro v3087 v3088 v3089
          apply kept_pair
          apply physWrite_kept
          exact v3089)
      show Kept q _
      exact v3049

theorem execLd1_kept {q : List Instr} (t : Tid) (o : Opnds) (s : State) (h_s : Kept q s) : KOut q (execLd1 t o s) := by
  unfold execLd1
  apply scalarLoad_kept
  exact h_s

theorem execLd2_kept {q : List Instr} (t : Tid) (o : Opnds) (s : State) (h_s : Kept q s) : KOut q (execLd2 t o s) := by
  unfold execLd2
  apply scalarLoad_kept
  exact h_s

theorem execLd4_kept {q : List Instr} (t : Tid) (o : Opnds) (s : State) (h_s : Kept q s) : KOut q (execLd4 t o s) := by
  unfold execLd4
  apply scalarLoad_kept
  exact h_s

theorem execLd8_kept {q : List Instr} (t : Tid) (o : Opnds) (s : State) (h_s : Kept q s) : KOut q (execLd8 t o s) := by
  unfold execLd8
  apply scalarLoad_kept
  exact h_s

theorem execFld_kept {q : List Instr} (t : Tid) (o : Opnds) (s : State) (h_s : Kept q s) : KOut q (execFld t o s) := by
  unfold execFld
  apply scalarLoad_kept
  exact h_s

theorem execSt1_kept {q : List Instr} (t : Tid) (o : Opnds) (s : State) (h_s : Kept q s) : KOut q (execSt1 t o s) := by
  unfold execSt1
  apply scalarStore_kept
  exact h_s

theorem execSt2_kept {q : List Instr} (t : Tid) (o : Opnds) (s : State) (h_s : Kept q s) : KOut q (execSt2 t o s) := by
  unfold execSt2
  apply scalarStore_kept
  exact h_s

theorem execSt4_kept {q : List Instr} (t : Tid) (o : Opnds) (s : State) (h_s : Kept q s) : KOut q (execSt4 t o s) := by
  unfold execSt4
  apply scalarStore_kept
  exact h_s

theorem execSt8_kept {q : List Instr} (t : Tid) (o : Opnds) (s : State) (h_s : Kept q s) : KOut q (execSt8 t o s) := by
  unfold execSt8
  apply scalarStore_kept
  exact h_s

theorem execFst_kept {q : List Instr} (t : Tid) (o : Opnds) (s : State) (h_s : Kept q s) : KOut q (execFst t o s) := by
  unfold execFst
  apply scalarStore_kept
  exact h_s

theorem toHost_kept {q : List Instr} (s : State) (x : Tx) (h_s : Kept q s) : Kept q (toHost s x) := by
  unfold toHost
  refine kept_mk (s := s) ?_
  exact h_s

theorem hostHolds_kept {q : List Instr} (s : State) (line hold : Nat) (h_s : Kept q s) : Kept q (hostHolds s line hold) := by
  unfold hostHolds
  refine kept_mk (s := s) ?_
  exact h_s

theorem execHostRead_kept {q : List Instr} (addr n hold : ℕ) (s : State) (h_s : Kept q s) : KOut q (execHostRead addr n hold s) := by
  unfold execHostRead
  apply kept_next
  refine kept_ite (P := Kept q) ?_ ?_
  · exact h_s
  · refine kept_ite (P := Kept q) ?_ ?_
    · apply toHost_kept
      exact h_s
    · refine kept_ite (P := Kept q) ?_ ?_
      · refine kept_ite (P := Kept q) ?_ ?_
        · apply toHost_kept
          exact h_s
        · extract_lets +onlyGivenNames x3090
          have h3091 : KFst q x3090 := by
            unfold x3090
            apply regLoad_kept
            apply moveMsg_kept
            exact h_s
          clear_value x3090
          apply toHost_kept
          exact h3091
      · refine kept_ite (P := Kept q) ?_ ?_
        · apply toHost_kept
          exact h_s
        · refine kept_ite (P := Kept q) ?_ ?_
          · exact h_s
          · extract_lets +onlyGivenNames x3092
            have h3093 : KFst q x3092 := by
              unfold x3092
              apply physRead_kept
              exact h_s
            clear_value x3092
            refine kept_ite (P := Kept q) ?_ ?_
            · apply toHost_kept
              exact h3093
            · apply toHost_kept
              apply hostHolds_kept
              exact h3093

theorem hostRegStore_kept {q : List Instr} (s : State) (addr n : ℕ) (v : Word) (h_s : Kept q s) : Kept q (hostRegStore s addr n v) := by
  unfold hostRegStore
  refine kept_ite (P := Kept q) ?_ ?_
  · exact h_s
  · refine kept_ite (P := Kept q) ?_ ?_
    · apply toHost_kept
      exact h_s
    · apply toHost_kept
      apply regStore_kept
      apply moveMsg_kept
      exact h_s

theorem execRegisterWrite_kept {q : List Instr} (addr n : ℕ) (v : Word) (s : State) (h_s : Kept q s) : KOut q (execRegisterWrite addr n v s) := by
  unfold execRegisterWrite
  apply kept_next
  apply hostRegStore_kept
  exact h_s

theorem execHostWrite_kept {q : List Instr} (addr : ℕ) (bytes : List Byte) (hold : ℕ) (s : State) (h_s : Kept q s) : KOut q (execHostWrite addr bytes hold s) := by
  unfold execHostWrite
  apply kept_next
  refine kept_ite (P := Kept q) ?_ ?_
  · exact h_s
  · refine kept_ite (P := Kept q) ?_ ?_
    · apply hostRegStore_kept
      exact h_s
    · refine kept_ite (P := Kept q) ?_ ?_
      · apply toHost_kept
        exact h_s
      · refine kept_ite (P := Kept q) ?_ ?_
        · exact h_s
        · apply toHost_kept
          apply hostHolds_kept
          apply physWrite_kept
          exact h_s

theorem execImageApply_kept {q : List Instr} (power : ℕ) (writes : List (ℕ × Word)) (s : State) (h_s : Kept q s) : KOut q (execImageApply power writes s) := by
  unfold execImageApply
  apply kept_next
  refine kept_ite (P := Kept q) ?_ ?_
  · exact h_s
  · extract_lets +onlyGivenNames x3094
    have h3095 : Kept q x3094 := by
      unfold x3094
      refine kept_foldl ?_ ?_
      · intro v3096 v3097 v3098
        refine kept_ite (P := Kept q) ?_ ?_
        · exact v3098
        · apply regStore_kept
          exact v3098
      · exact h_s
    clear_value x3094
    extract_lets +onlyGivenNames x3099
    have h3100 : Kept q x3099 := by
      unfold x3099
      apply wrf_kept
      apply wrf_kept
      exact h3095
    clear_value x3099
    apply toStage_kept
    refine kept_ite (P := Kept q) ?_ ?_
    · apply wrf_kept
      exact h3100
    · exact h3100

theorem llmAlloc_kept {q : List Instr} (s : State) (h line : ℕ) (ways : List ℕ) (dirty : Bool) (h_s : Kept q s) : Kept q (llmAlloc s h line ways dirty) := by
  unfold llmAlloc
  extract_lets +onlyGivenNames x2500
  clear_value x2500
  extract_lets +onlyGivenNames x2502
  clear_value x2502
  extract_lets +onlyGivenNames x2504
  have h2505 : KSnd q x2504 := by
    unfold x2504
    apply drawNat_kept
    exact h_s
  clear_value x2504
  extract_lets +onlyGivenNames x2506
  clear_value x2506
  extract_lets +onlyGivenNames x2508
  have h2509 : Kept q x2508 := by
    unfold x2508
    split
    · rename_i z2510 z2511 z2512
      apply hbmLine_kept
      exact h2505
    · rename_i z2513 z2514
      exact h2505
  clear_value x2508
  refine kept_mk (s := x2508) ?_
  exact h2509

theorem llmServe_kept {q : List Instr} (s : State) (h : ℕ) (x : Xact) (line : ℕ) (h_s : Kept q s) : Kept q (llmServe s h x line) := by
  unfold llmServe
  split
  · rename_i z2515 z2516 z2517 z2518
    extract_lets +onlyGivenNames x2519
    clear_value x2519
    extract_lets +onlyGivenNames x2521
    clear_value x2521
    extract_lets +onlyGivenNames x2523
    clear_value x2523
    extract_lets +onlyGivenNames x2525
    have h2526 : (∀ y2527, Kept q y2527 → Kept q (x2525 y2527)) := by
      unfold x2525
      intro v2528 v2529
      refine kept_ite (P := Kept q) ?_ ?_
      · apply hbmLine_kept
        exact v2529
      · exact v2529
    clear_value x2525
    refine kept_ite (P := Kept q) ?_ ?_
    · apply h2526
      apply hbmLine_kept
      exact h_s
    · split
      · rename_i z2530 z2531 z2532
        extract_lets +onlyGivenNames x2533
        have h2534 : Kept q x2533 := by
          unfold x2533
          refine kept_ite (P := Kept q) ?_ ?_
          · refine kept_mk (s := s) ?_
            exact h_s
          · exact h_s
        clear_value x2533
        refine kept_ite (P := Kept q) ?_ ?_
        · apply addDiv_kept
          exact h2534
        · exact h2534
      · rename_i z2535 z2536
        extract_lets +onlyGivenNames x2537
        have h2538 : Kept q x2537 := by
          unfold x2537
          refine kept_ite (P := Kept q) ?_ ?_
          · apply addDiv_kept
            exact h_s
          · exact h_s
        clear_value x2537
        refine kept_ite (P := Kept q) ?_ ?_
        · apply h2526
          apply hbmLine_kept
          exact h2538
        · extract_lets +onlyGivenNames x2539
          have h2540 : Kept q x2539 := by
            unfold x2539
            refine kept_ite (P := Kept q) ?_ ?_
            · exact h2538
            · apply addDiv_kept
              apply hbmLine_kept
              exact h2538
          clear_value x2539
          apply llmAlloc_kept
          exact h2540
  · rename_i z2541 z2542
    exact h_s

theorem rglRefill_kept {q : List Instr} (s : State) (h : Nat) (h_s : Kept q s) : Kept q (rglRefill s h) := by
  unfold rglRefill
  refine kept_foldl ?_ ?_
  · intro v5417 v5418 v5419
    refine kept_foldl ?_ ?_
    · intro v5420 v5421 v5422
      extract_lets +onlyGivenNames x5423
      clear_value x5423
      apply rglMod_kept
      exact v5422
    · exact v5419
  · exact h_s

theorem rglOne_kept {q : List Instr} (s : State) (h p : ℕ) (wr : Bool) (cls : ℕ) (h_s : Kept q s) : Kept q (rglOne s h p wr cls) := by
  unfold rglOne
  split
  · rename_i z2543 z2544
    exact h_s
  · rename_i z2545 z2546 z2547 z2548
    extract_lets +onlyGivenNames x2549
    clear_value x2549
    extract_lets +onlyGivenNames x2551
    clear_value x2551
    extract_lets +onlyGivenNames x2553
    have h2554 : Kept q x2553 := by
      unfold x2553
      apply rglMod_kept
      exact h_s
    clear_value x2553
    extract_lets +onlyGivenNames x2555
    have h2556 : Kept q x2555 := by
      unfold x2555
      refine kept_ite (P := Kept q) ?_ ?_
      · apply addDiv_kept
        exact h2554
      · exact h2554
    clear_value x2555
    apply respond_kept
    split
    · rename_i z2557 z2558 z2559
      apply llmServe_kept
      exact h2556
    · rename_i z2560 z2561
      exact h2556

theorem rglServe_kept {q : List Instr} (h : ℕ) (wr : Bool) (cls a3 : ℕ) (a4 : State) (h_a4 : Kept q a4) : KFst q (rglServe h wr cls a3 a4) := by
  induction a3 generalizing h wr cls a4
  · rw [rglServe]
    exact h_a4
  · rename_i z2562 z2563
    rw [rglServe]
    split
    · rename_i z2564 z2565
      exact h_a4
    · rename_i z2566 z2567 z2568
      extract_lets +onlyGivenNames x2569
      have h2570 : Kept q x2569 := by
        unfold x2569
        apply rglOne_kept
        exact h_a4
      clear_value x2569
      apply z2563
      refine kept_ite (P := Kept q) ?_ ?_
      · exact h2570
      · refine kept_mk (s := x2569) ?_
        exact h2570

theorem rglCycle_kept {q : List Instr} (s : State) (h capR capW : ℕ) (regs : List (ℕ × Bool × ℕ)) (h_s : Kept q s) : Kept q (rglCycle s h capR capW regs) := by
  unfold rglCycle
  extract_lets +onlyGivenNames x2571
  have h2572 : Kept q x2571 := by
    unfold x2571
    apply rglRefill_kept
    exact h_s
  clear_value x2571
  extract_lets +onlyGivenNames x2573
  have h2574 : Kept q x2573 := by
    unfold x2573
    refine kept_foldl ?_ ?_
    · intro v2575 v2576 v2577
      refine kept_ite (P := Kept q) ?_ ?_
      · apply rglMod_kept
        exact v2577
      · exact v2577
    · exact h2572
  clear_value x2573
  extract_lets +onlyGivenNames x2578
  have h2579 : Kept q x2578 := by
    unfold x2578
    refine kept_foldl ?_ ?_
    · intro v2580 v2581 v2582
      extract_lets +onlyGivenNames x2583
      have h2584 : KFst q x2583 := by
        unfold x2583
        apply rglServe_kept
        exact v2582
      clear_value x2583
      extract_lets +onlyGivenNames x2585
      have h2586 : KFst q x2585 := by
        unfold x2585
        apply rglServe_kept
        exact h2584
      clear_value x2585
      apply kept_fst
      apply rglServe_kept
      exact h2586
    · exact h2574
  clear_value x2578
  refine kept_foldl ?_ ?_
  · intro v2587 v2588 v2589
    extract_lets +onlyGivenNames x2590
    clear_value x2590
    extract_lets +onlyGivenNames x2592
    have h2593 : Kept q x2592 := by
      unfold x2592
      refine kept_ite (P := Kept q) ?_ ?_
      · exact v2589
      · apply addDiv_kept
        exact v2589
    clear_value x2592
    refine kept_ite (P := Kept q) ?_ ?_
    · exact h2593
    · apply addDiv_kept
      exact h2593
  · exact h2579

theorem busyCycle_kept {q : List Instr} (s : State) (h : ℕ) (h_s : Kept q s) : Kept q (busyCycle s h) := by
  unfold busyCycle
  extract_lets +onlyGivenNames x2594
  have h2595 : KSnd q x2594 := by
    unfold x2594
    apply drawNat_kept
    exact h_s
  clear_value x2594
  extract_lets +onlyGivenNames x2596
  have h2597 : KSnd q x2596 := by
    unfold x2596
    apply drawNat_kept
    exact h2595
  clear_value x2596
  apply addDiv_kept
  apply addDiv_kept
  exact h2597

theorem archCount_kept {q : List Instr} (s : State) (h cls cat : Nat) (h_s : Kept q s) : Kept q (archCount s h cls cat) := by
  unfold archCount
  extract_lets +onlyGivenNames x5459
  have h5460 : Kept q x5459 := by
    unfold x5459
    refine kept_ite (P := Kept q) ?_ ?_
    · apply addDiv_kept
      exact h_s
    · exact h_s
  clear_value x5459
  refine kept_ite (P := Kept q) ?_ ?_
  · apply addDiv_kept
    exact h5460
  · exact h5460

theorem archLand_kept {q : List Instr} (s : State) (h e : ℕ) (x : Xact) (h_s : Kept q s) : Kept q (archLand s h e x) := by
  unfold archLand
  refine kept_ite (P := Kept q) ?_ ?_
  · refine kept_ite (P := Kept q) ?_ ?_
    · refine kept_ite (P := Kept q) ?_ ?_
      · apply archPush_kept
        exact h_s
      · exact h_s
    · refine kept_ite (P := Kept q) ?_ ?_
      · apply archPush_kept
        exact h_s
      · exact h_s
  · refine kept_ite (P := Kept q) ?_ ?_
    · apply offerHome_kept
      exact h_s
    · exact h_s

theorem archSend_kept {q : List Instr} (h e a2 a3 : ℕ) (a4 : Bool) (a5 : State) (h_a5 : Kept q a5) : KFst q (archSend h e a2 a3 a4 a5) := by
  induction a2 generalizing h e a3 a4 a5
  · rw [archSend]
    exact h_a5
  · rename_i z3101 z3102
    rw [archSend]
    split
    · rename_i z3103 z3104
      exact h_a5
    · rename_i z3105 z3106 z3107
      extract_lets +onlyGivenNames x3108
      clear_value x3108
      split
      · rename_i z3110 z3111
        exact h_a5
      · rename_i z3112 z3113 z3114
        split
        · rename_i z3115 z3116
          exact h_a5
        · rename_i z3117 z3118 z3119 z3120
          extract_lets +onlyGivenNames x3121
          clear_value x3121
          refine kept_ite (P := KFst q) ?_ ?_
          · exact h_a5
          · extract_lets +onlyGivenNames x3123
            clear_value x3123
            extract_lets +onlyGivenNames x3125
            clear_value x3125
            extract_lets +onlyGivenNames x3127
            have h3128 : Kept q x3127 := by
              unfold x3127
              refine kept_mk (s := a5) ?_
              exact h_a5
            clear_value x3127
            apply z3102
            apply archLand_kept
            refine kept_ite (P := Kept q) ?_ ?_
            · apply archCount_kept
              exact h3128
            · exact h3128

theorem archCycle_kept {q : List Instr} (s : State) (h e : ℕ) (h_s : Kept q s) : Kept q (archCycle s h e) := by
  unfold archCycle
  extract_lets +onlyGivenNames x3129
  have h3130 : KFst q x3129 := by
    unfold x3129
    apply archSend_kept
    exact h_s
  clear_value x3129
  extract_lets +onlyGivenNames x3131
  have h3132 : Kept q x3131 := by
    unfold x3131
    exact h3130
  clear_value x3131
  extract_lets +onlyGivenNames x3133
  have h3134 : Kept q x3133 := by
    unfold x3133
    refine kept_mk (s := x3131) ?_
    exact h3132
  clear_value x3133
  extract_lets +onlyGivenNames x3135
  have h3136 : Kept q x3135 := by
    unfold x3135
    refine kept_ite (P := Kept q) ?_ ?_
    · apply addDiv_kept
      exact h3134
    · exact h3134
  clear_value x3135
  refine kept_ite (P := Kept q) ?_ ?_
  · exact h3136
  · refine kept_foldl ?_ ?_
    · intro v3137 v3138 v3139
      extract_lets +onlyGivenNames x3140
      have h3141 : Kept q x3140 := by
        unfold x3140
        refine kept_ite (P := Kept q) ?_ ?_
        · apply addDiv_kept
          exact v3139
        · exact v3139
      clear_value x3140
      refine kept_ite (P := Kept q) ?_ ?_
      · exact h3141
      · apply addDiv_kept
        exact h3141
    · exact h3136

theorem waysJoin_kept {q : List Instr} (s : State) (h : ℕ) (h_s : Kept q s) : Kept q (waysJoin s h) := by
  unfold waysJoin
  refine kept_foldl ?_ ?_
  · intro v2628 v2629 v2630
    extract_lets +onlyGivenNames x2631
    clear_value x2631
    refine kept_ite (P := Kept q) ?_ ?_
    · apply joinFree_kept
      exact v2630
    · exact v2630
  · exact h_s

theorem drnWait_kept {q : List Instr} (s : State) (h : Nat) (h_s : Kept q s) : Kept q (drnWait s h) := by
  unfold drnWait
  extract_lets +onlyGivenNames x5491
  clear_value x5491
  refine kept_ite (P := Kept q) ?_ ?_
  · exact h_s
  · refine kept_foldl ?_ ?_
    · intro v5493 v5494 v5495
      refine kept_ite (P := Kept q) ?_ ?_
      · apply addDiv_kept
        exact v5495
      · exact v5495
    · exact h_s

theorem execSclkCycle_kept {q : List Instr} (h capR capW : ℕ) (regs : List (ℕ × Bool × ℕ)) (arch : List (Bool × ℕ × ℕ × ℕ)) (s : State) (h_s : Kept q s) : KOut q (execSclkCycle h capR capW regs arch s) := by
  unfold execSclkCycle
  apply kept_next
  refine kept_ite (P := Kept q) ?_ ?_
  · exact h_s
  · extract_lets +onlyGivenNames x3142
    have h3143 : Kept q x3142 := by
      unfold x3142
      apply waysJoin_kept
      apply busyCycle_kept
      apply rglCycle_kept
      exact h_s
    clear_value x3142
    extract_lets +onlyGivenNames x3144
    have h3145 : Kept q x3144 := by
      unfold x3144
      refine kept_foldl ?_ ?_
      · intro v3146 v3147 v3148
        refine kept_ite (P := Kept q) ?_ ?_
        · exact v3148
        · apply archPush_kept
          exact v3148
      · exact h3143
    clear_value x3144
    extract_lets +onlyGivenNames x3149
    have h3150 : Kept q x3149 := by
      unfold x3149
      refine kept_mk (s := x3144) ?_
      exact h3145
    clear_value x3149
    apply drnWait_kept
    apply archCycle_kept
    apply archCycle_kept
    exact h3150

theorem intOp_kept {q : List Instr} (t : Tid) (o : Opnds) (iform : Option IShape) (imm : Word) (f : Word → Word → Word) (s : State) (h_s : Kept q s) : KOut q (intOp t o iform imm f s) := by
  unfold intOp
  apply insn_kept
  · exact h_s
  · intro v763 v764 v765
    apply onTh_kept
    exact v765

theorem intCmp_kept {q : List Instr} (t : Tid) (o : Opnds) (imm : Word) (f : Word → Word → Bool) (s : State) (h_s : Kept q s) : KOut q (intCmp t o imm f s) := by
  unfold intCmp
  apply insn_kept
  · exact h_s
  · intro v766 v767 v768
    apply onTh_kept
    exact v768

theorem fpOp_kept {q : List Instr} (t : Tid) (o : Opnds) (r : RShape) (i : Option IShape) (f : Thread → Fp × List Fp) (s : State) (h_s : Kept q s) : KOut q (fpOp t o r i f s) := by
  unfold fpOp
  apply insn_kept
  · exact h_s
  · intro v769 v770 v771
    extract_lets +onlyGivenNames x772
    clear_value x772
    extract_lets +onlyGivenNames x774
    clear_value x774
    show Kept q _
    apply putCounted_kept
    exact v771

theorem fpOp2_kept {q : List Instr} (t : Tid) (o : Opnds) (f : Fp → Fp → Fp) (s : State) (h_s : Kept q s) : KOut q (fpOp2 t o f s) := by
  unfold fpOp2
  apply fpOp_kept
  exact h_s

theorem fpOp2R_kept {q : List Instr} (t : Tid) (o : Opnds) (f : Fp → Fp → Fp) (s : State) (h_s : Kept q s) : KOut q (fpOp2R t o f s) := by
  unfold fpOp2R
  apply fpOp_kept
  exact h_s

theorem fpCmp_kept {q : List Instr} (t : Tid) (o : Opnds) (f : Fp → Fp → Bool) (s : State) (h_s : Kept q s) : KOut q (fpCmp t o f s) := by
  unfold fpCmp
  apply insn_kept
  · exact h_s
  · intro v776 v777 v778
    extract_lets +onlyGivenNames x779
    clear_value x779
    extract_lets +onlyGivenNames x781
    clear_value x781
    show Kept q _
    apply putCounted_kept
    exact v778

theorem predOp_kept {q : List Instr} (t : Tid) (o : Opnds) (r : RShape) (f : BitVec 512 → BitVec 512 → BitVec 512) (s : State) (h_s : Kept q s) : KOut q (predOp t o r f s) := by
  unfold predOp
  apply insn_kept
  · exact h_s
  · intro v783 v784 v785
    apply onTh_kept
    exact v785

theorem readX_kept {q : List Instr} (t : Tid) (o : Opnds) (r : Option RShape) (i : Option IShape) (f : Nat → State → Word) (s : State) (h_s : Kept q s) : KOut q (readX t o r i f s) := by
  unfold readX
  apply insn_kept
  · exact h_s
  · intro v786 v787 v788
    show Kept q _
    apply setTh_kept
    exact v788

theorem execAdd_kept {q : List Instr} (t : Tid) (o : Opnds) (s : State) (h_s : Kept q s) : KOut q (execAdd t o s) := by
  unfold execAdd
  apply intOp_kept
  exact h_s

theorem execSub_kept {q : List Instr} (t : Tid) (o : Opnds) (s : State) (h_s : Kept q s) : KOut q (execSub t o s) := by
  unfold execSub
  apply intOp_kept
  exact h_s

theorem execMul_kept {q : List Instr} (t : Tid) (o : Opnds) (s : State) (h_s : Kept q s) : KOut q (execMul t o s) := by
  unfold execMul
  apply intOp_kept
  exact h_s

theorem execAnd_kept {q : List Instr} (t : Tid) (o : Opnds) (s : State) (h_s : Kept q s) : KOut q (execAnd t o s) := by
  unfold execAnd
  apply intOp_kept
  exact h_s

theorem execOr_kept {q : List Instr} (t : Tid) (o : Opnds) (s : State) (h_s : Kept q s) : KOut q (execOr t o s) := by
  unfold execOr
  apply intOp_kept
  exact h_s

theorem execXor_kept {q : List Instr} (t : Tid) (o : Opnds) (s : State) (h_s : Kept q s) : KOut q (execXor t o s) := by
  unfold execXor
  apply intOp_kept
  exact h_s

theorem execMins_kept {q : List Instr} (t : Tid) (o : Opnds) (s : State) (h_s : Kept q s) : KOut q (execMins t o s) := by
  unfold execMins
  apply intOp_kept
  exact h_s

theorem execMaxs_kept {q : List Instr} (t : Tid) (o : Opnds) (s : State) (h_s : Kept q s) : KOut q (execMaxs t o s) := by
  unfold execMaxs
  apply intOp_kept
  exact h_s

theorem execMinu_kept {q : List Instr} (t : Tid) (o : Opnds) (s : State) (h_s : Kept q s) : KOut q (execMinu t o s) := by
  unfold execMinu
  apply intOp_kept
  exact h_s

theorem execMaxu_kept {q : List Instr} (t : Tid) (o : Opnds) (s : State) (h_s : Kept q s) : KOut q (execMaxu t o s) := by
  unfold execMaxu
  apply intOp_kept
  exact h_s

theorem execMulhs_kept {q : List Instr} (t : Tid) (o : Opnds) (s : State) (h_s : Kept q s) : KOut q (execMulhs t o s) := by
  unfold execMulhs
  apply intOp_kept
  exact h_s

theorem execMulhu_kept {q : List Instr} (t : Tid) (o : Opnds) (s : State) (h_s : Kept q s) : KOut q (execMulhu t o s) := by
  unfold execMulhu
  apply intOp_kept
  exact h_s

theorem execDivs_kept {q : List Instr} (t : Tid) (o : Opnds) (s : State) (h_s : Kept q s) : KOut q (execDivs t o s) := by
  unfold execDivs
  apply intOp_kept
  exact h_s

theorem execDivu_kept {q : List Instr} (t : Tid) (o : Opnds) (s : State) (h_s : Kept q s) : KOut q (execDivu t o s) := by
  unfold execDivu
  apply intOp_kept
  exact h_s

theorem execRems_kept {q : List Instr} (t : Tid) (o : Opnds) (s : State) (h_s : Kept q s) : KOut q (execRems t o s) := by
  unfold execRems
  apply intOp_kept
  exact h_s

theorem execRemu_kept {q : List Instr} (t : Tid) (o : Opnds) (s : State) (h_s : Kept q s) : KOut q (execRemu t o s) := by
  unfold execRemu
  apply intOp_kept
  exact h_s

theorem execShl_kept {q : List Instr} (t : Tid) (o : Opnds) (s : State) (h_s : Kept q s) : KOut q (execShl t o s) := by
  unfold execShl
  apply intOp_kept
  exact h_s

theorem execShr_kept {q : List Instr} (t : Tid) (o : Opnds) (s : State) (h_s : Kept q s) : KOut q (execShr t o s) := by
  unfold execShr
  apply intOp_kept
  exact h_s

theorem execSar_kept {q : List Instr} (t : Tid) (o : Opnds) (s : State) (h_s : Kept q s) : KOut q (execSar t o s) := by
  unfold execSar
  apply intOp_kept
  exact h_s

theorem execCmpeq_kept {q : List Instr} (t : Tid) (o : Opnds) (s : State) (h_s : Kept q s) : KOut q (execCmpeq t o s) := by
  unfold execCmpeq
  apply intCmp_kept
  exact h_s

theorem execCmpne_kept {q : List Instr} (t : Tid) (o : Opnds) (s : State) (h_s : Kept q s) : KOut q (execCmpne t o s) := by
  unfold execCmpne
  apply intCmp_kept
  exact h_s

theorem execCmplts_kept {q : List Instr} (t : Tid) (o : Opnds) (s : State) (h_s : Kept q s) : KOut q (execCmplts t o s) := by
  unfold execCmplts
  apply intCmp_kept
  exact h_s

theorem execCmpltu_kept {q : List Instr} (t : Tid) (o : Opnds) (s : State) (h_s : Kept q s) : KOut q (execCmpltu t o s) := by
  unfold execCmpltu
  apply intCmp_kept
  exact h_s

theorem execCmples_kept {q : List Instr} (t : Tid) (o : Opnds) (s : State) (h_s : Kept q s) : KOut q (execCmples t o s) := by
  unfold execCmples
  apply intCmp_kept
  exact h_s

theorem execCmpleu_kept {q : List Instr} (t : Tid) (o : Opnds) (s : State) (h_s : Kept q s) : KOut q (execCmpleu t o s) := by
  unfold execCmpleu
  apply intCmp_kept
  exact h_s

theorem execMov_kept {q : List Instr} (t : Tid) (o : Opnds) (s : State) (h_s : Kept q s) : KOut q (execMov t o s) := by
  unfold execMov
  apply insn_kept
  · exact h_s
  · intro v789 v790 v791
    apply onTh_kept
    exact v791

theorem execMovhi_kept {q : List Instr} (t : Tid) (o : Opnds) (s : State) (h_s : Kept q s) : KOut q (execMovhi t o s) := by
  unfold execMovhi
  apply insn_kept
  · exact h_s
  · intro v792 v793 v794
    apply onTh_kept
    exact v794

theorem execFadd_kept {q : List Instr} (t : Tid) (o : Opnds) (s : State) (h_s : Kept q s) : KOut q (execFadd t o s) := by
  unfold execFadd
  apply fpOp2_kept
  exact h_s

theorem execFsub_kept {q : List Instr} (t : Tid) (o : Opnds) (s : State) (h_s : Kept q s) : KOut q (execFsub t o s) := by
  unfold execFsub
  apply fpOp2_kept
  exact h_s

theorem execFmul_kept {q : List Instr} (t : Tid) (o : Opnds) (s : State) (h_s : Kept q s) : KOut q (execFmul t o s) := by
  unfold execFmul
  apply fpOp2_kept
  exact h_s

theorem execFdiv_kept {q : List Instr} (t : Tid) (o : Opnds) (s : State) (h_s : Kept q s) : KOut q (execFdiv t o s) := by
  unfold execFdiv
  apply fpOp2_kept
  exact h_s

theorem execFsqrt_kept {q : List Instr} (t : Tid) (o : Opnds) (s : State) (h_s : Kept q s) : KOut q (execFsqrt t o s) := by
  unfold execFsqrt
  apply fpOp_kept
  exact h_s

theorem execFfma_kept {q : List Instr} (t : Tid) (o : Opnds) (s : State) (h_s : Kept q s) : KOut q (execFfma t o s) := by
  unfold execFfma
  apply fpOp_kept
  exact h_s

theorem execFmin_kept {q : List Instr} (t : Tid) (o : Opnds) (s : State) (h_s : Kept q s) : KOut q (execFmin t o s) := by
  unfold execFmin
  apply fpOp2R_kept
  exact h_s

theorem execFmax_kept {q : List Instr} (t : Tid) (o : Opnds) (s : State) (h_s : Kept q s) : KOut q (execFmax t o s) := by
  unfold execFmax
  apply fpOp2R_kept
  exact h_s

theorem execFcmpeq_kept {q : List Instr} (t : Tid) (o : Opnds) (s : State) (h_s : Kept q s) : KOut q (execFcmpeq t o s) := by
  unfold execFcmpeq
  apply fpCmp_kept
  exact h_s

theorem execFcmplt_kept {q : List Instr} (t : Tid) (o : Opnds) (s : State) (h_s : Kept q s) : KOut q (execFcmplt t o s) := by
  unfold execFcmplt
  apply fpCmp_kept
  exact h_s

theorem execFcmple_kept {q : List Instr} (t : Tid) (o : Opnds) (s : State) (h_s : Kept q s) : KOut q (execFcmple t o s) := by
  unfold execFcmple
  apply fpCmp_kept
  exact h_s

theorem execFcvti_kept {q : List Instr} (t : Tid) (o : Opnds) (s : State) (h_s : Kept q s) : KOut q (execFcvti t o s) := by
  unfold execFcvti
  apply insn_kept
  · exact h_s
  · intro v795 v796 v797
    extract_lets +onlyGivenNames x798
    clear_value x798
    extract_lets +onlyGivenNames x800
    clear_value x800
    show Kept q _
    apply putCounted_kept
    exact v797

theorem execFcvtf_kept {q : List Instr} (t : Tid) (o : Opnds) (s : State) (h_s : Kept q s) : KOut q (execFcvtf t o s) := by
  unfold execFcvtf
  apply fpOp_kept
  exact h_s

theorem execFmovx_kept {q : List Instr} (t : Tid) (o : Opnds) (s : State) (h_s : Kept q s) : KOut q (execFmovx t o s) := by
  unfold execFmovx
  apply readX_kept
  exact h_s

theorem execFmovf_kept {q : List Instr} (t : Tid) (o : Opnds) (s : State) (h_s : Kept q s) : KOut q (execFmovf t o s) := by
  unfold execFmovf
  apply insn_kept
  · exact h_s
  · intro v802 v803 v804
    apply onTh_kept
    exact v804

theorem execPand_kept {q : List Instr} (t : Tid) (o : Opnds) (s : State) (h_s : Kept q s) : KOut q (execPand t o s) := by
  unfold execPand
  apply predOp_kept
  exact h_s

theorem execPor_kept {q : List Instr} (t : Tid) (o : Opnds) (s : State) (h_s : Kept q s) : KOut q (execPor t o s) := by
  unfold execPor
  apply predOp_kept
  exact h_s

theorem execPxor_kept {q : List Instr} (t : Tid) (o : Opnds) (s : State) (h_s : Kept q s) : KOut q (execPxor t o s) := by
  unfold execPxor
  apply predOp_kept
  exact h_s

theorem execPnot_kept {q : List Instr} (t : Tid) (o : Opnds) (s : State) (h_s : Kept q s) : KOut q (execPnot t o s) := by
  unfold execPnot
  apply predOp_kept
  exact h_s

theorem execPset_kept {q : List Instr} (t : Tid) (o : Opnds) (s : State) (h_s : Kept q s) : KOut q (execPset t o s) := by
  unfold execPset
  apply insn_kept
  · exact h_s
  · intro v805 v806 v807
    apply onTh_kept
    exact v807

theorem execRdltc_kept {q : List Instr} (t : Tid) (o : Opnds) (s : State) (h_s : Kept q s) : KOut q (execRdltc t o s) := by
  unfold execRdltc
  apply readX_kept
  exact h_s

theorem execRdnstat_kept {q : List Instr} (t : Tid) (o : Opnds) (s : State) (h_s : Kept q s) : KOut q (execRdnstat t o s) := by
  unfold execRdnstat
  apply readX_kept
  exact h_s

theorem execNstclr_kept {q : List Instr} (t : Tid) (o : Opnds) (s : State) (h_s : Kept q s) : KOut q (execNstclr t o s) := by
  unfold execNstclr
  apply insn_kept
  · exact h_s
  · intro v808 v809 v810
    apply onTh_kept
    exact v810

theorem execRdctr_kept {q : List Instr} (t : Tid) (o : Opnds) (s : State) (h_s : Kept q s) : KOut q (execRdctr t o s) := by
  unfold execRdctr
  apply readX_kept
  exact h_s

theorem execRdid_kept {q : List Instr} (t : Tid) (o : Opnds) (s : State) (h_s : Kept q s) : KOut q (execRdid t o s) := by
  unfold execRdid
  apply readX_kept
  exact h_s

theorem answerBad_kept {q : List Instr} (s : State) (p : Pkt) (ty status : Nat) (cause : Option Nat) (h_s : Kept q s) : Kept q (answerBad s p ty status cause) := by
  unfold answerBad
  split
  · rename_i z5553 z5554
    apply emit_kept
    exact h_s
  · rename_i z5555
    extract_lets +onlyGivenNames x5556
    have h5557 : KSnd q x5556 := by
      unfold x5556
      apply drawBits_kept
      exact h_s
    clear_value x5556
    exact h5557

theorem nackBusy_kept {q : List Instr} (s : State) (p : Pkt) (cause : Nat) (h_s : Kept q s) : Kept q (nackBusy s p cause) := by
  unfold nackBusy
  extract_lets +onlyGivenNames x5558
  have h5559 : KSnd q x5558 := by
    unfold x5558
    apply drawNat_kept
    exact h_s
  clear_value x5558
  extract_lets +onlyGivenNames x5560
  have h5561 : KSnd q x5560 := by
    unfold x5560
    refine kept_ite (P := KSnd q) ?_ ?_
    · exact h_s
    · exact h5559
  clear_value x5560
  apply emit_kept
  apply addDiv_kept
  exact h5561

theorem invWait_kept {q : List Instr} (s : State) (a n : ℕ) (h_s : Kept q s) : KOptS q (invWait s a n) := by
  unfold invWait
  extract_lets +onlyGivenNames x2642
  have h2643 : Kept q x2642 := by
    unfold x2642
    refine kept_foldl ?_ ?_
    · intro v2644 v2645 v2646
      apply invalidate_kept
      exact v2646
    · exact h_s
  clear_value x2642
  refine kept_ite (P := KOptS q) ?_ ?_
  · apply kept_someS
    exact h2643
  · exact kept_noneS

theorem onRequest_kept {q : List Instr} (ty : ℕ) (p : Pkt) (busy : Bool) (n : ℕ) (write : Bool) (f : State → State) (s0 : State) (h_f : (∀ y2647, Kept q y2647 → Kept q (f y2647))) (h_s0 : Kept q s0) : KOut q (onRequest ty p busy n write f s0) := by
  unfold onRequest
  apply kept_next
  refine kept_ite (P := Kept q) ?_ ?_
  · exact h_s0
  · extract_lets +onlyGivenNames x2648
    have h2649 : Kept q x2648 := by
      unfold x2648
      apply takeRx_kept
      exact h_s0
    clear_value x2648
    refine kept_ite (P := Kept q) ?_ ?_
    · apply nackBusy_kept
      exact h2649
    · split
      · rename_i z2650 z2651 z2652 z2653 z2654
        apply answerBad_kept
        exact h2649
      · rename_i z2655 z2656 z2657
        refine kept_ite (P := Kept q) ?_ ?_
        · apply nackBusy_kept
          exact h2649
        · refine kept_ite (P := Kept q) ?_ ?_
          · exact h_s0
          · split
            · rename_i z2658 z2659 z2660
              have h2661 := kept_eq (P := KOptS q) z2660 (by
                refine kept_ite (P := KOptS q) ?_ ?_
                · apply invWait_kept
                  exact h_s0
                · exact kept_noneS)
              have h2662 : Kept q _ := h2661 _ rfl
              exact h2662
            · rename_i z2663 z2664
              have h2665 := kept_eq (P := KOptS q) z2664 (by
                refine kept_ite (P := KOptS q) ?_ ?_
                · apply invWait_kept
                  exact h_s0
                · exact kept_noneS)
              apply h_f
              exact h2649

theorem putMasked_kept {q : List Instr} (s : State) (src : Src) (a mask : ℕ) (bs : List Byte) (pois : Bool) (h_s : Kept q s) : Kept q (putMasked s src a mask bs pois) := by
  unfold putMasked
  extract_lets +onlyGivenNames x3151
  have h3152 : Kept q x3151 := by
    unfold x3151
    refine kept_ite (P := Kept q) ?_ ?_
    · apply physPut_kept
      exact h_s
    · refine kept_foldl ?_ ?_
      · intro v3153 v3154 v3155
        refine kept_ite (P := Kept q) ?_ ?_
        · apply physPut_kept
          exact v3155
        · exact v3155
      · exact h_s
  clear_value x3151
  extract_lets +onlyGivenNames x3156
  have h3157 : Kept q x3156 := by
    unfold x3156
    apply wrote_kept
    exact h3152
  clear_value x3156
  refine kept_ite (P := Kept q) ?_ ?_
  · apply poisonLine_kept
    exact h3157
  · exact h3157

theorem execPktRead_kept {q : List Instr} (p : Pkt) (busy : Bool) (s : State) (h_s : Kept q s) : KOut q (execPktRead p busy s) := by
  unfold execPktRead
  extract_lets +onlyGivenNames x3158
  clear_value x3158
  apply onRequest_kept
  · intro v3160 v3161
    extract_lets +onlyGivenNames x3162
    have h3163 : KFst q x3162 := by
      unfold x3162
      apply physRead_kept
      exact v3161
    clear_value x3162
    apply emit_kept
    exact h3163
  · exact h_s

theorem noteApplied_kept {q : List Instr} (s : State) (p : Pkt) (h_s : Kept q s) : Kept q (noteApplied s p) := by
  unfold noteApplied
  refine kept_mk (s := s) ?_
  exact h_s

theorem applyWrite_kept {q : List Instr} (s : State) (p : Pkt) (h_s : Kept q s) : Kept q (applyWrite s p) := by
  unfold applyWrite
  apply emit_kept
  apply noteApplied_kept
  apply putMasked_kept
  exact h_s

theorem releaseFlags_kept {q : List Instr} (a0 : ℕ) (a1 : State) (h_a1 : Kept q a1) : Kept q (releaseFlags a0 a1) := by
  induction a0 generalizing a1
  · rw [releaseFlags]
    exact h_a1
  · rename_i z3164 z3165
    rw [releaseFlags]
    split
    · rename_i z3166 z3167
      exact h_a1
    · rename_i z3168 z3169 z3170
      extract_lets +onlyGivenNames x3171
      have h3172 : Kept q x3171 := by
        unfold x3171
        apply applyWrite_kept
        refine kept_mk (s := a1) ?_
        exact h_a1
      clear_value x3171
      apply z3165
      refine kept_mk (s := x3171) ?_
      exact h3172

theorem execPktWrite_kept {q : List Instr} (p : Pkt) (busy : Bool) (s : State) (h_s : Kept q s) : KOut q (execPktWrite p busy s) := by
  unfold execPktWrite
  apply onRequest_kept
  · intro v3173 v3174
    extract_lets +onlyGivenNames x3175
    have h3176 : Kept q x3175 := by
      unfold x3175
      apply applyWrite_kept
      exact v3174
    clear_value x3175
    extract_lets +onlyGivenNames x3177
    have h3178 : Kept q x3177 := by
      unfold x3177
      refine kept_mk (s := x3175) ?_
      exact h3176
    clear_value x3177
    apply releaseFlags_kept
    exact h3178
  · exact h_s

theorem execPktWritef_kept {q : List Instr} (p : Pkt) (busy : Bool) (waits : List ℕ) (s : State) (h_s : Kept q s) : KOut q (execPktWritef p busy waits s) := by
  unfold execPktWritef
  apply onRequest_kept
  · intro v3179 v3180
    refine kept_ite (P := Kept q) ?_ ?_
    · exact h_s
    · refine kept_ite (P := Kept q) ?_ ?_
      · exact v3180
      · extract_lets +onlyGivenNames x3181
        have h3182 : Kept q x3181 := by
          unfold x3181
          refine kept_mk (s := v3179) ?_
          exact v3180
        clear_value x3181
        apply releaseFlags_kept
        exact h3182
  · exact h_s

theorem applyMembers_kept {q : List Instr} (ty : ℕ) (sgn : Bool) (a : ℕ) (a3 : List Member) (a4 : State) (h_a4 : Kept q a4) : KFst q (applyMembers ty sgn a a3 a4) := by
  induction a3 generalizing ty sgn a a4
  · rw [applyMembers]
    exact h_a4
  · rename_i z2698 z2699 z2700
    rw [applyMembers]
    split
    · rename_i z2701 z2702 z2703
      extract_lets +onlyGivenNames x2704
      have h2705 : KFst q x2704 := by
        unfold x2704
        apply z2700
        apply addSat_kept
        exact h_a4
      clear_value x2704
      exact h2705
    · rename_i z2706 z2707
      extract_lets +onlyGivenNames x2708
      clear_value x2708
      extract_lets +onlyGivenNames x2710
      have h2711 : Kept q x2710 := by
        unfold x2710
        apply physPut_kept
        exact h_a4
      clear_value x2710
      extract_lets +onlyGivenNames x2712
      have h2713 : Kept q x2712 := by
        unfold x2712
        refine kept_mk (s := x2710) ?_
        exact h2711
      clear_value x2712
      extract_lets +onlyGivenNames x2714
      have h2715 : KFst q x2714 := by
        unfold x2714
        apply z2700
        exact h2713
      clear_value x2714
      exact h2715

theorem atomicAt_kept {q : List Instr} (ty : ℕ) (p : Pkt) (busy : Bool) (s : State) (h_s : Kept q s) : KOut q (atomicAt ty p busy s) := by
  unfold atomicAt
  apply onRequest_kept
  · intro v3183 v3184
    extract_lets +onlyGivenNames x3185
    clear_value x3185
    refine kept_ite (P := Kept q) ?_ ?_
    · apply nackBusy_kept
      exact v3184
    · refine kept_ite (P := Kept q) ?_ ?_
      · apply answerBad_kept
        exact v3184
      · extract_lets +onlyGivenNames x3187
        have h3188 : KFst q x3187 := by
          unfold x3187
          apply physRead_kept
          exact v3184
        clear_value x3187
        refine kept_ite (P := Kept q) ?_ ?_
        · apply answerBad_kept
          exact h3188
        · extract_lets +onlyGivenNames x3189
          have h3190 : KFst q x3189 := by
            unfold x3189
            apply applyMembers_kept
            exact h3188
          clear_value x3189
          apply emit_kept
          refine kept_ite (P := Kept q) ?_ ?_
          · exact h3190
          · apply wrote_kept
            exact h3190
  · exact h_s

theorem execPktAdd_kept {q : List Instr} (p : Pkt) (busy : Bool) (s : State) (h_s : Kept q s) : KOut q (execPktAdd p busy s) := by
  unfold execPktAdd
  apply atomicAt_kept
  exact h_s

theorem execPktMin_kept {q : List Instr} (p : Pkt) (busy : Bool) (s : State) (h_s : Kept q s) : KOut q (execPktMin p busy s) := by
  unfold execPktMin
  apply atomicAt_kept
  exact h_s

theorem execPktMax_kept {q : List Instr} (p : Pkt) (busy : Bool) (s : State) (h_s : Kept q s) : KOut q (execPktMax p busy s) := by
  unfold execPktMax
  apply atomicAt_kept
  exact h_s

theorem execPktAnd_kept {q : List Instr} (p : Pkt) (busy : Bool) (s : State) (h_s : Kept q s) : KOut q (execPktAnd p busy s) := by
  unfold execPktAnd
  apply atomicAt_kept
  exact h_s

theorem execPktOr_kept {q : List Instr} (p : Pkt) (busy : Bool) (s : State) (h_s : Kept q s) : KOut q (execPktOr p busy s) := by
  unfold execPktOr
  apply atomicAt_kept
  exact h_s

theorem execPktXor_kept {q : List Instr} (p : Pkt) (busy : Bool) (s : State) (h_s : Kept q s) : KOut q (execPktXor p busy s) := by
  unfold execPktXor
  apply atomicAt_kept
  exact h_s

theorem execPktSwap_kept {q : List Instr} (p : Pkt) (busy : Bool) (s : State) (h_s : Kept q s) : KOut q (execPktSwap p busy s) := by
  unfold execPktSwap
  apply atomicAt_kept
  exact h_s

theorem casAt_kept {q : List Instr} (ty n : ℕ) (p : Pkt) (busy : Bool) (s : State) (h_s : Kept q s) : KOut q (casAt ty n p busy s) := by
  unfold casAt
  apply onRequest_kept
  · intro v3191 v3192
    split
    · rename_i z3193 z3194 z3195
      apply emit_kept
      apply addSat_kept
      exact v3192
    · rename_i z3196 z3197
      refine kept_ite (P := Kept q) ?_ ?_
      · apply nackBusy_kept
        exact v3192
      · refine kept_ite (P := Kept q) ?_ ?_
        · apply answerBad_kept
          exact v3192
        · extract_lets +onlyGivenNames x3198
          have h3199 : KFst q x3198 := by
            unfold x3198
            apply physRead_kept
            exact v3192
          clear_value x3198
          refine kept_ite (P := Kept q) ?_ ?_
          · apply answerBad_kept
            exact h3199
          · extract_lets +onlyGivenNames x3200
            clear_value x3200
            extract_lets +onlyGivenNames x3202
            have h3203 : Kept q x3202 := by
              unfold x3202
              exact h3199
            clear_value x3202
            extract_lets +onlyGivenNames x3204
            have h3205 : Kept q x3204 := by
              unfold x3204
              refine kept_ite (P := Kept q) ?_ ?_
              · apply physWrite_kept
                exact h3203
              · exact h3203
            clear_value x3204
            extract_lets +onlyGivenNames x3206
            have h3207 : Kept q x3206 := by
              unfold x3206
              refine kept_mk (s := x3204) ?_
              exact h3205
            clear_value x3206
            apply emit_kept
            exact h3207
  · exact h_s

theorem execPktCas8_kept {q : List Instr} (p : Pkt) (busy : Bool) (s : State) (h_s : Kept q s) : KOut q (execPktCas8 p busy s) := by
  unfold execPktCas8
  apply casAt_kept
  exact h_s

theorem execPktCas16_kept {q : List Instr} (p : Pkt) (busy : Bool) (s : State) (h_s : Kept q s) : KOut q (execPktCas16 p busy s) := by
  unfold execPktCas16
  apply casAt_kept
  exact h_s

theorem execRcacheEntryExpiry_kept {q : List Instr} (src eng seq : Nat) (s : State) (h_s : Kept q s) : KOut q (execRcacheEntryExpiry src eng seq s) := by
  unfold execRcacheEntryExpiry
  extract_lets +onlyGivenNames x5646
  clear_value x5646
  apply kept_next
  refine kept_mk (s := s) ?_
  exact h_s

theorem traceOut_kept {q : List Instr} (s : State) (h_s : Kept q s) : Kept q (traceOut s) := by
  unfold traceOut
  split
  · rename_i z5744 z5745
    exact h_s
  · rename_i z5746 z5747 z5748 z5749
    apply logRecAt_kept
    refine kept_mk (s := s) ?_
    exact h_s

theorem burnOut_kept {q : List Instr} (s : State) (h_s : Kept q s) : Kept q (burnOut s) := by
  unfold burnOut
  split
  · rename_i z2731 z2732 z2733
    refine kept_ite (P := Kept q) ?_ ?_
    · apply burnSvn_kept
      exact h_s
    · exact h_s
  · rename_i z2734 z2735
    exact h_s

theorem tick_kept {q : List Instr} (s : State) (h_s : Kept q s) : Kept q (tick s) := by
  unfold tick
  extract_lets +onlyGivenNames x2736
  have h2737 : Kept q x2736 := by
    unfold x2736
    apply burnOut_kept
    apply traceOut_kept
    exact h_s
  clear_value x2736
  refine kept_mk (s := x2736) ?_
  exact h2737

end Sys2Proof.Machine
end

