-- ==== Sys2Proof/Laws/State.lean ====
section
/-! SUPPORT. One lemma per field per update: what each named update of the state leaves alone. -/

namespace Sys2Proof.Machine

@[simp] theorem wr_pending (s : State) (a : Nat) (v : Word) : (wr s a v).pending = s.pending := rfl
@[simp] theorem wr_ltc (s : State) (a : Nat) (v : Word) : (wr s a v).ltc = s.ltc := rfl
@[simp] theorem wr_ltcPhase (s : State) (a : Nat) (v : Word) : (wr s a v).ltcPhase = s.ltcPhase := rfl
@[simp] theorem wr_frac (s : State) (a : Nat) (v : Word) : (wr s a v).frac = s.frac := rfl
@[simp] theorem wr_mem (s : State) (a : Nat) (v : Word) : (wr s a v).mem = s.mem := rfl
@[simp] theorem wr_undef (s : State) (a : Nat) (v : Word) : (wr s a v).undef = s.undef := rfl
@[simp] theorem wr_poison (s : State) (a : Nat) (v : Word) : (wr s a v).poison = s.poison := rfl
@[simp] theorem wr_symErr (s : State) (a : Nat) (v : Word) : (wr s a v).symErr = s.symErr := rfl
@[simp] theorem wr_threads (s : State) (a : Nat) (v : Word) : (wr s a v).threads = s.threads := rfl
@[simp] theorem wr_ncores (s : State) (a : Nat) (v : Word) : (wr s a v).ncores = s.ncores := rfl
@[simp] theorem wr_cpes (s : State) (a : Nat) (v : Word) : (wr s a v).cpes = s.cpes := rfl
@[simp] theorem wr_landing (s : State) (a : Nat) (v : Word) : (wr s a v).landing = s.landing := rfl
@[simp] theorem wr_images (s : State) (a : Nat) (v : Word) : (wr s a v).images = s.images := rfl
@[simp] theorem wr_faultQ (s : State) (a : Nat) (v : Word) : (wr s a v).faultQ = s.faultQ := rfl
@[simp] theorem wr_traceQ (s : State) (a : Nat) (v : Word) : (wr s a v).traceQ = s.traceQ := rfl
@[simp] theorem wr_tlb (s : State) (a : Nat) (v : Word) : (wr s a v).tlb = s.tlb := rfl
@[simp] theorem wr_tlbInv (s : State) (a : Nat) (v : Word) : (wr s a v).tlbInv = s.tlbInv := rfl
@[simp] theorem wr_hashing (s : State) (a : Nat) (v : Word) : (wr s a v).hashing = s.hashing := rfl
@[simp] theorem wr_hbmHeld (s : State) (a : Nat) (v : Word) : (wr s a v).hbmHeld = s.hbmHeld := rfl
@[simp] theorem wr_rowCe (s : State) (a : Nat) (v : Word) : (wr s a v).rowCe = s.rowCe := rfl
@[simp] theorem wr_rowHeld (s : State) (a : Nat) (v : Word) : (wr s a v).rowHeld = s.rowHeld := rfl
@[simp] theorem wr_sparesUsed (s : State) (a : Nat) (v : Word) : (wr s a v).sparesUsed = s.sparesUsed := rfl
@[simp] theorem wr_mramLocked (s : State) (a : Nat) (v : Word) : (wr s a v).mramLocked = s.mramLocked := rfl
@[simp] theorem wr_mram (s : State) (a : Nat) (v : Word) : (wr s a v).mram = s.mram := rfl
@[simp] theorem wr_ringCount (s : State) (a : Nat) (v : Word) : (wr s a v).ringCount = s.ringCount := rfl
@[simp] theorem wr_confAt (s : State) (a : Nat) (v : Word) : (wr s a v).confAt = s.confAt := rfl
@[simp] theorem wr_hostLines (s : State) (a : Nat) (v : Word) : (wr s a v).hostLines = s.hostLines := rfl
@[simp] theorem wr_lvuWaking (s : State) (a : Nat) (v : Word) : (wr s a v).lvuWaking = s.lvuWaking := rfl
@[simp] theorem wr_lvuIdle (s : State) (a : Nat) (v : Word) : (wr s a v).lvuIdle = s.lvuIdle := rfl
@[simp] theorem wr_dots (s : State) (a : Nat) (v : Word) : (wr s a v).dots = s.dots := rfl
@[simp] theorem wr_seqs (s : State) (a : Nat) (v : Word) : (wr s a v).seqs = s.seqs := rfl
@[simp] theorem wr_reqs (s : State) (a : Nat) (v : Word) : (wr s a v).reqs = s.reqs := rfl
@[simp] theorem wr_xfers (s : State) (a : Nat) (v : Word) : (wr s a v).xfers = s.xfers := rfl
@[simp] theorem wr_nextId (s : State) (a : Nat) (v : Word) : (wr s a v).nextId = s.nextId := rfl
@[simp] theorem wr_getTiles (s : State) (a : Nat) (v : Word) : (wr s a v).getTiles = s.getTiles := rfl
@[simp] theorem wr_putTiles (s : State) (a : Nat) (v : Word) : (wr s a v).putTiles = s.putTiles := rfl
@[simp] theorem wr_gathers (s : State) (a : Nat) (v : Word) : (wr s a v).gathers = s.gathers := rfl
@[simp] theorem wr_routerIn (s : State) (a : Nat) (v : Word) : (wr s a v).routerIn = s.routerIn := rfl
@[simp] theorem wr_outq (s : State) (a : Nat) (v : Word) : (wr s a v).outq = s.outq := rfl
@[simp] theorem wr_rxq (s : State) (a : Nat) (v : Word) : (wr s a v).rxq = s.rxq := rfl
@[simp] theorem wr_slots (s : State) (a : Nat) (v : Word) : (wr s a v).slots = s.slots := rfl
@[simp] theorem wr_rcache (s : State) (a : Nat) (v : Word) : (wr s a v).rcache = s.rcache := rfl
@[simp] theorem wr_heldFlags (s : State) (a : Nat) (v : Word) : (wr s a v).heldFlags = s.heldFlags := rfl
@[simp] theorem wr_applied (s : State) (a : Nat) (v : Word) : (wr s a v).applied = s.applied := rfl
@[simp] theorem wr_winHeld (s : State) (a : Nat) (v : Word) : (wr s a v).winHeld = s.winHeld := rfl
@[simp] theorem wr_tx (s : State) (a : Nat) (v : Word) : (wr s a v).tx = s.tx := rfl
@[simp] theorem wr_hbmHeldAt (s : State) (a : Nat) (v : Word) : (wr s a v).hbmHeldAt = s.hbmHeldAt := rfl
@[simp] theorem wr_mail (s : State) (a : Nat) (v : Word) : (wr s a v).mail = s.mail := rfl
@[simp] theorem wr_colls (s : State) (a : Nat) (v : Word) : (wr s a v).colls = s.colls := rfl
@[simp] theorem wr_matchBuf (s : State) (a : Nat) (v : Word) : (wr s a v).matchBuf = s.matchBuf := rfl
@[simp] theorem wr_collEnds (s : State) (a : Nat) (v : Word) : (wr s a v).collEnds = s.collEnds := rfl
@[simp] theorem wr_slotKeys (s : State) (a : Nat) (v : Word) : (wr s a v).slotKeys = s.slotKeys := rfl
@[simp] theorem wr_ckps (s : State) (a : Nat) (v : Word) : (wr s a v).ckps = s.ckps := rfl
@[simp] theorem wr_bays (s : State) (a : Nat) (v : Word) : (wr s a v).bays = s.bays := rfl
@[simp] theorem wr_drnX (s : State) (a : Nat) (v : Word) : (wr s a v).drnX = s.drnX := rfl
@[simp] theorem wr_rings (s : State) (a : Nat) (v : Word) : (wr s a v).rings = s.rings := rfl
@[simp] theorem wr_heldRecs (s : State) (a : Nat) (v : Word) : (wr s a v).heldRecs = s.heldRecs := rfl
@[simp] theorem wr_hostLost (s : State) (a : Nat) (v : Word) : (wr s a v).hostLost = s.hostLost := rfl
@[simp] theorem wr_session (s : State) (a : Nat) (v : Word) : (wr s a v).session = s.session := rfl
@[simp] theorem wr_svus (s : State) (a : Nat) (v : Word) : (wr s a v).svus = s.svus := rfl
@[simp] theorem wr_factors (s : State) (a : Nat) (v : Word) : (wr s a v).factors = s.factors := rfl
@[simp] theorem wr_portSeen (s : State) (a : Nat) (v : Word) : (wr s a v).portSeen = s.portSeen := rfl
@[simp] theorem wr_portWant (s : State) (a : Nat) (v : Word) : (wr s a v).portWant = s.portWant := rfl
@[simp] theorem wr_portFell (s : State) (a : Nat) (v : Word) : (wr s a v).portFell = s.portFell := rfl
@[simp] theorem wr_portIdle (s : State) (a : Nat) (v : Word) : (wr s a v).portIdle = s.portIdle := rfl
@[simp] theorem wr_lostMore (s : State) (a : Nat) (v : Word) : (wr s a v).lostMore = s.lostMore := rfl
@[simp] theorem wr_alive (s : State) (a : Nat) (v : Word) : (wr s a v).alive = s.alive := rfl
@[simp] theorem wr_faultN (s : State) (a : Nat) (v : Word) : (wr s a v).faultN = s.faultN := rfl
@[simp] theorem wr_llmPend (s : State) (a : Nat) (v : Word) : (wr s a v).llmPend = s.llmPend := rfl
@[simp] theorem wr_rgl (s : State) (a : Nat) (v : Word) : (wr s a v).rgl = s.rgl := rfl
@[simp] theorem wr_rglTurn (s : State) (a : Nat) (v : Word) : (wr s a v).rglTurn = s.rglTurn := rfl
@[simp] theorem wr_arch (s : State) (a : Nat) (v : Word) : (wr s a v).arch = s.arch := rfl
@[simp] theorem wr_archTurn (s : State) (a : Nat) (v : Word) : (wr s a v).archTurn = s.archTurn := rfl
@[simp] theorem wr_archRun (s : State) (a : Nat) (v : Word) : (wr s a v).archRun = s.archRun := rfl
@[simp] theorem wr_archCred (s : State) (a : Nat) (v : Word) : (wr s a v).archCred = s.archCred := rfl
@[simp] theorem wr_llm (s : State) (a : Nat) (v : Word) : (wr s a v).llm = s.llm := rfl
@[simp] theorem wr_scLines (s : State) (a : Nat) (v : Word) : (wr s a v).scLines = s.scLines := rfl
@[simp] theorem wr_invs (s : State) (a : Nat) (v : Word) : (wr s a v).invs = s.invs := rfl
@[simp] theorem wr_chanLines (s : State) (a : Nat) (v : Word) : (wr s a v).chanLines = s.chanLines := rfl
@[simp] theorem wr_hotAt (s : State) (a : Nat) (v : Word) : (wr s a v).hotAt = s.hotAt := rfl
@[simp] theorem wr_patrol (s : State) (a : Nat) (v : Word) : (wr s a v).patrol = s.patrol := rfl
@[simp] theorem wr_ceAt (s : State) (a : Nat) (v : Word) : (wr s a v).ceAt = s.ceAt := rfl
@[simp] theorem wr_ceBase (s : State) (a : Nat) (v : Word) : (wr s a v).ceBase = s.ceBase := rfl
@[simp] theorem wr_watchAt (s : State) (a : Nat) (v : Word) : (wr s a v).watchAt = s.watchAt := rfl
@[simp] theorem wr_watchBase (s : State) (a : Nat) (v : Word) : (wr s a v).watchBase = s.watchBase := rfl
@[simp] theorem wr_i3cOff (s : State) (a : Nat) (v : Word) : (wr s a v).i3cOff = s.i3cOff := rfl
@[simp] theorem wr_imgRead (s : State) (a : Nat) (v : Word) : (wr s a v).imgRead = s.imgRead := rfl
@[simp] theorem wr_eph (s : State) (a : Nat) (v : Word) : (wr s a v).eph = s.eph := rfl
@[simp] theorem wr_report (s : State) (a : Nat) (v : Word) : (wr s a v).report = s.report := rfl
@[simp] theorem wr_admitting (s : State) (a : Nat) (v : Word) : (wr s a v).admitting = s.admitting := rfl
@[simp] theorem wr_attest (s : State) (a : Nat) (v : Word) : (wr s a v).attest = s.attest := rfl
@[simp] theorem wr_imgDigest (s : State) (a : Nat) (v : Word) : (wr s a v).imgDigest = s.imgDigest := rfl
@[simp] theorem wr_debugUsed (s : State) (a : Nat) (v : Word) : (wr s a v).debugUsed = s.debugUsed := rfl
@[simp] theorem wr_chainQ (s : State) (a : Nat) (v : Word) : (wr s a v).chainQ = s.chainQ := rfl
@[simp] theorem wr_scrubs (s : State) (a : Nat) (v : Word) : (wr s a v).scrubs = s.scrubs := rfl
@[simp] theorem wr_svnTo (s : State) (a : Nat) (v : Word) : (wr s a v).svnTo = s.svnTo := rfl
@[simp] theorem wr_ledgerAt (s : State) (a : Nat) (v : Word) : (wr s a v).ledgerAt = s.ledgerAt := rfl
@[simp] theorem wr_pwrgood (s : State) (a : Nat) (v : Word) : (wr s a v).pwrgood = s.pwrgood := rfl
@[simp] theorem wr_refOk (s : State) (a : Nat) (v : Word) : (wr s a v).refOk = s.refOk := rfl
@[simp] theorem wr_standby (s : State) (a : Nat) (v : Word) : (wr s a v).standby = s.standby := rfl
@[simp] theorem wr_startAt (s : State) (a : Nat) (v : Word) : (wr s a v).startAt = s.startAt := rfl
@[simp] theorem wr_beganAt (s : State) (a : Nat) (v : Word) : (wr s a v).beganAt = s.beganAt := rfl
@[simp] theorem wr_noImage (s : State) (a : Nat) (v : Word) : (wr s a v).noImage = s.noImage := rfl
@[simp] theorem wr_i3cTries (s : State) (a : Nat) (v : Word) : (wr s a v).i3cTries = s.i3cTries := rfl
@[simp] theorem wr_i3cWait (s : State) (a : Nat) (v : Word) : (wr s a v).i3cWait = s.i3cWait := rfl
@[simp] theorem wr_powHist (s : State) (a : Nat) (v : Word) : (wr s a v).powHist = s.powHist := rfl
@[simp] theorem wr_dutyAt (s : State) (a : Nat) (v : Word) : (wr s a v).dutyAt = s.dutyAt := rfl
@[simp] theorem wr_regimeTo (s : State) (a : Nat) (v : Word) : (wr s a v).regimeTo = s.regimeTo := rfl
@[simp] theorem wr_regimeOld (s : State) (a : Nat) (v : Word) : (wr s a v).regimeOld = s.regimeOld := rfl
@[simp] theorem wr_tapIr (s : State) (a : Nat) (v : Word) : (wr s a v).tapIr = s.tapIr := rfl
@[simp] theorem wr_free (s : State) (a : Nat) (v : Word) : (wr s a v).free = s.free := rfl

@[simp] theorem setTh_pending (s : State) (k : Nat) (t : Thread) : (setTh s k t).pending = s.pending := rfl
@[simp] theorem setTh_ltc (s : State) (k : Nat) (t : Thread) : (setTh s k t).ltc = s.ltc := rfl
@[simp] theorem setTh_ltcPhase (s : State) (k : Nat) (t : Thread) : (setTh s k t).ltcPhase = s.ltcPhase := rfl
@[simp] theorem setTh_regs (s : State) (k : Nat) (t : Thread) : (setTh s k t).regs = s.regs := rfl
@[simp] theorem setTh_frac (s : State) (k : Nat) (t : Thread) : (setTh s k t).frac = s.frac := rfl
@[simp] theorem setTh_mem (s : State) (k : Nat) (t : Thread) : (setTh s k t).mem = s.mem := rfl
@[simp] theorem setTh_undef (s : State) (k : Nat) (t : Thread) : (setTh s k t).undef = s.undef := rfl
@[simp] theorem setTh_poison (s : State) (k : Nat) (t : Thread) : (setTh s k t).poison = s.poison := rfl
@[simp] theorem setTh_symErr (s : State) (k : Nat) (t : Thread) : (setTh s k t).symErr = s.symErr := rfl
@[simp] theorem setTh_ncores (s : State) (k : Nat) (t : Thread) : (setTh s k t).ncores = s.ncores := rfl
@[simp] theorem setTh_cpes (s : State) (k : Nat) (t : Thread) : (setTh s k t).cpes = s.cpes := rfl
@[simp] theorem setTh_landing (s : State) (k : Nat) (t : Thread) : (setTh s k t).landing = s.landing := rfl
@[simp] theorem setTh_images (s : State) (k : Nat) (t : Thread) : (setTh s k t).images = s.images := rfl
@[simp] theorem setTh_faultQ (s : State) (k : Nat) (t : Thread) : (setTh s k t).faultQ = s.faultQ := rfl
@[simp] theorem setTh_traceQ (s : State) (k : Nat) (t : Thread) : (setTh s k t).traceQ = s.traceQ := rfl
@[simp] theorem setTh_tlb (s : State) (k : Nat) (t : Thread) : (setTh s k t).tlb = s.tlb := rfl
@[simp] theorem setTh_tlbInv (s : State) (k : Nat) (t : Thread) : (setTh s k t).tlbInv = s.tlbInv := rfl
@[simp] theorem setTh_hashing (s : State) (k : Nat) (t : Thread) : (setTh s k t).hashing = s.hashing := rfl
@[simp] theorem setTh_hbmHeld (s : State) (k : Nat) (t : Thread) : (setTh s k t).hbmHeld = s.hbmHeld := rfl
@[simp] theorem setTh_rowCe (s : State) (k : Nat) (t : Thread) : (setTh s k t).rowCe = s.rowCe := rfl
@[simp] theorem setTh_rowHeld (s : State) (k : Nat) (t : Thread) : (setTh s k t).rowHeld = s.rowHeld := rfl
@[simp] theorem setTh_sparesUsed (s : State) (k : Nat) (t : Thread) : (setTh s k t).sparesUsed = s.sparesUsed := rfl
@[simp] theorem setTh_mramLocked (s : State) (k : Nat) (t : Thread) : (setTh s k t).mramLocked = s.mramLocked := rfl
@[simp] theorem setTh_mram (s : State) (k : Nat) (t : Thread) : (setTh s k t).mram = s.mram := rfl
@[simp] theorem setTh_ringCount (s : State) (k : Nat) (t : Thread) : (setTh s k t).ringCount = s.ringCount := rfl
@[simp] theorem setTh_confAt (s : State) (k : Nat) (t : Thread) : (setTh s k t).confAt = s.confAt := rfl
@[simp] theorem setTh_hostLines (s : State) (k : Nat) (t : Thread) : (setTh s k t).hostLines = s.hostLines := rfl
@[simp] theorem setTh_lvuWaking (s : State) (k : Nat) (t : Thread) : (setTh s k t).lvuWaking = s.lvuWaking := rfl
@[simp] theorem setTh_lvuIdle (s : State) (k : Nat) (t : Thread) : (setTh s k t).lvuIdle = s.lvuIdle := rfl
@[simp] theorem setTh_dots (s : State) (k : Nat) (t : Thread) : (setTh s k t).dots = s.dots := rfl
@[simp] theorem setTh_seqs (s : State) (k : Nat) (t : Thread) : (setTh s k t).seqs = s.seqs := rfl
@[simp] theorem setTh_reqs (s : State) (k : Nat) (t : Thread) : (setTh s k t).reqs = s.reqs := rfl
@[simp] theorem setTh_xfers (s : State) (k : Nat) (t : Thread) : (setTh s k t).xfers = s.xfers := rfl
@[simp] theorem setTh_nextId (s : State) (k : Nat) (t : Thread) : (setTh s k t).nextId = s.nextId := rfl
@[simp] theorem setTh_getTiles (s : State) (k : Nat) (t : Thread) : (setTh s k t).getTiles = s.getTiles := rfl
@[simp] theorem setTh_putTiles (s : State) (k : Nat) (t : Thread) : (setTh s k t).putTiles = s.putTiles := rfl
@[simp] theorem setTh_gathers (s : State) (k : Nat) (t : Thread) : (setTh s k t).gathers = s.gathers := rfl
@[simp] theorem setTh_routerIn (s : State) (k : Nat) (t : Thread) : (setTh s k t).routerIn = s.routerIn := rfl
@[simp] theorem setTh_outq (s : State) (k : Nat) (t : Thread) : (setTh s k t).outq = s.outq := rfl
@[simp] theorem setTh_rxq (s : State) (k : Nat) (t : Thread) : (setTh s k t).rxq = s.rxq := rfl
@[simp] theorem setTh_slots (s : State) (k : Nat) (t : Thread) : (setTh s k t).slots = s.slots := rfl
@[simp] theorem setTh_rcache (s : State) (k : Nat) (t : Thread) : (setTh s k t).rcache = s.rcache := rfl
@[simp] theorem setTh_heldFlags (s : State) (k : Nat) (t : Thread) : (setTh s k t).heldFlags = s.heldFlags := rfl
@[simp] theorem setTh_applied (s : State) (k : Nat) (t : Thread) : (setTh s k t).applied = s.applied := rfl
@[simp] theorem setTh_winHeld (s : State) (k : Nat) (t : Thread) : (setTh s k t).winHeld = s.winHeld := rfl
@[simp] theorem setTh_tx (s : State) (k : Nat) (t : Thread) : (setTh s k t).tx = s.tx := rfl
@[simp] theorem setTh_hbmHeldAt (s : State) (k : Nat) (t : Thread) : (setTh s k t).hbmHeldAt = s.hbmHeldAt := rfl
@[simp] theorem setTh_mail (s : State) (k : Nat) (t : Thread) : (setTh s k t).mail = s.mail := rfl
@[simp] theorem setTh_colls (s : State) (k : Nat) (t : Thread) : (setTh s k t).colls = s.colls := rfl
@[simp] theorem setTh_matchBuf (s : State) (k : Nat) (t : Thread) : (setTh s k t).matchBuf = s.matchBuf := rfl
@[simp] theorem setTh_collEnds (s : State) (k : Nat) (t : Thread) : (setTh s k t).collEnds = s.collEnds := rfl
@[simp] theorem setTh_slotKeys (s : State) (k : Nat) (t : Thread) : (setTh s k t).slotKeys = s.slotKeys := rfl
@[simp] theorem setTh_ckps (s : State) (k : Nat) (t : Thread) : (setTh s k t).ckps = s.ckps := rfl
@[simp] theorem setTh_bays (s : State) (k : Nat) (t : Thread) : (setTh s k t).bays = s.bays := rfl
@[simp] theorem setTh_drnX (s : State) (k : Nat) (t : Thread) : (setTh s k t).drnX = s.drnX := rfl
@[simp] theorem setTh_rings (s : State) (k : Nat) (t : Thread) : (setTh s k t).rings = s.rings := rfl
@[simp] theorem setTh_heldRecs (s : State) (k : Nat) (t : Thread) : (setTh s k t).heldRecs = s.heldRecs := rfl
@[simp] theorem setTh_hostLost (s : State) (k : Nat) (t : Thread) : (setTh s k t).hostLost = s.hostLost := rfl
@[simp] theorem setTh_session (s : State) (k : Nat) (t : Thread) : (setTh s k t).session = s.session := rfl
@[simp] theorem setTh_svus (s : State) (k : Nat) (t : Thread) : (setTh s k t).svus = s.svus := rfl
@[simp] theorem setTh_factors (s : State) (k : Nat) (t : Thread) : (setTh s k t).factors = s.factors := rfl
@[simp] theorem setTh_portSeen (s : State) (k : Nat) (t : Thread) : (setTh s k t).portSeen = s.portSeen := rfl
@[simp] theorem setTh_portWant (s : State) (k : Nat) (t : Thread) : (setTh s k t).portWant = s.portWant := rfl
@[simp] theorem setTh_portFell (s : State) (k : Nat) (t : Thread) : (setTh s k t).portFell = s.portFell := rfl
@[simp] theorem setTh_portIdle (s : State) (k : Nat) (t : Thread) : (setTh s k t).portIdle = s.portIdle := rfl
@[simp] theorem setTh_lostMore (s : State) (k : Nat) (t : Thread) : (setTh s k t).lostMore = s.lostMore := rfl
@[simp] theorem setTh_alive (s : State) (k : Nat) (t : Thread) : (setTh s k t).alive = s.alive := rfl
@[simp] theorem setTh_faultN (s : State) (k : Nat) (t : Thread) : (setTh s k t).faultN = s.faultN := rfl
@[simp] theorem setTh_llmPend (s : State) (k : Nat) (t : Thread) : (setTh s k t).llmPend = s.llmPend := rfl
@[simp] theorem setTh_rgl (s : State) (k : Nat) (t : Thread) : (setTh s k t).rgl = s.rgl := rfl
@[simp] theorem setTh_rglTurn (s : State) (k : Nat) (t : Thread) : (setTh s k t).rglTurn = s.rglTurn := rfl
@[simp] theorem setTh_arch (s : State) (k : Nat) (t : Thread) : (setTh s k t).arch = s.arch := rfl
@[simp] theorem setTh_archTurn (s : State) (k : Nat) (t : Thread) : (setTh s k t).archTurn = s.archTurn := rfl
@[simp] theorem setTh_archRun (s : State) (k : Nat) (t : Thread) : (setTh s k t).archRun = s.archRun := rfl
@[simp] theorem setTh_archCred (s : State) (k : Nat) (t : Thread) : (setTh s k t).archCred = s.archCred := rfl
@[simp] theorem setTh_llm (s : State) (k : Nat) (t : Thread) : (setTh s k t).llm = s.llm := rfl
@[simp] theorem setTh_scLines (s : State) (k : Nat) (t : Thread) : (setTh s k t).scLines = s.scLines := rfl
@[simp] theorem setTh_invs (s : State) (k : Nat) (t : Thread) : (setTh s k t).invs = s.invs := rfl
@[simp] theorem setTh_chanLines (s : State) (k : Nat) (t : Thread) : (setTh s k t).chanLines = s.chanLines := rfl
@[simp] theorem setTh_hotAt (s : State) (k : Nat) (t : Thread) : (setTh s k t).hotAt = s.hotAt := rfl
@[simp] theorem setTh_patrol (s : State) (k : Nat) (t : Thread) : (setTh s k t).patrol = s.patrol := rfl
@[simp] theorem setTh_ceAt (s : State) (k : Nat) (t : Thread) : (setTh s k t).ceAt = s.ceAt := rfl
@[simp] theorem setTh_ceBase (s : State) (k : Nat) (t : Thread) : (setTh s k t).ceBase = s.ceBase := rfl
@[simp] theorem setTh_watchAt (s : State) (k : Nat) (t : Thread) : (setTh s k t).watchAt = s.watchAt := rfl
@[simp] theorem setTh_watchBase (s : State) (k : Nat) (t : Thread) : (setTh s k t).watchBase = s.watchBase := rfl
@[simp] theorem setTh_i3cOff (s : State) (k : Nat) (t : Thread) : (setTh s k t).i3cOff = s.i3cOff := rfl
@[simp] theorem setTh_imgRead (s : State) (k : Nat) (t : Thread) : (setTh s k t).imgRead = s.imgRead := rfl
@[simp] theorem setTh_eph (s : State) (k : Nat) (t : Thread) : (setTh s k t).eph = s.eph := rfl
@[simp] theorem setTh_report (s : State) (k : Nat) (t : Thread) : (setTh s k t).report = s.report := rfl
@[simp] theorem setTh_admitting (s : State) (k : Nat) (t : Thread) : (setTh s k t).admitting = s.admitting := rfl
@[simp] theorem setTh_attest (s : State) (k : Nat) (t : Thread) : (setTh s k t).attest = s.attest := rfl
@[simp] theorem setTh_imgDigest (s : State) (k : Nat) (t : Thread) : (setTh s k t).imgDigest = s.imgDigest := rfl
@[simp] theorem setTh_debugUsed (s : State) (k : Nat) (t : Thread) : (setTh s k t).debugUsed = s.debugUsed := rfl
@[simp] theorem setTh_chainQ (s : State) (k : Nat) (t : Thread) : (setTh s k t).chainQ = s.chainQ := rfl
@[simp] theorem setTh_scrubs (s : State) (k : Nat) (t : Thread) : (setTh s k t).scrubs = s.scrubs := rfl
@[simp] theorem setTh_svnTo (s : State) (k : Nat) (t : Thread) : (setTh s k t).svnTo = s.svnTo := rfl
@[simp] theorem setTh_ledgerAt (s : State) (k : Nat) (t : Thread) : (setTh s k t).ledgerAt = s.ledgerAt := rfl
@[simp] theorem setTh_pwrgood (s : State) (k : Nat) (t : Thread) : (setTh s k t).pwrgood = s.pwrgood := rfl
@[simp] theorem setTh_refOk (s : State) (k : Nat) (t : Thread) : (setTh s k t).refOk = s.refOk := rfl
@[simp] theorem setTh_standby (s : State) (k : Nat) (t : Thread) : (setTh s k t).standby = s.standby := rfl
@[simp] theorem setTh_startAt (s : State) (k : Nat) (t : Thread) : (setTh s k t).startAt = s.startAt := rfl
@[simp] theorem setTh_beganAt (s : State) (k : Nat) (t : Thread) : (setTh s k t).beganAt = s.beganAt := rfl
@[simp] theorem setTh_noImage (s : State) (k : Nat) (t : Thread) : (setTh s k t).noImage = s.noImage := rfl
@[simp] theorem setTh_i3cTries (s : State) (k : Nat) (t : Thread) : (setTh s k t).i3cTries = s.i3cTries := rfl
@[simp] theorem setTh_i3cWait (s : State) (k : Nat) (t : Thread) : (setTh s k t).i3cWait = s.i3cWait := rfl
@[simp] theorem setTh_powHist (s : State) (k : Nat) (t : Thread) : (setTh s k t).powHist = s.powHist := rfl
@[simp] theorem setTh_dutyAt (s : State) (k : Nat) (t : Thread) : (setTh s k t).dutyAt = s.dutyAt := rfl
@[simp] theorem setTh_regimeTo (s : State) (k : Nat) (t : Thread) : (setTh s k t).regimeTo = s.regimeTo := rfl
@[simp] theorem setTh_regimeOld (s : State) (k : Nat) (t : Thread) : (setTh s k t).regimeOld = s.regimeOld := rfl
@[simp] theorem setTh_tapIr (s : State) (k : Nat) (t : Thread) : (setTh s k t).tapIr = s.tapIr := rfl
@[simp] theorem setTh_free (s : State) (k : Nat) (t : Thread) : (setTh s k t).free = s.free := rfl

@[simp] theorem setNc_pending (s : State) (k : Nat) (n : NCore) : (setNc s k n).pending = s.pending := rfl
@[simp] theorem setNc_ltc (s : State) (k : Nat) (n : NCore) : (setNc s k n).ltc = s.ltc := rfl
@[simp] theorem setNc_ltcPhase (s : State) (k : Nat) (n : NCore) : (setNc s k n).ltcPhase = s.ltcPhase := rfl
@[simp] theorem setNc_regs (s : State) (k : Nat) (n : NCore) : (setNc s k n).regs = s.regs := rfl
@[simp] theorem setNc_frac (s : State) (k : Nat) (n : NCore) : (setNc s k n).frac = s.frac := rfl
@[simp] theorem setNc_mem (s : State) (k : Nat) (n : NCore) : (setNc s k n).mem = s.mem := rfl
@[simp] theorem setNc_undef (s : State) (k : Nat) (n : NCore) : (setNc s k n).undef = s.undef := rfl
@[simp] theorem setNc_poison (s : State) (k : Nat) (n : NCore) : (setNc s k n).poison = s.poison := rfl
@[simp] theorem setNc_symErr (s : State) (k : Nat) (n : NCore) : (setNc s k n).symErr = s.symErr := rfl
@[simp] theorem setNc_threads (s : State) (k : Nat) (n : NCore) : (setNc s k n).threads = s.threads := rfl
@[simp] theorem setNc_cpes (s : State) (k : Nat) (n : NCore) : (setNc s k n).cpes = s.cpes := rfl
@[simp] theorem setNc_landing (s : State) (k : Nat) (n : NCore) : (setNc s k n).landing = s.landing := rfl
@[simp] theorem setNc_images (s : State) (k : Nat) (n : NCore) : (setNc s k n).images = s.images := rfl
@[simp] theorem setNc_faultQ (s : State) (k : Nat) (n : NCore) : (setNc s k n).faultQ = s.faultQ := rfl
@[simp] theorem setNc_traceQ (s : State) (k : Nat) (n : NCore) : (setNc s k n).traceQ = s.traceQ := rfl
@[simp] theorem setNc_tlb (s : State) (k : Nat) (n : NCore) : (setNc s k n).tlb = s.tlb := rfl
@[simp] theorem setNc_tlbInv (s : State) (k : Nat) (n : NCore) : (setNc s k n).tlbInv = s.tlbInv := rfl
@[simp] theorem setNc_hashing (s : State) (k : Nat) (n : NCore) : (setNc s k n).hashing = s.hashing := rfl
@[simp] theorem setNc_hbmHeld (s : State) (k : Nat) (n : NCore) : (setNc s k n).hbmHeld = s.hbmHeld := rfl
@[simp] theorem setNc_rowCe (s : State) (k : Nat) (n : NCore) : (setNc s k n).rowCe = s.rowCe := rfl
@[simp] theorem setNc_rowHeld (s : State) (k : Nat) (n : NCore) : (setNc s k n).rowHeld = s.rowHeld := rfl
@[simp] theorem setNc_sparesUsed (s : State) (k : Nat) (n : NCore) : (setNc s k n).sparesUsed = s.sparesUsed := rfl
@[simp] theorem setNc_mramLocked (s : State) (k : Nat) (n : NCore) : (setNc s k n).mramLocked = s.mramLocked := rfl
@[simp] theorem setNc_mram (s : State) (k : Nat) (n : NCore) : (setNc s k n).mram = s.mram := rfl
@[simp] theorem setNc_ringCount (s : State) (k : Nat) (n : NCore) : (setNc s k n).ringCount = s.ringCount := rfl
@[simp] theorem setNc_confAt (s : State) (k : Nat) (n : NCore) : (setNc s k n).confAt = s.confAt := rfl
@[simp] theorem setNc_hostLines (s : State) (k : Nat) (n : NCore) : (setNc s k n).hostLines = s.hostLines := rfl
@[simp] theorem setNc_lvuWaking (s : State) (k : Nat) (n : NCore) : (setNc s k n).lvuWaking = s.lvuWaking := rfl
@[simp] theorem setNc_lvuIdle (s : State) (k : Nat) (n : NCore) : (setNc s k n).lvuIdle = s.lvuIdle := rfl
@[simp] theorem setNc_dots (s : State) (k : Nat) (n : NCore) : (setNc s k n).dots = s.dots := rfl
@[simp] theorem setNc_seqs (s : State) (k : Nat) (n : NCore) : (setNc s k n).seqs = s.seqs := rfl
@[simp] theorem setNc_reqs (s : State) (k : Nat) (n : NCore) : (setNc s k n).reqs = s.reqs := rfl
@[simp] theorem setNc_xfers (s : State) (k : Nat) (n : NCore) : (setNc s k n).xfers = s.xfers := rfl
@[simp] theorem setNc_nextId (s : State) (k : Nat) (n : NCore) : (setNc s k n).nextId = s.nextId := rfl
@[simp] theorem setNc_getTiles (s : State) (k : Nat) (n : NCore) : (setNc s k n).getTiles = s.getTiles := rfl
@[simp] theorem setNc_putTiles (s : State) (k : Nat) (n : NCore) : (setNc s k n).putTiles = s.putTiles := rfl
@[simp] theorem setNc_gathers (s : State) (k : Nat) (n : NCore) : (setNc s k n).gathers = s.gathers := rfl
@[simp] theorem setNc_routerIn (s : State) (k : Nat) (n : NCore) : (setNc s k n).routerIn = s.routerIn := rfl
@[simp] theorem setNc_outq (s : State) (k : Nat) (n : NCore) : (setNc s k n).outq = s.outq := rfl
@[simp] theorem setNc_rxq (s : State) (k : Nat) (n : NCore) : (setNc s k n).rxq = s.rxq := rfl
@[simp] theorem setNc_slots (s : State) (k : Nat) (n : NCore) : (setNc s k n).slots = s.slots := rfl
@[simp] theorem setNc_rcache (s : State) (k : Nat) (n : NCore) : (setNc s k n).rcache = s.rcache := rfl
@[simp] theorem setNc_heldFlags (s : State) (k : Nat) (n : NCore) : (setNc s k n).heldFlags = s.heldFlags := rfl
@[simp] theorem setNc_applied (s : State) (k : Nat) (n : NCore) : (setNc s k n).applied = s.applied := rfl
@[simp] theorem setNc_winHeld (s : State) (k : Nat) (n : NCore) : (setNc s k n).winHeld = s.winHeld := rfl
@[simp] theorem setNc_tx (s : State) (k : Nat) (n : NCore) : (setNc s k n).tx = s.tx := rfl
@[simp] theorem setNc_hbmHeldAt (s : State) (k : Nat) (n : NCore) : (setNc s k n).hbmHeldAt = s.hbmHeldAt := rfl
@[simp] theorem setNc_mail (s : State) (k : Nat) (n : NCore) : (setNc s k n).mail = s.mail := rfl
@[simp] theorem setNc_colls (s : State) (k : Nat) (n : NCore) : (setNc s k n).colls = s.colls := rfl
@[simp] theorem setNc_matchBuf (s : State) (k : Nat) (n : NCore) : (setNc s k n).matchBuf = s.matchBuf := rfl
@[simp] theorem setNc_collEnds (s : State) (k : Nat) (n : NCore) : (setNc s k n).collEnds = s.collEnds := rfl
@[simp] theorem setNc_slotKeys (s : State) (k : Nat) (n : NCore) : (setNc s k n).slotKeys = s.slotKeys := rfl
@[simp] theorem setNc_ckps (s : State) (k : Nat) (n : NCore) : (setNc s k n).ckps = s.ckps := rfl
@[simp] theorem setNc_bays (s : State) (k : Nat) (n : NCore) : (setNc s k n).bays = s.bays := rfl
@[simp] theorem setNc_drnX (s : State) (k : Nat) (n : NCore) : (setNc s k n).drnX = s.drnX := rfl
@[simp] theorem setNc_rings (s : State) (k : Nat) (n : NCore) : (setNc s k n).rings = s.rings := rfl
@[simp] theorem setNc_heldRecs (s : State) (k : Nat) (n : NCore) : (setNc s k n).heldRecs = s.heldRecs := rfl
@[simp] theorem setNc_hostLost (s : State) (k : Nat) (n : NCore) : (setNc s k n).hostLost = s.hostLost := rfl
@[simp] theorem setNc_session (s : State) (k : Nat) (n : NCore) : (setNc s k n).session = s.session := rfl
@[simp] theorem setNc_svus (s : State) (k : Nat) (n : NCore) : (setNc s k n).svus = s.svus := rfl
@[simp] theorem setNc_factors (s : State) (k : Nat) (n : NCore) : (setNc s k n).factors = s.factors := rfl
@[simp] theorem setNc_portSeen (s : State) (k : Nat) (n : NCore) : (setNc s k n).portSeen = s.portSeen := rfl
@[simp] theorem setNc_portWant (s : State) (k : Nat) (n : NCore) : (setNc s k n).portWant = s.portWant := rfl
@[simp] theorem setNc_portFell (s : State) (k : Nat) (n : NCore) : (setNc s k n).portFell = s.portFell := rfl
@[simp] theorem setNc_portIdle (s : State) (k : Nat) (n : NCore) : (setNc s k n).portIdle = s.portIdle := rfl
@[simp] theorem setNc_lostMore (s : State) (k : Nat) (n : NCore) : (setNc s k n).lostMore = s.lostMore := rfl
@[simp] theorem setNc_alive (s : State) (k : Nat) (n : NCore) : (setNc s k n).alive = s.alive := rfl
@[simp] theorem setNc_faultN (s : State) (k : Nat) (n : NCore) : (setNc s k n).faultN = s.faultN := rfl
@[simp] theorem setNc_llmPend (s : State) (k : Nat) (n : NCore) : (setNc s k n).llmPend = s.llmPend := rfl
@[simp] theorem setNc_rgl (s : State) (k : Nat) (n : NCore) : (setNc s k n).rgl = s.rgl := rfl
@[simp] theorem setNc_rglTurn (s : State) (k : Nat) (n : NCore) : (setNc s k n).rglTurn = s.rglTurn := rfl
@[simp] theorem setNc_arch (s : State) (k : Nat) (n : NCore) : (setNc s k n).arch = s.arch := rfl
@[simp] theorem setNc_archTurn (s : State) (k : Nat) (n : NCore) : (setNc s k n).archTurn = s.archTurn := rfl
@[simp] theorem setNc_archRun (s : State) (k : Nat) (n : NCore) : (setNc s k n).archRun = s.archRun := rfl
@[simp] theorem setNc_archCred (s : State) (k : Nat) (n : NCore) : (setNc s k n).archCred = s.archCred := rfl
@[simp] theorem setNc_llm (s : State) (k : Nat) (n : NCore) : (setNc s k n).llm = s.llm := rfl
@[simp] theorem setNc_scLines (s : State) (k : Nat) (n : NCore) : (setNc s k n).scLines = s.scLines := rfl
@[simp] theorem setNc_invs (s : State) (k : Nat) (n : NCore) : (setNc s k n).invs = s.invs := rfl
@[simp] theorem setNc_chanLines (s : State) (k : Nat) (n : NCore) : (setNc s k n).chanLines = s.chanLines := rfl
@[simp] theorem setNc_hotAt (s : State) (k : Nat) (n : NCore) : (setNc s k n).hotAt = s.hotAt := rfl
@[simp] theorem setNc_patrol (s : State) (k : Nat) (n : NCore) : (setNc s k n).patrol = s.patrol := rfl
@[simp] theorem setNc_ceAt (s : State) (k : Nat) (n : NCore) : (setNc s k n).ceAt = s.ceAt := rfl
@[simp] theorem setNc_ceBase (s : State) (k : Nat) (n : NCore) : (setNc s k n).ceBase = s.ceBase := rfl
@[simp] theorem setNc_watchAt (s : State) (k : Nat) (n : NCore) : (setNc s k n).watchAt = s.watchAt := rfl
@[simp] theorem setNc_watchBase (s : State) (k : Nat) (n : NCore) : (setNc s k n).watchBase = s.watchBase := rfl
@[simp] theorem setNc_i3cOff (s : State) (k : Nat) (n : NCore) : (setNc s k n).i3cOff = s.i3cOff := rfl
@[simp] theorem setNc_imgRead (s : State) (k : Nat) (n : NCore) : (setNc s k n).imgRead = s.imgRead := rfl
@[simp] theorem setNc_eph (s : State) (k : Nat) (n : NCore) : (setNc s k n).eph = s.eph := rfl
@[simp] theorem setNc_report (s : State) (k : Nat) (n : NCore) : (setNc s k n).report = s.report := rfl
@[simp] theorem setNc_admitting (s : State) (k : Nat) (n : NCore) : (setNc s k n).admitting = s.admitting := rfl
@[simp] theorem setNc_attest (s : State) (k : Nat) (n : NCore) : (setNc s k n).attest = s.attest := rfl
@[simp] theorem setNc_imgDigest (s : State) (k : Nat) (n : NCore) : (setNc s k n).imgDigest = s.imgDigest := rfl
@[simp] theorem setNc_debugUsed (s : State) (k : Nat) (n : NCore) : (setNc s k n).debugUsed = s.debugUsed := rfl
@[simp] theorem setNc_chainQ (s : State) (k : Nat) (n : NCore) : (setNc s k n).chainQ = s.chainQ := rfl
@[simp] theorem setNc_scrubs (s : State) (k : Nat) (n : NCore) : (setNc s k n).scrubs = s.scrubs := rfl
@[simp] theorem setNc_svnTo (s : State) (k : Nat) (n : NCore) : (setNc s k n).svnTo = s.svnTo := rfl
@[simp] theorem setNc_ledgerAt (s : State) (k : Nat) (n : NCore) : (setNc s k n).ledgerAt = s.ledgerAt := rfl
@[simp] theorem setNc_pwrgood (s : State) (k : Nat) (n : NCore) : (setNc s k n).pwrgood = s.pwrgood := rfl
@[simp] theorem setNc_refOk (s : State) (k : Nat) (n : NCore) : (setNc s k n).refOk = s.refOk := rfl
@[simp] theorem setNc_standby (s : State) (k : Nat) (n : NCore) : (setNc s k n).standby = s.standby := rfl
@[simp] theorem setNc_startAt (s : State) (k : Nat) (n : NCore) : (setNc s k n).startAt = s.startAt := rfl
@[simp] theorem setNc_beganAt (s : State) (k : Nat) (n : NCore) : (setNc s k n).beganAt = s.beganAt := rfl
@[simp] theorem setNc_noImage (s : State) (k : Nat) (n : NCore) : (setNc s k n).noImage = s.noImage := rfl
@[simp] theorem setNc_i3cTries (s : State) (k : Nat) (n : NCore) : (setNc s k n).i3cTries = s.i3cTries := rfl
@[simp] theorem setNc_i3cWait (s : State) (k : Nat) (n : NCore) : (setNc s k n).i3cWait = s.i3cWait := rfl
@[simp] theorem setNc_powHist (s : State) (k : Nat) (n : NCore) : (setNc s k n).powHist = s.powHist := rfl
@[simp] theorem setNc_dutyAt (s : State) (k : Nat) (n : NCore) : (setNc s k n).dutyAt = s.dutyAt := rfl
@[simp] theorem setNc_regimeTo (s : State) (k : Nat) (n : NCore) : (setNc s k n).regimeTo = s.regimeTo := rfl
@[simp] theorem setNc_regimeOld (s : State) (k : Nat) (n : NCore) : (setNc s k n).regimeOld = s.regimeOld := rfl
@[simp] theorem setNc_tapIr (s : State) (k : Nat) (n : NCore) : (setNc s k n).tapIr = s.tapIr := rfl
@[simp] theorem setNc_free (s : State) (k : Nat) (n : NCore) : (setNc s k n).free = s.free := rfl

@[simp] theorem memPut_pending (s : State) (a : Nat) (bs : List Byte) : (memPut s a bs).pending = s.pending := rfl
@[simp] theorem memPut_ltc (s : State) (a : Nat) (bs : List Byte) : (memPut s a bs).ltc = s.ltc := rfl
@[simp] theorem memPut_ltcPhase (s : State) (a : Nat) (bs : List Byte) : (memPut s a bs).ltcPhase = s.ltcPhase := rfl
@[simp] theorem memPut_regs (s : State) (a : Nat) (bs : List Byte) : (memPut s a bs).regs = s.regs := rfl
@[simp] theorem memPut_frac (s : State) (a : Nat) (bs : List Byte) : (memPut s a bs).frac = s.frac := rfl
@[simp] theorem memPut_poison (s : State) (a : Nat) (bs : List Byte) : (memPut s a bs).poison = s.poison := rfl
@[simp] theorem memPut_symErr (s : State) (a : Nat) (bs : List Byte) : (memPut s a bs).symErr = s.symErr := rfl
@[simp] theorem memPut_threads (s : State) (a : Nat) (bs : List Byte) : (memPut s a bs).threads = s.threads := rfl
@[simp] theorem memPut_ncores (s : State) (a : Nat) (bs : List Byte) : (memPut s a bs).ncores = s.ncores := rfl
@[simp] theorem memPut_cpes (s : State) (a : Nat) (bs : List Byte) : (memPut s a bs).cpes = s.cpes := rfl
@[simp] theorem memPut_landing (s : State) (a : Nat) (bs : List Byte) : (memPut s a bs).landing = s.landing := rfl
@[simp] theorem memPut_images (s : State) (a : Nat) (bs : List Byte) : (memPut s a bs).images = s.images := rfl
@[simp] theorem memPut_faultQ (s : State) (a : Nat) (bs : List Byte) : (memPut s a bs).faultQ = s.faultQ := rfl
@[simp] theorem memPut_traceQ (s : State) (a : Nat) (bs : List Byte) : (memPut s a bs).traceQ = s.traceQ := rfl
@[simp] theorem memPut_tlb (s : State) (a : Nat) (bs : List Byte) : (memPut s a bs).tlb = s.tlb := rfl
@[simp] theorem memPut_tlbInv (s : State) (a : Nat) (bs : List Byte) : (memPut s a bs).tlbInv = s.tlbInv := rfl
@[simp] theorem memPut_hashing (s : State) (a : Nat) (bs : List Byte) : (memPut s a bs).hashing = s.hashing := rfl
@[simp] theorem memPut_hbmHeld (s : State) (a : Nat) (bs : List Byte) : (memPut s a bs).hbmHeld = s.hbmHeld := rfl
@[simp] theorem memPut_rowCe (s : State) (a : Nat) (bs : List Byte) : (memPut s a bs).rowCe = s.rowCe := rfl
@[simp] theorem memPut_rowHeld (s : State) (a : Nat) (bs : List Byte) : (memPut s a bs).rowHeld = s.rowHeld := rfl
@[simp] theorem memPut_sparesUsed (s : State) (a : Nat) (bs : List Byte) : (memPut s a bs).sparesUsed = s.sparesUsed := rfl
@[simp] theorem memPut_mramLocked (s : State) (a : Nat) (bs : List Byte) : (memPut s a bs).mramLocked = s.mramLocked := rfl
@[simp] theorem memPut_mram (s : State) (a : Nat) (bs : List Byte) : (memPut s a bs).mram = s.mram := rfl
@[simp] theorem memPut_ringCount (s : State) (a : Nat) (bs : List Byte) : (memPut s a bs).ringCount = s.ringCount := rfl
@[simp] theorem memPut_confAt (s : State) (a : Nat) (bs : List Byte) : (memPut s a bs).confAt = s.confAt := rfl
@[simp] theorem memPut_hostLines (s : State) (a : Nat) (bs : List Byte) : (memPut s a bs).hostLines = s.hostLines := rfl
@[simp] theorem memPut_lvuWaking (s : State) (a : Nat) (bs : List Byte) : (memPut s a bs).lvuWaking = s.lvuWaking := rfl
@[simp] theorem memPut_lvuIdle (s : State) (a : Nat) (bs : List Byte) : (memPut s a bs).lvuIdle = s.lvuIdle := rfl
@[simp] theorem memPut_dots (s : State) (a : Nat) (bs : List Byte) : (memPut s a bs).dots = s.dots := rfl
@[simp] theorem memPut_seqs (s : State) (a : Nat) (bs : List Byte) : (memPut s a bs).seqs = s.seqs := rfl
@[simp] theorem memPut_reqs (s : State) (a : Nat) (bs : List Byte) : (memPut s a bs).reqs = s.reqs := rfl
@[simp] theorem memPut_xfers (s : State) (a : Nat) (bs : List Byte) : (memPut s a bs).xfers = s.xfers := rfl
@[simp] theorem memPut_nextId (s : State) (a : Nat) (bs : List Byte) : (memPut s a bs).nextId = s.nextId := rfl
@[simp] theorem memPut_getTiles (s : State) (a : Nat) (bs : List Byte) : (memPut s a bs).getTiles = s.getTiles := rfl
@[simp] theorem memPut_putTiles (s : State) (a : Nat) (bs : List Byte) : (memPut s a bs).putTiles = s.putTiles := rfl
@[simp] theorem memPut_gathers (s : State) (a : Nat) (bs : List Byte) : (memPut s a bs).gathers = s.gathers := rfl
@[simp] theorem memPut_routerIn (s : State) (a : Nat) (bs : List Byte) : (memPut s a bs).routerIn = s.routerIn := rfl
@[simp] theorem memPut_outq (s : State) (a : Nat) (bs : List Byte) : (memPut s a bs).outq = s.outq := rfl
@[simp] theorem memPut_rxq (s : State) (a : Nat) (bs : List Byte) : (memPut s a bs).rxq = s.rxq := rfl
@[simp] theorem memPut_slots (s : State) (a : Nat) (bs : List Byte) : (memPut s a bs).slots = s.slots := rfl
@[simp] theorem memPut_rcache (s : State) (a : Nat) (bs : List Byte) : (memPut s a bs).rcache = s.rcache := rfl
@[simp] theorem memPut_heldFlags (s : State) (a : Nat) (bs : List Byte) : (memPut s a bs).heldFlags = s.heldFlags := rfl
@[simp] theorem memPut_applied (s : State) (a : Nat) (bs : List Byte) : (memPut s a bs).applied = s.applied := rfl
@[simp] theorem memPut_winHeld (s : State) (a : Nat) (bs : List Byte) : (memPut s a bs).winHeld = s.winHeld := rfl
@[simp] theorem memPut_tx (s : State) (a : Nat) (bs : List Byte) : (memPut s a bs).tx = s.tx := rfl
@[simp] theorem memPut_hbmHeldAt (s : State) (a : Nat) (bs : List Byte) : (memPut s a bs).hbmHeldAt = s.hbmHeldAt := rfl
@[simp] theorem memPut_mail (s : State) (a : Nat) (bs : List Byte) : (memPut s a bs).mail = s.mail := rfl
@[simp] theorem memPut_colls (s : State) (a : Nat) (bs : List Byte) : (memPut s a bs).colls = s.colls := rfl
@[simp] theorem memPut_matchBuf (s : State) (a : Nat) (bs : List Byte) : (memPut s a bs).matchBuf = s.matchBuf := rfl
@[simp] theorem memPut_collEnds (s : State) (a : Nat) (bs : List Byte) : (memPut s a bs).collEnds = s.collEnds := rfl
@[simp] theorem memPut_slotKeys (s : State) (a : Nat) (bs : List Byte) : (memPut s a bs).slotKeys = s.slotKeys := rfl
@[simp] theorem memPut_ckps (s : State) (a : Nat) (bs : List Byte) : (memPut s a bs).ckps = s.ckps := rfl
@[simp] theorem memPut_bays (s : State) (a : Nat) (bs : List Byte) : (memPut s a bs).bays = s.bays := rfl
@[simp] theorem memPut_drnX (s : State) (a : Nat) (bs : List Byte) : (memPut s a bs).drnX = s.drnX := rfl
@[simp] theorem memPut_rings (s : State) (a : Nat) (bs : List Byte) : (memPut s a bs).rings = s.rings := rfl
@[simp] theorem memPut_heldRecs (s : State) (a : Nat) (bs : List Byte) : (memPut s a bs).heldRecs = s.heldRecs := rfl
@[simp] theorem memPut_hostLost (s : State) (a : Nat) (bs : List Byte) : (memPut s a bs).hostLost = s.hostLost := rfl
@[simp] theorem memPut_session (s : State) (a : Nat) (bs : List Byte) : (memPut s a bs).session = s.session := rfl
@[simp] theorem memPut_svus (s : State) (a : Nat) (bs : List Byte) : (memPut s a bs).svus = s.svus := rfl
@[simp] theorem memPut_factors (s : State) (a : Nat) (bs : List Byte) : (memPut s a bs).factors = s.factors := rfl
@[simp] theorem memPut_portSeen (s : State) (a : Nat) (bs : List Byte) : (memPut s a bs).portSeen = s.portSeen := rfl
@[simp] theorem memPut_portWant (s : State) (a : Nat) (bs : List Byte) : (memPut s a bs).portWant = s.portWant := rfl
@[simp] theorem memPut_portFell (s : State) (a : Nat) (bs : List Byte) : (memPut s a bs).portFell = s.portFell := rfl
@[simp] theorem memPut_portIdle (s : State) (a : Nat) (bs : List Byte) : (memPut s a bs).portIdle = s.portIdle := rfl
@[simp] theorem memPut_lostMore (s : State) (a : Nat) (bs : List Byte) : (memPut s a bs).lostMore = s.lostMore := rfl
@[simp] theorem memPut_alive (s : State) (a : Nat) (bs : List Byte) : (memPut s a bs).alive = s.alive := rfl
@[simp] theorem memPut_faultN (s : State) (a : Nat) (bs : List Byte) : (memPut s a bs).faultN = s.faultN := rfl
@[simp] theorem memPut_llmPend (s : State) (a : Nat) (bs : List Byte) : (memPut s a bs).llmPend = s.llmPend := rfl
@[simp] theorem memPut_rgl (s : State) (a : Nat) (bs : List Byte) : (memPut s a bs).rgl = s.rgl := rfl
@[simp] theorem memPut_rglTurn (s : State) (a : Nat) (bs : List Byte) : (memPut s a bs).rglTurn = s.rglTurn := rfl
@[simp] theorem memPut_arch (s : State) (a : Nat) (bs : List Byte) : (memPut s a bs).arch = s.arch := rfl
@[simp] theorem memPut_archTurn (s : State) (a : Nat) (bs : List Byte) : (memPut s a bs).archTurn = s.archTurn := rfl
@[simp] theorem memPut_archRun (s : State) (a : Nat) (bs : List Byte) : (memPut s a bs).archRun = s.archRun := rfl
@[simp] theorem memPut_archCred (s : State) (a : Nat) (bs : List Byte) : (memPut s a bs).archCred = s.archCred := rfl
@[simp] theorem memPut_llm (s : State) (a : Nat) (bs : List Byte) : (memPut s a bs).llm = s.llm := rfl
@[simp] theorem memPut_scLines (s : State) (a : Nat) (bs : List Byte) : (memPut s a bs).scLines = s.scLines := rfl
@[simp] theorem memPut_invs (s : State) (a : Nat) (bs : List Byte) : (memPut s a bs).invs = s.invs := rfl
@[simp] theorem memPut_chanLines (s : State) (a : Nat) (bs : List Byte) : (memPut s a bs).chanLines = s.chanLines := rfl
@[simp] theorem memPut_hotAt (s : State) (a : Nat) (bs : List Byte) : (memPut s a bs).hotAt = s.hotAt := rfl
@[simp] theorem memPut_patrol (s : State) (a : Nat) (bs : List Byte) : (memPut s a bs).patrol = s.patrol := rfl
@[simp] theorem memPut_ceAt (s : State) (a : Nat) (bs : List Byte) : (memPut s a bs).ceAt = s.ceAt := rfl
@[simp] theorem memPut_ceBase (s : State) (a : Nat) (bs : List Byte) : (memPut s a bs).ceBase = s.ceBase := rfl
@[simp] theorem memPut_watchAt (s : State) (a : Nat) (bs : List Byte) : (memPut s a bs).watchAt = s.watchAt := rfl
@[simp] theorem memPut_watchBase (s : State) (a : Nat) (bs : List Byte) : (memPut s a bs).watchBase = s.watchBase := rfl
@[simp] theorem memPut_i3cOff (s : State) (a : Nat) (bs : List Byte) : (memPut s a bs).i3cOff = s.i3cOff := rfl
@[simp] theorem memPut_imgRead (s : State) (a : Nat) (bs : List Byte) : (memPut s a bs).imgRead = s.imgRead := rfl
@[simp] theorem memPut_eph (s : State) (a : Nat) (bs : List Byte) : (memPut s a bs).eph = s.eph := rfl
@[simp] theorem memPut_report (s : State) (a : Nat) (bs : List Byte) : (memPut s a bs).report = s.report := rfl
@[simp] theorem memPut_admitting (s : State) (a : Nat) (bs : List Byte) : (memPut s a bs).admitting = s.admitting := rfl
@[simp] theorem memPut_attest (s : State) (a : Nat) (bs : List Byte) : (memPut s a bs).attest = s.attest := rfl
@[simp] theorem memPut_imgDigest (s : State) (a : Nat) (bs : List Byte) : (memPut s a bs).imgDigest = s.imgDigest := rfl
@[simp] theorem memPut_debugUsed (s : State) (a : Nat) (bs : List Byte) : (memPut s a bs).debugUsed = s.debugUsed := rfl
@[simp] theorem memPut_chainQ (s : State) (a : Nat) (bs : List Byte) : (memPut s a bs).chainQ = s.chainQ := rfl
@[simp] theorem memPut_scrubs (s : State) (a : Nat) (bs : List Byte) : (memPut s a bs).scrubs = s.scrubs := rfl
@[simp] theorem memPut_svnTo (s : State) (a : Nat) (bs : List Byte) : (memPut s a bs).svnTo = s.svnTo := rfl
@[simp] theorem memPut_ledgerAt (s : State) (a : Nat) (bs : List Byte) : (memPut s a bs).ledgerAt = s.ledgerAt := rfl
@[simp] theorem memPut_pwrgood (s : State) (a : Nat) (bs : List Byte) : (memPut s a bs).pwrgood = s.pwrgood := rfl
@[simp] theorem memPut_refOk (s : State) (a : Nat) (bs : List Byte) : (memPut s a bs).refOk = s.refOk := rfl
@[simp] theorem memPut_standby (s : State) (a : Nat) (bs : List Byte) : (memPut s a bs).standby = s.standby := rfl
@[simp] theorem memPut_startAt (s : State) (a : Nat) (bs : List Byte) : (memPut s a bs).startAt = s.startAt := rfl
@[simp] theorem memPut_beganAt (s : State) (a : Nat) (bs : List Byte) : (memPut s a bs).beganAt = s.beganAt := rfl
@[simp] theorem memPut_noImage (s : State) (a : Nat) (bs : List Byte) : (memPut s a bs).noImage = s.noImage := rfl
@[simp] theorem memPut_i3cTries (s : State) (a : Nat) (bs : List Byte) : (memPut s a bs).i3cTries = s.i3cTries := rfl
@[simp] theorem memPut_i3cWait (s : State) (a : Nat) (bs : List Byte) : (memPut s a bs).i3cWait = s.i3cWait := rfl
@[simp] theorem memPut_powHist (s : State) (a : Nat) (bs : List Byte) : (memPut s a bs).powHist = s.powHist := rfl
@[simp] theorem memPut_dutyAt (s : State) (a : Nat) (bs : List Byte) : (memPut s a bs).dutyAt = s.dutyAt := rfl
@[simp] theorem memPut_regimeTo (s : State) (a : Nat) (bs : List Byte) : (memPut s a bs).regimeTo = s.regimeTo := rfl
@[simp] theorem memPut_regimeOld (s : State) (a : Nat) (bs : List Byte) : (memPut s a bs).regimeOld = s.regimeOld := rfl
@[simp] theorem memPut_tapIr (s : State) (a : Nat) (bs : List Byte) : (memPut s a bs).tapIr = s.tapIr := rfl
@[simp] theorem memPut_free (s : State) (a : Nat) (bs : List Byte) : (memPut s a bs).free = s.free := rfl

@[simp] theorem setCkp_pending (s : State) (p : Nat) (c : Ckp) : (setCkp s p c).pending = s.pending := rfl
@[simp] theorem setCkp_ltc (s : State) (p : Nat) (c : Ckp) : (setCkp s p c).ltc = s.ltc := rfl
@[simp] theorem setCkp_ltcPhase (s : State) (p : Nat) (c : Ckp) : (setCkp s p c).ltcPhase = s.ltcPhase := rfl
@[simp] theorem setCkp_regs (s : State) (p : Nat) (c : Ckp) : (setCkp s p c).regs = s.regs := rfl
@[simp] theorem setCkp_frac (s : State) (p : Nat) (c : Ckp) : (setCkp s p c).frac = s.frac := rfl
@[simp] theorem setCkp_mem (s : State) (p : Nat) (c : Ckp) : (setCkp s p c).mem = s.mem := rfl
@[simp] theorem setCkp_undef (s : State) (p : Nat) (c : Ckp) : (setCkp s p c).undef = s.undef := rfl
@[simp] theorem setCkp_poison (s : State) (p : Nat) (c : Ckp) : (setCkp s p c).poison = s.poison := rfl
@[simp] theorem setCkp_symErr (s : State) (p : Nat) (c : Ckp) : (setCkp s p c).symErr = s.symErr := rfl
@[simp] theorem setCkp_threads (s : State) (p : Nat) (c : Ckp) : (setCkp s p c).threads = s.threads := rfl
@[simp] theorem setCkp_ncores (s : State) (p : Nat) (c : Ckp) : (setCkp s p c).ncores = s.ncores := rfl
@[simp] theorem setCkp_cpes (s : State) (p : Nat) (c : Ckp) : (setCkp s p c).cpes = s.cpes := rfl
@[simp] theorem setCkp_landing (s : State) (p : Nat) (c : Ckp) : (setCkp s p c).landing = s.landing := rfl
@[simp] theorem setCkp_images (s : State) (p : Nat) (c : Ckp) : (setCkp s p c).images = s.images := rfl
@[simp] theorem setCkp_faultQ (s : State) (p : Nat) (c : Ckp) : (setCkp s p c).faultQ = s.faultQ := rfl
@[simp] theorem setCkp_traceQ (s : State) (p : Nat) (c : Ckp) : (setCkp s p c).traceQ = s.traceQ := rfl
@[simp] theorem setCkp_tlb (s : State) (p : Nat) (c : Ckp) : (setCkp s p c).tlb = s.tlb := rfl
@[simp] theorem setCkp_tlbInv (s : State) (p : Nat) (c : Ckp) : (setCkp s p c).tlbInv = s.tlbInv := rfl
@[simp] theorem setCkp_hashing (s : State) (p : Nat) (c : Ckp) : (setCkp s p c).hashing = s.hashing := rfl
@[simp] theorem setCkp_hbmHeld (s : State) (p : Nat) (c : Ckp) : (setCkp s p c).hbmHeld = s.hbmHeld := rfl
@[simp] theorem setCkp_rowCe (s : State) (p : Nat) (c : Ckp) : (setCkp s p c).rowCe = s.rowCe := rfl
@[simp] theorem setCkp_rowHeld (s : State) (p : Nat) (c : Ckp) : (setCkp s p c).rowHeld = s.rowHeld := rfl
@[simp] theorem setCkp_sparesUsed (s : State) (p : Nat) (c : Ckp) : (setCkp s p c).sparesUsed = s.sparesUsed := rfl
@[simp] theorem setCkp_mramLocked (s : State) (p : Nat) (c : Ckp) : (setCkp s p c).mramLocked = s.mramLocked := rfl
@[simp] theorem setCkp_mram (s : State) (p : Nat) (c : Ckp) : (setCkp s p c).mram = s.mram := rfl
@[simp] theorem setCkp_ringCount (s : State) (p : Nat) (c : Ckp) : (setCkp s p c).ringCount = s.ringCount := rfl
@[simp] theorem setCkp_confAt (s : State) (p : Nat) (c : Ckp) : (setCkp s p c).confAt = s.confAt := rfl
@[simp] theorem setCkp_hostLines (s : State) (p : Nat) (c : Ckp) : (setCkp s p c).hostLines = s.hostLines := rfl
@[simp] theorem setCkp_lvuWaking (s : State) (p : Nat) (c : Ckp) : (setCkp s p c).lvuWaking = s.lvuWaking := rfl
@[simp] theorem setCkp_lvuIdle (s : State) (p : Nat) (c : Ckp) : (setCkp s p c).lvuIdle = s.lvuIdle := rfl
@[simp] theorem setCkp_dots (s : State) (p : Nat) (c : Ckp) : (setCkp s p c).dots = s.dots := rfl
@[simp] theorem setCkp_seqs (s : State) (p : Nat) (c : Ckp) : (setCkp s p c).seqs = s.seqs := rfl
@[simp] theorem setCkp_reqs (s : State) (p : Nat) (c : Ckp) : (setCkp s p c).reqs = s.reqs := rfl
@[simp] theorem setCkp_xfers (s : State) (p : Nat) (c : Ckp) : (setCkp s p c).xfers = s.xfers := rfl
@[simp] theorem setCkp_nextId (s : State) (p : Nat) (c : Ckp) : (setCkp s p c).nextId = s.nextId := rfl
@[simp] theorem setCkp_getTiles (s : State) (p : Nat) (c : Ckp) : (setCkp s p c).getTiles = s.getTiles := rfl
@[simp] theorem setCkp_putTiles (s : State) (p : Nat) (c : Ckp) : (setCkp s p c).putTiles = s.putTiles := rfl
@[simp] theorem setCkp_gathers (s : State) (p : Nat) (c : Ckp) : (setCkp s p c).gathers = s.gathers := rfl
@[simp] theorem setCkp_routerIn (s : State) (p : Nat) (c : Ckp) : (setCkp s p c).routerIn = s.routerIn := rfl
@[simp] theorem setCkp_outq (s : State) (p : Nat) (c : Ckp) : (setCkp s p c).outq = s.outq := rfl
@[simp] theorem setCkp_rxq (s : State) (p : Nat) (c : Ckp) : (setCkp s p c).rxq = s.rxq := rfl
@[simp] theorem setCkp_slots (s : State) (p : Nat) (c : Ckp) : (setCkp s p c).slots = s.slots := rfl
@[simp] theorem setCkp_rcache (s : State) (p : Nat) (c : Ckp) : (setCkp s p c).rcache = s.rcache := rfl
@[simp] theorem setCkp_heldFlags (s : State) (p : Nat) (c : Ckp) : (setCkp s p c).heldFlags = s.heldFlags := rfl
@[simp] theorem setCkp_applied (s : State) (p : Nat) (c : Ckp) : (setCkp s p c).applied = s.applied := rfl
@[simp] theorem setCkp_winHeld (s : State) (p : Nat) (c : Ckp) : (setCkp s p c).winHeld = s.winHeld := rfl
@[simp] theorem setCkp_tx (s : State) (p : Nat) (c : Ckp) : (setCkp s p c).tx = s.tx := rfl
@[simp] theorem setCkp_hbmHeldAt (s : State) (p : Nat) (c : Ckp) : (setCkp s p c).hbmHeldAt = s.hbmHeldAt := rfl
@[simp] theorem setCkp_mail (s : State) (p : Nat) (c : Ckp) : (setCkp s p c).mail = s.mail := rfl
@[simp] theorem setCkp_colls (s : State) (p : Nat) (c : Ckp) : (setCkp s p c).colls = s.colls := rfl
@[simp] theorem setCkp_matchBuf (s : State) (p : Nat) (c : Ckp) : (setCkp s p c).matchBuf = s.matchBuf := rfl
@[simp] theorem setCkp_collEnds (s : State) (p : Nat) (c : Ckp) : (setCkp s p c).collEnds = s.collEnds := rfl
@[simp] theorem setCkp_slotKeys (s : State) (p : Nat) (c : Ckp) : (setCkp s p c).slotKeys = s.slotKeys := rfl
@[simp] theorem setCkp_bays (s : State) (p : Nat) (c : Ckp) : (setCkp s p c).bays = s.bays := rfl
@[simp] theorem setCkp_drnX (s : State) (p : Nat) (c : Ckp) : (setCkp s p c).drnX = s.drnX := rfl
@[simp] theorem setCkp_rings (s : State) (p : Nat) (c : Ckp) : (setCkp s p c).rings = s.rings := rfl
@[simp] theorem setCkp_heldRecs (s : State) (p : Nat) (c : Ckp) : (setCkp s p c).heldRecs = s.heldRecs := rfl
@[simp] theorem setCkp_hostLost (s : State) (p : Nat) (c : Ckp) : (setCkp s p c).hostLost = s.hostLost := rfl
@[simp] theorem setCkp_session (s : State) (p : Nat) (c : Ckp) : (setCkp s p c).session = s.session := rfl
@[simp] theorem setCkp_svus (s : State) (p : Nat) (c : Ckp) : (setCkp s p c).svus = s.svus := rfl
@[simp] theorem setCkp_factors (s : State) (p : Nat) (c : Ckp) : (setCkp s p c).factors = s.factors := rfl
@[simp] theorem setCkp_portSeen (s : State) (p : Nat) (c : Ckp) : (setCkp s p c).portSeen = s.portSeen := rfl
@[simp] theorem setCkp_portWant (s : State) (p : Nat) (c : Ckp) : (setCkp s p c).portWant = s.portWant := rfl
@[simp] theorem setCkp_portFell (s : State) (p : Nat) (c : Ckp) : (setCkp s p c).portFell = s.portFell := rfl
@[simp] theorem setCkp_portIdle (s : State) (p : Nat) (c : Ckp) : (setCkp s p c).portIdle = s.portIdle := rfl
@[simp] theorem setCkp_lostMore (s : State) (p : Nat) (c : Ckp) : (setCkp s p c).lostMore = s.lostMore := rfl
@[simp] theorem setCkp_alive (s : State) (p : Nat) (c : Ckp) : (setCkp s p c).alive = s.alive := rfl
@[simp] theorem setCkp_faultN (s : State) (p : Nat) (c : Ckp) : (setCkp s p c).faultN = s.faultN := rfl
@[simp] theorem setCkp_llmPend (s : State) (p : Nat) (c : Ckp) : (setCkp s p c).llmPend = s.llmPend := rfl
@[simp] theorem setCkp_rgl (s : State) (p : Nat) (c : Ckp) : (setCkp s p c).rgl = s.rgl := rfl
@[simp] theorem setCkp_rglTurn (s : State) (p : Nat) (c : Ckp) : (setCkp s p c).rglTurn = s.rglTurn := rfl
@[simp] theorem setCkp_arch (s : State) (p : Nat) (c : Ckp) : (setCkp s p c).arch = s.arch := rfl
@[simp] theorem setCkp_archTurn (s : State) (p : Nat) (c : Ckp) : (setCkp s p c).archTurn = s.archTurn := rfl
@[simp] theorem setCkp_archRun (s : State) (p : Nat) (c : Ckp) : (setCkp s p c).archRun = s.archRun := rfl
@[simp] theorem setCkp_archCred (s : State) (p : Nat) (c : Ckp) : (setCkp s p c).archCred = s.archCred := rfl
@[simp] theorem setCkp_llm (s : State) (p : Nat) (c : Ckp) : (setCkp s p c).llm = s.llm := rfl
@[simp] theorem setCkp_scLines (s : State) (p : Nat) (c : Ckp) : (setCkp s p c).scLines = s.scLines := rfl
@[simp] theorem setCkp_invs (s : State) (p : Nat) (c : Ckp) : (setCkp s p c).invs = s.invs := rfl
@[simp] theorem setCkp_chanLines (s : State) (p : Nat) (c : Ckp) : (setCkp s p c).chanLines = s.chanLines := rfl
@[simp] theorem setCkp_hotAt (s : State) (p : Nat) (c : Ckp) : (setCkp s p c).hotAt = s.hotAt := rfl
@[simp] theorem setCkp_patrol (s : State) (p : Nat) (c : Ckp) : (setCkp s p c).patrol = s.patrol := rfl
@[simp] theorem setCkp_ceAt (s : State) (p : Nat) (c : Ckp) : (setCkp s p c).ceAt = s.ceAt := rfl
@[simp] theorem setCkp_ceBase (s : State) (p : Nat) (c : Ckp) : (setCkp s p c).ceBase = s.ceBase := rfl
@[simp] theorem setCkp_watchAt (s : State) (p : Nat) (c : Ckp) : (setCkp s p c).watchAt = s.watchAt := rfl
@[simp] theorem setCkp_watchBase (s : State) (p : Nat) (c : Ckp) : (setCkp s p c).watchBase = s.watchBase := rfl
@[simp] theorem setCkp_i3cOff (s : State) (p : Nat) (c : Ckp) : (setCkp s p c).i3cOff = s.i3cOff := rfl
@[simp] theorem setCkp_imgRead (s : State) (p : Nat) (c : Ckp) : (setCkp s p c).imgRead = s.imgRead := rfl
@[simp] theorem setCkp_eph (s : State) (p : Nat) (c : Ckp) : (setCkp s p c).eph = s.eph := rfl
@[simp] theorem setCkp_report (s : State) (p : Nat) (c : Ckp) : (setCkp s p c).report = s.report := rfl
@[simp] theorem setCkp_admitting (s : State) (p : Nat) (c : Ckp) : (setCkp s p c).admitting = s.admitting := rfl
@[simp] theorem setCkp_attest (s : State) (p : Nat) (c : Ckp) : (setCkp s p c).attest = s.attest := rfl
@[simp] theorem setCkp_imgDigest (s : State) (p : Nat) (c : Ckp) : (setCkp s p c).imgDigest = s.imgDigest := rfl
@[simp] theorem setCkp_debugUsed (s : State) (p : Nat) (c : Ckp) : (setCkp s p c).debugUsed = s.debugUsed := rfl
@[simp] theorem setCkp_chainQ (s : State) (p : Nat) (c : Ckp) : (setCkp s p c).chainQ = s.chainQ := rfl
@[simp] theorem setCkp_scrubs (s : State) (p : Nat) (c : Ckp) : (setCkp s p c).scrubs = s.scrubs := rfl
@[simp] theorem setCkp_svnTo (s : State) (p : Nat) (c : Ckp) : (setCkp s p c).svnTo = s.svnTo := rfl
@[simp] theorem setCkp_ledgerAt (s : State) (p : Nat) (c : Ckp) : (setCkp s p c).ledgerAt = s.ledgerAt := rfl
@[simp] theorem setCkp_pwrgood (s : State) (p : Nat) (c : Ckp) : (setCkp s p c).pwrgood = s.pwrgood := rfl
@[simp] theorem setCkp_refOk (s : State) (p : Nat) (c : Ckp) : (setCkp s p c).refOk = s.refOk := rfl
@[simp] theorem setCkp_standby (s : State) (p : Nat) (c : Ckp) : (setCkp s p c).standby = s.standby := rfl
@[simp] theorem setCkp_startAt (s : State) (p : Nat) (c : Ckp) : (setCkp s p c).startAt = s.startAt := rfl
@[simp] theorem setCkp_beganAt (s : State) (p : Nat) (c : Ckp) : (setCkp s p c).beganAt = s.beganAt := rfl
@[simp] theorem setCkp_noImage (s : State) (p : Nat) (c : Ckp) : (setCkp s p c).noImage = s.noImage := rfl
@[simp] theorem setCkp_i3cTries (s : State) (p : Nat) (c : Ckp) : (setCkp s p c).i3cTries = s.i3cTries := rfl
@[simp] theorem setCkp_i3cWait (s : State) (p : Nat) (c : Ckp) : (setCkp s p c).i3cWait = s.i3cWait := rfl
@[simp] theorem setCkp_powHist (s : State) (p : Nat) (c : Ckp) : (setCkp s p c).powHist = s.powHist := rfl
@[simp] theorem setCkp_dutyAt (s : State) (p : Nat) (c : Ckp) : (setCkp s p c).dutyAt = s.dutyAt := rfl
@[simp] theorem setCkp_regimeTo (s : State) (p : Nat) (c : Ckp) : (setCkp s p c).regimeTo = s.regimeTo := rfl
@[simp] theorem setCkp_regimeOld (s : State) (p : Nat) (c : Ckp) : (setCkp s p c).regimeOld = s.regimeOld := rfl
@[simp] theorem setCkp_tapIr (s : State) (p : Nat) (c : Ckp) : (setCkp s p c).tapIr = s.tapIr := rfl
@[simp] theorem setCkp_free (s : State) (p : Nat) (c : Ckp) : (setCkp s p c).free = s.free := rfl

@[simp] theorem setSvu_pending (s : State) (j : Nat) (u : Svu) : (setSvu s j u).pending = s.pending := rfl
@[simp] theorem setSvu_ltc (s : State) (j : Nat) (u : Svu) : (setSvu s j u).ltc = s.ltc := rfl
@[simp] theorem setSvu_ltcPhase (s : State) (j : Nat) (u : Svu) : (setSvu s j u).ltcPhase = s.ltcPhase := rfl
@[simp] theorem setSvu_regs (s : State) (j : Nat) (u : Svu) : (setSvu s j u).regs = s.regs := rfl
@[simp] theorem setSvu_frac (s : State) (j : Nat) (u : Svu) : (setSvu s j u).frac = s.frac := rfl
@[simp] theorem setSvu_mem (s : State) (j : Nat) (u : Svu) : (setSvu s j u).mem = s.mem := rfl
@[simp] theorem setSvu_undef (s : State) (j : Nat) (u : Svu) : (setSvu s j u).undef = s.undef := rfl
@[simp] theorem setSvu_poison (s : State) (j : Nat) (u : Svu) : (setSvu s j u).poison = s.poison := rfl
@[simp] theorem setSvu_symErr (s : State) (j : Nat) (u : Svu) : (setSvu s j u).symErr = s.symErr := rfl
@[simp] theorem setSvu_threads (s : State) (j : Nat) (u : Svu) : (setSvu s j u).threads = s.threads := rfl
@[simp] theorem setSvu_ncores (s : State) (j : Nat) (u : Svu) : (setSvu s j u).ncores = s.ncores := rfl
@[simp] theorem setSvu_cpes (s : State) (j : Nat) (u : Svu) : (setSvu s j u).cpes = s.cpes := rfl
@[simp] theorem setSvu_landing (s : State) (j : Nat) (u : Svu) : (setSvu s j u).landing = s.landing := rfl
@[simp] theorem setSvu_images (s : State) (j : Nat) (u : Svu) : (setSvu s j u).images = s.images := rfl
@[simp] theorem setSvu_faultQ (s : State) (j : Nat) (u : Svu) : (setSvu s j u).faultQ = s.faultQ := rfl
@[simp] theorem setSvu_traceQ (s : State) (j : Nat) (u : Svu) : (setSvu s j u).traceQ = s.traceQ := rfl
@[simp] theorem setSvu_tlb (s : State) (j : Nat) (u : Svu) : (setSvu s j u).tlb = s.tlb := rfl
@[simp] theorem setSvu_tlbInv (s : State) (j : Nat) (u : Svu) : (setSvu s j u).tlbInv = s.tlbInv := rfl
@[simp] theorem setSvu_hashing (s : State) (j : Nat) (u : Svu) : (setSvu s j u).hashing = s.hashing := rfl
@[simp] theorem setSvu_hbmHeld (s : State) (j : Nat) (u : Svu) : (setSvu s j u).hbmHeld = s.hbmHeld := rfl
@[simp] theorem setSvu_rowCe (s : State) (j : Nat) (u : Svu) : (setSvu s j u).rowCe = s.rowCe := rfl
@[simp] theorem setSvu_rowHeld (s : State) (j : Nat) (u : Svu) : (setSvu s j u).rowHeld = s.rowHeld := rfl
@[simp] theorem setSvu_sparesUsed (s : State) (j : Nat) (u : Svu) : (setSvu s j u).sparesUsed = s.sparesUsed := rfl
@[simp] theorem setSvu_mramLocked (s : State) (j : Nat) (u : Svu) : (setSvu s j u).mramLocked = s.mramLocked := rfl
@[simp] theorem setSvu_mram (s : State) (j : Nat) (u : Svu) : (setSvu s j u).mram = s.mram := rfl
@[simp] theorem setSvu_ringCount (s : State) (j : Nat) (u : Svu) : (setSvu s j u).ringCount = s.ringCount := rfl
@[simp] theorem setSvu_confAt (s : State) (j : Nat) (u : Svu) : (setSvu s j u).confAt = s.confAt := rfl
@[simp] theorem setSvu_hostLines (s : State) (j : Nat) (u : Svu) : (setSvu s j u).hostLines = s.hostLines := rfl
@[simp] theorem setSvu_lvuWaking (s : State) (j : Nat) (u : Svu) : (setSvu s j u).lvuWaking = s.lvuWaking := rfl
@[simp] theorem setSvu_lvuIdle (s : State) (j : Nat) (u : Svu) : (setSvu s j u).lvuIdle = s.lvuIdle := rfl
@[simp] theorem setSvu_dots (s : State) (j : Nat) (u : Svu) : (setSvu s j u).dots = s.dots := rfl
@[simp] theorem setSvu_seqs (s : State) (j : Nat) (u : Svu) : (setSvu s j u).seqs = s.seqs := rfl
@[simp] theorem setSvu_reqs (s : State) (j : Nat) (u : Svu) : (setSvu s j u).reqs = s.reqs := rfl
@[simp] theorem setSvu_xfers (s : State) (j : Nat) (u : Svu) : (setSvu s j u).xfers = s.xfers := rfl
@[simp] theorem setSvu_nextId (s : State) (j : Nat) (u : Svu) : (setSvu s j u).nextId = s.nextId := rfl
@[simp] theorem setSvu_getTiles (s : State) (j : Nat) (u : Svu) : (setSvu s j u).getTiles = s.getTiles := rfl
@[simp] theorem setSvu_putTiles (s : State) (j : Nat) (u : Svu) : (setSvu s j u).putTiles = s.putTiles := rfl
@[simp] theorem setSvu_gathers (s : State) (j : Nat) (u : Svu) : (setSvu s j u).gathers = s.gathers := rfl
@[simp] theorem setSvu_routerIn (s : State) (j : Nat) (u : Svu) : (setSvu s j u).routerIn = s.routerIn := rfl
@[simp] theorem setSvu_outq (s : State) (j : Nat) (u : Svu) : (setSvu s j u).outq = s.outq := rfl
@[simp] theorem setSvu_rxq (s : State) (j : Nat) (u : Svu) : (setSvu s j u).rxq = s.rxq := rfl
@[simp] theorem setSvu_slots (s : State) (j : Nat) (u : Svu) : (setSvu s j u).slots = s.slots := rfl
@[simp] theorem setSvu_rcache (s : State) (j : Nat) (u : Svu) : (setSvu s j u).rcache = s.rcache := rfl
@[simp] theorem setSvu_heldFlags (s : State) (j : Nat) (u : Svu) : (setSvu s j u).heldFlags = s.heldFlags := rfl
@[simp] theorem setSvu_applied (s : State) (j : Nat) (u : Svu) : (setSvu s j u).applied = s.applied := rfl
@[simp] theorem setSvu_winHeld (s : State) (j : Nat) (u : Svu) : (setSvu s j u).winHeld = s.winHeld := rfl
@[simp] theorem setSvu_tx (s : State) (j : Nat) (u : Svu) : (setSvu s j u).tx = s.tx := rfl
@[simp] theorem setSvu_hbmHeldAt (s : State) (j : Nat) (u : Svu) : (setSvu s j u).hbmHeldAt = s.hbmHeldAt := rfl
@[simp] theorem setSvu_mail (s : State) (j : Nat) (u : Svu) : (setSvu s j u).mail = s.mail := rfl
@[simp] theorem setSvu_colls (s : State) (j : Nat) (u : Svu) : (setSvu s j u).colls = s.colls := rfl
@[simp] theorem setSvu_matchBuf (s : State) (j : Nat) (u : Svu) : (setSvu s j u).matchBuf = s.matchBuf := rfl
@[simp] theorem setSvu_collEnds (s : State) (j : Nat) (u : Svu) : (setSvu s j u).collEnds = s.collEnds := rfl
@[simp] theorem setSvu_slotKeys (s : State) (j : Nat) (u : Svu) : (setSvu s j u).slotKeys = s.slotKeys := rfl
@[simp] theorem setSvu_ckps (s : State) (j : Nat) (u : Svu) : (setSvu s j u).ckps = s.ckps := rfl
@[simp] theorem setSvu_bays (s : State) (j : Nat) (u : Svu) : (setSvu s j u).bays = s.bays := rfl
@[simp] theorem setSvu_drnX (s : State) (j : Nat) (u : Svu) : (setSvu s j u).drnX = s.drnX := rfl
@[simp] theorem setSvu_rings (s : State) (j : Nat) (u : Svu) : (setSvu s j u).rings = s.rings := rfl
@[simp] theorem setSvu_heldRecs (s : State) (j : Nat) (u : Svu) : (setSvu s j u).heldRecs = s.heldRecs := rfl
@[simp] theorem setSvu_hostLost (s : State) (j : Nat) (u : Svu) : (setSvu s j u).hostLost = s.hostLost := rfl
@[simp] theorem setSvu_session (s : State) (j : Nat) (u : Svu) : (setSvu s j u).session = s.session := rfl
@[simp] theorem setSvu_factors (s : State) (j : Nat) (u : Svu) : (setSvu s j u).factors = s.factors := rfl
@[simp] theorem setSvu_portSeen (s : State) (j : Nat) (u : Svu) : (setSvu s j u).portSeen = s.portSeen := rfl
@[simp] theorem setSvu_portWant (s : State) (j : Nat) (u : Svu) : (setSvu s j u).portWant = s.portWant := rfl
@[simp] theorem setSvu_portFell (s : State) (j : Nat) (u : Svu) : (setSvu s j u).portFell = s.portFell := rfl
@[simp] theorem setSvu_portIdle (s : State) (j : Nat) (u : Svu) : (setSvu s j u).portIdle = s.portIdle := rfl
@[simp] theorem setSvu_lostMore (s : State) (j : Nat) (u : Svu) : (setSvu s j u).lostMore = s.lostMore := rfl
@[simp] theorem setSvu_alive (s : State) (j : Nat) (u : Svu) : (setSvu s j u).alive = s.alive := rfl
@[simp] theorem setSvu_faultN (s : State) (j : Nat) (u : Svu) : (setSvu s j u).faultN = s.faultN := rfl
@[simp] theorem setSvu_llmPend (s : State) (j : Nat) (u : Svu) : (setSvu s j u).llmPend = s.llmPend := rfl
@[simp] theorem setSvu_rgl (s : State) (j : Nat) (u : Svu) : (setSvu s j u).rgl = s.rgl := rfl
@[simp] theorem setSvu_rglTurn (s : State) (j : Nat) (u : Svu) : (setSvu s j u).rglTurn = s.rglTurn := rfl
@[simp] theorem setSvu_arch (s : State) (j : Nat) (u : Svu) : (setSvu s j u).arch = s.arch := rfl
@[simp] theorem setSvu_archTurn (s : State) (j : Nat) (u : Svu) : (setSvu s j u).archTurn = s.archTurn := rfl
@[simp] theorem setSvu_archRun (s : State) (j : Nat) (u : Svu) : (setSvu s j u).archRun = s.archRun := rfl
@[simp] theorem setSvu_archCred (s : State) (j : Nat) (u : Svu) : (setSvu s j u).archCred = s.archCred := rfl
@[simp] theorem setSvu_llm (s : State) (j : Nat) (u : Svu) : (setSvu s j u).llm = s.llm := rfl
@[simp] theorem setSvu_scLines (s : State) (j : Nat) (u : Svu) : (setSvu s j u).scLines = s.scLines := rfl
@[simp] theorem setSvu_invs (s : State) (j : Nat) (u : Svu) : (setSvu s j u).invs = s.invs := rfl
@[simp] theorem setSvu_chanLines (s : State) (j : Nat) (u : Svu) : (setSvu s j u).chanLines = s.chanLines := rfl
@[simp] theorem setSvu_hotAt (s : State) (j : Nat) (u : Svu) : (setSvu s j u).hotAt = s.hotAt := rfl
@[simp] theorem setSvu_patrol (s : State) (j : Nat) (u : Svu) : (setSvu s j u).patrol = s.patrol := rfl
@[simp] theorem setSvu_ceAt (s : State) (j : Nat) (u : Svu) : (setSvu s j u).ceAt = s.ceAt := rfl
@[simp] theorem setSvu_ceBase (s : State) (j : Nat) (u : Svu) : (setSvu s j u).ceBase = s.ceBase := rfl
@[simp] theorem setSvu_watchAt (s : State) (j : Nat) (u : Svu) : (setSvu s j u).watchAt = s.watchAt := rfl
@[simp] theorem setSvu_watchBase (s : State) (j : Nat) (u : Svu) : (setSvu s j u).watchBase = s.watchBase := rfl
@[simp] theorem setSvu_i3cOff (s : State) (j : Nat) (u : Svu) : (setSvu s j u).i3cOff = s.i3cOff := rfl
@[simp] theorem setSvu_imgRead (s : State) (j : Nat) (u : Svu) : (setSvu s j u).imgRead = s.imgRead := rfl
@[simp] theorem setSvu_eph (s : State) (j : Nat) (u : Svu) : (setSvu s j u).eph = s.eph := rfl
@[simp] theorem setSvu_report (s : State) (j : Nat) (u : Svu) : (setSvu s j u).report = s.report := rfl
@[simp] theorem setSvu_admitting (s : State) (j : Nat) (u : Svu) : (setSvu s j u).admitting = s.admitting := rfl
@[simp] theorem setSvu_attest (s : State) (j : Nat) (u : Svu) : (setSvu s j u).attest = s.attest := rfl
@[simp] theorem setSvu_imgDigest (s : State) (j : Nat) (u : Svu) : (setSvu s j u).imgDigest = s.imgDigest := rfl
@[simp] theorem setSvu_debugUsed (s : State) (j : Nat) (u : Svu) : (setSvu s j u).debugUsed = s.debugUsed := rfl
@[simp] theorem setSvu_chainQ (s : State) (j : Nat) (u : Svu) : (setSvu s j u).chainQ = s.chainQ := rfl
@[simp] theorem setSvu_scrubs (s : State) (j : Nat) (u : Svu) : (setSvu s j u).scrubs = s.scrubs := rfl
@[simp] theorem setSvu_svnTo (s : State) (j : Nat) (u : Svu) : (setSvu s j u).svnTo = s.svnTo := rfl
@[simp] theorem setSvu_ledgerAt (s : State) (j : Nat) (u : Svu) : (setSvu s j u).ledgerAt = s.ledgerAt := rfl
@[simp] theorem setSvu_pwrgood (s : State) (j : Nat) (u : Svu) : (setSvu s j u).pwrgood = s.pwrgood := rfl
@[simp] theorem setSvu_refOk (s : State) (j : Nat) (u : Svu) : (setSvu s j u).refOk = s.refOk := rfl
@[simp] theorem setSvu_standby (s : State) (j : Nat) (u : Svu) : (setSvu s j u).standby = s.standby := rfl
@[simp] theorem setSvu_startAt (s : State) (j : Nat) (u : Svu) : (setSvu s j u).startAt = s.startAt := rfl
@[simp] theorem setSvu_beganAt (s : State) (j : Nat) (u : Svu) : (setSvu s j u).beganAt = s.beganAt := rfl
@[simp] theorem setSvu_noImage (s : State) (j : Nat) (u : Svu) : (setSvu s j u).noImage = s.noImage := rfl
@[simp] theorem setSvu_i3cTries (s : State) (j : Nat) (u : Svu) : (setSvu s j u).i3cTries = s.i3cTries := rfl
@[simp] theorem setSvu_i3cWait (s : State) (j : Nat) (u : Svu) : (setSvu s j u).i3cWait = s.i3cWait := rfl
@[simp] theorem setSvu_powHist (s : State) (j : Nat) (u : Svu) : (setSvu s j u).powHist = s.powHist := rfl
@[simp] theorem setSvu_dutyAt (s : State) (j : Nat) (u : Svu) : (setSvu s j u).dutyAt = s.dutyAt := rfl
@[simp] theorem setSvu_regimeTo (s : State) (j : Nat) (u : Svu) : (setSvu s j u).regimeTo = s.regimeTo := rfl
@[simp] theorem setSvu_regimeOld (s : State) (j : Nat) (u : Svu) : (setSvu s j u).regimeOld = s.regimeOld := rfl
@[simp] theorem setSvu_tapIr (s : State) (j : Nat) (u : Svu) : (setSvu s j u).tapIr = s.tapIr := rfl
@[simp] theorem setSvu_free (s : State) (j : Nat) (u : Svu) : (setSvu s j u).free = s.free := rfl

end Sys2Proof.Machine
end

