-- ==== Sys2Proof/Laws/Ops.lean ====
section
/-! SUPPORT. Reading back what the named operations write: threads, stations, registers and memory; and what the issue of an instruction does. -/

namespace Sys2Proof.Machine

@[simp] theorem nsub_eq (a b : Nat) : nsub a b = a - b := by
  unfold nsub Int.subNatNat
  split
  · simp
  · rename_i k h
    have : a - b = 0 := by omega
    simp [this]

/-- A second write to one key takes the place of the first. -/
theorem sset_sset {α : Type} [DecidableEq α] (d : Nat → α) (k : Nat) (v w : α) (m : Sparse α) (h : swf d m = true) :
    sset (d k) (sset (d k) m k v) k w = sset (d k) m k w := by
  refine swf_ext d _ _ (swf_sset d k w _ (swf_sset d k v m h)) (swf_sset d k w m h) fun j => ?_
  by_cases hj : j = k
  · subst hj; rw [sget_sset_same d j w _ (swf_sset d j v m h), sget_sset_same d j w _ h]
  · rw [sget_sset_ne d k j w _ (swf_sset d k v m h) hj, sget_sset_ne d k j v _ h hj, sget_sset_ne d k j w _ h hj]

theorem State.Inv.threads {s : State} (h : s.Inv) : swf (fun _ => thread0) s.threads = true := h.2.2.2.1
theorem State.Inv.ncores {s : State} (h : s.Inv) : swf (fun _ => ncore0) s.ncores = true := h.2.2.2.2.1
theorem State.Inv.regs {s : State} (h : s.Inv) : swf regReset s.regs = true := h.2.2.1
theorem State.Inv.mem {s : State} (h : s.Inv) : swf (fun _ => (0 : Byte)) s.mem = true := h.1
theorem State.Inv.ckps {s : State} (h : s.Inv) : swf (fun _ => ckp0) s.ckps = true := h.2.2.2.2.2.1
theorem State.Inv.svus {s : State} (h : s.Inv) : swf (fun _ => svu0) s.svus = true := h.2.2.2.2.2.2.1
theorem State.Inv.rings {s : State} (h : s.Inv) : swf (fun _ => ring0) s.rings = true := h.2.2.2.2.2.2.2.1
theorem State.Inv.rgl {s : State} (h : s.Inv) : swf (fun _ => rgl0) s.rgl = true := h.2.2.2.2.2.2.2.2

/-- The invariant is that of any queue. -/
theorem inv_kept {s : State} (h : s.Inv) : Kept s.pending s := ⟨rfl, h⟩

theorem setTh_inv {s : State} (k : Nat) (t : Thread) (h : s.Inv) : (setTh s k t).Inv := (setTh_kept (inv_kept h)).2
theorem setNc_inv {s : State} (k : Nat) (n : NCore) (h : s.Inv) : (setNc s k n).Inv := (setNc_kept (inv_kept h)).2
theorem wr_inv {s : State} (a : Nat) (v : Word) (h : s.Inv) : (wr s a v).Inv := (wr_kept (inv_kept h)).2
theorem memPut_inv {s : State} (a : Nat) (bs : List Byte) (h : s.Inv) : (memPut s a bs).Inv := (memPut_kept (inv_kept h)).2

theorem th_setTh_same {s : State} (h : s.Inv) (k : Nat) (t : Thread) : th (setTh s k t) k = t :=
  sget_sset_same (fun _ => thread0) k t s.threads h.threads
theorem th_setTh_ne {s : State} (h : s.Inv) {j k : Nat} (t : Thread) (hj : j ≠ k) : th (setTh s k t) j = th s j :=
  sget_sset_ne (fun _ => thread0) k j t s.threads h.threads hj
theorem setTh_setTh {s : State} (h : s.Inv) (k : Nat) (t u : Thread) : setTh (setTh s k t) k u = setTh s k u := by
  have := sset_sset (fun _ => thread0) k t u s.threads h.threads
  simp [setTh, this]
theorem nc_setNc_same {s : State} (h : s.Inv) (k : Nat) (n : NCore) : nc (setNc s k n) k = n :=
  sget_sset_same (fun _ => ncore0) k n s.ncores h.ncores
theorem nc_setNc_ne {s : State} (h : s.Inv) {j k : Nat} (n : NCore) (hj : j ≠ k) : nc (setNc s k n) j = nc s j :=
  sget_sset_ne (fun _ => ncore0) k j n s.ncores h.ncores hj
theorem ringOf_setRing_same {s : State} (h : s.Inv) (r : Nat) (x : RingSt) : ringOf (setRing s r x) r = x :=
  sget_sset_same (fun _ => ring0) r x s.rings h.rings
theorem setRing_setRing {s : State} (h : s.Inv) (r : Nat) (x y : RingSt) : setRing (setRing s r x) r y = setRing s r y := by
  have := sset_sset (fun _ => ring0) r x y s.rings h.rings
  simp [setRing, this]
theorem rd_wr_same {s : State} (h : s.Inv) (a : Nat) (v : Word) : rd (wr s a v) a = v :=
  sget_sset_same regReset a v s.regs h.regs
theorem rd_wr_ne {s : State} (h : s.Inv) {a b : Nat} (v : Word) (hb : b ≠ a) : rd (wr s a v) b = rd s b :=
  sget_sset_ne regReset a b v s.regs h.regs hb

@[simp] theorem rd_setTh (s : State) (k : Nat) (t : Thread) (a : Nat) : rd (setTh s k t) a = rd s a := rfl
@[simp] theorem rd_setNc (s : State) (k : Nat) (n : NCore) (a : Nat) : rd (setNc s k n) a = rd s a := rfl
@[simp] theorem rd_memPut (s : State) (a : Nat) (bs : List Byte) (b : Nat) : rd (memPut s a bs) b = rd s b := rfl
@[simp] theorem rdf_setTh (s : State) (k : Nat) (t : Thread) (a lo n : Nat) : rdf (setTh s k t) a lo n = rdf s a lo n := rfl
@[simp] theorem th_wr (s : State) (a : Nat) (v : Word) (k : Nat) : th (wr s a v) k = th s k := rfl
@[simp] theorem th_setNc (s : State) (k : Nat) (n : NCore) (j : Nat) : th (setNc s k n) j = th s j := rfl
@[simp] theorem nc_setTh (s : State) (k : Nat) (t : Thread) (j : Nat) : nc (setTh s k t) j = nc s j := rfl
@[simp] theorem th_memPut (s : State) (a : Nat) (bs : List Byte) (k : Nat) : th (memPut s a bs) k = th s k := rfl
@[simp] theorem memByte_setTh (s : State) (k : Nat) (t : Thread) (a : Nat) : memByte (setTh s k t) a = memByte s a := rfl
@[simp] theorem memByte_setNc (s : State) (k : Nat) (n : NCore) (a : Nat) : memByte (setNc s k n) a = memByte s a := rfl
@[simp] theorem memByte_wr (s : State) (b : Nat) (v : Word) (a : Nat) : memByte (wr s b v) a = memByte s a := rfl

/-- A byte that lies in no cut of a range lies in the same undefined range as before. -/
theorem find_carve (u : List (Nat × Nat × Nat)) (lo hi a : Nat) (h0 : lo ≤ hi) (h : a < lo ∨ hi ≤ a) :
    ((carve u lo hi).find? (fun r => r.1 ≤ a && a < r.2.1)).map (·.2.2) = (u.find? (fun r => r.1 ≤ a && a < r.2.1)).map (·.2.2) := by
  induction u with
  | nil => rfl
  | cons r u ih =>
    obtain ⟨b, e, f⟩ := r
    have e1 : carve ((b, e, f) :: u) lo hi = (if hi ≤ b ∨ e ≤ lo then [(b, e, f)]
        else (if b < lo then [(b, lo, f)] else []) ++ (if hi < e then [(hi, e, f)] else [])) ++ carve u lo hi := by
      simp [carve, List.flatMap_cons]
    rw [e1, List.find?_append]
    by_cases hin : b ≤ a ∧ a < e
    · have hr : List.find? (fun r : Nat × Nat × Nat => r.1 ≤ a && a < r.2.1) ((b, e, f) :: u) = some (b, e, f) := by
        simp [List.find?, hin]
      rw [hr]
      split
      · simp [List.find?, hin]
      · rename_i hc
        rcases h with h | h
        · have : b < lo := by omega
          simp [this, hin.1, h]
        · have h2 : hi < e := by omega
          by_cases hb : b < lo
          · simp [hb, h2, List.find?, hin.2, h, show ¬ a < lo by omega]
          · simp [hb, h2, hin.2, h]
    · have hr : List.find? (fun r : Nat × Nat × Nat => r.1 ≤ a && a < r.2.1) ((b, e, f) :: u) =
          List.find? (fun r : Nat × Nat × Nat => r.1 ≤ a && a < r.2.1) u := by
        have : (decide (b ≤ a) && decide (a < e)) = false := by
          simp; omega
        simp [List.find?, this]
      rw [hr, ← ih]
      have hnone : List.find? (fun r : Nat × Nat × Nat => r.1 ≤ a && a < r.2.1) (if hi ≤ b ∨ e ≤ lo then [(b, e, f)]
          else (if b < lo then [(b, lo, f)] else []) ++ (if hi < e then [(hi, e, f)] else [])) = none := by
        rw [List.find?_eq_none]
        intro r hr
        split at hr
        · simp at hr; subst hr; simp; omega
        · rcases List.mem_append.1 hr with hr | hr
          · split at hr
            · simp at hr; subst hr; simp; omega
            · simp at hr
          · split at hr
            · simp at hr; subst hr; simp; omega
            · simp at hr
      rw [hnone]; rfl

/-- No undefined range is left where a range was cut out. -/
theorem find_carve_in (u : List (Nat × Nat × Nat)) (lo hi a : Nat) (h : lo ≤ a) (h' : a < hi) :
    (carve u lo hi).find? (fun r => r.1 ≤ a && a < r.2.1) = none := by
  rw [List.find?_eq_none]
  intro r hr
  obtain ⟨x, _, hr⟩ := List.mem_flatMap.1 hr
  split at hr
  · simp at hr; subst hr; simp; omega
  · rcases List.mem_append.1 hr with hr | hr
    · split at hr
      · simp at hr; subst hr; simp; omega
      · simp at hr
    · split at hr
      · simp at hr; subst hr; simp; omega
      · simp at hr

theorem memByte_of_find (s t : State) (a : Nat)
    (h : (t.undef.find? (fun r => r.1 ≤ a && a < r.2.1)).map (·.2.2) = (s.undef.find? (fun r => r.1 ≤ a && a < r.2.1)).map (·.2.2))
    (hm : sget 0 t.mem a = sget 0 s.mem a) : memByte t a = memByte s a := by
  unfold memByte
  cases h1 : t.undef.find? (fun r => r.1 ≤ a && a < r.2.1) <;> cases h2 : s.undef.find? (fun r => r.1 ≤ a && a < r.2.1) <;> simp_all

theorem sget_ssetAll_out {α : Type} [DecidableEq α] (z : α) (vs : List α) : ∀ (k a : Nat) (m : Sparse α), swf (fun _ => z) m = true →
    (a < k ∨ k + vs.length ≤ a) → sget z (ssetAll z m k vs) a = sget z m a := by
  induction vs with
  | nil => intro k a m _ _; rfl
  | cons v vs ih =>
    intro k a m hm h
    simp only [List.length_cons] at h
    simp only [ssetAll]
    rw [ih (k + 1) a _ (swf_sset (fun _ => z) k v m hm) (by omega)]
    exact sget_sset_ne (fun _ => z) k a v m hm (by omega)

theorem sget_ssetAll_in {α : Type} [DecidableEq α] (z : α) (vs : List α) : ∀ (k i : Nat) (m : Sparse α), swf (fun _ => z) m = true →
    (h : i < vs.length) → sget z (ssetAll z m k vs) (k + i) = vs[i] := by
  induction vs with
  | nil => intro k i m _ h; simp at h
  | cons v vs ih =>
    intro k i m hm h
    simp only [ssetAll]
    cases i with
    | zero =>
      rw [sget_ssetAll_out z vs (k + 1) (k + 0) _ (swf_sset (fun _ => z) k v m hm) (by omega)]
      exact sget_sset_same (fun _ => z) k v m hm
    | succ i =>
      have := ih (k + 1) i _ (swf_sset (fun _ => z) k v m hm) (by simpa using h)
      simpa [Nat.add_assoc, Nat.add_comm 1 i] using this

/-- A memory write leaves every byte outside it as it was. -/
theorem memByte_memPut_out {s : State} (h : s.Inv) (p : Nat) (bs : List Byte) (a : Nat) (ha : a < p ∨ p + bs.length ≤ a) :
    memByte (memPut s p bs) a = memByte s a :=
  memByte_of_find s _ a (find_carve s.undef p (p + bs.length) a (by omega) ha) (sget_ssetAll_out 0 bs p a s.mem h.mem ha)

/-- A memory write is read back. -/
theorem memByte_memPut_in {s : State} (h : s.Inv) (p : Nat) (bs : List Byte) (i : Nat) (hi : i < bs.length) :
    memByte (memPut s p bs) (p + i) = bs[i] := by
  have hf : (memPut s p bs).undef.find? (fun r => r.1 ≤ p + i && p + i < r.2.1) = none :=
    find_carve_in s.undef p (p + bs.length) (p + i) (by omega) (by omega)
  unfold memByte
  rw [hf]
  exact sget_ssetAll_in 0 bs p i s.mem h.mem hi

/-- R57, R58, R61: the ways an instruction issues: it may not issue; it faults on its profile or its fields; its guard skips it; or its effect happens. -/
theorem insn_eq (s : State) (t : Tid) (o : Opnds) (cls : Nat) (r : Option RShape) (i : Option IShape) (eff : Nat → State → Res)
    (h1 : canIssue s (tkey t) = true) (h2 : classOk cls (isS (tkey t)) = true) (h3 : shapeOk r i o = true)
    (h4 : guardOk (th s (tkey t)) o.ge o.gn o.pg.toNat = true) :
    insn s t o cls r i eff = .next (finish (tkey t) cls (eff (tkey t) s)) := by
  simp [insn, insnW, h1, h2, h3, h4]

/-- An effect on the thread alone, then retirement: the thread is replaced once. -/
theorem finish_onTh {s : State} (h : s.Inv) (k cls : Nat) (f : Thread → Thread) :
    finish k cls (onTh f k s) = setTh s k { f (th s k) with pc := (f (th s k)).pc + 8 } := by
  simp only [onTh, finish, retire]
  rw [th_setTh_same h, setTh_setTh h]

end Sys2Proof.Machine
end

