-- ==== Sys2Proof/Laws/PerInstr.lean ====
section
/-! SUPPORT. Statements made of every command, one lemma per constructor of Instr. No row of the opcode table gives bits, so no word spells a command. -/

/-- No word of any width spells this command. -/
def Sys2Proof.Laws.NoWord.Statement (i : Sys2Proof.Instr) : Prop := ∀ nbits w : Nat, Sys2Proof.decodeTableWord nbits w ≠ some i

theorem Sys2Proof.Laws.NoWord.add (t : Tid) (o : Opnds) : Sys2Proof.Laws.NoWord.Statement (.add t o) := fun _ _ => nofun
theorem Sys2Proof.Laws.NoWord.sub (t : Tid) (o : Opnds) : Sys2Proof.Laws.NoWord.Statement (.sub t o) := fun _ _ => nofun
theorem Sys2Proof.Laws.NoWord.mul (t : Tid) (o : Opnds) : Sys2Proof.Laws.NoWord.Statement (.mul t o) := fun _ _ => nofun
theorem Sys2Proof.Laws.NoWord.mulhs (t : Tid) (o : Opnds) : Sys2Proof.Laws.NoWord.Statement (.mulhs t o) := fun _ _ => nofun
theorem Sys2Proof.Laws.NoWord.mulhu (t : Tid) (o : Opnds) : Sys2Proof.Laws.NoWord.Statement (.mulhu t o) := fun _ _ => nofun
theorem Sys2Proof.Laws.NoWord.divs (t : Tid) (o : Opnds) : Sys2Proof.Laws.NoWord.Statement (.divs t o) := fun _ _ => nofun
theorem Sys2Proof.Laws.NoWord.divu (t : Tid) (o : Opnds) : Sys2Proof.Laws.NoWord.Statement (.divu t o) := fun _ _ => nofun
theorem Sys2Proof.Laws.NoWord.rems (t : Tid) (o : Opnds) : Sys2Proof.Laws.NoWord.Statement (.rems t o) := fun _ _ => nofun
theorem Sys2Proof.Laws.NoWord.remu (t : Tid) (o : Opnds) : Sys2Proof.Laws.NoWord.Statement (.remu t o) := fun _ _ => nofun
theorem Sys2Proof.Laws.NoWord.and (t : Tid) (o : Opnds) : Sys2Proof.Laws.NoWord.Statement (.and t o) := fun _ _ => nofun
theorem Sys2Proof.Laws.NoWord.or (t : Tid) (o : Opnds) : Sys2Proof.Laws.NoWord.Statement (.or t o) := fun _ _ => nofun
theorem Sys2Proof.Laws.NoWord.xor (t : Tid) (o : Opnds) : Sys2Proof.Laws.NoWord.Statement (.xor t o) := fun _ _ => nofun
theorem Sys2Proof.Laws.NoWord.shl (t : Tid) (o : Opnds) : Sys2Proof.Laws.NoWord.Statement (.shl t o) := fun _ _ => nofun
theorem Sys2Proof.Laws.NoWord.shr (t : Tid) (o : Opnds) : Sys2Proof.Laws.NoWord.Statement (.shr t o) := fun _ _ => nofun
theorem Sys2Proof.Laws.NoWord.sar (t : Tid) (o : Opnds) : Sys2Proof.Laws.NoWord.Statement (.sar t o) := fun _ _ => nofun
theorem Sys2Proof.Laws.NoWord.mins (t : Tid) (o : Opnds) : Sys2Proof.Laws.NoWord.Statement (.mins t o) := fun _ _ => nofun
theorem Sys2Proof.Laws.NoWord.maxs (t : Tid) (o : Opnds) : Sys2Proof.Laws.NoWord.Statement (.maxs t o) := fun _ _ => nofun
theorem Sys2Proof.Laws.NoWord.minu (t : Tid) (o : Opnds) : Sys2Proof.Laws.NoWord.Statement (.minu t o) := fun _ _ => nofun
theorem Sys2Proof.Laws.NoWord.maxu (t : Tid) (o : Opnds) : Sys2Proof.Laws.NoWord.Statement (.maxu t o) := fun _ _ => nofun
theorem Sys2Proof.Laws.NoWord.cmpeq (t : Tid) (o : Opnds) : Sys2Proof.Laws.NoWord.Statement (.cmpeq t o) := fun _ _ => nofun
theorem Sys2Proof.Laws.NoWord.cmpne (t : Tid) (o : Opnds) : Sys2Proof.Laws.NoWord.Statement (.cmpne t o) := fun _ _ => nofun
theorem Sys2Proof.Laws.NoWord.cmplts (t : Tid) (o : Opnds) : Sys2Proof.Laws.NoWord.Statement (.cmplts t o) := fun _ _ => nofun
theorem Sys2Proof.Laws.NoWord.cmpltu (t : Tid) (o : Opnds) : Sys2Proof.Laws.NoWord.Statement (.cmpltu t o) := fun _ _ => nofun
theorem Sys2Proof.Laws.NoWord.cmples (t : Tid) (o : Opnds) : Sys2Proof.Laws.NoWord.Statement (.cmples t o) := fun _ _ => nofun
theorem Sys2Proof.Laws.NoWord.cmpleu (t : Tid) (o : Opnds) : Sys2Proof.Laws.NoWord.Statement (.cmpleu t o) := fun _ _ => nofun
theorem Sys2Proof.Laws.NoWord.mov (t : Tid) (o : Opnds) : Sys2Proof.Laws.NoWord.Statement (.mov t o) := fun _ _ => nofun
theorem Sys2Proof.Laws.NoWord.movhi (t : Tid) (o : Opnds) : Sys2Proof.Laws.NoWord.Statement (.movhi t o) := fun _ _ => nofun
theorem Sys2Proof.Laws.NoWord.ld1 (t : Tid) (o : Opnds) : Sys2Proof.Laws.NoWord.Statement (.ld1 t o) := fun _ _ => nofun
theorem Sys2Proof.Laws.NoWord.ld2 (t : Tid) (o : Opnds) : Sys2Proof.Laws.NoWord.Statement (.ld2 t o) := fun _ _ => nofun
theorem Sys2Proof.Laws.NoWord.ld4 (t : Tid) (o : Opnds) : Sys2Proof.Laws.NoWord.Statement (.ld4 t o) := fun _ _ => nofun
theorem Sys2Proof.Laws.NoWord.ld8 (t : Tid) (o : Opnds) : Sys2Proof.Laws.NoWord.Statement (.ld8 t o) := fun _ _ => nofun
theorem Sys2Proof.Laws.NoWord.st1 (t : Tid) (o : Opnds) : Sys2Proof.Laws.NoWord.Statement (.st1 t o) := fun _ _ => nofun
theorem Sys2Proof.Laws.NoWord.st2 (t : Tid) (o : Opnds) : Sys2Proof.Laws.NoWord.Statement (.st2 t o) := fun _ _ => nofun
theorem Sys2Proof.Laws.NoWord.st4 (t : Tid) (o : Opnds) : Sys2Proof.Laws.NoWord.Statement (.st4 t o) := fun _ _ => nofun
theorem Sys2Proof.Laws.NoWord.st8 (t : Tid) (o : Opnds) : Sys2Proof.Laws.NoWord.Statement (.st8 t o) := fun _ _ => nofun
theorem Sys2Proof.Laws.NoWord.fld (t : Tid) (o : Opnds) : Sys2Proof.Laws.NoWord.Statement (.fld t o) := fun _ _ => nofun
theorem Sys2Proof.Laws.NoWord.fst (t : Tid) (o : Opnds) : Sys2Proof.Laws.NoWord.Statement (.fst t o) := fun _ _ => nofun
theorem Sys2Proof.Laws.NoWord.fadd (t : Tid) (o : Opnds) : Sys2Proof.Laws.NoWord.Statement (.fadd t o) := fun _ _ => nofun
theorem Sys2Proof.Laws.NoWord.fsub (t : Tid) (o : Opnds) : Sys2Proof.Laws.NoWord.Statement (.fsub t o) := fun _ _ => nofun
theorem Sys2Proof.Laws.NoWord.fmul (t : Tid) (o : Opnds) : Sys2Proof.Laws.NoWord.Statement (.fmul t o) := fun _ _ => nofun
theorem Sys2Proof.Laws.NoWord.fdiv (t : Tid) (o : Opnds) : Sys2Proof.Laws.NoWord.Statement (.fdiv t o) := fun _ _ => nofun
theorem Sys2Proof.Laws.NoWord.fsqrt (t : Tid) (o : Opnds) : Sys2Proof.Laws.NoWord.Statement (.fsqrt t o) := fun _ _ => nofun
theorem Sys2Proof.Laws.NoWord.ffma (t : Tid) (o : Opnds) : Sys2Proof.Laws.NoWord.Statement (.ffma t o) := fun _ _ => nofun
theorem Sys2Proof.Laws.NoWord.fmin (t : Tid) (o : Opnds) : Sys2Proof.Laws.NoWord.Statement (.fmin t o) := fun _ _ => nofun
theorem Sys2Proof.Laws.NoWord.fmax (t : Tid) (o : Opnds) : Sys2Proof.Laws.NoWord.Statement (.fmax t o) := fun _ _ => nofun
theorem Sys2Proof.Laws.NoWord.fcmpeq (t : Tid) (o : Opnds) : Sys2Proof.Laws.NoWord.Statement (.fcmpeq t o) := fun _ _ => nofun
theorem Sys2Proof.Laws.NoWord.fcmplt (t : Tid) (o : Opnds) : Sys2Proof.Laws.NoWord.Statement (.fcmplt t o) := fun _ _ => nofun
theorem Sys2Proof.Laws.NoWord.fcmple (t : Tid) (o : Opnds) : Sys2Proof.Laws.NoWord.Statement (.fcmple t o) := fun _ _ => nofun
theorem Sys2Proof.Laws.NoWord.fcvti (t : Tid) (o : Opnds) : Sys2Proof.Laws.NoWord.Statement (.fcvti t o) := fun _ _ => nofun
theorem Sys2Proof.Laws.NoWord.fcvtf (t : Tid) (o : Opnds) : Sys2Proof.Laws.NoWord.Statement (.fcvtf t o) := fun _ _ => nofun
theorem Sys2Proof.Laws.NoWord.fmovx (t : Tid) (o : Opnds) : Sys2Proof.Laws.NoWord.Statement (.fmovx t o) := fun _ _ => nofun
theorem Sys2Proof.Laws.NoWord.fmovf (t : Tid) (o : Opnds) : Sys2Proof.Laws.NoWord.Statement (.fmovf t o) := fun _ _ => nofun
theorem Sys2Proof.Laws.NoWord.pand (t : Tid) (o : Opnds) : Sys2Proof.Laws.NoWord.Statement (.pand t o) := fun _ _ => nofun
theorem Sys2Proof.Laws.NoWord.por (t : Tid) (o : Opnds) : Sys2Proof.Laws.NoWord.Statement (.por t o) := fun _ _ => nofun
theorem Sys2Proof.Laws.NoWord.pxor (t : Tid) (o : Opnds) : Sys2Proof.Laws.NoWord.Statement (.pxor t o) := fun _ _ => nofun
theorem Sys2Proof.Laws.NoWord.pnot (t : Tid) (o : Opnds) : Sys2Proof.Laws.NoWord.Statement (.pnot t o) := fun _ _ => nofun
theorem Sys2Proof.Laws.NoWord.pset (t : Tid) (o : Opnds) : Sys2Proof.Laws.NoWord.Statement (.pset t o) := fun _ _ => nofun
theorem Sys2Proof.Laws.NoWord.rdltc (t : Tid) (o : Opnds) : Sys2Proof.Laws.NoWord.Statement (.rdltc t o) := fun _ _ => nofun
theorem Sys2Proof.Laws.NoWord.rdnstat (t : Tid) (o : Opnds) : Sys2Proof.Laws.NoWord.Statement (.rdnstat t o) := fun _ _ => nofun
theorem Sys2Proof.Laws.NoWord.nstclr (t : Tid) (o : Opnds) : Sys2Proof.Laws.NoWord.Statement (.nstclr t o) := fun _ _ => nofun
theorem Sys2Proof.Laws.NoWord.rdctr (t : Tid) (o : Opnds) : Sys2Proof.Laws.NoWord.Statement (.rdctr t o) := fun _ _ => nofun
theorem Sys2Proof.Laws.NoWord.rdid (t : Tid) (o : Opnds) : Sys2Proof.Laws.NoWord.Statement (.rdid t o) := fun _ _ => nofun
theorem Sys2Proof.Laws.NoWord.br (t : Tid) (o : Opnds) : Sys2Proof.Laws.NoWord.Statement (.br t o) := fun _ _ => nofun
theorem Sys2Proof.Laws.NoWord.jal (t : Tid) (o : Opnds) : Sys2Proof.Laws.NoWord.Statement (.jal t o) := fun _ _ => nofun
theorem Sys2Proof.Laws.NoWord.jr (t : Tid) (o : Opnds) : Sys2Proof.Laws.NoWord.Statement (.jr t o) := fun _ _ => nofun
theorem Sys2Proof.Laws.NoWord.endProg (t : Tid) (o : Opnds) : Sys2Proof.Laws.NoWord.Statement (.endProg t o) := fun _ _ => nofun
theorem Sys2Proof.Laws.NoWord.nop (t : Tid) (o : Opnds) : Sys2Proof.Laws.NoWord.Statement (.nop t o) := fun _ _ => nofun
theorem Sys2Proof.Laws.NoWord.trace (t : Tid) (o : Opnds) : Sys2Proof.Laws.NoWord.Statement (.trace t o) := fun _ _ => nofun
theorem Sys2Proof.Laws.NoWord.setc (t : Tid) (o : Opnds) : Sys2Proof.Laws.NoWord.Statement (.setc t o) := fun _ _ => nofun
theorem Sys2Proof.Laws.NoWord.wait (t : Tid) (o : Opnds) : Sys2Proof.Laws.NoWord.Statement (.wait t o) := fun _ _ => nofun
theorem Sys2Proof.Laws.NoWord.waitr (t : Tid) (o : Opnds) : Sys2Proof.Laws.NoWord.Statement (.waitr t o) := fun _ _ => nofun
theorem Sys2Proof.Laws.NoWord.waitd (t : Tid) (o : Opnds) : Sys2Proof.Laws.NoWord.Statement (.waitd t o) := fun _ _ => nofun
theorem Sys2Proof.Laws.NoWord.waitRelease (t : Tid) : Sys2Proof.Laws.NoWord.Statement (.waitRelease t) := fun _ _ => nofun
theorem Sys2Proof.Laws.NoWord.waitdDeadline (t : Tid) : Sys2Proof.Laws.NoWord.Statement (.waitdDeadline t) := fun _ _ => nofun
theorem Sys2Proof.Laws.NoWord.fence (t : Tid) (o : Opnds) : Sys2Proof.Laws.NoWord.Statement (.fence t o) := fun _ _ => nofun
theorem Sys2Proof.Laws.NoWord.fenceComplete (t : Tid) : Sys2Proof.Laws.NoWord.Statement (.fenceComplete t) := fun _ _ => nofun
theorem Sys2Proof.Laws.NoWord.stream (t : Tid) (o : StreamOps) : Sys2Proof.Laws.NoWord.Statement (.stream t o) := fun _ _ => nofun
theorem Sys2Proof.Laws.NoWord.sdldB (t : Tid) (o : Opnds) : Sys2Proof.Laws.NoWord.Statement (.sdldB t o) := fun _ _ => nofun
theorem Sys2Proof.Laws.NoWord.sdldE (t : Tid) (o : Opnds) : Sys2Proof.Laws.NoWord.Statement (.sdldE t o) := fun _ _ => nofun
theorem Sys2Proof.Laws.NoWord.sdadd (t : Tid) (o : Opnds) : Sys2Proof.Laws.NoWord.Statement (.sdadd t o) := fun _ _ => nofun
theorem Sys2Proof.Laws.NoWord.copy (t : Tid) (o : Opnds) : Sys2Proof.Laws.NoWord.Statement (.copy t o) := fun _ _ => nofun
theorem Sys2Proof.Laws.NoWord.rget (t : Tid) (o : Opnds) : Sys2Proof.Laws.NoWord.Statement (.rget t o) := fun _ _ => nofun
theorem Sys2Proof.Laws.NoWord.rput (t : Tid) (o : Opnds) : Sys2Proof.Laws.NoWord.Statement (.rput t o) := fun _ _ => nofun
theorem Sys2Proof.Laws.NoWord.rputf (t : Tid) (o : Opnds) : Sys2Proof.Laws.NoWord.Statement (.rputf t o) := fun _ _ => nofun
theorem Sys2Proof.Laws.NoWord.radd (t : Tid) (o : Opnds) : Sys2Proof.Laws.NoWord.Statement (.radd t o) := fun _ _ => nofun
theorem Sys2Proof.Laws.NoWord.rmin (t : Tid) (o : Opnds) : Sys2Proof.Laws.NoWord.Statement (.rmin t o) := fun _ _ => nofun
theorem Sys2Proof.Laws.NoWord.rmax (t : Tid) (o : Opnds) : Sys2Proof.Laws.NoWord.Statement (.rmax t o) := fun _ _ => nofun
theorem Sys2Proof.Laws.NoWord.rand (t : Tid) (o : Opnds) : Sys2Proof.Laws.NoWord.Statement (.rand t o) := fun _ _ => nofun
theorem Sys2Proof.Laws.NoWord.ror (t : Tid) (o : Opnds) : Sys2Proof.Laws.NoWord.Statement (.ror t o) := fun _ _ => nofun
theorem Sys2Proof.Laws.NoWord.rxor (t : Tid) (o : Opnds) : Sys2Proof.Laws.NoWord.Statement (.rxor t o) := fun _ _ => nofun
theorem Sys2Proof.Laws.NoWord.rswap (t : Tid) (o : Opnds) : Sys2Proof.Laws.NoWord.Statement (.rswap t o) := fun _ _ => nofun
theorem Sys2Proof.Laws.NoWord.rcas8 (t : Tid) (o : Opnds) : Sys2Proof.Laws.NoWord.Statement (.rcas8 t o) := fun _ _ => nofun
theorem Sys2Proof.Laws.NoWord.rcas16 (t : Tid) (o : Opnds) : Sys2Proof.Laws.NoWord.Statement (.rcas16 t o) := fun _ _ => nofun
theorem Sys2Proof.Laws.NoWord.mxpassB (t : Tid) (o : Opnds) : Sys2Proof.Laws.NoWord.Statement (.mxpassB t o) := fun _ _ => nofun
theorem Sys2Proof.Laws.NoWord.mxpassE (t : Tid) (o : Opnds) : Sys2Proof.Laws.NoWord.Statement (.mxpassE t o) := fun _ _ => nofun
theorem Sys2Proof.Laws.NoWord.mxswap (t : Tid) (o : Opnds) : Sys2Proof.Laws.NoWord.Statement (.mxswap t o) := fun _ _ => nofun
theorem Sys2Proof.Laws.NoWord.mxend (t : Tid) (o : Opnds) : Sys2Proof.Laws.NoWord.Statement (.mxend t o) := fun _ _ => nofun
theorem Sys2Proof.Laws.NoWord.trsetB (t : Tid) (o : Opnds) : Sys2Proof.Laws.NoWord.Statement (.trsetB t o) := fun _ _ => nofun
theorem Sys2Proof.Laws.NoWord.trsetE (t : Tid) (o : Opnds) : Sys2Proof.Laws.NoWord.Statement (.trsetE t o) := fun _ _ => nofun
theorem Sys2Proof.Laws.NoWord.trend (t : Tid) (o : Opnds) : Sys2Proof.Laws.NoWord.Statement (.trend t o) := fun _ _ => nofun
theorem Sys2Proof.Laws.NoWord.eweRunB (t : Tid) (o : Opnds) : Sys2Proof.Laws.NoWord.Statement (.eweRunB t o) := fun _ _ => nofun
theorem Sys2Proof.Laws.NoWord.eweRunE (t : Tid) (o : Opnds) : Sys2Proof.Laws.NoWord.Statement (.eweRunE t o) := fun _ _ => nofun
theorem Sys2Proof.Laws.NoWord.eweImm (t : Tid) (o : Opnds) : Sys2Proof.Laws.NoWord.Statement (.eweImm t o) := fun _ _ => nofun
theorem Sys2Proof.Laws.NoWord.eweLdp (t : Tid) (o : Opnds) : Sys2Proof.Laws.NoWord.Statement (.eweLdp t o) := fun _ _ => nofun
theorem Sys2Proof.Laws.NoWord.eweLdr (t : Tid) (o : Opnds) : Sys2Proof.Laws.NoWord.Statement (.eweLdr t o) := fun _ _ => nofun
theorem Sys2Proof.Laws.NoWord.eweStr (t : Tid) (o : Opnds) : Sys2Proof.Laws.NoWord.Statement (.eweStr t o) := fun _ _ => nofun
theorem Sys2Proof.Laws.NoWord.eweRexec (t : Tid) (o : Opnds) : Sys2Proof.Laws.NoWord.Statement (.eweRexec t o) := fun _ _ => nofun
theorem Sys2Proof.Laws.NoWord.rduOpB (t : Tid) (o : Opnds) : Sys2Proof.Laws.NoWord.Statement (.rduOpB t o) := fun _ _ => nofun
theorem Sys2Proof.Laws.NoWord.rduOpE (t : Tid) (o : Opnds) : Sys2Proof.Laws.NoWord.Statement (.rduOpE t o) := fun _ _ => nofun
theorem Sys2Proof.Laws.NoWord.rduEnd (t : Tid) (o : Opnds) : Sys2Proof.Laws.NoWord.Statement (.rduEnd t o) := fun _ _ => nofun
theorem Sys2Proof.Laws.NoWord.rduRreg (t : Tid) (o : Opnds) : Sys2Proof.Laws.NoWord.Statement (.rduRreg t o) := fun _ _ => nofun
theorem Sys2Proof.Laws.NoWord.classInstructionAtStation (core : Nat) (station : Nat) : Sys2Proof.Laws.NoWord.Statement (.classInstructionAtStation core station) := fun _ _ => nofun
theorem Sys2Proof.Laws.NoWord.setvl (t : Tid) (o : Opnds) : Sys2Proof.Laws.NoWord.Statement (.setvl t o) := fun _ _ => nofun
theorem Sys2Proof.Laws.NoWord.setvlr (t : Tid) (o : Opnds) : Sys2Proof.Laws.NoWord.Statement (.setvlr t o) := fun _ _ => nofun
theorem Sys2Proof.Laws.NoWord.vld (t : Tid) (o : Opnds) : Sys2Proof.Laws.NoWord.Statement (.vld t o) := fun _ _ => nofun
theorem Sys2Proof.Laws.NoWord.vldff (t : Tid) (o : Opnds) : Sys2Proof.Laws.NoWord.Statement (.vldff t o) := fun _ _ => nofun
theorem Sys2Proof.Laws.NoWord.vlds (t : Tid) (o : Opnds) : Sys2Proof.Laws.NoWord.Statement (.vlds t o) := fun _ _ => nofun
theorem Sys2Proof.Laws.NoWord.vldx (t : Tid) (o : Opnds) : Sys2Proof.Laws.NoWord.Statement (.vldx t o) := fun _ _ => nofun
theorem Sys2Proof.Laws.NoWord.vldxff (t : Tid) (o : Opnds) : Sys2Proof.Laws.NoWord.Statement (.vldxff t o) := fun _ _ => nofun
theorem Sys2Proof.Laws.NoWord.vldseg (t : Tid) (o : Opnds) : Sys2Proof.Laws.NoWord.Statement (.vldseg t o) := fun _ _ => nofun
theorem Sys2Proof.Laws.NoWord.vrgather (t : Tid) (o : Opnds) : Sys2Proof.Laws.NoWord.Statement (.vrgather t o) := fun _ _ => nofun
theorem Sys2Proof.Laws.NoWord.vst (t : Tid) (o : Opnds) : Sys2Proof.Laws.NoWord.Statement (.vst t o) := fun _ _ => nofun
theorem Sys2Proof.Laws.NoWord.vsts (t : Tid) (o : Opnds) : Sys2Proof.Laws.NoWord.Statement (.vsts t o) := fun _ _ => nofun
theorem Sys2Proof.Laws.NoWord.vstx (t : Tid) (o : Opnds) : Sys2Proof.Laws.NoWord.Statement (.vstx t o) := fun _ _ => nofun
theorem Sys2Proof.Laws.NoWord.vstseg (t : Tid) (o : Opnds) : Sys2Proof.Laws.NoWord.Statement (.vstseg t o) := fun _ _ => nofun
theorem Sys2Proof.Laws.NoWord.vfadd (t : Tid) (o : Opnds) : Sys2Proof.Laws.NoWord.Statement (.vfadd t o) := fun _ _ => nofun
theorem Sys2Proof.Laws.NoWord.vfsub (t : Tid) (o : Opnds) : Sys2Proof.Laws.NoWord.Statement (.vfsub t o) := fun _ _ => nofun
theorem Sys2Proof.Laws.NoWord.vfmul (t : Tid) (o : Opnds) : Sys2Proof.Laws.NoWord.Statement (.vfmul t o) := fun _ _ => nofun
theorem Sys2Proof.Laws.NoWord.vfdiv (t : Tid) (o : Opnds) : Sys2Proof.Laws.NoWord.Statement (.vfdiv t o) := fun _ _ => nofun
theorem Sys2Proof.Laws.NoWord.vfsqrt (t : Tid) (o : Opnds) : Sys2Proof.Laws.NoWord.Statement (.vfsqrt t o) := fun _ _ => nofun
theorem Sys2Proof.Laws.NoWord.vfma (t : Tid) (o : Opnds) : Sys2Proof.Laws.NoWord.Statement (.vfma t o) := fun _ _ => nofun
theorem Sys2Proof.Laws.NoWord.vfmin (t : Tid) (o : Opnds) : Sys2Proof.Laws.NoWord.Statement (.vfmin t o) := fun _ _ => nofun
theorem Sys2Proof.Laws.NoWord.vfmax (t : Tid) (o : Opnds) : Sys2Proof.Laws.NoWord.Statement (.vfmax t o) := fun _ _ => nofun
theorem Sys2Proof.Laws.NoWord.vfcmpeq (t : Tid) (o : Opnds) : Sys2Proof.Laws.NoWord.Statement (.vfcmpeq t o) := fun _ _ => nofun
theorem Sys2Proof.Laws.NoWord.vfcmplt (t : Tid) (o : Opnds) : Sys2Proof.Laws.NoWord.Statement (.vfcmplt t o) := fun _ _ => nofun
theorem Sys2Proof.Laws.NoWord.vfcmple (t : Tid) (o : Opnds) : Sys2Proof.Laws.NoWord.Statement (.vfcmple t o) := fun _ _ => nofun
theorem Sys2Proof.Laws.NoWord.vcvt (t : Tid) (o : Opnds) : Sys2Proof.Laws.NoWord.Statement (.vcvt t o) := fun _ _ => nofun
theorem Sys2Proof.Laws.NoWord.vadd (t : Tid) (o : Opnds) : Sys2Proof.Laws.NoWord.Statement (.vadd t o) := fun _ _ => nofun
theorem Sys2Proof.Laws.NoWord.vsub (t : Tid) (o : Opnds) : Sys2Proof.Laws.NoWord.Statement (.vsub t o) := fun _ _ => nofun
theorem Sys2Proof.Laws.NoWord.vsadd (t : Tid) (o : Opnds) : Sys2Proof.Laws.NoWord.Statement (.vsadd t o) := fun _ _ => nofun
theorem Sys2Proof.Laws.NoWord.vssub (t : Tid) (o : Opnds) : Sys2Proof.Laws.NoWord.Statement (.vssub t o) := fun _ _ => nofun
theorem Sys2Proof.Laws.NoWord.vaadd (t : Tid) (o : Opnds) : Sys2Proof.Laws.NoWord.Statement (.vaadd t o) := fun _ _ => nofun
theorem Sys2Proof.Laws.NoWord.vmul (t : Tid) (o : Opnds) : Sys2Proof.Laws.NoWord.Statement (.vmul t o) := fun _ _ => nofun
theorem Sys2Proof.Laws.NoWord.vmulh (t : Tid) (o : Opnds) : Sys2Proof.Laws.NoWord.Statement (.vmulh t o) := fun _ _ => nofun
theorem Sys2Proof.Laws.NoWord.vmulhq (t : Tid) (o : Opnds) : Sys2Proof.Laws.NoWord.Statement (.vmulhq t o) := fun _ _ => nofun
theorem Sys2Proof.Laws.NoWord.vmin (t : Tid) (o : Opnds) : Sys2Proof.Laws.NoWord.Statement (.vmin t o) := fun _ _ => nofun
theorem Sys2Proof.Laws.NoWord.vmax (t : Tid) (o : Opnds) : Sys2Proof.Laws.NoWord.Statement (.vmax t o) := fun _ _ => nofun
theorem Sys2Proof.Laws.NoWord.vand (t : Tid) (o : Opnds) : Sys2Proof.Laws.NoWord.Statement (.vand t o) := fun _ _ => nofun
theorem Sys2Proof.Laws.NoWord.vor (t : Tid) (o : Opnds) : Sys2Proof.Laws.NoWord.Statement (.vor t o) := fun _ _ => nofun
theorem Sys2Proof.Laws.NoWord.vxor (t : Tid) (o : Opnds) : Sys2Proof.Laws.NoWord.Statement (.vxor t o) := fun _ _ => nofun
theorem Sys2Proof.Laws.NoWord.vshl (t : Tid) (o : Opnds) : Sys2Proof.Laws.NoWord.Statement (.vshl t o) := fun _ _ => nofun
theorem Sys2Proof.Laws.NoWord.vsra (t : Tid) (o : Opnds) : Sys2Proof.Laws.NoWord.Statement (.vsra t o) := fun _ _ => nofun
theorem Sys2Proof.Laws.NoWord.vnshr (t : Tid) (o : Opnds) : Sys2Proof.Laws.NoWord.Statement (.vnshr t o) := fun _ _ => nofun
theorem Sys2Proof.Laws.NoWord.vcmpeq (t : Tid) (o : Opnds) : Sys2Proof.Laws.NoWord.Statement (.vcmpeq t o) := fun _ _ => nofun
theorem Sys2Proof.Laws.NoWord.vcmplt (t : Tid) (o : Opnds) : Sys2Proof.Laws.NoWord.Statement (.vcmplt t o) := fun _ _ => nofun
theorem Sys2Proof.Laws.NoWord.vdot (t : Tid) (o : Opnds) : Sys2Proof.Laws.NoWord.Statement (.vdot t o) := fun _ _ => nofun
theorem Sys2Proof.Laws.NoWord.vaccadd (t : Tid) (o : Opnds) : Sys2Proof.Laws.NoWord.Statement (.vaccadd t o) := fun _ _ => nofun
theorem Sys2Proof.Laws.NoWord.vdotr (t : Tid) (o : Opnds) : Sys2Proof.Laws.NoWord.Statement (.vdotr t o) := fun _ _ => nofun
theorem Sys2Proof.Laws.NoWord.vredsum (t : Tid) (o : Opnds) : Sys2Proof.Laws.NoWord.Statement (.vredsum t o) := fun _ _ => nofun
theorem Sys2Proof.Laws.NoWord.vredmax (t : Tid) (o : Opnds) : Sys2Proof.Laws.NoWord.Statement (.vredmax t o) := fun _ _ => nofun
theorem Sys2Proof.Laws.NoWord.vredmin (t : Tid) (o : Opnds) : Sys2Proof.Laws.NoWord.Statement (.vredmin t o) := fun _ _ => nofun
theorem Sys2Proof.Laws.NoWord.vpcnt (t : Tid) (o : Opnds) : Sys2Proof.Laws.NoWord.Statement (.vpcnt t o) := fun _ _ => nofun
theorem Sys2Proof.Laws.NoWord.vpfirst (t : Tid) (o : Opnds) : Sys2Proof.Laws.NoWord.Statement (.vpfirst t o) := fun _ _ => nofun
theorem Sys2Proof.Laws.NoWord.vmov (t : Tid) (o : Opnds) : Sys2Proof.Laws.NoWord.Statement (.vmov t o) := fun _ _ => nofun
theorem Sys2Proof.Laws.NoWord.viota (t : Tid) (o : Opnds) : Sys2Proof.Laws.NoWord.Statement (.viota t o) := fun _ _ => nofun
theorem Sys2Proof.Laws.NoWord.solveB (t : Tid) (o : Opnds) : Sys2Proof.Laws.NoWord.Statement (.solveB t o) := fun _ _ => nofun
theorem Sys2Proof.Laws.NoWord.solveE (t : Tid) (o : Opnds) : Sys2Proof.Laws.NoWord.Statement (.solveE t o) := fun _ _ => nofun
theorem Sys2Proof.Laws.NoWord.lvuWakeDone (core : Nat) : Sys2Proof.Laws.NoWord.Statement (.lvuWakeDone core) := fun _ _ => nofun
theorem Sys2Proof.Laws.NoWord.lvuPowerDown (core : Nat) : Sys2Proof.Laws.NoWord.Statement (.lvuPowerDown core) := fun _ _ => nofun
theorem Sys2Proof.Laws.NoWord.loadTileReady (core : Nat) : Sys2Proof.Laws.NoWord.Statement (.loadTileReady core) := fun _ _ => nofun
theorem Sys2Proof.Laws.NoWord.matrixActivationTile (core : Nat) : Sys2Proof.Laws.NoWord.Statement (.matrixActivationTile core) := fun _ _ => nofun
theorem Sys2Proof.Laws.NoWord.matrixStationaryTile (core : Nat) : Sys2Proof.Laws.NoWord.Statement (.matrixStationaryTile core) := fun _ _ => nofun
theorem Sys2Proof.Laws.NoWord.matrixReadout (who : AccRead) : Sys2Proof.Laws.NoWord.Statement (.matrixReadout who) := fun _ _ => nofun
theorem Sys2Proof.Laws.NoWord.trestleWeightTile (core : Nat) : Sys2Proof.Laws.NoWord.Statement (.trestleWeightTile core) := fun _ _ => nofun
theorem Sys2Proof.Laws.NoWord.trestleReadout (who : AccRead) : Sys2Proof.Laws.NoWord.Statement (.trestleReadout who) := fun _ _ => nofun
theorem Sys2Proof.Laws.NoWord.elementTile (core : Nat) : Sys2Proof.Laws.NoWord.Statement (.elementTile core) := fun _ _ => nofun
theorem Sys2Proof.Laws.NoWord.reduceTile (who : AccRead) : Sys2Proof.Laws.NoWord.Statement (.reduceTile who) := fun _ _ => nofun
theorem Sys2Proof.Laws.NoWord.storeTile (core : Nat) : Sys2Proof.Laws.NoWord.Statement (.storeTile core) := fun _ _ => nofun
theorem Sys2Proof.Laws.NoWord.storeTileVisible (core : Nat) : Sys2Proof.Laws.NoWord.Statement (.storeTileVisible core) := fun _ _ => nofun
theorem Sys2Proof.Laws.NoWord.fabricPutTile (core : Nat) : Sys2Proof.Laws.NoWord.Statement (.fabricPutTile core) := fun _ _ => nofun
theorem Sys2Proof.Laws.NoWord.fabricGetTileReady (core : Nat) : Sys2Proof.Laws.NoWord.Statement (.fabricGetTileReady core) := fun _ _ => nofun
theorem Sys2Proof.Laws.NoWord.copyRequestServe (cpe : Nat) : Sys2Proof.Laws.NoWord.Statement (.copyRequestServe cpe) := fun _ _ => nofun
theorem Sys2Proof.Laws.NoWord.copyLineLanded (cpe : Nat) : Sys2Proof.Laws.NoWord.Statement (.copyLineLanded cpe) := fun _ _ => nofun
theorem Sys2Proof.Laws.NoWord.ncoPreemptReq (core : Nat) (v : Word) : Sys2Proof.Laws.NoWord.Statement (.ncoPreemptReq core v) := fun _ _ => nofun
theorem Sys2Proof.Laws.NoWord.preemptSaveDone (core : Nat) : Sys2Proof.Laws.NoWord.Statement (.preemptSaveDone core) := fun _ _ => nofun
theorem Sys2Proof.Laws.NoWord.solveStart (svu : Nat) : Sys2Proof.Laws.NoWord.Statement (.solveStart svu) := fun _ _ => nofun
theorem Sys2Proof.Laws.NoWord.boundaryReductionResult (svu : Nat) : Sys2Proof.Laws.NoWord.Statement (.boundaryReductionResult svu) := fun _ _ => nofun
theorem Sys2Proof.Laws.NoWord.solveDeadlineExpiry (svu : Nat) : Sys2Proof.Laws.NoWord.Statement (.solveDeadlineExpiry svu) := fun _ _ => nofun
theorem Sys2Proof.Laws.NoWord.patrolScrubRead (line : Nat) (syms : Nat) : Sys2Proof.Laws.NoWord.Statement (.patrolScrubRead line syms) := fun _ _ => nofun
theorem Sys2Proof.Laws.NoWord.remapCopyDone (h : Nat) (i : Nat) : Sys2Proof.Laws.NoWord.Statement (.remapCopyDone h i) := fun _ _ => nofun
theorem Sys2Proof.Laws.NoWord.hotChannelWindowEnd (h : Nat) (p : Nat) (counts : List Nat) : Sys2Proof.Laws.NoWord.Statement (.hotChannelWindowEnd h p counts) := fun _ _ => nofun
theorem Sys2Proof.Laws.NoWord.memPartCfgValid (h : Nat) (p : Nat) (v : Word) : Sys2Proof.Laws.NoWord.Statement (.memPartCfgValid h p v) := fun _ _ => nofun
theorem Sys2Proof.Laws.NoWord.llmPartCfgApply (h : Nat) (p : Nat) (v : Word) : Sys2Proof.Laws.NoWord.Statement (.llmPartCfgApply h p v) := fun _ _ => nofun
theorem Sys2Proof.Laws.NoWord.llmSplitDone (h : Nat) (p : Nat) : Sys2Proof.Laws.NoWord.Statement (.llmSplitDone h p) := fun _ _ => nofun
theorem Sys2Proof.Laws.NoWord.rglPartWrite (h : Nat) (p : Nat) (v : Word) : Sys2Proof.Laws.NoWord.Statement (.rglPartWrite h p v) := fun _ _ => nofun
theorem Sys2Proof.Laws.NoWord.archLinkCrcFail (h : Nat) (resends : Nat) : Sys2Proof.Laws.NoWord.Statement (.archLinkCrcFail h resends) := fun _ _ => nofun
theorem Sys2Proof.Laws.NoWord.pktRead (p : Pkt) (busy : Bool) : Sys2Proof.Laws.NoWord.Statement (.pktRead p busy) := fun _ _ => nofun
theorem Sys2Proof.Laws.NoWord.pktWrite (p : Pkt) (busy : Bool) : Sys2Proof.Laws.NoWord.Statement (.pktWrite p busy) := fun _ _ => nofun
theorem Sys2Proof.Laws.NoWord.pktWritef (p : Pkt) (busy : Bool) (waits : List Nat) : Sys2Proof.Laws.NoWord.Statement (.pktWritef p busy waits) := fun _ _ => nofun
theorem Sys2Proof.Laws.NoWord.pktAdd (p : Pkt) (busy : Bool) : Sys2Proof.Laws.NoWord.Statement (.pktAdd p busy) := fun _ _ => nofun
theorem Sys2Proof.Laws.NoWord.pktMin (p : Pkt) (busy : Bool) : Sys2Proof.Laws.NoWord.Statement (.pktMin p busy) := fun _ _ => nofun
theorem Sys2Proof.Laws.NoWord.pktMax (p : Pkt) (busy : Bool) : Sys2Proof.Laws.NoWord.Statement (.pktMax p busy) := fun _ _ => nofun
theorem Sys2Proof.Laws.NoWord.pktAnd (p : Pkt) (busy : Bool) : Sys2Proof.Laws.NoWord.Statement (.pktAnd p busy) := fun _ _ => nofun
theorem Sys2Proof.Laws.NoWord.pktOr (p : Pkt) (busy : Bool) : Sys2Proof.Laws.NoWord.Statement (.pktOr p busy) := fun _ _ => nofun
theorem Sys2Proof.Laws.NoWord.pktXor (p : Pkt) (busy : Bool) : Sys2Proof.Laws.NoWord.Statement (.pktXor p busy) := fun _ _ => nofun
theorem Sys2Proof.Laws.NoWord.pktSwap (p : Pkt) (busy : Bool) : Sys2Proof.Laws.NoWord.Statement (.pktSwap p busy) := fun _ _ => nofun
theorem Sys2Proof.Laws.NoWord.pktCas8 (p : Pkt) (busy : Bool) : Sys2Proof.Laws.NoWord.Statement (.pktCas8 p busy) := fun _ _ => nofun
theorem Sys2Proof.Laws.NoWord.pktCas16 (p : Pkt) (busy : Bool) : Sys2Proof.Laws.NoWord.Statement (.pktCas16 p busy) := fun _ _ => nofun
theorem Sys2Proof.Laws.NoWord.pktData (p : Pkt) : Sys2Proof.Laws.NoWord.Statement (.pktData p) := fun _ _ => nofun
theorem Sys2Proof.Laws.NoWord.pktAck (p : Pkt) : Sys2Proof.Laws.NoWord.Statement (.pktAck p) := fun _ _ => nofun
theorem Sys2Proof.Laws.NoWord.pktValue (p : Pkt) : Sys2Proof.Laws.NoWord.Statement (.pktValue p) := fun _ _ => nofun
theorem Sys2Proof.Laws.NoWord.pktNackBusy (p : Pkt) : Sys2Proof.Laws.NoWord.Statement (.pktNackBusy p) := fun _ _ => nofun
theorem Sys2Proof.Laws.NoWord.pktNackDomain (p : Pkt) : Sys2Proof.Laws.NoWord.Statement (.pktNackDomain p) := fun _ _ => nofun
theorem Sys2Proof.Laws.NoWord.pktUnreachable (p : Pkt) : Sys2Proof.Laws.NoWord.Statement (.pktUnreachable p) := fun _ _ => nofun
theorem Sys2Proof.Laws.NoWord.pktFault (p : Pkt) : Sys2Proof.Laws.NoWord.Statement (.pktFault p) := fun _ _ => nofun
theorem Sys2Proof.Laws.NoWord.retryAfterExpiry (eng : Nat) (seq : Nat) : Sys2Proof.Laws.NoWord.Statement (.retryAfterExpiry eng seq) := fun _ _ => nofun
theorem Sys2Proof.Laws.NoWord.resendTimeout (eng : Nat) (seq : Nat) : Sys2Proof.Laws.NoWord.Statement (.resendTimeout eng seq) := fun _ _ => nofun
theorem Sys2Proof.Laws.NoWord.rcacheEntryExpiry (src : Nat) (eng : Nat) (seq : Nat) : Sys2Proof.Laws.NoWord.Statement (.rcacheEntryExpiry src eng seq) := fun _ _ => nofun
theorem Sys2Proof.Laws.NoWord.routerForward (i : RouterIn) : Sys2Proof.Laws.NoWord.Statement (.routerForward i) := fun _ _ => nofun
theorem Sys2Proof.Laws.NoWord.scauthLinkReplay (port : Nat) (fails : Nat) : Sys2Proof.Laws.NoWord.Statement (.scauthLinkReplay port fails) := fun _ _ => nofun
theorem Sys2Proof.Laws.NoWord.keepaliveSend (port : Nat) : Sys2Proof.Laws.NoWord.Statement (.keepaliveSend port) := fun _ _ => nofun
theorem Sys2Proof.Laws.NoWord.keepaliveReceived (port : Nat) : Sys2Proof.Laws.NoWord.Statement (.keepaliveReceived port) := fun _ _ => nofun
theorem Sys2Proof.Laws.NoWord.portSilenceTimeout (port : Nat) : Sys2Proof.Laws.NoWord.Statement (.portSilenceTimeout port) := fun _ _ => nofun
theorem Sys2Proof.Laws.NoWord.lossOfLock (port : Nat) : Sys2Proof.Laws.NoWord.Statement (.lossOfLock port) := fun _ _ => nofun
theorem Sys2Proof.Laws.NoWord.leavingReceived (port : Nat) : Sys2Proof.Laws.NoWord.Statement (.leavingReceived port) := fun _ _ => nofun
theorem Sys2Proof.Laws.NoWord.portTrained (port : Nat) : Sys2Proof.Laws.NoWord.Statement (.portTrained port) := fun _ _ => nofun
theorem Sys2Proof.Laws.NoWord.lostNotice (port : Nat) (coord : Nat) (cause : Nat) : Sys2Proof.Laws.NoWord.Statement (.lostNotice port coord cause) := fun _ _ => nofun
theorem Sys2Proof.Laws.NoWord.scfCoordWrite (v : Word) : Sys2Proof.Laws.NoWord.Statement (.scfCoordWrite v) := fun _ _ => nofun
theorem Sys2Proof.Laws.NoWord.scfPortCtlWrite (port : Nat) (v : Word) : Sys2Proof.Laws.NoWord.Statement (.scfPortCtlWrite port v) := fun _ _ => nofun
theorem Sys2Proof.Laws.NoWord.scfDomainWrite (p : Nat) (v : Word) : Sys2Proof.Laws.NoWord.Statement (.scfDomainWrite p v) := fun _ _ => nofun
theorem Sys2Proof.Laws.NoWord.scfSlotSplitWrite (v : Word) : Sys2Proof.Laws.NoWord.Statement (.scfSlotSplitWrite v) := fun _ _ => nofun
theorem Sys2Proof.Laws.NoWord.winEntryWord1Write (i : Nat) (v : Word) : Sys2Proof.Laws.NoWord.Statement (.winEntryWord1Write i v) := fun _ _ => nofun
theorem Sys2Proof.Laws.NoWord.winEntryWord0Write (i : Nat) (v : Word) : Sys2Proof.Laws.NoWord.Statement (.winEntryWord0Write i v) := fun _ _ => nofun
theorem Sys2Proof.Laws.NoWord.colGroupValid (g : Nat) (v : Word) : Sys2Proof.Laws.NoWord.Statement (.colGroupValid g v) := fun _ _ => nofun
theorem Sys2Proof.Laws.NoWord.colTrigValid (t : Nat) (v : Word) : Sys2Proof.Laws.NoWord.Statement (.colTrigValid t v) := fun _ _ => nofun
theorem Sys2Proof.Laws.NoWord.colTadd (ctx : Nat) (n : Nat) (v : Word) : Sys2Proof.Laws.NoWord.Statement (.colTadd ctx n v) := fun _ _ => nofun
theorem Sys2Proof.Laws.NoWord.collectiveQueuedStart (id : Nat) : Sys2Proof.Laws.NoWord.Statement (.collectiveQueuedStart id) := fun _ _ => nofun
theorem Sys2Proof.Laws.NoWord.collectiveFlit (port : Nat) (f : Flit) : Sys2Proof.Laws.NoWord.Statement (.collectiveFlit port f) := fun _ _ => nofun
theorem Sys2Proof.Laws.NoWord.bulkChunk (port : Nat) (f : Flit) : Sys2Proof.Laws.NoWord.Statement (.bulkChunk port f) := fun _ _ => nofun
theorem Sys2Proof.Laws.NoWord.matchRetry (port : Nat) (f : Flit) : Sys2Proof.Laws.NoWord.Statement (.matchRetry port f) := fun _ _ => nofun
theorem Sys2Proof.Laws.NoWord.collectiveComplete (id : Nat) : Sys2Proof.Laws.NoWord.Statement (.collectiveComplete id) := fun _ _ => nofun
theorem Sys2Proof.Laws.NoWord.collWatchdog (id : Nat) : Sys2Proof.Laws.NoWord.Statement (.collWatchdog id) := fun _ _ => nofun
theorem Sys2Proof.Laws.NoWord.cutVoteResult (p : Nat) : Sys2Proof.Laws.NoWord.Statement (.cutVoteResult p) := fun _ _ => nofun
theorem Sys2Proof.Laws.NoWord.cutCopyDone (p : Nat) : Sys2Proof.Laws.NoWord.Statement (.cutCopyDone p) := fun _ _ => nofun
theorem Sys2Proof.Laws.NoWord.copiedVoteResult (p : Nat) : Sys2Proof.Laws.NoWord.Statement (.copiedVoteResult p) := fun _ _ => nofun
theorem Sys2Proof.Laws.NoWord.drainSeal (p : Nat) : Sys2Proof.Laws.NoWord.Statement (.drainSeal p) := fun _ _ => nofun
theorem Sys2Proof.Laws.NoWord.drainWriteFail (p : Nat) : Sys2Proof.Laws.NoWord.Statement (.drainWriteFail p) := fun _ _ => nofun
theorem Sys2Proof.Laws.NoWord.restoreLocalDone (p : Nat) : Sys2Proof.Laws.NoWord.Statement (.restoreLocalDone p) := fun _ _ => nofun
theorem Sys2Proof.Laws.NoWord.restoreVoteResult (p : Nat) : Sys2Proof.Laws.NoWord.Statement (.restoreVoteResult p) := fun _ _ => nofun
theorem Sys2Proof.Laws.NoWord.errorWatchWindow : Sys2Proof.Laws.NoWord.Statement (.errorWatchWindow) := fun _ _ => nofun
theorem Sys2Proof.Laws.NoWord.ckpCfgValid (p : Nat) (v : Word) : Sys2Proof.Laws.NoWord.Statement (.ckpCfgValid p v) := fun _ _ => nofun
theorem Sys2Proof.Laws.NoWord.ckpCmdCut (p : Nat) : Sys2Proof.Laws.NoWord.Statement (.ckpCmdCut p) := fun _ _ => nofun
theorem Sys2Proof.Laws.NoWord.ckpCmdRestoreCofferdam (p : Nat) : Sys2Proof.Laws.NoWord.Statement (.ckpCmdRestoreCofferdam p) := fun _ _ => nofun
theorem Sys2Proof.Laws.NoWord.ckpCmdRestoreModules (p : Nat) : Sys2Proof.Laws.NoWord.Statement (.ckpCmdRestoreModules p) := fun _ _ => nofun
theorem Sys2Proof.Laws.NoWord.ckpCmdRestoreMirror (p : Nat) : Sys2Proof.Laws.NoWord.Statement (.ckpCmdRestoreMirror p) := fun _ _ => nofun
theorem Sys2Proof.Laws.NoWord.ckpCmdReshard (p : Nat) (source : Nat) : Sys2Proof.Laws.NoWord.Statement (.ckpCmdReshard p source) := fun _ _ => nofun
theorem Sys2Proof.Laws.NoWord.ckpCmdStop (p : Nat) : Sys2Proof.Laws.NoWord.Statement (.ckpCmdStop p) := fun _ _ => nofun
theorem Sys2Proof.Laws.NoWord.ckpCmdRvote (p : Nat) : Sys2Proof.Laws.NoWord.Statement (.ckpCmdRvote p) := fun _ _ => nofun
theorem Sys2Proof.Laws.NoWord.hostLineInvalidated (r : Nat) : Sys2Proof.Laws.NoWord.Statement (.hostLineInvalidated r) := fun _ _ => nofun
theorem Sys2Proof.Laws.NoWord.hostIndexLineArrival (r : Nat) (sqPi : Nat) (cqCi : Nat) : Sys2Proof.Laws.NoWord.Statement (.hostIndexLineArrival r sqPi cqCi) := fun _ _ => nofun
theorem Sys2Proof.Laws.NoWord.launch (r : Nat) (bytes : List Byte) : Sys2Proof.Laws.NoWord.Statement (.launch r bytes) := fun _ _ => nofun
theorem Sys2Proof.Laws.NoWord.tadd (r : Nat) (bytes : List Byte) : Sys2Proof.Laws.NoWord.Statement (.tadd r bytes) := fun _ _ => nofun
theorem Sys2Proof.Laws.NoWord.mark (r : Nat) (bytes : List Byte) : Sys2Proof.Laws.NoWord.Statement (.mark r bytes) := fun _ _ => nofun
theorem Sys2Proof.Laws.NoWord.deviceIndexLineWrite (r : Nat) : Sys2Proof.Laws.NoWord.Statement (.deviceIndexLineWrite r) := fun _ _ => nofun
theorem Sys2Proof.Laws.NoWord.faultRecordWrite : Sys2Proof.Laws.NoWord.Statement (.faultRecordWrite) := fun _ _ => nofun
theorem Sys2Proof.Laws.NoWord.launchWatchdog (r : Nat) (ix : Nat) : Sys2Proof.Laws.NoWord.Statement (.launchWatchdog r ix) := fun _ _ => nofun
theorem Sys2Proof.Laws.NoWord.dspTctlResume (t : Tid) : Sys2Proof.Laws.NoWord.Statement (.dspTctlResume t) := fun _ _ => nofun
theorem Sys2Proof.Laws.NoWord.dspTctlAbandon (t : Tid) : Sys2Proof.Laws.NoWord.Statement (.dspTctlAbandon t) := fun _ _ => nofun
theorem Sys2Proof.Laws.NoWord.dspTlbinvGo (v : Word) : Sys2Proof.Laws.NoWord.Statement (.dspTlbinvGo v) := fun _ _ => nofun
theorem Sys2Proof.Laws.NoWord.tlbinvDone : Sys2Proof.Laws.NoWord.Statement (.tlbinvDone) := fun _ _ => nofun
theorem Sys2Proof.Laws.NoWord.dspCtxdefValid (c : Nat) (v : Word) : Sys2Proof.Laws.NoWord.Statement (.dspCtxdefValid c v) := fun _ _ => nofun
theorem Sys2Proof.Laws.NoWord.dspCsetWrite (c : Nat) (k : Nat) (w : Nat) (v : Word) : Sys2Proof.Laws.NoWord.Statement (.dspCsetWrite c k w v) := fun _ _ => nofun
theorem Sys2Proof.Laws.NoWord.dspCfgEnable (v : Word) : Sys2Proof.Laws.NoWord.Statement (.dspCfgEnable v) := fun _ _ => nofun
theorem Sys2Proof.Laws.NoWord.dspRingEnable (r : Nat) (v : Word) : Sys2Proof.Laws.NoWord.Statement (.dspRingEnable r v) := fun _ _ => nofun
theorem Sys2Proof.Laws.NoWord.dspLogclaim (p : Nat) : Sys2Proof.Laws.NoWord.Statement (.dspLogclaim p) := fun _ _ => nofun
theorem Sys2Proof.Laws.NoWord.hostRead (addr : Nat) (n : Nat) (hold : Nat) : Sys2Proof.Laws.NoWord.Statement (.hostRead addr n hold) := fun _ _ => nofun
theorem Sys2Proof.Laws.NoWord.hostWrite (addr : Nat) (bytes : List Byte) (hold : Nat) : Sys2Proof.Laws.NoWord.Statement (.hostWrite addr bytes hold) := fun _ _ => nofun
theorem Sys2Proof.Laws.NoWord.plkPortDown (port : Nat) : Sys2Proof.Laws.NoWord.Statement (.plkPortDown port) := fun _ _ => nofun
theorem Sys2Proof.Laws.NoWord.plkPortUp (port : Nat) : Sys2Proof.Laws.NoWord.Statement (.plkPortUp port) := fun _ _ => nofun
theorem Sys2Proof.Laws.NoWord.plkFlitResend (port : Nat) (fails : Nat) : Sys2Proof.Laws.NoWord.Statement (.plkFlitResend port fails) := fun _ _ => nofun
theorem Sys2Proof.Laws.NoWord.keyswitch : Sys2Proof.Laws.NoWord.Statement (.keyswitch) := fun _ _ => nofun
theorem Sys2Proof.Laws.NoWord.secCmdReport : Sys2Proof.Laws.NoWord.Statement (.secCmdReport) := fun _ _ => nofun
theorem Sys2Proof.Laws.NoWord.secCmdAdmit : Sys2Proof.Laws.NoWord.Statement (.secCmdAdmit) := fun _ _ => nofun
theorem Sys2Proof.Laws.NoWord.secCmdEndsession : Sys2Proof.Laws.NoWord.Statement (.secCmdEndsession) := fun _ _ => nofun
theorem Sys2Proof.Laws.NoWord.secKslotLoad (k : Nat) (v : Word) : Sys2Proof.Laws.NoWord.Statement (.secKslotLoad k v) := fun _ _ => nofun
theorem Sys2Proof.Laws.NoWord.secMeasGo (h : Nat) (i : Nat) (v : Word) : Sys2Proof.Laws.NoWord.Statement (.secMeasGo h i v) := fun _ _ => nofun
theorem Sys2Proof.Laws.NoWord.measurementDone (h : Nat) (i : Nat) : Sys2Proof.Laws.NoWord.Statement (.measurementDone h i) := fun _ _ => nofun
theorem Sys2Proof.Laws.NoWord.secReleaseGo (v : Word) : Sys2Proof.Laws.NoWord.Statement (.secReleaseGo v) := fun _ _ => nofun
theorem Sys2Proof.Laws.NoWord.scrubDone (p : Nat) : Sys2Proof.Laws.NoWord.Statement (.scrubDone p) := fun _ _ => nofun
theorem Sys2Proof.Laws.NoWord.ceSummaryPeriod : Sys2Proof.Laws.NoWord.Statement (.ceSummaryPeriod) := fun _ _ => nofun
theorem Sys2Proof.Laws.NoWord.refclkLoss : Sys2Proof.Laws.NoWord.Statement (.refclkLoss) := fun _ _ => nofun
theorem Sys2Proof.Laws.NoWord.refclkReturn : Sys2Proof.Laws.NoWord.Statement (.refclkReturn) := fun _ _ => nofun
theorem Sys2Proof.Laws.NoWord.railFault (rail : Nat) : Sys2Proof.Laws.NoWord.Statement (.railFault rail) := fun _ _ => nofun
theorem Sys2Proof.Laws.NoWord.sequencerTimeout (die : Nat) : Sys2Proof.Laws.NoWord.Statement (.sequencerTimeout die) := fun _ _ => nofun
theorem Sys2Proof.Laws.NoWord.powerSample (w : Nat) (mv : Nat) (ca : Nat) : Sys2Proof.Laws.NoWord.Statement (.powerSample w mv ca) := fun _ _ => nofun
theorem Sys2Proof.Laws.NoWord.thermalSample (temps : List Nat) : Sys2Proof.Laws.NoWord.Statement (.thermalSample temps) := fun _ _ => nofun
theorem Sys2Proof.Laws.NoWord.thermalTrip (die : Nat) (temp : Nat) : Sys2Proof.Laws.NoWord.Statement (.thermalTrip die temp) := fun _ _ => nofun
theorem Sys2Proof.Laws.NoWord.powerLoss (cause : Nat) : Sys2Proof.Laws.NoWord.Statement (.powerLoss cause) := fun _ _ => nofun
theorem Sys2Proof.Laws.NoWord.powerOn : Sys2Proof.Laws.NoWord.Statement (.powerOn) := fun _ _ => nofun
theorem Sys2Proof.Laws.NoWord.rootPllLock : Sys2Proof.Laws.NoWord.Statement (.rootPllLock) := fun _ _ => nofun
theorem Sys2Proof.Laws.NoWord.railsUp : Sys2Proof.Laws.NoWord.Statement (.railsUp) := fun _ _ => nofun
theorem Sys2Proof.Laws.NoWord.imageVerify (a : ImageSlot) (b : ImageSlot) : Sys2Proof.Laws.NoWord.Statement (.imageVerify a b) := fun _ _ => nofun
theorem Sys2Proof.Laws.NoWord.imageApply (power : Nat) (writes : List (Nat × Word)) : Sys2Proof.Laws.NoWord.Statement (.imageApply power writes) := fun _ _ => nofun
theorem Sys2Proof.Laws.NoWord.hbmTraining (failed : List (Nat × Nat)) (repaired : List (Nat × Nat)) : Sys2Proof.Laws.NoWord.Statement (.hbmTraining failed repaired) := fun _ _ => nofun
theorem Sys2Proof.Laws.NoWord.serdesTraining (trained : List Nat) (failed : List Nat) (plk : List Nat) : Sys2Proof.Laws.NoWord.Statement (.serdesTraining trained failed plk) := fun _ _ => nofun
theorem Sys2Proof.Laws.NoWord.hbmZero : Sys2Proof.Laws.NoWord.Statement (.hbmZero) := fun _ _ => nofun
theorem Sys2Proof.Laws.NoWord.memoryClear : Sys2Proof.Laws.NoWord.Statement (.memoryClear) := fun _ _ => nofun
theorem Sys2Proof.Laws.NoWord.frontEndReady : Sys2Proof.Laws.NoWord.Statement (.frontEndReady) := fun _ _ => nofun
theorem Sys2Proof.Laws.NoWord.startUpStageTimeout : Sys2Proof.Laws.NoWord.Statement (.startUpStageTimeout) := fun _ _ => nofun
theorem Sys2Proof.Laws.NoWord.resetNPulse : Sys2Proof.Laws.NoWord.Statement (.resetNPulse) := fun _ _ => nofun
theorem Sys2Proof.Laws.NoWord.pwrCtlReset (v : Word) : Sys2Proof.Laws.NoWord.Statement (.pwrCtlReset v) := fun _ _ => nofun
theorem Sys2Proof.Laws.NoWord.pwrCtlStandby (v : Word) : Sys2Proof.Laws.NoWord.Statement (.pwrCtlStandby v) := fun _ _ => nofun
theorem Sys2Proof.Laws.NoWord.pwrRegimePowerChange (v : Word) : Sys2Proof.Laws.NoWord.Statement (.pwrRegimePowerChange v) := fun _ _ => nofun
theorem Sys2Proof.Laws.NoWord.pwrRegimePrecisionChange (v : Word) : Sys2Proof.Laws.NoWord.Statement (.pwrRegimePrecisionChange v) := fun _ _ => nofun
theorem Sys2Proof.Laws.NoWord.pwrRegimeLatencyChange (v : Word) : Sys2Proof.Laws.NoWord.Statement (.pwrRegimeLatencyChange v) := fun _ _ => nofun
theorem Sys2Proof.Laws.NoWord.frugalChangeProceeds : Sys2Proof.Laws.NoWord.Statement (.frugalChangeProceeds) := fun _ _ => nofun
theorem Sys2Proof.Laws.NoWord.bbxCtlFreeze : Sys2Proof.Laws.NoWord.Statement (.bbxCtlFreeze) := fun _ _ => nofun
theorem Sys2Proof.Laws.NoWord.bbxCtlUnfreeze : Sys2Proof.Laws.NoWord.Statement (.bbxCtlUnfreeze) := fun _ _ => nofun
theorem Sys2Proof.Laws.NoWord.bbxDataHRead : Sys2Proof.Laws.NoWord.Statement (.bbxDataHRead) := fun _ _ => nofun
theorem Sys2Proof.Laws.NoWord.bbxDataIRead : Sys2Proof.Laws.NoWord.Statement (.bbxDataIRead) := fun _ _ => nofun
theorem Sys2Proof.Laws.NoWord.i3cPrivateWrite (bytes : List Byte) : Sys2Proof.Laws.NoWord.Statement (.i3cPrivateWrite bytes) := fun _ _ => nofun
theorem Sys2Proof.Laws.NoWord.i3cPrivateRead : Sys2Proof.Laws.NoWord.Statement (.i3cPrivateRead) := fun _ _ => nofun
theorem Sys2Proof.Laws.NoWord.i3cArbitrationLoss : Sys2Proof.Laws.NoWord.Statement (.i3cArbitrationLoss) := fun _ _ => nofun
theorem Sys2Proof.Laws.NoWord.i3cRetry : Sys2Proof.Laws.NoWord.Statement (.i3cRetry) := fun _ _ => nofun
theorem Sys2Proof.Laws.NoWord.evtClaimTriggerIn (n : Nat) (v : Word) (i3c : Bool) : Sys2Proof.Laws.NoWord.Statement (.evtClaimTriggerIn n v i3c) := fun _ _ => nofun
theorem Sys2Proof.Laws.NoWord.evtClaimFreezeOut (n : Nat) (v : Word) (i3c : Bool) : Sys2Proof.Laws.NoWord.Statement (.evtClaimFreezeOut n v i3c) := fun _ _ => nofun
theorem Sys2Proof.Laws.NoWord.evtRelease (n : Nat) (v : Word) (i3c : Bool) : Sys2Proof.Laws.NoWord.Statement (.evtRelease n v i3c) := fun _ _ => nofun
theorem Sys2Proof.Laws.NoWord.evtTriggerEdge (n : Nat) : Sys2Proof.Laws.NoWord.Statement (.evtTriggerEdge n) := fun _ _ => nofun
theorem Sys2Proof.Laws.NoWord.evtFreezeEdge (n : Nat) : Sys2Proof.Laws.NoWord.Statement (.evtFreezeEdge n) := fun _ _ => nofun
theorem Sys2Proof.Laws.NoWord.moduleInserted (b : Nat) (m : ModuleIn) : Sys2Proof.Laws.NoWord.Statement (.moduleInserted b m) := fun _ _ => nofun
theorem Sys2Proof.Laws.NoWord.capsuleCheckDone (b : Nat) : Sys2Proof.Laws.NoWord.Statement (.capsuleCheckDone b) := fun _ _ => nofun
theorem Sys2Proof.Laws.NoWord.drnBayEject (b : Nat) : Sys2Proof.Laws.NoWord.Statement (.drnBayEject b) := fun _ _ => nofun
theorem Sys2Proof.Laws.NoWord.moduleRemoved (b : Nat) : Sys2Proof.Laws.NoWord.Statement (.moduleRemoved b) := fun _ _ => nofun
theorem Sys2Proof.Laws.NoWord.ledgerPoll : Sys2Proof.Laws.NoWord.Statement (.ledgerPoll) := fun _ _ => nofun
theorem Sys2Proof.Laws.NoWord.drnAreaWrite (p : Nat) (base : Bool) (v : Word) : Sys2Proof.Laws.NoWord.Statement (.drnAreaWrite p base v) := fun _ _ => nofun
theorem Sys2Proof.Laws.NoWord.drnXferLoad (p : Nat) (v : Word) : Sys2Proof.Laws.NoWord.Statement (.drnXferLoad p v) := fun _ _ => nofun
theorem Sys2Proof.Laws.NoWord.drnXferFill (p : Nat) (v : Word) : Sys2Proof.Laws.NoWord.Statement (.drnXferFill p v) := fun _ _ => nofun
theorem Sys2Proof.Laws.NoWord.drnXferDone (p : Nat) : Sys2Proof.Laws.NoWord.Statement (.drnXferDone p) := fun _ _ => nofun
theorem Sys2Proof.Laws.NoWord.scoLvuPwrWrite (core : Nat) (v : Word) : Sys2Proof.Laws.NoWord.Statement (.scoLvuPwrWrite core v) := fun _ _ => nofun
theorem Sys2Proof.Laws.NoWord.registerWrite (addr : Nat) (n : Nat) (v : Word) : Sys2Proof.Laws.NoWord.Statement (.registerWrite addr n v) := fun _ _ => nofun
theorem Sys2Proof.Laws.NoWord.receiveLock (port : Nat) : Sys2Proof.Laws.NoWord.Statement (.receiveLock port) := fun _ _ => nofun
theorem Sys2Proof.Laws.NoWord.iterationBoundary (svu : Nat) : Sys2Proof.Laws.NoWord.Statement (.iterationBoundary svu) := fun _ _ => nofun
theorem Sys2Proof.Laws.NoWord.sCorePreemption (t : Tid) : Sys2Proof.Laws.NoWord.Statement (.sCorePreemption t) := fun _ _ => nofun
theorem Sys2Proof.Laws.NoWord.contextRestore (t : Tid) (ctx : Nat) : Sys2Proof.Laws.NoWord.Statement (.contextRestore t ctx) := fun _ _ => nofun
theorem Sys2Proof.Laws.NoWord.pwrgoodAsserted : Sys2Proof.Laws.NoWord.Statement (.pwrgoodAsserted) := fun _ _ => nofun
theorem Sys2Proof.Laws.NoWord.rootPllLockTimeout : Sys2Proof.Laws.NoWord.Statement (.rootPllLockTimeout) := fun _ _ => nofun
theorem Sys2Proof.Laws.NoWord.badDesc (r : Nat) (bytes : List Byte) : Sys2Proof.Laws.NoWord.Statement (.badDesc r bytes) := fun _ _ => nofun
theorem Sys2Proof.Laws.NoWord.descriptorReadFailure (r : Nat) : Sys2Proof.Laws.NoWord.Statement (.descriptorReadFailure r) := fun _ _ => nofun
theorem Sys2Proof.Laws.NoWord.recallReturn (line : Nat) (bytes : List Byte) : Sys2Proof.Laws.NoWord.Statement (.recallReturn line bytes) := fun _ _ => nofun
theorem Sys2Proof.Laws.NoWord.slewEnd : Sys2Proof.Laws.NoWord.Statement (.slewEnd) := fun _ _ => nofun
theorem Sys2Proof.Laws.NoWord.sclkCycle (h : Nat) (capR : Nat) (capW : Nat) (regs : List (Nat × Bool × Nat)) (arch : List (Bool × Nat × Nat × Nat)) : Sys2Proof.Laws.NoWord.Statement (.sclkCycle h capR capW regs arch) := fun _ _ => nofun
theorem Sys2Proof.Laws.NoWord.testAccessInstruction (i : TapIns) : Sys2Proof.Laws.NoWord.Statement (.testAccessInstruction i) := fun _ _ => nofun
theorem Sys2Proof.Laws.NoWord.illegalEncoding (t : Tid) (cls : Nat) : Sys2Proof.Laws.NoWord.Statement (.illegalEncoding t cls) := fun _ _ => nofun
theorem Sys2Proof.Laws.NoWord.fetchFault (t : Tid) : Sys2Proof.Laws.NoWord.Statement (.fetchFault t) := fun _ _ => nofun
theorem Sys2Proof.Laws.NoWord.sequencerHeartbeatLost (die : Nat) : Sys2Proof.Laws.NoWord.Statement (.sequencerHeartbeatLost die) := fun _ _ => nofun
end

