-- ==== Sys2Proof/Machine/Pins.lean ====
section
/-! DEFINITION. The package's lands and pins (R419, R427-R430, R435, R436): which signal a land carries, and the levels that the device drives on its status and event pins. -/

namespace Sys2Proof.Machine

/-- R429: the groups of high-speed pairs. -/
inductive PairGroup where
  | scauth
  | palale
  | pcie
  deriving DecidableEq, Repr

/-- R430: the low-speed signals. -/
inductive LowSignal where
  | i3cScl | i3cSda
  | tck | tms | tdi | tdo | trstN
  | evt (n : Nat)
  | presentN | faultN | alive | pwrgood | resetN
  | drnPerstN (bay : Nat) | drnPrsntN (bay : Nat) | drnPwren (bay : Nat)
  deriving DecidableEq, Repr

/-- R427-R430: what a land carries. A pair's land names its port or bay, its lane, its direction and its side. -/
inductive Land where
  | keepOut
  | vin
  | vrtn
  | gnd
  | rsvd
  | refclk (neg : Bool)
  | pair (group : PairGroup) (port lane : Nat) (receive neg : Bool)
  | low (signal : LowSignal)
  deriving DecidableEq, Repr

/-- R429: the number of ports, of lanes, and the first row of a group. -/
def PairGroup.ports : PairGroup → Nat
  | .scauth => 16
  | .palale => 2
  | .pcie => 2
/-- R429. -/
def PairGroup.lanes : PairGroup → Nat
  | .scauth => 8
  | .palale => 16
  | .pcie => 8
/-- R429. -/
def PairGroup.row0 : PairGroup → Nat
  | .scauth => 13
  | .palale => 101
  | .pcie => 111

/-- R429: the pair index of a lane's transmit (`rx` false) or receive pair. -/
def PairGroup.index (g : PairGroup) (port lane : Nat) (rx : Bool) : Nat := 2 * g.lanes * port + 2 * lane + (if rx then 1 else 0)

/-- R429: the column and row of a pair's P land (`neg` false) or N land. -/
def pairAt (g : PairGroup) (port lane : Nat) (rx neg : Bool) : Nat × Nat :=
  let q := g.index port lane rx
  (45 + 3 * (q % 16) + (if neg then 1 else 0), g.row0 + 2 * (q / 16))

/-- R429: the pair that a land of a group belongs to. -/
def pairLand (g : PairGroup) (c r : Nat) : Option Land :=
  if c < 45 ∨ 93 ≤ c ∨ r < g.row0 ∨ (r - g.row0) % 2 ≠ 0 ∨ (c - 45) % 3 = 2 then none
  else
    let q := 16 * ((r - g.row0) / 2) + (c - 45) / 3
    if 2 * g.lanes * g.ports ≤ q then none
    else some (.pair g (q / (2 * g.lanes)) (q % (2 * g.lanes) / 2) (q % 2 == 1) ((c - 45) % 3 == 1))

/-- R430: the low-speed signals on odd columns of rows 121 and 123. -/
def lowLand (c r : Nat) : Option LowSignal :=
  if r = 121 then
    match c with
    | 45 => some .i3cScl
    | 47 => some .i3cSda
    | 51 => some .tck
    | 53 => some .tms
    | 55 => some .tdi
    | 57 => some .tdo
    | 59 => some .trstN
    | 63 => some (.evt 0)
    | 65 => some (.evt 1)
    | 67 => some (.evt 2)
    | 69 => some (.evt 3)
    | 73 => some .presentN
    | 75 => some .faultN
    | 77 => some .alive
    | 81 => some .pwrgood
    | 83 => some .resetN
    | 87 => some (.drnPerstN 0)
    | 89 => some (.drnPrsntN 0)
    | 91 => some (.drnPwren 0)
    | _ => none
  else if r = 123 then
    match c with
    | 87 => some (.drnPerstN 1)
    | 89 => some (.drnPrsntN 1)
    | 91 => some (.drnPwren 1)
    | _ => none
  else none

/-- R427-R430: what the land at column `c`, row `r` carries; none outside the grid of 136 by 136. -/
def land (c r : Nat) : Option Land :=
  if c = 0 ∨ 136 < c ∨ r = 0 ∨ 136 < r then none
  else if (c ≤ 12 ∨ 125 ≤ c) ∧ (r ≤ 12 ∨ 125 ≤ r) then some .keepOut
  else if 13 ≤ c ∧ c ≤ 92 ∧ 133 ≤ r then some .vin
  else if 13 ≤ c ∧ c ≤ 92 ∧ 129 ≤ r then some .vrtn
  else if r = 117 ∧ c = 67 then some (.refclk false)
  else if r = 117 ∧ c = 68 then some (.refclk true)
  else if r = 123 ∧ 45 ≤ c ∧ c ≤ 75 ∧ c % 2 = 1 then some .rsvd
  else
    match lowLand c r, pairLand .scauth c r, pairLand .palale c r, pairLand .pcie c r with
    | some l, _, _, _ => some (.low l)
    | none, some p, _, _ => some p
    | none, none, some p, _ => some p
    | none, none, none, some p => some p
    | none, none, none, none => some .gnd

/-- R419: the level that the package puts on PRESENT_N: low whenever it is seated. -/
def presentN (_s : State) : Bool := false

/-- R419, R430: the level of FAULT_N: low while asserted. -/
def faultNLevel (s : State) : Bool := !s.faultN

/-- R419: the level of ALIVE in the half period `k` of its 1 kHz: toggling while the package runs, at its last level after a hang, else low. -/
def aliveLevel (s : State) (k : Nat) : Bool := if s.alive = 1 then k % 2 == 1 else false

/-- R397, R436: the level that the device drives on an event pin: high on a freeze-out pin while the ring is frozen, else none. -/
def evtDrives (s : State) (n : Nat) : Option Bool :=
  if n < 4 && rdf s (R.BBX_EVT n) 2 2 == 2 && bitw (rd s R.BBX_STAT) 16 then some true else none

end Sys2Proof.Machine
end

