-- ==== Sys2Proof/WellFormed.lean ====
section
/-! DEFINITION. Well-formed commands: every number an operand carries lies in the range its field has in the spec. Commands outside these ranges are no commands of the table; what the meanings make of them claims nothing (log 1). -/

namespace Sys2Proof

/-- R255: every header field and member record of a packet has its width. -/
def pktWf (p : Pkt) : Bool :=
  p.ty < 64 && p.vc < 4 && p.src < 2 ^ 20 && p.dst < 2 ^ 20 && p.dom < 2 ^ 16 && p.eng < 2 ^ 12 && p.seq < 2 ^ 24 && p.addr < 2 ^ 48
    && p.tries < 16 && p.prior < 2 ^ 32 && p.mask < 2 ^ 64 && p.mem.length ≤ 8 && p.data.length ≤ 64 && p.dax ≤ 4
    && p.mem.all (fun m => m.src < 2 ^ 20 && m.eng < 2 ^ 12 && m.seq < 2 ^ 24)

/-- R284, R298: every header field of a collective flit or chunk has its width. -/
def flitWf (f : Flit) : Bool :=
  f.group < 1024 && f.seq < 2 ^ 16 && f.kind < 16 && f.dig < 2 ^ 16 && f.ddig < 2 ^ 16 && f.vals.length ≤ 64 && f.root < 2 ^ 20 && f.dax ≤ 4

/-- R270: what reaches a router names one of the sixteen ports. -/
def routerInWf (i : RouterIn) : Bool :=
  match i with
  | .own => true
  | .port k p => k < 16 && pktWf p
  | .depart k => k < 16

/-- Every operand of a command lies in its range. -/
def Instr.wf (i : Instr) : Bool :=
  match i with
  | .add _ _ => true
  | .sub _ _ => true
  | .mul _ _ => true
  | .mulhs _ _ => true
  | .mulhu _ _ => true
  | .divs _ _ => true
  | .divu _ _ => true
  | .rems _ _ => true
  | .remu _ _ => true
  | .and _ _ => true
  | .or _ _ => true
  | .xor _ _ => true
  | .shl _ _ => true
  | .shr _ _ => true
  | .sar _ _ => true
  | .mins _ _ => true
  | .maxs _ _ => true
  | .minu _ _ => true
  | .maxu _ _ => true
  | .cmpeq _ _ => true
  | .cmpne _ _ => true
  | .cmplts _ _ => true
  | .cmpltu _ _ => true
  | .cmples _ _ => true
  | .cmpleu _ _ => true
  | .mov _ _ => true
  | .movhi _ _ => true
  | .ld1 _ _ => true
  | .ld2 _ _ => true
  | .ld4 _ _ => true
  | .ld8 _ _ => true
  | .st1 _ _ => true
  | .st2 _ _ => true
  | .st4 _ _ => true
  | .st8 _ _ => true
  | .fld _ _ => true
  | .fst _ _ => true
  | .fadd _ _ => true
  | .fsub _ _ => true
  | .fmul _ _ => true
  | .fdiv _ _ => true
  | .fsqrt _ _ => true
  | .ffma _ _ => true
  | .fmin _ _ => true
  | .fmax _ _ => true
  | .fcmpeq _ _ => true
  | .fcmplt _ _ => true
  | .fcmple _ _ => true
  | .fcvti _ _ => true
  | .fcvtf _ _ => true
  | .fmovx _ _ => true
  | .fmovf _ _ => true
  | .pand _ _ => true
  | .por _ _ => true
  | .pxor _ _ => true
  | .pnot _ _ => true
  | .pset _ _ => true
  | .rdltc _ _ => true
  | .rdnstat _ _ => true
  | .nstclr _ _ => true
  | .rdctr _ _ => true
  | .rdid _ _ => true
  | .br _ _ => true
  | .jal _ _ => true
  | .jr _ _ => true
  | .endProg _ _ => true
  | .nop _ _ => true
  | .trace _ _ => true
  | .setc _ _ => true
  | .wait _ _ => true
  | .waitr _ _ => true
  | .waitd _ _ => true
  | .waitRelease _ => true
  | .waitdDeadline _ => true
  | .fence _ _ => true
  | .fenceComplete _ => true
  | .stream _ _ => true
  | .sdldB _ _ => true
  | .sdldE _ _ => true
  | .sdadd _ _ => true
  | .copy _ _ => true
  | .rget _ _ => true
  | .rput _ _ => true
  | .rputf _ _ => true
  | .radd _ _ => true
  | .rmin _ _ => true
  | .rmax _ _ => true
  | .rand _ _ => true
  | .ror _ _ => true
  | .rxor _ _ => true
  | .rswap _ _ => true
  | .rcas8 _ _ => true
  | .rcas16 _ _ => true
  | .mxpassB _ _ => true
  | .mxpassE _ _ => true
  | .mxswap _ _ => true
  | .mxend _ _ => true
  | .trsetB _ _ => true
  | .trsetE _ _ => true
  | .trend _ _ => true
  | .eweRunB _ _ => true
  | .eweRunE _ _ => true
  | .eweImm _ _ => true
  | .eweLdp _ _ => true
  | .eweLdr _ _ => true
  | .eweStr _ _ => true
  | .eweRexec _ _ => true
  | .rduOpB _ _ => true
  | .rduOpE _ _ => true
  | .rduEnd _ _ => true
  | .rduRreg _ _ => true
  | .classInstructionAtStation core station => core < 128 && 2 ≤ station && station < 6
  | .setvl _ _ => true
  | .setvlr _ _ => true
  | .vld _ _ => true
  | .vldff _ _ => true
  | .vlds _ _ => true
  | .vldx _ _ => true
  | .vldxff _ _ => true
  | .vldseg _ _ => true
  | .vrgather _ _ => true
  | .vst _ _ => true
  | .vsts _ _ => true
  | .vstx _ _ => true
  | .vstseg _ _ => true
  | .vfadd _ _ => true
  | .vfsub _ _ => true
  | .vfmul _ _ => true
  | .vfdiv _ _ => true
  | .vfsqrt _ _ => true
  | .vfma _ _ => true
  | .vfmin _ _ => true
  | .vfmax _ _ => true
  | .vfcmpeq _ _ => true
  | .vfcmplt _ _ => true
  | .vfcmple _ _ => true
  | .vcvt _ _ => true
  | .vadd _ _ => true
  | .vsub _ _ => true
  | .vsadd _ _ => true
  | .vssub _ _ => true
  | .vaadd _ _ => true
  | .vmul _ _ => true
  | .vmulh _ _ => true
  | .vmulhq _ _ => true
  | .vmin _ _ => true
  | .vmax _ _ => true
  | .vand _ _ => true
  | .vor _ _ => true
  | .vxor _ _ => true
  | .vshl _ _ => true
  | .vsra _ _ => true
  | .vnshr _ _ => true
  | .vcmpeq _ _ => true
  | .vcmplt _ _ => true
  | .vdot _ _ => true
  | .vaccadd _ _ => true
  | .vdotr _ _ => true
  | .vredsum _ _ => true
  | .vredmax _ _ => true
  | .vredmin _ _ => true
  | .vpcnt _ _ => true
  | .vpfirst _ _ => true
  | .vmov _ _ => true
  | .viota _ _ => true
  | .solveB _ _ => true
  | .solveE _ _ => true
  | .lvuWakeDone core => core < 192
  | .lvuPowerDown core => core < 192
  | .loadTileReady core => core < 128
  | .matrixActivationTile core => core < 128
  | .matrixStationaryTile core => core < 128
  | .matrixReadout who => who.core < 128 && who.bad < 16
  | .trestleWeightTile core => core < 128
  | .trestleReadout who => who.core < 128 && who.bad < 16
  | .elementTile core => core < 128
  | .reduceTile who => who.core < 128 && who.bad < 16
  | .storeTile core => core < 128
  | .storeTileVisible core => core < 128
  | .fabricPutTile core => core < 128
  | .fabricGetTileReady core => core < 128
  | .copyRequestServe cpe => cpe < 18
  | .copyLineLanded cpe => cpe < 18
  | .ncoPreemptReq core _ => core < 128
  | .preemptSaveDone core => core < 128
  | .solveStart svu => svu < 24
  | .boundaryReductionResult svu => svu < 24
  | .solveDeadlineExpiry svu => svu < 24
  | .patrolScrubRead _ syms => 1 ≤ syms
  | .remapCopyDone h i => h < 2 && i < 8192
  | .hotChannelWindowEnd h p counts => h < 2 && p < 9 && counts.length ≤ 192
  | .memPartCfgValid h p _ => h < 2 && p < 9
  | .llmPartCfgApply h p _ => h < 2 && p < 8
  | .llmSplitDone h p => h < 2 && p < 8
  | .rglPartWrite h p _ => h < 2 && p < 8
  | .archLinkCrcFail h _ => h < 2
  | .pktRead p _ => pktWf p
  | .pktWrite p _ => pktWf p
  | .pktWritef p _ _ => pktWf p
  | .pktAdd p _ => pktWf p
  | .pktMin p _ => pktWf p
  | .pktMax p _ => pktWf p
  | .pktAnd p _ => pktWf p
  | .pktOr p _ => pktWf p
  | .pktXor p _ => pktWf p
  | .pktSwap p _ => pktWf p
  | .pktCas8 p _ => pktWf p
  | .pktCas16 p _ => pktWf p
  | .pktData p => pktWf p
  | .pktAck p => pktWf p
  | .pktValue p => pktWf p
  | .pktNackBusy p => pktWf p
  | .pktNackDomain p => pktWf p
  | .pktUnreachable p => pktWf p
  | .pktFault p => pktWf p
  | .retryAfterExpiry eng seq => eng < 2 ^ 12 && seq < 2 ^ 24
  | .resendTimeout eng seq => eng < 2 ^ 12 && seq < 2 ^ 24
  | .rcacheEntryExpiry src eng seq => src < 2 ^ 20 && eng < 2 ^ 12 && seq < 2 ^ 24
  | .routerForward i => routerInWf i
  | .scauthLinkReplay port _ => port < 16
  | .keepaliveSend port => port < 16
  | .keepaliveReceived port => port < 16
  | .portSilenceTimeout port => port < 16
  | .lossOfLock port => port < 16
  | .leavingReceived port => port < 16
  | .portTrained port => port < 16
  | .lostNotice port coord _ => port < 16 && coord < 2 ^ 20
  | .scfCoordWrite _ => true
  | .scfPortCtlWrite port _ => port < 16
  | .scfDomainWrite p _ => p < 8
  | .scfSlotSplitWrite _ => true
  | .winEntryWord1Write i _ => i < 2097152
  | .winEntryWord0Write i _ => i < 2097152
  | .colGroupValid g _ => g < 1024
  | .colTrigValid t _ => t < 8192
  | .colTadd ctx n _ => ctx < 64 && n < 2048
  | .collectiveQueuedStart _ => true
  | .collectiveFlit port f => port < 16 && flitWf f
  | .bulkChunk port f => port < 16 && flitWf f
  | .matchRetry port f => port < 16 && flitWf f
  | .collectiveComplete _ => true
  | .collWatchdog _ => true
  | .cutVoteResult p => p < 8
  | .cutCopyDone p => p < 8
  | .copiedVoteResult p => p < 8
  | .drainSeal p => p < 8
  | .drainWriteFail p => p < 8
  | .restoreLocalDone p => p < 8
  | .restoreVoteResult p => p < 8
  | .errorWatchWindow => true
  | .ckpCfgValid p _ => p < 8
  | .ckpCmdCut p => p < 8
  | .ckpCmdRestoreCofferdam p => p < 8
  | .ckpCmdRestoreModules p => p < 8
  | .ckpCmdRestoreMirror p => p < 8
  | .ckpCmdReshard p source => p < 8 && (source == 1 || source == 2)
  | .ckpCmdStop p => p < 8
  | .ckpCmdRvote p => p < 8
  | .hostLineInvalidated r => r < 256
  | .hostIndexLineArrival r _ _ => r < 256
  | .launch r bytes => r < 256 && bytes.length == 64
  | .tadd r bytes => r < 256 && bytes.length == 64
  | .mark r bytes => r < 256 && bytes.length == 64
  | .deviceIndexLineWrite r => r < 256
  | .faultRecordWrite => true
  | .launchWatchdog r _ => r < 256
  | .dspTctlResume _ => true
  | .dspTctlAbandon _ => true
  | .dspTlbinvGo _ => true
  | .tlbinvDone => true
  | .dspCtxdefValid c _ => c < 64
  | .dspCsetWrite c k w _ => c < 64 && k < 4 && w < 6
  | .dspCfgEnable _ => true
  | .dspRingEnable r _ => r < 256
  | .dspLogclaim p => p < 8
  | .hostRead addr n hold => 1 ≤ n && addr % 64 + n ≤ 64 && hold ≤ 2
  | .hostWrite addr bytes hold => 1 ≤ bytes.length && addr % 64 + bytes.length ≤ 64 && hold ≤ 2
  | .plkPortDown port => port < 2
  | .plkPortUp port => port < 2
  | .plkFlitResend port _ => port < 2
  | .keyswitch => true
  | .secCmdReport => true
  | .secCmdAdmit => true
  | .secCmdEndsession => true
  | .secKslotLoad k _ => k < 32
  | .secMeasGo h i _ => h < 2 && i < 128
  | .measurementDone h i => h < 2 && i < 128
  | .secReleaseGo _ => true
  | .scrubDone p => p < 8
  | .ceSummaryPeriod => true
  | .refclkLoss => true
  | .refclkReturn => true
  | .railFault rail => rail < 11
  | .sequencerTimeout die => die < 7
  | .powerSample _ _ _ => true
  | .thermalSample _ => true
  | .thermalTrip die _ => die < 7
  | .powerLoss _ => true
  | .powerOn => true
  | .rootPllLock => true
  | .railsUp => true
  | .imageVerify a b => a.header.length == 256 && b.header.length == 256
  | .imageApply power _ => power < 3
  | .hbmTraining _ _ => true
  | .serdesTraining _ _ _ => true
  | .hbmZero => true
  | .memoryClear => true
  | .frontEndReady => true
  | .startUpStageTimeout => true
  | .resetNPulse => true
  | .pwrCtlReset _ => true
  | .pwrCtlStandby _ => true
  | .pwrRegimePowerChange _ => true
  | .pwrRegimePrecisionChange _ => true
  | .pwrRegimeLatencyChange _ => true
  | .frugalChangeProceeds => true
  | .bbxCtlFreeze => true
  | .bbxCtlUnfreeze => true
  | .bbxDataHRead => true
  | .bbxDataIRead => true
  | .i3cPrivateWrite bytes => bytes.length == 8
  | .i3cPrivateRead => true
  | .i3cArbitrationLoss => true
  | .i3cRetry => true
  | .evtClaimTriggerIn n _ _ => n < 4
  | .evtClaimFreezeOut n _ _ => n < 4
  | .evtRelease n _ _ => n < 4
  | .evtTriggerEdge n => n < 4
  | .evtFreezeEdge n => n < 4
  | .moduleInserted b _ => b < 2
  | .capsuleCheckDone b => b < 2
  | .drnBayEject b => b < 2
  | .moduleRemoved b => b < 2
  | .ledgerPoll => true
  | .drnAreaWrite p _ _ => p < 8
  | .drnXferLoad p _ => p < 8
  | .drnXferFill p _ => p < 8
  | .drnXferDone p => p < 8
  | .scoLvuPwrWrite core _ => core < 192
  | .registerWrite _ _ _ => true
  | .receiveLock port => port < 16
  | .iterationBoundary svu => svu < 24
  | .sCorePreemption _ => true
  | .contextRestore _ ctx => ctx < 64
  | .pwrgoodAsserted => true
  | .rootPllLockTimeout => true
  | .badDesc r bytes => r < 256 && bytes.length == 64
  | .descriptorReadFailure r => r < 256
  | .recallReturn _ bytes => bytes.length == 64
  | .slewEnd => true
  | .sclkCycle h _ _ _ _ => h < 2
  | .testAccessInstruction _ => true
  | .illegalEncoding _ cls => cls < 64
  | .fetchFault _ => true
  | .sequencerHeartbeatLost die => die < 7

end Sys2Proof
end

