-- ==== Sys2Proof/Tests/Slice0.lean ====
section
/-! SUPPORT. The model's own tests: ill-formed commands, one step of a few commands with values worked out by hand from the spec, and a state that meets the hypotheses of each statement. -/

namespace Sys2Proof.Tests

open Sys2Proof Sys2Proof.Machine
set_option Elab.async false

/-- Operand fields of zeros. -/
def ops0 : Opnds := ⟨false, false, 0, false, 0, 0, 0, 0, 0, 0⟩
/-- R-form operand fields D, A, B. -/
def opsR (d a b : BitVec 6) : Opnds := { ops0 with d := d, a := a, b := b }
/-- I-form operand fields D, A, IMM32. -/
def opsI (d a : BitVec 6) (imm : BitVec 32) : Opnds := { ops0 with iform := true, d := d, a := a, imm := imm }
/-- A packet of zeros. -/
def pkt0 : Pkt := ⟨0, 0, false, false, 0, 0, 0, 0, 0, 0, 0, 0, 0, [], [], false, 0⟩
/-- A member of zeros. -/
def mem0 : Member := ⟨0, 0, 0, 0⟩
/-- A collective flit of zeros. -/
def flit0 : Flit := ⟨false, false, 0, 0, 0, 0, 0, false, false, none, 0, 0, [], 0, 0, 0⟩
/-- An image slot that reads as zeros. -/
def slot0 : ImageSlot := ⟨List.replicate 256 0, [], true⟩
/-- A new module. -/
def mod0 : ModuleIn := ⟨7, 1000, 0, 0, false, false, true, true, []⟩

/-- Commands with one operand outside its range are not well formed (1). -/
theorem test_wf_refuses_1 : ([.classInstructionAtStation (128) 0, .classInstructionAtStation 0 1, .classInstructionAtStation 0 (6), .lvuWakeDone (192), .lvuPowerDown (192), .loadTileReady (128), .matrixActivationTile (128), .matrixStationaryTile (128), .matrixReadout ⟨128, 0⟩, .matrixReadout ⟨0, 16⟩, .trestleWeightTile (128), .trestleReadout ⟨128, 0⟩, .trestleReadout ⟨0, 16⟩, .elementTile (128), .reduceTile ⟨128, 0⟩, .reduceTile ⟨0, 16⟩, .storeTile (128), .storeTileVisible (128), .fabricPutTile (128), .fabricGetTileReady (128), .copyRequestServe (18), .copyLineLanded (18), .ncoPreemptReq (128) 0, .preemptSaveDone (128), .solveStart (24), .boundaryReductionResult (24)] : List Instr).all (fun i => !i.wf) = true := by decide +kernel
/-- Commands with one operand outside its range are not well formed (2). -/
theorem test_wf_refuses_2 : ([.solveDeadlineExpiry (24), .patrolScrubRead 0 0, .remapCopyDone (2) 0, .remapCopyDone 0 (8192), .hotChannelWindowEnd (2) 0 [], .hotChannelWindowEnd 0 (9) [], .memPartCfgValid (2) 0 0, .memPartCfgValid 0 (9) 0, .llmPartCfgApply (2) 0 0, .llmPartCfgApply 0 (8) 0, .llmSplitDone (2) 0, .llmSplitDone 0 (8), .rglPartWrite (2) 0 0, .rglPartWrite 0 (8) 0, .archLinkCrcFail (2) 0, .pktRead { pkt0 with ty := 64 } false, .pktWrite { pkt0 with ty := 64 } false, .pktWritef { pkt0 with ty := 64 } false [], .pktAdd { pkt0 with ty := 64 } false, .pktMin { pkt0 with ty := 64 } false, .pktMax { pkt0 with ty := 64 } false, .pktAnd { pkt0 with ty := 64 } false, .pktOr { pkt0 with ty := 64 } false, .pktXor { pkt0 with ty := 64 } false] : List Instr).all (fun i => !i.wf) = true := by decide +kernel
/-- Commands with one operand outside its range are not well formed (3). -/
theorem test_wf_refuses_3 : ([.pktSwap { pkt0 with ty := 64 } false, .pktCas8 { pkt0 with ty := 64 } false, .pktCas16 { pkt0 with ty := 64 } false, .pktData { pkt0 with ty := 64 }, .pktAck { pkt0 with ty := 64 }, .pktValue { pkt0 with ty := 64 }, .pktNackBusy { pkt0 with ty := 64 }, .pktNackDomain { pkt0 with ty := 64 }, .pktUnreachable { pkt0 with ty := 64 }, .pktFault { pkt0 with ty := 64 }, .retryAfterExpiry (2 ^ 12) 0, .retryAfterExpiry 0 (2 ^ 24), .resendTimeout (2 ^ 12) 0, .resendTimeout 0 (2 ^ 24), .rcacheEntryExpiry (2 ^ 20) 0 0, .rcacheEntryExpiry 0 (2 ^ 12) 0, .rcacheEntryExpiry 0 0 (2 ^ 24), .routerForward (.depart 16), .scauthLinkReplay (16) 0, .keepaliveSend (16), .keepaliveReceived (16), .portSilenceTimeout (16), .lossOfLock (16), .leavingReceived (16)] : List Instr).all (fun i => !i.wf) = true := by decide +kernel
/-- Commands with one operand outside its range are not well formed (4). -/
theorem test_wf_refuses_4 : ([.portTrained (16), .lostNotice (16) 0 0, .lostNotice 0 (2 ^ 20) 0, .scfPortCtlWrite (16) 0, .scfDomainWrite (8) 0, .winEntryWord1Write (2097152) 0, .winEntryWord0Write (2097152) 0, .colGroupValid (1024) 0, .colTrigValid (8192) 0, .colTadd (64) 0 0, .colTadd 0 (2048) 0, .collectiveFlit (16) flit0, .collectiveFlit 0 { flit0 with group := 1024 }, .bulkChunk (16) flit0, .bulkChunk 0 { flit0 with group := 1024 }, .matchRetry (16) flit0, .matchRetry 0 { flit0 with group := 1024 }, .cutVoteResult (8), .cutCopyDone (8), .copiedVoteResult (8), .drainSeal (8), .drainWriteFail (8), .restoreLocalDone (8), .restoreVoteResult (8)] : List Instr).all (fun i => !i.wf) = true := by decide +kernel
/-- Commands with one operand outside its range are not well formed (5). -/
theorem test_wf_refuses_5 : ([.ckpCfgValid (8) 0, .ckpCmdCut (8), .ckpCmdRestoreCofferdam (8), .ckpCmdRestoreModules (8), .ckpCmdRestoreMirror (8), .ckpCmdReshard (8) 0, .ckpCmdReshard 0 3, .ckpCmdStop (8), .ckpCmdRvote (8), .hostLineInvalidated (256), .hostIndexLineArrival (256) 0 0, .launch (256) [], .launch 0 [0], .tadd (256) [], .tadd 0 [0], .mark (256) [], .mark 0 [0], .deviceIndexLineWrite (256), .launchWatchdog (256) 0, .dspCtxdefValid (64) 0, .dspCsetWrite (64) 0 0 0, .dspCsetWrite 0 (4) 0 0, .dspCsetWrite 0 0 (6) 0, .dspRingEnable (256) 0] : List Instr).all (fun i => !i.wf) = true := by decide +kernel
/-- Commands with one operand outside its range are not well formed (6). -/
theorem test_wf_refuses_6 : ([.dspLogclaim (8), .hostRead 0 0 0, .hostRead 60 8 0, .hostRead 0 8 3, .hostWrite 0 [] 0, .hostWrite 60 [1, 2, 3, 4, 5, 6, 7, 8] 0, .hostWrite 0 [1] 3, .plkPortDown (2), .plkPortUp (2), .plkFlitResend (2) 0, .secKslotLoad (32) 0, .secMeasGo (2) 0 0, .secMeasGo 0 (128) 0, .measurementDone (2) 0, .measurementDone 0 (128), .scrubDone (8), .railFault (11), .sequencerTimeout (7), .thermalTrip (7) 0, .imageVerify { slot0 with header := [] } slot0, .imageVerify slot0 { slot0 with header := [] }, .imageApply (3) [], .i3cPrivateWrite [0], .evtClaimTriggerIn (4) 0 false] : List Instr).all (fun i => !i.wf) = true := by decide +kernel
/-- Commands with one operand outside its range are not well formed (7). -/
theorem test_wf_refuses_7 : ([.evtClaimFreezeOut (4) 0 false, .evtRelease (4) 0 false, .evtTriggerEdge (4), .evtFreezeEdge (4), .moduleInserted (2) mod0, .capsuleCheckDone (2), .drnBayEject (2), .moduleRemoved (2), .drnAreaWrite (8) false 0, .drnXferLoad (8) 0, .drnXferFill (8) 0, .drnXferDone (8), .scoLvuPwrWrite (192) 0, .receiveLock (16), .iterationBoundary (24), .contextRestore (.n 0) (64), .badDesc (256) [], .badDesc 0 [0], .descriptorReadFailure (256), .recallReturn 0 [0], .sclkCycle (2) 0 0 [] [], .illegalEncoding (.n 0) (64), .sequencerHeartbeatLost (7)] : List Instr).all (fun i => !i.wf) = true := by decide +kernel
/-- R255: a packet with one header field too wide is not well formed. -/
theorem test_wf_packet_fields : ([{ pkt0 with ty := 64 }, { pkt0 with vc := 4 }, { pkt0 with src := 2 ^ 20 }, { pkt0 with dst := 2 ^ 20 }, { pkt0 with dom := 2 ^ 16 }, { pkt0 with eng := 2 ^ 12 }, { pkt0 with seq := 2 ^ 24 }, { pkt0 with addr := 2 ^ 48 }, { pkt0 with tries := 16 }, { pkt0 with prior := 2 ^ 32 }, { pkt0 with mask := 2 ^ 64 }, { pkt0 with mem := List.replicate 9 mem0 }, { pkt0 with data := List.replicate 65 0 }, { pkt0 with dax := 5 }, { pkt0 with mem := [{ mem0 with src := 2 ^ 20 }] }, { pkt0 with mem := [{ mem0 with eng := 2 ^ 12 }] }, { pkt0 with mem := [{ mem0 with seq := 2 ^ 24 }] }] : List Pkt).all (fun p => !pktWf p) = true := by decide +kernel
/-- R284, R298: a collective flit with one header field too wide is not well formed. -/
theorem test_wf_flit_fields : ([{ flit0 with group := 1024 }, { flit0 with seq := 2 ^ 16 }, { flit0 with kind := 16 }, { flit0 with dig := 2 ^ 16 }, { flit0 with ddig := 2 ^ 16 }, { flit0 with vals := List.replicate 65 (0, 0) }, { flit0 with root := 2 ^ 20 }, { flit0 with dax := 5 }] : List Flit).all (fun p => !flitWf p) = true := by decide +kernel
/-- R270: a router input at a port that does not exist is not well formed. -/
theorem test_wf_router_inputs : ([.port 16 pkt0, .port 0 { pkt0 with ty := 64 }, .depart 16] : List RouterIn).all (fun p => !routerInWf p) = true := by decide +kernel
/-- Commands with every operand in range are well formed. -/
theorem test_wf_accepts : pktWf pkt0 = true ∧ flitWf flit0 = true ∧ Instr.wf (.add (.n 0) ops0) = true ∧ Instr.wf (.matrixReadout ⟨127, 15⟩) = true ∧ Instr.wf (.hostWrite 60 [1, 2, 3, 4] 2) = true := by decide +kernel

/-- A package that runs, with both Palale Link ports up (R415, R332). -/
def upState : State := wr (wr State.reset R.PWR_STAT 2) R.PLK_STAT 0xF
/-- A running thread: x1 = 7, x2 = 5, x3 = 0, x4 = 64. -/
def run0 : Thread := { thread0 with phase := .run, x := [(1, 7), (2, 5), (4, 64)] }
/-- The thread of N-core 0 runs. -/
def nState : State := setTh upState 0 run0
/-- Thread 0 of S-core 0 runs, with eight binary64 elements. -/
def sState : State := setTh upState 128 { run0 with vl := 8, vtype := 6 }
/-- N-core 0's thread runs with context 0, whose tables lie in its local store: VA 0 maps that store, VA 0x200000 the registers of the fabric die, VA 0x400000 its COL block, VA 0x600000 the store of N-core 1 for execution (R325). -/
def mState : State :=
  memPut (memPut (memPut (wr (wr nState (R.DSP_CTXDEF 0) 0x8000000000000000) (R.DSP_CTXROOT 0) 0x020080000000)
    0x020080000000 (leBytes 8 0x020080001001)) 0x020080001000 (leBytes 8 0x020080002001))
    0x020080002000 (leBytes 8 0x02008000000F ++ leBytes 8 0x0F000000000F ++ leBytes 8 0x0F000020000F ++ leBytes 8 0x020080200017)
/-- The same with a window to this package's own store at fabric address 0, and its thread in an S-core too (R256). -/
def wState : State := setTh (wr (wr (wr (wr (wr mState (R.WIN_ENTRY0 0) 0xF) (R.WIN_ENTRY1 0) 0x020080000000) R.SCF_COORD 0x8000000000000000) R.SCF_BLOCK 0x8000000000000000) (R.SCF_DOMAIN 0) 0x8000000000000007) 128 { run0 with vl := 8, vtype := 6 }

theorem reset_inv : State.reset.Inv := ⟨rfl, rfl, rfl, rfl, rfl, rfl, rfl, rfl, rfl⟩
theorem upState_inv : upState.Inv := wr_inv _ _ (wr_inv _ _ reset_inv)
theorem nState_inv : nState.Inv := setTh_inv _ _ upState_inv
theorem sState_inv : sState.Inv := setTh_inv _ _ upState_inv
theorem mState_inv : mState.Inv := memPut_inv _ _ (memPut_inv _ _ (memPut_inv _ _ (wr_inv _ _ (wr_inv _ _ nState_inv))))
theorem wState_inv : wState.Inv := setTh_inv _ _ (wr_inv _ _ (wr_inv _ _ (wr_inv _ _ (wr_inv _ _ (wr_inv _ _ mState_inv)))))

/-- The state after one command. -/
def next (c : Instr) (s : State) : State := after (exec c s) s

/-- R64, R54: 7 + 5 = 12 in x3, and the pc moves on by 8. -/
theorem test_add : xr (th (next (.add (.n 0) (opsR 3 1 2)) nState) 0) 3 = 12 ∧ (th (next (.add (.n 0) (opsR 3 1 2)) nState) 0).pc = 8 := by decide +kernel
/-- R59, R64: x0 reads zero and writes to it are lost. -/
theorem test_add_x0 : xr (th (next (.add (.n 0) (opsR 0 1 2)) nState) 0) 0 = 0 := by decide +kernel
/-- R62: the immediate is sign-extended: 7 - (-1) = 8. -/
theorem test_sub_imm : xr (th (next (.sub (.n 0) (opsI 3 1 0xFFFFFFFF)) nState) 0) 3 = 8 := by decide +kernel
/-- R66: 7 by zero: all ones, and 7 left over. -/
theorem test_div_zero : xr (th (next (.divs (.n 0) (opsR 3 1 5)) nState) 0) 3 = 0xFFFFFFFFFFFFFFFF ∧
    xr (th (next (.rems (.n 0) (opsR 3 1 5)) nState) 0) 3 = 7 := by decide +kernel
/-- R64: -8 shifted right by one, arithmetically, is -4. -/
theorem test_sar : xr (th (next (.sar (.n 0) (opsI 3 1 1)) (setTh nState 0 { run0 with x := [(1, 0xFFFFFFFFFFFFFFF8)] })) 0) 3 = 0xFFFFFFFFFFFFFFFC := by decide +kernel
/-- R60: a compare sets every bit of the predicate of an S-core thread. -/
theorem test_cmp : pr (th (next (.cmpltu (.s 0 0) (opsR 2 2 1)) sState) 128) 2 = BitVec.allOnes 512 := by decide +kernel
/-- R58: a MATRIX instruction on an S-core faults with CLASS_PROFILE: status 0x11, subcode 0x10. -/
theorem test_profile : (th (next (.mxend (.s 0 0) ops0) sState) 128).err = (0x11, 0x10) ∧ (th (next (.mxend (.s 0 0) ops0) sState) 128).phase = .fault := by decide +kernel
/-- R57: a used register field above the file's size is an illegal encoding. -/
theorem test_shape : (th (next (.pand (.n 0) (opsR 16 0 0)) nState) 0).err = (0x11, 0x11) := by decide +kernel
/-- R61: a guard that fails retires with no effect. -/
theorem test_guard : xr (th (next (.add (.n 0) { opsR 3 1 2 with ge := true, pg := 1 }) nState) 0) 3 = 0 ∧
    (th (next (.add (.n 0) { opsR 3 1 2 with ge := true, pg := 1 }) nState) 0).pc = 8 := by decide +kernel
/-- R67: 1 + 2^-53 is a tie and rounds to 1; 1 / 0 is infinity. -/
theorem test_fp : fr (th (next (.fadd (.n 0) (opsR 3 1 2)) (setTh nState 0 { run0 with f := [(1, 0x3FF0000000000000), (2, 0x3CA0000000000000)] })) 0) 3 = 0x3FF0000000000000 ∧
    fr (th (next (.fdiv (.n 0) (opsR 3 1 4)) (setTh nState 0 { run0 with f := [(1, 0x3FF0000000000000)] })) 0) 3 = 0x7FF0000000000000 := by decide +kernel
/-- R69: a branch by -2 words from pc 0. -/
theorem test_br : (th (next (.br (.n 0) (opsI 0 0 0xFFFFFFFE)) nState) 0).pc = 0xFFFFFFFFFFFFFFF0 := by decide +kernel
/-- R68, R85: a load of 8 bytes from address 7 faults with MISALIGNED. -/
theorem test_misaligned : (th (next (.ld8 (.n 0) (opsI 3 1 0)) nState) 0).err = (0x10, 0x15) := by decide +kernel
/-- R68: a store of two bytes and a load of one of them back. -/
theorem test_store_load : memByte (next (.st2 (.n 0) (opsI 1 4 0)) mState) 0x020080000040 = 7 ∧
    memByte (next (.st2 (.n 0) (opsI 1 4 0)) mState) 0x020080000041 = 0 ∧ xr (th (next (.ld1 (.n 0) (opsI 3 0 1)) mState) 0) 3 = 0x10 := by decide +kernel
/-- R162: vl is the lesser of x4 = 64 and the VLMAX of FP64, which is 64; of 7 with FP32 it is 7. -/
theorem test_setvl : (th (next (.setvl (.s 0 0) (opsI 3 4 6)) sState) 128).vl = 64 ∧ (th (next (.setvl (.s 0 0) (opsI 3 1 5)) sState) 128).vl = 7 := by decide +kernel
/-- R389: CRC-32C of the nine digits 123456789 is the check value 0xE3069283 of that code. -/
theorem test_crc32c : crc32c [0x31, 0x32, 0x33, 0x34, 0x35, 0x36, 0x37, 0x38, 0x39] = 0xE3069283 := by decide +kernel
/-- R30: an idle step with the root PLL unlocked adds 10 ns. -/
theorem test_tick : (after (step State.reset) State.reset).ltc = 10 := by decide +kernel
/-- R8, R240: the host sets PATROL_H to 12 hours; bits without a field stay zero. -/
theorem test_register_write : rd (next (.registerWrite (R.MEM_RAS_CFG 0) 8 0xFFFF000000000C40) upState) (R.MEM_RAS_CFG 0) = 0x0C40 := by decide +kernel
/-- R25: a store of four bytes to a register gets the error response. -/
theorem test_register_width : (next (.registerWrite (R.MEM_RAS_CFG 0) 4 0) upState).tx = [.answer (R.MEM_RAS_CFG 0) [] false] := by decide +kernel
/-- R423: a die at 105.0 degrees leaves DUTY at 8 at most. -/
theorem test_thermal : rdf (next (.thermalSample [600, 1060]) upState) R.PWR_THROTTLE 0 7 = 8 ∧ rdf (next (.thermalSample [600, 1060]) upState) R.PWR_THERM 16 3 = 1 := by decide +kernel
/-- R422: one sample above the cap lowers DUTY from 64 to 63. -/
theorem test_power : rdf (next (.powerSample 4000 48000 8000) upState) R.PWR_THROTTLE 0 7 = 63 := by decide +kernel
/-- R405: 80 % of the rated bytes is WORN, 95 % LAST, all of it SPENT. -/
theorem test_life : moduleLife { moduleOf mod0 with written := 800 } = 2 ∧ moduleLife { moduleOf mod0 with written := 950 } = 3 ∧
    moduleLife { moduleOf mod0 with written := 1000 } = 4 := by decide +kernel
/-- R386: a rail fault is fatal with cause 5. -/
theorem test_rail : pwrState (next (.railFault 3) upState) = 4 ∧ rdf (next (.railFault 3) upState) R.PWR_STAT 8 8 = 5 := by decide +kernel

/-- IdleStepTicks: an empty queue, with the trace queue empty; a burn that the image asked for, in a package that runs, and none. -/
theorem witness_IdleStepTicks : State.reset.pending = [] ∧ State.reset.traceQ = [] ∧ State.reset.svnTo = none ∧
    issuing upState = true ∧ ({ upState with svnTo := some 3 } : State).svnTo = some 3 ∧ upState.traceQ = [] := by decide +kernel
/-- StepKeepsInvariant, EveryCommandAnswers: a state in canonical form with a command waiting. -/
theorem witness_StepKeepsInvariant : ({ nState with pending := [.add (.n 0) (opsR 3 1 2)] } : State).Inv ∧
    ∃ t, step { nState with pending := [.add (.n 0) (opsR 3 1 2)] } = .next t := ⟨nState_inv, _, rfl⟩
/-- IssueChecks: each check in its turn: a thread that does not run; a class outside the profile; fields outside the format; a guard that fails. -/
theorem witness_IssueChecks : canIssue nState 1 = false ∧ (canIssue sState 128 = true ∧ classOk 0x09 (isS 128) = false) ∧
    (canIssue nState 0 = true ∧ classOk 0x01 (isS 0) = true ∧ shapeOk (some ⟨16, 16, 16, 0, 0⟩) none (opsR 16 0 0) = false) ∧
    (shapeOk xxx xxi (opsR 3 1 2) = true ∧ guardOk (th nState 0) true false 1 = false) := by decide +kernel
/-- IntegerOperations: R and I forms, register numbers 0 and 63. -/
theorem witness_IntegerOperations : nState.Inv ∧ Issues nState (.n 0) (opsR 63 0 63) 0x01 xxx xxi ∧ Issues nState (.n 0) (opsI 63 0 0xFFFFFFFF) 0x01 xxx xxi ∧
    Issues nState (.n 0) (opsR 3 1 2) 0x01 xxx none ∧ Issues nState (.n 0) (opsI 3 1 0x3F) 0x01 xxx (some ⟨64, 64, 0x3F⟩) ∧
    Issues nState (.n 0) (opsI 3 0 0xFFFFFFFF) 0x01 none (some ⟨64, 0, 0xFFFFFFFF⟩) := by and_intros <;> decide +kernel
/-- ComparesAndPredicates: the last predicate, an integer compare, the forms with no operand, SETC and SDADD. -/
theorem witness_ComparesAndPredicates : Issues sState (.s 0 0) (opsR 15 63 63) 0x01 (some ⟨16, 64, 64, 0, 0⟩) (some ⟨16, 64, 0xFFFFFFFF⟩) ∧
    Issues sState (.s 0 0) (opsR 15 15 15) 0x01 (some ⟨16, 16, 16, 0, 0⟩) none ∧ Issues sState (.s 0 0) ops0 0x01 (some ⟨0, 0, 0, 0, 0⟩) none ∧
    Issues nState (.n 0) (opsI 31 0 1) 0x03 none (some ⟨32, 0, 0xFFFFFFFF⟩) ∧ Issues nState (.n 0) (opsI 0 0 0) 0x02 none (some ⟨0, 0, 0⟩) ∧
    Issues nState (.n 0) (opsR 15 1 0) 0x08 (some ⟨16, 64, 0, 0, 0⟩) none := by and_intros <;> decide +kernel
/-- FloatOperations: R and I forms, the last register; a compare; a conversion. -/
theorem witness_FloatOperations : Issues nState (.n 0) (opsR 31 31 31) 0x01 fff (some ⟨32, 32, 0xFFFFFFFF⟩) ∧
    Issues nState (.n 0) (opsI 31 0 0x3F800000) 0x01 fff (some ⟨32, 32, 0xFFFFFFFF⟩) ∧ Issues nState (.n 0) { opsR 1 2 3 with c := 31 } 0x01 (some ⟨32, 32, 32, 32, 0⟩) none ∧
    Issues nState (.n 0) (opsR 15 31 31) 0x01 (some ⟨16, 32, 32, 0, 0⟩) none ∧ Issues nState (.n 0) (opsR 63 31 0) 0x01 (some ⟨64, 32, 0, 0, 0⟩) none := by
  and_intros <;> decide +kernel
/-- ControlAndSpecialReads: RDCTR of index 3; JR to an aligned and to a misaligned address; END with no work and with a copy in flight; TRACE enabled, with a full queue, and not enabled. -/
theorem witness_ControlAndSpecialReads : Issues nState (.n 0) (opsI 3 0 3) 0x01 none (some ⟨64, 0, 0xFFFFFFFF⟩) ∧
    Issues nState (.n 0) (opsI 3 4 8) 0x02 none (some ⟨64, 64, 0xFFFFFFFF⟩) ∧ scalarVa nState 0 (opsI 3 4 8) % 8 = 0 ∧ scalarVa nState 0 (opsI 3 1 0) % 8 ≠ 0 ∧
    hasWork nState 0 = false ∧ hasWork { nState with landing := [(0, 0, 0, 1)] } 0 = true ∧
    Issues nState (.n 0) (opsI 0 1 63) 0x02 none (some ⟨0, 64, 0xFF⟩) ∧ confidential nState = false ∧
    bitw (rd (wr nState (R.DSP_CTX_TRACE_EN 0 0) 0x8000000000000000) (R.DSP_CTX_TRACE_EN 0 0)) 63 = true ∧
    bitw (rd nState (R.DSP_CTX_TRACE_EN 0 0)) 63 = false ∧ 1024 ≤ ({ nState with traceQ := List.replicate 1024 ⟨0, 0, 0, 0, 0, 0, 0⟩ } : State).traceQ.length := by
  and_intros <;> decide +kernel

/-- What an access at a scalar address of `n` bytes must meet to reach its bytes. -/
def reaches (s : State) (k n : Nat) (o : Opnds) (kind : AccKind) (pa : Nat) : Bool :=
  let t := translate s (th s k).ctx (scalarVa s k o) kind
  scalarVa s k o % n == 0 && t.2 == .ok pa && region pa != .reg && physErr t.1 (.ctx (th s k).ctx) pa n (kind == .write) == none && !(linesOf pa n).any (lineWaits t.1)
theorem reaches_of {s : State} {k n : Nat} {o : Opnds} {kind : AccKind} {pa : Nat} (h : reaches s k n o kind pa = true) :
    Reaches s (translate s (th s k).ctx (scalarVa s k o) kind).1 k n o kind pa := by
  simp only [reaches, Bool.and_eq_true, beq_iff_eq, bne_iff_ne, Bool.not_eq_true'] at h
  exact ⟨h.1.1.1.1, Prod.ext rfl h.1.1.1.2, h.1.1.2, h.1.2, h.2⟩
/-- The same of a register's address. -/
def reachesReg (s : State) (k : Nat) (o : Opnds) (kind : AccKind) (pa : Nat) : Bool :=
  let t := translate s (th s k).ctx (scalarVa s k o) kind
  t.2 == .ok pa && region pa == .reg && (regBad t.1 pa 8).isNone
theorem reachesReg_of {s : State} {k : Nat} {o : Opnds} {kind : AccKind} {pa : Nat} (h : reachesReg s k o kind pa = true) :
    ReachesReg s (translate s (th s k).ctx (scalarVa s k o) kind).1 k o kind pa := by
  simp only [reachesReg, Bool.and_eq_true, beq_iff_eq, Option.isNone_iff_eq_none] at h
  exact ⟨Prod.ext rfl h.1.1, h.1.2, h.2⟩
/-- N-core 0's thread with addresses for loads and stores: x4 the store, x5 a register, x6 a COL_TADD address, x7 another of that block, x8 no page, x9 a register of no block, x10 memory that does not exist. -/
def aState : State := setTh (memPut mState 0x020080002020 (leBytes 8 0x0F003FE0000F ++ leBytes 8 0x03000000000F)) 0
  { run0 with x := [(1, 7), (4, 64), (5, 0x200000), (6, 0x40C000), (7, 0x400000), (8, 0x1000000), (9, 0x9FFFF8), (10, 0xA00000)] }
theorem aState_inv : aState.Inv := setTh_inv _ _ (memPut_inv _ _ mState_inv)
/-- The host changes a line that holds the page tables, or the store's line that x4 names. -/
def heldLine (l : Nat) : State := { aState with hostLines := [(l, 2)] }
/-- Loads: eight bytes of the local store, clean and poisoned; a register, a COL_TADD address and another register of its block. -/
theorem witness_Loads : aState.Inv ∧ Issues aState (.n 0) (opsI 3 4 0) 0x01 none (memForm 64) ∧ reaches aState 0 8 (opsI 3 4 0) .read 0x020080000040 = true ∧
    reaches { aState with poison := [0x802000001] } 0 1 (opsI 3 4 0) .read 0x020080000040 = true ∧ (∀ l ∈ linesOf 0x020080000040 8, sget 0 aState.symErr l = 0) ∧
    (physRead aState (srcTh aState 0) 0x020080000040 8).2.2 = false ∧ (physRead { aState with poison := [0x802000001] } (srcTh aState 0) 0x020080000040 8).2.2 = true ∧
    reachesReg aState 0 (opsI 3 5 0) .read 0x0F0000000000 = true ∧ inCol 0x0F0000000000 = false ∧
    reachesReg aState 0 (opsI 3 6 0) .read (R.COL_TADD 0) = true ∧ (taddOf (R.COL_TADD 0)).isSome = true ∧
    reachesReg aState 0 (opsI 3 7 0) .read R.COL_CFG = true ∧ inCol R.COL_CFG = true ∧ taddOf R.COL_CFG = none := by and_intros <;> decide +kernel
/-- Stores: the same with permission to write; a counter the context owns, and one it does not. -/
theorem witness_Stores : Issues aState (.n 0) (opsI 1 4 0) 0x01 none (memForm 64) ∧ reaches aState 0 8 (opsI 1 4 0) .write 0x020080000040 = true ∧
    reachesReg aState 0 (opsI 3 5 0) .write 0x0F0000000000 = true ∧ reachesReg aState 0 (opsI 3 6 0) .write (R.COL_TADD 0) = true ∧ taddOf (R.COL_TADD 0) = some 0 ∧
    ownsCtr aState 0 0 = false ∧ ownsCtr (wr aState (R.COL_TCTR 0) 0x8000000000000000) 0 0 = true := by and_intros <;> decide +kernel
/-- InstructionFaults: the word of an ADD and of a STREAM, and one of a reserved class; addresses that do not translate, aligned and not; one that is misaligned, one of no memory, a register access that is not eight aligned bytes and one of no block; tables and bytes that wait; a fetch at a misaligned pc, at a page without and with permission, and of a poisoned word. -/
theorem witness_InstructionFaults :
    (decodeDeash (.n 0) 0x04024C1000000000).isSome = true ∧ (decodeDeash (.n 0) 0x2000000000000000).isSome = true ∧ decodeDeash (.n 0) 0xFC00000000000000 = none ∧
    ((translate aState 0 (scalarVa aState 0 (opsI 3 8 0)) .read).2 = .err .addr ∧ scalarVa aState 0 (opsI 3 8 0) % 8 = 0 ∧ scalarVa aState 0 (opsI 3 8 1) % 8 ≠ 0) ∧
    ((translate aState 0 (scalarVa aState 0 (opsI 3 4 1)) .read).2 = .ok 0x020080000041 ∧ scalarVa aState 0 (opsI 3 4 1) % 8 ≠ 0) ∧
    ((translate aState 0 (scalarVa aState 0 (opsI 3 10 0)) .read).2 = .ok 0x030000000000 ∧ physErr aState (.ctx 0) 0x030000000000 8 false = some .addr) ∧
    ((translate aState 0 (scalarVa aState 0 (opsI 3 5 0)) .read).2 = .ok 0x0F0000000000 ∧ (translate aState 0 (scalarVa aState 0 (opsI 3 9 0)) .read).2 = .ok 0x0F003FFFFFF8 ∧
      regBlockExists (nCores aState) 0x0F003FFFFFF8 = false) ∧
    ((translate (heldLine 0x802000080) 0 (scalarVa aState 0 (opsI 3 4 0)) .read).2 = .wait ∧ lineWaits (heldLine 0x802000001) 0x802000001 = true) ∧
    (canIssue aState 0 = true ∧ (th (setTh aState 0 { run0 with pc := 4 }) 0).pc.toNat % 8 ≠ 0 ∧ (translate aState 0 0 .exec).2 = .err .perm ∧
      (translate aState 0 0x600000 .exec).2 = .ok 0x020080200000 ∧ physErr aState (.ctx 0) 0x020080200000 8 false = none ∧
      (0x020080200000 / 64) ∈ ({ aState with poison := [0x020080200000 / 64] } : State).poison ∧ aState.poison = []) := by and_intros <;> decide +kernel
/-- WaitsAndFence: a counter at its threshold and one below it; a deadline that has passed and one that has not; the stalled phases; acknowledged and not. -/
theorem witness_WaitsAndFence : Issues nState (.n 0) (opsI 0 31 0) 0x03 none (some ⟨0, 32, 0xFFFFFFFF⟩) ∧ 0 ≤ (cr (th nState 0) 31 - (0 : Half)).toInt ∧
    (cr (th nState 0) 31 - (1 : Half)).toInt < 0 ∧ Issues nState (.n 0) { opsR 15 31 1 with c := 2 } 0x03 (some ⟨16, 32, 64, 64, 0⟩) none ∧
    (xr (th nState 0) 0).toNat ≤ nState.ltc.toNat ∧ nState.ltc.toNat < (xr (th nState 0) 1).toNat ∧ issuing nState = true ∧ (th nState 0).saving = none ∧
    (th (setTh nState 0 { run0 with phase := .waitCtr 0 0 }) 0).phase = .waitCtr 0 0 ∧ (th (setTh nState 0 { run0 with phase := .waitDl 0 0 0 1 }) 0).phase = .waitDl 0 0 0 1 ∧
    (let s := setTh nState 0 { run0 with phase := .fence }
     (th s 0).phase = .fence ∧ acked s 0 = true ∧ acked { s with invs := [(0, 0, 1)] } 0 = false) := by
  and_intros <;> decide +kernel

theorem issues_of {s : State} {t : Tid} {o : Opnds} {cls : Nat} {r : Option RShape} {i : Option IShape}
    (h : (canIssue s (tkey t) && classOk cls (isS (tkey t)) && shapeOk r i o && guardOk (th s (tkey t)) o.ge o.gn o.pg.toNat) = true) :
    Issues s t o cls r i := by
  simp only [Bool.and_eq_true] at h
  exact ⟨h.1.1.1, h.1.1.2, h.1.2, h.2⟩
/-- An access that completed. -/
def okM {α : Type} (r : State × MemRes α) : Bool := match r.2 with | .ok _ => true | .err _ => false | .wait => false
/-- An access that ended in an error. -/
def errM {α : Type} (r : State × MemRes α) : Bool := match r.2 with | .ok _ => false | .err _ => true | .wait => false
/-- An access that waits. -/
def waitM {α : Type} (r : State × MemRes α) : Bool := match r.2 with | .ok _ => false | .err _ => false | .wait => true
/-- A line that its window sends on. -/
def okW : WinRes → Bool | .ok _ _ => true | .err _ _ => false
/-- A state in which the host changes a line of N-core 0's store. -/
def hostHas (s : State) (l : Nat) : State := { s with hostLines := [(l, 2)] }
/-- The descriptor of one tile of 2 rows of 16 binary32 elements at an address (R74, R81). -/
def dTile (base : Word) : Desc := basicDesc base 0x0005100200000040 0x10001
/-- Its tile, of zeros. -/
def t32 : Tile := ⟨5, false, false, 2, 16, 0, 0, false, List.replicate 32 0, [], false⟩
/-- A tile of BF16. -/
def t16 (r c : Nat) : Tile := ⟨3, false, false, r, c, 0, 0, false, List.replicate (r * c) 0x3F80, [], false⟩
/-- N-core 0 with one stream, that has these tiles in its queue. -/
def core1 (frm dst : Port) (ts : List Tile) : NCore := { ncore0 with streams := [⟨0, 1, dTile 0x4000, frm, dst, none, 3, ts.length, ts, 0, 0⟩] }
/-- A running N-core with that stream; descriptor register 1 describes the tile at 0x4000, 2 the next one, 3 a misaligned one, 4 one at an address that does not translate. -/
def stState (n : NCore) : State := setNc (setTh mState 0 { run0 with sd := [(1, dTile 0x4000), (2, dTile 0x4080), (3, dTile 0x4001), (4, dTile 0x1000000)] }) 0 n
theorem stState_inv (n : NCore) : (stState n).Inv := setNc_inv _ _ (setTh_inv _ _ mState_inv)
/-- The operand fields of STREAM from LOAD to MATRIX.s with counter 3. -/
def stOps (sd : BitVec 4) : StreamOps := ⟨false, false, 0, sd, 0, 0, 1, 0, false, 0, 0, 3, 0⟩

/-- StreamsAndDescriptors: STREAM from LOAD to STORE that binds, with bits that must be zero, on an S-core, guarded off, with an illegal binding (from STORE), with a misaligned descriptor, and with all eight queues held. -/
theorem witness_StreamBinds : canIssue (stState ncore0) 0 = true ∧ isS 0 = false ∧ (stOps 1).low = 0 ∧ (stOps 1).to2St = 0 ∧ ({ stOps 1 with low := 1 } : StreamOps).low ≠ 0 ∧
    (canIssue wState 128 = true ∧ isS 128 = true) ∧ guardOk (th (stState ncore0) 0) true false 1 = false ∧ guardOk (th (stState ncore0) 0) false false 0 = true ∧
    bindingOk (stOps 1) = true ∧ streamCheck (stOps 1) (sdr (th (stState ncore0) 0) 1) = none ∧
    bindingOk { stOps 1 with fromSt := 1 } = false ∧ streamCheck (stOps 3) (sdr (th (stState ncore0) 0) 3) ≠ none ∧
    (nc (stState ncore0) 0).streams = [] ∧ (⟨(stOps 1).fromSt.toNat, (stOps 1).fromPort.toNat⟩ : Port) ≠ pFab ∧
    ∀ q < 8, ∃ x ∈ (nc (stState { ncore0 with streams := (List.range 8).map (fun q => ⟨q, 1, dTile 0, pLoad, pStore, none, 3, 0, [], 0, 0⟩) }) 0).streams, x.q = q := by
  and_intros <;> decide +kernel
/-- StreamsAndDescriptors: SDLD of each length at an aligned address, at a misaligned one, at one that does not translate, and at a line the host changes. -/
theorem witness_DescriptorLoads : Issues aState (.n 0) (opsI 15 4 0) 0x08 none (some ⟨16, 64, 0xFFFFFFFF⟩) ∧ scalarVa aState 0 (opsI 15 4 0) % 8 = 0 ∧
    okM (vaWords aState (srcTh aState 0) 64 8) = true ∧ okM (vaWords aState (srcTh aState 0) 64 3) = true ∧ scalarVa aState 0 (opsI 15 4 1) % 8 ≠ 0 ∧
    errM (vaWords aState (srcTh aState 0) (scalarVa aState 0 (opsI 15 8 0)) 3) = true ∧ waitM (vaWords (heldLine 0x802000001) (srcTh aState 0) 64 3) = true := by
  and_intros <;> decide +kernel
/-- StreamsAndDescriptors: a COPY that passes and one that does not. -/
theorem witness_CopyRequests : Issues (stState ncore0) (.n 0) (opsR 31 1 2) 0x08 (some ⟨32, 16, 16, 0, 0⟩) none ∧
    copyCheck (sdr (th (stState ncore0) 0) 1) (sdr (th (stState ncore0) 0) 2) = none ∧ copyCheck (sdr (th (stState ncore0) 0) 3) (sdr (th (stState ncore0) 0) 2) ≠ none :=
  ⟨issues_of (by decide +kernel), by decide +kernel⟩
/-- A request of the thread of N-core 0 to copy the tile of one descriptor to that of another. -/
def copyReq (sdd : Nat) : CopyReq := ⟨0, 0, 0, 1, dTile 0x4000, sdr (th (stState ncore0) 0) sdd, 31, 0, false, none⟩
/-- The copy engine with that request. -/
def cpState (sdd : Nat) : State := { stState ncore0 with cpes := [(0, { cpe0 with reqs := [copyReq sdd] })] }
/-- What the copy engine makes of it. -/
def copied (sdd : Nat) : Nat × Option (AccErr × Nat) := (copyRun (stState ncore0) 0 (copyReq sdd) (copyMoves (copyReq sdd).dst)).2
/-- A line that has landed. -/
def landState : State := { mState with landing := [(0, 0, 0, 31)] }
/-- StreamsAndDescriptors: a request that moves both its lines. -/
theorem witness_CopyMoves : copyNext (cpState 2) (sget cpe0 (cpState 2).cpes 0) = some (copyReq 2) ∧ (copyMoves (copyReq 2).dst).length = 2 ∧ copied 2 = (2, none) := by
  decide +kernel
/-- StreamsAndDescriptors: a request whose first line faults. -/
theorem witness_CopyFaults : (th (cpState 4) 0).gen = 0 ∧ (th (cpState 4) 0).phase = .run ∧ copyNext (cpState 4) (sget cpe0 (cpState 4).cpes 0) = some (copyReq 4) ∧
    copied 4 = (0, some (.addr, 0)) := by decide +kernel
/-- StreamsAndDescriptors: a package with and without a cut; a transfer's request; a line that lands, with its core's writes acknowledged and not. -/
theorem witness_CopyServes :
    (issuing (cpState 2) = true ∧ (List.range 8).any (fun p => rdf (cpState 2) (R.CKP_STAT p) 0 4 == 2) = false ∧
      (List.range 8).any (fun p => rdf (wr (cpState 2) (R.CKP_STAT 7) 2) (R.CKP_STAT p) 0 4 == 2) = true) ∧
    copyNext (stState ncore0) { cpe0 with reqs := [{ copyReq 2 with xfer := some 9 }] } = some { copyReq 2 with xfer := some 9 } ∧
    (landState.landing.find? (fun x => x.1 == 0) = some (0, 0, 0, 31) ∧ acked landState 0 = true ∧ acked { landState with invs := [(0, 0, 1)] } 0 = false) := by decide +kernel

/-- TileWalk: the first and the last tile of a descriptor of 2 by 3 by 2 tiles, with scales along the rows and along the columns. -/
theorem witness_TileWalk :
    let d (axis : Word) : Desc := ⟨0x4000, 0x0010202000000000 + axis, 0x0000000200030002, 64, 128, 512, 0x9000, 32, false⟩
    (d 0).n0 = 2 ∧ (d 0).n1 = 3 ∧ (d 0).n2 = 2 ∧ (d 0).index 0 = (0, 0, 0) ∧ (d 0).index 11 = (1, 2, 1) ∧
    (d 0).rows % 32 = 0 ∧ (d 0).cols % 32 = 0 ∧ (d 0).axis = false ∧ (d 0x0020000000000000).axis = true := by decide +kernel
/-- N-core 0 with an empty stream from LOAD to STORE, with one whose queue is full, and with a tile to store. -/
def ldState : State := stState (core1 pLoad pStore [])
/-- The same with a full queue. -/
def fullState : State := stState { ncore0 with streams := [⟨0, 1, basicDesc 0x4000 0x0005100200000040 0x10008, pLoad, pStore, none, 3, 4, [t32, t32, t32, t32], 0, 0⟩] }
/-- The first read, or write, of a stream of N-core 0 with this descriptor. -/
def ldTry (s : State) (d : Desc) : State × MemRes Tile := readTile s (srcBulk s 0 (th s 0).ctx (!d.noAlloc)) d 0
/-- The same for a tile to store. -/
def stTry (s : State) (d : Desc) : State × MemRes Unit := writeTile s (srcBulk s 0 (th s 0).ctx (!d.noAlloc)) d 0 t32
/-- LoadAndStoreStations: LOAD with an empty queue and a tile it can read. -/
theorem witness_LoadAndStoreStations : ldState.Inv ∧ stationsRun ldState 0 = true ∧
    (producing (nc ldState 0) pLoad).any (fun st => st.tiles == [] && st.made == 0 && st.d == dTile 0x4000) = true ∧ okM (ldTry ldState (dTile 0x4000)) = true :=
  ⟨stState_inv _, by decide +kernel⟩
/-- LoadAndStoreStations: LOAD of a tile at an address that does not translate, of one that waits, and with a full queue. -/
theorem witness_LoadStops : errM (ldTry ldState (dTile 0x1000000)) = true ∧ waitM (ldTry (hostHas ldState 0x802000100) (dTile 0x4000)) = true ∧
    (producing (nc fullState 0) pLoad).any (fun st => st.tiles.length == 4) = true := by decide +kernel
/-- LoadAndStoreStations: STORE with a tile it can write. -/
theorem witness_StoreTakes : (peekTile (core1 pLoad pStore [t32]) pStore).any (fun q => q.2 == t32 && q.1.took1 == 0 && q.1.d == dTile 0x4000 && tileRefused q.1.d q.2 == none) = true ∧
    okM (stTry ldState (dTile 0x4000)) = true := by decide +kernel
/-- LoadAndStoreStations: STORE with a tile of another format, one it may not write and one that waits; a tile that becomes visible. -/
theorem witness_StoreStops : (peekTile (core1 pLoad pStore [t16 2 16]) pStore).any (fun q => tileRefused q.1.d q.2 == some 6) = true ∧
    errM (stTry ldState (dTile 0x1000000)) = true ∧ waitM (stTry (hostHas ldState 0x802000100) (dTile 0x4000)) = true ∧
    (nc (stState { ncore0 with stored := [3] }) 0).stored = [3] ∧ acked (stState ncore0) 0 = true := by decide +kernel
/-- A running N-core, and a thread of S-core 0, with a transfer's operands: x1 the fabric address 128, x2 the local address 0x4000, x3 = 1, x4 = 64; x5 is misaligned, x6 has no window, x7 does not translate. -/
def rmState : State :=
  let n : Thread := { run0 with x := [(1, 128), (2, 0x4000), (3, 1), (4, 64), (5, 7), (6, 0x8000000), (7, 0x1000000)] }
  setTh (setTh wState 0 n) 128 { n with vl := 8, vtype := 6 }
theorem rmState_inv : rmState.Inv := setTh_inv _ _ (setTh_inv _ _ wState_inv)
/-- FabricInstructions: RGET, RPUT and RPUTF with aligned addresses and with a misaligned one. -/
theorem witness_FabricInstructions : rmState.Inv ∧ Issues rmState (.n 0) (opsR 3 1 2) 0x04 (some ⟨32, 64, 64, 0, 0xFFFF⟩) none ∧
    Issues rmState (.n 0) (opsR 3 1 2) 0x04 (some ⟨32, 64, 64, 64, 0⟩) none ∧ Issues rmState (.n 0) (opsR 3 1 2) 0x04 (some ⟨32, 64, 64, 64, 0xFFFF⟩) none ∧
    (xr (th rmState 0) 1).toNat % 64 = 0 ∧ (xr (th rmState 0) 5).toNat % 64 ≠ 0 :=
  ⟨rmState_inv, issues_of (by decide +kernel), issues_of (by decide +kernel), issues_of (by decide +kernel), by decide +kernel⟩
/-- FabricInstructions: windows that permit and one that is not valid; local lines that are permitted, do not translate and wait. -/
theorem witness_FabricMoves : windowsErr rmState 0 128 1 1 = none ∧ windowsErr rmState 0 128 1 2 = none ∧
    okM (vaCheckWords rmState 0 .write 64 [0x4000]) = true ∧ okM (vaCheckWords rmState 0 .read 64 [0x4000]) = true ∧
    windowsErr rmState 0 0x8000000 1 1 ≠ none ∧ errM (vaCheckWords rmState 0 .write 64 [0x1000000]) = true ∧
    waitM (vaCheckWords (hostHas rmState 0x802000100) 0 .read 64 [0x4000]) = true := by decide +kernel
/-- FabricInstructions: an RGET of one line of an S-core with no line outstanding, through a window whose target can be reached. -/
theorem witness_GetAtOnce : Issues rmState (.s 0 0) (opsR 3 1 2) 0x04 (some ⟨32, 64, 64, 0, 0xFFFF⟩) none ∧ isS 128 = true ∧ linesOut rmState 128 true = 0 ∧ rmState.xfers = [] ∧
    sget 0 rmState.seqs 128 < 2 ^ 24 ∧ winCheck rmState 0 128 1 = .ok 0 0x020080000080 ∧ unsendable rmState (reqPkt rmState 0 1 0 0x020080000080 128 0) = none :=
  ⟨issues_of (by decide +kernel), by decide +kernel⟩
/-- FabricInstructions: atomics of both widths that issue and are legal, and one without a register pair. -/
theorem witness_RemoteAtomics : Issues rmState (.n 0) (opsR 62 1 3) 0x04 (some ⟨64, 64, 64, 0, 0⟩) none ∧ Issues rmState (.n 0) (opsR 61 1 3) 0x04 (some ⟨64, 64, 64, 64, 0⟩) none ∧
    Issues rmState (.n 0) (opsR 62 1 3) 0x04 (some ⟨64, 64, 64, 0, 1⟩) none ∧ ¬ ((63 : BitVec 6).toNat + 2 < 64) :=
  ⟨issues_of (by decide +kernel), issues_of (by decide +kernel), issues_of (by decide +kernel), by decide⟩
/-- The same package with its window over its register space, and with coordinate 1 lost, to which its window leads. -/
def winState (v : Word) : State := wr rmState (R.WIN_ENTRY1 0) v
/-- FabricInstructions: an atomic's address with a window, without one, and in this package's register space; a packet that can be sent, and one for a coordinate that is lost. -/
theorem witness_AtomicsSend : okW (winCheck rmState 0 128 3) = true ∧ okW (winCheck rmState 0 0x8000000 3) = false ∧ (xr (th rmState 0) 5).toNat % 8 ≠ 0 ∧
    winCheck (winState 0x0F0000000000) 0 128 3 = .ok 0 0x0F0000000080 ∧ ownCoord rmState = 0 ∧ region 0x0F0000000080 = .reg ∧
    unsendable rmState (reqPkt rmState 0 8 0 0x020080000080 0 0) = none ∧
    (unsendable (wr rmState (R.SCF_LOST 0) 0x8000000000000001) (reqPkt rmState 0 8 1 0x020080000080 0 0)).isSome = true := by decide +kernel
/-- N-core 0 with a tile for FABRIC.put at a fabric address. -/
def putState (base : Word) : State := setNc rmState 0 { ncore0 with streams := [⟨0, 1, dTile base, pLoad, pFab, none, 3, 1, [t32], 0, 0⟩] }
/-- The lines of that tile. -/
def putOut (base : Word) : List Nat := ((tileBytes (dTile base) 0 t32).flatMap (fun r => putLines r.1 r.2)).map (·.1)
/-- FabricInstructions: FABRIC.put of a tile whose lines have windows, of one without a window, and of one of another format. -/
theorem witness_FabricPut : stationsRun (putState 0) 0 = true ∧ (peekTile (nc (putState 0) 0) pFab).any (fun q => tileRefused q.1.d q.2 == none && q.1.took1 == 0 && q.1.d == dTile 0) = true ∧
    rmState.putTiles = [] ∧ putOut 0 ≠ [] ∧ (putOut 0).all (fun l => okW (winCheck rmState 0 l 2)) = true ∧
    ((putOut 0x8000000).map (fun l => okW (winCheck rmState 0 l 2))).head? = some false ∧ tileRefused (dTile 0) (t16 2 16) = some 6 ∧
    unsendable rmState (reqPkt rmState 0 2 0 0x020080000080 0 0) = none := by decide +kernel
/-- N-core 0 with a stream from FABRIC.get and a tile of it that is coming. -/
def getState (g : GetTile) : State := { stState (core1 pFab pStore []) with getTiles := [g] }
/-- Such a tile. -/
def getT (l : Option (List Byte × Bool)) (f : Option (Nat × Nat)) : GetTile := ⟨0, 0, 1, 3, 0, [(0x4000, l)], f⟩
/-- FabricInstructions: FABRIC.get with every line back, with one to come, with a line that failed, and with no tile asked for. -/
theorem witness_FabricGet : stationsRun (getState (getT none none)) 0 = true ∧
    (producing (nc (getState (getT none none)) 0) pFab).any (fun st => st.made == 0 && st.q == 0 && st.tiles == []) = true ∧
    (∀ g ∈ [getT none none, getT (some (List.replicate 64 0, false)) none, getT none (some (0x22, 0))], (getState g).getTiles.find? (fun x => x.core == 0 && x.q == 0 && x.tile == 0) = some g) ∧
    (getState (getT none none)).reqs = [] ∧ (stState (core1 pFab pStore [])).getTiles = [] := by decide +kernel
/-- ClassInstructions: settings of MATRIX and TRESTLE that break no rule and settings that do. -/
theorem witness_ClassInstructions : Issues nState (.n 0) (opsI 0 0 0) 0x09 none (some ⟨0, 0, 0xFFFFFFFF⟩) ∧ Issues nState (.n 0) (opsI 63 0 0) 0x0A none (some ⟨64, 0, 0xFFFFFFFF⟩) ∧
    Issues nState (.n 0) ops0 0x09 (some ⟨0, 0, 0, 0, 0⟩) none ∧ Issues nState (.n 0) ops0 0x0A (some ⟨0, 0, 0, 0, 0⟩) none ∧
    mxOk 0x1400 false = true ∧ mxOk 0x1400 true = true ∧ mxOk 0xC false = false ∧ trOk 0xA0000 0 false = true ∧ trOk 0xA0000 0 true = true ∧ trOk 0x1E0000 0 false = false := by
  and_intros <;> decide +kernel
/-- ClassInstructions: the same for ELEMENT and REDUCE. -/
theorem witness_ElementClass : Issues nState (.n 0) (opsI 63 0 0) 0x0C none (some ⟨64, 0, 0xFFFFFFFF⟩) ∧ Issues nState (.n 0) ops0 0x0C (some ⟨0, 0, 0, 0, 0⟩) none ∧
    Issues nState (.n 0) (opsI 7 0 0) 0x0B none (some ⟨8, 0, 0xFFFFFFFF⟩) ∧ Issues nState (.n 0) (opsI 7 63 0) 0x0B none (some ⟨8, 64, 0xFFFFFFFF⟩) ∧
    Issues nState (.n 0) (opsI 3 0 0) 0x0B none (some ⟨4, 0, 0xFFFFFFFF⟩) ∧ rdOk 0x14020 0 false = true ∧ rdOk 0x14020 0 true = true ∧ rdOk 0xA 0 false = false ∧
    (numCtl 1).isSome = true ∧ numCtl 3 = none := by and_intros <;> decide +kernel
/-- What a read of four lines from an address comes to. -/
def four (s : State) (k : AccKind) (a : Nat) : State × MemRes (List Nat) := vaCheckWords s 0 k 64 ((List.range 4).map (fun i => a + 64 * i))
/-- ClassInstructions: EWE.LDR and EWE.STR at a multiple of 64 and not, at an address that does not translate, and at one that waits. -/
theorem witness_ElementLoads : Issues aState (.n 0) (opsI 31 4 0) 0x0B none (some ⟨32, 64, 0xFFFFFFFF⟩) ∧ scalarVa aState 0 (opsI 31 4 0) = 64 ∧ scalarVa aState 0 (opsI 31 4 8) % 64 ≠ 0 ∧
    okM (four aState .read 64) = true ∧ okM (four aState .write 64) = true ∧ errM (four aState .read 0x1000000) = true ∧ waitM (four (heldLine 0x802000001) .read 64) = true :=
  ⟨issues_of (by decide +kernel), by decide +kernel⟩
/-- ClassInstructions: EWE.LDP at a multiple of 8 and not, of a program it may fetch, one it may not, and one that waits. -/
theorem witness_ElementPrograms : Issues aState (.n 0) (opsI 7 4 0x600000) 0x0B none (some ⟨8, 64, 0xFFFFFFFF⟩) ∧ scalarVa aState 0 (opsI 7 4 0x600000) = 0x600040 ∧
    scalarVa aState 0 (opsI 7 4 4) % 8 ≠ 0 ∧ okM (vaCheck aState 0 0x600040 8 .exec) = true ∧ okM (vaCheckWords aState 0 .exec 8 [0x600040, 0x600048]) = true ∧
    errM (vaCheck aState 0 64 8 .exec) = true ∧ waitM (vaCheck (heldLine 0x802008001) 0 0x600040 8 .exec) = true :=
  ⟨issues_of (by decide +kernel), by decide +kernel⟩

/-- The stations of N-core 0 hold what the state was made of. -/
theorem stState_nc (n : NCore) : nc (stState n) 0 = n := nc_setNc_same (setTh_inv _ _ mState_inv) _ _
/-- An element program that copies its input: one micro-operation (R134, R136). -/
def prog0 : Prog := ⟨0x140, [0x201001]⟩
/-- N-core 0 with that program in slot 0. -/
def ewCore : NCore := { ncore0 with ew := { element0 with slots := [(0, some prog0)] } }
/-- N-core 0 with an open TRESTLE sweep. -/
def trCore (n : NCore) : NCore := { n with tr := { trestle0 with cfg := some (0x10A0000, 0, false), used := true, sweep := true, tiles := 1, blk := 2 } }
/-- ClassEffects: EWE.REXEC of a program, of an empty slot and of a reserved numeric control; behind an earlier load; RDU.RREG with a defined and an undefined operation. -/
theorem witness_ClassEffects : Issues (stState ewCore) (.n 0) (opsR 31 1 2) 0x0B (some ⟨32, 32, 32, 0, 0x1FF⟩) none ∧
    (numCtl 0).isSome = true ∧ (numCtl 3).isNone = true ∧ ewCore.ewIn.any (fun ci => ci.op ≠ 0x0D) = false ∧ sget none ewCore.ew.slots 0 = some prog0 ∧ sget none ewCore.ew.slots 7 = none ∧
    prog0.reads 6 = false ∧ prog0.reads 7 = false ∧ prog0.eRegs = [] ∧ (∀ i ∈ [31, 1, 2], pendingWrites ewCore i = false) ∧ sweepReads ewCore 31 = false ∧
    ({ ewCore with ewIn := [⟨11, 0x0C, 0, 0, 0, []⟩] } : NCore).ewIn.any (fun ci => ci.op ≠ 0x0D) = true :=
  ⟨issues_of (by decide +kernel), by decide +kernel⟩
/-- ClassEffects: RDU.RREG with a defined and an undefined operation, and with a register that a readout is to write. -/
theorem witness_RegisterReduce : Issues nState (.n 0) { opsR 31 31 0 with md := 5 } 0x0C (some ⟨32, 32, 0, 0, 0xF⟩) none ∧
    Issues nState (.n 0) { opsR 31 31 0 with md := 6 } 0x0C (some ⟨32, 32, 0, 0, 0xF⟩) none ∧ pendingWrites (nc nState 0) 31 = false ∧
    pendingWrites { ncore0 with tr := { trestle0 with cfg := some (0x800A0000, 31, true), used := true, reading := true }, acc := [(0, { acc0 with rows := 2 })] } 31 = true :=
  ⟨issues_of (by decide +kernel), issues_of (by decide +kernel), by decide +kernel⟩
/-- A class instruction of MATRIX, TRESTLE, ELEMENT or REDUCE. -/
def ci (cls op d : Nat) (imm : Half) : ClassIns := ⟨cls, op, d, 0, imm, []⟩
/-- The addresses of an element register in N-core 0's store. -/
def pas4 : List Nat := [0x020080004000, 0x020080004040, 0x020080004080, 0x0200800040C0]
/-- ClassEffects: MATRIX's instructions at a station that reads out, that has an open pass, whose group TRESTLE holds, and that is free. -/
theorem witness_MatrixInstructions : ({ ncore0 with mxIn := [ci 9 2 0 0] } : NCore).mxIn = [ci 9 2 0 0] ∧ (ci 9 4 0 0).op = 4 ∧ (ci 9 0 0 0x1400).op ≤ 1 ∧
    ({ matrix0 with reading := true } : Matrix).reading = true ∧ ({ matrix0 with opened := true } : Matrix).opened = true ∧ matrix0.out = [] ∧
    heldByOther ncore0 (mxCfg 0x1400 false).group 1 = false ∧ heldByOther { ncore0 with acc := [(0, { acc0 with owner := 2 })] } (mxCfg 0x1400 false).group 1 = true := by decide +kernel
/-- ClassEffects: TRESTLE's: while a readout goes on, behind a sweep yet to come whose registers it reads, with an open sweep whose results are read, and with none. -/
theorem witness_TrestleInstructions : ({ trestle0 with reading := true } : Trestle).reading = true ∧ trHazard ncore0 (ci 10 0 0 0xA0000) = false ∧
    (trNow (trCore ncore0)).isSome = true ∧ trHazard (trCore ncore0) (ci 10 4 0 0) = false ∧ (trNow (trCore ncore0)).any (fun c => c.read) = true ∧ trestle0.sweep = false ∧
    heldByOther ncore0 [(trCfg 0xA0000 0 false).acc] 2 = false ∧ heldByOther { ncore0 with acc := [(0, { acc0 with owner := 1 })] } [(trCfg 0xA0000 0 false).acc] 2 = true := by decide +kernel
/-- ClassEffects: EWE.LDR and EWE.STR of lines that do not wait and are not poisoned, and of one that is poisoned and one that waits; EWE.LDP of a program word. -/
theorem witness_ElementInstructions : sweepReads ncore0 31 = false ∧ pendingWrites ncore0 31 = false ∧ (∀ pa ∈ pas4, lineWaits mState (pa / 64) = false) ∧
    lineWaits (hostHas mState 0x802000100) 0x802000100 = true ∧ (physReads mState (srcTh mState 0) 64 pas4).2.2 = false ∧
    (physReads { mState with poison := [0x802000100] } (srcTh mState 0) 64 pas4).2.2 = true ∧ (∀ a ∈ pas4, a % 64 = 0) ∧ pas4.Nodup ∧ prog0.ok = true ∧ (⟨0, []⟩ : Prog).ok = false := by
  decide +kernel
/-- ClassEffects: REDUCE's with no operation open, with one open and a group begun, and with a result that cannot leave. -/
theorem witness_ReduceInstructions : reduce0.op = none ∧ reduce0.out = [] ∧ heldByOther ncore0 [(rdCfg 0x14020 0 false).acc] 3 = false ∧
    heldByOther { ncore0 with acc := [(0, { acc0 with owner := 1 })] } [(rdCfg 0x14020 0 false).acc] 3 = true ∧
    ({ reduce0 with op := some (0x14020, 0, false), tiles := 1 } : Reduce).tiles ≠ 0 ∧ (List.range 32).any (fun i => (rdCfg 0x14020 0 false).dests i && sweepReads ncore0 i) = false ∧
    (drainRd { core1 pRd pStore [t32, t32, t32, t32] with rd := { reduce0 with out := [t32] } }).rd.out ≠ [] := by decide +kernel

/-- N-core 0 with settings of MATRIX and a tile at one of its ports. -/
def mxCore (p : Port) (t : Tile) (m : Matrix) : NCore := { core1 pLoad p [t] with mx := m }
/-- MATRIX with settings that load a block into each bank, and with settings that take a partial first. -/
def mxBlock : Matrix := { matrix0 with cfg := some (0x1400, false) }
/-- The same with an initial partial. -/
def mxPart : Matrix := { matrix0 with cfg := some (0x401400, true) }
/-- MatrixAndTrestle: a stationary tile into an empty and a full shadow bank, a scaled tile of the wrong axis, one that is poisoned; an initial partial of the right and the wrong format, and one that waits for a readout. -/
theorem witness_MatrixAndTrestle : mxFree (stState (mxCore pMxS (t16 16 16) mxBlock)) 0 = true ∧
    (peekTile (mxCore pMxS (t16 16 16) mxBlock) pMxS).any (fun q => q.2 == t16 16 16) = true ∧ tileStop pMxS (t16 16 16) = none ∧
    tileStop pMxS { t16 16 16 with poison := true } = some (0x12, 0) ∧ ({ t16 16 16 with scaled := true } : Tile).axis = false ∧
    isPartial (mxCore pMxS (t16 16 16) mxBlock) (mxCfg 0x1400 false) = false ∧ mxBlock.shadowFull = false ∧ (mxCfg 0x1400 false).init = 0 ∧
    isPartial (mxCore pMxS t32 mxPart) (mxCfg 0x401400 true) = true ∧ partialOk (mxCore pMxS t32 mxPart) (mxCfg 0x401400 true) t32 = true ∧
    partialOk (mxCore pMxS t32 mxPart) (mxCfg 0x401400 true) (t16 2 16) = false ∧ mxPart.reading = false ∧ heldByOther (mxCore pMxS t32 mxPart) (mxCfg 0x401400 true).group 1 = false := by
  refine ⟨?_, ?_⟩ <;> decide +kernel
/-- MATRIX with a block in its shadow bank. -/
def mxFull : Matrix := { mxBlock with bank1 := some (t16 16 16), shadowFull := true }
/-- MatrixAndTrestle: an activation tile with its block in place and with none; one of another inner dimension. -/
theorem witness_MatrixActivation : (peekTile (mxCore pMxA (t16 2 16) mxFull) pMxA).any (fun q => q.2 == t16 2 16) = true ∧ tileStop pMxA (t16 2 16) = none ∧
    (beforeActivation (mxCore pMxA (t16 2 16) mxFull) (mxCfg 0x1400 false)).any (fun n => activationFault n (mxCfg 0x1400 false) acc0 (t16 2 16) == none && !n.mx.opened &&
      activationFault n (mxCfg 0x1400 false) acc0 (t16 2 15) == some 0x21 && n.mx.active == some (t16 16 16)) = true ∧
    beforeActivation (mxCore pMxA (t16 2 16) mxBlock) (mxCfg 0x1400 false) = none ∧ swf (fun _ => accEl0) ([] : Sparse AccEl) = true ∧ 1 < (t16 2 16).rows ∧ 63 < (t16 16 64).cols := by decide +kernel
/-- MatrixAndTrestle: a pass that is read out and one that is not. -/
theorem witness_MatrixReadout : ({ mxBlock with opened := true, reading := true } : Matrix).reading = true ∧ mxBlock.reading = false ∧ mxBlock.cfg = some (0x1400, false) := by decide
/-- N-core 0 with a weight tile for an open sweep. -/
def wtCore (t : Tile) (x : Trestle) : NCore := { core1 pLoad pTr [t] with tr := x }
/-- TRESTLE with settings in force. -/
def trSet0 : Trestle := { trestle0 with cfg := some (0xA0000, 0, false) }
/-- MatrixAndTrestle: a weight tile that enters a sweep, one that waits for a readout, one of a wrong shape, one that is refused, and one for a full accumulator. -/
theorem witness_TrestleWeights : trFree (stState (wtCore (t16 2 64) trSet0)) 0 = true ∧ (trNow (wtCore (t16 2 64) trSet0)).isSome = true ∧
    (peekTile (wtCore (t16 2 64) trSet0) pTr).any (fun q => q.2 == t16 2 64) = true ∧ tileStop pTr (t16 2 64) = none ∧ tileStop pTr { t16 2 64 with poison := true } = some (0x12, 0) ∧
    heldByOther (wtCore (t16 2 64) trSet0) [(trCfg 0xA0000 0 false).acc] 2 = false ∧ (∀ i < 32, rdWrites (wtCore (t16 2 64) trSet0) i = false) ∧
    sweepFull (wtCore (t16 2 64) trSet0) (trCfg 0xA0000 0 false) = false ∧ sweepFull (wtCore (t16 2 64) { trSet0 with sweep := true, tiles := 4096 }) (trCfg 0xA0000 0 false) = true ∧
    weightFault (wtCore (t16 2 64) trSet0) (trCfg 0xA0000 0 false) (t16 2 64) = none ∧ ({ t16 2 64 with scaled := true, axis := true } : Tile).scaled = true ∧
    weightFault (wtCore (t16 2 64) trSet0) (trCfg 0xA0000 0 false) { t16 2 64 with scaled := true, axis := true } = some 0x22 := by refine ⟨?_, ?_⟩ <;> decide +kernel
/-- MatrixAndTrestle: the readout of a sweep with none to read, to its stream, to registers that there are, and past the last of them. -/
theorem witness_TrestleReadout : trSet0.reading = false ∧ ({ trSet0 with reading := true } : Trestle).reading = true ∧ (trCfg 0xA0000 0 false).odest = false ∧
    (trCfg 0x800A0000 31 true).odest = true ∧ 31 + (trCfg 0x800A0000 31 true).v * (trCfg 0x800A0000 31 true).ro 2 ≤ 32 ∧
    32 < 31 + (trCfg 0x800A0000 31 true).v * (trCfg 0x800A0000 31 true).ro 65 ∧ (drain (wtCore t32 { trSet0 with out := [t32] }) pTr []).2 = [] ∧
    (drain (core1 pTr pStore [t32, t32, t32, t32]) pTr [t32]).2 ≠ [] := by decide +kernel
/-- N-core 0 with an x tile and room for its z tile. -/
def xCore (p : Option Prog) : NCore := { ncore0 with ew := { element0 with slots := [(0, p)] }, streams :=
  [⟨0, 1, dTile 0x4000, pLoad, pEwX, none, 3, 1, [t32], 0, 0⟩, ⟨1, 1, dTile 0x4000, pEwX, pStore, none, 3, 0, [], 0, 0⟩] }
/-- ElementAndReduce: an x tile with no program in the slot in force, with one that reads x alone, with one that reads a y tile that has not come; a tile that is refused. -/
theorem witness_ElementAndReduce : ewFree (stState (xCore (some prog0))) 0 = true ∧ (peekTile (xCore (some prog0)) pEwX).any (fun q => q.2 == t32) = true ∧ tileStop pEwX t32 = none ∧
    tileStop pEwX { t32 with poison := true } = some (0x12, 0) ∧ sget none (xCore (some prog0)).ew.slots 0 = some prog0 ∧ sget none ncore0.ew.slots 0 = none ∧
    prog0.reads 2 = false ∧ hasRoom (xCore (some prog0)) pEwX = true ∧ elementFault (xCore (some prog0)) prog0 ⟨0, 1, dTile 0x4000, pLoad, pEwX, none, 3, 1, [t32], 0, 0⟩ t32 none = none ∧
    (⟨0x140, [0x401001]⟩ : Prog).reads 2 = true ∧ peekTile (xCore (some prog0)) pEwY = none := by
  refine ⟨?_, ?_⟩ <;> decide +kernel
/-- N-core 0 with a tile for an open reduction. -/
def rdCore (out : List Tile) (tiles : Nat) : NCore := { core1 pLoad pRd [t32] with rd := { reduce0 with op := some (0x14020, 0, false), out := out, tiles := tiles, rows := 9, cols := 9 } }
/-- ElementAndReduce: a tile for an open reduction, one of another shape than its group's, one that is refused, and one that ends its group. -/
theorem witness_ReduceTakes : rdFree (stState (rdCore [] 0)) 0 = true ∧ (rdNow (rdCore [] 0)).isSome = true ∧ (drainRd (rdCore [] 0)).rd.out = [] ∧
    (peekTile (drainRd (rdCore [] 0)) pRd).any (fun q => q.2 == t32 && reduceFault (rdCore [] 0) (rdCfg 0x14020 0 false) q.1 q.2 == none &&
      reduceFault (rdCore [] 1) (rdCfg 0x14020 0 false) q.1 q.2 == some 0x2C) = true ∧ tileStop pRd t32 = none ∧ tileStop pRd { t32 with poison := true } = some (0x12, 0) ∧
    (rdCfg 0x14020 0 false).link = false ∧ (rdCfg 0x14020 0 false).ends (rdCore [] 0).rd { t32 with last := true } = true := by refine ⟨?_, ?_⟩ <;> decide +kernel

theorem lv_of {s : State} {t : Tid} {o : Opnds} {shape : RShape} {types : List Nat} {pipe : Bool}
    (h : (canIssue s (tkey t) && classOk 0x10 (isS (tkey t)) && shapeOk (some shape) none o && guardOk (th s (tkey t)) o.ge o.gn o.pg.toNat &&
      types.contains (th s (tkey t)).vtype.toNat && (th s (tkey t)).vl != 0 && !lvuDown s (coreOf (tkey t))) = true) : LvIssues s t o shape types pipe := by
  simp only [Bool.and_eq_true, List.contains_iff_mem, bne_iff_ne, Bool.not_eq_true'] at h
  exact ⟨⟨h.1.1.1.1.1.1, h.1.1.1.1.1.2, h.1.1.1.1.2, h.1.1.1.2⟩, h.1.1.2, h.1.2, fun _ => h.2⟩
/-- The thread of `vState`: x4 = 64, x5 = 8, x6 = 7, x7, x8 and x9 addresses near the end of a page and of what is mapped. -/
def vRun (ty vl : Word) : Thread := { run0 with vtype := ty, vl := vl, x := [(4, 64), (5, 8), (6, 7), (7, 0x7FFFF8), (8, 0x1FFFF0), (9, 0x800000)] }
/-- Thread 0 of S-core 0 with an element type and a length. -/
def vState (ty vl : Word) : State := setTh wState 128 (vRun ty vl)
theorem vState_inv (ty vl : Word) : (vState ty vl).Inv := setTh_inv _ _ wState_inv
/-- Operand fields with a modifier. -/
def opsM (d a b : BitVec 6) (md : BitVec 20) : Opnds := { opsR d a b with md := md }

/-- VectorLength: a defined and a reserved element type, in each form. -/
theorem witness_VectorLength : (vState 6 8).Inv ∧ Issues (vState 6 8) (.s 0 0) (opsI 63 4 6) 0x10 none (some ⟨64, 64, 0xF⟩) ∧ (6 : Nat) ∈ [5, 6, 8, 9, 10] ∧
    Issues (vState 6 8) (.s 0 0) (opsI 63 4 15) 0x10 none (some ⟨64, 64, 0xF⟩) ∧ (15 : Nat) ∉ [5, 6, 8, 9, 10] ∧
    Issues (vState 6 8) (.s 0 0) (opsR 63 4 5) 0x10 (some ⟨64, 64, 64, 0, 0⟩) none ∧ (xr (vRun 6 8) 5).toNat % 16 ∈ [5, 6, 8, 9, 10] ∧
    (xr (vRun 6 8) 6).toNat % 16 ∉ [5, 6, 8, 9, 10] :=
  ⟨vState_inv _ _, issues_of (by decide +kernel), by decide, issues_of (by decide +kernel), by decide, issues_of (by decide +kernel), by decide⟩
/-- VectorFloat: one and two operands, the last registers, the widest modifier. -/
theorem witness_VectorFloat : LvIssues (vState 6 8) (.s 0 0) (opsR 31 31 31) ⟨32, 32, 64, 0, 0xFFF⟩ [6, 5] true ∧
    LvIssues (vState 5 128) (.s 0 0) (opsR 31 31 0) ⟨32, 32, 0, 0, 0xFDF⟩ [6, 5] true ∧
    LvIssues (vState 6 64) (.s 0 0) (opsR 31 31 31) ⟨32, 32, 64, 0, 0x3F⟩ [6, 5] true ∧ (numCtl (lvMod (opsR 31 31 31)).num).isSome = true ∧ (31 : BitVec 6).toNat < 32 :=
  ⟨lv_of (by decide +kernel), lv_of (by decide +kernel), lv_of (by decide +kernel), by decide⟩
/-- VectorFloat: three operands. -/
theorem witness_VectorFma : LvIssues (vState 5 1) (.s 0 0) { opsR 31 31 31 with c := 31 } ⟨32, 32, 64, 32, 0xFFF⟩ [6, 5] true := lv_of (by decide +kernel)
/-- VectorCompares: of floating-point elements, and of integers with a scalar operand. -/
theorem witness_VectorCompares : LvIssues (vState 6 64) (.s 0 0) (opsR 15 31 31) ⟨16, 32, 64, 0, 0x3F⟩ [6, 5] true ∧ lvBOk (opsR 15 31 31) (vRun 6 64) = true ∧
    LvIssues (vState 8 512) (.s 0 0) (opsM 15 31 63 0x20) ⟨16, 32, 64, 0, 0x3F⟩ [10, 9, 8] true ∧ lvBOk (opsM 15 31 63 0x20) (vRun 8 512) = true :=
  ⟨lv_of (by decide +kernel), by decide, lv_of (by decide +kernel), by decide⟩
/-- VectorInteger: without and with a rounding mode. -/
theorem witness_VectorInteger : LvIssues (vState 8 512) (.s 0 0) (opsR 31 31 31) ⟨32, 32, 64, 0, 0x3F⟩ [10, 9, 8] true ∧ lvBOk (opsR 31 31 31) (vRun 8 512) = true ∧
    LvIssues (vState 10 1) (.s 0 0) (opsM 31 31 31 0x2000) ⟨32, 32, 64, 0, 0x303F⟩ [10, 9, 8] true ∧ (lvMod (opsM 31 31 31 0x2000)).fx ≠ 3 :=
  ⟨lv_of (by decide +kernel), by decide, lv_of (by decide +kernel), by decide⟩
/-- VectorBitsAndMoves: VMOV from a scalar and from a register; VIOTA. -/
theorem witness_VectorBitsAndMoves : LvIssues (vState 9 256) (.s 0 0) (opsM 31 0 63 0x20) ⟨32, 0, 64, 0, 0x3F⟩ [6, 5, 10, 9, 8] true ∧ (lvMod (opsM 31 0 63 0x20)).sb = true ∧
    lvBOk (opsM 31 0 63 0x20) (vRun 9 256) = true ∧ LvIssues (vState 6 8) (.s 0 0) (opsR 31 31 0) ⟨32, 32, 0, 0, 0x3F⟩ [6, 5, 10, 9, 8] true ∧
    (lvMod (opsR 31 31 0)).sb = false ∧ LvIssues (vState 10 128) (.s 0 0) (opsR 31 0 0) ⟨32, 0, 0, 0, 0x1F⟩ [10] true :=
  ⟨lv_of (by decide +kernel), by decide, by decide, lv_of (by decide +kernel), by decide, lv_of (by decide +kernel)⟩
/-- VectorConversions: VCVT to a type that fits, to one whose results pass v31, and to none. -/
theorem witness_VectorConversions : LvIssues (vState 6 8) (.s 0 0) (opsM 31 31 0 0x50000) ⟨32, 32, 0, 0, 0xF0FDF⟩ [6, 5, 10, 9, 8] true ∧
    (lvMod (opsM 31 31 0 0x50000)).tt ∈ [6, 5, 10, 9, 8] ∧ (31 : Nat) + lvRegs (vRun 6 8) 5 ≤ 32 ∧ 32 < (31 : Nat) + lvRegs (vRun 8 512) 6 ∧
    (lvMod (opsM 31 31 0 0x70000)).tt ∉ [6, 5, 10, 9, 8] ∧ (numCtl (lvMod (opsM 31 31 0 0x50000)).num).isSome = true :=
  ⟨lv_of (by decide +kernel), by decide⟩
/-- VectorConversions: VNSHR to a narrower type and to one that is not. -/
theorem witness_VectorNarrow : LvIssues (vState 9 256) (.s 0 0) (opsM 31 31 31 0x80000) ⟨32, 32, 64, 0, 0xF303F⟩ [9, 10] true ∧ lvBOk (opsM 31 31 31 0x80000) (vRun 9 256) = true ∧
    (lvMod (opsM 31 31 31 0x80000)).tt ∈ [10, 9, 8] ∧ tyBits (lvMod (opsM 31 31 31 0x80000)).tt < tyBits 9 ∧ tyBits 9 ≤ tyBits (lvMod (opsM 31 31 31 0x90000)).tt ∧
    (lvMod (opsM 31 31 31 0x80000)).fx ≠ 3 := ⟨lv_of (by decide +kernel), by decide⟩
/-- VectorDots: sums of an empty register and of one that stands for no sum. -/
theorem witness_VectorDots : LvIssues (vState 6 8) (.s 0 0) (opsR 31 30 31) ⟨32, 32, 64, 0, 0x3F⟩ [6, 5] true ∧ lvBOk (opsR 31 30 31) (vRun 6 8) = true ∧
    LvIssues (vState 8 1) (.s 0 0) (opsR 31 30 0) ⟨32, 32, 0, 0, 0⟩ [6, 5, 10, 9, 8] true ∧ (vState 6 8).dots.length < 2 ^ 64 ∧
    dotOf (vState 6 8) (vreg (vRun 6 8) 31) = some accEl0 ∧ dotOf (vState 6 8) 1 = none :=
  ⟨lv_of (by decide +kernel), by decide, lv_of (by decide +kernel), by decide +kernel⟩
/-- VectorReductions: of integers, of floating-point elements, and of a predicate. -/
theorem witness_VectorReductions : LvIssues (vState 8 512) (.s 0 0) (opsR 63 31 0) ⟨64, 32, 0, 0, 0x1F⟩ [10, 9, 8] true ∧
    LvIssues (vState 5 128) (.s 0 0) (opsR 31 31 0) ⟨64, 32, 0, 0, 0x1F⟩ [6, 5] true ∧ LvIssues (vState 8 512) (.s 0 0) (opsR 63 15 0) ⟨64, 16, 0, 0, 0⟩ [6, 5, 10, 9, 8] false :=
  ⟨lv_of (by decide +kernel), lv_of (by decide +kernel), lv_of (by decide +kernel)⟩

/-- How the loads of an instruction ended: 0 when all loaded, 1 + i when element i stopped it, 99 when it waits. -/
def lvFin (r : State × List (Nat × List Nat) × LvEnd) : Nat := match r.2.2 with | .all => 0 | .err _ i => 1 + i | .wait => 99
/-- The same for stores. -/
def lvSFin (r : State × LvEnd) : Nat := match r.2 with | .all => 0 | .err _ i => 1 + i | .wait => 99
/-- A unit-stride load of elements from the address in xA. -/
def lvTryLoad (s : State) (o : Opnds) (ix : List Nat) : Nat := lvFin (lvLoadRun s (srcTh s 128) 8 (unitAddr o (th s 128)) ix)
/-- A unit-stride store of elements to the address in xA. -/
def lvTryStore (s : State) (o : Opnds) (ix : List Nat) : Nat := lvSFin (lvStoreRun s (srcTh s 128) 8 (unitAddr o (th s 128)) (fun _ => [0]) ix)
/-- VectorLoads, VectorStores: each form's operand fields. -/
theorem witness_VectorForms : LvIssues (vState 6 8) (.s 0 0) (opsR 31 4 0) ⟨32, 64, 0, 0, 0x1F⟩ [6, 5, 10, 9, 8] true ∧
    LvIssues (vState 6 8) (.s 0 0) (opsR 31 4 5) ⟨32, 64, 64, 0, 0x1F⟩ [6, 5, 10, 9, 8] true ∧ LvIssues (vState 6 8) (.s 0 0) (opsR 31 4 30) ⟨32, 64, 32, 0, 0x1F⟩ [6, 5, 10, 9, 8] true ∧
    indexOk (opsR 31 4 30) (vRun 6 8) = true ∧ indexApart (opsR 31 4 30) (vRun 6 8) = true ∧ (lvMod (opsM 28 4 0 0xC000)).nf ≠ 0 ∧
    (opsM 28 4 0 0xC000).d.toNat + (lvMod (opsM 28 4 0 0xC000)).nf < 32 :=
  ⟨lv_of (by decide +kernel), lv_of (by decide +kernel), lv_of (by decide +kernel), by decide⟩
/-- VectorLoads, VectorStores: the segment form. -/
theorem witness_VectorSegments : LvIssues (vState 6 8) (.s 0 0) (opsM 28 4 0 0xC000) ⟨32, 64, 0, 0, 0xC01F⟩ [6, 5, 10, 9, 8] true := lv_of (by decide +kernel)
/-- VectorLoads: every element loaded, an error at the first element and at a later one, and a line that waits. -/
theorem witness_VectorLoads : lvActs (vRun 6 8) (lvMod (opsR 31 4 0)) = List.range 8 ∧ lvTryLoad (vState 6 8) (opsR 31 4 0) [0, 1] = 0 ∧ lvTryLoad (vState 6 8) (opsR 31 9 0) [0, 1] = 1 ∧
    lvTryLoad (vState 6 8) (opsR 31 7 0) [0, 1] = 2 ∧ lvTryLoad (hostHas (vState 6 8) 0x802000001) (opsR 31 4 0) [0] = 99 := by
  and_intros <;> decide +kernel
/-- VectorStores: every element stored, an error at a later one, and a line that waits. -/
theorem witness_VectorStores : lvTryStore (vState 6 8) (opsR 31 4 0) [0, 1] = 0 ∧ lvTryStore (vState 6 8) (opsR 31 8 0) [1, 2] = 3 ∧
    lvTryStore (hostHas (vState 6 8) 0x802000001) (opsR 31 4 0) [0] = 99 := by and_intros <;> decide +kernel
/-- VectorStores: one element at an aligned address that the thread may write. -/
theorem witness_VectorStoreOne : lvActs (vRun 6 1) (lvMod (opsR 31 4 0)) = [0] ∧ (lvMod (opsR 31 4 0)).nf = 0 ∧ unitAddr (opsR 31 4 0) (vRun 6 1) 0 = [64] ∧
    okM (vaCheck (vState 6 1) 0 64 8 .write) = true := by and_intros <;> decide +kernel
/-- VectorGather: a gather that issues. -/
theorem witness_VectorGather : LvIssues (vState 6 8) (.s 0 0) (opsR 31 4 30) ⟨32, 64, 32, 0, 0x1F⟩ [6, 5, 10, 9, 8] true ∧ indexOk (opsR 31 4 30) (vRun 6 8) = true ∧
    indexApart (opsR 31 4 30) (vRun 6 8) = true := ⟨lv_of (by decide +kernel), by decide⟩
/-- A long-vector unit that is down, with these wakes under way. -/
def downState (ws : List (Nat × Nat)) : State := { (wr (vState 10 8) (R.SCO_LVU_PWR 0 0) 0x20000) with lvuWaking := ws, lvuIdle := [(0, some 0)] }
/-- LvuPower: a wake that has just begun, in a package whose LTC is at 0 and at 1200; a thread that waits for it; idle times that have passed and that have not; NOPD. -/
theorem witness_LvuPower : (downState []).lvuWaking.any (fun w => w.1 == 0) = false ∧ (downState [(0, 0)]).lvuWaking.any (fun w => w.1 == 0) = true ∧
    (downState [(0, 0)]).lvuWaking.find? (fun x => x.1 == 0) = some (0, 0) ∧ (downState [(0, 0)]).ltc.toNat < 0 + 1200 ∧
    0 + 1200 ≤ ({ downState [(0, 0)] with ltc := 1200 } : State).ltc.toNat ∧ (th (setTh (downState [(0, 0)]) 128 { run0 with phase := .wake }) (128 + 8 * 0 + 0)).phase = .wake ∧
    sget (some 32000) (downState []).lvuIdle 0 = some 0 ∧ 0 ≤ (downState []).ltc.toNat ∧ rdf (downState []) (R.SCO_LVU_PWR 0 0) 16 2 ≠ 0 ∧
    sget (some 32000) (vState 10 8).lvuIdle 191 = some 32000 ∧ (vState 10 8).ltc.toNat < 32000 ∧ rdf (vState 10 8) (R.SCO_LVU_PWR 0 0) 16 2 = 0 := by and_intros <;> decide +kernel
/-- VectorChecks: a word whose fields do not fit, registers that pass the last one, a type the instruction lacks, vl zero, and a unit that is down. -/
theorem witness_VectorChecks : canIssue (vState 6 8) 128 = true ∧ classOk 0x10 (isS 128) = true ∧ shapeOk (some ⟨32, 32, 64, 0, 0xFFF⟩) none (opsR 31 31 32) = true ∧
    lvBWord (opsR 31 31 32) = false ∧ lvBOk (opsM 31 31 32 0x20) (vRun 6 8) = false ∧ (vRun 10 8).vtype.toNat ∉ lvFps ∧ (vRun 6 0).vl = 0 ∧ (vRun 6 8).vl ≠ 0 ∧
    lvuDown (downState []) (coreOf 128) = true := by and_intros <;> decide +kernel
/-- VectorChecks: an instruction that issues, with vl zero. -/
theorem witness_VectorNone : Issues (vState 6 0) (.s 0 0) (opsR 31 31 31) 0x10 (some ⟨32, 32, 64, 0, 0xFFF⟩) none ∧ (lvCtlOk (opsR 31 31 31) && lvBWord (opsR 31 31 31)) = true ∧
    lvBOk (opsR 31 31 31) (vRun 6 0) = true := ⟨issues_of (by decide +kernel), by decide⟩

/-- A package with a partition that holds a way of scratch memory at 0x020000000000, an ACTIVE port 0, a PARAPET port 2 whose twin is PARAPET too, and four packages on each of the first two axes. -/
def rState : State := wr (wr (wr (wr (wr (wr (wr (wr wState (R.LLM_WAYMAP 0) 0) (R.LLM_WAYKIND 0) 1) (R.SCF_PORT_STAT 0) 3) (R.SCF_PORT_STAT 2) 2) (R.SCF_PORT_STAT 10) 2)
  R.SCF_COORD 0x8000000006300000) R.SCF_CFG 2) (R.MEM_PART_CFG 0 0) 0x8000000400000000
theorem rState_inv : rState.Inv :=
  wr_inv _ _ (wr_inv _ _ (wr_inv _ _ (wr_inv _ _ (wr_inv _ _ (wr_inv _ _ (wr_inv _ _ (wr_inv _ _ wState_inv)))))))
/-- A request of a type from package 1 for an address of that way. -/
def req (ty addr : Nat) : Pkt := { pkt0 with ty := ty, src := 1, dom := 7, addr := addr, mem := [mem0], data := List.replicate 64 1, mask := 1, eng := 2, seq := 3 }
/-- The checks of a request that is served. -/
def served (s : State) (p : Pkt) (ty n : Nat) (write : Bool) : Bool :=
  issuing s && p.ty == ty && p.dst == ownCoord s && decide (heldFrom s p (some p.src) < rdf s R.SCF_CFG 0 8) && decide (heldFrom s p none < 8192) &&
    (match checkReq s p n write with | .ok _ => true | .bad _ _ _ => false) && !s.hbmHeld && !((linesOf p.addr n).any (lineWaits s)) && (!write || (invWait s p.addr n).isNone)
theorem served_of {s : State} {p : Pkt} {ty n : Nat} {write : Bool} (h : served s p ty n write = true) : Served s p ty n write := by
  simp only [served, Bool.and_eq_true, beq_iff_eq, decide_eq_true_eq, Bool.not_eq_true', Bool.or_eq_true, Option.isNone_iff_eq_none] at h
  obtain ⟨⟨⟨⟨⟨⟨⟨⟨h1, h2⟩, h3⟩, h4⟩, h5⟩, h6⟩, h7⟩, h8⟩, h9⟩ := h
  refine ⟨h1, h2, h3, h4, h5, ?_, h7, h8, fun hw => by simpa [hw] using h9⟩
  cases hc : checkReq s p n write with
  | ok part => exact ⟨part, rfl⟩
  | bad a b c => rw [hc] at h6; cases h6
/-- A flag with one earlier write. -/
def flagReq : Pkt := { req 0x03 0x020000000000 with prior := 1 }
/-- RemoteReads: a READ of the last line of the way. -/
theorem witness_RemoteReads : rState.Inv ∧ Served rState (req 0x01 0x020002FFFFC0) 0x01 64 false ∧ sget 0 rState.symErr (0x020002FFFFC0 / 64) = 0 :=
  ⟨rState_inv, served_of (by decide +kernel), by decide⟩
/-- RemoteWrites: a WRITE of that line. -/
theorem witness_RemoteWrites : Served rState (req 0x02 0x020002FFFFC0) 0x02 64 true ∧ rState.heldFlags = [] := ⟨served_of (by decide +kernel), by decide⟩
/-- RemoteFlags: a WRITEF whose earlier write is applied and is not; one sent again; the write that it waits for. -/
theorem witness_RemoteFlags : Served rState flagReq 0x03 64 true ∧ [9].length = flagReq.prior ∧ [9].filter (fun q => !rState.applied.contains (flagReq.src, flagReq.eng, q)) ≠ [] ∧
    [9].filter (fun q => !({ rState with applied := [(1, 2, 9)] } : State).applied.contains (flagReq.src, flagReq.eng, q)) = [] ∧ rState.heldFlags = [] ∧
    (({ rState with heldFlags := [(flagReq, [9])] } : State).heldFlags.any (fun h => h.1.src == flagReq.src && h.1.eng == flagReq.eng && h.1.seq == flagReq.seq)) = true :=
  ⟨served_of (by decide +kernel), by decide +kernel⟩
/-- RemoteFlags: the write that a held flag waits for. -/
theorem witness_FlagFollows : Served { rState with heldFlags := [(flagReq, [3])] } (req 0x02 0x020002FFFFC0) 0x02 64 true ∧ (req 0x02 0).seq = 3 := ⟨served_of (by decide +kernel), rfl⟩
/-- The target's memory at the last word of the way, as an atomic finds it. -/
def oldWord (s : State) (p : Pkt) : State × (List Byte × Bool) := physRead (takeRx s p) (netSrc s p) p.addr 8
/-- RemoteAtomicTargets: an atomic whose tag the cache does not hold, and of poisoned data. -/
theorem witness_RemoteAtomicTargets : Served rState (req 0x08 0x020002FFFFF8) 0x08 8 true ∧ 0x020002FFFFF8 % 8 = 0 ∧ cached rState 0 0 0 = none ∧ rState.rcache.length < 16384 ∧
    (oldWord rState (req 0x08 0x020002FFFFF8)).2.2 = false ∧ (oldWord { rState with poison := [0x8000BFFFF] } (req 0x08 0x020002FFFFF8)).2.2 = true :=
  ⟨served_of (by decide +kernel), by decide +kernel⟩
/-- RemoteAtomicTargets: an atomic of poisoned data, and one whose tag the cache holds. -/
theorem witness_AtomicAgain : Served { rState with poison := [0x8000BFFFF] } (req 0x08 0x020002FFFFF8) 0x08 8 true ∧
    Served { rState with rcache := [⟨0, 0, 0, 9, 0⟩] } (req 0x08 0x020002FFFFF8) 0x08 8 true ∧ cached { rState with rcache := [⟨0, 0, 0, 9, 0⟩] } 0 0 0 = some 9 :=
  ⟨served_of (by decide +kernel), served_of (by decide +kernel), by decide⟩
/-- CompareAndSwapTargets: both widths, with the tag in the cache and not. -/
theorem witness_CompareAndSwapTargets : Served rState (req 0x0F 0x020002FFFFF8) 0x0F 8 true ∧ Served rState (req 0x10 0x020002FFFFF0) 0x10 16 true ∧
    cached rState 1 2 3 = none ∧ cached { rState with rcache := [⟨1, 2, 3, 9, 0⟩] } 1 2 3 = some 9 ∧ 0x020002FFFFF0 % 16 = 0 ∧
    (oldWord rState (req 0x0F 0x020002FFFFF8)).2.2 = false := ⟨served_of (by decide +kernel), served_of (by decide +kernel), by decide +kernel⟩
/-- RequestChecks: more held requests than allowed; register space; a domain that no partition holds; a partition without the address. -/
theorem witness_RequestChecks : issuing rState = true ∧ (req 0x01 0).dst = ownCoord rState ∧ rdf (wr rState R.SCF_CFG 0) R.SCF_CFG 0 8 ≤ heldFrom (wr rState R.SCF_CFG 0) (req 0x01 0) (some 1) ∧
    heldFrom rState (req 0x01 0) (some 1) < rdf rState R.SCF_CFG 0 8 ∧ heldFrom rState (req 0x01 0) none < 8192 ∧ region (req 0x01 0x0F0000000000).addr = .reg ∧
    region 0x020003000000 ≠ .reg ∧ partOfDomain rState 7 = some 0 ∧ partHolds rState 0 0x020003000000 = false ∧ partOfDomain rState 8 = none := by and_intros <;> decide +kernel
/-- RequestChecks: text that has been measured; memory that is held; a line that waits; lines that the other half's caches hold; a full reply cache, and an atomic that is misaligned. -/
theorem witness_RequestWaits : partHolds rState 0 0x020000000000 = true ∧ physErr rState (.net 0) 0x020000000000 64 true = none ∧
    (linesOf 0x020000000000 64).any (lineWaits { rState with hostLines := [(0x800000000, 2)] }) = true ∧ (linesOf 0x020000000000 64).any (lineWaits rState) = false ∧
    invWait rState 0x020000000000 64 = none ∧ ((req 0x08 0).mem.filter (fun m => (cached rState m.src m.eng m.seq).isNone)).length = 1 ∧
    16384 < (List.replicate 16384 (⟨9, 9, 9, 9, 9⟩ : RcEntry)).length + 1 ∧ cached rState (req 0x0F 0).src (req 0x0F 0).eng (req 0x0F 0).seq = none := by and_intros <;> decide +kernel

/-- A request outstanding under tag 2, 3. -/
def out (kind : ReqKind) (nacks resends : Nat) (hint : Option Nat) : OutReq := ⟨2, 3, 0, 0, 0, kind, 0x4000, req 0x01 0, nacks, resends, 0, hint⟩
/-- The package with that request outstanding, for a transfer of one line. -/
def outState (r : OutReq) : State := { rState with reqs := [r], xfers := [⟨5, 0, 0, 0, 0, 128, 0x4000, 1, 3, 1, 1, 1, none⟩] }
/-- Requests and transfers under way are no part of the canonical form. -/
theorem reqs_inv {s : State} (rs : List OutReq) (xs : List Xfer) (h : s.Inv) : ({ s with reqs := rs, xfers := xs } : State).Inv := h
theorem outState_inv (r : OutReq) : (outState r).Inv := reqs_inv _ _ rState_inv
/-- What the line of a transfer's DATA comes to. -/
def landing1 (s : State) : State × MemRes Unit := landLine (reqMove (takeRx s (req 0x20 0)) (out (.xfer 5 0) 0 0 none) 64 false) (out (.xfer 5 0) 0 0 none) 5 0 (padTo 64 (req 0x20 0).data) false
/-- RepliesAtSource: a line of a transfer that lands and one that waits. -/
theorem witness_RepliesAtSource : (outState (out (.xfer 5 0) 0 0 none)).Inv ∧ reqOf (outState (out (.xfer 5 0) 0 0 none)) 2 3 = some (out (.xfer 5 0) 0 0 none) ∧ (req 0x20 0).eng ≠ 0xFFF ∧
    okM (landing1 (outState (out (.xfer 5 0) 0 0 none))) = true ∧ waitM (landing1 (hostHas (outState (out (.xfer 5 0) 0 0 none)) 0x802000100)) = true ∧
    ((outState (out (.xfer 5 0) 0 0 none)).xfers.find? (fun x => x.id == 5)).isSome = true := ⟨outState_inv _, by decide +kernel⟩
/-- RepliesAtSource: requests of every other kind; the eighth refusal; a tag that no request has; a combined request's slot. -/
theorem witness_ReplyKinds : (∀ k ∈ [ReqKind.gather, .get 0 0 0, .put 5 0, .halo 0, .mirror 0, .mwrite 0, .atomic 63 false, .atomic 61 true], reqOf (outState (out k 6 0 none)) 2 3 = some (out k 6 0 none)) ∧
    reqOf (outState (out .gather 7 0 none)) 2 3 = some (out .gather 7 0 none) ∧ reqOf rState 2 3 = none ∧ rState.slots.find? (fun c => c.seq == 3) = none ∧
    ({ rState with slots := [⟨3, 0, []⟩] } : State).slots.find? (fun c => c.seq == 3) = some ⟨3, 0, []⟩ := by and_intros <;> decide +kernel
/-- Resends: a time to try again that has come and one that has not; a request with no reply for 20 us, for the fourth time and after it. -/
theorem witness_Resends : 0 ≤ rState.ltc.toNat ∧ (out .gather 0 3 (some 0)).hint = some 0 ∧ rState.ltc.toNat < 1 ∧ (out .gather 0 3 none).hint = none ∧ (out .gather 0 3 none).resends < 4 ∧
    (out .gather 0 0 none).sent + 20000 ≤ ({ rState with ltc := 20000 } : State).ltc.toNat ∧ 4 ≤ (out .gather 0 4 none).resends ∧ rState.ltc.toNat < (out .gather 0 0 none).sent + 20000 := by decide +kernel
/-- RouterForwards: a packet for this package and one that leaves by an ACTIVE port whose twin is not; one whose ports are both PARAPET; the same from a port. -/
theorem witness_RouterForwards : issuing rState = true ∧ ({ rState with routerIn := [req 0x01 0] } : State).routerIn = req 0x01 0 :: [] ∧ rState.routerIn = [] ∧
    nextHop rState (ownCoord rState) 0 0 = none ∧ nextHop rState (ownCoord rState) 1 0 = some (0, 0) ∧
    portState rState 0 = 3 ∧ portState rState 8 ≠ 3 ∧ portState (wr rState (R.SCF_PORT_STAT 8) 3) 8 = 3 ∧ portState (wr rState (R.SCF_PORT_STAT 0) 0) 0 ≠ 3 ∧
    nextHop rState (ownCoord rState) 0x20 0 = some (1, 0) ∧ portState rState 2 = 2 ∧ portState rState 10 = 2 ∧ bundled 0x02 = false ∧ sget [] rState.outq 0 = [] := by and_intros <;> decide +kernel
/-- The same with its first port down: a packet for the first axis has to detour. -/
def detState : State := wr rState (R.SCF_PORT_STAT 0) 0
/-- A READ of a line from package 3, and one of package 1, on their way to package 1. -/
def rd1 (src : Nat) : Pkt := { req 0x01 0x020000000000 with src := src, dst := 1 }
/-- RouterForwards: a READ that joins another of its line; a packet with no port, that has detoured or that can; one that a link takes, and one that waits for its domain's scrub. -/
theorem witness_RouterCombines : combines (rd1 3) (rd1 2) = true ∧ combFree rState ≠ 0 ∧ slotOf rState (rd1 3) = none ∧
    portState detState 0 < 2 ∧ portState detState 8 < 2 ∧ detourPort detState 0 = none ∧ (detourPort (wr (wr detState (R.SCF_PORT_STAT 2) 3) (R.SCF_DETOUR 0) 0x12) 0).isSome = true ∧
    sget [] ({ rState with outq := [(0, [rd1 3])] } : State).outq 0 = [] ++ rd1 3 :: [] ∧ domScrubbed rState (rd1 3).dom = false := by and_intros <;> decide +kernel

/-- PortsTrain: a port that is up, one in TRAINING with and without lock, idle or not, with a write of ACTIVE that waits, and one that had fallen. -/
theorem witness_PortsTrain : rState.Inv ∧ 2 ≤ portState rState 0 ∧ portState (wr rState (R.SCF_PORT_STAT 15) 1) 15 = 1 ∧ 15 ∉ rState.portIdle ∧ 15 ∈ ({ rState with portIdle := [15] } : State).portIdle ∧
    portState (wr rState (R.SCF_PORT_STAT 15) 5) 15 = 1 ∧ rdf (wr rState (R.SCF_PORT_STAT 15) 5) (R.SCF_PORT_STAT 15) 2 1 = 1 ∧
    15 ∈ ({ rState with portFell := [15] } : State).portFell ∧ 15 ∉ rState.portFell := ⟨rState_inv, by decide +kernel⟩
/-- PortsGoDown: silence that has and has not lasted 1 us; a package in CONFIDENTIAL and one that is not; a port with and without a neighbour. -/
theorem witness_PortsGoDown : sget 0 rState.portSeen 0 + 1000 ≤ ({ rState with ltc := 1000 } : State).ltc.toNat ∧ ({ rState with ltc := 999 } : State).ltc.toNat < sget 0 rState.portSeen 0 + 1000 ∧
    confidential (wr rState R.PWR_REGIME 0x400) = true ∧ confidential rState = false ∧ portPeer wState 0 = none ∧ (portPeer rState 0).isSome = true ∧
    2 ≤ portState (wr wState (R.SCF_PORT_STAT 0) 3) 0 ∧ (∀ j < 16, j ≠ 0 → portPeer rState j ≠ portPeer rState 0 ∨ portState rState j < 2) ∧
    (portPeer rState 0).all (fun c => !knownLost rState c) = true := by and_intros <;> decide +kernel
/-- LostNotices: at a PARAPET and an ACTIVE port and at one that is down, for a coordinate that is and is not known to be lost; the first free entry of SCF_LOST. -/
theorem witness_LostNotices : portState rState 2 = 2 ∧ portState rState 1 < 2 ∧ portState rState 0 = 3 ∧ knownLost (wr rState (R.SCF_LOST 0) 0x8000000000000001) 1 = true ∧ knownLost rState 1 = false ∧
    bitw (rd rState (R.SCF_LOST 0)) 63 = false := by decide +kernel
/-- CoordinateAndPortModes: a coordinate set and not set; an axis of one package and of more. -/
theorem witness_CoordinateAndPortModes : coordSet State.reset = false ∧ coordSet rState = true ∧ axisLen rState 0 ≠ 1 ∧ axisLen rState 3 = 1 ∧ portState rState 1 ≤ 1 ∧
    (0 : Word).toNat % 4 = 0 ∧ (1 : Word).toNat % 4 = 1 ∧ 2 ≤ (3 : Word).toNat % 4 := by decide +kernel
/-- Another valid partition with this domain ID. -/
def clashOf (s : State) (p d : Nat) : Option Nat := (List.range 8).find? (fun q => q != p && bitw (rd s (R.SCF_DOMAIN q)) 63 && rdf s (R.SCF_DOMAIN q) 0 16 == d)
/-- FabricRegisterWrites: domain IDs that are and are not taken; the last window entry, with and without a word held. -/
theorem witness_FabricRegisterWrites : (0x8000000000000005 : Word).toNat % 65536 ≠ 0 ∧ clashOf rState 7 5 = none ∧ clashOf rState 7 7 ≠ none ∧ (0x8000000000000000 : Word).getLsbD 63 = true ∧
    sget none rState.winHeld 2097151 = none ∧ sget none ({ rState with winHeld := [(2097151, some 5)] } : State).winHeld 2097151 = some 5 := by and_intros <;> decide +kernel
/-- The package with group 1023 valid. -/
def gState : State := wr rState (R.COL_GROUP 1023) 0x8000000000000000
/-- GroupsAndTriggers: a group valid, not valid, accepted and refused; counters with and without their owner. -/
theorem witness_GroupsAndTriggers : gValid gState 1023 = true ∧ putf (0 : Word) 63 1 1 = rd gState (R.COL_GROUP 1023) ∧ gValid rState 1023 = false ∧
    groupOk (regPut rState (R.COL_GROUP 1023) 0x8000000000000000) 1023 = true ∧ groupOk (regPut wState (R.COL_GROUP 1023) 0x8000000000000000) 1023 = false ∧
    ownsCtr (wr gState (R.COL_TCTR 0) 0x8000000000000000) 0 0 = true ∧ ownsCtr gState 0 2047 = false := by and_intros <;> decide +kernel
/-- What the checks of trigger entry 8191 come to when its first word is written 1. -/
def refusal (s : State) : Option Nat := let t := regPut s (R.COL_TRIG 8191 0) 1; trigRefused t (trigWords t 8191)
/-- GroupsAndTriggers: a trigger entry that is accepted, and those refused for their group and for their counter. -/
theorem witness_TriggerEntries : refusal (wr (wr rState (R.COL_GROUP 0) 0x8000000000000000) (R.COL_TCTR 0) 0x8000000000000000) = none ∧ bitw (rd rState (R.COL_TRIG 8191 0)) 0 = false ∧
    refusal (wr rState (R.COL_TCTR 0) 0x8000000000000000) = some 0x10 ∧ refusal (wr rState (R.COL_GROUP 0) 0x8000000000000000) = some 0x30 := by and_intros <;> decide +kernel

/-- A collective of group 0: whose it is, whether it waits in its engine, has fired and is done, how it failed, and its kind. -/
def coll (user : CollUser) (queued fired done : Bool) (fail : Option (Nat × Nat)) (kind : Nat) : Coll :=
  ⟨9, 0, 5, 0, user, 0, [0, 0, 0, 0, 0x4000, 0, 0, 0], [], 0, queued, fired, 0, kind, 0, 0, 1, true, 0, false, false, [], [], [], fail, false, done⟩
/-- The package with group 0 and these collectives. -/
def cState (cs : List Coll) : State := { wr (wr rState (R.COL_GROUP 0) 0x8000000000000000) (R.COL_GSEQ 0) 0 with colls := cs }
/-- Collectives are no part of the canonical form. -/
theorem colls_inv {s : State} (cs : List Coll) (h : s.Inv) : ({ s with colls := cs } : State).Inv := h
theorem cState_inv (cs : List Coll) : (cState cs).Inv := colls_inv _ (wr_inv _ _ (wr_inv _ _ rState_inv))
/-- A flit of collective 5 of group 0. -/
def fl (down : Bool) : Flit := { flit0 with seq := 5, cnt := 1, n := 1, kind := 1, down := down }
/-- Collectives that are on their way through, that have fired and that have failed. -/
def cWay : Coll := coll .transit false false false none 1
/-- One that has fired. -/
def cFired : Coll := coll (.trig 0) false true false none 1
/-- CollectiveTraffic: up-flits at an ACTIVE port for a collective that its own package has yet to start, that is known, that has ended and that is not known. -/
theorem witness_CollectiveTraffic : (cState []).Inv ∧ portState (cState []) 2 = 2 ∧ portState (cState []) 0 = 3 ∧ issuing (cState []) = true ∧
    collOf (cState [cWay]) (fl false) = some cWay ∧ unfired (cState [cWay]) 0 5 = true ∧ ownGroup (cState [cWay]) (fl false) = true ∧ (cState [cWay]).matchBuf.length < 3072 ∧
    4096 ≤ (List.replicate 4096 (0, fl false)).length ∧ collOf (cState [cFired]) (fl false) = some cFired ∧ cFired.fired = true := ⟨cState_inv _, by decide +kernel⟩
/-- CollectiveTraffic: a collective that has ended here; one of which this package is and is not a member. -/
theorem witness_CollectiveLate : ({ cState [] with collEnds := [(0, 5, (0x22, 0x64))] } : State).collEnds.find? (fun e => e.1 == 0 && e.2.1 == 5) = some (0, 5, (0x22, 0x64)) ∧
    isMember (cState []) 0 (actCoord (cState [])) = true ∧ collOf (cState []) (fl true) = none ∧ (coll (.trig 0) false true false (some (0x24, 0x64)) 1).fail.any (fun e => e.1 == 0x24) = true ∧
    cFired.fail.any (fun e => e.1 == 0x24) = false := by and_intros <;> decide +kernel
/-- CollectiveTraffic: digests that agree and that differ, in every state. -/
theorem witness_Digests (s : State) : digDiffers s { fl true with dig := groupDigest s 0 } = false ∧ (gValid s 0 = true → digDiffers s { fl true with dig := groupDigest s 0 + 1 } = true) :=
  ⟨by simp [digDiffers, fl, flit0], fun h => by simp [digDiffers, fl, flit0, h]⟩
/-- CollectiveTraffic: a collective that waits in its engine and may start, or not; a flit that was sent. -/
theorem witness_CollectiveStarts : getColl (cState [coll (.trig 0) true false false none 1]) 9 = some (coll (.trig 0) true false false none 1) ∧
    mayStart (cState [coll (.trig 0) true false false none 1]) (coll (.trig 0) true false false none 1) = true ∧
    .flit 0 (fl false) ∈ ({ cState [cFired] with tx := [.flit 0 (fl false)] } : State).tx ∧ ownGroup rState (fl false) = false := by and_intros <;> decide +kernel
/-- The end of a collective of a trigger entry. -/
def cDone (fail : Option (Nat × Nat)) (kind : Nat) : Coll := { coll (.trig 0) false true true fail kind with res := [(0, List.replicate 8 (1, 0))] }
/-- What the write of its result comes to. -/
def cPut (s : State) (c : Coll) (a : Nat) : State × MemRes Unit := vaPut s (srcColl s c) a (collBytes c)
/-- CollectiveEnds: results that are stored, that may not be and that wait; members that take none; failures. -/
theorem witness_CollectiveEnds : getColl (cState [cDone none 2]) 9 = some (cDone none 2) ∧ writesDst (cState [cDone none 2]) (cDone none 2) = true ∧
    okM (cPut (cState [cDone none 2]) (cDone none 2) 0x4000) = true ∧ waitM (cPut (hostHas (cState []) 0x802000100) (cDone none 2) 0x4000) = true ∧
    (cDone none 0).kind = 0 ∧ writesDst rState (cDone none 1) = false ∧ (cDone (some (0x22, 0x64)) 1).fail = some (0x22, 0x64) ∧ (cDone (some (0x22, 0x63)) 1).fail = some (0x22, 0x63) := by
  and_intros <;> decide +kernel
/-- CollectiveEnds: a DST that may not be written; watchdogs that have and have not expired; a status word that is asked for. -/
theorem witness_CollectiveFails : errM (cPut (cState []) (cDone none 2) 0x1000000) = true ∧ getColl (cState [cFired]) 9 = some cFired ∧ cFired.dl ≤ rState.ltc.toNat ∧ rState.svus = [] ∧
    rState.ltc.toNat < ({ cFired with dl := 1 } : Coll).dl ∧ ((cDone none 2).ws.getD 6 0).toNat = 0 := by and_intros <;> decide +kernel

/-- A package with partition 0's group 0 valid and its checkpointing configured: a cofferdam of 1 GiB whose first block lies in the partition's scratch way. -/
def kState : State := wr (wr (wr rState (R.COL_GROUP 0) 0x8000000000000000) (R.CKP_COFF_W 0) 0x0001020000000000) (R.CKP_CFG 0) 0x8000000000000000
theorem kState_inv : kState.Inv := wr_inv _ _ (wr_inv _ _ (wr_inv _ _ rState_inv))
/-- The same in a phase, with the sequencer's state. -/
def ckpS (ph : Nat) (k : Ckp) : State := setPhase (setCkp kState 0 k) 0 ph
theorem ckpS_inv (ph : Nat) (k : Ckp) : (ckpS ph k).Inv := (setPhase_kept _ _ _ (setCkp_kept (inv_kept kState_inv))).2
/-- A drain at a stage that has sent its lines. -/
def drain0 (stage : Nat) : Drain := ⟨0, 5, 6, 1, stage, 0, 0, false⟩
/-- A restore from a source, its local part still to end or ended. -/
def rest0 (src : Nat) (fail : Option (Nat × Nat)) (l : Bool) : Restore := ⟨src, false, 0, 0, 5, 0, fail, false, false, 0, 0, 0, l⟩
/-- The result of a vote of partition 0. -/
def voteC (v : Nat) (fail : Option (Nat × Nat)) (slots : List Nat) : Coll :=
  { coll (.ckp 0 v) false true true fail 9 with res := [(0, slots.map (fun x => (x, 0)))] }
/-- A sequencer in a phase, with the result of a vote. -/
def voted (ph : Nat) (k : Ckp) (c : Coll) : State := { ckpS ph k with colls := [c] }
/-- CheckpointCommands: VALID with and without its checks; a cut request in a phase that takes it and in one that does not. -/
theorem witness_CheckpointCommands : kState.Inv ∧ (0 : Word).getLsbD 63 = false ∧ ckpOn kState 0 = true ∧ ckpOn rState 0 = false ∧ ckpCfgOk (wr kState (R.CKP_CFG 0) 0) 0 0 = true ∧
    (0x8000000000000000 : Word).getLsbD 63 = true ∧ ckpCfgOk rState 7 0 = false ∧ ckpOn rState 7 = false ∧ ckpPhase kState 0 ∉ [1, 2, 3, 6] ∧ ckpPhase (ckpS 6 ckp0) 0 ∈ [1, 2, 3, 6] :=
  ⟨kState_inv, by decide +kernel⟩
/-- CheckpointCommands: a drain that runs and none; a restore whose vote is commanded. RestoresStart: a partition with checkpointing, in a phase that takes a restore and in one that does not. -/
theorem witness_CheckpointRuns : (ckpOf (ckpS 4 { ckp0 with drain := some (drain0 0) }) 0).drain = some (drain0 0) ∧ (ckpOf kState 0).drain = none ∧
    (ckpOf (ckpS 8 { ckp0 with rest := some (rest0 0 none true) }) 0).rest = some (rest0 0 none true) ∧ ckpPhase (ckpS 8 ckp0) 0 = 8 ∧ ckpPhase kState 0 ≠ 8 ∧
    ckpPhase (ckpS 1 ckp0) 0 ∈ [1, 2, 3, 6] := by and_intros <;> decide +kernel
/-- What the cut vote brings: a failure, unequal steps, no cause, a package that drains, and a cut. -/
def cutVote : Nat → Coll
  | 0 => voteC 0 (some (0x24, 0x64)) []
  | 1 => voteC 0 none [0, 0, 1, 2]
  | 2 => voteC 0 none [0, 0, 5, 5]
  | 3 => voteC 0 none [1, 0, 5, 5, 1]
  | _ => voteC 0 none [1, 9, 5, 5, 0]
/-- CutVotes: each outcome of the vote comes back to a sequencer that waits for it, in phases 1 and 7. -/
theorem witness_CutVotes : (∀ i < 5, voteDone (voted 1 ckp0 (cutVote i)) 0 0 = some (cutVote i) ∧ ckpPhase (collEnd (voted 1 ckp0 (cutVote i)) (cutVote i)) 0 = 1) ∧
    recordWaits (voted 1 ckp0 (cutVote 0)) 0 = false ∧ ckpPhase (collEnd (voted 7 ckp0 (cutVote 0)) (cutVote 0)) 0 = 7 := by decide +kernel
/-- CutVotes: what each outcome says. -/
theorem witness_CutOutcomes : 0x10 ≤ (collStatus (voted 1 ckp0 (cutVote 0)) (cutVote 0)).1 ∧ (∀ i < 5, i ≠ 0 → (collStatus (voted 1 ckp0 (cutVote i)) (cutVote i)).1 < 0x10) ∧
    voteSlot (cutVote 1) 2 ≠ voteSlot (cutVote 1) 3 ∧ (∀ i < 5, 2 ≤ i → voteSlot (cutVote i) 2 = voteSlot (cutVote i) 3) ∧ voteSlot (cutVote 2) 0 = 0 ∧
    voteSlot (cutVote 3) 0 ≠ 0 ∧ voteSlot (cutVote 3) 4 ≠ 0 ∧ voteSlot (cutVote 4) 0 ≠ 0 ∧ voteSlot (cutVote 4) 4 = 0 := by decide +kernel
/-- CutCopies: a copy with no regions and one with a region that no HBM backs. -/
theorem witness_CutCopies : ckpPhase (ckpS 2 ckp0) 0 = 2 ∧ setWaits (ckpS 2 ckp0) 0 = false ∧ (copyRegions (ckpS 2 ckp0) 0 0 16384 []).2 = none ∧ regionsOf (ckpS 2 ckp0) 0 0 = [] ∧
    regionsOf (ckpS 2 ckp0) 0 1 = [] ∧ (copyRegions (ckpS 2 ckp0) 0 0 16384 [(0, 0x009000000000, 4096)]).2.isSome = true := by and_intros <;> decide +kernel
/-- What the copied vote brings: every package whole, a failure, a package whose copy failed. -/
def copyVote : Nat → Coll
  | 0 => voteC 1 none [0, 5, 5]
  | 1 => voteC 1 (some (0x24, 0x64)) []
  | _ => voteC 1 none [1, 5, 5]
/-- CutCopies: each outcome of the copied vote. -/
theorem witness_CopiedVotes : (∀ i < 3, voteDone (voted 3 ckp0 (copyVote i)) 0 1 = some (copyVote i) ∧ ckpPhase (collEnd (voted 3 ckp0 (copyVote i)) (copyVote i)) 0 = 3) ∧
    recordWaits (voted 3 ckp0 (copyVote 0)) 0 = false ∧ 0x10 ≤ (collStatus (voted 3 ckp0 (copyVote 1)) (copyVote 1)).1 ∧
    (collStatus (voted 3 ckp0 (copyVote 0)) (copyVote 0)).1 < 0x10 ∧ voteSlot (copyVote 0) 0 = 0 ∧ voteSlot (copyVote 0) 1 = voteSlot (copyVote 0) 2 ∧ voteSlot (copyVote 2) 0 ≠ 0 := by decide +kernel
/-- A package with a drain under way. -/
def drS (d : Drain) : State := ckpS 4 { ckp0 with drain := some d }
/-- DrainSeals: a drain whose modules refuse, one whose data is written, and one whose manifest is with its buddies, some lost. -/
theorem witness_DrainSeals : (drS (drain0 1)).Inv ∧ (ckpOf (drS (drain0 1)) 0).drain = some (drain0 1) ∧ moverOut (drS (drain0 1)) 0 = 0 ∧ stageLines (drS (drain0 1)) 0 1 ≤ 0 ∧
    setWaits (drS (drain0 1)) 0 = false ∧ bayState (drS (drain0 1)) 4 = false ∧ (ckpOf (drS (drain0 3)) 0).drain = some (drain0 3) ∧ ckpPhase (drS (drain0 3)) 0 ∈ [4, 5] ∧
    stageLines (drS (drain0 3)) 0 3 ≤ 0 ∧ (ckpOf (drS { drain0 3 with lost := true }) 0).drain = some { drain0 3 with lost := true } ∧
    bayState (setBay (drS (drain0 1)) 0 ⟨some (moduleOf mod0), true⟩) 4 = true ∧ rdf (wr (drS (drain0 1)) (R.CKP_MIRCFG 0) 1) (R.CKP_MIRCFG 0) 0 4 ≠ 0 :=
  ⟨ckpS_inv _ _, by decide +kernel⟩
/-- A package with a restore under way. -/
def reS (r : Restore) : State := ckpS 6 { ckp0 with rest := some r }
/-- RestoresEnd: a restore that has failed, and one from the cofferdam that has read its data. -/
theorem witness_RestoresEnd : (ckpOf (reS (rest0 0 (some (0x12, 0)) false)) 0).rest = some (rest0 0 (some (0x12, 0)) false) ∧ ckpPhase (reS (rest0 0 none false)) 0 = 6 ∧
    setWaits (reS (rest0 0 none false)) 0 = false ∧
    (restRead (reS (rest0 0 none false)) 0 (rest0 0 none false)).any (fun q => q.2.1.isNone && q.2.2.2.isNone && (applyCut q.1 0 [] q.2.2.1).2.isNone) = true := by and_intros <;> decide +kernel
/-- What the restore vote brings: every package whole, one that is not, a failure. -/
def restVote : Nat → Coll
  | 0 => voteC 2 none [0, 5, 5]
  | 1 => voteC 2 none [1, 5, 5]
  | _ => voteC 2 (some (0x24, 0x64)) []
/-- RestoresEnd: each outcome of its vote, for a restore from the modules and one from a mirror. -/
theorem witness_RestoreVotes : (∀ i < 3, voteDone (voted 6 { ckp0 with rest := some (rest0 1 none true) } (restVote i)) 0 2 = some (restVote i)) ∧
    recordWaits (voted 6 ckp0 (restVote 0)) 0 = false ∧ (ckpOf (reS (rest0 1 none true)) 0).rest = some (rest0 1 none true) ∧
    voteSlot (restVote 0) 0 = 0 ∧ voteSlot (restVote 0) 1 = voteSlot (restVote 0) 2 ∧ voteSlot (restVote 1) 0 ≠ 0 ∧ (rest0 1 none true).second = false ∧ (rest0 2 none true).source ≠ 1 ∧
    0x10 ≤ (collStatus kState (restVote 2)).1 ∧ (collStatus kState (restVote 0)).1 < 0x10 := by and_intros <;> decide +kernel

/-- The last ring is enabled, with four entries. -/
def hState (x : RingSt) : State := setRing (wr (wr rState (R.DSP_RING_SQ 255) 0x8020000000000000) R.DSP_CFG 1) 255 x
theorem hState_inv (x : RingSt) : (hState x).Inv := (setRing_kept (inv_kept (wr_inv _ _ (wr_inv _ _ rState_inv)))).2
/-- A descriptor's bytes: its opcode in byte 8 and the rest zeros. -/
def dBytes (op : Nat) : List Byte := (List.replicate 64 0).set 8 (BitVec.ofNat 8 op)
/-- A ring whose index line is read, with one descriptor in use. -/
def ring1 : RingSt := { ring0 with reads := 1, sqPi := 2, sqCi := 1 }
/-- RingsAndClaims: a served ring and one that is not; counts that fill the ring, that run backwards and beyond it; descriptors to come; the host there. -/
theorem witness_RingsAndClaims : (hState ring0).Inv ∧ ringOn (hState ring0) 255 = true ∧ ringOn rState 255 = false ∧ ringOf (hState ring1) 255 = ring1 ∧ sqSize (hState ring1) 255 = 4 ∧
    (ring1.sqPi ≤ 5 ∧ 5 - ring1.sqCi ≤ 4 ∧ ring1.cqCi ≤ 0 ∧ 0 ≤ ring1.cqPi) ∧ 1 < ring1.sqPi ∧ 4 < 6 - ring1.sqCi ∧ ring1.cqPi < 1 ∧
    (ringOf (hState { ring0 with toCome := 2 }) 255).toCome ≠ 0 ∧ (hState ring0).hostLost = false := ⟨hState_inv _, by decide +kernel⟩
/-- A descriptor of an operation. -/
def desc1 (ix op : Nat) (started : Bool) (at_ : Option Nat) : DescSt := ⟨ix, 0, dBytes op, started, 0, [], [], 0, 0, none, none, at_⟩
/-- DescriptorsStart: a descriptor to come with none before it, and with one; an operation code of each kind and one that breaks its table; a counter with and without its owner. -/
theorem witness_DescriptorsStart : (ringOf (hState { ring0 with toCome := 1, sqCi := 1, sqPi := 1 }) 255).toCome ≠ 0 ∧ (ringOf (hState { ring0 with toCome := 1, sqCi := 1, sqPi := 1 }) 255).descs = [] ∧
    (∀ op < 5, (dBytes op).length = 64) ∧ dBad (desc1 0 4 false none) = true ∧ (∀ op < 4, op ≠ 0 → dBad (desc1 0 op false none) = false ∧ dOp (desc1 0 op false none) = op) ∧
    bitw (rd (wr rState (R.COL_TCTR 0) 0x8000000000000000) (R.COL_TCTR 0)) 63 = true ∧ bitw (rd rState (R.COL_TCTR 0)) 63 = false := by and_intros <;> decide +kernel
/-- DescriptorsStart: a descriptor that waits for those before it. -/
theorem witness_DescriptorWaits : dField ⟨1, 0, (dBytes 1).set 9 1, false, 0, [], [], 0, 0, none, none, none⟩ 9 1 % 2 = 1 ∧ dBad ⟨1, 0, (dBytes 1).set 9 1, false, 0, [], [], 0, 0, none, none, none⟩ = false ∧
    (∀ y ∈ [desc1 0 1 true none], y.ix < 1 ∧ y.started = true ∧ (dBad y = true ∨ dOp y ≠ 3)) := by decide +kernel
/-- N-core 127's thread stopped. -/
def stopped : State := setTh nState 127 { run0 with phase := .fault }
/-- ThreadControl: a stopped thread, one whose image is being saved, and one that runs. -/
theorem witness_ThreadControl : stopped.Inv ∧ (th stopped 127).phase = .fault ∧ (th stopped 127).saving = none ∧ (th (setTh nState 0 { run0 with phase := .fault, saving := some 0 }) 0).saving ≠ none ∧
    (th nState 0).phase ≠ .fault ∧ nState.images = [] := ⟨setTh_inv _ _ nState_inv, by decide +kernel⟩
/-- ThreadControl: a watchdog that has and has not expired; a fault to write with room in its ring, and none. -/
theorem witness_Watchdogs : (ringOf (hState { ring0 with descs := [desc1 7 1 true (some 1)] }) 255).descs.find? (fun d => d.ix == 7) = some (desc1 7 1 true (some 1)) ∧ (hState ring0).ltc.toNat < 1 ∧
    1 ≤ ({ hState ring0 with ltc := 1 } : State).ltc.toNat ∧ (hState ring0).hostLost = false ∧ cqRoom (hState ring0) (rdf (hState ring0) R.DSP_CFG 8 8) ≠ 0 ∧ (hState ring0).faultQ = [] := by and_intros <;> decide +kernel
/-- A package with context 63 valid. -/
def x63 : State := wr rState (R.DSP_CTXDEF 63) 0x8000000000000000
/-- ContextsAndInvalidation: an invalidation to start and one under way; a context in use, one not in use, one not valid; a core set within and beyond the cores; a ring to enable. -/
theorem witness_ContextsAndInvalidation : rState.Inv ∧ rState.tlbInv = none ∧ ({ rState with tlbInv := some (63, some 5) } : State).tlbInv = some (63, some 5) ∧
    ctxValid rState 0 = true ∧ ctxUsed rState 0 = true ∧ ctxValid x63 63 = true ∧ ctxUsed x63 63 = false ∧ ctxValid rState 63 = false ∧
    2 ^ (2 * nCores (wr rState R.PKG_LAYOUT 48) - 64 * 1) ≤ (0x100000000 : Word).toNat ∧ (0 : Word).toNat < 2 ^ (2 * nCores rState - 64 * 1) ∧ confidential rState = false ∧
    (ringOf rState 255).stopped = false ∧ rdf rState (R.DSP_RING_STAT 255) 0 1 = 0 ∧ rState.hostLost = false := ⟨rState_inv, by decide +kernel⟩
/-- HostLink: a port up with the other up and down, and a port down; a session; a line the host holds dirty. -/
theorem witness_HostLink : rdf rState R.PLK_STAT 2 2 = 3 ∧ rdf rState R.PLK_STAT 0 2 = 3 ∧ rdf (wr rState R.PLK_STAT 3) R.PLK_STAT 2 2 = 0 ∧ rState.hostLost = false ∧ rState.session = none ∧
    pwrState rState ≠ 4 ∧ ({ rState with session := some ⟨0, 0, 0⟩ } : State).session ≠ none ∧ sget 0 (hostHas rState 0x802000001).hostLines 0x802000001 = 2 := by and_intros <;> decide +kernel
/-- The last four bytes of a line of N-core 0's store. -/
def hostA : Nat := 0x02008000403C
/-- HostMemoryAccesses: an access of the last bytes of a line that the host may make, with and without poison, and one that waits. -/
theorem witness_HostMemoryAccesses : plkOpen rState = true ∧ hostA % 64 + 4 ≤ 64 ∧ hostBarred rState hostA = false ∧ region hostA ≠ .reg ∧ physErr rState .host hostA 4 true = none ∧
    physErr rState .host hostA 4 false = none ∧ hostWaits rState (hostA / 64) = false ∧ (physRead rState srcHost hostA 4).2.2 = false ∧
    (physRead { rState with poison := [hostA / 64] } srcHost hostA 4).2.2 = true ∧ sget 0 rState.symErr (hostA / 64) = 0 := by and_intros <;> decide +kernel
/-- HostMemoryAccesses: one before start-up has ended, one to an address that does not exist, and no port up. -/
theorem witness_HostBarred : hostBarred (wr rState R.PWR_STAT 1) hostA = true ∧ plkOpen (wr rState R.PWR_STAT 1) = true ∧ region 0x030000000000 ≠ .reg ∧
    (physErr rState .host 0x030000000000 4 true).isSome = true ∧ plkOpen (wr rState R.PLK_STAT 0) = false := by and_intros <;> decide +kernel
/-- RegisterStores8, RegisterLoads8: a register that exists, an address in no block and a misaligned one; rows with RW and with RW1C bits. -/
theorem witness_RegisterAccess : hostBarred rState R.CLK_LTC = false ∧ region R.CLK_LTC = .reg ∧ R.CLK_LTC % 8 = 0 ∧ regBlockExists (nCores rState) R.CLK_LTC = true ∧
    regBlockExists (nCores rState) 0x0F0000090000 = false ∧ region 0x0F0000090000 = .reg ∧ (R.CLK_LTC + 4) % 8 ≠ 0 ∧ regRow 0x0F0000090000 = none ∧
    (regRow R.DSP_CFG).any (fun r => r.rw.testBit 0 && !r.w1c.testBit 0) = true ∧ (regRow R.DSP_CFG_ERR).any (fun r => r.w1c.testBit 63 && !r.rw.testBit 63) = true := by and_intros <;> decide +kernel
/-- A package in CONFIDENTIAL whose host has attested it. -/
def secret : State := wr (wr rState R.PWR_REGIME 0x400) R.SEC_STAT 2
/-- RegisterLoads8: CONFIDENTIAL with a counter it hides; the local time counter and a claim. -/
theorem witness_RegisterViews : confidential secret = true ∧ hiddenReg R.PLK_UTIL = true ∧ hostBarred secret R.PLK_UTIL = false ∧ regBlockExists (nCores secret) R.PLK_UTIL = true ∧
    hiddenReg R.CLK_LTC = false ∧ hiddenReg (R.DSP_LOGCLAIM 7) = false ∧ region (R.DSP_LOGCLAIM 7) = .reg ∧ regBlockExists (nCores rState) (R.DSP_LOGCLAIM 7) = true := by and_intros <;> decide +kernel

/-- A system of one row, 2 x = 1, in the local store from VA 0x5000 on: header, values, row pointers, columns and right side (R188). -/
def mxState : State :=
  memPut (memPut (memPut (memPut (vState 6 8) 0x020080005000 (leBytes 8 0 ++ leBytes 8 0x100000001 ++ leBytes 8 1 ++ leBytes 8 0x5100 ++ leBytes 8 0x5180 ++ leBytes 8 0x5140))
    0x020080005100 (leBytes 8 0x4000000000000000)) 0x020080005140 (leBytes 8 0 ++ leBytes 8 1)) 0x020080005200 (leBytes 8 0x3FF0000000000000)
theorem mxState_inv : mxState.Inv := memPut_inv _ _ (memPut_inv _ _ (memPut_inv _ _ (memPut_inv _ _ (vState_inv _ _))))
/-- A solve of it, by Jacobi-preconditioned conjugate gradients within the package, with a deadline, issued by thread 0 of S-core 0. -/
def solve0 (dl : Word) : Solve :=
  ⟨128, 0, 0, 3, basicWords [0x5000, 0x5200, 0x5400, 0x0000FFFF00010000, 0x3EB0000000000000, 0, dl, 0x6000]⟩
/-- A run that has just begun. -/
def runNew (v : Solve) : Run := ⟨v, 1, 0, 0, 0, 0, 0, 0, 0, 0, 0, 0, none, 0, 0, 0, none, none, none, none, pre0, [], [], inner0, 0, 0, 0, 0, 0, 0, false, none, false, none, none⟩
/-- The system as its rank reads it. -/
def mat1 : Mat := ⟨memGet mxState 0x020080005000 64, [[(0, 0x4000000000000000)]], 1, 0, 1, 1, [], []⟩
/-- A run of that solve at a stage, at the iterate 0. -/
def runAt (stage : Nat) : Run := { runNew (solve0 0) with stage := stage, mat := some mat1, x := [0], res := [0x3FF0000000000000], bn := 0x3FF0000000000000, an := 0x4000000000000000, prev := 0x3FF0000000000000 }
/-- The last unit with that run. -/
def svS (r : Run) : State := setSvu mxState 23 ⟨some r, []⟩
theorem svS_inv (r : Run) : (svS r).Inv := (setSvu_kept (inv_kept mxState_inv)).2
/-- Local work that a solver unit could do. -/
def okS {α : Type} (r : State × SolRes α) : Bool := match r.2 with | .ok _ => true | .bad _ _ => false | .wait => false
/-- Local work that found a fault. -/
def badS {α : Type} (r : State × SolRes α) : Bool := match r.2 with | .ok _ => false | .bad _ _ => true | .wait => false
/-- Local work that waits. -/
def waitS {α : Type} (r : State × SolRes α) : Bool := match r.2 with | .ok _ => false | .bad _ _ => false | .wait => true
/-- A descriptor's bytes at VA 64, clean or poisoned. -/
def descBytes (s : State) (n : Nat) : State × MemRes (List Byte × Bool) := vaBytes s (srcTh s 128) 64 n
/-- SolvesIssue: SOLVE at an aligned and a misaligned address, with and without poison, and where its memory waits. -/
theorem witness_SolvesIssue : mxState.Inv ∧ Issues mxState (.s 0 0) (opsI 31 4 0) 0x11 none (memForm 32) ∧ scalarVa mxState 128 (opsI 31 4 0) % 64 = 0 ∧ scalarVa mxState 128 (opsI 31 4 8) % 64 ≠ 0 ∧
    okM (descBytes mxState 64) = true ∧ okM (descBytes mxState 256) = true ∧ waitM (descBytes (hostHas mxState 0x802000001) 64) = true ∧
    errM (vaBytes mxState (srcTh mxState 128) 0x1000000 64) = true ∧
    (match (descBytes { mxState with poison := [0x802000001] } 64).2 with | .ok (_, p) => p | _ => false) = true := ⟨mxState_inv, issues_of (by decide +kernel), by decide +kernel⟩
/-- SolvesIssue: a unit with room and one with a full queue, and RESULT at an address it may write, that it may not, and that waits. -/
theorem witness_SolvesQueue : okM (vaCheck mxState 0 (solve0 0).result 1 .write) = true ∧ errM (vaCheck mxState 0 0x1000000 1 .write) = true ∧
    waitM (vaCheck (hostHas mxState 0x802000180) 0 (solve0 0).result 1 .write) = true ∧ (svuOf mxState 0).queue.length < 7 ∧
    7 ≤ (svuOf (setSvu mxState 0 ⟨none, List.replicate 7 (solve0 0)⟩) 0).queue.length := by and_intros <;> decide +kernel
/-- A unit with one solve in its queue. -/
def svQ (v : Solve) : State := setSvu mxState 23 ⟨none, [v]⟩
/-- The same with its context's three timers in use. -/
def busyTimers : State := (List.range 3).foldl (fun s k => setSvu s k ⟨some { runNew { solve0 5 with ws := [0, 0, 0, 0] } with stage := 2, timer := some k }, []⟩) (svQ (solve0 5))
/-- SolvesStart: a solve that may vote and one that may not, with and without a deadline, its timer free and in use. -/
theorem witness_SolvesStart : issuing (svQ (solve0 5)) = true ∧ (svuOf (svQ (solve0 5)) 23).act = none ∧ (svuOf (svQ (solve0 5)) 23).queue = [solve0 5] ∧ (solve0 5).votable = true ∧ (solve0 5).ok = true ∧
    (solve0 5).deadline ≠ 0 ∧ claimTimer (svQ (solve0 5)) (solve0 5) = some 0 ∧ (solve0 0).deadline = 0 ∧ ({ solve0 0 with ws := [0, 0, 0, 0x0018000000000000] } : Solve).votable = false ∧
    claimTimer busyTimers (solve0 5) = none ∧ (svuOf mxState 23).queue = [] := by and_intros <;> decide +kernel
/-- SolverBoundaries: a unit that may go on, in each stage, and one that waits for its reduction; a fault found before. -/
theorem witness_SolverBoundaries : (∀ st < 5, (svuOf (svS (runAt st)) 23).act = some (runAt st)) ∧ issuing mxState = true ∧ (runAt 2).vote = none ∧ mxState.reqs = [] ∧
    othersReady (svS (runAt 2)) 23 (runAt 2) = true ∧ haloBad (svS (runAt 2)) 23 = none ∧ (runAt 2).bad = none ∧ ({ runAt 2 with vote := some (0, []) } : Run).vote.isSome = true ∧
    ({ runAt 3 with bad := some (0x12, 0) } : Run).bad = some (0x12, 0) := by and_intros <;> decide +kernel
/-- SolverBoundaries: the warm start of a rank that reads its matrix, that finds a fault and that waits. -/
theorem witness_WarmStart : okS (warmWork (svS (runNew (solve0 0))) 23 (runNew (solve0 0))) = true ∧ waitS (warmWork (hostHas (svS (runNew (solve0 0))) 0x802000140) 23 (runNew (solve0 0))) = true ∧
    badS (warmWork mxState 23 (runNew { solve0 0 with ws := (solve0 0).ws.set 0 0x1000000 })) = true := by and_intros <;> decide +kernel
/-- SolverBoundaries: the setup and the residual of that rank. -/
theorem witness_SetupWork : okS (setupWork (svS (runAt 2)) 23 (runAt 2) mat1) = true ∧ okS (outerWork (svS (runAt 3)) 23 (runAt 3) mat1) = true := by and_intros <;> decide +kernel
/-- SolverBoundaries: the product of an inner iteration. -/
theorem witness_InnerWork : okS (innerProduct (svS (runAt 4)) 23 { runAt 4 with inn := { inner0 with p := [0], ph := [0], r := [0] } } mat1) = true := by decide +kernel
/-- SolverBoundaries: a setup whose deadline has passed, and one that has not. -/
theorem witness_SolveDeadline : ({ runAt 2 with sol := solve0 5 } : Run).sol.deadline ≠ 0 ∧ ({ runAt 2 with sol := solve0 5 } : Run).sol.deadline ≤ ({ svS (runAt 2) with ltc := 5 } : State).ltc.toNat ∧
    mxState.ltc.toNat < (solve0 5).deadline ∧ (solve0 5).precond ≠ 3 := by decide +kernel
/-- A run whose reduction has come back. -/
def runGot (stage st sub : Nat) (sl : List Nat) : Run := { runAt stage with got := some (st, sub, sl) }
/-- SolverResults: reductions that have come back, of a failed collective, of each class of vote, and of ranks that disagree. -/
theorem witness_SolverResults : shareResult (svS (runGot 2 0x24 0x64 [])) 23 = svS (runGot 2 0x24 0x64 []) ∧ (runGot 2 0x24 0x64 []).lead = none ∧
    nfld (nth [3 <<< 56 + 0x12 <<< 48] 0) 56 8 = 3 ∧ nth [0, 1, 2] 1 ≠ nth [0, 1, 2] 2 ∧ nfld (nth [2 <<< 56, 1, 1] 0) 56 8 = 2 ∧ (runGot 3 0 0 []).mat = some mat1 := by and_intros <;> decide +kernel
/-- The run after an outer boundary's reduction. -/
def outerGot (sl : List Nat) : Run := { runAt 3 with rn := normOf (nth sl 1) (nth sl 2), ri := nth sl 3, xi := nth sl 4, resid := some (c64 (fDiv (v64 (normOf (nth sl 1) (nth sl 2))) (v64 0x3FF0000000000000))) }
/-- SolverResults: an iterate at its target, at the floor, and at neither, whose residual has and has not grown. -/
theorem witness_SolverOutcomes : targetTest (outerGot [0, 0, 0, 0, 0]) = true ∧ floorTest (outerGot [0, 0, 0, 0, 0x3FF0000000000000]) = true ∧
    floorTest (outerGot [0, 0x4180000000000000, 0, 0x3FF0000000000000, 0x3FF0000000000000]) = false ∧
    targetTest (outerGot [0, 0x4180000000000000, 0, 0x3FF0000000000000, 0x3FF0000000000000]) = false ∧
    fLt (fMul (f64 ((solve0 0).w 13)) (v64 0x3FF0000000000000)) (v64 (outerGot [0, 0x4180000000000000, 0, 0x3FF0000000000000, 0x3FF0000000000000]).rn) = true := by and_intros <;> decide +kernel
/-- SolverResults: an inner iteration at the reduction that votes and at one before it, that breaks down, and that goes on. -/
theorem witness_SolverInner : ({ inner0 with phase := 1 } : Inner).votes 0 = true ∧ inner0.votes 0 = false ∧ (runAt 4).iters < (solve0 0).maxit ∧ (innerVoted 0 { inner0 with phase := 1, brk := true } [0, 0, 0, 0] 1).1.brk = true := by
  and_intros <;> decide +kernel
/-- A run that is finishing with its iterate. -/
def runFin : Run := { runAt 6 with fin := some (0, 0, 0, .iterate) }
/-- SolvesEnd: an output that can be written, one that cannot and one that waits. -/
theorem witness_SolvesEnd : (svuOf (svS runFin) 23).act = some runFin ∧ runFin.stage = 6 ∧ runFin.fin = some (0, 0, 0, .iterate) ∧ runFin.vote = none ∧ othersReady (svS runFin) 23 runFin = true ∧
    okS (putOutput (svS runFin) (srcSvu (svS runFin) 23 0) runFin .iterate) = true ∧ waitS (putOutput (hostHas (svS runFin) 0x802000150) (srcSvu (svS runFin) 23 0) runFin .iterate) = true := by
  and_intros <;> decide +kernel
/-- SolvesEnd: a result record that can be written, and one that waits. -/
theorem witness_SolveRecord : okM (vaPut (svS runFin) (srcSvu (svS runFin) 23 0) runFin.sol.result (List.replicate 64 0)) = true ∧
    waitM (vaPut (hostHas (svS runFin) 0x802000180) (srcSvu (svS runFin) 23 0) runFin.sol.result (List.replicate 64 0)) = true := by and_intros <;> decide +kernel

/-- N-core 0's thread being saved. -/
def saving0 : State := setTh rState 0 { run0 with saving := some 0 }
/-- Preemption: a core that runs and one that does not exist; a save that ends, with the request held and withdrawn; an S-core thread at a boundary. -/
theorem witness_Preemption : rState.Inv ∧ 0 < 2 * nCores rState ∧ (th rState 0).phase ≠ .idle ∧ 2 * nCores rState ≤ 200 ∧ (th saving0 0).saving = some 0 ∧ (th saving0 0).phase ≠ .atomic ∧ saving0.reqs = [] ∧
    rdf saving0 (R.NCO_PREEMPT (halfOf saving0 0) (dieCore saving0 0)) 0 1 = 0 ∧
    rdf (wr saving0 (R.NCO_PREEMPT 0 0) 1) (R.NCO_PREEMPT 0 0) 0 1 = 1 ∧ (th rState 0).saving = none ∧ isS 128 = true ∧ (th rState 128).phase ∉ [.idle, .gather, .atomic] := ⟨rState_inv, by decide +kernel⟩
/-- The image of a thread of context 0. -/
def image0 (k : Nat) : Image := ⟨k, run0, ncore0, [], [], [], [5]⟩
/-- The package with images of N-core 1's thread and of an S-core's last. -/
def imState : State := { rState with images := [image0 1, image0 1663] }
/-- Preemption: images of an idle S-core thread and of an idle core, and none. -/
theorem witness_ContextRestore : imState.images.find? (fun im => im.key == 1663 && im.th.ctx == 0) = some (image0 1663) ∧ (th imState 1663).phase = .idle ∧ isS 1663 = true ∧
    imState.images.find? (fun im => im.key == 1 && im.th.ctx == 0) = some (image0 1) ∧ (th imState 1).phase = .idle ∧ isS 1 = false ∧
    imState.images.find? (fun im => im.key == 0 && im.th.ctx == 0) = none := by and_intros <;> decide +kernel

/-- The state that a write of MEM_PART_CFG shows its size in. -/
def ownerS (h p : Nat) (v : Word) (s : State) : State :=
  wrf (wr s (R.MEM_PART_CFG h p) (BitVec.ofNat 64 (fld v 0 34))) (R.MEM_PART_CFG h p) 34 10 (ownerGib (wr s (R.MEM_PART_CFG h p) (BitVec.ofNat 64 (fld v 0 34))) h p)
/-- MemoryOwners: an owner that is valid and one that is not; groups that clash with another owner's, and groups that do not; CONFIDENTIAL. -/
theorem witness_MemoryOwners : rState.Inv ∧ bitw (rd rState (R.MEM_PART_CFG 0 0)) 63 = true ∧ confidential rState = false ∧ bitw (rd rState (R.MEM_PART_CFG 1 7)) 63 = false ∧
    (ownerClash (ownerS 0 1 0x8000000000000001 (wr rState (R.MEM_PART_CFG 0 0) 0x8000006000000001)) 0 1).isSome = true ∧
    ownerClash (ownerS 1 7 0x8000000000400000 (wr rState (R.MEM_PART_CFG 1 8) 0)) 1 7 = none ∧ confidential secret = true ∧ bitw (rd secret (R.MEM_PART_CFG 0 0)) 63 = true :=
  ⟨rState_inv, by decide +kernel⟩
/-- The split of partition 7 of the east half after a write, with every way free. -/
def splitOf (v : Word) : Option (Nat × Nat) := splitFor (regPut (wr rState (R.LLM_WAYMAP 1) 0xFFFFFFFFFFFFFFFF) (R.LLM_PART_CFG 1 7) v) 1 7 v
/-- CacheSplitsAndRegulators: a split that is pending and none; one that fits and one that asks for more ways than there are; settings that are bad and good. -/
theorem witness_CacheSplitsAndRegulators :
    rdf (wr rState (R.LLM_PART_CFG 1 7) 0x4000000000000000) (R.LLM_PART_CFG 1 7) 62 1 = 1 ∧ rdf rState (R.LLM_PART_CFG 1 7) 62 1 = 0 ∧ splitOf 0x800000000000001F = none ∧ (splitOf 0x8000000000000010).isSome = true ∧
    sget none rState.llmPend 15 = none ∧ sget none ({ rState with llmPend := [(15, some (3, 4, 4, 0))] } : State).llmPend 15 = some (3, 4, 4, 0) ∧ issuing rState = true ∧
    8000 < fld (0x3FFF : Word) 0 14 ∧ ((List.range 8).map (fun q => if q = 7 then fld (0 : Word) 0 14 else rdf rState (R.RGL_PART 1 q) 0 14)).sum ≤ 8000 := by and_intros <;> decide +kernel
/-- MemoryErrors: the first line of a half, whose patrol is due and not, with and without poison; a row in use and none. -/
theorem witness_MemoryErrors : region (0 * 64) = .hbm 0 0 ∧ 0 + 64 ≤ halfGib rState 0 * 2 ^ 30 ∧ 0 / 64 = (sget (0, 0) rState.patrol 0).2 ∧ (sget (0, 0) rState.patrol 0).1 ≤ rState.ltc.toNat ∧
    rState.ltc.toNat < (sget (0, 0) ({ rState with patrol := [(0, 1, 0)] } : State).patrol 0).1 ∧ 0 ∉ rState.poison ∧
    bitw (rd (wr rState (R.MEM_REMAP 1 8191) 0x8000000000000000) (R.MEM_REMAP 1 8191)) 63 = true ∧ bitw (rd rState (R.MEM_REMAP 1 8191)) 63 = false := by and_intros <;> decide +kernel
/-- The system pool of the east half with one group of channels, some of whose lines are counted, at the end of its window. -/
def hotState (n : Nat) : State := { wr rState (R.MEM_PART_CFG 1 8) 0x8000006000000001 with ltc := 0xFFFFFFFFFFFFFFFF, chanLines := sset 0 [] (17 * 192 + 3) n }
/-- MemoryErrors: a channel above its share and all within it; a window that has and has not ended. -/
theorem witness_HotChannels : bitw (rd (hotState 9) (R.MEM_PART_CFG 1 8)) 63 = true ∧ ownerChans (hotState 9) 1 8 = [0, 1, 2, 3, 4, 5, 6, 7] ∧ issuing (hotState 9) = true ∧
    sget 0 (hotState 9).hotAt 17 + max 1 (rdf (hotState 9) (R.MEM_HOT_CFG 1) 16 16) * 1000 ≤ (hotState 9).ltc.toNat ∧ rState.ltc.toNat < sget 0 rState.hotAt 17 + max 1 (rdf rState (R.MEM_HOT_CFG 1) 16 16) * 1000 ∧
    max 2 (rdf (hotState 9) (R.MEM_HOT_CFG 1) 0 4) * ((ownerChans (hotState 9) 1 8).map (fun c => sget 0 (hotState 9).chanLines (17 * 192 + c) + nth [1] c)).sum < (sget 0 (hotState 9).chanLines (17 * 192 + 3) + nth [1] 3) * 8 ∧
    (∀ c ∈ ownerChans (hotState 0) 1 8, sget 0 (hotState 0).chanLines (17 * 192 + c) + nth [] c = 0) := by and_intros <;> decide +kernel
/-- FatalErrors: a package in the fatal state and one that is not. -/
theorem witness_FatalErrors : pwrState (wr rState R.PWR_STAT 4) = 4 ∧ pwrState rState ≠ 4 := by decide +kernel
/-- The package at the end of time. -/
def lateState : State := { rState with ltc := 0xFFFFFFFFFFFFFFFF }
/-- WatchAndSummaries: windows that have and have not passed, with and without a corrected count. -/
theorem witness_WatchAndSummaries : rState.ltc.toNat < rState.watchAt + max 1 (rdf rState R.CKP_WATCH 32 16) * 1000000 ∧ rState.ltc.toNat < rState.ceAt + max 1 (rdf rState R.BBX_CFG 0 16) * 1000000000 ∧
    lateState.watchAt + max 1 (rdf lateState R.CKP_WATCH 32 16) * 1000000 ≤ lateState.ltc.toNat ∧ lateState.ceAt + max 1 (rdf lateState R.BBX_CFG 0 16) * 1000000000 ≤ lateState.ltc.toNat ∧
    (∀ i < 5, nth (ceCounts lateState) i ≤ nth lateState.ceBase i) ∧ nth lateState.ceBase 4 < nth (ceCounts (wr lateState R.PLK_STAT 0x1000F)) 4 := by and_intros <;> decide +kernel
/-- BlackBoxAccess: an I3C target and none; an offset that reads a register, and those of the data registers. -/
theorem witness_BlackBoxAccess : i3cTarget rState = true ∧ i3cTarget State.reset = false ∧ rState.i3cOff < 0x10000 ∧ R.BBX_STAT + rState.i3cOff / 8 * 8 ≠ R.BBX_DATA_I ∧
    R.BBX_STAT + rState.i3cOff / 8 * 8 ≠ R.BBX_DATA_H ∧ R.BBX_STAT + (R.BBX_DATA_I - R.BBX_STAT) / 8 * 8 = R.BBX_DATA_I ∧ R.BBX_STAT + (R.BBX_DATA_H - R.BBX_STAT) / 8 * 8 = R.BBX_DATA_H := by and_intros <;> decide +kernel
/-- The package with a word in the register of event pin 3. -/
def pinState (v : Word) : State := wr rState (R.BBX_EVT 3) v
/-- EventPins: a pin free, held for the other function, owned by the host and by the service processor. -/
theorem witness_EventPins : rdf rState (R.BBX_EVT 3) 2 2 = 0 ∧ fld (1 : Word) 0 2 = 1 ∧ fld (2 : Word) 0 2 = 2 ∧ rdf (pinState 0xA) (R.BBX_EVT 3) 2 2 = 2 ∧ rdf (pinState 5) (R.BBX_EVT 3) 2 2 = 1 ∧
    rdf (pinState 0x15) (R.BBX_EVT 3) 4 1 = 1 ∧ rdf (pinState 5) (R.BBX_EVT 3) 4 1 = 0 ∧ rdf rState R.BBX_STAT 16 1 = 0 ∧ rdf (wr rState R.BBX_STAT 0x10000) R.BBX_STAT 16 1 = 1 := by and_intros <;> decide +kernel
/-- The package with entry 127 of the east half hashing. -/
def hashState : State := { rState with hashing := [(1, 127)] }
/-- Measurement: an entry that hashes and one that does not, valid and not; with no extension waiting, with its own, and with one before it. -/
theorem witness_Measurement : rState.hashing.contains (1, 127) = false ∧ (0x8000000000000000 : Word).getLsbD 63 = true ∧ bitw (rd rState (R.SEC_MEAS 1 127 0)) 63 = false ∧
    bitw (rd (wr rState (R.SEC_MEAS 1 127 0) 0x8000000000000000) (R.SEC_MEAS 1 127 0)) 63 = true ∧ hashState.hashing.contains (1, 127) = true ∧ hashState.chainQ = [] ∧
    (next (.secMeasGo 1 127 0x8000000000000000) rState).chainQ.all (fun e => e.h == 1 && e.i == 127 && e.dig == none) = true := by and_intros <;> decide +kernel
/-- Sessions: no report and one to admit on, a switch that is pending and none. A peer of 0 gives the secret 0. -/
theorem witness_Sessions : rState.eph = none ∧ ({ rState with eph := some 5 } : State).eph = some 5 ∧ rState.admitting = none ∧ ({ rState with admitting := some ⟨1, 2, 3⟩ } : State).admitting = some ⟨1, 2, 3⟩ ∧
    x25519 5 (BitVec.ofNat 256 (leNat (regBytes rState (R.SEC_PEER 0) 4))) = 0 := by and_intros <;> decide +kernel
/-- Sessions: a peer of 9 gives another. -/
theorem witness_Peer : x25519 5 (BitVec.ofNat 256 (leNat (regBytes (wr rState (R.SEC_PEER 0) 9) (R.SEC_PEER 0) 4))) ≠ 0 := by decide +kernel
/-- The package in a session. -/
def sesState : State := { wr rState R.SEC_STAT 2 with session := some ⟨1, 2, 3⟩ }
/-- KeySlots: a slot to load with and without a session, of kind 0 and of another. Whether a blob unwraps rests on Config.wrapAad, which no proof can see; witness_GcmTags shows that each outcome has a tag. -/
theorem witness_KeySlots : (0 : Word).getLsbD 62 = false ∧ (0x4000000000000000 : Word).getLsbD 62 = true ∧ rState.session = none ∧ sesState.session = some ⟨1, 2, 3⟩ ∧ rdf sesState R.SEC_STAT 1 1 = 1 ∧
    fld (0x4000000000000000 : Word) 0 2 = 0 ∧ fld (0x4000000000000002 : Word) 0 2 ≠ 0 := by decide +kernel
/-- KeySlots: under any authenticated data some tag unwraps a blob and some tag does not. -/
theorem witness_GcmTags (key iv aad ct : List Byte) : (∃ tag, gcmOpen key iv aad ct tag ≠ none) ∧ (∃ tag, gcmOpen key iv aad ct tag = none) :=
  ⟨⟨_, by rw [gcmOpen, if_pos rfl]; exact Option.some_ne_none _⟩,
   ⟨0 :: gcmTag key iv aad ct, by rw [gcmOpen, if_neg (fun h => absurd (congrArg List.length h) (by rw [List.length_cons]; omega))]⟩⟩
/-- The package while partition 7 is scrubbed. -/
def scrubS : State := { wState with scrubs := [⟨7, 0, 0, 0⟩] }
/-- ReleaseAndScrub: a partition with a context, one that is busy and one to release; a scrub that runs and one whose time has passed. -/
theorem witness_ReleaseAndScrub : (0x8000000000000007 : Word).getLsbD 63 = true ∧ ctxsOf rState 0 ≠ [] ∧ ctxsOf rState 7 = [] ∧ bitw (rd (wr rState R.SEC_SCRUB 0x80) R.SEC_SCRUB) 7 = true ∧
    ckpPhase rState 7 ∉ [1, 2, 3, 6] ∧ bitw (rd rState R.SEC_SCRUB) 7 = false ∧ rState.scrubs.find? (fun c => c.part == 7) = none ∧ scrubS.scrubs.find? (fun c => c.part == 7) = some ⟨7, 0, 0, 0⟩ ∧
    scrubS.ltc.toNat < 0 + scrubNs scrubS ∧ 0 + scrubNs scrubS ≤ ({ scrubS with ltc := 67108864 } : State).ltc.toNat := by and_intros <;> decide +kernel
/-- R365, R370, R362, R406: SHA-512 of "abc" (FIPS 180-4). -/
theorem test_sha : (sha512Bytes (asciiBytes "abc")).take 4 = [0xdd, 0xaf, 0x35, 0xa1] := by decide +kernel
/-- R362: the public key of RFC 8032, 7.1. -/
theorem test_ed25519 : (leBytes 32 (edPub (leNat (beBytes 32 0x9d61b19deffd5a60ba844af492ec2cc44449c5697b326919703bac031cae7f60))).toNat).take 4 = [0xd7, 0x5a, 0x98, 0x01] := by decide +kernel
/-- R406: AES-256 (FIPS 197, C.3). -/
theorem test_aes : aesEnc (aesKeys ((List.range 32).map (BitVec.ofNat 8))) (beBytes 16 0x00112233445566778899aabbccddeeff) = beBytes 16 0x8ea2b7ca516745bfeafc49904b496089 := by decide +kernel
/-- R370: X25519 (RFC 7748, 5.2). -/
theorem test_x25519 :
    x25519 (BitVec.ofNat 256 (leNat (beBytes 32 0xa546e36bf0527c9d3b16154b82465edd62144c0ac1fc5a18506a2244ba449ac4)))
      (BitVec.ofNat 256 (leNat (beBytes 32 0xe6db6867583030db3594c1a424b15f7c726624ec26b3353b10a903a6d0ab1c4c))) =
    BitVec.ofNat 256 (leNat (beBytes 32 0xc3da55379de9c6908e94ea4df28d084f32eccf03491c71f754b4075577a28552)) := by decide +kernel

/-- ClockAndRailFaults: a package whose reference is there with and without lock, and is lost; a die above its trip and below it; one without power. -/
theorem witness_ClockAndRailFaults : rState.Inv ∧ rState.refOk = true ∧ unpowered rState = false ∧ pwrState rState ≠ 4 ∧ rdf (wr rState R.CLK_STATUS 1) R.CLK_STATUS 0 1 = 1 ∧
    rdf (wr rState R.CLK_STATUS 0) R.CLK_STATUS 0 1 = 0 ∧ ({ rState with refOk := false } : State).refOk = false ∧ ({ rState with alive := 1 } : State).alive = 1 ∧ rState.alive ≠ 1 ∧
    rdf rState R.PWR_THERM 40 8 * 10 < 65535 ∧ 0 ≤ rdf rState R.PWR_THERM 40 8 * 10 ∧ unpowered { rState with mramLocked := true } = true := ⟨rState_inv, by decide +kernel⟩
/-- A package at DUTY 32 with a cap of 1000. -/
def capState : State := wrf (wrf rState R.PWR_THROTTLE 0 7 32) R.PWR_POWER 48 16 1000
/-- The power of its last ten samples with a new one. -/
def power10 (w : Nat) : Nat := ((w :: capState.powHist).take 10).sum
/-- PowerAndHeat: power above the cap, well below it and between; temperatures below the limit, above it and from 105 degrees. -/
theorem witness_PowerAndHeat : issuing capState = true ∧ rdf capState R.PWR_THROTTLE 0 7 = 32 ∧ 1000 * 1 < power10 1001 ∧ power10 100 * 100 < 1000 * 1 * 97 ∧ power10 1000 ≤ 1000 * 1 ∧
    1000 * 1 * 97 ≤ power10 1000 * 100 ∧ capState.dutyAt + 100000 ≤ ({ capState with ltc := 100000 } : State).ltc.toNat ∧ rdf capState R.PWR_THERM 0 16 ≤ rdf capState R.PWR_THERM 32 8 * 10 ∧
    [950].foldl max 0 ≤ 95 * 10 ∧ 95 * 10 < [951].foldl max 0 ∧ [951].foldl max 0 < 1050 ∧ 1050 ≤ [1050, 3].foldl max 0 := by and_intros <;> decide +kernel
/-- RegimeChanges: a write without APPLY, during a change and to a package that runs; a regime of 3; PRECISION with a context and without; PEAK and STEADY, and FRUGAL. -/
theorem witness_RegimeChanges : (0 : Word).getLsbD 63 = false ∧ (rd rState R.PWR_REGIME).getLsbD 62 = false ∧ (rd (wr rState R.PWR_REGIME 0x4000000000000000) R.PWR_REGIME).getLsbD 62 = true ∧
    fld (0x8000000000000003 : Word) 0 2 = 3 ∧ (0x8000000000000100 : Word).getLsbD 8 ≠ (rd rState R.PWR_REGIME).getLsbD 8 ∧ ctxValid rState 0 = true ∧ (∀ x < 64, ctxValid upState x = false) ∧
    fld (rd rState R.PWR_REGIME) 0 2 ≠ 2 ∧ fld (0x8000000000000002 : Word) 0 2 = 2 ∧ (0x8000000000000002 : Word).getLsbD 10 = (rd rState R.PWR_REGIME).getLsbD 10 := by and_intros <;> decide +kernel
/-- A package on its way to FRUGAL. -/
def frugal : State := { wr (wr rState R.PWR_STAT 3) R.PWR_POWER 0x3E8000000000000 with regimeTo := some 2 }
/-- RegimeChanges: a change whose power is low enough, and one that slews. -/
theorem witness_FrugalChange : frugal.regimeTo = some 2 ∧ pwrState frugal = 3 ∧ frugal.hbmHeld = false ∧ meanPower frugal < rdf frugal R.PWR_POWER 48 16 ∧
    ({ frugal with hbmHeld := true } : State).hbmHeld = true ∧ rState.regimeTo = none := by and_intros <;> decide +kernel
/-- TestAccess: a package in each state. That the lock fuse is blown or not is Config.lockFused's answer, which no proof can see. -/
theorem witness_TestAccess : unpowered rState = false ∧ inStage rState 1 = false ∧ confidential rState = false ∧ confidential (wr rState R.PWR_REGIME 0x400) = true ∧ pwrState (wr rState R.PWR_STAT 4) = 4 ∧
    pwrState rState ≠ 4 ∧ rdf (wr rState R.PWR_RAIL 0xFFF) R.PWR_RAIL 1 11 ≠ 0 ∧ rState.debugUsed = false := by and_intros <;> decide +kernel
/-- A package at a stage of start-up. -/
def stg (k : Nat) : State := toStage State.reset k
/-- EarlyStages: each stage with its conditions; slots that do not verify; arbitration lost for the first and for the eighth time. That an image is signed with the fused key rests on Config.imageKey, which no proof can see. -/
theorem witness_EarlyStages : State.reset.Inv ∧ (∀ k < 16, 1 ≤ k → inStage (stg k) k = true) ∧ ({ stg 2 with pwrgood := true } : State).pwrgood = true ∧ (stg 2).refOk = true ∧
    ({ stg 2 with ltc := 10000000 } : State).startAt + 10000000 ≤ 10000000 ∧ (stg 4).noImage = false ∧ (stg 4).i3cWait = none ∧ imageBad (stg 4) slot0 ≠ 0 ∧ pwrState (stg 4) = 1 ∧ unpowered (stg 4) = false ∧
    (stg 4).imgRead = false ∧ (stg 4).i3cTries < 7 ∧ 7 ≤ ({ stg 4 with i3cTries := 7 } : State).i3cTries ∧ ({ stg 4 with i3cWait := some 0 } : State).i3cWait = some 0 ∧ regRow 0x0F0000090000 = none := ⟨reset_inv, by decide +kernel⟩
/-- Channels 0 to n - 1 of a half. -/
def chans (h n : Nat) : List (Nat × Nat) := (List.range n).map (fun c => (h, c))
/-- How many channels of a half a list of failures names. -/
def nFailed (l : List (Nat × Nat)) (h : Nat) : Nat := ((List.range 192).filter (fun c => l.contains (h, c))).length
/-- LateStages: channels that fail within and beyond 32; a stage in time and too late. -/
theorem witness_LateStages : (∃ h < 2, 32 < nFailed (chans 0 33) h) ∧ (∀ h < 2, nFailed (chans 1 32) h ≤ 32) ∧ rdf (wr (stg 7) (R.SCF_PORT_CTL 15) 3) (R.SCF_PORT_CTL 15) 0 2 ≠ 0 ∧ 2 ≤ rdf (stg 10) R.PWR_STAT 4 4 ∧
    (stg 10).startAt + (stageEnd (rdf (stg 10) R.PWR_STAT 4 4) + 100) * 1000000 ≤ ({ stg 10 with ltc := 0xFFFFFFFFFFFFFFFF } : State).ltc.toNat ∧
    (stg 10).ltc.toNat < (stg 10).startAt + (stageEnd (rdf (stg 10) R.PWR_STAT 4 4) + 100) * 1000000 ∧ ({ stg 4 with noImage := true } : State).noImage = true := by and_intros <;> decide +kernel
/-- Resets: a package with and without power, one that may be reset and one that may not, and one on standby. -/
theorem witness_Resets : unpowered (stg 4) = false ∧ unpowered { stg 4 with mramLocked := true } = true ∧ mayReset rState = true ∧ mayReset (stg 4) = false ∧ rState.standby = false ∧ fld (0x5A01 : Word) 8 8 = 0x5A ∧
    (0x5A01 : Word).getLsbD 0 = true ∧ (0x5A02 : Word).getLsbD 1 = true ∧ fld (0x5B01 : Word) 8 8 ≠ 0x5A ∧ ({ stg 4 with noImage := true } : State).noImage = true := by and_intros <;> decide +kernel
/-- RegulatorCycles: a package that runs and one that does not; a partition with a ceiling and no token. -/
theorem witness_RegulatorCycles : rState.Inv ∧ issuing rState = true ∧ issuing State.reset = false ∧ (rglSet (wr rState (R.RGL_PART 1 7) 0x10000) 1 7 false).2.1 ≠ 0 := ⟨rState_inv, by decide +kernel⟩

/-- The package with a module in bay 0, checked or not. -/
def bayS (ready : Bool) : State := setBay rState 0 ⟨some (moduleOf mod0), ready⟩
/-- DrainModules: an empty bay and a module of each width; a bay to check and one in use. -/
theorem witness_DrainModules : (bayOf rState 1).mod = none ∧ mod0.wide = true ∧ ({ mod0 with wide := false } : ModuleIn).wide = false ∧ (bayOf (bayS false) 0).mod = some (moduleOf mod0) ∧ pcieUp (bayS false) = true ∧
    (bayOf (bayS false) 0).ready = false ∧ rdf (bayS false) (R.DRN_BAY 0) 6 1 = 0 ∧ bayUsable (bayS true) 0 = true ∧ baysBusy (bayS true) = false ∧
    baysBusy { bayS true with drnX := [(0, some ⟨false, 0, 0, 0⟩)] } = true ∧ (bayOf (bayS true) 0).ready = true ∧ (bayOf (bayS true) 1).ready = false := by and_intros <;> decide +kernel
/-- The state in which partition 7's area is written. -/
def areaS (v : Word) : State := regPut (bayS true) (R.DRN_AREA 7) v
/-- DrainModules: a poll in time and too early; areas apart, and areas that meet. -/
theorem witness_DrainAreas : rState.ltc.toNat < rState.ledgerAt + 10000000000 ∧ rState.ledgerAt + 10000000000 ≤ ({ rState with ltc := 10000000000 } : State).ltc.toNat ∧
    (∀ q < 8, q ≠ 7 → min (areaSpan (areaS 5) q).2 (areaSpan (areaS 5) 7).2 ≤ max (areaSpan (areaS 5) q).1 (areaSpan (areaS 5) 7).1) := by and_intros <;> decide +kernel
/-- A transfer of partition 0, of a block at an offset. -/
def xfer1 (fill : Bool) (off : Nat) : DrnXfer := ⟨fill, 0x020000000000, off, 1⟩
/-- The package with an area for partition 0. -/
def xferS : State := wr (bayS true) (R.DRN_AREA 0) 0x1000000
/-- DrainModules: a transfer that is refused, that starts, that is bad, that waits, and that ends either way. -/
theorem witness_DrainTransfers : sget none xferS.drnX 0 = none ∧ (0x8000000000000001 : Word).getLsbD 63 = true ∧ xferBad xferS 0 (xfer1 true 0) = none ∧ xferBad xferS 0 (xfer1 false 0) = none ∧
    (xferBad xferS 0 (xfer1 false 512)).isSome = true ∧ (sget none ({ xferS with drnX := [(0, some (xfer1 true 0))] } : State).drnX 0).isSome = true ∧
    xferWaits xferS (xfer1 true 0) = false ∧ (physRead xferS srcDev 0x020000000000 4096).2.2 = false ∧ (physRead { xferS with poison := [0x800000000] } srcDev 0x020000000000 4096).2.2 = true := by and_intros <;> decide +kernel

end Sys2Proof.Tests
end

section
/-! SUPPORT. Bits and fields of words: a field read as the bits it spans, a field replaced as the bits it changes, and the bits that a mask takes away. -/

namespace Sys2Proof.Machine

theorem fld_eq_div_mod (w : Word) (lo n : Nat) : fld w lo n = w.toNat / 2 ^ lo % 2 ^ n := by
  rw [fld, Nat.shiftRight_eq_div_pow]

theorem testBit_fld (w : Word) (lo n i : Nat) : (fld w lo n).testBit i = (decide (i < n) && w.getLsbD (lo + i)) := by
  simp [fld, Nat.testBit_mod_two_pow, Nat.testBit_shiftRight, BitVec.getLsbD]

theorem fieldAndBelow_lt (w : Word) (lo n v : Nat) : 2 ^ lo * (v % 2 ^ n) + w.toNat % 2 ^ lo < 2 ^ (lo + n) := by
  have hv := Nat.mod_lt v (Nat.two_pow_pos n)
  have hl := Nat.mod_lt w.toNat (Nat.two_pow_pos lo)
  calc 2 ^ lo * (v % 2 ^ n) + w.toNat % 2 ^ lo < 2 ^ lo * (v % 2 ^ n + 1) := by rw [Nat.mul_succ]; omega
    _ ≤ 2 ^ lo * 2 ^ n := Nat.mul_le_mul_left _ hv
    _ = 2 ^ (lo + n) := (Nat.pow_add ..).symm

/-- A word with a field replaced: what lies above the field, the field's new value, what lies below it. -/
theorem toNat_putf (w : Word) (lo n v : Nat) (h : lo + n ≤ 64) :
    (putf w lo n v).toNat = 2 ^ (lo + n) * (w.toNat / 2 ^ (lo + n)) + (2 ^ lo * (v % 2 ^ n) + w.toNat % 2 ^ lo) := by
  have hw : w.toNat = 2 ^ (lo + n) * (w.toNat / 2 ^ (lo + n)) + (2 ^ lo * fld w lo n + w.toNat % 2 ^ lo) := by
    have hlow := Nat.div_add_mod w.toNat (2 ^ lo)
    have hfld := Nat.div_add_mod (w.toNat / 2 ^ lo) (2 ^ n)
    rw [Nat.div_div_eq_div_mul, ← Nat.pow_add, ← fld_eq_div_mod] at hfld
    rw [← Nat.add_assoc, Nat.pow_add, Nat.mul_assoc, ← Nat.mul_add, ← Nat.pow_add, hfld, hlow]
  have hhigh : w.toNat / 2 ^ (lo + n) < 2 ^ (64 - (lo + n)) := by
    rw [Nat.div_lt_iff_lt_mul (Nat.two_pow_pos _), ← Nat.pow_add, Nat.sub_add_cancel h]
    exact w.isLt
  have hpart := fieldAndBelow_lt w lo n v
  have hlt : 2 ^ (lo + n) * (w.toNat / 2 ^ (lo + n)) + (2 ^ lo * (v % 2 ^ n) + w.toNat % 2 ^ lo) < 2 ^ 64 :=
    calc _ < 2 ^ (lo + n) * (w.toNat / 2 ^ (lo + n)) + 2 ^ (lo + n) := by omega
      _ = 2 ^ (lo + n) * (w.toNat / 2 ^ (lo + n) + 1) := by ring
      _ ≤ 2 ^ (lo + n) * 2 ^ (64 - (lo + n)) := Nat.mul_le_mul_left _ hhigh
      _ = 2 ^ 64 := by rw [← Nat.pow_add, Nat.add_sub_cancel' h]
  rw [putf, BitVec.toNat_ofNat, Nat.shiftLeft_eq, Nat.shiftLeft_eq, Nat.mul_comm (fld w lo n), Nat.mul_comm (v % 2 ^ n)]
  rw [Nat.mod_eq_of_lt] <;> omega

theorem getLsbD_putf (w : Word) (lo n v i : Nat) (h : lo + n ≤ 64) :
    (putf w lo n v).getLsbD i = if lo ≤ i ∧ i < lo + n then v.testBit (i - lo) else w.getLsbD i := by
  rw [BitVec.getLsbD, toNat_putf w lo n v h, Nat.testBit_two_pow_mul_add _ (fieldAndBelow_lt w lo n v),
    Nat.testBit_two_pow_mul_add _ (Nat.mod_lt _ (Nat.two_pow_pos lo)), Nat.testBit_mod_two_pow, Nat.testBit_mod_two_pow, Nat.testBit_div_two_pow]
  by_cases hbelow : i < lo
  · simp [hbelow, show i < lo + n by omega, show ¬ lo ≤ i by omega, BitVec.getLsbD]
  · by_cases hin : i < lo + n
    · simp [hbelow, hin, show lo ≤ i by omega, show i - lo < n by omega]
    · simp [hin, show i - (lo + n) + (lo + n) = i by omega, BitVec.getLsbD]

theorem fld_putf_same (w : Word) (lo n v : Nat) (h : lo + n ≤ 64) : fld (putf w lo n v) lo n = v % 2 ^ n := by
  refine Nat.eq_of_testBit_eq fun i => ?_
  rw [testBit_fld, getLsbD_putf w lo n v _ h, Nat.testBit_mod_two_pow]
  by_cases hi : i < n <;> simp [hi]

theorem fld_putf_apart (w : Word) (lo n v lo' n' : Nat) (h : lo + n ≤ 64) (hd : lo' + n' ≤ lo ∨ lo + n ≤ lo') :
    fld (putf w lo n v) lo' n' = fld w lo' n' := by
  refine Nat.eq_of_testBit_eq fun i => ?_
  rw [testBit_fld, testBit_fld, getLsbD_putf w lo n v _ h]
  by_cases hi : i < n'
  · rw [if_neg (by omega)]
  · simp [hi]

theorem fld_zero_eq_mod (w : Word) (n : Nat) : fld w 0 n = w.toNat % 2 ^ n := by simp [fld]

/-- Taking a mask's bits out of the number of a word leaves the word without them. -/
theorem ofNat_sub_and (w : Word) (m : Nat) : BitVec.ofNat 64 (w.toNat - (w.toNat &&& m)) = w &&& ~~~ BitVec.ofNat 64 m := by
  have hmask : w.toNat &&& m = (w &&& BitVec.ofNat 64 m).toNat := by
    refine Nat.eq_of_testBit_eq fun i => ?_
    rw [Nat.testBit_and, BitVec.testBit_toNat, BitVec.testBit_toNat, BitVec.getLsbD_and, BitVec.getLsbD_ofNat]
    by_cases hi : i < 64
    · simp [hi]
    · simp [BitVec.getLsbD_of_ge w i (Nat.le_of_not_lt hi)]
  have hle : w &&& BitVec.ofNat 64 m ≤ w := by
    rw [BitVec.le_def, BitVec.toNat_and]
    exact Nat.and_le_left
  have hsplit : w = (w &&& ~~~ BitVec.ofNat 64 m) + (w &&& BitVec.ofNat 64 m) := by
    rw [BitVec.add_eq_or_of_and_eq_zero] <;> ext i <;> simp <;> grind
  rw [hmask, ← BitVec.toNat_sub_of_le hle, BitVec.ofNat_toNat, BitVec.setWidth_eq]
  exact BitVec.sub_eq_iff_eq_add.2 hsplit

end Sys2Proof.Machine
end

section
/-! SUPPORT. Reading registers back: after a field is written, and after a store under the access codes of R8. -/

namespace Sys2Proof.Machine

theorem wrf_inv {s : State} (a lo n v : Nat) (h : s.Inv) : (wrf s a lo n v).Inv := wr_inv _ _ h
theorem regPut_inv {s : State} (a : Nat) (v : Word) (h : s.Inv) : (regPut s a v).Inv := (regPut_kept s a v (inv_kept h)).2

@[simp] theorem wrf_mem (s : State) (a lo n v : Nat) : (wrf s a lo n v).mem = s.mem := rfl

theorem rd_wrf_same {s : State} (h : s.Inv) (a lo n v : Nat) : rd (wrf s a lo n v) a = putf (rd s a) lo n v := rd_wr_same h a _
theorem rd_wrf_ne {s : State} (h : s.Inv) {a b : Nat} (lo n v : Nat) (hb : b ≠ a) : rd (wrf s a lo n v) b = rd s b := rd_wr_ne h _ hb

theorem rdf_wrf_same {s : State} (h : s.Inv) (a lo n v : Nat) (hw : lo + n ≤ 64) : rdf (wrf s a lo n v) a lo n = v % 2 ^ n := by
  rw [rdf, rd_wrf_same h, fld_putf_same _ _ _ _ hw]
theorem rdf_wrf_apart {s : State} (h : s.Inv) (a lo n v lo' n' : Nat) (hw : lo + n ≤ 64) (hd : lo' + n' ≤ lo ∨ lo + n ≤ lo') :
    rdf (wrf s a lo n v) a lo' n' = rdf s a lo' n' := by
  rw [rdf, rd_wrf_same h, fld_putf_apart _ _ _ _ _ _ hw hd, rdf]

theorem regPut_of_none {s : State} {a : Nat} (v : Word) (h : regRow a = none) : regPut s a v = s := by simp [regPut, h]

/-- R8: what a stored value makes of a register: the bits it changes are those of the row's read-write and write-one-to-clear masks. -/
def RegRow.stored (r : RegRow) (old v : Word) : Word :=
  (old &&& ~~~(BitVec.ofNat 64 r.rw ||| BitVec.ofNat 64 r.w1c)) ||| (v &&& BitVec.ofNat 64 r.rw) ||| (old &&& BitVec.ofNat 64 r.w1c &&& ~~~v)

theorem regPut_of_some {s : State} {a : Nat} {r : RegRow} (v : Word) (h : regRow a = some r) : regPut s a v = wr s a (r.stored (rd s a) v) := by
  simp [regPut, h, RegRow.stored]

theorem RegRow.getLsbD_stored (r : RegRow) (old v : Word) {i : Nat} (hi : i < 64) :
    (r.stored old v).getLsbD i =
      (old.getLsbD i && !(r.rw.testBit i || r.w1c.testBit i) || v.getLsbD i && r.rw.testBit i || old.getLsbD i && r.w1c.testBit i && !v.getLsbD i) := by
  simp only [RegRow.stored, BitVec.getLsbD_or, BitVec.getLsbD_and, BitVec.getLsbD_not, BitVec.getLsbD_ofNat, hi, decide_true, Bool.true_and]

theorem rd_regPut_same {s : State} (h : s.Inv) {a : Nat} {r : RegRow} (v : Word) (hr : regRow a = some r) :
    rd (regPut s a v) a = r.stored (rd s a) v := by
  rw [regPut_of_some v hr, rd_wr_same h]

theorem rd_regPut_ne {s : State} (h : s.Inv) {a b : Nat} (v : Word) (hb : b ≠ a) : rd (regPut s a v) b = rd s b := by
  cases hr : regRow a with
  | none => rw [regPut_of_none v hr]
  | some r => rw [regPut_of_some v hr, rd_wr_ne h _ hb]

end Sys2Proof.Machine
end

section
/-! The package after reset (R8, R240, R399, R415, R426). -/

namespace Sys2Proof.Machine

theorem memByte_reset (a : Nat) : memByte State.reset a = 0 := rfl
theorem rd_reset (a : Nat) : rd State.reset a = regReset a := rfl

/-- Settles O4: with nothing listed, memory reads zero and every register its reset value, which the rows of the register map give. -/
theorem resetHasInvariant : Obligations.ResetHasInvariant :=
  ⟨Tests.reset_inv, rfl, rfl, memByte_reset, rd_reset, by decide, by decide, by decide, by decide, by decide⟩

end Sys2Proof.Machine
end

section
/-! Registers of the fabric that are put in force or refused: domains, the slot split and windows (R257, R268, R269). -/

namespace Sys2Proof.Machine

/-- R269: the other partition whose domain ID is in force and equals this one. -/
def domainClash (s : State) (p id : Nat) : Option Nat :=
  (List.range 8).find? (fun q => q != p && bitw (rd s (R.SCF_DOMAIN q)) 63 && rdf s (R.SCF_DOMAIN q) 0 16 == id)

/-- R269: a write of SCF_DOMAIN asks for a valid ID that may not be put in force. -/
def domainRefused (s : State) (p : Nat) (v : Word) : Bool :=
  bitw v 63 && (v.toNat % 65536 == 0 || (domainClash s p (v.toNat % 65536)).isSome)

theorem exec_scfDomainWrite {s : State} {p : Nat} (v : Word) (hp : p < 8) :
    exec (.scfDomainWrite p v) s = .next (if domainRefused s p v then
      let s1 := wr s R.SCF_CFG_ERR (BitVec.ofNat 64 (0x30 + p * 256 + 2 ^ 63))
      conflict s1 0 p ((domainClash s p (v.toNat % 65536)).getD p) p (some p) (rd s1 R.SCF_CFG_ERR)
    else regPut s (R.SCF_DOMAIN p) v) := by
  show execScfDomainWrite p v s = _
  simp [execScfDomainWrite, Nat.not_le.2 hp, domainRefused, domainClash, fld_zero_eq_mod, Nat.shiftLeft_eq]

/-- R268: the slot split takes the lesser of 4,096 and the value asked for, and gives the rest to its other part. -/
theorem exec_scfSlotSplitWrite {s : State} (h : s.Inv) (v : Word) :
    ∃ u, exec (.scfSlotSplitWrite v) s = .next u ∧ rdf u R.SCF_SLOT_SPLIT 0 13 = min 4096 (v.toNat % 8192) ∧
      rdf u R.SCF_SLOT_SPLIT 0 13 + rdf u R.SCF_SLOT_SPLIT 16 13 = 4096 ∧ (∀ a, a ≠ R.SCF_SLOT_SPLIT → rd u a = rd s a) ∧ u.mem = s.mem := by
  have hs := wrf_inv R.SCF_SLOT_SPLIT 0 13 (min 4096 (fld v 0 13)) h
  refine ⟨_, rfl, ?_, ?_, fun a ha => ?_, rfl⟩
  · rw [rdf_wrf_apart hs _ _ _ _ _ _ (by omega) (by omega), rdf_wrf_same h _ _ _ _ (by omega), fld_zero_eq_mod]
    omega
  · rw [rdf_wrf_apart hs _ _ _ _ _ _ (by omega) (by omega), rdf_wrf_same h _ _ _ _ (by omega), rdf_wrf_same hs _ _ _ _ (by omega)]
    omega
  · rw [rd_wrf_ne hs _ _ _ ha, rd_wrf_ne h _ _ _ ha]

theorem exec_winEntryWord1Write (s : State) {i : Nat} (v : Word) (hi : i < 2097152) :
    exec (.winEntryWord1Write i v) s = .next { s with winHeld := sset none s.winHeld i (some v) } := by
  show execWinEntryWord1Write i v s = _
  simp [execWinEntryWord1Write, Nat.not_le.2 hi]

theorem exec_winEntryWord0Write_of_none {s : State} {i : Nat} (v : Word) (hi : i < 2097152) (hw : sget none s.winHeld i = none) :
    exec (.winEntryWord0Write i v) s = .next (regPut s (R.WIN_ENTRY0 i) v) := by
  show execWinEntryWord0Write i v s = _
  simp [execWinEntryWord0Write, Nat.not_le.2 hi, hw]

theorem exec_winEntryWord0Write_of_some {s : State} {i : Nat} {w : Word} (v : Word) (hi : i < 2097152) (hw : sget none s.winHeld i = some w) :
    exec (.winEntryWord0Write i v) s =
      .next (regPut (regPut { s with winHeld := sset none s.winHeld i none } (R.WIN_ENTRY1 i) w) (R.WIN_ENTRY0 i) v) := by
  show execWinEntryWord0Write i v s = _
  simp [execWinEntryWord0Write, Nat.not_le.2 hi, hw]

theorem fabricRegisterWrites : Sys2Proof.Parts.FabricRegisterWrites := by
  intro s v h
  refine ⟨fun p hp => ⟨fun hok => ?_, fun (hv : bitw v 63 = true) hbad => ?_⟩, exec_scfSlotSplitWrite h v, fun i hi => exec_winEntryWord1Write s v hi,
    fun i hi hw => exec_winEntryWord0Write_of_none v hi hw, fun i w hi hw => exec_winEntryWord0Write_of_some v hi hw⟩
  · have hfree : domainRefused s p v = false := by
      rcases hok with (hv : bitw v 63 = false) | ⟨hid, hclash⟩
      · simp [domainRefused, hv]
      · have : domainClash s p (v.toNat % 65536) = none := hclash
        simp [domainRefused, hid, this]
    simp [exec_scfDomainWrite v hp, hfree]
  · have hrefused : domainRefused s p v = true := by
      rcases hbad with hid | hclash
      · simp [domainRefused, hv, hid]
      · have : domainClash s p (v.toNat % 65536) ≠ none := hclash
        simp [domainRefused, hv, Option.isSome_iff_ne_none, this]
    rw [exec_scfDomainWrite v hp, if_pos hrefused]
    rfl

end Sys2Proof.Machine
end

section
/-! Collective groups, trigger entries and counters (R285, R290, R291, R306). -/

namespace Sys2Proof.Machine

theorem exec_colGroupValid_of_valid {s : State} {g : Nat} (v : Word) (hg : g < 1024) (hval : gValid s g = true) :
    exec (.colGroupValid g v) s =
      .next (if bitw v 63 = true ∨ putf v 63 1 1 ≠ rd s (R.COL_GROUP g) then s else wrf s (R.COL_GROUP g) 63 1 0) := by
  show execColGroupValid g v s = _
  simp [execColGroupValid, Nat.not_le.2 hg, hval]

/-- R285: VALID is checked as it rises. -/
theorem exec_colGroupValid_of_invalid {s : State} {g : Nat} (v : Word) (hg : g < 1024) (hval : gValid s g = false) :
    exec (.colGroupValid g v) s = .next (
      let s1 := regPut s (R.COL_GROUP g) v
      if bitw v 63 = false then s1
      else if groupOk s1 g = true then { wrf s1 (R.COL_GSEQ g) 32 32 0 with collEnds := s1.collEnds.filter (fun e => e.1 ≠ g) }
      else wr (wrf s1 (R.COL_GROUP g) 63 1 0) R.COL_CFG_ERR (BitVec.ofNat 64 (0x10 + g * 65536 + 2 ^ 63))) := by
  show execColGroupValid g v s = _
  simp [execColGroupValid, Nat.not_le.2 hg, hval, Nat.shiftLeft_eq]

/-- R306: the state that a refused trigger entry leaves. -/
def trigStays (s : State) (t st : Nat) : State :=
  wr (wrf s (R.COL_TRIG t 0) 0 1 0) R.COL_CFG_ERR (BitVec.ofNat 64 (st + t * 65536 + 2 ^ 29 + 2 ^ 63))

section
variable {s : State} {t : Nat} {v : Word} (ht : t < 8192)
include ht

theorem exec_colTrigValid_of_clear (hv : bitw v 0 = false) : exec (.colTrigValid t v) s = .next (regPut s (R.COL_TRIG t 0) v) := by
  show execColTrigValid t v s = _
  simp [execColTrigValid, Nat.not_le.2 ht, hv]

/-- R291, R306: an entry that was valid, or may be, fires where its counter makes it due. -/
theorem exec_colTrigValid_of_ok (hv : bitw v 0 = true)
    (hok : bitw (rd s (R.COL_TRIG t 0)) 0 = true ∨ trigRefused (regPut s (R.COL_TRIG t 0) v) (trigWords (regPut s (R.COL_TRIG t 0) v) t) = none) :
    exec (.colTrigValid t v) s = .next (fireCounter (regPut s (R.COL_TRIG t 0) v) (fld v 8 11)) := by
  show execColTrigValid t v s = _
  rcases hok with hwas | hnone
  · simp [execColTrigValid, Nat.not_le.2 ht, hv, hwas]
  · simp [execColTrigValid, Nat.not_le.2 ht, hv, hnone]

theorem exec_colTrigValid_of_refused {st : Nat} (hv : bitw v 0 = true) (hwas : bitw (rd s (R.COL_TRIG t 0)) 0 = false)
    (hst : trigRefused (regPut s (R.COL_TRIG t 0) v) (trigWords (regPut s (R.COL_TRIG t 0) v) t) = some st) :
    exec (.colTrigValid t v) s = .next (
      let s2 := trigStays (regPut s (R.COL_TRIG t 0) v) t st
      let ctx := fld v 2 6
      if st = 0x30 then conflict s2 0 (t % 256) 0 ctx (if ctxValid s ctx then some (partOf s ctx) else none) (rd s2 R.COL_CFG_ERR) else s2) := by
  show execColTrigValid t v s = _
  simp [execColTrigValid, Nat.not_le.2 ht, hv, hwas, hst, trigStays, Nat.shiftLeft_eq]

/-- A refused entry leaves the definition of every context. -/
theorem rd_trigStays_ctxdef (h : s.Inv) (st ctx : Nat) (hctx : ctx < 64) :
    rd (trigStays (regPut s (R.COL_TRIG t 0) v) t st) (R.DSP_CTXDEF ctx) = rd s (R.DSP_CTXDEF ctx) := by
  have hp := regPut_inv (R.COL_TRIG t 0) v h
  have herr : R.DSP_CTXDEF ctx ≠ R.COL_CFG_ERR := by unfold R.DSP_CTXDEF R.COL_CFG_ERR; omega
  have htrig : R.DSP_CTXDEF ctx ≠ R.COL_TRIG t 0 := by unfold R.DSP_CTXDEF R.COL_TRIG; omega
  rw [trigStays, rd_wr_ne (wrf_inv _ _ _ _ hp) _ herr, rd_wrf_ne hp _ _ _ htrig, rd_regPut_ne h _ htrig]

end

theorem exec_colTadd (s : State) (ctx n : Nat) (v : Word) :
    exec (.colTadd ctx n v) s = .next (if ownsCtr s ctx n = true then counterAdd s n (v.toNat % 2 ^ 32) else s) := by
  show execColTadd ctx n v s = _
  rw [execColTadd, fld_zero_eq_mod]

theorem groupsAndTriggers : Sys2Proof.Parts.GroupsAndTriggers := by
  intro s v h
  refine ⟨fun g hg hval (hv : bitw v 63 = false) hsame => ?_, fun g hg hval (hother : bitw v 63 = true ∨ _) => ?_,
    fun g hg hval => ⟨fun (hv : bitw v 63 = false) => ?_, fun (hv : bitw v 63 = true) hok => ?_, fun (hv : bitw v 63 = true) hbad => ?_⟩,
    fun t ht => ⟨fun hv => exec_colTrigValid_of_clear ht hv, fun hv hok => ?_, fun hv hwas hst => ?_, fun hv hwas hst => ?_⟩,
    fun ctx n hown => ?_, fun ctx n hown => ?_⟩
  · rw [exec_colGroupValid_of_valid v hg hval, if_neg (by simp [hv, hsame])]
  · rw [exec_colGroupValid_of_valid v hg hval, if_pos hother]
  · rw [exec_colGroupValid_of_invalid v hg hval, if_pos hv]
  · rw [exec_colGroupValid_of_invalid v hg hval, if_neg (by simp [hv]), if_pos hok]
  · rw [exec_colGroupValid_of_invalid v hg hval, if_neg (by simp [hv]), if_neg (by simp [hbad])]
  · rw [exec_colTrigValid_of_ok ht hv hok, fld_eq_div_mod]
    rfl
  · rw [exec_colTrigValid_of_refused ht hv hwas hst]
    rfl
  · have hctx : fld v 2 6 = v.toNat / 4 % 64 := fld_eq_div_mod v 2 6
    have hdef := rd_trigStays_ctxdef (v := v) ht h 0x30 (v.toNat / 4 % 64) (Nat.mod_lt _ (by omega))
    rw [exec_colTrigValid_of_refused ht hv hwas hst, hctx, if_pos rfl, ctxValid, partOf, rdf, ← hdef]
    rfl
  · rw [exec_colTadd, if_pos hown]
  · rw [exec_colTadd, if_neg (by simp [hown])]

/-- Settles O35: each write has one equation for each of its outcomes, and the two parts pick the outcome their conditions name. -/
theorem fabricAndGroupRegisters : Obligations.FabricAndGroupRegisters := ⟨fabricRegisterWrites, groupsAndTriggers⟩

end Sys2Proof.Machine
end

section
/-! Register stores and loads by the host (R8, R24, R25, R243, R329, R377). -/

namespace Sys2Proof.Machine

theorem regBad_isSome (s : State) (a n : Nat) : (regBad s a n).isSome = true ↔ n ≠ 8 ∨ a % 8 ≠ 0 ∨ regBlockExists (nCores s) a = false := by
  unfold regBad
  split_ifs with hshape hblock
  · exact iff_of_true rfl (hshape.imp_right .inl)
  · exact iff_of_false (by simp) (by simp_all)
  · exact iff_of_true rfl (.inr (.inr (by simpa using hblock)))

theorem regBad_of_aligned {s : State} {a : Nat} (ha : a % 8 = 0) (hblock : regBlockExists (nCores s) a = true) : regBad s a 8 = none := by
  simp [regBad, ha, hblock]

theorem offer_eq_arch {s : State} {x : Xact} (h : x.line = none) : offer s x = { s with arch := (offer s x).arch } := by
  have hhome : offerHome s x = respond s x := by simp [offerHome, metered, h]
  unfold offer
  rw [hhome]
  unfold respond
  split_ifs <;> rfl

/-- R243, R244: a message waits at the arch links and moves nothing else. -/
theorem moveMsg_eq_arch (s : State) (src : Src) (home bytes : Nat) (write : Bool) :
    moveMsg s src home bytes write = { s with arch := (moveMsg s src home bytes write).arch } := by
  unfold moveMsg
  split_ifs
  · rfl
  · exact offer_eq_arch rfl

section
variable (s : State) (src : Src) (home bytes : Nat) (write : Bool)
@[simp] theorem moveMsg_regs : (moveMsg s src home bytes write).regs = s.regs := by rw [moveMsg_eq_arch]
@[simp] theorem moveMsg_ltc : (moveMsg s src home bytes write).ltc = s.ltc := by rw [moveMsg_eq_arch]
@[simp] theorem rd_moveMsg (a : Nat) : rd (moveMsg s src home bytes write) a = rd s a := by rw [rd, moveMsg_regs, rd]
@[simp] theorem confidential_moveMsg : confidential (moveMsg s src home bytes write) = confidential s := by
  rw [confidential, rd_moveMsg, confidential]
end

section
variable {s : State} {a : Nat} (hopen : plkOpen s = true) (hreg : region a = .reg)
include hopen hreg

theorem exec_registerWrite_done (v : Word) (hbar : hostBarred s a = false) (ha : a % 8 = 0) (hblock : regBlockExists (nCores s) a = true) :
    exec (.registerWrite a 8 v) s = .next (toHost (regStore (moveMsg s srcHost (regHome a) 8 true) a v) (.answer a [] true)) := by
  show execRegisterWrite a 8 v s = _
  simp [execRegisterWrite, hostRegStore, hopen, hreg, hbar, regBad_of_aligned ha hblock]

omit hreg in
theorem exec_registerWrite_refused {n : Nat} (v : Word)
    (hbad : hostBarred s a = true ∨ n ≠ 8 ∨ a % 8 ≠ 0 ∨ regBlockExists (nCores s) a = false) :
    exec (.registerWrite a n v) s = .next (toHost s (.answer a [] false)) := by
  show execRegisterWrite a n v s = _
  rw [← regBad_isSome] at hbad
  rcases hbad with hbar | hshape
  · simp [execRegisterWrite, hostRegStore, hopen, hbar]
  · simp [execRegisterWrite, hostRegStore, hopen, hshape]

/-- R25: a host write of an aligned register address is a store to that register. -/
theorem exec_hostWrite_reg (bs : List Byte) (hold : Nat) (hlen : bs.length = 8) (ha : a % 8 = 0) :
    exec (.hostWrite a bs hold) s = exec (.registerWrite a 8 (BitVec.ofNat 64 (leNat bs))) s := by
  have hne : bs.isEmpty = false := by cases bs <;> simp_all
  show execHostWrite a bs hold s = execRegisterWrite a 8 _ s
  simp [execHostWrite, execRegisterWrite, hopen, hreg, hlen, hne, show ¬ 64 < a % 64 + 8 by omega]

theorem exec_hostRead_refused {n : Nat} (hold : Nat) (hn : n ≠ 0) (hline : a % 64 + n ≤ 64)
    (hbad : hostBarred s a = true ∨ n ≠ 8 ∨ a % 8 ≠ 0 ∨ regBlockExists (nCores s) a = false) :
    exec (.hostRead a n hold) s = .next (toHost s (.answer a [] false)) := by
  show execHostRead a n hold s = _
  rw [← regBad_isSome] at hbad
  rcases hbad with hbar | hshape
  · simp [execHostRead, hopen, hn, Nat.not_lt.2 hline, hbar]
  · simp [execHostRead, hopen, hn, Nat.not_lt.2 hline, hreg, hshape]

theorem exec_hostRead_done (hold : Nat) (hbar : hostBarred s a = false) (ha : a % 8 = 0) (hblock : regBlockExists (nCores s) a = true) :
    exec (.hostRead a 8 hold) s = .next (
      let r := regLoad (moveMsg s srcHost (regHome a) 8 false) a
      toHost r.1 (.answer a (leBytes 8 r.2.toNat) true)) := by
  show execHostRead a 8 hold s = _
  simp [execHostRead, hopen, hbar, hreg, regBad_of_aligned ha hblock, show ¬ 64 < a % 64 + 8 by omega]

end

/-- R377: a counter that CONFIDENTIAL hides reads zero. -/
theorem regLoad_hidden {s : State} {a : Nat} (hc : confidential s = true) (hh : hiddenReg a = true) : regLoad s a = (s, 0) := by
  simp [regLoad, hc, hh]

theorem regLoad_shown {s : State} {a : Nat} (hvis : confidential s = false ∨ hiddenReg a = false) (hH : a ≠ R.BBX_DATA_H) (hI : a ≠ R.BBX_DATA_I)
    (hclaim : ∀ p < 8, a ≠ R.DSP_LOGCLAIM p) : regLoad s a = (s, BitVec.ofNat 64 (regView s a)) := by
  have hvis' : (confidential s && hiddenReg a) = false := Bool.and_eq_false_iff.2 hvis
  have hno : ¬ (R.DSP_LOGCLAIM 0 ≤ a ∧ a < R.DSP_LOGCLAIM 8 ∧ nsub a (R.DSP_LOGCLAIM 0) % 0x20 = 0) := by
    rintro ⟨hlo, hhi, hmod⟩
    rw [nsub_eq] at hmod
    refine hclaim ((a - R.DSP_LOGCLAIM 0) / 0x20) ?_ ?_ <;> unfold R.DSP_LOGCLAIM at * <;> omega
  rw [regLoad, hvis', if_neg (by simp), if_neg hH, if_neg hI, if_neg hno]

/-- R329: a load of DSP_LOGCLAIM takes the SEQ it answers. -/
theorem regLoad_logclaim (s : State) {p : Nat} (hp : p < 8) :
    regLoad s (R.DSP_LOGCLAIM p) = (wr s (R.DSP_LOGPTR p) (rd s (R.DSP_LOGPTR p) + 1), rd s (R.DSP_LOGPTR p)) := by
  have hhid : hiddenReg (R.DSP_LOGCLAIM p) = false := by interval_cases p <;> decide
  have hdata : R.DSP_LOGCLAIM p ≠ R.BBX_DATA_H ∧ R.DSP_LOGCLAIM p ≠ R.BBX_DATA_I := by
    unfold R.DSP_LOGCLAIM R.BBX_DATA_H R.BBX_DATA_I
    omega
  have hin : R.DSP_LOGCLAIM 0 ≤ R.DSP_LOGCLAIM p ∧ R.DSP_LOGCLAIM p < R.DSP_LOGCLAIM 8 ∧ nsub (R.DSP_LOGCLAIM p) (R.DSP_LOGCLAIM 0) % 0x20 = 0 := by
    rw [nsub_eq]
    unfold R.DSP_LOGCLAIM
    omega
  have hindex : nsub (R.DSP_LOGCLAIM p) (R.DSP_LOGCLAIM 0) / 0x20 = p := by
    rw [nsub_eq]
    unfold R.DSP_LOGCLAIM
    omega
  rw [regLoad, hhid, if_neg (by simp), if_neg hdata.1, if_neg hdata.2, if_pos hin, hindex]

/-- R8: what a register that shows no live state reads: its bits without the write-only ones. -/
def regPlain (s : State) (a : Nat) : Word := rd s a &&& ~~~ BitVec.ofNat 64 (match regRow a with | some r => r.wo | none => 0)

/-- On the fabric and memory-side dies only the clock, the reply cache and the collective engine have registers that show live state. -/
theorem regView_plain {s : State} {a : Nat} (hltc : a ≠ R.CLK_LTC) (hcache : a ≠ R.SCF_RCACHE) (hmatch : a ≠ R.COL_MATCH) (hslots : a ≠ R.COL_SLOTS)
    (heng : ¬ ∃ e < 16, a = R.COL_ENG e) (hdie : ¬ 2 < regDie a) : BitVec.ofNat 64 (regView s a) = regPlain s a := by
  have hno : ¬ (R.COL_ENG 0 ≤ a ∧ a < R.COL_ENG 16 ∧ a % 16 = 0) := by
    rintro ⟨hlo, hhi, hmod⟩
    refine heng ⟨(a - R.COL_ENG 0) / 16, ?_, ?_⟩ <;> unfold R.COL_ENG at * <;> omega
  rw [regPlain, ← ofNat_sub_and, regView]
  simp only [hltc, hcache, hmatch, hslots, hno, Nat.not_lt.1 hdie, if_false, if_true]
  split_ifs <;> rfl

theorem regView_ltc (s : State) : regView s R.CLK_LTC = s.ltc.toNat := by
  rw [regView, if_pos (by decide), if_pos rfl]

theorem regStore_dsp (s : State) {a : Nat} (v : Word) (hlo : R.DSP_CFG ≤ a) (hhi : a < R.DSP_CFG + 0x10000) : regStore s a v = storeDsp s a v := by
  unfold R.DSP_CFG at hlo hhi
  have hdie : regDie a = 0 := by rw [regDie, nsub_eq]; omega
  have hoff : regOff a = a - 0xf0000000000 := by rw [regOff, nsub_eq]; omega
  have hbelow : ¬ regOff a < 0x20000 ∧ ¬ regOff a < 0x30000 ∧ ¬ regOff a < 0x40000 ∧ ¬ regOff a < 0x50000 ∧ ¬ regOff a < 0x60000 := by omega
  simp only [regStore, hdie, hbelow, show regOff a < 0x70000 by omega, if_true, if_false]

/-- R333: the registers of the DSP block, contexts and rings apart, below the context sets. -/
theorem storeDsp_plain (s : State) {a : Nat} (v : Word) (hlo : R.DSP_CFG_ERR ≤ a) (hhi : a < R.DSP_RING_SQ 0)
    (hctx : ¬ (R.DSP_CTXDEF 0 ≤ a ∧ a < R.DSP_LOG 0 ∧ a % 0x10 = 0)) : storeDsp s a v = regPut s a v := by
  unfold R.DSP_CFG_ERR R.DSP_RING_SQ R.DSP_CTXDEF R.DSP_LOG at *
  have hown : a ≠ R.DSP_CFG ∧ a ≠ R.DSP_TCTL ∧ a ≠ R.DSP_TLBINV := by
    unfold R.DSP_CFG R.DSP_TCTL R.DSP_TLBINV
    omega
  have hoff : nsub a R.DSP_CFG = a - 0xf0000060000 := nsub_eq _ _
  simp only [storeDsp, hown, hoff, if_false]
  rw [if_neg (by omega), if_neg (by omega), if_neg (by omega)]

/-- R333: DSP_CFG_ERR, DSP_CTXROOT and DSP_LOG have no behaviour of their own. -/
theorem regStore_dsp_plain (s : State) {a : Nat} (v : Word) (h : a = R.DSP_CFG_ERR ∨ (∃ c < 64, a = R.DSP_CTXROOT c) ∨ (∃ p < 8, a = R.DSP_LOG p)) :
    regStore s a v = regPut s a v := by
  have hrange : R.DSP_CFG_ERR ≤ a ∧ a < R.DSP_RING_SQ 0 ∧ ¬ (R.DSP_CTXDEF 0 ≤ a ∧ a < R.DSP_LOG 0 ∧ a % 0x10 = 0) := by
    rcases h with rfl | ⟨c, hc, rfl⟩ | ⟨p, hp, rfl⟩ <;> unfold R.DSP_CFG_ERR R.DSP_RING_SQ R.DSP_CTXDEF R.DSP_LOG
    · omega
    · unfold R.DSP_CTXROOT
      omega
    · omega
  obtain ⟨hlo, hhi, hctx⟩ := hrange
  rw [regStore_dsp, storeDsp_plain s v hlo hhi hctx] <;> unfold R.DSP_CFG R.DSP_CFG_ERR R.DSP_RING_SQ at * <;> omega

theorem registerStores8 : Sys2Proof.Parts.RegisterStores8 := by
  intro s a v h hopen hreg
  refine ⟨fun hbar ha hblock => ⟨exec_registerWrite_done hopen hreg v hbar ha hblock, fun bs hlen hold => exec_hostWrite_reg hopen hreg bs hold hlen ha⟩,
    fun n hbad => exec_registerWrite_refused hopen v hbad, fun r i hr hi => ?_, fun b hb => rd_regPut_ne h v hb, fun hnone => regPut_of_none v hnone, regStore_dsp_plain s v⟩
  rw [rd_regPut_same h v hr, RegRow.getLsbD_stored r _ v hi]
  refine ⟨fun hrw hwc => ?_, fun hwc hrw => ?_, fun hrw hwc => ?_⟩ <;> simp [hrw, hwc]

theorem registerLoads8 : Sys2Proof.Parts.RegisterLoads8 := by
  intro s a hold h hopen hreg
  refine ⟨fun n hn hline hbad => exec_hostRead_refused hopen hreg hold hn hline hbad, fun hbar ha hblock => ?_⟩
  have hread := exec_hostRead_done hopen hreg hold hbar ha hblock
  refine ⟨fun hc hh => ?_, fun hvis hH hI hclaim => ?_, ?_, fun hltc => ?_, fun p hp hclaim => ?_⟩
  · rw [hread, regLoad_hidden (by simpa using hc) hh]
    rfl
  · rw [hread, regLoad_shown (by simpa using hvis) hH hI hclaim]
  · simp only [or_iff_not_imp_left]
    exact fun hltc hcache hmatch hslots heng hdie => regView_plain hltc hcache hmatch hslots heng hdie
  · subst hltc
    rw [hread, regLoad_shown (.inr (by decide)) (by decide) (by decide) (by decide), regView_ltc, moveMsg_ltc, BitVec.ofNat_toNat, BitVec.setWidth_eq]
  · subst hclaim
    rw [hread, regLoad_logclaim _ hp]

/-- Settles O46: an access is answered with an error exactly where it is barred or has no register's shape; else the store acts by R8's masks and the load answers what `regLoad` says of the register. -/
theorem registerAccess : Obligations.RegisterAccess := ⟨registerStores8, registerLoads8⟩

end Sys2Proof.Machine
end

section
/-! The invariant (R21, R24, R35, R59, R183, R232, R317, R338, R388): each row keeps it, and so does every step. -/

namespace Sys2Proof.Machine

/-- Every row's meaning keeps the queue and the canonical form of the stores, each by the law of its own meaning. -/
theorem exec_kept {q : List Instr} (i : Instr) (s : State) (hs : Kept q s) : KOut q (exec i s) :=
  match i with
  | .add t o => execAdd_kept t o s hs
  | .sub t o => execSub_kept t o s hs
  | .mul t o => execMul_kept t o s hs
  | .mulhs t o => execMulhs_kept t o s hs
  | .mulhu t o => execMulhu_kept t o s hs
  | .divs t o => execDivs_kept t o s hs
  | .divu t o => execDivu_kept t o s hs
  | .rems t o => execRems_kept t o s hs
  | .remu t o => execRemu_kept t o s hs
  | .and t o => execAnd_kept t o s hs
  | .or t o => execOr_kept t o s hs
  | .xor t o => execXor_kept t o s hs
  | .shl t o => execShl_kept t o s hs
  | .shr t o => execShr_kept t o s hs
  | .sar t o => execSar_kept t o s hs
  | .mins t o => execMins_kept t o s hs
  | .maxs t o => execMaxs_kept t o s hs
  | .minu t o => execMinu_kept t o s hs
  | .maxu t o => execMaxu_kept t o s hs
  | .cmpeq t o => execCmpeq_kept t o s hs
  | .cmpne t o => execCmpne_kept t o s hs
  | .cmplts t o => execCmplts_kept t o s hs
  | .cmpltu t o => execCmpltu_kept t o s hs
  | .cmples t o => execCmples_kept t o s hs
  | .cmpleu t o => execCmpleu_kept t o s hs
  | .mov t o => execMov_kept t o s hs
  | .movhi t o => execMovhi_kept t o s hs
  | .ld1 t o => execLd1_kept t o s hs
  | .ld2 t o => execLd2_kept t o s hs
  | .ld4 t o => execLd4_kept t o s hs
  | .ld8 t o => execLd8_kept t o s hs
  | .st1 t o => execSt1_kept t o s hs
  | .st2 t o => execSt2_kept t o s hs
  | .st4 t o => execSt4_kept t o s hs
  | .st8 t o => execSt8_kept t o s hs
  | .fld t o => execFld_kept t o s hs
  | .fst t o => execFst_kept t o s hs
  | .fadd t o => execFadd_kept t o s hs
  | .fsub t o => execFsub_kept t o s hs
  | .fmul t o => execFmul_kept t o s hs
  | .fdiv t o => execFdiv_kept t o s hs
  | .fsqrt t o => execFsqrt_kept t o s hs
  | .ffma t o => execFfma_kept t o s hs
  | .fmin t o => execFmin_kept t o s hs
  | .fmax t o => execFmax_kept t o s hs
  | .fcmpeq t o => execFcmpeq_kept t o s hs
  | .fcmplt t o => execFcmplt_kept t o s hs
  | .fcmple t o => execFcmple_kept t o s hs
  | .fcvti t o => execFcvti_kept t o s hs
  | .fcvtf t o => execFcvtf_kept t o s hs
  | .fmovx t o => execFmovx_kept t o s hs
  | .fmovf t o => execFmovf_kept t o s hs
  | .pand t o => execPand_kept t o s hs
  | .por t o => execPor_kept t o s hs
  | .pxor t o => execPxor_kept t o s hs
  | .pnot t o => execPnot_kept t o s hs
  | .pset t o => execPset_kept t o s hs
  | .rdltc t o => execRdltc_kept t o s hs
  | .rdnstat t o => execRdnstat_kept t o s hs
  | .nstclr t o => execNstclr_kept t o s hs
  | .rdctr t o => execRdctr_kept t o s hs
  | .rdid t o => execRdid_kept t o s hs
  | .br t o => execBr_kept t o s hs
  | .jal t o => execJal_kept t o s hs
  | .jr t o => execJr_kept t o s hs
  | .endProg t o => execEndProg_kept t o s hs
  | .nop t o => execNop_kept t o s hs
  | .trace t o => execTrace_kept t o s hs
  | .setc t o => execSetc_kept t o s hs
  | .wait t o => execWait_kept t o s hs
  | .waitr t o => execWaitr_kept t o s hs
  | .waitd t o => execWaitd_kept t o s hs
  | .waitRelease t => execWaitRelease_kept t s hs
  | .waitdDeadline t => execWaitdDeadline_kept t s hs
  | .fence t o => execFence_kept t o s hs
  | .fenceComplete t => execFenceComplete_kept t s hs
  | .stream t o => execStream_kept t o s hs
  | .sdldB t o => execSdldB_kept t o s hs
  | .sdldE t o => execSdldE_kept t o s hs
  | .sdadd t o => execSdadd_kept t o s hs
  | .copy t o => execCopy_kept t o s hs
  | .rget t o => execRget_kept t o s hs
  | .rput t o => execRput_kept t o s hs
  | .rputf t o => execRputf_kept t o s hs
  | .radd t o => execRadd_kept t o s hs
  | .rmin t o => execRmin_kept t o s hs
  | .rmax t o => execRmax_kept t o s hs
  | .rand t o => execRand_kept t o s hs
  | .ror t o => execRor_kept t o s hs
  | .rxor t o => execRxor_kept t o s hs
  | .rswap t o => execRswap_kept t o s hs
  | .rcas8 t o => execRcas8_kept t o s hs
  | .rcas16 t o => execRcas16_kept t o s hs
  | .mxpassB t o => execMxpassB_kept t o s hs
  | .mxpassE t o => execMxpassE_kept t o s hs
  | .mxswap t o => execMxswap_kept t o s hs
  | .mxend t o => execMxend_kept t o s hs
  | .trsetB t o => execTrsetB_kept t o s hs
  | .trsetE t o => execTrsetE_kept t o s hs
  | .trend t o => execTrend_kept t o s hs
  | .eweRunB t o => execEweRunB_kept t o s hs
  | .eweRunE t o => execEweRunE_kept t o s hs
  | .eweImm t o => execEweImm_kept t o s hs
  | .eweLdp t o => execEweLdp_kept t o s hs
  | .eweLdr t o => execEweLdr_kept t o s hs
  | .eweStr t o => execEweStr_kept t o s hs
  | .eweRexec t o => execEweRexec_kept t o s hs
  | .rduOpB t o => execRduOpB_kept t o s hs
  | .rduOpE t o => execRduOpE_kept t o s hs
  | .rduEnd t o => execRduEnd_kept t o s hs
  | .rduRreg t o => execRduRreg_kept t o s hs
  | .classInstructionAtStation core station => execClassInstructionAtStation_kept core station s hs
  | .setvl t o => execSetvl_kept t o s hs
  | .setvlr t o => execSetvlr_kept t o s hs
  | .vld t o => execVld_kept t o s hs
  | .vldff t o => execVldff_kept t o s hs
  | .vlds t o => execVlds_kept t o s hs
  | .vldx t o => execVldx_kept t o s hs
  | .vldxff t o => execVldxff_kept t o s hs
  | .vldseg t o => execVldseg_kept t o s hs
  | .vrgather t o => execVrgather_kept t o s hs
  | .vst t o => execVst_kept t o s hs
  | .vsts t o => execVsts_kept t o s hs
  | .vstx t o => execVstx_kept t o s hs
  | .vstseg t o => execVstseg_kept t o s hs
  | .vfadd t o => execVfadd_kept t o s hs
  | .vfsub t o => execVfsub_kept t o s hs
  | .vfmul t o => execVfmul_kept t o s hs
  | .vfdiv t o => execVfdiv_kept t o s hs
  | .vfsqrt t o => execVfsqrt_kept t o s hs
  | .vfma t o => execVfma_kept t o s hs
  | .vfmin t o => execVfmin_kept t o s hs
  | .vfmax t o => execVfmax_kept t o s hs
  | .vfcmpeq t o => execVfcmpeq_kept t o s hs
  | .vfcmplt t o => execVfcmplt_kept t o s hs
  | .vfcmple t o => execVfcmple_kept t o s hs
  | .vcvt t o => execVcvt_kept t o s hs
  | .vadd t o => execVadd_kept t o s hs
  | .vsub t o => execVsub_kept t o s hs
  | .vsadd t o => execVsadd_kept t o s hs
  | .vssub t o => execVssub_kept t o s hs
  | .vaadd t o => execVaadd_kept t o s hs
  | .vmul t o => execVmul_kept t o s hs
  | .vmulh t o => execVmulh_kept t o s hs
  | .vmulhq t o => execVmulhq_kept t o s hs
  | .vmin t o => execVmin_kept t o s hs
  | .vmax t o => execVmax_kept t o s hs
  | .vand t o => execVand_kept t o s hs
  | .vor t o => execVor_kept t o s hs
  | .vxor t o => execVxor_kept t o s hs
  | .vshl t o => execVshl_kept t o s hs
  | .vsra t o => execVsra_kept t o s hs
  | .vnshr t o => execVnshr_kept t o s hs
  | .vcmpeq t o => execVcmpeq_kept t o s hs
  | .vcmplt t o => execVcmplt_kept t o s hs
  | .vdot t o => execVdot_kept t o s hs
  | .vaccadd t o => execVaccadd_kept t o s hs
  | .vdotr t o => execVdotr_kept t o s hs
  | .vredsum t o => execVredsum_kept t o s hs
  | .vredmax t o => execVredmax_kept t o s hs
  | .vredmin t o => execVredmin_kept t o s hs
  | .vpcnt t o => execVpcnt_kept t o s hs
  | .vpfirst t o => execVpfirst_kept t o s hs
  | .vmov t o => execVmov_kept t o s hs
  | .viota t o => execViota_kept t o s hs
  | .solveB t o => execSolveB_kept t o s hs
  | .solveE t o => execSolveE_kept t o s hs
  | .lvuWakeDone core => execLvuWakeDone_kept core s hs
  | .lvuPowerDown core => execLvuPowerDown_kept core s hs
  | .loadTileReady core => execLoadTileReady_kept core s hs
  | .matrixActivationTile core => execMatrixActivationTile_kept core s hs
  | .matrixStationaryTile core => execMatrixStationaryTile_kept core s hs
  | .matrixReadout who => execMatrixReadout_kept who s hs
  | .trestleWeightTile core => execTrestleWeightTile_kept core s hs
  | .trestleReadout who => execTrestleReadout_kept who s hs
  | .elementTile core => execElementTile_kept core s hs
  | .reduceTile who => execReduceTile_kept who s hs
  | .storeTile core => execStoreTile_kept core s hs
  | .storeTileVisible core => execStoreTileVisible_kept core s hs
  | .fabricPutTile core => execFabricPutTile_kept core s hs
  | .fabricGetTileReady core => execFabricGetTileReady_kept core s hs
  | .copyRequestServe cpe => execCopyRequestServe_kept cpe s hs
  | .copyLineLanded cpe => execCopyLineLanded_kept cpe s hs
  | .ncoPreemptReq core v => execNcoPreemptReq_kept core v s hs
  | .preemptSaveDone core => execPreemptSaveDone_kept core s hs
  | .solveStart svu => execSolveStart_kept svu s hs
  | .boundaryReductionResult svu => execBoundaryReductionResult_kept svu s hs
  | .solveDeadlineExpiry svu => execSolveDeadlineExpiry_kept svu s hs
  | .patrolScrubRead line syms => execPatrolScrubRead_kept line syms s hs
  | .remapCopyDone h ix => execRemapCopyDone_kept h ix s hs
  | .hotChannelWindowEnd h p counts => execHotChannelWindowEnd_kept h p counts s hs
  | .memPartCfgValid h p v => execMemPartCfgValid_kept h p v s hs
  | .llmPartCfgApply h p v => execLlmPartCfgApply_kept h p v s hs
  | .llmSplitDone h p => execLlmSplitDone_kept h p s hs
  | .rglPartWrite h p v => execRglPartWrite_kept h p v s hs
  | .archLinkCrcFail h resends => execArchLinkCrcFail_kept h resends s hs
  | .pktRead p busy => execPktRead_kept p busy s hs
  | .pktWrite p busy => execPktWrite_kept p busy s hs
  | .pktWritef p busy waits => execPktWritef_kept p busy waits s hs
  | .pktAdd p busy => execPktAdd_kept p busy s hs
  | .pktMin p busy => execPktMin_kept p busy s hs
  | .pktMax p busy => execPktMax_kept p busy s hs
  | .pktAnd p busy => execPktAnd_kept p busy s hs
  | .pktOr p busy => execPktOr_kept p busy s hs
  | .pktXor p busy => execPktXor_kept p busy s hs
  | .pktSwap p busy => execPktSwap_kept p busy s hs
  | .pktCas8 p busy => execPktCas8_kept p busy s hs
  | .pktCas16 p busy => execPktCas16_kept p busy s hs
  | .pktData p => execPktData_kept p s hs
  | .pktAck p => execPktAck_kept p s hs
  | .pktValue p => execPktValue_kept p s hs
  | .pktNackBusy p => execPktNackBusy_kept p s hs
  | .pktNackDomain p => execPktNackDomain_kept p s hs
  | .pktUnreachable p => execPktUnreachable_kept p s hs
  | .pktFault p => execPktFault_kept p s hs
  | .retryAfterExpiry eng seq => execRetryAfterExpiry_kept eng seq s hs
  | .resendTimeout eng seq => execResendTimeout_kept eng seq s hs
  | .rcacheEntryExpiry src eng seq => execRcacheEntryExpiry_kept src eng seq s hs
  | .routerForward ix => execRouterForward_kept ix s hs
  | .scauthLinkReplay port fails => execScauthLinkReplay_kept port fails s hs
  | .keepaliveSend port => execKeepaliveSend_kept port s hs
  | .keepaliveReceived port => execKeepaliveReceived_kept port s hs
  | .portSilenceTimeout port => execPortSilenceTimeout_kept port s hs
  | .lossOfLock port => execLossOfLock_kept port s hs
  | .leavingReceived port => execLeavingReceived_kept port s hs
  | .portTrained port => execPortTrained_kept port s hs
  | .lostNotice port coord cause => execLostNotice_kept port coord cause s hs
  | .scfCoordWrite v => execScfCoordWrite_kept v s hs
  | .scfPortCtlWrite port v => execScfPortCtlWrite_kept port v s hs
  | .scfDomainWrite p v => execScfDomainWrite_kept p v s hs
  | .scfSlotSplitWrite v => execScfSlotSplitWrite_kept v s hs
  | .winEntryWord1Write ix v => execWinEntryWord1Write_kept ix v s hs
  | .winEntryWord0Write ix v => execWinEntryWord0Write_kept ix v s hs
  | .colGroupValid g v => execColGroupValid_kept g v s hs
  | .colTrigValid t v => execColTrigValid_kept t v s hs
  | .colTadd ctx n v => execColTadd_kept ctx n v s hs
  | .collectiveQueuedStart id => execCollectiveQueuedStart_kept id s hs
  | .collectiveFlit port f => execCollectiveFlit_kept port f s hs
  | .bulkChunk port f => execBulkChunk_kept port f s hs
  | .matchRetry port f => execMatchRetry_kept port f s hs
  | .collectiveComplete id => execCollectiveComplete_kept id s hs
  | .collWatchdog id => execCollWatchdog_kept id s hs
  | .cutVoteResult p => execCutVoteResult_kept p s hs
  | .cutCopyDone p => execCutCopyDone_kept p s hs
  | .copiedVoteResult p => execCopiedVoteResult_kept p s hs
  | .drainSeal p => execDrainSeal_kept p s hs
  | .drainWriteFail p => execDrainWriteFail_kept p s hs
  | .restoreLocalDone p => execRestoreLocalDone_kept p s hs
  | .restoreVoteResult p => execRestoreVoteResult_kept p s hs
  | .errorWatchWindow => execErrorWatchWindow_kept s hs
  | .ckpCfgValid p v => execCkpCfgValid_kept p v s hs
  | .ckpCmdCut p => execCkpCmdCut_kept p s hs
  | .ckpCmdRestoreCofferdam p => execCkpCmdRestoreCofferdam_kept p s hs
  | .ckpCmdRestoreModules p => execCkpCmdRestoreModules_kept p s hs
  | .ckpCmdRestoreMirror p => execCkpCmdRestoreMirror_kept p s hs
  | .ckpCmdReshard p source => execCkpCmdReshard_kept p source s hs
  | .ckpCmdStop p => execCkpCmdStop_kept p s hs
  | .ckpCmdRvote p => execCkpCmdRvote_kept p s hs
  | .hostLineInvalidated r => execHostLineInvalidated_kept r s hs
  | .hostIndexLineArrival r sqPi cqCi => execHostIndexLineArrival_kept r sqPi cqCi s hs
  | .launch r bytes => execLaunch_kept r bytes s hs
  | .tadd r bytes => execTadd_kept r bytes s hs
  | .mark r bytes => execMark_kept r bytes s hs
  | .deviceIndexLineWrite r => execDeviceIndexLineWrite_kept r s hs
  | .faultRecordWrite => execFaultRecordWrite_kept s hs
  | .launchWatchdog r ix => execLaunchWatchdog_kept r ix s hs
  | .dspTctlResume t => execDspTctlResume_kept t s hs
  | .dspTctlAbandon t => execDspTctlAbandon_kept t s hs
  | .dspTlbinvGo v => execDspTlbinvGo_kept v s hs
  | .tlbinvDone => execTlbinvDone_kept s hs
  | .dspCtxdefValid c v => execDspCtxdefValid_kept c v s hs
  | .dspCsetWrite c k w v => execDspCsetWrite_kept c k w v s hs
  | .dspCfgEnable v => execDspCfgEnable_kept v s hs
  | .dspRingEnable r v => execDspRingEnable_kept r v s hs
  | .dspLogclaim p => execDspLogclaim_kept p s hs
  | .hostRead addr n hold => execHostRead_kept addr n hold s hs
  | .hostWrite addr bytes hold => execHostWrite_kept addr bytes hold s hs
  | .plkPortDown port => execPlkPortDown_kept port s hs
  | .plkPortUp port => execPlkPortUp_kept port s hs
  | .plkFlitResend port fails => execPlkFlitResend_kept port fails s hs
  | .keyswitch => execKeyswitch_kept s hs
  | .secCmdReport => execSecCmdReport_kept s hs
  | .secCmdAdmit => execSecCmdAdmit_kept s hs
  | .secCmdEndsession => execSecCmdEndsession_kept s hs
  | .secKslotLoad k v => execSecKslotLoad_kept k v s hs
  | .secMeasGo h ix v => execSecMeasGo_kept h ix v s hs
  | .measurementDone h ix => execMeasurementDone_kept h ix s hs
  | .secReleaseGo v => execSecReleaseGo_kept v s hs
  | .scrubDone p => execScrubDone_kept p s hs
  | .ceSummaryPeriod => execCeSummaryPeriod_kept s hs
  | .refclkLoss => execRefclkLoss_kept s hs
  | .refclkReturn => execRefclkReturn_kept s hs
  | .railFault rail => execRailFault_kept rail s hs
  | .sequencerTimeout die => execSequencerTimeout_kept die s hs
  | .powerSample w mv ca => execPowerSample_kept w mv ca s hs
  | .thermalSample temps => execThermalSample_kept temps s hs
  | .thermalTrip die temp => execThermalTrip_kept die temp s hs
  | .powerLoss cause => execPowerLoss_kept cause s hs
  | .powerOn => execPowerOn_kept s hs
  | .rootPllLock => execRootPllLock_kept s hs
  | .railsUp => execRailsUp_kept s hs
  | .imageVerify a b => execImageVerify_kept a b s hs
  | .imageApply power writes => execImageApply_kept power writes s hs
  | .hbmTraining failed repaired => execHbmTraining_kept failed repaired s hs
  | .serdesTraining trained failed plk => execSerdesTraining_kept trained failed plk s hs
  | .hbmZero => execHbmZero_kept s hs
  | .memoryClear => execMemoryClear_kept s hs
  | .frontEndReady => execFrontEndReady_kept s hs
  | .startUpStageTimeout => execStartUpStageTimeout_kept s hs
  | .resetNPulse => execResetNPulse_kept s hs
  | .pwrCtlReset v => execPwrCtlReset_kept v s hs
  | .pwrCtlStandby v => execPwrCtlStandby_kept v s hs
  | .pwrRegimePowerChange v => execPwrRegimePowerChange_kept v s hs
  | .pwrRegimePrecisionChange v => execPwrRegimePrecisionChange_kept v s hs
  | .pwrRegimeLatencyChange v => execPwrRegimeLatencyChange_kept v s hs
  | .frugalChangeProceeds => execFrugalChangeProceeds_kept s hs
  | .bbxCtlFreeze => execBbxCtlFreeze_kept s hs
  | .bbxCtlUnfreeze => execBbxCtlUnfreeze_kept s hs
  | .bbxDataHRead => execBbxDataHRead_kept s hs
  | .bbxDataIRead => execBbxDataIRead_kept s hs
  | .i3cPrivateWrite bytes => execI3cPrivateWrite_kept bytes s hs
  | .i3cPrivateRead => execI3cPrivateRead_kept s hs
  | .i3cArbitrationLoss => execI3cArbitrationLoss_kept s hs
  | .i3cRetry => execI3cRetry_kept s hs
  | .evtClaimTriggerIn n v i3c => execEvtClaimTriggerIn_kept n v i3c s hs
  | .evtClaimFreezeOut n v i3c => execEvtClaimFreezeOut_kept n v i3c s hs
  | .evtRelease n v i3c => execEvtRelease_kept n v i3c s hs
  | .evtTriggerEdge n => execEvtTriggerEdge_kept n s hs
  | .evtFreezeEdge n => execEvtFreezeEdge_kept n s hs
  | .moduleInserted b m => execModuleInserted_kept b m s hs
  | .capsuleCheckDone b => execCapsuleCheckDone_kept b s hs
  | .drnBayEject b => execDrnBayEject_kept b s hs
  | .moduleRemoved b => execModuleRemoved_kept b s hs
  | .ledgerPoll => execLedgerPoll_kept s hs
  | .drnAreaWrite p base v => execDrnAreaWrite_kept p base v s hs
  | .drnXferLoad p v => execDrnXferLoad_kept p v s hs
  | .drnXferFill p v => execDrnXferFill_kept p v s hs
  | .drnXferDone p => execDrnXferDone_kept p s hs
  | .scoLvuPwrWrite core v => execScoLvuPwrWrite_kept core v s hs
  | .registerWrite addr n v => execRegisterWrite_kept addr n v s hs
  | .receiveLock port => execReceiveLock_kept port s hs
  | .iterationBoundary svu => execIterationBoundary_kept svu s hs
  | .sCorePreemption t => execSCorePreemption_kept t s hs
  | .contextRestore t ctx => execContextRestore_kept t ctx s hs
  | .pwrgoodAsserted => execPwrgoodAsserted_kept s hs
  | .rootPllLockTimeout => execRootPllLockTimeout_kept s hs
  | .badDesc r bytes => execBadDesc_kept r bytes s hs
  | .descriptorReadFailure r => execDescriptorReadFailure_kept r s hs
  | .recallReturn line bytes => execRecallReturn_kept line bytes s hs
  | .slewEnd => execSlewEnd_kept s hs
  | .sclkCycle h capR capW regs arch => execSclkCycle_kept h capR capW regs arch s hs
  | .testAccessInstruction ix => execTestAccessInstruction_kept ix s hs
  | .illegalEncoding t cls => execIllegalEncoding_kept t cls s hs
  | .fetchFault t => execFetchFault_kept t s hs
  | .sequencerHeartbeatLost die => execSequencerHeartbeatLost_kept die s hs

theorem exec_inv {i : Instr} {s t : State} (h : s.Inv) (he : exec i s = .next t) : t.Inv :=
  (exec_kept i s (inv_kept h) t he).2

theorem tick_inv {s : State} (h : s.Inv) : (tick s).Inv := (tick_kept s (inv_kept h)).2

theorem step_of_pending {s : State} {c : Instr} {rest : List Instr} (h : s.pending = c :: rest) : step s = exec c { s with pending := rest } := by
  rw [step, h]

theorem step_of_idle {s : State} (h : s.pending = []) : step s = .next (tick s) := by
  rw [step, h]

/-- Settles O3: the front command keeps the invariant by `exec_kept`, and with no command waiting the tick keeps it. -/
theorem stepKeepsInvariant : Obligations.StepKeepsInvariant := by
  unfold Obligations.StepKeepsInvariant
  intro s t h hstep
  cases hq : s.pending with
  | nil =>
    rw [step_of_idle hq] at hstep
    cases hstep
    exact tick_inv h
  | cons c rest =>
    rw [step_of_pending hq] at hstep
    exact exec_inv (s := { s with pending := rest }) h hstep

end Sys2Proof.Machine
end

section
/-! Special reads, branches, END and TRACE (R64, R65, R69-R71, R82). -/

namespace Sys2Proof.Machine

/-- R57, R58, R61: an instruction that issues by its fields does what its effect leaves once it is finished. -/
theorem does_of_insn {c : Tid → Opnds → Instr} {cls : Nat} {r : Option RShape} {i : Option IShape} {pre : State → Nat → Opnds → Prop}
    {g : State → Nat → Opnds → State} (eff : Opnds → Nat → State → Res) (hexec : ∀ t o s, exec (c t o) s = insn s t o cls r i (eff o))
    (heff : ∀ s k o, s.Inv → pre s k o → finish k cls (eff o k s) = g s k o) : Does c cls r i pre g := by
  intro s t o hinv hiss hpre
  obtain ⟨hcan, hcls, hshape, hguard⟩ := hiss
  rw [hexec, insn_eq s t o cls r i _ hcan hcls hshape hguard, heff s (tkey t) o hinv hpre]

@[simp] theorem setX_pc (t : Thread) (i : Nat) (v : Word) : (setX t i v).pc = t.pc := by
  unfold setX
  split <;> rfl

/-- The thread is replaced and its word retires: the pc moves on from the replacement's. -/
theorem retire_setTh {s : State} (h : s.Inv) (k : Nat) (n : Thread) : retire (setTh s k n) k = setTh s k { n with pc := n.pc + 8 } := by
  rw [retire, th_setTh_same h, setTh_setTh h]

/-- R64: a read of something into xD. -/
theorem does_readX {c : Tid → Opnds → Instr} {r : Option RShape} {i : Option IShape} {f v : State → Nat → Opnds → Word}
    (hexec : ∀ t o s, exec (c t o) s = readX t o r i (fun k s => f s k o) s) (hval : ∀ s k o, f s k o = v s k o) :
    Does c 0x01 r i (fun _ _ _ => True) (fun s k o => setTh s k { setX (th s k) o.d.toNat (v s k o) with pc := (th s k).pc + 8 }) :=
  does_of_insn (fun o k s => .done (setTh s k (setX (th s k) o.d.toNat (f s k o)))) hexec fun s k o h _ => by
    rw [finish, retire_setTh h, setX_pc, hval]

/-- R65: the fields of the identity, as sums of shifted numbers. -/
theorem identity_eq (s : State) (k : Nat) : identity s k = BitVec.ofNat 64 ((th s k).ctx % 64 + partOf s (th s k).ctx * 2 ^ 8
    + lane k * 2 ^ 16 + coreOf k * 2 ^ 32 + (if isS k then 2 ^ 40 else 0)) := by
  simp only [identity, Nat.shiftLeft_eq, ite_mul, Nat.one_mul, Nat.zero_mul]

/-- R82: the counter of a context that RDCTR's immediate names. -/
def ctxCounter (s : State) (ctx : Nat) (imm : Half) : Word :=
  if imm = 0 then rd s (R.DSP_CTX_NUM_SAT ctx) else if imm = 1 then rd s (R.DSP_CTX_NUM_FLUSH ctx)
  else if imm = 2 then rd s (R.DSP_CTX_NUM_NAN ctx) else if imm = 3 then rd s (R.DSP_CTX_TRACE_DROP ctx) else 0

theorem exec_rdctr (t : Tid) (o : Opnds) (s : State) :
    exec (.rdctr t o) s = readX t o none (some ⟨64, 0, 0xFFFFFFFF⟩) (fun k s => ctxCounter s (th s k).ctx o.imm) s := by
  show execRdctr t o s = _
  unfold execRdctr ctxCounter
  congr 1
  funext k s
  simp only [← BitVec.toNat_inj]
  split <;> simp_all

theorem specialReads : Sys2Proof.Parts.SpecialReads :=
  ⟨does_readX (f := fun s _ _ => s.ltc) (fun _ _ _ => rfl) fun _ _ _ => rfl,
    does_readX (f := fun s k _ => identity s k) (fun _ _ _ => rfl) fun s k _ => identity_eq s k,
    does_readX (f := fun s k o => ctxCounter s (th s k).ctx o.imm) exec_rdctr fun _ _ _ => rfl⟩

/-- R69: the thread is replaced and goes to a new pc. -/
theorem finish_jump {s : State} (h : s.Inv) (k cls : Nat) (n : Thread) (pc : Word) :
    finish k cls (.jump (setTh s k n) pc) = setTh s k { n with pc := pc } := by
  rw [finish, th_setTh_same h, setTh_setTh h]

/-- R69: what JR does once it issues. -/
def jrEffect (o : Opnds) (k : Nat) (s : State) : Res :=
  if scalarVa s k o % 8 ≠ 0 then .trap s 0x10 0x15 0
  else .jump (setTh s k (setX (th s k) o.d.toNat ((th s k).pc + 8))) (BitVec.ofNat 64 (scalarVa s k o))

theorem exec_jr (t : Tid) (o : Opnds) (s : State) : exec (.jr t o) s = insn s t o 0x02 none (some ⟨64, 64, 0xFFFFFFFF⟩) (jrEffect o) := by
  show execJr t o s = _
  unfold execJr
  congr 1
  funext k s
  simp only [jrEffect, scalarVa, BitVec.ofNat_toNat, BitVec.setWidth_eq]
  rfl

theorem branches : Sys2Proof.Parts.Branches := by
  refine ⟨does_of_insn (fun o k s => .jump s (relTarget (th s k) o)) (fun _ _ _ => rfl) fun _ _ _ _ _ => rfl,
    does_of_insn (fun o k s => .jump (setTh s k (setX (th s k) o.d.toNat ((th s k).pc + 8))) (relTarget (th s k) o)) (fun _ _ _ => rfl)
      fun s k _ h _ => finish_jump h k _ _ _,
    does_of_insn jrEffect exec_jr fun s k o h haligned => ?_, does_of_insn jrEffect exec_jr fun s k o _ hmis => ?_⟩
  · rw [jrEffect, if_neg (not_not.2 haligned), finish_jump h]
  · rw [jrEffect, if_pos hmis, finish]

/-- R71: the identifier is enabled for the thread's context. -/
def traceOn (s : State) (k : Nat) (o : Opnds) : Bool :=
  bitw (rd s (R.DSP_CTX_TRACE_EN (th s k).ctx (o.imm.toNat % 256 / 64))) (o.imm.toNat % 64)

/-- R71, R330: what TRACE does once it issues. -/
def traceEffect (o : Opnds) (k : Nat) (s : State) : Res :=
  if confidential s || !traceOn s k o then .done s
  else if 1024 ≤ s.traceQ.length then .done (numAdd s (R.DSP_CTX_TRACE_DROP (th s k).ctx) 1)
  else .done { s with traceQ := s.traceQ ++ [⟨partOf s (th s k).ctx, (th s k).ctx, s.ltc, o.imm.toNat % 256, coreOf k,
    (if isS k then 128 else 0) + lane k, xr (th s k) o.a.toNat⟩] }

theorem exec_trace (t : Tid) (o : Opnds) (s : State) : exec (.trace t o) s = insn s t o 0x02 none (some ⟨0, 64, 0xFF⟩) (traceEffect o) := by
  have hbit : o.imm.toNat % 256 % 64 = o.imm.toNat % 64 := Nat.mod_mod_of_dvd _ (by norm_num)
  show execTrace t o s = _
  unfold execTrace traceEffect traceOn
  simp only [hbit]

/-- R70: what END does once it issues. -/
def endEffect (_ : Opnds) (k : Nat) (s : State) : Res := .stay (if hasWork s k then s else endThread s k)

theorem endAndTrace : Sys2Proof.Parts.EndAndTrace := by
  refine ⟨does_of_insn endEffect (fun _ _ _ => rfl) fun s k o _ hdone => ?_, does_of_insn endEffect (fun _ _ _ => rfl) fun s k o _ hwork => ?_,
    does_of_insn traceEffect exec_trace fun s k o _ htrace => ?_, does_of_insn traceEffect exec_trace fun s k o _ htrace => ?_,
    does_of_insn traceEffect exec_trace fun s k o _ hoff => ?_⟩
  · simp only [endEffect, finish, hdone, Bool.false_eq_true, if_false]
  · simp only [endEffect, finish, hwork, if_true]
  · obtain ⟨hconf, hon, hroom⟩ := htrace
    change traceOn s k o = true at hon
    simp [traceEffect, hconf, hon, Nat.not_le.2 hroom, finish]
  · obtain ⟨hconf, hon, hfull⟩ := htrace
    change traceOn s k o = true at hon
    simp [traceEffect, hconf, hon, hfull, finish, numAdd]
  · change confidential s = true ∨ traceOn s k o = false at hoff
    rw [traceEffect, if_pos (by simpa using hoff), finish]

/-- Settles O10: each instruction's effect, once issued, is that of its part; RDCTR, JR and TRACE by the cases of their operands. -/
theorem controlAndSpecialReads : Obligations.ControlAndSpecialReads := ⟨specialReads, branches, endAndTrace⟩

end Sys2Proof.Machine
end

section
/-! SUPPORT. What a black-box record and a fatal error change: a few registers and fields, and nothing else (R278, R386, R388, R389, R393). -/

namespace Sys2Proof.Machine

/-- A meaning that answers one of two states by a condition. -/
theorem next_ite_pos {c : Prop} [Decidable c] {s t : State} (hc : c) : (.next (if c then s else t) : Out) = .next s := by rw [if_pos hc]
theorem next_ite_neg {c : Prop} [Decidable c] {s t : State} (hc : ¬ c) : (.next (if c then s else t) : Out) = .next t := by rw [if_neg hc]

/-- A field that lies within a field that was replaced. -/
theorem fld_putf_within (w : Word) (lo n v lo' n' : Nat) (h : lo + n ≤ 64) (hlo : lo ≤ lo') (hhi : lo' + n' ≤ lo + n) :
    fld (putf w lo n v) lo' n' = nfld v (lo' - lo) n' := by
  refine Nat.eq_of_testBit_eq fun i => ?_
  rw [testBit_fld, getLsbD_putf w lo n v _ h, nfld, Nat.testBit_mod_two_pow, Nat.testBit_shiftRight]
  by_cases hi : i < n'
  · rw [if_pos (by omega), show lo' + i - lo = lo' - lo + i by omega]
  · simp [hi]

theorem addSat_eq_wrf (s : State) (a lo n k : Nat) : addSat s a lo n k = wrf s a lo n (min (2 ^ n - 1) (rdf s a lo n + k)) := rfl

theorem rd_of_regs {s t : State} (h : t.regs = s.regs) (a : Nat) : rd t a = rd s a := by rw [rd, rd, h]

theorem rdf_of_rd {s t : State} {a : Nat} (h : rd t a = rd s a) (lo n : Nat) : rdf t a lo n = rdf s a lo n := by rw [rdf, h, rdf]

/-- The second state is well kept, and registers differ at most where `f` says. -/
structure Leaves (f : Nat → Bool) (s t : State) : Prop where
  inv : t.Inv
  rd_eq : ∀ a, f a = false → rd t a = rd s a

namespace Leaves

variable {f g : Nat → Bool} {s t u : State}

theorem refl (h : s.Inv) : Leaves f s s := ⟨h, fun _ _ => rfl⟩

theorem trans (ht : Leaves f s t) (hu : Leaves f t u) : Leaves f s u := ⟨hu.inv, fun a ha => (hu.rd_eq a ha).trans (ht.rd_eq a ha)⟩

theorem mono (ht : Leaves f s t) (hfg : ∀ a, g a = false → f a = false) : Leaves g s t := ⟨ht.inv, fun a ha => ht.rd_eq a (hfg a ha)⟩

/-- What moves no register. -/
theorem same (ht : Leaves f s t) (hinv : u.Inv) (hregs : u.regs = t.regs) : Leaves f s u :=
  ⟨hinv, fun a ha => (rd_of_regs hregs a).trans (ht.rd_eq a ha)⟩

theorem wr (ht : Leaves f s t) {a : Nat} (ha : f a = true) (v : Word) : Leaves f s (wr t a v) :=
  ⟨wr_inv a v ht.inv, fun b hb => (rd_wr_ne ht.inv v (by rintro rfl; simp [ha] at hb)).trans (ht.rd_eq b hb)⟩

theorem wrf (ht : Leaves f s t) {a : Nat} (ha : f a = true) (lo n v : Nat) : Leaves f s (wrf t a lo n v) := ht.wr ha _
theorem addSat (ht : Leaves f s t) {a : Nat} (ha : f a = true) (lo n k : Nat) : Leaves f s (addSat t a lo n k) := ht.wr ha _

theorem bbxPut (ht : Leaves f s t) (ha : f R.BBX_SEQ = true) (off : Nat) (r : List Byte) : Leaves f s (bbxPut t off r) :=
  (ht.wr ha _).same (bbxPut_kept (inv_kept ht.inv)).2 rfl

end Leaves

/-- R388-R393: the registers that a black-box record moves. -/
def bbxReg (a : Nat) : Bool := a == R.BBX_SEQ || a == R.BBX_STAT || a == R.BBX_RING

/-- R388, R393: the rolling ring moves its own registers alone, frozen or not. -/
theorem bbxRing_leaves {s t : State} (ht : Leaves bbxReg s t) (r : List Byte) : Leaves bbxReg s (bbxRing t r) := by
  unfold bbxRing
  split
  · exact ht.addSat rfl _ _ _
  · have hput := ht.bbxPut rfl (0x100000 + 64 * (t.ringCount % 114688)) r
    have hcount : Leaves bbxReg s { bbxPut t (0x100000 + 64 * (t.ringCount % 114688)) r with ringCount := t.ringCount + 1 } :=
      hput.same hput.inv rfl
    exact (hcount.wrf (a := R.BBX_RING) rfl _ _ _).wrf (a := R.BBX_RING) rfl _ _ _

/-- R388-R392: a record moves the black box's own registers alone. -/
theorem bbx_leaves {s : State} (h : s.Inv) (perm : Bool) (ty src st sub : Nat) (pay : List Byte) :
    Leaves bbxReg s (bbx s perm ty src st sub pay) := by
  unfold bbx
  dsimp only
  split_ifs
  · exact .refl h
  · exact (((Leaves.refl h).bbxPut rfl _ _).wrf rfl _ _ _).wrf rfl _ _ _
  · exact ((Leaves.refl h).bbxPut rfl _ _).wrf rfl _ _ _
  · exact bbxRing_leaves (.refl h) _

/-- R278: LEAVING on one port, which then holds electrical idle. -/
def leavePort (s : State) (k : Nat) : State :=
  if portState s k = 0 then s
  else wrf (setPort { s with tx := s.tx ++ [.leaving k], portWant := s.portWant.filter (· ≠ k) } k 0) (R.SCF_PORT_STAT k) 2 1 0

theorem leaveScauth_eq_foldl (s : State) : leaveScauth s = (List.range 16).foldl leavePort s := rfl

/-- R386: the registers that a fatal error moves. -/
def fatalReg (a : Nat) : Bool := bbxReg a || a == R.PWR_STAT || (List.range 16).any (fun k => a == R.SCF_PORT_STAT k)

theorem leavePort_leaves {s t : State} (ht : Leaves fatalReg s t) {k : Nat} (hk : k < 16) : Leaves fatalReg s (leavePort t k) := by
  have hport : fatalReg (R.SCF_PORT_STAT k) = true := by
    simp only [fatalReg, Bool.or_eq_true, List.any_eq_true, List.mem_range, beq_iff_eq]
    exact .inr ⟨k, hk, rfl⟩
  unfold leavePort
  split
  · exact ht
  · have hsent : Leaves fatalReg s { t with tx := t.tx ++ [.leaving k], portWant := t.portWant.filter (· ≠ k) } := ht.same ht.inv rfl
    exact (hsent.wrf hport 0 2 0).wrf hport 2 1 0

/-- R278, R386: LEAVING moves the status of the Scauth ports alone. -/
theorem leaveScauth_leaves {s t : State} (ht : Leaves fatalReg s t) : Leaves fatalReg s (leaveScauth t) := by
  rw [leaveScauth_eq_foldl]
  have hports : ∀ k ∈ List.range 16, k < 16 := fun k => List.mem_range.1
  generalize List.range 16 = ports at hports
  induction ports generalizing t with
  | nil => exact ht
  | cons k ports ih =>
    exact ih (leavePort_leaves ht (hports k List.mem_cons_self)) fun j hj => hports j (List.mem_cons_of_mem _ hj)

/-- R386: the record of a fatal error with its frozen ring, and LEAVING sent. -/
def fatalLeft (s : State) (cause src h : Nat) : State :=
  leaveScauth (freezeRing (bbx s true 0x01 src 0 0 (leBytes 1 cause ++ leBytes 7 0 ++ leBytes 8 (causeReg s cause h).toNat)))

/-- R386, R419: the fatal state with its cause, and what the pins show of it. -/
def showFatal (s : State) (cause : Nat) : State := { wrf (wrf s R.PWR_STAT 0 4 4) R.PWR_STAT 8 8 cause with faultN := true, alive := 0 }

theorem fatal_of_running {s : State} (hrun : pwrState s ≠ 4) (cause src h : Nat) :
    fatal s cause src h = showFatal (fatalLeft s cause src h) cause := by
  rw [fatal, if_neg hrun]
  rfl

theorem fatal_of_fatal {s : State} (hstop : pwrState s = 4) (cause src h : Nat) : fatal s cause src h = s := by
  rw [fatal, if_pos hstop]

section
variable {s : State} (h : s.Inv) (cause src d : Nat)
include h

theorem fatalLeft_leaves : Leaves fatalReg s (fatalLeft s cause src d) := by
  have hrec := (bbx_leaves h true 0x01 src 0 0 (leBytes 1 cause ++ leBytes 7 0 ++ leBytes 8 (causeReg s cause d).toNat)).mono
    (g := fatalReg) fun a ha => by simp_all [fatalReg]
  exact leaveScauth_leaves (hrec.wrf rfl _ _ _)

theorem showFatal_leaves : Leaves fatalReg s (showFatal s cause) :=
  have hstat := ((Leaves.refl h).wrf (f := fatalReg) (a := R.PWR_STAT) rfl 0 4 4).wrf (a := R.PWR_STAT) rfl 8 8 cause
  hstat.same hstat.inv rfl

/-- R386: a fatal error leaves every other register alone. -/
theorem fatal_leaves : Leaves fatalReg s (fatal s cause src d) := by
  by_cases hrun : pwrState s = 4
  · rw [fatal_of_fatal hrun]
    exact .refl h
  · rw [fatal_of_running hrun]
    exact (fatalLeft_leaves h cause src d).trans (showFatal_leaves (fatalLeft_leaves h cause src d).inv cause)

theorem rd_showFatal : rd (showFatal s cause) R.PWR_STAT = putf (putf (rd s R.PWR_STAT) 0 4 4) 8 8 cause := by
  have hstat : rd (showFatal s cause) R.PWR_STAT = rd (wrf (wrf s R.PWR_STAT 0 4 4) R.PWR_STAT 8 8 cause) R.PWR_STAT := rd_of_regs rfl _
  rw [hstat, rd_wrf_same (wrf_inv _ _ _ _ h), rd_wrf_same h]

/-- R386: after a fatal error the package is in the fatal state. -/
theorem pwrState_fatal : pwrState (fatal s cause src d) = 4 := by
  by_cases hrun : pwrState s = 4
  · rw [fatal_of_fatal hrun, hrun]
  · rw [fatal_of_running hrun, pwrState, rdf, rd_showFatal (fatalLeft_leaves h cause src d).inv, fld_putf_apart _ _ _ _ _ _ (by omega) (by omega),
      fld_putf_same _ _ _ _ (by omega)]
    rfl

theorem fatal_cause (hrun : pwrState s ≠ 4) : rdf (fatal s cause src d) R.PWR_STAT 8 8 = cause % 256 := by
  rw [fatal_of_running hrun, rdf, rd_showFatal (fatalLeft_leaves h cause src d).inv, fld_putf_same _ _ _ _ (by omega)]
  rfl

end

section
variable {α : Type} (p : State → α)

/-- R388: what reads neither registers nor the black box is the same after a record. -/
theorem bbx_reads (hwr : ∀ s a v, p (wr s a v) = p s) (hput : ∀ s off r, p (bbxPut s off r) = p s)
    (hcount : ∀ s n, p { s with ringCount := n } = p s) (s : State) (perm : Bool) (ty src st sub : Nat) (pay : List Byte) :
    p (bbx s perm ty src st sub pay) = p s := by
  unfold bbx bbxRing addSat wrf
  dsimp only
  split_ifs <;> simp only [hwr, hput, hcount]

theorem leaveScauth_reads (hwr : ∀ s a v, p (wr s a v) = p s) (hsend : ∀ s tx want, p { s with tx := tx, portWant := want } = p s) (s : State) :
    p (leaveScauth s) = p s := by
  rw [leaveScauth_eq_foldl]
  generalize List.range 16 = ports
  induction ports generalizing s with
  | nil => rfl
  | cons k ports ih =>
    rw [List.foldl_cons, ih]
    unfold leavePort setPort wrf
    split
    · rfl
    · simp only [hwr, hsend]

end

theorem bbx_refOk (s : State) (perm : Bool) (ty src st sub : Nat) (pay : List Byte) : (bbx s perm ty src st sub pay).refOk = s.refOk :=
  bbx_reads State.refOk (fun _ _ _ => rfl) (fun _ _ _ => rfl) (fun _ _ => rfl) s perm ty src st sub pay

@[simp] theorem showFatal_refOk (s : State) (cause : Nat) : (showFatal s cause).refOk = s.refOk := rfl
@[simp] theorem freezeRing_refOk (s : State) : (freezeRing s).refOk = s.refOk := rfl

theorem fatal_refOk (s : State) (cause src d : Nat) : (fatal s cause src d).refOk = s.refOk := by
  by_cases hrun : pwrState s = 4
  · rw [fatal_of_fatal hrun]
  · rw [fatal_of_running hrun, showFatal_refOk, fatalLeft, leaveScauth_reads State.refOk (fun _ _ _ => rfl) (fun _ _ _ => rfl),
      freezeRing_refOk, bbx_refOk]

end Sys2Proof.Machine
end

section
/-! Losses of clock and rails, and thermal trips (R28, R30, R386, R413, R419, R423). -/

namespace Sys2Proof.Machine

theorem bitw_iff_fld (w : Word) (i : Nat) : bitw w i = true ↔ fld w i 1 = 1 := by
  have hbit := testBit_fld w i 1 0
  have hlt : fld w i 1 < 2 := Nat.mod_lt _ (by decide)
  rw [bitw, BitVec.testBit_toNat]
  interval_cases hv : fld w i 1 <;> simp_all

/-- R28, R30: CLK_STATUS once the reference is lost. -/
def clockLost (s : State) : State :=
  { wr s R.CLK_STATUS (putf (putf (putf (putf (rd s R.CLK_STATUS) 0 2 0) 2 1 1) 3 1 0) 4 1 1) with refOk := false }

theorem exec_refclkLoss {s : State} (href : s.refOk = true) (hpow : unpowered s = false) : exec .refclkLoss s =
    .next (if rdf s R.CLK_STATUS 0 1 = 1 then wrf (fatal (clockLost s) 1 0 0) R.PLK_STAT 0 4 0 else clockLost s) := by
  show execRefclkLoss s = _
  simp only [execRefclkLoss, href, hpow, Bool.not_true, Bool.or_self, Bool.false_eq_true, if_false, bitw_iff_fld, clockLost]
  rfl

section
variable {s : State} (h : s.Inv)
include h

theorem clockLost_inv : (clockLost s).Inv := wr_inv (s := s) R.CLK_STATUS _ h

theorem rd_clockLost_ne {a : Nat} (ha : a ≠ R.CLK_STATUS) : rd (clockLost s) a = rd s a := rd_wr_ne h _ ha

theorem rd_clockLost : rd (clockLost s) R.CLK_STATUS = putf (putf (putf (putf (rd s R.CLK_STATUS) 0 2 0) 2 1 1) 3 1 0) 4 1 1 := rd_wr_same h _ _

theorem clockLost_lock : rdf (clockLost s) R.CLK_STATUS 0 1 = 0 := by
  rw [rdf, rd_clockLost h, fld_putf_apart, fld_putf_apart, fld_putf_apart, fld_putf_within] <;> simp [nfld]

theorem clockLost_holdover : rdf (clockLost s) R.CLK_STATUS 2 1 = 1 := by
  rw [rdf, rd_clockLost h, fld_putf_apart, fld_putf_apart, fld_putf_same] <;> simp

theorem clockLost_lost : rdf (clockLost s) R.CLK_STATUS 4 1 = 1 := by
  rw [rdf, rd_clockLost h, fld_putf_same] <;> simp

theorem clockLost_pwrState : pwrState (clockLost s) = pwrState s := by
  rw [pwrState, pwrState, rdf, rdf, rd_clockLost_ne h (by decide)]

/-- R28, R386: losing the reference with the root PLL locked is fatal, and the Palale Link's ports go down. -/
theorem refclkLoss_locked (href : s.refOk = true) (hpow : unpowered s = false) (hrun : pwrState s ≠ 4) (hlock : rdf s R.CLK_STATUS 0 1 = 1) :
    ∃ u, exec .refclkLoss s = .next u ∧ pwrState u = 4 ∧ rdf u R.PWR_STAT 8 8 = 1 ∧ rdf u R.CLK_STATUS 0 1 = 0 ∧ rdf u R.CLK_STATUS 4 1 = 1 ∧
      u.refOk = false := by
  have hlost := clockLost_inv h
  have hfatal := fatal_leaves hlost 1 0 0
  have hclock : rd (fatal (clockLost s) 1 0 0) R.CLK_STATUS = rd (clockLost s) R.CLK_STATUS := hfatal.rd_eq _ rfl
  refine ⟨_, by rw [exec_refclkLoss href hpow, if_pos hlock], ?_, ?_, ?_, ?_, ?_⟩
  · rw [pwrState, rdf, rd_wrf_ne hfatal.inv _ _ _ (by decide)]
    exact pwrState_fatal hlost 1 0 0
  · rw [rdf, rd_wrf_ne hfatal.inv _ _ _ (by decide)]
    exact fatal_cause hlost 1 0 0 (by rwa [clockLost_pwrState h])
  · rw [rdf, rd_wrf_ne hfatal.inv _ _ _ (by decide), hclock]
    exact clockLost_lock h
  · rw [rdf, rd_wrf_ne hfatal.inv _ _ _ (by decide), hclock]
    exact clockLost_lost h
  · exact fatal_refOk (clockLost s) 1 0 0

/-- R386, R413: a rail out of regulation is marked, is fatal, and takes every main rail down. -/
theorem railFault_of_running {rail : Nat} (hrail : rail < 11) (hpow : unpowered s = false) (hrun : pwrState s ≠ 4) :
    ∃ u, exec (.railFault rail) s = .next u ∧ pwrState u = 4 ∧ rdf u R.PWR_STAT 8 8 = 5 ∧ rdf u R.PWR_RAIL (16 + rail) 1 = 1 ∧
      rdf u R.PWR_RAIL 1 11 = 0 := by
  have hout := wrf_inv R.PWR_RAIL (16 + rail) 1 1 h
  have hdown := wrf_inv R.PWR_RAIL rail 1 0 hout
  have hfatal := fatal_leaves hdown 5 0 0
  have hstate : pwrState (wrf (wrf s R.PWR_RAIL (16 + rail) 1 1) R.PWR_RAIL rail 1 0) = pwrState s := by
    rw [pwrState, pwrState, rdf, rdf, rd_wrf_ne hout _ _ _ (by decide), rd_wrf_ne h _ _ _ (by decide)]
  refine ⟨wrf (fatal (wrf (wrf s R.PWR_RAIL (16 + rail) 1 1) R.PWR_RAIL rail 1 0) 5 0 0) R.PWR_RAIL 1 11 0, ?_, ?_, ?_, ?_, ?_⟩
  · show execRailFault rail s = _
    rw [execRailFault, if_neg (by simp [hpow, hrail])]
  · rw [pwrState, rdf, rd_wrf_ne hfatal.inv _ _ _ (by decide)]
    exact pwrState_fatal hdown 5 0 0
  · rw [rdf, rd_wrf_ne hfatal.inv _ _ _ (by decide)]
    exact fatal_cause hdown 5 0 0 (by rwa [hstate])
  · rw [rdf_wrf_apart hfatal.inv _ _ _ _ _ _ (by omega) (by omega), rdf, hfatal.rd_eq _ rfl]
    exact (rdf_wrf_apart hout _ _ _ _ _ _ (by omega) (by omega)).trans (rdf_wrf_same h _ _ _ _ (by omega))
  · exact rdf_wrf_same hfatal.inv _ _ _ _ (by omega)

/-- R423: the hottest die and its temperature are shown. -/
def showHot (s : State) (temp die : Nat) : State := wr s R.PWR_THERM (putf (putf (rd s R.PWR_THERM) 0 16 temp) 16 3 die)

theorem rd_showHot (temp die : Nat) : rd (showHot s temp die) R.PWR_THERM = putf (putf (rd s R.PWR_THERM) 0 16 temp) 16 3 die := rd_wr_same h _ _
theorem rd_showHot_ne (temp die : Nat) {a : Nat} (ha : a ≠ R.PWR_THERM) : rd (showHot s temp die) a = rd s a := rd_wr_ne h _ ha

theorem showHot_temp {temp : Nat} (die : Nat) (ht : temp < 65536) : rdf (showHot s temp die) R.PWR_THERM 0 16 = temp := by
  rw [rdf, rd_showHot h, fld_putf_apart _ _ _ _ _ _ (by omega) (by omega), fld_putf_same _ _ _ _ (by omega)]
  exact Nat.mod_eq_of_lt ht
theorem showHot_die (temp : Nat) {die : Nat} (hd : die < 8) : rdf (showHot s temp die) R.PWR_THERM 16 3 = die := by
  rw [rdf, rd_showHot h, fld_putf_same _ _ _ _ (by omega)]
  exact Nat.mod_eq_of_lt hd
theorem showHot_limit (temp die : Nat) : rdf (showHot s temp die) R.PWR_THERM 32 8 = rdf s R.PWR_THERM 32 8 := by
  rw [rdf, rdf, rd_showHot h, fld_putf_apart _ _ _ _ _ _ (by omega) (by omega), fld_putf_apart _ _ _ _ _ _ (by omega) (by omega)]

omit h in
theorem exec_thermalTrip (die temp : Nat) : exec (.thermalTrip die temp) s =
    .next (if (unpowered s || pwrState s == 4 || temp ≤ rdf s R.PWR_THERM 40 8 * 10) = true then s
      else fatal (bbx (showHot s temp die) true 0x03 die 0 0
        (leBytes 1 die ++ leBytes 1 (rdf (showHot s temp die) R.PWR_THERM 40 8) ++ leBytes 2 temp)) 4 die 0) := rfl

/-- R386, R390, R423: a die above its trip is recorded, shown and fatal. -/
theorem thermalTrip_of_hot {die temp : Nat} (hpow : unpowered s = false) (hrun : pwrState s ≠ 4) (hhot : rdf s R.PWR_THERM 40 8 * 10 < temp)
    (ht : temp < 65536) (hd : die < 8) : ∃ u, exec (.thermalTrip die temp) s = .next u ∧ pwrState u = 4 ∧ rdf u R.PWR_STAT 8 8 = 4 ∧
      rdf u R.PWR_THERM 0 16 = temp ∧ rdf u R.PWR_THERM 16 3 = die := by
  have hshown : (showHot s temp die).Inv := wr_inv _ _ h
  have hrec := bbx_leaves hshown true 0x03 die 0 0 (leBytes 1 die ++ leBytes 1 (rdf (showHot s temp die) R.PWR_THERM 40 8) ++ leBytes 2 temp)
  have hfatal := fatal_leaves hrec.inv 4 die 0
  have htherm := rdf_of_rd ((hfatal.rd_eq R.PWR_THERM rfl).trans (hrec.rd_eq R.PWR_THERM rfl))
  refine ⟨_, by rw [exec_thermalTrip, if_neg (by simp [hpow, hrun, hhot])], pwrState_fatal hrec.inv 4 die 0, ?_, ?_, ?_⟩
  · refine fatal_cause hrec.inv 4 die 0 ?_
    rwa [pwrState, rdf, hrec.rd_eq _ rfl, rd_showHot_ne h _ _ (by decide)]
  · rw [htherm, showHot_temp h die ht]
  · rw [htherm, showHot_die h temp hd]

end

/-- R28, R386, R413, R422, R423: without power nothing is sensed and nothing fails. -/
theorem exec_of_unpowered {s : State} (hpow : unpowered s = true) : exec .refclkLoss s = .next s ∧ (∀ r, exec (.railFault r) s = .next s) ∧
    (∀ d, exec (.sequencerTimeout d) s = .next s) ∧ (∀ d t, exec (.thermalTrip d t) s = .next s) ∧
    (∀ a b c, exec (.powerSample a b c) s = .next s) ∧ (∀ l, exec (.thermalSample l) s = .next s) := by
  refine ⟨?_, fun r => ?_, fun d => ?_, fun d t => ?_, fun a b c => ?_, fun l => ?_⟩
  · exact next_ite_pos (by simp [hpow])
  · exact next_ite_pos (by simp [hpow])
  · exact next_ite_pos (by simp [hpow])
  · exact next_ite_pos (by simp [hpow])
  · exact next_ite_pos (by simp [hpow])
  · exact next_ite_pos (by simp [hpow])

theorem clockAndRailFaults : Sys2Proof.Parts.ClockAndRailFaults := by
  intro s h
  refine ⟨fun href hpow hrun => ⟨refclkLoss_locked h href hpow hrun, fun hfree => ?_⟩, fun hlost => ⟨?_, ?_⟩, fun href => ?_,
    fun rail hrail hpow hrun => railFault_of_running h hrail hpow hrun, fun die hpow => ?_, fun die halive => ?_, fun die halive => ?_,
    fun die temp hpow hrun hhot ht hd => thermalTrip_of_hot h hpow hrun hhot ht hd, fun die temp hcool => ?_, exec_of_unpowered⟩
  · exact ⟨_, by rw [exec_refclkLoss href hpow, if_neg (by omega)], clockLost_pwrState h, clockLost_lost h, clockLost_holdover h, rfl,
      fun a ha => rd_clockLost_ne h ha⟩
  · exact next_ite_pos (by simp [hlost])
  · exact next_ite_neg (by simp [hlost])
  · exact next_ite_pos href
  · exact next_ite_neg (by simp [hpow])
  · exact next_ite_pos halive
  · exact next_ite_neg halive
  · rw [exec_thermalTrip, if_pos]
    rcases hcool with hle | hstop <;> simp [*]

end Sys2Proof.Machine
end

section
/-! Power samples and thermal samples (R422, R423). -/

namespace Sys2Proof.Machine

/-- R422: a power sample joins the samples of the last ms. -/
def keepSample (s : State) (w : Nat) : State := { s with powHist := (w :: s.powHist).take 100 }

/-- R422: the mean power, and the voltage and current of a sample, are shown. -/
def showPower (s : State) (mv ca : Nat) : State :=
  wr s R.PWR_POWER (putf (putf (putf (rd s R.PWR_POWER) 0 16 (s.powHist.sum / s.powHist.length)) 16 16 mv) 32 16 ca)

/-- R422: the power of the last 100 us is above the cap: the sum of the samples against the cap as often as there are samples. -/
abbrev overCap (s : State) : Prop := rdf s R.PWR_POWER 48 16 * (s.powHist.take 10).length < (s.powHist.take 10).sum

/-- R422: DUTY may rise: the power is well below the cap, no die is above its limit, and the last rise is 100 us ago. -/
abbrev mayRise (s : State) : Prop :=
  (s.powHist.take 10).sum * 100 < rdf s R.PWR_POWER 48 16 * (s.powHist.take 10).length * 97 ∧
  rdf s R.PWR_THERM 0 16 ≤ rdf s R.PWR_THERM 32 8 * 10 ∧ s.dutyAt + 100000 ≤ s.ltc.toNat ∧ rdf s R.PWR_THROTTLE 0 7 < 64

/-- R422: DUTY takes a new value for a cause, whose mark is bit `i`. -/
def throttle (s : State) (d i : Nat) : State := wrf (setDuty s d) R.PWR_THROTTLE i 1 1
/-- R422: DUTY rises by one. -/
def rise (s : State) : State := { setDuty s (rdf s R.PWR_THROTTLE 0 7 + 1) with dutyAt := s.ltc.toNat }

/-- R422: DUTY follows the cap. -/
def followCap (s : State) : State :=
  if overCap s then throttle s (rdf s R.PWR_THROTTLE 0 7 - 1) 8 else if mayRise s then rise s else s

/-- R422: the time below full DUTY is counted; at full DUTY the marks go. -/
def countLow (s : State) : State := if rdf s R.PWR_THROTTLE 0 7 < 64 then addSat s R.PWR_THROTTLE 32 32 10 else wrf s R.PWR_THROTTLE 8 2 0

theorem exec_powerSample {s : State} (hpow : unpowered s = false) (w mv ca : Nat) : exec (.powerSample w mv ca) s =
    .next (if !issuing (showPower (keepSample s w) mv ca) then showPower (keepSample s w) mv ca
      else countLow (followCap (showPower (keepSample s w) mv ca))) := by
  show execPowerSample w mv ca s = _
  rw [execPowerSample, if_neg (by simp [hpow])]
  rfl

/-- One register may have moved. -/
def onlyReg (r a : Nat) : Bool := a == r

theorem onlyReg_self (r : Nat) : onlyReg r r = true := beq_self_eq_true r
theorem onlyReg_of_ne {r a : Nat} (h : a ≠ r) : onlyReg r a = false := beq_eq_false_iff_ne.2 h

@[simp] theorem countLow_dutyAt (s : State) : (countLow s).dutyAt = s.dutyAt := by
  unfold countLow
  split <;> rfl

section
variable {s : State} (h : s.Inv)
include h

theorem showPower_leaves (mv ca : Nat) : Leaves (onlyReg R.PWR_POWER) s (showPower s mv ca) := (Leaves.refl h).wr (onlyReg_self _) _

/-- R422: the fields of PWR_POWER: the mean, the voltage, the current, and the cap as it was. -/
theorem showPower_fields {mv ca : Nat} (hmv : mv < 65536) (hca : ca < 65536) :
    rdf (showPower s mv ca) R.PWR_POWER 0 16 = s.powHist.sum / s.powHist.length % 65536 ∧ rdf (showPower s mv ca) R.PWR_POWER 16 16 = mv ∧
    rdf (showPower s mv ca) R.PWR_POWER 32 16 = ca ∧ rdf (showPower s mv ca) R.PWR_POWER 48 16 = rdf s R.PWR_POWER 48 16 := by
  have hword : rd (showPower s mv ca) R.PWR_POWER =
      putf (putf (putf (rd s R.PWR_POWER) 0 16 (s.powHist.sum / s.powHist.length)) 16 16 mv) 32 16 ca := rd_wr_same h _ _
  simp (disch := omega) only [rdf, hword, fld_putf_apart, fld_putf_same, and_true]
  exact ⟨rfl, Nat.mod_eq_of_lt hmv, Nat.mod_eq_of_lt hca⟩

theorem throttle_leaves (d i : Nat) : Leaves (onlyReg R.PWR_THROTTLE) s (throttle s d i) :=
  ((Leaves.refl h).wrf (f := (onlyReg R.PWR_THROTTLE)) (onlyReg_self _) 0 7 _).wrf (onlyReg_self _) i 1 1

theorem rise_leaves : Leaves (onlyReg R.PWR_THROTTLE) s (rise s) :=
  have hset := (Leaves.refl h).wrf (f := (onlyReg R.PWR_THROTTLE)) (a := R.PWR_THROTTLE) (onlyReg_self _) 0 7 (min 64 (rdf s R.PWR_THROTTLE 0 7 + 1))
  hset.same hset.inv rfl

theorem followCap_leaves : Leaves (onlyReg R.PWR_THROTTLE) s (followCap s) := by
  unfold followCap
  split_ifs
  · exact throttle_leaves h _ _
  · exact rise_leaves h
  · exact .refl h

theorem countLow_leaves : Leaves (onlyReg R.PWR_THROTTLE) s (countLow s) := by
  unfold countLow
  split_ifs
  · exact (Leaves.refl h).addSat (onlyReg_self _) _ _ _
  · exact (Leaves.refl h).wrf (onlyReg_self _) _ _ _

theorem rd_throttle (d i : Nat) : rd (throttle s d i) R.PWR_THROTTLE = putf (putf (rd s R.PWR_THROTTLE) 0 7 (min 64 d)) i 1 1 := by
  rw [throttle, setDuty, rd_wrf_same (wrf_inv _ _ _ _ h), rd_wrf_same h]

/-- R422, R423: DUTY's new value and the mark of its cause. -/
theorem throttle_fields {d i : Nat} (hd : d ≤ 64) (hi : 7 ≤ i) (hi' : i < 64) :
    rdf (throttle s d i) R.PWR_THROTTLE 0 7 = d ∧ rdf (throttle s d i) R.PWR_THROTTLE i 1 = 1 := by
  simp (disch := omega) only [rdf, rd_throttle h, fld_putf_apart, fld_putf_same]
  omega

/-- R422: a field above the causes' marks and DUTY stays. -/
theorem throttle_apart {d i lo n : Nat} (hi : i < 64) (hlo : 7 ≤ lo) (hap : lo + n ≤ i ∨ i < lo) :
    rdf (throttle s d i) R.PWR_THROTTLE lo n = rdf s R.PWR_THROTTLE lo n := by
  simp (disch := omega) only [rdf, rd_throttle h, fld_putf_apart]

theorem rd_rise : rd (rise s) R.PWR_THROTTLE = putf (rd s R.PWR_THROTTLE) 0 7 (min 64 (rdf s R.PWR_THROTTLE 0 7 + 1)) :=
  rd_wrf_same h _ _ _ _

theorem rise_duty (hlow : rdf s R.PWR_THROTTLE 0 7 < 64) : rdf (rise s) R.PWR_THROTTLE 0 7 = rdf s R.PWR_THROTTLE 0 7 + 1 := by
  rw [rdf, rd_rise h, fld_putf_same _ _ _ _ (by omega)]
  omega

theorem rise_apart {lo n : Nat} (hlo : 7 ≤ lo) : rdf (rise s) R.PWR_THROTTLE lo n = rdf s R.PWR_THROTTLE lo n := by
  simp (disch := omega) only [rdf, rd_rise h, fld_putf_apart]

/-- R422: what following the cap does to DUTY and to the cap's mark. -/
theorem followCap_duty (hduty : rdf s R.PWR_THROTTLE 0 7 ≤ 64) :
    (overCap s → rdf (followCap s) R.PWR_THROTTLE 0 7 = rdf s R.PWR_THROTTLE 0 7 - 1 ∧ rdf (followCap s) R.PWR_THROTTLE 8 1 = 1) ∧
    (mayRise s → rdf (followCap s) R.PWR_THROTTLE 0 7 = rdf s R.PWR_THROTTLE 0 7 + 1 ∧ (followCap s).dutyAt = s.ltc.toNat) ∧
    (¬ overCap s → ¬ mayRise s → followCap s = s) := by
  refine ⟨fun hover => ?_, fun hmay => ?_, fun hover hmay => ?_⟩
  · rw [followCap, if_pos hover]
    exact throttle_fields h (by omega) (by omega) (by omega)
  · have hover : ¬ overCap s := by
      obtain ⟨hlow, -⟩ := hmay
      unfold overCap
      omega
    rw [followCap, if_neg hover, if_pos hmay]
    exact ⟨rise_duty h hmay.2.2.2, rfl⟩
  · rw [followCap, if_neg hover, if_neg hmay]

theorem followCap_apart {lo n : Nat} (hlo : 9 ≤ lo) : rdf (followCap s) R.PWR_THROTTLE lo n = rdf s R.PWR_THROTTLE lo n := by
  unfold followCap
  split_ifs
  · exact throttle_apart h (by omega) (by omega) (by omega)
  · exact rise_apart h (by omega)
  · rfl

/-- R422: below full DUTY the time is counted and all else stands. -/
theorem countLow_of_low (hlow : rdf s R.PWR_THROTTLE 0 7 < 64) :
    (∀ lo n, lo + n ≤ 32 → rdf (countLow s) R.PWR_THROTTLE lo n = rdf s R.PWR_THROTTLE lo n) ∧
    rdf (countLow s) R.PWR_THROTTLE 32 32 = min (2 ^ 32 - 1) (rdf s R.PWR_THROTTLE 32 32 + 10) := by
  rw [countLow, if_pos hlow, addSat_eq_wrf]
  refine ⟨fun lo n hlo => rdf_wrf_apart h _ _ _ _ _ _ (by omega) (by omega), ?_⟩
  rw [rdf_wrf_same h _ _ _ _ (by omega)]
  exact Nat.mod_eq_of_lt (by omega)

/-- R422, log 53: at full DUTY the marks go. -/
theorem countLow_of_full (hfull : ¬ rdf s R.PWR_THROTTLE 0 7 < 64) :
    rdf (countLow s) R.PWR_THROTTLE 0 7 = rdf s R.PWR_THROTTLE 0 7 ∧ rdf (countLow s) R.PWR_THROTTLE 8 2 = 0 := by
  rw [countLow, if_neg hfull]
  exact ⟨rdf_wrf_apart h _ _ _ _ _ _ (by omega) (by omega), rdf_wrf_same h _ _ _ _ (by omega)⟩

theorem countLow_duty : rdf (countLow s) R.PWR_THROTTLE 0 7 = rdf s R.PWR_THROTTLE 0 7 := by
  by_cases hlow : rdf s R.PWR_THROTTLE 0 7 < 64
  · exact (countLow_of_low h hlow).1 0 7 (by omega)
  · exact (countLow_of_full h hlow).1

/-- R422: what a sample on a package that runs does to PWR_THROTTLE. -/
theorem countLow_followCap (hduty : rdf s R.PWR_THROTTLE 0 7 ≤ 64) :
    let u := countLow (followCap s)
    (overCap s → rdf u R.PWR_THROTTLE 0 7 = rdf s R.PWR_THROTTLE 0 7 - 1 ∧ rdf u R.PWR_THROTTLE 8 1 = 1) ∧
    (mayRise s → rdf u R.PWR_THROTTLE 0 7 = rdf s R.PWR_THROTTLE 0 7 + 1 ∧ u.dutyAt = s.ltc.toNat) ∧
    (¬ overCap s → ¬ mayRise s → rdf u R.PWR_THROTTLE 0 7 = rdf s R.PWR_THROTTLE 0 7) ∧
    (rdf u R.PWR_THROTTLE 0 7 = 64 → rdf u R.PWR_THROTTLE 8 2 = 0) ∧
    (rdf u R.PWR_THROTTLE 0 7 < 64 → rdf u R.PWR_THROTTLE 9 1 = rdf s R.PWR_THROTTLE 9 1 ∧
      rdf u R.PWR_THROTTLE 32 32 = min (2 ^ 32 - 1) (rdf s R.PWR_THROTTLE 32 32 + 10)) := by
  have hcap := (followCap_leaves h).inv
  obtain ⟨hfall, hrise, hstay⟩ := followCap_duty h hduty
  dsimp only
  rw [countLow_duty hcap]
  refine ⟨fun hover => ⟨(hfall hover).1, ?_⟩, fun hmay => ⟨(hrise hmay).1, ?_⟩, fun hover hmay => by rw [hstay hover hmay], fun hfull => ?_, fun hlow => ?_⟩
  · obtain ⟨hdown, hmark⟩ := hfall hover
    rw [(countLow_of_low hcap (by omega)).1 8 1 (by omega), hmark]
  · rw [countLow_dutyAt, (hrise hmay).2]
  · exact (countLow_of_full hcap (by omega)).2
  · obtain ⟨happly, hcount⟩ := countLow_of_low hcap hlow
    rw [happly 9 1 (by omega), hcount, followCap_apart h (by omega), followCap_apart h (by omega)]
    exact ⟨rfl, rfl⟩

end

theorem issuing_of_rd {s t : State} (hstat : rd t R.PWR_STAT = rd s R.PWR_STAT) : issuing t = issuing s := by
  simp only [issuing, pwrState, rdf_of_rd hstat]

@[simp] theorem countLow_powHist (s : State) : (countLow s).powHist = s.powHist := by
  unfold countLow
  split <;> rfl
@[simp] theorem countLow_mem (s : State) : (countLow s).mem = s.mem := by
  unfold countLow
  split <;> rfl
@[simp] theorem followCap_powHist (s : State) : (followCap s).powHist = s.powHist := by
  unfold followCap
  split_ifs <;> rfl
@[simp] theorem followCap_mem (s : State) : (followCap s).mem = s.mem := by
  unfold followCap
  split_ifs <;> rfl

section
variable {s : State} (h : s.Inv) (w : Nat) {mv ca : Nat} (hmv : mv < 65536) (hca : ca < 65536)
include h

theorem rd_shown_ne {a : Nat} (ha : a ≠ R.PWR_POWER) : rd (showPower (keepSample s w) mv ca) a = rd s a :=
  (showPower_leaves (s := keepSample s w) h mv ca).rd_eq a (onlyReg_of_ne ha)

include hmv hca

theorem overCap_shown : overCap (showPower (keepSample s w) mv ca) ↔
    rdf s R.PWR_POWER 48 16 * ((w :: s.powHist).take 10).length < ((w :: s.powHist).take 10).sum := by
  have hcap := (showPower_fields (s := keepSample s w) h hmv hca).2.2.2
  have hlast : (showPower (keepSample s w) mv ca).powHist.take 10 = (w :: s.powHist).take 10 := List.take_take
  rw [overCap, hcap, hlast]
  rfl

theorem mayRise_shown : mayRise (showPower (keepSample s w) mv ca) ↔
    ((w :: s.powHist).take 10).sum * 100 < rdf s R.PWR_POWER 48 16 * ((w :: s.powHist).take 10).length * 97 ∧
    rdf s R.PWR_THERM 0 16 ≤ rdf s R.PWR_THERM 32 8 * 10 ∧ s.dutyAt + 100000 ≤ s.ltc.toNat ∧ rdf s R.PWR_THROTTLE 0 7 < 64 := by
  have hcap := (showPower_fields (s := keepSample s w) h hmv hca).2.2.2
  have hlast : (showPower (keepSample s w) mv ca).powHist.take 10 = (w :: s.powHist).take 10 := List.take_take
  have htherm := rdf_of_rd (rd_shown_ne h w (mv := mv) (ca := ca) (a := R.PWR_THERM) (by decide))
  have hthrottle := rdf_of_rd (rd_shown_ne h w (mv := mv) (ca := ca) (a := R.PWR_THROTTLE) (by decide))
  rw [mayRise, hcap, hlast, htherm, htherm, hthrottle]
  rfl

end

/-- R422: a power sample keeps and shows the power; on a package that runs DUTY then follows the cap, and PWR_POWER and PWR_THROTTLE alone have moved. -/
theorem powerSample_moves {s : State} (h : s.Inv) (hpow : unpowered s = false) (w mv ca : Nat) :
    ∃ u, exec (.powerSample w mv ca) s = .next u ∧ u.powHist = (w :: s.powHist).take 100 ∧ u.mem = s.mem ∧
      Leaves (onlyReg R.PWR_THROTTLE) (showPower (keepSample s w) mv ca) u ∧
      (issuing s = true → u = countLow (followCap (showPower (keepSample s w) mv ca))) ∧
      (issuing s = false → u = showPower (keepSample s w) mv ca) := by
  have hshown := (showPower_leaves (s := keepSample s w) h mv ca).inv
  have hruns : issuing (showPower (keepSample s w) mv ca) = issuing s := issuing_of_rd (rd_shown_ne h w (by decide))
  refine ⟨_, exec_powerSample hpow w mv ca, ?_⟩
  rw [hruns]
  cases issuing s with
  | false => exact ⟨rfl, rfl, .refl hshown, nofun, fun _ => rfl⟩
  | true =>
    have hcap := followCap_leaves hshown
    refine ⟨?_, ?_, hcap.trans (countLow_leaves hcap.inv), fun _ => rfl, nofun⟩
    · show (countLow _).powHist = _
      rw [countLow_powHist, followCap_powHist]
      rfl
    · show (countLow _).mem = _
      rw [countLow_mem, followCap_mem]
      rfl

/-- R423: the place of the hottest die among the temperatures. -/
def hotDie (temps : List Nat) : Nat := (temps.findIdx? (· == temps.foldl max 0)).getD 0

/-- R423: throttling for heat: by one above a die's limit, and to at most 8 from 105 degrees. -/
def throttleHot (s : State) (hot : Nat) : State :=
  if rdf s R.PWR_THERM 32 8 * 10 < hot ∨ 1050 ≤ hot then
    throttle s (if 1050 ≤ hot then min 8 (rdf s R.PWR_THROTTLE 0 7 - 1) else rdf s R.PWR_THROTTLE 0 7 - 1) 9
  else s

theorem exec_thermalSample {s : State} (hpow : unpowered s = false) (temps : List Nat) :
    exec (.thermalSample temps) s = .next (if !issuing (showHot s (temps.foldl max 0) (hotDie temps)) then showHot s (temps.foldl max 0) (hotDie temps)
      else throttleHot (showHot s (temps.foldl max 0) (hotDie temps)) (temps.foldl max 0)) := by
  show execThermalSample temps s = _
  rw [execThermalSample, if_neg (by simp [hpow])]
  rfl

section
variable {s : State} (h : s.Inv)
include h

theorem throttleHot_leaves (hot : Nat) : Leaves (onlyReg R.PWR_THROTTLE) s (throttleHot s hot) := by
  unfold throttleHot
  split
  · exact throttle_leaves h _ _
  · exact .refl h

/-- R423: what a temperature does to DUTY and to the heat's mark. -/
theorem throttleHot_duty (hduty : rdf s R.PWR_THROTTLE 0 7 ≤ 64) (hot : Nat) :
    (hot ≤ rdf s R.PWR_THERM 32 8 * 10 → hot < 1050 → throttleHot s hot = s) ∧
    (rdf s R.PWR_THERM 32 8 * 10 < hot → hot < 1050 → rdf (throttleHot s hot) R.PWR_THROTTLE 0 7 = rdf s R.PWR_THROTTLE 0 7 - 1 ∧
      rdf (throttleHot s hot) R.PWR_THROTTLE 9 1 = 1) ∧
    (1050 ≤ hot → rdf (throttleHot s hot) R.PWR_THROTTLE 0 7 = min 8 (rdf s R.PWR_THROTTLE 0 7 - 1) ∧
      rdf (throttleHot s hot) R.PWR_THROTTLE 9 1 = 1) := by
  refine ⟨fun hcool hlow => ?_, fun hwarm hlow => ?_, fun hhigh => ?_⟩
  · rw [throttleHot, if_neg (by omega)]
  · rw [throttleHot, if_pos (.inl hwarm), if_neg (by omega)]
    exact throttle_fields h (by omega) (by omega) (by omega)
  · rw [throttleHot, if_pos (.inr hhigh), if_pos hhigh]
    exact throttle_fields h (by omega) (by omega) (by omega)

end

/-- The greatest of a list is in the list. -/
theorem foldl_max_mem (l : List Nat) (hl : l ≠ []) : l.foldl max 0 ∈ l := by
  obtain ⟨m, hm⟩ := Option.isSome_iff_exists.1 (List.isSome_max?_of_ne_nil hl)
  rw [List.foldl_max, hm, Option.getD_some, Nat.zero_max]
  exact List.max?_mem hm

theorem hotDie_spec {temps : List Nat} (hne : temps ≠ []) : temps[hotDie temps]? = some (temps.foldl max 0) := by
  cases hfind : temps.findIdx? (· == temps.foldl max 0) with
  | none =>
    have := List.findIdx?_eq_none_iff.1 hfind _ (foldl_max_mem temps hne)
    simp at this
  | some i =>
    obtain ⟨hi, hmax, -⟩ := List.findIdx?_eq_some_iff_getElem.1 hfind
    rw [hotDie, hfind, Option.getD_some, List.getElem?_eq_getElem hi, beq_iff_eq.1 hmax]

theorem hotDie_lt {temps : List Nat} (hne : temps ≠ []) : hotDie temps < temps.length :=
  (List.getElem?_eq_some_iff.1 (hotDie_spec hne)).1

/-- R423: a thermal sample shows the hottest die, and a package that runs throttles for it. -/
theorem thermalSample_moves {s : State} (h : s.Inv) (hpow : unpowered s = false) (temps : List Nat) :
    ∃ u, exec (.thermalSample temps) s = .next u ∧ Leaves (onlyReg R.PWR_THROTTLE) (showHot s (temps.foldl max 0) (hotDie temps)) u ∧
      (issuing s = true → u = throttleHot (showHot s (temps.foldl max 0) (hotDie temps)) (temps.foldl max 0)) ∧
      (issuing s = false → u = showHot s (temps.foldl max 0) (hotDie temps)) := by
  have hshown : (showHot s (temps.foldl max 0) (hotDie temps)).Inv := wr_inv _ _ h
  refine ⟨_, exec_thermalSample hpow temps, ?_⟩
  rw [issuing_of_rd (rd_showHot_ne h (temps.foldl max 0) (hotDie temps) (by decide))]
  cases issuing s with
  | false => exact ⟨.refl hshown, nofun, fun _ => rfl⟩
  | true => exact ⟨throttleHot_leaves hshown _, fun _ => rfl, nofun⟩

theorem powerAndHeat : Sys2Proof.Parts.PowerAndHeat := by
  intro s h hpow hduty
  refine ⟨fun w mv ca hmv hca => ?_, fun temps hne hlen hhot => ?_⟩
  · obtain ⟨u, hexec, hhist, hmem, hleaves, hrun, hidle⟩ := powerSample_moves h hpow w mv ca
    have hshown := (showPower_leaves (s := keepSample s w) h mv ca).inv
    have hpower := rdf_of_rd (hleaves.rd_eq R.PWR_POWER (onlyReg_of_ne (by decide)))
    have hthrottle : rd (showPower (keepSample s w) mv ca) R.PWR_THROTTLE = rd s R.PWR_THROTTLE := rd_shown_ne h w (by decide)
    obtain ⟨hmean, hvolt, hamp, hcap⟩ := showPower_fields (s := keepSample s w) h hmv hca
    refine ⟨u, hexec, hhist, ?_, ?_, ?_, ?_, fun hiss => ?_, fun hiss => ?_, fun a ha ha' => ?_, hmem⟩
    · rw [hpower, hmean, hhist]
      rfl
    · rw [hpower, hvolt]
    · rw [hpower, hamp]
    · rw [hpower, hcap]
      rfl
    · have hfollow := countLow_followCap hshown (by rwa [rdf_of_rd hthrottle])
      rw [← hrun hiss, overCap_shown h w hmv hca, mayRise_shown h w hmv hca] at hfollow
      simp only [rdf_of_rd hthrottle] at hfollow
      obtain ⟨hfall, hrise, hstay, hfull, hlow⟩ := hfollow
      exact ⟨hfall, fun hl hm => hrise ⟨hl, hm⟩, fun hle hno => hstay (by omega) hno, hfull, hlow⟩
    · rw [hidle hiss, hthrottle]
    · rw [hleaves.rd_eq a (onlyReg_of_ne ha'), rd_shown_ne h w ha]
  · obtain ⟨u, hexec, hleaves, hrun, hidle⟩ := thermalSample_moves h hpow temps
    have hdie : hotDie temps < 8 := (hotDie_lt hne).trans_le hlen
    have hshown : (showHot s (temps.foldl max 0) (hotDie temps)).Inv := wr_inv _ _ h
    have htherm := rdf_of_rd (hleaves.rd_eq R.PWR_THERM (onlyReg_of_ne (by decide)))
    have hthrottle : rd (showHot s (temps.foldl max 0) (hotDie temps)) R.PWR_THROTTLE = rd s R.PWR_THROTTLE := rd_showHot_ne h _ _ (by decide)
    have hlim := showHot_limit h (temps.foldl max 0) (hotDie temps)
    refine ⟨u, hexec, (htherm 0 16).trans (showHot_temp h _ hhot), ?_, (htherm 32 8).trans hlim, fun hiss => ?_, fun hiss => ?_, fun a ha ha' => ?_⟩
    · rw [htherm, showHot_die h _ hdie]
      exact hotDie_spec hne
    · obtain ⟨hcool, hwarm, hhigh⟩ := throttleHot_duty hshown (by rwa [rdf_of_rd hthrottle]) (temps.foldl max 0)
      rw [hlim, rdf_of_rd hthrottle] at hwarm
      rw [rdf_of_rd hthrottle] at hhigh
      rw [hrun hiss]
      exact ⟨fun hle hlow => by rw [hcool (by rwa [hlim]) hlow, hthrottle], hwarm, hhigh⟩
    · rw [hidle hiss, hthrottle]
    · rw [hleaves.rd_eq a (onlyReg_of_ne ha'), rd_showHot_ne h _ _ ha]

/-- Settles O57: the faults by `fatal_leaves` and `pwrState_fatal`; a sample shows what it read, and DUTY then follows by `countLow_followCap` or `throttleHot_duty`. -/
theorem clockPowerAndHeat : Obligations.ClockPowerAndHeat := ⟨clockAndRailFaults, powerAndHeat⟩

end Sys2Proof.Machine
end

section
/-! SUPPORT. Reads and writes of physical memory (R216, R230, R232, R243, R247, R316): what moves with the lines, and what every byte reads afterwards. -/

namespace Sys2Proof.Machine

/-- R15, R232, R243: a transfer waits at a link or a regulator, and moves nothing else. -/
theorem offer_eq (s : State) (x : Xact) : offer s x = { s with arch := (offer s x).arch, rgl := (offer s x).rgl } := by
  unfold offer offerHome respond
  split_ifs <;> rfl

theorem moveLines_eq (s : State) (src : Src) (a n : Nat) (write : Bool) :
    moveLines s src a n write = { s with arch := (moveLines s src a n write).arch, rgl := (moveLines s src a n write).rgl } := offer_eq s _

section
variable (s : State) (src : Src) (a n : Nat) (write : Bool)
@[simp] theorem moveLines_mem : (moveLines s src a n write).mem = s.mem := by rw [moveLines_eq]
@[simp] theorem moveLines_undef : (moveLines s src a n write).undef = s.undef := by rw [moveLines_eq]
@[simp] theorem moveLines_regs : (moveLines s src a n write).regs = s.regs := by rw [moveLines_eq]
@[simp] theorem moveLines_threads : (moveLines s src a n write).threads = s.threads := by rw [moveLines_eq]
@[simp] theorem moveLines_tx : (moveLines s src a n write).tx = s.tx := by rw [moveLines_eq]
end

/-- R247: the copies that a write invalidates, line by line. -/
def invalidateAll (s : State) (src : Src) (ls : List Nat) : State := ls.foldl (fun s l => invalidate s src l) s

/-- R247: an invalidation moves the caches' lines and what is to be acknowledged. -/
theorem invalidateAll_eq (src : Src) (ls : List Nat) : ∀ s : State,
    invalidateAll s src ls = { s with scLines := (invalidateAll s src ls).scLines, invs := (invalidateAll s src ls).invs } := by
  induction ls with
  | nil => exact fun _ => rfl
  | cons l ls ih => exact fun s => ih (invalidate s src l)

section
variable (s : State) (src : Src) (a n : Nat)
theorem wrote_eq_moveLines : wrote s src a n = moveLines (invalidateAll s src (linesOf a n)) src a n true := rfl
@[simp] theorem wrote_mem : (wrote s src a n).mem = s.mem := by rw [wrote_eq_moveLines, moveLines_mem, invalidateAll_eq]
@[simp] theorem wrote_undef : (wrote s src a n).undef = s.undef := by rw [wrote_eq_moveLines, moveLines_undef, invalidateAll_eq]
@[simp] theorem wrote_regs : (wrote s src a n).regs = s.regs := by rw [wrote_eq_moveLines, moveLines_regs, invalidateAll_eq]
@[simp] theorem wrote_threads : (wrote s src a n).threads = s.threads := by rw [wrote_eq_moveLines, moveLines_threads, invalidateAll_eq]
@[simp] theorem wrote_tx : (wrote s src a n).tx = s.tx := by rw [wrote_eq_moveLines, moveLines_tx, invalidateAll_eq]
end

section
variable (s : State) (src : Src) (a : Nat) (bs : List Byte)
@[simp] theorem physWrite_regs : (physWrite s src a bs).regs = s.regs := wrote_regs ..
@[simp] theorem physWrite_threads : (physWrite s src a bs).threads = s.threads := wrote_threads ..
@[simp] theorem physWrite_tx : (physWrite s src a bs).tx = s.tx := wrote_tx ..
end

/-- What every byte reads rests on memory and its undefined ranges. -/
theorem memByte_of_mem {s t : State} (hmem : t.mem = s.mem) (hundef : t.undef = s.undef) (a : Nat) : memByte t a = memByte s a := by
  rw [memByte, memByte, hmem, hundef]

theorem memByte_physWrite (s : State) (src : Src) (a : Nat) (bs : List Byte) (x : Nat) :
    memByte (physWrite s src a bs) x = memByte (memPut s a bs) x := memByte_of_mem (wrote_mem ..) (wrote_undef ..) x

/-- A write is read back. -/
theorem memByte_physWrite_in {s : State} (h : s.Inv) (src : Src) (a : Nat) (bs : List Byte) {i : Nat} (hi : i < bs.length) :
    memByte (physWrite s src a bs) (a + i) = bs[i] := by rw [memByte_physWrite, memByte_memPut_in h a bs i hi]

/-- A write leaves every byte outside it as it was. -/
theorem memByte_physWrite_out {s : State} (h : s.Inv) (src : Src) (a : Nat) (bs : List Byte) {x : Nat} (hx : x < a ∨ a + bs.length ≤ x) :
    memByte (physWrite s src a bs) x = memByte s x := by rw [memByte_physWrite, memByte_memPut_out h a bs x hx]

/-- An access within one line touches that line alone. -/
theorem linesOf_one {a n : Nat} (hn : n ≠ 0) (hline : a % 64 + n ≤ 64) : linesOf a n = [a / 64] := by
  rw [linesOf, show (a + n - 1) / 64 + 1 - a / 64 = 1 by omega]
  rfl

end Sys2Proof.Machine
end

section
/-! The Palale Link: its ports, resends, recalls and the loss of the host (R28, R312, R313, R316, R331, R371). -/

namespace Sys2Proof.Machine

theorem mem_ninsert (x y : Nat) (l : List Nat) : x ∈ ninsert y l ↔ x = y ∨ x ∈ l := by
  induction l with
  | nil => simp [ninsert]
  | cons z l ih =>
    unfold ninsert
    split_ifs with hlt heq
    · simp
    · simp [heq]
    · rw [List.mem_cons, List.mem_cons, ih, or_left_comm]

theorem foldl_poisonLine_eq (ls : List Nat) : ∀ s : State, ls.foldl poisonLine s = { s with poison := (ls.foldl poisonLine s).poison } := by
  induction ls with
  | nil => exact fun _ => rfl
  | cons l ls ih => exact fun s => ih (poisonLine s l)

theorem mem_foldl_poisonLine (x : Nat) (ls : List Nat) : ∀ s : State, x ∈ (ls.foldl poisonLine s).poison ↔ x ∈ ls ∨ x ∈ s.poison := by
  induction ls with
  | nil => simp
  | cons l ls ih =>
    intro s
    rw [List.foldl_cons, ih, poisonLine, mem_ninsert, List.mem_cons, or_assoc, or_left_comm]

/-- A key that does not read as the default is listed with what it reads as. -/
theorem mem_of_sget {α : Type} {d v : α} (hv : v ≠ d) (k : Nat) : ∀ m : Sparse α, sget d m k = v → (k, v) ∈ m := by
  intro m
  induction m with
  | nil => exact fun h => absurd h.symm hv
  | cons p m ih =>
    obtain ⟨j, w⟩ := p
    intro h
    simp only [sget] at h
    split_ifs at h with hlt heq
    · exact absurd h.symm hv
    · simp [heq, h]
    · exact List.mem_cons_of_mem _ (ih h)

/-- R331: the lines that the host holds dirty. -/
def dirtyLines (s : State) : List Nat := (s.hostLines.filter (fun kv => kv.2 == 2)).map (·.1)

theorem mem_dirtyLines {s : State} {l : Nat} (h : sget 0 s.hostLines l = 2) : l ∈ dirtyLines s := by
  rw [dirtyLines, List.mem_map]
  exact ⟨(l, 2), List.mem_filter.2 ⟨mem_of_sget (by decide) l _ h, rfl⟩, rfl⟩

/-- R331: the host's lines leave the directory, the dirty ones poisoned, and the session ends. -/
def dropHost (s : State) : State := (dirtyLines s).foldl poisonLine { s with hostLines := [], hostLost := true, session := none }

/-- R331: what reads neither registers nor the black box sees of a lost host what `dropHost` leaves. -/
theorem loseHost_reads {α : Type} (p : State → α) (hwr : ∀ s a v, p (wr s a v) = p s) (hput : ∀ s off r, p (bbxPut s off r) = p s)
    (hcount : ∀ s n, p { s with ringCount := n } = p s) (s : State) (port : Nat) : p (loseHost s port) = p (dropHost s) := by
  rw [loseHost, bbx_reads p hwr hput hcount, addSat, wrf, hwr, hwr]
  rfl

section
variable (s : State) (port : Nat)
theorem dropHost_eq : dropHost s = { s with hostLines := [], hostLost := true, session := none, poison := (dropHost s).poison } :=
  foldl_poisonLine_eq (dirtyLines s) _
@[simp] theorem loseHost_hostLost : (loseHost s port).hostLost = true := by
  rw [loseHost_reads State.hostLost (fun _ _ _ => rfl) (fun _ _ _ => rfl) (fun _ _ => rfl), dropHost_eq]
@[simp] theorem loseHost_session : (loseHost s port).session = none := by
  rw [loseHost_reads State.session (fun _ _ _ => rfl) (fun _ _ _ => rfl) (fun _ _ => rfl), dropHost_eq]
@[simp] theorem loseHost_hostLines : (loseHost s port).hostLines = [] := by
  rw [loseHost_reads State.hostLines (fun _ _ _ => rfl) (fun _ _ _ => rfl) (fun _ _ => rfl), dropHost_eq]
@[simp] theorem loseHost_mem : (loseHost s port).mem = s.mem := by
  rw [loseHost_reads State.mem (fun _ _ _ => rfl) (fun _ _ _ => rfl) (fun _ _ => rfl), dropHost_eq]
theorem mem_loseHost_poison {l : Nat} (h : sget 0 s.hostLines l = 2) : l ∈ (loseHost s port).poison := by
  rw [loseHost_reads State.poison (fun _ _ _ => rfl) (fun _ _ _ => rfl) (fun _ _ => rfl), dropHost, mem_foldl_poisonLine]
  exact .inl (mem_dirtyLines h)
end

section
variable {s : State} {port : Nat} (hport : port < 2)
include hport

omit hport in
/-- R313: a port that is down already is not declared down again. -/
theorem plkDown_of_down (hdown : rdf s R.PLK_STAT (2 * port) 2 = 0) : plkDown s port = s := by
  rw [plkDown, if_pos (by simp [hdown])]

/-- R313, R331: a port goes down and is counted; the host is lost where the other is not up, unless it was lost before. -/
theorem plkDown_of_up (hup : rdf s R.PLK_STAT (2 * port) 2 ≠ 0) :
    let s1 := addSat (wrf s R.PLK_STAT (2 * port) 2 0) R.PLK_STAT 16 16 1
    plkDown s port = if rdf s R.PLK_STAT (2 * (1 - port)) 2 = 3 ∨ s.hostLost = true then s1 else loseHost s1 port := by
  rw [plkDown, if_neg (by simpa [hport] using hup)]
  by_cases hother : rdf s R.PLK_STAT (2 * (1 - port)) 2 = 3
  · simp only [hother, if_true, true_or]
  · simp only [hother, if_false, false_or]
    rfl

theorem exec_plkPortUp (hrun : pwrState s ≠ 4) : exec (.plkPortUp port) s = .next (wrf s R.PLK_STAT (2 * port) 2 3) :=
  next_ite_neg (by simp [hport, hrun])

omit hport in
theorem exec_plkFlitResend_of_down {n : Nat} (hdown : rdf s R.PLK_STAT (2 * port) 2 ≠ 3) : exec (.plkFlitResend port n) s = .next s :=
  next_ite_pos (by simp [hdown])

/-- R312, R371: a resent flit is counted; in a session one that failed its tag is counted too, and the eighth in a row takes the port down. -/
theorem exec_plkFlitResend (n : Nat) (hup : rdf s R.PLK_STAT (2 * port) 2 = 3) : exec (.plkFlitResend port n) s =
    .next (if n = 0 ∨ s.session = none then addSat s R.PLK_ERR 0 32 1
      else if 8 ≤ n then plkDown (addSat (addSat s R.PLK_ERR 0 32 1) R.SEC_LINKAUTH 32 32 1) port
      else addSat (addSat s R.PLK_ERR 0 32 1) R.SEC_LINKAUTH 32 32 1) :=
  next_ite_neg (by simp [hport, hup])

end

/-- R316: a line the host held dirty comes back. -/
def recalled (s : State) (line : Nat) (bytes : List Byte) : State :=
  physWrite { s with hostLines := sset 0 s.hostLines line 0 } srcHost (line * 64) bytes

theorem exec_recallReturn {s : State} {line : Nat} {bytes : List Byte} (hdirty : sget 0 s.hostLines line = 2) (hlen : bytes.length = 64) :
    exec (.recallReturn line bytes) s = .next (ckpPump (recalled s line bytes)) :=
  next_ite_neg (by simp [hdirty, hlen])

/-- R316: the line then holds the host's bytes, and no other byte has changed. -/
theorem memByte_recalled {s : State} (h : s.Inv) (line : Nat) {bytes : List Byte} (hlen : bytes.length = 64) :
    (∀ i < 64, memByte (recalled s line bytes) (line * 64 + i) = bytes.getD i 0) ∧
    (∀ a, a / 64 ≠ line → memByte (recalled s line bytes) a = memByte s a) := by
  have hheld : ({ s with hostLines := sset 0 s.hostLines line 0 } : State).Inv := h
  refine ⟨fun i hi => ?_, fun a ha => ?_⟩
  · rw [recalled, memByte_physWrite_in hheld srcHost _ _ (hlen ▸ hi), List.getD_eq_getElem]
  · rw [recalled, memByte_physWrite_out hheld srcHost _ _ (by omega)]
    rfl

/-- Settles O44: the ports by `plkDown_of_up` and `exec_plkFlitResend`, the loss of the host by `loseHost_reads`, a recall by `memByte_recalled`. -/
theorem hostLink : Obligations.HostLink := by
  intro s port h hport
  refine ⟨fun hdown => ?_, fun hup => ?_, ⟨loseHost_hostLost s port, loseHost_session s port, loseHost_hostLines s port, loseHost_mem s port,
      fun l => mem_loseHost_poison s port⟩, fun hrun => ?_, fun hstop => next_ite_pos (by simp [hstop]),
    fun n => exec_plkFlitResend_of_down, fun n hup hplain => ?_, fun n hup hlo hhi hses => ?_, fun n hup hlo hses => ?_,
    fun line bytes hdirty hlen => ⟨exec_recallReturn hdirty hlen, memByte_recalled h line hlen⟩,
    fun line bytes hclean => next_ite_pos (.inl hclean)⟩
  · exact congrArg _ (plkDown_of_down hdown)
  · exact congrArg _ (plkDown_of_up hport hup)
  · exact ⟨_, exec_plkPortUp hport hrun, rdf_wrf_same h _ _ _ _ (by omega), fun a ha => rd_wrf_ne h _ _ _ ha, rfl⟩
  · rw [exec_plkFlitResend hport n hup, if_pos hplain]
  · rw [exec_plkFlitResend hport n hup, if_neg (not_or.2 ⟨by omega, hses⟩), if_neg (by omega)]
  · rw [exec_plkFlitResend hport n hup, if_neg (not_or.2 ⟨by omega, hses⟩), if_pos hlo]

end Sys2Proof.Machine
end

section
/-! The host's reads and writes of memory (R25, R314, R316, R366, R371, R376, R385, R416, R425). -/

namespace Sys2Proof.Machine

theorem readLine_of_clean {s : State} {line : Nat} (h : sget 0 s.symErr line = 0) : readLine s line = s := by
  unfold readLine
  rw [h]

/-- R216: bytes of one line that shows no bad symbol are read as they stand, poisoned where the line is. -/
theorem physGet_one {s : State} {a n : Nat} (hn : n ≠ 0) (hline : a % 64 + n ≤ 64) (hclean : sget 0 s.symErr (a / 64) = 0) :
    physGet s a n = (s, memGet s a n, s.poison.contains (a / 64)) := by
  simp [physGet, linesOf_one hn hline, readLine_of_clean hclean]

/-- R230: the host reads from a line's home. -/
theorem physRead_host (s : State) (a n : Nat) : physRead s srcHost a n = (moveLines (physGet s a n).1 srcHost a n false, (physGet s a n).2) := rfl

section
variable {s : State} {a n hold : Nat} {bs : List Byte}

/-- R313: with no port up no access arrives. -/
theorem exec_of_closed (hshut : plkOpen s = false) (n : Nat) (v : Word) (bs : List Byte) :
    exec (.hostRead a n hold) s = .next s ∧ exec (.hostWrite a bs hold) s = .next s ∧ exec (.registerWrite a n v) s = .next s :=
  ⟨next_ite_pos (by simp [hshut]), next_ite_pos (by simp [hshut]), next_ite_pos (by simp [hshut])⟩

section
variable (hopen : plkOpen s = true)
include hopen

section
variable (hn : n ≠ 0) (hline : a % 64 + n ≤ 64)
include hn hline

theorem exec_hostRead_of_open : exec (.hostRead a n hold) s = .next (if hostBarred s a then toHost s (.answer a [] false)
    else if region a = .reg then
      (if (regBad s a n).isSome then toHost s (.answer a [] false)
       else toHost (regLoad (moveMsg s srcHost (regHome a) 8 false) a).1 (.answer a (leBytes 8 (regLoad (moveMsg s srcHost (regHome a) 8 false) a).2.toNat) true))
    else if (physErr s .host a n false).isSome then toHost s (.answer a [] false)
    else if hostWaits s (a / 64) then s
    else if (physRead s srcHost a n).2.2 then toHost (physRead s srcHost a n).1 (.poisoned a)
    else toHost (hostHolds (physRead s srcHost a n).1 (a / 64) hold) (.answer a (physRead s srcHost a n).2.1 true)) :=
  next_ite_neg (by simp [hopen, hn, hline])

/-- R371, R376, R416: a barred read gets the link's error response. -/
theorem exec_hostRead_barred (hbar : hostBarred s a = true) : exec (.hostRead a n hold) s = .next (toHost s (.answer a [] false)) := by
  rw [exec_hostRead_of_open hopen hn hline, if_pos hbar]

/-- R25: a read of memory that does not exist gets the link's error response. -/
theorem exec_hostRead_error (hbar : hostBarred s a = false) (hmem : region a ≠ .reg) (herr : (physErr s .host a n false).isSome = true) :
    exec (.hostRead a n hold) s = .next (toHost s (.answer a [] false)) := by
  rw [exec_hostRead_of_open hopen hn hline, if_neg (by simp [hbar]), if_neg hmem, if_pos herr]

/-- R216, R235, R314, R316, R425: a read of memory waits with its line, and else answers its bytes, or that they are poisoned. -/
theorem exec_hostRead_mem (hbar : hostBarred s a = false) (hmem : region a ≠ .reg) (herr : physErr s .host a n false = none) :
    (hostWaits s (a / 64) = true → exec (.hostRead a n hold) s = .next s) ∧
    (hostWaits s (a / 64) = false → (physRead s srcHost a n).2.2 = false → exec (.hostRead a n hold) s =
      .next (toHost (hostHolds (physRead s srcHost a n).1 (a / 64) hold) (.answer a (physRead s srcHost a n).2.1 true))) ∧
    (hostWaits s (a / 64) = false → (physRead s srcHost a n).2.2 = true →
      exec (.hostRead a n hold) s = .next (toHost (physRead s srcHost a n).1 (.poisoned a))) := by
  rw [exec_hostRead_of_open hopen hn hline, if_neg (by simp [hbar]), if_neg hmem, if_neg (by simp [herr])]
  refine ⟨fun hwait => by rw [if_pos hwait], fun hgo hsound => ?_, fun hgo hpoison => ?_⟩
  · rw [if_neg (by simp [hgo]), if_neg (by simp [hsound])]
  · rw [if_neg (by simp [hgo]), if_pos hpoison]

omit hopen in
/-- R216: what a read of a line with no bad symbol gives, and that it changes no memory. -/
theorem physRead_host_clean (hclean : sget 0 s.symErr (a / 64) = 0) :
    (physRead s srcHost a n).2.1 = (List.range n).map (fun i => memByte s (a + i)) ∧ ((physRead s srcHost a n).2.2 = true ↔ a / 64 ∈ s.poison) ∧
    (physRead s srcHost a n).1.mem = s.mem ∧ (physRead s srcHost a n).1.regs = s.regs ∧ (physRead s srcHost a n).1.threads = s.threads := by
  rw [physRead_host, physGet_one hn hline hclean]
  exact ⟨rfl, List.contains_iff_mem, moveLines_mem .., moveLines_regs .., moveLines_threads ..⟩

end

section
variable (hbs : bs ≠ []) (hline : a % 64 + bs.length ≤ 64)
include hbs hline

/-- R371, R376, R416: a barred write, of memory or of a register, gets the link's error response. -/
theorem exec_hostWrite_barred (hbar : hostBarred s a = true) : exec (.hostWrite a bs hold) s = .next (toHost s (.answer a [] false)) := by
  refine (next_ite_neg (by simp [hopen, hbs, hline])).trans ?_
  by_cases hreg : region a = .reg
  · rw [if_pos hreg, hostRegStore, if_neg (by simp [hopen]), if_pos (by simp [hbar])]
  · rw [if_neg hreg, if_pos (by simp [hbar])]

theorem exec_hostWrite_of_mem (hbar : hostBarred s a = false) (hmem : region a ≠ .reg) : exec (.hostWrite a bs hold) s =
    .next (if (physErr s .host a bs.length true).isSome then toHost s (.answer a [] false)
      else if hostWaits s (a / 64) then s
      else toHost (hostHolds (physWrite s srcHost a bs) (a / 64) hold) (.answer a [] true)) := by
  refine (next_ite_neg (by simp [hopen, hbs, hline])).trans ?_
  rw [if_neg hmem, hbar, Bool.false_or]

end

end

end

/-- R316: a host write of memory is made, the host then holds the line as it asked, and is answered. -/
def hostWritten (s : State) (a : Nat) (bs : List Byte) (hold : Nat) : State :=
  toHost (hostHolds (physWrite s srcHost a bs) (a / 64) hold) (.answer a [] true)

section
variable (s : State) (line hold : Nat) (x : Tx)
@[simp] theorem toHost_mem : (toHost s x).mem = s.mem := rfl
@[simp] theorem toHost_undef : (toHost s x).undef = s.undef := rfl
@[simp] theorem toHost_regs : (toHost s x).regs = s.regs := rfl
@[simp] theorem toHost_threads : (toHost s x).threads = s.threads := rfl
@[simp] theorem toHost_tx : (toHost s x).tx = s.tx ++ [x] := rfl
@[simp] theorem hostHolds_mem : (hostHolds s line hold).mem = s.mem := rfl
@[simp] theorem hostHolds_undef : (hostHolds s line hold).undef = s.undef := rfl
@[simp] theorem hostHolds_regs : (hostHolds s line hold).regs = s.regs := rfl
@[simp] theorem hostHolds_threads : (hostHolds s line hold).threads = s.threads := rfl
@[simp] theorem hostHolds_tx : (hostHolds s line hold).tx = s.tx := rfl
end

/-- R25, R316: a host write changes its bytes of memory, no other byte, no register and no thread, and is acknowledged. -/
theorem hostWritten_effect {s : State} (h : s.Inv) (a : Nat) (bs : List Byte) (hold : Nat) :
    (∀ i (hi : i < bs.length), memByte (hostWritten s a bs hold) (a + i) = bs[i]) ∧
    (∀ x, x < a ∨ a + bs.length ≤ x → memByte (hostWritten s a bs hold) x = memByte s x) ∧
    (hostWritten s a bs hold).regs = s.regs ∧ (hostWritten s a bs hold).threads = s.threads ∧
    (hostWritten s a bs hold).tx = s.tx ++ [.answer a [] true] := by
  have hbyte : ∀ x, memByte (hostWritten s a bs hold) x = memByte (physWrite s srcHost a bs) x :=
    memByte_of_mem (by rw [hostWritten, toHost_mem, hostHolds_mem]) (by rw [hostWritten, toHost_undef, hostHolds_undef])
  simp only [hostWritten, toHost_regs, hostHolds_regs, physWrite_regs, toHost_threads, hostHolds_threads, physWrite_threads, toHost_tx,
    hostHolds_tx, physWrite_tx, and_true] at hbyte ⊢
  refine ⟨fun i hi => ?_, fun x hx => ?_⟩
  · rw [hbyte, memByte_physWrite_in h srcHost a bs hi]
  · rw [hbyte, memByte_physWrite_out h srcHost a bs hx]

/-- Settles O45: each access by the case of what stands in its way; a write's effect by `hostWritten_effect`, a read's by `physRead_host_clean`. -/
theorem hostMemoryAccesses : Obligations.HostMemoryAccesses := by
  intro s a hold h
  refine ⟨fun bs hopen hbs hline hbar hmem herr => ?_, fun n hopen hn hline hbar hmem herr => ?_, fun n bs hopen hn hline hbs hlineW hbar => ?_,
    fun n bs hopen hn hline hbs hlineW hbar hmem => ?_, fun hshut n v bs => exec_of_closed hshut n v bs⟩
  · rw [exec_hostWrite_of_mem hopen hbs hline hbar hmem, if_neg (by simp [herr])]
    exact ⟨fun hgo => ⟨_, by rw [if_neg (by simp [hgo]), hostWritten], hostWritten_effect h a bs hold⟩, fun hwait => by rw [if_pos hwait]⟩
  · obtain ⟨hwait, hsound, hpoison⟩ := exec_hostRead_mem hopen hn hline hbar hmem herr (hold := hold)
    exact ⟨hwait, hsound, hpoison, physRead_host_clean hn hline⟩
  · exact ⟨exec_hostRead_barred hopen hn hline hbar, exec_hostWrite_barred hopen hbs hlineW hbar⟩
  · exact ⟨exec_hostRead_error hopen hn hline hbar hmem,
      fun herr => by rw [exec_hostWrite_of_mem hopen hbs hlineW hbar hmem, if_pos herr]⟩

end Sys2Proof.Machine
end

section
/-! Waits and fences (R45, R72, R247). -/

namespace Sys2Proof.Machine

/-- R45: a counter has reached a threshold exactly where their signed difference is not negative. -/
theorem reached_eq_decide (t : Thread) (c : Nat) (thr : Half) : reached t c thr = decide (0 ≤ (cr t c - thr).toInt) := by
  rw [reached, BitVec.msb_eq_toInt, ← decide_not]
  simp only [not_lt]

theorem reached_of_nonneg {t : Thread} {c : Nat} {thr : Half} (h : 0 ≤ (cr t c - thr).toInt) : reached t c thr = true := by
  rw [reached_eq_decide, decide_eq_true h]

theorem reached_of_neg {t : Thread} {c : Nat} {thr : Half} (h : (cr t c - thr).toInt < 0) : reached t c thr = false := by
  rw [reached_eq_decide, decide_eq_false (not_le.2 h)]

/-- R45, R72: WAIT and WAITR, whose threshold is the immediate or a register, retire or stall. -/
theorem does_waitFor {c : Tid → Opnds → Instr} {r : Option RShape} {i : Option IShape} (thr : State → Nat → Opnds → Half)
    (hexec : ∀ t o s, exec (c t o) s = insn s t o 0x03 r i (fun k s => waitFor k s o.a.toNat (thr s k o))) :
    Does c 0x03 r i (fun s k o => 0 ≤ (cr (th s k) o.a.toNat - thr s k o).toInt) (fun s k _ => retire s k) ∧
    Does c 0x03 r i (fun s k o => (cr (th s k) o.a.toNat - thr s k o).toInt < 0)
      (fun s k o => setTh s k { th s k with phase := .waitCtr o.a.toNat (thr s k o) }) := by
  refine ⟨does_of_insn (fun o k s => waitFor k s o.a.toNat (thr s k o)) hexec fun s k o _ hpast => ?_,
    does_of_insn (fun o k s => waitFor k s o.a.toNat (thr s k o)) hexec fun s k o _ hbefore => ?_⟩
  · rw [waitFor, if_pos (reached_of_nonneg hpast), finish]
  · rw [waitFor, if_neg (by simp [reached_of_neg hbefore]), finish]

@[simp] theorem setP_pc (b : Bool) (t : Thread) (i : Nat) (v : BitVec 512) : (setP b t i v).pc = t.pc := rfl

/-- R72: the thread whose WAITD ends holds in every bit of pD whether its counter got there, and runs on. -/
theorem waitdEnd_eq {s : State} (h : s.Inv) (k c : Nat) (thr : Half) (pd : Nat) :
    waitdEnd s k c thr pd = setTh s k { setP (isS k) (th s k) pd (if 0 ≤ (cr (th s k) c - thr).toInt then BitVec.allOnes 512 else 0) with
      phase := .run, pc := (th s k).pc + 8 } := by
  rw [waitdEnd, retire_setTh h, setP_pc, allP, reached_eq_decide]
  simp only [decide_eq_true_eq]

/-- R72: what WAITD does once it issues. -/
def waitdEffect (o : Opnds) (k : Nat) (s : State) : Res :=
  if reached (th s k) o.a.toNat ((xr (th s k) o.b.toNat).truncate 32) || (xr (th s k) o.c.toNat).toNat ≤ s.ltc.toNat then
    .stay (waitdEnd s k o.a.toNat ((xr (th s k) o.b.toNat).truncate 32) o.d.toNat)
  else .stay (setTh s k { th s k with phase := .waitDl o.a.toNat ((xr (th s k) o.b.toNat).truncate 32) (xr (th s k) o.c.toNat) o.d.toNat })

section
variable {s : State} {t : Tid} (hrun : issuing s = true) (hkept : (th s (tkey t)).saving = none)
include hrun hkept

/-- R45: a stalled wait retires once its counter has reached the threshold. -/
theorem exec_waitRelease_ctr {c : Nat} {thr : Half} (h : s.Inv) (hphase : (th s (tkey t)).phase = .waitCtr c thr)
    (hpast : 0 ≤ (cr (th s (tkey t)) c - thr).toInt) :
    exec (.waitRelease t) s = .next (setTh s (tkey t) { th s (tkey t) with phase := .run, pc := (th s (tkey t)).pc + 8 }) := by
  show execWaitRelease t s = _
  simp [execWaitRelease, hrun, hkept, hphase, reached_of_nonneg hpast, retire_setTh h]

theorem exec_waitRelease_deadline {c pd : Nat} {thr : Half} {dl : Word} (hphase : (th s (tkey t)).phase = .waitDl c thr dl pd)
    (hpast : 0 ≤ (cr (th s (tkey t)) c - thr).toInt) : exec (.waitRelease t) s = .next (waitdEnd s (tkey t) c thr pd) := by
  show execWaitRelease t s = _
  simp [execWaitRelease, hrun, hkept, hphase, reached_of_nonneg hpast]

theorem exec_waitdDeadline {c pd : Nat} {thr : Half} {dl : Word} (hphase : (th s (tkey t)).phase = .waitDl c thr dl pd)
    (hdue : dl.toNat ≤ s.ltc.toNat) : exec (.waitdDeadline t) s = .next (waitdEnd s (tkey t) c thr pd) := by
  show execWaitdDeadline t s = _
  simp [execWaitdDeadline, hrun, hkept, hphase, hdue]

end

/-- Settles O14: WAIT and WAITR by `does_waitFor`, the ends of a WAITD by `waitdEnd_eq`; a fence by whether what it caused is acknowledged. -/
theorem waitsAndFence : Obligations.WaitsAndFence := by
  have hwait := does_waitFor (c := .wait) (i := some ⟨0, 32, 0xFFFFFFFF⟩) (fun _ _ o => o.imm) fun _ _ _ => rfl
  have hwaitr := does_waitFor (c := .waitr) (r := some ⟨0, 32, 64, 0, 0⟩) (fun s k o => (xr (th s k) o.b.toNat).truncate 32) fun _ _ _ => rfl
  refine ⟨hwait.1, hwait.2, hwaitr.1, hwaitr.2, does_of_insn waitdEffect (fun _ _ _ => rfl) fun s k o h hends => ?_,
    does_of_insn waitdEffect (fun _ _ _ => rfl) fun s k o _ hstalls => ?_,
    does_of_insn (fun _ k s => .stay (setTh s k { th s k with phase := .fence })) (fun _ _ _ => rfl) fun _ _ _ _ _ => rfl,
    fun s t h hrun hkept => ⟨fun c thr hphase hpast => exec_waitRelease_ctr hrun hkept h hphase hpast,
      fun c thr dl pd hphase hpast => ?_, fun c thr dl pd hphase hdue => ?_, fun hphase hacked => ?_, fun hphase hnot => ?_⟩⟩
  · rw [waitdEffect, if_pos (by simpa [reached_eq_decide] using hends), finish, waitdEnd_eq h]
  · obtain ⟨hbefore, hearly⟩ := hstalls
    rw [waitdEffect, if_neg (by simp [reached_of_neg hbefore, hearly]), finish]
  · rw [exec_waitRelease_deadline hrun hkept hphase hpast, waitdEnd_eq h, if_pos hpast]
  · rw [exec_waitdDeadline hrun hkept hphase hdue, waitdEnd_eq h]
  · exact (next_ite_pos ⟨hphase, by simp [hkept], hrun, hacked⟩).trans (by rw [retire_setTh h])
  · exact next_ite_neg (by simp [hnot])

end Sys2Proof.Machine
end

section
/-! The walk of a descriptor (R442): three counts taken as the digits of one number, and the addresses of rows and scales. -/

namespace Sys2Proof.Machine

/-- The digits of a number, the lowest counting to `a` and the next to `b`. -/
def walkDigits (a b n : Nat) : Nat × Nat × Nat := (n % a, n / a % b, n / a / b)

theorem walkDigits_eq_iff {a b x y z : Nat} (hx : x < a) (hy : y < b) (n : Nat) : walkDigits a b n = (x, y, z) ↔ n = x + a * (y + b * z) := by
  constructor
  · intro h
    obtain ⟨hlow, hmid, hhigh⟩ : n % a = x ∧ n / a % b = y ∧ n / a / b = z := by simpa [walkDigits] using h
    rw [← hlow, ← hmid, ← hhigh, Nat.mod_add_div, Nat.mod_add_div]
  · rintro rfl
    have hquot : (x + a * (y + b * z)) / a = y + b * z := by
      rw [Nat.add_mul_div_left _ _ (by omega), Nat.div_eq_of_lt hx, Nat.zero_add]
    rw [walkDigits, hquot, Nat.add_mul_mod_self_left, Nat.mod_eq_of_lt hx, Nat.add_mul_mod_self_left, Nat.mod_eq_of_lt hy,
      Nat.add_mul_div_left _ _ (by omega), Nat.div_eq_of_lt hy, Nat.zero_add]

theorem walkDigits_lt {a b c x y z : Nat} (hx : x < a) (hy : y < b) (hz : z < c) : x + a * (y + b * z) < a * b * c :=
  calc x + a * (y + b * z) < a * (y + b * z + 1) := by rw [Nat.mul_succ]; omega
    _ ≤ a * (b * (z + 1)) := Nat.mul_le_mul_left _ (by rw [Nat.mul_succ]; omega)
    _ ≤ a * (b * c) := Nat.mul_le_mul_left _ (Nat.mul_le_mul_left _ hz)
    _ = a * b * c := (Nat.mul_assoc ..).symm

/-- Below the product of the counts, each three digits are those of exactly one number. -/
theorem exists_unique_walkDigits {a b c x y z : Nat} (hx : x < a) (hy : y < b) (hz : z < c) :
    ∃ n < a * b * c, walkDigits a b n = (x, y, z) ∧ ∀ m, walkDigits a b m = (x, y, z) → m = n :=
  ⟨x + a * (y + b * z), walkDigits_lt hx hy hz, (walkDigits_eq_iff hx hy _).2 rfl, fun m => (walkDigits_eq_iff hx hy m).1⟩

section
variable {d : Desc} {n i0 i1 i2 : Nat}

/-- R442: ORDER 0 takes i0 fastest, then i1. -/
theorem Desc.index_eq_iff_of_order0 (h : d.order = 0) : d.index n = (i0, i1, i2) ↔ walkDigits d.n0 d.n1 n = (i0, i1, i2) := by
  simp [Desc.index, h, walkDigits]

/-- R442: ORDER 1 takes i1 fastest, then i0. -/
theorem Desc.index_eq_iff_of_order1 (h : d.order = 1) : d.index n = (i0, i1, i2) ↔ walkDigits d.n1 d.n0 n = (i1, i0, i2) := by
  simp only [Desc.index, h, walkDigits, Prod.mk.injEq]
  tauto

/-- R442: ORDER 2 takes i2 fastest, then i0. -/
theorem Desc.index_eq_iff_of_order2 (h0 : d.order ≠ 0) (h1 : d.order ≠ 1) : d.index n = (i0, i1, i2) ↔ walkDigits d.n2 d.n0 n = (i2, i0, i1) := by
  have hindex : d.index n = (n / d.n2 % d.n0, n / d.n2 / d.n0, n % d.n2) := by
    unfold Desc.index
    split
    · contradiction
    · contradiction
    · rfl
  simp only [hindex, walkDigits, Prod.mk.injEq]
  tauto

/-- R442: the walk takes each tile exactly once. -/
theorem Desc.exists_unique_index (d : Desc) {i0 i1 i2 : Nat} (h0 : i0 < d.n0) (h1 : i1 < d.n1) (h2 : i2 < d.n2) :
    ∃ n < d.n0 * d.n1 * d.n2, d.index n = (i0, i1, i2) ∧ ∀ m, d.index m = (i0, i1, i2) → m = n := by
  by_cases hfirst : d.order = 0
  · simpa only [Desc.index_eq_iff_of_order0 hfirst] using exists_unique_walkDigits h0 h1 h2
  · by_cases hsecond : d.order = 1
    · simpa only [Desc.index_eq_iff_of_order1 hsecond, Nat.mul_comm d.n0 d.n1] using exists_unique_walkDigits h1 h0 h2
    · have hcount : d.n0 * d.n1 * d.n2 = d.n2 * d.n0 * d.n1 := by ring
      simpa only [Desc.index_eq_iff_of_order2 hfirst hsecond, hcount] using exists_unique_walkDigits h2 h0 h1

theorem vaOf_eq_emod (a : Int) : (vaOf a : Int) = a % 2 ^ 64 := by
  rw [vaOf, ofInt, Int.toNat_of_nonneg (Int.emod_nonneg _ (by norm_num))]

/-- R442: where a row begins. -/
theorem Desc.rowAddr_eq (h : d.index n = (i0, i1, i2)) (r : Nat) : (d.rowAddr n r : Int) =
    ((d.w0.toNat : Int) + i0 * d.w3.toInt + i1 * d.w4.toInt + i2 * d.w5.toInt + r * d.rowStride) % 2 ^ 64 := by
  rw [Desc.rowAddr, h, vaOf_eq_emod]

/-- R442: where a scale of a tile lies whose blocks of 32 run down its columns. -/
theorem Desc.scaleAddr_of_columns (h : d.index n = (i0, i1, i2)) (haxis : d.axis = true) (hrows : d.rows % 32 = 0) (u v : Nat) :
    (d.scaleAddr n u v : Int) =
      ((d.w6.toNat : Int) + (((i2 * d.n1 + i1) * (d.rows / 32) + u : Nat) * d.srs + ((i0 * d.cols + v : Nat) : Int))) % 2 ^ 64 := by
  rw [Desc.scaleAddr, h]
  simp only [haxis, if_true, vaOf_eq_emod, Nat.mul_div_assoc _ (Nat.dvd_of_mod_eq_zero hrows), Nat.cast_add, add_assoc]

/-- R442: where a scale of a tile lies whose blocks of 32 run along its rows. -/
theorem Desc.scaleAddr_of_rows (h : d.index n = (i0, i1, i2)) (haxis : d.axis = false) (hcols : d.cols % 32 = 0) (u v : Nat) :
    (d.scaleAddr n u v : Int) =
      ((d.w6.toNat : Int) + (((i2 * d.n1 + i1) * d.rows + u : Nat) * d.srs + ((i0 * (d.cols / 32) + v : Nat) : Int))) % 2 ^ 64 := by
  rw [Desc.scaleAddr, h]
  simp only [haxis, Bool.false_eq_true, if_false, vaOf_eq_emod, Nat.mul_div_assoc _ (Nat.dvd_of_mod_eq_zero hcols), Nat.cast_add, add_assoc]

end

/-- Settles O16: a tile's number has its indices as digits; the addresses read them alone. -/
theorem tileWalk : Obligations.TileWalk := by
  refine fun d => ⟨fun i0 i1 i2 h0 h1 h2 => ?_, fun n i0 i1 i2 r h => d.rowAddr_eq h r, fun n i0 i1 i2 u v h hrows hcols => ?_⟩
  · obtain ⟨n, hn, hindex, honly⟩ := d.exists_unique_index h0 h1 h2
    exact ⟨n, hn, hindex, fun m _ => honly m⟩
  · by_cases haxis : d.axis = true
    · rw [if_pos haxis, Desc.scaleAddr_of_columns h haxis (hrows.resolve_right (by simp [haxis]))]
    · rw [if_neg haxis, Desc.scaleAddr_of_rows h (by simpa using haxis) (hcols.resolve_right haxis)]

end Sys2Proof.Machine
end

section
/-! Class instructions on their way to the stations (R35, R54, R84, R122, R123, R128, R141, R144, R155, R445). -/

namespace Sys2Proof.Machine

/-- R57, R58, R61, R84: an instruction whose word has a check of its own does its effect where that passes, and is an illegal encoding where it does not. -/
theorem insnW_eq {s : State} {t : Tid} {o : Opnds} {cls : Nat} {r : Option RShape} {i : Option IShape} (hiss : Issues s t o cls r i) (ok : Bool)
    (eff : Nat → State → Res) : insnW s t o cls r i ok eff =
      .next (if ok = true then finish (tkey t) cls (eff (tkey t) s) else insnFault s (tkey t) cls 0x11 0x11 0) := by
  obtain ⟨hcan, hcls, hshape, hguard⟩ := hiss
  cases ok <;> simp [insnW, hcan, hcls, hshape, hguard]

theorem does_of_insnW {c : Tid → Opnds → Instr} {cls : Nat} {r : Option RShape} {i : Option IShape} {pre : State → Nat → Opnds → Prop}
    {g : State → Nat → Opnds → State} (ok : Opnds → Bool) (eff : Opnds → Nat → State → Res)
    (hexec : ∀ t o s, exec (c t o) s = insnW s t o cls r i (ok o) (eff o))
    (heff : ∀ s k o, s.Inv → shapeOk r i o = true → pre s k o →
      (if ok o = true then finish k cls (eff o k s) else insnFault s k cls 0x11 0x11 0) = g s k o) : Does c cls r i pre g := by
  intro s t o hinv hiss hpre
  rw [hexec, insnW_eq hiss, heff s (tkey t) o hinv hiss.2.2.1 hpre]

/-- R57: a field of an unused register is zero. -/
theorem fits_zero (v : Nat) : fits 0 v = true ↔ v = 0 := by simp [fits]

/-- R57: the register fields that an I-format word leaves unused are zero. -/
theorem iShape_fields {d a im : Nat} {o : Opnds} (h : shapeOk none (some ⟨d, a, im⟩) o = true) : fits d o.d.toNat = true ∧ fits a o.a.toNat = true := by
  unfold shapeOk at h
  split at h
  · obtain ⟨⟨hd, ha⟩, _⟩ : (fits d o.d.toNat = true ∧ fits a o.a.toNat = true) ∧ _ := by simpa using h
    exact ⟨hd, ha⟩
  · simp at h

/-- R35: what an instruction of a station's class does once it issues. -/
theorem finish_sendClass (put : NCore → ClassIns → NCore) (ci : ClassIns) (s : State) (k cls : Nat) :
    finish k cls (sendClass put ci k s) = sent put ci s k := rfl

/-- R35, R122, R128, R144, R155: a class instruction with settings goes to its station where these are legal, and is an illegal encoding where they are not. -/
def GoesToStation (c : Tid → Opnds → Instr) (cls dfile afile op : Nat) (legal : Opnds → Prop) (put : NCore → ClassIns → NCore) : Prop :=
  Does c cls none (some ⟨dfile, afile, 0xFFFFFFFF⟩) (fun _ _ o => legal o) (fun s k o => sent put ⟨cls, op, o.d.toNat, o.a.toNat, o.imm, []⟩ s k) ∧
  Does c cls none (some ⟨dfile, afile, 0xFFFFFFFF⟩) (fun _ _ o => ¬ legal o) (fun s k _ => insnFault s k cls 0x11 0x11 0)

/-- It does so where its word's check is the legality of its settings, and `ci` says what the word does. -/
theorem goesToStation_of_insnW {c : Tid → Opnds → Instr} {cls dfile afile op : Nat} {legal : Opnds → Prop} {put : NCore → ClassIns → NCore}
    (ok : Opnds → Bool) (ci : Opnds → ClassIns)
    (hexec : ∀ t o s, exec (c t o) s = insnW s t o cls none (some ⟨dfile, afile, imAll⟩) (ok o) (sendClass put (ci o)))
    (hci : ∀ o, fits dfile o.d.toNat = true → fits afile o.a.toNat = true → ci o = ⟨cls, op, o.d.toNat, o.a.toNat, o.imm, []⟩)
    (hok : ∀ o, fits afile o.a.toNat = true → (ok o = true ↔ legal o)) : GoesToStation c cls dfile afile op legal put := by
  refine ⟨does_of_insnW ok (fun o => sendClass put (ci o)) hexec fun s k o _ hshape hlegal => ?_,
    does_of_insnW ok (fun o => sendClass put (ci o)) hexec fun s k o _ hshape hbad => ?_⟩
  · obtain ⟨hd, ha⟩ := iShape_fields hshape
    rw [if_pos ((hok o ha).2 hlegal), finish_sendClass, hci o hd ha]
  · obtain ⟨_, ha⟩ := iShape_fields hshape
    rw [if_neg (mt (hok o ha).1 hbad)]

/-- R123: MXPASS names no register. -/
theorem goesToStation_mxpass : GoesToStation .mxpassB 0x09 0 0 0 (fun o => mxOk o.imm false = true) toMx ∧
    GoesToStation .mxpassE 0x09 0 0 1 (fun o => mxOk o.imm true = true) toMx :=
  ⟨goesToStation_of_insnW (fun o => mxOk o.imm false) (fun o => ⟨9, 0, 0, 0, o.imm, []⟩) (fun _ _ _ => rfl)
      (fun o hd ha => by rw [(fits_zero _).1 hd, (fits_zero _).1 ha]) fun _ _ => .rfl,
    goesToStation_of_insnW (fun o => mxOk o.imm true) (fun o => ⟨9, 1, 0, 0, o.imm, []⟩) (fun _ _ _ => rfl)
      (fun o hd ha => by rw [(fits_zero _).1 hd, (fits_zero _).1 ha]) fun _ _ => .rfl⟩

/-- R128: TRSET names a destination alone. -/
theorem goesToStation_trset : GoesToStation .trsetB 0x0A 64 0 0 (fun o => trOk o.imm o.d.toNat false = true) toTr ∧
    GoesToStation .trsetE 0x0A 64 0 1 (fun o => trOk o.imm o.d.toNat true = true) toTr :=
  ⟨goesToStation_of_insnW (fun o => trOk o.imm o.d.toNat false) (fun o => ⟨0xA, 0, o.d.toNat, 0, o.imm, []⟩) (fun _ _ _ => rfl)
      (fun o _ ha => by rw [(fits_zero _).1 ha]) fun _ _ => .rfl,
    goesToStation_of_insnW (fun o => trOk o.imm o.d.toNat true) (fun o => ⟨0xA, 1, o.d.toNat, 0, o.imm, []⟩) (fun _ _ _ => rfl)
      (fun o _ ha => by rw [(fits_zero _).1 ha]) fun _ _ => .rfl⟩

/-- R155: RDU.OP names a destination alone. -/
theorem goesToStation_rduOp : GoesToStation .rduOpB 0x0C 64 0 0 (fun o => rdOk o.imm o.d.toNat false = true) toRd ∧
    GoesToStation .rduOpE 0x0C 64 0 1 (fun o => rdOk o.imm o.d.toNat true = true) toRd :=
  ⟨goesToStation_of_insnW (fun o => rdOk o.imm o.d.toNat false) (fun o => ⟨0xC, 0, o.d.toNat, 0, o.imm, []⟩) (fun _ _ _ => rfl)
      (fun o _ ha => by rw [(fits_zero _).1 ha]) fun _ _ => .rfl,
    goesToStation_of_insnW (fun o => rdOk o.imm o.d.toNat true) (fun o => ⟨0xC, 1, o.d.toNat, 0, o.imm, []⟩) (fun _ _ _ => rfl)
      (fun o _ ha => by rw [(fits_zero _).1 ha]) fun _ _ => .rfl⟩

/-- R100, R144: EWE.RUN.B has no numeric control to be reserved; that of EWE.RUN.E is its field A. -/
theorem goesToStation_eweRun : GoesToStation .eweRunB 0x0B 8 0 0 (fun _ => True) toEw ∧
    GoesToStation .eweRunE 0x0B 8 64 1 (fun o => (numCtl o.a.toNat).isSome = true) toEw :=
  ⟨goesToStation_of_insnW (fun o => (numCtl o.a.toNat).isSome) (fun o => ⟨0xB, 0, o.d.toNat, o.a.toNat, o.imm, []⟩) (fun _ _ _ => rfl)
      (fun _ _ _ => rfl) fun o ha => by rw [(fits_zero _).1 ha]; exact iff_of_true rfl trivial,
    goesToStation_of_insnW (fun o => (numCtl o.a.toNat).isSome) (fun o => ⟨0xB, 1, o.d.toNat, o.a.toNat, o.imm, []⟩) (fun _ _ _ => rfl)
      (fun _ _ _ => rfl) fun _ _ => .rfl⟩

/-- R144: EWE.IMM names k1, k2 or k3 alone. -/
theorem goesToStation_eweImm : GoesToStation .eweImm 0x0B 4 0 4 (fun o => o.d ≠ 0) toEw :=
  goesToStation_of_insnW (fun o => o.d ≠ 0) (fun o => ⟨0xB, 4, o.d.toNat, 0, o.imm, []⟩) (fun _ _ _ => rfl)
    (fun o _ ha => by rw [(fits_zero _).1 ha]) fun _ _ => decide_eq_true_iff

/-- R35: a class instruction without settings goes to its station. -/
theorem does_sendClass {c : Tid → Opnds → Instr} {cls : Nat} {put : NCore → ClassIns → NCore} (ci : ClassIns)
    (hexec : ∀ t o s, exec (c t o) s = insn s t o cls (some ⟨0, 0, 0, 0, 0⟩) none (sendClass put ci)) :
    Does c cls (some ⟨0, 0, 0, 0, 0⟩) none (fun _ _ _ => True) (fun s k _ => sent put ci s k) :=
  does_of_insn (fun _ => sendClass put ci) hexec fun _ _ _ _ _ => rfl

theorem classInstructionsIssue : Sys2Proof.Parts.ClassInstructionsIssue := by
  refine ⟨fun c cls dfile afile op legal put hform => ?_, does_sendClass _ fun _ _ _ => rfl, does_sendClass _ fun _ _ _ => rfl,
    does_sendClass _ fun _ _ _ => rfl, does_sendClass _ fun _ _ _ => rfl⟩
  change GoesToStation c cls dfile afile op legal put
  rcases hform with hmx | hmx | htr | htr | hrd | hrd | hew | hew | hew
  · cases hmx
    exact goesToStation_mxpass.1
  · cases hmx
    exact goesToStation_mxpass.2
  · cases htr
    exact goesToStation_trset.1
  · cases htr
    exact goesToStation_trset.2
  · cases hrd
    exact goesToStation_rduOp.1
  · cases hrd
    exact goesToStation_rduOp.2
  · cases hew
    exact goesToStation_eweRun.1
  · cases hew
    exact goesToStation_eweRun.2
  · cases hew
    exact goesToStation_eweImm

end Sys2Proof.Machine
end

section
/-! EWE.LDR, EWE.STR and EWE.LDP: what each checks when it issues (R54, R84, R144, R445). -/

namespace Sys2Proof.Machine

/-- R57, R58, R61: an instruction that issues by its fields ends as its effect says. -/
theorem insn_of_issues {s : State} {t : Tid} {o : Opnds} {cls : Nat} {r : Option RShape} {i : Option IShape} (hiss : Issues s t o cls r i)
    (eff : Nat → State → Res) : insn s t o cls r i eff = .next (finish (tkey t) cls (eff (tkey t) s)) := by
  obtain ⟨hcan, hcls, hshape, hguard⟩ := hiss
  exact insn_eq s t o cls r i eff hcan hcls hshape hguard

/-- R62: the address of an instruction that adds a signed immediate to xA. -/
theorem memAddr_th (s : State) (k : Nat) (o : Opnds) : memAddr (th s k) o = scalarVa s k o := rfl

section
variable {s s1 : State} {t : Tid} {o : Opnds}

/-- R144: EWE.LDR and EWE.STR check their four lines and go to ELEMENT with the lines' addresses. -/
theorem ewReg_of_issues {op : Nat} {kind : AccKind} (hiss : Issues s t o 0x0B none (some ⟨32, 64, 0xFFFFFFFF⟩)) :
    let k := tkey t
    let r := vaCheckWords s (th s k).ctx kind 64 ((List.range 4).map (fun i => scalarVa s k o + 64 * i))
    (scalarVa s k o % 64 ≠ 0 → ewReg t o op kind s = .next (insnFault s k 0x0B 0x10 0x15 0)) ∧
    (∀ pas, scalarVa s k o % 64 = 0 → r = (s1, .ok pas) → ewReg t o op kind s = .next (sent toEw ⟨0xB, op, o.d.toNat, o.a.toNat, o.imm, pas⟩ s1 k)) ∧
    (∀ e, scalarVa s k o % 64 = 0 → r = (s1, .err e) → ewReg t o op kind s = .next (insnFault s1 k 0x0B (accCode e).1 (accCode e).2 0)) ∧
    (scalarVa s k o % 64 = 0 → r = (s1, .wait) → ewReg t o op kind s = .next s) := by
  have hrun : ewReg t o op kind s = .next (finish (tkey t) 0x0B _) := insn_of_issues hiss _
  simp only [memAddr_th] at hrun
  refine ⟨fun hmis => ?_, fun pas hal hr => ?_, fun e hal hr => ?_, fun hal hr => ?_⟩
  · simp only [hrun, hmis, ne_eq, not_false_eq_true, if_true, finish]
  · simp only [hrun, hal, hr, ne_eq, not_true_eq_false, if_false, finish_sendClass]
  · simp only [hrun, hal, hr, ne_eq, not_true_eq_false, if_false, accTrap, finish]
  · simp only [hrun, hal, hr, ne_eq, not_true_eq_false, if_false, finish]

/-- R144, R445: EWE.LDP checks its header's address, reads the header, and checks the image by the length that stands there. -/
theorem eweLdp_of_issues (hiss : Issues s t o 0x0B none (some ⟨8, 64, 0xFFFFFFFF⟩)) :
    let k := tkey t
    let va := scalarVa s k o
    let head := vaCheck s (th s k).ctx va 8 .exec
    (va % 8 ≠ 0 → execEweLdp t o s = .next (insnFault s k 0x0B 0x10 0x15 0)) ∧
    (∀ e, va % 8 = 0 → head = (s1, .err e) → execEweLdp t o s = .next (insnFault s1 k 0x0B (fetchCode e).1 (fetchCode e).2 0)) ∧
    (va % 8 = 0 → head = (s1, .wait) → execEweLdp t o s = .next s) ∧
    (∀ pa s2, va % 8 = 0 → head = (s1, .ok pa) →
      let m := physRead s1 (srcTh s k) pa 8
      let r := vaCheckWords m.1 (th s k).ctx .exec 8 ((List.range (leNat m.2.1 % 64 + 2)).map (fun i => va + 8 * i))
      (∀ pas, r = (s2, .ok pas) → execEweLdp t o s = .next (sent toEw ⟨0xB, 8, o.d.toNat, o.a.toNat, o.imm, pas⟩ s2 k)) ∧
      (∀ e, r = (s2, .err e) → execEweLdp t o s = .next (insnFault s2 k 0x0B (fetchCode e).1 (fetchCode e).2 0)) ∧
      (r = (s2, .wait) → execEweLdp t o s = .next s)) := by
  have hrun : execEweLdp t o s = .next (finish (tkey t) 0x0B _) := insn_of_issues hiss _
  simp only [memAddr_th] at hrun
  refine ⟨fun hmis => ?_, fun e hal hr => ?_, fun hal hr => ?_, fun pa s2 hal hr => ⟨fun pas hpas => ?_, fun e he => ?_, fun hwait => ?_⟩⟩
  · simp only [hrun, hmis, ne_eq, not_false_eq_true, if_true, finish]
  · simp only [hrun, hal, hr, ne_eq, not_true_eq_false, if_false, finish]
  · simp only [hrun, hal, hr, ne_eq, not_true_eq_false, if_false, finish]
  · simp only [hrun, hal, hr, hpas, ne_eq, not_true_eq_false, if_false, finish_sendClass]
  · simp only [hrun, hal, hr, he, ne_eq, not_true_eq_false, if_false, finish]
  · simp only [hrun, hal, hr, hwait, ne_eq, not_true_eq_false, if_false, finish]

end

theorem elementLoadsIssue : Sys2Proof.Parts.ElementLoadsIssue := by
  refine ⟨fun c op kind hform s t o s1 _ hiss => ?_, fun s t o s1 _ hiss => eweLdp_of_issues hiss⟩
  have hexec : exec (c t o) s = ewReg t o op kind s := by
    rcases hform with hldr | hstr
    · cases hldr
      rfl
    · cases hstr
      rfl
  rw [hexec]
  exact ewReg_of_issues hiss

/-- Settles O19: the settings by `goesToStation_of_insnW`; the loads by what the check of each address answers. -/
theorem classInstructions : Obligations.ClassInstructions := ⟨classInstructionsIssue, elementLoadsIssue⟩

end Sys2Proof.Machine
end

section
/-! SUPPORT. What a translation and its checks change: the cached entries and the free values drawn, and nothing else (R325). -/

namespace Sys2Proof.Machine

section
variable {α : Type} (p : State → α)

theorem tlbFill_reads (hp : ∀ s tlb, p { s with tlb := tlb } = p s) (s : State) (ctx va : Nat) (leaf : Word) (big : Bool) :
    p (tlbFill s ctx va leaf big) = p s := by
  unfold tlbFill
  dsimp only
  split_ifs
  · rfl
  · exact hp ..

/-- R325: what reads neither the cached entries nor the count of free values is the same after a translation. -/
theorem translate_reads (htlb : ∀ s tlb, p { s with tlb := tlb } = p s) (hfree : ∀ s n, p { s with free := n } = p s)
    (s : State) (ctx va : Nat) (k : AccKind) : p (translate s ctx va k).1 = p s := by
  unfold translate drawBits
  dsimp only
  split
  · split_ifs
    · rfl
    · exact hfree ..
    · split
      · exact (tlbFill_reads p htlb ..).trans (hfree ..)
      · exact hfree ..
      · rfl
  · split
    · exact tlbFill_reads p htlb ..
    · rfl
    · rfl

end

theorem vaCheck_fst (s : State) (ctx va n : Nat) (k : AccKind) : (vaCheck s ctx va n k).1 = (translate s ctx va k).1 := by
  unfold vaCheck
  rcases translate s ctx va k with ⟨s1, pa | e | _⟩
  · dsimp only
    split
    · rfl
    · split_ifs
      · rfl
      · rfl
  · rfl
  · rfl

section
variable (s : State) (ctx va n : Nat) (k : AccKind)
@[simp] theorem translate_threads : (translate s ctx va k).1.threads = s.threads :=
  translate_reads State.threads (fun _ _ => rfl) (fun _ _ => rfl) s ctx va k
@[simp] theorem translate_ncores : (translate s ctx va k).1.ncores = s.ncores :=
  translate_reads State.ncores (fun _ _ => rfl) (fun _ _ => rfl) s ctx va k
@[simp] theorem translate_regs : (translate s ctx va k).1.regs = s.regs :=
  translate_reads State.regs (fun _ _ => rfl) (fun _ _ => rfl) s ctx va k
@[simp] theorem vaCheck_threads : (vaCheck s ctx va n k).1.threads = s.threads := by rw [vaCheck_fst, translate_threads]
@[simp] theorem vaCheck_ncores : (vaCheck s ctx va n k).1.ncores = s.ncores := by rw [vaCheck_fst, translate_ncores]
@[simp] theorem vaCheck_regs : (vaCheck s ctx va n k).1.regs = s.regs := by rw [vaCheck_fst, translate_regs]
end

/-- R244: who a thread's accesses are made for is read from its state and from registers. -/
theorem srcTh_congr {s s1 : State} (hth : s1.threads = s.threads) (hregs : s1.regs = s.regs) (k : Nat) : srcTh s1 k = srcTh s k := by
  simp only [srcTh, th, halfOf, nCores, partOf, rdf, rd, hth, hregs]
  rfl

end Sys2Proof.Machine
end

section
/-! SUPPORT. Accesses to memory leave the threads and the stations alone: translation, corrected and failing lines, reads and writes (R216, R234-R237, R325, R385). -/

namespace Sys2Proof.Machine

/-- R35, R59: what the cores hold: the threads and the stations. -/
def cores (s : State) : Sparse Thread × Sparse NCore := (s.threads, s.ncores)

theorem threads_of_cores {s t : State} (h : cores t = cores s) : t.threads = s.threads := congrArg Prod.fst h
theorem ncores_of_cores {s t : State} (h : cores t = cores s) : t.ncores = s.ncores := congrArg Prod.snd h
theorem th_of_cores {s t : State} (h : cores t = cores s) (k : Nat) : th t k = th s k := by rw [th, th, threads_of_cores h]
theorem nc_of_cores {s t : State} (h : cores t = cores s) (k : Nat) : nc t k = nc s k := by rw [nc, nc, ncores_of_cores h]

section
variable (s : State)
@[simp] theorem cores_wr (a : Nat) (v : Word) : cores (wr s a v) = cores s := rfl
@[simp] theorem cores_wrf (a lo n v : Nat) : cores (wrf s a lo n v) = cores s := rfl
@[simp] theorem cores_addSat (a lo n k : Nat) : cores (addSat s a lo n k) = cores s := rfl
@[simp] theorem cores_poisonLine (l : Nat) : cores (poisonLine s l) = cores s := rfl
@[simp] theorem cores_bbx (perm : Bool) (ty src st sub : Nat) (pay : List Byte) : cores (bbx s perm ty src st sub pay) = cores s :=
  bbx_reads cores (fun _ _ _ => rfl) (fun _ _ _ => rfl) (fun _ _ => rfl) s perm ty src st sub pay

@[simp] theorem cores_logRec (part ty ctx : Nat) (detail payload : List Byte) : cores (logRec s part ty ctx detail payload) = cores s := by
  unfold logRec logRecAt
  dsimp only
  split_ifs
  · rfl
  · rfl

theorem cores_ite {c : Prop} [Decidable c] {t u v : State} (ht : cores t = cores v) (hu : cores u = cores v) : cores (if c then t else u) = cores v := by
  split
  · exact ht
  · exact hu

@[simp] theorem cores_retirePage (h c page : Nat) : cores (retirePage s h c page) = cores s := by
  unfold retirePage
  extract_lets cnt s1 s2 s3 s4 s5
  have h1 : cores s1 = cores s := cores_ite rfl rfl
  have h2 : cores s2 = cores s1 := cores_ite rfl rfl
  have h4 : cores s4 = cores s3 := cores_bbx ..
  have h5 : cores s5 = cores s4 := by
    unfold s5
    split
    · exact cores_ite (cores_logRec ..) rfl
    · rfl
  have hall : cores s5 = cores s := h5.trans (h4.trans (h2.trans h1))
  exact cores_ite rfl (cores_ite ((cores_bbx ..).trans hall) hall)

theorem cores_foldl {α : Type} {f : State → α → State} (hf : ∀ s x, cores (f s x) = cores s) (l : List α) : ∀ s, cores (l.foldl f s) = cores s := by
  induction l with
  | nil => exact fun _ => rfl
  | cons x l ih => exact fun s => (ih _).trans (hf s x)

@[simp] theorem cores_rowFail (line : Nat) : cores (rowFail s line) = cores s := by
  have hpages : ∀ (t : State) (h c : Nat) (ps : List Nat), cores (ps.foldl (fun t p => retirePage t h c p) t) = cores t :=
    fun t h c ps => cores_foldl (fun t p => cores_retirePage t h c p) ps t
  unfold rowFail
  split
  · rfl
  · extract_lets s1 used slot
    clear_value used slot
    split
    · refine cores_ite ?_ (hpages s1 _ _ _)
      extract_lets rep w s2 s3 s4 s5 s6
      have h5 : cores s5 = cores s := cores_ite rfl rfl
      have h6 : cores s6 = cores s := (cores_bbx ..).trans h5
      split
      · exact cores_ite ((cores_logRec ..).trans h6) h6
      · exact h6
    · exact hpages s1 _ _ _

@[simp] theorem cores_readLine (line : Nat) : cores (readLine s line) = cores s := by
  unfold readLine
  split
  · rfl
  · extract_lets s1
    refine cores_ite ?_ (cores_rowFail ..)
    extract_lets
    split
    · rfl
    · extract_lets s3 n others mine keep s4
      exact cores_ite (cores_rowFail ..) rfl
  · exact cores_ite rfl rfl

@[simp] theorem cores_physGet (a n : Nat) : cores (physGet s a n).1 = cores s := cores_foldl cores_readLine _ s

@[simp] theorem cores_moveLines (src : Src) (a n : Nat) (write : Bool) : cores (moveLines s src a n write) = cores s := by
  rw [moveLines_eq]
  rfl

@[simp] theorem cores_scRead (src : Src) (line : Nat) : cores (scRead s src line) = cores s :=
  cores_ite (cores_ite rfl (cores_moveLines ..)) (cores_moveLines ..)

@[simp] theorem cores_didRead (src : Src) (a n : Nat) : cores (didRead s src a n) = cores s :=
  cores_ite (cores_foldl (fun t l => cores_scRead t src l) _ s) (cores_moveLines ..)

@[simp] theorem cores_physRead (src : Src) (a n : Nat) : cores (physRead s src a n).1 = cores s :=
  (cores_didRead ..).trans (cores_physGet ..)

@[simp] theorem cores_translate (ctx va : Nat) (k : AccKind) : cores (translate s ctx va k).1 = cores s :=
  translate_reads cores (fun _ _ => rfl) (fun _ _ => rfl) s ctx va k

@[simp] theorem cores_vaCheck (ctx va n : Nat) (k : AccKind) : cores (vaCheck s ctx va n k).1 = cores s := by
  rw [vaCheck_fst, cores_translate]

@[simp] theorem cores_physWrite (src : Src) (a : Nat) (bs : List Byte) : cores (physWrite s src a bs) = cores s := by
  rw [physWrite, wrote_eq_moveLines, cores_moveLines, invalidateAll_eq]
  rfl

end

section
variable (s : State) (src : Src)

@[simp] theorem cores_vaLoad (va n : Nat) : cores (vaLoad s src va n).1 = cores s := by
  have hcheck := cores_vaCheck s src.ctx va n .read
  unfold vaLoad
  generalize vaCheck s src.ctx va n .read = r at hcheck ⊢
  rcases r with ⟨t, pa | e | _⟩
  · exact (cores_physRead ..).trans hcheck
  · exact hcheck
  · exact hcheck

@[simp] theorem cores_vaUse (va n : Nat) : cores (vaUse s src va n).1 = cores s := by
  have hload := cores_vaLoad s src va n
  unfold vaUse
  generalize vaLoad s src va n = r at hload ⊢
  rcases r with ⟨t, ⟨bs, poison⟩ | e | _⟩
  · cases poison
    · exact hload
    · exact hload
  · exact hload
  · exact hload

@[simp] theorem cores_vaStore (va : Nat) (bs : List Byte) : cores (vaStore s src va bs).1 = cores s := by
  have hcheck := cores_vaCheck s src.ctx va bs.length .write
  unfold vaStore
  generalize vaCheck s src.ctx va bs.length .write = r at hcheck ⊢
  rcases r with ⟨t, pa | e | _⟩
  · exact (cores_physWrite ..).trans hcheck
  · exact hcheck
  · exact hcheck

end

section
variable (src : Src)

theorem cores_vaWords (n : Nat) : ∀ (s : State) (va : Nat), cores (vaWords s src va n).1 = cores s := by
  induction n with
  | zero => exact fun _ _ => rfl
  | succ n ih =>
    intro s va
    have hword := cores_vaUse s src va 8
    unfold vaWords
    generalize vaUse s src va 8 = r at hword ⊢
    rcases r with ⟨t, bs | e | _⟩
    · have hrest := ih t (va + 8)
      dsimp only
      generalize vaWords t src (va + 8) n = r at hrest ⊢
      rcases r with ⟨u, ws | e | _⟩
      all_goals exact hrest.trans hword
    · exact hword
    · exact hword

theorem cores_vaRange (l : List (Nat × Nat)) : ∀ s, cores (vaRange s src l).1 = cores s := by
  induction l with
  | nil => exact fun _ => rfl
  | cons p l ih =>
    obtain ⟨va, n⟩ := p
    intro s
    have hpiece := cores_vaLoad s src va n
    unfold vaRange
    generalize vaLoad s src va n = r at hpiece ⊢
    rcases r with ⟨t, ⟨bs, poison⟩ | e | _⟩
    · have hrest := ih t
      dsimp only
      generalize vaRange t src l = r at hrest ⊢
      rcases r with ⟨u, ⟨bs', poison'⟩ | e | _⟩
      all_goals exact hrest.trans hpiece
    · exact hpiece
    · exact hpiece

theorem cores_vaRows (l : List (Nat × Nat)) : ∀ s, cores (vaRows s src l).1 = cores s := by
  induction l with
  | nil => exact fun _ => rfl
  | cons p l ih =>
    obtain ⟨va, n⟩ := p
    intro s
    have hrow : cores (vaBytes s src va n).1 = cores s := cores_vaRange src _ s
    unfold vaRows
    generalize vaBytes s src va n = r at hrow ⊢
    rcases r with ⟨t, ⟨bs, poison⟩ | e | _⟩
    · have hrest := ih t
      dsimp only
      generalize vaRows t src l = r at hrest ⊢
      rcases r with ⟨u, ⟨bss, poison'⟩ | e | _⟩
      all_goals exact hrest.trans hrow
    · exact hrow
    · exact hrow

theorem cores_vaPutRange (l : List (Nat × Nat)) : ∀ (s : State) (bs : List Byte), cores (vaPutRange s src bs l).1 = cores s := by
  induction l with
  | nil => exact fun _ _ => rfl
  | cons p l ih =>
    obtain ⟨va, n⟩ := p
    intro s bs
    have hpiece := cores_vaStore s src va (bs.take n)
    unfold vaPutRange
    generalize vaStore s src va (bs.take n) = r at hpiece ⊢
    rcases r with ⟨t, _ | e | _⟩
    · exact (ih t (bs.drop n)).trans hpiece
    · exact hpiece
    · exact hpiece

theorem cores_vaPutRows (l : List (Nat × List Byte)) : ∀ s, cores (vaPutRows s src l).1 = cores s := by
  induction l with
  | nil => exact fun _ => rfl
  | cons p l ih =>
    obtain ⟨va, bs⟩ := p
    intro s
    have hrow : cores (vaPut s src va bs).1 = cores s := cores_vaPutRange src _ s bs
    unfold vaPutRows
    generalize vaPut s src va bs = r at hrow ⊢
    rcases r with ⟨t, _ | e | _⟩
    · exact (ih t).trans hrow
    · exact hrow
    · exact hrow

end

theorem cores_vaPoison (s : State) (ctx va n : Nat) : cores (vaPoison s ctx va n) = cores s := by
  refine cores_foldl (fun t p => ?_) _ s
  have htr := cores_translate t ctx p.1 .write
  generalize translate t ctx p.1 .write = r at htr ⊢
  rcases r with ⟨u, pa | e | _⟩
  · exact htr
  · exact htr
  · exact htr

/-- R33, R42, R385: reading a tile leaves the cores alone. -/
theorem cores_readTile (s : State) (src : Src) (d : Desc) (n : Nat) : cores (readTile s src d n).1 = cores s := by
  have hrows := cores_vaRows src (d.ranges n d.rows d.cols) s
  unfold readTile
  generalize vaRows s src (d.ranges n d.rows d.cols) = r at hrows ⊢
  rcases r with ⟨t, ⟨bss, poison⟩ | e | _⟩
  · exact hrows
  · exact hrows
  · exact hrows

/-- R443, R385: writing a tile leaves the cores alone. -/
theorem cores_writeTile (s : State) (src : Src) (d : Desc) (n : Nat) (t : Tile) : cores (writeTile s src d n t).1 = cores s := by
  have hrows := cores_vaPutRows src (tileBytes d n t) s
  unfold writeTile
  dsimp only
  generalize vaPutRows s src (tileBytes d n t) = r at hrows ⊢
  rcases r with ⟨u, _ | e | _⟩
  · exact cores_ite ((cores_foldl (fun v (r : Nat × List Byte) => cores_vaPoison v src.ctx r.1 r.2.length) _ u).trans hrows) hrows
  · exact hrows
  · exact hrows

end Sys2Proof.Machine
end

section
/-! LOAD and STORE, and the visibility of stored tiles (R42, R44, R52, R247, R442, R443). -/

namespace Sys2Proof.Machine

section
variable {s s1 : State} {core : Nat} {st : Stream}

section
variable (hst : stationsRun s core = true) (hprod : producing (nc s core) pLoad = some st)
include hst hprod

/-- R42: with four tiles held the producer stalls. -/
theorem exec_loadTileReady_full (hfull : 4 ≤ st.tiles.length) : exec (.loadTileReady core) s = .next s := by
  show execLoadTileReady core s = _
  simp [execLoadTileReady, hst, hprod, hfull]

/-- R42, R52, R442: with room, a tile that is read enters the queue, one that faults stops the context where no tile stands before it, and one that waits changes nothing. -/
theorem exec_loadTileReady_room (hroom : st.tiles.length < 4) {r : MemRes Tile}
    (hread : readTile s (srcBulk s core (th s core).ctx (!st.d.noAlloc)) st.d st.made = (s1, r)) :
    exec (.loadTileReady core) s = .next (match r with
      | .ok tile => setNc s1 core (pushTile (nc s core) pLoad tile)
      | .err e => if st.tiles = [] then streamFault s1 core 0 st.sd (tileCode e).1 (tileCode e).2 st.made else s
      | .wait => s) := by
  have hcores := cores_readTile s (srcBulk s core (th s core).ctx (!st.d.noAlloc)) st.d st.made
  rw [hread] at hcores
  show execLoadTileReady core s = _
  cases r with
  | ok tile => simp [execLoadTileReady, hst, hprod, Nat.not_le.2 hroom, hread, nc_of_cores hcores]
  | err e => simp [execLoadTileReady, hst, hprod, Nat.not_le.2 hroom, hread]
  | wait => simp [execLoadTileReady, hst, hprod, Nat.not_le.2 hroom, hread]

end

section
variable {tile : Tile} (hst : stationsRun s core = true) (hpeek : peekTile (nc s core) pStore = some (st, tile))
include hst hpeek

/-- R443: a tile that the descriptor does not allow stops STORE. -/
theorem exec_storeTile_refused {sub : Nat} (hbad : tileRefused st.d tile = some sub) :
    exec (.storeTile core) s = .next (consumeFault s core 1 st st.took1 0x10 sub) := by
  show execStoreTile core s = _
  simp [execStoreTile, hst, hpeek, hbad]

/-- R34, R44, R443: an allowed tile is written and waits to be visible, or stops STORE where its write is refused, or waits. -/
theorem exec_storeTile_allowed (hok : tileRefused st.d tile = none) {r : MemRes Unit}
    (hwrite : writeTile s (srcBulk s core (th s core).ctx (!st.d.noAlloc)) st.d st.took1 tile = (s1, r)) :
    exec (.storeTile core) s = .next (match r with
      | .ok () =>
        let n := (takeTile (nc s core) pStore st).1
        countNum (setNc s1 core { n with stored := n.stored ++ [st.cnt] }) (th s core).ctx ⟨tile.sat, tile.flush, 0⟩
      | .err e => consumeFault s core 1 st st.took1 (tileCode e).1 (tileCode e).2
      | .wait => s) := by
  have hcores := cores_writeTile s (srcBulk s core (th s core).ctx (!st.d.noAlloc)) st.d st.took1 tile
  rw [hwrite] at hcores
  show execStoreTile core s = _
  cases r with
  | ok _ => simp [execStoreTile, hst, hpeek, hok, hwrite, nc_of_cores hcores]
  | err e => simp [execStoreTile, hst, hpeek, hok, hwrite]
  | wait => simp [execStoreTile, hst, hpeek, hok, hwrite]

end

/-- R44, R247: the oldest stored tile counts once what it invalidated is acknowledged. -/
theorem exec_storeTileVisible {c : Nat} {rest : List Nat} (hstored : (nc s core).stored = c :: rest) :
    exec (.storeTileVisible core) s = .next (if issuing s = true ∧ acked s core = true then
      arrive (setNc s core { nc s core with stored := rest }) core (th s core).gen c else s) := by
  show execStoreTileVisible core s = _
  by_cases hgo : issuing s = true ∧ acked s core = true
  · simp [execStoreTileVisible, hstored, hgo]
  · have hstay : issuing s = false ∨ acked s core = false := by simpa [imp_iff_not_or] using hgo
    simp [execStoreTileVisible, hstored, hstay, hgo]

end

/-- Settles O17: the cores stand as they did when a tile has been read or written, so that the tile enters or leaves the queue it was taken for. -/
theorem loadAndStoreStations : Obligations.LoadAndStoreStations := by
  refine ⟨fun s core st s1 _ hst hprod => ⟨exec_loadTileReady_full hst hprod, fun tile hroom hread => exec_loadTileReady_room hst hprod hroom hread,
      fun e hempty hread => ?_, fun e hsome hread => ?_, fun hread => ?_⟩,
    fun s core st s1 tile _ hst hpeek => ⟨fun sub => exec_storeTile_refused hst hpeek, fun hok hwrite => exec_storeTile_allowed hst hpeek hok hwrite,
      fun e hok hwrite => exec_storeTile_allowed hst hpeek hok hwrite, fun hok hwrite => exec_storeTile_allowed hst hpeek hok hwrite⟩,
    fun s core c rest _ hstored => ⟨fun hrun hacked => ?_, fun hstay => ?_⟩⟩
  · rw [exec_loadTileReady_room hst hprod (by simp [hempty]) hread]
    exact congrArg _ (if_pos hempty)
  · by_cases hfull : 4 ≤ st.tiles.length
    · exact exec_loadTileReady_full hst hprod hfull
    · rw [exec_loadTileReady_room hst hprod (by omega) hread]
      exact congrArg _ (if_neg hsome)
  · by_cases hfull : 4 ≤ st.tiles.length
    · exact exec_loadTileReady_full hst hprod hfull
    · exact exec_loadTileReady_room hst hprod (by omega) hread
  · rw [exec_storeTileVisible hstored, if_pos ⟨hrun, hacked⟩]
  · rw [exec_storeTileVisible hstored, if_neg (by simpa [imp_iff_not_or] using hstay)]

end Sys2Proof.Machine
end

section
/-! STREAM binds a stream (R41, R42, R57, R58, R61, R73-R75, R84). -/

namespace Sys2Proof.Machine

section
variable (s : State)

@[simp] theorem nc_wr (a : Nat) (v : Word) (j : Nat) : nc (wr s a v) j = nc s j := rfl

theorem nc_logRec (part ty ctx : Nat) (detail payload : List Byte) (j : Nat) : nc (logRec s part ty ctx detail payload) j = nc s j :=
  nc_of_cores (cores_logRec s part ty ctx detail payload) j

theorem nc_setTh_faultQ (k : Nat) (t : Thread) (q : List FaultRec) (j : Nat) : nc { setTh s k t with faultQ := q } j = nc s j := rfl

theorem nc_reportFault (k status sub : Nat) (regs : List Nat) (j : Nat) : nc (reportFault s k status sub regs) j = nc s j := by
  rw [reportFault, nc_setTh_faultQ, nc_logRec]

@[simp] theorem nc_putNcoFault (core st sd status sub tile : Nat) (pc : Option Word) (j : Nat) :
    nc (putNcoFault s core st sd status sub tile pc) j = nc s j := by
  cases pc <;> rfl

/-- R84: a precise fault leaves the stations alone. -/
theorem nc_insnFault (k cls status sub elem j : Nat) : nc (insnFault s k cls status sub elem) j = nc s j := by
  unfold insnFault
  split
  · rw [nc_setTh, nc_reportFault, nc_wr, nc_wr]
  · rw [nc_setTh, nc_reportFault, nc_putNcoFault]

theorem nc_descFault (core st sd sub j : Nat) : nc (descFault s core st sd sub) j = nc s j := by
  unfold descFault
  rw [nc_setTh, nc_reportFault, nc_putNcoFault]

end

/-- R264: a core that no FABRIC.get feeds has no tile to ask for. -/
theorem pumpGet_of_none {s : State} {core : Nat} (h : producing (nc s core) pFab = none) (fuel : Nat) : pumpGet core fuel s = s := by
  cases fuel with
  | zero => rfl
  | succ fuel => simp [pumpGet, h]

theorem producing_of_unbound {n : NCore} {p : Port} (h : ∀ x ∈ n.streams, x.frm ≠ p) : producing n p = none := by
  rw [producing, List.find?_eq_none]
  intro x hx
  simp [h x hx]

/-- R42: the lowest queue that no stream holds. -/
theorem freeQueue_eq_some {n : NCore} {q : Nat} (hq : q < 8) (hfree : ∀ x ∈ n.streams, x.q ≠ q) (hlow : ∀ r < q, ∃ x ∈ n.streams, x.q = r) :
    freeQueue n = some q := by
  rw [freeQueue, List.find?_range_eq_some]
  refine ⟨by simpa using hfree, List.mem_range.2 hq, fun r hr => ?_⟩
  simpa using hlow r hr

theorem freeQueue_eq_none {n : NCore} (hheld : ∀ q < 8, ∃ x ∈ n.streams, x.q = q) : freeQueue n = none := by
  rw [freeQueue, List.find?_eq_none]
  intro q hq
  simpa using hheld q (List.mem_range.1 hq)

/-- R42, R73-R75: the stream that a STREAM word binds to queue `q`. -/
def boundStream (o : StreamOps) (d : Desc) (q : Nat) : Stream :=
  ⟨q, o.sd.toNat, d, ⟨o.fromSt.toNat, o.fromPort.toNat⟩, ⟨o.toSt.toNat, o.toPort.toNat⟩,
    if o.dual then some ⟨o.to2St.toNat, o.to2Port.toNat⟩ else none, o.cnt.toNat, 0, [], 0, 0⟩

/-- R42: the word retires with its stream bound. -/
def streamBound (s : State) (k : Nat) (st : Stream) : State :=
  setTh (setNc s k { nc s k with streams := (nc s k).streams ++ [st] }) k { th s k with pc := (th s k).pc + 8 }

section
variable {s : State} {t : Tid} {o : StreamOps}

/-- A STREAM that binds nothing does what its checks say. -/
theorem exec_stream_of_unbound {u : State} (h : bindStream t o s = .next u) (hnc : nc u (tkey t) = nc s (tkey t)) :
    exec (.stream t o) s = .next u := by
  show execStream t o s = _
  simp [execStream, h, hnc]

/-- R264: a STREAM that binds its stream starts the reads of FABRIC.get. -/
theorem exec_stream_of_bound {st : Stream} (hinv : s.Inv) (h : bindStream t o s = .next (streamBound s (tkey t) st)) :
    exec (.stream t o) s = .next (pumpGet (tkey t) 4 (streamBound s (tkey t) st)) := by
  have hnc : nc (streamBound s (tkey t) st) (tkey t) = { nc s (tkey t) with streams := (nc s (tkey t)).streams ++ [st] } := nc_setNc_same hinv _ _
  show execStream t o s = _
  simp [execStream, h, hnc]

/-- R75: the bits of a STREAM word that must be zero are. -/
def zerosOk (o : StreamOps) : Bool := o.low == 0 && (o.dual || (o.to2St == 0 && o.to2Port == 0))

theorem zerosOk_iff : zerosOk o = true ↔ o.low = 0 ∧ (o.dual = true ∨ (o.to2St = 0 ∧ o.to2Port = 0)) := by
  simp [zerosOk]

/-- R42, R73-R75: what binding a stream does on a core that may issue, but for the profile. -/
def bindOutcome (k : Nat) (o : StreamOps) (s : State) : State :=
  if zerosOk o = false then insnFault s k 0x08 0x11 0x11 0
  else if guardOk (th s k) o.ge o.gn o.pg.toNat = false then retire s k
  else if bindingOk o = false then insnFault s k 0x08 0x11 0x12 0
  else
    match streamCheck o (sdr (th s k) o.sd.toNat), freeQueue (nc s k) with
    | some sub, _ => descFault s k (faultStation o) o.sd.toNat sub
    | none, none => s
    | none, some q => streamBound s k (boundStream o (sdr (th s k) o.sd.toNat) q)

section
variable (hcan : canIssue s (tkey t) = true)
include hcan

theorem bindStream_of_sCore (hS : isS (tkey t) = true) : bindStream t o s = .next (insnFault s (tkey t) 0x08 0x11 0x10 0) := by
  have hcls : classOk 0x08 (isS (tkey t)) = false := by rw [hS]; rfl
  simp [bindStream, hcan, hcls]

theorem bindStream_of_nCore (hN : isS (tkey t) = false) : bindStream t o s = .next (bindOutcome (tkey t) o s) := by
  have hcls : classOk 0x08 (isS (tkey t)) = true := by rw [hN]; rfl
  unfold bindStream bindOutcome
  simp only [hcan, hcls, Bool.not_true, Bool.false_eq_true, if_false, Bool.not_eq_true']
  rcases streamCheck o (sdr (th s (tkey t)) o.sd.toNat) with _ | sub <;> rcases freeQueue (nc s (tkey t)) with _ | q <;> rfl

end

end

theorem streamBinds : Sys2Proof.Parts.StreamBinds := by
  intro s t o hinv hcan
  dsimp only
  simp only [← zerosOk_iff]
  refine ⟨fun hS => exec_stream_of_unbound (bindStream_of_sCore hcan hS) (nc_insnFault ..), fun hN hbad => ?_, fun hN hzeros hguard => ?_,
    fun hN hzeros hguard => ⟨fun hbind => ?_, fun sub hbind hcheck => ?_, fun hbind hcheck hheld => ?_, fun q hbind hcheck hq hfree hlow => ?_⟩⟩
  all_goals have hout := bindStream_of_nCore (o := o) hcan hN
  · rw [bindOutcome, if_pos (by simpa using hbad)] at hout
    exact exec_stream_of_unbound hout (nc_insnFault ..)
  · rw [bindOutcome, if_neg (by simp [hzeros]), if_pos hguard] at hout
    exact exec_stream_of_unbound hout rfl
  all_goals rw [bindOutcome, if_neg (by simp [hzeros]), if_neg (by simp [hguard])] at hout
  · rw [if_pos hbind] at hout
    exact exec_stream_of_unbound hout (nc_insnFault ..)
  all_goals rw [if_neg (by simp [hbind]), hcheck] at hout
  · exact exec_stream_of_unbound hout (nc_descFault ..)
  · rw [freeQueue_eq_none hheld] at hout
    exact exec_stream_of_unbound hout rfl
  · rw [freeQueue_eq_some hq hfree hlow] at hout
    have hexec := exec_stream_of_bound hinv hout
    refine ⟨hexec, fun hnone hst => hexec.trans ?_⟩
    have hnc : nc (streamBound s (tkey t) (boundStream o (sdr (th s (tkey t)) o.sd.toNat) q)) (tkey t) =
      { nc s (tkey t) with streams := (nc s (tkey t)).streams ++ [boundStream o (sdr (th s (tkey t)) o.sd.toNat) q] } := nc_setNc_same hinv _ _
    rw [pumpGet_of_none]
    · rfl
    · rw [hnc]
      refine producing_of_unbound fun x hx => ?_
      rcases List.mem_append.1 hx with hold | hnew
      · exact hnone x hold
      · rw [List.mem_singleton.1 hnew]
        exact hst

end Sys2Proof.Machine
end

section
/-! SDLD.B and SDLD.E load a descriptor (R39, R54, R73, R84, R441). -/

namespace Sys2Proof.Machine

theorem vaWords_inv {s : State} (h : s.Inv) (src : Src) (va n : Nat) : (vaWords s src va n).1.Inv := (vaWords_kept s src va n (inv_kept h)).2

section
variable {s s1 : State} {t : Tid} {o : Opnds} {n : Nat} {mk : List Word → Desc}

/-- R39, R73: a descriptor load checks its address and ends as the read of its words does. -/
theorem sdld_of_issues (hinv : s.Inv) (hiss : Issues s t o 0x08 none (some ⟨16, 64, 0xFFFFFFFF⟩)) :
    let k := tkey t
    let r := vaWords s (srcTh s k) (scalarVa s k o) n
    (scalarVa s k o % 8 ≠ 0 → sdld t o n mk s = .next (insnFault s k 0x08 0x10 0x15 0)) ∧
    (∀ ws, scalarVa s k o % 8 = 0 → r = (s1, .ok ws) →
      sdld t o n mk s = .next (setTh s1 k { setSd (th s k) o.d.toNat (mk ws) with pc := (th s k).pc + 8 })) ∧
    (∀ e, scalarVa s k o % 8 = 0 → r = (s1, .err e) → sdld t o n mk s = .next (insnFault s1 k 0x08 (accCode e).1 (accCode e).2 0)) ∧
    (scalarVa s k o % 8 = 0 → r = (s1, .wait) → sdld t o n mk s = .next s) := by
  have hrun : sdld t o n mk s = .next (finish (tkey t) 0x08 _) := insn_of_issues hiss _
  simp only [memAddr_th] at hrun
  refine ⟨fun hmis => ?_, fun ws hal hr => ?_, fun e hal hr => ?_, fun hal hr => ?_⟩
  · simp only [hrun, hmis, ne_eq, not_false_eq_true, if_true, finish]
  · have hcores : cores (vaWords s (srcTh s (tkey t)) (scalarVa s (tkey t) o) n).1 = cores s := cores_vaWords ..
    have hinv1 := vaWords_inv hinv (srcTh s (tkey t)) (scalarVa s (tkey t) o) n
    rw [hr] at hcores hinv1
    simp only [hrun, hal, hr, ne_eq, not_true_eq_false, if_false, finish, retire_setTh hinv1, th_of_cores hcores]
    rfl
  · simp only [hrun, hal, hr, ne_eq, not_true_eq_false, if_false, accTrap, finish]
  · simp only [hrun, hal, hr, ne_eq, not_true_eq_false, if_false, finish]

end

theorem descriptorLoads : Sys2Proof.Parts.DescriptorLoads := by
  intro c n desc hform s t o s1 hinv hiss
  have hexec : exec (c t o) s = sdld t o n desc s := by
    rcases hform with hbasic | hext
    · cases hbasic
      rfl
    · cases hext
      rfl
  rw [hexec]
  exact sdld_of_issues hinv hiss

end Sys2Proof.Machine
end

section
/-! COPY and the copy engine (R38, R40, R44, R50, R73, R247, R263, R344). -/

namespace Sys2Proof.Machine

/-- R73: what COPY does once it issues. -/
def copyEffect (o : Opnds) (k : Nat) (s : State) : Res :=
  match copyCheck (sdr (th s k) o.a.toNat) (sdr (th s k) o.b.toNat) with
  | some sub => .stay (descFault s k 6 o.a.toNat sub)
  | none => .done { s with cpes := sset cpe0 s.cpes (cpeOf s k) { sget cpe0 s.cpes (cpeOf s k) with
      reqs := (sget cpe0 s.cpes (cpeOf s k)).reqs ++
        [⟨k, (th s k).gen, (th s k).ctx, o.a.toNat, sdr (th s k) o.a.toNat, sdr (th s k) o.b.toNat, o.d.toNat, 0, false, none⟩] } }

theorem exec_copy (t : Tid) (o : Opnds) (s : State) : exec (.copy t o) s = insn s t o 0x08 (some ⟨32, 16, 16, 0, 0⟩) none (copyEffect o) := rfl

section
variable {s s1 : State} {cpe made : Nat} {r : CopyReq}

/-- R38, R344: the engine takes up a COPY unless a cut copy goes before it. -/
theorem exec_copyRequestServe_copy (hgo : issuing s = true) (hnext : copyNext s (sget cpe0 s.cpes cpe) = some r) (hcopy : r.xfer = none) :
    exec (.copyRequestServe cpe) s = .next (if (List.range 8).any (fun p => rdf s (R.CKP_STAT p) 0 4 == 2) then s
      else copyServe s cpe (sget cpe0 s.cpes cpe) r) := by
  show execCopyRequestServe cpe s = _
  unfold execCopyRequestServe
  simp only [hgo, hnext, hcopy, Bool.not_true, Bool.false_eq_true, if_false]

/-- R38: a request whose moves are all made is dropped. -/
theorem copyServe_whole (c : Cpe) (hrun : copyRun s r.ctx r ((copyMoves r.dst).drop r.line) = (s1, made, none))
    (hall : made = ((copyMoves r.dst).drop r.line).length) :
    copyServe s cpe c r = { s1 with
      landing := s1.landing ++ List.replicate (linesLanded made ((copyMoves r.dst).drop r.line)) (cpe, r.core, r.gen, r.cnt),
      cpes := sset cpe0 s1.cpes cpe { c with reqs := c.reqs.filter (fun x => x ≠ r), last := r.core } } := by
  unfold copyServe
  simp only [hrun, Option.isSome_none, Bool.false_and, Bool.false_eq_true, if_false, hall, true_or, if_true]

/-- R38, R50: a request stopped by a line that faults is set aside there, and the fault stops its thread. -/
theorem copyServe_faulted (c : Cpe) {err : AccErr} {tile : Nat}
    (hrun : copyRun s r.ctx r ((copyMoves r.dst).drop r.line) = (s1, made, some (err, tile)))
    (hpart : made < ((copyMoves r.dst).drop r.line).length) (hgen : (th s r.core).gen = r.gen)
    (hphase : (th s r.core).phase = .run ∨ (th s r.core).phase = .fence) :
    copyServe s cpe c r = streamFault { s1 with
        landing := s1.landing ++ List.replicate (linesLanded made ((copyMoves r.dst).drop r.line)) (cpe, r.core, r.gen, r.cnt),
        cpes := sset cpe0 s1.cpes cpe { c with
          reqs := c.reqs.map (fun x => if x = r then { r with line := r.line + made, aside := true } else x), last := r.core } }
      r.core 6 r.sds (tileCode err).1 (tileCode err).2 tile := by
  have hatomic : (th s r.core).phase ≠ .atomic := by rcases hphase with h | h <;> simp [h]
  have hidle : (th s r.core).phase ≠ .idle := by rcases hphase with h | h <;> simp [h]
  have hfault : (th s r.core).phase ≠ .fault := by rcases hphase with h | h <;> simp [h]
  unfold copyServe
  simp only [hrun, hgen, hpart.ne, hidle, hfault, beq_false_of_ne hatomic, bne_iff_ne.2 hidle, Option.isSome_some, beq_self_eq_true, Bool.true_and,
    Bool.not_true, Bool.false_eq_true, ne_eq, not_false_eq_true, if_false, if_true, false_or, and_false, false_and, and_self]

/-- R263: the engine sends the lines of a transfer. -/
theorem exec_copyRequestServe_transfer {id : Nat} (hgo : issuing s = true) (hnext : copyNext s (sget cpe0 s.cpes cpe) = some r)
    (hxfer : r.xfer = some id) :
    exec (.copyRequestServe cpe) s = .next { cpeSend cpe id 513 s with
      cpes := sset cpe0 (cpeSend cpe id 513 s).cpes cpe { sget cpe0 s.cpes cpe with
        reqs := if (cpeSend cpe id 513 s).xfers.any (fun x => x.id == id && x.fail.isNone && x.next != x.n) then (sget cpe0 s.cpes cpe).reqs
          else (sget cpe0 s.cpes cpe).reqs.filter (fun x => x ≠ r),
        last := r.core } } := by
  show execCopyRequestServe cpe s = _
  unfold execCopyRequestServe
  simp only [hgo, hnext, hxfer, Bool.not_true, Bool.false_eq_true, if_false]

/-- R44, R247: a line that an engine has moved counts once what it invalidated is acknowledged. -/
theorem exec_copyLineLanded {l : Nat × Nat × Nat × Nat} (hline : s.landing.find? (fun x => x.1 == cpe) = some l) :
    exec (.copyLineLanded cpe) s = .next (if issuing s = true ∧ acked s l.2.1 = true then
      arrive { s with landing := s.landing.erase l } l.2.1 l.2.2.1 l.2.2.2 else s) := by
  show execCopyLineLanded cpe s = _
  by_cases hgo : issuing s = true ∧ acked s l.2.1 = true
  · simp [execCopyLineLanded, hline, hgo]
  · have hstay : issuing s = false ∨ acked s l.2.1 = false := by simpa [imp_iff_not_or] using hgo
    simp [execCopyLineLanded, hline, hstay, hgo]

end

theorem copyRequests : Sys2Proof.Parts.CopyRequests := by
  refine ⟨does_of_insn copyEffect exec_copy fun s k o _ hok => ?_, fun s t o sub _ hiss hbad => ?_,
    fun s cpe r s1 made bad _ hgo hnext hcopy => ⟨fun hcut => ?_, fun hcut hrun hall hgood => ?_, fun err tile hcut hrun hpart hbad hgen hphase => ?_⟩,
    fun s cpe id r _ hgo hnext hxfer => exec_copyRequestServe_transfer hgo hnext hxfer,
    fun s cpe l _ hline => ⟨fun hgo hacked => ?_, fun hstay => ?_⟩⟩
  · simp only [copyEffect, hok, finish]
  · rw [exec_copy, insn_of_issues hiss]
    simp only [copyEffect, hbad, finish]
  · rw [exec_copyRequestServe_copy hgo hnext hcopy, if_pos hcut]
  · subst hgood
    rw [exec_copyRequestServe_copy hgo hnext hcopy, if_neg (by simp [hcut]), copyServe_whole _ hrun hall]
  · subst hbad
    rw [exec_copyRequestServe_copy hgo hnext hcopy, if_neg (by simp [hcut]), copyServe_faulted _ hrun hpart hgen hphase]
  · rw [exec_copyLineLanded hline, if_pos ⟨hgo, hacked⟩]
  · rw [exec_copyLineLanded hline, if_neg (by simpa [imp_iff_not_or] using hstay)]

/-- Settles O15: STREAM by the first check that it fails, the loads by what the read of the words answers, COPY by what its engine could move. -/
theorem streamsAndDescriptors : Obligations.StreamsAndDescriptors := ⟨streamBinds, descriptorLoads, copyRequests⟩

end Sys2Proof.Machine
end

section
/-! RESUME, ABANDON, the watchdog of a LAUNCH, and fault records (R52, R323, R327, R328). -/

namespace Sys2Proof.Machine

section
variable {s : State} {t : Tid}

theorem exec_dspTctlResume_stopped (hstop : (th s (tkey t)).phase = .fault) (hsaved : (th s (tkey t)).saving = none) :
    exec (.dspTctlResume t) s = .next (goOn (if isS (tkey t) then setTh s (tkey t) { th s (tkey t) with phase := .run, halt := false }
      else reviveCore (setTh s (tkey t) { th s (tkey t) with phase := .run, halt := false }) (tkey t)) (tkey t)) := by
  show execDspTctlResume t s = _
  simp only [execDspTctlResume, hstop, hsaved, if_true, Option.isSome_none, Bool.false_eq_true, if_false]

theorem exec_dspTctlResume_saving (hstop : (th s (tkey t)).phase = .fault) (hsaving : (th s (tkey t)).saving ≠ none) :
    exec (.dspTctlResume t) s = .next s := by
  show execDspTctlResume t s = _
  simp only [execDspTctlResume, hstop, Option.isSome_iff_ne_none.2 hsaving, if_true]

theorem exec_dspTctlResume_image (hrun : (th s (tkey t)).phase ≠ .fault) : exec (.dspTctlResume t) s = .next { s with
    images := s.images.map (fun im => if im.key = tkey t ∧ im.th.phase = .fault then { im with th := { im.th with phase := .run } } else im) } := by
  show execDspTctlResume t s = _
  simp only [execDspTctlResume, hrun, if_false]

theorem exec_dspTctlAbandon_stopped (hstop : (th s (tkey t)).phase = .fault) : exec (.dspTctlAbandon t) s = .next (abandon s (tkey t)) := by
  show execDspTctlAbandon t s = _
  simp only [execDspTctlAbandon, hstop, if_true]

theorem exec_dspTctlAbandon_image {im : Image} (hrun : (th s (tkey t)).phase ≠ .fault)
    (him : s.images.find? (fun im => im.key == tkey t && im.th.phase == .fault) = some im) :
    exec (.dspTctlAbandon t) s = .next (threadOver (dropCopies { s with images := s.images.filter (fun x => x ≠ im) } (tkey t) im.th.gen)
      (tkey t) im.th.launch none im.th.err) := by
  show execDspTctlAbandon t s = _
  simp only [execDspTctlAbandon, hrun, him, if_false]

theorem exec_dspTctlAbandon_none (hrun : (th s (tkey t)).phase ≠ .fault) (hnone : ∀ im ∈ s.images, im.key = tkey t → im.th.phase ≠ .fault) :
    exec (.dspTctlAbandon t) s = .next s := by
  have hfind : s.images.find? (fun im => im.key == tkey t && im.th.phase == .fault) = none :=
    List.find?_eq_none.2 fun im him => by simpa using hnone im him
  show execDspTctlAbandon t s = _
  simp only [execDspTctlAbandon, hrun, hfind, if_false]

/-- R327: what the timer of a LAUNCH does, by whether it is set and has come. -/
theorem exec_launchWatchdog {r ix : Nat} {d : DescSt} (hd : (ringOf s r).descs.find? (fun d => d.ix == ix) = some d) :
    (d.wdogAt = none → exec (.launchWatchdog r ix) s = .next s) ∧
    (∀ w, d.wdogAt = some w → s.ltc.toNat < w → exec (.launchWatchdog r ix) s = .next s) ∧
    (∀ w, d.wdogAt = some w → w ≤ s.ltc.toNat → exec (.launchWatchdog r ix) s =
      .next (timer3 (d.live.foldl (fun s k => watchdogStop s (r, ix) k) (modDesc s r ix (fun d => { d with wdogAt := none }))) d.ctx)) := by
  have hexec : exec (.launchWatchdog r ix) s = execLaunchWatchdog r ix s := rfl
  refine ⟨fun hoff => ?_, fun w hset hearly => ?_, fun w hset hcome => ?_⟩
  · simp only [hexec, execLaunchWatchdog, hd, hoff]
  · simp only [hexec, execLaunchWatchdog, hd, hset, hearly, if_true]
  · simp only [hexec, execLaunchWatchdog, hd, hset, Nat.not_lt.2 hcome, if_false]

theorem exec_launchWatchdog_gone {r ix : Nat} (hd : (ringOf s r).descs.find? (fun d => d.ix == ix) = none) :
    exec (.launchWatchdog r ix) s = .next s := by
  show execLaunchWatchdog r ix s = _
  simp only [execLaunchWatchdog, hd]

/-- R327: the record of the oldest fault: its LAUNCH's tag and context, its status, and where its thread ran. -/
theorem exec_faultRecordWrite {f : FaultRec} {rest : List FaultRec} (hq : s.faultQ = f :: rest) (hhost : s.hostLost = false)
    (hroom : cqRoom s (rdf s R.DSP_CFG 8 8) ≠ 0) :
    let d := f.launch.bind (fun l => (ringOf s l.1).descs.find? (fun d => d.ix == l.2))
    exec .faultRecordWrite s = .next (writeRec { s with faultQ := rest } ⟨rdf s R.DSP_CFG 8 8, (d.map (fun d => dField d 0 8)).getD 0, f.status, f.sub,
      (d.map (·.ctx)).getD 0xFFFF, 0, 0, coreOf f.key % 256 + (if isS f.key then 1 else 0) * 256 + lane f.key * 65536⟩) := by
  have hcode : coreOf f.key % 256 + (if isS f.key then 1 else 0) <<< 8 + lane f.key <<< 16 =
      coreOf f.key % 256 + (if isS f.key then 1 else 0) * 256 + lane f.key * 65536 := by rw [Nat.shiftLeft_eq, Nat.shiftLeft_eq]
  dsimp only
  rw [← hcode]
  show execFaultRecordWrite s = _
  simp only [execFaultRecordWrite, hq, hhost, beq_false_of_ne hroom, Bool.or_self, Bool.false_eq_true, if_false]

theorem exec_faultRecordWrite_stays (hwhy : s.faultQ = [] ∨ s.hostLost = true ∨ cqRoom s (rdf s R.DSP_CFG 8 8) = 0) :
    exec .faultRecordWrite s = .next s := by
  have hexec : exec .faultRecordWrite s = execFaultRecordWrite s := rfl
  rcases hq : s.faultQ with _ | ⟨f, rest⟩
  · simp only [hexec, execFaultRecordWrite, hq]
  · have hstay : (s.hostLost || cqRoom s (rdf s R.DSP_CFG 8 8) == 0) = true := by simpa [hq] using hwhy
    simp only [hexec, execFaultRecordWrite, hq, hstay, if_true]

end

/-- Settles O42: each command by the phase of the thread, the timer and the queue that it finds. That fault records wait while the host is lost, and that RESUME and ABANDON act on a saved image, are the model's reading (logs 41, 42). -/
theorem threadControl : Obligations.ThreadControl := fun _ _ _ =>
  ⟨exec_dspTctlResume_stopped, exec_dspTctlResume_saving, exec_dspTctlResume_image, exec_dspTctlAbandon_stopped,
    fun _ => exec_dspTctlAbandon_image, exec_dspTctlAbandon_none, fun _ _ => exec_launchWatchdog_gone, fun _ _ _ => exec_launchWatchdog,
    fun _ _ => exec_faultRecordWrite, exec_faultRecordWrite_stays⟩

end Sys2Proof.Machine
end

section
/-! Translation invalidation, contexts, core sets and the enabling of rings (R46, R318, R320, R325, R326, R331, R333, R367, R376). -/

namespace Sys2Proof.Machine

/-- R8: the store of a register changes registers alone. -/
theorem regPut_eq_regs (s : State) (a : Nat) (v : Word) : ∃ regs, regPut s a v = { s with regs := regs } := by
  cases hr : regRow a with
  | none => exact ⟨s.regs, regPut_of_none v hr⟩
  | some r => exact ⟨_, regPut_of_some v hr⟩

theorem ltc_regPut (s : State) (a : Nat) (v : Word) : (regPut s a v).ltc = s.ltc := by
  obtain ⟨regs, h⟩ := regPut_eq_regs s a v
  rw [h]
theorem rings_regPut (s : State) (a : Nat) (v : Word) : (regPut s a v).rings = s.rings := by
  obtain ⟨regs, h⟩ := regPut_eq_regs s a v
  rw [h]
theorem hostLost_regPut (s : State) (a : Nat) (v : Word) : (regPut s a v).hostLost = s.hostLost := by
  obtain ⟨regs, h⟩ := regPut_eq_regs s a v
  rw [h]
theorem heldRecs_regPut (s : State) (a : Nat) (v : Word) : (regPut s a v).heldRecs = s.heldRecs := by
  obtain ⟨regs, h⟩ := regPut_eq_regs s a v
  rw [h]
theorem ringOf_regPut (s : State) (a : Nat) (v : Word) (r : Nat) : ringOf (regPut s a v) r = ringOf s r := by rw [ringOf, rings_regPut, ringOf]

theorem bitw_eq_getLsbD (v : Word) (i : Nat) : bitw v i = v.getLsbD i := rfl

section
variable {s : State} {v : Word}

/-- R325: the entries that an invalidation leaves. -/
theorem mem_tlb_tlbDrop (s : State) (c : Nat) (p : Option Nat) (e : TlbEntry) : e ∈ (tlbDrop s c p).tlb ↔
    e ∈ s.tlb ∧ ¬ (e.ctx = c ∧ (p = none ∨ ∃ n, p = some n ∧ (e.vpn = n ∨ (e.big = true ∧ e.vpn / 512 = n / 512)))) := by
  cases p with
  | none => simp [tlbDrop]
  | some n => simp [tlbDrop, imp_iff_not_or]

/-- R325: a write of GO starts an invalidation, once that under way is made, or ends it. -/
theorem exec_dspTlbinvGo :
    let s0 := match s.tlbInv with | some (c, p) => tlbDrop s c p | none => s
    let s1 := regPut s0 R.DSP_TLBINV v
    (v.getLsbD 63 = true → exec (.dspTlbinvGo v) s =
      .next { wrf s1 R.DSP_TLBINV 62 1 0 with tlbInv := some (fld v 0 6, if bitw v 6 then none else some (fld v 21 27)) }) ∧
    (v.getLsbD 63 = false → exec (.dspTlbinvGo v) s = .next (wrf { s1 with tlbInv := none } R.DSP_TLBINV 62 1 1)) := by
  have hexec : exec (.dspTlbinvGo v) s = execDspTlbinvGo v s := rfl
  refine ⟨fun hgo => ?_, fun hgo => ?_⟩
  · rw [hexec, execDspTlbinvGo]
    exact next_ite_pos hgo
  · rw [hexec, execDspTlbinvGo]
    exact next_ite_neg (by simp only [bitw_eq_getLsbD, hgo, Bool.false_eq_true, not_false_eq_true])

/-- R325: the invalidation drops its entries, and DONE tells it. -/
theorem exec_tlbinvDone (hinv : s.Inv) {c : Nat} {p : Option Nat} (hgo : s.tlbInv = some (c, p)) :
    ∃ u, exec .tlbinvDone s = .next u ∧ u.tlbInv = none ∧ rdf u R.DSP_TLBINV 62 1 = 1 ∧
      (∀ e, e ∈ u.tlb ↔ e ∈ s.tlb ∧ ¬ (e.ctx = c ∧ (p = none ∨ ∃ n, p = some n ∧ (e.vpn = n ∨ (e.big = true ∧ e.vpn / 512 = n / 512))))) ∧
      u.mem = s.mem ∧ (∀ a, a ≠ R.DSP_TLBINV → rd u a = rd s a) := by
  have hdrop : ({ tlbDrop s c p with tlbInv := none } : State).Inv := { hinv with }
  refine ⟨wrf { tlbDrop s c p with tlbInv := none } R.DSP_TLBINV 62 1 1, ?_, rfl, rdf_wrf_same hdrop _ _ _ _ (by decide),
    mem_tlb_tlbDrop s c p, rfl, fun a ha => rd_wrf_ne hdrop _ _ _ ha⟩
  show execTlbinvDone s = _
  simp only [execTlbinvDone, hgo]

/-- R326: zero written to each of a list of registers. -/
theorem rd_foldl_wr_zero {f : Nat → Nat} (a : Nat) (l : List Nat) :
    ∀ {s : State}, s.Inv → rd (l.foldl (fun s w => wr s (f w) 0) s) a = if ∃ w ∈ l, f w = a then 0 else rd s a := by
  induction l with
  | nil => simp
  | cons x l ih =>
    intro s hinv
    rw [List.foldl_cons, ih (wr_inv _ _ hinv)]
    by_cases hx : f x = a
    · simp [← hx, rd_wr_same hinv]
    · rw [rd_wr_ne hinv _ (Ne.symm hx)]
      simp [hx]

/-- R46, R326, R367: a write of a context's definition. -/
theorem exec_dspCtxdefValid (hinv : s.Inv) {c : Nat} (hc : c < 64) :
    (ctxValid s c = true → v.getLsbD 63 = false → ctxUsed s c = true → exec (.dspCtxdefValid c v) s = .next (dspRefuse s 0x30 c)) ∧
    (ctxValid s c = true → v.getLsbD 63 = false → ctxUsed s c = false → exec (.dspCtxdefValid c v) s = .next (regPut s (R.DSP_CTXDEF c) v)) ∧
    (ctxValid s c = true → v.getLsbD 63 = true → exec (.dspCtxdefValid c v) s = .next (regPut s (R.DSP_CTXDEF c) (putf v 0 3 (partOf s c)))) ∧
    (ctxValid s c = false → v.getLsbD 63 = false → exec (.dspCtxdefValid c v) s = .next (regPut s (R.DSP_CTXDEF c) v)) ∧
    (ctxValid s c = false → v.getLsbD 63 = true → ∃ u, exec (.dspCtxdefValid c v) s = .next u ∧ (∀ w < 8, rd u (R.SEC_PCHAIN c w) = 0) ∧
      (∀ a, (∀ w < 8, a ≠ R.SEC_PCHAIN c w) → rd u a = rd (regPut s (R.DSP_CTXDEF c) v) a)) := by
  have hexec : exec (.dspCtxdefValid c v) s = execDspCtxdefValid c v s := rfl
  refine ⟨fun hval hv hused => ?_, fun hval hv hused => ?_, fun hval hv => ?_, fun hval hv => ?_, fun hval hv =>
    ⟨(List.range 8).foldl (fun s w => wr s (R.SEC_PCHAIN c w) 0) (regPut s (R.DSP_CTXDEF c) v), ?_, fun w hw => ?_, fun a ha => ?_⟩⟩
  · simp only [hexec, execDspCtxdefValid, Nat.not_le.2 hc, bitw_eq_getLsbD, hval, hv, hused, Bool.not_false, Bool.and_self, if_true, if_false]
  · simp only [hexec, execDspCtxdefValid, Nat.not_le.2 hc, bitw_eq_getLsbD, hval, hv, hused, Bool.and_false, Bool.false_eq_true, if_true, if_false]
  · simp only [hexec, execDspCtxdefValid, Nat.not_le.2 hc, bitw_eq_getLsbD, hval, hv, Bool.not_true, Bool.false_and, Bool.false_eq_true, if_true, if_false]
  · simp only [hexec, execDspCtxdefValid, Nat.not_le.2 hc, bitw_eq_getLsbD, hval, hv, Bool.false_eq_true, if_false]
  · simp only [hexec, execDspCtxdefValid, Nat.not_le.2 hc, bitw_eq_getLsbD, hval, hv, if_false, if_true, Bool.false_eq_true]
  · rw [rd_foldl_wr_zero _ _ (regPut_inv _ _ hinv), if_pos ⟨w, List.mem_range.2 hw, rfl⟩]
  · rw [rd_foldl_wr_zero _ _ (regPut_inv _ _ hinv), if_neg (fun ⟨w, hw, heq⟩ => ha w (List.mem_range.1 hw) heq.symm)]

/-- R326, R376: a write of one word of a core set. -/
theorem exec_dspCsetWrite {c k w : Nat} (hc : c < 64) (hk : k < 4) (hw : w < 6) :
    exec (.dspCsetWrite c k w v) s = .next (
      if w < 2 ∧ 2 ^ (2 * nCores s - 64 * w) ≤ v.toNat then dspRefuse s 0x10 c
      else if w < 5 ∧ clusterClash s c w v = true then dspRefuse s 0x30 c
      else regPut s (R.DSP_CSET c k w) v) := by
  have hexists : ¬ (64 ≤ c ∨ 4 ≤ k ∨ 6 ≤ w) := by omega
  exact next_ite_neg hexists

theorem clusterClash_of_not_confidential {c w : Nat} (h : confidential s = false) : clusterClash s c w v = false := by
  simp [clusterClash, h]

theorem readIndex_setRing_same (h : s.Inv) (r : Nat) : readIndex (setRing s r (ringOf s r)) r = readIndex s r := by
  rw [readIndex, ringOf_setRing_same h, setRing_setRing h]
  rfl

theorem rdf_ringStat_regPut_ringSq (hinv : s.Inv) (r lo n : Nat) :
    rdf (regPut s (R.DSP_RING_SQ r) v) (R.DSP_RING_STAT r) lo n = rdf s (R.DSP_RING_STAT r) lo n :=
  rdf_of_rd (rd_regPut_ne hinv v (by simp only [R.DSP_RING_STAT, R.DSP_RING_SQ]; omega)) lo n

/-- R318, R320, R333: a write of DSP_RING_SQ. -/
theorem exec_dspRingEnable (hinv : s.Inv) {r : Nat} (hr : r < 256) :
    let s1 := regPut s (R.DSP_RING_SQ r) v
    (v.getLsbD 63 = false ∨ rdf s (R.DSP_RING_STAT r) 0 1 = 1 → exec (.dspRingEnable r v) s = .next s1) ∧
    (v.getLsbD 63 = true → rdf s (R.DSP_RING_STAT r) 0 1 = 0 → (ringOf s r).stopped = false → exec (.dspRingEnable r v) s = .next (readIndex s1 r)) ∧
    (v.getLsbD 63 = true → rdf s (R.DSP_RING_STAT r) 0 1 = 0 → (ringOf s r).stopped = true →
      exec (.dspRingEnable r v) s = .next (readIndex (setRing s1 r { ringOf s r with stopped := false, sqPi := (ringOf s r).sqCi }) r)) := by
  have hexec : exec (.dspRingEnable r v) s = execDspRingEnable r v s := rfl
  refine ⟨fun hoff => ?_, fun hon herr hserved => ?_, fun hon herr hstopped => ?_⟩
  · have hskip : (!v.getLsbD 63 || rdf s (R.DSP_RING_STAT r) 0 1 == 1) = true := by simpa using hoff
    simp only [hexec, execDspRingEnable, Nat.not_le.2 hr, rdf_ringStat_regPut_ringSq hinv, bitw_eq_getLsbD, hskip, if_false, if_true]
  · simp only [hexec, execDspRingEnable, Nat.not_le.2 hr, rdf_ringStat_regPut_ringSq hinv, bitw_eq_getLsbD, hon, herr, ringOf_regPut, hserved,
      if_false, Bool.not_true, Bool.false_or, Nat.reduceBEq, Bool.false_eq_true]
    rw [← ringOf_regPut s (R.DSP_RING_SQ r) v, readIndex_setRing_same (regPut_inv _ _ hinv)]
  · simp only [hexec, execDspRingEnable, Nat.not_le.2 hr, rdf_ringStat_regPut_ringSq hinv, bitw_eq_getLsbD, hon, herr, ringOf_regPut, hstopped,
      if_false, if_true, Bool.not_true, Bool.false_or, Nat.reduceBEq, Bool.false_eq_true]

theorem rdf_plkStat_regPut_cfg (hinv : s.Inv) (lo n : Nat) : rdf (regPut s R.DSP_CFG v) R.PLK_STAT lo n = rdf s R.PLK_STAT lo n :=
  rdf_of_rd (rd_regPut_ne hinv v (by decide)) lo n

/-- R331, R333: a write of DSP_CFG: with ENABLE, records held while the host was away are delivered once a port is up, and the rings are served. -/
theorem exec_dspCfgEnable (hinv : s.Inv) :
    let s1 := regPut s R.DSP_CFG v
    let up := rdf s R.PLK_STAT 0 2 = 3 ∨ rdf s R.PLK_STAT 2 2 = 3
    let serve (u : State) : State := u.rings.foldl (fun u kv => takeDescs u kv.1) u
    (v.getLsbD 0 = false → exec (.dspCfgEnable v) s = .next s1) ∧
    (v.getLsbD 0 = true → s.hostLost = false ∨ ¬ up → exec (.dspCfgEnable v) s = .next (serve s1)) ∧
    (v.getLsbD 0 = true → s.hostLost = true → up →
      exec (.dspCfgEnable v) s = .next (serve (s.heldRecs.foldl writeRec { s1 with hostLost := false, heldRecs := [] }))) := by
  have hexec : exec (.dspCfgEnable v) s = execDspCfgEnable v s := rfl
  refine ⟨fun hoff => ?_, fun hon hnone => ?_, fun hon hlost hup => ?_⟩
  · simp only [hexec, execDspCfgEnable, bitw_eq_getLsbD, hoff, Bool.false_eq_true, false_and, if_false]
  · have hkept : ¬ (s.hostLost = true ∧ (rdf s R.PLK_STAT 0 2 = 3 ∨ rdf s R.PLK_STAT 2 2 = 3)) := by
      rintro ⟨hlost, hup⟩
      rcases hnone with hthere | hdown
      · rw [hlost] at hthere
        cases hthere
      · exact hdown hup
    simp only [hexec, execDspCfgEnable, bitw_eq_getLsbD, hon, hostLost_regPut, rdf_plkStat_regPut_cfg hinv, hkept, true_and, if_true, if_false]
  · simp only [hexec, execDspCfgEnable, bitw_eq_getLsbD, hon, hostLost_regPut, heldRecs_regPut, rdf_plkStat_regPut_cfg hinv, hlost, hup, true_and, if_true]

end

/-- Settles O43: each write by the bits it carries and the state it finds. That an invalidation still under way is made first is the model's reading (log 24). -/
theorem contextsAndInvalidation : Obligations.ContextsAndInvalidation := by
  refine fun s v hinv => ⟨exec_dspTlbinvGo, fun c p => exec_tlbinvDone hinv, fun hnone => ?_, fun c hc => exec_dspCtxdefValid hinv hc,
    fun c k w hc hk hw => ⟨fun hbad => ?_, fun hfits hw5 hclash => ?_, fun hfits hfree => ?_, clusterClash_of_not_confidential⟩,
    fun r hr => exec_dspRingEnable hinv hr, exec_dspCfgEnable hinv⟩
  · show execTlbinvDone s = _
    simp only [execTlbinvDone, hnone]
  · rw [exec_dspCsetWrite hc hk hw, if_pos (by omega)]
  · rw [exec_dspCsetWrite hc hk hw, if_neg (by omega), if_pos ⟨hw5, hclash⟩]
  · have hclash : ¬ (w < 5 ∧ clusterClash s c w v = true) := by
      rcases hfree with hlast | hnone
      · omega
      · simp [hnone]
    rw [exec_dspCsetWrite hc hk hw, if_neg (by omega), if_neg hclash]

end Sys2Proof.Machine
end

section
/-! Preemption, saved images and restores of contexts (R48-R52, R178, R264). -/

namespace Sys2Proof.Machine

section
variable {s : State}

/-- R49: a request preempts what a core runs, and an idle core has nothing to preempt. -/
theorem exec_ncoPreemptReq {core : Nat} {v : Word} (hcore : core < 2 * nCores s) :
    let a := R.NCO_PREEMPT (halfOf s core) (dieCore s core)
    let s1 := regPut s a (putf v 0 1 (rdf s a 0 1))
    (v.getLsbD 0 = true → (th s core).phase ≠ .idle →
      exec (.ncoPreemptReq core v) s = .next (wrf (setTh s1 core { th s core with saving := some s.ltc.toNat }) a 0 1 1)) ∧
    (v.getLsbD 0 = false ∨ (th s core).phase = .idle → exec (.ncoPreemptReq core v) s = .next s1) := by
  have hexec : exec (.ncoPreemptReq core v) s = execNcoPreemptReq core v s := rfl
  refine ⟨fun hreq hruns => ?_, fun hnone => ?_⟩
  · simp only [hexec, execNcoPreemptReq, Nat.not_le.2 hcore, bitw_eq_getLsbD, hreq, beq_false_of_ne hruns, ltc_regPut, Bool.not_true, Bool.or_self,
      Bool.false_eq_true, if_false]
  · have hskip : (!v.getLsbD 0 || (th s core).phase == .idle) = true := by simpa using hnone
    simp only [hexec, execNcoPreemptReq, Nat.not_le.2 hcore, bitw_eq_getLsbD, hskip, if_true, if_false]

theorem exec_ncoPreemptReq_absent {core : Nat} {v : Word} (hcore : 2 * nCores s ≤ core) : exec (.ncoPreemptReq core v) s = .next s :=
  next_ite_pos hcore

/-- R264: a read of FABRIC.get of the core is on its way. -/
def getsPending (s : State) (core : Nat) : Bool := s.reqs.any (fun r => r.eng == 0xA00 + core && (match r.kind with | .get _ _ _ => true | _ => false))

/-- R49: the save area is written as far as memory lets it be; what it holds is not known. -/
def saveArea (s : State) (core : Nat) : State :=
  let base := rdf s (R.NCO_SAVE_BASE (halfOf s core) (dieCore s core)) 12 36 * 4096
  let s1 := spend s 16384
  if physErr s1 .dev base imageBytes true = none then
    moveLines (memUndef s1 base (base + imageBytes)) (srcBulk s1 core (th s core).ctx true) base (imageSize (nc s core)) true
  else s1

/-- R49: the save has ended: nothing of the core's FABRIC reads is kept, and DONE is set. -/
def saveDone (s : State) (core : Nat) : State :=
  let a := R.NCO_PREEMPT (halfOf s core) (dieCore s core)
  wrf (wrf { saveArea s core with getTiles := (saveArea s core).getTiles.filter (fun g => g.core ≠ core) } a 1 1 1) a 0 1 0

/-- R49, R52: the end of a save, once the core's FABRIC reads and its atomic have ended: a preempted core is free, a stopped one keeps its context. -/
theorem exec_preemptSaveDone {core t0 : Nat} (hcore : core < 2 * nCores s) (hsaving : (th s core).saving = some t0) :
    exec (.preemptSaveDone core) s = .next (
      if (th s core).phase = .atomic ∨ getsPending s core = true then s
      else if rdf s (R.NCO_PREEMPT (halfOf s core) (dieCore s core)) 0 1 = 1 then
        takeUp (freeThread { wrf (saveDone s core) (R.NCO_PREEMPT (halfOf s core) (dieCore s core)) 32 32 ((saveDone s core).ltc.toNat - t0) with
          images := (saveDone s core).images ++ [coreImage s core] } core) core
      else setTh (saveDone s core) core { th s core with phase := restartPhase (th s core).phase, saving := none }) := by
  have hexec : exec (.preemptSaveDone core) s = execPreemptSaveDone core s := rfl
  have habsent : ¬ (2 * nCores s ≤ core) := Nat.not_le.2 hcore
  unfold saveDone saveArea
  cases hphys : physErr (spend s 16384) .dev (rdf s (R.NCO_SAVE_BASE (halfOf s core) (dieCore s core)) 12 36 * 4096) imageBytes true
  · simp only [hexec, execPreemptSaveDone, hsaving, habsent, hphys, false_or, if_true]
    rfl
  · simp only [hexec, execPreemptSaveDone, hsaving, habsent, hphys, false_or, reduceCtorEq, if_false]
    rfl

theorem exec_preemptSaveDone_none {core : Nat} (hsaving : (th s core).saving = none) : exec (.preemptSaveDone core) s = .next s := by
  show execPreemptSaveDone core s = _
  simp only [execPreemptSaveDone, hsaving]

/-- R51: an S-core thread is free, and its image is kept. -/
def threadSaved (s : State) (k : Nat) : State :=
  takeUp (freeThread { s with images := s.images ++ [⟨k, { th s k with phase := restartPhase (th s k).phase, saving := none }, ncore0, [], [], [], []⟩] } k) k

/-- R51, R178: what is outstanding of a gather or an atomic of an S-core thread that is to be saved goes on. -/
def gatherOn (s : State) (k : Nat) : State := gatherStep k 600 (setTh s k { th s k with saving := some ((th s k).saving.getD s.ltc.toNat) })

/-- R178: a thread in a gather or an atomic has accesses outstanding. -/
theorem mem_outstanding {p : Phase} : p ∈ [Phase.gather, Phase.atomic] ↔ p = .gather ∨ p = .atomic := by
  rw [List.mem_cons, List.mem_singleton]

/-- R51, R178: an S-core thread is saved at an instruction boundary, or once what is outstanding has finished. -/
theorem exec_sCorePreemption {t : Tid} (hS : isS (tkey t) = true) :
    exec (.sCorePreemption t) s = .next (
      if (th s (tkey t)).phase = .idle then s
      else if (th s (tkey t)).phase = .gather ∨ (th s (tkey t)).phase = .atomic then
        (if (th (gatherOn s (tkey t)) (tkey t)).phase = .gather ∨ (th (gatherOn s (tkey t)) (tkey t)).phase = .atomic then gatherOn s (tkey t)
         else threadSaved (gatherOn s (tkey t)) (tkey t))
      else threadSaved s (tkey t)) := by
  have hexec : exec (.sCorePreemption t) s = execSCorePreemption t s := rfl
  by_cases hidle : (th s (tkey t)).phase = .idle
  · simp only [hexec, execSCorePreemption, hS, hidle, beq_self_eq_true, Bool.or_true, if_true]
  · by_cases hout : (th s (tkey t)).phase = .gather ∨ (th s (tkey t)).phase = .atomic
    · simp only [hexec, execSCorePreemption, hS, beq_false_of_ne hidle, hidle, hout, Bool.not_true, Bool.or_self, Bool.false_eq_true, if_true, if_false]
      rfl
    · simp only [hexec, execSCorePreemption, hS, beq_false_of_ne hidle, hidle, hout, Bool.not_true, Bool.or_self, Bool.false_eq_true, if_false]
      rfl

section
variable {t : Tid} {ctx : Nat} {im : Image} (him : s.images.find? (fun im => im.key == tkey t && im.th.ctx == ctx) = some im)

/-- R48: a saved thread takes up the increments held for it. -/
def resumed (im : Image) : Thread := im.held.foldl (fun n c => ctrAdd n c 1) im.th

/-- R51: the image is taken from those kept. -/
def imageTaken (s : State) (k : Nat) (im : Image) : State := setTh { s with images := s.images.erase im } k (resumed im)

/-- R49-R51: the local store and the register state of an N-core stand again as they were saved. -/
def coreRestored (s : State) (k ctx : Nat) (im : Image) : State :=
  let lo := storeBase (halfOf s k) (dieCore s k)
  let sm := moveLines s (srcBulk s k ctx true) (rdf s (R.NCO_SAVE_BASE (halfOf s k) (dieCore s k)) 12 36 * 4096) (imageSize im.nc) false
  let s1 : State := memClear (setNc sm k im.nc) lo (lo + 0x200000)
  { memRestore s1 im.store with undef := im.undef ++ s1.undef, poison := im.poison.foldl (fun p l => ninsert l p) s1.poison }

theorem regs_coreRestored (s : State) (k ctx : Nat) (im : Image) : (coreRestored s k ctx im).regs = s.regs := by
  simp only [coreRestored, memRestore, memClear, setNc, moveLines_regs]

theorem ncoCtx_code (ctx p : Nat) : ctx + p <<< 8 + 1 <<< 16 = ctx + p * 2 ^ 8 + 2 ^ 16 := by rw [Nat.shiftLeft_eq, Nat.shiftLeft_eq, Nat.one_mul]

include him

/-- R48-R51: an idle core or thread takes its image up again. -/
theorem exec_contextRestore : exec (.contextRestore t ctx) s = .next (
    if (th s (tkey t)).phase ≠ .idle then s
    else if isS (tkey t) = true then goOn (imageTaken s (tkey t) im) (tkey t)
    else
      let s3 := wr (coreRestored (imageTaken s (tkey t) im) (tkey t) ctx im) (R.NCO_CTX (halfOf s (tkey t)) (dieCore s (tkey t)))
        (BitVec.ofNat 64 (ctx + partOf s ctx * 2 ^ 8 + 2 ^ 16))
      if (resumed im).phase = .fault then s3 else goOn (reviveCore s3 (tkey t)) (tkey t)) := by
  have hpart : partOf (coreRestored (imageTaken s (tkey t) im) (tkey t) ctx im) ctx = partOf s ctx :=
    rdf_of_rd (rd_of_regs (regs_coreRestored (imageTaken s (tkey t) im) (tkey t) ctx im) _) 0 3
  rw [← ncoCtx_code, ← hpart]
  show execContextRestore t ctx s = _
  simp only [execContextRestore, him]
  rfl

end

theorem exec_contextRestore_none {t : Tid} {ctx : Nat} (hnone : s.images.find? (fun im => im.key == tkey t && im.th.ctx == ctx) = none) :
    exec (.contextRestore t ctx) s = .next s := by
  show execContextRestore t ctx s = _
  simp only [execContextRestore, hnone]

end

/-- Settles O49: a request, a save's end and a restore by the phase of the thread they find. That an idle core ignores a request, that a request cannot be withdrawn, and that the save area holds nothing known are the model's reading (logs 42, 60). -/
theorem preemption : Obligations.Preemption := by
  refine fun s hinv => ⟨fun core v hcore => exec_ncoPreemptReq hcore, fun core v => exec_ncoPreemptReq_absent,
    fun core t0 hcore hsaving => ⟨fun hwait => ?_, fun hatomic hreads hreq => ?_, fun hatomic hreads hreq => ?_⟩,
    fun core => exec_preemptSaveDone_none, fun t hS => ⟨fun hidle => ?_, fun hphase => ?_, fun hphase => ?_⟩,
    fun t ctx im him => ⟨fun hbusy => ?_, fun hidle hS => ?_, fun hidle hN => ?_⟩, fun t ctx => exec_contextRestore_none⟩
  · exact (exec_preemptSaveDone hcore hsaving).trans (next_ite_pos hwait)
  · have hno : getsPending s core = false := hreads
    rw [exec_preemptSaveDone hcore hsaving, if_neg (by simp [hatomic, hno]), if_neg (by omega)]
    rfl
  · have hno : getsPending s core = false := hreads
    rw [exec_preemptSaveDone hcore hsaving, if_neg (by simp [hatomic, hno]), if_pos hreq]
    rfl
  · rw [exec_sCorePreemption hS, if_pos hidle]
  · rw [exec_sCorePreemption hS, if_neg fun h => hphase (by simp [h]), if_neg fun h => hphase (by rcases h with h | h <;> simp [h])]
    rfl
  · rw [exec_sCorePreemption hS, if_neg fun h => by simp [h] at hphase, if_pos (mem_outstanding.1 hphase)]
    simp only [mem_outstanding]
    rfl
  · exact (exec_contextRestore him).trans (next_ite_pos hbusy)
  · rw [exec_contextRestore him, if_neg (not_not.2 hidle), if_pos hS]
    rfl
  · rw [exec_contextRestore him, if_neg (not_not.2 hidle), if_neg (by simp [hN])]
    rfl

end Sys2Proof.Machine
end

section
/-! ELEMENT and REDUCE take tiles (R35, R130, R136-R155). -/

namespace Sys2Proof.Machine

/-! The counters of a context and its random streams are not the layout of the package. -/

section
variable {s : State}

theorem numAdd_inv (h : s.Inv) (a k : Nat) : (numAdd s a k).Inv := (numAdd_kept s a k (inv_kept h)).2

theorem rd_numAdd_ne (h : s.Inv) {a b : Nat} (k : Nat) (hb : b ≠ a) : rd (numAdd s a k) b = rd s b := by
  unfold numAdd
  split
  · rfl
  · exact rd_wr_ne h _ hb

theorem nCores_countNum (h : s.Inv) (ctx : Nat) (c : Cnt) : nCores (countNum s ctx c) = nCores s := by
  have hlow (a : Nat) (ha : 0xf0000068000 ≤ a) : R.PKG_LAYOUT ≠ a := by rw [R.PKG_LAYOUT]; omega
  have hsat := numAdd_inv h (R.DSP_CTX_NUM_SAT ctx) c.sat
  have hflush := numAdd_inv hsat (R.DSP_CTX_NUM_FLUSH ctx) c.flush
  rw [nCores, countNum, rdf, rd_numAdd_ne hflush _ (hlow _ (by rw [R.DSP_CTX_NUM_NAN]; omega)),
    rd_numAdd_ne hsat _ (hlow _ (by rw [R.DSP_CTX_NUM_FLUSH]; omega)), rd_numAdd_ne h _ (hlow _ (by rw [R.DSP_CTX_NUM_SAT]; omega)), nCores, rdf]

theorem nCores_takeFor (h : s.Inv) (nctl : NumCtl) (ctx : Nat) : nCores (takeFor nctl ctx s).2 = nCores s := by
  unfold takeFor
  split
  · exact rdf_of_rd (rd_wr_ne h _ (by rw [R.PKG_LAYOUT, R.DSP_CTX_RNG_CTR]; omega)) 0 8
  · rfl

theorem takeFor_inv (h : s.Inv) (nctl : NumCtl) (ctx : Nat) : (takeFor nctl ctx s).2.Inv := (takeFor_kept nctl ctx s (inv_kept h)).2

theorem halfOf_of_nCores {t : State} (h : nCores t = nCores s) (core : Nat) : halfOf t core = halfOf s core := by rw [halfOf, halfOf, h]
theorem dieCore_of_nCores {t : State} (h : nCores t = nCores s) (core : Nat) : dieCore t core = dieCore s core := by rw [dieCore, dieCore, h]

end

section
variable {s : State} {core : Nat} {st : Stream} {x : Tile} {p : Prog}

/-- R140: the y tile that a program reads. -/
def yOf (n : NCore) (p : Prog) : Option (Stream × Tile) := if p.reads 2 then peekTile n pEwY else none

/-- R140-R143: ELEMENT lets an x tile wait: for its y tile, its linked result, room for z, or a register that is to be written. -/
def elementWaits (n : NCore) (p : Prog) (st : Stream) : Bool :=
  p.reads 2 && (yOf n p).isNone || p.reads 7 && st.to2.isSome && (linkOf n st.q (st.took pEwX)).isNone || (!hasRoom n pEwX || p.eRegs.any (pendingWrites n))

theorem elementWaits_iff {n : NCore} : elementWaits n p st = true ↔
    (p.reads 2 = true ∧ yOf n p = none) ∨ (p.reads 7 = true ∧ st.to2.isSome = true ∧ linkOf n st.q (st.took pEwX) = none) ∨ hasRoom n pEwX = false ∨
      ∃ i ∈ p.eRegs, pendingWrites n i = true := by
  simp [elementWaits, and_assoc, or_assoc]

/-- R140-R145: ELEMENT runs its program on every element, puts z out, and has done with its tiles and their linked result. -/
def elementDone (s : State) (core : Nat) (p : Prog) (st : Stream) (x : Tile) (y : Option (Stream × Tile)) : State :=
  let n := nc s core
  let link := linkOf n st.q (st.took pEwX)
  let nctl := (numCtl n.ew.run.2).getD numCtl0
  let ctx := (th s core).ctx
  let r := runTile n p x (y.map (·.2)) ((link.bind (·.members)).getD []) ((link.map (·.row)).getD false) s.free
  let rng := takeFor nctl ctx (spend s 262144)
  let q := outTile p.ofmt p.oscaled nctl rng.1 x.rows x.cols 0 r.1
  let s1 := addDiv (countNum rng.2 ctx ⟨0, 0, r.2 + q.2.nan⟩) (R.NCO_EWBUSY (halfOf s core) (dieCore s core)) 0 32 64 (p.aclk (x.rows * x.cols))
  let s2 := stationTook s1 core pEwX st x
  let s3 := match y with | some v => stationTook s2 core pEwY v.1 v.2 | none => s2
  setNc s3 core (pushTile { nc s3 core with rd := { (nc s3 core).rd with
    links := (nc s3 core).rd.links.filter (fun l => !(l.q == st.q && l.idx == st.took pEwX)) } } pEwX q.1)

section
variable (hinv : s.Inv) (hfree : ewFree s core = true) (hpeek : peekTile (nc s core) pEwX = some (st, x))
include hfree hpeek

theorem exec_elementTile_refused {a b : Nat} (hstop : tileStop pEwX x = some (a, b)) :
    exec (.elementTile core) s = .next (consumeFault s core 4 st (st.took pEwX) a b) := by
  show execElementTile core s = _
  simp only [execElementTile, hfree, hpeek, hstop, Bool.not_true, Bool.false_eq_true, if_false]

variable (hok : tileStop pEwX x = none)
include hok

theorem exec_elementTile_empty (hslot : sget none (nc s core).ew.slots (nc s core).ew.run.1 = none) :
    exec (.elementTile core) s = .next (consumeFault s core 4 st (st.took pEwX) 0x10 0x28) := by
  show execElementTile core s = _
  simp only [execElementTile, hfree, hpeek, hok, hslot, Bool.not_true, Bool.false_eq_true, if_false]

variable (hslot : sget none (nc s core).ew.slots (nc s core).ew.run.1 = some p)
include hslot hinv

/-- R140-R143: with its program in force ELEMENT waits, or stops at a y tile that it refuses, or at a pair or a link that the program does not take, or runs. -/
theorem exec_elementTile_programmed : exec (.elementTile core) s = .next (
    if elementWaits (nc s core) p st then s
    else match (yOf (nc s core) p).bind (fun v => (tileStop pEwY v.2).map (fun e => (v.1, e))) with
      | some (sy, a, b) => consumeFault s core 4 sy (sy.took pEwY) a b
      | none =>
        match elementFault (nc s core) p st x ((yOf (nc s core) p).map (·.2)) with
        | some sub => consumeFault s core 4 st (st.took pEwX) 0x10 sub
        | none => elementDone s core p st x (yOf (nc s core) p)) := by
  have hwaits (t : State) : (if elementWaits (nc s core) p st then s else t) =
      if (p.reads 2 && (yOf (nc s core) p).isNone) = true then s
      else if (p.reads 7 && st.to2.isSome && (linkOf (nc s core) st.q (st.took pEwX)).isNone) = true then s
      else if (!hasRoom (nc s core) pEwX || p.eRegs.any (pendingWrites (nc s core))) = true then s
      else t := by
    simp only [elementWaits, Bool.or_eq_true (_ || _), Bool.or_eq_true (_ && _), ite_or]
  have hcores (nctl : NumCtl) (ctx : Nat) (c : Cnt) : nCores (countNum (takeFor nctl ctx (spend s 262144)).2 ctx c) = nCores s := by
    have hspent : (spend s 262144).Inv := { hinv with }
    rw [nCores_countNum (takeFor_inv hspent nctl ctx), nCores_takeFor hspent]
    rfl
  rw [hwaits]
  show execElementTile core s = _
  simp only [execElementTile, hfree, hpeek, hok, hslot, Bool.not_true, Bool.false_eq_true, if_false,
    halfOf_of_nCores (hcores _ _ _), dieCore_of_nCores (hcores _ _ _)]
  unfold yOf
  generalize (if p.reads 2 = true then peekTile (nc s core) pEwY else none) = y
  unfold elementDone
  rcases y with _ | ⟨sy, ty⟩
  · simp only [Option.bind_none] <;> rfl
  · simp only [Option.bind_some] <;> rfl

end
end

theorem elementStation : Sys2Proof.Parts.ElementStation := by
  refine fun s core st x hinv hfree hpeek => ⟨fun a b hstop => exec_elementTile_refused hfree hpeek hstop,
    fun hok hslot => exec_elementTile_empty hfree hpeek hok hslot, fun p hok hslot => ⟨fun hwaits => ?_, fun sy ty a b hgo hy hstop => ?_,
      fun hgo hyok => ⟨fun sub hfault => ?_, fun hgood => ?_⟩⟩⟩
  all_goals rw [exec_elementTile_programmed hinv hfree hpeek hok hslot]
  · rw [if_pos (elementWaits_iff.2 hwaits)]
  all_goals rw [if_neg (mt elementWaits_iff.1 hgo)]
  · rw [show yOf (nc s core) p = some (sy, ty) from hy]
    simp only [Option.bind_some, hstop, Option.map_some]
  all_goals
    have hbind : (yOf (nc s core) p).bind (fun v => (tileStop pEwY v.2).map (fun e => (v.1, e))) = none :=
      Option.bind_eq_none_iff.2 fun v hv => by rw [hyok v hv, Option.map_none]
    rw [hbind]
  · rw [show elementFault (nc s core) p st x ((yOf (nc s core) p).map (·.2)) = some sub from hfault]
  · rw [show elementFault (nc s core) p st x ((yOf (nc s core) p).map (·.2)) = none from hgood]
    rfl

theorem rd_pushTile (n : NCore) (p : Port) (t : Tile) : (pushTile n p t).rd = n.rd := by
  rw [pushTile]
  split <;> rfl

theorem rd_drain (p : Port) (l : List Tile) : ∀ n, (drain n p l).1.rd = n.rd := by
  induction l with
  | nil => exact fun _ => rfl
  | cons t l ih =>
    intro n
    rw [drain]
    split
    · rw [ih, rd_pushTile]
    · rfl

/-- R147: results that leave change no setting of REDUCE. -/
theorem rdNow_drainRd (n : NCore) : rdNow (drainRd n) = rdNow n := by rw [rdNow, drainRd, rd_drain, rdNow]

section
variable {s : State} {core bad : Nat} {c : RdCfg} {st : Stream} {t : Tile}

/-- R150, R152, R153: REDUCE lets a tile wait: a result of an earlier group has not left, four linked results are held, or an open sweep reads a register that the result of the group goes to. -/
def reduceWaits (n : NCore) (c : RdCfg) (t : Tile) : Bool :=
  (!n.rd.out.isEmpty || (c.link && 4 ≤ linkCount n)) || c.ends n.rd t && (List.range 32).any (fun i => c.dests i && sweepReads n i)

theorem reduceWaits_iff {n : NCore} : reduceWaits n c t = true ↔
    n.rd.out ≠ [] ∨ (c.link = true ∧ 4 ≤ linkCount n) ∨ (c.ends n.rd t = true ∧ ∃ i < 32, c.dests i = true ∧ sweepReads n i = true) := by
  simp [reduceWaits, or_assoc]

/-- R147-R154: the tile enters its group; where it ends the group, the result goes out. -/
def reduceDone (s : State) (core bad : Nat) (c : RdCfg) (st : Stream) (t : Tile) : State :=
  let n := nc s core
  let s1 := setNc (addDiv (spend s 8448) (R.NCO_EWBUSY (halfOf s core) (dieCore s core)) 32 32 64 (rduAclk c t)) core
    (rdAdd n c st t (bad.testBit c.acc) s.free)
  let s2 := stationTook (if c.ends n.rd t then rdEmit s1 core c else s1) core pRd st t
  setNc s2 core (drainRd (nc s2 core))

/-- R147-R157: once what can leave has left, REDUCE waits, stops at a tile that it refuses, or takes it. -/
theorem exec_reduceTile (hinv : s.Inv) (hfree : rdFree s core = true) (hset : rdNow (nc s core) = some c)
    (hpeek : peekTile (drainRd (nc s core)) pRd = some (st, t)) :
    exec (.reduceTile ⟨core, bad⟩) s = .next (
      let n := drainRd (nc s core)
      let s0 := setNc s core n
      if reduceWaits n c t then s0
      else match tileStop pRd t with
        | some (a, b) => consumeFault s0 core 5 st (st.took pRd) a b
        | none =>
          match reduceFault n c st t with
          | some sub => consumeFault s0 core 5 st (st.took pRd) 0x10 sub
          | none => reduceDone s0 core bad c st t) := by
  have hdrained : nc (setNc s core (drainRd (nc s core))) core = drainRd (nc s core) := nc_setNc_same hinv _ _
  have hwaits (u v : State) : (if reduceWaits (drainRd (nc s core)) c t then u else v) =
      if (!(drainRd (nc s core)).rd.out.isEmpty || (c.link && 4 ≤ linkCount (drainRd (nc s core)))) = true then u
      else if (c.ends (drainRd (nc s core)).rd t && (List.range 32).any (fun i => c.dests i && sweepReads (drainRd (nc s core)) i)) = true then u
      else v := by
    simp only [reduceWaits, Bool.or_eq_true (_ || _), ite_or]
  dsimp only
  rw [hwaits]
  unfold reduceDone
  show execReduceTile ⟨core, bad⟩ s = _
  simp only [execReduceTile, hfree, hdrained, rdNow_drainRd, hset, hpeek, Bool.not_true, Bool.false_eq_true, if_false] <;>
    rfl

end

theorem reduceStation : Sys2Proof.Parts.ReduceStation := by
  intro s core bad c st t hinv hfree hset hpeek
  have hexec := exec_reduceTile (bad := bad) hinv hfree hset hpeek
  have hdrained : nc (setNc s core (drainRd (nc s core))) core = drainRd (nc s core) := nc_setNc_same hinv _ _
  dsimp only at hexec ⊢
  rw [hexec]
  refine ⟨fun hwaits => ?_, fun a b hgo hstop => ?_, fun sub hgo hok hfault => ?_, fun hgo hok hgood => ?_⟩
  · rw [if_pos (reduceWaits_iff.2 hwaits)]
  all_goals rw [if_neg (mt reduceWaits_iff.1 hgo)]
  · rw [hstop]
  · rw [hok, hfault]
  · rw [hok, hgood]
    simp only [reduceDone, hdrained]
    rfl

/-- Settles O22: each station by why it waits, what it refuses, and what it makes of the tile that it takes. -/
theorem elementAndReduce : Obligations.ElementAndReduce := ⟨elementStation, reduceStation⟩

end Sys2Proof.Machine
end

section
/-! The accumulator of an activation tile, for a station that lists it twice (R113, R124). -/

namespace Sys2Proof.Machine

/-- A FP8 tile of no rows and no columns. -/
def bareTile : Tile := ⟨0, false, false, 0, 0, 0, 0, false, [], [], false⟩

/-- A pass is open, its active block is bare, and accumulator 0 is listed twice: one of one row and no element stands before one that has taken a product. The writes of the model (`setAcc`) keep each key once, but neither `NCore` nor `State.Inv` asks it of the accumulators. -/
def twiceListed : NCore := { ncore0 with
  mx := { matrix0 with bank0 := some bareTile, opened := true },
  acc := [(0, { acc0 with rows := 1 }), (0, { acc0 with els := [(0, { accEl0 with n := 1 })] })] }

/-- A bare activation tile clears the first entry, which then leaves the list, and the second is read in its place. -/
theorem els_activate_twiceListed : (accOf (activate twiceListed (mxCfg 0 false) bareTile) 0).els = [(0, { accEl0 with n := 1 })] := by decide

/-- The first entry has no element, and a bare tile gives it none. -/
theorem multiply_twiceListed : multiply (accOf (mxOpen twiceListed (mxCfg 0 false)) 0) (flush32 bareTile).1 bareTile = [] := by decide

/-- Refutes O21: its clause that an activation tile's accumulator holds the products of rows and columns is stated of every `NCore`, with no hypothesis that its accumulators are listed once each. In `twiceListed` the tile makes the first entry of accumulator 0 a cleared one, which leaves the list, so that the accumulator then reads as its second entry. -/
theorem not_matrixAndTrestle : ¬ Obligations.MatrixAndTrestle := by
  rintro ⟨⟨_, _, hactivate, _⟩, _⟩
  have hels : (accOf (activate twiceListed (mxCfg 0 false) bareTile) 0).els =
      multiply (accOf (mxOpen twiceListed (mxCfg 0 false)) 0) (flush32 bareTile).1 bareTile :=
    hactivate twiceListed (mxCfg 0 false) bareTile bareTile rfl
  rw [els_activate_twiceListed, multiply_twiceListed] at hels
  cases hels

end Sys2Proof.Machine
end

section
/-! SUPPORT. Instructions of one thread that retire: what their effect must be (R54, R57, R58, R61, R64). -/

namespace Sys2Proof.Machine

@[simp] theorem setF_pc (t : Thread) (i : Nat) (v : Word) : (setF t i v).pc = t.pc := rfl
@[simp] theorem setC_pc (t : Thread) (i : Nat) (v : Half) : (setC t i v).pc = t.pc := rfl
@[simp] theorem setSd_pc (t : Thread) (i : Nat) (d : Desc) : (setSd t i d).pc = t.pc := rfl
@[simp] theorem setNstat_pc (t : Thread) (cls : Nat) (c : Cnt) : (setNstat t cls c).pc = t.pc := by rw [setNstat]

/-- R54, R57: an instruction whose effect is on its thread alone, and leaves the pc, retires with that effect. -/
theorem retires_of_insn {c : Tid → Opnds → Instr} {cls : Nat} {r : Option RShape} {i : Option IShape} {g : Bool → Opnds → Thread → Thread}
    (f : Bool → Opnds → Thread → Thread) (hexec : ∀ t o s, exec (c t o) s = insn s t o cls r i (fun k => onTh (f (isS k) o) k))
    (hpc : ∀ b o n, (f b o n).pc = n.pc) (hfg : ∀ b o n, f b o n = g b o n) : Retires c cls r i g := by
  intro s t o h hiss
  rw [hexec, insn_of_issues hiss, finish_onTh h, hpc, ran, hfg]

end Sys2Proof.Machine
end

section
/-! Integer arithmetic, shifts, moves and division (R62, R64, R66). -/

namespace Sys2Proof.Machine

/-- R64: an operation of xA and a second operand, in both formats, retires with its result in xD. -/
theorem retires_intOp {c : Tid → Opnds → Instr} {i : Option IShape} {v : Opnds → Thread → Word} (imm : Opnds → Word) (f : Word → Word → Word)
    (hexec : ∀ t o s, exec (c t o) s = intOp t o i (imm o) f s) (hval : ∀ o n, f (xr n o.a.toNat) (opB n o (imm o)) = v o n) :
    Retires c 0x01 xxx i (fun _ o n => setX n o.d.toNat (v o n)) :=
  retires_of_insn (fun _ o n => setX n o.d.toNat (f (xr n o.a.toNat) (opB n o (imm o)))) hexec (fun _ _ _ => setX_pc ..)
    fun _ o n => by rw [hval]

/-- R57: a word that fits an operation without an I form is in R form. -/
theorem iform_of_shapeOk {r : Option RShape} {o : Opnds} (h : shapeOk r none o = true) : o.iform = false := by
  cases hform : o.iform with
  | false => rfl
  | true => simp [shapeOk, hform] at h

/-- R64: an operation of xA and xB, in R form only, retires with its result in xD. -/
theorem retires_intOpR {c : Tid → Opnds → Instr} {v : Opnds → Thread → Word} (f : Word → Word → Word)
    (hexec : ∀ t o s, exec (c t o) s = intOp t o none 0 f s) (hval : ∀ o n, f (xr n o.a.toNat) (xr n o.b.toNat) = v o n) :
    Retires c 0x01 xxx none (fun _ o n => setX n o.d.toNat (v o n)) := by
  intro s t o h hiss
  have hform := iform_of_shapeOk hiss.2.2.1
  rw [retires_intOp (fun _ => 0) f hexec (fun _ _ => rfl) s t o h hiss]
  simp only [opB, hform, Bool.false_eq_true, if_false, hval]

theorem ite_slt (a b x y : Word) : (if a.slt b then x else y) = if a.toInt < b.toInt then x else y := by
  simp only [BitVec.slt_iff_toInt_lt]
theorem ite_ult (a b x y : Word) : (if a.ult b then x else y) = if a.toNat < b.toNat then x else y := by
  simp only [BitVec.ult, decide_eq_true_eq]

theorem integerResults : Sys2Proof.Parts.IntegerResults :=
  ⟨retires_intOp (fun o => sx32 o.imm) (fun a b => a + b) (fun _ _ _ => rfl) fun _ _ => rfl,
    retires_intOp (fun o => sx32 o.imm) (fun a b => a - b) (fun _ _ _ => rfl) fun _ _ => rfl,
    retires_intOp (fun o => sx32 o.imm) (fun a b => a * b) (fun _ _ _ => rfl) fun _ _ => rfl,
    retires_intOp (fun o => zx32 o.imm) (fun a b => a &&& b) (fun _ _ _ => rfl) fun _ _ => rfl,
    retires_intOp (fun o => zx32 o.imm) (fun a b => a ||| b) (fun _ _ _ => rfl) fun _ _ => rfl,
    retires_intOp (fun o => zx32 o.imm) (fun a b => a ^^^ b) (fun _ _ _ => rfl) fun _ _ => rfl,
    retires_intOp (fun o => sx32 o.imm) (fun a b => if a.slt b then a else b) (fun _ _ _ => rfl) fun _ _ => ite_slt ..,
    retires_intOp (fun o => sx32 o.imm) (fun a b => if a.slt b then b else a) (fun _ _ _ => rfl) fun _ _ => ite_slt ..,
    retires_intOp (fun o => zx32 o.imm) (fun a b => if a.ult b then a else b) (fun _ _ _ => rfl) fun _ _ => ite_ult ..,
    retires_intOp (fun o => zx32 o.imm) (fun a b => if a.ult b then b else a) (fun _ _ _ => rfl) fun _ _ => ite_ult ..⟩

/-- R64: the high half of an unsigned product is that of the product at twice the width. -/
theorem mulHU_eq (a b : Word) : mulHU a b = ((a.zeroExtend 128 * b.zeroExtend 128) >>> 64).truncate 64 := by
  have hlt : a.toNat * b.toNat < 2 ^ 128 := calc
    a.toNat * b.toNat < 2 ^ 64 * 2 ^ 64 := Nat.mul_lt_mul'' a.isLt b.isLt
    _ = 2 ^ 128 := by norm_num
  have hext (w : Word) : (w.zeroExtend 128).toNat = w.toNat := BitVec.toNat_setWidth_of_le (by omega)
  refine BitVec.eq_of_toNat_eq ?_
  simp only [mulHU, BitVec.truncate_eq_setWidth, BitVec.toNat_ofNat, BitVec.toNat_setWidth 64, BitVec.toNat_ushiftRight, BitVec.toNat_mul, hext,
    Nat.mod_eq_of_lt hlt, Nat.shiftRight_eq_div_pow]

/-- R64: the high half of a signed product is that of the product at twice the width. -/
theorem mulHS_eq (a b : Word) : mulHS a b = ((a.signExtend 128 * b.signExtend 128) >>> 64).truncate 64 := by
  have hprod : (a.signExtend 128 * b.signExtend 128).toNat = (a.toInt * b.toInt % 2 ^ 128).toNat := by
    rw [← BitVec.ofInt_toInt (x := a.signExtend 128 * b.signExtend 128), BitVec.toNat_ofInt, BitVec.toInt_mul,
      BitVec.toInt_signExtend_of_le (by omega), BitVec.toInt_signExtend_of_le (by omega)]
    exact congrArg Int.toNat (Int.bmod_emod (m := 2 ^ 128))
  refine BitVec.eq_of_toNat_eq ?_
  simp only [mulHS, BitVec.toNat_ofInt, BitVec.truncate_eq_setWidth, BitVec.toNat_setWidth, BitVec.toNat_ushiftRight, hprod,
    Nat.shiftRight_eq_div_pow]
  omega

/-- R64: a word with its high half replaced. -/
theorem putf_high (w : Word) (v : Half) : putf w 32 32 v.toNat = v ++ w.truncate 32 := by
  refine BitVec.eq_of_getLsbD_eq fun i hi => ?_
  rw [getLsbD_putf w 32 32 _ i (by omega), BitVec.getLsbD_append]
  by_cases hlow : i < 32
  · simp [hlow, show ¬ 32 ≤ i by omega]
  · simp [hlow, show 32 ≤ i by omega, hi, BitVec.testBit_toNat]

theorem shiftMoveAndHighProduct : Sys2Proof.Parts.ShiftMoveAndHighProduct :=
  ⟨retires_intOp (fun o => zx32 o.imm) (fun a b => a <<< shAmt b) (fun _ _ _ => rfl) fun _ _ => rfl,
    retires_intOp (fun o => zx32 o.imm) (fun a b => a >>> shAmt b) (fun _ _ _ => rfl) fun _ _ => rfl,
    retires_intOp (fun o => zx32 o.imm) (fun a b => a.sshiftRight (shAmt b)) (fun _ _ _ => rfl) fun _ _ => rfl,
    retires_intOpR mulHS (fun _ _ _ => rfl) fun _ _ => mulHS_eq ..,
    retires_intOpR mulHU (fun _ _ _ => rfl) fun _ _ => mulHU_eq ..,
    retires_of_insn (fun _ o n => setX n o.d.toNat (if o.iform then sx32 o.imm else xr n o.a.toNat)) (fun _ _ _ => rfl)
      (fun _ _ _ => setX_pc ..) fun _ _ _ => rfl,
    retires_of_insn (fun _ o n => setX n o.d.toNat (putf (xr n o.d.toNat) 32 32 o.imm.toNat)) (fun _ _ _ => rfl)
      (fun _ _ _ => setX_pc ..) fun _ _ _ => by rw [putf_high]⟩

/-- R66: the signed quotient, -2^63 by -1 included. -/
theorem divS_eq (a b : Word) : divS a b = if b = 0 then BitVec.allOnes 64 else a.sdiv b := by
  have hquot : BitVec.ofInt 64 (a.toInt.tdiv b.toInt) = a.sdiv b := BitVec.eq_of_toInt_eq (by rw [BitVec.toInt_ofInt, BitVec.toInt_sdiv])
  rw [divS, hquot]

theorem remS_eq (a b : Word) : remS a b = if b = 0 then a else a.srem b := by
  rw [remS, ← BitVec.toInt_srem, BitVec.ofInt_toInt]

theorem divisionNeverFaults : Sys2Proof.Parts.DivisionNeverFaults :=
  ⟨retires_intOpR divS (fun _ _ _ => rfl) fun _ _ => divS_eq .., retires_intOpR divU (fun _ _ _ => rfl) fun _ _ => rfl,
    retires_intOpR remS (fun _ _ _ => rfl) fun _ _ => remS_eq .., retires_intOpR remU (fun _ _ _ => rfl) fun _ _ => rfl, by decide, by decide,
    fun n i v => by rw [setX, apply_ite Thread.nstat, ite_self], fun _ _ _ _ => rfl⟩

/-- Settles O7: each instruction's effect is on its thread alone (`retires_of_insn`); the products and quotients agree with those of words. -/
theorem integerOperations : Obligations.IntegerOperations := ⟨integerResults, shiftMoveAndHighProduct, divisionNeverFaults⟩

end Sys2Proof.Machine
end

section
/-! Integer compares, predicate operations and moves of special registers (R59, R60, R64, R73). -/

namespace Sys2Proof.Machine

/-- R60, R64: an integer compare fills the destination predicate with its result. -/
theorem retires_intCmp {c : Tid → Opnds → Instr} (sg : Bool) (rel : Word → Word → Bool)
    (hexec : ∀ t o s, exec (c t o) s = intCmp t o (if sg then sx32 o.imm else zx32 o.imm) rel s) :
    Retires c 0x01 (some ⟨16, 64, 64, 0, 0⟩) (some ⟨16, 64, 0xFFFFFFFF⟩)
      (fun b o n => setP b n o.d.toNat (if rel (xr n o.a.toNat) (if sg then bS o n else bZ o n) then BitVec.allOnes 512 else 0)) :=
  retires_of_insn (fun b o n => setP b n o.d.toNat (allP (rel (xr n o.a.toNat) (opB n o (if sg then sx32 o.imm else zx32 o.imm))))) hexec
    (fun _ _ _ => setP_pc ..) fun _ _ _ => by cases sg <;> rfl

theorem execCmpne_eq (t : Tid) (o : Opnds) (s : State) : execCmpne t o s = intCmp t o (sx32 o.imm) (fun a b => decide (a ≠ b)) s := by
  simp only [execCmpne, bne, decide_not]
  rfl

theorem integerCompares : Sys2Proof.Parts.IntegerCompares := by
  intro c sg rel h
  refine retires_intCmp sg rel fun t o s => ?_
  rcases h with h | h | h | h | h | h <;> cases h
  · rfl
  · exact execCmpne_eq t o s
  · rfl
  · rfl
  · rfl
  · rfl

/-- R64: a predicate operation. -/
theorem retires_predOp {c : Tid → Opnds → Instr} {r : RShape} (f : BitVec 512 → BitVec 512 → BitVec 512)
    (hexec : ∀ t o s, exec (c t o) s = predOp t o r f s) :
    Retires c 0x01 (some r) none (fun b o n => setP b n o.d.toNat (f (pr n o.a.toNat) (pr n o.b.toNat))) :=
  retires_of_insn (fun b o n => setP b n o.d.toNat (f (pr n o.a.toNat) (pr n o.b.toNat))) hexec (fun _ _ _ => setP_pc ..) fun _ _ _ => rfl

/-- R70: a word without effect retires. -/
theorem retires_nop : Retires .nop 0x02 none (some ⟨0, 0, 0⟩) (fun _ _ n => n) := by
  intro s t o _ hiss
  show execNop t o s = _
  rw [execNop, insn_of_issues hiss]
  rfl

/-- R64: a read of the thread's own state into xD. -/
theorem retires_readX {c : Tid → Opnds → Instr} {r : Option RShape} {i : Option IShape} (f : Opnds → Thread → Word)
    (hexec : ∀ t o s, exec (c t o) s = readX t o r i (fun k s => f o (th s k)) s) : Retires c 0x01 r i (fun _ o n => setX n o.d.toNat (f o n)) :=
  retires_of_insn (fun _ o n => setX n o.d.toNat (f o n)) hexec (fun _ _ _ => setX_pc ..) fun _ _ _ => rfl

/-- R64: PSET's bit is the lowest of IMM32. -/
theorem allP_lowest (i : Half) : allP (i.getLsbD 0) = if i.toNat % 2 = 1 then BitVec.allOnes 512 else 0 := by
  simp [allP, BitVec.getLsbD, Nat.testBit_zero]

theorem predicateAndMoveResults : Sys2Proof.Parts.PredicateAndMoveResults :=
  ⟨retires_predOp (fun a b => a &&& b) fun _ _ _ => rfl, retires_predOp (fun a b => a ||| b) fun _ _ _ => rfl,
    retires_predOp (fun a b => a ^^^ b) fun _ _ _ => rfl, retires_predOp (fun a _ => ~~~a) fun _ _ _ => rfl,
    retires_of_insn (fun b o n => setP b n o.d.toNat (allP (o.imm.getLsbD 0))) (fun _ _ _ => rfl) (fun _ _ _ => setP_pc ..)
      fun _ _ _ => by rw [allP_lowest],
    retires_of_insn (fun _ o n => setF n o.d.toNat (xr n o.a.toNat)) (fun _ _ _ => rfl) (fun _ _ _ => setF_pc ..) fun _ _ _ => rfl,
    retires_readX (fun o n => fr n o.a.toNat) fun _ _ _ => rfl,
    retires_of_insn (fun _ _ n => { n with nstat := 0 }) (fun _ _ _ => rfl) (fun _ _ _ => rfl) fun _ _ _ => rfl,
    retires_readX (fun _ n => n.nstat) fun _ _ _ => rfl,
    retires_of_insn (fun _ o n => setC n o.d.toNat o.imm) (fun _ _ _ => rfl) (fun _ _ _ => setC_pc ..) fun _ _ _ => rfl,
    retires_nop,
    retires_of_insn (fun _ o n => setSd n o.d.toNat ((sdr n o.d.toNat).addBase (xr n o.a.toNat))) (fun _ _ _ => rfl)
      (fun _ _ _ => setSd_pc ..) fun _ _ _ => rfl⟩

/-- Settles O8: compares and predicate operations fill their predicate, and the moves write one register; every one by `retires_of_insn`. -/
theorem comparesAndPredicates : Obligations.ComparesAndPredicates := ⟨integerCompares, predicateAndMoveResults⟩

end Sys2Proof.Machine
end

section
/-! Binary64 operations, compares and conversion (R60, R62, R64, R67, R80, R81). -/

namespace Sys2Proof.Machine

section
variable (s : State) (k : Nat) (n : Thread)
/-! R81: counting moves registers alone, so that it commutes with a thread's change. -/
theorem setTh_numAdd (a x : Nat) : setTh (numAdd s a x) k n = numAdd (setTh s k n) a x := by
  unfold numAdd
  split <;> rfl
theorem th_numAdd (a x : Nat) : th (numAdd s a x) k = th s k := by
  unfold numAdd
  split <;> rfl
theorem setTh_countNum (ctx : Nat) (c : Cnt) : setTh (countNum s ctx c) k n = countNum (setTh s k n) ctx c := by
  simp only [countNum, setTh_numAdd]
@[simp] theorem th_countNum (ctx : Nat) (c : Cnt) : th (countNum s ctx c) k = th s k := by
  simp only [countNum, th_numAdd]
theorem retire_countNum (ctx : Nat) (c : Cnt) : retire (countNum s ctx c) k = countNum (retire s k) ctx c := by
  rw [retire, th_countNum, setTh_countNum, retire]
end

@[simp] theorem setX_ctx (t : Thread) (i : Nat) (v : Word) : (setX t i v).ctx = t.ctx := by
  unfold setX
  split <;> rfl

/-- R80, R81: a thread is put with its counts and its word retires. -/
theorem finish_putCounted {s : State} (h : s.Inv) (k cls : Nat) (n : Thread) (x : Nat) (c : Cnt) :
    finish k cls (.done (putCounted s k n x c)) = countNum (setTh s k { setNstat n x c with pc := n.pc + 8 }) n.ctx c := by
  rw [finish, putCounted, retire_countNum, retire_setTh h, setNstat_pc]

/-- R64, R67, R80: a binary64 operation retires with its value in fD, and with the NaN it made counted. -/
theorem fpRetires_of_fpOp {c : Tid → Opnds → Instr} {r : RShape} {i : Option IShape} {v : Opnds → Thread → Fp × List Fp}
    (hexec : ∀ t o s, exec (c t o) s = fpOp t o r i (v o) s) : FpRetires c (some r) i v := by
  intro s t o h hiss
  rw [hexec, fpOp, insn_of_issues hiss, finish_putCounted h, setF_pc]
  rfl

/-- R62, R64: one of fA and a second operand, a register or an immediate. -/
theorem fpRetires_fpOp2 {c : Tid → Opnds → Instr} (f : Fp → Fp → Fp) (hexec : ∀ t o s, exec (c t o) s = fpOp2 t o f s) :
    FpRetires c fff (some ⟨32, 32, 0xFFFFFFFF⟩) (fun o n => (f (fA o n) (fB o n), [fA o n, fB o n])) := fpRetires_of_fpOp hexec

theorem floatResults : Sys2Proof.Parts.FloatResults :=
  ⟨fpRetires_fpOp2 fAdd fun _ _ _ => rfl, fpRetires_fpOp2 (fun a b => fAdd a b.neg) fun _ _ _ => rfl, fpRetires_fpOp2 fMul fun _ _ _ => rfl,
    fpRetires_fpOp2 fDiv fun _ _ _ => rfl, fpRetires_of_fpOp fun _ _ _ => rfl, fpRetires_of_fpOp fun _ _ _ => rfl, fpRetires_of_fpOp fun _ _ _ => rfl,
    fpRetires_of_fpOp fun _ _ _ => rfl, fpRetires_of_fpOp fun _ _ _ => rfl⟩

/-- R81: no counts change no counter. -/
theorem countNum_zero (s : State) (ctx : Nat) : countNum s ctx ⟨0, 0, 0⟩ = s := rfl

/-- R60, R64: a binary64 compare fills the destination predicate with its result. -/
theorem retires_fpCmp {c : Tid → Opnds → Instr} {rel : Fp → Fp → Bool} (hexec : ∀ t o s, exec (c t o) s = fpCmp t o rel s) :
    Retires c 0x01 (some ⟨16, 32, 32, 0, 0⟩) none (fun b o n =>
      setNstat (setP b n o.d.toNat (if rel (f64 (fr n o.a.toNat)) (f64 (fr n o.b.toNat)) then BitVec.allOnes 512 else 0)) 0x01 ⟨0, 0, 0⟩) := by
  intro s t o h hiss
  rw [hexec, fpCmp, insn_of_issues hiss, finish_putCounted h, setP_pc, cnt0, countNum_zero]
  rfl

theorem floatComparesAndConversion : Sys2Proof.Parts.FloatComparesAndConversion := by
  refine ⟨?_, fun s t o h hiss => ?_⟩
  · intro c rel h
    refine retires_fpCmp fun t o s => ?_
    rcases h with h | h | h <;> cases h <;> rfl
  · show execFcvti t o s = _
    rw [execFcvti, insn_of_issues hiss, finish_putCounted h, setX_pc, setX_ctx]
    rfl

/-- Settles O9: every value reaches its register with its counts by `finish_putCounted`. -/
theorem floatOperations : Obligations.FloatOperations := ⟨floatResults, floatComparesAndConversion⟩

end Sys2Proof.Machine
end

section
/-! SUPPORT. What a read of clean lines gives, and what reads and translations leave alone (R216, R230, R247, R325). -/

namespace Sys2Proof.Machine

theorem translate_inv {s : State} (h : s.Inv) (ctx va : Nat) (k : AccKind) : (translate s ctx va k).1.Inv := (translate_kept s ctx va k (inv_kept h)).2
theorem physRead_inv {s : State} (h : s.Inv) (src : Src) (a n : Nat) : (physRead s src a n).1.Inv := (physRead_kept s src a n (inv_kept h)).2
theorem physWrite_inv {s : State} (h : s.Inv) (src : Src) (a : Nat) (bs : List Byte) : (physWrite s src a bs).Inv :=
  (physWrite_kept s src a bs (inv_kept h)).2
theorem moveMsg_inv {s : State} (h : s.Inv) (src : Src) (home bytes : Nat) (write : Bool) : (moveMsg s src home bytes write).Inv :=
  (moveMsg_kept s src home bytes write (inv_kept h)).2
theorem regLoad_inv {s : State} (h : s.Inv) (a : Nat) : (regLoad s a).1.Inv := (regLoad_kept s a (inv_kept h)).2

section
variable (s : State) (ctx va : Nat) (k : AccKind)
@[simp] theorem translate_mem : (translate s ctx va k).1.mem = s.mem := translate_reads State.mem (fun _ _ => rfl) (fun _ _ => rfl) s ctx va k
@[simp] theorem translate_undef : (translate s ctx va k).1.undef = s.undef := translate_reads State.undef (fun _ _ => rfl) (fun _ _ => rfl) s ctx va k
@[simp] theorem translate_poison : (translate s ctx va k).1.poison = s.poison :=
  translate_reads State.poison (fun _ _ => rfl) (fun _ _ => rfl) s ctx va k
@[simp] theorem translate_symErr : (translate s ctx va k).1.symErr = s.symErr :=
  translate_reads State.symErr (fun _ _ => rfl) (fun _ _ => rfl) s ctx va k
@[simp] theorem translate_tx : (translate s ctx va k).1.tx = s.tx := translate_reads State.tx (fun _ _ => rfl) (fun _ _ => rfl) s ctx va k
@[simp] theorem translate_reqs : (translate s ctx va k).1.reqs = s.reqs := translate_reads State.reqs (fun _ _ => rfl) (fun _ _ => rfl) s ctx va k
end

section
variable {α : Type} (p : State → α) (hp : ∀ (s : State) a r l f, p { s with arch := a, rgl := r, scLines := l, free := f } = p s)
include hp

theorem moveLines_reads (s : State) (src : Src) (a n : Nat) (write : Bool) : p (moveLines s src a n write) = p s := by
  rw [moveLines_eq]
  exact hp s _ _ s.scLines s.free

theorem scRead_reads (s : State) (src : Src) (line : Nat) : p (scRead s src line) = p s := by
  have hfree : p (drawBits 1 s).2 = p s := hp s s.arch s.rgl s.scLines (s.free + 1)
  unfold scRead
  dsimp only
  split_ifs
  · exact hfree
  · exact (moveLines_reads p hp ..).trans hfree
  · exact (moveLines_reads p hp ..).trans (hp s s.arch s.rgl _ s.free)

/-- R230, R247: what reads neither the transfers that wait nor the caches nor the count of free values is the same after a read's lines have moved. -/
theorem didRead_reads (s : State) (src : Src) (a n : Nat) : p (didRead s src a n) = p s := by
  unfold didRead
  split
  · generalize linesOf a n = ls
    induction ls generalizing s with
    | nil => rfl
    | cons l ls ih => exact (ih _).trans (scRead_reads p hp s src l)
  · exact moveLines_reads p hp ..

end

/-- R216: lines with no bad symbol are read as they stand. -/
theorem physGet_of_clean {s : State} {a n : Nat} (hclean : ∀ l ∈ linesOf a n, sget 0 s.symErr l = 0) :
    physGet s a n = (s, memGet s a n, (linesOf a n).any (fun l => s.poison.contains l)) := by
  have hread : (linesOf a n).foldl readLine s = s := by
    generalize linesOf a n = ls at hclean
    induction ls with
    | nil => rfl
    | cons l ls ih =>
      rw [List.foldl_cons, readLine_of_clean (hclean l List.mem_cons_self), ih fun x hx => hclean x (List.mem_cons_of_mem _ hx)]
  simp only [physGet, hread]

theorem physRead_of_clean {s : State} {a n : Nat} (src : Src) (hclean : ∀ l ∈ linesOf a n, sget 0 s.symErr l = 0) :
    physRead s src a n = (didRead s src a n, memGet s a n, (linesOf a n).any (fun l => s.poison.contains l)) := by
  rw [physRead, physGet_of_clean hclean]

theorem any_poison_iff (s : State) (ls : List Nat) : ls.any (fun l => s.poison.contains l) = true ↔ ∃ l ∈ ls, l ∈ s.poison := by
  simp only [List.any_eq_true, List.contains_iff_mem]

theorem memGet_of_mem {s t : State} (hmem : t.mem = s.mem) (hundef : t.undef = s.undef) (a n : Nat) : memGet t a n = memGet s a n := by
  simp only [memGet, memByte_of_mem hmem hundef]

/-- R25, R329: a register's load changes registers, but for what it answers. -/
theorem regLoad_threads (s : State) (a : Nat) : (regLoad s a).1.threads = s.threads := by
  unfold regLoad mramRead
  dsimp only
  split_ifs <;> rfl

@[simp] theorem moveMsg_threads (s : State) (src : Src) (home bytes : Nat) (write : Bool) : (moveMsg s src home bytes write).threads = s.threads := by
  rw [moveMsg_eq_arch]

/-- R440: the bytes of a number. -/
@[simp] theorem length_leBytes (n v : Nat) : (leBytes n v).length = n := by
  induction n generalizing v with
  | zero => rfl
  | succ n ih => simp [leBytes, ih]

theorem getElem_leBytes (n v i : Nat) (hi : i < (leBytes n v).length) : (leBytes n v)[i] = BitVec.ofNat 8 (v / 2 ^ (8 * i)) := by
  induction n generalizing v i with
  | zero => simp [leBytes] at hi
  | succ n ih =>
    cases i with
    | zero => simp [leBytes]
    | succ i =>
      simp only [leBytes, List.getElem_cons_succ]
      rw [ih, Nat.div_div_eq_div_mul, show 256 = 2 ^ 8 by norm_num, ← Nat.pow_add]
      congr 3
      omega

theorem getElem_leBytes_word (n : Nat) (w : Word) (i : Nat) (hi : i < (leBytes n w.toNat).length) :
    (leBytes n w.toNat)[i] = (w >>> (8 * i)).truncate 8 := by
  rw [getElem_leBytes]
  refine BitVec.eq_of_toNat_eq ?_
  simp [Nat.shiftRight_eq_div_pow]

end Sys2Proof.Machine
end

section
/-! Scalar loads and stores (R25, R54, R64, R68, R84, R85, R290, R385). -/

namespace Sys2Proof.Machine

/-- R64, R68: the access that a scalar load makes. -/
def loadAt (s : State) (k n : Nat) (o : Opnds) : State × MemRes Word :=
  scalarAt s (th s k).ctx (scalarVa s k o) n .read (fun u a => ctxRegLoad u k a n) (memLoad (srcTh s k) n)

/-- R64, R68: the access that a scalar store of `v` makes. -/
def storeAt (s : State) (k n : Nat) (o : Opnds) (v : Word) : State × MemRes Word :=
  scalarAt s (th s k).ctx (scalarVa s k o) n .write (fun u a => let r := ctxRegStore u k a n v; (r.1, r.2.map (fun _ => 0)))
    (fun u pa => (physWrite u (srcTh s k) pa (leBytes n v.toNat), .ok 0))

/-- R68, R84: what a scalar load does once it issues. -/
def loadEffect (o : Opnds) (n : Nat) (put : Thread → Nat → Word → Thread) (k : Nat) (s : State) : Res :=
  match loadAt s k n o with
  | (u, .ok v) => .done (setTh u k (put (th u k) o.d.toNat v))
  | (u, .err e) => accTrap u e
  | (_, .wait) => .stay s

/-- R68, R84: what a scalar store does once it issues. -/
def storeEffect (o : Opnds) (n : Nat) (get : Thread → Nat → Word) (k : Nat) (s : State) : Res :=
  match storeAt s k n o (get (th s k) o.d.toNat) with
  | (u, .ok _) => .done u
  | (u, .err e) => accTrap u e
  | (_, .wait) => .stay s

section
variable {s s1 : State} {t : Tid} {o : Opnds} {n file : Nat} {put : Thread → Nat → Word → Thread} {get : Thread → Nat → Word}

theorem scalarLoad_eq : scalarLoad t o n file put s = insn s t o 0x01 none (memForm file) (loadEffect o n put) := rfl
theorem scalarStore_eq : scalarStore t o n file get s = insn s t o 0x01 none (memForm file) (storeEffect o n get) := rfl

variable (hiss : Issues s t o 0x01 none (memForm file))
include hiss

theorem scalarLoad_ok {v : Word} (hat : loadAt s (tkey t) n o = (s1, .ok v)) :
    scalarLoad t o n file put s = .next (retire (setTh s1 (tkey t) (put (th s1 (tkey t)) o.d.toNat v)) (tkey t)) := by
  rw [scalarLoad_eq, insn_of_issues hiss, loadEffect, hat, finish]

theorem scalarLoad_err {e : AccErr} (hat : loadAt s (tkey t) n o = (s1, .err e)) :
    scalarLoad t o n file put s = .next (insnFault s1 (tkey t) 0x01 (accCode e).1 (accCode e).2 0) := by
  rw [scalarLoad_eq, insn_of_issues hiss, loadEffect, hat]
  rfl

theorem scalarLoad_wait (hat : loadAt s (tkey t) n o = (s1, .wait)) : scalarLoad t o n file put s = .next s := by
  rw [scalarLoad_eq, insn_of_issues hiss, loadEffect, hat, finish]

theorem scalarStore_ok {v : Word} (hat : storeAt s (tkey t) n o (get (th s (tkey t)) o.d.toNat) = (s1, .ok v)) :
    scalarStore t o n file get s = .next (retire s1 (tkey t)) := by
  rw [scalarStore_eq, insn_of_issues hiss, storeEffect, hat, finish]

theorem scalarStore_err {e : AccErr} (hat : storeAt s (tkey t) n o (get (th s (tkey t)) o.d.toNat) = (s1, .err e)) :
    scalarStore t o n file get s = .next (insnFault s1 (tkey t) 0x01 (accCode e).1 (accCode e).2 0) := by
  rw [scalarStore_eq, insn_of_issues hiss, storeEffect, hat]
  rfl

theorem scalarStore_wait (hat : storeAt s (tkey t) n o (get (th s (tkey t)) o.d.toNat) = (s1, .wait)) :
    scalarStore t o n file get s = .next s := by
  rw [scalarStore_eq, insn_of_issues hiss, storeEffect, hat, finish]

end

section
variable {s s1 : State} {ctx va n pa : Nat} {k : AccKind} {reg mem : State → Nat → State × MemRes Word}

theorem scalarAt_err {e : AccErr} (htr : translate s ctx va k = (s1, .err e)) :
    scalarAt s ctx va n k reg mem = (s1, .err (if va % n = 0 then e else .align)) := by
  rw [scalarAt, htr]

theorem scalarAt_wait (htr : translate s ctx va k = (s1, .wait)) : scalarAt s ctx va n k reg mem = (s1, .wait) := by
  rw [scalarAt, htr]

variable (htr : translate s ctx va k = (s1, .ok pa))
include htr

theorem scalarAt_reg (hreg : region pa = .reg) : scalarAt s ctx va n k reg mem = reg s1 pa := by
  simp only [scalarAt, htr, hreg, if_true]

variable (hmem : region pa ≠ .reg)
include hmem

theorem scalarAt_misaligned (hmis : va % n ≠ 0) : scalarAt s ctx va n k reg mem = (s1, .err .align) := by
  simp only [scalarAt, htr, hmem, hmis, if_false, ne_eq, not_false_eq_true, if_true]

variable (hal : va % n = 0)
include hal

theorem scalarAt_denied {e : AccErr} (herr : physErr s1 (.ctx ctx) pa n (k == .write) = some e) :
    scalarAt s ctx va n k reg mem = (s1, .err e) := by
  simp only [scalarAt, htr, hmem, hal, herr, if_false, ne_eq, not_true_eq_false]

variable (hok : physErr s1 (.ctx ctx) pa n (k == .write) = none)
include hok

theorem scalarAt_held (hwait : (linesOf pa n).any (lineWaits s1) = true) : scalarAt s ctx va n k reg mem = (s1, .wait) := by
  simp only [scalarAt, htr, hmem, hal, hok, hwait, if_false, if_true, ne_eq, not_true_eq_false]

theorem scalarAt_mem (hfree : (linesOf pa n).any (lineWaits s1) = false) : scalarAt s ctx va n k reg mem = mem s1 pa := by
  simp only [scalarAt, htr, hmem, hal, hok, hfree, if_false, ne_eq, not_true_eq_false, Bool.false_eq_true]

end

/-- R25: a register access that `regBad` refuses errs alike as a load and as a store. -/
theorem ctxReg_bad {s : State} {k a n : Nat} {e : AccErr} (hbad : regBad s a n = some e) (v : Word) :
    ctxRegLoad s k a n = (s, .err e) ∧ ctxRegStore s k a n v = (s, .err e) := by
  simp only [ctxRegLoad, ctxRegStore, hbad, and_self]

theorem regBad_of_shape {s : State} {a n : Nat} (h : n ≠ 8 ∨ a % 8 ≠ 0) : regBad s a n = some .reg := if_pos h

theorem regBad_of_absent {s : State} {a : Nat} (ha : a % 8 = 0) (hno : regBlockExists (nCores s) a = false) : regBad s a 8 = some .addr := by
  simp [regBad, ha, hno]

/-- R25, R54, R68, R84, R85: an instruction's access of `n` bytes at `va` faults with its error, and stays at its pc where it waits. -/
def FaultsAtAccess (s s1 : State) (k n va : Nat) (kind : AccKind) (out : Out) : Prop :=
  let tr := translate s (th s k).ctx va kind
  (∀ e, tr = (s1, .err e) → va % n = 0 → out = .next (insnFault s1 k 0x01 (accCode e).1 (accCode e).2 0)) ∧
  (∀ e, tr = (s1, .err e) → va % n ≠ 0 → out = .next (insnFault s1 k 0x01 0x10 0x15 0)) ∧
  (∀ pa, tr = (s1, .ok pa) → region pa ≠ .reg → va % n ≠ 0 → out = .next (insnFault s1 k 0x01 0x10 0x15 0)) ∧
  (∀ pa e, tr = (s1, .ok pa) → region pa ≠ .reg → va % n = 0 → physErr s1 (.ctx (th s k).ctx) pa n (kind == .write) = some e →
    out = .next (insnFault s1 k 0x01 (accCode e).1 (accCode e).2 0)) ∧
  (∀ pa, tr = (s1, .ok pa) → region pa = .reg → n ≠ 8 ∨ pa % 8 ≠ 0 → out = .next (insnFault s1 k 0x01 0x10 0x19 0)) ∧
  (∀ pa, tr = (s1, .ok pa) → region pa = .reg → n = 8 → pa % 8 = 0 → regBlockExists (nCores s1) pa = false →
    out = .next (insnFault s1 k 0x01 0x10 0x16 0)) ∧
  (tr = (s1, .wait) → out = .next s) ∧
  (∀ pa, tr = (s1, .ok pa) → region pa ≠ .reg → va % n = 0 → physErr s1 (.ctx (th s k).ctx) pa n (kind == .write) = none →
    (linesOf pa n).any (lineWaits s1) = true → out = .next s)

/-- It does so where it faults with the error that its access answers, and stays where that waits. -/
theorem faultsAtAccess_of_scalarAt {s s1 : State} {k n va : Nat} {kind : AccKind} {out : Out} {reg mem : State → Nat → State × MemRes Word}
    (herr : ∀ u e, scalarAt s (th s k).ctx va n kind reg mem = (u, .err e) → out = .next (insnFault u k 0x01 (accCode e).1 (accCode e).2 0))
    (hwait : ∀ u, scalarAt s (th s k).ctx va n kind reg mem = (u, .wait) → out = .next s)
    (hreg : ∀ u a e, regBad u a n = some e → reg u a = (u, .err e)) : FaultsAtAccess s s1 k n va kind out := by
  refine ⟨fun e htr hal => ?_, fun e htr hmis => ?_, fun pa htr hmem hmis => ?_, fun pa e htr hmem hal hdeny => ?_, fun pa htr hr hshape => ?_,
    fun pa htr hr hn ha hno => ?_, fun htr => hwait s1 (scalarAt_wait htr), fun pa htr hmem hal hok hheld => hwait s1 (scalarAt_held htr hmem hal hok hheld)⟩
  · exact herr s1 e (by rw [scalarAt_err htr, if_pos hal])
  · exact herr s1 .align (by rw [scalarAt_err htr, if_neg hmis])
  · exact herr s1 .align (scalarAt_misaligned htr hmem hmis)
  · exact herr s1 e (scalarAt_denied htr hmem hal hdeny)
  · exact herr s1 .reg (by rw [scalarAt_reg htr hr, hreg s1 pa _ (regBad_of_shape hshape)])
  · subst hn
    exact herr s1 .addr (by rw [scalarAt_reg htr hr, hreg s1 pa _ (regBad_of_absent ha hno)])

section
variable {s : State} {t : Tid} {o : Opnds} {n file : Nat} (s1 : State) (hiss : Issues s t o 0x01 none (memForm file))
include hiss

theorem faultsAtAccess_scalarLoad (put : Thread → Nat → Word → Thread) :
    FaultsAtAccess s s1 (tkey t) n (scalarVa s (tkey t) o) .read (scalarLoad t o n file put s) :=
  faultsAtAccess_of_scalarAt (fun _ _ hat => scalarLoad_err hiss hat) (fun _ hat => scalarLoad_wait hiss hat) fun _ _ _ hbad => (ctxReg_bad hbad 0).1

theorem faultsAtAccess_scalarStore (get : Thread → Nat → Word) :
    FaultsAtAccess s s1 (tkey t) n (scalarVa s (tkey t) o) .write (scalarStore t o n file get s) :=
  faultsAtAccess_of_scalarAt (fun _ _ hat => scalarStore_err hiss hat) (fun _ hat => scalarStore_wait hiss hat) fun _ _ _ hbad => by
    rw [(ctxReg_bad hbad _).2]
    rfl

end

theorem scalarAccessFaults : Sys2Proof.Parts.ScalarAccessFaults := by
  intro c n file kind h s t o s1 _ hiss
  rcases h with h | h | h | h | h | h | h | h | h | h <;> cases h
  · exact faultsAtAccess_scalarLoad s1 hiss setX
  · exact faultsAtAccess_scalarLoad s1 hiss setX
  · exact faultsAtAccess_scalarLoad s1 hiss setX
  · exact faultsAtAccess_scalarLoad s1 hiss setX
  · exact faultsAtAccess_scalarLoad s1 hiss setF
  · exact faultsAtAccess_scalarStore s1 hiss xr
  · exact faultsAtAccess_scalarStore s1 hiss xr
  · exact faultsAtAccess_scalarStore s1 hiss xr
  · exact faultsAtAccess_scalarStore s1 hiss xr
  · exact faultsAtAccess_scalarStore s1 hiss fr

end Sys2Proof.Machine
end

section
/-! What scalar loads and stores move (R8, R25, R54, R64, R68, R290, R385). -/

namespace Sys2Proof.Machine

section
variable {s s1 : State} {t : Tid} {o : Opnds} {n pa file : Nat} {put : Thread → Nat → Word → Thread} {get : Thread → Nat → Word}

/-- R54, R68: an access that reaches memory does there what the instruction does. -/
theorem scalarAt_of_reaches {kind : AccKind} {k : Nat} {reg mem : State → Nat → State × MemRes Word} (hr : Reaches s s1 k n o kind pa) :
    scalarAt s (th s k).ctx (scalarVa s k o) n kind reg mem = mem s1 pa := by
  obtain ⟨hal, htr, hmem, hok, hfree⟩ := hr
  exact scalarAt_mem htr hmem hal hok hfree

/-- The state that a translation leaves. -/
theorem eq_fst_of_translate {ctx va : Nat} {kind : AccKind} (htr : translate s ctx va kind = (s1, .ok pa)) : (translate s ctx va kind).1 = s1 := by
  rw [htr]

variable (hiss : Issues s t o 0x01 none (memForm file))
include hiss

/-- R68, R385: a load of memory puts the bytes read in its register, or faults where they are poisoned. -/
theorem scalarLoad_of_reaches (h : s.Inv) (hput : ∀ n i v, (put n i v).pc = n.pc) (hr : Reaches s s1 (tkey t) n o .read pa) :
    let k := tkey t
    let m := physRead s1 (srcTh s k) pa n
    (m.2.2 = false → scalarLoad t o n file put s =
      .next (setTh m.1 k { put (th s k) o.d.toNat (BitVec.ofNat 64 (leNat m.2.1)) with pc := (th s k).pc + 8 })) ∧
    (m.2.2 = true → scalarLoad t o n file put s = .next (insnFault m.1 k 0x01 0x12 0 0)) := by
  intro k m
  have hs1 := eq_fst_of_translate hr.2.1
  have hinv : m.1.Inv := physRead_inv (hs1 ▸ translate_inv h ..) ..
  have hth : th m.1 k = th s k := th_of_cores ((cores_physRead ..).trans (hs1 ▸ cores_translate ..)) k
  have hat : loadAt s k n o = memLoad (srcTh s k) n s1 pa := scalarAt_of_reaches hr
  refine ⟨fun hclean => ?_, fun hpois => ?_⟩
  · have hload : memLoad (srcTh s k) n s1 pa = (m.1, .ok (BitVec.ofNat 64 (leNat m.2.1))) := if_neg (by rw [hclean]; decide)
    rw [scalarLoad_ok hiss (hat.trans hload), retire_setTh hinv, hput, hth]
  · have hload : memLoad (srcTh s k) n s1 pa = (m.1, .err .poison) := if_pos hpois
    exact scalarLoad_err (e := .poison) hiss (hat.trans hload)

omit hiss in
/-- R216, R385: the read of clean lines at a translated address gives the bytes that memory holds, and moves none. -/
theorem physRead_of_reaches {k : Nat} {kind : AccKind} (hr : Reaches s s1 k n o kind pa) (src : Src) (hclean : ∀ l ∈ linesOf pa n, sget 0 s.symErr l = 0) :
    let m := physRead s1 src pa n
    m.2.1 = (List.range n).map (fun i => memByte s (pa + i)) ∧ (m.2.2 = true ↔ ∃ l ∈ linesOf pa n, l ∈ s.poison) ∧
    m.1.mem = s.mem ∧ m.1.regs = s.regs ∧ m.1.threads = s.threads := by
  have hs1 := eq_fst_of_translate hr.2.1
  subst hs1
  have hlines : ∀ l ∈ linesOf pa n, sget 0 (translate s (th s k).ctx (scalarVa s k o) kind).1.symErr l = 0 := by rwa [translate_symErr]
  rw [physRead_of_clean src hlines]
  refine ⟨memGet_of_mem (translate_mem ..) (translate_undef ..) pa n, ?_, ?_, ?_, ?_⟩
  · rw [any_poison_iff, translate_poison]
  · rw [didRead_reads State.mem fun _ _ _ _ _ => rfl, translate_mem]
  · rw [didRead_reads State.regs fun _ _ _ _ _ => rfl, translate_regs]
  · rw [didRead_reads State.threads fun _ _ _ _ _ => rfl, translate_threads]

/-- R25, R290: a load of a register puts what it reads in its register; in the COL block only COL_TADD may be read. -/
theorem scalarLoad_of_reachesReg (h : s.Inv) (hput : ∀ n i v, (put n i v).pc = n.pc) (hr : ReachesReg s s1 (tkey t) o .read pa) :
    let k := tkey t
    let r := regLoad (regMove s1 k pa false) pa
    (inCol pa = false ∨ (taddOf pa).isSome = true →
      scalarLoad t o 8 file put s = .next (setTh r.1 k { put (th s k) o.d.toNat r.2 with pc := (th s k).pc + 8 })) ∧
    (inCol pa = true → taddOf pa = none → scalarLoad t o 8 file put s = .next (insnFault s1 k 0x01 0x11 0x17 0)) := by
  intro k r
  obtain ⟨htr, hreg, hok⟩ := hr
  have hs1 := eq_fst_of_translate htr
  have hinv : r.1.Inv := regLoad_inv (moveMsg_inv (hs1 ▸ translate_inv h ..) ..) _
  have hth : th r.1 k = th s k := by
    rw [th, th, regLoad_threads, regMove, moveMsg_threads, ← hs1, translate_threads]
  have hat : loadAt s k 8 o = ctxRegLoad s1 k pa 8 := scalarAt_reg htr hreg
  refine ⟨fun hopen => ?_, fun hcol hno => ?_⟩
  · have hload : ctxRegLoad s1 k pa 8 = (r.1, .ok r.2) := by
      rw [ctxRegLoad, hok]
      exact if_neg (by rcases hopen with hcol | htadd <;> simp [*, Option.isNone_iff_eq_none, ← Option.isSome_iff_ne_none])
    rw [scalarLoad_ok hiss (hat.trans hload), retire_setTh hinv, hput, hth]
  · have hload : ctxRegLoad s1 k pa 8 = (s1, .err .perm) := by
      rw [ctxRegLoad, hok]
      exact if_pos (by rw [hcol, hno]; rfl)
    exact scalarLoad_err (e := .perm) hiss (hat.trans hload)

/-- R68: a store to memory writes the low bytes of its register. -/
theorem scalarStore_of_reaches (hr : Reaches s s1 (tkey t) n o .write pa) : scalarStore t o n file get s =
    .next (retire (physWrite s1 (srcTh s (tkey t)) pa (leBytes n (get (th s (tkey t)) o.d.toNat).toNat)) (tkey t)) :=
  scalarStore_ok hiss (scalarAt_of_reaches hr)

/-- R25, R290: a store to a register acts on it, or adds to the counter that a COL_TADD address names; the rest of the COL block is denied. -/
theorem scalarStore_of_reachesReg (hr : ReachesReg s s1 (tkey t) o .write pa) :
    let k := tkey t
    let v := get (th s k) o.d.toNat
    (inCol pa = false → scalarStore t o 8 file get s = .next (retire (regStore (regMove s1 k pa true) pa v) k)) ∧
    (∀ i, inCol pa = true → taddOf pa = some i → ownsCtr s1 (th s k).ctx i = true →
      scalarStore t o 8 file get s = .next (retire (counterAdd (regMove s1 k pa true) i (v.toNat % 2 ^ 32)) k)) ∧
    (inCol pa = true → (taddOf pa = none ∨ ∃ i, taddOf pa = some i ∧ ownsCtr s1 (th s k).ctx i = false) →
      scalarStore t o 8 file get s = .next (insnFault s1 k 0x01 0x11 0x17 0)) := by
  intro k v
  obtain ⟨htr, hreg, hok⟩ := hr
  have hth : th s1 k = th s k := th_of_cores (eq_fst_of_translate htr ▸ cores_translate ..) k
  have hat : storeAt s k 8 o v = ((ctxRegStore s1 k pa 8 v).1, (ctxRegStore s1 k pa 8 v).2.map (fun _ => 0)) := scalarAt_reg htr hreg
  refine ⟨fun hcol => ?_, fun i hcol htadd hown => ?_, fun hcol hno => ?_⟩
  · have hstore : ctxRegStore s1 k pa 8 v = (regStore (regMove s1 k pa true) pa v, .ok ()) := by
      simp only [ctxRegStore, hok, hcol, Bool.false_eq_true, if_false]
    exact scalarStore_ok (v := 0) hiss (hat.trans (by rw [hstore]; rfl))
  · have hstore : ctxRegStore s1 k pa 8 v = (counterAdd (regMove s1 k pa true) i (v.toNat % 2 ^ 32), .ok ()) := by
      simp only [ctxRegStore, hok, hcol, htadd, hth, hown, if_true, fld_zero_eq_mod]
    exact scalarStore_ok (v := 0) hiss (hat.trans (by rw [hstore]; rfl))
  · have hstore : ctxRegStore s1 k pa 8 v = (s1, .err .perm) := by
      rcases hno with hno | ⟨i, htadd, hown⟩
      · simp only [ctxRegStore, hok, hcol, hno, if_true]
      · simp only [ctxRegStore, hok, hcol, htadd, hth, hown, if_true, Bool.false_eq_true, if_false]
    exact scalarStore_err (e := .perm) hiss (hat.trans (by rw [hstore]; rfl))

end

theorem scalarLoads : Sys2Proof.Parts.ScalarLoads := by
  intro c n file put h s t o s1 pa hinv hiss hr
  have hexec : exec (c t o) s = scalarLoad t o n file put s := by
    rcases h with h | h | h | h | h <;> cases h <;> rfl
  have hput : ∀ n i v, (put n i v).pc = n.pc := by
    rcases h with h | h | h | h | h <;> cases h
    · exact setX_pc
    · exact setX_pc
    · exact setX_pc
    · exact setX_pc
    · exact setF_pc
  obtain ⟨hclean, hpois⟩ := scalarLoad_of_reaches hiss hinv hput hr
  rw [hexec]
  exact ⟨hclean, hpois, physRead_of_reaches hr _⟩

theorem registerLoads : Sys2Proof.Parts.RegisterLoads := by
  intro c file put h s t o s1 pa hinv hiss hr
  rcases h with h | h <;> cases h
  · exact scalarLoad_of_reachesReg hiss hinv setX_pc hr
  · exact scalarLoad_of_reachesReg hiss hinv setF_pc hr

/-- Settles O11: a load ends as the read of its address does, and a read of clean lines moves nothing. That a context may read only COL_TADD of the COL block is the model's reading (log 28). -/
theorem loads : Obligations.Loads := ⟨scalarLoads, registerLoads⟩

@[simp] theorem physWrite_reqs (s : State) (src : Src) (a : Nat) (bs : List Byte) : (physWrite s src a bs).reqs = s.reqs := by
  rw [physWrite, wrote_eq_moveLines, moveLines_reads State.reqs fun _ _ _ _ _ => rfl, invalidateAll_eq]
  rfl

theorem scalarStores : Sys2Proof.Parts.ScalarStores := by
  intro c n file get h s t o s1 pa hinv hiss hr
  have hexec : exec (c t o) s = scalarStore t o n file get s := by
    rcases h with h | h | h | h | h <;> cases h <;> rfl
  have hs1 := eq_fst_of_translate hr.2.1
  have hinv1 : s1.Inv := hs1 ▸ translate_inv hinv ..
  have hbyte (a : Nat) : memByte s1 a = memByte s a := by
    rw [← hs1]
    exact memByte_of_mem (translate_mem ..) (translate_undef ..) a
  let w := leBytes n (get (th s (tkey t)) o.d.toNat).toNat
  let u := physWrite s1 (srcTh s (tkey t)) pa w
  have hth (j : Nat) : th u j = th s j := th_of_cores ((cores_physWrite ..).trans (hs1 ▸ cores_translate ..)) j
  have hinvu : u.Inv := physWrite_inv hinv1 ..
  refine ⟨retire u (tkey t), hexec.trans (scalarStore_of_reaches hiss hr), fun i hi => ?_, fun a ha => ?_, ?_, ?_, ?_, fun j hj => ?_, ?_⟩
  · have hlen : i < w.length := by rwa [length_leBytes]
    exact (memByte_physWrite_in hinv1 _ pa w hlen).trans (getElem_leBytes_word n _ i hlen)
  · exact (memByte_physWrite_out hinv1 _ pa w (by rwa [length_leBytes])).trans (hbyte a)
  · exact (physWrite_regs ..).trans (hs1 ▸ translate_regs ..)
  · exact (physWrite_tx ..).trans (hs1 ▸ translate_tx ..)
  · exact (physWrite_reqs ..).trans (hs1 ▸ translate_reqs ..)
  · rw [retire, th_setTh_ne hinvu _ hj, hth]
  · rw [retire, th_setTh_same hinvu, hth]

theorem registerStores : Sys2Proof.Parts.RegisterStores := by
  intro c file get h s t o s1 pa _ hiss hr
  rcases h with h | h <;> cases h
  · exact scalarStore_of_reachesReg hiss hr
  · exact scalarStore_of_reachesReg hiss hr

/-- Settles O12: a store ends as the write of its address does, which `memByte_physWrite_in` reads back. -/
theorem stores : Obligations.Stores := ⟨scalarStores, registerStores⟩

end Sys2Proof.Machine
end

section
/-! The words of Deash instructions (R55-R57, R62, R74). -/

namespace Sys2Proof.Machine

/-- R56: the CLASS and OP of a row, as one number. -/
def OpRow.code (r : OpRow) : Nat := r.cls * 256 + r.op

/-- R56: each CLASS and OP is that of one row. -/
theorem opRows_code_nodup : (opRows.map OpRow.code).Nodup := by
  have hsorted : (opRows.map OpRow.code).IsChain (· < ·) := by decide +kernel
  exact (List.isChain_iff_pairwise.1 hsorted).imp Nat.ne_of_lt

/-- R56: OP is of eight bits, in the SCALAR class of seven, and only there does OP bit 7 give the format; OP 0 of CLASS 0x08 is STREAM, which has no row. -/
theorem opRows_ranges : ∀ r ∈ opRows, r.op < 256 ∧ (r.cls = 0x01 → r.op < 128) ∧ ¬ (r.cls = 0x08 ∧ r.op = 0) := by decide +kernel

/-- In a list whose keys are apart an entry is found by its key. -/
theorem find?_of_nodup_map {α : Type} {key : α → Nat} {p : α → Bool} : ∀ {l : List α}, (l.map key).Nodup → ∀ {r : α}, r ∈ l → p r = true →
    (∀ x ∈ l, p x = true → key x = key r) → l.find? p = some r := by
  intro l
  induction l with
  | nil => exact fun _ _ hr => absurd hr List.not_mem_nil
  | cons x l ih =>
    intro hnd r hr hp hkey
    obtain ⟨hx, hl⟩ := List.nodup_cons.1 hnd
    by_cases hpx : p x = true
    · rcases List.mem_cons.1 hr with heq | hmem
      · rw [List.find?_cons_of_pos hpx, heq]
      · exact absurd (hkey x List.mem_cons_self hpx ▸ List.mem_map_of_mem hmem) hx
    · rw [List.find?_cons_of_neg hpx]
      exact ih hl ((List.mem_cons.1 hr).resolve_left fun heq => hpx (heq ▸ hp)) hp fun y hy => hkey y (List.mem_cons_of_mem _ hy)

section
variable (w : Word)

/-- R55: CLASS and OP of a word. -/
theorem toNat_wbits_cls : (wbits w 58 6).toNat = (w >>> 58).toNat := by
  simp only [wbits, BitVec.extractLsb'_toNat, BitVec.toNat_ushiftRight, Nat.shiftRight_eq_div_pow]
  omega
theorem toNat_wbits_op : (wbits w 50 8).toNat = (w >>> 50).toNat % 256 := by
  simp only [wbits, BitVec.extractLsb'_toNat, BitVec.toNat_ushiftRight]
theorem class_op_code : (w >>> 50).toNat = (w >>> 58).toNat * 256 + (w >>> 50).toNat % 256 := by
  simp only [BitVec.toNat_ushiftRight, Nat.shiftRight_eq_div_pow]
  omega

/-- R57: OP bit 7. -/
theorem decide_op_ge : decide (128 ≤ (w >>> 50).toNat % 256) = w.getLsbD 57 := by
  have hbit := Nat.testBit_eq_decide_div_mod_eq (x := w.toNat) (i := 57)
  rw [BitVec.testBit_toNat] at hbit
  rw [hbit]
  simp only [BitVec.toNat_ushiftRight, Nat.shiftRight_eq_div_pow]
  congr 1
  rw [eq_iff_iff]
  omega

theorem wbits_one (i : Nat) : (wbits w i 1 == 1) = w.getLsbD i := by
  have hbit : (wbits w i 1).getLsbD 0 = w.getLsbD i := by simp [wbits]
  rw [← hbit]
  generalize wbits w i 1 = b
  revert b
  decide

end

/-- R56: the row test that the decoder makes of a CLASS and an OP. -/
def rowFits (w : Word) (r : OpRow) : Bool :=
  r.cls == (w >>> 58).toNat && r.op == (if (w >>> 58).toNat = 0x01 then (w >>> 50).toNat % 256 % 128 else (w >>> 50).toNat % 256)

/-- R55-R57, R74: a word is STREAM, or the operation of the first row that it fits. -/
theorem decodeDeash_eq (t : Tid) (w : Word) : decodeDeash t w = if (w >>> 50).toNat = 0x08 * 256 then some (.stream t (wordStream w))
    else (opRows.find? (rowFits w)).map (fun r => r.make t (wordOpnds (r.iform.getD (w.getLsbD 57)) w)) := by
  have hstream : ((w >>> 58).toNat = 0x08 ∧ (w >>> 50).toNat % 256 = 0) ↔ (w >>> 50).toNat = 0x08 * 256 := by
    have := class_op_code w
    omega
  unfold decodeDeash
  simp only [toNat_wbits_cls, toNat_wbits_op, hstream, decide_op_ge]
  rfl

/-- R56: a word fits a row where its CLASS and OP are those of the row, OP bit 7 apart in the SCALAR class. -/
theorem rowFits_iff {w : Word} {r : OpRow} (hr : r ∈ opRows) : rowFits w r = true ↔
    (w >>> 58).toNat = r.cls ∧ ((w >>> 50).toNat % 256 = r.op ∨ (r.cls = 0x01 ∧ (w >>> 50).toNat % 128 = r.op)) := by
  obtain ⟨_, hscalar, _⟩ := opRows_ranges r hr
  simp only [rowFits, Bool.and_eq_true, beq_iff_eq]
  constructor
  · rintro ⟨hcls, hop⟩
    split_ifs at hop with h1
    · exact ⟨hcls.symm, .inr ⟨by omega, by omega⟩⟩
    · exact ⟨hcls.symm, .inl hop.symm⟩
  · rintro ⟨hcls, hop⟩
    refine ⟨hcls.symm, ?_⟩
    split_ifs with h1
    · have := hscalar (by omega)
      omega
    · omega

theorem code_eq_of_rowFits {w : Word} {x r : OpRow} (hx : rowFits w x = true) (hr : rowFits w r = true) : OpRow.code x = OpRow.code r := by
  simp only [rowFits, Bool.and_eq_true, beq_iff_eq] at hx hr
  rw [OpRow.code, OpRow.code, hx.1, hx.2, hr.1, hr.2]

theorem deashWords : Sys2Proof.Parts.DeashWords := by
  refine ⟨fun t w r hr hcls hop => ?_, fun t w hstream => ?_, fun t w hother hnone => ?_, fun iform w => ?_⟩
  · have hfits := (rowFits_iff hr).2 ⟨hcls, hop⟩
    have hother : (w >>> 50).toNat ≠ 0x08 * 256 := by
      obtain ⟨_, _, hstream⟩ := opRows_ranges r hr
      have := class_op_code w
      omega
    rw [decodeDeash_eq, if_neg hother, find?_of_nodup_map opRows_code_nodup hr hfits fun x _ hx => code_eq_of_rowFits hx hfits]
    rfl
  · rw [decodeDeash_eq, if_pos hstream]
  · have hfind : opRows.find? (rowFits w) = none := List.find?_eq_none.2 fun r hr hfits => hnone r hr ((rowFits_iff hr).1 hfits)
    rw [decodeDeash_eq, if_neg hother, hfind]
    rfl
  · refine ⟨wbits_one w 49, wbits_one w 44, rfl, rfl, rfl, fun hI => ?_, fun hR => ?_⟩
    · subst hI
      exact BitVec.eq_of_toNat_eq (by simp [wordOpnds, wbits])
    · subst hR
      exact ⟨rfl, rfl, BitVec.eq_of_toNat_eq (by simp [wordOpnds, wbits])⟩

end Sys2Proof.Machine
end

section
/-! Reserved encodings and faults of fetches (R54, R56-R58, R85, R385). -/

namespace Sys2Proof.Machine

theorem encodingAndFetchFaults : Sys2Proof.Parts.EncodingAndFetchFaults := by
  intro s t cls _ hcan
  dsimp only
  have henc : exec (.illegalEncoding t cls) s = execIllegalEncoding t cls s := rfl
  have hfetch : exec (.fetchFault t) s = execFetchFault t s := rfl
  simp only [henc, hfetch, execIllegalEncoding, execFetchFault, hcan, Bool.not_true, Bool.false_eq_true, if_false]
  refine ⟨?_, fun hmis => ?_, fun s1 e hal htr => ?_, fun s1 pa e hal htr herr => ?_, fun s1 pa hal htr hok hpois => ?_, fun s1 hal htr => ?_,
    fun s1 pa hal htr hok hclean => ?_⟩
  · split_ifs <;> simp_all
  · rw [if_pos hmis]
  · simp only [hal, htr, ne_eq, not_true_eq_false, if_false]
  · simp only [hal, htr, herr, ne_eq, not_true_eq_false, if_false]
  · simp only [hal, htr, hok, List.contains_iff_mem, hpois, ne_eq, not_true_eq_false, if_false, if_true]
  · simp only [hal, htr, ne_eq, not_true_eq_false, if_false]
  · simp only [hal, htr, hok, List.contains_iff_mem, hclean, ne_eq, not_true_eq_false, if_false]

/-- Settles O13: a word by the one row that it fits, an access by what `scalarAt` answers, a fetch by the first check that it fails. REG_ACCESS for a misaligned access of register space and class field 0 of a fetch's fault are the model's reading (logs 58, 42). -/
theorem instructionFaults : Obligations.InstructionFaults := ⟨deashWords, scalarAccessFaults, encodingAndFetchFaults⟩

end Sys2Proof.Machine
end

section
/-! What a long-vector instruction does once it issues with its effect (R54, R163, R174, R179-R181). -/

namespace Sys2Proof.Machine

section
variable (s : State) (k core : Nat) (n n0 : Thread) (u : LvUnit)
/-! R179-R181: the unit's charge and its idle timer move no thread, and read none but the one they are given. -/
theorem setTh_lvuRetire : setTh (lvuRetire s core) k n = lvuRetire (setTh s k n) core := by
  have hreads (a : Nat) : rd (setTh s k n) a = rd s a := rfl
  simp only [lvuRetire, hreads]
  split <;> rfl
@[simp] theorem th_lvuRetire : th (lvuRetire s core) k = th s k := by
  simp only [lvuRetire]
  split <;> rfl
theorem setTh_lvCharge : setTh (lvCharge s core n0 u) k n = lvCharge (setTh s k n) core n0 u := by cases u <;> rfl
@[simp] theorem th_lvCharge : th (lvCharge s core n0 u) k = th s k := by cases u <;> rfl
end

/-- R174, R179-R181: how a long-vector instruction ends once its effect has ended: where the effect is done, its time is charged and the restart index is zero. -/
def lvEnded (key : Nat) (t0 : Thread) (u : LvUnit) : Res → Res
  | .done s => .done (lvuRetire (setTh (lvCharge s (coreOf key) t0 u) key { th (lvCharge s (coreOf key) t0 u) key with restart := 0 }) (coreOf key))
  | r => r

/-- R58, R163, R180: a long-vector instruction that issues on a unit that is up, with its own checks passed, ends as its effect says. -/
theorem lvOp_of_lvIssues {s : State} {t : Tid} {o : Opnds} {shape : RShape} {types : List Nat} {u : LvUnit} {ok : Bool} {pre : Thread → Bool}
    (hiss : LvIssues s t o shape types true) (hok : ok = true) (hpre : pre (th s (tkey t)) = true) (arith : Bool) (eff : Nat → State → Res) :
    lvOp t o shape types arith u ok pre eff s = .next (finish (tkey t) 0x10 (lvEnded (tkey t) (th s (tkey t)) u (eff (tkey t) s))) := by
  obtain ⟨hissues, htype, hvl, hup⟩ := hiss
  rw [lvOp, insnW_eq hissues, if_pos hok]
  simp only [hpre, hup rfl, hvl, List.contains_eq_mem, htype, decide_true, Bool.not_true, Bool.and_false, Bool.false_eq_true, if_false]
  rfl

/-- R80, R179-R181: a thread that is put with its counts retires, charged. -/
theorem finish_lvEnded_putCounted {s : State} (h : s.Inv) (k : Nat) (n0 n : Thread) (u : LvUnit) (c : Cnt) :
    finish k 0x10 (lvEnded k n0 u (.done (putCounted s k n 0x10 c))) = lvCounted s k n0 u n c := by
  have hcharged : (lvCharge (putCounted s k n 0x10 c) (coreOf k) n0 u).Inv :=
    (lvCharge_kept _ _ _ _ (countNum_kept _ _ _ (setTh_kept (inv_kept h)))).2
  rw [lvEnded, finish, retire, th_lvuRetire, setTh_lvuRetire, th_setTh_same hcharged, setTh_setTh hcharged, th_lvCharge, setTh_lvCharge,
    putCounted, th_countNum, setTh_countNum, th_setTh_same h, setTh_setTh h, lvCounted, lvDone, setTh_countNum, setNstat_pc]

end Sys2Proof.Machine
end

section
/-! Elements of vector registers, FP operations and compares (R79, R161-R168). -/

namespace Sys2Proof.Machine

/-- Codes joined cut apart again, each in its width; past the last there is zero. -/
theorem nfld_joinCodes (bits : Nat) : ∀ (cs : List Nat) (i : Nat), nfld (joinCodes bits cs) (i * bits) bits = nth cs i % 2 ^ bits
  | [], i => by simp [joinCodes, nfld, nth]
  | c :: cs, i => by
    have hcons : joinCodes bits (c :: cs) = c % 2 ^ bits + 2 ^ bits * joinCodes bits cs := by
      rw [joinCodes, List.foldr_cons, Nat.shiftLeft_eq, Nat.mul_comm]
      rfl
    cases i with
    | zero => rw [hcons, nfld, Nat.zero_mul, Nat.shiftRight_zero, Nat.add_mul_mod_self_left, Nat.mod_mod, nth, List.getD_cons_zero]
    | succ i =>
      have hlow : (c % 2 ^ bits + 2 ^ bits * joinCodes bits cs) / 2 ^ bits = joinCodes bits cs := by
        rw [Nat.add_mul_div_left _ _ (by positivity), Nat.div_eq_of_lt (Nat.mod_lt _ (by positivity)), Nat.zero_add]
      rw [hcons, nfld, Nat.succ_mul, Nat.add_comm (i * bits), Nat.shiftRight_add, Nat.shiftRight_eq_div_pow _ bits, hlow, nth, List.getD_cons_succ]
      exact nfld_joinCodes bits cs i

theorem joinCodes_lt (bits : Nat) (cs : List Nat) : joinCodes bits cs < 2 ^ (bits * cs.length) := by
  induction cs with
  | nil => simp [joinCodes]
  | cons c cs ih =>
    have hc : c % 2 ^ bits < 2 ^ bits := Nat.mod_lt _ (by positivity)
    rw [joinCodes, List.foldr_cons, Nat.shiftLeft_eq, List.length_cons, Nat.mul_succ, Nat.pow_add]
    calc c % 2 ^ bits + joinCodes bits cs * 2 ^ bits < (joinCodes bits cs + 1) * 2 ^ bits := by linarith
      _ ≤ 2 ^ (bits * cs.length) * 2 ^ bits := Nat.mul_le_mul_right _ ih

theorem toNat_joinCodes {w bits : Nat} {cs : List Nat} (h : bits * cs.length ≤ w) : (BitVec.ofNat w (joinCodes bits cs)).toNat = joinCodes bits cs := by
  rw [BitVec.toNat_ofNat, Nat.mod_eq_of_lt ((joinCodes_lt _ _).trans_le (Nat.pow_le_pow_right Nat.two_pos h))]

theorem nth_map_range {n i : Nat} (f : Nat → Nat) (hi : i < n) : nth ((List.range n).map f) i = f i := by
  simp [nth, hi]

/-- R161: a register made of its elements holds each in its width. -/
theorem velem_vmake {bits i : Nat} (f : Nat → Nat) (hi : i < 4096 / bits) : velem (vmake bits f) bits i = f i % 2 ^ bits := by
  have hfits : bits * ((List.range (4096 / bits)).map f).length ≤ 4096 := by
    rw [List.length_map, List.length_range]
    exact Nat.mul_div_le 4096 bits
  rw [velem, vmake, toNat_joinCodes hfits, nfld_joinCodes, nth_map_range f hi]

theorem velem_lt (v : BitVec 4096) (bits i : Nat) : velem v bits i < 2 ^ bits := Nat.mod_lt _ (by positivity)

/-- R163: what `lvMap` makes of the destination. -/
theorem elements_lvMap (n : Thread) (o : Opnds) (f : Nat → Nat × Cnt) :
    ∃ w, Elements n o w (fun i => (f i).1) ∧ (lvMap n o f) = (setV n o.d.toNat w, countActive n o (fun i => (f i).2)) := by
  refine ⟨_, fun i hi => ?_, rfl⟩
  rw [velem_vmake _ hi]
  split
  · rfl
  · exact Nat.mod_eq_of_lt (velem_lt ..)

/-- R163: a predicate made of its bits, each 0 or 1. -/
theorem getLsbD_joinBits (b : Nat → Bool) {i : Nat} (hi : i < 512) :
    (BitVec.ofNat 512 (joinCodes 1 ((List.range 512).map fun i => if b i then 1 else 0))).getLsbD i = b i := by
  have hbit := nfld_joinCodes 1 ((List.range 512).map fun i => if b i then 1 else 0) i
  rw [nth_map_range _ hi, Nat.mul_one, nfld] at hbit
  rw [BitVec.getLsbD_ofNat, decide_eq_true hi, Bool.true_and, Nat.testBit_eq_decide_div_mod_eq, ← Nat.shiftRight_eq_div_pow]
  rw [Nat.pow_one] at hbit
  rw [hbit]
  cases b i <;> rfl


/-- R57: a word of the R form sets no bit of MOD outside its mask. -/
theorem md_le_of_shapeOk {r : RShape} {o : Opnds} (h : shapeOk (some r) none o = true) : o.md.toNat ≤ r.md := by
  unfold shapeOk at h
  split at h
  · cases h
  · simp only [Bool.and_eq_true, within, beq_iff_eq] at h
    obtain ⟨_, hmask⟩ := h
    rw [← hmask]
    exact Nat.and_le_right

/-- R164: a word with no bit of MOD from FXRM up names the first rounding. -/
theorem lvMod_fx_zero {o : Opnds} (h : o.md.toNat ≤ 0xFFF) : (lvMod o).fx = 0 := by
  show (o.md.toNat >>> 12) % 2 ^ 2 = 0
  rw [Nat.shiftRight_eq_div_pow]
  omega

/-- R166: an FP element type's format. -/
theorem fmt_of_lvFps {vt : Nat} (h : vt ∈ lvFps) : (fmtOfCode vt).getD fmtFP64 = if vt = 6 then fmtFP64 else fmtFP32 := by
  rcases List.mem_pair.1 h with rfl | rfl <;> rfl

/-- R164, R165: with an FP element type operand B is one of 32 registers, with SB or without. -/
theorem lvBOk_of_lvFps {o : Opnds} {n : Thread} (h : n.vtype.toNat ∈ lvFps) : lvBOk o n = decide (o.b.toNat < 32) := by
  have hfp : (decide (n.vtype ≠ 6) && decide (n.vtype ≠ 5)) = false := by
    rcases List.mem_pair.1 h with h | h <;> simp [← BitVec.toNat_inj, h]
  rw [lvBOk, lvBSize, hfp, Bool.and_false, if_neg Bool.false_ne_true]

/-- R79, R168: element `i` of an FP operation: its code and what it counts, under a numeric control and the counter value taken. -/
def fpElement (n : Thread) (o : Opnds) (nctl : NumCtl) (kc : Word × Word) (useB useC : Bool) (f : Fp → Fp → Fp → Fp) (i : Nat) : Nat × Cnt :=
  let F := if n.vtype.toNat = 6 then fmtFP64 else fmtFP32
  let el (r : Nat) : Fp := unpack F (velem (vreg n r) (tyBits n.vtype.toNat) i)
  let b := unpack F (lvB n o n.vtype.toNat i)
  let v := f (el o.a.toNat) b (el o.c.toNat)
  let r := toFmt F (modeFor nctl kc i) nctl.nosat v
  (r.1, r.2.add ⟨0, 0, newNan v (if useC then [el o.a.toNat, b, el o.c.toNat] else if useB then [el o.a.toNat, b] else [el o.a.toNat])⟩)

/-- R163, R168: an FP operation puts its elements in vD with what they count. -/
theorem lvFp_of_lvIssues {s : State} {t : Tid} {o : Opnds} {nctl : NumCtl} {useB useC rounds : Bool} (h : s.Inv)
    (hiss : LvIssues s t o ⟨32, 32, if useB then 64 else 0, if useC then 32 else 0, mMask + (if useB then mSb else 0) + (if rounds then mNum else 0)⟩
      lvFps true) (hnum : numCtl (lvMod o).num = some nctl) (hb : useB = true → o.b.toNat < 32) (occ : Nat) (f : Fp → Fp → Fp → Fp) :
    lvFp t o occ useB useC rounds f s = .next (
      let n := th s (tkey t)
      let took := takeFor nctl n.ctx s
      let q := lvMap n o (fpElement n o nctl took.1 useB useC f)
      lvCounted took.2 (tkey t) n (.pipe occ) q.1 q.2) := by
  have htype : (th s (tkey t)).vtype.toNat ∈ lvFps := hiss.2.1
  have hmask : mMask + (if useB then mSb else 0) + (if rounds then mNum else 0) ≤ 0xFFF := by
    cases useB <;> cases rounds <;> decide
  have hfx : (lvMod o).fx = 0 := lvMod_fx_zero ((md_le_of_shapeOk hiss.1.2.2.1).trans hmask)
  have hok : (lvCtlOk o && (!useB || lvBWord o)) = true := by
    cases useB
    · simp [lvCtlOk, hnum, hfx]
    · simp [lvCtlOk, hnum, hfx, lvBWord, hb rfl]
  have hpre : (!useB || lvBOk o (th s (tkey t))) = true := by
    cases useB
    · rfl
    · simp [lvBOk_of_lvFps htype, hb rfl]
  rw [lvFp, lvOp_of_lvIssues hiss hok hpre]
  dsimp only
  rw [← finish_lvEnded_putCounted (takeFor_inv h nctl _), fmt_of_lvFps htype, hnum]
  rfl

theorem vectorFloat : Sys2Proof.Parts.VectorFloat := by
  intro c useB useC mods occ f h s t o nctl hinv hiss hnum hb
  obtain ⟨rounds, hmods, hexec⟩ : ∃ rounds, mods = mMask + (if useB then mSb else 0) + (if rounds then mNum else 0) ∧
      exec (c t o) s = lvFp t o occ useB useC rounds f s := by
    rcases h with h | h | h | h | h | h | h | h <;> cases h
    exacts [⟨true, rfl, rfl⟩, ⟨true, rfl, rfl⟩, ⟨true, rfl, rfl⟩, ⟨true, rfl, rfl⟩, ⟨true, rfl, rfl⟩, ⟨true, rfl, rfl⟩, ⟨false, rfl, rfl⟩,
      ⟨false, rfl, rfl⟩]
  obtain ⟨w, hw, hmap⟩ := elements_lvMap (th s (tkey t)) o
    (fpElement (th s (tkey t)) o nctl (takeFor nctl (th s (tkey t)).ctx s).1 useB useC f)
  refine ⟨w, hw, ?_⟩
  rw [hexec, lvFp_of_lvIssues hinv (hmods ▸ hiss) hnum hb]
  dsimp only
  rw [hmap]
  rfl

/-- R163: the predicate of a compare: an active element's bit is its relation, and every other bit is clear. -/
def cmpBit (n : Thread) (o : Opnds) (rel : Nat → Nat → Nat → Bool) (i : Nat) : Bool :=
  lvActive n (lvMod o) i && rel n.vtype.toNat (velem (vreg n o.a.toNat) (tyBits n.vtype.toNat) i) (lvB n o n.vtype.toNat i)

theorem lvCmp_of_lvIssues {s : State} {t : Tid} {o : Opnds} {types : List Nat} (h : s.Inv) (hiss : LvIssues s t o ⟨16, 32, 64, 0, mMask + mSb⟩ types true)
    (hb : lvBOk o (th s (tkey t)) = true) (rel : Nat → Nat → Nat → Bool) :
    lvCmp t o types rel s = .next (
      let n := th s (tkey t)
      lvCounted s (tkey t) n (.pipe 4)
        (setP true n o.d.toNat (BitVec.ofNat 512 (joinCodes 1 ((List.range 512).map fun i => if cmpBit n o rel i then 1 else 0)))) cnt0) := by
  have hword : lvBWord o = true := by
    simp only [lvBOk, lvBSize] at hb
    cases hsb : (lvMod o).sb
    · simpa [lvBWord, hsb] using hb
    · simp [lvBWord, hsb]
  rw [lvCmp, lvOp_of_lvIssues hiss hword hb]
  dsimp only
  rw [← finish_lvEnded_putCounted h]
  rfl

theorem vectorCompares : Sys2Proof.Parts.VectorCompares := by
  intro c types rel h s t o hinv hiss hb
  have hexec : exec (c t o) s = lvCmp t o types rel s := by
    rcases h with h | h | h | h | h <;> cases h <;> rfl
  refine ⟨_, fun i hi => getLsbD_joinBits (cmpBit (th s (tkey t)) o rel) hi, ?_⟩
  rw [hexec, lvCmp_of_lvIssues hinv hiss hb]
  rfl

/-- Settles O24: the elements of an FP operation by `lvFp_of_lvIssues`, the bits of a compare by `lvCmp_of_lvIssues`. -/
theorem vectorFloatAndCompares : Obligations.VectorFloatAndCompares := ⟨vectorFloat, vectorCompares⟩

end Sys2Proof.Machine
end

section
/-! SUPPORT. What an access to memory cannot change: all of the package but a few registers, its memory and what moves lines (R216, R230-R237, R247, R325, R388). -/

namespace Sys2Proof.Machine

/-- R234-R237, R329, R388: the registers that the outcomes of a line's read may move: the black box's, the log rings' pointers and the memory's own. -/
def lineReg (a : Nat) : Bool := bbxReg a || a == R.BBX_SRAM_CE || (List.range 8).any (fun p => a == R.DSP_LOGPTR p) || 0xf0040000000 ≤ a

theorem lineReg_of_le {a : Nat} (h : 0xf0040000000 ≤ a) : lineReg a = true := by simp [lineReg, h]
theorem lineReg_logPtr {p : Nat} (h : p < 8) : lineReg (R.DSP_LOGPTR p) = true := by
  have hany : (List.range 8).any (fun q => R.DSP_LOGPTR p == R.DSP_LOGPTR q) = true := List.any_eq_true.2 ⟨p, List.mem_range.2 h, beq_self_eq_true _⟩
  simp [lineReg, hany]

/-- No register of the fabric die's own block is one of them. -/
theorem lineReg_fabric {a : Nat} (hlo : 0xf0000100000 ≤ a) (hhi : a < 0xf0040000000) : lineReg a = false := by
  have hptr : (List.range 8).any (fun p => a == R.DSP_LOGPTR p) = false := by
    simp only [List.any_eq_false, List.mem_range, beq_iff_eq, R.DSP_LOGPTR]
    omega
  simp only [lineReg, hptr, bbxReg, R.BBX_SEQ, R.BBX_STAT, R.BBX_RING, R.BBX_SRAM_CE, Bool.or_eq_false_iff, beq_eq_false_iff_ne, decide_eq_false_iff_not, and_true]
  omega

/-- The package with its memory, the rows and marks of its lines and what moves lines blanked, and the black box's MRAM with them. -/
def unmarked (s : State) : State := { s with
  mram := [], ringCount := 0, mem := [], undef := [], poison := [], symErr := [], rowCe := [], rowHeld := [], sparesUsed := [],
  arch := [], rgl := [], scLines := [], free := 0 }

/-- A property that outlives every change that a read of memory makes: to the registers above, and to what `unmarked` blanks. -/
structure OutlivesReads (P : State → Prop) : Prop where
  wr : ∀ s a v, lineReg a = true → P s → P (wr s a v)
  marks : ∀ {s t}, P s → unmarked t = unmarked s → P t

namespace OutlivesReads

variable {P : State → Prop} (hP : OutlivesReads P) {s : State}

theorem ite {c : Prop} [Decidable c] {t u : State} (ht : P t) (hu : P u) : P (if c then t else u) := by
  split
  · exact ht
  · exact hu

include hP

theorem wrf {a : Nat} (ha : lineReg a = true) (lo n v : Nat) (h : P s) : P (wrf s a lo n v) := hP.wr _ _ _ ha h
theorem addSat {a : Nat} (ha : lineReg a = true) (lo n k : Nat) (h : P s) : P (addSat s a lo n k) := hP.wr _ _ _ ha h

theorem bbxPut (off : Nat) (r : List Byte) (h : P s) : P (bbxPut s off r) := hP.marks (hP.wr s R.BBX_SEQ _ rfl h) rfl

theorem bbxRing (r : List Byte) (h : P s) : P (bbxRing s r) := by
  unfold Machine.bbxRing
  extract_lets i s1 s2
  have hput : P s1 := hP.bbxPut _ r h
  have hcount : P s2 := hP.marks hput rfl
  have hfirst : P (Machine.wrf s2 R.BBX_RING 0 17 i) := hP.wrf rfl _ _ _ hcount
  exact ite (hP.addSat rfl _ _ _ h) (hP.wrf rfl _ _ _ hfirst)

theorem bbx (perm : Bool) (ty src st sub : Nat) (pay : List Byte) (h : P s) : P (bbx s perm ty src st sub pay) := by
  unfold Machine.bbx
  dsimp only
  split_ifs
  · exact h
  · exact hP.wrf rfl _ _ _ (hP.wrf rfl _ _ _ (hP.bbxPut _ _ h))
  · exact hP.wrf rfl _ _ _ (hP.bbxPut _ _ h)
  · exact hP.bbxRing _ h

theorem memPut (a : Nat) (bs : List Byte) (h : P s) : P (memPut s a bs) := hP.marks h rfl

theorem logRec {part : Nat} (hpart : part < 8) (ty ctx : Nat) (detail payload : List Byte) (h : P s) : P (logRec s part ty ctx detail payload) := by
  unfold Machine.logRec logRecAt
  extract_lets base half seq s1
  have hptr : P s1 := hP.wr _ _ _ (lineReg_logPtr hpart) h
  exact ite (hP.memPut _ _ (hP.memPut _ _ hptr)) hptr

theorem retirePage (h c page : Nat) (hs : P s) : P (retirePage s h c page) := by
  have hretire : ∀ i, lineReg (R.MEM_RETIRE h i) = true := fun i => lineReg_of_le (by rw [R.MEM_RETIRE]; omega)
  have hstat : lineReg (R.MEM_RETIRE_STAT h) = true := lineReg_of_le (by rw [R.MEM_RETIRE_STAT]; omega)
  have hchan : lineReg (R.MEM_CH_STAT h c) = true := lineReg_of_le (by rw [R.MEM_CH_STAT]; omega)
  unfold Machine.retirePage
  extract_lets cnt s1 s2 s3 s4 s5
  have h1 : P s1 := ite (hP.wrf hstat _ _ _ (hP.wr _ _ _ (hretire _) hs)) hs
  have h2 : P s2 := ite (hP.wrf hstat _ _ _ h1) h1
  have h4 : P s4 := hP.bbx _ _ _ _ _ _ (hP.addSat hchan _ _ _ h2)
  have h5 : P s5 := by
    unfold s5
    split
    · split
      · exact hP.logRec ‹_› _ _ _ _ h4
      · exact h4
    · exact h4
  exact ite hs (ite (hP.bbx _ _ _ _ _ _ (hP.wrf hchan _ _ _ h5)) h5)

theorem retirePages (h c : Nat) (pages : List Nat) (hs : P s) : P (pages.foldl (fun s p => Machine.retirePage s h c p) s) := by
  induction pages generalizing s with
  | nil => exact hs
  | cons p ps ih => exact ih (hP.retirePage h c p hs)

theorem rowFail (line : Nat) (h : P s) : P (rowFail s line) := by
  unfold Machine.rowFail
  split
  · exact h
  · rename_i half c id _
    have hremap : ∀ i, lineReg (R.MEM_REMAP half i) = true := fun i => lineReg_of_le (by rw [R.MEM_REMAP]; omega)
    have hchan : lineReg (R.MEM_CH_STAT half c) = true := lineReg_of_le (by rw [R.MEM_CH_STAT]; omega)
    have hras : lineReg (R.MEM_RAS_STAT half) = true := lineReg_of_le (by rw [R.MEM_RAS_STAT]; omega)
    extract_lets s1 used slot
    have h1 : P s1 := hP.marks h rfl
    clear_value used slot
    split
    · refine ite ?_ (hP.retirePages _ _ _ h1)
      extract_lets rep w s2 s3 s4 s5 s6
      have h3 : P s3 := hP.marks (hP.wr s1 _ _ (hremap _) h1) rfl
      have h4 : P s4 := hP.wrf hchan _ _ _ h3
      have h6 : P s6 := hP.bbx _ _ _ _ _ _ (ite h4 (hP.wrf hras _ _ _ h4))
      split
      · split
        · exact hP.logRec ‹_› _ _ _ _ h6
        · exact h6
      · exact h6
    · exact hP.retirePages _ _ _ h1

theorem rowCe (ce : List (Nat × Nat)) (h : P s) : P { s with rowCe := ce } := hP.marks h rfl

theorem readLine (line : Nat) (h : P s) : P (readLine s line) := by
  unfold Machine.readLine
  split
  · exact h
  · rename_i half _ _ _
    have hras : lineReg (R.MEM_RAS_STAT half) = true := lineReg_of_le (by rw [R.MEM_RAS_STAT]; omega)
    have hchan (c : Nat) : lineReg (R.MEM_CH_STAT half c) = true := lineReg_of_le (by rw [R.MEM_CH_STAT]; omega)
    extract_lets s1 s2
    have h1 : P s1 := hP.marks h rfl
    refine ite ?_ (hP.rowFail _ (hP.addSat hras _ _ _ (hP.marks h1 rfl)))
    have h2 : P s2 := hP.addSat hras _ _ _ h1
    split
    · exact h2
    · extract_lets s3 n others mine keep s4
      have h4 : P s4 := hP.rowCe _ (hP.addSat (hchan _) _ _ _ h2)
      exact ite (hP.rowFail _ h4) h4
  · extract_lets s1
    have h1 : P s1 := hP.marks h rfl
    exact ite (hP.addSat rfl _ _ _ h1) (hP.addSat rfl _ _ _ (hP.marks h1 rfl))

/-- R216, R230, R247: the property outlives a read of memory. -/
theorem physRead (src : Src) (a n : Nat) (h : P s) : P (physRead s src a n).1 := by
  have hlines (ls : List Nat) : ∀ t, P t → P (ls.foldl Machine.readLine t) := by
    induction ls with
    | nil => exact fun _ ht => ht
    | cons l ls ih => exact fun t ht => ih _ (hP.readLine l ht)
  have hmoved : P (physGet s a n).1 := hlines _ s h
  exact hP.marks hmoved (didRead_reads unmarked (fun _ _ _ _ _ => rfl) (physGet s a n).1 src a n)

end OutlivesReads

/-- The package with everything blanked that an access to memory can change. -/
def outside (s : State) : State := { s with
  regs := [], frac := [], mem := [], undef := [], poison := [], symErr := [], tlb := [], rowCe := [], rowHeld := [], sparesUsed := [],
  mram := [], ringCount := 0, confAt := [], hostLines := [], rgl := [], arch := [], scLines := [], invs := [], free := 0 }

section
variable {s t : State} (h : outside t = outside s)
include h
theorem threads_of_outside : t.threads = s.threads := show (outside t).threads = (outside s).threads by rw [h]
theorem rcache_of_outside : t.rcache = s.rcache := show (outside t).rcache = (outside s).rcache by rw [h]
theorem ltc_of_outside : t.ltc = s.ltc := show (outside t).ltc = (outside s).ltc by rw [h]
end

section
variable (s : State)

/-- R216, R230: a read of memory changes nothing outside it. -/
@[simp] theorem outside_physRead (src : Src) (a n : Nat) : outside (physRead s src a n).1 = outside s :=
  OutlivesReads.physRead (P := fun t => outside t = outside s) ⟨fun _ _ _ _ h => h, fun hs h => (congrArg outside h).trans hs⟩ src a n rfl

/-- R216, R230: a read of memory moves no register but those of the outcomes of its lines. -/
theorem rd_physRead (hinv : s.Inv) (src : Src) (a n : Nat) {r : Nat} (hr : lineReg r = false) : rd (physRead s src a n).1 r = rd s r := by
  refine (OutlivesReads.physRead (P := fun t => swf regReset t.regs = true ∧ rd t r = rd s r)
    ⟨fun t b v hb ht => ?_, fun {t u} ht h => ?_⟩ src a n ⟨hinv.regs, rfl⟩).2
  · have hne : r ≠ b := by
      rintro rfl
      simp [hr] at hb
    exact ⟨swf_sset regReset b v t.regs ht.1, (sget_sset_ne regReset b r v t.regs ht.1 hne).trans ht.2⟩
  · have hregs : u.regs = t.regs := show (unmarked u).regs = (unmarked t).regs by rw [h]
    rwa [rd, hregs]

theorem outside_wrote (src : Src) (a n : Nat) : outside (wrote s src a n) = outside s := by
  rw [wrote_eq_moveLines, moveLines_reads outside fun _ _ _ _ _ => rfl, invalidateAll_eq]
  rfl

/-- R216, R232: a write of memory changes nothing outside it. -/
@[simp] theorem outside_physWrite (src : Src) (a : Nat) (bs : List Byte) : outside (physWrite s src a bs) = outside s := outside_wrote ..

end

end Sys2Proof.Machine
end

section
/-! Atomics and compare-and-swaps at their target, and the reply cache (R76, R216, R254, R260, R267, R274). -/

namespace Sys2Proof.Machine

/-- A packet taken from the router's deliveries is no part of what its checks read. -/
theorem checkReq_takeRx (s : State) (p q : Pkt) (n : Nat) (write : Bool) : checkReq (takeRx s p) q n write = checkReq s q n write := rfl

/-- R259, R273: a request that is served does what its type does. -/
theorem onRequest_of_served {s : State} {p : Pkt} {ty n : Nat} {write : Bool} (hs : Served s p ty n write) (f : State → State) :
    onRequest ty p false n write f s = .next (f (takeRx s p)) := by
  obtain ⟨hissue, hty, hdst, hsrc, hall, ⟨part, hcheck⟩, hheld, hlines, hinv⟩ := hs
  have hlimits : (false || decide (rdf (takeRx s p) R.SCF_CFG 0 8 ≤ heldFrom s p (some p.src)) || decide (8192 ≤ heldFrom s p none)) = false := by
    simp only [Bool.false_or, Bool.or_eq_false_iff, decide_eq_false_iff_not, not_le]
    exact ⟨hsrc, hall⟩
  have hwait : (if write then invWait s p.addr n else none) = none := by
    split
    · exact hinv ‹_›
    · rfl
  have hgo : (!issuing s || p.ty != ty || p.dst != ownCoord s) = false := by simp [hissue, hty, hdst]
  have hpause : (takeRx s p).hbmHeld = false := hheld
  have hfree : (linesOf p.addr n).any (lineWaits (takeRx s p)) = false := hlines
  simp only [onRequest, hgo, hlimits, checkReq_takeRx, hcheck, hpause, hfree, hwait, Bool.false_and, Bool.false_eq_true, if_false]

theorem leNat_leBytes (n v : Nat) : leNat (leBytes n v) = v % 2 ^ (8 * n) := by
  induction n generalizing v with
  | zero => simp [leBytes, leNat, Nat.mod_one]
  | succ n ih =>
    rw [leBytes, leNat, ih, BitVec.toNat_ofNat, Nat.mul_succ, Nat.add_comm (8 * n) 8, Nat.pow_add, Nat.mod_mul]

theorem leNat_lt (bs : List Byte) : leNat bs < 2 ^ (8 * bs.length) := by
  induction bs with
  | nil => simp [leNat]
  | cons b bs ih =>
    have hb := b.isLt
    rw [leNat, List.length_cons, Nat.mul_succ, Nat.pow_add]
    omega

/-- R216: bytes written are read back. -/
theorem memGet_physPut {s : State} (h : s.Inv) (a : Nat) (bs : List Byte) : memGet (physPut s a bs) a bs.length = bs := by
  refine List.ext_getElem (by simp [memGet]) fun i hi _ => ?_
  have hlen : i < bs.length := by simpa [memGet] using hi
  simp only [memGet, List.getElem_map, List.getElem_range]
  exact memByte_memPut_in h a bs i hlen

section
variable {s : State} {src eng seq : Nat}

/-- R274: what the reply cache answers rests on the cache alone. -/
theorem cached_congr {t : State} (h : t.rcache = s.rcache) : cached t src eng seq = cached s src eng seq := by rw [cached, cached, h]

/-- R274: an entry put in answers its own tag and no other. -/
theorem cached_append_ne {e : RcEntry} (hne : (src, eng, seq) ≠ (e.src, e.eng, e.seq)) :
    cached { s with rcache := s.rcache ++ [e] } src eng seq = cached s src eng seq := by
  have hno : (e.src == src && e.eng == eng && e.seq == seq) = false := by
    simp only [Bool.and_eq_false_iff, beq_eq_false_iff_ne]
    by_contra hall
    push Not at hall
    obtain ⟨⟨rfl, rfl⟩, rfl⟩ := hall
    exact hne rfl
  simp [cached, List.find?_append, hno]

end

/-- R267, R274: a member of a new tag is applied: the old value goes into the cache and the new one to memory. -/
def appliedMember (ty : Nat) (sgn : Bool) (a : Nat) (m : Member) (s : State) : State :=
  let old := leNat (memGet s a 8)
  { physPut s a (leBytes 8 (atomicNew ty sgn old (m.v % 2 ^ 64))) with rcache := s.rcache ++ [⟨m.src, m.eng, m.seq, old, s.ltc.toNat⟩] }

section
variable {s : State} {ty a : Nat} {sgn : Bool} {m : Member} {ms : List Member}

theorem applyMembers_new (hnew : cached s m.src m.eng m.seq = none) : applyMembers ty sgn a (m :: ms) s =
    ((applyMembers ty sgn a ms (appliedMember ty sgn a m s)).1,
      { m with v := leNat (memGet s a 8) } :: (applyMembers ty sgn a ms (appliedMember ty sgn a m s)).2) := by
  rw [applyMembers, hnew]
  rfl

theorem applyMembers_cached {v : Nat} (hcached : cached s m.src m.eng m.seq = some v) : applyMembers ty sgn a (m :: ms) s =
    ((applyMembers ty sgn a ms (addSat s R.SCF_RCACHE 16 32 1)).1, { m with v := v } :: (applyMembers ty sgn a ms (addSat s R.SCF_RCACHE 16 32 1)).2) := by
  rw [applyMembers, hcached]

theorem appliedMember_inv (h : s.Inv) : (appliedMember ty sgn a m s).Inv :=
  have hput := (physPut_kept s a (leBytes 8 (atomicNew ty sgn (leNat (memGet s a 8)) (m.v % 2 ^ 64))) (inv_kept h)).2
  { hput with }

/-- R76, R254: what an atomic leaves of two 64-bit values is one. -/
theorem atomicNew_lt {old v : Nat} (ho : old < 2 ^ 64) (hv : v < 2 ^ 64) : atomicNew ty sgn old v < 2 ^ 64 := by
  unfold atomicNew
  extract_lets lt
  split
  · exact Nat.mod_lt _ (by decide)
  · split <;> assumption
  · split <;> assumption
  · exact Nat.and_lt_two_pow _ hv
  · exact Nat.or_lt_two_pow ho hv
  · exact Nat.xor_lt_two_pow ho hv
  · exact hv

theorem memGet_word_lt (s : State) (a : Nat) : leNat (memGet s a 8) < 2 ^ 64 := by
  have hlt := leNat_lt (memGet s a 8)
  rwa [memGet, List.length_map, List.length_range] at hlt

/-- R76, R216: the member's value is in memory. -/
theorem word_appliedMember (h : s.Inv) : leNat (memGet (appliedMember ty sgn a m s) a 8) = atomicNew ty sgn (leNat (memGet s a 8)) (m.v % 2 ^ 64) := by
  have hread := memGet_physPut h a (leBytes 8 (atomicNew ty sgn (leNat (memGet s a 8)) (m.v % 2 ^ 64)))
  rw [length_leBytes] at hread
  calc leNat (memGet (appliedMember ty sgn a m s) a 8)
      = leNat (leBytes 8 (atomicNew ty sgn (leNat (memGet s a 8)) (m.v % 2 ^ 64))) := congrArg leNat hread
    _ = _ := by
      rw [leNat_leBytes]
      exact Nat.mod_eq_of_lt (atomicNew_lt (memGet_word_lt s a) (Nat.mod_lt _ (by decide)))

/-- R267, R274: members of new tags, each tag once, are applied in turn: the word takes what each leaves, and nothing else of memory changes. -/
theorem applyMembers_all_new (h : s.Inv) (hnew : ∀ m ∈ ms, cached s m.src m.eng m.seq = none)
    (hnodup : (ms.map (fun m => (m.src, m.eng, m.seq))).Nodup) :
    let u := (applyMembers ty sgn a ms s).1
    leNat (memGet u a 8) = ms.foldl (fun v m => atomicNew ty sgn v (m.v % 2 ^ 64)) (leNat (memGet s a 8)) ∧
    (∀ x, x < a ∨ a + 8 ≤ x → memByte u x = memByte s x) ∧ u.threads = s.threads := by
  induction ms generalizing s with
  | nil => exact ⟨rfl, fun _ _ => rfl, rfl⟩
  | cons m ms ih =>
    rw [List.map_cons, List.nodup_cons] at hnodup
    obtain ⟨hfresh, hrest⟩ := hnodup
    have hnext : ∀ x ∈ ms, cached (appliedMember ty sgn a m s) x.src x.eng x.seq = none := fun x hx => by
      rw [← hnew x (List.mem_cons_of_mem _ hx)]
      exact cached_append_ne fun heq => hfresh (heq ▸ List.mem_map_of_mem hx)
    obtain ⟨hword, hframe, hth⟩ := ih (appliedMember_inv h) hnext hrest
    rw [applyMembers_new (hnew m List.mem_cons_self)]
    refine ⟨?_, fun x hx => ?_, hth⟩
    · rw [hword, word_appliedMember h, List.foldl_cons]
    · rw [hframe x hx]
      exact memByte_memPut_out h a _ x (by rwa [length_leBytes])

end

end Sys2Proof.Machine
end

section
/-! Atomics and compare-and-swaps that are served (R216, R254, R260, R267, R274). -/

namespace Sys2Proof.Machine

/-- R274: the members of an atomic that the reply cache does not hold. -/
def freshMembers (s : State) (p : Pkt) : Nat := (p.mem.filter (fun m => (cached s m.src m.eng m.seq).isNone)).length

/-- R216: what a target reads for a request of `n` bytes. -/
def targetRead (s : State) (p : Pkt) (n : Nat) : State × (List Byte × Bool) := physRead (takeRx s p) (netSrc s p) p.addr n

section
variable (s : State) (p : Pkt) (n : Nat)
theorem targetRead_inv (h : s.Inv) : (targetRead s p n).1.Inv := physRead_inv (takeRx_kept s p (inv_kept h)).2 ..
theorem targetRead_rcache : (targetRead s p n).1.rcache = s.rcache := rcache_of_outside (s := takeRx s p) (outside_physRead ..)
theorem targetRead_ltc : (targetRead s p n).1.ltc = s.ltc := ltc_of_outside (s := takeRx s p) (outside_physRead ..)
theorem targetRead_threads : (targetRead s p n).1.threads = s.threads := threads_of_outside (s := takeRx s p) (outside_physRead ..)
/-- R269: a read moves no domain's partition. -/
theorem netSrc_targetRead (h : s.Inv) (q : Pkt) : netSrc (targetRead s p n).1 q = netSrc s q := by
  have hpart : partOfDomain (targetRead s p n).1 q.dom = partOfDomain s q.dom := by
    unfold partOfDomain
    refine List.find?_congr fun i hi => ?_
    have hi : i < 8 := List.mem_range.1 hi
    have hrd : rd (targetRead s p n).1 (R.SCF_DOMAIN i) = rd s (R.SCF_DOMAIN i) :=
      rd_physRead _ (takeRx_kept s p (inv_kept h)).2 _ _ _ (lineReg_fabric (by rw [R.SCF_DOMAIN]; omega) (by rw [R.SCF_DOMAIN]; omega))
    rw [rdf, rdf, hrd]
  rw [netSrc, netSrc, hpart]
theorem cached_targetRead (src eng seq : Nat) : cached (targetRead s p n).1 src eng seq = cached s src eng seq := cached_congr (targetRead_rcache ..)
end

/-- R76, R254: what the seven atomics make of the old value and an operand. -/
theorem atomicNew_cases {c : Pkt → Bool → Instr} {ty : Nat} {new : Bool → Nat → Nat → Nat}
    (h : (c, ty, new) = (Instr.pktAdd, 0x08, fun (_ : Bool) (old v : Nat) => (old + v) % 2 ^ 64) ∨
     (c, ty, new) = (Instr.pktMin, 0x09, fun (g : Bool) (old v : Nat) => if (if g then sext 64 v < sext 64 old else v < old) then v else old) ∨
     (c, ty, new) = (Instr.pktMax, 0x0A, fun (g : Bool) (old v : Nat) => if (if g then sext 64 old < sext 64 v else old < v) then v else old) ∨
     (c, ty, new) = (Instr.pktAnd, 0x0B, fun (_ : Bool) (old v : Nat) => old &&& v) ∨ (c, ty, new) = (Instr.pktOr, 0x0C, fun (_ : Bool) (old v : Nat) => old ||| v) ∨
     (c, ty, new) = (Instr.pktXor, 0x0D, fun (_ : Bool) (old v : Nat) => old ^^^ v) ∨ (c, ty, new) = (Instr.pktSwap, 0x0E, fun (_ : Bool) (_ v : Nat) => v)) :
    (∀ s p, exec (c p false) s = atomicAt ty p false s) ∧ new = atomicNew ty := by
  rcases h with h | h | h | h | h | h | h <;> cases h <;> refine ⟨fun _ _ => rfl, funext fun g => funext fun old => funext fun v => ?_⟩
  case inr.inl => cases g <;> simp [atomicNew]
  case inr.inr.inl => cases g <;> simp [atomicNew]
  all_goals rfl

section
variable {s : State} {p : Pkt} {m : Member}
/-! R274: what the members of an atomic come to, by the tags that the cache holds. -/
theorem freshMembers_all (hnew : ∀ m ∈ p.mem, cached s m.src m.eng m.seq = none) : freshMembers s p = p.mem.length := by
  rw [freshMembers, List.filter_eq_self.2 fun m hm => by rw [hnew m hm]; rfl]
theorem freshMembers_one (hmem : p.mem = [m]) : freshMembers s p = if (cached s m.src m.eng m.seq).isNone then 1 else 0 := by
  rw [freshMembers, hmem, List.filter_cons]
  split <;> rfl

variable {ty : Nat} (hs : Served s p ty 8 true) (hal : p.addr % 8 = 0)
include hs hal

/-- R260, R267, R274, R385: an atomic that is served and aligned, with room for its new members. -/
theorem atomicAt_of_served (hroom : s.rcache.length + freshMembers s p ≤ 16384) : atomicAt ty p false s = .next (
    if ((targetRead s p 8).2.2 && freshMembers s p != 0) = true then answerBad (targetRead s p 8).1 p 0x2B 0x12 none
    else emit (if freshMembers s p = 0 then (applyMembers ty p.sgn p.addr p.mem (targetRead s p 8).1).1
        else wrote (applyMembers ty p.sgn p.addr p.mem (targetRead s p 8).1).1 (netSrc s p) p.addr 8)
      (replyTo s p 0x22 0 (applyMembers ty p.sgn p.addr p.mem (targetRead s p 8).1).2 [] false)) := by
  have hroom' : ¬ 16384 < (takeRx s p).rcache.length + freshMembers s p := Nat.not_lt.2 hroom
  have hal' : ¬ p.addr % 8 ≠ 0 := fun h => h hal
  rw [atomicAt, onRequest_of_served hs]
  exact congrArg _ ((if_neg hroom').trans (if_neg hal'))

/-- R260, R267, R274: one member of a new tag. -/
theorem atomicAt_new (hm : p.mem = [m]) (hnew : cached s m.src m.eng m.seq = none) (hroom : s.rcache.length < 16384) : atomicAt ty p false s = .next (
    if (targetRead s p 8).2.2 then answerBad (targetRead s p 8).1 p 0x2B 0x12 none
    else emit (wrote (appliedMember ty p.sgn p.addr m (targetRead s p 8).1) (netSrc s p) p.addr 8)
      (replyTo s p 0x22 0 [{ m with v := leNat (memGet (targetRead s p 8).1 p.addr 8) }] [] false)) := by
  have hfresh : freshMembers s p = 1 := by rw [freshMembers_one hm, hnew]; rfl
  rw [atomicAt_of_served hs hal (by omega), hfresh, hm, applyMembers_new ((cached_targetRead ..).trans hnew), applyMembers, Bool.and_comm]
  rfl

/-- R267, R274: one member of a tag that the cache holds. -/
theorem atomicAt_cached {v : Nat} (hm : p.mem = [m]) (hcached : cached s m.src m.eng m.seq = some v) (hroom : s.rcache.length ≤ 16384) :
    atomicAt ty p false s = .next (emit (addSat (targetRead s p 8).1 R.SCF_RCACHE 16 32 1) (replyTo s p 0x22 0 [{ m with v := v }] [] false)) := by
  have hfresh : freshMembers s p = 0 := by rw [freshMembers_one hm, hcached]; rfl
  rw [atomicAt_of_served hs hal (by omega), hfresh, hm, applyMembers_cached ((cached_targetRead ..).trans hcached), applyMembers, Bool.and_comm]
  rfl

/-- R267, R274: members of new tags, each tag once. -/
theorem atomicAt_all_new (hinv : s.Inv) (hnew : ∀ m ∈ p.mem, cached s m.src m.eng m.seq = none)
    (hnodup : (p.mem.map (fun m => (m.src, m.eng, m.seq))).Nodup) (hroom : s.rcache.length + p.mem.length ≤ 16384) (hclean : (targetRead s p 8).2.2 = false) :
    ∃ u, atomicAt ty p false s = .next u ∧
      leNat (memGet u p.addr 8) = p.mem.foldl (fun v m => atomicNew ty p.sgn v (m.v % 2 ^ 64)) (leNat (memGet (targetRead s p 8).1 p.addr 8)) ∧
      (∀ a, a < p.addr ∨ p.addr + 8 ≤ a → memByte u a = memByte (targetRead s p 8).1 a) ∧ u.threads = s.threads := by
  obtain ⟨hword, hframe, hth⟩ := applyMembers_all_new (ty := ty) (sgn := p.sgn) (a := p.addr) (targetRead_inv s p 8 hinv)
    (fun m hm => (cached_targetRead ..).trans (hnew m hm)) hnodup
  rw [targetRead_threads] at hth
  refine ⟨_, atomicAt_of_served hs hal (by rwa [freshMembers_all hnew]), ?_⟩
  rw [hclean, Bool.false_and, if_neg Bool.false_ne_true]
  generalize (applyMembers ty p.sgn p.addr p.mem (targetRead s p 8).1).1 = q at hword hframe hth ⊢
  have hwrote : (if freshMembers s p = 0 then q else wrote q (netSrc s p) p.addr 8).mem = q.mem ∧
      (if freshMembers s p = 0 then q else wrote q (netSrc s p) p.addr 8).undef = q.undef ∧
      (if freshMembers s p = 0 then q else wrote q (netSrc s p) p.addr 8).threads = q.threads := by
    split
    · exact ⟨rfl, rfl, rfl⟩
    · exact ⟨wrote_mem .., wrote_undef .., wrote_threads ..⟩
  obtain ⟨hmem, hundef, hthreads⟩ := hwrote
  exact ⟨(congrArg leNat (memGet_of_mem hmem hundef _ _)).trans hword, fun a ha => (memByte_of_mem hmem hundef a).trans (hframe a ha), hthreads.trans hth⟩

end

theorem remoteAtomicTargets : Sys2Proof.Parts.RemoteAtomicTargets := by
  intro c ty new h s p hinv hs hal
  obtain ⟨hexec, rfl⟩ := atomicNew_cases h
  rw [hexec]
  refine ⟨fun m hm hnew hroom hclean => ?_, fun m hm hnew hroom hpois => ?_, fun m v hm hcached hroom => atomicAt_cached hs hal hm hcached hroom,
    fun hnew hnodup hroom hclean => atomicAt_all_new hs hal hinv hnew hnodup hroom hclean⟩
  · have hread : ¬ (targetRead s p 8).2.2 = true := Bool.eq_false_iff.1 hclean
    rw [atomicAt_new hs hal hm hnew hroom, if_neg hread, appliedMember, targetRead_rcache, targetRead_ltc]
    rfl
  · rw [atomicAt_new hs hal hm hnew hroom]
    exact congrArg _ (if_pos hpois)

/-- R76, R265, R274: a compare-and-swap that is served. -/
theorem casAt_cached {s : State} {p : Pkt} {ty n v : Nat} (hs : Served s p ty n true) (hcached : cached s p.src p.eng p.seq = some v) :
    casAt ty n p false s = .next (emit (addSat (takeRx s p) R.SCF_RCACHE 16 32 1) (replyTo s p 0x22 0 [] (leBytes n v) false)) := by
  have hcached' : cached (takeRx s p) p.src p.eng p.seq = some v := hcached
  rw [casAt, onRequest_of_served hs]
  simp only [hcached']
  rfl

/-- R76, R216: what a compare-and-swap leaves in memory. -/
def swapped (s : State) (p : Pkt) (n : Nat) : State :=
  if leNat (targetRead s p n).2.1 = leNat (p.data.take n) then physWrite (targetRead s p n).1 (netSrc s p) p.addr (padTo n (p.data.drop n))
  else (targetRead s p n).1

theorem outside_swapped (s : State) (p : Pkt) (n : Nat) : outside (swapped s p n) = outside (takeRx s p) := by
  unfold swapped
  split
  · exact (outside_physWrite ..).trans (outside_physRead ..)
  · exact outside_physRead ..

/-- R274: the old value joins the cache `es` under the request's tag, and answers. -/
def answerOld (s : State) (es : List RcEntry) (now : Word) (p : Pkt) (n old : Nat) : State :=
  emit { s with rcache := es ++ [⟨p.src, p.eng, p.seq, old, now.toNat⟩] } (replyTo s p 0x22 0 [] (leBytes n old) false)

/-- R76, R265, R274: a compare-and-swap of a new tag that is aligned, once its target is read. -/
theorem casAt_new_eq {s : State} {p : Pkt} {ty n : Nat} (hs : Served s p ty n true) (hnew : cached s p.src p.eng p.seq = none)
    (hinv : s.Inv) (hroom : s.rcache.length < 16384) (hal : p.addr % n = 0) : casAt ty n p false s = .next (
      if (targetRead s p n).2.2 then answerBad (targetRead s p n).1 p 0x2B 0x12 none
      else answerOld (swapped s p n) (swapped s p n).rcache (swapped s p n).ltc p n (leNat (targetRead s p n).2.1)) := by
  have hnew' : cached (takeRx s p) p.src p.eng p.seq = none := hnew
  have hroom' : ¬ 16384 ≤ (takeRx s p).rcache.length := Nat.not_le.2 hroom
  have hal' : ¬ p.addr % n ≠ 0 := fun h => h hal
  rw [casAt, onRequest_of_served hs]
  simp only [hnew', if_neg hroom', if_neg hal']
  unfold swapped
  rw [← netSrc_targetRead s p n hinv p]
  rfl

theorem casAt_new {s : State} {p : Pkt} {ty n : Nat} (hs : Served s p ty n true) (hnew : cached s p.src p.eng p.seq = none) (hinv : s.Inv)
    (hroom : s.rcache.length < 16384) (hal : p.addr % n = 0) (hclean : (targetRead s p n).2.2 = false) :
    let old := leNat (targetRead s p n).2.1
    casAt ty n p false s = .next (emit { swapped s p n with rcache := s.rcache ++ [⟨p.src, p.eng, p.seq, old, s.ltc.toNat⟩] }
      (replyTo (swapped s p n) p 0x22 0 [] (leBytes n old) false)) := by
  intro old
  have hrcache : (swapped s p n).rcache = s.rcache := rcache_of_outside (s := takeRx s p) (outside_swapped ..)
  have hltc : (swapped s p n).ltc = s.ltc := ltc_of_outside (s := takeRx s p) (outside_swapped ..)
  rw [casAt_new_eq hs hnew hinv hroom hal, if_neg (Bool.eq_false_iff.1 hclean), hrcache, hltc]
  rfl

theorem compareAndSwapTargets : Sys2Proof.Parts.CompareAndSwapTargets := by
  refine ⟨fun c ty n h s p hinv hs => ?_, fun _ _ _ _ => rfl⟩
  have hexec : exec (c p false) s = casAt ty n p false s := by rcases h with h | h <;> cases h <;> rfl
  rw [hexec]
  exact ⟨fun v hcached => casAt_cached hs hcached, fun hnew hroom hal hclean => casAt_new hs hnew hinv hroom hal hclean⟩

/-- Settles O30: the members of an atomic by `applyMembers_all_new` and the case of one member, a compare-and-swap by what its read finds. -/
theorem atomicsAtTarget : Obligations.AtomicsAtTarget := ⟨remoteAtomicTargets, compareAndSwapTargets⟩

end Sys2Proof.Machine
end

section
/-! Replies at the source, and requests sent again (R77, R178, R243, R262-R267, R273, R275, R354). -/

namespace Sys2Proof.Machine

/-- R255: the second byte of a reply's address. -/
theorem nfld_next_byte (v : Nat) : nfld v 8 8 = v / 256 % 256 := by
  rw [nfld, Nat.shiftRight_eq_div_pow]
  rfl

section
variable {s : State} {p : Pkt} {ty : Nat} (hissue : issuing s = true) (hdst : p.dst = ownCoord s) (hty : p.ty = ty) (f : State → OutReq → State)
include hissue hdst hty

theorem onReply_eq : onReply ty p f s = .next (ckpPump (
    if p.eng = 0xFFF then
      (match s.slots.find? (fun c => c.seq == p.seq) with
       | some c => splitReply (takeRx s p) c p
       | none => takeRx s p)
    else match reqOf s p.eng p.seq with
      | none => takeRx s p
      | some r => f (takeRx s p) r)) := by
  have hgo : (!issuing s || p.ty != ty || p.dst != ownCoord s) = false := by simp [hissue, hdst, hty]
  rw [onReply, if_neg (Bool.eq_false_iff.1 hgo)] <;> rfl

/-- R266, R267: the reply of a combined request. -/
theorem onReply_slot {slot : CombSlot} (heng : p.eng = 0xFFF) (hslot : s.slots.find? (fun c => c.seq == p.seq) = some slot) :
    onReply ty p f s = .next (ckpPump (splitReply (takeRx s p) slot p)) := by
  rw [onReply_eq hissue hdst hty, if_pos heng, hslot]

theorem onReply_noSlot (heng : p.eng = 0xFFF) (hslot : s.slots.find? (fun c => c.seq == p.seq) = none) :
    onReply ty p f s = .next (ckpPump (takeRx s p)) := by
  rw [onReply_eq hissue hdst hty, if_pos heng, hslot]

theorem onReply_noReq (heng : p.eng ≠ 0xFFF) (hreq : reqOf s p.eng p.seq = none) : onReply ty p f s = .next (ckpPump (takeRx s p)) := by
  rw [onReply_eq hissue hdst hty, if_neg heng, hreq]

/-- R262-R267: the reply of an outstanding request ends it as its type says. -/
theorem onReply_req {r : OutReq} (heng : p.eng ≠ 0xFFF) (hreq : reqOf s p.eng p.seq = some r) :
    onReply ty p f s = .next (ckpPump (f (takeRx s p) r)) := by
  rw [onReply_eq hissue hdst hty, if_neg heng, hreq]

end

/-- R254: each type of reply is served by `onReply`, whatever it does to its request. -/
theorem exec_reply {c : Pkt → Instr} {ty : Nat} (h : (c, ty) = (Instr.pktData, 0x20) ∨ (c, ty) = (Instr.pktAck, 0x21) ∨ (c, ty) = (Instr.pktValue, 0x22) ∨
    (c, ty) = (Instr.pktNackBusy, 0x28) ∨ (c, ty) = (Instr.pktNackDomain, 0x29) ∨ (c, ty) = (Instr.pktUnreachable, 0x2A) ∨ (c, ty) = (Instr.pktFault, 0x2B))
    (p : Pkt) (s : State) : ∃ f, exec (c p) s = onReply ty p f s := by
  rcases h with h | h | h | h | h | h | h <;> cases h
  · exact ⟨_, show execPktData p s = _ from rfl⟩
  · exact ⟨_, show execPktAck p s = _ from rfl⟩
  · exact ⟨_, show execPktValue p s = _ from rfl⟩
  · exact ⟨_, show execPktNackBusy p s = _ from rfl⟩
  · exact ⟨_, show execPktNackDomain p s = _ from rfl⟩
  · exact ⟨_, show execPktUnreachable p s = _ from rfl⟩
  · exact ⟨_, show execPktFault p s = _ from rfl⟩

/-- R265: three types of reply end a request with the status and cause they carry. -/
theorem exec_refusal {c : Pkt → Instr} {ty : Nat}
    (h : (c, ty) = (Instr.pktNackDomain, 0x29) ∨ (c, ty) = (Instr.pktUnreachable, 0x2A) ∨ (c, ty) = (Instr.pktFault, 0x2B)) (p : Pkt) (s : State) :
    exec (c p) s = onReply ty p (fun s r => reqFail s r (p.addr % 256) (p.addr / 256 % 256)) s := by
  simp only [← nfld_next_byte]
  rcases h with h | h | h <;> cases h <;> rfl

section
variable {s : State} {p : Pkt} {r : OutReq} (hissue : issuing s = true) (hdst : p.dst = ownCoord s) (heng : p.eng ≠ 0xFFF) (hreq : reqOf s p.eng p.seq = some r)
include hissue hdst heng hreq

/-- R203, R262-R265, R354: DATA comes to the request that asked for its line. -/
theorem exec_pktData (hty : p.ty = 0x20) :
    let sd := reqMove (takeRx s p) r 64 false
    exec (.pktData p) s = .next (ckpPump (match r.kind with
      | .xfer id i => (match landLine sd r id i (padTo 64 p.data) p.pois with
          | (s2, .ok ()) => s2
          | (_, _) => s)
      | .gather => moreLines (gatherGot (dropReq sd r) r.key r.va (.data (padTo 64 p.data) p.pois)) r.key
      | .get q tile i => modGet (dropReq sd r) r.key q tile (fun g =>
          { g with lines := (List.range g.lines.length).zip g.lines |>.map (fun (l : Nat × Nat × Option (List Byte × Bool)) =>
              if l.1 = i then (l.2.1, some (padTo 64 p.data, p.pois)) else l.2) })
      | .halo svu => { dropReq sd r with mail := sd.mail ++ [⟨0, svu, r.va, .data (padTo 64 p.data) p.pois⟩] }
      | .mirror part => { dropReq sd r with mail := sd.mail ++ [⟨1, part, r.va, .data (padTo 64 p.data) p.pois⟩] }
      | .atomic _ _ => sd
      | .put _ _ => sd
      | .mwrite _ => sd)) := by
  show execPktData p s = _
  rw [execPktData, onReply_req hissue hdst hty _ heng hreq] <;> rfl

/-- R262: ACK comes to the request whose line it counts. -/
theorem exec_pktAck (hty : p.ty = 0x21) : exec (.pktAck p) s = .next (ckpPump (match r.kind with
    | .xfer id _ => moreLines (settle (modXfer (dropReq (match s.xfers.find? (fun x => x.id == id) with
        | some x => arrive (takeRx s p) r.key x.gen x.cnt
        | none => takeRx s p) r) id (fun y => { y with out := y.out - 1 })) r.key) r.key
    | .put id _ => settle (modPut (dropReq (takeRx s p) r) id (fun t => { t with left := t.left - 1 })) r.key
    | .mwrite _ => dropReq (takeRx s p) r
    | _ => takeRx s p)) := by
  show execPktAck p s = _
  rw [execPktAck, onReply_req hissue hdst hty _ heng hreq]
  rfl

/-- R77: VALUE ends an atomic with its old value. -/
theorem exec_pktValue {d : Nat} {wide : Bool} (hty : p.ty = 0x22) (hkind : r.kind = .atomic d wide) :
    exec (.pktValue p) s = .next (ckpPump (atomicEnd (dropReq (reqMove (takeRx s p) r (if wide then 16 else 8) false) r) r.key r.gen d wide 0
      (if bundled r.pkt.ty then ((p.mem.head?).map (·.v)).getD 0 else leNat p.data))) := by
  show execPktValue p s = _
  rw [execPktValue, onReply_req hissue hdst hty _ heng hreq]
  simp only [hkind]

/-- R273: NACK_BUSY sets the time to try again, or at the eighth ends its request. -/
theorem exec_pktNackBusy (hty : p.ty = 0x28) : exec (.pktNackBusy p) s = .next (ckpPump (
    if 7 ≤ r.nacks then reqFail (addSat (takeRx s p) R.SCF_NACK 32 32 1) r 0x20 (p.addr / 256 % 256)
    else { takeRx s p with reqs := s.reqs.map (fun x =>
      if x = r then { r with nacks := r.nacks + 1, hint := some (s.ltc.toNat + 100 * (p.addr % 256)) } else x) })) := by
  show execPktNackBusy p s = _
  rw [execPktNackBusy, onReply_req hissue hdst hty _ heng hreq, ← nfld_next_byte]
  simp only [Nat.succ_le_succ_iff]
  rfl

end

theorem repliesAtSource : Sys2Proof.Parts.RepliesAtSource := by
  intro s p _ hissue hdst s0
  refine ⟨fun c ty hc hty => ?_, fun r heng hreq => ?_⟩
  · obtain ⟨f, hexec⟩ := exec_reply hc p s
    rw [hexec]
    exact ⟨fun slot => onReply_slot hissue hdst hty f, onReply_noSlot hissue hdst hty f, onReply_noReq hissue hdst hty f⟩
  · have hdata := exec_pktData hissue hdst heng hreq
    have hack := exec_pktAck hissue hdst heng hreq
    have hnack := exec_pktNackBusy hissue hdst heng hreq
    dsimp only at hdata
    intro sd
    refine ⟨fun id i s1 hty hkind hland => ?_, fun id i s1 hty hkind hland => ?_, fun hty hkind => ?_, fun q tile i hty hkind => ?_, fun svu hty hkind => ?_,
      fun part hty hkind => ?_, fun id hty hkind => ?_, fun id i x hty hkind hx => ?_, fun id i hty hkind => ?_,
      fun d wide hty hkind => exec_pktValue hissue hdst heng hreq hty hkind, fun hty hfew => ?_, fun hty hmany => ?_, fun c ty hc hty => ?_⟩
    · have hland : landLine (reqMove (takeRx s p) r 64 false) r id i (padTo 64 p.data) p.pois = (s1, .ok ()) := hland
      simp only [hdata hty, hkind, hland]
    · have hland : landLine (reqMove (takeRx s p) r 64 false) r id i (padTo 64 p.data) p.pois = (s1, .wait) := hland
      simp only [hdata hty, hkind, hland]
    · rw [hdata hty, hkind]
    · rw [hdata hty, hkind]
    · rw [hdata hty, hkind]
    · rw [hdata hty, hkind]
    · rw [hack hty, hkind]
    · simp only [hack hty, hkind, hx]
      rfl
    · rw [hack hty, hkind]
    · rw [hnack hty, if_neg (Nat.not_le.2 hfew)]
      rfl
    · rw [hnack hty, if_pos hmany]
    · rw [exec_refusal hc, onReply_req hissue hdst hty _ heng hreq]

theorem resends : Sys2Proof.Parts.Resends := by
  intro s eng seq r _ hissue hreq p again
  have hgo : ¬ (!issuing s) = true := by simp [hissue]
  have hretry : exec (.retryAfterExpiry eng seq) s = .next (match r.hint with
      | some t => if t ≤ s.ltc.toNat then resend s r true else s
      | none => s) := by
    show execRetryAfterExpiry eng seq s = _
    rw [execRetryAfterExpiry, if_neg hgo, hreq] <;> rfl
  have htimeout : exec (.resendTimeout eng seq) s = .next (ckpPump (
      if r.hint.isSome ∨ s.ltc.toNat < r.sent + 20000 then s
      else if r.resends < 4 then resend s r false
      else if isAtomic r then reqFail s r 0x23 0x59
      else reqFail s r 0x22 0x59)) := by
    show execResendTimeout eng seq s = _
    rw [execResendTimeout, if_neg hgo, hreq]
  refine ⟨fun at_ hhint hcome => ?_, fun at_ hhint hwait => ?_, fun hhint hlate hfew => ?_, fun hhint hlate hmany => ?_, fun hearly => ?_⟩
  · simp only [hretry, hhint, if_pos hcome]
    rfl
  · simp only [hretry, hhint, if_neg (Nat.not_le.2 hwait)]
  · rw [htimeout, if_neg (by simp [hhint, hlate]), if_pos hfew]
    rfl
  · rw [htimeout, if_neg (by simp [hhint, hlate]), if_neg (Nat.not_lt.2 hmany), ← apply_ite (reqFail s r · 0x59)]
  · rw [htimeout, if_pos (.inr hearly)]

/-- Settles O32: a reply by the kind of the request it answers, a request sent again by the time it was sent. -/
theorem repliesAndResends : Obligations.RepliesAndResends := ⟨repliesAtSource, resends⟩

end Sys2Proof.Machine
end

section
/-! EWE.REXEC and RDU.RREG (R80, R129, R145, R146, R156). -/

namespace Sys2Proof.Machine

theorem setNc_setNc {s : State} (h : s.Inv) (k : Nat) (m n : NCore) : setNc (setNc s k m) k n = setNc s k n := by
  have hset := sset_sset (fun _ => ncore0) k m n s.ncores h.ncores
  simp [setNc, hset]

/-- A write of what is there changes nothing. -/
theorem sset_sget {α : Type} [DecidableEq α] (d : α) (k : Nat) (m : Sparse α) (h : swf (fun _ => d) m = true) : sset d m k (sget d m k) = m := by
  refine swf_ext (fun _ => d) _ _ (swf_sset (fun _ => d) k _ m h) h fun j => ?_
  by_cases hj : j = k
  · subst hj
    exact sget_sset_same (fun _ => d) j _ m h
  · exact sget_sset_ne (fun _ => d) k j _ m h hj

theorem setNc_nc {s : State} (h : s.Inv) (k : Nat) : setNc s k (nc s k) = s := by rw [setNc, nc, sset_sget ncore0 k s.ncores h.ncores]

/-- R102: a counter value that is taken moves a register alone. -/
@[simp] theorem th_takeFor (nctl : NumCtl) (ctx : Nat) (s : State) (k : Nat) : th (takeFor nctl ctx s).2 k = th s k := by
  unfold takeFor
  split <;> rfl

theorem spend_inv {s : State} (h : s.Inv) (n : Nat) : (spend s n).Inv := { h with }
theorem th_spend (s : State) (n k : Nat) : th (spend s n) k = th s k := rfl

/-- R80, R81: a thread that keeps its registers retires with its counts. -/
theorem finish_counted {s u : State} (h : u.Inv) (k cls : Nat) (c : Cnt) (hth : th u k = th s k) : finish k cls (.done (putCounted u k (th u k) cls c)) =
    countNum (setTh u k { setNstat (th s k) cls c with pc := (th s k).pc + 8 }) (th s k).ctx c := by
  rw [finish_putCounted h, hth]

/-- R146: what EWE.REXEC waits for, once it may run. -/
def rexecBusy (n : NCore) (o : Opnds) (p : Prog) : Bool :=
  sweepReads n o.d.toNat || n.ewIn.any (fun ci => ci.d == o.d.toNat) || ([o.d.toNat, o.a.toNat, o.b.toNat] ++ p.eRegs).any (pendingWrites n)

/-- An element register as the tile that a program runs on. -/
def regTile (n : NCore) (i : Nat) : Tile := ⟨5, false, false, 1, 64, 0, 0, false, cutCodes 32 64 (er n i).toNat, [], false⟩

/-- A value over the low `w` bits of a register, which keeps the others. -/
def overLow (w v : Nat) (old : BitVec 2048) : BitVec 2048 := BitVec.ofNat 2048 (v + old.toNat / 2 ^ w * 2 ^ w)

/-- R146: EWE.REXEC runs, in `u` with its units spent: the packed results over the low bits of eD, and what they count. -/
def rexecRun (s u : State) (k : Nat) (o : Opnds) (nctl : NumCtl) (p : Prog) : State × Cnt :=
  let n := nc s k
  let r := runTile n p (regTile n o.a.toNat) (some (regTile n o.b.toNat)) [] false s.free
  let rng := takeFor nctl (th s k).ctx u
  let F := (fmtOfCode p.ofmt).getD fmtFP32
  let q := convAll F nctl rng.1 0 r.1
  (setNc rng.2 k (setE n o.d.toNat (overLow (64 * F.bits) (joinCodes F.bits q.1) (er n o.d.toNat))), ⟨q.2.sat, 0, r.2 + q.2.nan⟩)

theorem rexecRun_inv {u : State} (h : u.Inv) (s : State) (k : Nat) (o : Opnds) (nctl : NumCtl) (p : Prog) : (rexecRun s u k o nctl p).1.Inv := by
  rw [rexecRun]
  exact setNc_inv _ _ (takeFor_inv h _ _)

theorem th_rexecRun (s u : State) (k : Nat) (o : Opnds) (nctl : NumCtl) (p : Prog) : th (rexecRun s u k o nctl p).1 k = th u k := by
  rw [rexecRun, th_setNc, th_takeFor]

section
variable {s : State} {t : Tid} {o : Opnds} (hiss : Issues s t o 0x0B (some ⟨32, 32, 32, 0, 0x1FF⟩) none)
include hiss

/-- R57, R146: a reserved numeric control is an illegal encoding. -/
theorem exec_eweRexec_reserved (hnum : numCtl (o.md.toNat / 8 % 64) = none) :
    exec (.eweRexec t o) s = .next (insnFault s (tkey t) 0x0B 0x11 0x11 0) := by
  have hmod : nfld o.md.toNat 3 6 = o.md.toNat / 8 % 64 := by rw [nfld, Nat.shiftRight_eq_div_pow]; rfl
  show execEweRexec t o s = _
  rw [execEweRexec, insnW_eq hiss, hmod, hnum, Option.isSome_none, if_neg Bool.false_ne_true]

/-- R146: EWE.REXEC waits for earlier ELEMENT instructions but stores, faults on a slot or program that it may not run, waits for its registers, or runs. -/
theorem exec_eweRexec {nctl : NumCtl} (h : s.Inv) (hnum : numCtl (o.md.toNat / 8 % 64) = some nctl) : exec (.eweRexec t o) s = .next (
    let k := tkey t
    if (nc s k).ewIn.any (fun ci => ci.op ≠ 0x0D) then s
    else match sget none (nc s k).ew.slots (o.md.toNat % 8) with
      | none => insnFault s k 0x0B 0x11 0x11 0
      | some p =>
        if p.reads 6 || p.reads 7 then insnFault s k 0x0B 0x11 0x11 0
        else if rexecBusy (nc s k) o p then s
        else countNum (setTh (rexecRun s (spend s 4096) k o nctl p).1 k { setNstat (th s k) 0x0B (rexecRun s (spend s 4096) k o nctl p).2 with pc := (th s k).pc + 8 })
          (th s k).ctx (rexecRun s (spend s 4096) k o nctl p).2) := by
  have hmod : nfld o.md.toNat 3 6 = o.md.toNat / 8 % 64 := by rw [nfld, Nat.shiftRight_eq_div_pow]; rfl
  have hslot : nfld o.md.toNat 0 3 = o.md.toNat % 8 := rfl
  show execEweRexec t o s = _
  rw [execEweRexec, insnW_eq hiss, hmod, hnum, Option.isSome_some, if_pos rfl]
  dsimp only
  rw [hmod, hslot, hnum]
  cases hprog : sget none (nc s (tkey t)).ew.slots (o.md.toNat % 8) with
  | none =>
    dsimp only
    split <;> rfl
  | some p =>
    dsimp only
    rw [← finish_counted (rexecRun_inv (spend_inv h 4096) s (tkey t) o nctl p) (tkey t) 0x0B _
      (by rw [th_rexecRun, th_spend])]
    rw [Nat.shiftRight_eq_div_pow, Nat.shiftLeft_eq]
    rw [rexecBusy]
    split
    · rfl
    · split
      · rfl
      · split <;> rfl

end

end Sys2Proof.Machine
end

section
/-! RDU.RREG, and EWE.REXEC clause by clause (R129, R145, R146, R156). -/

namespace Sys2Proof.Machine

section
variable {s : State} {t : Tid} {o : Opnds} (hiss : Issues s t o 0x0C (some ⟨32, 32, 0, 0, 0xF⟩) none)
include hiss

/-- R156: RDU.RREG faults on another operation than its six, waits for its register, or reduces it into fD. -/
theorem exec_rduRreg (h : s.Inv) : exec (.rduRreg t o) s = .next (
    let k := tkey t
    let r := rregResult (o.md.toNat % 16) ((List.range 64).map (fun i => f32 (eElem (nc s k) o.a.toNat i))) s.free
    if o.md.toNat % 16 ≤ 5 then
      if pendingWrites (nc s k) o.a.toNat then s
      else countNum (setTh (spend s 1) k { setNstat (setF (th s k) o.d.toNat (to64 r.1)) 0x0C ⟨0, 0, r.2⟩ with pc := (th s k).pc + 8 })
        (th s k).ctx ⟨0, 0, r.2⟩
    else insnFault s k 0x0C 0x11 0x11 0) := by
  show execRduRreg t o s = _
  rw [execRduRreg, insnW_eq hiss]
  dsimp only
  by_cases hop : o.md.toNat % 16 ≤ 5
  · rw [if_pos hop, if_pos (decide_eq_true hop)]
    split
    · rfl
    · rw [finish_putCounted (spend_inv h 1), th_spend, setF_pc]
      rfl
  · rw [if_neg hop, decide_eq_false hop, if_neg Bool.false_ne_true]

end

/-- Part of O20: programs and reductions on packed registers. -/
theorem registerPrograms : Parts.RegisterPrograms := by
  constructor
  · intro s t o h hiss
    refine ⟨exec_eweRexec_reserved hiss, fun nctl hnum => ?_⟩
    rw [exec_eweRexec hiss h hnum]
    dsimp only
    refine ⟨fun he => congrArg _ (if_pos he), fun he hs => ?_, fun p he hs => ⟨fun hr => ?_, fun h6 h7 hb => ?_, fun h6 h7 hb => ?_⟩⟩
    · rw [if_neg (ne_true_of_eq_false he), hs]
    · rw [if_neg (ne_true_of_eq_false he), hs]
      exact congrArg _ (if_pos (by simpa using hr))
    · rw [if_neg (ne_true_of_eq_false he), hs]
      dsimp only
      rw [if_neg (by simp [h6, h7]), rexecBusy, if_pos hb]
    · rw [if_neg (ne_true_of_eq_false he), hs]
      dsimp only
      rw [if_neg (by simp [h6, h7]), rexecBusy, if_neg (ne_true_of_eq_false hb)]
      rfl
  · intro s t o h hiss k r
    rw [exec_rduRreg hiss h]
    dsimp only
    refine ⟨fun hop => by rw [if_neg (by omega)], fun hop hp => by rw [if_pos hop, if_pos hp], fun hop hp => ?_⟩
    rw [if_pos hop, if_neg (ne_true_of_eq_false hp)]

end Sys2Proof.Machine
end

section
/-! MATRIX-class and TRESTLE-class instructions at their stations (R117, R124, R125, R129). -/

namespace Sys2Proof.Machine

section
variable {s : State} {core : Nat} {ci : ClassIns} {rest : List ClassIns} (hrun : stationsRun s core = true)
include hrun

theorem exec_matrixIns (hin : (nc s core).mxIn = ci :: rest) : exec (.classInstructionAtStation core 2) s = .next (
    let q := mxTake (nc s core) ci
    setNc s core (if q.2 then { q.1 with mxIn := rest } else q.1)) := by
  show execClassInstructionAtStation core 2 s = _
  simp only [execClassInstructionAtStation, hrun, Bool.not_true, Bool.false_eq_true, if_false, hin]

theorem exec_trestleIns (hin : (nc s core).trIn = ci :: rest) : exec (.classInstructionAtStation core 3) s = .next (
    let q := trTake (nc s core) ci
    setNc s core (if q.2 then { q.1 with trIn := rest } else q.1)) := by
  show execClassInstructionAtStation core 3 s = _
  simp only [execClassInstructionAtStation, hrun, Bool.not_true, Bool.false_eq_true, if_false, hin]

theorem exec_elementIns (hin : (nc s core).ewIn = ci :: rest) : exec (.classInstructionAtStation core 4) s = .next (
    match ewTake s core ci with
    | .wait => s
    | .ok u => setNc u core { nc u core with ewIn := rest }
    | .stop u status sub => streamFault u core 4 0 status sub 0) := by
  show execClassInstructionAtStation core 4 s = _
  simp only [execClassInstructionAtStation, hrun, Bool.not_true, Bool.false_eq_true, if_false, hin] <;> rfl

theorem exec_reduceIns (hin : (nc s core).rdIn = ci :: rest) : exec (.classInstructionAtStation core 5) s = .next (
    let q := rdTake s core ci
    if q.2 then setNc q.1 core { nc q.1 core with rdIn := rest } else q.1) := by
  show execClassInstructionAtStation core 5 s = _
  simp only [execClassInstructionAtStation, hrun, Bool.not_true, Bool.false_eq_true, if_false, hin]

end

theorem mxTake_swap {n : NCore} {ci : ClassIns} (hop : ci.op = 2) : mxTake n ci = ({ n with mx := { n.mx with swaps := n.mx.swaps + 1 }.doSwaps }, true) := if_pos hop

/-- R117: MXEND starts the readout of an open pass, and waits while one is under way. -/
theorem mxTake_end {n : NCore} {ci : ClassIns} (hop : ci.op = 4) : mxTake n ci =
    if n.mx.reading then (n, false)
    else if n.mx.opened then ({ n with mx := { n.mx with reading := true, lastRead := false } }, true)
    else (n, true) := by
  rw [mxTake, if_neg (by omega), if_pos hop]
  rfl

/-- R117: MXPASS waits while a pass leaves, starts the readout of an open one, waits for its group, and then is in force. -/
theorem mxTake_pass {n : NCore} {ci : ClassIns} (hop : ci.op ≤ 1) : mxTake n ci =
    if n.mx.reading || !n.mx.out.isEmpty then (n, false)
    else if n.mx.opened then ({ n with mx := { n.mx with reading := true, lastRead := false } }, false)
    else if heldByOther n (mxCfg ci.imm (ci.op == 1)).group 1 then (n, false)
    else ({ n with mx := { n.mx with cfg := some (ci.imm, ci.op == 1), blocks := 0 } }, true) := by
  rw [mxTake, if_neg (by omega), if_neg (by omega)]
  rfl

/-- R117: MXPASS waits while a pass leaves. -/
theorem mxTake_pass_leaving {n : NCore} {ci : ClassIns} (hop : ci.op ≤ 1) (hw : n.mx.reading = true ∨ n.mx.out ≠ []) : mxTake n ci = (n, false) := by
  rw [mxTake_pass hop, if_pos (by simpa using hw)]

/-- R129: TRSET waits for a readout, and for what the readout of the settings in force is still to write (log 64). -/
theorem trTake_wait {n : NCore} {ci : ClassIns} (hw : n.tr.reading = true ∨ trHazard n ci = true) : trTake n ci = (n, false) := by
  rw [trTake, if_pos (by simpa using hw)]

section
variable {n : NCore} {ci : ClassIns} (hread : n.tr.reading = false) (hhaz : trHazard n ci = false)
include hread hhaz

/-- R129: TREND reads the open sweep out. -/
theorem trTake_end (hop : ci.op = 4) : trTake n ci =
    (if (trNow n).isSome && n.tr.sweep then { n with tr := { n.tr with sweep := false, reading := true } } else n, true) := by
  rw [trTake, if_neg (by simp [hread, hhaz]), if_pos hop]
  split <;> rfl

/-- R129: TRSET with no sweep open waits for its accumulator, and then is in force. -/
theorem trTake_set (hop : ci.op ≤ 1) (hsweep : n.tr.sweep = false) : trTake n ci =
    if heldByOther n [(trCfg ci.imm ci.d (ci.op == 1)).acc] 2 then (n, false)
    else ({ n with tr := { n.tr with cfg := some (ci.imm, ci.d, ci.op == 1), used := false, tiles := 0, rowBase := 0 } }, true) := by
  rw [trTake, if_neg (by simp [hread, hhaz]), if_neg (by omega)]
  cases htr : trNow n <;> simp [hsweep, hread]

/-- R129: TRSET ends the open sweep; the readout of one that is read out comes first. -/
theorem trTake_set_sweep {c0 : TrCfg} (hop : ci.op ≤ 1) (hsweep : n.tr.sweep = true) (hnow : trNow n = some c0) : trTake n ci =
    if c0.read then ({ n with tr := { n.tr with sweep := false, reading := true } }, false)
    else if heldByOther n [(trCfg ci.imm ci.d (ci.op == 1)).acc] 2 then ({ n with tr := { n.tr with sweep := false, tiles := 0, rowBase := 0 } }, false)
    else ({ n with tr := { n.tr with sweep := false, cfg := some (ci.imm, ci.d, ci.op == 1), used := false, tiles := 0, rowBase := 0 } }, true) := by
  rw [trTake, if_neg (by simp [hread, hhaz]), if_neg (by omega)]
  cases hc : c0.read
  · simp only [hnow, hsweep, hc, if_true, Trestle.endSweep, Bool.false_eq_true, if_false, hread]
    rfl
  · simp [hnow, hsweep, hc, Trestle.endSweep]

end

/-- R117, R124, R125: a MATRIX-class instruction takes effect (part of O20). -/
theorem matrixIns_takes_effect {s : State} {core : Nat} {ci : ClassIns} {rest : List ClassIns} (hrun : stationsRun s core = true)
    (hin : (nc s core).mxIn = ci :: rest) :
    let n := nc s core
    let at2 := exec (.classInstructionAtStation core 2) s
    let group := (mxCfg ci.imm (ci.op == 1)).group
    (ci.op = 2 → at2 = .next (setNc s core { n with mx := { n.mx with swaps := n.mx.swaps + 1 }.doSwaps, mxIn := rest })) ∧
    (ci.op = 4 → n.mx.reading = true → at2 = .next (setNc s core n)) ∧
    (ci.op = 4 → n.mx.reading = false → n.mx.opened = true →
      at2 = .next (setNc s core { n with mx := { n.mx with reading := true, lastRead := false }, mxIn := rest })) ∧
    (ci.op = 4 → n.mx.reading = false → n.mx.opened = false → at2 = .next (setNc s core { n with mxIn := rest })) ∧
    (ci.op ≤ 1 → n.mx.reading = true ∨ n.mx.out ≠ [] → at2 = .next (setNc s core n)) ∧
    (ci.op ≤ 1 → n.mx.reading = false → n.mx.out = [] → n.mx.opened = true →
      at2 = .next (setNc s core { n with mx := { n.mx with reading := true, lastRead := false } })) ∧
    (ci.op ≤ 1 → n.mx.reading = false → n.mx.out = [] → n.mx.opened = false → heldByOther n group 1 = true → at2 = .next (setNc s core n)) ∧
    (ci.op ≤ 1 → n.mx.reading = false → n.mx.out = [] → n.mx.opened = false → heldByOther n group 1 = false →
      at2 = .next (setNc s core { n with mx := { n.mx with cfg := some (ci.imm, ci.op == 1), blocks := 0 }, mxIn := rest })) := by
  dsimp only
  rw [exec_matrixIns hrun hin]
  dsimp only
  refine ⟨fun hop => ?_, fun hop hr => ?_, fun hop hr ho => ?_, fun hop hr ho => ?_, fun hop hr => ?_, fun hop hr hout ho => ?_,
    fun hop hr hout ho hh => ?_, fun hop hr hout ho hh => ?_⟩
  · rw [mxTake_swap hop]
    rfl
  · simp [mxTake_end hop, hr]
  · simp [mxTake_end hop, hr, ho]
  · simp [mxTake_end hop, hr, ho]
  · rw [mxTake_pass_leaving hop hr]
    rfl
  · simp [mxTake_pass hop, hr, hout, ho]
  · simp [mxTake_pass hop, hr, hout, ho, hh]
  · simp [mxTake_pass hop, hr, hout, ho, hh]

/-- R125, R129: a TRESTLE-class instruction takes effect (part of O20). -/
theorem trestleIns_takes_effect {s : State} {core : Nat} {ci : ClassIns} {rest : List ClassIns} (hrun : stationsRun s core = true)
    (hin : (nc s core).trIn = ci :: rest) :
    let n := nc s core
    let at3 := exec (.classInstructionAtStation core 3) s
    let c := trCfg ci.imm ci.d (ci.op == 1)
    (n.tr.reading = true ∨ trHazard n ci = true → at3 = .next (setNc s core n)) ∧
    (n.tr.reading = false → trHazard n ci = false → ci.op = 4 → n.tr.sweep = true → (trNow n).isSome = true →
      at3 = .next (setNc s core { n with tr := { n.tr with sweep := false, reading := true }, trIn := rest })) ∧
    (∀ c0, n.tr.reading = false → trHazard n ci = false → ci.op ≤ 1 → n.tr.sweep = true → trNow n = some c0 → c0.read = true →
      at3 = .next (setNc s core { n with tr := { n.tr with sweep := false, reading := true } })) ∧
    (n.tr.reading = false → trHazard n ci = false → ci.op = 4 → n.tr.sweep = false → at3 = .next (setNc s core { n with trIn := rest })) ∧
    (∀ c0, n.tr.reading = false → trHazard n ci = false → ci.op ≤ 1 → n.tr.sweep = true → trNow n = some c0 → c0.read = false →
      let ended := { n.tr with sweep := false, tiles := 0, rowBase := 0 }
      at3 = .next (setNc s core (if heldByOther n [c.acc] 2 then { n with tr := ended }
        else { n with trIn := rest, tr := { ended with cfg := some (ci.imm, ci.d, ci.op == 1), used := false } }))) ∧
    (n.tr.reading = false → trHazard n ci = false → ci.op ≤ 1 → n.tr.sweep = false → heldByOther n [c.acc] 2 = true → at3 = .next (setNc s core n)) ∧
    (n.tr.reading = false → trHazard n ci = false → ci.op ≤ 1 → n.tr.sweep = false → heldByOther n [c.acc] 2 = false →
      at3 = .next (setNc s core { n with trIn := rest, tr := { n.tr with cfg := some (ci.imm, ci.d, ci.op == 1), used := false, tiles := 0, rowBase := 0 } })) := by
  dsimp only
  rw [exec_trestleIns hrun hin]
  dsimp only
  refine ⟨fun hw => ?_, fun hr hz hop hs hnow => ?_, fun c0 hr hz hop hs hnow hread => ?_, fun hr hz hop hs => ?_,
    fun c0 hr hz hop hs hnow hread => ?_, fun hr hz hop hs hh => ?_, fun hr hz hop hs hh => ?_⟩
  · rw [trTake_wait hw]
    rfl
  · simp [trTake_end hr hz hop, hs, hnow]
  · simp [trTake_set_sweep hr hz hop hs hnow, hread]
  · simp [trTake_end hr hz hop, hs]
  · rw [trTake_set_sweep hr hz hop hs hnow, if_neg (ne_true_of_eq_false hread)]
    split <;> rfl
  · simp [trTake_set hr hz hop hs, hh]
  · simp [trTake_set hr hz hop hs, hh]


end Sys2Proof.Machine
end

section
/-! Reads and writes of several lines, and ELEMENT-class instructions at their station (R139, R141, R144, R145, R385). -/

namespace Sys2Proof.Machine

theorem physReads_inv {s : State} (h : s.Inv) (src : Src) (step : Nat) (pas : List Nat) : (physReads s src step pas).1.Inv :=
  (physReads_kept s src step pas (inv_kept h)).2

@[simp] theorem cores_physReads (src : Src) (step : Nat) (pas : List Nat) : ∀ s, cores (physReads s src step pas).1 = cores s := by
  induction pas with
  | nil => exact fun _ => rfl
  | cons a pas ih => exact fun s => (ih (physRead s src a step).1).trans (cores_physRead ..)

/-- Writes of memory one after another, each of its bytes at its address. -/
def writeAll (src : Src) (ws : List (Nat × List Byte)) (s : State) : State := ws.foldl (fun s w => physWrite s src w.1 w.2) s

section
variable (src : Src)

theorem writeAll_cons (w : Nat × List Byte) (ws : List (Nat × List Byte)) (s : State) : writeAll src (w :: ws) s = writeAll src ws (physWrite s src w.1 w.2) := rfl

theorem cores_writeAll (ws : List (Nat × List Byte)) (s : State) : cores (writeAll src ws s) = cores s :=
  cores_foldl (fun _ _ => cores_physWrite ..) ws s

theorem regs_writeAll (ws : List (Nat × List Byte)) : ∀ s, (writeAll src ws s).regs = s.regs := by
  induction ws with
  | nil => exact fun _ => rfl
  | cons w ws ih => exact fun s => (ih _).trans (physWrite_regs ..)

theorem writeAll_inv (ws : List (Nat × List Byte)) : ∀ {s : State}, s.Inv → (writeAll src ws s).Inv := by
  induction ws with
  | nil => exact fun h => h
  | cons w ws ih => exact fun h => ih (physWrite_inv h ..)

theorem memByte_writeAll_out {x : Nat} (ws : List (Nat × List Byte)) (hx : ∀ w ∈ ws, x < w.1 ∨ w.1 + w.2.length ≤ x) :
    ∀ {s : State}, s.Inv → memByte (writeAll src ws s) x = memByte s x := by
  induction ws with
  | nil => exact fun _ => rfl
  | cons w ws ih =>
    intro s h
    rw [writeAll_cons, ih (fun v hv => hx v (List.mem_cons_of_mem _ hv)) (physWrite_inv h ..),
      memByte_physWrite_out h src w.1 w.2 (hx w List.mem_cons_self)]

/-- Of writes that do not meet, each is there in the end. -/
theorem memByte_writeAll_in {w : Nat × List Byte} {i : Nat} (hi : i < w.2.length) (ws : List (Nat × List Byte))
    (hapart : ws.Pairwise (fun v w => v.1 + v.2.length ≤ w.1 ∨ w.1 + w.2.length ≤ v.1)) (hw : w ∈ ws) :
    ∀ {s : State}, s.Inv → memByte (writeAll src ws s) (w.1 + i) = w.2[i] := by
  induction ws with
  | nil => exact absurd hw List.not_mem_nil
  | cons v ws ih =>
    intro s h
    obtain ⟨hv, hws⟩ := List.pairwise_cons.mp hapart
    rw [writeAll_cons]
    rcases List.mem_cons.mp hw with rfl | hmem
    · rw [memByte_writeAll_out src ws (fun v hv' => by have := hv v hv'; omega) (physWrite_inv h ..), memByte_physWrite_in h src _ _ hi]
    · exact ih hws hmem (physWrite_inv h ..)

end

/-- R144: the `i`th line of an element register, in memory's order. -/
def regLine (v : BitVec 2048) (i : Nat) : List Byte := ((leBytes 256 v.toNat).drop (64 * i)).take 64

theorem length_regLine (v : BitVec 2048) {i : Nat} (hi : i < 4) : (regLine v i).length = 64 := by
  rw [regLine, List.length_take, List.length_drop, length_leBytes]
  omega

theorem getElem_regLine (v : BitVec 2048) (i : Nat) {j : Nat} (hj : j < (regLine v i).length) : (regLine v i)[j] = (v >>> (8 * (64 * i + j))).truncate 8 := by
  simp only [regLine, List.getElem_take, List.getElem_drop, getElem_leBytes]
  refine BitVec.eq_of_toNat_eq ?_
  simp [Nat.shiftRight_eq_div_pow]

/-- The four writes of an EWE.STR. -/
def regLines (v : BitVec 2048) (pas : List Nat) : List (Nat × List Byte) := (List.range 4).map (fun i => (pas.getD i 0, regLine v i))

section
variable {pas : List Nat} (hlen : pas.length = 4) (halign : ∀ a ∈ pas, a % 64 = 0)
include hlen

theorem mem_of_mem_regLines {v : BitVec 2048} {w : Nat × List Byte} (hw : w ∈ regLines v pas) : w.1 ∈ pas ∧ w.2.length = 64 := by
  obtain ⟨i, hi, rfl⟩ := List.mem_map.mp hw
  have hi4 : i < 4 := List.mem_range.mp hi
  refine ⟨?_, length_regLine v hi4⟩
  rw [List.getD_eq_getElem _ _ (by omega)]
  exact List.getElem_mem _

include halign

/-- The lines of a store of distinct aligned lines do not meet. -/
theorem regLines_apart (hnodup : pas.Nodup) (v : BitVec 2048) :
    (regLines v pas).Pairwise (fun v w => v.1 + v.2.length ≤ w.1 ∨ w.1 + w.2.length ≤ v.1) := by
  refine List.pairwise_map.mpr (List.Pairwise.imp_of_mem ?_ List.pairwise_lt_range)
  intro i j hi hj hij
  have hi4 : i < 4 := List.mem_range.mp hi
  have hj4 : j < 4 := List.mem_range.mp hj
  dsimp only
  rw [length_regLine v hi4, length_regLine v hj4, List.getD_eq_getElem _ _ (by omega), List.getD_eq_getElem _ _ (by omega)]
  have hne : pas[i] ≠ pas[j] := fun he => absurd ((hnodup.getElem_inj_iff).mp he) (by omega)
  have hai := halign _ (List.getElem_mem (l := pas) (n := i) (by omega))
  have haj := halign _ (List.getElem_mem (l := pas) (n := j) (by omega))
  omega

end

section
variable {s : State} {core : Nat} {ci : ClassIns}

theorem ewTake_run (hop : ci.op ≤ 1) : ewTake s core ci = .ok (setNc s core { nc s core with ew := { (nc s core).ew with
    run := (ci.d, if ci.op = 1 then ci.a else 0), k := sset 0 (nc s core).ew.k 0 ci.imm } }) := if_pos hop

theorem ewTake_imm (hop : ci.op = 4) : ewTake s core ci = .ok (setNc s core { nc s core with ew := { (nc s core).ew with
    k := sset 0 (nc s core).ew.k ci.d ci.imm } }) := by
  rw [ewTake, if_neg (by omega), if_pos hop]

/-- The program that EWE.LDP reads. -/
def progOf (ci : ClassIns) (bs : List Byte) : Prog :=
  let ws := (List.range ci.pas.length).map (fun i => BitVec.ofNat 64 (leNat ((bs.drop (8 * i)).take 8)))
  ⟨ws.getD 0 0, ws.drop 1⟩

/-- An N-core with a program slot replaced. -/
def withSlot (n : NCore) (d : Nat) (v : Option Prog) : NCore := { n with ew := { n.ew with slots := sset none n.ew.slots d v } }

/-- R139: EWE.LDP loads a legal program, and empties the slot of another. -/
theorem ewTake_ldp {s1 : State} {bs : List Byte} {bad : Bool} (hop : ci.op = 8) (hread : physReads s (srcTh s core) 8 ci.pas = (s1, (bs, bad))) :
    ewTake s core ci =
      if bad then .stop s1 0x12 0
      else if (progOf ci bs).ok then .ok (setNc s1 core (withSlot (nc s1 core) ci.d (some (progOf ci bs))))
      else .stop (setNc s1 core (withSlot (nc s1 core) ci.d none)) 0x10 0x2A := by
  rw [ewTake, if_neg (by omega), if_neg (by omega), if_pos hop, hread]
  rfl

/-- R141, R144: EWE.LDR waits for its register and its lines, and loads it. -/
theorem ewTake_ldr {s1 : State} {bs : List Byte} {bad : Bool} (hop : ci.op = 0x0C) (hread : physReads s (srcTh s core) 64 ci.pas = (s1, (bs, bad))) :
    ewTake s core ci =
      if sweepReads (nc s core) ci.d || pendingWrites (nc s core) ci.d then .wait
      else if ci.pas.any (fun pa => lineWaits s (pa / 64)) then .wait
      else if bad then .stop s1 0x12 0
      else .ok (setNc s1 core (setE (nc s1 core) ci.d (BitVec.ofNat 2048 (leNat bs)))) := by
  rw [ewTake, if_neg (by omega), if_neg (by omega), if_neg (by omega), if_pos hop, hread]

/-- A core's own writes do not move whose they are. -/
theorem foldl_ownWrites {α : Type} (core : Nat) (pa : α → Nat) (bs : α → List Byte) (src : Src) (l : List α) :
    ∀ s, srcTh s core = src → l.foldl (fun s i => physWrite s (srcTh s core) (pa i) (bs i)) s = writeAll src (l.map (fun i => (pa i, bs i))) s := by
  induction l with
  | nil => exact fun _ _ => rfl
  | cons i l ih =>
    intro s hsrc
    rw [List.foldl_cons, List.map_cons, writeAll_cons, hsrc]
    exact ih _ ((srcTh_congr (physWrite_threads ..) (physWrite_regs ..) core).trans hsrc)

/-- R144: EWE.STR waits for its register and its lines, and stores it. -/
theorem ewTake_str (hop : ci.op = 0x0D) : ewTake s core ci =
    if pendingWrites (nc s core) ci.d then .wait
    else if ci.pas.any (fun pa => lineWaits s (pa / 64)) then .wait
    else .ok (writeAll (srcTh s core) (regLines (er (nc s core) ci.d) ci.pas) s) := by
  rw [regLines, ← foldl_ownWrites core _ _ (srcTh s core) _ s rfl, ewTake, if_neg (by omega), if_neg (by omega), if_neg (by omega), if_neg (by omega)]
  simp only [regLine]

end

/-- R144: what a store of four distinct aligned lines leaves in memory. -/
theorem memByte_regLines {s : State} (h : s.Inv) (src : Src) (v : BitVec 2048) {pas : List Nat} (hlen : pas.length = 4) (halign : ∀ a ∈ pas, a % 64 = 0)
    (hnodup : pas.Nodup) :
    (∀ i < 4, ∀ j < 64, memByte (writeAll src (regLines v pas) s) (pas.getD i 0 + j) = (v >>> (8 * (64 * i + j))).truncate 8) ∧
    (∀ a, (∀ b ∈ pas, a / 64 ≠ b / 64) → memByte (writeAll src (regLines v pas) s) a = memByte s a) := by
  constructor
  · intro i hi j hj
    have hline : (pas.getD i 0, regLine v i) ∈ regLines v pas := List.mem_map.mpr ⟨i, List.mem_range.mpr hi, rfl⟩
    have hj' : j < (regLine v i).length := by rwa [length_regLine v hi]
    exact (memByte_writeAll_in src hj' _ (regLines_apart hlen halign hnodup v) hline h).trans (getElem_regLine v i hj')
  · intro a ha
    refine memByte_writeAll_out src _ (fun w hw => ?_) h
    obtain ⟨hmem, hlen64⟩ := mem_of_mem_regLines hlen hw
    have := halign _ hmem
    have := ha _ hmem
    omega

/-- R139, R141, R144, R145: an ELEMENT-class instruction takes effect (part of O20). -/
theorem elementIns_takes_effect {s : State} {core : Nat} {ci : ClassIns} {rest : List ClassIns} (h : s.Inv) (hrun : stationsRun s core = true)
    (hin : (nc s core).ewIn = ci :: rest) :
    let n := nc s core
    let at4 := exec (.classInstructionAtStation core 4) s
    let pend := pendingWrites n ci.d = true
    let free := ∀ pa ∈ ci.pas, lineWaits s (pa / 64) = false
    (ci.op ≤ 1 → at4 = .next (setNc s core { n with ewIn := rest, ew := { n.ew with
      run := (ci.d, if ci.op = 1 then ci.a else 0), k := sset 0 n.ew.k 0 ci.imm } })) ∧
    (ci.op = 4 → at4 = .next (setNc s core { n with ewIn := rest, ew := { n.ew with k := sset 0 n.ew.k ci.d ci.imm } })) ∧
    (∀ s1 bs bad, ci.op = 8 → physReads s (srcTh s core) 8 ci.pas = (s1, (bs, bad)) →
      (bad = true → at4 = .next (streamFault s1 core 4 0 0x12 0 0)) ∧
      (bad = false → (progOf ci bs).ok = true → at4 = .next (setNc s1 core { withSlot n ci.d (some (progOf ci bs)) with ewIn := rest })) ∧
      (bad = false → (progOf ci bs).ok = false → at4 = .next (streamFault (setNc s1 core (withSlot n ci.d none)) core 4 0 0x10 0x2A 0))) ∧
    (ci.op = 0x0C → (sweepReads n ci.d = true ∨ pend ∨ ¬ free) → at4 = .next s) ∧
    (∀ s1 bs bad, ci.op = 0x0C → sweepReads n ci.d = false → ¬ pend → free → physReads s (srcTh s core) 64 ci.pas = (s1, (bs, bad)) →
      (bad = true → at4 = .next (streamFault s1 core 4 0 0x12 0 0)) ∧
      (bad = false → at4 = .next (setNc s1 core { setE n ci.d (BitVec.ofNat 2048 (leNat bs)) with ewIn := rest }))) ∧
    (ci.op = 0x0D → (pend ∨ ¬ free) → at4 = .next s) ∧
    (∀ p0 p1 p2 p3, ci.op = 0x0D → ¬ pend → free → ci.pas = [p0, p1, p2, p3] →
      (∀ a ∈ ci.pas, a % 64 = 0) → ci.pas.Nodup →
      ∃ u, at4 = .next u ∧ u.regs = s.regs ∧ u.threads = s.threads ∧ nc u core = { n with ewIn := rest } ∧
        (∀ i < 4, ∀ j < 64, memByte u (ci.pas.getD i 0 + j) = ((er n ci.d) >>> (8 * (64 * i + j))).truncate 8) ∧
        (∀ a, (∀ b ∈ ci.pas, a / 64 ≠ b / 64) → memByte u a = memByte s a)) := by
  dsimp only
  rw [exec_elementIns hrun hin]
  have hfree : (∀ pa ∈ ci.pas, lineWaits s (pa / 64) = false) ↔ ci.pas.any (fun pa => lineWaits s (pa / 64)) = false := by simp
  rw [hfree]
  have put {u : State} (hu : u.Inv) (m : NCore) :
      setNc (setNc u core m) core { nc (setNc u core m) core with ewIn := rest } = setNc u core { m with ewIn := rest } := by
    rw [nc_setNc_same hu, setNc_setNc hu]
  refine ⟨fun hop => ?_, fun hop => ?_, fun s1 bs bad hop hread => ?_, fun hop hw => ?_, fun s1 bs bad hop hsw hp hf hread => ?_, fun hop hw => ?_,
    fun p0 p1 p2 p3 hop hp hf hpas halign hnodup => ?_⟩
  · rw [ewTake_run hop]
    exact congrArg _ (put h _)
  · rw [ewTake_imm hop]
    exact congrArg _ (put h _)
  · have hs1 : s1.Inv := by simpa [hread] using physReads_inv h (srcTh s core) 8 ci.pas
    have hnc : nc s1 core = nc s core := by simpa [hread] using nc_of_cores (cores_physReads (srcTh s core) 8 ci.pas s) core
    rw [ewTake_ldp hop hread, hnc]
    refine ⟨fun hbad => ?_, fun hbad hok => ?_, fun hbad hok => ?_⟩
    · rw [if_pos hbad]
    · rw [if_neg (ne_true_of_eq_false hbad), if_pos hok]
      exact congrArg _ (put hs1 _)
    · rw [if_neg (ne_true_of_eq_false hbad), if_neg (ne_true_of_eq_false hok)]
  · rw [ewTake_ldr hop rfl]
    rcases hw with hsw | hp | hf
    · rw [if_pos (by simp [hsw])]
    · rw [if_pos (by simp [hp])]
    · rw [if_pos (Bool.eq_true_of_not_eq_false hf), ite_self]
  · have hs1 : s1.Inv := by simpa [hread] using physReads_inv h (srcTh s core) 64 ci.pas
    have hnc : nc s1 core = nc s core := by simpa [hread] using nc_of_cores (cores_physReads (srcTh s core) 64 ci.pas s) core
    rw [ewTake_ldr hop hread, hnc, if_neg (by simp [hsw, hp]), if_neg (ne_true_of_eq_false hf)]
    refine ⟨fun hbad => ?_, fun hbad => ?_⟩
    · rw [if_pos hbad]
    · rw [if_neg (ne_true_of_eq_false hbad)]
      exact congrArg _ (put hs1 _)
  · rw [ewTake_str hop]
    rcases hw with hp | hf
    · rw [if_pos hp]
    · rw [if_pos (Bool.eq_true_of_not_eq_false hf), ite_self]
  · have hlen : ci.pas.length = 4 := by rw [hpas]; rfl
    obtain ⟨hin4, hout⟩ := memByte_regLines h (srcTh s core) (er (nc s core) ci.d) hlen halign hnodup
    have hcores := cores_writeAll (srcTh s core) (regLines (er (nc s core) ci.d) ci.pas) s
    rw [ewTake_str hop, if_neg hp, if_neg (ne_true_of_eq_false hf)]
    have hth := threads_of_cores hcores
    have hw := writeAll_inv (srcTh s core) (regLines (er (nc s core) ci.d) ci.pas) h
    refine ⟨setNc _ core _, rfl, regs_writeAll _ _ s, hth, ?_, hin4, hout⟩
    rw [nc_setNc_same hw, nc_of_cores hcores]

end Sys2Proof.Machine
end

section
/-! REDUCE-class instructions at their station (R151, R155). -/

namespace Sys2Proof.Machine

theorem rdEmit_inv {s : State} (h : s.Inv) (core : Nat) (c : RdCfg) : (rdEmit s core c).Inv := (rdEmit_kept s core c (inv_kept h)).2

/-- Results that have left change nothing by leaving. -/
theorem drainRd_of_out_nil {n : NCore} (hout : n.rd.out = []) : drainRd n = n := by
  rw [drainRd, hout, drain]
  dsimp only
  rw [← hout]

/-- R151: REDUCE with its operation closed and its accumulator let go. -/
def rdClosed (m : NCore) (c : RdCfg) : NCore :=
  { setAcc m c.acc acc0 with rd := { m.rd with tiles := 0, els := [], base := 0, used := true, op := none } }

/-- R151, R155: what a class instruction does once the operation before it is closed, its station's state `m` in `u`: RDU.END is done; RDU.OP waits for its accumulator, or takes it and is in force. -/
def rdOpens (u : State) (core : Nat) (m : NCore) (ci : ClassIns) : State × Bool :=
  let c := rdCfg ci.imm ci.d (ci.op == 1)
  if ci.op = 4 then (u, true)
  else if heldByOther m [c.acc] 3 then (u, false)
  else (setNc u core { setOwner m [c.acc] 3 with rd := { m.rd.nextGroup with op := some (ci.imm, ci.d, ci.op == 1), used := false } }, true)

section
variable {u : State} {core : Nat} {m : NCore} {ci : ClassIns}

theorem rdOpens_end (hop : ci.op = 4) : rdOpens u core m ci = (u, true) := if_pos hop

theorem rdOpens_waits (hop : ci.op ≤ 1) (hheld : heldByOther m [(rdCfg ci.imm ci.d (ci.op == 1)).acc] 3 = true) : rdOpens u core m ci = (u, false) := by
  rw [rdOpens, if_neg (by omega), if_pos hheld]

theorem rdOpens_op (hop : ci.op ≤ 1) (hheld : heldByOther m [(rdCfg ci.imm ci.d (ci.op == 1)).acc] 3 = false) : rdOpens u core m ci =
    (setNc u core { setOwner m [(rdCfg ci.imm ci.d (ci.op == 1)).acc] 3 with
      rd := { m.rd.nextGroup with op := some (ci.imm, ci.d, ci.op == 1), used := false } }, true) := by
  rw [rdOpens, if_neg (by omega), if_neg (ne_true_of_eq_false hheld)]

end

/-- R151: an open sweep reads a register that the open operation is still to write. -/
def rdHazard (n : NCore) : Bool :=
  match n.rd.op with
  | some (imm, d, x) => n.rd.tiles != 0 && (List.range 32).any (fun i => (rdCfg imm d x).dests i && sweepReads n i)
  | none => false

theorem rdHazard_some {n : NCore} {imm : Half} {d : Nat} {x b : Bool} (hop : n.rd.op = some (imm, d, x))
    (hb : (List.range 32).any (fun i => (rdCfg imm d x).dests i && sweepReads n i) = b) : rdHazard n = (n.rd.tiles != 0 && b) := by rw [rdHazard, hop, ← hb]

section
variable {s : State} {core : Nat} {ci : ClassIns} (h : s.Inv)
include h

theorem rdTake_waits (hout : (drainRd (nc s core)).rd.out ≠ []) : rdTake s core ci = (setNc s core (drainRd (nc s core)), false) := by
  have hne : (drainRd (nc s core)).rd.out.isEmpty = false := by simpa using hout
  rw [rdTake]
  dsimp only
  rw [nc_setNc_same h, hne]
  exact if_pos rfl

variable (hout : (nc s core).rd.out = [])
include hout

/-- R151, R155: REDUCE waits for an open sweep that reads what its open operation is still to write; or that operation is closed first. -/
theorem rdTake_of_out_nil : rdTake s core ci =
    if rdHazard (nc s core) then (s, false) else rdOpens (rdClose s core) core (nc (rdClose s core) core) ci := by
  rw [rdTake]
  dsimp only
  rw [drainRd_of_out_nil hout, setNc_nc h, hout]
  rfl

end

/-- R151, R155: the end of an open operation. -/
theorem rdClose_some {s : State} {core : Nat} {imm : Half} {d : Nat} {x : Bool} (hop : (nc s core).rd.op = some (imm, d, x)) :
    rdClose s core =
      let s1 := if (nc s core).rd.tiles = 0 then s else rdEmit s core (rdCfg imm d x)
      setNc s1 core (rdClosed (nc s1 core) (rdCfg imm d x)) := by
  rw [rdClose, hop]
  rfl

theorem rdClose_none {s : State} {core : Nat} (hop : (nc s core).rd.op = none) : rdClose s core = s := by rw [rdClose, hop]

/-- R151, R155: what the class instruction leaves at the station that it is taken from. -/
theorem exec_reduceIns_opens {u s : State} {core : Nat} {m : NCore} {ci : ClassIns} {rest : List ClassIns} (hrun : stationsRun s core = true)
    (hin : (nc s core).rdIn = ci :: rest) (hu : u.Inv) (htake : rdTake s core ci = rdOpens (setNc u core m) core m ci) :
    let at5 := exec (.classInstructionAtStation core 5) s
    let c := rdCfg ci.imm ci.d (ci.op == 1)
    (ci.op = 4 → at5 = .next (setNc u core { m with rdIn := rest })) ∧
    (ci.op ≤ 1 → heldByOther m [c.acc] 3 = true → at5 = .next (setNc u core m)) ∧
    (ci.op ≤ 1 → heldByOther m [c.acc] 3 = false → at5 = .next (setNc u core { setOwner m [c.acc] 3 with
      rdIn := rest, rd := { m.rd with tiles := 0, els := [], base := 0, used := false, op := some (ci.imm, ci.d, ci.op == 1) } })) := by
  dsimp only
  rw [exec_reduceIns hrun hin, htake]
  dsimp only
  refine ⟨fun hop => ?_, fun hop hheld => ?_, fun hop hheld => ?_⟩
  · rw [rdOpens_end hop, if_pos rfl, nc_setNc_same hu, setNc_setNc hu]
  · rw [rdOpens_waits hop hheld, if_neg Bool.false_ne_true]
  · rw [rdOpens_op hop hheld, if_pos rfl, setNc_setNc hu, nc_setNc_same hu, setNc_setNc hu]
    rfl

/-- R151, R155: a REDUCE-class instruction takes effect (part of O20). -/
theorem reduceIns_takes_effect {s : State} {core : Nat} {ci : ClassIns} {rest : List ClassIns} (h : s.Inv) (hrun : stationsRun s core = true)
    (hin : (nc s core).rdIn = ci :: rest) (hout : (nc s core).rd.out = []) :
    let n := nc s core
    let at5 := exec (.classInstructionAtStation core 5) s
    (n.rd.op = none → ci.op = 4 → at5 = .next (setNc s core { n with rdIn := rest })) ∧
    (n.rd.op = none → ci.op ≤ 1 → heldByOther n [(rdCfg ci.imm ci.d (ci.op == 1)).acc] 3 = true → at5 = .next (setNc s core n)) ∧
    (n.rd.op = none → ci.op ≤ 1 → heldByOther n [(rdCfg ci.imm ci.d (ci.op == 1)).acc] 3 = false →
      at5 = .next (setNc s core { setOwner n [(rdCfg ci.imm ci.d (ci.op == 1)).acc] 3 with
        rdIn := rest, rd := { n.rd with tiles := 0, els := [], base := 0, used := false, op := some (ci.imm, ci.d, ci.op == 1) } })) ∧
    (∀ imm d x, n.rd.op = some (imm, d, x) →
      let c0 := rdCfg imm d x
      let hazard := (List.range 32).any (fun i => c0.dests i && sweepReads n i)
      let s1 := if n.rd.tiles = 0 then s else rdEmit s core c0
      let closed := rdClosed (nc s1 core) c0
      let c := rdCfg ci.imm ci.d (ci.op == 1)
      (n.rd.tiles ≠ 0 → hazard = true → at5 = .next (setNc s core n)) ∧
      (n.rd.tiles = 0 ∨ hazard = false → ci.op = 4 → at5 = .next (setNc s1 core { closed with rdIn := rest })) ∧
      (n.rd.tiles = 0 ∨ hazard = false → ci.op ≤ 1 → heldByOther closed [c.acc] 3 = true → at5 = .next (setNc s1 core closed)) ∧
      (n.rd.tiles = 0 ∨ hazard = false → ci.op ≤ 1 → heldByOther closed [c.acc] 3 = false →
        at5 = .next (setNc s1 core { setOwner closed [c.acc] 3 with
          rdIn := rest, rd := { closed.rd with used := false, op := some (ci.imm, ci.d, ci.op == 1) } }))) := by
  have htake := rdTake_of_out_nil (ci := ci) h hout
  refine ⟨fun hop => ?_, fun hop => ?_, fun hop => ?_, fun imm d x hop => ?_⟩
  case refine_4 =>
    intro c0 hazard s1 closed c
    have hs1 : s1.Inv := by
      show (if _ then _ else _ : State).Inv
      split
      · exact h
      · exact rdEmit_inv h ..
    refine ⟨fun ht hz => ?_, ?_⟩
    · have hhaz : rdHazard (nc s core) = true := by
        rw [rdHazard_some hop hz, Bool.and_true]
        exact bne_iff_ne.mpr ht
      rw [exec_reduceIns hrun hin, htake, if_pos hhaz, setNc_nc h]
      rfl
    · have hopens (hz : (nc s core).rd.tiles = 0 ∨ hazard = false) : rdTake s core ci = rdOpens (setNc s1 core closed) core closed ci := by
        have hhaz : rdHazard (nc s core) = false := by
          rcases hz with ht | hz
          · rw [rdHazard_some hop rfl, ht]
            rfl
          · rw [rdHazard_some hop hz, Bool.and_false]
        rw [htake, if_neg (ne_true_of_eq_false hhaz), rdClose_some hop]
        dsimp only
        rw [nc_setNc_same hs1]
      refine ⟨fun hz => (exec_reduceIns_opens hrun hin hs1 (hopens hz)).1, fun hz => (exec_reduceIns_opens hrun hin hs1 (hopens hz)).2.1,
        fun hz => (exec_reduceIns_opens hrun hin hs1 (hopens hz)).2.2⟩
  all_goals
    have hhaz : rdHazard (nc s core) = false := by rw [rdHazard, hop]
    rw [rdClose_none hop, if_neg (ne_true_of_eq_false hhaz)] at htake
    nth_rewrite 2 [← setNc_nc h core] at htake
    obtain ⟨hend, hwaits, hopens⟩ := exec_reduceIns_opens hrun hin h htake
  · exact hend
  · exact hwaits
  · exact hopens

/-- Part of O20: the oldest class instruction of a station. -/
theorem classInstructionsTakeEffect : Parts.ClassInstructionsTakeEffect := by
  intro s core ci rest h hrun
  refine ⟨matrixIns_takes_effect hrun, trestleIns_takes_effect hrun, elementIns_takes_effect h hrun, reduceIns_takes_effect h hrun, fun hin hout => ?_⟩
  rw [exec_reduceIns hrun hin, rdTake_waits h hout]
  rfl

/-- Settles O20: EWE.REXEC and RDU.RREG by what each leaves once it may run; a class instruction at its station by what `mxTake`, `trTake`, `ewTake` or `rdTake` makes of it there. That EWE.REXEC keeps the bits of eD above a short packed result (log 22) and that a TRSET waits on `trHazard` (log 64) are the model's reading. -/
theorem classEffects : Obligations.ClassEffects := ⟨registerPrograms, classInstructionsTakeEffect⟩

end Sys2Proof.Machine
end

section
/-! The request of a remote atomic, sent when the clock is not at zero (R76, R275). -/

namespace Sys2Proof.Machine

theorem inv_ltc {s : State} (h : s.Inv) (t : Word) : { s with ltc := t }.Inv := { h with }

/-- The package of `rmState` one tick of its time counter later: x1 of N-core 0 holds a fabric address with a window, x3 an operand. -/
def lateState : State := { Tests.rmState with ltc := 1 }

theorem lateState_inv : lateState.Inv := inv_ltc Tests.rmState_inv 1

/-- RADD of x3 at x1, its result to x62. -/
def lateRadd : Opnds := Tests.opsR 62 1 3

theorem lateRadd_issues : Issues lateState (.n 0) lateRadd 0x04 (some ⟨64, 64, 64, 0, 0⟩) none := Tests.issues_of (by decide +kernel)

/-- The window of x1 permits an atomic, of this package's memory. -/
theorem lateRadd_window : winCheck lateState 0 128 3 = .ok 0 0x020080000080 := by decide +kernel

/-- R275: how often the last request that is outstanding has been sent again, and when it was sent. -/
def lastSent (out : Out) : Option (Nat × Nat) :=
  match out with
  | .next u => u.reqs.getLast?.map (fun r => (r.resends, r.sent))
  | _ => none

/-- R275: the request of the atomic has not been sent again, and was sent at time 1. -/
theorem lastSent_lateRadd : lastSent (exec (.radd (.n 0) lateRadd) lateState) = some (0, 1) := by decide +kernel

/-- Refutes O18: of a remote atomic that is sent, its clause puts the time of sending in the place of the outstanding request's `resends` and 0 in the place of `sent`, the field after it. The model keeps `resends` at 0 and sets `sent` to the time (R275); in `lateState` that time is 1. -/
theorem not_fabricInstructions : ¬ Obligations.FabricInstructions := by
  rintro ⟨_, hatomics, _⟩
  obtain ⟨_, _, _, hpermitted⟩ := hatomics .radd 0x08 false false 0 (.inl rfl) lateState (.n 0) lateRadd lateState_inv lateRadd_issues
  obtain ⟨_, hsent, _⟩ := hpermitted 0 0x020080000080 (by decide) (by decide +kernel) lateRadd_window
  obtain ⟨u, hexec, _, hreqs, _⟩ := hsent (.inr (by decide)) (by decide +kernel)
  have hlast := lastSent_lateRadd
  rw [hexec, lastSent, hreqs, List.getLast?_concat] at hlast
  cases hlast

end Sys2Proof.Machine
end

section
/-! How a long-vector instruction ends, whatever its effect (R54, R174, R179-R181). -/

namespace Sys2Proof.Machine

theorem lvCharge_inv {s : State} (h : s.Inv) (core : Nat) (n : Thread) (u : LvUnit) : (lvCharge s core n u).Inv := (lvCharge_kept _ _ _ _ (inv_kept h)).2

/-- R54, R180: retirement and the idle timer do not touch each other. -/
theorem retire_lvuRetire (s : State) (k core : Nat) : retire (lvuRetire s core) k = lvuRetire (retire s k) core := by
  rw [retire, th_lvuRetire, setTh_lvuRetire, retire]

/-- R54, R174, R179-R181: an effect that is done retires with the thread it left, charged and with no restart. -/
theorem finish_lvEnded_done {s : State} (h : s.Inv) (k : Nat) (n0 : Thread) (u : LvUnit) :
    finish k 0x10 (lvEnded k n0 u (.done s)) = lvDone s k n0 u (th s k) := by
  rw [lvEnded, finish, retire_lvuRetire, retire_setTh (lvCharge_inv h ..), th_lvCharge, setTh_lvCharge, lvDone]

/-- R54: the thread that an instruction retires with takes the place of one put before. -/
theorem lvDone_setTh {s : State} (h : s.Inv) (k : Nat) (n0 m n : Thread) (u : LvUnit) : lvDone (setTh s k m) k n0 u n = lvDone s k n0 u n := by
  rw [lvDone, setTh_setTh h, lvDone]

theorem finish_lvEnded_setTh {s : State} (h : s.Inv) (k : Nat) (n0 n : Thread) (u : LvUnit) :
    finish k 0x10 (lvEnded k n0 u (.done (setTh s k n))) = lvDone s k n0 u n := by
  rw [finish_lvEnded_done (setTh_inv _ _ h), th_setTh_same h, lvDone_setTh h]

end Sys2Proof.Machine
end

section
/-! SETVL and SETVLR (R162). -/

namespace Sys2Proof.Machine

/-- R161: the codes that `lvTypes` lists, in rising order. -/
theorem mem_lvTypes_iff (ty : Nat) : ty ∈ lvTypes ↔ ty ∈ [5, 6, 8, 9, 10] := by
  simp only [lvTypes, List.mem_cons, List.not_mem_nil, or_false]
  omega

/-- R48, R162: a thread that starts has no elements, and FP64 for its type. -/
theorem startThread_vector {s : State} (h : s.Inv) (r : Nat) (d : DescSt) (key : Nat) :
    (th (startThread s r d key) key).vl = 0 ∧ (th (startThread s r d key) key).vtype = 6 := by
  unfold startThread
  extract_lets arg x _ t s1 half core s2
  have hth : th s1 key = t := th_setTh_same h key t
  split
  · exact ⟨congrArg Thread.vl hth, congrArg Thread.vtype hth⟩
  · exact ⟨congrArg Thread.vl hth, congrArg Thread.vtype hth⟩

section
variable {s : State} {t : Tid} {o : Opnds}

theorem execSetvl_of_issues (hiss : Issues s t o 0x10 none (some ⟨64, 64, 0xF⟩)) : execSetvl t o s = .next (
    if o.imm.toNat ∈ lvTypes then
      lvuRetire (retire (setTh s (tkey t) (setVl (th s (tkey t)) o.d.toNat o.imm.toNat (xr (th s (tkey t)) o.a.toNat))) (tkey t)) (coreOf (tkey t))
    else insnFault s (tkey t) 0x10 0x11 0x11 0) := by
  rw [execSetvl, insnW_eq hiss]
  simp only [List.contains_iff_mem, finish, retire_lvuRetire]

theorem execSetvlr_of_issues (hiss : Issues s t o 0x10 (some ⟨64, 64, 64, 0, 0⟩) none) : execSetvlr t o s = .next (
    let ty := (xr (th s (tkey t)) o.b.toNat).toNat % 16
    if ty ∈ lvTypes then
      lvuRetire (retire (setTh s (tkey t) (setVl (th s (tkey t)) o.d.toNat ty (xr (th s (tkey t)) o.a.toNat))) (tkey t)) (coreOf (tkey t))
    else insnFault s (tkey t) 0x10 0x11 0x11 0) := by
  rw [execSetvlr, insn_of_issues hiss]
  dsimp only
  by_cases htype : (xr (th s (tkey t)) o.b.toNat).toNat % 16 ∈ lvTypes
  · simp only [List.contains_eq_mem, htype, decide_true, Bool.not_true, Bool.false_eq_true, if_false, if_true, finish, retire_lvuRetire]
  · simp only [List.contains_eq_mem, htype, decide_false, Bool.not_false, if_false, if_true, finish]

end

/-- Settles O23: the word of SETVL and the register of SETVLR name a type that `lvTypes` lists, or fault (`execSetvl_of_issues`, `execSetvlr_of_issues`). -/
theorem vectorLength : Obligations.VectorLength := by
  intro s t o hinv
  simp only [← mem_lvTypes_iff]
  refine ⟨fun hiss htype => ?_, fun hiss hres => ?_, fun hiss htype => ?_, fun hiss hres => ?_, fun r d => startThread_vector hinv r d _⟩
  · exact (execSetvl_of_issues hiss).trans (by rw [if_pos htype]; rfl)
  · exact (execSetvl_of_issues hiss).trans (by rw [if_neg hres])
  · exact (execSetvlr_of_issues hiss).trans (by rw [if_pos htype]; rfl)
  · exact (execSetvlr_of_issues hiss).trans (by rw [if_neg hres])

end Sys2Proof.Machine
end

section
/-! The words of long-vector instructions, whose MOD has no field but those of its mask (R57, R164). -/

namespace Sys2Proof.Machine

section
variable {s : State} {t : Tid} {o : Opnds} {shape : RShape} {types : List Nat} {pipe : Bool} (h : LvIssues s t o shape types pipe)
include h
/-! R57, R163: what a long-vector instruction that issues has passed. -/
theorem issues_of_lvIssues : Issues s t o 0x10 (some shape) none := h.1
theorem vtype_of_lvIssues : (th s (tkey t)).vtype.toNat ∈ types := h.2.1
theorem shapeOk_of_lvIssues : shapeOk (some shape) none o = true := (issues_of_lvIssues h).2.2.1
end

/-- A field of a number whose bits lie in a mask is that of the number under the mask's field. -/
theorem nfld_and (x m lo n : Nat) : nfld (x &&& m) lo n = nfld x lo n &&& nfld m lo n := by
  rw [nfld, Nat.shiftRight_and_distrib, Nat.and_mod_two_pow, nfld, nfld]

/-- R57: a field that lies outside the word's MOD mask is zero. -/
theorem nfld_md_zero {r : RShape} {o : Opnds} (h : shapeOk (some r) none o = true) {lo n : Nat} (hmask : nfld r.md lo n = 0) : nfld o.md.toNat lo n = 0 := by
  have hwithin : o.md.toNat &&& r.md = o.md.toNat := by
    simp only [shapeOk, iform_of_shapeOk h, Bool.false_eq_true, if_false, Bool.and_eq_true, within, beq_iff_eq] at h
    exact h.2
  rw [← hwithin, nfld_and, hmask, Nat.and_zero]

/-- R164: operand B names a register of its file only where its word does. -/
theorem lvBWord_of_lvBOk {o : Opnds} {n : Thread} (hb : lvBOk o n = true) : lvBWord o = true := by
  simp only [lvBOk, lvBSize] at hb
  cases hsb : (lvMod o).sb
  · simpa [lvBWord, hsb] using hb
  · simp [lvBWord, hsb]

/-- R100, R164: a word without NUMCTL names the numeric control 0; with FXRM it must name a rounding. -/
theorem lvCtlOk_of_shapeOk {r : RShape} {o : Opnds} (h : shapeOk (some r) none o = true) (hmask : nfld r.md 6 6 = 0) (hfx : (lvMod o).fx ≠ 3) :
    lvCtlOk o = true := by
  have hnum : (lvMod o).num = 0 := nfld_md_zero h hmask
  rw [lvCtlOk, hnum, decide_eq_true hfx]
  rfl

end Sys2Proof.Machine
end

section
/-! Integer and fixed-point operations, operations on bits, and moves (R163, R165, R166, R172). -/

namespace Sys2Proof.Machine

/-- R163: a code that is read as signed and taken back to its width is the same code. -/
theorem ofInt_sext {w c : Nat} (h : c < 2 ^ w) : ofInt w (sext w c) = c := by
  have hcode : ((c : Nat) : Int) % 2 ^ w = c := by exact_mod_cast Nat.mod_eq_of_lt h
  rw [ofInt, sext, Nat.mod_eq_of_lt h]
  split
  · rw [hcode, Int.toNat_natCast]
  · rw [Int.sub_emod_right, hcode, Int.toNat_natCast]

/-- R172: an exact value lies outside a signed width. -/
def overflows (w : Nat) (v : Int) : Bool := !(decide (-(2 ^ (w - 1) : Int) ≤ v) && decide (v < 2 ^ (w - 1)))

/-- R172: the end of a signed width that a value outside it has passed. -/
def rangeEnd (w : Nat) (v : Int) : Int := if v < 0 then -(2 ^ (w - 1) : Int) else 2 ^ (w - 1) - 1

theorem satTo_eq (w : Nat) (v : Int) : satTo w v = (ofInt w (if overflows w v then rangeEnd w v else v), if overflows w v then 1 else 0) := by
  have hpos : (0 : Int) < 2 ^ (w - 1) := by positivity
  unfold satTo overflows rangeEnd
  dsimp only
  generalize (2 ^ (w - 1) : Int) = p at hpos
  rcases lt_or_ge v (-p) with hlow | hlow
  · have hover : (!(decide (-p ≤ v) && decide (v < p))) = true := by simp [hlow]
    simp only [hover, if_true, if_pos hlow, if_pos (show v < 0 by omega)]
  · rcases lt_or_ge v p with hhigh | hhigh
    · have hfits : (!(decide (-p ≤ v) && decide (v < p))) = false := by simp [hlow, hhigh]
      simp only [hfits, Bool.false_eq_true, if_false, if_neg (show ¬ v < -p by omega), if_neg (show ¬ p - 1 < v by omega)]
    · have hover : (!(decide (-p ≤ v) && decide (v < p))) = true := by simp [hhigh]
      simp only [hover, if_true, if_neg (show ¬ v < -p by omega), if_pos (show p - 1 < v by omega), if_neg (show ¬ v < 0 by omega)]

/-- R163: elements that count nothing count nothing together. -/
theorem countActive_zero (n : Thread) (o : Opnds) : countActive n o (fun _ => cnt0) = cnt0 := by
  rw [countActive]
  induction lvActs n (lvMod o) with
  | nil => rfl
  | cons _ _ ih => exact ih

/-- R163, R166: an integer operation puts its elements in vD with what they count. -/
theorem lvInt_of_lvIssues {s : State} {t : Tid} {o : Opnds} {fx : Bool} (h : s.Inv)
    (hiss : LvIssues s t o ⟨32, 32, 64, 0, mMask + mSb + (if fx then mFx else 0)⟩ lvInts true) (hb : lvBOk o (th s (tkey t)) = true)
    (hfx : (lvMod o).fx ≠ 3) {f : Nat → Int → Int → Nat → Nat × Nat} (g : Nat → Nat × Nat)
    (hfg : let n := th s (tkey t)
      let vt := n.vtype.toNat
      ∀ i, f (tyBits vt) (sext (tyBits vt) (velem (vreg n o.a.toNat) (tyBits vt) i)) (sext (tyBits vt) (lvB n o vt i)) (lvShift n o vt i) = g i) :
    let n := th s (tkey t)
    ∃ w, Elements n o w (fun i => (g i).1) ∧
      lvInt t o lvInts fx f s = .next (lvCounted s (tkey t) n (.pipe 4) (setV n o.d.toNat w) (countActive n o (fun i => ⟨(g i).2, 0, 0⟩))) := by
  intro n
  have hctl : lvCtlOk o = true := lvCtlOk_of_shapeOk (shapeOk_of_lvIssues hiss) (by cases fx <;> decide) hfx
  have hok : (lvCtlOk o && lvBWord o) = true := by rw [hctl, lvBWord_of_lvBOk hb, Bool.and_self]
  obtain ⟨w, hw, hmap⟩ := elements_lvMap n o (fun i => ((g i).1, ⟨(g i).2, 0, 0⟩))
  refine ⟨w, hw, ?_⟩
  rw [lvInt, lvOp_of_lvIssues hiss hok hb, ← finish_lvEnded_putCounted h]
  simp only [hfg, hmap, n]

theorem vectorInteger : Sys2Proof.Parts.VectorInteger := by
  intro c mods f h s t o hinv hiss hb hfx
  obtain ⟨fx, hmods, hexec⟩ : ∃ fx, mods = mMask + mSb + (if fx then mFx else 0) ∧ exec (c t o) s = lvInt t o lvInts fx
      (fun w a b sh => let r := f w (lvMod o).fx a b sh; if r.2 then satTo w r.1 else wrapTo w r.1) s := by
    rcases h with h | h | h | h | h | h | h | h | h | h | h | h <;> cases h
    exacts [⟨false, rfl, rfl⟩, ⟨false, rfl, rfl⟩, ⟨false, rfl, rfl⟩, ⟨false, rfl, rfl⟩, ⟨true, rfl, rfl⟩, ⟨false, rfl, rfl⟩, ⟨true, rfl, rfl⟩,
      ⟨true, rfl, rfl⟩, ⟨false, rfl, rfl⟩, ⟨false, rfl, rfl⟩, ⟨false, rfl, rfl⟩, ⟨true, rfl, rfl⟩]
  extract_lets n bits r sat val
  have hres (i : Nat) : (if (r i).2 then satTo bits (r i).1 else wrapTo bits (r i).1) = ((val i % 2 ^ bits).toNat, if sat i then 1 else 0) := by
    cases hsat : (r i).2
    · simp [val, sat, hsat, wrapTo, ofInt]
    · simp only [if_true, satTo_eq, val, sat, hsat, Bool.true_and]
      rfl
  rw [hexec]
  refine lvInt_of_lvIssues hinv (hmods ▸ hiss) hb hfx (fun i => ((val i % 2 ^ bits).toNat, if sat i then 1 else 0)) ?_
  exact hres

/-- R165: the broadcast scalar of an integer type lies in its width. -/
theorem lvScalar_lt {n : Thread} (h : n.vtype.toNat ∈ lvInts) (o : Opnds) : lvScalar n o n.vtype.toNat < 2 ^ tyBits n.vtype.toNat := by
  have hint : n.vtype.toNat ≠ 6 ∧ n.vtype.toNat ≠ 5 := by
    simp only [lvInts, List.mem_cons, List.not_mem_nil, or_false] at h
    omega
  rw [lvScalar, if_neg hint.1, if_neg hint.2]
  exact Nat.mod_lt _ (by positivity)

theorem lvB_lt {n : Thread} (h : n.vtype.toNat ∈ lvInts) (o : Opnds) (i : Nat) : lvB n o n.vtype.toNat i < 2 ^ tyBits n.vtype.toNat := by
  rw [lvB]
  split
  · exact lvScalar_lt h o
  · exact velem_lt ..

/-- R166: VAND, VOR and VXOR work on the codes of their elements. -/
theorem vectorBits {c : Tid → Opnds → Instr} {f : Nat → Nat → Nat}
    (hexec : ∀ t o s, exec (c t o) s = lvInt t o lvInts false (fun w a b _ => (f (ofInt w a) (ofInt w b), 0)) s)
    {s : State} {t : Tid} {o : Opnds} (hinv : s.Inv) (hiss : LvIssues s t o ⟨32, 32, 64, 0, 0x3F⟩ lvInts true) (hb : lvBOk o (th s (tkey t)) = true) :
    let n := th s (tkey t)
    ∃ w, Elements n o w (fun i => f (velem (vreg n o.a.toNat) (tyBits n.vtype.toNat) i) (lvB n o n.vtype.toNat i)) ∧
      exec (c t o) s = .next (lvCounted s (tkey t) n (.pipe 4) (setV n o.d.toNat w) cnt0) := by
  intro n
  have hfx : (lvMod o).fx ≠ 3 := by
    have hzero : (lvMod o).fx = 0 := nfld_md_zero (shapeOk_of_lvIssues hiss) (by decide)
    omega
  have htype : n.vtype.toNat ∈ lvInts := vtype_of_lvIssues hiss
  rw [hexec, ← countActive_zero n o]
  refine lvInt_of_lvIssues (fx := false) hinv hiss hb hfx (fun i => (f (velem (vreg n o.a.toNat) (tyBits n.vtype.toNat) i) (lvB n o n.vtype.toNat i), 0)) ?_
  intro m vt i
  rw [ofInt_sext (velem_lt ..), ofInt_sext (lvB_lt htype o i)]

section
variable {s : State} {t : Tid} {o : Opnds} (hinv : s.Inv)
include hinv

/-- R163, R166: an instruction that maps elements and counts nothing retires with its elements in vD. -/
theorem lvMoves_of_lvIssues {shape : RShape} {types : List Nat} {pre : Thread → Bool} (hiss : LvIssues s t o shape types true)
    (hpre : pre (th s (tkey t)) = true) (f : Thread → Nat → Nat) :
    let n := th s (tkey t)
    ∃ w, Elements n o w (f n) ∧ lvOp t o shape types false (.pipe 4) true pre
      (fun key s => .done (setTh s key (lvMap (th s key) o (fun i => (f (th s key) i, cnt0))).1)) s =
        .next (lvDone s (tkey t) n (.pipe 4) (setV n o.d.toNat w)) := by
  intro n
  obtain ⟨w, hw, hmap⟩ := elements_lvMap n o (fun i => (f n i, cnt0))
  refine ⟨w, hw, ?_⟩
  rw [lvOp_of_lvIssues hiss rfl hpre, finish_lvEnded_setTh hinv]
  simp only [hmap, n]

theorem execVmov_broadcast (hsb : (lvMod o).sb = true) (hiss : LvIssues s t o ⟨32, 0, 64, 0, 0x3F⟩ lvTypes true) (hb : lvBOk o (th s (tkey t)) = true) :
    let n := th s (tkey t)
    ∃ w, Elements n o w (fun _ => lvScalar n o n.vtype.toNat) ∧ execVmov t o s = .next (lvDone s (tkey t) n (.pipe 4) (setV n o.d.toNat w)) := by
  simp only [execVmov, hsb, if_true]
  exact lvMoves_of_lvIssues hinv hiss (by simpa using hb) fun n _ => lvScalar n o n.vtype.toNat

theorem execVmov_register (hsb : (lvMod o).sb = false) (hiss : LvIssues s t o ⟨32, 32, 0, 0, 0x3F⟩ lvTypes true) :
    let n := th s (tkey t)
    ∃ w, Elements n o w (fun i => velem (vreg n o.a.toNat) (tyBits n.vtype.toNat) i) ∧
      execVmov t o s = .next (lvDone s (tkey t) n (.pipe 4) (setV n o.d.toNat w)) := by
  simp only [execVmov, hsb, Bool.false_eq_true, if_false]
  exact lvMoves_of_lvIssues hinv hiss rfl fun n i => velem (vreg n o.a.toNat) (tyBits n.vtype.toNat) i

theorem execViota_of_lvIssues (hiss : LvIssues s t o ⟨32, 0, 0, 0, 0x1F⟩ [10] true) :
    let n := th s (tkey t)
    ∃ w, Elements n o w (fun i => i) ∧ execViota t o s = .next (lvDone s (tkey t) n (.pipe 4) (setV n o.d.toNat w)) :=
  lvMoves_of_lvIssues (pre := fun _ => true) hinv hiss rfl fun _ i => i

end

theorem vectorBitsAndMoves : Sys2Proof.Parts.VectorBitsAndMoves := by
  refine ⟨fun c f h s t o hinv hiss hb => ?_, fun s t o hinv => ⟨fun hsb hiss hb => execVmov_broadcast hinv hsb hiss hb,
    fun hsb hiss => execVmov_register hinv hsb hiss, fun hiss => execViota_of_lvIssues hinv hiss⟩⟩
  have hexec : ∀ t o s, exec (c t o) s = lvInt t o lvInts false (fun w a b _ => (f (ofInt w a) (ofInt w b), 0)) s := by
    rcases h with h | h | h <;> cases h
    · exact fun _ _ _ => rfl
    · exact fun _ _ _ => rfl
    · exact fun _ _ _ => rfl
  exact vectorBits hexec hinv hiss hb

/-- Settles O25: the integer operations by `lvInt_of_lvIssues`, whose result is wrapped or, by `satTo_eq`, saturated; the moves by `lvMoves_of_lvIssues`. -/
theorem vectorIntegerAndMoves : Obligations.VectorIntegerAndMoves := ⟨vectorInteger, vectorBitsAndMoves⟩

end Sys2Proof.Machine
end

section
/-! Conversions (R167, R168, R172). -/

namespace Sys2Proof.Machine

section
variable {s : State} {t : Tid} {o : Opnds}

/-- R84: an effect that faults ends in the fault. -/
theorem finish_lvEnded_trap (k : Nat) (n0 : Thread) (u : LvUnit) (st sub el : Nat) :
    finish k 0x10 (lvEnded k n0 u (.trap s st sub el)) = insnFault s k 0x10 st sub el := rfl

/-- R167: a long-vector instruction whose registers do not fit its word with vl and vtype is an illegal encoding. -/
theorem lvOp_of_not_pre {shape : RShape} {types : List Nat} {u : LvUnit} {ok arith : Bool} {pre : Thread → Bool} {eff : Nat → State → Res}
    (hiss : Issues s t o 0x10 (some shape) none) (hok : ok = true) (hpre : pre (th s (tkey t)) = false) :
    lvOp t o shape types arith u ok pre eff s = .next (insnFault s (tkey t) 0x10 0x11 0x11 0) := by
  rw [lvOp, insnW_eq hiss, if_pos hok]
  simp only [hpre, Bool.not_false, if_true, finish]

/-- R100, R164: a word without FXRM and with a numeric control names both. -/
theorem lvCtlOk_of_numCtl {r : RShape} {nctl : NumCtl} (h : shapeOk (some r) none o = true) (hmask : nfld r.md 12 2 = 0)
    (hnum : numCtl (lvMod o).num = some nctl) : lvCtlOk o = true := by
  have hfx : (lvMod o).fx = 0 := nfld_md_zero h hmask
  rw [lvCtlOk, hnum, hfx]
  rfl

/-- R168: the registers that the results of VCVT fill end at v31 or before. -/
def cvtFits (o : Opnds) (n : Thread) : Bool := !lvTypes.contains (lvMod o).tt || o.d.toNat + lvRegs n (lvMod o).tt ≤ 32

/-- R94-R98, R168: element `i` of a VCVT, under a numeric control and the counter value taken. -/
def cvtElement (n : Thread) (o : Opnds) (nctl : NumCtl) (kc : Word × Word) (i : Nat) : Nat × Cnt :=
  lvConv n.vtype.toNat (lvMod o).tt (modeFor nctl kc i) nctl.nosat (velem (vreg n o.a.toNat) (tyBits n.vtype.toNat) i)

/-- R168: what VCVT does once its registers fit. -/
def cvtEffect (o : Opnds) (k : Nat) (s : State) : Res :=
  if !lvTypes.contains (lvMod o).tt then .trap s 0x11 0x30 0
  else
    let n := th s k
    let nctl := (numCtl (lvMod o).num).getD numCtl0
    let took := takeFor nctl n.ctx s
    .done (putCounted took.2 k (lvPack n o (lvMod o).tt (fun i => (cvtElement n o nctl took.1 i).1)) 0x10
      (countActive n o (fun i => (cvtElement n o nctl took.1 i).2)))

theorem execVcvt_eq : execVcvt t o s = lvOp t o ⟨32, 32, 0, 0, 0xF0FDF⟩ lvTypes true (.perReg (lvMod o).tt) (lvCtlOk o) (cvtFits o) (cvtEffect o) s := rfl

/-- R168: VCVT converts, where its registers end at v31 or before, to a type that is an element type. -/
theorem execVcvt_of_lvIssues {nctl : NumCtl} (hinv : s.Inv) (hiss : LvIssues s t o ⟨32, 32, 0, 0, 0xF0FDF⟩ lvTypes true)
    (hnum : numCtl (lvMod o).num = some nctl) :
    let n := th s (tkey t)
    let took := takeFor nctl n.ctx s
    let r (i : Nat) : Nat × Cnt := cvtElement n o nctl took.1 i
    ((lvMod o).tt ∈ lvTypes → o.d.toNat + lvRegs n (lvMod o).tt ≤ 32 →
      execVcvt t o s = .next (lvCounted took.2 (tkey t) n (.perReg (lvMod o).tt) (lvPack n o (lvMod o).tt (fun i => (r i).1)) (countActive n o (fun i => (r i).2)))) ∧
    ((lvMod o).tt ∈ lvTypes → 32 < o.d.toNat + lvRegs n (lvMod o).tt → execVcvt t o s = .next (insnFault s (tkey t) 0x10 0x11 0x11 0)) ∧
    ((lvMod o).tt ∉ lvTypes → execVcvt t o s = .next (insnFault s (tkey t) 0x10 0x11 0x30 0)) := by
  have hok : lvCtlOk o = true := lvCtlOk_of_numCtl (shapeOk_of_lvIssues hiss) (by decide) hnum
  refine ⟨fun htype hroom => ?_, fun htype hpast => ?_, fun hres => ?_⟩
  · have hfits : cvtFits o (th s (tkey t)) = true := by simp [cvtFits, hroom]
    rw [execVcvt_eq, lvOp_of_lvIssues hiss hok hfits, cvtEffect, if_neg (by simp [htype]), hnum, ← finish_lvEnded_putCounted (takeFor_inv hinv nctl _)]
    rfl
  · have hfits : cvtFits o (th s (tkey t)) = false := by simp [cvtFits, htype, hpast]
    rw [execVcvt_eq, lvOp_of_not_pre (issues_of_lvIssues hiss) hok hfits]
  · have hfits : cvtFits o (th s (tkey t)) = true := by simp [cvtFits, hres]
    rw [execVcvt_eq, lvOp_of_lvIssues hiss hok hfits, cvtEffect, if_pos (by simp [hres]), finish_lvEnded_trap]

/-- R172: the target of VNSHR is an integer type narrower than the elements. -/
def narrows (o : Opnds) (n : Thread) : Bool := lvInts.contains (lvMod o).tt && tyBits (lvMod o).tt < tyBits n.vtype.toNat

/-- R172: element `i` of a VNSHR: its code, and 1 where it saturates. -/
def narrowElement (n : Thread) (o : Opnds) (i : Nat) : Nat × Nat :=
  satTo (tyBits (lvMod o).tt) (fxRound (lvMod o).fx (sext (tyBits n.vtype.toNat) (velem (vreg n o.a.toNat) (tyBits n.vtype.toNat) i)) (lvShift n o n.vtype.toNat i))

/-- R172: what VNSHR does once its registers fit. -/
def narrowEffect (o : Opnds) (k : Nat) (s : State) : Res :=
  let n := th s k
  if !narrows o n then .trap s 0x11 0x30 0
  else .done (putCounted s k (lvPack n o (lvMod o).tt (fun i => (narrowElement n o i).1)) 0x10
    ⟨((lvActs n (lvMod o)).map (fun i => (narrowElement n o i).2)).sum, 0, 0⟩)

theorem execVnshr_eq : execVnshr t o s =
    lvOp t o ⟨32, 32, 64, 0, 0xF303F⟩ [9, 10] true (.pipe 4) (lvCtlOk o && lvBWord o) (lvBOk o) (narrowEffect o) s := rfl

/-- R172: VNSHR narrows to a narrower integer type. -/
theorem execVnshr_of_lvIssues (hinv : s.Inv) (hiss : LvIssues s t o ⟨32, 32, 64, 0, 0xF303F⟩ [9, 10] true) (hb : lvBOk o (th s (tkey t)) = true)
    (hfx : (lvMod o).fx ≠ 3) :
    let n := th s (tkey t)
    ((lvMod o).tt ∈ lvInts → tyBits (lvMod o).tt < tyBits n.vtype.toNat →
      execVnshr t o s = .next (lvCounted s (tkey t) n (.pipe 4) (lvPack n o (lvMod o).tt (fun i => (narrowElement n o i).1))
        ⟨((lvActs n (lvMod o)).map (fun i => (narrowElement n o i).2)).sum, 0, 0⟩)) ∧
    (((lvMod o).tt ∉ lvInts ∨ tyBits n.vtype.toNat ≤ tyBits (lvMod o).tt) → execVnshr t o s = .next (insnFault s (tkey t) 0x10 0x11 0x30 0)) := by
  have hok : (lvCtlOk o && lvBWord o) = true := by
    rw [lvCtlOk_of_shapeOk (shapeOk_of_lvIssues hiss) (by decide) hfx, lvBWord_of_lvBOk hb, Bool.and_self]
  rw [execVnshr_eq, lvOp_of_lvIssues hiss hok hb, narrowEffect]
  refine ⟨fun htype hless => ?_, fun hbad => ?_⟩
  · have hnarrows : narrows o (th s (tkey t)) = true := by simp [narrows, htype, hless]
    rw [hnarrows, ← finish_lvEnded_putCounted hinv]
    rfl
  · have hwide : narrows o (th s (tkey t)) = false := by
      rcases hbad with hres | hwide
      · simp [narrows, hres]
      · simpa [narrows] using fun _ => hwide
    rw [hwide]
    rfl

end

theorem vectorConversions : Sys2Proof.Parts.VectorConversions :=
  ⟨fun _ _ _ _ hinv hiss hnum => execVcvt_of_lvIssues hinv hiss hnum, fun _ _ _ hinv hiss hb hfx => execVnshr_of_lvIssues hinv hiss hb hfx⟩

end Sys2Proof.Machine
end

section
/-! Exact sums in vector registers (R170, R171): an image that no sum has yet, and what VDOT, VACCADD and VDOTR make of the sums. -/

namespace Sys2Proof.Machine

/-- R170: an image that a sum has, or that of no products. -/
def usedImage (s : State) (v : BitVec 4096) : Bool := v = 0 || s.dots.any (fun d => d.1 == v)

/-- The images that are tried where the free one is used: one more than there are sums. -/
def spareImages (s : State) : List (BitVec 4096) := (List.range (s.dots.length + 1)).map (fun i => BitVec.ofNat 4096 (i + 1))

theorem toNat_spareImage {w n i : Nat} (hw : 65 ≤ w) (hn : n < 2 ^ 64) (hi : i ∈ List.range (n + 1)) : (BitVec.ofNat w (i + 1)).toNat = i + 1 := by
  rw [List.mem_range] at hi
  rw [BitVec.toNat_ofNat, Nat.mod_eq_of_lt]
  exact lt_of_lt_of_le (show i + 1 < 2 ^ 65 by omega) (Nat.pow_le_pow_right Nat.two_pos hw)

theorem usedImage_iff (s : State) (v : BitVec 4096) : usedImage s v = true ↔ v = 0 ∨ s.dots.any (fun d => d.1 == v) = true := by
  rw [usedImage, Bool.or_eq_true, decide_eq_true_iff]

/-- Images that differ and of which none is empty cannot all stand for sums that are fewer. -/
theorem exists_unused_spareImage {s : State} (h : s.dots.length < 2 ^ 64) : ∃ v ∈ spareImages s, usedImage s v = false := by
  by_contra hall
  have hnodup : (spareImages s).Nodup := List.nodup_range.map_on fun i hi j hj hij => by
    have hnat := congrArg BitVec.toNat hij
    rw [toNat_spareImage (by norm_num) h hi, toNat_spareImage (by norm_num) h hj] at hnat
    omega
  have hsub : spareImages s ⊆ s.dots.map (·.1) := by
    intro v hv
    have hused : usedImage s v = true := by
      by_contra hfree
      exact hall ⟨v, hv, eq_false_of_ne_true hfree⟩
    rcases (usedImage_iff s v).1 hused with rfl | hlisted
    · obtain ⟨i, hi, hzero⟩ := List.mem_map.1 hv
      have hnat := toNat_spareImage (w := 4096) (by norm_num) h hi
      rw [hzero] at hnat
      exact absurd (hnat.symm.trans BitVec.toNat_zero) (Nat.succ_ne_zero i)
    · obtain ⟨d, hd, heq⟩ := List.any_eq_true.1 hlisted
      exact List.mem_map.2 ⟨d, hd, eq_of_beq heq⟩
  have hlen := (hnodup.subperm hsub).length_le
  rw [spareImages, List.length_map, List.length_map, List.length_range] at hlen
  omega

/-- R170: the image of a new sum is that of no other. -/
theorem usedImage_dotImage {s : State} (h : s.dots.length < 2 ^ 64) (el : Option AccEl) : usedImage s (dotImage s el).1 = false := by
  have himage : (dotImage s el).1 = if usedImage s (drawBits 4096 s).1 then ((spareImages s).find? (fun v => !usedImage s v)).getD (drawBits 4096 s).1
    else (drawBits 4096 s).1 := rfl
  rw [himage]
  split
  · obtain ⟨v, hv, hfree⟩ := exists_unused_spareImage h
    have hsome : ((spareImages s).find? (fun v => !usedImage s v)).isSome = true := List.find?_isSome.2 ⟨v, hv, by rw [hfree]; rfl⟩
    obtain ⟨w, hw⟩ := Option.isSome_iff_exists.1 hsome
    rw [hw, Option.getD_some]
    exact Bool.not_eq_true' _ ▸ List.find?_some (p := fun v => !usedImage s v) hw
  · rename_i hdrawn
    exact eq_false_of_ne_true hdrawn

/-- R170: what an image stands for after a new sum has its own. -/
theorem dotOf_dotImage (s : State) (el : Option AccEl) {v : BitVec 4096} (hv : v ≠ 0) :
    dotOf (dotImage s el).2 v = if (dotImage s el).1 = v then el else dotOf s v := by
  have hdots : (dotImage s el).2.dots = ((dotImage s el).1, el) :: s.dots := rfl
  rw [dotOf, if_neg hv, hdots, dotOf, if_neg hv]
  by_cases heq : (dotImage s el).1 = v
  · rw [if_pos heq, List.find?_cons_of_pos (p := fun d : BitVec 4096 × Option AccEl => d.1 == v) (beq_iff_eq.2 heq)]
    rfl
  · rw [if_neg heq, List.find?_cons_of_neg (p := fun d : BitVec 4096 × Option AccEl => d.1 == v) (mt beq_iff_eq.1 heq)]

theorem dotImage_inv {s : State} (h : s.Inv) (el : Option AccEl) : (dotImage s el).2.Inv := (dotImage_kept s el (inv_kept h)).2
theorem drawBits_inv {s : State} (h : s.Inv) (w : Nat) : (drawBits w s).2.Inv := (drawBits_kept w s (inv_kept h)).2

/-- R170: a new sum's image stands for it, is not empty, and changes what no image in use stands for. -/
theorem dotImage_stands (s : State) (el : Option AccEl) (h : s.dots.length < 2 ^ 64) :
    dotOf (dotImage s el).2 (dotImage s el).1 = el ∧ (dotImage s el).1 ≠ 0 ∧
    ∀ v, v = 0 ∨ s.dots.any (fun d => d.1 == v) = true → v ≠ (dotImage s el).1 ∧ dotOf (dotImage s el).2 v = dotOf s v := by
  have hunused (v : BitVec 4096) (hv : v = 0 ∨ s.dots.any (fun d => d.1 == v) = true) : v ≠ (dotImage s el).1 := by
    rintro rfl
    have hused := (usedImage_iff s _).2 hv
    rw [usedImage_dotImage h el] at hused
    cases hused
  have hne : (dotImage s el).1 ≠ 0 := (hunused 0 (.inl rfl)).symm
  refine ⟨by rw [dotOf_dotImage s el hne, if_pos rfl], hne, fun v hv => ⟨hunused v hv, ?_⟩⟩
  by_cases hzero : v = 0
  · rw [dotOf, if_pos hzero, dotOf, if_pos hzero]
  · rw [dotOf_dotImage s el hzero, if_neg (hunused v hv).symm]

section
variable {s : State} {t : Tid} {o : Opnds} (hinv : s.Inv)
include hinv

theorem execVdot_of_lvIssues (hiss : LvIssues s t o ⟨32, 32, 64, 0, mMask + mSb⟩ lvFps true) (hb : lvBOk o (th s (tkey t)) = true) :
    let n := th s (tkey t)
    let vt := n.vtype.toNat
    let sum := (dotOf s (vreg n o.d.toNat)).map (fun el => (lvActs n (lvMod o)).foldl (fun el i =>
      el.prod (lvVal vt (velem (vreg n o.a.toNat) (tyBits vt) i)) (lvVal vt (lvB n o vt i)) 0) el)
    execVdot t o s = .next (lvCounted (dotImage s sum).2 (tkey t) n (.pipe 4) (setV n o.d.toNat (dotImage s sum).1) cnt0) := by
  intro n vt sum
  rw [execVdot, lvOp_of_lvIssues hiss (lvBWord_of_lvBOk hb) hb]
  exact congrArg Host.Outcome.next (finish_lvEnded_putCounted (dotImage_inv hinv sum) ..)

theorem execVaccadd_of_lvIssues (hiss : LvIssues s t o ⟨32, 32, 0, 0, 0⟩ lvTypes true) :
    let n := th s (tkey t)
    let sum := match dotOf s (vreg n o.d.toNat), dotOf s (vreg n o.a.toNat) with | some a, some b => some (a.merge b) | _, _ => none
    execVaccadd t o s = .next (lvCounted (dotImage s sum).2 (tkey t) n (.pipe 4) (setV n o.d.toNat (dotImage s sum).1) cnt0) := by
  intro n sum
  rw [execVaccadd, lvOp_of_lvIssues hiss rfl rfl]
  exact congrArg Host.Outcome.next (finish_lvEnded_putCounted (dotImage_inv hinv sum) ..)

theorem execVdotr_of_lvIssues (hiss : LvIssues s t o ⟨32, 32, 0, 0, 0⟩ lvTypes true) :
    let n := th s (tkey t)
    (∀ el, dotOf s (vreg n o.a.toNat) = some el → execVdotr t o s = .next (lvCounted (drawBits 64 s).2 (tkey t) n (.pipe 4)
      (setF n o.d.toNat (to64 (dotRound el s.free))) ⟨0, 0, el.newNan⟩)) ∧
    (dotOf s (vreg n o.a.toNat) = none →
      execVdotr t o s = .next (lvCounted (drawBits 64 s).2 (tkey t) n (.pipe 4) (setF n o.d.toNat (drawBits 64 s).1) cnt0)) := by
  intro n
  refine ⟨fun el hsum => ?_, fun hnone => ?_⟩
  · rw [execVdotr, lvOp_of_lvIssues hiss rfl rfl, ← finish_lvEnded_putCounted (drawBits_inv hinv 64)]
    dsimp only
    rw [hsum]
  · rw [execVdotr, lvOp_of_lvIssues hiss rfl rfl, ← finish_lvEnded_putCounted (drawBits_inv hinv 64)]
    dsimp only
    rw [hnone]

end

theorem vectorDots : Sys2Proof.Parts.VectorDots :=
  ⟨dotImage_stands, fun _ _ _ hinv hiss hb => execVdot_of_lvIssues hinv hiss hb, fun _ _ _ hinv hiss => execVaccadd_of_lvIssues hinv hiss,
    fun _ _ _ hinv hiss => execVdotr_of_lvIssues hinv hiss⟩

end Sys2Proof.Machine
end

section
/-! Reductions and counts of predicates (R149, R166, R171). -/

namespace Sys2Proof.Machine

/-- R163: what an instruction does at some element types it does at each of them. -/
theorem LvIssues.of_subset {s : State} {t : Tid} {o : Opnds} {shape : RShape} {types types' : List Nat} {pipe : Bool}
    (h : LvIssues s t o shape types pipe) (hsub : types ⊆ types') : LvIssues s t o shape types' pipe := by
  obtain ⟨hissues, htype, hvl, hup⟩ := h
  exact ⟨hissues, hsub htype, hvl, hup⟩

theorem lvInts_subset : lvInts ⊆ lvTypes := by decide
theorem lvFps_subset : lvFps ⊆ lvTypes := by decide

/-- R58, R163: a long-vector instruction on the scalar pipe issues on a unit that is up or down. -/
theorem lvOp_scalar_of_lvIssues {s : State} {t : Tid} {o : Opnds} {shape : RShape} {types : List Nat} {pipe ok : Bool} {pre : Thread → Bool}
    (hiss : LvIssues s t o shape types pipe) (hok : ok = true) (hpre : pre (th s (tkey t)) = true) {arith : Bool} {eff : Nat → State → Res} :
    lvOp t o shape types arith .scalar ok pre eff s = .next (finish (tkey t) 0x10 (lvEnded (tkey t) (th s (tkey t)) .scalar (eff (tkey t) s))) := by
  obtain ⟨hissues, htype, hvl, _⟩ := hiss
  rw [lvOp, insnW_eq hissues, if_pos hok]
  simp only [hpre, hvl, List.contains_eq_mem, htype, decide_true, Bool.not_true, ne_eq, not_true_eq_false, decide_false, Bool.false_and,
    Bool.false_eq_true, if_false]
  rfl

theorem not_mem_lvFps {vt : Nat} (h : vt ∈ lvInts) : vt ∉ lvFps := by
  simp only [lvInts, lvFps, List.mem_cons, List.not_mem_nil, or_false] at h ⊢
  omega

theorem mem_lvFps_iff (vt : Word) : vt.toNat ∈ lvFps ↔ vt = 6 ∨ vt = 5 := by
  simp [lvFps, ← BitVec.toNat_inj]

/-- R166: the result of a reduction goes into an f register for FP types, and into an x register for integer types. -/
def redFits (o : Opnds) (n : Thread) : Bool := o.d.toNat < (if n.vtype = 6 ∨ n.vtype = 5 then 32 else 64)

/-- R166, R171: what a reduction does once its destination fits. -/
def redEffect (o : Opnds) (fp : List Fp → State → Fp × Nat) (int : Nat → List Int → Int) (k : Nat) (s : State) : Res :=
  let n := th s k
  let vt := n.vtype.toNat
  let codes := (lvActs n (lvMod o)).map (fun i => velem (vreg n o.a.toNat) (tyBits vt) i)
  if lvFps.contains vt then
    .done (putCounted (spend s 1) k (setF n o.d.toNat (to64 (fp (codes.map (lvVal vt)) s).1)) 0x10 ⟨0, 0, (fp (codes.map (lvVal vt)) s).2⟩)
  else .done (putCounted s k (setX n o.d.toNat (BitVec.ofInt 64 (int (tyBits vt) (codes.map (sext (tyBits vt)))))) 0x10 cnt0)

theorem lvRed_eq (s : State) (t : Tid) (o : Opnds) (fp : List Fp → State → Fp × Nat) (int : Nat → List Int → Int) :
    lvRed t o fp int s = lvOp t o ⟨64, 32, 0, 0, mMask⟩ lvTypes true (.pipe 4) true (redFits o) (redEffect o fp int) s := rfl

section
variable {s : State} {t : Tid} {o : Opnds} (hinv : s.Inv)
include hinv

/-- R166, R171: a reduction of integers into xD. -/
theorem lvRed_of_lvInts (hiss : LvIssues s t o ⟨64, 32, 0, 0, mMask⟩ lvInts true) (fp : List Fp → State → Fp × Nat) (int : Nat → List Int → Int) :
    let n := th s (tkey t)
    let bits := tyBits n.vtype.toNat
    lvRed t o fp int s = .next (lvCounted s (tkey t) n (.pipe 4) (setX n o.d.toNat (BitVec.ofInt 64 (int bits
      ((lvActs n (lvMod o)).map (fun i => sext bits (velem (vreg n o.a.toNat) bits i)))))) cnt0) := by
  intro n bits
  have hint : n.vtype.toNat ∉ lvFps := not_mem_lvFps (vtype_of_lvIssues hiss)
  have hpre : redFits o n = true := by
    have hd := o.d.isLt
    rw [redFits, if_neg (mt (mem_lvFps_iff n.vtype).2 hint), decide_eq_true_eq]
    exact hd
  rw [lvRed_eq, lvOp_of_lvIssues (hiss.of_subset lvInts_subset) rfl hpre, redEffect, if_neg (by simpa using hint), List.map_map,
    ← finish_lvEnded_putCounted hinv]
  rfl

/-- R149, R166, R171: a reduction of floating-point elements into fD. -/
theorem lvRed_of_lvFps (hiss : LvIssues s t o ⟨64, 32, 0, 0, mMask⟩ lvFps true) (hd : o.d.toNat < 32) (fp : List Fp → State → Fp × Nat)
    (int : Nat → List Int → Int) :
    let n := th s (tkey t)
    let r := fp ((lvActs n (lvMod o)).map (fun i => lvVal n.vtype.toNat (velem (vreg n o.a.toNat) (tyBits n.vtype.toNat) i))) s
    lvRed t o fp int s = .next (lvCounted (spend s 1) (tkey t) n (.pipe 4) (setF n o.d.toNat (to64 r.1)) ⟨0, 0, r.2⟩) := by
  intro n r
  have hfp : n.vtype.toNat ∈ lvFps := vtype_of_lvIssues hiss
  have hpre : redFits o n = true := by
    rw [redFits, if_pos ((mem_lvFps_iff n.vtype).1 hfp), decide_eq_true_eq]
    exact hd
  rw [lvRed_eq, lvOp_of_lvIssues (hiss.of_subset lvFps_subset) rfl hpre, redEffect, if_pos (by simpa using hfp), List.map_map,
    ← finish_lvEnded_putCounted (spend_inv hinv 1)]
  rfl

/-- R166: what counts or finds bits of a predicate retires on the scalar pipe with its result in xD. -/
theorem lvScalarOp_of_lvIssues {shape : RShape} {types : List Nat} (hiss : LvIssues s t o shape types false) (f : Thread → Word) :
    let n := th s (tkey t)
    lvOp t o shape types false .scalar true (fun _ => true) (fun k s => .done (setTh s k (setX (th s k) o.d.toNat (f (th s k))))) s =
      .next (lvDone s (tkey t) n .scalar (setX n o.d.toNat (f n))) := by
  intro n
  rw [lvOp_scalar_of_lvIssues hiss rfl rfl, finish_lvEnded_setTh hinv]

end

theorem vectorReductions : Sys2Proof.Parts.VectorReductions := by
  refine ⟨fun c int h s t o hinv hiss => ?_, fun c fp h s t o hinv hiss hd => ?_, fun s t o hinv hiss => ?_⟩
  · obtain ⟨fp, hexec⟩ : ∃ fp, exec (c t o) s = lvRed t o fp int s := by
      rcases h with h | h | h <;> cases h
      · have hsum : (fun (_ : Nat) (vs : List Int) => vs.sum) = fun _ vs => vs.foldl (· + ·) 0 := by
          funext _ vs
          exact List.sum_eq_foldl
        rw [hsum]
        exact ⟨fun vs u => let el := vs.foldl AccEl.addTerm accEl0; (dotRound el u.free, el.newNan), rfl⟩
      · exact ⟨fun vs _ => (vs.foldl fMax .nan, 0), rfl⟩
      · exact ⟨fun vs _ => (vs.foldl fMin .nan, 0), rfl⟩
    rw [hexec]
    exact lvRed_of_lvInts hinv hiss fp int
  · obtain ⟨int, hexec⟩ : ∃ int, exec (c t o) s = lvRed t o (fun vs u => fp vs u.free) int s := by
      rcases h with h | h | h <;> cases h
      · exact ⟨fun _ vs => vs.foldl (· + ·) 0, rfl⟩
      · exact ⟨fun w vs => vs.foldl max (-(2 ^ (w - 1) : Int)), rfl⟩
      · exact ⟨fun w vs => vs.foldl min (2 ^ (w - 1) - 1 : Int), rfl⟩
    rw [hexec]
    exact lvRed_of_lvFps hinv hiss hd (fun vs u => fp vs u.free) int
  · intro n set
    refine ⟨lvScalarOp_of_lvIssues hinv hiss fun n => BitVec.ofNat 64 ((List.range n.vl.toNat).filter (fun i => (pr n o.a.toNat).getLsbD i)).length, ?_⟩
    rw [List.head?_filter]
    exact lvScalarOp_of_lvIssues hinv hiss fun n => match (List.range n.vl.toNat).find? (fun i => (pr n o.a.toNat).getLsbD i) with
      | some i => BitVec.ofNat 64 i
      | none => BitVec.allOnes 64

/-- Settles O26: the conversions by what their elements become, the sums by `dotImage_stands`, which finds an image that no sum has, and the reductions by `lvRed_of_lvInts` and `lvRed_of_lvFps`. The free amount of VDOTR is log 8's. -/
theorem vectorConvertsAndSums : Obligations.VectorConvertsAndSums := ⟨vectorConversions, vectorDots, vectorReductions⟩

end Sys2Proof.Machine
end

section
/-! A vector load whose elements have all been done, into a register that its thread's register file lists twice (R59, R163). -/

namespace Sys2Proof.Machine

/-- One element, which a restart has passed already; register v31 is listed twice, as zero before 1. `setV` keeps each register once, but `State.Inv` asks it of the threads alone and not of the registers in a thread. -/
def doubleV31 : Thread := { Tests.vRun 6 1 with restart := 1, v := [(31, 0), (31, 1)] }

/-- Thread 0 of S-core 0 is `doubleV31`. -/
def doubleState : State := setTh Tests.wState 128 doubleV31

theorem doubleState_inv : doubleState.Inv := setTh_inv _ _ Tests.wState_inv

theorem th_doubleState : th doubleState 128 = doubleV31 := th_setTh_same Tests.wState_inv _ _

/-- VLD of v31 at x4. -/
def vldV31 : Opnds := Tests.opsR 31 4 0

theorem vldV31_issues : LvIssues doubleState (.s 0 0) vldV31 ⟨32, 64, 0, 0, 0x1F⟩ [6, 5, 10, 9, 8] true := Tests.lv_of (by decide +kernel)

/-- R174: no element is left to load. -/
theorem lvActs_doubleV31 : (lvActs doubleV31 (lvMod vldV31)).filter (fun i => doubleV31.restart ≤ i) = [] := by decide

/-- With nothing loaded v31 is written with the zero that it read as; its first entry then leaves the list, and the second is read in its place. -/
theorem velem_lvPutLoaded_doubleV31 : velem (vreg (lvPutLoaded doubleV31 31 0 64 []) 31) 64 0 = 1 ∧ velem (vreg doubleV31 31) 64 0 = 0 := by
  decide +kernel

/-- Refutes O27: its clause that the elements which are not loaded keep their values is stated of every thread, with no hypothesis that its vector registers are listed once each. In `doubleState` the load has no element left, and v31, which read as zero, reads as its second entry afterwards. -/
theorem not_vectorMemory : ¬ Obligations.VectorMemory := by
  rintro ⟨hloads, _⟩
  have hrun : lvLoadRun doubleState (srcTh doubleState 128) 8 (unitAddr vldV31 (th doubleState 128))
      ((lvActs (th doubleState 128) (lvMod vldV31)).filter (fun i => (th doubleState 128).restart ≤ i)) = (doubleState, [], .all) := by
    rw [th_doubleState, lvActs_doubleV31, lvLoadRun]
  obtain ⟨_, _, _, _, hkept⟩ := hloads .vld _ false _ unitAddr _ (.inl rfl) doubleState (.s 0 0) vldV31 doubleState [] .all doubleState_inv
    vldV31_issues trivial hrun
  obtain ⟨hafter, hbefore⟩ := velem_lvPutLoaded_doubleV31
  have hsame := hkept 0 (Nat.zero_le _) 0 (by decide +kernel) (by decide)
  have htwo : velem (vreg (lvPutLoaded doubleV31 31 0 64 []) 31) 64 0 = velem (vreg doubleV31 31) 64 0 := by
    rw [← th_doubleState]
    exact hsame
  rw [hafter, hbefore] at htwo
  cases htwo

end Sys2Proof.Machine
end

section
/-! What every long-vector instruction checks before its effect (R57, R58, R61, R80, R163, R164, R167, R180). -/

namespace Sys2Proof.Machine

section
variable {s : State} {t : Tid} {o : Opnds} {shape : RShape} {types : List Nat} {arith ok : Bool} {u : LvUnit} {pre : Thread → Bool} {eff : Nat → State → Res}

/-- R57, R164: the word is checked before the guard. -/
theorem insnW_of_not_ok {cls : Nat} {r : Option RShape} {i : Option IShape} (hcan : canIssue s (tkey t) = true) (hcls : classOk cls (isS (tkey t)) = true)
    (hok : ok = false) : insnW s t o cls r i ok eff = .next (insnFault s (tkey t) cls 0x11 0x11 0) := by
  simp [insnW, hcan, hcls, hok]

variable (hiss : Issues s t o 0x10 (some shape) none) (hok : ok = true) (hpre : pre (th s (tkey t)) = true)
include hiss hok hpre

/-- R163: an element type that the operation is not defined for. -/
theorem lvOp_of_not_types (htype : (th s (tkey t)).vtype.toNat ∉ types) :
    lvOp t o shape types arith u ok pre eff s = .next (insnFault s (tkey t) 0x10 0x11 0x30 0) := by
  rw [lvOp, insnW_eq hiss, if_pos hok]
  simp only [hpre, List.contains_eq_mem, htype, decide_false, Bool.not_true, Bool.not_false, Bool.false_eq_true, if_false, if_true, finish]

variable (htype : (th s (tkey t)).vtype.toNat ∈ types)
include htype

omit hiss hok hpre htype in
/-- R179: what ends without effect, or on the scalar pipe, charges no time. -/
theorem lvEnded_scalar (n0 : Thread) (u : State) (k : Nat) :
    lvEnded k n0 .scalar (.done u) = .done (lvuRetire (setTh u k { th u k with restart := 0 }) (coreOf k)) := rfl

/-- R163: with vl zero an instruction retires with no element, and arithmetic leaves its counts of nothing. -/
theorem lvOp_of_vl_zero (hinv : s.Inv) (hvl : (th s (tkey t)).vl = 0) : lvOp t o shape types arith u ok pre eff s =
    .next (lvDone s (tkey t) (th s (tkey t)) .scalar (if arith then setNstat (th s (tkey t)) 0x10 cnt0 else th s (tkey t))) := by
  rw [lvOp, insnW_eq hiss, if_pos hok]
  simp only [hpre, List.contains_eq_mem, htype, hvl, decide_true, Bool.not_true, Bool.false_eq_true, if_false, if_true]
  rw [← lvEnded_scalar (th s (tkey t))]
  cases arith with
  | false => simp only [Bool.false_eq_true, if_false, finish_lvEnded_done hinv]
  | true => simp only [if_true, finish_lvEnded_putCounted hinv, lvCounted, cnt0, countNum_zero]

/-- R180: an instruction that reaches a unit that is down starts its wake or joins it. -/
theorem lvOp_of_lvuDown (hvl : (th s (tkey t)).vl ≠ 0) (hunit : u ≠ .scalar) (hdown : lvuDown s (coreOf (tkey t)) = true) :
    lvOp t o shape types arith u ok pre eff s = .next (lvuStartWake s (tkey t)) := by
  rw [lvOp, insnW_eq hiss, if_pos hok]
  simp only [hpre, List.contains_eq_mem, htype, hvl, hunit, hdown, ne_eq, not_false_eq_true, decide_true, Bool.and_self, Bool.not_true,
    Bool.false_eq_true, if_false, if_true, finish]

end

/-- R57, R58, R61, R80, R163, R164, R167, R180: the common part of a long-vector instruction makes its checks in their order. -/
theorem lvChecks_of_lvOp {c : Tid → Opnds → Instr} {shape : Opnds → RShape} {types : List Nat} {arith pipe : Bool} {word : Opnds → Bool}
    {pre : Opnds → Thread → Bool} {eff : Opnds → Nat → State → Res} (run : Tid → Opnds → State → Out) (u : Opnds → LvUnit)
    (hexec : ∀ t o s, exec (c t o) s = run t o s) (hrun : ∀ t o s, run t o s = lvOp t o (shape o) types arith (u o) (word o) (pre o) (eff o) s)
    (hpipe : ∀ o, pipe = true → u o ≠ .scalar) : LvChecks c shape types arith pipe word pre := by
  intro s t o hinv k n
  rw [hexec, hrun]
  exact ⟨fun hcan hcls _ hword => insnW_of_not_ok hcan hcls hword, fun hiss hword => ⟨fun hpre => lvOp_of_not_pre hiss hword hpre,
    fun hpre htype => lvOp_of_not_types hiss hword hpre htype, fun hpre htype hvl => lvOp_of_vl_zero hiss hword hpre htype hinv hvl,
    fun hpre htype hvl hp hdown => lvOp_of_lvuDown hiss hword hpre htype hvl (hpipe o hp) hdown⟩⟩

section
variable {c : Tid → Opnds → Instr} (run : Tid → Opnds → State → Out) (hexec : ∀ t o s, exec (c t o) s = run t o s)
include hexec

/-- R163, R168: an operation of floating-point elements checks NUMCTL and, where it has one, operand B. -/
theorem lvChecks_of_lvFp {occ : Nat} (useB useC rounds : Bool) {f : Fp → Fp → Fp → Fp} (hrun : ∀ t o s, run t o s = lvFp t o occ useB useC rounds f s) :
    LvChecks c (fun _ => ⟨32, 32, if useB then 64 else 0, if useC then 32 else 0, mMask + (if useB then mSb else 0) + (if rounds then mNum else 0)⟩) lvFps true true
      (fun o => lvCtlOk o && (!useB || lvBWord o)) (fun o n => !useB || lvBOk o n) :=
  lvChecks_of_lvOp run (fun _ => .pipe occ) hexec hrun fun _ _ => nofun

/-- R163, R166: an operation of integer elements checks FXRM and operand B. -/
theorem lvChecks_of_lvInt (fx : Bool) {f : Opnds → Nat → Int → Int → Nat → Nat × Nat} (hrun : ∀ t o s, run t o s = lvInt t o lvInts fx (f o) s) :
    LvChecks c (fun _ => ⟨32, 32, 64, 0, mMask + mSb + (if fx then mFx else 0)⟩) lvInts true true (fun o => lvCtlOk o && lvBWord o) lvBOk :=
  lvChecks_of_lvOp run (fun _ => .pipe 4) hexec hrun fun _ _ => nofun

theorem lvChecks_of_lvCmp {types : List Nat} {rel : Nat → Nat → Nat → Bool} (hrun : ∀ t o s, run t o s = lvCmp t o types rel s) :
    LvChecks c (fun _ => ⟨16, 32, 64, 0, mMask + mSb⟩) types true true lvBWord lvBOk :=
  lvChecks_of_lvOp run (fun _ => .pipe 4) hexec hrun fun _ _ => nofun

theorem lvChecks_of_lvRed {fp : List Fp → State → Fp × Nat} {int : Nat → List Int → Int} (hrun : ∀ t o s, run t o s = lvRed t o fp int s) :
    LvChecks c (fun _ => ⟨64, 32, 0, 0, mMask⟩) lvTypes true true (fun _ => true) redFits :=
  lvChecks_of_lvOp run (fun _ => .pipe 4) hexec hrun fun _ _ => nofun

/-- R173-R175: a load checks its registers before it needs the memory port. -/
theorem lvChecks_of_lvLoad {shape : RShape} {word : Opnds → Bool} {pre : Opnds → Thread → Bool} {ff : Bool} {addrs : Opnds → Thread → Nat → List Nat}
    (u : Opnds → LvUnit) (hrun : ∀ t o s, run t o s = lvLoad t o shape (u o) (word o) (pre o) ff (addrs o) s) (hport : ∀ o, u o ≠ .scalar) :
    LvChecks c (fun _ => shape) lvTypes false true word pre :=
  lvChecks_of_lvOp run u hexec hrun fun o _ => hport o

/-- R173, R174: so does a store. -/
theorem lvChecks_of_lvStore {shape : RShape} {word : Opnds → Bool} {pre : Opnds → Thread → Bool} {addrs : Opnds → Thread → Nat → List Nat}
    (u : Opnds → LvUnit) (hrun : ∀ t o s, run t o s = lvStore t o shape (u o) (word o) (pre o) (addrs o) s) (hport : ∀ o, u o ≠ .scalar) :
    LvChecks c (fun _ => shape) lvTypes false true word pre :=
  lvChecks_of_lvOp run u hexec hrun fun o _ => hport o

end

theorem lvChecks_floats (c : Tid → Opnds → Instr) (b cr mods : Nat) (h : (c, b, cr, mods) ∈ [(Instr.vfadd, 64, 0, 0xFFF), (.vfsub, 64, 0, 0xFFF),
      (.vfmul, 64, 0, 0xFFF), (.vfdiv, 64, 0, 0xFFF), (.vfma, 64, 32, 0xFFF), (.vfmin, 64, 0, 0x3F), (.vfmax, 64, 0, 0x3F)]) :
    LvChecks c (fun _ => ⟨32, 32, b, cr, mods⟩) lvFps true true (fun o => lvCtlOk o && lvBWord o) lvBOk := by
  simp only [List.mem_cons, List.not_mem_nil, or_false] at h
  rcases h with h | h | h | h | h | h | h <;> cases h
  · exact lvChecks_of_lvFp execVfadd (fun _ _ _ => rfl) true false true fun _ _ _ => rfl
  · exact lvChecks_of_lvFp execVfsub (fun _ _ _ => rfl) true false true fun _ _ _ => rfl
  · exact lvChecks_of_lvFp execVfmul (fun _ _ _ => rfl) true false true fun _ _ _ => rfl
  · exact lvChecks_of_lvFp execVfdiv (fun _ _ _ => rfl) true false true fun _ _ _ => rfl
  · exact lvChecks_of_lvFp execVfma (fun _ _ _ => rfl) true true true fun _ _ _ => rfl
  · exact lvChecks_of_lvFp execVfmin (fun _ _ _ => rfl) true false false fun _ _ _ => rfl
  · exact lvChecks_of_lvFp execVfmax (fun _ _ _ => rfl) true false false fun _ _ _ => rfl

theorem lvChecks_compares (c : Tid → Opnds → Instr) (types : List Nat) (h : (c, types) ∈ [(Instr.vfcmpeq, lvFps), (.vfcmplt, lvFps), (.vfcmple, lvFps),
      (.vcmpeq, lvInts), (.vcmplt, lvInts)]) : LvChecks c (fun _ => ⟨16, 32, 64, 0, 0x3F⟩) types true true lvBWord lvBOk := by
  simp only [List.mem_cons, List.not_mem_nil, or_false] at h
  rcases h with h | h | h | h | h <;> cases h
  · exact lvChecks_of_lvCmp execVfcmpeq (fun _ _ _ => rfl) fun _ _ _ => rfl
  · exact lvChecks_of_lvCmp execVfcmplt (fun _ _ _ => rfl) fun _ _ _ => rfl
  · exact lvChecks_of_lvCmp execVfcmple (fun _ _ _ => rfl) fun _ _ _ => rfl
  · exact lvChecks_of_lvCmp execVcmpeq (fun _ _ _ => rfl) fun _ _ _ => rfl
  · exact lvChecks_of_lvCmp execVcmplt (fun _ _ _ => rfl) fun _ _ _ => rfl

theorem lvChecks_integers (c : Tid → Opnds → Instr) (mods : Nat) (h : (c, mods) ∈ [(Instr.vadd, 0x3F), (.vsub, 0x3F), (.vsadd, 0x3F), (.vssub, 0x3F),
      (.vaadd, 0x303F), (.vmul, 0x3F), (.vmulh, 0x303F), (.vmulhq, 0x303F), (.vmin, 0x3F), (.vmax, 0x3F), (.vand, 0x3F), (.vor, 0x3F), (.vxor, 0x3F),
      (.vshl, 0x3F), (.vsra, 0x303F)]) :
    LvChecks c (fun _ => ⟨32, 32, 64, 0, mods⟩) lvInts true true (fun o => lvCtlOk o && lvBWord o) lvBOk := by
  simp only [List.mem_cons, List.not_mem_nil, or_false] at h
  rcases h with h | h | h | h | h | h | h | h | h | h | h | h | h | h | h <;> cases h
  · exact lvChecks_of_lvInt execVadd (fun _ _ _ => rfl) false fun _ _ _ => rfl
  · exact lvChecks_of_lvInt execVsub (fun _ _ _ => rfl) false fun _ _ _ => rfl
  · exact lvChecks_of_lvInt execVsadd (fun _ _ _ => rfl) false fun _ _ _ => rfl
  · exact lvChecks_of_lvInt execVssub (fun _ _ _ => rfl) false fun _ _ _ => rfl
  · exact lvChecks_of_lvInt execVaadd (fun _ _ _ => rfl) true fun _ _ _ => rfl
  · exact lvChecks_of_lvInt execVmul (fun _ _ _ => rfl) false fun _ _ _ => rfl
  · exact lvChecks_of_lvInt execVmulh (fun _ _ _ => rfl) true fun _ _ _ => rfl
  · exact lvChecks_of_lvInt execVmulhq (fun _ _ _ => rfl) true fun _ _ _ => rfl
  · exact lvChecks_of_lvInt execVmin (fun _ _ _ => rfl) false fun _ _ _ => rfl
  · exact lvChecks_of_lvInt execVmax (fun _ _ _ => rfl) false fun _ _ _ => rfl
  · exact lvChecks_of_lvInt execVand (fun _ _ _ => rfl) false fun _ _ _ => rfl
  · exact lvChecks_of_lvInt execVor (fun _ _ _ => rfl) false fun _ _ _ => rfl
  · exact lvChecks_of_lvInt execVxor (fun _ _ _ => rfl) false fun _ _ _ => rfl
  · exact lvChecks_of_lvInt execVshl (fun _ _ _ => rfl) false fun _ _ _ => rfl
  · exact lvChecks_of_lvInt execVsra (fun _ _ _ => rfl) true fun _ _ _ => rfl

/-- R170: the instructions of exact sums. -/
theorem lvChecks_sums : ∀ c ∈ [Instr.vaccadd, .vdotr], LvChecks c (fun _ => ⟨32, 32, 0, 0, 0⟩) lvTypes true true (fun _ => true) (fun _ _ => true) := by
  simp only [List.forall_mem_cons, List.not_mem_nil, false_imp_iff, implies_true, and_true]
  exact ⟨lvChecks_of_lvOp execVaccadd (fun _ => .pipe 4) (fun _ _ _ => rfl) (fun _ _ _ => rfl) fun _ _ => nofun,
    lvChecks_of_lvOp execVdotr (fun _ => .pipe 4) (fun _ _ _ => rfl) (fun _ _ _ => rfl) fun _ _ => nofun⟩

theorem lvChecks_reductions : ∀ c ∈ [Instr.vredsum, .vredmax, .vredmin], LvChecks c (fun _ => ⟨64, 32, 0, 0, 0x1F⟩) lvTypes true true (fun _ => true) redFits := by
  simp only [List.forall_mem_cons, List.not_mem_nil, false_imp_iff, implies_true, and_true]
  exact ⟨lvChecks_of_lvRed execVredsum (fun _ _ _ => rfl) fun _ _ _ => rfl, lvChecks_of_lvRed execVredmax (fun _ _ _ => rfl) fun _ _ _ => rfl,
    lvChecks_of_lvRed execVredmin (fun _ _ _ => rfl) fun _ _ _ => rfl⟩

/-- R166: the instructions of the scalar pipe, which wake no unit. -/
theorem lvChecks_predicates : ∀ c ∈ [Instr.vpcnt, .vpfirst], LvChecks c (fun _ => ⟨64, 16, 0, 0, 0⟩) lvTypes false false (fun _ => true) (fun _ _ => true) := by
  simp only [List.forall_mem_cons, List.not_mem_nil, false_imp_iff, implies_true, and_true]
  exact ⟨lvChecks_of_lvOp execVpcnt (fun _ => .scalar) (fun _ _ _ => rfl) (fun _ _ _ => rfl) fun _ => nofun,
    lvChecks_of_lvOp execVpfirst (fun _ => .scalar) (fun _ _ _ => rfl) (fun _ _ _ => rfl) fun _ => nofun⟩

/-- R166, R175: the memory accesses of unit stride. -/
theorem lvChecks_unitStride : ∀ c ∈ [Instr.vld, .vldff, .vst], LvChecks c (fun _ => ⟨32, 64, 0, 0, 0x1F⟩) lvTypes false true (fun _ => true) (fun _ _ => true) := by
  simp only [List.forall_mem_cons, List.not_mem_nil, false_imp_iff, implies_true, and_true]
  exact ⟨lvChecks_of_lvLoad execVld (fun _ _ _ => rfl) (fun _ => .port 4) (fun _ _ _ => rfl) nofun,
    lvChecks_of_lvLoad execVldff (fun _ _ _ => rfl) (fun _ => .port 4) (fun _ _ _ => rfl) nofun,
    lvChecks_of_lvStore execVst (fun _ _ _ => rfl) (fun _ => .port 4) (fun _ _ _ => rfl) nofun⟩

theorem lvChecks_strided : ∀ c ∈ [Instr.vlds, .vsts], LvChecks c (fun _ => ⟨32, 64, 64, 0, 0x1F⟩) lvTypes false true (fun _ => true) (fun _ _ => true) := by
  simp only [List.forall_mem_cons, List.not_mem_nil, false_imp_iff, implies_true, and_true]
  exact ⟨lvChecks_of_lvLoad execVlds (fun _ _ _ => rfl) (fun _ => .perEight) (fun _ _ _ => rfl) nofun,
    lvChecks_of_lvStore execVsts (fun _ _ _ => rfl) (fun _ => .perEight) (fun _ _ _ => rfl) nofun⟩

/-- R167, R173, R177: the loads and the gather that take indices. -/
theorem lvChecks_indexed : ∀ c ∈ [Instr.vldx, .vldxff, .vrgather], LvChecks c (fun _ => ⟨32, 64, 32, 0, 0x1F⟩) lvTypes false true (fun _ => true)
    (fun o n => indexOk o n && indexApart o n) := by
  simp only [List.forall_mem_cons, List.not_mem_nil, false_imp_iff, implies_true, and_true]
  exact ⟨lvChecks_of_lvLoad execVldx (fun _ _ _ => rfl) (fun _ => .perEight) (fun _ _ _ => rfl) nofun,
    lvChecks_of_lvLoad execVldxff (fun _ _ _ => rfl) (fun _ => .perEight) (fun _ _ _ => rfl) nofun,
    lvChecks_of_lvOp execVrgather (fun _ => .remote) (fun _ _ _ => rfl) (fun _ _ _ => rfl) fun _ _ => nofun⟩

/-- R164, R166: the accesses of records. -/
theorem lvChecks_segments : ∀ c ∈ [Instr.vldseg, .vstseg], LvChecks c (fun _ => ⟨32, 64, 0, 0, 0xC01F⟩) lvTypes false true segOk (fun _ _ => true) := by
  simp only [List.forall_mem_cons, List.not_mem_nil, false_imp_iff, implies_true, and_true]
  exact ⟨lvChecks_of_lvLoad execVldseg (fun _ _ _ => rfl) (fun o => .port (4 * ((lvMod o).nf + 1))) (fun _ _ _ => rfl) nofun,
    lvChecks_of_lvStore execVstseg (fun _ _ _ => rfl) (fun o => .port (4 * ((lvMod o).nf + 1))) (fun _ _ _ => rfl) nofun⟩

/-- R168: VFSQRT has no operand B. -/
theorem lvChecks_vfsqrt : LvChecks .vfsqrt (fun _ => ⟨32, 32, 0, 0, 0xFDF⟩) lvFps true true lvCtlOk (fun _ _ => true) := by
  have hctl : (fun o => lvCtlOk o && (!false || lvBWord o)) = lvCtlOk := funext fun o => Bool.and_true _
  rw [← hctl]
  exact lvChecks_of_lvFp execVfsqrt (fun _ _ _ => rfl) false false true fun _ _ _ => rfl

theorem lvChecks_vcvt : LvChecks .vcvt (fun _ => ⟨32, 32, 0, 0, 0xF0FDF⟩) lvTypes true true lvCtlOk cvtFits :=
  lvChecks_of_lvOp execVcvt (fun o => .perReg (lvMod o).tt) (fun _ _ _ => rfl) (fun _ _ _ => execVcvt_eq) fun _ _ => nofun

theorem lvChecks_vnshr : LvChecks .vnshr (fun _ => ⟨32, 32, 64, 0, 0xF303F⟩) [9, 10] true true (fun o => lvCtlOk o && lvBWord o) lvBOk :=
  lvChecks_of_lvOp execVnshr (fun _ => .pipe 4) (fun _ _ _ => rfl) (fun _ _ _ => execVnshr_eq) fun _ _ => nofun

theorem lvChecks_vdot : LvChecks .vdot (fun _ => ⟨32, 32, 64, 0, 0x3F⟩) lvFps true true lvBWord lvBOk :=
  lvChecks_of_lvOp execVdot (fun _ => .pipe 4) (fun _ _ _ => rfl) (fun _ _ _ => rfl) fun _ _ => nofun

/-- R96, R166: what VMOV does. -/
def movEffect (o : Opnds) (k : Nat) (s : State) : Res :=
  .done (setTh s k (lvMap (th s k) o (fun i => (if (lvMod o).sb then lvScalar (th s k) o (th s k).vtype.toNat
    else velem (vreg (th s k) o.a.toNat) (tyBits (th s k).vtype.toNat) i, cnt0))).1)

theorem lvChecks_vmov : LvChecks .vmov (fun o => ⟨32, if (lvMod o).sb then 0 else 32, if (lvMod o).sb then 64 else 0, 0, 0x3F⟩) lvTypes false true (fun _ => true)
    (fun o n => !(lvMod o).sb || lvBOk o n) :=
  lvChecks_of_lvOp (eff := movEffect) execVmov (fun _ => .pipe 4) (fun _ _ _ => rfl) (fun _ _ _ => rfl) fun _ _ => nofun

theorem lvChecks_viota : LvChecks .viota (fun _ => ⟨32, 0, 0, 0, 0x1F⟩) [10] false true (fun _ => true) (fun _ _ => true) :=
  lvChecks_of_lvOp execViota (fun _ => .pipe 4) (fun _ _ _ => rfl) (fun _ _ _ => rfl) fun _ _ => nofun

theorem lvChecks_vstx : LvChecks .vstx (fun _ => ⟨32, 64, 32, 0, 0x1F⟩) lvTypes false true (fun _ => true) indexOk :=
  lvChecks_of_lvStore execVstx (fun _ _ _ => rfl) (fun _ => .perEight) (fun _ _ _ => rfl) nofun

theorem vectorChecks : Sys2Proof.Parts.VectorChecks :=
  ⟨lvChecks_floats, lvChecks_vfsqrt, lvChecks_compares, lvChecks_integers, lvChecks_vcvt, lvChecks_vnshr, lvChecks_vdot, lvChecks_sums,
    lvChecks_reductions, lvChecks_predicates, lvChecks_vmov, lvChecks_viota, lvChecks_unitStride, lvChecks_strided, lvChecks_indexed, lvChecks_vstx, lvChecks_segments⟩

end Sys2Proof.Machine
end

section
/-! VRGATHER's reads (R163, R166, R177, R178). -/

namespace Sys2Proof.Machine

/-- R177: VRGATHER does not retire; its thread waits for its reads. -/
theorem vectorGather : Sys2Proof.Parts.VectorGather := by
  intro s t o _ hiss k n bits hindex happart acts els lines bad
  have hpre : (indexOk o (th s (tkey t)) && indexApart o (th s (tkey t))) = true := by
    rw [Bool.and_eq_true]
    exact ⟨hindex, happart⟩
  have hissues : LvIssues s t o ⟨32, 64, 32, 0, mMask⟩ lvTypes true := hiss
  have hexec : exec (.vrgather t o) s = execVrgather t o s := rfl
  rw [hexec, execVrgather, lvOp_of_lvIssues hissues rfl hpre]
  rfl

end Sys2Proof.Machine
end

section
/-! The power of the long-vector unit (R166, R179-R181). -/

namespace Sys2Proof.Machine

/-- R180: a thread that joins a wake only stalls. -/
theorem lvuStartWake_joins {s : State} {k : Nat} (h : s.lvuWaking.any (fun w => w.1 == coreOf k) = true) :
    lvuStartWake s k = setTh s k { th s k with phase := .wake } := if_pos h

/-- R180, R181: the first thread starts the wake, which is counted. -/
theorem lvuStartWake_starts {s : State} {k : Nat} (h : s.lvuWaking.any (fun w => w.1 == coreOf k) = false) :
    let a := R.SCO_LVU_PWR (coreOf k / 96) (coreOf k % 96)
    lvuStartWake s k = { wr (setTh s k { th s k with phase := .wake }) a (wrapAdd (rd s a) 32 32 1) with
      lvuWaking := s.lvuWaking ++ [(coreOf k, s.ltc.toNat)] } :=
  if_neg (ne_true_of_eq_false h)

theorem lvuWakes {s : State} (hinv : s.Inv) (k : Nat) :
    let c := coreOf k
    let u := lvuStartWake s k
    (s.lvuWaking.any (fun w => w.1 == c) = true → u = setTh s k { th s k with phase := .wake }) ∧
    (s.lvuWaking.any (fun w => w.1 == c) = false → th u k = { th s k with phase := .wake } ∧ u.lvuWaking = s.lvuWaking ++ [(c, s.ltc.toNat)] ∧
      rdf u (R.SCO_LVU_PWR (c / 96) (c % 96)) 32 32 = (rdf s (R.SCO_LVU_PWR (c / 96) (c % 96)) 32 32 + 1) % 2 ^ 32 ∧ u.mem = s.mem) := by
  intro c u
  refine ⟨lvuStartWake_joins, fun hfirst => ?_⟩
  have hu : u = _ := lvuStartWake_starts hfirst
  have hcount : rd u (R.SCO_LVU_PWR (c / 96) (c % 96)) = wrapAdd (rd s (R.SCO_LVU_PWR (c / 96) (c % 96))) 32 32 1 := by
    rw [hu]
    exact rd_wr_same (setTh_inv _ _ hinv) _ _
  refine ⟨?_, by rw [hu], ?_, by rw [hu]; rfl⟩
  · rw [hu]
    exact th_setTh_same hinv k _
  · rw [rdf, hcount, wrapAdd, fld_putf_same _ _ _ _ (by omega)]
    rfl

/-- R180: a thread that was stalled on the unit goes on. -/
def wakened (n : Thread) : Thread := if n.phase = .wake then { n with phase := .run } else n

theorem wakened_wakened (n : Thread) : wakened (wakened n) = wakened n := by
  by_cases h : n.phase = .wake
  · simp [wakened, h]
  · simp [wakened, h]

/-- R180: one thread of an S-core goes on where it was stalled. -/
def wakeThread (core : Nat) (s : State) (j : Nat) : State :=
  if (th s (128 + 8 * core + j)).phase = .wake then setTh s (128 + 8 * core + j) { th s (128 + 8 * core + j) with phase := .run } else s

theorem wakeThread_inv {s : State} (h : s.Inv) (core j : Nat) : (wakeThread core s j).Inv := by
  rw [wakeThread]
  split
  · exact setTh_inv _ _ h
  · exact h

theorem th_wakeThread {s : State} (h : s.Inv) (core i j : Nat) : th (wakeThread core s i) (128 + 8 * core + j) =
    if i = j then wakened (th s (128 + 8 * core + j)) else th s (128 + 8 * core + j) := by
  by_cases hij : i = j
  · subst hij
    rw [wakeThread, wakened, if_pos rfl]
    split
    · exact th_setTh_same h _ _
    · rfl
  · rw [wakeThread, if_neg hij]
    split
    · exact th_setTh_ne h _ (by omega)
    · rfl

theorem th_wakeThreads {s : State} (h : s.Inv) (core j : Nat) (l : List Nat) : th (l.foldl (wakeThread core) s) (128 + 8 * core + j) =
    if j ∈ l then wakened (th s (128 + 8 * core + j)) else th s (128 + 8 * core + j) := by
  induction l generalizing s with
  | nil => rw [List.foldl_nil, if_neg List.not_mem_nil]
  | cons i l ih =>
    rw [List.foldl_cons, ih (wakeThread_inv h core i), th_wakeThread h]
    by_cases hij : i = j
    · simp [hij, wakened_wakened]
    · simp [hij, Ne.symm hij]

/-- R180: what does not read the threads is the same when they go on. -/
theorem wakeThreads_reads {α : Type} (p : State → α) (hp : ∀ s k n, p (setTh s k n) = p s) (core : Nat) (l : List Nat) (s : State) :
    p (l.foldl (wakeThread core) s) = p s := by
  induction l generalizing s with
  | nil => rfl
  | cons j l ih =>
    rw [List.foldl_cons, ih, wakeThread]
    split
    · exact hp ..
    · rfl

/-- R180: the unit of an S-core is up, and wakes no more. -/
def unitUp (s : State) (core : Nat) : State :=
  wrf { s with lvuWaking := s.lvuWaking.filter (fun w => w.1 != core) } (R.SCO_LVU_PWR (core / 96) (core % 96)) 17 1 0

theorem unitUp_inv {s : State} (h : s.Inv) (core : Nat) : (unitUp s core).Inv := wrf_inv _ _ _ _ { h with }

/-- R180: the state when a wake ends, before the idle timer runs. -/
def wakeEnded (s : State) (core : Nat) : State := (List.range 8).foldl (wakeThread core) (unitUp s core)

/-- R180: a wake that is due ends, and one that is not goes on. -/
theorem execLvuWakeDone_of_waking {s : State} {core : Nat} {w : Nat × Nat} (h : s.lvuWaking.find? (fun x => x.1 == core) = some w) :
    execLvuWakeDone core s = .next (if s.ltc.toNat < w.2 + 1200 then s else lvuRetire (wakeEnded s core) core) := by
  rw [execLvuWakeDone, h]
  rfl

/-- R180: the idle timer is all that a retirement moves. -/
theorem lvuRetire_reads {α : Type} (p : State → α) (hp : ∀ s l, p { s with lvuIdle := l } = p s) (s : State) (core : Nat) : p (lvuRetire s core) = p s := by
  simp only [lvuRetire]
  split
  · rfl
  · exact hp ..

theorem lvuWakeEnds {s : State} (hinv : s.Inv) {core : Nat} {w : Nat × Nat} (hwake : s.lvuWaking.find? (fun x => x.1 == core) = some w) :
    (s.ltc.toNat < w.2 + 1200 → exec (.lvuWakeDone core) s = .next s) ∧
    (w.2 + 1200 ≤ s.ltc.toNat →
      ∃ u, exec (.lvuWakeDone core) s = .next u ∧ (∀ x ∈ u.lvuWaking, x.1 ≠ core) ∧ rdf u (R.SCO_LVU_PWR (core / 96) (core % 96)) 17 1 = 0 ∧
        (∀ j < 8, (th s (128 + 8 * core + j)).phase = .wake → th u (128 + 8 * core + j) = { th s (128 + 8 * core + j) with phase := .run }) ∧ u.mem = s.mem) := by
  have hexec : exec (.lvuWakeDone core) s = execLvuWakeDone core s := rfl
  rw [hexec, execLvuWakeDone_of_waking hwake]
  refine ⟨fun hearly => by rw [if_pos hearly], fun hdue => ⟨_, by rw [if_neg (by omega)], fun x hx => ?_, ?_, fun j hj hphase => ?_, ?_⟩⟩
  · rw [lvuRetire_reads State.lvuWaking fun _ _ => rfl, wakeEnded, wakeThreads_reads State.lvuWaking fun _ _ _ => rfl] at hx
    simpa using (List.mem_filter.1 hx).2
  · rw [rdf, rd, lvuRetire_reads State.regs fun _ _ => rfl, wakeEnded, wakeThreads_reads State.regs fun _ _ _ => rfl]
    exact rdf_wrf_same { hinv with } _ 17 1 0 (by omega)
  · rw [th_lvuRetire, wakeEnded, th_wakeThreads (unitUp_inv hinv core), if_pos (List.mem_range.2 hj)]
    exact if_pos hphase
  · rw [lvuRetire_reads State.mem fun _ _ => rfl, wakeEnded, wakeThreads_reads State.mem fun _ _ _ => rfl]
    rfl

/-- R181: NOPD and DOWN are both clear where the field that they make is zero. -/
theorem fld_nopd_down_zero_iff (w : Word) : fld w 16 2 = 0 ↔ bitw w 16 = false ∧ bitw w 17 = false := by
  have hbit (i : Nat) : (fld w 16 2).testBit i = (decide (i < 2) && bitw w (16 + i)) := testBit_fld w 16 2 i
  constructor
  · intro h
    simp only [h, Nat.zero_testBit] at hbit
    exact ⟨(hbit 0).symm, (hbit 1).symm⟩
  · rintro ⟨hnopd, hdown⟩
    refine Nat.eq_of_testBit_eq fun i => ?_
    rw [hbit, Nat.zero_testBit]
    match i with
    | 0 => simp [hnopd]
    | 1 => simp [hdown]
    | i + 2 => simp

theorem lvuPowersDown {s : State} {core dl : Nat} (hcore : core < 192) (hidle : sget (some 32000) s.lvuIdle core = some dl) :
    (dl ≤ s.ltc.toNat → rdf s (R.SCO_LVU_PWR (core / 96) (core % 96)) 16 2 = 0 →
      exec (.lvuPowerDown core) s = .next (wrf s (R.SCO_LVU_PWR (core / 96) (core % 96)) 17 1 1)) ∧
    (s.ltc.toNat < dl ∨ rdf s (R.SCO_LVU_PWR (core / 96) (core % 96)) 16 2 ≠ 0 → exec (.lvuPowerDown core) s = .next s) := by
  have hexec : exec (.lvuPowerDown core) s = execLvuPowerDown core s := rfl
  simp only [hexec, execLvuPowerDown, hidle, hcore, rdf, ne_eq, fld_nopd_down_zero_iff, decide_true, Bool.true_and]
  refine ⟨fun hdue hfree => ?_, fun hnot => ?_⟩
  · rw [if_pos (by simp [hfree.1, hfree.2, hdue])]
  · rw [if_neg]
    rintro hall
    simp only [Bool.and_eq_true, Bool.not_eq_true', decide_eq_true_eq] at hall
    obtain ⟨⟨hup, hnopd⟩, hdue⟩ := hall
    rcases hnot with hearly | hheld
    · omega
    · exact hheld ⟨hnopd, hup⟩

theorem lvuPowerSet {s : State} {core : Nat} (v : Word) (hcore : core < 192) :
    exec (.scoLvuPwrWrite core v) s = .next { wrf s (R.SCO_LVU_PWR (core / 96) (core % 96)) 0 17 (v.toNat % 2 ^ 17) with
      lvuIdle := if v.getLsbD 16 then sset (some 32000) s.lvuIdle core none else s.lvuIdle } := by
  have hexec : exec (.scoLvuPwrWrite core v) s = execScoLvuPwrWrite core v s := rfl
  have hnopd : bitw v 16 = v.getLsbD 16 := rfl
  rw [hexec, execScoLvuPwrWrite, if_pos hcore, fld_zero_eq_mod, hnopd]
  dsimp only
  cases v.getLsbD 16
  · rfl
  · rfl

theorem lvuPower : Sys2Proof.Parts.LvuPower :=
  ⟨fun _ k hinv => lvuWakes hinv k, fun _ _ _ hinv hwake _ => lvuWakeEnds hinv hwake, fun _ _ _ _ hcore hidle => lvuPowersDown hcore hidle,
    fun _ _ v _ hcore => lvuPowerSet v hcore⟩

/-- Settles O28: the checks by `lvChecks_of_lvOp`, which goes through them once for every instruction; the end of a wake by what `wakeEnded` leaves. -/
theorem gatherAndPower : Obligations.GatherAndPower := ⟨vectorGather, lvuPower, vectorChecks⟩

end Sys2Proof.Machine
end

section
/-! SUPPORT. Solver units (R183, R400): reading a unit back after it is replaced, and the units as entries of their map. -/

namespace Sys2Proof.Machine

theorem setSvu_inv {s : State} (h : s.Inv) (j : Nat) (u : Svu) : (setSvu s j u).Inv := (setSvu_kept (inv_kept h)).2
theorem setRun_inv {s : State} (h : s.Inv) (j : Nat) (r : Run) : (setRun s j r).Inv := setSvu_inv h ..

theorem svuOf_setSvu_same {s : State} (h : s.Inv) (j : Nat) (u : Svu) : svuOf (setSvu s j u) j = u :=
  sget_sset_same (fun _ => svu0) j u s.svus h.svus
theorem svuOf_setSvu_ne {s : State} (h : s.Inv) {i j : Nat} (u : Svu) (hne : i ≠ j) : svuOf (setSvu s j u) i = svuOf s i :=
  sget_sset_ne (fun _ => svu0) j i u s.svus h.svus hne
theorem setSvu_setSvu {s : State} (h : s.Inv) (j : Nat) (u v : Svu) : setSvu (setSvu s j u) j v = setSvu s j v := by
  have := sset_sset (fun _ => svu0) j u v s.svus h.svus
  simp [setSvu, this]

theorem svuOf_setRun_same {s : State} (h : s.Inv) (j : Nat) (r : Run) : svuOf (setRun s j r) j = { svuOf s j with act := some r } :=
  svuOf_setSvu_same h ..
theorem svuOf_setRun_ne {s : State} (h : s.Inv) {i j : Nat} (r : Run) (hne : i ≠ j) : svuOf (setRun s j r) i = svuOf s i :=
  svuOf_setSvu_ne h _ hne
theorem setRun_setSvu {s : State} (h : s.Inv) (j : Nat) (u : Svu) (r : Run) : setRun (setSvu s j u) j r = setSvu s j { u with act := some r } := by
  rw [setRun, svuOf_setSvu_same h, setSvu_setSvu h]

theorem svuOf_of_svus {s t : State} (h : t.svus = s.svus) (j : Nat) : svuOf t j = svuOf s j := by rw [svuOf, h, svuOf]

/-- An entry of a map in canonical form is what its key reads as. -/
theorem sget_of_mem {α : Type} [DecidableEq α] (d : Nat → α) : ∀ {m : Sparse α}, swf d m = true → ∀ {p : Nat × α}, p ∈ m → sget (d p.1) m p.1 = p.2 := by
  intro m
  induction m with
  | nil => exact fun _ _ hp => absurd hp List.not_mem_nil
  | cons q r ih =>
    obtain ⟨k, v⟩ := q
    intro h p hp
    obtain ⟨_, habove, hr⟩ := (swf_cons d k v r).1 h
    rcases List.mem_cons.1 hp with rfl | hmem
    · simp [sget]
    · have hlt : k < p.1 := (sabove_iff k r).1 habove p hmem
      rw [sget, if_neg (by omega), if_neg (by omega)]
      exact ih hr hmem

theorem mem_svus_of_act {s : State} {j : Nat} {r : Run} (hact : (svuOf s j).act = some r) : (j, svuOf s j) ∈ s.svus :=
  mem_of_sget (fun hidle => by simp [hidle, svu0] at hact) j s.svus rfl

/-- R400: a context's timers are registers. -/
@[simp] theorem svus_putTimers (s : State) (ctx : Nat) : (putTimers s ctx).svus = s.svus := by
  unfold putTimers
  generalize List.range 3 = ks
  induction ks generalizing s with
  | nil => rfl
  | cons k ks ih => exact (ih _).trans rfl

end Sys2Proof.Machine
end

section
/-! SOLVE.B and SOLVE.E (R84, R185, R186, R190, R191). -/

namespace Sys2Proof.Machine

/-- R185, R186: once its descriptor is copied, a solve joins its unit's queue, where RESULT can be written and the queue has room. -/
def queueSolve (v : Solve) (s : State) : Res :=
  match vaCheck s v.ctx v.result 1 .write with
  | (s2, .err e) => accTrap s2 e
  | (_, .wait) => .stay s
  | (s2, .ok _) =>
    let u := svuOf s2 (coreOf v.key / 8)
    if 7 ≤ u.queue.length then .stay s2 else .done (setSvu s2 (coreOf v.key / 8) { u with queue := u.queue ++ [v] })

/-- R190: the solve of a descriptor's bytes, for the thread `k` that issues it. -/
def solveOf (n : Nat) (words : List Word → List Word) (o : Opnds) (s : State) (k : Nat) (bs : List Byte) : Solve :=
  ⟨k, (th s k).gen, (th s k).ctx, o.d.toNat, words ((List.range n).map (fun i => BitVec.ofNat 64 (leNat ((bs.drop (8 * i)).take 8))))⟩

/-- R185, R186: what a SOLVE whose descriptor has `n` words does once it issues. -/
def solveEffect (n : Nat) (words : List Word → List Word) (o : Opnds) (k : Nat) (s : State) : Res :=
  if scalarVa s k o % 64 ≠ 0 then .trap s 0x10 0x15 0
  else
    match vaBytes s (srcTh s k) (scalarVa s k o) (8 * n) with
    | (_, .wait) => .stay s
    | (s1, .err e) => accTrap s1 e
    | (s1, .ok (bs, pois)) => if pois then .trap s1 0x12 0 0 else queueSolve (solveOf n words o s k bs) s1

theorem execSolveB_eq (t : Tid) (o : Opnds) (s : State) : execSolveB t o s = insn s t o 0x11 none (memForm 32) (solveEffect 8 basicWords o) := by
  unfold execSolveB issueSolve
  simp only [Bool.false_eq_true, if_false]
  rfl

theorem execSolveE_eq (t : Tid) (o : Opnds) (s : State) : execSolveE t o s = insn s t o 0x11 none (memForm 32) (solveEffect 32 (fun ws => ws) o) := by
  unfold execSolveE issueSolve
  simp only [if_true]
  rfl

section
variable {s s1 s2 : State} {v : Solve}

theorem queueSolve_room {pa : Nat} (hres : vaCheck s v.ctx v.result 1 .write = (s2, .ok pa)) (hroom : (svuOf s2 (coreOf v.key / 8)).queue.length < 7) :
    queueSolve v s =
      .done (setSvu s2 (coreOf v.key / 8) { svuOf s2 (coreOf v.key / 8) with queue := (svuOf s2 (coreOf v.key / 8)).queue ++ [v] }) := by
  simp only [queueSolve, hres, if_neg (Nat.not_le.2 hroom)]

theorem queueSolve_full {pa : Nat} (hres : vaCheck s v.ctx v.result 1 .write = (s2, .ok pa)) (hfull : 7 ≤ (svuOf s2 (coreOf v.key / 8)).queue.length) :
    queueSolve v s = .stay s2 := by
  simp only [queueSolve, hres, if_pos hfull]

theorem queueSolve_wait (hres : vaCheck s v.ctx v.result 1 .write = (s2, .wait)) : queueSolve v s = .stay s := by
  simp only [queueSolve, hres]

theorem queueSolve_err {e : AccErr} (hres : vaCheck s v.ctx v.result 1 .write = (s2, .err e)) : queueSolve v s = accTrap s2 e := by
  simp only [queueSolve, hres]

variable {n k : Nat} {words : List Word → List Word} {o : Opnds}

theorem solveEffect_misaligned (hmis : scalarVa s k o % 64 ≠ 0) : solveEffect n words o k s = .trap s 0x10 0x15 0 := if_pos hmis

variable (hal : scalarVa s k o % 64 = 0)
include hal

theorem solveEffect_err {e : AccErr} (hgot : vaBytes s (srcTh s k) (scalarVa s k o) (8 * n) = (s1, .err e)) : solveEffect n words o k s = accTrap s1 e := by
  rw [solveEffect, if_neg (not_not_intro hal), hgot]

theorem solveEffect_wait (hgot : vaBytes s (srcTh s k) (scalarVa s k o) (8 * n) = (s1, .wait)) : solveEffect n words o k s = .stay s := by
  rw [solveEffect, if_neg (not_not_intro hal), hgot]

theorem solveEffect_poisoned {bs : List Byte} (hgot : vaBytes s (srcTh s k) (scalarVa s k o) (8 * n) = (s1, .ok (bs, true))) :
    solveEffect n words o k s = .trap s1 0x12 0 0 := by
  simp only [solveEffect, if_neg (not_not_intro hal), hgot, if_true]

theorem solveEffect_read {bs : List Byte} (hgot : vaBytes s (srcTh s k) (scalarVa s k o) (8 * n) = (s1, .ok (bs, false))) :
    solveEffect n words o k s = queueSolve (solveOf n words o s k bs) s1 := by
  simp only [solveEffect, if_neg (not_not_intro hal), hgot, Bool.false_eq_true, if_false]

end

theorem solvesIssue : Sys2Proof.Parts.SolvesIssue := by
  intro c n words hform s t o _ hiss
  have hexec : exec (c t o) s = .next (finish (tkey t) 0x11 (solveEffect n words o (tkey t) s)) := by
    rw [← insn_of_issues hiss]
    rcases hform with hbasic | hexpert
    · cases hbasic
      exact execSolveB_eq t o s
    · cases hexpert
      exact execSolveE_eq t o s
  dsimp only
  rw [hexec]
  refine ⟨fun hmis => ?_, fun s1 e hal hgot => ?_, fun s1 hal hgot => ?_, fun s1 bs hal hgot => ?_, fun s1 bs hal hgot =>
    ⟨fun s2 pa hres => ⟨fun hroom => ?_, fun hfull => ?_⟩, fun s2 hres => ?_, fun s2 e hres => ?_⟩⟩
  · rw [solveEffect_misaligned hmis, finish]
  · rw [solveEffect_err hal hgot, accTrap, finish]
  · rw [solveEffect_wait hal hgot, finish]
  · rw [solveEffect_poisoned hal hgot, finish]
  all_goals rw [solveEffect_read hal hgot]
  · rw [queueSolve_room hres hroom, finish]
    rfl
  · rw [queueSolve_full hres hfull, finish]
  · rw [queueSolve_wait hres, finish]
  · rw [queueSolve_err hres, accTrap, finish]

end Sys2Proof.Machine
end

section
/-! The start of a solve (R184, R190, R194, R201, R211, R400). -/

namespace Sys2Proof.Machine

/-- R194, R195: a solve that its unit takes from its queue at the LTC `now`. -/
def newRun (v : Solve) (now : Nat) : Run :=
  ⟨v, 1, now, 0, 0, 0, 0, 0, 0, 0, 0, 0, none, 0, 0, 0, none, none, none, none, pre0, [], [], inner0, 0, 0, 0, 0, 0, 0, false, none, false, none, none⟩

/-- R194: a field out of range is the fault that the solve's setup votes with. -/
def checkedRun (v : Solve) (now : Nat) : Run := if v.ok then newRun v now else { newRun v now with bad := some (0x10, 0x46) }

/-- R211: the checked solve with the timer it has claimed, if any. -/
theorem withTimer_checkedRun (v : Solve) (now : Nat) (k : Option Nat) :
    { newRun v now with timer := k, bad := if v.ok then none else some (0x10, 0x46) } = { checkedRun v now with timer := k } := by
  unfold checkedRun
  split
  · rfl
  · rfl

theorem checkedRun_untimed (v : Solve) (now : Nat) : { checkedRun v now with timer := none } = checkedRun v now := by
  unfold checkedRun
  split
  · rfl
  · rfl

theorem execSolveStart_idle {s : State} {j : Nat} (h : (svuOf s j).act.isSome = true ∨ (svuOf s j).queue = []) : execSolveStart j s = .next s := by
  unfold execSolveStart
  dsimp only
  split
  · rfl
  · rename_i hgo
    rcases h with hact | hq
    · exact absurd (by simp [hact]) hgo
    · rw [hq]

section
variable {s : State} {j : Nat} {v : Solve} {rest : List Solve} (hissue : issuing s = true) (hj : j < 24) (hact : (svuOf s j).act = none)
  (hq : (svuOf s j).queue = v :: rest)
include hissue hj hact hq

/-- R201: a solve that cannot take part in its group's votes ends at once. -/
theorem execSolveStart_unvotable (hvote : v.votable = false) :
    execSolveStart j s = .next (endSolve (setSvu s j { svuOf s j with queue := rest }) j (newRun v s.ltc.toNat) 0x10 0x46 0 .keep) := by
  have hgo : (!issuing s || (svuOf s j).act.isSome || decide (24 ≤ j)) = false := by simp [hissue, hact, hj]
  simp only [execSolveStart, hgo, hq, hvote, Bool.false_eq_true, if_false, Bool.not_false, if_true]
  rfl

variable (hvote : v.votable = true)
include hvote

theorem execSolveStart_of_votable : execSolveStart j s = .next (
    let s1 := setSvu s j { svuOf s j with queue := rest }
    let s2 := endSolve s1 j (newRun v s.ltc.toNat) 0x30 0x49 0 .keep
    let timer := if v.deadline = 0 then none else claimTimer s1 v
    let s3 := setRun s1 j { checkedRun v s.ltc.toNat with timer := timer }
    if v.deadline ≠ 0 ∧ claimTimer s1 v = none then conflict s2 2 v.ctx 1 1 (some (partOf s2 v.ctx)) (rd s2 (R.DSP_TIMER v.ctx))
    else if timer.isSome then putTimers s3 v.ctx else s3) := by
  have hgo : (!issuing s || (svuOf s j).act.isSome || decide (24 ≤ j)) = false := by simp [hissue, hact, hj]
  simp only [execSolveStart, hgo, hq, hvote, Bool.false_eq_true, if_false, Bool.not_true, ← withTimer_checkedRun]
  rfl

end

theorem solvesStart : Sys2Proof.Parts.SolvesStart := by
  intro s j hinv hissue hj
  refine ⟨execSolveStart_idle, fun v rest hact hq => ⟨execSolveStart_unvotable hissue hj hact hq, fun hvote hdl hnone => ?_, fun hvote hdl => ?_,
    fun k hvote hdl hclaim => ?_⟩⟩
  all_goals refine (execSolveStart_of_votable hissue hj hact hq hvote).trans ?_
  · simp only [if_pos (And.intro hdl hnone)]
    rfl
  · simp only [hdl, ne_eq, not_true_eq_false, false_and, if_false, if_true, Option.isSome_none, Bool.false_eq_true, setRun_setSvu hinv, checkedRun_untimed]
    rfl
  · simp only [hdl, hclaim, ne_eq, not_false_eq_true, true_and, reduceCtorEq, if_false, Option.isSome_some, if_true]
    rfl

/-- Settles O47: SOLVE by `solveEffect`, which both forms of the instruction share; the start by what a votable solve does with its timer. -/
theorem solveQueue : Obligations.SolveQueue := ⟨solvesIssue, solvesStart⟩

end Sys2Proof.Machine
end

section
/-! A rank's own work of a stage, and its deadline in setup (R188, R193-R195, R197, R203, R206-R208). -/

namespace Sys2Proof.Machine

/-- What a piece of work that needs memory comes to: nothing while it waits; what its fault or its value gives else. -/
def worked {α : Type} (s : State) (w : State × SolRes α) (bad : State → Nat → Nat → State) (ok : State → α → State) : State :=
  match w with
  | (_, .wait) => s
  | (s1, .bad a b) => bad s1 a b
  | (s1, .ok x) => ok s1 x

/-- A command that answers what such work comes to, one clause per outcome. -/
theorem next_worked {α : Type} {s : State} {w : State × SolRes α} {bad : State → Nat → Nat → State} {ok : State → α → State} {run : Out}
    (hrun : run = .next (worked s w bad ok)) :
    (∀ s1, w = (s1, .wait) → run = .next s) ∧ (∀ s1 a b, w = (s1, .bad a b) → run = .next (bad s1 a b)) ∧
    (∀ s1 x, w = (s1, .ok x) → run = .next (ok s1 x)) := by
  refine ⟨fun s1 hw => ?_, fun s1 a b hw => ?_, fun s1 x hw => ?_⟩
  all_goals rw [hrun, hw, worked]

/-- R201, R203, R207: the rank can go on with its stage: it waits neither for its halo, nor for its vote, nor for another rank here. -/
structure GoesOn (s : State) (j : Nat) (r : Run) : Prop where
  act : (svuOf s j).act = some r
  issue : issuing s = true
  unvoted : r.vote = none
  halo : s.reqs.any (fun q => q.kind == .halo j) = false
  others : othersReady s j r = true

theorem execIterationBoundary_held {s : State} {j : Nat} {r : Run} (hact : (svuOf s j).act = some r)
    (hheld : issuing s = false ∨ r.vote.isSome = true ∨ s.reqs.any (fun q => q.kind == .halo j) = true ∨ othersReady s j r = false) :
    execIterationBoundary j s = .next s := by
  have hstop : (!issuing s || r.vote.isSome || s.reqs.any (fun q => q.kind == .halo j) || !othersReady s j r) = true := by
    rcases hheld with h | h | h | h <;> simp [h]
  simp only [execIterationBoundary, hact, hstop, if_true]

section
variable {s : State} {j : Nat} {r : Run} (hgo : GoesOn s j r)
include hgo

theorem GoesOn.not_held : (!issuing s || r.vote.isSome || s.reqs.any (fun q => q.kind == .halo j) || !othersReady s j r) = false := by
  simp [hgo.issue, hgo.unvoted, hgo.halo, hgo.others]

/-- R207: a solve that is finishing goes on with that. -/
theorem boundary_finishing (hstage : r.stage = 6) : execIterationBoundary j s = .next (tryFinish s j) := by
  simp only [execIterationBoundary, hgo.act, hgo.not_held, hstage, Bool.false_eq_true, if_false, if_true]

theorem boundary_warm (hstage : r.stage = 1) (hbad : r.bad.or (haloBad s j) = none) : execIterationBoundary j s = .next (worked s (warmWork s j r)
    (fun s1 a b => setRun s1 j { r with stage := 2, bad := some (a, b) }) (fun s1 q => setRun s1 j { q with stage := 2 })) := by
  simp only [execIterationBoundary, hgo.act, hgo.not_held, hstage, hbad, Bool.false_eq_true, if_false, OfNat.one_ne_ofNat]
  rcases warmWork s j r with ⟨s1, _ | _ | _⟩ <;> rfl

theorem boundary_setup {m : Mat} (hstage : r.stage = 2) (hbad : r.bad.or (haloBad s j) = none) (hmat : r.mat = some m) :
    execIterationBoundary j s = .next (worked s (setupWork s j r m)
      (fun s1 a b => voteSetup s1 j { r with bad := some (a, b) } [0, 0, 0, 0, 0, 0]) (fun s1 x => voteSetup s1 j x.1 x.2)) := by
  simp only [execIterationBoundary, hgo.act, hgo.not_held, hstage, hbad, hmat, Bool.false_eq_true, if_false, Nat.reduceEqDiff]
  rcases setupWork s j r m with ⟨s1, _ | _ | _⟩ <;> rfl

theorem boundary_faulted {e : Nat × Nat} (hstage : r.stage = 1 ∨ r.stage = 2) (hbad : r.bad.or (haloBad s j) = some e) :
    execIterationBoundary j s = .next (voteSetup s j { r with stage := 2, bad := some e } [0, 0, 0, 0, 0, 0]) := by
  rcases hstage with hstage | hstage
  · simp only [execIterationBoundary, hgo.act, hgo.not_held, hstage, hbad, Bool.false_eq_true, if_false, OfNat.one_ne_ofNat, Option.some_or]
  · simp only [execIterationBoundary, hgo.act, hgo.not_held, hstage, hbad, Bool.false_eq_true, if_false, Nat.reduceEqDiff, Option.some_or]

theorem boundary_outer {m : Mat} (hstage : r.stage = 3) (hbad : r.bad.or (haloBad s j) = none) (hmat : r.mat = some m) :
    execIterationBoundary j s = .next (worked s (outerWork s j r m)
      (fun s1 a b => atBoundary s1 j { r with bad := some (a, b) } fmOuter [voteWord 3 a b, 0, 0, 0, 0])
      (fun s1 x => atBoundary s1 j x.1 fmOuter (voteNow s1 x.1 :: x.2))) := by
  simp only [execIterationBoundary, hgo.act, hgo.not_held, hstage, hbad, hmat, Bool.false_eq_true, if_false, Nat.reduceEqDiff]
  rcases outerWork s j r m with ⟨s1, _ | _ | _⟩ <;> rfl

theorem boundary_outer_faulted {e : Nat × Nat} (hstage : r.stage = 3) (hbad : r.bad.or (haloBad s j) = some e) :
    execIterationBoundary j s = .next (atBoundary s j { r with bad := some e } fmOuter [voteWord 3 e.1 e.2, 0, 0, 0, 0]) := by
  simp only [execIterationBoundary, hgo.act, hgo.not_held, hstage, hbad, Bool.false_eq_true, if_false, Nat.reduceEqDiff]
  rfl

theorem boundary_inner {m : Mat} (hstage : r.stage = 4) (hbad : r.bad.or (haloBad s j) = none) (hmat : r.mat = some m) :
    execIterationBoundary j s = .next (worked s (innerProduct s j r m)
      (fun s1 a b => innerBoundary s1 j { r with bad := some (a, b) } []) (fun s1 p => innerBoundary s1 j r p)) := by
  simp only [execIterationBoundary, hgo.act, hgo.not_held, hstage, hbad, hmat, Bool.false_eq_true, if_false, Nat.reduceEqDiff]
  rcases innerProduct s j r m with ⟨s1, _ | _ | _⟩ <;> rfl

theorem boundary_inner_faulted {e : Nat × Nat} (hstage : r.stage = 4) (hbad : r.bad.or (haloBad s j) = some e) :
    execIterationBoundary j s = .next (innerBoundary s j { r with bad := some e } []) := by
  simp only [execIterationBoundary, hgo.act, hgo.not_held, hstage, hbad, Bool.false_eq_true, if_false, Nat.reduceEqDiff]

end

/-- R208: a deadline acts on a rank that is in its setup, has found no fault, and has not voted. -/
theorem execSolveDeadlineExpiry_idle {s : State} {j : Nat} {r : Run} (hact : (svuOf s j).act = some r)
    (hidle : r.stage ≠ 2 ∨ r.vote.isSome = true ∨ r.bad.isSome = true ∨ r.sol.deadline = 0 ∨ s.ltc.toNat < r.sol.deadline) :
    execSolveDeadlineExpiry j s = .next s := by
  have hstop : (!issuing s || decide (r.stage ≠ 2) || r.vote.isSome || r.bad.isSome || decide (r.sol.deadline = 0) ||
      decide (s.ltc.toNat < r.sol.deadline)) = true := by
    rcases hidle with h | h | h | h | h <;> simp [h]
  simp only [execSolveDeadlineExpiry, hact, hstop, if_true]

section
variable (s : State) (j : Nat) (r : Run) (m : Mat)

/-- R208: the valid factor that a rank whose deadline has passed would reuse. -/
def reused : State × SolRes Bool := withFactor s j r.sol m (fun s old => (s, SolRes.ok old.isSome))

/-- R208: the factor that the rank was making loses its validity. -/
def abandoned : State :=
  vaUndef { s with factors := s.factors.filter (fun f => !(f.ctx == r.sol.ctx && f.va == factAt r.sol m)) } r.sol.ctx (factAt r.sol m) (workSize r.sol m).2

/-- R206, R208: the rank votes class 2 at once. -/
def votesDeadline : State :=
  atBoundary s j { r with factNs := s.ltc.toNat - r.start } fmSetup [voteWord 2 0 0x40, solDigest r.sol, solDigest r.sol, 0, 0, 0, 0]

end

/-- R208: the deadline has passed in a rank's setup, in which it has found no fault and has not voted. -/
structure Overdue (s : State) (j : Nat) (r : Run) (m : Mat) : Prop where
  act : (svuOf s j).act = some r
  issue : issuing s = true
  stage : r.stage = 2
  unvoted : r.vote = none
  sound : r.bad = none
  set : r.sol.deadline ≠ 0
  past : r.sol.deadline ≤ s.ltc.toNat
  mat : r.mat = some m

section
variable {s s1 : State} {j : Nat} {r : Run} {m : Mat} (hdue : Overdue s j r m)
include hdue

theorem Overdue.not_idle : (!issuing s || decide (r.stage ≠ 2) || r.vote.isSome || r.bad.isSome || decide (r.sol.deadline = 0) ||
    decide (s.ltc.toNat < r.sol.deadline)) = false := by
  simp [hdue.issue, hdue.stage, hdue.unvoted, hdue.sound, hdue.set, hdue.past]

theorem execSolveDeadlineExpiry_wait (hold : reused s j r m = (s1, .wait)) : execSolveDeadlineExpiry j s = .next s := by
  unfold reused at hold
  simp only [execSolveDeadlineExpiry, hdue.act, hdue.not_idle, hdue.mat, hold, Bool.false_eq_true, if_false]

/-- R208: a factor that is reused was complete, and stays; so does what there is without one. -/
theorem execSolveDeadlineExpiry_ok {kept : Bool} (hold : reused s j r m = (s1, .ok kept)) :
    execSolveDeadlineExpiry j s = .next (votesDeadline (if kept || r.sol.precond == 3 then s1 else abandoned s1 r m) j r) := by
  unfold reused at hold
  simp only [execSolveDeadlineExpiry, votesDeadline, hdue.act, hdue.not_idle, hdue.mat, hold, Bool.false_eq_true, if_false]
  rfl

theorem execSolveDeadlineExpiry_bad {a b : Nat} (hold : reused s j r m = (s1, .bad a b)) :
    execSolveDeadlineExpiry j s = .next (votesDeadline (if r.sol.precond == 3 then s1 else abandoned s1 r m) j r) := by
  unfold reused at hold
  simp only [execSolveDeadlineExpiry, votesDeadline, hdue.act, hdue.not_idle, hdue.mat, hold, Bool.false_eq_true, if_false, Bool.false_or]
  rfl

/-- R208: once the deadline has passed, the rank votes, and keeps its factor's validity or loses it. -/
theorem execSolveDeadlineExpiry_of_passed {o : SolRes Bool} (hold : reused s j r m = (s1, o)) :
    (o = .wait → execSolveDeadlineExpiry j s = .next s) ∧
    (o = .ok true ∨ (r.sol.precond = 3 ∧ o ≠ .wait) → execSolveDeadlineExpiry j s = .next (votesDeadline s1 j r)) ∧
    (o ≠ .ok true → o ≠ .wait → r.sol.precond ≠ 3 → execSolveDeadlineExpiry j s = .next (votesDeadline (abandoned s1 r m) j r)) := by
  rcases o with kept | ⟨a, b⟩ | _
  · rw [execSolveDeadlineExpiry_ok hdue hold]
    refine ⟨nofun, fun hkeep => ?_, fun hmade _ hpre => ?_⟩
    · have hstays : (kept || r.sol.precond == 3) = true := by simpa using hkeep
      rw [if_pos hstays]
    · rw [if_neg (by simpa [hpre] using hmade)]
  · rw [execSolveDeadlineExpiry_bad hdue hold]
    refine ⟨nofun, fun hkeep => ?_, fun _ _ hpre => ?_⟩
    · rw [if_pos (by simpa using hkeep)]
    · rw [if_neg (by simpa using hpre)]
  · exact ⟨fun _ => execSolveDeadlineExpiry_wait hdue hold, fun h => by simp at h, fun _ h => absurd rfl h⟩

end

theorem solverBoundaries : Sys2Proof.Parts.SolverBoundaries := by
  intro s j r _ hact
  refine ⟨execIterationBoundary_held hact, fun hissue hvote hhalo hothers => ?_, fun m s1 o hissue hstage hvote hbad hset hpast hmat hold => ?_,
    execSolveDeadlineExpiry_idle hact⟩
  · have hgo : GoesOn s j r := ⟨hact, hissue, hvote, hhalo, hothers⟩
    refine ⟨fun hstage hbad => next_worked (boundary_warm hgo hstage hbad), fun m hstage hbad hmat => ?_, fun e hstage hbad => boundary_faulted hgo hstage hbad,
      fun m hstage hbad hmat => ?_, fun e hstage hbad => boundary_outer_faulted hgo hstage hbad,
      fun m hstage hbad hmat => next_worked (boundary_inner hgo hstage hbad hmat), fun e hstage hbad => boundary_inner_faulted hgo hstage hbad⟩
    · obtain ⟨hwait, hfault, hok⟩ := next_worked (boundary_setup hgo hstage hbad hmat)
      exact ⟨hwait, hfault, fun s1 q slots => hok s1 (q, slots)⟩
    · obtain ⟨hwait, hfault, hok⟩ := next_worked (boundary_outer hgo hstage hbad hmat)
      exact ⟨hwait, hfault, fun s1 q slots => hok s1 (q, slots)⟩
  · exact execSolveDeadlineExpiry_of_passed ⟨hact, hissue, hstage, hvote, hbad, hset, hpast, hmat⟩ hold

end Sys2Proof.Machine
end

section
/-! A boundary's reduction that has come back is shared by the ranks of the package (R201, R206, R303). -/

namespace Sys2Proof.Machine

/-- R201: a rank that waits for the reduction that unit `l` fired takes its result. -/
def giveResult (l : Nat) (res : Nat × Nat × List Nat) (s : State) (kv : Nat × Svu) : State :=
  match kv.2.act with
  | some r => if r.lead = some l ∧ r.got = none then setRun s kv.1 { r with got := some res } else s
  | none => s

section
variable {l : Nat} {res : Nat × Nat × List Nat}

theorem giveResult_inv {s : State} (h : s.Inv) (kv : Nat × Svu) : (giveResult l res s kv).Inv := by
  unfold giveResult
  split
  · split
    · exact setRun_inv h ..
    · exact h
  · exact h

theorem svuOf_giveResult_ne {s : State} (h : s.Inv) {j : Nat} {kv : Nat × Svu} (hne : kv.1 ≠ j) : svuOf (giveResult l res s kv) j = svuOf s j := by
  unfold giveResult
  split
  · split
    · exact svuOf_setRun_ne h _ hne.symm
    · rfl
  · rfl

variable {j : Nat} {r : Run} (hlead : r.lead = some l) (hgot : r.got = none)
include hlead hgot

theorem act_giveResult_same {s : State} (h : s.Inv) {u : Svu} (hu : u.act = some r) :
    (svuOf (giveResult l res s (j, u)) j).act = some { r with got := some res } := by
  simp only [giveResult, hu, hlead, hgot, and_self, if_true, svuOf_setRun_same h]

/-- A rank that waits has its result once its unit's turn has come, and keeps it. -/
theorem act_foldl_giveResult (us : List (Nat × Svu)) (hus : ∀ kv ∈ us, kv.1 = j → kv.2.act = some r) : ∀ {s : State}, s.Inv →
    (svuOf s j).act = some { r with got := some res } ∨ (∃ u, (j, u) ∈ us) →
    (svuOf (us.foldl (giveResult l res) s) j).act = some { r with got := some res } := by
  induction us with
  | nil => exact fun _ h => h.resolve_right fun ⟨_, hmem⟩ => List.not_mem_nil hmem
  | cons kv us ih =>
    intro s h hhas
    refine ih (fun kv hkv => hus kv (List.mem_cons_of_mem _ hkv)) (giveResult_inv h kv) ?_
    by_cases hkey : kv.1 = j
    · obtain ⟨i, u⟩ := kv
      subst hkey
      exact .inl (act_giveResult_same hlead hgot h (hus _ List.mem_cons_self rfl))
    · refine hhas.imp (fun hdone => ?_) fun ⟨u, hmem⟩ => ⟨u, (List.mem_cons.1 hmem).resolve_left fun heq => hkey (heq ▸ rfl)⟩
      rwa [svuOf_giveResult_ne h hkey]

end

section
variable {s : State} {j : Nat} {r : Run} (hact : (svuOf s j).act = some r)
include hact

theorem shareResult_of_no_lead (hlead : r.lead = none) : shareResult s j = s := by
  simp only [shareResult, hact, hlead, Option.bind_some]

variable {l : Nat} {c : Coll} (hlead : r.lead = some l) (hdone : s.colls.find? (fun c => c.user == .svu l && c.done) = some c)
include hlead hdone

theorem shareResult_of_done : shareResult s j = s.svus.foldl
    (giveResult l ((collStatus s c).1, (collStatus s c).2, boundarySlots c ++ [(Config.freeBits 64 s.free).toNat])) (collEnd (spend s 1) c) := by
  simp only [shareResult, hact, hlead, hdone, Option.bind_some]
  rfl

theorem act_shareResult (hinv : s.Inv) (hgot : r.got = none) : (svuOf (shareResult s j) j).act =
    some { r with got := some ((collStatus s c).1, (collStatus s c).2, boundarySlots c ++ [(Config.freeBits 64 s.free).toNat]) } := by
  rw [shareResult_of_done hact hlead hdone]
  have hended : (collEnd (spend s 1) c).Inv := (collEnd_kept _ c (spend_kept s 1 (inv_kept hinv))).2
  refine act_foldl_giveResult hlead hgot s.svus (fun kv hmem hkey => ?_) hended (.inr ⟨_, mem_svus_of_act hact⟩)
  rw [← sget_of_mem (fun _ => svu0) hinv.svus hmem, hkey]
  exact hact

end

section
variable {s : State} {j : Nat}

theorem execBoundaryReductionResult_idle (hact : (svuOf (shareResult s j) j).act = none) : execBoundaryReductionResult j s = .next (shareResult s j) := by
  simp only [execBoundaryReductionResult, hact]

variable {r : Run} (hact : (svuOf (shareResult s j) j).act = some r)
include hact

theorem execBoundaryReductionResult_early (hgot : r.got = none) : execBoundaryReductionResult j s = .next (shareResult s j) := by
  simp only [execBoundaryReductionResult, hact, hgot]

/-- R214: the rank's wait for a reduction is counted when it takes the result. -/
def waitCounted (s : State) (j : Nat) (r : Run) : State :=
  addDiv s (R.SOL_BUSY (j / 12) (j % 12)) 32 32 64 ((s.ltc.toNat - r.since) * rdf s R.CLK_STATUS 8 8 / 20)

theorem execBoundaryReductionResult_of_got {st sub : Nat} {sl : List Nat} {x : Option State} (hgot : r.got = some (st, sub, sl))
    (htook : tookResult (waitCounted (shareResult s j) j r) j r st sl = x) : execBoundaryReductionResult j s = .next (x.getD (shareResult s j)) := by
  unfold waitCounted at htook
  simp only [execBoundaryReductionResult, hact, hgot, htook]
  cases x
  · rfl
  · rfl

end

end Sys2Proof.Machine
end

section
/-! What a rank does with the result of its boundary's reduction (R195-R197, R201, R205-R209). -/

namespace Sys2Proof.Machine

/-- R205, R206: what a rank keeps of its group's setup vote. -/
def setupTaken (r : Run) (sl : List Nat) : Run :=
  { r with flags := nth sl 3 &&& 0b1011, bzero := !(nth sl 3).testBit 2, resid := some (nth sl 8) }

/-- R195: what a rank keeps of an outer boundary: the norms of its iterate, and its RESID. -/
def outerTaken (r : Run) (sl : List Nat) : Run :=
  { r with rn := normOf (nth sl 1) (nth sl 2), ri := nth sl 3, xi := nth sl 4,
           resid := some (if r.bzero then nth sl 8 else c64 (fDiv (v64 (normOf (nth sl 1) (nth sl 2))) (v64 r.bn))) }

/-- R206: CLASS of a reduced vote. -/
abbrev voteClass (sl : List Nat) : Nat := nfld (nth sl 0) 56 8
/-- R206: the status of a reduced vote. -/
abbrev voteStatus (sl : List Nat) : Nat := nfld (nth sl 0) 48 8
/-- R206: the subcode of a reduced vote. -/
abbrev voteSub (sl : List Nat) : Nat := nfld (nth sl 0) 40 8

section
variable {s : State} {j : Nat} {r : Run} {m : Mat} {st : Nat} {sl : List Nat}

theorem tookResult_failed (hst : 0x10 ≤ st) : tookResult s j r st sl = some (endSolve s j r st 0x4A 0 .undef) := if_pos hst

variable (hst : st < 0x10)
include hst

section
variable (hstage : r.stage = 2)
include hstage

theorem tookResult_setup_fault (hcls : voteClass sl = 3) :
    tookResult s j r st sl = some (endSolve s j (setupTaken r sl) (voteStatus sl) (voteSub sl) 3 .keep) := by
  simp only [tookResult, setupTaken, if_neg (Nat.not_le.2 hst), hstage, hcls, ne_eq, not_true_eq_false, and_false, if_false, if_true,
    Nat.reduceEqDiff, not_false_eq_true, true_or, and_self]

theorem tookResult_setup_mismatch (hcls : voteClass sl ≠ 3) (hdig : nth sl 1 ≠ nth sl 2) :
    tookResult s j r st sl = some (endSolve s j (setupTaken r sl) 0x11 0x48 (voteClass sl) .keep) := by
  simp only [tookResult, setupTaken, if_neg (Nat.not_le.2 hst), hstage, hcls, hdig, ne_eq, not_false_eq_true, and_self, if_true]

theorem tookResult_setup (hcls : voteClass sl ≠ 3) (hdig : nth sl 1 = nth sl 2) (hmat : r.mat = some m) :
    tookResult s j r st sl = afterSetup s j (setupTaken r sl) m (voteClass sl) (voteSub sl) sl := by
  simp only [tookResult, setupTaken, if_neg (Nat.not_le.2 hst), hstage, hcls, hdig, hmat, ne_eq, not_true_eq_false, and_false, false_and, if_false, if_true]

end

section
variable (hstage : r.stage = 3)
include hstage

theorem tookResult_outer_fault (hcls : voteClass sl = 3) :
    tookResult s j r st sl = some (endSolve s j r (voteStatus sl) (voteSub sl) 3 .undef) := by
  simp [tookResult, if_neg (Nat.not_le.2 hst), hstage, hcls]

theorem tookResult_outer (hcls : voteClass sl ≠ 3) (hmat : r.mat = some m) : tookResult s j r st sl = afterOuter s j r m (voteClass sl) sl := by
  simp [tookResult, if_neg (Nat.not_le.2 hst), hstage, hcls, hmat]

end

section
variable (hstage : r.stage = 4)
include hstage

theorem tookResult_inner_fault (hvotes : r.inn.votes r.sol.method = true) (hcls : voteClass sl = 3) :
    tookResult s j r st sl = some (endSolve s j r (voteStatus sl) (voteSub sl) 3 .undef) := by
  simp [tookResult, if_neg (Nat.not_le.2 hst), hstage, hvotes, hcls]

theorem tookResult_inner (hvotes : r.inn.votes r.sol.method = true) (hcls : voteClass sl ≠ 3) (hmat : r.mat = some m) :
    tookResult s j r st sl = afterInner s j r m (voteClass sl) sl := by
  simp [tookResult, if_neg (Nat.not_le.2 hst), hstage, hvotes, hcls, hmat]

/-- R197: a reduction without a vote decides nothing. -/
theorem tookResult_mid (hvotes : r.inn.votes r.sol.method = false) (hmat : r.mat = some m) : tookResult s j r st sl =
    stepInner (spend s (innerFree m.nrows r.inn.basis.length)) j { r with inn := innerMid r.sol.method r.pre s.free r.inn sl } m := by
  simp [tookResult, if_neg (Nat.not_le.2 hst), hstage, hvotes, hmat]

end

end

end Sys2Proof.Machine
end

section
/-! The outcomes of a setup vote, of an outer boundary and of an inner iteration (R195-R197, R205, R207-R209). -/

namespace Sys2Proof.Machine

section
variable {s : State} {j : Nat} {r : Run} {m : Mat} {cls sub : Nat} {sl : List Nat}

theorem afterSetup_deadline (hcls : cls ≠ 0) : afterSetup s j r m cls sub sl = some (endSolve s j r 3 (if cls = 2 then sub else 0) cls .fallback) := if_pos hcls

theorem afterSetup_agreed (hcls : cls = 0) :
    afterSetup s j r m cls sub sl = startOuter s j { r with bn := normOf (nth sl 4) (nth sl 5), an := nth sl 6, resid := none } m :=
  if_neg (not_not_intro hcls)

/-- R195, R196: the iterate meets the floor test or the target. -/
abbrev Good (r : Run) : Prop := floorTest r = true ∨ targetTest r = true

theorem good_iff : (floorTest r || targetTest r) = true ↔ Good r := by rw [Bool.or_eq_true]

theorem deadlineEnd_of_good (hgood : Good r) : deadlineEnd s j r cls = endSolve s j r.floored (okStatus r) (degSub r) cls .iterate :=
  if_pos (good_iff.2 hgood)

/-- R209: without them, RESID against the descriptor's limit decides between the iterate and the fallback. -/
theorem deadlineEnd_of_not_good {c : Nat} (hnot : ¬ Good r) (hc : r.resid = some c) : deadlineEnd s j r cls =
    if fLe (v64 c) (f64 (r.sol.w 5)) then endSolve s j r 2 (degSub r) cls .iterate else endSolve s j r 3 (degSub r) cls .fallback := by
  simp only [deadlineEnd, if_neg (mt good_iff.1 hnot), hc]

/-- R207: the residual has grown by more than the descriptor allows since the outer boundary before. -/
abbrev Grown (r : Run) (sl : List Nat) : Prop :=
  r.k ≠ 0 ∧ fLt (fMul (f64 (r.sol.w 13)) (v64 r.rn)) (v64 (normOf (nth sl 1) (nth sl 2))) = true

theorem grown_iff : (decide (r.k ≠ 0) && fLt (fMul (f64 (r.sol.w 13)) (v64 r.rn)) (v64 (normOf (nth sl 1) (nth sl 2)))) = true ↔ Grown r sl := by
  rw [Bool.and_eq_true, decide_eq_true_iff, Grown]

/-- R195, R207, R209: the tests of steps 5 to 8, in their order. -/
theorem afterOuter_eq : afterOuter s j r m cls sl =
    let q := outerTaken r sl
    if r.final = true then some (deadlineEnd s j q 1)
    else if r.bzero = true then some (endSolve s j { q with flags := q.flags % 4 + 4 + q.flags / 8 * 8 } (okStatus q) (degSub q) cls .zeros)
    else if cls ≠ 0 then some (deadlineEnd s j q cls)
    else if Good q then some (endSolve s j q.floored (okStatus q) (degSub q) 0 .iterate)
    else if Grown r sl then some (endSolve s j q 0x31 0x45 0 .iterate)
    else if r.k = fld (r.sol.w 9) 6 4 then some (endSolve s j q 0x31 0x42 0 .iterate)
    else if r.sol.maxit ≤ r.iters then some (endSolve s j q 0x31 0x43 0 .iterate)
    else stepInner (spend s (innerFree m.nrows 1)) j { q with inIts := 0, prev := q.rn, inn := innerStart r.sol.method r.pre s.free r.res q.rn } m := by
  refine if_congr Iff.rfl rfl (if_congr Iff.rfl rfl (ite_congr rfl (fun _ => rfl) fun hzero => ?_))
  obtain rfl := not_not.1 hzero
  exact if_congr good_iff rfl (if_congr (grown_iff (r := r)) rfl rfl)

end

section
variable {s : State} {j : Nat} {r : Run} {m : Mat} {cls : Nat} {sl : List Nat}

/-- R195, R197: the inner solve when its iteration's vote has come back, and the norm of the correction's residual. -/
abbrev votedInner (r : Run) (sl : List Nat) : Inner × Nat := innerVoted r.sol.method r.inn sl 1

/-- R195: the run with the correction added to its iterate. -/
def corrected (s : State) (r : Run) (sl : List Nat) : Run :=
  { r with inn := (votedInner r sl).1, x := addD r.x (innerD r.sol.method s.free (votedInner r sl).1) }

/-- R207: the inner solve has made enough progress, or as many iterations as it may. -/
abbrev Enough (r : Run) (sl : List Nat) : Prop :=
  fLe (v64 (votedInner r sl).2) (fMul (f64 (r.sol.w 10)) (v64 r.prev)) = true ∨ (fld (r.sol.w 9) 32 32 ≠ 0 ∧ fld (r.sol.w 9) 32 32 ≤ r.inIts)

theorem enough_iff : (fLe (v64 (votedInner r sl).2) (fMul (f64 (r.sol.w 10)) (v64 r.prev)) ||
    (fld (r.sol.w 9) 32 32 != 0 && fld (r.sol.w 9) 32 32 ≤ r.inIts)) = true ↔ Enough r sl := by
  simp only [Enough, Bool.or_eq_true, Bool.and_eq_true, bne_iff_ne, decide_eq_true_eq]

/-- R195, R207: a deadline or enough progress takes the corrected iterate to an outer boundary; a breakdown or the limit of iterations ends the solve; else the next iteration begins. -/
theorem afterInner_eq : afterInner s j r m cls sl =
    let y := (votedInner r sl).1
    let t := spend s (innerFree m.nrows y.basis.length)
    if cls ≠ 0 then startOuter (solWork t j (cdiv m.nrows 32)) j { corrected s r sl with final := true } m
    else if y.brk = true then some (endSolve s j { r with inn := y } 0x31 0x44 0 .iterate)
    else if Enough r sl then startOuter (solWork t j (cdiv m.nrows 32)) j { corrected s r sl with k := r.k + 1 } m
    else if r.sol.maxit ≤ r.iters then some (endSolve s j { r with inn := y } 0x31 0x43 0 .iterate)
    else stepInner t j { r with inn := innerNext r.sol.method (r.sol.restart + 1) r.pre s.free y sl 1,
                                restarts := if r.sol.method == 2 && r.sol.restart + 1 ≤ y.rots.length then r.restarts + 1 else r.restarts } m := by
  refine ite_congr rfl (fun _ => rfl) fun hzero => ?_
  obtain rfl := not_not.1 hzero
  exact if_congr Iff.rfl rfl (if_congr (enough_iff (r := r)) rfl rfl)

end

end Sys2Proof.Machine
end

section
/-! What a boundary's reduction comes to (R195-R197, R201, R205-R210, R214). -/

namespace Sys2Proof.Machine

theorem solverResults : Sys2Proof.Parts.SolverResults := by
  refine ⟨fun s j hinv => ⟨fun r => shareResult_of_no_lead, fun r l c hact hlead hgot hdone => act_shareResult hact hlead hdone hinv hgot,
    execBoundaryReductionResult_idle, fun r => execBoundaryReductionResult_early⟩, fun s j r st sub sl _ hact hgot => ?_⟩
  have hgoes {x : Option State} (htook : tookResult (waitCounted (shareResult s j) j r) j r st sl = x) :
      exec (.boundaryReductionResult j) s = .next (x.getD (shareResult s j)) := execBoundaryReductionResult_of_got hact hgot htook
  have hends {t : State} (htook : tookResult (waitCounted (shareResult s j) j r) j r st sl = some t) :
      exec (.boundaryReductionResult j) s = .next t := (hgoes htook).trans (by rw [Option.getD_some])
  refine ⟨fun hst => hends (tookResult_failed hst), fun hst hstage => ?_, fun hst hstage hcls => hends (tookResult_outer_fault hst hstage hcls),
    fun m hst hstage hcls hmat => ?_, fun hst hstage hvotes hcls => hends (tookResult_inner_fault hst hstage hvotes hcls),
    fun m hst hstage hvotes hcls hmat => ?_, fun m hst hstage hvotes hmat => hgoes (tookResult_mid hst hstage hvotes hmat)⟩
  · refine ⟨fun hcls => hends (tookResult_setup_fault hst hstage hcls), fun hcls hdig => hends (tookResult_setup_mismatch hst hstage hcls hdig),
      fun m hcls hdig hmat hdl => hends ?_, fun m hcls hdig hmat => hgoes ?_⟩
    · exact (tookResult_setup hst hstage hcls hdig hmat).trans (afterSetup_deadline hdl)
    · exact (tookResult_setup hst hstage (by simp [hcls]) hdig hmat).trans (afterSetup_agreed hcls)
  · have hafter := (tookResult_outer (s := waitCounted (shareResult s j) j r) (j := j) hst hstage hcls hmat).trans afterOuter_eq
    have hno {b : Bool} (h : b = false) : ¬ b = true := by simp [h]
    refine ⟨fun hfinal => hends ?_, fun hfinal hb => hends ?_, fun hfinal hb hdl => hends ?_, fun hfinal hb hzero hgood => hends ?_,
      fun hfinal hb hzero hnot hgrown => hends ?_, fun hfinal hb hzero hnot hgrown hk => hends ?_, fun hfinal hb hzero hnot hgrown hk hmax => hends ?_,
      fun hfinal hb hzero hnot hgrown hk hmax => hgoes ?_, deadlineEnd_of_good, fun c => deadlineEnd_of_not_good⟩
    · exact hafter.trans (if_pos hfinal)
    all_goals refine hafter.trans ((if_neg (hno hfinal)).trans ?_)
    · exact if_pos hb
    all_goals refine (if_neg (hno hb)).trans ?_
    · exact if_pos hdl
    all_goals refine (if_neg (not_not_intro hzero)).trans ?_
    · exact if_pos hgood
    all_goals refine (if_neg hnot).trans ?_
    · exact if_pos hgrown
    all_goals refine (if_neg hgrown).trans ?_
    · exact if_pos hk
    all_goals refine (if_neg hk).trans ?_
    · exact if_pos hmax
    · exact if_neg (Nat.not_le.2 hmax)
  · have hafter := (tookResult_inner (s := waitCounted (shareResult s j) j r) (j := j) hst hstage hvotes hcls hmat).trans afterInner_eq
    refine ⟨fun hdl => hgoes ?_, fun hzero hbrk => hends ?_, fun hzero hsound henough => hgoes ?_, fun hzero hsound hmore hmax => hends ?_,
      fun hzero hsound hmore hmax => hgoes ?_⟩
    · exact hafter.trans (if_pos hdl)
    all_goals refine hafter.trans ((if_neg (not_not_intro hzero)).trans ?_)
    · exact if_pos hbrk
    all_goals refine (if_neg (by simp [hsound])).trans ?_
    · exact if_pos henough
    all_goals refine (if_neg hmore).trans ?_
    · exact if_pos hmax
    · exact if_neg (Nat.not_le.2 hmax)

end Sys2Proof.Machine
end

section
/-! The end of a solve: its output slot, its result record and its arrival counter (R187, R207, R209, R211, R213, R214). -/

namespace Sys2Proof.Machine

/-- R213: the write of the result record of a solve that ends with this status. -/
def recordPut (s : State) (src : Src) (r : Run) (st sub cls : Nat) : State × MemRes Unit :=
  vaPut (spend s 1) src r.sol.result (resultRecord s r st sub cls (r.resid.getD (Config.freeBits 64 s.free).toNat))

/-- R187, R213, R214: once its output is done with, a solve's record is written, its unit is free, and its arrival counter moves; `s` is the state to which it returns while memory waits. -/
def recorded (s : State) (j : Nat) (r : Run) (put : State × MemRes Unit) (st cls : Nat) : State :=
  match put with
  | (_, .wait) => s
  | (u, .err _) => freeSvu u j r st cls
  | (u, .ok ()) => arrive (freeSvu u j r st cls) r.sol.key r.sol.gen r.sol.cnt

theorem next_recorded {s : State} {j : Nat} {r : Run} {put : State × MemRes Unit} {st cls : Nat} {run : Out} (hrun : run = .next (recorded s j r put st cls)) :
    (∀ u, put = (u, .wait) → run = .next s) ∧ (∀ u e, put = (u, .err e) → run = .next (freeSvu u j r st cls)) ∧
    (∀ u, put = (u, .ok ()) → run = .next (arrive (freeSvu u j r st cls) r.sol.key r.sol.gen r.sol.cnt)) := by
  refine ⟨fun u hput => ?_, fun u e hput => ?_, fun u hput => ?_⟩
  all_goals rw [hrun, hput, recorded]

section
variable {s s1 : State} {j : Nat} {r : Run} {st sub cls : Nat} {out : SolOut} (hact : (svuOf s j).act = some r) (hfin : r.fin = some (st, sub, cls, out))
include hact hfin

theorem tryFinish_wait (hput : putOutput s (srcSvu s j r.sol.ctx) r out = (s1, .wait)) : tryFinish s j = s := by
  simp only [tryFinish, hact, hfin, hput]

theorem tryFinish_ok (hput : putOutput s (srcSvu s j r.sol.ctx) r out = (s1, .ok ())) :
    tryFinish s j = recorded s j r (recordPut s1 (srcSvu s j r.sol.ctx) r st sub cls) st cls := by
  rcases hrec : recordPut s1 (srcSvu s j r.sol.ctx) r st sub cls with ⟨u, _ | _ | _⟩
  all_goals
    unfold recordPut at hrec
    simp only [tryFinish, hact, hfin, hput, hrec, recorded]

/-- R209: an output that cannot be read or written any more makes the status its fault. -/
theorem tryFinish_bad {a b : Nat} (hput : putOutput s (srcSvu s j r.sol.ctx) r out = (s1, .bad a b)) :
    tryFinish s j = recorded s j r (recordPut s1 (srcSvu s j r.sol.ctx) r a b cls) a cls := by
  rcases hrec : recordPut s1 (srcSvu s j r.sol.ctx) r a b cls with ⟨u, _ | _ | _⟩
  all_goals
    unfold recordPut at hrec
    simp only [tryFinish, hact, hfin, hput, hrec, recorded]

end

/-- R211, R214: freeing a unit is its idle state, and registers, messages and requests of its own. -/
theorem svus_freeSvu (s : State) (j : Nat) (r : Run) (st cls : Nat) : (freeSvu s j r st cls).svus = (setSvu s j { svuOf s j with act := none }).svus := by
  unfold freeSvu
  extract_lets u s1 s2 a s3 s4 s5
  have htimers : s2.svus = s1.svus := by
    unfold s2
    split
    · exact svus_putTimers ..
    · rfl
  have hlate : s4.svus = s3.svus := by
    unfold s4
    split
    · rfl
    · rfl
  have hfellBack : s5.svus = s4.svus := by
    unfold s5
    split
    · rfl
    · rfl
  exact hfellBack.trans (hlate.trans htimers)

theorem svuOf_freeSvu {s : State} (h : s.Inv) (j : Nat) (r : Run) (st cls : Nat) : svuOf (freeSvu s j r st cls) j = { svuOf s j with act := none } :=
  (svuOf_of_svus (svus_freeSvu s j r st cls) j).trans (svuOf_setSvu_same h ..)

theorem solvesEnd : Sys2Proof.Parts.SolvesEnd := by
  intro s s1 j r st sub cls out o hinv hact hstage hfin hissue hvote hhalo hothers src hput put run ends
  have hrun : run = .next (tryFinish s j) := boundary_finishing ⟨hact, hissue, hvote, hhalo, hothers⟩ hstage
  refine ⟨fun hwait => ?_, fun hok => ?_, fun a b hbad => ?_, by rw [svuOf_freeSvu hinv], by rw [svuOf_freeSvu hinv]⟩
  · subst hwait
    rw [hrun, tryFinish_wait hact hfin hput]
  · subst hok
    exact next_recorded (hrun.trans (congrArg _ (tryFinish_ok hact hfin hput)))
  · subst hbad
    exact next_recorded (hrun.trans (congrArg _ (tryFinish_bad hact hfin hput)))

/-- Settles O48: each stage by what its work comes to (`worked`); the results by the order of a boundary's tests (`afterOuter_eq`, `afterInner_eq`); the end by what writing the record answers. -/
theorem solverVotes : Obligations.SolverVotes := ⟨solverBoundaries, solverResults, solvesEnd⟩

end Sys2Proof.Machine
end

section
/-! READ, WRITE and WRITEF at their target (R216, R232, R259-R261, R385). -/

namespace Sys2Proof.Machine

/-! R216, R260: the bytes that a masked write puts into its line. -/

/-- R260: a write of one byte of a line, where the mask selects it. -/
def putMaskedByte (a mask : Nat) (bs : List Byte) (s : State) (i : Nat) : State := if mask.testBit i then physPut s (a + i) [bs.getD i 0] else s

/-- R260: the bytes of a masked write, before their line is marked and moved. -/
def putMaskedBytes (s : State) (a mask : Nat) (bs : List Byte) : State :=
  if mask = 2 ^ 64 - 1 then physPut s a (padTo 64 bs) else (List.range 64).foldl (putMaskedByte a mask bs) s

theorem putMasked_eq (s : State) (src : Src) (a mask : Nat) (bs : List Byte) (pois : Bool) :
    putMasked s src a mask bs pois = if pois then poisonLine (wrote (putMaskedBytes s a mask bs) src a 64) (a / 64) else wrote (putMaskedBytes s a mask bs) src a 64 := rfl

theorem physPut_inv {s : State} (h : s.Inv) (a : Nat) (bs : List Byte) : (physPut s a bs).Inv := (physPut_kept s a bs (inv_kept h)).2

theorem memByte_physPut_one_ne {s : State} (h : s.Inv) {a x : Nat} (b : Byte) (hx : x ≠ a) : memByte (physPut s a [b]) x = memByte s x :=
  memByte_memPut_out h a [b] x (by rw [List.length_singleton]; omega)

theorem memByte_physPut_one_same {s : State} (h : s.Inv) (a : Nat) (b : Byte) : memByte (physPut s a [b]) a = b :=
  memByte_memPut_in h a [b] 0 Nat.one_pos

/-- A byte of a list cut or padded to a length. -/
theorem getElem_padTo (n : Nat) (bs : List Byte) {i : Nat} (hi : i < (padTo n bs).length) : (padTo n bs)[i] = bs.getD i 0 := by
  simp only [padTo, List.getElem_take, List.getElem_append, List.getD_eq_getElem?_getD]
  split
  · rw [List.getElem?_eq_getElem ‹_›, Option.getD_some]
  · rw [List.getElem?_eq_none (Nat.le_of_not_lt ‹_›), List.getElem_replicate, Option.getD_none]

section
variable (a mask : Nat) (bs : List Byte)

theorem putMaskedByte_inv {s : State} (h : s.Inv) (i : Nat) : (putMaskedByte a mask bs s i).Inv := by
  unfold putMaskedByte
  split
  · exact physPut_inv h ..
  · exact h

theorem memByte_putMaskedByte {s : State} (h : s.Inv) (i x : Nat) :
    memByte (putMaskedByte a mask bs s i) x = if x = a + i ∧ mask.testBit i = true then bs.getD i 0 else memByte s x := by
  unfold putMaskedByte
  by_cases hbit : mask.testBit i = true
  · rw [if_pos hbit]
    by_cases hx : x = a + i
    · rw [if_pos ⟨hx, hbit⟩, hx, memByte_physPut_one_same h]
    · rw [if_neg fun hand => hx hand.1, memByte_physPut_one_ne h _ hx]
  · rw [if_neg hbit, if_neg fun hand => hbit hand.2]

/-- R260: the first `n` bytes of a masked write. -/
theorem memByte_foldl_putMaskedByte {s : State} (h : s.Inv) (n : Nat) : ((List.range n).foldl (putMaskedByte a mask bs) s).Inv ∧
    ∀ x, memByte ((List.range n).foldl (putMaskedByte a mask bs) s) x =
      if a ≤ x ∧ x < a + n ∧ mask.testBit (x - a) = true then bs.getD (x - a) 0 else memByte s x := by
  induction n with
  | zero => exact ⟨h, fun x => (if_neg (by omega)).symm⟩
  | succ n ih =>
    obtain ⟨hinv, hbytes⟩ := ih
    rw [List.range_succ, List.foldl_append, List.foldl_cons, List.foldl_nil]
    refine ⟨putMaskedByte_inv a mask bs hinv n, fun x => ?_⟩
    rw [memByte_putMaskedByte a mask bs hinv, hbytes]
    by_cases hx : x = a + n
    · subst hx
      simp
    · rw [if_neg fun hand => hx hand.1]
      refine if_congr ⟨fun hand => ⟨hand.1, by omega, hand.2.2⟩, fun hand => ⟨hand.1, by omega, hand.2.2⟩⟩ rfl rfl

/-- R216, R260: what every byte reads after a masked write. -/
theorem memByte_putMasked {s : State} (h : s.Inv) (src : Src) (pois : Bool) (x : Nat) : memByte (putMasked s src a mask bs pois) x =
    if a ≤ x ∧ x < a + 64 ∧ mask.testBit (x - a) = true then bs.getD (x - a) 0 else memByte s x := by
  have hline : memByte (putMasked s src a mask bs pois) x = memByte (putMaskedBytes s a mask bs) x := by
    rw [putMasked_eq]
    split
    all_goals exact memByte_of_mem (wrote_mem ..) (wrote_undef ..) x
  rw [hline, putMaskedBytes]
  split
  case isTrue hall =>
    have hlen : (padTo 64 bs).length = 64 := by simp [padTo]
    by_cases hx : a ≤ x ∧ x < a + 64
    · have hbit : mask.testBit (x - a) = true := by
        rw [hall, Nat.testBit_two_pow_sub_one, decide_eq_true_eq]
        omega
      obtain ⟨i, rfl⟩ := Nat.exists_eq_add_of_le hx.1
      have hi : i < (padTo 64 bs).length := by omega
      rw [if_pos ⟨hx.1, hx.2, hbit⟩, Nat.add_sub_cancel_left]
      exact (memByte_memPut_in h a (padTo 64 bs) i hi).trans (getElem_padTo 64 bs hi)
    · rw [if_neg fun hand => hx ⟨hand.1, hand.2.1⟩]
      exact memByte_memPut_out h a (padTo 64 bs) x (by omega)
  case isFalse => exact (memByte_foldl_putMaskedByte a mask bs h 64).2 x

end

section
variable {α : Type} (q : State → α) (hput : ∀ s a bs, q (physPut s a bs) = q s) (hwrote : ∀ s src a n, q (wrote s src a n) = q s)
  (hpois : ∀ s l, q (poisonLine s l) = q s)
include hput hwrote hpois

/-- What is the same after a line's bytes are put, moved and marked is the same after a masked write. -/
theorem putMasked_reads (s : State) (src : Src) (a mask : Nat) (bs : List Byte) (pois : Bool) : q (putMasked s src a mask bs pois) = q s := by
  have hbytes : q (putMaskedBytes s a mask bs) = q s := by
    unfold putMaskedBytes
    split
    · exact hput ..
    · generalize List.range 64 = is
      induction is generalizing s with
      | nil => rfl
      | cons i is ih =>
        rw [List.foldl_cons, ih]
        unfold putMaskedByte
        split
        · exact hput ..
        · rfl
  rw [putMasked_eq]
  split
  · rw [hpois, hwrote, hbytes]
  · rw [hwrote, hbytes]

end

/-! R261: a write that is applied rests on no flag that is held. -/

/-- R261: the package with other flags held. -/
def holding (s : State) (fs : List (Pkt × List Nat)) : State := { s with heldFlags := fs }

section
variable (s : State) (fs : List (Pkt × List Nat))

theorem physPut_holding (a : Nat) (bs : List Byte) : physPut (holding s fs) a bs = holding (physPut s a bs) fs := rfl

theorem offer_holding (x : Xact) : offer (holding s fs) x = holding (offer s x) fs := by
  unfold offer offerHome respond
  split_ifs <;> rfl

theorem wrote_holding (src : Src) (a n : Nat) : wrote (holding s fs) src a n = holding (wrote s src a n) fs := by
  have hinval : (linesOf a n).foldl (fun s l => invalidate s src l) (holding s fs) = holding ((linesOf a n).foldl (fun s l => invalidate s src l) s) fs :=
    List.foldl_hom (fun s => holding s fs) fun _ _ => rfl
  rw [wrote, hinval]
  exact offer_holding ..

theorem putMaskedBytes_holding (a mask : Nat) (bs : List Byte) : putMaskedBytes (holding s fs) a mask bs = holding (putMaskedBytes s a mask bs) fs := by
  have hbyte : ∀ t i, putMaskedByte a mask bs (holding t fs) i = holding (putMaskedByte a mask bs t i) fs := fun t i => by
    unfold putMaskedByte
    split <;> rfl
  unfold putMaskedBytes
  split
  · rfl
  · exact List.foldl_hom (fun s => holding s fs) hbyte

theorem applyWrite_holding (p : Pkt) : applyWrite (holding s fs) p = holding (applyWrite s p) fs := by
  have hput : putMasked (holding s fs) (netSrc s p) (p.addr / 64 * 64) p.mask p.data p.pois =
      holding (putMasked s (netSrc s p) (p.addr / 64 * 64) p.mask p.data p.pois) fs := by
    rw [putMasked_eq, putMasked_eq, putMaskedBytes_holding, wrote_holding]
    split <;> rfl
  have hnet : netSrc (holding s fs) p = netSrc s p := rfl
  rw [applyWrite, hnet, hput]
  rfl

theorem heldFlags_applyWrite (p : Pkt) : (applyWrite s p).heldFlags = s.heldFlags := by
  have hself : applyWrite s p = holding (applyWrite s p) s.heldFlags := applyWrite_holding s s.heldFlags p
  rw [hself]
  rfl

end

/-- R261: while every held flag waits for a write, none is applied. -/
theorem releaseFlags_of_waiting {s : State} (hwait : ∀ h ∈ s.heldFlags, h.2 ≠ []) (fuel : Nat) : releaseFlags fuel s = s := by
  cases fuel with
  | zero => rfl
  | succ fuel =>
    have hnone : s.heldFlags.find? (fun h => h.2.isEmpty) = none := List.find?_eq_none.2 fun h hh => by simpa using hwait h hh
    rw [releaseFlags, hnone]

/-- R261: the only flag that is held, which waits for no write, is applied. -/
theorem releaseFlags_of_one (s : State) (p : Pkt) : releaseFlags 1 (holding s [(p, [])]) = applyWrite (holding s []) p := by
  have herase : [(p, ([] : List Nat))].erase (p, []) = [] := List.erase_cons_head ..
  have hreleased : releaseFlags 1 (holding s [(p, [])]) = holding (applyWrite (holding s ([(p, [])].erase (p, []))) p)
      ((applyWrite (holding s ([(p, [])].erase (p, []))) p).heldFlags.map fun x =>
        if x.1.src = p.src ∧ x.1.eng = p.eng then (x.1, x.2.filter (· ≠ p.seq)) else x) := rfl
  rw [hreleased, herase, heldFlags_applyWrite, applyWrite_holding]
  rfl

section
variable {s : State} {p : Pkt}

/-- R260, R265: a READ that is served. -/
theorem exec_pktRead_of_served (hs : Served s p 0x01 64 false) : exec (.pktRead p false) s =
    .next (emit (physRead (takeRx s p) (netSrc s p) (p.addr / 64 * 64) 64).1 (replyTo s p 0x20 0 []
      (physRead (takeRx s p) (netSrc s p) (p.addr / 64 * 64) 64).2.1 (physRead (takeRx s p) (netSrc s p) (p.addr / 64 * 64) 64).2.2)) := by
  show execPktRead p false s = _
  rw [execPktRead, onRequest_of_served hs]
  rfl

/-- R261: the flags held once a write of `w` has been applied. -/
def flagsAfter (w : Pkt) (fs : List (Pkt × List Nat)) : List (Pkt × List Nat) :=
  fs.map (fun x => if x.1.src = w.src ∧ x.1.eng = w.eng then (x.1, x.2.filter (· ≠ w.seq)) else x)

/-- R260, R261: a WRITE that is served. -/
theorem exec_pktWrite_of_served (hs : Served s p 0x02 64 true) : exec (.pktWrite p false) s =
    .next (releaseFlags s.heldFlags.length (holding (applyWrite (takeRx s p) p) (flagsAfter p s.heldFlags))) := by
  have hflags : (applyWrite (takeRx s p) p).heldFlags = s.heldFlags := heldFlags_applyWrite ..
  show execPktWrite p false s = _
  rw [execPktWrite, onRequest_of_served hs]
  simp only [List.length_map, hflags]
  rfl

variable {waits : List Nat} (hs : Served s p 0x03 64 true) (hlen : waits.length = p.prior)
include hs hlen

/-- R261: a WRITEF that is served while it is held already. -/
theorem exec_pktWritef_again (hagain : s.heldFlags.any (fun h => h.1.src == p.src && h.1.eng == p.eng && h.1.seq == p.seq) = true) :
    exec (.pktWritef p false waits) s = .next (takeRx s p) := by
  have hagain' : (takeRx s p).heldFlags.any (fun h => h.1.src == p.src && h.1.eng == p.eng && h.1.seq == p.seq) = true := hagain
  show execPktWritef p false waits s = _
  rw [execPktWritef, onRequest_of_served hs, if_neg (not_not.2 hlen), if_pos hagain']

/-- R261: a WRITEF that is served the first time joins the flags that are held, and those that wait for no write are applied. -/
theorem exec_pktWritef_new (hagain : s.heldFlags.any (fun h => h.1.src == p.src && h.1.eng == p.eng && h.1.seq == p.seq) = false) :
    exec (.pktWritef p false waits) s = .next (releaseFlags (s.heldFlags.length + 1)
      (holding (takeRx s p) (s.heldFlags ++ [(p, waits.filter (fun q => !s.applied.contains (p.src, p.eng, q)))]))) := by
  have hnew : ¬ (takeRx s p).heldFlags.any (fun h => h.1.src == p.src && h.1.eng == p.eng && h.1.seq == p.seq) = true := Bool.eq_false_iff.1 hagain
  show execPktWritef p false waits s = _
  rw [execPktWritef, onRequest_of_served hs, if_neg (not_not.2 hlen), if_neg hnew]
  simp only [List.length_append]
  rfl

end

theorem routerIn_of_outside {s t : State} (h : outside t = outside s) : t.routerIn = s.routerIn := show (outside t).routerIn = (outside s).routerIn by rw [h]

/-- R260: a write that is applied is acknowledged. -/
theorem routerIn_applyWrite (s : State) (p : Pkt) : (applyWrite s p).routerIn = s.routerIn ++ [replyTo s p 0x21 0 [] [] false] := by
  have hrouter : (putMasked s (netSrc s p) (p.addr / 64 * 64) p.mask p.data p.pois).routerIn = s.routerIn :=
    putMasked_reads State.routerIn (fun _ _ _ => rfl) (fun _ _ _ _ => routerIn_of_outside (outside_wrote ..)) (fun _ _ => rfl) ..
  exact congrArg (· ++ [replyTo s p 0x21 0 [] [] false]) hrouter

theorem remoteReads : Sys2Proof.Parts.RemoteReads := by
  intro s p _ hs r
  refine ⟨exec_pktRead_of_served hs, fun hclean => ?_⟩
  have hline : linesOf (p.addr / 64 * 64) 64 = [p.addr / 64] := by
    rw [linesOf_one (by decide) (by omega), Nat.mul_div_cancel _ (by decide)]
  have hread : r = (didRead (takeRx s p) (netSrc s p) (p.addr / 64 * 64) 64, memGet s (p.addr / 64 * 64) 64, [p.addr / 64].any (fun l => s.poison.contains l)) := by
    refine (physRead_of_clean (s := takeRx s p) _ fun l hl => ?_).trans (by rw [hline]; rfl)
    rw [hline, List.mem_singleton] at hl
    exact hl ▸ hclean
  rw [hread]
  refine ⟨rfl, (any_poison_iff s _).trans (by simp), ?_, ?_, ?_⟩
  · exact didRead_reads State.mem (fun _ _ _ _ _ => rfl) ..
  · exact didRead_reads State.regs (fun _ _ _ _ _ => rfl) ..
  · exact didRead_reads State.threads (fun _ _ _ _ _ => rfl) ..

theorem remoteWrites : Sys2Proof.Parts.RemoteWrites := by
  intro s p hinv hs u v
  have hexec : exec (.pktWrite p false) s = .next (releaseFlags s.heldFlags.length v) := exec_pktWrite_of_served hs
  have hrx : (takeRx s p).Inv := (takeRx_kept s p (inv_kept hinv)).2
  have hbyte : ∀ x, memByte u x = memByte (putMasked (takeRx s p) (netSrc s p) (p.addr / 64 * 64) p.mask p.data p.pois) x := fun _ => rfl
  refine ⟨hexec, fun hwait => by rw [hexec, releaseFlags_of_waiting hwait], fun i hi => ?_, fun x hx => ?_, ?_, ?_, ?_⟩
  · rw [hbyte, memByte_putMasked _ _ _ hrx, Nat.add_sub_cancel_left]
    exact if_congr ⟨fun hand => hand.2.2, fun hbit => ⟨by omega, by omega, hbit⟩⟩ rfl rfl
  · rw [hbyte, memByte_putMasked _ _ _ hrx, if_neg (by omega)]
    rfl
  · exact putMasked_reads State.regs (fun _ _ _ => rfl) (fun _ _ _ _ => wrote_regs ..) (fun _ _ => rfl) (takeRx s p) ..
  · exact putMasked_reads State.threads (fun _ _ _ => rfl) (fun _ _ _ _ => wrote_threads ..) (fun _ _ => rfl) (takeRx s p) ..
  · exact routerIn_applyWrite (takeRx s p) p

theorem remoteFlags : Sys2Proof.Parts.RemoteFlags := by
  intro s p waits _ hs hlen left again
  refine ⟨fun hnew hnone hleft => ?_, fun hnew hwait hleft => ?_, exec_pktWritef_again hs hlen, fun w hw hsrc heng => ?_⟩
  · rw [exec_pktWritef_new hs hlen hnew, hnone, show waits.filter _ = [] from hleft]
    have hempty : holding (takeRx s p) [] = takeRx s p := congrArg (holding (takeRx s p)) hnone.symm
    exact congrArg _ ((releaseFlags_of_one ..).trans (congrArg (applyWrite · p) hempty))
  · rw [exec_pktWritef_new hs hlen hnew]
    refine congrArg _ (releaseFlags_of_waiting (fun h hh => ?_) _)
    rcases List.mem_append.1 hh with hold | hself
    · exact hwait h hold
    · rw [List.mem_singleton.1 hself]
      exact hleft
  · have hflags : flagsAfter w [(p, [w.seq])] = [(p, [])] := by simp [flagsAfter, hsrc, heng]
    refine (exec_pktWrite_of_served hw).trans (congrArg _ ?_)
    refine (congrArg (fun fs => releaseFlags 1 (holding _ fs)) hflags).trans ((releaseFlags_of_one ..).trans ?_)
    rw [← applyWrite_holding]
    rfl

/-- Settles O29: a masked write by its bytes (`memByte_putMasked`), a flag by when it is applied (`releaseFlags_of_waiting`, `releaseFlags_of_one`). -/
theorem remoteAccess : Obligations.RemoteAccess := ⟨remoteReads, remoteWrites, remoteFlags⟩

end Sys2Proof.Machine
end

section
/-! The checks of a request at its target (R216, R247, R259, R260, R273, R274, R425). -/

namespace Sys2Proof.Machine

/-- R259, R269: a request of type `ty` reaches its target, which serves no more of its source's requests, and none in all, than it may. -/
structure Admitted (s : State) (p : Pkt) (ty : Nat) : Prop where
  issuing : issuing s = true
  ty : p.ty = ty
  dst : p.dst = ownCoord s
  ofSource : heldFrom s p (some p.src) < rdf s R.SCF_CFG 0 8
  inAll : heldFrom s p none < 8192

section
variable {s : State} {p : Pkt} {ty n : Nat} {write : Bool} {f : State → State}

/-- R273: a request that finds its target busy, or too many requests held. -/
theorem onRequest_busy {busy : Bool} (hissue : issuing s = true) (hty : p.ty = ty) (hdst : p.dst = ownCoord s)
    (hbusy : busy = true ∨ rdf s R.SCF_CFG 0 8 ≤ heldFrom s p (some p.src) ∨ 8192 ≤ heldFrom s p none) :
    onRequest ty p busy n write f s = .next (nackBusy (takeRx s p) p 0x57) := by
  have hgo : (!issuing s || p.ty != ty || p.dst != ownCoord s) = false := by simp [hissue, hty, hdst]
  have hfull : (busy || decide (rdf (takeRx s p) R.SCF_CFG 0 8 ≤ heldFrom s p (some p.src)) || decide (8192 ≤ heldFrom s p none)) = true := by
    simp only [Bool.or_eq_true, decide_eq_true_eq, or_assoc]
    exact hbusy
  simp only [onRequest, hgo, hfull, Bool.false_eq_true, if_false, if_true]

variable (hadm : Admitted s p ty)
include hadm

/-- R259: a request that is admitted is answered by its checks, and waits with its lines. -/
theorem onRequest_of_admitted : onRequest ty p false n write f s = .next (
    match checkReq s p n write with
    | .bad ty' st c => answerBad (takeRx s p) p ty' st c
    | .ok _ =>
      if s.hbmHeld && (match region p.addr with | .hbm _ _ => true | _ => false) then nackBusy (takeRx s p) p 0x57
      else if (linesOf p.addr n).any (lineWaits s) then s
      else
        match if write then invWait s p.addr n else none with
        | some s' => s'
        | none => f (takeRx s p)) := by
  obtain ⟨hissue, hty, hdst, hsrc, hall⟩ := hadm
  have hgo : (!issuing s || p.ty != ty || p.dst != ownCoord s) = false := by simp [hissue, hty, hdst]
  have hlimits : (false || decide (rdf (takeRx s p) R.SCF_CFG 0 8 ≤ heldFrom s p (some p.src)) || decide (8192 ≤ heldFrom s p none)) = false := by
    simp only [Bool.false_or, Bool.or_eq_false_iff, decide_eq_false_iff_not, not_le]
    exact ⟨hsrc, hall⟩
  simp only [onRequest, hgo, hlimits, checkReq_takeRx, Bool.false_eq_true, if_false]
  rfl

theorem onRequest_bad {ty' st : Nat} {c : Option Nat} (hcheck : checkReq s p n write = .bad ty' st c) :
    onRequest ty p false n write f s = .next (answerBad (takeRx s p) p ty' st c) := by
  rw [onRequest_of_admitted hadm, hcheck]

variable {part : Nat} (hcheck : checkReq s p n write = .ok part)
include hcheck

/-- R425: HBM is paused. -/
theorem onRequest_paused {h off : Nat} (hheld : s.hbmHeld = true) (hhbm : region p.addr = .hbm h off) :
    onRequest ty p false n write f s = .next (nackBusy (takeRx s p) p 0x57) := by
  simp only [onRequest_of_admitted hadm, hcheck, hheld, hhbm, Bool.and_self, if_true]

variable (hrun : s.hbmHeld = false)
include hrun

theorem onRequest_waits (hwait : (linesOf p.addr n).any (lineWaits s) = true) : onRequest ty p false n write f s = .next s := by
  simp only [onRequest_of_admitted hadm, hcheck, hrun, hwait, Bool.false_and, Bool.false_eq_true, if_false, if_true]

variable (hfree : (linesOf p.addr n).any (lineWaits s) = false)
include hfree

/-- R247, R260: the other half's caches hold lines of a write. -/
theorem onRequest_invalidates {s2 : State} (hwrite : write = true) (hinv : invWait s p.addr n = some s2) : onRequest ty p false n write f s = .next s2 := by
  rw [onRequest_of_admitted hadm, hcheck]
  simp only [hrun, hfree, hwrite, hinv, Bool.false_and, Bool.false_eq_true, if_false, if_true]

theorem served_of_admitted (hinv : invWait s p.addr n = none) : Served s p ty n write :=
  ⟨hadm.issuing, hadm.ty, hadm.dst, hadm.ofSource, hadm.inAll, ⟨part, hcheck⟩, hrun, hfree, fun _ => hinv⟩

end

/-! R259: the checks in their order. -/

section
variable {s : State} {p : Pkt} {n : Nat} {write : Bool}

theorem checkReq_reg (hreg : region p.addr = .reg) : checkReq s p n write = .bad 0x2B 0x11 (some 0x52) := if_pos hreg

variable (hmem : region p.addr ≠ .reg)
include hmem

theorem checkReq_noDomain (hdom : partOfDomain s p.dom = none) : checkReq s p n write = .bad 0x29 0x21 none := by
  rw [checkReq, if_neg hmem, hdom]

variable {part : Nat} (hdom : partOfDomain s p.dom = some part)
include hdom

theorem checkReq_outside (hout : partHolds s part p.addr = false) : checkReq s p n write = .bad 0x2B 0x11 (some 0x51) := by
  rw [checkReq, if_neg hmem, hdom]
  simp only [hout, Bool.not_false, if_true]

variable (hin : partHolds s part p.addr = true)
include hin

theorem checkReq_measured (herr : physErr s (.net part) p.addr n write = some .measured) : checkReq s p n write = .bad 0x2B 0x11 (some 0x51) := by
  rw [checkReq, if_neg hmem, hdom]
  simp only [hin, herr, Bool.not_true, Bool.false_eq_true, if_false]

theorem checkReq_ok (herr : physErr s (.net part) p.addr n write = none) : checkReq s p n write = .ok part := by
  rw [checkReq, if_neg hmem, hdom]
  simp only [hin, herr, Bool.not_true, Bool.false_eq_true, if_false]

end

/-! R259, R273: what a refused request is answered. -/

theorem answerBad_some (s : State) (p : Pkt) (ty st c : Nat) : answerBad s p ty st (some c) = emit s (replyTo s p ty (st + c * 256) [] [] false) := by
  rw [answerBad, Nat.shiftLeft_eq]

theorem answerBad_none (s : State) (p : Pkt) (ty st : Nat) :
    answerBad s p ty st none = emit (drawBits 8 s).2 (replyTo s p ty (st + (drawBits 8 s).1.toNat * 256) [] [] false) := by
  simp only [answerBad, Nat.shiftLeft_eq]

/-! R274: an atomic with no room in the reply cache, and one that is not aligned. -/

section
variable {s : State} {p : Pkt} {ty n : Nat}

theorem atomicAt_full (hs : Served s p ty 8 true) (hfull : 16384 < s.rcache.length + freshMembers s p) :
    atomicAt ty p false s = .next (nackBusy (takeRx s p) p 0x58) := by
  rw [atomicAt, onRequest_of_served hs]
  exact congrArg _ (if_pos hfull)

theorem atomicAt_misaligned (hs : Served s p ty 8 true) (hroom : s.rcache.length + freshMembers s p ≤ 16384) (hmis : p.addr % 8 ≠ 0) :
    atomicAt ty p false s = .next (answerBad (takeRx s p) p 0x2B 0x10 none) := by
  rw [atomicAt, onRequest_of_served hs]
  exact congrArg _ ((if_neg (Nat.not_lt.2 hroom)).trans (if_pos hmis))

variable (hs : Served s p ty n true) (hnew : cached s p.src p.eng p.seq = none)
include hs hnew

theorem casAt_full (hfull : 16384 ≤ s.rcache.length) : casAt ty n p false s = .next (nackBusy (takeRx s p) p 0x58) := by
  have hnew' : cached (takeRx s p) p.src p.eng p.seq = none := hnew
  have hfull' : 16384 ≤ (takeRx s p).rcache.length := hfull
  rw [casAt, onRequest_of_served hs]
  simp only [hnew', if_pos hfull']

theorem casAt_misaligned (hroom : s.rcache.length < 16384) (hmis : p.addr % n ≠ 0) :
    casAt ty n p false s = .next (answerBad (takeRx s p) p 0x2B 0x10 none) := by
  have hnew' : cached (takeRx s p) p.src p.eng p.seq = none := hnew
  have hroom' : ¬ 16384 ≤ (takeRx s p).rcache.length := Nat.not_le.2 hroom
  rw [casAt, onRequest_of_served hs]
  simp only [hnew', if_neg hroom', if_pos hmis]

end

/-- R254, R259: a command of a request: its type, the bytes it asks for and whether it writes them, as the checks take them, and whether it is an atomic or a compare-and-swap. -/
structure IsRequest (c : Pkt → Bool → Instr) (ty n : Nat) (write : Bool) : Prop where
  checked : ∀ s p busy, ∃ f, exec (c p busy) s = onRequest ty p busy n write f s
  atomic : 8 ≤ ty → ty ≤ 0x0E → n = 8 ∧ write = true ∧ ∀ s p busy, exec (c p busy) s = atomicAt ty p busy s
  swap : 0x0F ≤ ty → write = true ∧ ∀ s p busy, exec (c p busy) s = casAt ty n p busy s

theorem isRequest_plain {c : Pkt → Bool → Instr} {ty n : Nat} {write : Bool} (hty : ty < 8)
    (h : ∀ s p busy, ∃ f, exec (c p busy) s = onRequest ty p busy n write f s) : IsRequest c ty n write :=
  ⟨h, fun hlo _ => by omega, fun hlo => by omega⟩

theorem isRequest_atomic {c : Pkt → Bool → Instr} {ty : Nat} (hty : ty ≤ 0x0E) (h : ∀ s p busy, exec (c p busy) s = atomicAt ty p busy s) : IsRequest c ty 8 true :=
  ⟨fun s p busy => ⟨_, h s p busy⟩, fun _ _ => ⟨rfl, rfl, h⟩, fun hlo => by omega⟩

theorem isRequest_swap {c : Pkt → Bool → Instr} {ty n : Nat} (hty : 0x0F ≤ ty) (h : ∀ s p busy, exec (c p busy) s = casAt ty n p busy s) : IsRequest c ty n true :=
  ⟨fun s p busy => ⟨_, h s p busy⟩, fun _ hhi => by omega, fun _ => ⟨rfl, h⟩⟩

/-- Settles O31: every request is `onRequest` (`IsRequest`), whose answers follow the checks of R259 in their order. -/
theorem requestChecks : Obligations.RequestChecks := by
  intro c ty n write hc s p busy _ hissue hty hdst s1 bad free
  obtain ⟨hchecked, hatomic, hswap⟩ : IsRequest c ty n write := by
    rcases hc with h | h | ⟨w, h⟩ | h | h | h | h | h | h | h | h | h <;> cases h
    case inl => exact isRequest_plain (by decide) fun s p busy => ⟨_, show execPktRead p busy s = _ by rw [execPktRead]⟩
    case inr.inl => exact isRequest_plain (by decide) fun s p busy => ⟨_, show execPktWrite p busy s = _ from rfl⟩
    case inr.inr.inl => exact isRequest_plain (by decide) fun s p busy => ⟨_, show execPktWritef p busy w s = _ from rfl⟩
    case inr.inr.inr.inr.inr.inr.inr.inr.inr.inr.inl => exact isRequest_swap (by decide) fun _ _ _ => rfl
    case inr.inr.inr.inr.inr.inr.inr.inr.inr.inr.inr => exact isRequest_swap (by decide) fun _ _ _ => rfl
    all_goals exact isRequest_atomic (by decide) fun _ _ _ => rfl
  obtain ⟨f, hexec⟩ := hchecked s p busy
  refine ⟨fun hbusy => hexec.trans (onRequest_busy hissue hty hdst hbusy), fun hidle hsrc hall => ?_⟩
  subst hidle
  have hadm : Admitted s p ty := ⟨hissue, hty, hdst, hsrc, hall⟩
  have hfree (st ty' : Nat) : .next (answerBad s1 p ty' st none) = free ty' st := congrArg _ (answerBad_none ..)
  have hbad (st ty' cause : Nat) : .next (answerBad s1 p ty' st (some cause)) = bad ty' st cause := congrArg _ (answerBad_some ..)
  refine ⟨fun hreg => ?_, fun hmem hdom => ?_, fun part hmem hdom => ⟨fun hout => ?_, fun hin herr => ?_, fun hin herr => ?_⟩⟩
  · rw [hexec, onRequest_bad hadm (checkReq_reg hreg), hbad]
  · rw [hexec, onRequest_bad hadm (checkReq_noDomain hmem hdom), hfree]
  · rw [hexec, onRequest_bad hadm (checkReq_outside hmem hdom hout), hbad]
  · rw [hexec, onRequest_bad hadm (checkReq_measured hmem hdom hin herr), hbad]
  · have hok := checkReq_ok hmem hdom hin herr
    refine ⟨fun _ _ hheld hhbm => hexec.trans (onRequest_paused hadm hok hheld hhbm), fun hrun hwait => hexec.trans (onRequest_waits hadm hok hrun hwait),
      fun _ hrun hlines hwrite hinv => hexec.trans (onRequest_invalidates hadm hok hrun hlines hwrite hinv), fun hrun hlines hinv => ?_⟩
    have hserved : Served s p ty n write := served_of_admitted hadm hok hrun hlines hinv
    refine ⟨fun hlo hhi hfull => ?_, fun hlo hhi hroom hmis => ?_, fun hlo hnew hfull => ?_, fun hlo hnew hroom hmis => ?_⟩
    · obtain ⟨rfl, rfl, hat⟩ := hatomic hlo hhi
      rw [hat, atomicAt_full hserved hfull]
    · obtain ⟨rfl, rfl, hat⟩ := hatomic hlo hhi
      rw [hat, atomicAt_misaligned hserved hroom hmis, hfree]
    · obtain ⟨rfl, hat⟩ := hswap hlo
      rw [hat, casAt_full hserved hnew hfull]
    · obtain ⟨rfl, hat⟩ := hswap hlo
      rw [hat, casAt_misaligned hserved hnew hroom hmis, hfree]

end Sys2Proof.Machine
end

section
/-! Owners of memory are put in force (R220-R222, R224, R367, R377). -/

namespace Sys2Proof.Machine

/-! What a read gives after a range of a map is cleared. -/

section
variable {α : Type} (z : α) {lo hi x : Nat}

theorem sget_sclear_in (hlo : lo ≤ x) (hhi : x < hi) (m : Sparse α) : sget z (sclear m lo hi) x = z := by
  induction m with
  | nil => rfl
  | cons e r ih =>
    obtain ⟨j, v⟩ := e
    by_cases hkept : j < lo ∨ hi ≤ j
    · have hcons : sclear ((j, v) :: r) lo hi = (j, v) :: sclear r lo hi := List.filter_cons_of_pos (by simpa using hkept)
      rw [hcons, sget, ih, if_neg (show x ≠ j by omega), ite_self]
    · rw [sclear, List.filter_cons_of_neg (by simpa using hkept)]
      exact ih

theorem sget_sclear_out [DecidableEq α] (hx : x < lo ∨ hi ≤ x) : ∀ {m : Sparse α}, swf (fun _ => z) m = true → sget z (sclear m lo hi) x = sget z m x
  | [], _ => rfl
  | (j, v) :: r, hm => by
    obtain ⟨-, habove, hr⟩ := (swf_cons _ j v r).1 hm
    have ih := sget_sclear_out hx hr
    by_cases hkept : j < lo ∨ hi ≤ j
    · have hcons : sclear ((j, v) :: r) lo hi = (j, v) :: sclear r lo hi := List.filter_cons_of_pos (by simpa using hkept)
      rw [hcons, sget, sget, ih]
    · have hcons : sclear ((j, v) :: r) lo hi = sclear r lo hi := List.filter_cons_of_neg (by simpa using hkept)
      rw [hcons, ih, sget, if_neg (show x ≠ j by omega)]
      split
      · exact sget_of_above z j x r habove (Nat.le_of_lt ‹_›)
      · rfl

end

/-- R221: a byte whose contents become undefined reads a free byte of that fill. -/
theorem memByte_memUndef_in (s : State) {lo hi x : Nat} (hlo : lo ≤ x) (hhi : x < hi) : memByte (memUndef s lo hi) x = Config.freeByte s.free x := by
  have hfind : (memUndef s lo hi).undef.find? (fun r => r.1 ≤ x && x < r.2.1) = some (lo, hi, s.free) := List.find?_cons_of_pos (by simp [hlo, hhi])
  rw [memByte, hfind]

theorem memByte_memUndef_out {s : State} (h : s.Inv) {lo hi x : Nat} (hle : lo ≤ hi) (hx : x < lo ∨ hi ≤ x) :
    memByte (memUndef s lo hi) x = memByte s x := by
  refine memByte_of_find s _ x ?_ (sget_sclear_out 0 hx h.mem)
  have hno : ¬ (decide (lo ≤ x) && decide (x < hi)) = true := by
    simp only [Bool.and_eq_true, decide_eq_true_eq]
    omega
  have hskip : (memUndef s lo hi).undef.find? (fun r => r.1 ≤ x && x < r.2.1) = (carve s.undef lo hi).find? (fun r => r.1 ≤ x && x < r.2.1) :=
    List.find?_cons_of_neg (p := fun r : Nat × Nat × Nat => decide (r.1 ≤ x) && decide (x < r.2.1)) hno
  rw [hskip]
  exact find_carve s.undef lo hi x hle hx

/-- R221: a write of an owner that is not valid: its groups and base are taken, and the size its groups hold is shown. -/
def ownerShown (s : State) (h p : Nat) (v : Word) : State :=
  let s1 := wr s (R.MEM_PART_CFG h p) (BitVec.ofNat 64 (fld v 0 34))
  wrf s1 (R.MEM_PART_CFG h p) 34 10 (ownerGib s1 h p)

/-- R367: an empty data chain for a partition. -/
def emptyChain (s : State) (p : Nat) : State := (List.range 8).foldl (fun s w => wr s (R.SEC_DCHAIN p w) 0) s

/-- R367: the data chain of a partition that comes into being with its range in half `h`. -/
def chainBegun (s : State) (h p : Nat) : State := if p < 8 ∧ bitw (rd s (R.MEM_PART_CFG (1 - h) p)) 63 = false then emptyChain s p else s

section
variable {s : State} {h p : Nat} {v : Word}

/-- R221, R377: a write of an owner that is valid. -/
theorem exec_memPartCfgValid_of_valid (hh : h < 2) (hp : p < 9) (hval : bitw (rd s (R.MEM_PART_CFG h p)) 63 = true) :
    exec (.memPartCfgValid h p v) s =
      .next (if bitw v 63 = true ∨ (confidential s = true ∧ p < 8) then s else wrf s (R.MEM_PART_CFG h p) 63 1 0) := by
  have hin : ¬ (2 ≤ h ∨ 9 ≤ p) := by omega
  refine congrArg _ ((if_neg hin).trans ((if_pos hval).trans ?_))
  simp only [Bool.or_eq_true, Bool.and_eq_true, decide_eq_true_eq]

/-- R220, R221: a write of an owner that is not valid. -/
theorem exec_memPartCfgValid_of_invalid (hh : h < 2) (hp : p < 9) (hval : bitw (rd s (R.MEM_PART_CFG h p)) 63 = false) :
    exec (.memPartCfgValid h p v) s = .next (if bitw v 63 = false then ownerShown s h p v else
      match ownerClash (ownerShown s h p v) h p with
      | some q => memRefuse (ownerShown s h p v) h p q
      | none => enforceOwner (chainBegun (ownerShown s h p v) h p) h p) := by
  have hin : ¬ (2 ≤ h ∨ 9 ≤ p) := by omega
  refine congrArg _ ((if_neg hin).trans ((if_neg (Bool.eq_false_iff.1 hval)).trans ?_))
  simp only [Bool.not_eq_true', chainBegun, Bool.and_eq_true, decide_eq_true_eq]
  rfl

theorem ownerShown_inv (hinv : s.Inv) : (ownerShown s h p v).Inv := wrf_inv _ _ _ _ (wr_inv _ _ hinv)

theorem rd_ownerShown_ne (hinv : s.Inv) {a : Nat} (ha : a ≠ R.MEM_PART_CFG h p) : rd (ownerShown s h p v) a = rd s a := by
  unfold ownerShown
  rw [rd_wrf_ne (wr_inv _ _ hinv) _ _ _ ha, rd_wr_ne hinv _ ha]

end

section
variable {s : State} (hinv : s.Inv) (p : Nat)
include hinv

theorem emptyChain_inv : (emptyChain s p).Inv := (kept_foldl (fun _ _ => wr_kept) (inv_kept hinv)).2

theorem rd_emptyChain (a : Nat) : rd (emptyChain s p) a = if ∃ w ∈ List.range 8, R.SEC_DCHAIN p w = a then 0 else rd s a := rd_foldl_wr_zero a _ hinv

end

theorem emptyChain_eq_regs (s : State) (p : Nat) : emptyChain s p = { s with regs := (emptyChain s p).regs } := by
  unfold emptyChain
  generalize List.range 8 = ws
  induction ws generalizing s with
  | nil => rfl
  | cons w ws ih => exact ih (wr s (R.SEC_DCHAIN p w) 0)

section
variable {s : State} (h p : Nat)

theorem chainBegun_eq_regs : chainBegun s h p = { s with regs := (chainBegun s h p).regs } := by
  unfold chainBegun
  split
  · exact emptyChain_eq_regs ..
  · rfl

theorem chainBegun_inv (hinv : s.Inv) : (chainBegun s h p).Inv := by
  unfold chainBegun
  split
  · exact emptyChain_inv hinv p
  · exact hinv

/-- R367: the registers of other partitions' chains, and all others, are left alone. -/
theorem rd_chainBegun_ne (hinv : s.Inv) {a : Nat} (ha : p < 8 → ∀ w < 8, a ≠ R.SEC_DCHAIN p w) : rd (chainBegun s h p) a = rd s a := by
  unfold chainBegun
  split
  case isTrue hnew => rw [rd_emptyChain hinv, if_neg fun ⟨w, hw, heq⟩ => ha hnew.1 w (List.mem_range.1 hw) heq.symm]
  case isFalse => rfl

end

/-- R220: an owner put in force, before the contents of its range are lost: valid, with the key that was drawn. -/
def ownerKeyed (s : State) (h p : Nat) : State :=
  wr (wrf (drawBits 64 s).2 (R.MEM_PART_CFG h p) 63 1 1) (R.MEM_PART_KEY h p) (drawBits 64 s).1

/-- R220: where an owner's range begins and ends. -/
def ownerBase (s : State) (h p : Nat) : Nat := h * 0x10000000000 + fld (rd s (R.MEM_PART_CFG h p)) 24 10 * 2 ^ 30
def ownerTop (s : State) (h p : Nat) : Nat := ownerBase s h p + fld (rd s (R.MEM_PART_CFG h p)) 34 10 * 2 ^ 30

theorem le_ownerTop (s : State) (h p : Nat) : ownerBase s h p ≤ ownerTop s h p := Nat.le_add_right ..

section
variable {s : State} (h p : Nat)

theorem regs_enforceOwner : (enforceOwner s h p).regs = (ownerKeyed s h p).regs := rfl

theorem memByte_enforceOwner (x : Nat) : memByte (enforceOwner s h p) x = memByte (memUndef (ownerKeyed s h p) (ownerBase s h p) (ownerTop s h p)) x := by
  refine memByte_of_mem ?_ ?_ x
  all_goals simp only [enforceOwner, ownerTop, ownerBase, ownerKeyed]

variable (hinv : s.Inv)
include hinv

theorem ownerKeyed_inv : (ownerKeyed s h p).Inv := wr_inv _ _ (wrf_inv (s := (drawBits 64 s).2) _ _ _ _ hinv)

theorem rd_enforceOwner_ne {a : Nat} (hcfg : a ≠ R.MEM_PART_CFG h p) (hkey : a ≠ R.MEM_PART_KEY h p) : rd (enforceOwner s h p) a = rd s a := by
  have hdrawn : (drawBits 64 s).2.Inv := hinv
  rw [rd_of_regs (regs_enforceOwner h p), ownerKeyed, rd_wr_ne (wrf_inv _ _ _ _ hdrawn) _ hkey, rd_wrf_ne hdrawn _ _ _ hcfg]
  rfl

/-- R220: a new key is drawn. -/
theorem key_enforceOwner : rd (enforceOwner s h p) (R.MEM_PART_KEY h p) = Config.freeBits 64 s.free := by
  have hdrawn : (drawBits 64 s).2.Inv := hinv
  rw [rd_of_regs (regs_enforceOwner h p), ownerKeyed, rd_wr_same (wrf_inv _ _ _ _ hdrawn)]
  rfl

theorem valid_enforceOwner : bitw (rd (enforceOwner s h p) (R.MEM_PART_CFG h p)) 63 = true := by
  have hdrawn : (drawBits 64 s).2.Inv := hinv
  have hkey : R.MEM_PART_CFG h p ≠ R.MEM_PART_KEY h p := by
    rw [R.MEM_PART_CFG, R.MEM_PART_KEY]
    omega
  rw [rd_of_regs (regs_enforceOwner h p), ownerKeyed, rd_wr_ne (wrf_inv _ _ _ _ hdrawn) _ hkey, rd_wrf_same hdrawn, bitw_iff_fld,
    fld_putf_same _ _ _ _ (by decide)]
  rfl

/-- R221, R224: the contents of the range are undefined, and every other byte reads as before. -/
theorem contents_enforceOwner :
    (∀ x, ownerBase s h p ≤ x → x < ownerTop s h p → memByte (enforceOwner s h p) x = Config.freeByte (s.free + 1) x) ∧
    (∀ x, x < ownerBase s h p ∨ ownerTop s h p ≤ x → memByte (enforceOwner s h p) x = memByte s x) := by
  refine ⟨fun x hlo hhi => ?_, fun x hx => ?_⟩
  · rw [memByte_enforceOwner, memByte_memUndef_in _ hlo hhi]
    rfl
  · rw [memByte_enforceOwner, memByte_memUndef_out (ownerKeyed_inv h p hinv) (le_ownerTop ..) hx]
    rfl

end

/-- Settles O50: a valid owner and one that is not by the two forms of the write (`exec_memPartCfgValid_of_valid`, `exec_memPartCfgValid_of_invalid`), an owner in force by `contents_enforceOwner` and its registers. -/
theorem memoryOwners : Obligations.MemoryOwners := by
  intro s h p v hinv hh hp a s1 s2
  refine ⟨fun hval hv => ?_, fun hval hv hopen => ?_, fun hval hv hconf hpart => ?_, fun hval hv => ?_, fun q hval hv hclash => ?_, fun hval hv hclash => ?_⟩
  · rw [exec_memPartCfgValid_of_valid hh hp hval, if_pos (.inl hv)]
  · rw [exec_memPartCfgValid_of_valid hh hp hval, if_neg]
    rintro (hset | ⟨hconf, hpart⟩)
    · exact Bool.noConfusion (hv.symm.trans hset)
    · rcases hopen with hopen | rfl
      · exact Bool.noConfusion (hopen.symm.trans hconf)
      · exact absurd hpart (by decide)
  · rw [exec_memPartCfgValid_of_valid hh hp hval, if_pos (.inr ⟨hconf, hpart⟩)]
  · rw [exec_memPartCfgValid_of_invalid hh hp hval]
    exact congrArg _ (if_pos hv)
  · rw [exec_memPartCfgValid_of_invalid hh hp hval, if_neg (Bool.not_eq_false _ ▸ hv)]
    rw [show ownerClash (ownerShown s h p v) h p = some q from hclash]
    rfl
  · have hs2 : s2.Inv := ownerShown_inv hinv
    have hs3 : (chainBegun s2 h p).Inv := chainBegun_inv h p hs2
    have hfresh : ∀ q < 8, ∀ w < 8, rd (enforceOwner (chainBegun s2 h p) h p) (R.SEC_DCHAIN q w) = rd (chainBegun s2 h p) (R.SEC_DCHAIN q w) := fun q hq w hw =>
      rd_enforceOwner_ne h p hs3 (by rw [R.SEC_DCHAIN, R.MEM_PART_CFG]; omega) (by rw [R.SEC_DCHAIN, R.MEM_PART_KEY]; omega)
    have hcfg : rd (chainBegun s2 h p) (R.MEM_PART_CFG h p) = rd s2 (R.MEM_PART_CFG h p) := rd_chainBegun_ne h p hs2 fun hpart w hw => by
      rw [R.SEC_DCHAIN, R.MEM_PART_CFG]
      omega
    have hother : rd s2 (R.MEM_PART_CFG (1 - h) p) = rd s (R.MEM_PART_CFG (1 - h) p) := rd_ownerShown_ne hinv (by rw [R.MEM_PART_CFG, R.MEM_PART_CFG]; omega)
    refine ⟨enforceOwner (chainBegun s2 h p) h p, ?_, valid_enforceOwner h p hs3, ?_, ?_, fun hpart hnone w hw => ?_, fun hold q hq w hw => ?_⟩
    · rw [exec_memPartCfgValid_of_invalid hh hp hval, if_neg (Bool.not_eq_false _ ▸ hv)]
      rw [show ownerClash (ownerShown s h p v) h p = none from hclash]
      rfl
    · rw [key_enforceOwner h p hs3, chainBegun_eq_regs]
      rfl
    · intro base top
      obtain ⟨hin, hout⟩ := contents_enforceOwner h p hs3
      have hbase : ownerBase (chainBegun s2 h p) h p = base := by rw [ownerBase, hcfg]
      have htop : ownerTop (chainBegun s2 h p) h p = top := by rw [ownerTop, hbase, hcfg]
      have hfree : (chainBegun s2 h p).free = s.free := by rw [chainBegun_eq_regs]; rfl
      have hbyte : ∀ x, memByte (chainBegun s2 h p) x = memByte s x := fun x => by rw [chainBegun_eq_regs]; rfl
      rw [hbase, htop, hfree] at hin
      rw [hbase, htop] at hout
      exact ⟨hin, fun x hx => (hout x hx).trans (hbyte x)⟩
    · rw [hfresh p hpart w hw, chainBegun, if_pos ⟨hpart, hother ▸ hnone⟩, rd_emptyChain hs2, if_pos ⟨w, List.mem_range.2 hw, rfl⟩]
    · rw [hfresh q hq w hw, chainBegun, if_neg]
      · exact rd_ownerShown_ne hinv (by rw [R.SEC_DCHAIN, R.MEM_PART_CFG]; omega)
      · rintro ⟨hpart, hnone⟩
        rcases hold with rfl | hold
        · exact absurd hpart (by decide)
        · rw [← hother, hnone] at hold
          exact Bool.noConfusion hold

end Sys2Proof.Machine
end

section
/-! The patrol scrub, row copies, windows of hot channels and arch-link CRC failures (R28, R216, R217, R225, R235, R249, R386). -/

namespace Sys2Proof.Machine

/-- R216, R217: the outcomes of the patrol's read of its line. -/
def patrolRead (s : State) (line syms : Nat) : State :=
  if s.poison.contains line then s
  else if syms ≤ 2 then readLine { s with symErr := sset 0 s.symErr line syms } line
  else
    let d := drawNat s
    if d.1 % 3 = 0 then readLine { d.2 with symErr := sset 0 d.2.symErr line 2 } line
    else
      let s := memUndef d.2 (line * 64) (line * 64 + 64)
      if d.1 % 3 = 1 then s else readLine { s with symErr := sset 0 s.symErr line 1 } line

/-- R217: no outcome of a read moves the patrol. -/
theorem patrol_patrolRead (s : State) (line syms : Nat) : (patrolRead s line syms).patrol = s.patrol := by
  have hP : OutlivesReads (fun t => t.patrol = s.patrol) :=
    ⟨fun _ _ _ _ h => h, fun {t u} ht h => (show (unmarked u).patrol = (unmarked t).patrol by rw [h]).trans ht⟩
  unfold patrolRead
  extract_lets d s1
  split_ifs
  · rfl
  · exact hP.readLine line (hP.marks (s := s) rfl rfl)
  · exact hP.readLine line (hP.marks (s := s) rfl rfl)
  · rfl
  · exact hP.readLine line (hP.marks (s := s) rfl rfl)

section
variable {s : State} {h line syms off : Nat}

/-- R217: the patrol at its next line. -/
theorem exec_patrolScrubRead (hline : region (line * 64) = .hbm h off) (hissue : issuing s = true) (hin : off + 64 ≤ halfGib s h * 2 ^ 30)
    (hnext : off / 64 = (sget (0, 0) s.patrol h).2) : exec (.patrolScrubRead line syms) s =
      .next (if s.ltc.toNat < (sget (0, 0) s.patrol h).1 then s else patrolRead (patrolNext s h) line syms) := by
  have hgo : (!issuing s || decide (halfGib s h * 2 ^ 30 < off + 64) || decide (off / 64 ≠ (sget (0, 0) s.patrol h).2)) = false := by
    simp only [hissue, hnext, Bool.not_true, Bool.false_or, Bool.or_eq_false_iff, decide_eq_false_iff_not, not_lt, ne_eq, not_true_eq_false, not_false_eq_true, and_true]
    exact hin
  show execPatrolScrubRead line syms s = _
  simp only [execPatrolScrubRead, hline, hgo, Bool.false_or, decide_eq_true_eq, patrolRead]

end

section
variable {s : State} {h i : Nat}

theorem exec_remapCopyDone (hh : h < 2) (hi : i < 8192) (hissue : issuing s = true) (hused : bitw (rd s (R.MEM_REMAP h i)) 63 = true) :
    let w := rd s (R.MEM_REMAP h i)
    exec (.remapCopyDone h i) s =
      .next (ckpPump { s with rowHeld := s.rowHeld.filter (· ≠ (h * 192 + fld w 0 8) * 2 ^ 22 + fld w 8 5 + fld w 16 17 * 32) }) := by
  have hgo : ¬ (decide (2 ≤ h) || decide (8192 ≤ i) || !issuing s) = true := by
    simp only [hissue, Bool.not_true, Bool.or_false, Bool.or_eq_true, decide_eq_true_eq]
    omega
  have hvalid : ¬ (!bitw (rd s (R.MEM_REMAP h i)) 63) = true := by simp [hused]
  exact congrArg _ ((if_neg hgo).trans (if_neg hvalid))

theorem exec_remapCopyDone_idle (hidle : bitw (rd s (R.MEM_REMAP h i)) 63 = false ∨ issuing s = false) : exec (.remapCopyDone h i) s = .next s := by
  show execRemapCopyDone h i s = _
  unfold execRemapCopyDone
  extract_lets w id
  split
  · rfl
  · rcases hidle with hfree | hstop
    · rw [if_pos (by simp [w, hfree])]
    · simp_all

end

/-! R225: the channel of an owner that carried the most lines in a window. -/

theorem foldl_argmax (count : Nat → Nat) (l : List Nat) (b : Nat) :
    l.foldl (fun b c => if count b < count c then c else b) b ∈ b :: l ∧ ∀ d ∈ b :: l, count d ≤ count (l.foldl (fun b c => if count b < count c then c else b) b) := by
  induction l generalizing b with
  | nil => exact ⟨List.mem_singleton_self b, fun d hd => by rw [List.mem_singleton.1 hd]; rfl⟩
  | cons c l ih =>
    rw [List.foldl_cons]
    obtain ⟨hmem, hmax⟩ := ih (if count b < count c then c else b)
    generalize l.foldl _ _ = top at hmem hmax
    have hfirst := hmax _ List.mem_cons_self
    refine ⟨?_, fun d hd => ?_⟩
    · rcases List.mem_cons.1 hmem with rfl | htail
      · split <;> simp
      · exact List.mem_cons_of_mem _ (List.mem_cons_of_mem _ htail)
    · rcases List.mem_cons.1 hd with rfl | hd
      · split at hfirst <;> omega
      · rcases List.mem_cons.1 hd with rfl | hd
        · split at hfirst <;> omega
        · exact hmax d (List.mem_cons_of_mem _ hd)

section
variable (s : State) (h p : Nat) (counts : List Nat)

/-- R225: the lines that a channel carried for an owner in its window. -/
def windowCount (c : Nat) : Nat := sget 0 s.chanLines ((h * 9 + p) * 192 + c) + nth counts c
def windowSum : Nat := ((ownerChans s h p).map (windowCount s h p counts)).sum
def hottest : Nat :=
  (ownerChans s h p).foldl (fun b c => if windowCount s h p counts b < windowCount s h p counts c then c else b) ((ownerChans s h p).headD 0)

/-- R225: how long a window is, and what is more than a channel's share. -/
def windowNs : Nat := max 1 (rdf s (R.MEM_HOT_CFG h) 16 16) * 1000
def hotRatio : Nat := max 2 (rdf s (R.MEM_HOT_CFG h) 0 4)

/-- R225: the next window of an owner begins. -/
def windowNext : State :=
  { s with hotAt := sset 0 s.hotAt (h * 9 + p) (sget 0 s.hotAt (h * 9 + p) + windowNs s h),
           chanLines := sclear s.chanLines ((h * 9 + p) * 192) ((h * 9 + p + 1) * 192) }

/-- R225: a hot channel is reported, `r` times its share. -/
def hotReported (c r : Nat) : State :=
  let w := c + p * 256 + r * 65536 + 2 ^ 63
  let s := if bitw (rd s (R.MEM_HOT h)) 63 then addSat s (R.MEM_HOT h) 32 16 1 else wr s (R.MEM_HOT h) (BitVec.ofNat 64 w)
  if p < 8 then logRec s p 0x02 0xFFFF [] (leBytes 8 w) else s

theorem hottest_mem (hne : ownerChans s h p ≠ []) : hottest s h p counts ∈ ownerChans s h p ∧
    ∀ d ∈ ownerChans s h p, windowCount s h p counts d ≤ windowCount s h p counts (hottest s h p counts) := by
  unfold hottest
  obtain ⟨b, l, hl⟩ := List.exists_cons_of_ne_nil hne
  obtain ⟨hmem, hmax⟩ := foldl_argmax (windowCount s h p counts) (ownerChans s h p) ((ownerChans s h p).headD 0)
  have hhead : (ownerChans s h p).headD 0 ∈ ownerChans s h p := by
    rw [hl]
    exact List.mem_cons_self
  exact ⟨(List.mem_cons.1 hmem).elim (fun heq => by rwa [heq]) id, fun d hd => hmax d (List.mem_cons_of_mem _ hd)⟩

theorem windowCount_le_sum {c : Nat} (hc : c ∈ ownerChans s h p) : windowCount s h p counts c ≤ windowSum s h p counts :=
  List.le_sum_of_mem (List.mem_map_of_mem hc)

end

section
variable {s : State} {h p : Nat} {counts : List Nat}

theorem exec_hotChannelWindowEnd_early
    (hearly : bitw (rd s (R.MEM_PART_CFG h p)) 63 = false ∨ issuing s = false ∨ s.ltc.toNat < sget 0 s.hotAt (h * 9 + p) + windowNs s h) :
    exec (.hotChannelWindowEnd h p counts) s = .next s := by
  refine congrArg _ (if_pos ?_)
  simp only [Bool.or_eq_true, decide_eq_true_eq, Bool.not_eq_true']
  rcases hearly with hearly | hearly | hearly
  · exact .inl (.inr hearly)
  · exact .inl (.inl (.inr hearly))
  · exact .inr hearly

theorem exec_hotChannelWindowEnd_ended (hh : h < 2) (hp : p < 9) (hval : bitw (rd s (R.MEM_PART_CFG h p)) 63 = true) (hissue : issuing s = true)
    (hend : sget 0 s.hotAt (h * 9 + p) + windowNs s h ≤ s.ltc.toNat) :
    exec (.hotChannelWindowEnd h p counts) s = .next (
      if windowSum s h p counts = 0 ∨ windowCount s h p counts (hottest s h p counts) * (ownerChans s h p).length ≤ hotRatio s h * windowSum s h p counts
      then windowNext s h p
      else hotReported (windowNext s h p) h p (hottest s h p counts)
        (min 255 (windowCount s h p counts (hottest s h p counts) * (ownerChans s h p).length / windowSum s h p counts))) := by
  have hgo : ¬ (decide (2 ≤ h) || decide (9 ≤ p) || !issuing s || !bitw (rd s (R.MEM_PART_CFG h p)) 63 ||
      decide (s.ltc.toNat < sget 0 s.hotAt (h * 9 + p) + windowNs s h)) = true := by
    simp only [hval, hissue, Bool.not_true, Bool.or_false, Bool.or_eq_true, decide_eq_true_eq]
    omega
  refine congrArg _ ((if_neg hgo).trans (if_congr Iff.rfl rfl ?_))
  simp only [hotReported, Nat.shiftLeft_eq]
  rfl

theorem hotChannelWindows (hh : h < 2) (hp : p < 9) (hval : bitw (rd s (R.MEM_PART_CFG h p)) 63 = true) (hissue : issuing s = true)
    (hend : sget 0 s.hotAt (h * 9 + p) + windowNs s h ≤ s.ltc.toNat) :
    ((∀ c ∈ ownerChans s h p, windowCount s h p counts c * (ownerChans s h p).length ≤ hotRatio s h * windowSum s h p counts) →
      exec (.hotChannelWindowEnd h p counts) s = .next (windowNext s h p)) ∧
    ((∃ c ∈ ownerChans s h p, hotRatio s h * windowSum s h p counts < windowCount s h p counts c * (ownerChans s h p).length) →
      ∃ c ∈ ownerChans s h p, (∀ d ∈ ownerChans s h p, windowCount s h p counts d ≤ windowCount s h p counts c) ∧
        exec (.hotChannelWindowEnd h p counts) s = .next (hotReported (windowNext s h p) h p c
          (min 255 (windowCount s h p counts c * (ownerChans s h p).length / windowSum s h p counts)))) := by
  rw [exec_hotChannelWindowEnd_ended hh hp hval hissue hend]
  refine ⟨fun hall => congrArg _ (if_pos ?_), fun ⟨c, hc, hhot⟩ => ?_⟩
  · by_cases hne : ownerChans s h p = []
    · exact .inl (by rw [windowSum, hne]; rfl)
    · exact .inr (hall _ (hottest_mem s h p counts hne).1)
  · obtain ⟨hmem, hmax⟩ := hottest_mem s h p counts (List.ne_nil_of_mem hc)
    refine ⟨hottest s h p counts, hmem, hmax, congrArg _ (if_neg ?_)⟩
    have htop := Nat.mul_le_mul_right (ownerChans s h p).length (hmax c hc)
    rintro (hsum | hle)
    · have hzero : windowCount s h p counts c = 0 := Nat.le_zero.1 (hsum ▸ windowCount_le_sum s h p counts hc)
      rw [hzero, Nat.zero_mul] at hhot
      exact absurd hhot (Nat.not_lt_zero _)
    · omega

end

theorem memoryErrors : Sys2Proof.Parts.MemoryErrors := by
  intro s h _ hh
  refine ⟨fun line syms off hline hissue hin hnext => ⟨fun hearly => ?_, fun hdue => ?_⟩, fun i hi hissue hused => exec_remapCopyDone hh hi hissue hused,
    fun i hidle => exec_remapCopyDone_idle hidle, fun p counts hp => ⟨exec_hotChannelWindowEnd_early, fun hval hissue hend => hotChannelWindows hh hp hval hissue hend⟩,
    fun n hn => ?_, fun n hn => ?_⟩
  · rw [exec_patrolScrubRead hline hissue hin hnext, if_pos hearly]
  · rw [exec_patrolScrubRead hline hissue hin hnext, if_neg (Nat.not_lt.2 hdue)]
    have hpoison : (patrolNext s h).poison = s.poison := rfl
    refine ⟨fun hpois => congrArg _ (if_pos ?_), fun hclean hfew => congrArg _ ((if_neg ?_).trans (if_pos hfew)), fun _ _ => ⟨_, rfl, patrol_patrolRead ..⟩⟩
    · rwa [List.contains_iff_mem]
    · rwa [List.contains_iff_mem]
  · exact congrArg _ ((if_neg (Nat.not_le.2 hh)).trans (if_pos hn))
  · exact congrArg _ ((if_neg (Nat.not_le.2 hh)).trans (if_neg (Nat.not_lt.2 hn)))

end Sys2Proof.Machine
end

section
/-! What a fatal error shows (R278, R386, R393, R419). -/

namespace Sys2Proof.Machine

theorem scfPortStat_ne {j k : Nat} (h : j ≠ k) : R.SCF_PORT_STAT j ≠ R.SCF_PORT_STAT k := by
  rw [R.SCF_PORT_STAT, R.SCF_PORT_STAT]
  omega

section
variable {s : State} (hinv : s.Inv)
include hinv

/-- R278: LEAVING on a port moves its own status alone. -/
theorem leavePort_only (k : Nat) : Leaves (onlyReg (R.SCF_PORT_STAT k)) s (leavePort s k) := by
  unfold leavePort
  split
  · exact .refl hinv
  · have hsent : Leaves (onlyReg (R.SCF_PORT_STAT k)) s { s with tx := s.tx ++ [.leaving k], portWant := s.portWant.filter (· ≠ k) } := (Leaves.refl hinv).same hinv rfl
    exact (hsent.wrf (onlyReg_self _) 0 2 0).wrf (onlyReg_self _) 2 1 0

theorem portState_leavePort_same (k : Nat) : portState (leavePort s k) k = 0 := by
  unfold leavePort
  split
  · assumption
  · have hsent : State.Inv { s with tx := s.tx ++ [.leaving k], portWant := s.portWant.filter (· ≠ k) } := hinv
    rw [portState, setPort, rdf_wrf_apart (wrf_inv _ _ _ _ hsent) _ _ _ _ _ _ (by decide) (by decide), rdf_wrf_same hsent _ _ _ _ (by decide)]
    rfl

theorem portState_leavePort_ne {j k : Nat} (hne : j ≠ k) : portState (leavePort s k) j = portState s j :=
  rdf_of_rd ((leavePort_only hinv k).rd_eq _ (onlyReg_of_ne (scfPortStat_ne hne))) 0 2

end

/-- R278, R386: after LEAVING on some ports those ports are DOWN. -/
theorem portState_foldl_leavePort {k : Nat} (ports : List Nat) : ∀ {s : State}, s.Inv → k ∈ ports ∨ portState s k = 0 → portState (ports.foldl leavePort s) k = 0 := by
  induction ports with
  | nil => exact fun _ h => h.resolve_left List.not_mem_nil
  | cons j ports ih =>
    intro s hinv hk
    refine ih (leavePort_only hinv j).inv ?_
    by_cases hj : k = j
    · exact .inr (hj ▸ portState_leavePort_same hinv j)
    · rw [portState_leavePort_ne hinv hj]
      exact hk.imp_left fun hmem => (List.mem_cons.1 hmem).resolve_left hj

/-- R278: LEAVING moves the status of ports alone. -/
theorem rd_foldl_leavePort {a : Nat} (ha : ∀ k, a ≠ R.SCF_PORT_STAT k) (ports : List Nat) : ∀ {s : State}, s.Inv → rd (ports.foldl leavePort s) a = rd s a := by
  induction ports with
  | nil => exact fun _ => rfl
  | cons j ports ih =>
    exact fun hinv => (ih (leavePort_only hinv j).inv).trans ((leavePort_only hinv j).rd_eq _ (onlyReg_of_ne (ha j)))

section
variable {s : State} (hinv : s.Inv) (cause src d : Nat)
include hinv

/-- R386: the record of a fatal error leaves a well-kept package. -/
theorem fatalRecord_inv : (freezeRing (bbx s true 0x01 src 0 0 (leBytes 1 cause ++ leBytes 7 0 ++ leBytes 8 (causeReg s cause d).toNat))).Inv :=
  wrf_inv _ _ _ _ (bbx_leaves hinv ..).inv

theorem rd_showFatal_ne {a : Nat} (ha : a ≠ R.PWR_STAT) : rd (showFatal s cause) a = rd s a :=
  ((Leaves.refl hinv).wrf (f := onlyReg R.PWR_STAT) (onlyReg_self _) 0 4 4 |>.wrf (onlyReg_self _) 8 8 cause).rd_eq a (onlyReg_of_ne ha)

/-- R393: the ring is frozen. -/
theorem fatalLeft_frozen : rdf (fatalLeft s cause src d) R.BBX_STAT 16 1 = 1 := by
  have hport : ∀ k, R.BBX_STAT ≠ R.SCF_PORT_STAT k := fun k => by
    rw [R.BBX_STAT, R.SCF_PORT_STAT]
    omega
  rw [fatalLeft, leaveScauth_eq_foldl, rdf_of_rd (rd_foldl_leavePort hport _ (fatalRecord_inv hinv cause src d)), freezeRing,
    rdf_wrf_same (bbx_leaves hinv ..).inv _ _ _ _ (by decide)]
  rfl

/-- R278, R386: every Scauth port is DOWN. -/
theorem fatalLeft_down {k : Nat} (hk : k < 16) : portState (fatalLeft s cause src d) k = 0 :=
  portState_foldl_leavePort _ (fatalRecord_inv hinv cause src d) (.inl (List.mem_range.2 hk))

end

/-- R386: what reads neither registers nor the black box nor what ports send is the same once a fatal error has left the fabric. -/
theorem fatalLeft_reads {α : Type} (q : State → α) (hwr : ∀ s a v, q (wr s a v) = q s) (hput : ∀ s off r, q (bbxPut s off r) = q s)
    (hcount : ∀ s n, q { s with ringCount := n } = q s) (hsend : ∀ s tx want, q { s with tx := tx, portWant := want } = q s) (s : State) (cause src d : Nat) :
    q (fatalLeft s cause src d) = q s := by
  rw [fatalLeft, leaveScauth_reads q hwr hsend, freezeRing, wrf, hwr, bbx_reads q hwr hput hcount]

@[simp] theorem showFatal_mem (s : State) (cause : Nat) : (showFatal s cause).mem = s.mem := rfl
@[simp] theorem showFatal_threads (s : State) (cause : Nat) : (showFatal s cause).threads = s.threads := rfl

theorem fatalErrors : Sys2Proof.Parts.FatalErrors := by
  intro s cause src h hinv hcause
  refine ⟨fun hstop => fatal_of_fatal hstop cause src h, fun hrun => ?_⟩
  have hleft := fatalLeft_leaves hinv cause src h
  refine ⟨pwrState_fatal hinv cause src h, (fatal_cause hinv cause src h hrun).trans (Nat.mod_eq_of_lt hcause), ?_⟩
  rw [fatal_of_running hrun]
  refine ⟨?_, fun k hk => ?_, rfl, rfl, ?_, ?_⟩
  · rw [rdf_of_rd (rd_showFatal_ne hleft.inv cause (by decide)), fatalLeft_frozen hinv]
  · have hport : R.SCF_PORT_STAT k ≠ R.PWR_STAT := by
      rw [R.SCF_PORT_STAT, R.PWR_STAT]
      omega
    exact (rdf_of_rd (rd_showFatal_ne hleft.inv cause hport) 0 2).trans (fatalLeft_down hinv cause src h hk)
  · rw [showFatal_mem]
    exact fatalLeft_reads State.mem (fun _ _ _ => rfl) (fun _ _ _ => rfl) (fun _ _ => rfl) (fun _ _ _ => rfl) ..
  · rw [showFatal_threads]
    exact fatalLeft_reads State.threads (fun _ _ _ => rfl) (fun _ _ _ => rfl) (fun _ _ => rfl) (fun _ _ _ => rfl) ..

/-- Settles O53: the patrol by the outcomes of its read (`patrol_patrolRead`), a window by its hottest channel (`hottest_mem`), a fatal error by what its record, its ports and the power status show. -/
theorem errorsAndFatal : Obligations.ErrorsAndFatal := ⟨memoryErrors, fatalErrors⟩

end Sys2Proof.Machine
end

section
/-! What the end of a cache split leaves of the splits that are under way (R229), and a state in which a second entry of the same split comes to light. -/

namespace Sys2Proof.Machine

theorem foldl_llmPend {f : State → Nat → State} (hf : ∀ s w, (f s w).llmPend = s.llmPend) (l : List Nat) (s : State) :
    (l.foldl f s).llmPend = s.llmPend :=
  (List.foldl_hom State.llmPend (g₂ := fun m _ => m) fun s w => (hf s w).symm).symm.trans (List.foldl_fixed l)

theorem wayScratchOn_llmPend (s : State) (h w : Nat) : (wayScratchOn s h w).llmPend = s.llmPend := rfl

variable {s : State} {h p c m free chg : Nat}

theorem joinFree_llmPend (hp : sget none s.llmPend (h * 8 + p) = some (c, m, free, chg)) :
    (joinFree s h p).llmPend = sset none s.llmPend (h * 8 + p) (some (c, m, 0, chg)) := by
  rw [joinFree, hp]
  dsimp only
  rw [foldl_llmPend]
  intro s w
  split
  · exact wayScratchOn_llmPend s h w
  · rfl

/-- The end of a split writes its entry twice: its free ways have joined, and it is gone. -/
theorem execLlmSplitDone_llmPend (hi : issuing s = true) (hp : sget none s.llmPend (h * 8 + p) = some (c, m, free, chg)) {u : State}
    (hu : execLlmSplitDone h p s = .next u) :
    u.llmPend = sset none (sset none s.llmPend (h * 8 + p) (some (c, m, 0, chg))) (h * 8 + p) none := by
  rw [execLlmSplitDone, hi, hp] at hu
  obtain rfl := Host.Outcome.next.inj hu
  simp only [Bool.not_true, Bool.false_eq_true, if_false]
  rw [wrf, wr_llmPend, foldl_llmPend, joinFree_llmPend hp]
  intro s w
  split_ifs
  · rfl
  · exact wayScratchOn_llmPend s h w
  · rfl
  · exact wr_llmPend s _ _

end Sys2Proof.Machine

namespace Sys2Proof.Tests
open Sys2Proof.Machine

/-- A package that runs, in which one split of partition 0 in half 0 is listed twice: the invariant does not ask `llmPend` for its canonical form. -/
def splitTwice : State := { upState with llmPend := [(0, some (0, 0, 0, 0)), (0, some (0, 0, 0, 0))] }

theorem splitTwice_inv : splitTwice.Inv := upState_inv

theorem splitTwice_issuing : issuing splitTwice = true := by decide +kernel

theorem splitTwice_llmPend : splitTwice.llmPend = [(0, some (0, 0, 0, 0)), (0, some (0, 0, 0, 0))] := rfl

theorem splitTwice_pending : sget none splitTwice.llmPend (0 * 8 + 0) = some (0, 0, 0, 0) := by
  rw [splitTwice_llmPend]
  rfl

end Sys2Proof.Tests

namespace Sys2Proof.Machine
open Sys2Proof.Tests

/-- Refutes O51: the invariant leaves the splits that are under way (`llmPend`) out of its canonical forms. In `splitTwice` the split of partition 0 of half 0 is listed twice; its end removes the first entry, and the second is then read: the split is still under way. -/
theorem not_cacheSplitsAndRegulators : ¬ Obligations.CacheSplitsAndRegulators := by
  unfold Obligations.CacheSplitsAndRegulators
  intro hall
  obtain ⟨-, -, -, -, -, hdone, -⟩ := hall splitTwice 0 0 0 splitTwice_inv (by decide) (by decide)
  obtain ⟨u, hu, -, hgone, -⟩ := hdone 0 0 0 0 splitTwice_issuing splitTwice_pending
  rw [execLlmSplitDone_llmPend splitTwice_issuing splitTwice_pending hu, splitTwice_llmPend] at hgone
  exact absurd hgone (by decide)

end Sys2Proof.Machine
end

section
/-! What a cycle of a half leaves of its arch link before the ends of the link arbitrate (R245, R246), and a link whose rate is listed twice and used up to the last byte. -/

namespace Sys2Proof.Machine

/-- What the ends of the arch links arbitrate over: the transfers that wait, the turns and runs, and the bytes of the rate that are left. -/
def archLink (s : State) : Sparse (List Xact) × Sparse Nat × Sparse Nat × Sparse Nat := (s.arch, s.archTurn, s.archRun, s.archCred)

theorem archCred_of_archLink {s t : State} (hst : archLink s = archLink t) : s.archCred = t.archCred := congrArg (fun l => l.2.2.2) hst

@[simp] theorem archLink_addDiv (s : State) (a lo n dv k : Nat) : archLink (addDiv s a lo n dv k) = archLink s := rfl

@[simp] theorem archLink_rglMod (s : State) (h p : Nat) (w : Bool) (f : Nat × Nat × List Xact → Nat × Nat × List Xact) :
    archLink (rglMod s h p w f) = archLink s := rfl

@[simp] theorem archLink_wayScratchOn (s : State) (h w : Nat) : archLink (wayScratchOn s h w) = archLink s := rfl

theorem archLink_invs (s : State) (l : List (Nat × Nat × Nat)) : archLink { s with invs := l } = archLink s := rfl

theorem archLink_foldl {α : Type} {f : State → α → State} (hf : ∀ s a, archLink (f s a) = archLink s) (l : List α) (s : State) :
    archLink (l.foldl f s) = archLink s :=
  (List.foldl_hom archLink (g₂ := fun m _ => m) fun s a => (hf s a).symm).symm.trans (List.foldl_fixed l)

@[simp] theorem archLink_rglRefill (s : State) (h : Nat) : archLink (rglRefill s h) = archLink s :=
  archLink_foldl (fun _ _ => archLink_foldl (fun _ _ => archLink_rglMod ..) _ _) _ _

/-- A half that can serve no line, and to which other agents offer none, only refills its regulators and counts who waits. -/
theorem archLink_rglCycle_idle (s : State) (h : Nat) : archLink (rglCycle s h 0 0 []) = archLink s := by
  rw [rglCycle]
  dsimp only
  rw [archLink_foldl]
  · exact archLink_rglRefill s h
  · intro s p
    split_ifs <;> simp only [archLink_addDiv]

theorem archLink_busyCycle (s : State) (h : Nat) : archLink (busyCycle s h) = archLink s := by
  rw [busyCycle]
  simp only [archLink_addDiv]
  rfl

@[simp] theorem archLink_joinFree (s : State) (h p : Nat) : archLink (joinFree s h p) = archLink s := by
  rw [joinFree]
  split
  · rfl
  · refine Eq.trans (b := archLink (List.foldl _ s _)) rfl (archLink_foldl ?_ _ s)
    intro s w
    split_ifs <;> simp only [archLink_wayScratchOn]

theorem archLink_waysJoin (s : State) (h : Nat) : archLink (waysJoin s h) = archLink s := by
  refine archLink_foldl ?_ _ s
  intro s p
  extract_lets
  split_ifs <;> simp only [archLink_joinFree]

theorem archLink_drnWait (s : State) (h : Nat) : archLink (drnWait s h) = archLink s := by
  rw [drnWait]
  split
  · rfl
  · refine archLink_foldl ?_ _ s
    intro s b
    split_ifs <;> simp only [archLink_addDiv]

@[simp] theorem archCount_archCred (s : State) (h cls cat : Nat) : (archCount s h cls cat).archCred = s.archCred := by
  simp only [archCount]
  split_ifs <;> rfl

@[simp] theorem archPush_archCred (s : State) (h e : Nat) (x : Xact) : (archPush s h e x).archCred = s.archCred := rfl

@[simp] theorem rglMod_archCred (s : State) (h p : Nat) (w : Bool) (f : Nat × Nat × List Xact → Nat × Nat × List Xact) :
    (rglMod s h p w f).archCred = s.archCred := rfl

@[simp] theorem respond_archCred (s : State) (x : Xact) : (respond s x).archCred = s.archCred := by
  rw [respond]
  split
  · rfl
  · exact archPush_archCred ..

@[simp] theorem archLand_archCred (s : State) (h e : Nat) (x : Xact) : (archLand s h e x).archCred = s.archCred := by
  rw [archLand, offerHome]
  split_ifs <;> simp only [archPush_archCred, rglMod_archCred, respond_archCred]

/-- The sending itself only counts the bytes that are left: they are written down at its end. -/
theorem archSend_archCred (h e fuel : Nat) : ∀ (cred : Nat) (any : Bool) (s : State), (archSend h e fuel cred any s).1.archCred = s.archCred := by
  induction fuel with
  | zero => intros; rfl
  | succ fuel ih =>
    intro cred any s
    rw [archSend]
    split
    · rfl
    dsimp only
    split
    · rfl
    split
    · rfl
    split
    · rfl
    · rw [ih, archLand_archCred]
      split
      · exact archCount_archCred _ _ _ _
      · rfl

/-- The bytes of its rate that a cycle leaves an end of a half's arch link. -/
def archLeft (s : State) (h e : Nat) : Nat := (archSend h e 1000 (sget 0 s.archCred (h * 2 + e) + 1000) false s).2.1

theorem archCycle_archCred (s : State) (h e : Nat) : (archCycle s h e).archCred = sset 0 s.archCred (h * 2 + e) (min 63 (archLeft s h e)) := by
  rw [archCycle]
  dsimp only
  rw [archSend_archCred]
  split
  · split <;> rfl
  · refine (archCred_of_archLink (archLink_foldl ?_ _ _)).trans ?_
    · intro s o
      split_ifs <;> simp only [archLink_addDiv]
    · split <;> rfl

/-- A half at the moment its arch link arbitrates, in a cycle in which it serves no line and is offered none. -/
def beforeArch (s : State) (h : Nat) : State :=
  { waysJoin (busyCycle (rglCycle s h 0 0 []) h) h with
    invs := (waysJoin (busyCycle (rglCycle s h 0 0 []) h) h).invs.filter (fun (e : Nat × Nat × Nat) => e.2.2 != h) }

theorem archLink_beforeArch (s : State) (h : Nat) : archLink (beforeArch s h) = archLink s :=
  calc archLink (beforeArch s h)
    _ = archLink (waysJoin (busyCycle (rglCycle s h 0 0 []) h) h) := archLink_invs _ _
    _ = archLink s := by rw [archLink_waysJoin, archLink_busyCycle, archLink_rglCycle_idle]

theorem execSclkCycle_idle {s : State} {h : Nat} (hi : issuing s = true) (hh : h < 2) :
    execSclkCycle h 0 0 [] [] s = .next (drnWait (archCycle (archCycle (beforeArch s h) h 0) h 1) h) := by
  rw [execSclkCycle, hi, decide_eq_false (Nat.not_le.2 hh), beforeArch]
  simp only [Bool.not_true, Bool.or_false, Bool.false_eq_true, if_false, List.foldl_nil]

/-- Lines written from half 0 to half 0, as requests that count in no mix: they leave the outbound end of its link and nothing else happens. -/
def requestLines (n : Nat) : Xact := ⟨none, n, 0, 0, 0, 2, 3, 64 * n, true, false⟩

theorem chunk_requestLines_one : chunk (requestLines 1) = (requestLines 1, none) := rfl

theorem chunk_requestLines (n : Nat) : chunk (requestLines (n + 2)) = (requestLines 1, some (requestLines (n + 1))) := by
  have hone : ¬ n + 2 ≤ 1 := by omega
  simp [chunk, requestLines, hone]
  omega

theorem archCount_requestLines (s : State) (n : Nat) : archCount s 0 2 (requestLines n).cat = s := rfl

theorem archLand_requestLines (s : State) : archLand s 0 0 (requestLines 1) = s := rfl

section
variable {s : State} {x : Xact}

theorem archClass_of_arch_nil (ha : s.arch = []) : archClass s 0 0 = none := by
  have hwaits (cls : Nat) : archWaits s 0 0 cls = false := by rw [archWaits, ha]; rfl
  rw [archClass, hwaits, hwaits, hwaits, hwaits]
  rfl

theorem archSend_of_arch_nil (ha : s.arch = []) (fuel cred : Nat) (any : Bool) : archSend 0 0 fuel cred any s = (s, cred, any) := by
  cases fuel with
  | zero => rfl
  | succ fuel => rw [archSend, archClass_of_arch_nil ha]

/-- Only requests of owner 0 wait, in the queue of key 18, at the outbound end of half 0's link, and its turn is 0 or 1. -/
def OneWaits (s : State) (x : Xact) : Prop := s.arch = [(18, [x])] ∧ (s.archTurn = [] ∨ s.archTurn = [(2, 1)])

theorem archClass_of_oneWaits (hx : OneWaits s x) : archClass s 0 0 = some 2 := by
  obtain ⟨ha, -⟩ := hx
  have hexpress : archWaits s 0 0 0 = false := by rw [archWaits, ha]; rfl
  have hresponse : archWaits s 0 0 1 = false := by rw [archWaits, ha]; rfl
  have hrequest : archWaits s 0 0 2 = true := by rw [archWaits, ha]; rfl
  have hbulk : archWaits s 0 0 3 = false := by rw [archWaits, ha]; rfl
  rw [archClass, hexpress, hresponse, hrequest, hbulk]
  rfl

theorem nextTurn_of_oneWaits (hx : OneWaits s x) :
    nextTurn 9 (sget 0 s.archTurn ((0 * 2 + 0) * 4 + 2)) (fun o => !(sget [] s.arch (archKey 0 0 2 o)).isEmpty) = some 0 := by
  obtain ⟨ha, ht | ht⟩ := hx <;> rw [ha, ht] <;> rfl

theorem sget_arch_of_oneWaits (hx : OneWaits s x) : sget [] s.arch (archKey 0 0 2 0) = [x] := by rw [hx.1]; rfl

/-- A line of the requests leaves the link: the rest of them waits, if there is one. -/
theorem archSend_oneWaits {n : Nat} {rest : Option Xact} (hx : OneWaits s (requestLines n)) (hc : chunk (requestLines n) = (requestLines 1, rest))
    {cred : Nat} (hcred : 64 ≤ cred) (fuel : Nat) (any : Bool) :
    ∃ u, archSend 0 0 (fuel + 1) cred any s = archSend 0 0 fuel (cred - 64) true u ∧
      u.arch = sset [] [(18, [requestLines n])] 18 rest.toList ∧ (u.archTurn = [] ∨ u.archTurn = [(2, 1)]) := by
  have hroom : ¬ cred < (requestLines 1).bytes := Nat.not_lt.2 hcred
  rw [archSend, archClass_of_oneWaits hx]
  dsimp only
  rw [nextTurn_of_oneWaits hx]
  dsimp only
  rw [sget_arch_of_oneWaits hx]
  dsimp only
  rw [hc]
  dsimp only
  rw [if_neg hroom, if_pos rfl, archCount_requestLines, archLand_requestLines]
  obtain ⟨ha, ht⟩ := hx
  refine ⟨_, rfl, ?_, .inr ?_⟩
  · dsimp only
    rw [ha, List.append_nil]
    rfl
  · dsimp only
    obtain ht | ht := ht <;> rw [ht] <;> rfl

end

/-- Lines for which the bytes that are left just suffice use them up. -/
theorem archSend_requestLines (n : Nat) : ∀ (fuel : Nat) (any : Bool) (s : State), n < fuel → OneWaits s (requestLines (n + 1)) →
    (archSend 0 0 fuel (64 * (n + 1)) any s).2.1 = 0 := by
  induction n with
  | zero =>
    intro fuel any s hf hx
    obtain ⟨fuel, rfl⟩ := Nat.exists_eq_add_one.2 hf
    obtain ⟨u, hu, ha, -⟩ := archSend_oneWaits hx chunk_requestLines_one le_rfl fuel any
    rw [hu, archSend_of_arch_nil ha]
  | succ n ih =>
    intro fuel any s hf hx
    obtain ⟨fuel, rfl⟩ := Nat.exists_eq_add_one.2 (Nat.zero_lt_of_lt hf)
    obtain ⟨u, hu, ha, ht⟩ := archSend_oneWaits hx (chunk_requestLines n) (cred := 64 * (n + 2)) (by omega) fuel any
    have hleft : 64 * (n + 2) - 64 = 64 * (n + 1) := by omega
    rw [hu, hleft]
    exact ih fuel true u (by omega) ⟨ha, ht⟩

end Sys2Proof.Machine

namespace Sys2Proof.Tests
open Sys2Proof.Machine

/-- A package that runs, in which the outbound end of half 0's arch link has 16 lines to send and its left-over rate is listed twice: the invariant does not ask `archCred` for its canonical form. -/
def rateTwice : State := { upState with arch := [(18, [requestLines 16])], archCred := [(0, 24), (0, 1000)] }

theorem rateTwice_inv : rateTwice.Inv := upState_inv

theorem rateTwice_issuing : issuing rateTwice = true := by decide +kernel

theorem archLink_rateTwice : archLink rateTwice = ([(18, [requestLines 16])], [], [], [(0, 24), (0, 1000)]) := rfl

end Sys2Proof.Tests

namespace Sys2Proof.Machine
open Sys2Proof.Tests

theorem archLeft_of_rateTwice {t : State} (ht : archLink t = archLink rateTwice) : archLeft t 0 0 = 0 := by
  rw [archLink_rateTwice] at ht
  obtain ⟨ha, hturn, -, hcred⟩ : t.arch = _ ∧ t.archTurn = _ ∧ t.archRun = _ ∧ t.archCred = _ := by simpa only [archLink, Prod.mk.injEq] using ht
  rw [archLeft, hcred]
  exact archSend_requestLines 15 1000 false t (by decide) ⟨ha, .inl hturn⟩

/-- After the outbound end has used up its rate, its second entry is the one that is read. -/
theorem sget_archCred_rateTwice :
    sget 0 (drnWait (archCycle (archCycle (beforeArch rateTwice 0) 0 0) 0 1) 0).archCred (0 * 2 + 0) = 1000 := by
  have hlink := archLink_beforeArch rateTwice 0
  have hcred : (beforeArch rateTwice 0).archCred = [(0, 24), (0, 1000)] := archCred_of_archLink hlink
  rw [archCred_of_archLink (archLink_drnWait _ 0), archCycle_archCred, archCycle_archCred, archLeft_of_rateTwice hlink, hcred]
  generalize min 63 (archLeft _ 0 1) = inbound
  rw [show sset 0 [(0, 24), (0, 1000)] (0 * 2 + 0) (min 63 0) = [(0, 1000)] from rfl]
  by_cases hin : inbound = 0 <;> simp [sset, sget, hin]

/-- Refutes O52: the invariant leaves the left-over rate of the arch links (`archCred`) out of its canonical forms. In `rateTwice` the 24 + 1000 bytes of the outbound end of half 0 are used up by its 16 lines; writing 0 for what is left removes the first entry, and the second is then read: 1000 bytes, more than a line. -/
theorem not_regulatorCycles : ¬ Obligations.RegulatorCycles := by
  unfold Obligations.RegulatorCycles
  intro hall
  obtain ⟨-, hrun⟩ := hall rateTwice 0 0 0 [] [] rateTwice_inv (by decide)
  obtain ⟨u, hu, -, -, hleft, -⟩ := hrun rateTwice_issuing
  have hu : execSclkCycle 0 0 0 [] [] rateTwice = .next u := hu
  rw [execSclkCycle_idle rateTwice_issuing (by decide)] at hu
  obtain rfl := Host.Outcome.next.inj hu
  exact absurd (hleft 0 (by decide)) (by rw [sget_archCred_rateTwice]; decide)

end Sys2Proof.Machine
end

section
/-! The router: packets that reach this package, packets that go on, detours and refusals (R252, R266, R268, R270-R272, R276, R380). -/

namespace Sys2Proof.Machine

/-- R266: the packet is put last in the output queue of a port. -/
def queuedAt (s : State) (k : Nat) (p : Pkt) : State := { s with outq := sset [] s.outq k (sget [] s.outq k ++ [p]) }

/-- R266, R267: the packet joins none that waits in the output queue of a port. -/
def JoinsNone (s : State) (k : Nat) (p : Pkt) : Prop := (p.ty ≠ 1 ∧ bundled p.ty = false) ∨ ∀ a ∈ sget [] s.outq k, combines a p = false

theorem enqueue_of_joinsNone {s : State} {k : Nat} {p : Pkt} (h : JoinsNone s k p) : enqueue s k p = queuedAt s k p := by
  unfold enqueue
  split
  · rfl
  · rename_i hone
    have hnone : ∀ a ∈ sget [] s.outq k, combines a p = false := h.resolve_left fun ⟨hread, hbundle⟩ => hone (by simp [hread, hbundle])
    dsimp only
    split
    · rfl
    · rename_i a ha
      have hjoins := List.find?_some ha
      simp [hnone a (List.mem_of_find?_eq_some ha)] at hjoins

/-- R266, R267: a request that waits can take another with it, in the slot that it holds or in a new one. -/
def canJoin (s : State) (p a : Pkt) : Bool :=
  combines a p && (match slotOf s a with
    | some c => if a.ty = 1 then c.mem.length < 32 else a.mem.length + p.mem.length ≤ 8
    | none => a.ty == 1 || a.mem.length + p.mem.length ≤ 8)

/-- R266: what stands for two requests under a new tag of this router. -/
def pairOf (s : State) (a p : Pkt) : Pkt := { a with src := ownCoord s, eng := 0xFFF, seq := sget 0 s.seqs 0xFFF, mem := a.mem ++ p.mem }

/-- R266: a request that waits and holds no slot takes one with the request that joins it. -/
theorem enqueue_takes_slot {s : State} {k : Nat} {p a : Pkt} (hfind : (sget [] s.outq k).find? (canJoin s p) = some a) (hone : (p.ty == 1 || bundled p.ty) = true)
    (hslot : slotOf s a = none) (hfree : combFree s ≠ 0) :
    (enqueue s k p).slots = s.slots ++ [⟨sget 0 s.seqs 0xFFF, k, [slotMember a, slotMember p]⟩] ∧
    (enqueue s k p).outq = sset [] s.outq k ((sget [] s.outq k).map (fun b => if b = a then pairOf s a p else b)) := by
  unfold enqueue
  rw [if_neg (by simp only [hone, Bool.not_true, Bool.false_eq_true, not_false_eq_true])]
  dsimp only
  split
  · rename_i hnone
    exact absurd (hfind.symm.trans hnone) (by simp)
  · rename_i b hb
    obtain rfl := Option.some.inj (hfind.symm.trans hb)
    split
    · rename_i c hc
      rw [hslot] at hc
      cases hc
    · rw [if_neg hfree]
      exact ⟨rfl, rfl⟩

section
variable {s : State} {k : Nat} {p a : Pkt} {pre post : List Pkt} (hqueue : sget [] s.outq k = pre ++ a :: post)
  (hpre : ∀ x ∈ pre, combines x p = false) (hjoins : combines a p = true)
include hqueue hpre hjoins

/-- R266: a READ is combined with the first of its line that waits. -/
theorem enqueue_read (hty : p.ty = 1) (hslot : slotOf s a = none) (hfree : combFree s ≠ 0) (hpost : a ∉ post) :
    (enqueue s k p).slots = s.slots ++ [⟨sget 0 s.seqs 0xFFF, k, [slotMember a, slotMember p]⟩] ∧
    (enqueue s k p).outq = sset [] s.outq k (pre ++ pairOf s a p :: post) := by
  have hread : a.ty = 1 := by
    simp only [combines, Bool.and_eq_true, beq_iff_eq] at hjoins
    exact hjoins.1.1.1.trans hty
  have hnot : a ∉ pre := fun hmem => by simp [hpre a hmem] at hjoins
  have hfind : (sget [] s.outq k).find? (canJoin s p) = some a := by
    rw [hqueue]
    exact List.find?_eq_some_iff_append.2 ⟨by simp [canJoin, hjoins, hslot, hread], pre, post, rfl, fun x hx => by simp [canJoin, hpre x hx]⟩
  have hothers : ∀ l : List Pkt, a ∉ l → l.map (fun b => if b = a then pairOf s a p else b) = l := fun l hl =>
    (List.map_congr_left fun b hb => if_neg fun hba : b = a => hl (hba ▸ hb)).trans (List.map_id l)
  obtain ⟨hslots, houtq⟩ := enqueue_takes_slot hfind (by simp [hty]) hslot hfree
  rw [hqueue, List.map_append, List.map_cons, if_pos rfl, hothers pre hnot, hothers post hpost] at houtq
  exact ⟨hslots, houtq⟩

end

theorem not_active_of_down {s : State} {k : Nat} (h : portState s k < 2) : (portState s k == 3) = false := beq_eq_false_iff_ne.2 (by omega)

section
variable {s : State} {p : Pkt}

theorem routePkt_here (hhop : nextHop s (ownCoord s) p.dst p.dax = none) : routePkt s p = { s with rxq := s.rxq ++ [p] } := by
  simp only [routePkt, hhop]

theorem refusePkt_eq (ty st cause : Nat) :
    refusePkt s p ty st cause = if isRequest p.ty then emit s (replyTo s p ty (st + cause * 256) [] [] false) else s := by
  rw [refusePkt, Nat.shiftLeft_eq]

variable {ax d : Nat} (hhop : nextHop s (ownCoord s) p.dst p.dax = some (ax, d))
include hhop

theorem routePkt_first (hport : portState s (2 * ax + d) = 3) (htwin : portState s (2 * ax + d + 8) ≠ 3) : routePkt s p = enqueue s (2 * ax + d) p := by
  simp only [routePkt, hhop, beq_iff_eq.2 hport, beq_eq_false_iff_ne.2 htwin]

theorem routePkt_twin (hport : portState s (2 * ax + d) ≠ 3) (htwin : portState s (2 * ax + d + 8) = 3) : routePkt s p = enqueue s (2 * ax + d + 8) p := by
  simp only [routePkt, hhop, beq_eq_false_iff_ne.2 hport, beq_iff_eq.2 htwin]

/-- R271: with both ports of the hop ACTIVE the packet takes one of them. -/
theorem routePkt_either (hport : portState s (2 * ax + d) = 3) (htwin : portState s (2 * ax + d + 8) = 3) :
    routePkt s p = enqueue s (2 * ax + d) p ∨ routePkt s p = enqueue s (2 * ax + d + 8) p := by
  simp only [routePkt, hhop, hport, htwin, beq_self_eq_true]
  split
  · exact .inr rfl
  · exact .inl rfl

/-- R270: neither port of the hop is ACTIVE and one is a parapet. -/
theorem routePkt_parapet (hport : portState s (2 * ax + d) ≠ 3) (htwin : portState s (2 * ax + d + 8) ≠ 3)
    (hpar : portState s (2 * ax + d) = 2 ∨ portState s (2 * ax + d + 8) = 2) : routePkt s p = refusePkt s p 0x29 0x21 0x55 := by
  simp only [routePkt, hhop, beq_eq_false_iff_ne.2 hport, beq_eq_false_iff_ne.2 htwin, if_pos hpar]

/-- R272: both ports of the hop are down, and the packet has detoured already or has no detour. -/
theorem routePkt_unreachable (hport : portState s (2 * ax + d) < 2) (htwin : portState s (2 * ax + d + 8) < 2)
    (hno : p.det = true ∨ detourPort s (2 * ax + d) = none) : routePkt s p = refusePkt s p 0x2A 0x22 0x53 := by
  have hpar : ¬ (portState s (2 * ax + d) = 2 ∨ portState s (2 * ax + d + 8) = 2) := by omega
  rcases hno with hdet | hnone
  · simp only [routePkt, hhop, not_active_of_down hport, not_active_of_down htwin, if_neg hpar, hdet]
  · cases hdet : p.det <;> simp only [routePkt, hhop, not_active_of_down hport, not_active_of_down htwin, if_neg hpar, hdet, hnone]

/-- R272: both ports of the hop are down: the packet detours, once, where the detour stays in the block. -/
theorem routePkt_detour {k : Nat} (hport : portState s (2 * ax + d) < 2) (htwin : portState s (2 * ax + d + 8) < 2) (hdet : p.det = false)
    (hk : detourPort s (2 * ax + d) = some k) (hblock : hopInBlock s k = true) :
    routePkt s p = enqueue s k { p with vc := 3, det := true, dax := k % 8 / 2 + 1 } := by
  have hpar : ¬ (portState s (2 * ax + d) = 2 ∨ portState s (2 * ax + d + 8) = 2) := by omega
  simp only [routePkt, hhop, not_active_of_down hport, not_active_of_down htwin, if_neg hpar, hdet, hk, hblock, if_true]

end

section
variable {s : State} {p : Pkt} (hi : issuing s = true)

theorem exec_routerForward_parapet {k : Nat} (hk : k < 16) (hport : portState s k = 2) :
    exec (.routerForward (.port k p)) s = .next (addSat s (R.SCF_PORT_STAT k) 32 32 1) := by
  show execRouterForward (.port k p) s = _
  simp [execRouterForward, Nat.not_le.2 hk, hport, parapetDrop]

include hi

theorem exec_routerForward_own {rest : List Pkt} (hq : s.routerIn = p :: rest) :
    exec (.routerForward .own) s = .next (routePkt { s with routerIn := rest } p) := by
  show execRouterForward .own s = _
  simp only [execRouterForward, hq, hi, if_true]

theorem exec_routerForward_active {k : Nat} (hk : k < 16) (hport : portState s k = 3) :
    exec (.routerForward (.port k p)) s = .next (routePkt s p) := by
  show execRouterForward (.port k p) s = _
  simp [execRouterForward, Nat.not_le.2 hk, hport, hi]

/-- R276, R380: the oldest packet whose domain is not being released leaves its queue, by its port where that one is ACTIVE. -/
theorem exec_routerForward_depart {k : Nat} {pre post : List Pkt} (hq : sget [] s.outq k = pre ++ p :: post)
    (hpre : ∀ x ∈ pre, domScrubbed s x.dom = true) (hp : domScrubbed s p.dom = false) (hnot : p ∉ pre) :
    exec (.routerForward (.depart k)) s = .next (
      let u : State := { s with outq := sset [] s.outq k (pre ++ post) }
      if portState s k = 3 then { u with tx := s.tx ++ [.pkt k p] } else routePkt u p) := by
  have hfind : (pre ++ p :: post).find? (fun p => !domScrubbed s p.dom) = some p :=
    List.find?_eq_some_iff_append.2 ⟨by simp [hp], pre, post, rfl, fun x hx => by simp [hpre x hx]⟩
  have herase : (pre ++ p :: post).erase p = pre ++ post := by rw [List.erase_append_right _ hnot, List.erase_cons_head]
  show execRouterForward (.depart k) s = _
  simp only [execRouterForward, hi, hq, hfind, herase]
  rfl

end

/-- Settles O33: a packet by the ports of its hop, and in its output queue by whether it joins one that waits there. That a packet whose port is no longer ACTIVE is routed again when it would leave is the model's reading (log 45). -/
theorem routerForwards : Obligations.RouterForwards := by
  intro s p rest hinv hi
  refine ⟨exec_routerForward_own hi, fun hq => ?_, fun k hk hport => exec_routerForward_active hi hk hport, fun k hk hport => exec_routerForward_parapet hk hport,
    routePkt_here, fun ax d hhop => ⟨fun hport htwin halone => ?_, fun hport htwin halone => ?_, fun hport htwin halone htwinAlone => ?_,
      fun pre a post hport htwin hq hpost hty hpre hjoins hslot hfree => ?_, fun hport htwin hpar => ?_, fun hport htwin hno => ?_,
      fun k hport htwin hdet hk hblock hread hbundle => ?_⟩, fun k pre post hq hpre hp hnot => exec_routerForward_depart hi hq hpre hp hnot⟩
  · show execRouterForward .own s = _
    simp only [execRouterForward, hq]
  · exact (routePkt_first hhop hport htwin).trans (enqueue_of_joinsNone halone)
  · exact (routePkt_twin hhop hport htwin).trans (enqueue_of_joinsNone halone)
  · exact (routePkt_either hhop hport htwin).imp (·.trans (enqueue_of_joinsNone halone)) (·.trans (enqueue_of_joinsNone htwinAlone))
  · rw [routePkt_first hhop hport htwin]
    exact enqueue_read hq hpre hjoins hty hslot hfree hpost
  · rw [routePkt_parapet hhop hport htwin hpar, refusePkt_eq]
  · rw [routePkt_unreachable hhop hport htwin hno, refusePkt_eq]
  · exact (routePkt_detour hhop hport htwin hdet hk hblock).trans (enqueue_of_joinsNone (.inl ⟨hread, hbundle⟩))

end Sys2Proof.Machine
end

section
/-! SUPPORT. The status of a Scauth port read back, and which registers are apart from it (R253, R281). -/

namespace Sys2Proof.Machine

theorem scfCoord_ne_portStat (k : Nat) : R.SCF_COORD ≠ R.SCF_PORT_STAT k := by
  rw [R.SCF_COORD, R.SCF_PORT_STAT]
  omega
theorem scfCoord_ne_portErr (k : Nat) : R.SCF_COORD ≠ R.SCF_PORT_ERR k := by
  rw [R.SCF_COORD, R.SCF_PORT_ERR]
  omega
theorem scfCoord_ne_portCtl (k : Nat) : R.SCF_COORD ≠ R.SCF_PORT_CTL k := by
  rw [R.SCF_COORD, R.SCF_PORT_CTL]
  omega
theorem scfPortStat_ne_err (j k : Nat) : R.SCF_PORT_STAT j ≠ R.SCF_PORT_ERR k := by
  rw [R.SCF_PORT_STAT, R.SCF_PORT_ERR]
  omega
theorem scfPortStat_ne_ctl (j k : Nat) : R.SCF_PORT_STAT j ≠ R.SCF_PORT_CTL k := by
  rw [R.SCF_PORT_STAT, R.SCF_PORT_CTL]
  omega
theorem pwrRegime_ne_portErr (k : Nat) : R.PWR_REGIME ≠ R.SCF_PORT_ERR k := by
  rw [R.PWR_REGIME, R.SCF_PORT_ERR]
  omega
theorem bbxReg_portStat (k : Nat) : bbxReg (R.SCF_PORT_STAT k) = false := by
  simp only [bbxReg, Bool.or_eq_false_iff, beq_eq_false_iff_ne, R.SCF_PORT_STAT, R.BBX_SEQ, R.BBX_STAT, R.BBX_RING]
  omega

theorem portState_lt (s : State) (k : Nat) : portState s k < 4 := Nat.mod_lt _ (by decide)

theorem portState_of_rd {s t : State} {k : Nat} (h : rd t (R.SCF_PORT_STAT k) = rd s (R.SCF_PORT_STAT k)) : portState t k = portState s k := rdf_of_rd h 0 2

theorem coordSet_of_rd {s t : State} (h : rd t R.SCF_COORD = rd s R.SCF_COORD) : coordSet t = coordSet s := by rw [coordSet, h, coordSet]

theorem axisLen_of_rd {s t : State} (h : rd t R.SCF_COORD = rd s R.SCF_COORD) (ax : Nat) : axisLen t ax = axisLen s ax := by
  rw [axisLen, rdf_of_rd h, axisLen]

/-- R252: the neighbour of a port is read from the coordinate alone. -/
theorem portPeer_of_rd {s t : State} (h : rd t R.SCF_COORD = rd s R.SCF_COORD) (k : Nat) : portPeer t k = portPeer s k := by
  simp only [portPeer, neighbour, ownCoord, coordSet_of_rd h, axisLen_of_rd h, rdf_of_rd h]

section
variable {s : State} (h : s.Inv) (k st : Nat)
include h

theorem setPort_inv : (setPort s k st).Inv := wrf_inv _ _ _ _ h
theorem setPort_only : Leaves (onlyReg (R.SCF_PORT_STAT k)) s (setPort s k st) := (Leaves.refl h).wrf (onlyReg_self _) 0 2 st
theorem portState_setPort : portState (setPort s k st) k = st % 4 := rdf_wrf_same h _ _ _ _ (by decide)

/-- R281: the lock is apart from the state. -/
theorem portState_wrf_lock (v : Nat) : portState (wrf s (R.SCF_PORT_STAT k) 2 1 v) k = portState s k :=
  rdf_wrf_apart h _ _ _ _ _ _ (by decide) (by decide)

end

section
variable {s t : State} {k : Nat} (ht : Leaves (onlyReg (R.SCF_PORT_STAT k)) s t)
include ht

/-- What moves the status of one port leaves that of the others, the coordinate and the modes. -/
theorem portState_of_only {j : Nat} (hj : j ≠ k) : portState t j = portState s j := portState_of_rd (ht.rd_eq _ (onlyReg_of_ne (scfPortStat_ne hj)))
theorem rd_coord_of_only : rd t R.SCF_COORD = rd s R.SCF_COORD := ht.rd_eq _ (onlyReg_of_ne (scfCoord_ne_portStat k))
theorem rdf_ctl_of_only (j lo n : Nat) : rdf t (R.SCF_PORT_CTL j) lo n = rdf s (R.SCF_PORT_CTL j) lo n :=
  rdf_of_rd (ht.rd_eq _ (onlyReg_of_ne (scfPortStat_ne_ctl k j).symm)) lo n

end

end Sys2Proof.Machine
end

section
/-! Scauth ports train (R252, R253, R270, R276, R278, R281). -/

namespace Sys2Proof.Machine

section
variable {s : State} {k : Nat} (hk : k < 16)
include hk

theorem portUp_of_up (hup : 2 ≤ portState s k) : portUp s k = true := by simp [portUp, hk, hup]

theorem exec_keepaliveSend_up (hup : 2 ≤ portState s k) : exec (.keepaliveSend k) s = .next { s with tx := s.tx ++ [.keep k] } := by
  show execKeepaliveSend k s = _
  rw [execKeepaliveSend, portUp_of_up hk hup, if_pos rfl]

/-- R276, R278: training patterns leave a port in TRAINING but for one in electrical idle. -/
theorem exec_keepaliveSend_training (hport : portState s k = 1) :
    exec (.keepaliveSend k) s = .next (if k ∈ s.portIdle then s else { s with tx := s.tx ++ [.training k] }) := by
  have hdown : portUp s k = false := by simp [portUp, hport]
  show execKeepaliveSend k s = _
  by_cases hidle : k ∈ s.portIdle
  · simp [execKeepaliveSend, hdown, hidle]
  · simp [execKeepaliveSend, hdown, hidle, hk, hport]

theorem exec_keepaliveReceived_up (hup : 2 ≤ portState s k) : exec (.keepaliveReceived k) s = .next { s with portSeen := sset 0 s.portSeen k s.ltc.toNat } := by
  show execKeepaliveReceived k s = _
  rw [execKeepaliveReceived, portUp_of_up hk hup, if_pos rfl]

theorem exec_receiveLock_training (hport : portState s k = 1) :
    exec (.receiveLock k) s = .next (wrf { s with portIdle := s.portIdle.filter (· ≠ k) } (R.SCF_PORT_STAT k) 2 1 1) := by
  show execReceiveLock k s = _
  simp [execReceiveLock, hk, hport]

end

/-- R276: the return of a port that had fallen is counted. -/
def countReturn (s : State) (k : Nat) : State := if s.portFell.contains k then addSat s (R.SCF_PORT_ERR k) 32 32 1 else s

/-- R253: a write of ACTIVE that waits acts on a port that has trained, once the coordinate is set. -/
def goesActive (s : State) (k : Nat) : Bool := s.portWant.contains k && coordSet s

/-- R276: a port that has trained is heard again. -/
def heard (s : State) (k : Nat) : State :=
  { s with portFell := s.portFell.filter (· ≠ k), portSeen := sset 0 s.portSeen k s.ltc.toNat,
           portWant := if goesActive s k then s.portWant.filter (· ≠ k) else s.portWant }

/-- R253, R276: a port that has trained enters PARAPET or ACTIVE. -/
def trained (s : State) (k : Nat) : State := setPort (heard s k) k (if goesActive s k then 3 else 2)

section
variable {s : State} (h : s.Inv) (k : Nat)

theorem countReturn_of_mem (hfell : k ∈ s.portFell) : countReturn s k = addSat s (R.SCF_PORT_ERR k) 32 32 1 := if_pos (List.contains_iff_mem.2 hfell)
theorem countReturn_of_not_mem (hfell : k ∉ s.portFell) : countReturn s k = s := if_neg fun hmem => hfell (List.contains_iff_mem.1 hmem)

include h

theorem countReturn_only : Leaves (onlyReg (R.SCF_PORT_ERR k)) s (countReturn s k) := by
  unfold countReturn
  split
  · exact (Leaves.refl h).addSat (onlyReg_self _) _ _ _
  · exact .refl h

theorem trained_only : Leaves (onlyReg (R.SCF_PORT_STAT k)) s (trained s k) :=
  ((Leaves.refl h).same (u := heard s k) h rfl).wrf (onlyReg_self _) 0 2 _

theorem portState_trained : portState (trained s k) k = if k ∈ s.portWant ∧ coordSet s = true then 3 else 2 := by
  have hgo : goesActive s k = true ↔ k ∈ s.portWant ∧ coordSet s = true := by simp [goesActive]
  rw [trained, portState_setPort (s := heard s k) h]
  by_cases hwait : k ∈ s.portWant ∧ coordSet s = true
  · rw [if_pos hwait, if_pos (hgo.2 hwait)]
  · rw [if_neg hwait, if_neg (hgo.not.2 hwait)]

end

theorem countReturn_reads {α : Type} (q : State → α) (hwr : ∀ s a v, q (wr s a v) = q s) (s : State) (k : Nat) : q (countReturn s k) = q s := by
  unfold countReturn
  split
  · exact hwr ..
  · rfl

theorem exec_portTrained_locked {s : State} {k : Nat} (hk : k < 16) (hport : portState s k = 1) (hlock : rdf s (R.SCF_PORT_STAT k) 2 1 = 1) :
    exec (.portTrained k) s = .next (trained (countReturn s k) k) := by
  show execPortTrained k s = _
  rw [execPortTrained, if_pos (by simp [hk, hport, hlock])]
  rfl

theorem portsTrain : Sys2Proof.Parts.PortsTrain := by
  intro s k h hk
  refine ⟨exec_keepaliveSend_up hk, fun hport hidle => ?_, fun hport hidle => ?_, exec_keepaliveReceived_up hk,
    fun hport => ⟨_, exec_receiveLock_training hk hport, rdf_wrf_same (by exact h) _ _ _ _ (by decide), ?_, by simp [wrf], rfl, rfl⟩,
    fun hport hlock => ⟨_, exec_portTrained_locked hk hport hlock, ?_⟩⟩
  · rw [exec_keepaliveSend_training hk hport, if_neg hidle]
  · rw [exec_keepaliveSend_training hk hport, if_pos hidle]
  · exact (portState_wrf_lock (by exact h) k 1).trans hport
  · have hret := countReturn_only h k
    have htrain := trained_only hret.inv k
    have hcoord : coordSet (countReturn s k) = coordSet s := coordSet_of_rd (hret.rd_eq _ (onlyReg_of_ne (scfCoord_ne_portErr k)))
    have herr : rd (trained (countReturn s k) k) (R.SCF_PORT_ERR k) = rd (countReturn s k) (R.SCF_PORT_ERR k) :=
      htrain.rd_eq _ (onlyReg_of_ne (scfPortStat_ne_err k k).symm)
    refine ⟨?_, by simp [trained, heard, setPort, wrf], ?_, fun j _ hj => ?_, fun hfell => ?_, fun hfell => ?_⟩
    · rw [portState_trained hret.inv, hcoord, countReturn_reads State.portWant (fun _ _ _ => rfl)]
    · show sset 0 (countReturn s k).portSeen k (countReturn s k).ltc.toNat = _
      rw [countReturn_reads State.portSeen (fun _ _ _ => rfl), countReturn_reads State.ltc (fun _ _ _ => rfl)]
    · rw [portState_of_only htrain hj, portState_of_rd (hret.rd_eq _ (onlyReg_of_ne (scfPortStat_ne_err j k)))]
    · rw [rdf_of_rd herr, countReturn_of_mem k hfell, addSat_eq_wrf, rdf_wrf_same h _ _ _ _ (by decide), Nat.mod_eq_of_lt (by omega)]
    · rw [herr, countReturn_of_not_mem k hfell]

end Sys2Proof.Machine
end

section
/-! Scauth ports go down, and link replays (R276-R278, R374). -/

namespace Sys2Proof.Machine

/-- R276: a port declared down trains again, and its loss is counted. -/
def fallen (s : State) (k : Nat) : State :=
  let t := addSat (setPort s k 1) (R.SCF_PORT_STAT k) 16 16 1
  { t with portFell := ninsert k t.portFell, portWant := t.portWant.filter (· ≠ k) }

/-- R276: the black box has a record of a port declared down, with its neighbour. -/
def fallRecorded (s : State) (k cause peer : Nat) : State :=
  bbx (fallen s k) false 0x04 0 0 0 (leBytes 1 0 ++ leBytes 1 k ++ leBytes 1 cause ++ leBytes 1 0 ++ leBytes 4 peer)

/-- R277: a neighbour that no port reaches any more is told of and entered, unless its loss is known. -/
def fallTold (s : State) (cause : Nat) : Option Nat → State
  | none => s
  | some c =>
    if (List.range 16).any (fun j => portPeer s j == some c && 2 ≤ portState s j) || knownLost s c then s
    else loseCoord (sendLost s c cause) c cause

section
variable {s : State} (h : s.Inv) (k : Nat)
include h

theorem fallen_only : Leaves (onlyReg (R.SCF_PORT_STAT k)) s (fallen s k) :=
  have ht := (setPort_only h k 1).addSat (onlyReg_self _) 16 16 1
  ht.same ht.inv rfl

theorem portPeer_fallen (j : Nat) : portPeer (fallen s k) j = portPeer s j := portPeer_of_rd (rd_coord_of_only (fallen_only h k)) j

theorem portState_fallen : portState (fallen s k) k = 1 := by
  have hregs : rd (fallen s k) (R.SCF_PORT_STAT k) = rd (addSat (setPort s k 1) (R.SCF_PORT_STAT k) 16 16 1) (R.SCF_PORT_STAT k) := rd_of_regs rfl _
  rw [portState_of_rd hregs, addSat_eq_wrf, portState, rdf_wrf_apart (setPort_inv h k 1) _ _ _ _ _ _ (by decide) (by decide)]
  exact portState_setPort h k 1

/-- R276: the losses of a port are counted up to the field's limit. -/
theorem losses_fallen : rdf (fallen s k) (R.SCF_PORT_STAT k) 16 16 = min 65535 (rdf s (R.SCF_PORT_STAT k) 16 16 + 1) := by
  have hregs : rd (fallen s k) (R.SCF_PORT_STAT k) = rd (addSat (setPort s k 1) (R.SCF_PORT_STAT k) 16 16 1) (R.SCF_PORT_STAT k) := rd_of_regs rfl _
  rw [rdf_of_rd hregs, addSat_eq_wrf, rdf_wrf_same (setPort_inv h k 1) _ _ _ _ (by decide), setPort, rdf_wrf_apart h _ _ _ _ _ _ (by decide) (by decide)]
  exact Nat.mod_eq_of_lt (by omega)

theorem rd_portStat_fallRecorded (cause peer : Nat) : rd (fallRecorded s k cause peer) (R.SCF_PORT_STAT k) = rd (fallen s k) (R.SCF_PORT_STAT k) :=
  (bbx_leaves (fallen_only h k).inv ..).rd_eq _ (bbxReg_portStat k)

omit h in
/-- R277: what a port declared down means for its neighbour. -/
theorem portDown_eq (cause : Nat) : portDown s k cause =
    fallTold (fallRecorded s k cause ((portPeer (fallen s k) k).getD 0)) cause (portPeer (fallen s k) k) := rfl

theorem portDown_of_no_peer (cause : Nat) (hpeer : portPeer s k = none) : portDown s k cause = fallRecorded s k cause 0 := by
  rw [portDown_eq, portPeer_fallen h, hpeer]
  rfl

/-- R277: a neighbour that no other port reaches, and that is not known to be lost, is told of and entered. -/
theorem portDown_of_lost {cause c : Nat} (hpeer : portPeer s k = some c)
    (halone : ∀ j < 16, portPeer (fallRecorded s k cause c) j = some c → portState (fallRecorded s k cause c) j < 2)
    (hnew : knownLost (fallRecorded s k cause c) c = false) :
    portDown s k cause = loseCoord (sendLost (fallRecorded s k cause c) c cause) c cause := by
  have hnone : ¬ (((List.range 16).any fun j => portPeer (fallRecorded s k cause c) j == some c && 2 ≤ portState (fallRecorded s k cause c) j) ||
      knownLost (fallRecorded s k cause c) c) = true := by
    simp only [hnew, Bool.or_false, List.any_eq_true, List.mem_range, Bool.and_eq_true, beq_iff_eq, decide_eq_true_eq, not_exists, not_and]
    exact fun j hj hc => Nat.not_le.2 (halone j hj hc)
  rw [portDown_eq, portPeer_fallen h, hpeer]
  exact if_neg hnone

end

section
variable {s : State} {k : Nat} (hk : k < 16) (hup : 2 ≤ portState s k)
include hk hup

theorem exec_portSilenceTimeout_up :
    exec (.portSilenceTimeout k) s = .next (if sget 0 s.portSeen k + 1000 ≤ s.ltc.toNat then portDown s k 1 else s) := by
  show execPortSilenceTimeout k s = _
  simp [execPortSilenceTimeout, portUp_of_up hk hup]

theorem exec_lossOfLock_up (h : s.Inv) : exec (.lossOfLock k) s = .next (portDown (wrf s (R.SCF_PORT_STAT k) 2 1 0) k 2) := by
  have hup' : portUp (wrf s (R.SCF_PORT_STAT k) 2 1 0) k = true := portUp_of_up hk ((portState_wrf_lock h k 0).symm ▸ hup)
  show execLossOfLock k s = _
  rw [execLossOfLock, if_neg (Nat.not_le.2 hk)]
  dsimp only
  rw [if_pos hup']

theorem exec_leavingReceived_up :
    exec (.leavingReceived k) s = .next (portDown (wrf { s with portIdle := ninsert k s.portIdle } (R.SCF_PORT_STAT k) 3 1 1) k 3) := by
  show execLeavingReceived k s = _
  rw [execLeavingReceived, if_pos (portUp_of_up hk hup)]

/-- R273, R374: what a replay counts, and when it declares the port down. -/
theorem exec_scauthLinkReplay_up (h : s.Inv) (n : Nat) : exec (.scauthLinkReplay k n) s = .next (
    let t := addSat s (R.SCF_PORT_ERR k) 0 32 1
    if n = 0 ∨ confidential s = false then t
    else if 8 ≤ n then portDown (addSat t R.SEC_LINKAUTH 0 32 1) k 1 else addSat t R.SEC_LINKAUTH 0 32 1) := by
  have hconf : confidential (addSat s (R.SCF_PORT_ERR k) 0 32 1) = confidential s := by
    rw [confidential, addSat, rd_wr_ne h _ (pwrRegime_ne_portErr k), confidential]
  show execScauthLinkReplay k n s = _
  simp only [execScauthLinkReplay, portUp_of_up hk hup, hconf, Bool.not_true, Bool.false_eq_true, if_false]

end

theorem portsGoDown : Sys2Proof.Parts.PortsGoDown := by
  intro s k h hk hup
  refine ⟨fun hsilent => ?_, fun hheard => ?_, exec_lossOfLock_up hk hup h, exec_leavingReceived_up hk hup, ?_, fun n hconf => ?_, fun n hconf hn hfew => ?_,
    fun n hconf hmany => ?_, fun cause hpeer => ?_, fun cause c hpeer halone hnew => portDown_of_lost h k hpeer halone hnew⟩
  · rw [exec_portSilenceTimeout_up hk hup, if_pos hsilent]
  · rw [exec_portSilenceTimeout_up hk hup, if_neg (Nat.not_le.2 hheard)]
  · exact (exec_scauthLinkReplay_up hk hup h 0).trans (next_ite_pos (.inl rfl))
  · exact (exec_scauthLinkReplay_up hk hup h n).trans (next_ite_pos (.inr hconf))
  · rw [exec_scauthLinkReplay_up hk hup h n, hconf]
    simp [show n ≠ 0 by omega, hfew]
  · rw [exec_scauthLinkReplay_up hk hup h n, hconf]
    simp [show n ≠ 0 by omega, hmany]
  · have hrec := rd_portStat_fallRecorded h k cause 0
    rw [portDown_of_no_peer h k cause hpeer]
    refine ⟨(portState_of_rd hrec).trans (portState_fallen h k), ?_, (rdf_of_rd hrec 16 16).trans (losses_fallen h k), ?_⟩
    · rw [fallRecorded, bbx_reads State.portFell (fun _ _ _ => rfl) (fun _ _ _ => rfl) (fun _ _ => rfl)]
      exact (mem_ninsert ..).2 (.inl rfl)
    · rw [fallRecorded, bbx_reads State.mem (fun _ _ _ => rfl) (fun _ _ _ => rfl) (fun _ _ => rfl)]
      rfl

end Sys2Proof.Machine
end

section
/-! LOST notices (R270, R277). -/

namespace Sys2Proof.Machine

theorem exec_lostNotice_eq (s : State) {k : Nat} (c cause : Nat) (hk : k < 16) : exec (.lostNotice k c cause) s = .next (
    if portState s k = 2 then addSat s (R.SCF_PORT_STAT k) 32 32 1
    else if portState s k ≠ 3 ∨ knownLost s c = true then s
    else loseCoord (sendLost s c cause) c (if c = ownCoord s then 4 else cause)) := by
  show execLostNotice k c cause s = _
  simp [execLostNotice, Nat.not_le.2 hk, parapetDrop]

/-- R277: a new loss is listed in the first entry that is free. -/
theorem enterLost_of_free {s : State} {i c cause : Nat} (hi : i < 64) (hnew : knownLost s c = false)
    (hused : ∀ j < i, bitw (rd s (R.SCF_LOST j)) 63 = true) (hfree : bitw (rd s (R.SCF_LOST i)) 63 = false) :
    enterLost s c cause = wr s (R.SCF_LOST i) (BitVec.ofNat 64 (c % 2 ^ 20 + cause % 16 * 2 ^ 20 + 2 ^ 63)) := by
  have hfirst : (List.range 64).find? (fun i => !bitw (rd s (R.SCF_LOST i)) 63) = some i :=
    List.find?_range_eq_some.2 ⟨by simp [hfree], List.mem_range.2 hi, fun j hj => by simp [hused j hj]⟩
  simp only [enterLost, hnew, hfirst, Nat.shiftLeft_eq, Bool.false_eq_true, if_false, Nat.one_mul]

theorem lostNotices : Sys2Proof.Parts.LostNotices := by
  intro s k c cause _ hk
  refine ⟨fun hport => ?_, fun hport => ?_, fun hport hknown => ?_, fun hport hnew => ?_, fun i hi hnew hused hfree => enterLost_of_free hi hnew hused hfree⟩
  · rw [exec_lostNotice_eq s c cause hk, if_pos hport]
  · rw [exec_lostNotice_eq s c cause hk, if_neg (by omega), if_pos (.inl (by omega))]
  · rw [exec_lostNotice_eq s c cause hk, if_neg (by omega), if_pos (.inr hknown)]
  · rw [exec_lostNotice_eq s c cause hk, if_neg (by omega), if_neg (by simp [hport, hnew])]
    rfl

end Sys2Proof.Machine
end

section
/-! The coordinate and the modes of ports (R252, R253, R270, R281). -/

namespace Sys2Proof.Machine

/-- R252, R253: what the coordinate, once set, makes of one port. -/
def releasePort (s : State) (k : Nat) : State :=
  if axisLen s (k % 8 / 2) = 1 then wrf (setPort { s with portWant := s.portWant.filter (· ≠ k) } k 0) (R.SCF_PORT_STAT k) 2 1 0
  else if rdf s (R.SCF_PORT_CTL k) 0 2 ≠ 3 then s
  else if portState s k = 2 then setPort { s with portWant := s.portWant.filter (· ≠ k) } k 3
  else { s with portWant := ninsert k s.portWant }

/-- R252, R253: the state of a port once the coordinate is set. -/
def releasedTo (s : State) (k : Nat) : Nat :=
  if axisLen s (k % 8 / 2) = 1 then 0 else if rdf s (R.SCF_PORT_CTL k) 0 2 = 3 ∧ portState s k = 2 then 3 else portState s k

theorem releasePorts_eq_foldl (s : State) : releasePorts s = (List.range 16).foldl releasePort s := rfl

section
variable {s : State} (h : s.Inv) (k : Nat)
include h

theorem releasePort_only : Leaves (onlyReg (R.SCF_PORT_STAT k)) s (releasePort s k) := by
  have hwant : Leaves (onlyReg (R.SCF_PORT_STAT k)) s { s with portWant := s.portWant.filter (· ≠ k) } := (Leaves.refl h).same h rfl
  unfold releasePort
  split_ifs
  · exact (hwant.wrf (onlyReg_self _) 0 2 0).wrf (onlyReg_self _) 2 1 0
  · exact .refl h
  · exact hwant.wrf (onlyReg_self _) 0 2 3
  · exact (Leaves.refl h).same h rfl

theorem portState_releasePort : portState (releasePort s k) k = releasedTo s k := by
  have hwant : State.Inv { s with portWant := s.portWant.filter (· ≠ k) } := h
  unfold releasePort releasedTo
  by_cases hone : axisLen s (k % 8 / 2) = 1
  · rw [if_pos hone, if_pos hone, portState_wrf_lock (setPort_inv hwant k 0), portState_setPort hwant]
  · rw [if_neg hone, if_neg hone]
    by_cases hmode : rdf s (R.SCF_PORT_CTL k) 0 2 = 3
    · rw [if_neg (not_not.2 hmode)]
      by_cases hpar : portState s k = 2
      · rw [if_pos hpar, if_pos ⟨hmode, hpar⟩, portState_setPort hwant]
      · rw [if_neg hpar, if_neg fun hboth => hpar hboth.2]
        rfl
    · rw [if_pos hmode, if_neg fun hboth => hmode hboth.1]

theorem releasedTo_releasePort_ne {j : Nat} (hj : k ≠ j) : releasedTo (releasePort s j) k = releasedTo s k := by
  have honly := releasePort_only h j
  rw [releasedTo, axisLen_of_rd (rd_coord_of_only honly), rdf_ctl_of_only honly, portState_of_only honly hj, releasedTo]

end

theorem portState_foldl_releasePort_not_mem {k : Nat} (ports : List Nat) (hk : k ∉ ports) : ∀ {s : State}, s.Inv →
    portState (ports.foldl releasePort s) k = portState s k := by
  induction ports with
  | nil => exact fun _ => rfl
  | cons j ports ih =>
    intro s h
    have hne : k ≠ j := fun heq => hk (heq ▸ List.mem_cons_self)
    exact (ih (fun hmem => hk (List.mem_cons_of_mem _ hmem)) (releasePort_only h j).inv).trans (portState_of_only (releasePort_only h j) hne)

/-- R252, R253: each port is released once, whatever the others come to. -/
theorem portState_foldl_releasePort {k : Nat} (ports : List Nat) (hnodup : ports.Nodup) (hk : k ∈ ports) : ∀ {s : State}, s.Inv →
    portState (ports.foldl releasePort s) k = releasedTo s k := by
  induction ports with
  | nil => exact absurd hk List.not_mem_nil
  | cons j ports ih =>
    intro s h
    obtain ⟨hj, hnodup⟩ := List.nodup_cons.1 hnodup
    by_cases heq : k = j
    · subst heq
      exact (portState_foldl_releasePort_not_mem ports hj (releasePort_only h k).inv).trans (portState_releasePort h k)
    · exact (ih hnodup ((List.mem_cons.1 hk).resolve_left heq) (releasePort_only h j).inv).trans (releasedTo_releasePort_ne h k heq)

theorem portState_releasePorts {s : State} (h : s.Inv) {k : Nat} (hk : k < 16) : portState (releasePorts s) k = releasedTo s k := by
  rw [releasePorts_eq_foldl]
  exact portState_foldl_releasePort _ List.nodup_range (List.mem_range.2 hk) h

theorem exec_scfCoordWrite_eq (s : State) (v : Word) :
    exec (.scfCoordWrite v) s = .next (if coordSet s then s else releasePorts (wr s R.SCF_COORD (BitVec.ofNat 64 (v.toNat % 2 ^ 40 + 2 ^ 63)))) := by
  show execScfCoordWrite v s = _
  simp only [execScfCoordWrite, fld_zero_eq_mod, Nat.shiftLeft_eq, Nat.one_mul]

/-- R253, R281: MODE takes a value, and no write of ACTIVE waits any more. -/
def modeTaken (s : State) (k m : Nat) : State :=
  { wrf s (R.SCF_PORT_CTL k) 0 2 m with portWant := s.portWant.filter (· ≠ k) }

/-- R270: a port that was DOWN begins TRAINING. -/
def begun (s : State) (k : Nat) : State := if portState s k = 0 then setPort s k 1 else s

/-- R270: what PARAPET and ACTIVE make of a port. -/
def modeActs (s : State) (k m : Nat) : State :=
  if m = 2 then (if portState s k = 3 then setPort (begun s k) k 2 else begun s k)
  else if portState s k = 3 || (portState s k == 2 && coordSet (begun s k)) then setPort (begun s k) k 3
  else { begun s k with portWant := ninsert k (begun s k).portWant }

theorem exec_scfPortCtlWrite_ignored {s : State} {k : Nat} {v : Word} (hm : v.toNat % 4 = 1) : exec (.scfPortCtlWrite k v) s = .next s := by
  have hfld : fld v 0 2 = 1 := (fld_zero_eq_mod v 2).trans hm
  show execScfPortCtlWrite k v s = _
  rw [execScfPortCtlWrite, if_pos (.inr hfld)]

theorem exec_scfPortCtlWrite_eq (s : State) {k : Nat} {v : Word} (hk : k < 16) (hm : v.toNat % 4 ≠ 1) :
    exec (.scfPortCtlWrite k v) s = .next (
      let t := modeTaken s k (v.toNat % 4)
      if v.toNat % 4 = 0 then wrf (setPort t k 0) (R.SCF_PORT_STAT k) 2 1 0
      else if coordSet t && axisLen t (k % 8 / 2) == 1 then t
      else modeActs t k (v.toNat % 4)) := by
  have hfld : fld v 0 2 = v.toNat % 4 := fld_zero_eq_mod v 2
  show execScfPortCtlWrite k v s = _
  rw [execScfPortCtlWrite, hfld, if_neg (by omega)]
  rfl

section
variable {s : State} (h : s.Inv) (k m : Nat)
include h

theorem modeTaken_only : Leaves (onlyReg (R.SCF_PORT_CTL k)) s (modeTaken s k m) :=
  have ht := (Leaves.refl h).wrf (onlyReg_self (R.SCF_PORT_CTL k)) 0 2 m
  ht.same ht.inv rfl

theorem rdf_ctl_modeTaken : rdf (modeTaken s k m) (R.SCF_PORT_CTL k) 0 2 = m % 4 := rdf_wrf_same h _ _ _ _ (by decide)

theorem rd_coord_modeTaken : rd (modeTaken s k m) R.SCF_COORD = rd s R.SCF_COORD :=
  (modeTaken_only h k m).rd_eq _ (onlyReg_of_ne (scfCoord_ne_portCtl k))

theorem portState_modeTaken : portState (modeTaken s k m) k = portState s k :=
  portState_of_rd ((modeTaken_only h k m).rd_eq _ (onlyReg_of_ne (scfPortStat_ne_ctl k k)))

theorem begun_only : Leaves (onlyReg (R.SCF_PORT_STAT k)) s (begun s k) := by
  unfold begun
  split
  · exact setPort_only h k 1
  · exact .refl h

theorem coordSet_begun : coordSet (begun s k) = coordSet s := coordSet_of_rd (rd_coord_of_only (begun_only h k))

theorem portState_begun : portState (begun s k) k = if portState s k = 0 then 1 else portState s k := by
  unfold begun
  split
  · exact portState_setPort h k 1
  · rfl

theorem modeActs_only : Leaves (onlyReg (R.SCF_PORT_STAT k)) s (modeActs s k m) := by
  have hbegun := begun_only h k
  unfold modeActs
  split_ifs
  · exact hbegun.wrf (onlyReg_self _) 0 2 2
  · exact hbegun
  · exact hbegun.wrf (onlyReg_self _) 0 2 3
  · exact hbegun.same hbegun.inv rfl

theorem portState_modeActs_parapet : portState (modeActs s k 2) k = if portState s k ≤ 1 then 1 else 2 := by
  have hlt := portState_lt s k
  rw [modeActs, if_pos rfl]
  by_cases hact : portState s k = 3
  · rw [if_pos hact, portState_setPort (begun_only h k).inv, if_neg (by omega)]
  · rw [if_neg hact, portState_begun h]
    split_ifs <;> omega

/-- R253, R270: ACTIVE acts at once on a port that is ACTIVE, or PARAPET with the coordinate set. -/
theorem modeActs_active (hup : portState s k = 3 ∨ (portState s k = 2 ∧ coordSet s = true)) : modeActs s k 3 = setPort (begun s k) k 3 := by
  rw [modeActs, if_neg (by decide), if_pos]
  simpa [coordSet_begun h] using hup

/-- R253, R270: ACTIVE waits for training and for the coordinate. -/
theorem modeActs_waits (hwait : portState s k ≤ 1 ∨ (portState s k = 2 ∧ coordSet s = false)) :
    modeActs s k 3 = { begun s k with portWant := ninsert k (begun s k).portWant } := by
  rw [modeActs, if_neg (by decide), if_neg]
  rcases hwait with hlow | ⟨hpar, hunset⟩
  · simp [show portState s k ≠ 3 by omega, show portState s k ≠ 2 by omega]
  · simp [hpar, coordSet_begun h, hunset]

theorem portState_modeActs (hm : m = 2 ∨ m = 3) : portState (modeActs s k m) k =
    if portState s k ≤ 1 then 1 else if m = 3 ∧ portState s k = 2 ∧ coordSet s = false then 2 else m := by
  have hlt := portState_lt s k
  rcases hm with rfl | rfl
  · simp [portState_modeActs_parapet h]
  · by_cases hwait : portState s k ≤ 1 ∨ (portState s k = 2 ∧ coordSet s = false)
    · have hbegun : portState (modeActs s k 3) k = portState (begun s k) k := by rw [modeActs_waits h k hwait]; rfl
      rw [hbegun, portState_begun h]
      rcases hwait with hlow | ⟨hpar, hunset⟩
      · rw [if_pos hlow]
        split_ifs <;> omega
      · simp [hpar, hunset]
    · have hup : portState s k = 3 ∨ (portState s k = 2 ∧ coordSet s = true) := by
        cases hset : coordSet s
        · simp only [hset, and_true] at hwait
          omega
        · simp only [and_true]
          omega
      rw [modeActs_active h k hup, portState_setPort (begun_only h k).inv, if_neg (by omega), if_neg fun hno => hwait (.inr hno.2)]

end

theorem coordinateAndPortModes : Sys2Proof.Parts.CoordinateAndPortModes := by
  intro s v h
  refine ⟨fun hunset => ⟨?_, fun k hk => ?_⟩, fun hset => ?_, fun k hk => ⟨exec_scfPortCtlWrite_ignored, fun hm => ?_, fun hset hone hm => ?_, fun hlong hm => ?_⟩⟩
  · rw [exec_scfCoordWrite_eq, hunset]
    rfl
  · have hset : Leaves (onlyReg R.SCF_COORD) s (wr s R.SCF_COORD (BitVec.ofNat 64 (v.toNat % 2 ^ 40 + 2 ^ 63))) := (Leaves.refl h).wr (onlyReg_self _) _
    rw [portState_releasePorts hset.inv hk, releasedTo, portState_of_rd (hset.rd_eq _ (onlyReg_of_ne (scfCoord_ne_portStat k).symm)),
      rdf_of_rd (hset.rd_eq _ (onlyReg_of_ne (scfCoord_ne_portCtl k).symm))]
  · rw [exec_scfCoordWrite_eq, hset]
    rfl
  · have htaken := modeTaken_only h k (v.toNat % 4)
    have hdown := setPort_only htaken.inv k 0
    refine ⟨_, (exec_scfPortCtlWrite_eq s hk (by omega)).trans (next_ite_pos hm), ?_, rdf_wrf_same hdown.inv _ _ _ _ (by decide), ?_, ?_⟩
    · exact (portState_wrf_lock hdown.inv k 0).trans (portState_setPort htaken.inv k 0)
    · simp [wrf, setPort, modeTaken]
    · rw [rdf_ctl_of_only (hdown.wrf (onlyReg_self _) 2 1 0), rdf_ctl_modeTaken h, hm]
  · refine ⟨modeTaken s k (v.toNat % 4), ?_, ?_, portState_modeTaken h k _⟩
    · have hcoord := rd_coord_modeTaken h k (v.toNat % 4)
      rw [exec_scfPortCtlWrite_eq s hk (by omega), if_neg (by omega), if_pos]
      simp [coordSet_of_rd hcoord, axisLen_of_rd hcoord, hset, hone]
    · rw [rdf_ctl_modeTaken h, Nat.mod_mod]
  · have htaken := modeTaken_only h k (v.toNat % 4)
    have hcoord := rd_coord_modeTaken h k (v.toNat % 4)
    refine ⟨modeActs (modeTaken s k (v.toNat % 4)) k (v.toNat % 4), ?_, ?_, ?_, fun hm3 hwait => ?_⟩
    · rw [exec_scfPortCtlWrite_eq s hk (by omega), if_neg (by omega), if_neg]
      rcases hlong with hunset | hlen
      · simp [coordSet_of_rd hcoord, hunset]
      · simp [axisLen_of_rd hcoord, hlen]
    · rw [rdf_ctl_of_only (modeActs_only htaken.inv k _), rdf_ctl_modeTaken h, Nat.mod_mod]
    · rw [portState_modeActs htaken.inv k _ (by omega), portState_modeTaken h, coordSet_of_rd hcoord]
    · rw [← portState_modeTaken h k (v.toNat % 4), ← coordSet_of_rd hcoord, hm3] at hwait
      rw [hm3, modeActs_waits (hm3 ▸ htaken.inv) k hwait]
      exact (mem_ninsert ..).2 (.inl rfl)

/-- Settles O34: a port by its state before and after, a LOST notice by whether it is new, the coordinate by what it makes of each port in turn (`portState_foldl_releasePort`), MODE by what it asks of the port. That electrical idle ends when the port locks, and that a LOST notice goes on only where its coordinate is new here, are the model's readings (log 47). -/
theorem portStates : Obligations.PortStates := ⟨portsTrain, portsGoDown, lostNotices, coordinateAndPortModes⟩

end Sys2Proof.Machine
end

section
/-! Flits and chunks of collectives at a port (R270, R293, R295, R297-R301, R303). -/

namespace Sys2Proof.Machine

/-- R299: a flit on its way to the root waits for its own package, which has yet to fire its collective or holds it in its engine's queue. -/
def FlitWaits (s : State) (f : Flit) : Prop :=
  (∀ x, collOf s f = some x → x.fired = false) ∧ (unfired s f.group f.seq = true ∨ queuedHere s f.group f.seq = true) ∧ ownGroup s f = true

theorem flitWaits_iff (s : State) (f : Flit) :
    (!(collOf s f).any (fun c => c.fired) && (unfired s f.group f.seq || queuedHere s f.group f.seq) && ownGroup s f) = true ↔ FlitWaits s f := by
  simp only [FlitWaits, Bool.and_eq_true, Bool.not_eq_true', Bool.or_eq_true, Option.any_eq_false, and_assoc]

theorem matchFull_iff (s : State) (f : Flit) : matchFull s f = true ↔ ¬ s.matchBuf.length < (if f.bulk then 3072 else 4096) := by
  rw [matchFull, decide_eq_true_eq, Nat.not_lt]

section
variable {s : State} {f : Flit} {k : Nat}

section
variable (hw : FlitWaits s f)
include hw

theorem flitUp_refused (hfull : matchFull s f = true) : flitUp s k f = addSat s R.COL_MATCH 32 32 1 := by
  simp only [flitUp, if_pos ((flitWaits_iff s f).2 hw), hfull, if_true]

theorem flitUp_buffered {x : Coll} (hroom : matchFull s f = false) (hknown : collOf s f = some x) :
    flitUp s k f = { s with matchBuf := s.matchBuf ++ [(k, f)] } := by
  simp only [flitUp, if_pos ((flitWaits_iff s f).2 hw), hroom, Bool.false_eq_true, if_false]
  rw [hknown]

theorem flitUp_buffered_new (hroom : matchFull s f = false) (hnew : collOf s f = none) :
    flitUp s k f = (transitColl { s with matchBuf := s.matchBuf ++ [(k, f)] } f).1 := by
  simp only [flitUp, if_pos ((flitWaits_iff s f).2 hw), hroom, Bool.false_eq_true, if_false]
  rw [hnew]

end

section
variable (hw : ¬ FlitWaits s f)
include hw

theorem flitUp_joins {x : Coll} (hknown : collOf s f = some x) : flitUp s k f = joinUp s x.id k f := by
  simp only [flitUp, if_neg ((flitWaits_iff s f).not.2 hw)]
  rw [hknown]

variable (hnew : collOf s f = none)
include hnew

theorem flitUp_failed {e : Nat × Nat × Nat × Nat} (hend : s.collEnds.find? (fun e => e.1 == f.group && e.2.1 == f.seq) = some e) :
    flitUp s k f = txFlit s k { f with down := true, fail := some e.2.2, vals := [], cnt := 0 } := by
  simp only [flitUp, if_neg ((flitWaits_iff s f).not.2 hw)]
  rw [hnew]
  simp only [hend]

/-- R301, R302: the first flit of a collective that is not this package's makes a record for it; one of its own collectives is late. -/
theorem flitUp_new (hend : s.collEnds.find? (fun e => e.1 == f.group && e.2.1 == f.seq) = none) :
    flitUp s k f = if ownGroup s f && isMember s f.group (actCoord s) then addSat s R.COL_LATE 0 32 1
      else joinUp (transitColl s f).1 (transitColl s f).2 k f := by
  simp only [flitUp, if_neg ((flitWaits_iff s f).not.2 hw)]
  rw [hnew]
  simp only [hend]

end

section
variable (hk : k < 16)
include hk

theorem flitIn_parapet (hport : portState s k = 2) : flitIn s k f = addSat s (R.SCF_PORT_STAT k) 32 32 1 := by
  rw [flitIn, if_neg (Nat.not_le.2 hk), if_pos hport, parapetDrop]

variable (hport : portState s k = 3) (hi : issuing s = true)
include hport hi

theorem flitIn_up (hdir : f.down = false) : flitIn s k f = flitUp s k f := by
  simp [flitIn, Nat.not_le.2 hk, hport, hi, hdir]

variable (hdir : f.down = true)
include hdir

theorem flitIn_down_unknown (hnew : collOf s f = none) : flitIn s k f = addSat s R.COL_LATE 0 32 1 := by
  simp [flitIn, Nat.not_le.2 hk, hport, hi, hdir, hnew]

/-- R286, R295, R301: a result of a collective known here: late after its watchdog, a failure where its digest differs, else it goes down. -/
theorem flitIn_down_known {x : Coll} (hknown : collOf s f = some x) :
    flitIn s k f = if x.fail.any (fun e => e.1 == 0x24) then addSat s R.COL_LATE 0 32 1
      else if digDiffers s f && f.fail.isNone then failColl s x.id 0x11 0x61 else takeDown s x.id f := by
  simp [flitIn, Nat.not_le.2 hk, hport, hi, hdir, hknown]

end

/-- R295, R297: express flits and bulk chunks arrive alike. -/
theorem exec_flit_arrives {c : Nat → Flit → Instr} {bulk : Bool} (hc : (c, bulk) = (Instr.collectiveFlit, false) ∨ (c, bulk) = (Instr.bulkChunk, true))
    (hf : f.bulk = bulk) : exec (c k f) s = .next (flitIn s k f) := by
  rcases hc with hc | hc
  · obtain ⟨rfl, rfl⟩ := Prod.mk.inj hc
    show execCollectiveFlit k f s = _
    simp [execCollectiveFlit, hf]
  · obtain ⟨rfl, rfl⟩ := Prod.mk.inj hc
    show execBulkChunk k f s = _
    simp [execBulkChunk, hf]

end

theorem exec_collectiveQueuedStart_queued {s : State} {id : Nat} {c : Coll} (hi : issuing s = true) (hc : getColl s id = some c) (hq : c.queued = true) :
    exec (.collectiveQueuedStart id) s = .next (if mayStart s c then startColl s id else s) := by
  show execCollectiveQueuedStart id s = _
  simp [execCollectiveQueuedStart, hi, hc, hq]

/-- R299: a refused flit is sent again while its collective lasts. -/
theorem exec_matchRetry_sent {s : State} {k : Nat} {f : Flit} (hi : issuing s = true) (hsent : .flit k f ∈ s.tx) :
    exec (.matchRetry k f) s = .next (if (collOf s f).any (fun c => !c.done) then txFlit s k f else s) := by
  show execMatchRetry k f s = _
  simp [execMatchRetry, hi, hsent]

theorem txFlit_of_active {s : State} {k : Nat} {f : Flit} (hown : ownGroup s f = false) (hport : portState s k = 3) :
    txFlit s k f = { s with tx := s.tx ++ [.flit k f] } := by
  simp [txFlit, hown, hport]

theorem collectiveTraffic : Sys2Proof.Parts.CollectiveTraffic := by
  refine ⟨fun c bulk hc s k f _ hf hk => ?_, fun s id c hi hc hq => ⟨fun hmay => ?_, fun hmay => ?_⟩, fun s k f hi hsent => ⟨fun c hc hgoing => ?_, fun hended => ?_, txFlit_of_active⟩⟩
  · have harrives : exec (c k f) s = .next (flitIn s k f) := exec_flit_arrives hc hf
    subst hf
    refine ⟨fun hport => ?_, fun hport hi hdir => ?_, fun hport hi hdir => ?_⟩
    · rw [harrives, flitIn_parapet hk hport]
    · rw [harrives, flitIn_up hk hport hi hdir]
      have hroomy : s.matchBuf.length < (if f.bulk then 3072 else 4096) → matchFull s f = false := fun hroom =>
        Bool.eq_false_iff.2 fun hfull => (matchFull_iff s f).1 hfull hroom
      refine ⟨fun hw hfull => ?_, fun x hw hroom hknown => ?_, fun hw hroom hnew => ?_, fun x hw hknown => ?_, fun e hw hnew hend => ?_, fun hw hnew hend hown hmem => ?_,
        fun hw hnew hend hother => ?_⟩
      · rw [flitUp_refused hw ((matchFull_iff s f).2 hfull)]
      · rw [flitUp_buffered hw (hroomy hroom) hknown]
      · rw [flitUp_buffered_new hw (hroomy hroom) hnew]
      · rw [flitUp_joins hw hknown]
      · rw [flitUp_failed hw hnew hend]
      · rw [flitUp_new hw hnew hend, if_pos (by simp [hown, hmem])]
      · rw [flitUp_new hw hnew hend, if_neg]
        rcases hother with hother | hother <;> simp [hother]
    · rw [harrives]
      refine ⟨fun hnew => ?_, fun x hknown hlate => ?_, fun x hknown hlate hdig hok => ?_, fun x hknown hlate hsame => ?_⟩
      · rw [flitIn_down_unknown hk hport hi hdir hnew]
      · rw [flitIn_down_known hk hport hi hdir hknown, if_pos hlate]
      · rw [flitIn_down_known hk hport hi hdir hknown, hlate, hdig, hok]
        rfl
      · rw [flitIn_down_known hk hport hi hdir hknown, hlate, if_neg Bool.false_ne_true, if_neg]
        rcases hsame with hsame | hfail
        · simp [hsame]
        · simp [hfail]
  · rw [exec_collectiveQueuedStart_queued hi hc hq, if_pos hmay]
  · rw [exec_collectiveQueuedStart_queued hi hc hq, if_neg (by simp [hmay])]
  · rw [exec_matchRetry_sent hi hsent, hc, if_pos (by simp [hgoing])]
  · rw [exec_matchRetry_sent hi hsent, if_neg]
    cases hc : collOf s f with
    | none => simp
    | some c => simp [hended c hc]

end Sys2Proof.Machine
end

section
/-! Results, ends and watchdogs of collectives (R287, R292, R301, R304, R305). -/

namespace Sys2Proof.Machine

/-- R292: how many bytes a collective's result has. -/
def resultLen (c : Coll) : Nat := if isBulk c.kind then fld (c.ws.getD 5 0) 0 32 else 64

/-- R304: a DST that is left half written, or not written at all, is undefined. -/
def dstUndef (s : State) (c : Coll) : State := vaUndef s c.ctx (c.ws.getD 4 0).toNat (resultLen c)

/-- R292: the write of a collective's result at DST. -/
def putResult (s : State) (c : Coll) : State × MemRes Unit := vaPut s (srcColl s c) (c.ws.getD 4 0).toNat (collBytes c)

/-- R292, R304: how a trigger entry's collective that is done ends; none while it waits. -/
def completion (s : State) (c : Coll) : Option State :=
  match c.fail with
  | some e => collFinish (if isBulk c.kind && (e.2 == 0x63 || e.2 == 0x65) && writesDst s c then dstUndef s c else s) c
  | none =>
    if c.kind = 0 ∨ !writesDst s c then collFinish s c
    else
      match putResult s c with
      | (s, .ok ()) => collFinish s c
      | (s1, .err e) => collFinish (dstUndef s1 c) { c with fail := some (srcError e) }
      | (_, .wait) => none

section
variable {s : State} {c : Coll}

theorem completion_of_fail {e : Nat × Nat} (hfail : c.fail = some e) :
    completion s c = collFinish (if isBulk c.kind && (e.2 == 0x63 || e.2 == 0x65) && writesDst s c then dstUndef s c else s) c := by
  simp only [completion, hfail]

theorem completion_of_none_taken (hfail : c.fail = none) (hno : c.kind = 0 ∨ writesDst s c = false) : completion s c = collFinish s c := by
  simp only [completion, hfail]
  exact if_pos (hno.imp_right fun hw => by simp [hw])

section
variable {s1 : State} (hfail : c.fail = none) (hkind : c.kind ≠ 0) (hw : writesDst s c = true)
include hfail hkind hw

theorem completion_of_stored (hput : putResult s c = (s1, .ok ())) : completion s c = collFinish s1 c := by
  simp [completion, hfail, hkind, hw, hput]

theorem completion_of_refused {e : AccErr} (hput : putResult s c = (s1, .err e)) :
    completion s c = collFinish (dstUndef s1 c) { c with fail := some (srcError e) } := by
  simp [completion, hfail, hkind, hw, hput]

theorem completion_of_wait (hput : putResult s c = (s1, .wait)) : completion s c = none := by
  simp [completion, hfail, hkind, hw, hput]

end

section
variable {id t : Nat} (hi : issuing s = true) (hc : getColl s id = some c) (huser : c.user = .trig t) (hdone : c.done = true)
include hi hc huser hdone

theorem exec_collectiveComplete_eq : exec (.collectiveComplete id) s = .next ((completion s c).getD s) := by
  have hexec : execCollectiveComplete id s = .next (match completion s c with | some u => u | none => s) := by
    simp only [execCollectiveComplete, hi, hc, huser, hdone, Bool.not_true, Bool.false_eq_true, if_false]
    rfl
  refine hexec.trans ?_
  cases completion s c <;> rfl

/-- R292: an end that need not wait happens, and one that must leaves the package as it is. -/
theorem exec_collectiveComplete_of {fin : Option State} (hfin : completion s c = fin) :
    (∀ u, fin = some u → exec (.collectiveComplete id) s = .next u) ∧ (fin = none → exec (.collectiveComplete id) s = .next s) := by
  rw [exec_collectiveComplete_eq hi hc huser hdone, hfin]
  exact ⟨fun u hu => by rw [hu]; rfl, fun hnone => by rw [hnone]; rfl⟩

end

/-- R292: the status word of a collective. -/
def statusWord (s : State) (c : Coll) : Nat :=
  (collStatus s c).1 + (collStatus s c).2 * 256 + 2 ^ 31 + (if c.kind = 0 then 0 else c.seq) * 2 ^ 32

/-- R292: a collective ends with its status, and a success makes the addition that DONE_ADD asks for. -/
def endedWith (st : Nat) (u : State) (c : Coll) : State :=
  if st < 0x10 ∧ (c.ws.getD 0 0).getLsbD 30 = true
  then counterAdd (collEnd u c) ((c.ws.getD 0 0).toNat / 2 ^ 19 % 2 ^ 11) ((c.ws.getD 2 0).toNat / 2 ^ 16 % 2 ^ 16) else collEnd u c

/-- R292: the write of a collective's status word at STATUS. -/
def putStatus (s : State) (c : Coll) : State × MemRes Unit := vaPut s (srcColl s c) (c.ws.getD 6 0).toNat (leBytes 8 (statusWord s c))

theorem collFinish_of_no_status (hsa : (c.ws.getD 6 0).toNat = 0) : collFinish s c = some (endedWith (collStatus s c).1 s c) := by
  simp only [collFinish, if_pos hsa, fld_eq_div_mod]
  rfl

section
variable (hsa : (c.ws.getD 6 0).toNat ≠ 0) {s1 : State}
include hsa

theorem collFinish_of_wait (hput : putStatus s c = (s1, .wait)) : collFinish s c = none := by
  simp only [putStatus, statusWord] at hput
  simp only [collFinish, if_neg hsa, Nat.shiftLeft_eq, Nat.one_mul, hput]

theorem collFinish_of_ok (hput : putStatus s c = (s1, .ok ())) : collFinish s c = some (endedWith (collStatus s c).1 s1 c) := by
  simp only [putStatus, statusWord] at hput
  simp only [collFinish, if_neg hsa, Nat.shiftLeft_eq, Nat.one_mul, hput, fld_eq_div_mod]
  rfl

end

end

section
variable {s : State} {id : Nat} {c : Coll} (hc : getColl s id = some c)

/-- R301: an expiry that no solver unit's rank waits for is that of a collective. -/
theorem exec_collWatchdog_of_alone (halone : ∀ kv ∈ s.svus, ∀ r, kv.2.act = some r → r.vid ≠ id) : exec (.collWatchdog id) s = collWatchdog id s := by
  have hnone : s.svus.findSome? (fun kv => kv.2.act.bind (fun r => if r.vid = id ∧ r.vote.isSome ∧ r.lead = none then some (kv.1, r) else none)) = none := by
    refine List.findSome?_eq_none_iff.2 fun kv hkv => ?_
    cases hact : kv.2.act with
    | none => rfl
    | some r => simp [halone kv hkv r hact]
  show execCollWatchdog id s = _
  rw [execCollWatchdog, hnone]

include hc

theorem collWatchdog_early (hearly : s.ltc.toNat < c.dl) : collWatchdog id s = .next s := by
  simp [collWatchdog, hc, hearly]

theorem collWatchdog_expired (hgoing : c.done = false) (hown : c.fired = true ∨ c.queued = true) (hlate : c.dl ≤ s.ltc.toNat) :
    collWatchdog id s = .next (addSat (endHere
      { s with matchBuf := s.matchBuf.filter (fun m => !(m.2.group == c.group && m.2.seq == c.seq % 65536)) } id 0x24 0x64) R.COL_STAT 32 32 1) := by
  simp only [collWatchdog, hc]
  rw [if_neg]
  rcases hown with hfired | hqueued
  · simp [hgoing, hfired, hlate]
  · simp [hgoing, hqueued, hlate]

end

theorem collectiveEnds : Sys2Proof.Parts.CollectiveEnds := by
  refine ⟨fun s id t c _ hi hc huser hdone => ?_, fun s s1 c _ => ⟨collFinish_of_no_status, fun hsa hput => collFinish_of_wait hsa hput, fun hsa hput => collFinish_of_ok hsa hput⟩,
    fun s id c _ hc hgoing hown halone => ⟨fun hearly => ?_, fun hlate => ?_⟩⟩
  · have hout := fun fin => exec_collectiveComplete_of hi hc huser hdone (fin := fin)
    have hlen : resultLen c = if isBulk c.kind then (c.ws.getD 5 0).toNat % 2 ^ 32 else 64 := by rw [resultLen, fld_zero_eq_mod]
    rw [← hlen]
    refine ⟨fun hfail hno => hout _ (completion_of_none_taken hfail hno), fun s1 hfail hkind hw hput => hout _ (completion_of_stored hfail hkind hw hput),
      fun s1 e hfail hkind hw hput => hout _ (completion_of_refused hfail hkind hw hput),
      fun s1 hfail hkind hw hput => (hout _ (completion_of_wait hfail hkind hw hput)).2 rfl,
      fun e hfail h63 h65 => hout _ ?_, fun e hfail hsub => hout _ ?_⟩
    · rw [completion_of_fail hfail, if_neg (by simp [h63, h65])]
    · have hboth : (e.2 == 0x63 || e.2 == 0x65) = true := by simpa using hsub
      rw [completion_of_fail hfail, hboth, Bool.and_true]
      rfl
  · rw [exec_collWatchdog_of_alone halone, collWatchdog_early hc hearly]
  · exact ⟨_, (exec_collWatchdog_of_alone halone).trans (collWatchdog_expired hc hgoing hown hlate), rfl, rfl, rfl, rfl, rfl⟩

/-- Settles O36: a flit by its direction and by what is known here of its collective, an end by what the writes of DST and of the status word answer, a watchdog by its deadline. -/
theorem collectives : Obligations.Collectives := ⟨collectiveTraffic, collectiveEnds⟩

end Sys2Proof.Machine
end

section
/-! Index lines, failed descriptor reads, the device index line and claims of log rings (R315, R317-R320, R329). -/

namespace Sys2Proof.Machine

section
variable {s : State} {r p q : Nat}

theorem exec_hostLineInvalidated_served (hon : ringOn s r = true) : exec (.hostLineInvalidated r) s = .next (readIndex s r) := next_ite_pos hon
theorem exec_hostLineInvalidated_unserved (hoff : ringOn s r = false) : exec (.hostLineInvalidated r) s = .next s := next_ite_neg (by simp [hoff])

theorem exec_hostIndexLineArrival_unasked (hnone : ringOn s r = false ∨ (ringOf s r).reads = 0) : exec (.hostIndexLineArrival r p q) s = .next s :=
  next_ite_pos (by simpa using hnone)

/-- R318: one read of a ring's index line is over. -/
def indexRead (s : State) (r : Nat) : State := setRing s r { ringOf s r with reads := (ringOf s r).reads - 1 }

/-- R319, R320: the counts of an index line that was read, by whether they run backwards or beyond the rings. -/
theorem exec_hostIndexLineArrival_asked (hon : ringOn s r = true) (hreads : (ringOf s r).reads ≠ 0) : exec (.hostIndexLineArrival r p q) s = .next (
    if p < (ringOf s r).sqPi ∨ sqSize s r < p - (ringOf s r).sqCi ∨ q < (ringOf s r).cqCi ∨ (ringOf s r).cqPi < q then ringError (indexRead s r) r 0x70
    else takeDescs (setRing (indexRead s r) r { ringOf (indexRead s r) r with sqPi := p, cqCi := q }) r) :=
  next_ite_neg (by simp [hon, hreads])

/-- R320: the descriptors of a read that failed were not taken. -/
theorem exec_descriptorReadFailure_of (hr : r < 256) (hcome : (ringOf s r).toCome ≠ 0) : exec (.descriptorReadFailure r) s =
    .next (ringError (setRing (wrf s (R.DSP_RING_STAT r) 32 32 (rdf s (R.DSP_RING_STAT r) 32 32 + 2 ^ 32 - (ringOf s r).toCome)) r
      { ringOf s r with sqCi := (ringOf s r).sqCi - (ringOf s r).toCome, toCome := 0 }) r 0x72) :=
  next_ite_neg (by omega)

theorem exec_deviceIndexLineWrite_of (hr : r < 256) (hhost : s.hostLost = false) : exec (.deviceIndexLineWrite r) s =
    .next { s with tx := s.tx ++ [.host (hostLine s r + 64) (leBytes 8 (ringOf s r).sqCi ++ leBytes 8 (ringOf s r).cqPi)] } :=
  next_ite_neg (by simp [hr, hhost])

/-- R329: the claim of a log ring moves its pointer and answers what it held. -/
theorem exec_dspLogclaim_of (hp : p < 8) : exec (.dspLogclaim p) s = .next { wr s (R.DSP_LOGPTR p) (rd s (R.DSP_LOGPTR p) + 1) with
    tx := s.tx ++ [.answer (R.DSP_LOGCLAIM p) (leBytes 8 (rd s (R.DSP_LOGPTR p)).toNat) true] } :=
  next_ite_neg (Nat.not_le.2 hp)

end

/-- Settles O40: each event by whether something asked for it; an index line by its counts. That a failed descriptor read gives its descriptors back is the model's reading (log 40). -/
theorem ringsAndClaims : Obligations.RingsAndClaims := by
  refine fun s r hinv hr => ⟨exec_hostLineInvalidated_served, exec_hostLineInvalidated_unserved, fun p q => exec_hostIndexLineArrival_unasked,
    fun p q hon hreads => ⟨fun hfits => ?_, fun hbad => ?_⟩, exec_descriptorReadFailure_of hr, fun hnone => next_ite_pos (.inr hnone),
    exec_deviceIndexLineWrite_of hr, fun hlost => next_ite_pos (.inr hlost),
    fun p hp => ⟨_, exec_dspLogclaim_of hp, rd_wr_same hinv _ _, fun a ha => rd_wr_ne hinv _ ha, rfl, rfl⟩⟩
  · rw [exec_hostIndexLineArrival_asked hon hreads, if_neg (by omega)]
    rfl
  · rw [exec_hostIndexLineArrival_asked hon hreads, if_pos hbad]
    rfl

end Sys2Proof.Machine
end

section
/-! Descriptors of a ring start in ring order (R319, R321-R323). -/

namespace Sys2Proof.Machine

section
variable {s : State}

theorem setRing_inv (h : s.Inv) (r : Nat) (x : RingSt) : (setRing s r x).Inv := (setRing_kept (inv_kept h)).2
theorem timer3_inv (h : s.Inv) (ctx : Nat) : (timer3 s ctx).Inv := (timer3_kept s ctx (inv_kept h)).2

theorem ringOf_timer3 (s : State) (ctx r : Nat) : ringOf (timer3 s ctx) r = ringOf s r := by
  simp only [timer3]
  split <;> rfl

/-- R323, R331: a record, written or held, moves no descriptor of its ring. -/
theorem descs_putRec (h : s.Inv) (rec : HostRec) : (ringOf (putRec s rec) rec.ring).descs = (ringOf s rec.ring).descs := by
  simp only [putRec]
  split
  · show (ringOf (setRing s rec.ring { ringOf s rec.ring with cqPi := (ringOf s rec.ring).cqPi + 1 }) rec.ring).descs = _
    rw [ringOf_setRing_same h]
  · split <;> rfl

/-- R322: of a ring's descriptors, one that completes is gone. -/
theorem descs_complete (h : s.Inv) (r : Nat) (d : DescSt) (st sub val : Nat) :
    (ringOf (complete s r d st sub val) r).descs = (ringOf s r).descs.filter (fun x => x.ix ≠ d.ix) := by
  have hreleased : (ringOf (timer3 (setRing s r { ringOf s r with descs := (ringOf s r).descs.filter (fun x => x.ix ≠ d.ix) }) d.ctx) r).descs =
      (ringOf s r).descs.filter (fun x => x.ix ≠ d.ix) := by
    rw [ringOf_timer3, ringOf_setRing_same h]
  simp only [complete]
  split
  · exact hreleased
  · exact (descs_putRec (timer3_inv (setRing_inv h ..) _) ⟨r, _, _, _, _, _, _, _⟩).trans hreleased

theorem descs_modDesc (h : s.Inv) (r ix : Nat) (f : DescSt → DescSt) :
    (ringOf (modDesc s r ix f) r).descs = (ringOf s r).descs.map (fun d => if d.ix = ix then f d else d) :=
  congrArg RingSt.descs (ringOf_setRing_same h ..)

/-- A change of the descriptors with an index does not show once these are dropped. -/
theorem filter_map_changed {f : DescSt → DescSt} {ix : Nat} (hf : ∀ x, (f x).ix = x.ix) (ds : List DescSt) :
    (ds.map (fun x => if x.ix = ix then f x else x)).filter (fun x => x.ix ≠ ix) = ds.filter (fun x => x.ix ≠ ix) := by
  induction ds with
  | nil => rfl
  | cons x ds ih => by_cases hx : x.ix = ix <;> simpa [hx, hf] using ih

/-- R322: a change made to a descriptor in its ring does not show once it completes. -/
theorem complete_modDesc (h : s.Inv) {f : DescSt → DescSt} (hf : ∀ x, (f x).ix = x.ix) (r : Nat) (d : DescSt) (st sub val : Nat) :
    complete (modDesc s r d.ix f) r d st sub val = complete s r d st sub val := by
  simp only [complete, modDesc, ringOf_setRing_same h, setRing_setRing h, filter_map_changed hf]

end

section
variable {u : State} {r : Nat} {d : DescSt}

/-- R322: a descriptor holds nothing up but as a MARK that has not completed. -/
def passed (y : DescSt) : Prop := y.started = true ∧ (dBad y = true ∨ dOp y ≠ 3)

theorem not_startedMark_of_passed {y : DescSt} (hy : passed y) (c : Bool) : ¬ (y.started && !dBad y && dOp y == 3 && c) = true := by
  rcases hy.2 with hbad | hop
  · simp [hbad]
  · simp [hop]

/-- R319: with nothing left to start, the ring takes more. -/
theorem runRing_of_passed (fuel : Nat) (hall : ∀ y ∈ (ringOf u r).descs, passed y) : runRing r (fuel + 1) u = takeDescs u r := by
  have hmark := List.find?_eq_none.2 fun y hy => not_startedMark_of_passed (hall y hy) ((ringOf u r).descs.all (fun x => y.ix ≤ x.ix))
  have hstart : (ringOf u r).descs.find? (fun y => !y.started) = none := List.find?_eq_none.2 fun y hy => by simp [(hall y hy).1]
  simp only [runRing, hmark, hstart]

/-- R321, R322: the descriptor that is the next to start waits for its BARRIER, or starts by its operation. -/
theorem runRing_of_next (fuel : Nat) {ys : List DescSt} (hdescs : (ringOf u r).descs = ys ++ [d]) (hys : ∀ y ∈ ys, passed y) (hd : d.started = false) :
    runRing r (fuel + 1) u =
      if dField d 9 1 % 2 = 1 && !(ys ++ [d]).all (fun x => d.ix ≤ x.ix) && !dBad d then takeDescs u r
      else if dBad d then runRing r fuel (complete u r d 0x11 0x71 0)
      else if dOp d = 1 then runRing r fuel (startLaunch u r d)
      else if dOp d = 2 then runRing r fuel (startTadd u r d)
      else runRing r fuel (modDesc u r d.ix (fun d => { d with started := true })) := by
  have hmark : (ys ++ [d]).find? (fun y => y.started && !dBad y && dOp y == 3 && (ys ++ [d]).all (fun x => y.ix ≤ x.ix)) = none := by
    refine List.find?_eq_none.2 fun y hy => ?_
    rcases List.mem_append.1 hy with hpassed | hlast
    · exact not_startedMark_of_passed (hys y hpassed) _
    · simp [List.mem_singleton.1 hlast, hd]
  have hstart : (ys ++ [d]).find? (fun y => !y.started) = some d := by
    rw [List.find?_append, List.find?_eq_none.2 fun y hy => by simp [(hys y hy).1]]
    simp [hd]
  rw [runRing]
  simp only [hdescs, hmark, hstart]

/-- R322: a MARK that has started completes once it is the first. -/
theorem runRing_of_mark (fuel : Nat) (hdescs : (ringOf u r).descs = [d]) (hstarted : d.started = true) (hgood : dBad d = false) (hop : dOp d = 3) :
    runRing r (fuel + 1) u = runRing r fuel (complete u r d 0 0 0) := by
  have hmark : [d].find? (fun y => y.started && !dBad y && dOp y == 3 && [d].all (fun x => y.ix ≤ x.ix)) = some d := by
    simp [hstarted, hgood, hop]
  rw [runRing]
  simp only [hdescs, hmark]

section
variable (fuel : Nat) (hdescs : (ringOf u r).descs = [d]) (hd : d.started = false)
include hdescs hd

/-- R321: a descriptor with none before it starts, whatever its BARRIER. -/
theorem runRing_of_alone : runRing r (fuel + 1) u =
    if dBad d then runRing r fuel (complete u r d 0x11 0x71 0)
    else if dOp d = 1 then runRing r fuel (startLaunch u r d)
    else if dOp d = 2 then runRing r fuel (startTadd u r d)
    else runRing r fuel (modDesc u r d.ix (fun d => { d with started := true })) := by
  rw [runRing_of_next (ys := []) fuel hdescs (by simp) hd, if_neg (by simp)]

/-- R322: a MARK with none before it completes, and the ring takes more. -/
theorem runRing_of_alone_mark (h : u.Inv) (hgood : dBad d = false) (hop : dOp d = 3) :
    runRing r (fuel + 3) u = takeDescs (complete u r { d with started := true } 0 0 0) r := by
  have hmarked : (ringOf (modDesc u r d.ix (fun d => { d with started := true })) r).descs = [{ d with started := true }] := by
    rw [descs_modDesc h, hdescs]
    simp
  have hleft : (ringOf (complete u r { d with started := true } 0 0 0) r).descs = [] := by
    rw [descs_complete h, hdescs]
    simp
  calc runRing r (fuel + 3) u
    _ = runRing r (fuel + 2) (modDesc u r d.ix (fun d => { d with started := true })) := by
        simp [runRing_of_alone _ hdescs hd, hgood, hop]
    _ = runRing r (fuel + 1) (complete (modDesc u r d.ix (fun d => { d with started := true })) r { d with started := true } 0 0 0) :=
        runRing_of_mark _ hmarked rfl hgood hop
    _ = runRing r (fuel + 1) (complete u r { d with started := true } 0 0 0) := by
        rw [← complete_modDesc h (f := fun d => { d with started := true }) (fun _ => rfl) r { d with started := true }]
    _ = takeDescs (complete u r { d with started := true } 0 0 0) r := runRing_of_passed _ (by simp [hleft])

end

/-- R321: one with BARRIER set waits behind those that have not completed. -/
theorem runRing_of_barrier (fuel : Nat) {ys : List DescSt} (hdescs : (ringOf u r).descs = ys ++ [d]) (hys : ∀ y ∈ ys, passed y)
    (hbefore : ∃ y ∈ ys, y.ix < d.ix) (hd : d.started = false) (hgood : dBad d = false) (hbarrier : dField d 9 1 % 2 = 1) :
    runRing r (fuel + 1) u = takeDescs u r := by
  obtain ⟨y, hy, hlt⟩ := hbefore
  have hbehind : (ys ++ [d]).all (fun x => d.ix ≤ x.ix) = false :=
    List.all_eq_false.2 ⟨y, List.mem_append_left _ hy, by simpa using hlt⟩
  rw [runRing_of_next fuel hdescs hys hd, if_pos (by simp [hbehind, hgood, hbarrier])]

end

section
variable (s : State) (r : Nat) (bytes : List Byte)

/-- R319, R321: the next descriptor of a ring's read, as it arrives. -/
def arrival : DescSt := ⟨(ringOf s r).sqCi - (ringOf s r).toCome, ringCtx s r, bytes, false, 0, [], [], 0, 0, none, none, none⟩
/-- R319: the descriptor joins its ring. -/
def joined : State := setRing s r { ringOf s r with toCome := (ringOf s r).toCome - 1, descs := (ringOf s r).descs ++ [arrival s r bytes] }

end

/-- R321: a descriptor that keeps its table is a LAUNCH, a TADD or a MARK. -/
theorem dOp_of_good {d : DescSt} (hgood : dBad d = false) : dOp d = 1 ∨ dOp d = 2 ∨ dOp d = 3 := by
  have hrange : 1 ≤ dOp d ∧ dOp d ≤ 3 := by
    simp only [dBad, Bool.or_eq_false_iff, Bool.not_eq_false', Bool.and_eq_true, decide_eq_true_eq] at hgood
    obtain ⟨⟨⟨⟨hop, -⟩, -⟩, -⟩, -⟩ := hgood
    exact hop
  omega

section
variable {s : State} {r : Nat} {bytes : List Byte} (hr : r < 256) (hcome : (ringOf s r).toCome ≠ 0) (hlen : bytes.length = 64)
include hr hcome hlen

theorem descArrives_of_kind {op : Nat} (hop : (if dBad (arrival s r bytes) then 0 else dOp (arrival s r bytes)) = op) :
    descArrives s r bytes op = serveRing (joined s r bytes) r := by
  have hhere : ¬ (256 ≤ r ∨ (ringOf s r).toCome = 0 ∨ bytes.length ≠ 64 ∨ (if dBad (arrival s r bytes) then 0 else dOp (arrival s r bytes)) ≠ op) := by
    simp [hr, hcome, hlen, hop]
  exact if_neg hhere

/-- R319, R321: a descriptor that arrives, whether as one that breaks its table or as one of its operation, joins its ring, which is then served. -/
theorem exec_arrival :
    (if dBad (arrival s r bytes) then exec (.badDesc r bytes) s else if dOp (arrival s r bytes) = 1 then exec (.launch r bytes) s
      else if dOp (arrival s r bytes) = 2 then exec (.tadd r bytes) s else exec (.mark r bytes) s) = .next (serveRing (joined s r bytes) r) := by
  have hkind {op : Nat} (hop : (if dBad (arrival s r bytes) then 0 else dOp (arrival s r bytes)) = op) :
      (.next (descArrives s r bytes op) : Out) = .next (serveRing (joined s r bytes) r) := congrArg _ (descArrives_of_kind hr hcome hlen hop)
  cases hbad : dBad (arrival s r bytes) with
  | true => exact hkind (if_pos hbad)
  | false =>
    have hgood : (if dBad (arrival s r bytes) then 0 else dOp (arrival s r bytes)) = dOp (arrival s r bytes) := if_neg (by simp [hbad])
    rcases dOp_of_good hbad with hop | hop | hop <;> simp only [hop, if_true, if_false, Bool.false_eq_true, Nat.reduceEqDiff] <;>
      exact hkind (hgood.trans hop)

end

section
variable {s : State} (h : s.Inv) (r : Nat) (bytes : List Byte)
include h

theorem descs_joined : (ringOf (joined s r bytes) r).descs = (ringOf s r).descs ++ [arrival s r bytes] :=
  congrArg RingSt.descs (ringOf_setRing_same h ..)

/-- A ring whose only descriptor has just arrived is served with the steps that `serveRing` gives to one descriptor. -/
theorem serveRing_joined_of_alone (hnone : (ringOf s r).descs = []) : serveRing (joined s r bytes) r = runRing r 8 (joined s r bytes) := by
  simp [serveRing, descs_joined h, hnone]

end

/-- Settles O41: a descriptor that arrives is the only one not started: alone it starts by its operation, behind others it waits for its BARRIER (`runRing_of_next`). -/
theorem descriptorsStart : Obligations.DescriptorsStart := by
  intro s r bytes hinv hr hcome hlen x d s1 run
  have hrun : run = .next (serveRing s1 r) := exec_arrival hr hcome hlen
  refine ⟨hrun, fun u hall => runRing_of_passed 6 hall, fun hnone => ?_, fun hgood hbarrier hsome hpassed => ?_⟩
  · have halone : run = .next (runRing r 8 s1) := hrun.trans (congrArg _ (serveRing_joined_of_alone hinv r bytes hnone))
    have hdescs : (ringOf s1 r).descs = [d] := by
      rw [show (ringOf s1 r).descs = x.descs ++ [d] from descs_joined hinv r bytes, show x.descs = [] from hnone, List.nil_append]
    have hstart := runRing_of_alone 7 hdescs rfl
    refine ⟨fun hbad => ?_, fun hgood hop => ?_, fun hgood hop => ?_, fun hgood hop => ?_⟩
    · rw [halone, hstart, if_pos hbad]
    · rw [halone, hstart, if_neg (by simp [hgood]), if_pos hop]
    · rw [halone, hstart, if_neg (by simp [hgood]), if_neg (by simp [hop]), if_pos hop]
      rfl
    · rw [halone, runRing_of_alone_mark 5 hdescs rfl (setRing_inv hinv ..) hgood hop]
  · obtain ⟨y, hy⟩ := List.exists_mem_of_ne_nil _ hsome
    exact hrun.trans (congrArg _ (runRing_of_barrier _ (descs_joined hinv r bytes) (fun y hy => (hpassed y hy).2) ⟨y, hy, (hpassed y hy).1⟩ rfl hgood hbarrier))

end Sys2Proof.Machine
end

section
/-! SUPPORT. The checkpoint sequencer of a partition and its status read back (R359), and a partition where a vote, a copy or a restore runs. -/

namespace Sys2Proof.Machine

section
variable {s : State} (h : s.Inv) (p : Nat)
include h

theorem ckpOf_setCkp_same (c : Ckp) : ckpOf (setCkp s p c) p = c := sget_sset_same (fun _ => ckp0) p c s.ckps h.ckps
theorem setCkp_inv (c : Ckp) : (setCkp s p c).Inv := (setCkp_kept (inv_kept h)).2
theorem setPhase_inv (n : Nat) : (setPhase s p n).Inv := wrf_inv _ _ _ _ h
theorem ckpStat_inv (st sub : Nat) : (ckpStat s p st sub).Inv := wrf_inv _ _ _ _ h
theorem ckpPhase_setPhase (n : Nat) : ckpPhase (setPhase s p n) p = n % 16 := rdf_wrf_same h _ _ _ _ (by decide)
theorem ckpPhase_ckpStat (st sub : Nat) : ckpPhase (ckpStat s p st sub) p = ckpPhase s p := rdf_wrf_apart h _ _ _ _ _ _ (by decide) (by decide)
theorem status_ckpStat (st sub : Nat) : rdf (ckpStat s p st sub) (R.CKP_STAT p) 8 16 = (st + sub <<< 8) % 2 ^ 16 := rdf_wrf_same h _ _ _ _ (by decide)
theorem status_setPhase (n : Nat) : rdf (setPhase s p n) (R.CKP_STAT p) 8 16 = rdf s (R.CKP_STAT p) 8 16 :=
  rdf_wrf_apart h _ _ _ _ _ _ (by decide) (by decide)
theorem rd_setPhase_ne {a : Nat} (n : Nat) (ha : a ≠ R.CKP_STAT p) : rd (setPhase s p n) a = rd s a := rd_wrf_ne h _ _ _ ha
theorem rd_ckpStat_ne {a : Nat} (st sub : Nat) (ha : a ≠ R.CKP_STAT p) : rd (ckpStat s p st sub) a = rd s a := rd_wrf_ne h _ _ _ ha

end

@[simp] theorem ckpOf_wr (s : State) (a : Nat) (v : Word) (p : Nat) : ckpOf (wr s a v) p = ckpOf s p := rfl
@[simp] theorem ckpOf_setPhase (s : State) (p n q : Nat) : ckpOf (setPhase s p n) q = ckpOf s q := rfl
@[simp] theorem ckpOf_ckpStat (s : State) (p st sub q : Nat) : ckpOf (ckpStat s p st sub) q = ckpOf s q := rfl
@[simp] theorem ckpPhase_setCkp (s : State) (p : Nat) (c : Ckp) (q : Nat) : ckpPhase (setCkp s p c) q = ckpPhase s q := rfl
@[simp] theorem rd_setCkp (s : State) (p : Nat) (c : Ckp) (a : Nat) : rd (setCkp s p c) a = rd s a := rfl

/-- R338, R359: a partition is busy in the phases of a vote, a copy and a restore. -/
theorem ckpBusy_iff (ph : Nat) : (decide (1 ≤ ph) && decide (ph ≤ 3) || ph == 6) = true ↔ ph ∈ [1, 2, 3, 6] := by
  simp only [Bool.or_eq_true, Bool.and_eq_true, decide_eq_true_eq, beq_iff_eq, List.mem_cons, List.not_mem_nil, or_false]
  omega

end Sys2Proof.Machine
end

section
/-! Orders to the checkpoint sequencer: VALID, cuts, stops and restores (R335, R340, R347, R349, R353, R354, R358, R359). -/

namespace Sys2Proof.Machine

section
variable {s : State} {p : Nat} (hp : p < 8)
include hp

/-- R335: VALID is checked as it rises. -/
theorem exec_ckpCfgValid (v : Word) : exec (.ckpCfgValid p v) s =
    .next (if v.getLsbD 63 = true ∧ ckpOn s p = false ∧ ckpCfgOk s p (v.toNat % 1024) = false then
      wr (regPut s (R.CKP_CFG p) (putf v 63 1 0)) R.CKP_CFG_ERR (BitVec.ofNat 64 (0x10 + p * 256 + 2 ^ 63))
    else regPut s (R.CKP_CFG p) v) := by
  show execCkpCfgValid p v s = _
  simp [execCkpCfgValid, Nat.not_le.2 hp, bitw_eq_getLsbD, fld_zero_eq_mod, Nat.shiftLeft_eq, and_assoc]

theorem exec_ckpCmdCut : exec (.ckpCmdCut p) s = .next (if ckpPhase s p ∈ [1, 2, 3, 6] then s else setCause s p 1) := by
  show execCkpCmdCut p s = _
  simp only [execCkpCmdCut, Nat.not_le.2 hp, decide_false, Bool.false_or, ckpBusy_iff]

end

section
variable {s : State} (h : s.Inv) (p st sub : Nat)
include h

/-- R347: a drain that stops is over. -/
theorem drain_stopDrain : (ckpOf (stopDrain s p st sub) p).drain = none := by
  have hover : (ckpOf (setCkp s p { ckpOf s p with drain := none }) p).drain = none := by rw [ckpOf_setCkp_same h]
  unfold stopDrain
  dsimp only
  split <;> exact hover

/-- R347, R359: the status of a drain that stops. -/
theorem status_stopDrain : rdf (stopDrain s p st sub) (R.CKP_STAT p) 8 16 = (st + sub <<< 8) % 2 ^ 16 := by
  have hcleared := setCkp_inv h p { ckpOf s p with drain := none }
  have hstat := status_ckpStat hcleared p st sub
  unfold stopDrain
  dsimp only
  split
  · exact (status_setPhase (ckpStat_inv hcleared p st sub) p 0).trans hstat
  · exact hstat

end

section
variable {s : State} {p : Nat}

theorem exec_ckpCmdStop (d : Option Drain) (hd : (ckpOf s p).drain = d) : exec (.ckpCmdStop p) s = .next (if d.isSome then stopDrain s p 0 0 else s) := by
  subst hd; rfl
theorem exec_drainWriteFail (d : Option Drain) (hd : (ckpOf s p).drain = d) :
    exec (.drainWriteFail p) s = .next (if d.isSome then stopDrain s p 0x10 0x90 else s) := by
  subst hd; rfl

theorem exec_ckpCmdRvote_of_some {r : Restore} (hr : (ckpOf s p).rest = some r) :
    exec (.ckpCmdRvote p) s = .next (if ckpPhase s p = 8 ∧ r.local_ then restoreVote s p { r with auto := false } else s) := by
  show execCkpCmdRvote p s = _
  rw [execCkpCmdRvote, hr]

theorem exec_ckpCmdRvote_of_none (hr : (ckpOf s p).rest = none) : exec (.ckpCmdRvote p) s = .next s := by
  show execCkpCmdRvote p s = _
  rw [execCkpCmdRvote, hr]

/-- R353: RVOTE outside phase 8 does nothing. -/
theorem exec_ckpCmdRvote_of_phase (hphase : ckpPhase s p ≠ 8) : exec (.ckpCmdRvote p) s = .next s := by
  cases hr : (ckpOf s p).rest with
  | none => exact exec_ckpCmdRvote_of_none hr
  | some r => rw [exec_ckpCmdRvote_of_some hr, if_neg (fun hvote => hphase hvote.1)]

/-- R340: a cut request sets its cause and nothing else. -/
theorem setCause_request (h : s.Inv) : rdf (setCause s p 1) (R.CKP_STAT p) 5 1 = 1 ∧ ckpPhase (setCause s p 1) p = ckpPhase s p ∧
    (∀ a, a ≠ R.CKP_STAT p → rd (setCause s p 1) a = rd s a) ∧ (setCause s p 1).mem = s.mem :=
  ⟨rdf_wrf_same h _ _ _ _ (by decide), rdf_wrf_apart h _ _ _ _ _ _ (by decide) (by decide), fun _ ha => rd_wrf_ne h _ _ _ ha, rfl⟩

end

theorem checkpointOrders : Sys2Proof.Parts.CheckpointOrders := by
  intro s p h hp
  refine ⟨fun v hok => ?_, fun v hv hoff hbad => ?_, fun hfree => ⟨_, ?_, setCause_request h⟩, fun hbusy => ?_, fun d hd => ?_, fun hd => ?_,
    fun r hr hphase hlocal => ?_, exec_ckpCmdRvote_of_phase⟩
  · rw [exec_ckpCfgValid hp, if_neg]
    rintro ⟨hv, hoff, hbad⟩
    simp only [hv, hoff, hbad, Bool.true_eq_false, Bool.false_eq_true, or_self] at hok
  · rw [exec_ckpCfgValid hp, if_pos ⟨hv, hoff, hbad⟩]
  · rw [exec_ckpCmdCut hp, if_neg hfree]
  · rw [exec_ckpCmdCut hp, if_pos hbusy]
  · exact ⟨exec_ckpCmdStop _ hd, exec_drainWriteFail _ hd, drain_stopDrain h .., status_stopDrain h ..⟩
  · exact ⟨exec_ckpCmdStop _ hd, exec_drainWriteFail _ hd⟩
  · rw [exec_ckpCmdRvote_of_some hr, if_pos ⟨hphase, hlocal⟩]

section
variable {s : State} {p src : Nat} {reshard : Bool}

/-- R349, R358: a restore that may not start is ignored. -/
theorem startRestore_of_ignored (hno : ckpPhase s p ∈ [1, 2, 3, 6] ∨ (ckpOn s p = false ∧ reshard = false)) : startRestore s p src reshard false = s := by
  refine if_pos ?_
  rw [Bool.or_assoc, Bool.or_eq_true, ckpBusy_iff]
  rcases hno with hbusy | ⟨hoff, hplain⟩
  · exact .inr hbusy
  · exact .inl (by simp [hoff, hplain])

/-- R349, R354, R358: the restore that a command starts. -/
def newRestore (s : State) (p src : Nat) (reshard : Bool) : Restore :=
  ⟨src, reshard, (rd s (R.CKP_RCUT p)).toNat, 0, 0, 0, none, false, false, 0, 0, 0, false⟩

/-- R349, R359: phase 6 begins, and no answer of an earlier restore is left. -/
def restoreBegun (s : State) (p : Nat) (r : Restore) : State :=
  { setPhase (setCkp s p { ckpOf s p with rest := some r }) p 6 with mail := s.mail.filter (fun m => !(m.kind == 1 && m.id == p)) }

theorem startRestore_of_started (hp : p < 8) (hon : ckpOn s p = true ∨ reshard = true) (hfree : ckpPhase s p ∉ [1, 2, 3, 6]) :
    startRestore s p src reshard false =
      (let r := newRestore s p src reshard
       let t := restoreBegun s p r
       if src = 0 then beginCoff t p r else if src = 1 then beginModules t p r else pumpRest p 70000 t) := by
  refine if_neg ?_
  rw [Bool.or_assoc, Bool.or_eq_true, ckpBusy_iff]
  rintro (hout | hbusy)
  · rcases hon with hon | hon <;> simp [Nat.not_le.2 hp, hon] at hout
  · exact hfree hbusy

end

/-- R349, R354, R358: each restore command starts a restore from its source. -/
theorem restore_commands {c : Nat → Instr} {src : Nat} {reshard : Bool}
    (hc : (c, src, reshard) = (Instr.ckpCmdRestoreCofferdam, 0, false) ∨ (c, src, reshard) = (Instr.ckpCmdRestoreModules, 1, false) ∨
      (c, src, reshard) = (Instr.ckpCmdRestoreMirror, 2, false) ∨ (c, src, reshard) = (fun p => Instr.ckpCmdReshard p 1, 1, true) ∨
      (c, src, reshard) = (fun p => Instr.ckpCmdReshard p 2, 2, true)) (s : State) (p : Nat) :
    exec (c p) s = .next (startRestore s p src reshard false) := by
  simp only [Prod.mk.injEq] at hc
  rcases hc with ⟨rfl, rfl, rfl⟩ | ⟨rfl, rfl, rfl⟩ | ⟨rfl, rfl, rfl⟩ | ⟨rfl, rfl, rfl⟩ | ⟨rfl, rfl, rfl⟩ <;> rfl

theorem exec_ckpCmdReshard_of_other (s : State) (p : Nat) {src : Nat} (hmodules : src ≠ 1) (hmirror : src ≠ 2) : exec (.ckpCmdReshard p src) s = .next s :=
  next_ite_neg (by simp [hmodules, hmirror])

theorem restoresStart : Sys2Proof.Parts.RestoresStart := by
  refine ⟨fun c src reshard hc s p _ hp => ?_, fun s p src => exec_ckpCmdReshard_of_other s p⟩
  rw [restore_commands hc]
  exact ⟨fun hno => congrArg _ (startRestore_of_ignored hno), fun hon hfree => congrArg _ (startRestore_of_started hp hon hfree)⟩

/-- Settles O37: each order by the phase, the drain or the restore that it finds; the restore commands all by `startRestore`. That a restore other than RESHARD needs VALID is the model's reading (log 48). -/
theorem checkpointCommands : Obligations.CheckpointCommands := ⟨checkpointOrders, restoresStart⟩

end Sys2Proof.Machine
end

section
/-! The cut vote's outcomes (R339, R342, R343, R352). -/

namespace Sys2Proof.Machine

/-- R338, R359: a step has been released: nothing but a drain is under way, and boundaries that waited are taken. -/
def stepFree (s : State) (p : Nat) : State := takeBounds p (2 ^ 32) (restPhase s p)

/-- R342: the newest cut sealed at every member, as the vote brings it. -/
def votedSealed (s : State) (p : Nat) (c : Coll) : State := wr s (R.CKP_GSEALED p) (BitVec.ofNat 64 (voteSlot c 5))

/-- R343, R344: the cut is taken: its number and causes are kept, and the copy begins with the cofferdam marked empty. -/
def cutTaken (s : State) (p : Nat) (c : Coll) : State :=
  let s1 := wrf s (R.CKP_STAT p) 4 3 0
  let s2 := setPhase (setCkp s1 p { ckpOf s1 p with cut := voteSlot c 1, cause := voteSlot c 0 % 8, copyErr := none }) p 2
  devWrite s2 (coffBase s2 p 0) (leBytes 8 0)

section
variable {s : State} {p : Nat} {c : Coll} (hvote : voteDone s p 0 = some c)
include hvote

theorem exec_cutVoteResult_waits (hwait : recordWaits s p = true) : exec (.cutVoteResult p) s = .next s := by
  show execCutVoteResult p s = _
  simp only [execCutVoteResult, hvote, hwait, if_true]

variable (hnow : recordWaits s p = false)
include hnow

/-- R352: in an aborted partition the failure is all that comes of the vote. -/
theorem exec_cutVoteResult_aborted (hphase : ckpPhase (collEnd s c) p = 7) (hfail : 0x10 ≤ (collStatus s c).1) :
    exec (.cutVoteResult p) s = .next (writeRelease (collEnd s c) p (collStatus s c).1 (collStatus s c).2 0 0) := by
  show execCutVoteResult p s = _
  simp only [execCutVoteResult, hvote, hnow, hphase, hfail, and_self, Bool.false_eq_true, if_false, if_true]

theorem exec_cutVoteResult_other (hphase : ckpPhase (collEnd s c) p ≠ 1) (hno : ckpPhase (collEnd s c) p ≠ 7 ∨ (collStatus s c).1 < 0x10) :
    exec (.cutVoteResult p) s = .next (collEnd s c) := by
  have hplain : ¬ (ckpPhase (collEnd s c) p = 7 ∧ 0x10 ≤ (collStatus s c).1) := by omega
  show execCutVoteResult p s = _
  simp only [execCutVoteResult, hvote, hnow, hphase, hplain, ne_eq, not_false_eq_true, Bool.false_eq_true, if_false, if_true]

variable (hphase : ckpPhase (collEnd s c) p = 1)
include hphase

/-- R343: a vote that came back with a failure releases the step with it. -/
theorem exec_cutVoteResult_failed (hfail : 0x10 ≤ (collStatus s c).1) :
    exec (.cutVoteResult p) s = .next (stepFree (writeRelease (collEnd s c) p (collStatus s c).1 (collStatus s c).2 0 0) p) := by
  show execCutVoteResult p s = _
  simp only [execCutVoteResult, hvote, hnow, hphase, hfail, and_true, ne_eq, not_true, Nat.reduceEqDiff, Bool.false_eq_true, if_false, if_true, stepFree]

variable (hok : (collStatus s c).1 < 0x10)
include hok

/-- R343: the order of the tests on a vote that came back whole. -/
theorem exec_cutVoteResult_whole : exec (.cutVoteResult p) s = .next (
    let t := votedSealed (collEnd s c) p c
    if voteSlot c 2 ≠ voteSlot c 3 then stepFree (writeRelease t p 0x11 0x80 0 0) p
    else if voteSlot c 0 = 0 then stepFree (writeRelease t p 0 0 0 0) p
    else if voteSlot c 4 ≠ 0 then stepFree (addSat (writeRelease t p 0 0x81 2 0) (R.CKP_STAT p) 32 16 1) p
    else cutTaken t p c) := by
  show execCutVoteResult p s = _
  simp only [execCutVoteResult, hvote, hnow, hphase, Nat.not_le.2 hok, and_false, ne_eq, not_true, Bool.false_eq_true, if_false, stepFree, votedSealed, cutTaken]

end

/-- Settles O38: the failures by the phase that they find, a whole vote by the order of R343's tests. -/
theorem cutVotes : Obligations.CutVotes := by
  intro s p c _ _ hvote st s1 s2 release
  refine ⟨exec_cutVoteResult_waits hvote, exec_cutVoteResult_aborted hvote, exec_cutVoteResult_other hvote,
    fun hnow hphase => ⟨exec_cutVoteResult_failed hvote hnow hphase, fun hok hstep => ?_, fun hok hstep hnone => ?_, fun hok hstep hsome hdrain => ?_,
      fun hok hstep hsome hdrain => ?_⟩⟩
  · rw [exec_cutVoteResult_whole hvote hnow hphase hok, if_pos hstep]
    rfl
  · rw [exec_cutVoteResult_whole hvote hnow hphase hok, if_neg (not_not_intro hstep), if_pos hnone]
    rfl
  · rw [exec_cutVoteResult_whole hvote hnow hphase hok, if_neg (not_not_intro hstep), if_neg hsome, if_pos hdrain]
    rfl
  · rw [exec_cutVoteResult_whole hvote hnow hphase hok, if_neg (not_not_intro hstep), if_neg hsome, if_neg (not_not_intro hdrain)]
    rfl

end Sys2Proof.Machine
end

section
/-! Cut copies and the copied vote (R336, R344). -/

namespace Sys2Proof.Machine

/-- R344: the copied vote of a partition: whether this package's copy failed, and the cut. -/
def copiedVote (s : State) (p cut : Nat) (err : Option (Nat × Nat)) : State :=
  takeVote (setPhase (setCkp s p { ckpOf s p with copyErr := err }) p 3) p 1 0x547 [if err.isSome then 1 else 0, cut, cut]

/-- R336, R344: the regions are copied: the state block at the head of the cofferdam, then its cut number, then CKP_CUTS. -/
def copyWhole (s : State) (p head cut : Nat) : State :=
  wr (devWrite (devWrite s head (stateBlock s p)) head (leBytes 8 cut)) (R.CKP_CUTS p) (BitVec.ofNat 64 cut)

section
variable {s : State} {p : Nat}

theorem exec_cutCopyDone_waits (hwait : setWaits s p = true) : exec (.cutCopyDone p) s = .next s := by
  show execCutCopyDone p s = _
  simp only [execCutCopyDone, hwait, Bool.or_true, if_true]

variable (hphase : ckpPhase s p = 2) (hnow : setWaits s p = false)
include hphase hnow

theorem exec_cutCopyDone_west_failed {w : State} {x : Nat × Nat} (hwest : copyRegions s 0 p (coffBase s p 0 + 16384) (regionsOf s p 0) = (w, some x)) :
    exec (.cutCopyDone p) s = .next (copiedVote w p (ckpOf s p).cut (some x)) := by
  show execCutCopyDone p s = _
  simp only [execCutCopyDone, hphase, hnow, hwest, ne_eq, not_true, decide_false, Bool.or_self, Bool.false_eq_true, if_false, copiedVote]

variable {w e : State} (hwest : copyRegions s 0 p (coffBase s p 0 + 16384) (regionsOf s p 0) = (w, none))
include hwest

theorem exec_cutCopyDone_east_failed {x : Nat × Nat} (heast : copyRegions w 1 p (coffBase s p 1) (regionsOf s p 1) = (e, some x)) :
    exec (.cutCopyDone p) s = .next (copiedVote e p (ckpOf s p).cut (some x)) := by
  show execCutCopyDone p s = _
  simp only [execCutCopyDone, hphase, hnow, hwest, heast, ne_eq, not_true, decide_false, Bool.or_self, Bool.false_eq_true, if_false, copiedVote]

theorem exec_cutCopyDone_whole (heast : copyRegions w 1 p (coffBase s p 1) (regionsOf s p 1) = (e, none)) :
    exec (.cutCopyDone p) s = .next (copiedVote (copyWhole e p (coffBase s p 0) (ckpOf s p).cut) p (ckpOf s p).cut none) := by
  show execCutCopyDone p s = _
  simp only [execCutCopyDone, hphase, hnow, hwest, heast, ne_eq, not_true, decide_false, Bool.or_self, Bool.false_eq_true, if_false, copiedVote, copyWhole]

end

/-- R344: the cut is abandoned: the cofferdam is marked empty and the step released with the failure. -/
def cutAbandoned (s : State) (p st sub : Nat) : State := writeRelease (devWrite s (coffBase s p 0) (leBytes 8 0)) p st sub 0 0

section
variable {s : State} {p : Nat} {c : Coll} (hvote : voteDone s p 1 = some c)
include hvote

theorem exec_copiedVoteResult_waits (hwait : recordWaits s p = true) : exec (.copiedVoteResult p) s = .next s := by
  show execCopiedVoteResult p s = _
  simp only [execCopiedVoteResult, hvote, hwait, if_true]

variable (hnow : recordWaits s p = false)
include hnow

/-- R352: in an aborted partition the cut is abandoned with the vote's failure, and no step is freed. -/
theorem exec_copiedVoteResult_aborted (hphase : ckpPhase (collEnd s c) p = 7) (hfail : 0x10 ≤ (collStatus s c).1) :
    exec (.copiedVoteResult p) s = .next (cutAbandoned (collEnd s c) p (collStatus s c).1 (collStatus s c).2) := by
  show execCopiedVoteResult p s = _
  simp only [execCopiedVoteResult, hvote, hnow, hphase, hfail, and_self, Bool.false_eq_true, if_false, if_true, cutAbandoned]

variable (hphase : ckpPhase (collEnd s c) p = 3)
include hphase

theorem exec_copiedVoteResult_failed (hfail : 0x10 ≤ (collStatus s c).1) :
    exec (.copiedVoteResult p) s = .next (stepFree (cutAbandoned (collEnd s c) p (collStatus s c).1 (collStatus s c).2) p) := by
  show execCopiedVoteResult p s = _
  simp only [execCopiedVoteResult, hvote, hnow, hphase, hfail, Nat.not_lt.2 hfail, false_and, ne_eq, not_true, Nat.reduceEqDiff, Bool.false_eq_true, if_false, if_true,
    stepFree, cutAbandoned]

variable (hok : (collStatus s c).1 < 0x10)
include hok

/-- R344: every package has a whole copy of one cut: the step is released with flag 1, and the drain begins. -/
theorem exec_copiedVoteResult_whole (hwhole : voteSlot c 0 = 0) (hone : voteSlot c 1 = voteSlot c 2) :
    exec (.copiedVoteResult p) s = .next (
      let k := ckpOf (collEnd s c) p
      takeBounds p (2 ^ 32) (startDrain (writeRelease (collEnd s c) p 0 0 1 k.cut) p k.cut k.cause)) := by
  show execCopiedVoteResult p s = _
  simp only [execCopiedVoteResult, hvote, hnow, hphase, hok, hwhole, hone, Nat.not_le.2 hok, and_self, and_false, ne_eq, not_true, Bool.false_eq_true, if_false, if_true]

/-- R344: a copy failed here or elsewhere: the status is this package's own failure, or that of the set. -/
theorem exec_copiedVoteResult_broken (hbroken : voteSlot c 0 ≠ 0 ∨ voteSlot c 1 ≠ voteSlot c 2) :
    exec (.copiedVoteResult p) s =
      .next (stepFree (cutAbandoned (collEnd s c) p (((ckpOf (collEnd s c) p).copyErr.map (·.1)).getD 0x12) 0x82) p) := by
  have hno : ¬ ((collStatus s c).1 < 0x10 ∧ voteSlot c 0 = 0 ∧ voteSlot c 1 = voteSlot c 2) := by tauto
  have hexec : exec (.copiedVoteResult p) s = execCopiedVoteResult p s := rfl
  cases herr : (ckpOf (collEnd s c) p).copyErr <;>
    simp only [hexec, execCopiedVoteResult, hvote, hnow, hphase, hno, herr, Nat.not_le.2 hok, and_false, ne_eq, not_true, Bool.false_eq_true, if_false,
      Option.map_none, Option.map_some, Option.getD_none, Option.getD_some, stepFree, cutAbandoned]

end

theorem cutCopies : Sys2Proof.Parts.CutCopies := by
  constructor
  · intro s p _ _ hphase cut west voted
    exact ⟨exec_cutCopyDone_waits, fun w e hnow hwest => exec_cutCopyDone_whole hphase hnow hwest,
      fun w x hnow => exec_cutCopyDone_west_failed hphase hnow, fun w e x hnow hwest => exec_cutCopyDone_east_failed hphase hnow hwest⟩
  · intro s p c _ _ hvote st s1 k abandoned
    exact ⟨exec_copiedVoteResult_waits hvote, exec_copiedVoteResult_aborted hvote, fun hnow hphase => ⟨exec_copiedVoteResult_whole hvote hnow hphase,
      exec_copiedVoteResult_failed hvote hnow hphase, exec_copiedVoteResult_broken hvote hnow hphase⟩⟩

end Sys2Proof.Machine
end

section
/-! Drain seals (R346-R348, R405). -/

namespace Sys2Proof.Machine

theorem readBlock_fst (s : State) (p area i : Nat) : (readBlock s p area i).1 = s := by
  unfold readBlock
  split
  · rfl
  · split <;> rfl

/-- R401, R406: a block written changes its bay alone. -/
theorem writeBlock_eq_bays (s : State) (p area i : Nat) (bs : List Byte) : ∃ bays, writeBlock s p area i bs = { s with bays := bays } := by
  unfold writeBlock
  split
  · exact ⟨s.bays, rfl⟩
  · exact ⟨_, rfl⟩

theorem rd_writeBlock (s : State) (p area i : Nat) (bs : List Byte) (a : Nat) : rd (writeBlock s p area i bs) a = rd s a := by
  obtain ⟨bays, hb⟩ := writeBlock_eq_bays s p area i bs
  rw [hb]
  rfl
theorem ckpOf_writeBlock (s : State) (p area i : Nat) (bs : List Byte) (q : Nat) : ckpOf (writeBlock s p area i bs) q = ckpOf s q := by
  obtain ⟨bays, hb⟩ := writeBlock_eq_bays s p area i bs
  rw [hb]
  rfl
theorem writeBlock_inv {s : State} (h : s.Inv) (p area i : Nat) (bs : List Byte) : (writeBlock s p area i bs).Inv :=
  (writeBlock_kept s p area i bs (inv_kept h)).2

section
variable (p slot : Nat)

theorem slotReg_ne_stat : slotReg p slot ≠ R.CKP_STAT p := by
  unfold slotReg R.CKP_SLOT0 R.CKP_SLOT1 R.CKP_STAT
  split <;> omega
theorem slotReg_ne_sealed : slotReg p slot ≠ R.CKP_SEALED p := by
  unfold slotReg R.CKP_SLOT0 R.CKP_SLOT1 R.CKP_SEALED
  split <;> omega
theorem ckpSealed_ne_stat : R.CKP_SEALED p ≠ R.CKP_STAT p := by
  unfold R.CKP_SEALED R.CKP_STAT
  omega

end

/-- R359: the phase of a drain ends with it. -/
def drainPhaseEnded (s : State) (p : Nat) : State := if ckpPhase s p = 4 ∨ ckpPhase s p = 5 then setPhase s p 0 else s

section
variable {s : State} (h : s.Inv) (p : Nat)

@[simp] theorem ckpOf_drainPhaseEnded (q : Nat) : ckpOf (drainPhaseEnded s p) q = ckpOf s q := by
  unfold drainPhaseEnded
  split <;> rfl
theorem drainPhaseEnded_mem : (drainPhaseEnded s p).mem = s.mem := by
  unfold drainPhaseEnded
  split <;> rfl

include h

theorem rd_drainPhaseEnded_ne {a : Nat} (ha : a ≠ R.CKP_STAT p) : rd (drainPhaseEnded s p) a = rd s a := by
  unfold drainPhaseEnded
  split
  · exact rd_setPhase_ne h p 0 ha
  · rfl
theorem status_drainPhaseEnded : rdf (drainPhaseEnded s p) (R.CKP_STAT p) 8 16 = rdf s (R.CKP_STAT p) 8 16 := by
  unfold drainPhaseEnded
  split
  · exact status_setPhase h p 0
  · rfl
theorem ckpPhase_drainPhaseEnded (hphase : ckpPhase s p ∈ [4, 5]) : ckpPhase (drainPhaseEnded s p) p = 0 := by
  rw [drainPhaseEnded, if_pos (by simpa using hphase), ckpPhase_setPhase h]

end

/-- R346, R359: the drain is over, and the register of its module slot names its cut. -/
def slotNamed (s : State) (p : Nat) (d : Drain) : State := wr (setCkp s p { ckpOf s p with drain := none }) (slotReg p d.slot) (BitVec.ofNat 64 d.cut)

/-- R347: a buddy was lost: the manifest in the module slot is marked so. -/
def manifestMarked (s : State) (p : Nat) (d : Drain) : State :=
  let m := readBlock s p d.slot 0
  ckpStat (writeBlock m.1 p d.slot 0 (manLost m.1 p m.2)) p 0x22 0x8B

section
variable {s : State} (h : s.Inv) (p : Nat) (d : Drain)

theorem manifestMarked_eq : manifestMarked s p d = ckpStat (writeBlock s p d.slot 0 (manLost s p (readBlock s p d.slot 0).2)) p 0x22 0x8B := by
  rw [manifestMarked, readBlock_fst]
theorem ckpOf_manifestMarked (q : Nat) : ckpOf (manifestMarked s p d) q = ckpOf s q := by rw [manifestMarked_eq, ckpOf_ckpStat, ckpOf_writeBlock]

include h

theorem manifestMarked_inv : (manifestMarked s p d).Inv := by
  rw [manifestMarked_eq]
  exact ckpStat_inv (writeBlock_inv h ..) ..
theorem rd_manifestMarked_ne {a : Nat} (ha : a ≠ R.CKP_STAT p) : rd (manifestMarked s p d) a = rd s a := by
  rw [manifestMarked_eq, rd_ckpStat_ne (writeBlock_inv h ..) p _ _ ha, rd_writeBlock]
theorem status_manifestMarked : rdf (manifestMarked s p d) (R.CKP_STAT p) 8 16 = 0x8B22 := by
  rw [manifestMarked_eq]
  exact status_ckpStat (writeBlock_inv h ..) ..
theorem ckpPhase_manifestMarked : ckpPhase (manifestMarked s p d) p = ckpPhase s p := by
  rw [manifestMarked_eq, ckpPhase_ckpStat (writeBlock_inv h ..)]
  exact rdf_of_rd (rd_writeBlock ..) ..

end

/-- R346, R347: the end of a drain. -/
def drainDone (s : State) (p : Nat) (d : Drain) : State :=
  drainPhaseEnded (if d.lost then manifestMarked (slotNamed s p d) p d else wr (slotNamed s p d) (R.CKP_SEALED p) (BitVec.ofNat 64 d.cut)) p

section
variable {s : State} (h : s.Inv) (p : Nat) (d : Drain)
include h

theorem slotNamed_inv : (slotNamed s p d).Inv := wr_inv _ _ (setCkp_inv h ..)
theorem drain_slotNamed : (ckpOf (slotNamed s p d) p).drain = none := by rw [slotNamed, ckpOf_wr, ckpOf_setCkp_same h]
theorem rd_slotNamed : rd (slotNamed s p d) (slotReg p d.slot) = BitVec.ofNat 64 d.cut := rd_wr_same (setCkp_inv h ..) ..
theorem rd_slotNamed_ne {a : Nat} (ha : a ≠ slotReg p d.slot) : rd (slotNamed s p d) a = rd s a := rd_wr_ne (setCkp_inv h ..) _ ha
theorem ckpPhase_slotNamed : ckpPhase (slotNamed s p d) p = ckpPhase s p := rdf_of_rd (rd_slotNamed_ne h p d (slotReg_ne_stat p d.slot).symm) 0 4

theorem drain_drainDone : (ckpOf (drainDone s p d) p).drain = none := by
  rw [drainDone, ckpOf_drainPhaseEnded]
  split
  · rw [ckpOf_manifestMarked, drain_slotNamed h]
  · rw [ckpOf_wr, drain_slotNamed h]

section
variable (hwhole : d.lost = false)
include hwhole

/-- R346, R359: where no buddy was lost, the slot's register and CKP_SEALED name the cut. -/
theorem sealed_drainDone : rd (drainDone s p d) (R.CKP_SEALED p) = BitVec.ofNat 64 d.cut ∧ rd (drainDone s p d) (slotReg p d.slot) = BitVec.ofNat 64 d.cut := by
  have hsealed := wr_inv (R.CKP_SEALED p) (BitVec.ofNat 64 d.cut) (slotNamed_inv h p d)
  have hdone : drainDone s p d = drainPhaseEnded (wr (slotNamed s p d) (R.CKP_SEALED p) (BitVec.ofNat 64 d.cut)) p := by simp [drainDone, hwhole]
  rw [hdone, rd_drainPhaseEnded_ne hsealed p (ckpSealed_ne_stat p), rd_drainPhaseEnded_ne hsealed p (slotReg_ne_stat p d.slot), rd_wr_same (slotNamed_inv h p d),
    rd_wr_ne (slotNamed_inv h p d) _ (slotReg_ne_sealed p d.slot), rd_slotNamed h]
  exact ⟨rfl, rfl⟩

omit h in
theorem drainDone_mem : (drainDone s p d).mem = s.mem := by
  rw [drainDone, drainPhaseEnded_mem, hwhole]
  rfl

end

/-- R347: where a buddy was lost, CKP_SEALED stays and the status says so. -/
theorem lost_drainDone (hlost : d.lost = true) :
    rd (drainDone s p d) (R.CKP_SEALED p) = rd s (R.CKP_SEALED p) ∧ rdf (drainDone s p d) (R.CKP_STAT p) 8 16 = 0x8B22 := by
  have hnamed := slotNamed_inv h p d
  have hmarked := manifestMarked_inv hnamed p d
  have hdone : drainDone s p d = drainPhaseEnded (manifestMarked (slotNamed s p d) p d) p := by simp [drainDone, hlost]
  rw [hdone, rd_drainPhaseEnded_ne hmarked p (ckpSealed_ne_stat p), status_drainPhaseEnded hmarked, rd_manifestMarked_ne hnamed p d (ckpSealed_ne_stat p),
    rd_slotNamed_ne h p d (slotReg_ne_sealed p d.slot).symm]
  exact ⟨rfl, status_manifestMarked hnamed p d⟩

theorem ckpPhase_drainDone (hphase : ckpPhase s p ∈ [4, 5]) : ckpPhase (drainDone s p d) p = 0 := by
  have hnamed := slotNamed_inv h p d
  rw [← ckpPhase_slotNamed h p d] at hphase
  rw [drainDone]
  split
  · refine ckpPhase_drainPhaseEnded (manifestMarked_inv hnamed p d) p ?_
    rwa [ckpPhase_manifestMarked hnamed]
  · refine ckpPhase_drainPhaseEnded (wr_inv _ _ hnamed) p ?_
    rwa [ckpPhase, rdf_of_rd (rd_wr_ne hnamed _ (ckpSealed_ne_stat p).symm)]

end

/-- R346, R348: the cut read from the cofferdams is written to the module slot, its manifest last, and the buddies' manifests come next. -/
def cutDrained (s : State) (p : Nat) (d : Drain) : State :=
  let w := physRead s srcDev (coffBase s p 0) (seqLen s p 0)
  let e := physRead w.1 srcDev (coffBase s p 1) (seqLen s p 1)
  let all := w.2.1 ++ e.2.1
  let s1 := writeBlocks e.1 p d.slot 1 all (all.length / 4096)
  let s2 := writeBlock s1 p d.slot 0 (manifest s1 p d [w.2.1, e.2.1])
  let s3 := setCkp s2 p { ckpOf s p with drain := some { d with stage := 2, sent := 0 } }
  if ckpPhase s3 p = 4 then setPhase s3 p 5 else s3

theorem cutDrained_inv {s : State} (h : s.Inv) (p : Nat) (d : Drain) : (cutDrained s p d).Inv := by
  unfold cutDrained
  extract_lets w e all s1 s2 c s3
  have hwest : w.1.Inv := (physRead_kept s srcDev (coffBase s p 0) (seqLen s p 0) (inv_kept h)).2
  have heast : e.1.Inv := (physRead_kept w.1 srcDev (coffBase s p 1) (seqLen s p 1) (inv_kept hwest)).2
  have hdata : s1.Inv := (writeBlocks_kept e.1 p d.slot 1 all (all.length / 4096) (inv_kept heast)).2
  have hnext : s3.Inv := setCkp_inv (writeBlock_inv hdata ..) ..
  split
  · exact setPhase_inv hnext ..
  · exact hnext

section
variable {s : State} {p : Nat} {d : Drain} (hd : (ckpOf s p).drain = some d)
include hd

/-- R346, R347: what comes of a drain's stage: it goes on while lines are under way; the data's end writes the module slot, and the last one ends the drain. -/
theorem exec_drainSeal : exec (.drainSeal p) s = .next (
    if moverOut s p ≠ 0 ∨ d.sent < stageLines s p d.stage ∨ (d.stage = 1 ∧ setWaits s p) then s
    else if d.stage = 1 then
      (if !bayState s 4 then stopDrain s p 0x10 0x90
      else if rdf (cutDrained s p d) (R.CKP_MIRCFG p) 0 4 = 0 then drainDone (cutDrained s p d) p { d with stage := 2, sent := 0 }
      else pumpDrain p 40000 (cutDrained s p d))
    else if d.stage = 3 then drainDone s p d
    else s) := by
  show execDrainSeal p s = _
  rw [execDrainSeal]
  extract_lets k
  rw [show k.drain = some d from hd]
  rfl

theorem exec_drainSeal_waits (hwait : moverOut s p ≠ 0 ∨ d.sent < stageLines s p d.stage ∨ (d.stage = 1 ∧ setWaits s p = true)) :
    exec (.drainSeal p) s = .next s := (exec_drainSeal hd).trans (next_ite_pos hwait)

variable (hidle : moverOut s p = 0) (hsent : stageLines s p d.stage ≤ d.sent)
include hidle hsent

/-- R346: the last stage is acknowledged. -/
theorem exec_drainSeal_acknowledged (hstage : d.stage = 3) : exec (.drainSeal p) s = .next (drainDone s p d) := by
  rw [exec_drainSeal hd, if_neg (by omega), if_neg (by omega), if_pos hstage]

variable (hstage : d.stage = 1) (hnow : setWaits s p = false)
include hstage hnow

theorem exec_drainSeal_refused (hbay : bayState s 4 = false) : exec (.drainSeal p) s = .next (stopDrain s p 0x10 0x90) := by
  rw [exec_drainSeal hd, if_neg (by simp [hidle, hsent, hnow]), if_pos hstage, if_pos (by simp [hbay])]

/-- R346: with the cut in the module slot, the buddies' manifests follow, or the drain is over where there are none. -/
theorem exec_drainSeal_drained (hbay : bayState s 4 = true) : exec (.drainSeal p) s = .next (
    if rdf (cutDrained s p d) (R.CKP_MIRCFG p) 0 4 = 0 then drainDone (cutDrained s p d) p { d with stage := 2, sent := 0 }
    else pumpDrain p 40000 (cutDrained s p d)) := by
  rw [exec_drainSeal hd, if_neg (by simp [hidle, hsent, hnow]), if_pos hstage, if_neg (by simp [hbay])]

end

theorem drainSeals : Sys2Proof.Parts.DrainSeals := by
  intro s p d h _ hd
  refine ⟨exec_drainSeal_waits hd, exec_drainSeal_refused hd, fun hidle hsent hstage hwhole hphase => ?_, fun hidle hsent hstage hlost hphase => ?_,
    fun hidle hsent hstage hnow hbay => ?_⟩
  · obtain ⟨hsealed, hslot⟩ := sealed_drainDone h p d hwhole
    exact ⟨_, exec_drainSeal_acknowledged hd hidle hsent hstage, drain_drainDone h p d, hsealed, hslot, ckpPhase_drainDone h p d hphase, drainDone_mem p d hwhole⟩
  · obtain ⟨hsealed, hstat⟩ := lost_drainDone h p d hlost
    exact ⟨_, exec_drainSeal_acknowledged hd hidle hsent hstage, drain_drainDone h p d, hsealed, hstat, ckpPhase_drainDone h p d hphase⟩
  · have hexec := exec_drainSeal_drained hd hidle hsent hstage hnow hbay
    have hinv := cutDrained_inv h p d
    intro w e all s1 s2 s3 s4
    refine ⟨fun hmirror => hexec.trans (next_ite_neg hmirror), fun hnone hwhole => ⟨_, hexec.trans (next_ite_pos hnone), drain_drainDone hinv p _, ?_⟩⟩
    exact sealed_drainDone hinv p { d with stage := 2, sent := 0 } hwhole

end Sys2Proof.Machine
end

section
/-! The end of a restore's local part, and the restore vote (R349-R351, R353, R358). -/

namespace Sys2Proof.Machine

/-- R351, R353, R358: the local part of a restore has ended: RESHARD is over, and any other takes the restore vote or waits for RVOTE. -/
def restoreEnded (s : State) (p : Nat) (r : Restore) : State :=
  let r1 := { r with local_ := true, step := if r.source = 0 then (rd s (R.CKP_STEP p)).toNat else r.step }
  let t : State := { s with mail := s.mail.filter (fun m => !(m.kind == 1 && m.id == p)) }
  if r.reshard then restPhase (setCkp t p { ckpOf t p with rest := none }) p
  else if r.auto then setPhase (setCkp t p { ckpOf t p with rest := some r1 }) p 8
  else restoreVote (setCkp t p { ckpOf t p with rest := some r1 }) p r1

/-- R349: it ends with a failure. -/
def restoreFailed (s : State) (p : Nat) (r : Restore) (e : Nat × Nat) : State := restoreEnded (ckpStat s p e.1 e.2) p { r with fail := some e }

/-- R350: the outcome of putting a cut in place. -/
def restoreApplied (p : Nat) (r : Restore) : State × Option (Nat × Nat) → State
  | (s, some e) => restoreFailed s p r e
  | (s, none) => restoreEnded s p r

/-- R349, R350: where the cofferdam of a half holds each region, in the form of `mapRegions`. -/
def coffPlaces (s : State) (p h : Nat) : List (Nat × Nat × Nat × Nat) :=
  ((regionsOf s p h).foldl (fun (a : List (Nat × Nat × Nat × Nat) × Nat) g => (a.1 ++ [(h, a.2, g.2.2, g.2.1)], a.2 + g.2.2)) ([], if h = 0 then 16384 else 0)).1

/-- R349, R358: a cut whose manifest is at hand is compared with its digests, and then staged or put in place. -/
def restoreChecked (s : State) (p : Nat) (r : Restore) (m : List Byte) (seqs : List (List Byte)) : State :=
  if !digestsOk m seqs then restoreFailed s p r (0x41, 0x87)
  else if r.reshard then restoreEnded (ckpStat (stageCut s seqs) p 0 0) p r
  else match mapRegions s p m with
    | none => restoreFailed s p r (0x40, 0x86)
    | some map => restoreApplied p r (applyCut s p map seqs)

/-- R349, R354: what comes of the bytes that a restore has read; without them it goes on waiting. A cut in the cofferdams has no manifest to be checked against. -/
def restoreRead (s : State) (p : Nat) (r : Restore) : Option (State × Option (List Byte) × List (List Byte) × Option (Nat × Nat)) → State
  | none => s
  | some (t, man, seqs, err) =>
    match err, man with
    | some e, _ => restoreFailed t p r e
    | none, some m => restoreChecked t p r m seqs
    | none, none => restoreApplied p r (applyCut t p ((List.range 2).flatMap (coffPlaces t p)) seqs)

section
variable {s : State} {p : Nat} {r : Restore} (hr : (ckpOf s p).rest = some r)
include hr

theorem exec_restoreLocalDone_waits (hwait : ckpPhase s p ≠ 6 ∨ r.local_ = true ∨ setWaits s p = true) : exec (.restoreLocalDone p) s = .next s := by
  show execRestoreLocalDone p s = _
  rw [execRestoreLocalDone, hr]
  exact next_ite_pos hwait

variable (hphase : ckpPhase s p = 6) (hlocal : r.local_ = false) (hnow : setWaits s p = false)
include hphase hlocal hnow

/-- R349: a restore that has already failed ends with that failure. -/
theorem exec_restoreLocalDone_failed {e : Nat × Nat} (hfail : r.fail = some e) : exec (.restoreLocalDone p) s = .next (restoreEnded s p r) := by
  show execRestoreLocalDone p s = _
  rw [execRestoreLocalDone, hr]
  refine (next_ite_neg (by simp [hphase, hlocal, hnow])).trans ?_
  rw [hfail]
  rfl

theorem exec_restoreLocalDone_reads (hfail : r.fail = none) : exec (.restoreLocalDone p) s = .next (restoreRead s p r (restRead s p r)) := by
  show execRestoreLocalDone p s = _
  rw [execRestoreLocalDone, hr]
  refine (next_ite_neg (by simp [hphase, hlocal, hnow])).trans ?_
  rw [hfail]
  rfl

end

section
variable {s : State} {p : Nat} {r : Restore} {m : List Byte} {seqs : List (List Byte)}

/-- R349: the digests are compared first. -/
theorem restoreChecked_of_differs (hdigest : digestsOk m seqs = false) : restoreChecked s p r m seqs = restoreFailed s p r (0x41, 0x87) :=
  if_pos (by simp [hdigest])

variable (hdigest : digestsOk m seqs = true)
include hdigest

theorem restoreChecked_of_reshard (hreshard : r.reshard = true) : restoreChecked s p r m seqs = restoreEnded (ckpStat (stageCut s seqs) p 0 0) p r := by
  rw [restoreChecked, if_neg (by simp [hdigest]), if_pos hreshard]

variable (hhere : r.reshard = false)
include hhere

theorem restoreChecked_of_unmatched (hmap : mapRegions s p m = none) : restoreChecked s p r m seqs = restoreFailed s p r (0x40, 0x86) := by
  rw [restoreChecked, if_neg (by simp [hdigest]), if_neg (by simp [hhere]), hmap]

theorem restoreChecked_of_matched {map : List (Nat × Nat × Nat × Nat)} (hmap : mapRegions s p m = some map) :
    restoreChecked s p r m seqs = restoreApplied p r (applyCut s p map seqs) := by
  rw [restoreChecked, if_neg (by simp [hdigest]), if_neg (by simp [hhere]), hmap]

end

/-- R351: a restore is over: its step is released and boundaries that waited are taken. -/
def restoreOver (s : State) (p : Nat) : State := stepFree (setCkp s p { ckpOf s p with rest := none }) p

/-- R351: a restore from the modules tries the other slot. -/
def secondTry (s : State) (p : Nat) (r : Restore) : State :=
  let r1 := { r with second := true, slot := 1 - r.slot, fail := none, local_ := false, cut := 0, step := 0 }
  beginModules (setPhase (setCkp s p { ckpOf s p with rest := some r1 }) p 6) p r1

section
variable {s : State} {p : Nat} {c : Coll} {r : Restore} (hvote : voteDone s p 2 = some c) (hr : (ckpOf s p).rest = some r)
include hvote hr

theorem exec_restoreVoteResult_waits (hwait : recordWaits s p = true) : exec (.restoreVoteResult p) s = .next s := by
  show execRestoreVoteResult p s = _
  simp only [execRestoreVoteResult, hvote, hr, hwait, if_true]

variable (hnow : recordWaits s p = false)
include hnow

theorem exec_restoreVoteResult_failed (hfail : 0x10 ≤ (collStatus s c).1) :
    exec (.restoreVoteResult p) s = .next (restoreOver (writeRelease (collEnd s c) p (collStatus s c).1 (collStatus s c).2 4 0) p) := by
  show execRestoreVoteResult p s = _
  simp only [execRestoreVoteResult, hvote, hr, hnow, hfail, Nat.not_lt.2 hfail, decide_false, Bool.false_and, false_and, Bool.false_eq_true, if_false, if_true,
    restoreOver, stepFree]

variable (hok : (collStatus s c).1 < 0x10)
include hok

/-- R351: every package holds one cut: the step is released with flag 4. -/
theorem exec_restoreVoteResult_whole (hwhole : voteSlot c 0 = 0 ∧ voteSlot c 1 = voteSlot c 2) :
    exec (.restoreVoteResult p) s = .next (restoreOver (writeRelease (collEnd s c) p 0 (if r.second then 0x89 else 0) 4 r.cut) p) := by
  show execRestoreVoteResult p s = _
  simp only [execRestoreVoteResult, hvote, hr, hnow, hok, hwhole, and_self, Bool.false_eq_true, if_false, if_true, restoreOver, stepFree]

variable (hbroken : ¬ (voteSlot c 0 = 0 ∧ voteSlot c 1 = voteSlot c 2))
include hbroken

theorem exec_restoreVoteResult_again (hmodules : r.source = 1) (hfirst : r.second = false) :
    exec (.restoreVoteResult p) s = .next (secondTry (collEnd s c) p r) := by
  show execRestoreVoteResult p s = _
  simp only [execRestoreVoteResult, hvote, hr, hnow, hok, hbroken, and_false, hmodules, hfirst, decide_true, beq_self_eq_true, Bool.not_false, Bool.and_self,
    Bool.false_eq_true, if_false, if_true, secondTry]

theorem exec_restoreVoteResult_broken (hlast : r.source ≠ 1 ∨ r.second = true) :
    exec (.restoreVoteResult p) s =
      .next (restoreOver (writeRelease (collEnd s c) p (r.fail.getD (0x40, 0x84)).1 (r.fail.getD (0x40, 0x84)).2 4 0) p) := by
  have hno : (decide ((collStatus s c).1 < 0x10) && r.source == 1 && !r.second) = false := by
    rcases hlast with hsource | hsecond
    · simp [hsource]
    · simp [hsecond]
  have hexec : exec (.restoreVoteResult p) s = execRestoreVoteResult p s := rfl
  cases hfail : r.fail <;>
    simp only [hexec, execRestoreVoteResult, hvote, hr, hnow, hbroken, hno, hfail, Nat.not_le.2 hok, and_false, Bool.false_eq_true, if_false,
      Option.getD_none, Option.getD_some, restoreOver, stepFree]

end

theorem restoresEnd : Sys2Proof.Parts.RestoresEnd := by
  constructor
  · intro s p r _ _ hr fin fail
    refine ⟨exec_restoreLocalDone_waits hr, fun hphase hlocal hnow => ⟨fun e => exec_restoreLocalDone_failed hr hphase hlocal hnow, ?_⟩⟩
    have hexec := exec_restoreLocalDone_reads hr hphase hlocal hnow
    refine ⟨fun hfail hread => ?_, fun t man seqs e hfail hread => ?_, fun t m seqs hfail hread => ?_, fun t u seqs err hfail hread => ?_⟩
    · rw [hexec hfail, hread]
      rfl
    · rw [hexec hfail, hread]
      rfl
    · have hcheck : exec (.restoreLocalDone p) s = .next (restoreChecked t p r m seqs) := by
        rw [hexec hfail, hread]
        rfl
      refine ⟨fun hdigest => hcheck.trans (congrArg _ (restoreChecked_of_differs hdigest)),
        fun hdigest hreshard => hcheck.trans (congrArg _ (restoreChecked_of_reshard hdigest hreshard)),
        fun hdigest hhere hmap => hcheck.trans (congrArg _ (restoreChecked_of_unmatched hdigest hhere hmap)),
        fun map u hdigest hhere hmap happly => ?_, fun map u e hdigest hhere hmap happly => ?_⟩
      · rw [hcheck, restoreChecked_of_matched hdigest hhere hmap, happly]
        rfl
      · rw [hcheck, restoreChecked_of_matched hdigest hhere hmap, happly]
        rfl
    · intro place happly
      have hplaces : (List.range 2).flatMap (coffPlaces t p) = place 0 ++ place 1 := congrArg (place 0 ++ ·) (List.append_nil (place 1))
      rw [hexec hfail, hread, restoreRead, hplaces, happly]
      cases err <;> rfl
  · intro s p c r _ _ hvote hr st s1 ended whole
    exact ⟨exec_restoreVoteResult_waits hvote hr, fun hnow => ⟨exec_restoreVoteResult_whole hvote hr hnow, exec_restoreVoteResult_again hvote hr hnow,
      exec_restoreVoteResult_broken hvote hr hnow, exec_restoreVoteResult_failed hvote hr hnow⟩⟩

/-- Settles O39: the copy, the seal and the local part of a restore by what each finds, the votes by the order of R344's and R351's tests. -/
theorem cutsDrainsRestores : Obligations.CutsDrainsRestores := ⟨cutCopies, drainSeals, restoresEnd⟩

end Sys2Proof.Machine
end

section
/-! Watches and summaries (R340, R341, R387, R390). -/

namespace Sys2Proof.Machine

section
variable {f : Nat → Bool} {s t : State}

/-- R329: a log record moves its partition's pointer alone. -/
theorem Leaves.logRec (ht : Leaves f s t) {part : Nat} (hptr : f (R.DSP_LOGPTR part) = true) (ty ctx : Nat) (detail payload : List Byte) :
    Leaves f s (logRec t part ty ctx detail payload) := by
  have htaken := ht.wr hptr (rd t (R.DSP_LOGPTR part) + 1)
  refine htaken.same (logRec_kept t part ty ctx detail payload (inv_kept ht.inv)).2 ?_
  unfold Machine.logRec logRecAt
  extract_lets base half seq u
  split <;> rfl

end

/-- Every register but that of the watch. -/
def offWatchStat (a : Nat) : Bool := a != R.CKP_WATCH_STAT

theorem offWatchStat_logPtr {p : Nat} (hp : p < 8) : offWatchStat (R.DSP_LOGPTR p) = true := by
  simp only [offWatchStat, bne_iff_ne, R.DSP_LOGPTR, R.CKP_WATCH_STAT]
  omega
theorem offWatchStat_ckpStat {p : Nat} (hp : p < 8) : offWatchStat (R.CKP_STAT p) = true := by
  simp only [offWatchStat, bne_iff_ne, R.CKP_STAT, R.CKP_WATCH_STAT]
  omega

/-- R341: a warning is recorded and counted. -/
def warnRecorded (s : State) (c : Nat) : State := addSat (wrf s R.CKP_WATCH_STAT c 1 1) R.CKP_WATCH_STAT 32 32 1

/-- R341: a warning goes to a valid partition's log, and triggers a cut where it asked for one. -/
def warnPartition (c : Nat) (s : State) (p : Nat) : State :=
  let t := if partValid s p then logRec s p 0x07 0xFFFF [] (leBytes 1 0x42 ++ leBytes 1 (0x8C + c)) else s
  if (rdf t R.CKP_WATCH 48 8).testBit p && ckpOn t p then setCause t p 2 else t

theorem watchWarn_eq_foldl (s : State) (c : Nat) : watchWarn s c = (List.range 8).foldl (warnPartition c) (warnRecorded s c) := rfl

theorem warnPartition_leaves {s t : State} (ht : Leaves offWatchStat s t) (c : Nat) {p : Nat} (hp : p < 8) : Leaves offWatchStat s (warnPartition c t p) := by
  unfold warnPartition
  extract_lets u
  have hlog : Leaves offWatchStat s u := by
    unfold u
    split
    · exact ht.logRec (offWatchStat_logPtr hp) _ _ _ _
    · exact ht
  split
  · exact hlog.wrf (offWatchStat_ckpStat hp) _ _ _
  · exact hlog

/-- R341: every cause that was crossed is shown. -/
theorem rdf_watchWarn {s : State} (h : s.Inv) {c : Nat} (hc : c < 4) : rdf (watchWarn s c) R.CKP_WATCH_STAT c 1 = 1 := by
  have hset := wrf_inv R.CKP_WATCH_STAT c 1 1 h
  have hrecorded : rdf (warnRecorded s c) R.CKP_WATCH_STAT c 1 = 1 := by
    rw [warnRecorded, addSat_eq_wrf, rdf_wrf_apart hset _ _ _ _ _ _ (by omega) (by omega), rdf_wrf_same h _ _ _ _ (by omega)]
    rfl
  have hinv : (warnRecorded s c).Inv := wrf_inv _ _ _ _ hset
  have hall : Leaves offWatchStat (warnRecorded s c) (watchWarn s c) := by
    rw [watchWarn_eq_foldl]
    exact List.foldlRecOn _ _ (Leaves.refl hinv) fun t ht p hp => warnPartition_leaves ht c (List.mem_range.1 hp)
  exact (rdf_of_rd (hall.rd_eq _ rfl) c 1).trans hrecorded

/-- R387: what each corrected count has risen by. -/
def ceRises (s : State) : List Nat := (List.range 5).map (fun i => nth (ceCounts s) i - nth s.ceBase i)

/-- R387, R390: a period ends without a record where no count has risen. -/
theorem exec_ceSummaryPeriod (s : State) : exec .ceSummaryPeriod s = .next (
    if s.ltc.toNat < s.ceAt + max 1 (rdf s R.BBX_CFG 0 16) * 1000000000 then s
    else
      let t : State := { s with ceAt := s.ltc.toNat, ceBase := ceCounts s }
      if (ceRises s).all (· == 0) then t
      else bbx t false 0x0A 0 0 0 ((List.range 5).flatMap (fun i =>
        leBytes 4 (if (ceSat s).getD i false = true then 0xFFFFFFFF else min 0xFFFFFFFF (nth (ceCounts s) i - nth s.ceBase i))))) := rfl

theorem noRise_iff (s : State) : (ceRises s).all (· == 0) = true ↔ ∀ i < 5, nth (ceCounts s) i ≤ nth s.ceBase i := by
  simp only [ceRises, List.all_map, List.all_eq_true, List.mem_range, Function.comp_apply, beq_iff_eq, Nat.sub_eq_zero_iff_le]

theorem watchAndSummaries : Sys2Proof.Parts.WatchAndSummaries := by
  intro s h
  refine ⟨fun hearly => next_ite_pos hearly, fun hdue => next_ite_neg (Nat.not_lt.2 hdue), fun c hc => rdf_watchWarn h hc,
    fun hearly => (exec_ceSummaryPeriod s).trans (next_ite_pos hearly), fun hdue hnone => ?_, fun i hi hdue hrise => ?_⟩
  · rw [exec_ceSummaryPeriod, if_neg (Nat.not_lt.2 hdue)]
    exact next_ite_pos ((noRise_iff s).2 hnone)
  · rw [exec_ceSummaryPeriod, if_neg (Nat.not_lt.2 hdue)]
    exact next_ite_neg fun hnone => Nat.not_lt.2 ((noRise_iff s).1 hnone i hi) hrise

end Sys2Proof.Machine
end

section
/-! The black box's registers, over Palale Link and as an I3C target (R388, R393, R395). -/

namespace Sys2Proof.Machine

/-- A bit set, and a bit cleared, as a mask does it. -/
theorem putf_bit_one (w : Word) {i : Nat} (hi : i < 64) : putf w i 1 1 = w ||| BitVec.ofNat 64 (2 ^ i) := by
  refine BitVec.eq_of_getLsbD_eq fun j hj => ?_
  rw [getLsbD_putf w i 1 1 j (by omega), BitVec.getLsbD_or, BitVec.getLsbD_ofNat, Nat.testBit_two_pow]
  by_cases hij : i = j
  · simp [hij, hj]
  · rw [if_neg (by omega)]
    simp [hij]
theorem putf_bit_zero (w : Word) {i : Nat} (hi : i < 64) : putf w i 1 0 = w &&& ~~~ BitVec.ofNat 64 (2 ^ i) := by
  refine BitVec.eq_of_getLsbD_eq fun j hj => ?_
  rw [getLsbD_putf w i 1 0 j (by omega), BitVec.getLsbD_and, BitVec.getLsbD_not, BitVec.getLsbD_ofNat, Nat.testBit_two_pow]
  by_cases hij : i = j
  · simp [hij]
  · rw [if_neg (by omega)]
    simp [hij, hj]

/-- R395: an address moves on by eight bytes and wraps; nothing else moves. -/
theorem mramRead_moves {s : State} (h : s.Inv) (a : Nat) : rdf (mramRead s a).1 a 3 20 = (rdf s a 3 20 + 1) % 2 ^ 20 ∧ (mramRead s a).1.mram = s.mram ∧
    ∀ b, b ≠ a → rd (mramRead s a).1 b = rd s b :=
  ⟨rdf_wrf_same h _ _ _ _ (by decide), rfl, fun _ hb => rd_wrf_ne h _ _ _ hb⟩

section
variable {s : State}

theorem exec_i3cPrivateWrite (bytes : List Byte) :
    exec (.i3cPrivateWrite bytes) s = .next (if i3cTarget s = true ∧ bytes.length = 8 then { s with i3cOff := leNat bytes } else s) := by
  show execI3cPrivateWrite bytes s = _
  by_cases htarget : i3cTarget s = true <;> by_cases hlen : bytes.length = 8 <;> simp [execI3cPrivateWrite, htarget, hlen]

theorem exec_i3cPrivateRead_absent (htarget : i3cTarget s = false) : exec .i3cPrivateRead s = .next s := next_ite_pos (by simp [htarget])

variable (htarget : i3cTarget s = true)
include htarget

theorem exec_i3cPrivateRead_plain (hin : s.i3cOff < 0x10000) (hnoti : R.BBX_STAT + s.i3cOff / 8 * 8 ≠ R.BBX_DATA_I) (hnoth : R.BBX_STAT + s.i3cOff / 8 * 8 ≠ R.BBX_DATA_H) :
    exec .i3cPrivateRead s = .next { s with tx := s.tx ++ [.i3c (leBytes 8 (rd s (R.BBX_STAT + s.i3cOff / 8 * 8)).toNat)] } := by
  show execI3cPrivateRead s = _
  simp only [execI3cPrivateRead, htarget, hnoti, hnoth, hin, Bool.not_true, Bool.false_eq_true, if_false, if_true]

/-- R395: either data register is read at its own address, which moves on. -/
theorem exec_i3cPrivateRead_data {d a : Nat} (hpair : (d, a) = (R.BBX_DATA_I, R.BBX_ADDR_I) ∨ (d, a) = (R.BBX_DATA_H, R.BBX_ADDR_H))
    (hoff : R.BBX_STAT + s.i3cOff / 8 * 8 = d) :
    exec .i3cPrivateRead s = .next { (mramRead s a).1 with tx := s.tx ++ [.i3c (leBytes 8 (mramRead s a).2.toNat)] } := by
  have hne : R.BBX_DATA_H ≠ R.BBX_DATA_I := by decide
  have hexec : exec .i3cPrivateRead s = execI3cPrivateRead s := rfl
  rcases hpair with hpair | hpair <;> obtain ⟨rfl, rfl⟩ := Prod.mk.inj hpair
  · simp only [hexec, execI3cPrivateRead, htarget, hoff, Bool.not_true, Bool.false_eq_true, if_false, if_true]
    rfl
  · simp only [hexec, execI3cPrivateRead, htarget, hoff, hne, Bool.not_true, Bool.false_eq_true, if_false, if_true]
    rfl

end

theorem blackBoxAccess : Sys2Proof.Parts.BlackBoxAccess := by
  intro s h
  obtain ⟨hmoveH, hmramH, hrestH⟩ := mramRead_moves h R.BBX_ADDR_H
  obtain ⟨hmoveI, hmramI, hrestI⟩ := mramRead_moves h R.BBX_ADDR_I
  refine ⟨⟨_, rfl, congrArg (wr s R.BBX_STAT) (putf_bit_one _ (by decide))⟩, ⟨_, rfl, congrArg (wr s R.BBX_STAT) (putf_bit_zero _ (by decide))⟩,
    ⟨_, rfl, hmoveH, hmramH, rfl, hrestH⟩, ⟨_, rfl, hmoveI, hmramI, rfl, hrestI⟩, fun bytes htarget hlen => ?_, fun bytes hno => ?_,
    exec_i3cPrivateRead_absent, exec_i3cPrivateRead_plain, fun d a hpair htarget hoff => exec_i3cPrivateRead_data htarget hpair hoff⟩
  · rw [exec_i3cPrivateWrite, if_pos ⟨htarget, hlen⟩]
  · rw [exec_i3cPrivateWrite, if_neg]
    rintro ⟨htarget, hlen⟩
    simp [htarget, hlen] at hno

end Sys2Proof.Machine
end

section
/-! The EVT pins (R291, R338, R393, R397, R436). -/

namespace Sys2Proof.Machine

/-- R397: what a granted write leaves in a pin's register: the function, twice, the owner's side and the counter. -/
def evtWord (func side ctr : Nat) : Word := BitVec.ofNat 64 (func + func <<< 2 + side <<< 4 + ctr <<< 8)

section
variable {func side ctr : Nat} (hfunc : func < 4) (hside : side < 2) (hctr : ctr < 2048)
include hfunc hside hctr

theorem toNat_evtWord : (evtWord func side ctr).toNat = func + func * 4 + side * 16 + ctr * 256 := by
  simp only [evtWord, Nat.shiftLeft_eq, BitVec.toNat_ofNat]
  omega

theorem fld_evtWord : fld (evtWord func side ctr) 0 2 = func ∧ fld (evtWord func side ctr) 2 2 = func ∧ fld (evtWord func side ctr) 4 1 = side ∧
    fld (evtWord func side ctr) 8 11 = ctr := by
  simp only [fld_eq_div_mod, toNat_evtWord hfunc hside hctr, Nat.reducePow]
  interval_cases func <;> omega

end

/-- R397: the side whose claim it is. -/
def evtSide (i3c : Bool) : Nat := if i3c then 1 else 0

theorem evtSide_lt (i3c : Bool) : evtSide i3c < 2 := by cases i3c <;> decide

/-- R397: the pin is held by the side that writes. -/
def EvtMine (s : State) (n : Nat) (i3c : Bool) : Prop := rdf s (R.BBX_EVT n) 2 2 ≠ 0 ∧ rdf s (R.BBX_EVT n) 4 1 = evtSide i3c

theorem evtMine_iff (s : State) (n : Nat) (i3c : Bool) :
    (fld (rd s (R.BBX_EVT n)) 2 2 != 0 && (fld (rd s (R.BBX_EVT n)) 4 1 == 1) == i3c) = true ↔ EvtMine s n i3c := by
  have hbit : fld (rd s (R.BBX_EVT n)) 4 1 < 2 := Nat.mod_lt _ (by decide)
  have hside : ((fld (rd s (R.BBX_EVT n)) 4 1 == 1) == i3c) = true ↔ fld (rd s (R.BBX_EVT n)) 4 1 = evtSide i3c := by
    generalize fld (rd s (R.BBX_EVT n)) 4 1 = b at hbit
    interval_cases b <;> cases i3c <;> decide
  rw [Bool.and_eq_true, hside, bne_iff_ne]
  rfl

section
variable {s : State} {n func : Nat} {v : Word} {i3c : Bool} (hn : n < 4) (hv : fld v 0 2 = func)
include hn hv

/-- R397: a free pin, or its owner's own, is granted. -/
theorem evtWrite_granted (hown : rdf s (R.BBX_EVT n) 2 2 = 0 ∨ (EvtMine s n i3c ∧ (func = rdf s (R.BBX_EVT n) 2 2 ∨ func = 0))) :
    evtWrite s n func v i3c = wr s (R.BBX_EVT n) (evtWord func (if i3c ∧ func ≠ 0 then 1 else 0) (fld v 8 11)) := by
  rw [← evtMine_iff] at hown
  refine (if_neg (by simp [hv, hn])).trans (if_pos ?_)
  simp only [Bool.or_eq_true, Bool.and_eq_true, decide_eq_true_eq] at hown ⊢
  exact hown

theorem evtWrite_refused (hheld : rdf s (R.BBX_EVT n) 2 2 ≠ 0) (hother : ¬ (EvtMine s n i3c ∧ (func = rdf s (R.BBX_EVT n) 2 2 ∨ func = 0))) :
    evtWrite s n func v i3c = evtRefuse s n func := by
  rw [← evtMine_iff] at hother
  refine (if_neg (by simp [hv, hn])).trans (if_neg ?_)
  simp only [Bool.or_eq_true, Bool.and_eq_true, decide_eq_true_eq] at hother ⊢
  exact fun hgrant => hgrant.elim hheld hother

end

/-- R397: the commands are the writes of a pin's register, one for each function. -/
theorem evtClaims {c : Nat → Word → Bool → Instr} {f : Nat} (hc : (c, f) = (Instr.evtClaimTriggerIn, 1) ∨ (c, f) = (Instr.evtClaimFreezeOut, 2))
    (n : Nat) (v : Word) (i3c : Bool) (s : State) : exec (c n v i3c) s = .next (evtWrite s n f v i3c) ∧ f < 4 ∧ f ≠ 0 := by
  rcases hc with hc | hc <;> obtain ⟨rfl, rfl⟩ := Prod.mk.inj hc <;> exact ⟨rfl, by decide, by decide⟩

section
variable {s : State} (h : s.Inv) (n : Nat) {func : Nat} (hfunc : func < 4) (v : Word) (i3c : Bool)
include h hfunc

/-- R397: the pin's register after a grant, and every other. -/
theorem granted_reads (hclaim : func ≠ 0) :
    let u := wr s (R.BBX_EVT n) (evtWord func (if i3c ∧ func ≠ 0 then 1 else 0) (fld v 8 11))
    rdf u (R.BBX_EVT n) 2 2 = func ∧ rdf u (R.BBX_EVT n) 0 2 = func ∧ rdf u (R.BBX_EVT n) 4 1 = evtSide i3c ∧ rdf u (R.BBX_EVT n) 8 11 = fld v 8 11 ∧
      (∀ a, a ≠ R.BBX_EVT n → rd u a = rd s a) ∧ u.mem = s.mem := by
  have hside : (if i3c ∧ func ≠ 0 then 1 else 0) = evtSide i3c := by simp [evtSide, hclaim]
  obtain ⟨hfn, hown, hby, hctr⟩ := fld_evtWord hfunc (evtSide_lt i3c) (Nat.mod_lt (v.toNat >>> 8) (by decide : 0 < 2 ^ 11))
  simp only [hside, rdf, rd_wr_same h]
  exact ⟨hown, hfn, hby, hctr, fun _ ha => rd_wr_ne h _ ha, rfl⟩

end

/-- R397: a released pin has no function and no owner. -/
theorem released_reads {s : State} (h : s.Inv) (n : Nat) (v : Word) (i3c : Bool) :
    let u := wr s (R.BBX_EVT n) (evtWord 0 (if i3c ∧ 0 ≠ 0 then 1 else 0) (fld v 8 11))
    rdf u (R.BBX_EVT n) 2 2 = 0 ∧ ∀ a, a ≠ R.BBX_EVT n → rd u a = rd s a := by
  have hside : (if i3c ∧ 0 ≠ 0 then 1 else 0) = 0 := by simp
  obtain ⟨-, hown, -, -⟩ := fld_evtWord (func := 0) (side := 0) (by decide) (by decide) (Nat.mod_lt (v.toNat >>> 8) (by decide : 0 < 2 ^ 11))
  simp only [hside, rdf, rd_wr_same h]
  exact ⟨hown, fun _ ha => rd_wr_ne h _ ha⟩

section
variable {s : State} {n : Nat} (hn : n < 4)
include hn

theorem exec_evtTriggerEdge : exec (.evtTriggerEdge n) s =
    .next (if rdf s (R.BBX_EVT n) 2 2 = 1 then counterAdd s (rdf s (R.BBX_EVT n) 8 11) 1 else s) := by
  show execEvtTriggerEdge n s = _
  simp [execEvtTriggerEdge, hn]

theorem exec_evtFreezeEdge : exec (.evtFreezeEdge n) s =
    .next (if rdf s (R.BBX_EVT n) 2 2 = 2 ∧ ¬ rdf s R.BBX_STAT 16 1 = 1 then freezeRing s else s) :=
  congrArg _ (if_congr (by simp [hn, ← Bool.not_eq_true, bitw_iff_fld, rdf]) rfl rfl)

end

theorem eventPins : Sys2Proof.Parts.EventPins := by
  intro s n v i3c h hn own mine
  refine ⟨fun c f hc hv => ?_, fun hv hfree => ?_, fun hv hheld hother => ?_, fun hown => ?_, fun hown => ?_, fun hown hthaw => ?_, fun hno => ?_⟩
  · obtain ⟨hexec, hf, hclaim⟩ := evtClaims hc n v i3c s
    refine ⟨fun hfree => ⟨_, ?_, granted_reads h n hf v i3c hclaim⟩, fun hheld hother => ?_⟩
    · rw [hexec, evtWrite_granted hn hv (hfree.imp id fun ⟨hmine, hsame⟩ => ⟨hmine, .inl hsame.symm⟩)]
    · rw [hexec, evtWrite_refused hn hv hheld]
      rintro ⟨hmine, hsame | hnone⟩
      · exact hother.elim (fun hne => hne hsame.symm) (fun hnot => hnot hmine)
      · exact hclaim hnone
  · refine ⟨_, ?_, released_reads h n v i3c⟩
    exact congrArg _ (evtWrite_granted hn hv (hfree.imp id fun hmine => ⟨hmine, .inr rfl⟩))
  · exact congrArg _ (evtWrite_refused hn hv hheld fun hgrant => hother hgrant.1)
  · rw [exec_evtTriggerEdge hn, if_pos hown]
  · rw [exec_evtTriggerEdge hn, if_neg hown]
  · rw [exec_evtFreezeEdge hn, if_pos ⟨hown, by simp [hthaw]⟩]
  · rw [exec_evtFreezeEdge hn, if_neg fun hedge => hno.elim (fun hne => hne hedge.1) hedge.2]

/-- Settles O54: watches by what a warning leaves of its register, summaries by whether a count has risen, the black box and the pins by the writes that each access makes.
That an I3C read of BBX_DATA_H returns and moves the host's pair is the model's reading (log 39). -/
theorem recordsAndPins : Obligations.RecordsAndPins := ⟨watchAndSummaries, blackBoxAccess, eventPins⟩

end Sys2Proof.Machine
end

section
/-! Key slots (R372, R381): what a LOAD leaves of the keys that the slots hold, and a state in which a slot's key is listed more than once. -/

namespace Sys2Proof.Machine

/-- Bytes are those of the number that they spell. -/
theorem leBytes_leNat (bs : List Byte) : leBytes bs.length (leNat bs) = bs := by
  induction bs with
  | nil => rfl
  | cons b bs ih =>
    have hb := b.isLt
    have hlow : BitVec.ofNat 8 (b.toNat + 256 * leNat bs) = b := BitVec.eq_of_toNat_eq (by rw [BitVec.toNat_ofNat]; omega)
    rw [List.length_cons, leNat, leBytes, hlow, show (b.toNat + 256 * leNat bs) / 256 = leNat bs by omega, ih]

/-- A word that holds eight bytes gives them back. -/
theorem leBytes_wordOf {bs : List Byte} (hlen : bs.length = 8) : leBytes 8 (BitVec.ofNat 64 (leNat bs)).toNat = bs := by
  have hlt := leNat_lt bs
  rw [hlen] at hlt
  rw [BitVec.toNat_ofNat, Nat.mod_eq_of_lt hlt, ← hlen, leBytes_leNat]

theorem regBytes_congr {s t : State} {a n : Nat} (h : ∀ w < n, rd t (a + 8 * w) = rd s (a + 8 * w)) : regBytes t a n = regBytes s a n :=
  List.flatMap_congr fun w hw => by rw [h w (List.mem_range.1 hw)]

/-- R372: the registers of a slot that forgetting its key moves: its control word and its public key. -/
def slotReg0 (k a : Nat) : Bool := a == R.SEC_KSLOT k 0 || R.SEC_KSLOT k 13 ≤ a && a < R.SEC_KSLOT k 16

theorem dropSlot_leaves {s : State} (h : s.Inv) (k : Nat) : Leaves (slotReg0 k) s (dropSlot s k) := by
  have hword : ∀ w < 3, slotReg0 k (R.SEC_KSLOT k (13 + w)) = true := fun w hw => by
    have hin : R.SEC_KSLOT k 13 ≤ R.SEC_KSLOT k (13 + w) ∧ R.SEC_KSLOT k (13 + w) < R.SEC_KSLOT k 16 := by
      unfold R.SEC_KSLOT
      omega
    simp [slotReg0, hin]
  have hkeys : Leaves (slotReg0 k) s { s with slotKeys := sset 0 s.slotKeys k 0 } := (Leaves.refl h).same h rfl
  exact (((hkeys.wr (hword 0 (by decide)) 0).wr (hword 1 (by decide)) 0).wr (hword 2 (by decide)) 0).wrf (by simp [slotReg0]) 63 1 0

/-- R372: a slot whose control word has been written with LOAD, before its key is unwrapped. -/
def slotEmptied (s : State) (k : Nat) (v : Word) : State := wrf (wr (dropSlot s k) (R.SEC_KSLOT k 0) (v &&& 0x73)) (R.SEC_KSLOT k 0) 63 1 0

theorem slotEmptied_leaves {s : State} (h : s.Inv) (k : Nat) (v : Word) : Leaves (slotReg0 k) s (slotEmptied s k v) := by
  have hctl : slotReg0 k (R.SEC_KSLOT k 0) = true := by simp [slotReg0]
  exact ((dropSlot_leaves h k).wr hctl _).wrf hctl 63 1 0

/-- R372: a partition keeps one slot of a kind: the older one is dropped. -/
def olderDropped (s : State) (part kind : Nat) : State := (keySlot s part kind).elim s (dropSlot s)

theorem slotKeys_olderDropped (s : State) (part kind : Nat) :
    (olderDropped s part kind).slotKeys = (keySlot s part kind).elim s.slotKeys fun k => sset 0 s.slotKeys k 0 := by
  unfold olderDropped
  cases keySlot s part kind <;> rfl

/-- R372: a slot takes its key and is valid. -/
def slotFilled (s : State) (k key : Nat) : State := wrf { s with slotKeys := sset 0 s.slotKeys k key } (R.SEC_KSLOT k 0) 63 1 1

theorem exec_secKslotLoad_opened {s : State} {k : Nat} {v : Word} {z : SessionKeys} {key : Nat} (h : s.Inv) (hk : k < 32) (hload : bitw v 62 = true)
    (hz : s.session = some z) (hstat : rdf s R.SEC_STAT 1 1 = 1) (hkind : fld v 0 2 ≠ 0) (hpair : fld v 0 2 ≠ 3)
    (hopen : unwrapSlot (slotEmptied s k v) z.wrap k (fld v 0 2) (fld v 4 3) = some key) :
    exec (.secKslotLoad k v) s = .next (slotFilled (olderDropped (slotEmptied s k v) (fld v 4 3) (fld v 0 2)) k key) := by
  have hstat1 : rdf (slotEmptied s k v) R.SEC_STAT 1 1 ≠ 0 := by
    have hout : slotReg0 k R.SEC_STAT = false := by
      simp [slotReg0, R.SEC_KSLOT, R.SEC_STAT]
      omega
    rw [rdf_of_rd ((slotEmptied_leaves h k v).rd_eq _ hout), hstat]
    decide
  have hsession : (slotEmptied s k v).session = some z := hz
  show execSecKslotLoad k v s = _
  refine (next_ite_neg (by simp [hk, hload])).trans ?_
  extract_lets e kind part t
  have hold : t = olderDropped e part kind := by
    unfold t olderDropped
    cases keySlot e part kind <;> rfl
  change e.session = some z at hsession
  change rdf e R.SEC_STAT 1 1 ≠ 0 at hstat1
  change unwrapSlot e z.wrap k kind part = some key at hopen
  change _ = Host.Outcome.next (slotFilled (olderDropped e part kind) k key)
  clear_value e t
  simp only [hsession, if_neg hstat1, show ¬ kind = 0 from hkind, show ¬ kind = 3 from hpair, if_false, hopen, hold]
  rfl

end Sys2Proof.Machine

namespace Sys2Proof.Tests
open Sys2Proof.Machine

/-- The bytes that AES-256-GCM under the zero key and the zero IV opens to 32 zero bytes. -/
def zeroSealed : List Byte := [7956559051536508878, 1773841811996233223, 8370685615964119154, 10247103629130834641].flatMap (leBytes 8)

theorem zeroSealed_opens : gcmText (leBytes 32 0) (List.replicate 12 0) zeroSealed = List.replicate 32 0 := by decide +kernel

/-- Their tag, with the authenticated data of a key of KIND 1 of partition 0 in slot 0. -/
def zeroTag : List Byte := gcmTag (leBytes 32 0) (List.replicate 12 0) (Config.wrapAad 1 0 0) zeroSealed

theorem length_zeroTag : zeroTag.length = 16 := by
  have hpad : (aesEnc (aesKeys (leBytes 32 0)) (List.replicate 12 0 ++ beBytes 4 1)).length = 16 := by decide +kernel
  rw [zeroTag, gcmTag, xorBytes, List.length_zipWith, hpad, beBytes, List.length_reverse, length_leBytes]
  rfl

/-- A package with a session, and words 3 to 6 of key slot 0 the sealed zero key. -/
def sealedState : State :=
  wr (wr (wr (wr (wr upState R.SEC_STAT 2) (R.SEC_KSLOT 0 3) 7956559051536508878) (R.SEC_KSLOT 0 4) 1773841811996233223) (R.SEC_KSLOT 0 5) 8370685615964119154)
    (R.SEC_KSLOT 0 6) 10247103629130834641

theorem sealedState_inv : sealedState.Inv := wr_inv _ _ (wr_inv _ _ (wr_inv _ _ (wr_inv _ _ (wr_inv _ _ upState_inv))))

/-- The same with the tag in words 11 and 12. -/
def taggedState : State :=
  wr (wr sealedState (R.SEC_KSLOT 0 11) (BitVec.ofNat 64 (leNat (zeroTag.take 8)))) (R.SEC_KSLOT 0 12) (BitVec.ofNat 64 (leNat (zeroTag.drop 8)))

theorem taggedState_inv : taggedState.Inv := by
  unfold taggedState
  exact wr_inv _ _ (wr_inv _ _ sealedState_inv)

/-- The same with the key of slot 0 listed four times: the invariant does not ask `slotKeys` for its canonical form. -/
def keyedState : State := { taggedState with session := some ⟨0, 0, 0⟩, slotKeys := [(0, 1), (0, 2), (0, 3), (0, 4)] }

theorem inv_of_keys {s : State} (h : s.Inv) (z : Option SessionKeys) (keys : Sparse Nat) : State.Inv { s with session := z, slotKeys := keys } := h

theorem keyedState_inv : keyedState.Inv := by
  unfold keyedState
  exact inv_of_keys taggedState_inv _ _

theorem keyedState_regs : keyedState.regs = taggedState.regs := rfl

theorem keyedState_leaves : Leaves (fun a => a == R.SEC_KSLOT 0 11 || a == R.SEC_KSLOT 0 12) sealedState keyedState := by
  refine Leaves.same (t := taggedState) ?_ keyedState_inv keyedState_regs
  unfold taggedState
  exact ((Leaves.refl sealedState_inv).wr (by decide) _).wr (by decide) _

/-- LOAD of a key of KIND 1 of partition 0. -/
def loadWord : Word := 0x4000000000000001

theorem rd_emptied {a : Nat} (h : slotReg0 0 a = false) : rd (slotEmptied keyedState 0 loadWord) a = rd keyedState a := (slotEmptied_leaves keyedState_inv 0 loadWord).rd_eq a h

/-- The registers of slot 0 but its tag's are those of `sealedState`. -/
theorem regBytes_sealed {w n : Nat} (hw : 1 ≤ w) (hn : w + n ≤ 11) :
    regBytes (slotEmptied keyedState 0 loadWord) (R.SEC_KSLOT 0 w) n = regBytes sealedState (R.SEC_KSLOT 0 w) n := by
  refine regBytes_congr fun i hi => ?_
  have haddr : R.SEC_KSLOT 0 w + 8 * i = R.SEC_KSLOT 0 (w + i) := by
    unfold R.SEC_KSLOT
    omega
  rw [haddr, rd_emptied, keyedState_leaves.rd_eq]
  · simp only [R.SEC_KSLOT, Bool.or_eq_false_iff, beq_eq_false_iff_ne]
    omega
  · simp [slotReg0, R.SEC_KSLOT]
    omega

theorem regBytes_tag : regBytes (slotEmptied keyedState 0 loadWord) (R.SEC_KSLOT 0 11) 2 = zeroTag := by
  have hlow : rd keyedState (R.SEC_KSLOT 0 11) = BitVec.ofNat 64 (leNat (zeroTag.take 8)) := by
    rw [rd_of_regs keyedState_regs, taggedState]
    exact (rd_wr_ne (wr_inv _ _ sealedState_inv) _ (by decide)).trans (rd_wr_same sealedState_inv _ _)
  have hhigh : rd keyedState (R.SEC_KSLOT 0 12) = BitVec.ofNat 64 (leNat (zeroTag.drop 8)) := by
    rw [rd_of_regs keyedState_regs, taggedState]
    exact rd_wr_same (wr_inv _ _ sealedState_inv) _ _
  have hwords : regBytes (slotEmptied keyedState 0 loadWord) (R.SEC_KSLOT 0 11) 2 =
      leBytes 8 (rd (slotEmptied keyedState 0 loadWord) (R.SEC_KSLOT 0 11)).toNat ++ leBytes 8 (rd (slotEmptied keyedState 0 loadWord) (R.SEC_KSLOT 0 12)).toNat := by
    simp [regBytes, List.range_succ, R.SEC_KSLOT]
  have hlen := length_zeroTag
  rw [hwords, rd_emptied (by decide), rd_emptied (by decide), hlow, hhigh, leBytes_wordOf (by simp [hlen]), leBytes_wordOf (by simp [hlen]), List.take_append_drop]

/-- R372: the slot opens to the key 0. -/
theorem keyedState_opens : unwrapSlot (slotEmptied keyedState 0 loadWord) 0 0 1 0 = some 0 := by
  have hiv : (regBytes sealedState (R.SEC_KSLOT 0 1) 2).take 12 = List.replicate 12 0 := by decide +kernel
  have htext : (regBytes sealedState (R.SEC_KSLOT 0 3) 8).take 32 = zeroSealed := by decide +kernel
  have hopen : gcmOpen (leBytes 32 0) (List.replicate 12 0) (Config.wrapAad 1 0 0) zeroSealed zeroTag = some (List.replicate 32 0) := by
    rw [gcmOpen, zeroTag, if_pos rfl, zeroSealed_opens]
  rw [unwrapSlot, regBytes_tag, regBytes_sealed (by decide) (by decide), regBytes_sealed (by decide) (by decide)]
  change (gcmOpen (leBytes 32 0) ((regBytes sealedState (R.SEC_KSLOT 0 1) 2).take 12) (Config.wrapAad 1 0 0)
    ((regBytes sealedState (R.SEC_KSLOT 0 3) 8).take 32) zeroTag).map leNat = some 0
  rw [hiv, htext, hopen]
  rfl

/-- Whatever older slot is dropped, slot 0 still lists a key. -/
theorem slotKeys_listed (o : Option Nat) : sget 0 (sset 0 (o.elim [(0, 2), (0, 3), (0, 4)] fun k => sset 0 [(0, 2), (0, 3), (0, 4)] k 0) 0 0) 0 ≠ 0 := by
  rcases o with _ | _ | k
  · decide
  · decide
  · simp [sset, sget]

end Sys2Proof.Tests

namespace Sys2Proof.Machine
open Sys2Proof.Tests

/-- Refutes O55: the invariant leaves the keys of the slots (`slotKeys`) out of its canonical forms. In `keyedState` the key of slot 0 is listed more than once, and the slot's words unwrap to the key 0, which is what an unlisted slot reads as: the LOAD removes entries, and a stale key is then read.
That the newer slot takes the older's place is the model's reading (log 51). -/
theorem not_keysAndMeasurement : ¬ Obligations.KeysAndMeasurement := by
  unfold Obligations.KeysAndMeasurement
  rintro ⟨-, hslots⟩
  obtain ⟨-, hload⟩ := hslots keyedState 0 loadWord keyedState_inv (by decide)
  obtain ⟨-, -, -, hopened⟩ := hload (by decide)
  have hstat : rdf keyedState R.SEC_STAT 1 1 = 1 := (rdf_of_rd (keyedState_leaves.rd_eq _ (by decide)) 1 1).trans (by decide +kernel)
  obtain ⟨u, hu, -, -, -, hkey, -⟩ := hopened ⟨0, 0, 0⟩ 0 rfl hstat (by decide) keyedState_opens
  rw [exec_secKslotLoad_opened keyedState_inv (by decide) (by decide) rfl hstat (by decide) (by decide) keyedState_opens] at hu
  rw [← Host.Outcome.next.inj hu] at hkey
  have hheld : (slotEmptied keyedState 0 loadWord).slotKeys = [(0, 2), (0, 3), (0, 4)] := rfl
  have holder : (olderDropped (slotEmptied keyedState 0 loadWord) 0 1).slotKeys =
      (keySlot (slotEmptied keyedState 0 loadWord) 0 1).elim [(0, 2), (0, 3), (0, 4)] fun k => sset 0 [(0, 2), (0, 3), (0, 4)] k 0 := by
    rw [slotKeys_olderDropped, hheld]
  exact slotKeys_listed (keySlot (slotEmptied keyedState 0 loadWord) 0 1) (holder ▸ hkey)

end Sys2Proof.Machine
end


section
/-! Sessions with the host (R368, R370, R371, R381). -/

namespace Sys2Proof.Machine

theorem exec_secCmdAdmit_of_none {s : State} (heph : s.eph = none) : exec .secCmdAdmit s = .next s := by
  show execSecCmdAdmit s = _
  rw [execSecCmdAdmit, heph]

/-- R370: the secret that a report's key shares with the host's. -/
def sharedSecret (s : State) (k : BitVec 256) : BitVec 256 := x25519 k (BitVec.ofNat 256 (leNat (regBytes s (R.SEC_PEER 0) 4)))

theorem exec_secCmdAdmit_of_some {s : State} {k : BitVec 256} (heph : s.eph = some k) : exec .secCmdAdmit s = .next (if sharedSecret s k = 0 then secErr s 0x11 0xA5
    else { s with eph := none, admitting := some (sessionKeys s (sharedSecret s k)) }) := by
  show execSecCmdAdmit s = _
  rw [execSecCmdAdmit, heph]
  rfl

/-- R368: a report has been drawn up and sent. -/
def reported (s : State) : State :=
  let r := buildReport { s with free := s.free + 1 } (Config.freeBits 256 s.free)
  { s with free := s.free + 1, eph := some (Config.freeBits 256 s.free), report := r, tx := s.tx ++ [.host (rdf s R.SEC_RADDR 6 46 * 64) r] }

theorem exec_secCmdReport (s : State) : exec .secCmdReport s = .next (wrf (reported s) R.SEC_STAT 2 1 1) := rfl

theorem reported_inv {s : State} (h : s.Inv) : (reported s).Inv := h

theorem exec_keyswitch_of_none {s : State} (hadmit : s.admitting = none) : exec .keyswitch s = .next s := by
  show execKeyswitch s = _
  rw [execKeyswitch, hadmit]

/-- R371: KEYSWITCH leaves on both ports. -/
def switched (s : State) (k : SessionKeys) : State := { s with session := some k, admitting := none, tx := s.tx ++ [.keyswitch, .keyswitch] }

theorem exec_keyswitch_of_some {s : State} {k : SessionKeys} (hadmit : s.admitting = some k) :
    exec .keyswitch s = .next (bbx (wrf (switched s k) R.SEC_STAT 1 1 1) false 0x09 0 0 0 (leBytes 1 6)) := by
  show execKeyswitch s = _
  rw [execKeyswitch, hadmit]
  rfl

/-- R371: what a session is, and what it sends. -/
def sessionOf (s : State) : Option SessionKeys × Option SessionKeys × List Tx × List Host.Cell × Sparse Nat := (s.session, s.admitting, s.tx, s.mem, s.slotKeys)

/-- R371: the session is in force. -/
theorem keyswitch_inForce {s : State} (h : s.Inv) {k : SessionKeys} (hadmit : s.admitting = some k) : ∃ u, exec .keyswitch s = .next u ∧ u.session = some k ∧
    u.admitting = none ∧ rdf u R.SEC_STAT 1 1 = 1 ∧ u.tx = s.tx ++ [.keyswitch, .keyswitch] ∧ u.mem = s.mem ∧ u.slotKeys = s.slotKeys := by
  have hswitched : (switched s k).Inv := h
  have hset := wrf_inv R.SEC_STAT 1 1 1 hswitched
  have hreads := bbx_reads sessionOf (fun _ _ _ => rfl) (fun _ _ _ => rfl) (fun _ _ => rfl) (wrf (switched s k) R.SEC_STAT 1 1 1) false 0x09 0 0 0 (leBytes 1 6)
  simp only [sessionOf, Prod.mk.injEq] at hreads
  obtain ⟨hsession, hpending, htx, hmem, hkeys⟩ := hreads
  refine ⟨_, exec_keyswitch_of_some hadmit, hsession, hpending, ?_, htx, hmem, hkeys⟩
  rw [rdf_of_rd ((bbx_leaves hset ..).rd_eq _ rfl), rdf_wrf_same hswitched _ _ _ _ (by decide)]
  rfl

theorem sessions : Sys2Proof.Parts.Sessions := by
  intro s h
  have hreported := reported_inv h
  have hended : State.Inv { s with session := none, admitting := none } := h
  refine ⟨⟨_, exec_secCmdReport s, rfl, rfl, rfl, ?_, fun a ha => rd_wrf_ne hreported _ _ _ ha, rfl⟩, exec_secCmdAdmit_of_none,
    fun k heph => ⟨fun hz => ?_, fun hz => ?_⟩, exec_keyswitch_of_none, fun k => keyswitch_inForce h,
    ⟨_, rfl, rfl, rfl, ?_, rfl, fun a ha => rd_wrf_ne hended _ _ _ ha, rfl⟩⟩
  · exact rdf_wrf_same hreported _ _ _ _ (by decide)
  · exact (exec_secCmdAdmit_of_some heph).trans (next_ite_pos hz)
  · exact (exec_secCmdAdmit_of_some heph).trans (next_ite_neg hz)
  · exact rdf_wrf_same hended _ _ _ _ (by decide)

end Sys2Proof.Machine
end

section
/-! Release and scrub of a partition (R378-R380, R398). -/

namespace Sys2Proof.Machine

theorem foldl_reads {α β : Type} (q : State → β) {f : State → α → State} (hf : ∀ s x, q (f s x) = q s) (l : List α) : ∀ s, q (l.foldl f s) = q s := by
  induction l with
  | nil => exact fun _ => rfl
  | cons x l ih => exact fun s => (ih _).trans (hf s x)

theorem ite_reads {β : Type} (q : State → β) {c : Prop} [Decidable c] {t u : State} {b : β} (ht : q t = b) (hu : q u = b) : q (if c then t else u) = b := by
  split
  · exact ht
  · exact hu

theorem bitw_eq_false_iff (w : Word) (i : Nat) : bitw w i = false ↔ fld w i 1 = 0 := by
  have hlt : fld w i 1 < 2 := Nat.mod_lt _ (by decide)
  rw [← Bool.not_eq_true, bitw_iff_fld]
  omega

/-- R378: a release is refused. -/
def releaseRefused (s : State) (p sub : Nat) : State :=
  conflict (secErr s 0x30 sub) 0 p p p (some p) (rd (secErr s 0x30 sub) R.SEC_CFG_ERR)

/-- R379: what a partition holds in a half. -/
def heldIn (s : State) (h p : Nat) : Word := if bitw (rd s (R.MEM_PART_CFG h p)) 63 then rd s (R.MEM_PART_CFG h p) else 0

/-- R347: the partition's drain, if one runs, is stopped. -/
def drainStopped (s : State) (p : Nat) : State := if (ckpOf s p).drain.isSome then stopDrain s p 0 0 else s

/-- R379: the scrub of a partition that starts now. -/
def scrubOf (s : State) (p : Nat) : Scrub := ⟨p, s.ltc.toNat, heldIn s 0 p, heldIn s 1 p⟩

/-- R378, R379: the partition has left the fabric and both halves. -/
def partitionLeft (s : State) (p : Nat) : State :=
  wrf (wrf (wrf (bbx s false 0x09 0 0 0 (leBytes 1 3 ++ leBytes 1 p ++ leBytes 2 0 ++ leBytes 4 (rdf s R.SEC_SCRUB 32 32)))
    (R.SCF_DOMAIN p) 63 1 0) (R.MEM_PART_CFG 0 p) 63 1 0) (R.MEM_PART_CFG 1 p) 63 1 0

theorem stopDrain_only {s : State} (h : s.Inv) (p st sub : Nat) : Leaves (onlyReg (R.CKP_STAT p)) s (stopDrain s p st sub) := by
  have hover : Leaves (onlyReg (R.CKP_STAT p)) s (setCkp s p { ckpOf s p with drain := none }) := (Leaves.refl h).same (setCkp_inv h _ _) rfl
  have hstat : Leaves (onlyReg (R.CKP_STAT p)) s (ckpStat (setCkp s p { ckpOf s p with drain := none }) p st sub) := hover.wrf (onlyReg_self _) 8 16 _
  unfold stopDrain
  dsimp only
  split
  · exact hstat.wrf (onlyReg_self _) 0 4 0
  · exact hstat

theorem drainStopped_only {s : State} (h : s.Inv) (p : Nat) : Leaves (onlyReg (R.CKP_STAT p)) s (drainStopped s p) := by
  unfold drainStopped
  split
  · exact stopDrain_only h p 0 0
  · exact .refl h

/-- R30, R379: the time, and the scrubs that are under way. -/
def scrubClock (s : State) : Word × List Scrub := (s.ltc, s.scrubs)

theorem scrubClock_drainStopped (s : State) (p : Nat) : scrubClock (drainStopped s p) = scrubClock s := by
  refine ite_reads scrubClock ?_ rfl
  unfold stopDrain
  exact ite_reads scrubClock rfl rfl

/-- R379: what the clearing of memory leaves alone: the registers, and the scrubs that are under way. -/
def regsScrubs (s : State) : Sparse Word × List Scrub := (s.regs, s.scrubs)

theorem regsScrubs_clearClusters (s : State) (p : Nat) : regsScrubs (clearClusters s p) = regsScrubs s := by
  refine foldl_reads regsScrubs (fun s h => foldl_reads regsScrubs (fun s j => ?_) _ s) _ s
  dsimp only
  refine (foldl_reads regsScrubs (fun s k => ?_) _ _).trans ?_ <;> rfl

theorem regsScrubs_clearWays (s : State) (p : Nat) (sc : Scrub) : regsScrubs (clearWays s p sc) = regsScrubs s := by
  refine foldl_reads regsScrubs (fun s h => ?_) _ s
  dsimp only
  refine (foldl_reads regsScrubs (fun s w => ?_) _ _).trans ?_
  · exact ite_reads regsScrubs rfl rfl
  · rfl

/-- R379: the memory of a partition that leaves is cleared. -/
def memoryCleared (s : State) (p : Nat) (sc : Scrub) : State := clearWays (clearClusters s p) p sc

theorem memoryCleared_regsScrubs (s : State) (p : Nat) (sc : Scrub) : regsScrubs (memoryCleared s p sc) = regsScrubs s :=
  (regsScrubs_clearWays ..).trans (regsScrubs_clearClusters ..)

theorem memoryCleared_inv {s : State} (h : s.Inv) (p : Nat) (sc : Scrub) : (memoryCleared s p sc).Inv :=
  (clearWays_kept _ p sc (clearClusters_kept _ p (inv_kept h))).2

theorem rd_memoryCleared (s : State) (p : Nat) (sc : Scrub) (a : Nat) : rd (memoryCleared s p sc) a = rd s a :=
  rd_of_regs (congrArg Prod.fst (memoryCleared_regsScrubs s p sc)) a

/-- R379: the scrub of the partition has started. -/
def scrubStarted (s : State) (p : Nat) : State :=
  let t := wrf (memoryCleared (partitionLeft s p) p (scrubOf s p)) R.SEC_SCRUB p 1 1
  { t with scrubs := t.scrubs ++ [scrubOf s p] }

theorem exec_secReleaseGo (v : Word) (s : State) : exec (.secReleaseGo v) s =
    .next (if !bitw v 63 then s
      else if !(ctxsOf s (fld v 0 3)).isEmpty then releaseRefused s (fld v 0 3) 0xA4
      else if (1 ≤ ckpPhase s (fld v 0 3) && ckpPhase s (fld v 0 3) ≤ 3) || ckpPhase s (fld v 0 3) == 6 || bitw (rd s R.SEC_SCRUB) (fld v 0 3) then
        releaseRefused s (fld v 0 3) 0xA3
      else scrubStarted (drainStopped s (fld v 0 3)) (fld v 0 3)) := rfl

section
variable {s : State} (h : s.Inv) (p : Nat)
include h

/-- R378: the record of the release. -/
theorem releaseRecord_inv (pay : List Byte) : (bbx s false 0x09 0 0 0 pay).Inv := (bbx_leaves h ..).inv

theorem partitionLeft_inv : (partitionLeft s p).Inv := wrf_inv _ _ _ _ (wrf_inv _ _ _ _ (wrf_inv _ _ _ _ (releaseRecord_inv h _)))

omit h in
theorem scrubStarted_regs {a : Nat} : rd (scrubStarted s p) a = rd (wrf (memoryCleared (partitionLeft s p) p (scrubOf s p)) R.SEC_SCRUB p 1 1) a := rfl

/-- R378: the start of a scrub marks the partition and moves no register besides. -/
theorem rd_scrubStarted {a : Nat} (ha : a ≠ R.SEC_SCRUB) : rd (scrubStarted s p) a = rd (partitionLeft s p) a := by
  rw [scrubStarted_regs, rd_wrf_ne (memoryCleared_inv (partitionLeft_inv h p) p _) _ _ _ ha, rd_memoryCleared]

theorem scrubStarted_marked (hp : p < 8) : bitw (rd (scrubStarted s p) R.SEC_SCRUB) p = true := by
  rw [scrubStarted_regs, bitw_iff_fld]
  exact rdf_wrf_same (memoryCleared_inv (partitionLeft_inv h p) p (scrubOf s p)) _ _ _ _ (by omega)

/-- R378: the partition is in force neither in the fabric nor in a half. -/
theorem partitionLeft_invalid : bitw (rd (partitionLeft s p) (R.SCF_DOMAIN p)) 63 = false ∧ ∀ half < 2, bitw (rd (partitionLeft s p) (R.MEM_PART_CFG half p)) 63 = false := by
  have hrec := releaseRecord_inv h (leBytes 1 3 ++ leBytes 1 p ++ leBytes 2 0 ++ leBytes 4 (rdf s R.SEC_SCRUB 32 32))
  have hfabric := wrf_inv (R.SCF_DOMAIN p) 63 1 0 hrec
  have hwest := wrf_inv (R.MEM_PART_CFG 0 p) 63 1 0 hfabric
  have hdw : R.SCF_DOMAIN p ≠ R.MEM_PART_CFG 0 p := by unfold R.SCF_DOMAIN R.MEM_PART_CFG; omega
  have hde : R.SCF_DOMAIN p ≠ R.MEM_PART_CFG 1 p := by unfold R.SCF_DOMAIN R.MEM_PART_CFG; omega
  have hwe : R.MEM_PART_CFG 0 p ≠ R.MEM_PART_CFG 1 p := by unfold R.MEM_PART_CFG; omega
  refine ⟨?_, fun half hhalf => ?_⟩
  · rw [partitionLeft, rd_wrf_ne hwest _ _ _ hde, rd_wrf_ne hfabric _ _ _ hdw, bitw_eq_false_iff]
    exact rdf_wrf_same hrec _ _ _ _ (by decide)
  · interval_cases half
    · rw [partitionLeft, rd_wrf_ne hwest _ _ _ hwe, bitw_eq_false_iff]
      exact rdf_wrf_same hfabric _ _ _ _ (by decide)
    · rw [partitionLeft, bitw_eq_false_iff]
      exact rdf_wrf_same hwest _ _ _ _ (by decide)

omit h in
theorem scrubStarted_scrubs : (scrubStarted s p).scrubs = s.scrubs ++ [scrubOf s p] := by
  have hclear : (memoryCleared (partitionLeft s p) p (scrubOf s p)).scrubs = (partitionLeft s p).scrubs := congrArg Prod.snd (memoryCleared_regsScrubs ..)
  have hleft : (partitionLeft s p).scrubs = s.scrubs := bbx_reads State.scrubs (fun _ _ _ => rfl) (fun _ _ _ => rfl) (fun _ _ => rfl) s ..
  rw [scrubStarted, wrf, wr_scrubs, hclear, hleft]

/-- R378, R379: a release that is not refused. -/
theorem releaseStarts (hp : p < 8) : ∃ sc, bitw (rd (scrubStarted s p) (R.SCF_DOMAIN p)) 63 = false ∧
    (∀ half < 2, bitw (rd (scrubStarted s p) (R.MEM_PART_CFG half p)) 63 = false) ∧ bitw (rd (scrubStarted s p) R.SEC_SCRUB) p = true ∧
    (scrubStarted s p).scrubs = s.scrubs ++ [sc] ∧ sc.part = p ∧ sc.start = s.ltc.toNat ∧ ∀ half < 2, (if half = 0 then sc.west else sc.east) = heldIn s half p := by
  obtain ⟨hfabric, hhalves⟩ := partitionLeft_invalid h p
  refine ⟨scrubOf s p, ?_, fun half hhalf => ?_, scrubStarted_marked h p hp, scrubStarted_scrubs p, rfl, rfl, fun half hhalf => ?_⟩
  · rwa [rd_scrubStarted h p (by unfold R.SCF_DOMAIN R.SEC_SCRUB; omega)]
  · rw [rd_scrubStarted h p (by unfold R.MEM_PART_CFG R.SEC_SCRUB; omega)]
    exact hhalves half hhalf
  · interval_cases half <;> rfl

end

/-- R378: the phases of the checkpoint sequencer in which a partition is busy. -/
theorem busyPhase_iff (n : Nat) : ((1 ≤ n && n ≤ 3) || n == 6) = true ↔ n ∈ [1, 2, 3, 6] := by
  simp
  omega

/-- R379: the range that a partition held in a half is cleared. -/
def rangeScrubbed (s : State) (h : Nat) (w : Word) : State :=
  memClear s (h * 0x10000000000 + fld w 24 10 * 2 ^ 30) (h * 0x10000000000 + (fld w 24 10 + fld w 34 10) * 2 ^ 30)

/-- R379: the memory that a partition held in the halves is cleared. -/
def rangesScrubbed (s : State) (sc : Scrub) : State := rangeScrubbed (rangeScrubbed s 0 sc.west) 1 sc.east

/-- R379: a way of the partition is cleared and free. -/
def wayFreed (p h : Nat) (s : State) (w : Nat) : State :=
  if wayOwner s h w = p then
    wrf (wrf (memClear (llmDrop s h w false) (wayBase h w) (wayBase h w + 0x3000000)) (R.LLM_WAYMAP h) (4 * w) 4 15) (R.LLM_WAYKIND h) w 1 0
  else s

/-- R379: the ways of the partition in a half are cleared and free. -/
def halfFreed (p : Nat) (s : State) (h : Nat) : State := (List.range 16).foldl (wayFreed p h) s

/-- R379: the ways of a partition are cleared and free. -/
def waysFreed (s : State) (p : Nat) : State := (List.range 2).foldl (halfFreed p) s

/-- R379: the partition's registers are at reset, and its scrub is no longer under way. -/
def registersReset (s : State) (p : Nat) (sc : Scrub) : State :=
  { regsReset s (scrubReg s p) with scrubs := s.scrubs.filter (· ≠ sc), llmPend := sset none (sset none s.llmPend p none) (8 + p) none }

/-- R379: the key slots of a partition are dropped. -/
def slotsDropped (s : State) (p : Nat) : State :=
  ((List.range 32).filter (fun k => rdf s (R.SEC_KSLOT k 0) 4 3 == p && bitw (rd s (R.SEC_KSLOT k 0)) 63)).foldl dropSlot s

/-- R379: the registers, keys and sequencer of a partition are at reset, and its scrub is over. -/
def partitionReset (s : State) (p : Nat) (sc : Scrub) : State := setCkp (slotsDropped (registersReset s p sc) p) p ckp0

/-- R380, R398: the end of a scrub is shown. -/
def scrubShown (s : State) (p : Nat) : State := wrf (wrf (wrf s R.SEC_SCRUB p 1 0) R.SEC_SCRUB (8 + p) 1 1) R.SEC_SCRUB 32 32 (scrubNs s / 1000)

/-- R379, R380: the state that the end of a scrub leaves. -/
def scrubbed (s : State) (p : Nat) (sc : Scrub) : State :=
  let t := scrubShown (partitionReset (waysFreed (rangesScrubbed s sc) p) p sc) p
  bbx t false 0x09 0 0 0 (leBytes 1 4 ++ leBytes 1 p ++ leBytes 2 0 ++ leBytes 4 (scrubNs t / 1000))

theorem exec_scrubDone_of_none {s : State} {p : Nat} (hnone : s.scrubs.find? (fun c => c.part == p) = none) : exec (.scrubDone p) s = .next s := by
  show execScrubDone p s = _
  rw [execScrubDone, hnone]

theorem exec_scrubDone_of_some {s : State} {p : Nat} {sc : Scrub} (hsome : s.scrubs.find? (fun c => c.part == p) = some sc) :
    exec (.scrubDone p) s = .next (if s.ltc.toNat < sc.start + scrubNs s then s else scrubbed s p sc) := by
  show execScrubDone p s = _
  rw [execScrubDone, hsome]
  rfl

/-- A cleared range of memory reads zero. -/
theorem memByte_memClear_in (s : State) {lo hi x : Nat} (hlo : lo ≤ x) (hhi : x < hi) : memByte (memClear s lo hi) x = 0 := by
  have hnone : (memClear s lo hi).undef.find? (fun r => r.1 ≤ x && x < r.2.1) = none := find_carve_in s.undef lo hi x hlo hhi
  rw [memByte, hnone]
  exact sget_sclear_in 0 hlo hhi s.mem

/-- What reads zero still does when a range of memory is cleared. -/
theorem memByte_memClear_zero {s : State} (h : s.Inv) {lo hi x : Nat} (hle : lo ≤ hi) (hzero : memByte s x = 0) : memByte (memClear s lo hi) x = 0 := by
  by_cases hx : x < lo ∨ hi ≤ x
  · exact (memByte_of_find s (memClear s lo hi) x (find_carve s.undef lo hi x hle hx) (sget_sclear_out 0 hx h.mem)).trans hzero
  · exact memByte_memClear_in s (by omega) (by omega)

theorem memClear_inv {s : State} (h : s.Inv) (lo hi : Nat) : (memClear s lo hi).Inv := (memClear_kept (inv_kept h)).2

/-- R379: the package is well kept, and a byte of memory reads zero. -/
def ReadsZero (x : Nat) (s : State) : Prop := s.Inv ∧ memByte s x = 0

theorem wayFreed_inv {s : State} (hs : s.Inv) (p h w : Nat) : (wayFreed p h s w).Inv := by
  unfold wayFreed
  split
  · exact wrf_inv _ _ _ _ (wrf_inv _ _ _ _ (memClear_inv (llmDrop_kept s h w false (inv_kept hs)).2 _ _))
  · exact hs

theorem wayFreed_zero {x : Nat} {s : State} (hs : ReadsZero x s) (p h w : Nat) : ReadsZero x (wayFreed p h s w) := by
  refine ⟨wayFreed_inv hs.1 p h w, ?_⟩
  unfold wayFreed
  split
  · have hdrop : memByte (llmDrop s h w false) x = 0 := hs.2
    exact memByte_memClear_zero (llmDrop_kept s h w false (inv_kept hs.1)).2 (Nat.le_add_right _ _) hdrop
  · exact hs.2

/-- What each step keeps a run over a list keeps. -/
theorem foldl_keeps {α : Type} {P : State → Prop} {f : State → α → State} (hf : ∀ s x, P s → P (f s x)) (l : List α) : ∀ {s}, P s → P (l.foldl f s) := by
  induction l with
  | nil => exact id
  | cons x l ih => exact fun hs => ih (hf _ x hs)

theorem waysFreed_inv {s : State} (h : s.Inv) (p : Nat) : (waysFreed s p).Inv :=
  foldl_keeps (P := State.Inv) (fun _ half => foldl_keeps (P := State.Inv) (fun _ w hs => wayFreed_inv hs p half w) _) _ h

theorem waysFreed_zero {x : Nat} {s : State} (h : ReadsZero x s) (p : Nat) : ReadsZero x (waysFreed s p) :=
  foldl_keeps (P := ReadsZero x) (fun _ half => foldl_keeps (P := ReadsZero x) (fun _ w hs => wayFreed_zero hs p half w) _) _ h

theorem scrubs_wayFreed (p h : Nat) (s : State) (w : Nat) : (wayFreed p h s w).scrubs = s.scrubs := by
  unfold wayFreed
  split <;> rfl

theorem scrubs_waysFreed (s : State) (p : Nat) : (waysFreed s p).scrubs = s.scrubs :=
  foldl_reads State.scrubs (fun s h => foldl_reads State.scrubs (scrubs_wayFreed p h) _ s) _ s

/-- R379: what memory reads by, and the scrubs that are under way. -/
def memScrubs (s : State) : Sparse Byte × List (Nat × Nat × Nat) × List Scrub := (s.mem, s.undef, s.scrubs)

theorem memScrubs_slotsDropped (s : State) (p : Nat) : memScrubs (slotsDropped s p) = memScrubs s := foldl_reads memScrubs (f := dropSlot) (fun _ _ => rfl) _ s

/-- R379: what the reset of a partition's registers and keys leaves of memory, and of the scrubs under way. -/
theorem memScrubs_partitionReset (s : State) (p : Nat) (sc : Scrub) : memScrubs (partitionReset s p sc) = (s.mem, s.undef, s.scrubs.filter (· ≠ sc)) :=
  memScrubs_slotsDropped (registersReset s p sc) p

theorem partitionReset_inv {s : State} (h : s.Inv) (p : Nat) (sc : Scrub) : (partitionReset s p sc).Inv := by
  have hreset : (registersReset s p sc).Inv := (regsReset_kept (inv_kept h)).2
  exact setCkp_inv (foldl_keeps (P := State.Inv) (fun _ k hs => (dropSlot_leaves hs k).inv) _ hreset) p ckp0

section
variable {s : State} (h : s.Inv) {p : Nat} (hp : p < 8)
include h hp

theorem scrubShown_over : bitw (rd (scrubShown s p) R.SEC_SCRUB) p = false := by
  have hmark := wrf_inv R.SEC_SCRUB p 1 0 h
  rw [bitw_eq_false_iff]
  change rdf (scrubShown s p) R.SEC_SCRUB p 1 = 0
  rw [scrubShown, rdf_wrf_apart (wrf_inv _ _ _ _ hmark) _ _ _ _ _ _ (by decide) (by omega), rdf_wrf_apart hmark _ _ _ _ _ _ (by omega) (by omega),
    rdf_wrf_same h _ _ _ _ (by omega)]
  rfl

theorem scrubShown_done : bitw (rd (scrubShown s p) R.SEC_SCRUB) (8 + p) = true := by
  have hmark := wrf_inv R.SEC_SCRUB p 1 0 h
  rw [bitw_iff_fld]
  change rdf (scrubShown s p) R.SEC_SCRUB (8 + p) 1 = 1
  rw [scrubShown, rdf_wrf_apart (wrf_inv _ _ _ _ hmark) _ _ _ _ _ _ (by decide) (by omega), rdf_wrf_same hmark _ _ _ _ (by omega)]
  rfl

end

theorem memScrubs_scrubShown (s : State) (p : Nat) : memScrubs (scrubShown s p) = memScrubs s := rfl

theorem memScrubs_bbx (s : State) (perm : Bool) (ty src status sub : Nat) (pay : List Byte) : memScrubs (bbx s perm ty src status sub pay) = memScrubs s :=
  bbx_reads memScrubs (fun _ _ _ => rfl) (fun _ _ _ => rfl) (fun _ _ => rfl) s ..

section
variable {s : State} (h : s.Inv) (sc : Scrub)
include h

theorem rangesScrubbed_inv : (rangesScrubbed s sc).Inv := memClear_inv (memClear_inv h _ _) _ _

theorem rangesScrubbed_west {x : Nat} (hlo : fld sc.west 24 10 * 2 ^ 30 ≤ x) (hhi : x < (fld sc.west 24 10 + fld sc.west 34 10) * 2 ^ 30) :
    ReadsZero x (rangesScrubbed s sc) := by
  have hwest : memByte (rangeScrubbed s 0 sc.west) x = 0 :=
    memByte_memClear_in s (by rwa [Nat.zero_mul, Nat.zero_add]) (by rwa [Nat.zero_mul, Nat.zero_add])
  exact ⟨rangesScrubbed_inv h sc,
    memByte_memClear_zero (memClear_inv h _ _) (Nat.add_le_add_left (Nat.mul_le_mul_right _ (Nat.le_add_right _ _)) _) hwest⟩

theorem rangesScrubbed_east {x : Nat} (hlo : 0x10000000000 + fld sc.east 24 10 * 2 ^ 30 ≤ x)
    (hhi : x < 0x10000000000 + (fld sc.east 24 10 + fld sc.east 34 10) * 2 ^ 30) : ReadsZero x (rangesScrubbed s sc) :=
  ⟨rangesScrubbed_inv h sc, memByte_memClear_in _ (by rwa [Nat.one_mul]) (by rwa [Nat.one_mul])⟩

/-- R379: the state that a scrub leaves, but for its record. -/
theorem scrubbed_leaves (p : Nat) : Leaves bbxReg (scrubShown (partitionReset (waysFreed (rangesScrubbed s sc) p) p sc) p) (scrubbed s p sc) :=
  have hreset := partitionReset_inv (waysFreed_inv (rangesScrubbed_inv h sc) p) p sc
  bbx_leaves (wrf_inv _ _ _ _ (wrf_inv _ _ _ _ (wrf_inv _ _ _ _ hreset))) ..

omit h in
theorem memScrubs_scrubbed (p : Nat) : memScrubs (scrubbed s p sc) =
    ((waysFreed (rangesScrubbed s sc) p).mem, (waysFreed (rangesScrubbed s sc) p).undef, s.scrubs.filter (· ≠ sc)) := by
  have hscrubs : (waysFreed (rangesScrubbed s sc) p).scrubs = s.scrubs := scrubs_waysFreed ..
  rw [← hscrubs, ← memScrubs_partitionReset, ← memScrubs_scrubShown _ p]
  exact memScrubs_bbx ..

omit h in
theorem memByte_scrubbed {x : Nat} (hzero : ReadsZero x (rangesScrubbed s sc)) (p : Nat) : memByte (scrubbed s p sc) x = 0 := by
  have hreads := memScrubs_scrubbed (s := s) sc p
  simp only [memScrubs, Prod.mk.injEq] at hreads
  exact (memByte_of_mem hreads.1 hreads.2.1 x).trans (waysFreed_zero hzero p).2

/-- R379, R380: the scrub is over, its status says so, and the memory reads zero. -/
theorem scrubEnds {p : Nat} (hp : p < 8) : bitw (rd (scrubbed s p sc) R.SEC_SCRUB) p = false ∧ bitw (rd (scrubbed s p sc) R.SEC_SCRUB) (8 + p) = true ∧
    sc ∉ (scrubbed s p sc).scrubs ∧
    (∀ x, fld sc.west 24 10 * 2 ^ 30 ≤ x → x < (fld sc.west 24 10 + fld sc.west 34 10) * 2 ^ 30 → memByte (scrubbed s p sc) x = 0) ∧
    (∀ x, 0x10000000000 + fld sc.east 24 10 * 2 ^ 30 ≤ x → x < 0x10000000000 + (fld sc.east 24 10 + fld sc.east 34 10) * 2 ^ 30 → memByte (scrubbed s p sc) x = 0) := by
  have hreset := partitionReset_inv (waysFreed_inv (rangesScrubbed_inv h sc) p) p sc
  have hshown := (scrubbed_leaves h sc p).rd_eq R.SEC_SCRUB rfl
  have hreads := memScrubs_scrubbed (s := s) sc p
  simp only [memScrubs, Prod.mk.injEq] at hreads
  refine ⟨?_, ?_, ?_, fun x hlo hhi => memByte_scrubbed sc (rangesScrubbed_west h sc hlo hhi) p, fun x hlo hhi => memByte_scrubbed sc (rangesScrubbed_east h sc hlo hhi) p⟩
  · rw [hshown]
    exact scrubShown_over hreset hp
  · rw [hshown]
    exact scrubShown_done hreset hp
  · rw [hreads.2.2]
    simp

end

theorem releaseAndScrub : Sys2Proof.Parts.ReleaseAndScrub := by
  intro s v h p refuse
  have hrefuse : ∀ sub, releaseRefused s p sub = refuse sub := fun sub => by
    rw [releaseRefused, secErr, rd_wr_same h, Nat.shiftLeft_eq]
    rfl
  have hp : p < 8 := Nat.mod_lt _ (by decide)
  refine ⟨fun (hv : bitw v 63 = false) => ?_, fun (hv : bitw v 63 = true) hctx => ?_, fun (hv : bitw v 63 = true) hctx hbusy => ?_,
    fun (hv : bitw v 63 = true) hctx hphase hscrub => ?_, fun q => exec_scrubDone_of_none,
    fun q sc hsome hsoon => (exec_scrubDone_of_some hsome).trans (next_ite_pos hsoon),
    fun q sc hq hsome hdue => ⟨_, (exec_scrubDone_of_some hsome).trans (next_ite_neg (Nat.not_lt.2 hdue)), scrubEnds h sc hq⟩⟩
  · rw [exec_secReleaseGo, if_pos (by simp [hv])]
  · rw [exec_secReleaseGo, if_neg (by simp [hv]), if_pos (by simpa using hctx)]
    exact congrArg _ (hrefuse 0xA4)
  · rw [exec_secReleaseGo, if_neg (by simp [hv]), if_neg (by simpa using hctx), if_pos (by rwa [Bool.or_eq_true, busyPhase_iff])]
    exact congrArg _ (hrefuse 0xA3)
  · have hfree : ¬ ((1 ≤ ckpPhase s p && ckpPhase s p ≤ 3) || ckpPhase s p == 6 || bitw (rd s R.SEC_SCRUB) p) = true := by
      rw [Bool.or_eq_true, busyPhase_iff, hscrub]
      exact fun hbusy => hbusy.elim hphase Bool.false_ne_true
    have hstop := drainStopped_only h p
    obtain ⟨hltc, hscrubs⟩ := Prod.ext_iff.1 (scrubClock_drainStopped s p)
    obtain ⟨sc, hfabric, hhalves, hmark, hunder, hpart, hstart, hheld⟩ := releaseStarts hstop.inv p hp
    refine ⟨_, sc, by rw [exec_secReleaseGo, if_neg (by simp [hv]), if_neg (by simpa using hctx), if_neg hfree], hfabric, hhalves, hmark,
      hunder.trans (congrArg (· ++ [sc]) hscrubs), hpart, hstart.trans (congrArg BitVec.toNat hltc), fun half hhalf => (hheld half hhalf).trans ?_⟩
    have hcfg : R.MEM_PART_CFG half p ≠ R.CKP_STAT p := by
      unfold R.MEM_PART_CFG R.CKP_STAT
      omega
    rw [heldIn, hstop.rd_eq _ (onlyReg_of_ne hcfg)]

/-- Settles O56: a session by the commands that make, switch and end it; a release by what leaves with the partition (`releaseStarts`), its scrub by what it clears (`scrubEnds`).
That ADMIT without a report does nothing and that a scrub's time is counted in whole ns is the model's reading (log 51). -/
theorem sessionsAndRelease : Obligations.SessionsAndRelease := ⟨sessions, releaseAndScrub⟩

end Sys2Proof.Machine
end

section
/-! The power status while the image's register writes are applied (R415, R421): a store to an address that no register has cannot move it. -/

namespace Sys2Proof.Machine

/-- R415: the power status reads as in the first state, and the MRAM is protected as there. -/
structure PowerKept (s t : State) : Prop where
  regs : swf regReset t.regs = true
  stat : rd t R.PWR_STAT = rd s R.PWR_STAT
  locked : t.mramLocked = s.mramLocked

namespace PowerKept

variable {s t u : State}

theorem refl (h : s.Inv) : PowerKept s s := ⟨h.regs, rfl, rfl⟩

theorem foldl {α : Type} {f : State → α → State} (hf : ∀ t x, PowerKept s t → PowerKept s (f t x)) (l : List α) (h : PowerKept s t) : PowerKept s (l.foldl f t) :=
  foldl_keeps (P := PowerKept s) hf l h

theorem ite {c : Prop} [Decidable c] (ht : PowerKept s t) (hu : PowerKept s u) : PowerKept s (if c then t else u) := by
  split
  · exact ht
  · exact hu

section
variable (h : PowerKept s t)
include h

/-- What moves neither a register nor the protection of the MRAM. -/
theorem same (hregs : u.regs = t.regs) (hlocked : u.mramLocked = t.mramLocked) : PowerKept s u :=
  ⟨hregs ▸ h.regs, (rd_of_regs hregs _).trans h.stat, hlocked.trans h.locked⟩

theorem wr {a : Nat} (ha : R.PWR_STAT ≠ a) (v : Word) : PowerKept s (wr t a v) :=
  ⟨swf_sset regReset a v t.regs h.regs, (sget_sset_ne regReset a R.PWR_STAT v t.regs h.regs ha).trans h.stat, h.locked⟩

theorem wrf {a : Nat} (ha : R.PWR_STAT ≠ a) (lo n v : Nat) : PowerKept s (wrf t a lo n v) := h.wr ha _
theorem addSat {a : Nat} (ha : R.PWR_STAT ≠ a) (lo n k : Nat) : PowerKept s (addSat t a lo n k) := h.wr ha _

theorem regPut {a : Nat} (ha : R.PWR_STAT ≠ a) (v : Word) : PowerKept s (regPut t a v) := by
  cases hrow : regRow a with
  | none => rwa [regPut_of_none v hrow]
  | some r =>
    rw [regPut_of_some v hrow]
    exact h.wr ha _

end

/-- R216, R388: what outlives a read of memory and a record of the black box. -/
theorem outlives (s : State) : OutlivesReads (PowerKept s) :=
  ⟨fun t a v ha h => h.wr (by rintro rfl; exact absurd ha (by decide)) v,
    fun {t u} h hu => h.same (show (unmarked u).regs = (unmarked t).regs by rw [hu]) (show (unmarked u).mramLocked = (unmarked t).mramLocked by rw [hu])⟩

section
variable (h : PowerKept s t)
include h

theorem bbx (perm : Bool) (ty src st sub : Nat) (pay : List Byte) : PowerKept s (bbx t perm ty src st sub pay) := (outlives s).bbx _ _ _ _ _ _ h

theorem logRec (part ty ctx : Nat) (detail payload : List Byte) : PowerKept s (logRec t part ty ctx detail payload) := by
  unfold Machine.logRec logRecAt
  have hptr : PowerKept s (Machine.wr t (R.DSP_LOGPTR part) (rd t (R.DSP_LOGPTR part) + 1)) :=
    h.wr (by unfold R.PWR_STAT R.DSP_LOGPTR; omega) _
  exact ite (hptr.same rfl rfl) hptr

/-- R396: a conflict that is refused. -/
theorem conflictFrom (src kind index owner claimant : Nat) (part : Option Nat) (reg : Word) :
    PowerKept s (conflictFrom t src kind index owner claimant part reg) := by
  unfold Machine.conflictFrom
  extract_lets t1 t2 key last pay
  have h1 : PowerKept s t1 := h.addSat (by decide) _ _ _
  have h2 : PowerKept s t2 := by
    unfold t2
    split
    · exact h1.logRec _ _ _ _ _
    · exact h1
  refine ite h2 (bbx ?_ _ _ _ _ _ _)
  exact h2.same rfl rfl

/-! R285-R306: a trigger that a counter fires. -/

theorem modColl (id : Nat) (f : Coll → Coll) : PowerKept s (modColl t id f) := h.same rfl rfl
theorem dropColl (id : Nat) : PowerKept s (dropColl t id) := h.same rfl rfl
theorem endHere (id st sub : Nat) : PowerKept s (endHere t id st sub) := h.modColl _ _

theorem claimSlots (id : Nat) : PowerKept s (claimSlots t id) := by
  unfold Machine.claimSlots
  split
  · exact h
  · exact ite h (ite (h.modColl _ _) ((h.addSat (by decide) _ _ _).modColl _ _))

theorem adopt (c : Coll) : PowerKept s (adopt t c) := by
  unfold Machine.adopt
  split
  · exact h.same rfl rfl
  · exact h

theorem txFlit (k : Nat) (f : Flit) : PowerKept s (txFlit t k f) :=
  ite h (ite (h.same rfl rfl) (ite (h.same rfl rfl) h))

theorem sendUp (f : Flit) : PowerKept s (sendUp t f) := by
  unfold Machine.sendUp
  split
  · exact h
  · refine ite (h.txFlit _ _) (ite h ?_)
    split
    · exact ite (h.txFlit _ _) h
    · exact h

theorem takeDown (id : Nat) (f : Flit) : PowerKept s (takeDown t id f) := by
  unfold Machine.takeDown
  split
  · exact h
  · rename_i c _
    extract_lets t1 part
    have h1 : PowerKept s t1 := foldl (fun t k ht => ht.txFlit k f) _ h
    split
    · exact ite (h1.modColl _ _) ((h1.dropColl id).same rfl rfl)
    · exact ite (ite (h1.modColl _ _) (h1.dropColl id)) (h1.modColl _ _)

theorem failColl (id st sub : Nat) : PowerKept s (failColl t id st sub) := by
  unfold Machine.failColl
  split
  · exact h
  · exact takeDown (ite (h.sendUp _) h) _ _

theorem tryChunk (id ix : Nat) : PowerKept s (tryChunk t id ix) := by
  unfold Machine.tryChunk
  split
  · exact h
  split
  · exact h
  · extract_lets fm ety bop t1 v
    have h1 : PowerKept s t1 := h.same rfl rfl
    refine ite h (ite (h1.takeDown _ _) ?_)
    split
    · exact h1
    · exact h1.sendUp _
    · exact h1.sendUp _

theorem addInput (id ix cnt : Nat) (vals : List (Nat × Nat)) (f : Flit) : PowerKept s (addInput t id ix cnt vals f) := by
  unfold Machine.addInput
  split
  · exact h
  · exact tryChunk (ite (sendUp (h.modColl _ _) _) (h.modColl _ _)) _ _

theorem joinUp (id port : Nat) (f : Flit) : PowerKept s (joinUp t id port f) := by
  unfold Machine.joinUp
  split
  · exact h
  · extract_lets t1
    have h1 : PowerKept s t1 := h.modColl _ _
    split
    · exact ite (h1.addSat (by decide) _ _ _) (h1.txFlit _ _)
    · split
      · exact h1.failColl _ _ _
      · exact ite (h1.failColl _ _ _) (ite (h1.failColl _ _ _) (h1.addInput _ _ _ _ _))

theorem drainMatch (id : Nat) : PowerKept s (drainMatch t id) := by
  unfold Machine.drainMatch
  split
  · exact h
  · exact foldl (fun _ m ht => ht.joinUp id m.1 m.2) _ (h.same rfl rfl)

theorem translate (ctx va : Nat) (k : AccKind) : PowerKept s (translate t ctx va k).1 :=
  h.same (translate_regs ..) (translate_reads State.mramLocked (fun _ _ => rfl) (fun _ _ => rfl) t ctx va k)

theorem vaLoad (src : Src) (va n : Nat) : PowerKept s (vaLoad t src va n).1 := by
  have hcheck : PowerKept s (vaCheck t src.ctx va n .read).1 := by
    rw [vaCheck_fst]
    exact h.translate _ _ _
  unfold Machine.vaLoad
  split <;> rename_i hc <;> rw [hc] at hcheck
  · exact (outlives s).physRead _ _ _ hcheck
  · exact hcheck
  · exact hcheck

theorem vaRange (src : Src) (l : List (Nat × Nat)) : PowerKept s (vaRange t src l).1 := by
  induction l generalizing t with
  | nil => exact h
  | cons p l ih =>
    have hload := h.vaLoad src p.1 p.2
    unfold Machine.vaRange
    split <;> rename_i hl <;> rw [hl] at hload
    · have hrest := ih hload
      split <;> rename_i hr <;> rw [hr] at hrest <;> exact hrest
    · exact hload
    · exact hload

theorem readSrc (c : Coll) : PowerKept s (readSrc t c).1 := by
  unfold Machine.readSrc
  dsimp only
  split
  · split
    · exact h
    · have hbytes : PowerKept s (vaBytes t (srcColl t c) (c.ws.getD 3 0).toNat (if isBulk c.kind then fld (c.ws.getD 5 0) 0 32 else 64)).1 :=
        h.vaRange _ _
      split <;> rename_i hb <;> rw [hb] at hbytes <;> exact hbytes
  · exact h

theorem startColl (id : Nat) : PowerKept s (startColl t id) := by
  unfold Machine.startColl
  split
  · exact h
  · rename_i c0 _
    refine ite (h.modColl _ _) ?_
    extract_lets part
    refine ite (h.endHere _ _ _) (ite (h.endHere _ _ _) ?_)
    have hread := h.readSrc c0
    split <;> rename_i hr <;> rw [hr] at hread
    · exact h.modColl _ _
    · extract_lets spare t1 t2
      have h2 : PowerKept s t2 := claimSlots (adopt (hread.modColl _ _) _) _
      split
      · exact modColl (h2.failColl _ _ _) _ _
      · refine drainMatch (foldl (fun t i ht => ?_) _ h2) _
        split
        · exact ht
        · exact ite (ht.sendUp _) (ht.addInput _ _ _ _ _)
      · exact h2

theorem queueColl (c : Coll) : PowerKept s (queueColl t c) := by
  unfold Machine.queueColl
  extract_lets t1
  have h1 : PowerKept s t1 := h.same rfl rfl
  exact ite (h1.startColl _) h1

theorem fireColl (user : CollUser) (ctx : Nat) (ws : List Word) (src : List Byte) (eng : Nat) : PowerKept s (fireColl t user ctx ws src eng) := by
  unfold Machine.fireColl
  extract_lets g kind seq n t1
  have h1 : PowerKept s t1 := h.wrf (by unfold R.PWR_STAT R.COL_GSEQ; omega) _ _ _
  refine queueColl ?_ _
  exact h1.same rfl rfl

theorem fireTrig (n : Nat) : PowerKept s (fireTrig t n) := by
  have htrig (w : Nat) : R.PWR_STAT ≠ R.COL_TRIG n w := by
    unfold R.PWR_STAT R.COL_TRIG
    omega
  unfold Machine.fireTrig
  extract_lets ws w0 step t1 eng
  have h1 : PowerKept s t1 := ite (h.wrf (htrig 0) _ _ _) (h.wrf (htrig 1) _ _ _)
  exact ite (h1.queueColl _) (h1.fireColl _ _ _ _ _)

theorem fireCounter (n : Nat) : PowerKept s (fireCounter t n) := by
  have hrounds (fuel : Nat) : ∀ {t}, PowerKept s t → PowerKept s (fireRounds n fuel t) := by
    induction fuel with
    | zero => exact id
    | succ fuel ih => exact fun ht => ite (ih (foldl (fun t k ht => ite (ht.fireTrig k) ht) _ ht)) ht
  exact hrounds _ h

end

end PowerKept

end Sys2Proof.Machine
end

section
/-! Stores to addresses that no register has (R8, R25, R415): what of a block's behaviour they can reach. -/

namespace Sys2Proof.Machine

/-- R25: an address that no row of a block covers is none of the row's entries. -/
theorem not_inDims_of_uncovered {l : List RegRow} {a : Nat} (h : l.find? (fun r => r.covers a) = none) {base : Nat} {dims : List (Nat × Nat)}
    (hrow : (base, dims) ∈ l.map fun r => (r.base, r.dims)) : ¬ (base ≤ a ∧ inDims dims (a - base) = true) := by
  obtain ⟨r, hr, heq⟩ := List.mem_map.1 hrow
  obtain ⟨rfl, rfl⟩ := Prod.mk.inj heq
  have hcov := List.find?_eq_none.1 h r hr
  rwa [RegRow.covers, Bool.and_eq_true, decide_eq_true_eq] at hcov

section
variable {l : List RegRow} {a : Nat} (h : l.find? (fun r => r.covers a) = none)
include h

theorem ne_of_uncovered {base : Nat} (hrow : (base, []) ∈ l.map fun r => (r.base, r.dims)) : a ≠ base := by
  rintro rfl
  exact not_inDims_of_uncovered h hrow ⟨le_rfl, by simp [inDims]⟩

theorem not_entry_of_uncovered {base n st : Nat} (hrow : (base, [(n, st)]) ∈ l.map fun r => (r.base, r.dims)) :
    ¬ (base ≤ a ∧ (a - base) / st < n ∧ (a - base) % st = 0) := by
  simpa [inDims] using not_inDims_of_uncovered h hrow

theorem not_halfEntry_of_uncovered {base n st : Nat} (hrow : (base, [(2, 0x40000000), (n, st)]) ∈ l.map fun r => (r.base, r.dims)) :
    ¬ (base ≤ a ∧ (a - base) / 0x40000000 < 2 ∧ (a - base) % 0x40000000 / st < n ∧ (a - base) % 0x40000000 % st = 0) := by
  simpa [inDims] using not_inDims_of_uncovered h hrow

end

theorem after_next (s t : State) : after (.next t) s = t := rfl

namespace PowerKept

variable {s t : State}

theorem cases {c : Prop} [Decidable c] {u w : State} (hu : c → PowerKept s u) (hw : ¬ c → PowerKept s w) : PowerKept s (if c then u else w) := by
  split
  · exact hu ‹_›
  · exact hw ‹_›

theorem skip {c : Prop} [Decidable c] {u w : State} (hc : ¬ c) (hw : PowerKept s w) : PowerKept s (if c then u else w) := by rwa [if_neg hc]

section
variable (h : PowerKept s t)
include h

theorem evtWrite (n func : Nat) (v : Word) (i3c : Bool) : PowerKept s (evtWrite t n func v i3c) := by
  have hrefuse : PowerKept s (evtRefuse t n func) := by
    unfold evtRefuse
    extract_lets t1
    have h1 : PowerKept s t1 := h.wr (by decide) _
    exact h1.conflictFrom _ _ _ _ _ _ _
  exact ite h (ite (h.wr (by unfold R.PWR_STAT R.BBX_EVT; omega) _) hrefuse)

theorem secErr (st sub : Nat) : PowerKept s (secErr t st sub) := h.wr (by decide) _

omit h in
theorem slot_ne (k w : Nat) : R.PWR_STAT ≠ R.SEC_KSLOT k w := by
  unfold R.PWR_STAT R.SEC_KSLOT
  omega

theorem dropSlot (k : Nat) : PowerKept s (dropSlot t k) := by
  unfold Machine.dropSlot
  extract_lets t1 t2
  have h1 : PowerKept s t1 := h.same rfl rfl
  exact wrf (foldl (fun _ w ht => ht.wr (slot_ne k _) _) _ h1) (slot_ne k 0) _ _ _

theorem secKslotLoad (k : Nat) (v : Word) : PowerKept s (after (execSecKslotLoad k v t) t) := by
  rw [execSecKslotLoad, after_next]
  refine ite h ?_
  extract_lets t1 kind part t2
  have h1 : PowerKept s t1 := ((h.dropSlot k).wr (slot_ne k 0) _).wrf (slot_ne k 0) _ _ _
  split
  · exact h1.secErr _ _
  · refine ite (h1.secErr _ _) ?_
    split
    · exact h1.secErr _ _
    · extract_lets t3 pub
      have h2 : PowerKept s t2 := by
        unfold t2
        split
        · exact h1.dropSlot _
        · exact h1
      have h3 : PowerKept s t3 := by
        refine wrf ?_ (slot_ne k 0) _ _ _
        exact h2.same rfl rfl
      exact ite ((h3.wr (slot_ne k 13) _).wr (slot_ne k 14) _) h3

omit h in
theorem meas_ne (half i w : Nat) : R.PWR_STAT ≠ R.SEC_MEAS half i w := by
  unfold R.PWR_STAT R.SEC_MEAS
  omega

theorem measWrite0 (half i : Nat) (v : Word) : PowerKept s (measWrite0 t half i v) := by
  have hclear : PowerKept s (measClear t half i v) := ite h (ite (conflictFrom (h.secErr _ _) _ _ _ _ _ _ _) (h.wr (meas_ne _ _ _) _))
  exact ite hclear (h.regPut (meas_ne _ _ _) _)

theorem secMeasGo (half i : Nat) (v : Word) : PowerKept s (after (execSecMeasGo half i v t) t) := by
  rw [execSecMeasGo, after_next]
  refine ite h ?_
  extract_lets t1
  have h1 : PowerKept s t1 := ite h (h.wr (meas_ne _ _ _) _)
  exact (h1.wrf (meas_ne half i 0) 61 1 0).same rfl rfl

theorem dspCsetWrite (c k w : Nat) (v : Word) : PowerKept s (after (execDspCsetWrite c k w v t) t) := by
  have hrefuse (st : Nat) : PowerKept s (dspRefuse t st c) := by
    have herr : PowerKept s (Machine.wr t R.DSP_CFG_ERR (BitVec.ofNat 64 (st + c <<< 8 + 1 <<< 63))) := h.wr (by decide) _
    exact ite (herr.conflictFrom _ _ _ _ _ _ _) herr
  exact ite h (ite (hrefuse _) (ite (hrefuse _) (h.regPut (by unfold R.PWR_STAT R.DSP_CSET; omega) _)))

theorem scfDomainWrite (p : Nat) (v : Word) : PowerKept s (after (execScfDomainWrite p v t) t) :=
  ite h (ite (conflictFrom (h.wr (a := R.SCF_CFG_ERR) (by decide) _) _ _ _ _ _ _ _) (h.regPut (by unfold R.PWR_STAT R.SCF_DOMAIN; omega) _))

theorem winEntryWord1Write (i : Nat) (v : Word) : PowerKept s (after (execWinEntryWord1Write i v t) t) := ite h (h.same rfl rfl)

theorem scoLvuPwrWrite (core : Nat) (v : Word) : PowerKept s (after (execScoLvuPwrWrite core v t) t) := by
  have hfield : PowerKept s (Machine.wrf t (R.SCO_LVU_PWR (core / 96) (core % 96)) 0 17 (fld v 0 17)) :=
    h.wrf (by unfold R.PWR_STAT R.SCO_LVU_PWR; omega) _ _ _
  exact ite (ite (hfield.same rfl rfl) hfield) h

theorem setTh (k : Nat) (th : Thread) : PowerKept s (setTh t k th) := h.same rfl rfl

theorem ncoPreemptReq (core : Nat) (v : Word) : PowerKept s (after (execNcoPreemptReq core v t) t) := by
  rw [execNcoPreemptReq, after_next]
  extract_lets reg th0 t1
  have hreg : R.PWR_STAT ≠ reg := by
    unfold reg R.PWR_STAT R.NCO_PREEMPT
    omega
  clear_value reg
  have h1 : PowerKept s t1 := h.regPut hreg _
  clear_value t1
  exact ite h (ite h1 ((h1.setTh _ _).wrf hreg _ _ _))

end

/-! R25: by block, the stores to an address that has no row. -/

section
variable (h : PowerKept s t) {a : Nat} (hlo : R.SEC_STAT ≤ a) (v : Word)
include h hlo

theorem regPutBeyond : PowerKept s (Machine.regPut t a v) := h.regPut (by unfold R.SEC_STAT R.PWR_STAT at *; omega) v

theorem storeSec (hnone : rowsSEC.find? (fun r => r.covers a) = none) : PowerKept s (Machine.storeSec t a v) := by
  have hput := h.regPutBeyond hlo v
  refine skip (ne_of_uncovered hnone (by decide)) (skip (ne_of_uncovered hnone (by decide)) (ite ?_ hput))
  exact ite (ite (h.secKslotLoad _ _) hput) (ite (h.wr (by unfold R.SEC_STAT R.PWR_STAT at *; omega) _) h)

theorem storeBbx (hnone : rowsBBX.find? (fun r => r.covers a) = none) : PowerKept s (Machine.storeBbx t a v) :=
  skip (ne_of_uncovered hnone (by decide)) (ite (ite h (h.evtWrite _ _ _ _)) (h.regPutBeyond hlo v))

theorem storeDsp (hnone : rowsDSP.find? (fun r => r.covers a) = none) : PowerKept s (Machine.storeDsp t a v) := by
  have hctx := not_entry_of_uncovered hnone (base := 0xf0000060800) (n := 64) (st := 0x10) (by decide)
  have hring := not_entry_of_uncovered hnone (base := 0xf0000061000) (n := 256) (st := 0x20) (by decide)
  unfold Machine.storeDsp
  rw [nsub_eq, R.DSP_CFG]
  refine skip (ne_of_uncovered hnone (by decide)) (skip (ne_of_uncovered hnone (by decide)) (skip (ne_of_uncovered hnone (by decide)) ?_))
  refine skip (by omega) (skip (by omega) (ite (h.dspCsetWrite _ _ _ _) (h.regPutBeyond hlo v)))

theorem storeCkp (hnone : rowsCKP.find? (fun r => r.covers a) = none) (hbase : R.CKP_CFG 0 ≤ a) : PowerKept s (Machine.storeCkp t a v) := by
  have hcfg := not_entry_of_uncovered hnone (base := 0xf0000070000) (n := 8) (st := 0x100) (by decide)
  have hcmd := not_entry_of_uncovered hnone (base := 0xf0000070038) (n := 8) (st := 0x100) (by decide)
  have hput := h.regPutBeyond hlo v
  unfold Machine.storeCkp
  rw [R.CKP_CFG] at hbase
  rw [nsub_eq, R.CKP_CFG]
  refine cases (fun hin => skip (by omega) (skip (by omega) (ite h hput))) fun _ => ite (ite h hput) hput

theorem storeDrn (hnone : rowsDRN.find? (fun r => r.covers a) = none) (hbase : R.DRN_BAY 0 ≤ a) : PowerKept s (Machine.storeDrn t a v) := by
  have hbay := not_entry_of_uncovered hnone (base := 0xf0000080000) (n := 2) (st := 0x20) (by decide)
  have harea := not_entry_of_uncovered hnone (base := 0xf0000080100) (n := 8) (st := 0x20) (by decide)
  have hsize := not_entry_of_uncovered hnone (base := 0xf0000080108) (n := 8) (st := 0x20) (by decide)
  have hxfer := not_entry_of_uncovered hnone (base := 0xf0000080110) (n := 8) (st := 0x20) (by decide)
  have hput := h.regPutBeyond hlo v
  unfold Machine.storeDrn
  rw [R.DRN_BAY] at hbase
  rw [nsub_eq, R.DRN_BAY]
  refine skip (by omega) (cases (fun hin => ?_) fun _ => hput)
  exact skip (by omega) (skip (by omega) (skip (by omega) hput))

theorem storeScf (hnone : rowsSCF.find? (fun r => r.covers a) = none) : PowerKept s (Machine.storeScf t a v) := by
  have hport := not_entry_of_uncovered hnone (base := 0xf0000100100) (n := 16) (st := 0x20) (by decide)
  unfold Machine.storeScf
  rw [nsub_eq, R.SCF_COORD]
  refine skip (ne_of_uncovered hnone (by decide)) (skip (ne_of_uncovered hnone (by decide)) (ite (h.scfDomainWrite _ _) (skip (by omega) (h.regPutBeyond hlo v))))

theorem storeCol (hnone : rowsCOL.find? (fun r => r.covers a) = none) : PowerKept s (Machine.storeCol t a v) := by
  have hgroup := not_entry_of_uncovered hnone (base := 0xf0000204000) (n := 1024) (st := 0x10) (by decide)
  have htrig := not_entry_of_uncovered hnone (base := 0xf0000280000) (n := 8192) (st := 0x40) (by decide)
  have hput := h.regPutBeyond hlo v
  unfold Machine.storeCol
  rw [nsub_eq, R.COL_CFG]
  refine cases (fun hin => skip (by omega) (ite h hput)) fun _ => ite (hput.fireCounter _) (ite h (cases (fun hin => skip (by omega) (ite h hput)) fun _ => hput))

theorem storeMem (hnone : regRow a = none) (hdie : 1 ≤ regDie a ∧ regDie a ≤ 2) : PowerKept s (Machine.storeMem t a v) := by
  have hoff : regOff a = (a - 0xf0000000000) % 0x40000000 := by rw [regOff, nsub_eq]
  rw [regDie, nsub_eq] at hdie
  rw [regRow, rowsAt, nsub_eq] at hnone
  rw [if_neg (by omega), if_pos hdie.2, ← hoff] at hnone
  have hput := h.regPutBeyond hlo v
  unfold Machine.storeMem
  refine skip ?_ (skip ?_ (skip ?_ (ite (ite (h.measWrite0 _ _ _) (ite (ite (h.secMeasGo _ _ _) (ite h hput)) h)) hput)))
  · rintro ⟨hlt, hmod⟩
    rw [if_pos (by omega)] at hnone
    have hpart := not_halfEntry_of_uncovered hnone (base := 0xf0040000000) (n := 9) (st := 0x10) (by decide)
    omega
  · rintro ⟨hge, hlt, hmod⟩
    rw [if_neg (by omega), if_pos (by omega)] at hnone
    have hpart := not_halfEntry_of_uncovered hnone (base := 0xf0041000000) (n := 8) (st := 0x10) (by decide)
    omega
  · rintro ⟨hge, hlt, hmod⟩
    rw [if_neg (by omega), if_neg (by omega), if_pos (by omega)] at hnone
    have hpart := not_halfEntry_of_uncovered hnone (base := 0xf0042000000) (n := 8) (st := 0x20) (by decide)
    omega

end

end PowerKept

end Sys2Proof.Machine
end

section
/-! Stages 1 to 5 of start-up (R362-R364, R415, R421, R434). -/

namespace Sys2Proof.Machine

namespace PowerKept

variable {s t : State}

/-- R25: a store to an address that no register has leaves the power status alone. -/
theorem regStore (h : PowerKept s t) {a : Nat} (hnone : regRow a = none) (hout : ¬ (R.PWR_REGIME ≤ a ∧ a < R.SEC_STAT)) (v : Word) :
    PowerKept s (Machine.regStore t a v) := by
  have hput : PowerKept s (Machine.regPut t a v) := by rwa [regPut_of_none v hnone]
  have hrows := hnone
  unfold R.PWR_REGIME R.SEC_STAT at hout
  simp only [regRow, rowsAt, nsub_eq] at hrows
  by_cases hbelow : a < R.SEC_STAT
  · have hdie : regDie a = 0 := by
      unfold R.SEC_STAT at hbelow
      rw [regDie, nsub_eq]
      omega
    have hoff : regOff a < 0x20000 := by
      unfold R.SEC_STAT at hbelow
      rw [regOff, nsub_eq]
      omega
    unfold Machine.regStore
    rwa [if_pos hdie, if_pos hoff]
  have hlo : R.SEC_STAT ≤ a := Nat.le_of_not_lt hbelow
  unfold R.SEC_STAT at hbelow
  by_cases hdie : (a - 0xf0000000000) / 0x40000000 = 0
  · rw [if_pos hdie] at hrows
    simp only [Machine.regStore, regDie, regOff, nsub_eq, if_pos hdie]
    refine skip (by omega) (skip (by omega) ?_)
    rw [if_neg (by omega), if_neg (by omega), if_neg (by omega)] at hrows
    refine cases (fun hsec => h.storeSec hlo v (by rwa [if_pos hsec] at hrows)) fun hsec => ?_
    rw [if_neg hsec] at hrows
    refine cases (fun hbbx => h.storeBbx hlo v (by rwa [if_pos hbbx] at hrows)) fun hbbx => cases (fun _ => hput) fun hplk => ?_
    rw [if_neg hbbx, if_neg hplk] at hrows
    refine cases (fun hdsp => h.storeDsp hlo v (by rwa [if_pos hdsp] at hrows)) fun hdsp => ?_
    rw [if_neg hdsp] at hrows
    refine cases (fun hckp => h.storeCkp hlo v (by rwa [if_pos hckp] at hrows) (by unfold R.CKP_CFG; omega)) fun hckp => ?_
    rw [if_neg hckp] at hrows
    refine cases (fun hdrn => h.storeDrn hlo v (by rwa [if_pos hdrn] at hrows) (by unfold R.DRN_BAY; omega)) fun hdrn => ?_
    rw [if_neg hdrn] at hrows
    refine cases (fun hscf => h.storeScf hlo v (by rwa [if_pos hscf] at hrows)) fun hscf => ?_
    rw [if_neg hscf] at hrows
    refine cases (fun hcol => h.storeCol hlo v (by rwa [if_pos hcol] at hrows)) fun hcol => ?_
    rw [if_neg hcol] at hrows
    have hwin := not_entry_of_uncovered hrows (base := 0xf0010000000) (n := 2097152) (st := 0x10) (by decide)
    exact cases (fun hin => skip (by omega) (h.winEntryWord1Write _ _)) fun _ => h
  · unfold Machine.regStore
    refine skip (by rwa [regDie, nsub_eq]) (cases (fun hmem => h.storeMem hlo v hnone ⟨?_, hmem⟩) fun _ => ?_)
    · rw [regDie, nsub_eq]
      omega
    · exact ite (ite (h.scoLvuPwrWrite _ _) hput) (ite (h.ncoPreemptReq _ _) hput)

/-- R421: the register writes of an image that name no register leave the power status alone. -/
theorem regStores {ws : List (Nat × Word)} (hws : ∀ w ∈ ws, regRow w.1 = none) (h : PowerKept s t) :
    PowerKept s (ws.foldl (fun u w => if R.PWR_REGIME ≤ w.1 ∧ w.1 < R.SEC_STAT then u else Machine.regStore u w.1 w.2) t) := by
  induction ws generalizing t with
  | nil => exact h
  | cons w ws ih =>
    exact ih (fun x hx => hws x (List.mem_cons_of_mem _ hx)) (cases (fun _ => h) fun hout => h.regStore (hws w List.mem_cons_self) hout _)

end PowerKept

section
variable {s t : State}

theorem inStage_iff (s : State) (k : Nat) : inStage s k = true ↔ pwrState s = 1 ∧ unpowered s = false ∧ rdf s R.PWR_STAT 4 4 = k := by
  simp only [inStage, Bool.and_eq_true, beq_iff_eq, Bool.not_eq_true', and_assoc]

/-- R415: the next stage is in progress. -/
theorem PowerKept.inStage_toStage (h : PowerKept s t) {j k : Nat} (hs : inStage s j = true) (hk : k < 16) : inStage (toStage t k) k = true := by
  obtain ⟨hstate, hpower, -⟩ := (inStage_iff s j).1 hs
  have hstat : rd (toStage t k) R.PWR_STAT = putf (rd t R.PWR_STAT) 4 4 k := sget_sset_same regReset _ _ _ h.regs
  refine (inStage_iff _ _).2 ⟨?_, h.locked.trans hpower, ?_⟩
  · rw [pwrState, rdf, hstat, fld_putf_apart _ _ _ _ _ _ (by decide) (by decide), h.stat]
    exact hstate
  · rw [rdf, hstat, fld_putf_same _ _ _ _ (by decide)]
    exact Nat.mod_eq_of_lt hk

theorem PowerKept.inStage_eq (h : PowerKept s t) (k : Nat) : inStage t k = inStage s k := by
  rw [inStage, pwrState, rdf_of_rd h.stat, rdf_of_rd h.stat, unpowered, h.locked]
  rfl

/-- R415: the start of a stage moves the power status alone. -/
theorem rd_toStage (h : s.Inv) (k : Nat) {a : Nat} (ha : a ≠ R.PWR_STAT) : rd (toStage s k) a = rd s a := rd_wrf_ne h _ _ _ ha

theorem exec_pwrgoodAsserted_powered (hpower : unpowered s = false) : exec .pwrgoodAsserted s =
    .next (if inStage { s with pwrgood := true } 1 then { toStage { s with pwrgood := true } 2 with startAt := max s.startAt (nsub s.ltc.toNat 5000000) } else { s with pwrgood := true }) := by
  show execPwrgoodAsserted s = _
  rw [execPwrgoodAsserted, if_neg (by simp [hpower])]

/-- R29, R415: the root PLL is locked at a multiplier of 80. -/
def pllLocked (s : State) : State := wrf (wrf (wrf (wrf s R.CLK_STATUS 0 1 1) R.CLK_STATUS 3 1 1) R.CLK_STATUS 4 1 0) R.CLK_STATUS 8 8 80

theorem pllLocked_kept (h : s.Inv) : PowerKept s (pllLocked s) := by
  have hclk : R.PWR_STAT ≠ R.CLK_STATUS := by decide
  exact ((((PowerKept.refl h).wrf hclk _ _ _).wrf hclk _ _ _).wrf hclk _ _ _).wrf hclk _ _ _

theorem pllLocked_inv (h : s.Inv) : (pllLocked s).Inv := wrf_inv _ _ _ _ (wrf_inv _ _ _ _ (wrf_inv _ _ _ _ (wrf_inv _ _ _ _ h)))

theorem pllLocked_lock (h : s.Inv) : rdf (pllLocked s) R.CLK_STATUS 0 1 = 1 := by
  have hlock := wrf_inv R.CLK_STATUS 0 1 1 h
  have hsclk := wrf_inv R.CLK_STATUS 3 1 1 hlock
  have href := wrf_inv R.CLK_STATUS 4 1 0 hsclk
  rw [pllLocked, rdf_wrf_apart href _ _ _ _ _ _ (by decide) (by decide), rdf_wrf_apart hsclk _ _ _ _ _ _ (by decide) (by decide),
    rdf_wrf_apart hlock _ _ _ _ _ _ (by decide) (by decide), rdf_wrf_same h _ _ _ _ (by decide)]
  rfl

theorem pllLocked_mult (h : s.Inv) : rdf (pllLocked s) R.CLK_STATUS 8 8 = 80 :=
  rdf_wrf_same (wrf_inv _ _ _ _ (wrf_inv _ _ _ _ (wrf_inv _ _ _ _ h))) _ _ _ _ (by decide)

theorem exec_rootPllLock_locked (hstage : inStage s 2 = true) (hgood : s.pwrgood = true) (href : s.refOk = true) :
    exec .rootPllLock s = .next { toStage (pllLocked s) 3 with faultN := false, ltcPhase := 0 } := by
  show execRootPllLock s = _
  rw [execRootPllLock, if_neg (by simp [hstage, hgood, href])]
  rfl

theorem rootPllLocks (h : s.Inv) (hstage : inStage s 2 = true) (hgood : s.pwrgood = true) (href : s.refOk = true) :
    ∃ u, exec .rootPllLock s = .next u ∧ inStage u 3 = true ∧ rdf u R.CLK_STATUS 0 1 = 1 ∧ rdf u R.CLK_STATUS 8 8 = 80 ∧ u.faultN = false := by
  have hclk : rd (toStage (pllLocked s) 3) R.CLK_STATUS = rd (pllLocked s) R.CLK_STATUS := rd_toStage (pllLocked_inv h) 3 (by decide)
  exact ⟨_, exec_rootPllLock_locked hstage hgood href, (pllLocked_kept h).inStage_toStage hstage (by decide),
    (rdf_of_rd hclk 0 1).trans (pllLocked_lock h), (rdf_of_rd hclk 8 8).trans (pllLocked_mult h), rfl⟩

theorem railsRise (h : s.Inv) (hstage : inStage s 3 = true) :
    ∃ u, exec .railsUp s = .next u ∧ inStage u 4 = true ∧ rdf u R.PWR_RAIL 0 12 = 0x7FF := by
  have hinv : (toStage s 4).Inv := wrf_inv _ _ _ _ h
  have hstage4 := (PowerKept.refl h).inStage_toStage hstage (show 4 < 16 by decide)
  refine ⟨_, next_ite_pos hstage, ?_, rdf_wrf_same hinv _ _ _ _ (by decide)⟩
  rw [((PowerKept.refl hinv).wrf (by decide) _ _ _).inStage_eq]
  exact hstage4

/-- R362-R364: a slot's image is taken. -/
def imageBooted (s : State) (x : ImageSlot) (slot : Nat) : State :=
  let fl := leNat ((x.header.drop 5).take 1)
  let svn := leNat ((x.header.drop 4).take 1)
  let conf := if fl.testBit 1 then 1 else 0
  let s := wrf (wrf (wrf s R.SEC_STAT 6 1 slot) R.SEC_STAT 16 6 svn) R.SEC_STAT 0 1 conf
  let s := wrf (wrf s R.SEC_STAT 3 1 (if conf = 1 ∨ Config.lockFused = true then 1 else 0)) R.PWR_REGIME 10 1 conf
  { toStage s 5 with imgRead := true, imgDigest := imageDigest x, svnTo := if fl.testBit 0 = true ∧ rdf s R.SEC_STAT 8 6 < svn then some (svn % 64) else none }

/-- R362: the security version in a slot's header. -/
def slotSvn (x : ImageSlot) : Nat := leNat ((x.header.drop 4).take 1)

/-- R363: slot B is booted. -/
abbrev BootsB (s : State) (a b : ImageSlot) : Prop := imageBad s a ≠ 0 ∨ (imageBad s b = 0 ∧ slotSvn a < slotSvn b)

/-- R362-R364: SEC_STAT as the image sets it, but for the lock. -/
def imageMarked (s : State) (x : ImageSlot) (slot conf : Nat) : State :=
  wrf (wrf (wrf s R.SEC_STAT 6 1 slot) R.SEC_STAT 16 6 (slotSvn x)) R.SEC_STAT 0 1 conf

section
variable (h : s.Inv) (x : ImageSlot) {slot : Nat} (hslot : slot < 2)
include h

theorem imageMarked_inv (conf : Nat) : (imageMarked s x slot conf).Inv := wrf_inv _ _ _ _ (wrf_inv _ _ _ _ (wrf_inv _ _ _ _ h))

theorem imageBooted_inStage (hstage : inStage s 4 = true) : inStage (imageBooted s x slot) 5 = true := by
  have hsec : R.PWR_STAT ≠ R.SEC_STAT := by decide
  have hkept (conf lock : Nat) : PowerKept s (wrf (wrf (imageMarked s x slot conf) R.SEC_STAT 3 1 lock) R.PWR_REGIME 10 1 conf) :=
    (((((PowerKept.refl h).wrf hsec _ _ _).wrf hsec _ _ _).wrf hsec _ _ _).wrf hsec _ _ _).wrf (by decide) _ _ _
  exact (hkept _ _).inStage_toStage hstage (by decide)

include hslot in
theorem imageMarked_slot (conf : Nat) : rdf (imageMarked s x slot conf) R.SEC_STAT 6 1 = slot := by
  have hbit := wrf_inv R.SEC_STAT 6 1 slot h
  rw [imageMarked, rdf_wrf_apart (wrf_inv _ _ _ _ hbit) _ _ _ _ _ _ (by decide) (by decide), rdf_wrf_apart hbit _ _ _ _ _ _ (by decide) (by decide),
    rdf_wrf_same h _ _ _ _ (by decide)]
  exact Nat.mod_eq_of_lt hslot

include hslot in
theorem imageBooted_slot : rdf (imageBooted s x slot) R.SEC_STAT 6 1 = slot := by
  have hkept (conf lock : Nat) : rdf (toStage (wrf (wrf (imageMarked s x slot conf) R.SEC_STAT 3 1 lock) R.PWR_REGIME 10 1 conf) 5) R.SEC_STAT 6 1 = slot := by
    have hmark := imageMarked_inv h x (slot := slot) conf
    have hlock := wrf_inv R.SEC_STAT 3 1 lock hmark
    rw [rdf_of_rd (rd_toStage (wrf_inv _ _ _ _ hlock) 5 (by decide)), rdf_of_rd (rd_wrf_ne hlock _ _ _ (by decide)),
      rdf_wrf_apart hmark _ _ _ _ _ _ (by decide) (by decide), imageMarked_slot h x hslot]
  exact hkept _ _

end

section
variable (hstage : inStage s 4 = true) (himage : s.noImage = false) (hwait : s.i3cWait = none) {a b : ImageSlot}
include hstage himage hwait

theorem exec_imageVerify_none (ha : imageBad s a ≠ 0) (hb : imageBad s b ≠ 0) : exec (.imageVerify a b) s = .next (imageNone s (imageBad s a) (imageBad s b)) := by
  show execImageVerify a b s = _
  rw [execImageVerify, if_neg (by simp [hstage, himage, hwait])]
  exact congrArg _ (if_pos ⟨ha, hb⟩)

theorem exec_imageVerify_valid (hvalid : ¬ (imageBad s a ≠ 0 ∧ imageBad s b ≠ 0)) :
    exec (.imageVerify a b) s = .next (imageBooted s (if BootsB s a b then b else a) (if BootsB s a b then 1 else 0)) := by
  show execImageVerify a b s = _
  rw [execImageVerify, if_neg (by simp [hstage, himage, hwait])]
  exact congrArg _ (if_neg hvalid)

theorem exec_imageVerify_b (hb : imageBad s b = 0) (hslot : BootsB s a b) : exec (.imageVerify a b) s = .next (imageBooted s b 1) := by
  rw [exec_imageVerify_valid hstage himage hwait fun hnone => hnone.2 hb, if_pos hslot, if_pos hslot]

theorem exec_imageVerify_a (ha : imageBad s a = 0) (hslot : ¬ BootsB s a b) : exec (.imageVerify a b) s = .next (imageBooted s a 0) := by
  rw [exec_imageVerify_valid hstage himage hwait fun hnone => hnone.1 ha, if_neg hslot, if_neg hslot]

end

theorem imageNone_inStage (h : s.Inv) (hstage : inStage s 4 = true) (a b : Nat) : inStage (imageNone s a b) 4 = true := by
  have hrec := (PowerKept.refl h).bbx true 0x09 0 0 0 (leBytes 1 1 ++ leBytes 1 a ++ leBytes 1 b)
  have hkept : PowerKept s (imageNone s a b) := hrec.same rfl rfl
  rw [hkept.inStage_eq]
  exact hstage

/-- R434: what an arbitration loss does. -/
theorem exec_i3cArbitrationLoss_reading (hstate : pwrState s = 1) (hpower : unpowered s = false) (hread : s.imgRead = false) (hwait : s.i3cWait = none) :
    exec .i3cArbitrationLoss s = .next (if 8 ≤ s.i3cTries + 1 then imageNone s 5 5 else { s with i3cTries := s.i3cTries + 1, i3cWait := some (s.ltc.toNat + 1000000) }) := by
  show execI3cArbitrationLoss s = _
  rw [execI3cArbitrationLoss, if_neg (by simp [hstate, hpower, hread, hwait])]

theorem exec_i3cRetry_some {t : Nat} (hwait : s.i3cWait = some t) : exec .i3cRetry s = .next (if t ≤ s.ltc.toNat then { s with i3cWait := none } else s) := by
  show execI3cRetry s = _
  rw [execI3cRetry, hwait]

/-! R415, R421: the image is applied. -/

/-- R421: the image's register writes. -/
def imageWrites (s : State) (ws : List (Nat × Word)) : State :=
  ws.foldl (fun u w => if R.PWR_REGIME ≤ w.1 ∧ w.1 < R.SEC_STAT then u else regStore u w.1 w.2) s

theorem imageWrites_inv (h : s.Inv) (ws : List (Nat × Word)) : (imageWrites s ws).Inv := by
  refine foldl_keeps (P := State.Inv) (fun t w ht => ?_) ws h
  split
  · exact ht
  · exact (regStore_kept t w.1 w.2 (inv_kept ht)).2

/-- R421: the power regime of the image, with its cap and its clock. -/
def regimeApplied (s : State) (p : Nat) : State :=
  let t := wrf (wrf s R.PWR_REGIME 0 2 p) R.PWR_POWER 48 16 (capOf p)
  if p = 2 then wrf t R.CLK_STATUS 8 8 64 else t

theorem exec_imageApply_stage {p : Nat} {ws : List (Nat × Word)} (hstage : inStage s 5 = true) (hp : p < 3) :
    exec (.imageApply p ws) s = .next (toStage (regimeApplied (imageWrites s ws) p) 6) := by
  show execImageApply p ws s = _
  rw [execImageApply, if_neg (by simp [hstage, hp])]
  rfl

section
variable (h : s.Inv) (p : Nat)
include h

/-- R421: the registers that the regime moves. -/
theorem regimeApplied_leaves : Leaves (fun a => a ∈ [R.PWR_REGIME, R.PWR_POWER, R.CLK_STATUS]) s (regimeApplied s p) := by
  have hcap : Leaves (fun a => a ∈ [R.PWR_REGIME, R.PWR_POWER, R.CLK_STATUS]) s (wrf (wrf s R.PWR_REGIME 0 2 p) R.PWR_POWER 48 16 (capOf p)) :=
    ((Leaves.refl h).wrf (by decide) _ _ _).wrf (by decide) _ _ _
  unfold regimeApplied
  dsimp only
  split
  · exact hcap.wrf (by decide) _ _ _
  · exact hcap

theorem regimeApplied_clock {a : Nat} (ha : a ≠ R.CLK_STATUS) : rd (regimeApplied s p) a = rd (wrf (wrf s R.PWR_REGIME 0 2 p) R.PWR_POWER 48 16 (capOf p)) a := by
  unfold regimeApplied
  dsimp only
  split
  · exact rd_wrf_ne (wrf_inv _ _ _ _ (wrf_inv _ _ _ _ h)) _ _ _ ha
  · rfl

theorem regimeApplied_regime (hp : p < 3) : rdf (regimeApplied s p) R.PWR_REGIME 0 2 = p := by
  rw [rdf_of_rd (regimeApplied_clock h p (by decide)), rdf_of_rd (rd_wrf_ne (wrf_inv _ _ _ _ h) _ _ _ (by decide)), rdf_wrf_same h _ _ _ _ (by decide)]
  exact Nat.mod_eq_of_lt (by omega)

theorem regimeApplied_cap : rdf (regimeApplied s p) R.PWR_POWER 48 16 = capOf p := by
  rw [rdf_of_rd (regimeApplied_clock h p (by decide)), rdf_wrf_same (wrf_inv _ _ _ _ h) _ _ _ _ (by decide)]
  refine Nat.mod_eq_of_lt ?_
  unfold capOf
  split_ifs <;> decide

omit h in
theorem regimeApplied_mem : (regimeApplied s p).mem = s.mem := by
  unfold regimeApplied
  dsimp only
  split <;> rfl

omit h in
theorem regimeApplied_kept (hkept : PowerKept s t) : PowerKept s (regimeApplied t p) := by
  have hcap : PowerKept s (wrf (wrf t R.PWR_REGIME 0 2 p) R.PWR_POWER 48 16 (capOf p)) := (hkept.wrf (by decide) _ _ _).wrf (by decide) _ _ _
  exact .ite (hcap.wrf (by decide) _ _ _) hcap

end

theorem imageApplies (h : s.Inv) {p : Nat} {ws : List (Nat × Word)} (hstage : inStage s 5 = true) (hp : p < 3) :
    ∃ u, exec (.imageApply p ws) s = .next u ∧ rdf u R.PWR_STAT 4 4 = 6 ∧ rdf u R.PWR_REGIME 0 2 = p ∧ rdf u R.PWR_POWER 48 16 = capOf p ∧
      (∀ a, a ∉ [R.PWR_STAT, R.PWR_REGIME, R.PWR_POWER, R.CLK_STATUS] → rd u a = rd (imageWrites s ws) a) ∧ u.mem = (imageWrites s ws).mem ∧
      ((∀ w ∈ ws, regRow w.1 = none) → inStage u 6 = true) := by
  have hwritten := imageWrites_inv h ws
  have hregime := regimeApplied_leaves hwritten p
  refine ⟨_, exec_imageApply_stage hstage hp, rdf_wrf_same hregime.inv _ _ _ _ (by decide), ?_, ?_, fun a ha => ?_, regimeApplied_mem p, fun hws => ?_⟩
  · rw [rdf_of_rd (rd_toStage hregime.inv 6 (by decide)), regimeApplied_regime hwritten p hp]
  · rw [rdf_of_rd (rd_toStage hregime.inv 6 (by decide)), regimeApplied_cap hwritten p]
  · obtain ⟨hstat, hrest⟩ := not_or.1 (List.mem_cons.not.1 ha)
    rw [rd_toStage hregime.inv 6 hstat, hregime.rd_eq a (decide_eq_false hrest)]
  · exact (regimeApplied_kept p ((PowerKept.refl h).regStores hws)).inStage_toStage hstage (by decide)

theorem earlyStages : Sys2Proof.Parts.EarlyStages := by
  intro s h
  have hkept := PowerKept.refl h
  refine ⟨fun hstage => ?_, fun hpower hstage => ?_, rootPllLocks h, fun hstage hlate => ?_, fun hearly => ?_, railsRise h,
    fun hstage himage hwait a b => ⟨fun ha hb => ?_, fun ha hslot => ?_, fun hb hslot => ?_⟩, fun hstate hpower hread hwait => ⟨fun htries => ?_, fun htries => ?_⟩,
    fun t hwait => ⟨fun hdue => ?_, fun hsoon => ?_⟩, fun p ws hstage hp => imageApplies h hstage hp⟩
  · obtain ⟨-, hpower, -⟩ := (inStage_iff s 1).1 hstage
    have hgood : inStage { s with pwrgood := true } 1 = true := hstage
    exact ⟨_, (exec_pwrgoodAsserted_powered hpower).trans (next_ite_pos hgood), rfl, hkept.inStage_toStage hstage (by decide), rfl⟩
  · have hgood : ¬ inStage { s with pwrgood := true } 1 = true := by
      show ¬ inStage s 1 = true
      simp [hstage]
    exact (exec_pwrgoodAsserted_powered hpower).trans (next_ite_neg hgood)
  · exact next_ite_pos (by simp [hstage, hlate])
  · refine next_ite_neg ?_
    rcases hearly with hstage | hsoon
    · simp [hstage]
    · simp [hsoon]
  · exact ⟨_, exec_imageVerify_none hstage himage hwait ha hb, rfl, rfl, imageNone_inStage h hstage _ _⟩
  · have hnot : ¬ BootsB s a b := by
      rintro (hbad | ⟨hb, hlt⟩)
      · exact hbad ha
      · exact hslot.elim (fun hbad => hbad hb) (Nat.not_le.2 hlt)
    exact ⟨_, exec_imageVerify_a hstage himage hwait ha hnot, imageBooted_inStage h a hstage, imageBooted_slot h a (by decide), rfl, rfl⟩
  · have hboots : BootsB s a b := hslot.imp_right fun hlt => ⟨hb, hlt⟩
    exact ⟨_, exec_imageVerify_b hstage himage hwait hb hboots, imageBooted_inStage h b hstage, imageBooted_slot h b (by decide), rfl, rfl⟩
  · exact (exec_i3cArbitrationLoss_reading hstate hpower hread hwait).trans (next_ite_neg (by omega))
  · exact (exec_i3cArbitrationLoss_reading hstate hpower hread hwait).trans (next_ite_pos (by omega))
  · exact (exec_i3cRetry_some hwait).trans (next_ite_pos hdue)
  · exact (exec_i3cRetry_some hwait).trans (next_ite_neg (Nat.not_le.2 hsoon))

end

end Sys2Proof.Machine
end

section
/-! Stages 6 to 10 of start-up (R224, R237, R238, R270, R360, R415, R416, R419). -/

namespace Sys2Proof.Machine

theorem foldl_keeps_mem {α : Type} {P : State → Prop} {f : State → α → State} {l : List α} (hf : ∀ x ∈ l, ∀ s, P s → P (f s x)) : ∀ {s}, P s → P (l.foldl f s) := by
  induction l with
  | nil => exact id
  | cons x l ih => exact fun hs => ih (fun y hy => hf y (List.mem_cons_of_mem _ hy)) (hf x List.mem_cons_self _ hs)

/-- What one element brings about, and every step keeps, holds once that element has had its turn. -/
theorem foldl_reaches {α : Type} {I Q : State → Prop} {f : State → α → State} {x : α} (hI : ∀ s y, I s → I (f s y)) (hkeep : ∀ s y, Q s → Q (f s y))
    (hx : ∀ s, I s → Q (f s x)) {l : List α} (hmem : x ∈ l) : ∀ {s}, I s → Q (l.foldl f s) := by
  induction l with
  | nil => exact absurd hmem List.not_mem_nil
  | cons y l ih =>
    intro s hs
    by_cases hxl : x ∈ l
    · exact ih hxl (hI s y hs)
    · obtain rfl : x = y := (List.mem_cons.1 hmem).resolve_right hxl
      exact foldl_keeps (P := Q) hkeep l (hx s hs)

section
variable {s t : State}

/-! R237, R416: the channels of a half. -/

/-- R237: the channel is mapped out in a well-kept package. -/
def MappedOut (h c : Nat) (s : State) : Prop := s.Inv ∧ rdf s (R.MEM_CH_STAT h c) 15 1 = 1

section
variable {h c : Nat} (hs : MappedOut h c s)
include hs

theorem MappedOut.leaves {f : Nat → Bool} (ht : Leaves f s t) (hf : f (R.MEM_CH_STAT h c) = false) : MappedOut h c t :=
  ⟨ht.inv, (rdf_of_rd (ht.rd_eq _ hf) 15 1).trans hs.2⟩

theorem MappedOut.wr {a : Nat} (ha : R.MEM_CH_STAT h c ≠ a) (v : Word) : MappedOut h c (wr s a v) :=
  hs.leaves ((Leaves.refl hs.1).wr (onlyReg_self a) v) (onlyReg_of_ne ha)

theorem MappedOut.wrf {a : Nat} (ha : R.MEM_CH_STAT h c ≠ a) (lo n v : Nat) : MappedOut h c (wrf s a lo n v) := hs.wr ha _

theorem MappedOut.bbx (perm : Bool) (ty src st sub : Nat) (pay : List Byte) : MappedOut h c (bbx s perm ty src st sub pay) :=
  hs.leaves (bbx_leaves hs.1 ..) (by simp [bbxReg, R.MEM_CH_STAT, R.BBX_SEQ, R.BBX_STAT, R.BBX_RING]; omega)

/-- R237: a bit beside the mark of a channel. -/
theorem MappedOut.beside (a v : Nat) : MappedOut h c (Machine.wrf s a 16 1 v) := by
  by_cases ha : R.MEM_CH_STAT h c = a
  · subst ha
    exact ⟨wrf_inv _ _ _ _ hs.1, (rdf_wrf_apart hs.1 _ _ _ _ _ _ (by decide) (by decide)).trans hs.2⟩
  · exact hs.wrf ha _ _ _

/-- R237: the mark of a channel, this one or another. -/
theorem MappedOut.mark (a : Nat) : MappedOut h c (Machine.wrf s a 15 1 1) := by
  by_cases ha : R.MEM_CH_STAT h c = a
  · subst ha
    exact ⟨wrf_inv _ _ _ _ hs.1, rdf_wrf_same hs.1 _ _ _ _ (by decide)⟩
  · exact hs.wrf ha _ _ _

end

/-- R237: a channel that failed is marked and recorded. -/
def channelFailed (h : Nat) (failed : List (Nat × Nat)) (s : State) (c : Nat) : State :=
  if failed.contains (h, c) && rdf s (R.MEM_CH_STAT h c) 15 1 == 0 then
    bbx (wrf s (R.MEM_CH_STAT h c) 15 1 1) true 0x07 (1 + h) 0 0 (leBytes 1 h ++ leBytes 1 c ++ leBytes 1 1)
  else s

/-- R237: a channel trains or is mapped out. -/
def channelMapped (h : Nat) (failed : List (Nat × Nat)) (s : State) (c : Nat) : State :=
  wrf (channelFailed h failed s c) (R.MEM_CH_STAT h c) 16 1 (rdf (channelFailed h failed s c) (R.MEM_CH_STAT h c) 15 1)

/-- R237: the layout of a half with its mapped channels. -/
def layoutShown (s : State) (h : Nat) : State :=
  let n := ((List.range 192).filter (fun c => rdf s (R.MEM_CH_STAT h c) 16 1 == 0)).length
  wrf (wrf s R.PKG_LAYOUT (16 + 8 * h) 8 n) R.PKG_LAYOUT (32 + 10 * h) 10 (3 * n)

/-- R237: the size that an owner has of a half. -/
def sizeShown (h : Nat) (s : State) (p : Nat) : State := wrf s (R.MEM_PART_CFG h p) 34 10 (ownerGib s h p)

theorem mapChannels_eq (s : State) (h : Nat) (failed : List (Nat × Nat)) :
    mapChannels s h failed = (List.range 9).foldl (sizeShown h) (layoutShown ((List.range 192).foldl (channelMapped h failed) s) h) := rfl

section
variable {h c : Nat} (failed : List (Nat × Nat))

theorem channelFailed_inv (hs : s.Inv) (k : Nat) : (channelFailed h failed s k).Inv := by
  unfold channelFailed
  split
  · exact (bbx_leaves (wrf_inv _ _ _ _ hs) ..).inv
  · exact hs

theorem channelMapped_keeps (half k : Nat) (hs : MappedOut h c s) : MappedOut h c (channelMapped half failed s k) := by
  refine .beside ?_ _ _
  unfold channelFailed
  split
  · exact (hs.mark _).bbx _ _ _ _ _ _
  · exact hs

variable {failed} in
/-- R237: a channel that fails to train is mapped out. -/
theorem channelMapped_self (hs : s.Inv) (hfail : failed.contains (h, c) = true) : MappedOut h c (channelMapped h failed s c) := by
  refine .beside ?_ _ _
  unfold channelFailed
  by_cases hmark : rdf s (R.MEM_CH_STAT h c) 15 1 = 0
  · rw [if_pos (by simp only [hfail, hmark, Bool.true_and, beq_self_eq_true])]
    exact .bbx ⟨wrf_inv _ _ _ _ hs, rdf_wrf_same hs _ _ _ _ (by decide)⟩ _ _ _ _ _ _
  · rw [if_neg (by simp only [hmark, Bool.and_eq_true, beq_iff_eq, and_false, not_false_eq_true])]
    have hlt : rdf s (R.MEM_CH_STAT h c) 15 1 < 2 := Nat.mod_lt _ (by decide)
    exact ⟨hs, by omega⟩

theorem channels_keep (half : Nat) (hs : MappedOut h c s) : MappedOut h c ((List.range 192).foldl (channelMapped half failed) s) :=
  foldl_keeps (P := MappedOut h c) (fun _ k ht => channelMapped_keeps failed half k ht) _ hs

/-- R237: what is shown of the layout moves no channel's mark. -/
theorem layout_keeps (half : Nat) (hc : c < 192) (hs : MappedOut h c s) :
    MappedOut h c ((List.range 9).foldl (sizeShown half) (layoutShown s half)) := by
  have hlayout : R.MEM_CH_STAT h c ≠ R.PKG_LAYOUT := by
    unfold R.MEM_CH_STAT R.PKG_LAYOUT
    omega
  refine foldl_keeps_mem (P := MappedOut h c) (fun p hp t ht => ?_) ((hs.wrf hlayout _ _ _).wrf hlayout _ _ _)
  have hp9 := List.mem_range.1 hp
  exact ht.wrf (by unfold R.MEM_CH_STAT R.MEM_PART_CFG; omega) _ _ _

theorem mapChannels_keeps (half : Nat) (hc : c < 192) (hs : MappedOut h c s) : MappedOut h c (mapChannels s half failed) := by
  rw [mapChannels_eq]
  exact layout_keeps half hc (channels_keep failed half hs)

variable {failed} in
theorem mapChannels_maps (hc : c < 192) (hs : s.Inv) (hfail : failed.contains (h, c) = true) : MappedOut h c (mapChannels s h failed) := by
  rw [mapChannels_eq]
  refine layout_keeps h hc (foldl_reaches (I := State.Inv) (Q := MappedOut h c) (fun t k ht => wrf_inv _ _ _ _ (channelFailed_inv failed ht k))
    (fun t k ht => channelMapped_keeps failed h k ht) (fun t ht => channelMapped_self ht hfail) (List.mem_range.2 hc) hs)

end

/-- R238: a remap entry that the stacks' own repair replaces. -/
def entryFreed (s : State) (e : Nat × Nat) : State :=
  if 2 ≤ e.1 || 8192 ≤ e.2 || !bitw (rd s (R.MEM_REMAP e.1 e.2)) 63 then s
  else wrf (wr s (R.MEM_REMAP e.1 e.2) 0) (R.MEM_RAS_STAT e.1) 48 14 (rdf s (R.MEM_RAS_STAT e.1) 48 14 - 1)

theorem entryFreed_keeps {h c : Nat} (hc : c < 192) (e : Nat × Nat) (hs : MappedOut h c s) : MappedOut h c (entryFreed s e) := by
  unfold entryFreed
  split
  · exact hs
  · rename_i hentry
    have hin : e.1 < 2 ∧ e.2 < 8192 := by
      simp only [Bool.or_eq_true, decide_eq_true_eq, not_or] at hentry
      omega
    refine (hs.wr ?_ _).wrf ?_ _ _ _
    · unfold R.MEM_CH_STAT R.MEM_REMAP
      omega
    · unfold R.MEM_CH_STAT R.MEM_RAS_STAT
      omega

/-- R237, R238: HBM has trained. -/
def hbmTrained (s : State) (failed repaired : List (Nat × Nat)) : State := repaired.foldl entryFreed (mapChannels (mapChannels s 0 failed) 1 failed)

theorem hbmTrained_mapped (hs : s.Inv) {failed : List (Nat × Nat)} (repaired : List (Nat × Nat)) {h c : Nat} (hh : h < 2) (hc : c < 192)
    (hfail : failed.contains (h, c) = true) : MappedOut h c (hbmTrained s failed repaired) := by
  refine foldl_keeps (P := MappedOut h c) (fun t e ht => entryFreed_keeps hc e ht) _ ?_
  interval_cases h
  · exact mapChannels_keeps failed 1 hc (mapChannels_maps hc hs hfail)
  · exact mapChannels_maps hc (mapChannels_kept s 0 failed (inv_kept hs)).2 hfail

theorem mapChannels_power (h : Nat) (failed : List (Nat × Nat)) (ht : PowerKept s t) : PowerKept s (mapChannels t h failed) := by
  have hchan (c : Nat) : R.PWR_STAT ≠ R.MEM_CH_STAT h c := by
    unfold R.PWR_STAT R.MEM_CH_STAT
    omega
  have hpart (p : Nat) : R.PWR_STAT ≠ R.MEM_PART_CFG h p := by
    unfold R.PWR_STAT R.MEM_PART_CFG
    omega
  have hlay : R.PWR_STAT ≠ R.PKG_LAYOUT := by decide
  rw [mapChannels_eq]
  refine .foldl (fun t p ht => ht.wrf (hpart p) _ _ _) _ (PowerKept.wrf (PowerKept.wrf (.foldl (fun t c ht => PowerKept.wrf ?_ (hchan c) _ _ _) _ ht) hlay _ _ _) hlay _ _ _)
  exact .ite ((ht.wrf (hchan c) _ _ _).bbx _ _ _ _ _ _) ht

theorem hbmTrained_power (hs : s.Inv) (failed repaired : List (Nat × Nat)) : PowerKept s (hbmTrained s failed repaired) := by
  refine .foldl (fun t e ht => .ite ht (PowerKept.wrf (ht.wr ?_ _) ?_ _ _ _)) _ (mapChannels_power 1 failed (mapChannels_power 0 failed (.refl hs)))
  · unfold R.PWR_STAT R.MEM_REMAP
    omega
  · unfold R.PWR_STAT R.MEM_RAS_STAT
    omega

theorem exec_hbmTraining_stage (hstage : inStage s 6 = true) (failed repaired : List (Nat × Nat)) : exec (.hbmTraining failed repaired) s =
    .next (if (List.range 2).any (fun h => 32 < ((List.range 192).filter (fun c => failed.contains (h, c))).length) then fatal s 6 0 0
      else toStage (hbmTrained s failed repaired) 7) := by
  show execHbmTraining failed repaired s = _
  rw [execHbmTraining, if_neg (by simp [hstage])]
  rfl

theorem hbmTrains (hs : s.Inv) {failed : List (Nat × Nat)} (repaired : List (Nat × Nat)) (hstage : inStage s 6 = true)
    (hfew : ∀ h < 2, ((List.range 192).filter (fun c => failed.contains (h, c))).length ≤ 32) :
    ∃ u, exec (.hbmTraining failed repaired) s = .next u ∧ inStage u 7 = true ∧
      (∀ h < 2, ∀ c < 192, failed.contains (h, c) = true → rdf u (R.MEM_CH_STAT h c) 15 1 = 1) := by
  have hnone : ¬ (List.range 2).any (fun h => 32 < ((List.range 192).filter (fun c => failed.contains (h, c))).length) = true := by
    simp only [List.any_eq_true, List.mem_range, decide_eq_true_eq, not_exists, not_and, Nat.not_lt]
    exact hfew
  refine ⟨_, (exec_hbmTraining_stage hstage failed repaired).trans (next_ite_neg hnone), (hbmTrained_power hs failed repaired).inStage_toStage hstage (by decide),
    fun h hh c hc hfail => ?_⟩
  exact (MappedOut.wrf (hbmTrained_mapped hs repaired hh hc hfail) (by unfold R.MEM_CH_STAT R.PWR_STAT; omega) _ _ _).2

end

end Sys2Proof.Machine
end

section
/-! Stages 7 to 10 of start-up, and its limits (R224, R270, R360, R415, R416, R419). -/

namespace Sys2Proof.Machine

section
variable {s t : State}

/-! R270: the ports. -/

/-- What each port's turn makes of it, when no other port's turn can change what it comes to. -/
theorem portState_foldl {g : State → Nat → State} {val : Nat → State → Nat} (honly : ∀ t k, t.Inv → Leaves (onlyReg (R.SCF_PORT_STAT k)) t (g t k))
    (hself : ∀ t k, t.Inv → portState (g t k) k = val k t) (hval : ∀ t j k, t.Inv → j ≠ k → val j (g t k) = val j t) {j : Nat} {ports : List Nat} (hnodup : ports.Nodup) :
    ∀ {s}, s.Inv → portState (ports.foldl g s) j = if j ∈ ports then val j s else portState s j := by
  induction ports with
  | nil => exact fun _ => rfl
  | cons k ports ih =>
    intro s h
    obtain ⟨hk, hrest⟩ := List.nodup_cons.1 hnodup
    rw [List.foldl_cons, ih hrest (honly s k h).inv]
    by_cases heq : j = k
    · subst heq
      rw [if_neg hk, if_pos List.mem_cons_self, hself s j h]
    · simp only [List.mem_cons, heq, false_or]
      rw [hval s j k h heq, portState_of_only (honly s k h) heq]

/-- R270: a port trains, goes on training, or is held. -/
def portTrains (trained failed : List Nat) (s : State) (k : Nat) : State :=
  if rdf s (R.SCF_PORT_CTL k) 0 2 = 0 ∨ failed.contains k = true then s
  else if trained.contains k then
    { wrf (setPort s k 2) (R.SCF_PORT_STAT k) 2 1 1 with portSeen := sset 0 s.portSeen k s.ltc.toNat }
  else setPort s k 1

/-- R270: the state of a port after its training. -/
def trainedTo (trained failed : List Nat) (k : Nat) (s : State) : Nat :=
  if rdf s (R.SCF_PORT_CTL k) 0 2 = 0 ∨ failed.contains k = true then portState s k else if trained.contains k then 2 else 1

/-- R270: the ports have trained. -/
def portsTrained (s : State) (trained failed : List Nat) : State := (List.range 16).foldl (portTrains trained failed) s

/-- R415: a Palale Link port trains, or goes on training. -/
def linkTrains (plk : List Nat) (s : State) (k : Nat) : State := wrf s R.PLK_STAT (2 * k) 2 (if plk.contains k then 3 else 1)

section
variable (h : s.Inv) (trained failed plk : List Nat)
include h

theorem portTrains_only (k : Nat) : Leaves (onlyReg (R.SCF_PORT_STAT k)) s (portTrains trained failed s k) := by
  unfold portTrains
  split_ifs
  · exact .refl h
  · have hlock := (setPort_only h k 2).wrf (onlyReg_self _) 2 1 1
    exact hlock.same hlock.inv rfl
  · exact setPort_only h k 1

theorem portTrains_self (k : Nat) : portState (portTrains trained failed s k) k = trainedTo trained failed k s := by
  unfold portTrains trainedTo
  split_ifs
  · rfl
  · exact (portState_wrf_lock (setPort_inv h k 2) k 1).trans (portState_setPort h k 2)
  · exact portState_setPort h k 1

theorem trainedTo_portTrains {j k : Nat} (hj : j ≠ k) : trainedTo trained failed j (portTrains trained failed s k) = trainedTo trained failed j s := by
  have honly := portTrains_only h trained failed k
  rw [trainedTo, rdf_ctl_of_only honly, portState_of_only honly hj, trainedTo]

theorem portState_portsTrained {k : Nat} (hk : k < 16) : portState (portsTrained s trained failed) k = trainedTo trained failed k s := by
  rw [portsTrained, portState_foldl (val := trainedTo trained failed) (fun t k ht => portTrains_only ht trained failed k) (fun t k ht => portTrains_self ht trained failed k)
    (fun t j k ht hj => trainedTo_portTrains ht trained failed hj) List.nodup_range h, if_pos (List.mem_range.2 hk)]

theorem portsTrained_inv : (portsTrained s trained failed).Inv :=
  foldl_keeps (P := State.Inv) (fun _ k ht => (portTrains_only ht trained failed k).inv) _ h

theorem linksTrained_leaves : Leaves (onlyReg R.PLK_STAT) s ((List.range 2).foldl (linkTrains plk) s) :=
  ((Leaves.refl h).wrf (onlyReg_self _) _ _ _).wrf (onlyReg_self _) _ _ _

theorem linksTrained_stat {k : Nat} (hk : k < 2) : rdf ((List.range 2).foldl (linkTrains plk) s) R.PLK_STAT (2 * k) 2 = if plk.contains k then 3 else 1 := by
  have hfirst : (linkTrains plk s 0).Inv := wrf_inv _ _ _ _ h
  have hshort (j : Nat) : (if plk.contains j then 3 else 1) % 2 ^ 2 = if plk.contains j then 3 else 1 := by split_ifs <;> rfl
  show rdf (linkTrains plk (linkTrains plk s 0) 1) R.PLK_STAT (2 * k) 2 = _
  interval_cases k
  · rw [linkTrains, rdf_wrf_apart hfirst _ _ _ _ _ _ (by decide) (by decide), linkTrains, rdf_wrf_same h _ _ _ _ (by decide), hshort]
  · rw [linkTrains, rdf_wrf_same hfirst _ _ _ _ (by decide), hshort]

end

theorem portsTrained_power (h : s.Inv) (trained failed : List Nat) : PowerKept s (portsTrained s trained failed) := by
  refine .foldl (fun t k ht => ?_) _ (.refl h)
  have hport : R.PWR_STAT ≠ R.SCF_PORT_STAT k := by
    unfold R.PWR_STAT R.SCF_PORT_STAT
    omega
  refine .ite ht (.ite ?_ (ht.wrf hport _ _ _))
  exact ((ht.wrf hport 0 2 2).wrf hport 2 1 1).same rfl rfl

theorem exec_serdesTraining_stage (hstage : inStage s 7 = true) (trained failed plk : List Nat) :
    exec (.serdesTraining trained failed plk) s = .next (toStage ((List.range 2).foldl (linkTrains plk) (portsTrained s trained failed)) 8) := by
  show execSerdesTraining trained failed plk s = _
  rw [execSerdesTraining, if_neg (by simp [hstage])]
  rfl

theorem serdesTrains (h : s.Inv) (trained failed plk : List Nat) (hstage : inStage s 7 = true) :
    ∃ u, exec (.serdesTraining trained failed plk) s = .next u ∧ inStage u 8 = true ∧
      (∀ k < 16, rdf s (R.SCF_PORT_CTL k) 0 2 ≠ 0 → failed.contains k = false → portState u k = (if trained.contains k then 2 else 1)) ∧
      (∀ k < 16, rdf s (R.SCF_PORT_CTL k) 0 2 = 0 ∨ failed.contains k = true → portState u k = portState s k) ∧
      (∀ k < 2, rdf u R.PLK_STAT (2 * k) 2 = (if plk.contains k then 3 else 1)) := by
  have hports := portsTrained_inv h trained failed
  have hlinks := linksTrained_leaves hports plk
  have hstat (k : Nat) (hk : k < 16) : portState (toStage ((List.range 2).foldl (linkTrains plk) (portsTrained s trained failed)) 8) k = trainedTo trained failed k s := by
    rw [portState_of_rd (rd_toStage hlinks.inv 8 (by unfold R.SCF_PORT_STAT R.PWR_STAT; omega)),
      portState_of_rd (hlinks.rd_eq _ (onlyReg_of_ne (by unfold R.SCF_PORT_STAT R.PLK_STAT; omega))), portState_portsTrained h trained failed hk]
  have hplk : R.PWR_STAT ≠ R.PLK_STAT := by decide
  refine ⟨_, exec_serdesTraining_stage hstage trained failed plk,
    (PowerKept.foldl (fun _ k ht => ht.wrf hplk _ _ _) _ (portsTrained_power h trained failed)).inStage_toStage hstage (by decide),
    fun k hk hmode hfail => (hstat k hk).trans (if_neg fun hheld => hheld.elim hmode fun hin => Bool.false_ne_true (hfail ▸ hin)), fun k hk hheld => (hstat k hk).trans (if_pos hheld), fun k hk => ?_⟩
  rw [rdf_of_rd (rd_toStage hlinks.inv 8 (by decide)), linksTrained_stat hports plk hk]

/-! R224, R415: memory is cleared, and the boot is counted. -/

theorem hbmZeroes (h : s.Inv) (hstage : inStage s 8 = true) :
    ∃ u, exec .hbmZero s = .next u ∧ inStage u 9 = true ∧ ∀ a, a < 0x020000000000 → memByte u a = 0 :=
  ⟨_, next_ite_pos hstage, ((PowerKept.refl h).same (u := memClear s 0 0x020000000000) rfl rfl).inStage_toStage hstage (by decide),
    fun a ha => memByte_memClear_in s (Nat.zero_le a) ha⟩

/-- R224, R360: the keys of stage 9 are drawn, and the on-die memories are cleared. -/
def keysDrawn (s : State) : State :=
  let s := memClear s 0x020000000000 0x0F0000000000
  let k := drawNat s
  let a := drawBits 64 k.2
  let b := drawBits 64 a.2
  let s : State := { b.2 with attest := k.1 }
  wr (wr s (R.MEM_PART_KEY 0 8) a.1) (R.MEM_PART_KEY 1 8) b.1

/-- R415: the boot is counted. -/
def bootCounted (s : State) : State := wr s R.SEC_BOOTCOUNT (rd s R.SEC_BOOTCOUNT + 1)

theorem keysDrawn_leaves (h : s.Inv) : Leaves (fun a => a == R.MEM_PART_KEY 0 8 || a == R.MEM_PART_KEY 1 8) s (keysDrawn s) := by
  have hclear : Leaves (fun a => a == R.MEM_PART_KEY 0 8 || a == R.MEM_PART_KEY 1 8) s (memClear s 0x020000000000 0x0F0000000000) :=
    (Leaves.refl h).same (memClear_inv h _ _) rfl
  have hdrawn : Leaves (fun a => a == R.MEM_PART_KEY 0 8 || a == R.MEM_PART_KEY 1 8) s
      { memClear s 0x020000000000 0x0F0000000000 with free := s.free + 3, attest := Config.freeNat s.free } := hclear.same hclear.inv rfl
  exact (hdrawn.wr (by decide) _).wr (by decide) _

theorem bootCounted_count (h : s.Inv) : rd (bootCounted (keysDrawn s)) R.SEC_BOOTCOUNT = rd s R.SEC_BOOTCOUNT + 1 := by
  have hkeys := keysDrawn_leaves h
  rw [bootCounted, rd_wr_same hkeys.inv, hkeys.rd_eq _ (by decide)]

theorem bootCounted_power (h : s.Inv) : PowerKept s (bootCounted (keysDrawn s)) := by
  have hkeys := keysDrawn_leaves h
  exact PowerKept.wr ⟨hkeys.inv.regs, hkeys.rd_eq _ (by decide), rfl⟩ (by decide) _

/-- R388: the record of a boot. -/
def bootRecorded (s : State) : State :=
  let frozen := bitw (rd s R.BBX_STAT) 16
  bbx s frozen 0x0C 0 0 0 (leBytes 1 (rdf s R.SEC_STAT 6 1) ++ leBytes 1 (rdf s R.SEC_STAT 16 6) ++ leBytes 1 (if frozen then 1 else 0))

theorem exec_memoryClear_stage (hstage : inStage s 9 = true) : exec .memoryClear s = .next (toStage (bootRecorded (bootCounted (keysDrawn s))) 10) := by
  show execMemoryClear s = _
  rw [execMemoryClear, if_neg (by simp [hstage])]
  rfl

theorem memoryClears (h : s.Inv) (hstage : inStage s 9 = true) :
    ∃ u, exec .memoryClear s = .next u ∧ inStage u 10 = true ∧ rd u R.SEC_BOOTCOUNT = rd s R.SEC_BOOTCOUNT + 1 ∧
      u.attest = Config.freeNat s.free ∧ ∀ a, 0x020000000000 ≤ a → a < 0x0F0000000000 → memByte u a = 0 := by
  have hcount : (bootCounted (keysDrawn s)).Inv := wr_inv _ _ (keysDrawn_leaves h).inv
  have hrec : Leaves bbxReg (bootCounted (keysDrawn s)) (bootRecorded (bootCounted (keysDrawn s))) := bbx_leaves hcount ..
  refine ⟨_, exec_memoryClear_stage hstage, ((bootCounted_power h).bbx _ _ _ _ _ _).inStage_toStage hstage (by decide), ?_, ?_, fun a hlo hhi => ?_⟩
  · rw [rd_toStage hrec.inv 10 (by decide), hrec.rd_eq _ (by decide), bootCounted_count h]
  · exact (bbx_reads State.attest (fun _ _ _ => rfl) (fun _ _ _ => rfl) (fun _ _ => rfl) (bootCounted (keysDrawn s)) ..).trans rfl
  · have hclear : memByte (bootCounted (keysDrawn s)) a = 0 := memByte_memClear_in s hlo hhi
    have hmem : memScrubs (bootRecorded (bootCounted (keysDrawn s))) = memScrubs (bootCounted (keysDrawn s)) := memScrubs_bbx ..
    simp only [memScrubs, Prod.mk.injEq] at hmem
    exact (memByte_of_mem hmem.1 hmem.2.1 a).trans hclear

/-! R415, R416, R419: the package runs, or a stage is late. -/

theorem exec_frontEndReady_stage (hstage : inStage s 10 = true) : ∃ u, exec .frontEndReady s = .next u ∧
    u.regs = (wrf (wrf s R.PWR_STAT 0 4 2) R.PWR_STAT 32 32 ((s.ltc.toNat - s.beganAt) / 1000000)).regs ∧ u.alive = 1 ∧ u.mem = s.mem :=
  ⟨_, next_ite_neg (by simp [hstage]), rfl, rfl, rfl⟩

theorem frontEndRuns (h : s.Inv) (hstage : inStage s 10 = true) : ∃ u, exec .frontEndReady s = .next u ∧ issuing u = true ∧ u.alive = 1 ∧ u.mem = s.mem := by
  obtain ⟨u, hexec, hregs, halive, hmem⟩ := exec_frontEndReady_stage hstage
  have hrun : pwrState u = 2 := by
    rw [pwrState, rdf_of_rd (rd_of_regs hregs _), rdf_wrf_apart (wrf_inv _ _ _ _ h) _ _ _ _ _ _ (by decide) (by decide), rdf_wrf_same h _ _ _ _ (by decide)]
    rfl
  exact ⟨u, hexec, by simp [issuing, hrun], halive, hmem⟩

theorem exec_startUpStageTimeout_starting (hstate : pwrState s = 1) (hpower : unpowered s = false) (hlate : 2 ≤ rdf s R.PWR_STAT 4 4) (himage : s.noImage = false) :
    exec .startUpStageTimeout s = .next (if s.startAt + (stageEnd (rdf s R.PWR_STAT 4 4) + 100) * 1000000 ≤ s.ltc.toNat then fatal s 6 0 0 else s) := by
  show execStartUpStageTimeout s = _
  rw [execStartUpStageTimeout]
  exact congrArg _ (if_neg (by simp [hstate, hpower, himage, show 1 < rdf s R.PWR_STAT 4 4 from hlate]))

theorem lateStages : Sys2Proof.Parts.LateStages := by
  intro s h
  refine ⟨fun failed repaired hstage => ⟨fun hmany => ?_, hbmTrains h repaired hstage⟩, serdesTrains h, hbmZeroes h, memoryClears h, frontEndRuns h,
    fun hstate hpower hstage himage => ⟨fun hlate => ?_, fun hsoon => ?_⟩, fun himage => next_ite_pos (by simp [himage])⟩
  · have hany : (List.range 2).any (fun h => 32 < ((List.range 192).filter (fun c => failed.contains (h, c))).length) = true := by
      simpa only [List.any_eq_true, List.mem_range, decide_eq_true_eq] using hmany
    exact (exec_hbmTraining_stage hstage failed repaired).trans (next_ite_pos hany)
  · exact (exec_startUpStageTimeout_starting hstate hpower hstage himage).trans (next_ite_pos hlate)
  · exact (exec_startUpStageTimeout_starting hstate hpower hstage himage).trans (next_ite_neg (Nat.not_le.2 hsoon))

end

end Sys2Proof.Machine
end

section
/-! Power loss and resets (R2, R30, R394, R415, R417, R418, R420, R426, R431). -/

namespace Sys2Proof.Machine

section
variable {s t : State}

/-! R394: the power is lost. -/

/-- R394: the record of a loss. -/
def lossRecorded (s : State) (cause : Nat) : State := bbx s false 0x0D 0 0 0 (leBytes 1 cause ++ leBytes 7 0 ++ leBytes 8 s.ltc.toNat)

/-- R270: a port falls to DOWN and loses its lock. -/
def portFalls (s : State) (k : Nat) : State := wrf (setPort s k 0) (R.SCF_PORT_STAT k) 2 1 0

/-- R394: every Scauth port is down. -/
def portsFallen (s : State) : State := (List.range 16).foldl portFalls s

/-- R394: links, rails and the root PLL stop. -/
def suppliesStopped (s : State) : State :=
  wrf (wrf (wrf (wrf (wrf s R.PLK_STAT 0 4 0) R.PWR_STAT 0 4 5) R.PWR_RAIL 0 12 0) R.CLK_STATUS 0 1 0) R.CLK_STATUS 3 1 0

/-- R364: a burn of the security version that is cut short leaves the count anywhere between its old and its new value. -/
def burnCut (s : State) (cut : Bool) : State :=
  match s.svnTo with
  | some n => if cut then (let d := drawNat s; let o := rdf s R.SEC_STAT 8 6; wrf d.2 R.SEC_STAT 8 6 (o + d.1 % (n + 1 - o))) else s
  | none => s

/-- R394: the state of a package without power. -/
def powerLost (s : State) (cause : Nat) : State :=
  { burnCut (suppliesStopped (portsFallen (lossRecorded s cause))) (issuing s) with mramLocked := true, pwrgood := false, alive := 0, faultN := true, standby := false }

theorem exec_powerLoss_powered {cause : Nat} (hcause : cause < 2) (hpower : unpowered s = false) : exec (.powerLoss cause) s = .next (powerLost s cause) := by
  show execPowerLoss cause s = _
  rw [execPowerLoss, if_neg (by simp [hpower, hcause])]
  rfl

section
variable (h : s.Inv)
include h

theorem portFalls_only (k : Nat) : Leaves (onlyReg (R.SCF_PORT_STAT k)) s (portFalls s k) := (setPort_only h k 0).wrf (onlyReg_self _) 2 1 0

theorem portFalls_down (k : Nat) : portState (portFalls s k) k = 0 := (portState_wrf_lock (setPort_inv h k 0) k 0).trans (portState_setPort h k 0)

theorem portsFallen_inv : (portsFallen s).Inv := foldl_keeps (P := State.Inv) (fun _ k ht => (portFalls_only ht k).inv) _ h

theorem portsFallen_down {k : Nat} (hk : k < 16) : portState (portsFallen s) k = 0 := by
  rw [portsFallen, portState_foldl (val := fun _ _ => 0) (fun t k ht => portFalls_only ht k) (fun t k ht => portFalls_down ht k) (fun _ _ _ _ _ => rfl) List.nodup_range h,
    if_pos (List.mem_range.2 hk)]

theorem suppliesStopped_leaves : Leaves (fun a => a ∈ [R.PLK_STAT, R.PWR_STAT, R.PWR_RAIL, R.CLK_STATUS]) s (suppliesStopped s) :=
  (((((Leaves.refl h).wrf (by decide) _ _ _).wrf (by decide) _ _ _).wrf (by decide) _ _ _).wrf (by decide) _ _ _).wrf (by decide) _ _ _

theorem suppliesStopped_state : pwrState (suppliesStopped s) = 5 := by
  have hlinks := wrf_inv R.PLK_STAT 0 4 0 h
  have hstate := wrf_inv R.PWR_STAT 0 4 5 hlinks
  have hrail := wrf_inv R.PWR_RAIL 0 12 0 hstate
  rw [pwrState, suppliesStopped, rdf_of_rd (rd_wrf_ne (wrf_inv _ _ _ _ hrail) _ _ _ (by decide)), rdf_of_rd (rd_wrf_ne hrail _ _ _ (by decide)),
    rdf_of_rd (rd_wrf_ne hstate _ _ _ (by decide)), rdf_wrf_same hlinks _ _ _ _ (by decide)]
  rfl

theorem suppliesStopped_lock : rdf (suppliesStopped s) R.CLK_STATUS 0 1 = 0 := by
  have hrail := wrf_inv R.PWR_RAIL 0 12 0 (wrf_inv R.PWR_STAT 0 4 5 (wrf_inv R.PLK_STAT 0 4 0 h))
  rw [suppliesStopped, rdf_wrf_apart (wrf_inv _ _ _ _ hrail) _ _ _ _ _ _ (by decide) (by decide), rdf_wrf_same hrail _ _ _ _ (by decide)]
  rfl

theorem burnCut_only (cut : Bool) : Leaves (onlyReg R.SEC_STAT) s (burnCut s cut) := by
  unfold burnCut
  split
  · split
    · exact ((Leaves.refl h).same (u := (drawNat s).2) h rfl).wrf (onlyReg_self _) _ _ _
    · exact .refl h
  · exact .refl h

end

/-- R30: the counter and memory. -/
def ltcMem (s : State) : Word × Sparse Byte := (s.ltc, s.mem)

theorem ltcMem_burnCut (s : State) (cut : Bool) : ltcMem (burnCut s cut) = ltcMem s := by
  unfold burnCut
  split
  · split <;> rfl
  · rfl

theorem ltcMem_suppliesStopped (s : State) : ltcMem (suppliesStopped s) = ltcMem s := rfl

theorem ltcMem_portsFallen (s : State) : ltcMem (portsFallen s) = ltcMem s := foldl_reads ltcMem (f := portFalls) (fun _ _ => rfl) _ s

theorem ltcMem_lossRecorded (s : State) (cause : Nat) : ltcMem (lossRecorded s cause) = ltcMem s :=
  bbx_reads ltcMem (fun _ _ _ => rfl) (fun _ _ _ => rfl) (fun _ _ => rfl) s ..

theorem ltcMem_powerLost (s : State) (cause : Nat) : ltcMem (powerLost s cause) = ltcMem s := by
  have hmarks : ltcMem (powerLost s cause) = ltcMem (burnCut (suppliesStopped (portsFallen (lossRecorded s cause))) (issuing s)) := rfl
  rw [hmarks, ltcMem_burnCut, ltcMem_suppliesStopped, ltcMem_portsFallen, ltcMem_lossRecorded]

theorem powerLoses (h : s.Inv) {cause : Nat} (hcause : cause < 2) (hpower : unpowered s = false) :
    ∃ u, exec (.powerLoss cause) s = .next u ∧ unpowered u = true ∧ pwrState u = 5 ∧ u.pwrgood = false ∧ u.alive = 0 ∧
      (∀ k < 16, portState u k = 0) ∧ rdf u R.CLK_STATUS 0 1 = 0 ∧ u.ltc = s.ltc ∧ u.mem = s.mem := by
  have hrec : Leaves bbxReg s (lossRecorded s cause) := bbx_leaves h ..
  have hports := portsFallen_inv hrec.inv
  have hstop := suppliesStopped_leaves hports
  have hburn := burnCut_only hstop.inv (issuing s)
  have hread {a : Nat} (ha : a ≠ R.SEC_STAT) : rd (powerLost s cause) a = rd (suppliesStopped (portsFallen (lossRecorded s cause))) a :=
    hburn.rd_eq a (onlyReg_of_ne ha)
  have hkept := ltcMem_powerLost s cause
  simp only [ltcMem, Prod.mk.injEq] at hkept
  refine ⟨_, exec_powerLoss_powered hcause hpower, rfl, ?_, rfl, rfl, fun k hk => ?_, ?_, hkept.1, hkept.2⟩
  · exact (rdf_of_rd (hread (by decide)) 0 4).trans (suppliesStopped_state hports)
  · have hport : ∀ r ∈ [R.SEC_STAT, R.PLK_STAT, R.PWR_STAT, R.PWR_RAIL, R.CLK_STATUS], R.SCF_PORT_STAT k ≠ r := by
      simp only [List.forall_mem_cons, R.SCF_PORT_STAT, R.SEC_STAT, R.PLK_STAT, R.PWR_STAT, R.PWR_RAIL, R.CLK_STATUS]
      refine ⟨?_, ?_, ?_, ?_, ?_, List.forall_mem_nil _⟩ <;> omega
    have hstopped : decide (R.SCF_PORT_STAT k ∈ [R.PLK_STAT, R.PWR_STAT, R.PWR_RAIL, R.CLK_STATUS]) = false :=
      decide_eq_false fun hmem => hport _ (List.mem_cons_of_mem _ hmem) rfl
    rw [portState_of_rd (hread (hport _ List.mem_cons_self)), portState_of_rd (hstop.rd_eq _ hstopped)]
    exact portsFallen_down hrec.inv hk
  · exact (rdf_of_rd (hread (by decide)) 0 1).trans (suppliesStopped_lock hports)

/-! R238, R391: the black box's rebuild. -/

/-- R24: the registers of the dies behind the fabric die. -/
def beyondFabric (a : Nat) : Bool := 0xf0040000000 ≤ a

/-- The package with its registers and the count of its spare rows blanked. -/
def unregistered (s : State) : State := { s with regs := [], sparesUsed := [] }

/-- R391: what a rebuild may change. -/
structure Rebuilds (s t : State) : Prop where
  leaves : Leaves beyondFabric s t
  rest : unregistered t = unregistered s

namespace Rebuilds

theorem refl (h : s.Inv) : Rebuilds s s := ⟨.refl h, rfl⟩

variable (h : Rebuilds s t)
include h

theorem wr {a : Nat} (ha : 0xf0040000000 ≤ a) (v : Word) : Rebuilds s (Machine.wr t a v) := ⟨h.leaves.wr (by simp [beyondFabric, ha]) v, h.rest⟩
theorem wrf {a : Nat} (ha : 0xf0040000000 ≤ a) (lo n v : Nat) : Rebuilds s (Machine.wrf t a lo n v) := h.wr ha _
theorem addSat {a : Nat} (ha : 0xf0040000000 ≤ a) (lo n k : Nat) : Rebuilds s (Machine.addSat t a lo n k) := h.wr ha _
theorem spares (used : Sparse Nat) : Rebuilds s { t with sparesUsed := used } := ⟨h.leaves.same h.leaves.inv rfl, h.rest⟩

theorem rebuildOne (r : List Byte) : Rebuilds s (rebuildOne t r) := by
  have hchan (half c : Nat) : 0xf0040000000 ≤ R.MEM_CH_STAT half c := by
    unfold R.MEM_CH_STAT
    omega
  have hremap (half i : Nat) : 0xf0040000000 ≤ R.MEM_REMAP half i := by
    unfold R.MEM_REMAP
    omega
  have hretire (half i : Nat) : 0xf0040000000 ≤ R.MEM_RETIRE half i := by
    unfold R.MEM_RETIRE
    omega
  have hstat (half : Nat) : 0xf0040000000 ≤ R.MEM_RETIRE_STAT half := by
    unfold R.MEM_RETIRE_STAT
    omega
  unfold Machine.rebuildOne
  dsimp only
  split
  · exact h
  split
  · exact (h.wr (hremap _ _) _).spares _
  split
  · refine addSat ?_ (hchan _ _) _ _ _
    split
    · refine wrf ?_ (hstat _) _ _ _
      split
      · exact (h.wr (hretire _ _) _).wrf (hstat _) _ _ _
      · exact h
    · split
      · exact (h.wr (hretire _ _) _).wrf (hstat _) _ _ _
      · exact h
  split
  · exact h.wrf (hchan _ _) _ _ _
  · exact h

omit h in
theorem rebuild (hs : s.Inv) : Rebuilds s (rebuild s) := by
  have hrecords := foldl_keeps (P := Rebuilds s) (fun t r ht => ht.rebuildOne r) ((bbxValid s).foldl (fun l r => insSeq r l) []) (refl hs)
  unfold Machine.rebuild
  refine foldl_keeps (P := Rebuilds s) (fun t half ht => ht.wrf ?_ _ _ _) _ (foldl_keeps (P := Rebuilds s) (fun t kv ht => ht.wrf ?_ _ _ _) _ hrecords)
  · unfold R.MEM_RAS_STAT
    omega
  · unfold R.MEM_CH_STAT
    omega

end Rebuilds

/-! R418: what a reset keeps. -/

/-- R418: the black box's freeze and counts. -/
def boxKept (s z : State) : State :=
  wr (wr (wr z R.BBX_STAT (BitVec.ofNat 64 (rdf s R.BBX_STAT 0 17))) R.BBX_RING (rd s R.BBX_RING)) R.BBX_SEQ (rd s R.BBX_SEQ)

/-- R364, R418: the count of the boots and the fused security version. -/
def bootKept (s z : State) : State := wrf (wr z R.SEC_BOOTCOUNT (rd s R.SEC_BOOTCOUNT)) R.SEC_STAT 8 6 (rdf s R.SEC_STAT 8 6)

/-- R418: the module in a bay. -/
def bayKept (s z : State) (b : Nat) : State := if (bayOf s b).mod.isSome then wrf z (R.DRN_BAY b) 0 1 1 else z

/-- R418: the modules in their bays. -/
def baysKept (s z : State) : State := (List.range 2).foldl (bayKept s) z

/-- R2, R418: the fuses. -/
def fusesKept (s z : State) : State :=
  wr (wr (wrf (wr z R.PKG_ID (rd s R.PKG_ID)) R.PKG_LAYOUT 0 16 (rdf s R.PKG_LAYOUT 0 16)) R.PKG_NCL_W (rd s R.PKG_NCL_W)) R.PKG_NCL_E (rd s R.PKG_NCL_E)

/-- R418: REF_LOST over a warm reset, and the clock's reference. -/
def clockKept (s : State) (warm : Bool) (z : State) : State :=
  wrf (wrf z R.CLK_STATUS 2 1 (if warm then rdf s R.CLK_STATUS 2 1 else 0)) R.CLK_STATUS 4 1 (if s.refOk then 0 else 1)

/-- R415, R417: the stage at which the package starts. -/
def stageSet (warm : Bool) (z : State) : State := if warm then wrf z R.PWR_STAT 4 4 2 else z

/-- R418: a reset up to the modules in their bays. -/
def marksKept (s : State) (warm : Bool) : State := baysKept s (bootKept s (boxKept s (bare s warm)))

/-- R418: a reset, but for the black box's rebuild. -/
def resetKept (s : State) (warm : Bool) : State := stageSet warm (clockKept s warm (fusesKept s (marksKept s warm)))

theorem reborn_eq (s : State) (warm : Bool) : reborn s warm = rebuild (resetKept s warm) := rfl

section
variable (s) {z : State} (h : z.Inv)
include h

theorem boxKept_leaves : Leaves bbxReg z (boxKept s z) := (((Leaves.refl h).wr (by decide) _).wr (by decide) _).wr (by decide) _

theorem boxKept_seq : rd (boxKept s z) R.BBX_SEQ = rd s R.BBX_SEQ := rd_wr_same (wr_inv _ _ (wr_inv _ _ h)) _ _

theorem bootKept_leaves : Leaves (fun a => a ∈ [R.SEC_BOOTCOUNT, R.SEC_STAT]) z (bootKept s z) := ((Leaves.refl h).wr (by decide) _).wrf (by decide) _ _ _

theorem baysKept_leaves : Leaves (fun a => a ∈ [R.DRN_BAY 0, R.DRN_BAY 1]) z (baysKept s z) := by
  refine foldl_keeps_mem (P := Leaves _ z) (fun b hb t ht => ?_) (Leaves.refl h)
  have hlt := List.mem_range.1 hb
  unfold bayKept
  split
  · refine ht.wrf ?_ _ _ _
    interval_cases b <;> decide
  · exact ht

theorem fusesKept_leaves : Leaves (fun a => a ∈ [R.PKG_ID, R.PKG_LAYOUT, R.PKG_NCL_W, R.PKG_NCL_E]) z (fusesKept s z) :=
  ((((Leaves.refl h).wr (by decide) _).wrf (by decide) _ _ _).wr (by decide) _).wr (by decide) _

theorem fusesKept_id : rd (fusesKept s z) R.PKG_ID = rd s R.PKG_ID := by
  have hid := wr_inv R.PKG_ID (rd s R.PKG_ID) h
  have hlayout := wrf_inv R.PKG_LAYOUT 0 16 (rdf s R.PKG_LAYOUT 0 16) hid
  rw [fusesKept, rd_wr_ne (wr_inv _ _ hlayout) _ (by decide), rd_wr_ne hlayout _ (by decide), rd_wrf_ne hid _ _ _ (by decide), rd_wr_same h]

theorem fusesKept_cores : nCores (fusesKept s z) = nCores s := by
  have hid := wr_inv R.PKG_ID (rd s R.PKG_ID) h
  have hlayout := wrf_inv R.PKG_LAYOUT 0 16 (rdf s R.PKG_LAYOUT 0 16) hid
  rw [nCores, fusesKept, rdf_of_rd (rd_wr_ne (wr_inv _ _ hlayout) _ (by decide)), rdf_of_rd (rd_wr_ne hlayout _ (by decide)), rdf, rd_wrf_same hid,
    fld_putf_within _ _ _ _ _ _ (by decide) (by decide) (by decide), rdf, fld_zero_eq_mod, nCores, rdf, fld_zero_eq_mod]
  simp [nfld]

theorem fusesKept_west : rd (fusesKept s z) R.PKG_NCL_W = rd s R.PKG_NCL_W := by
  have hlayout := wrf_inv R.PKG_LAYOUT 0 16 (rdf s R.PKG_LAYOUT 0 16) (wr_inv R.PKG_ID (rd s R.PKG_ID) h)
  rw [fusesKept, rd_wr_ne (wr_inv _ _ hlayout) _ (by decide), rd_wr_same hlayout]

theorem fusesKept_east : rd (fusesKept s z) R.PKG_NCL_E = rd s R.PKG_NCL_E := rd_wr_same (wr_inv _ _ (wrf_inv _ _ _ _ (wr_inv _ _ h))) _ _

variable (warm : Bool)

theorem clockKept_leaves : Leaves (onlyReg R.CLK_STATUS) z (clockKept s warm z) := ((Leaves.refl h).wrf (onlyReg_self _) _ _ _).wrf (onlyReg_self _) _ _ _

theorem clockKept_lost : rdf (clockKept s warm z) R.CLK_STATUS 2 1 = if warm then rdf s R.CLK_STATUS 2 1 else 0 := by
  rw [clockKept, rdf_wrf_apart (wrf_inv _ _ _ _ h) _ _ _ _ _ _ (by decide) (by decide), rdf_wrf_same h _ _ _ _ (by decide)]
  split
  · exact Nat.mod_eq_of_lt (Nat.mod_lt _ (by decide))
  · rfl

/-- R418: the fields of the clock beside REF_LOST and the reference. -/
theorem clockKept_rest (lo n : Nat) (hlost : lo + n ≤ 2 ∨ 3 ≤ lo) (href : lo + n ≤ 4 ∨ 5 ≤ lo) : rdf (clockKept s warm z) R.CLK_STATUS lo n = rdf z R.CLK_STATUS lo n := by
  rw [clockKept, rdf_wrf_apart (wrf_inv _ _ _ _ h) _ _ _ _ _ _ (by decide) href, rdf_wrf_apart h _ _ _ _ _ _ (by decide) hlost]

omit s in
theorem stageSet_leaves : Leaves (onlyReg R.PWR_STAT) z (stageSet warm z) := by
  unfold stageSet
  split
  · exact (Leaves.refl h).wrf (onlyReg_self _) _ _ _
  · exact .refl h

omit s in
theorem stageSet_state : pwrState (stageSet warm z) = pwrState z := by
  unfold stageSet
  split
  · exact rdf_wrf_apart h _ _ _ _ _ _ (by decide) (by decide)
  · rfl

omit s in
theorem stageSet_stage : rdf (stageSet warm z) R.PWR_STAT 4 4 = if warm then 2 else rdf z R.PWR_STAT 4 4 := by
  unfold stageSet
  split
  · exact rdf_wrf_same h _ _ _ _ (by decide)
  · rfl

end

end

end Sys2Proof.Machine
end

section
/-! The state after a reset, and what resets a package (R417, R418, R426, R431). -/

namespace Sys2Proof.Machine

section
variable {s : State}

section
variable (h : s.Inv) (warm : Bool)
include h

theorem bare_inv : (bare s warm).Inv := (bare_kept (inv_kept h)).2

theorem marksKept_leaves : Leaves (fun a => a ∈ [R.SEC_BOOTCOUNT, R.SEC_STAT, R.DRN_BAY 0, R.DRN_BAY 1]) (boxKept s (bare s warm)) (marksKept s warm) := by
  have hboot := bootKept_leaves s (boxKept_leaves s (bare_inv h warm)).inv
  have hbays := baysKept_leaves s hboot.inv
  refine (hboot.mono fun a ha => ?_).trans (hbays.mono fun a ha => ?_) <;>
    simp only [decide_eq_false_iff_not, List.mem_cons, not_or] at ha ⊢
  · exact ⟨ha.1, ha.2.1, List.not_mem_nil⟩
  · exact ⟨ha.2.2.1, ha.2.2.2.1, List.not_mem_nil⟩

theorem fusesKept_marksKept_leaves : Leaves (fun a => a ∈ [R.PKG_ID, R.PKG_LAYOUT, R.PKG_NCL_W, R.PKG_NCL_E]) (marksKept s warm) (fusesKept s (marksKept s warm)) :=
  fusesKept_leaves s (marksKept_leaves h warm).inv

theorem clockKept_fusesKept_leaves : Leaves (onlyReg R.CLK_STATUS) (fusesKept s (marksKept s warm)) (clockKept s warm (fusesKept s (marksKept s warm))) :=
  clockKept_leaves s (fusesKept_marksKept_leaves h warm).inv warm

theorem resetKept_leaves : Leaves (onlyReg R.PWR_STAT) (clockKept s warm (fusesKept s (marksKept s warm))) (resetKept s warm) :=
  stageSet_leaves (clockKept_fusesKept_leaves h warm).inv warm

theorem reborn_rebuilds : Rebuilds (resetKept s warm) (reborn s warm) := by
  rw [reborn_eq]
  exact .rebuild (resetKept_leaves h warm).inv

/-- R418: what a reset keeps of the fuses and marks. -/
theorem rd_reborn_kept {a : Nat} (hfabric : beyondFabric a = false) (hstat : a ≠ R.PWR_STAT) (hclk : a ≠ R.CLK_STATUS) :
    rd (reborn s warm) a = rd (fusesKept s (marksKept s warm)) a := by
  rw [(reborn_rebuilds h warm).leaves.rd_eq a hfabric, (resetKept_leaves h warm).rd_eq a (onlyReg_of_ne hstat), (clockKept_fusesKept_leaves h warm).rd_eq a (onlyReg_of_ne hclk)]

/-- R418: the power status and the clock's status begin at their reset values. -/
theorem rd_kept_reset {a : Nat} (ha : a ∈ [R.PWR_STAT, R.CLK_STATUS]) : rd (fusesKept s (marksKept s warm)) a = regReset a := by
  have hbare : rd (bare s warm) a = regReset a := rfl
  simp only [List.mem_cons, List.not_mem_nil, or_false] at ha
  rw [← hbare]
  rcases ha with rfl | rfl
  · rw [(fusesKept_marksKept_leaves h warm).rd_eq _ (by decide), (marksKept_leaves h warm).rd_eq _ (by decide), (boxKept_leaves s (bare_inv h warm)).rd_eq _ (by decide)]
  · rw [(fusesKept_marksKept_leaves h warm).rd_eq _ (by decide), (marksKept_leaves h warm).rd_eq _ (by decide), (boxKept_leaves s (bare_inv h warm)).rd_eq _ (by decide)]

/-- R389: the black box goes on counting. -/
theorem reborn_seq : rd (reborn s warm) R.BBX_SEQ = rd s R.BBX_SEQ := by
  rw [rd_reborn_kept h warm (by decide) (by decide) (by decide), (fusesKept_marksKept_leaves h warm).rd_eq _ (by decide), (marksKept_leaves h warm).rd_eq _ (by decide),
    boxKept_seq s (bare_inv h warm)]

theorem rd_reborn_stat : rd (reborn s warm) R.PWR_STAT = rd (resetKept s warm) R.PWR_STAT := (reborn_rebuilds h warm).leaves.rd_eq _ (by decide)

theorem rd_clockKept_stat : rd (clockKept s warm (fusesKept s (marksKept s warm))) R.PWR_STAT = regReset R.PWR_STAT := by
  rw [(clockKept_fusesKept_leaves h warm).rd_eq _ (by decide), rd_kept_reset h warm (by decide)]

/-- R415: the package starts. -/
theorem reborn_state : pwrState (reborn s warm) = 1 := by
  have hstart : pwrState (resetKept s warm) = pwrState (clockKept s warm (fusesKept s (marksKept s warm))) := stageSet_state (clockKept_fusesKept_leaves h warm).inv warm
  rw [pwrState, rdf_of_rd (rd_reborn_stat h warm)]
  exact hstart.trans (congrArg (fld · 0 4) (rd_clockKept_stat h warm))

/-- R415, R417: a warm reset starts at stage 2. -/
theorem reborn_stage : rdf (reborn s warm) R.PWR_STAT 4 4 = if warm then 2 else 1 := by
  have hstart : rdf (clockKept s warm (fusesKept s (marksKept s warm))) R.PWR_STAT 4 4 = 1 := congrArg (fld · 4 4) (rd_clockKept_stat h warm)
  rw [rdf_of_rd (rd_reborn_stat h warm), resetKept, stageSet_stage (clockKept_fusesKept_leaves h warm).inv]
  exact congrArg (fun n => if warm then 2 else n) hstart

theorem rd_reborn_clock : rd (reborn s warm) R.CLK_STATUS = rd (clockKept s warm (fusesKept s (marksKept s warm))) R.CLK_STATUS := by
  rw [(reborn_rebuilds h warm).leaves.rd_eq _ (by decide), (resetKept_leaves h warm).rd_eq _ (by decide)]

theorem reborn_clock (lo n : Nat) (hlost : lo + n ≤ 2 ∨ 3 ≤ lo) (href : lo + n ≤ 4 ∨ 5 ≤ lo) : rdf (reborn s warm) R.CLK_STATUS lo n = fld (regReset R.CLK_STATUS) lo n := by
  rw [rdf_of_rd (rd_reborn_clock h warm), clockKept_rest s (fusesKept_marksKept_leaves h warm).inv warm lo n hlost href, rdf, rd_kept_reset h warm (by decide)]

theorem reborn_lost : rdf (reborn s warm) R.CLK_STATUS 2 1 = if warm then rdf s R.CLK_STATUS 2 1 else 0 := by
  rw [rdf_of_rd (rd_reborn_clock h warm), clockKept_lost s (fusesKept_marksKept_leaves h warm).inv warm]

theorem reborn_cores : nCores (reborn s warm) = nCores s := by
  rw [nCores, rdf_of_rd (rd_reborn_kept h warm (by decide) (by decide) (by decide))]
  exact fusesKept_cores s (marksKept_leaves h warm).inv

omit h in
theorem unregistered_wr (z : State) (a : Nat) (v : Word) : unregistered (wr z a v) = unregistered z := rfl

omit h in
theorem unregistered_wrf (z : State) (a lo n v : Nat) : unregistered (wrf z a lo n v) = unregistered z := rfl

omit h in
theorem unregistered_marksKept : unregistered (marksKept s warm) = unregistered (bare s warm) := by
  have hbay (z : State) (b : Nat) : unregistered (bayKept s z b) = unregistered z := by
    unfold bayKept
    split <;> rfl
  exact foldl_reads unregistered hbay (List.range 2) (bootKept s (boxKept s (bare s warm)))

omit h in
theorem unregistered_resetKept : unregistered (resetKept s warm) = unregistered (marksKept s warm) := by
  unfold resetKept stageSet
  split <;> simp only [clockKept, fusesKept, unregistered_wr, unregistered_wrf]

/-- R418: what a reset clears, and what it keeps outside register space. -/
theorem unregistered_reborn : unregistered (reborn s warm) = unregistered (bare s warm) := by
  rw [(reborn_rebuilds h warm).rest, unregistered_resetKept, unregistered_marksKept]

end

/-! R417, R426, R431: the resets. -/

theorem exec_pwrCtlReset_barred {v : Word} (hbar : mayReset s = false ∨ s.standby = true) : exec (.pwrCtlReset v) s = .next s := by
  refine next_ite_neg ?_
  rcases hbar with hmay | hstandby
  · simp [hmay]
  · simp [hstandby]

theorem exec_pwrCtlStandby_barred {v : Word} (hbar : mayReset s = false ∨ s.standby = true) : exec (.pwrCtlStandby v) s = .next s := by
  refine next_ite_neg ?_
  rcases hbar with hmay | hstandby
  · simp [hmay]
  · simp [hstandby]

theorem rebirth (h : s.Inv) (warm : Bool) : (reborn s warm).threads = [] ∧ (reborn s warm).ncores = [] ∧ (reborn s warm).mem = [] ∧ (reborn s warm).mram = s.mram ∧
    (reborn s warm).pending = s.pending ∧ (reborn s warm).ltc = (if warm then s.ltc else 0) ∧ pwrState (reborn s warm) = 1 ∧
    rdf (reborn s warm) R.PWR_STAT 4 4 = (if warm then 2 else 1) ∧ rd (reborn s warm) R.BBX_SEQ = rd s R.BBX_SEQ ∧
    rd (reborn s warm) R.PKG_ID = rd s R.PKG_ID ∧ nCores (reborn s warm) = nCores s ∧ rd (reborn s warm) R.PKG_NCL_W = rd s R.PKG_NCL_W ∧
    rd (reborn s warm) R.PKG_NCL_E = rd s R.PKG_NCL_E ∧ rdf (reborn s warm) R.CLK_STATUS 0 2 = 0 ∧ rdf (reborn s warm) R.CLK_STATUS 3 1 = 0 ∧
    rdf (reborn s warm) R.CLK_STATUS 2 1 = (if warm then rdf s R.CLK_STATUS 2 1 else 0) := by
  have hmarks := (marksKept_leaves h warm).inv
  have hrest := unregistered_reborn h warm
  have hfuse {a : Nat} (hfabric : beyondFabric a = false) (hstat : a ≠ R.PWR_STAT) (hclk : a ≠ R.CLK_STATUS) := rd_reborn_kept h warm hfabric hstat hclk
  exact ⟨(congrArg State.threads hrest :), (congrArg State.ncores hrest :), (congrArg State.mem hrest :), (congrArg State.mram hrest :), (congrArg State.pending hrest :),
    (congrArg State.ltc hrest :), reborn_state h warm, reborn_stage h warm, reborn_seq h warm, (hfuse (by decide) (by decide) (by decide)).trans (fusesKept_id s hmarks),
    reborn_cores h warm, (hfuse (by decide) (by decide) (by decide)).trans (fusesKept_west s hmarks), (hfuse (by decide) (by decide) (by decide)).trans (fusesKept_east s hmarks),
    reborn_clock h warm 0 2 (by decide) (by decide), reborn_clock h warm 3 1 (by decide) (by decide), reborn_lost h warm⟩

theorem resets : Sys2Proof.Parts.Resets := by
  intro s h
  refine ⟨fun cause => powerLoses h, fun cause hpower => next_ite_pos (.inl hpower), next_ite_pos, fun hpower => next_ite_neg (by simp [hpower]),
    fun hpulse => next_ite_pos ?_, fun hmay himage => next_ite_neg ?_, fun v hmay hstandby => ⟨fun hconfirm hbit => next_ite_pos ?_, fun hconfirm hbit => next_ite_pos ?_,
    fun hconfirm => ⟨next_ite_neg ?_, next_ite_neg ?_⟩⟩, fun v hbar => ⟨exec_pwrCtlReset_barred hbar, exec_pwrCtlStandby_barred hbar⟩, rebirth h⟩
  · simpa only [Bool.or_eq_true, Bool.and_eq_true, Bool.not_eq_true'] using hpulse
  · rcases himage with himage | hpower
    · simp [hmay, himage]
    · simp [hmay, hpower]
  · simp [hmay, hstandby, hconfirm, show bitw v 0 = true from hbit]
  · simp [hmay, hstandby, hconfirm, show bitw v 1 = true from hbit]
  · simp [hconfirm]
  · simp [hconfirm]

end

/-- Settles O59: the ten stages, each by its command, and the resets; an image's register writes that name no register cannot move the power status (`PowerKept.regStores`),
and a reset leaves the registers that `resetKept` names, which the black box's rebuild does not touch (`Rebuilds`).
STATE 5 after a power loss, and the eighth arbitration loss counting as no image, are the model's reading (log 53). -/
theorem startUpAndResets : Obligations.StartUpAndResets := ⟨earlyStages, lateStages, resets⟩

end Sys2Proof.Machine
end
